-- ==== Sys2Proof/Word.lean ====
section
/-! DEFINITION. The plain data types every other file uses: bytes and sparse maps. -/

namespace Sys2Proof

/-- A byte of a wire, a record or a store (R7). -/
abbrev Byte := BitVec 8

/-- A sparse table keyed by a number: keys strictly rising, no entry equal to what an absent key reads as. -/
abbrev SMap (α : Type) := List (Nat × α)

end Sys2Proof
end

