-- ==== Sys2Proof/Syntax.lean ====
section
/-! DEFINITION. The commands of the block: one constructor per row of the table of operations and events. -/

namespace Sys2Proof

/-- The two references of R31. -/
inductive TbRef where
  | refclk | ptp
deriving DecidableEq, Repr

/-- The two comparators of a phase (R53). -/
inductive Comp where
  | regulation | limit
deriving DecidableEq, Repr

/-- How a frame being received ended (R268): EOF, more than 592 bytes, a code or disparity error, an ordered set or SOF, ABT. -/
inductive RxEnd where
  | eof | overrun | code | orderedSet | abort
deriving DecidableEq, Repr

/-- How a PMBus transaction ended (R280). -/
inductive PmbEnd where
  | ok | addrNack | dataNack | pec | timeout
deriving DecidableEq, Repr

/-- An Ethernet endpoint (R372): MAC address, VLAN, whether over IPv6, IP address, UDP port (0 for an EtherType frame). -/
structure Endpoint where
  mac : Nat
  vlan : Nat
  v6 : Bool
  ip : Nat
  udp : Nat
deriving DecidableEq, Repr

/-- The header of a host request as the pair that carries it gives it (R394, R411): session, epoch, SEQ, PERMIT_EPOCH, FLAGS, and
the tag where TAGGED is set with the bytes it covers. -/
structure Req where
  sess : Fin 8
  epoch : Nat
  seq : Nat
  pe : Nat
  flags : Nat
  covered : List Byte
  tag : List Byte
deriving DecidableEq, Repr


/-- What a scrub read of a Pool word finds (R332): nothing, a single-bit error, or a double-bit error; the word's number from the
start of the 4 MiB, and for the subscription region the subscriptions that the word served; `hand` where an update in hand read the word, as a slot record. -/
inductive PoolEcc where
  | clean
  | single (stem : Fin 2) (word : Nat)
  | double (stem : Fin 2) (word : Nat) (subs : List Nat) (hand : Bool)
deriving DecidableEq, Repr

/-- Where an Ethernet frame is addressed (R370): to a MAC address, broadcast, to a solicited-node address with its low 24 bits, the
address's last three bytes in little-endian order, to a multicast address of a PTP transport, elsewhere. -/
inductive EthDst where
  | unicast (mac : Nat)
  | broadcast
  | solicited (low : Nat)
  | ptp (transport : Nat)
  | other
deriving DecidableEq, Repr

/-- What an Ethernet frame holds (R371): its EtherType and bytes; a UDP datagram to a port and an IP address, `plain` where it is no
fragment and has no options or extension headers, `sum` where its checksum passes or is zero over IPv4; PTP; a request of ARP, of an
echo or of neighbour solicitation for an IP address, `plain` as for a datagram; anything else. IP addresses are numbers as HOST_IPV4_ADDR and HOST_IPV6_ADDR are. -/
inductive EthKind where
  | ether (ty : Nat)
  | udp (dport : Nat) (ip : Nat) (plain : Bool) (sum : Bool)
  | ptp (plain : Bool)
  | arp (ip : Nat)
  | echo (ip : Nat) (plain : Bool)
  | solicit (ip : Nat) (plain : Bool)
  | other
deriving DecidableEq, Repr

/-- An Ethernet frame (R370 to R372): its destination, the VLAN of its tag, the endpoint it comes from, its kind, the message or data
it carries. -/
structure EthFrame where
  dst : EthDst
  tag : Option Nat
  ep : Endpoint
  kind : EthKind
  data : List Byte
deriving DecidableEq, Repr

/-- The data set that an Announce gives of a master (R33), by which the best master clock algorithm chooses. -/
structure PtpSet where
  prio1 : Nat
  cls : Nat
  accuracy : Nat
  variance : Nat
  prio2 : Nat
  identity : Nat
  steps : Nat
deriving DecidableEq, Repr

/-- What a PTP message says (R33): an Announce of a master with its data set; a Sync with its origin time and corrections, which of a
two-step master come with the follow-up; the answer to a delay request that left at `t3` and reached the master at `t4`; the answers to
a peer delay request that left at `t1`, reached the peer at `t2`, was answered at `t3` and whose answer came at `t4`. -/
inductive PtpKind where
  | announce (d : PtpSet)
  | sync (twoStep : Bool) (t1 : Int)
  | followUp (t1 : Int)
  | delayResp (t3 t4 : Int)
  | peerResp (t1 t2 t3 t4 : Int)
deriving DecidableEq, Repr

/-- A PTP message (R33): its transport as DEV_PTP_TRANSPORT numbers them, sender, contents, and the time in ns since its timestamp at
the PCS. -/
structure PtpMsg where
  transport : Nat
  sender : Nat
  kind : PtpKind
  age : Nat
deriving DecidableEq, Repr

/-- What a timed comparator of the Bank die has sensed at a feed (R169, R170): a current in mA or a voltage in mV, and for how many ns
it has stood on its side of the level. -/
structure FeedSensed where
  feed : Fin 2
  value : Int
  held : Nat
deriving DecidableEq, Repr

/-- An SPI transaction that stands still (R376): the register offset it has reached, and for how many µs SCLK has had no edge. -/
structure SpiIdle where
  off : Nat
  us : Nat
deriving DecidableEq, Repr

/-- The commands: those with operands in the order of the table, then those without. Measured values, bytes and random numbers that
come from outside the part are operands. -/
inductive Instr where
  /-- TB_LOCKED (R31). -/
  | tbLocked (ref : TbRef) (err : Int)
  /-- PTP_EVENT_MESSAGE (R33). -/
  | ptpEventMessage (port : Fin 2) (domain : Nat) (m : PtpMsg)
  /-- LOOP_PERIOD_START (R74). -/
  | loopPeriodStart (l : Fin 16)
  /-- SS_FREQUENCY_DRAW (R73). -/
  | ssFrequencyDraw (l : Fin 16)
  /-- PULSE_START (R56). -/
  | pulseStart (p : Fin 48)
  /-- PHASE_BLANK_END (R66). -/
  | phaseBlankEnd (p : Fin 48) (which : Comp) (sensed : Int)
  /-- REGULATION_TRIP (R64). -/
  | regulationTrip (p : Fin 48) (t : Nat)
  /-- LIMIT_COMPARATOR_TRIP (R65). -/
  | limitComparatorTrip (p : Fin 48) (t : Nat)
  /-- MAXDUTY_REACHED (R66). -/
  | maxdutyReached (p : Fin 48)
  /-- DEAD_TIME_END (R70). -/
  | deadTimeEnd (p : Fin 48)
  /-- TOFF_MIN_END (R66). -/
  | toffMinEnd (p : Fin 48)
  /-- PHASE_ADC_SAMPLE (R60). -/
  | phaseAdcSample (p : Fin 48) (code : Int) (t : Nat)
  /-- PHASE_CMD_FRAME (R81). -/
  | phaseCmdFrame (d : Fin 4) (parityOk : Bool)
  /-- PHASE_REFRESH_FRAME (R81). -/
  | phaseRefreshFrame (d : Fin 4) (parityOk : Bool)
  /-- PHASE_CAL_DONE (R61). -/
  | phaseCalDone (p : Fin 48) (sum : Int)
  /-- PHASE_DIE_ARMED (R82). -/
  | phaseDieArmed (d : Fin 4)
  /-- PHASE_CMD_WDOG_EXPIRE (R82). -/
  | phaseCmdWdogExpire (d : Fin 4)
  /-- PHASE_SRC_SIGNAL_LOW (R82). -/
  | phaseSrcSignalLow (d : Fin 4)
  /-- DELAY_LINE_CAL_LOST (R82). -/
  | delayLineCalLost (d : Fin 4)
  /-- PHASE_DIE_REPORT (R537). -/
  | phaseDieReport (d : Fin 4)
  /-- PHASE_TLM_PUBLISH (R85). -/
  | phaseTlmPublish (fast : Bool)
  /-- VS_CONVERSION (R93). -/
  | vsConversion (v : Fin 16) (pin : Int) (off : Nat)
  /-- VS_OVERSHOOT_ENTER (R76). -/
  | vsOvershootEnter (v : Fin 16) (pin : Int)
  /-- VS_OVERSHOOT_RELEASE (R78). -/
  | vsOvershootRelease (v : Fin 16) (pin : Int)
  /-- VS_UNDERSHOOT_ENTER (R77). -/
  | vsUndershootEnter (v : Fin 16) (pin : Int)
  /-- VS_UNDERSHOOT_RELEASE (R78). -/
  | vsUndershootRelease (v : Fin 16) (pin : Int)
  /-- FORCED_PULSE_MAX (R77). -/
  | forcedPulseMax (p : Fin 48)
  /-- PHASE_FEED_LOSS_LATCH (R106). -/
  | phaseFeedLossLatch (d : Fin 4)
  /-- LOOP_CTRL_START (R109). -/
  | loopCtrlStart (l : Fin 16) (sess : Fin 8)
  /-- LOOP_CTRL_STOP (R109). -/
  | loopCtrlStop (l : Fin 16) (sess : Fin 8)
  /-- LOOP_CTRL_CLEAR (R109). -/
  | loopCtrlClear (l : Fin 16) (sess : Fin 8)
  /-- FOLLOW_ERR_EXPIRE (R112). -/
  | followErrExpire (l : Fin 16)
  /-- LIMIT_REPORT (R121). -/
  | limitReport (l : Fin 16)
  /-- HICCUP_OFF_END (R122). -/
  | hiccupOffEnd (l : Fin 16)
  /-- START_SHORT_EXPIRE (R125). -/
  | startShortExpire (l : Fin 16)
  /-- OC_CLEAN_TIME_END (R122). -/
  | ocCleanTimeEnd (l : Fin 16)
  /-- SHED_COMPLETE (R134). -/
  | shedComplete (p : Fin 48)
  /-- SHED_ABORT (R135). -/
  | shedAbort (d : Fin 4) (l : Fin 16) (cause : Nat)
  /-- EBB_HOLDOFF_END (R135). -/
  | ebbHoldoffEnd (l : Fin 16)
  /-- SLOT_ROTATION (R136). -/
  | slotRotation (l : Fin 16)
  /-- EBB_WINDOW_END (R138). -/
  | ebbWindowEnd (entropy : Nat)
  /-- FAULT_STATUS_RELEASE (R144). -/
  | faultStatusRelease (sess : Fin 8) (value : Nat)
  /-- BANK_METERING_STEP (R155). -/
  | bankMeteringStep (raw : Vector Int 7)
  /-- FEED_FAST_TRIP (R166). -/
  | feedFastTrip (f : Fin 2) (ma : Int)
  /-- FEED_REVERSE_TRIP (R169). -/
  | feedReverseTrip (f : Fin 2) (ma : Int) (v : Int)
  /-- FEED_OR_ON_DELAY_END (R169). -/
  | feedOrOnDelayEnd (c : FeedSensed)
  /-- FEED_INSERT_TIMER (R160). -/
  | feedInsertTimer (f : Fin 2)
  /-- FEED_PRE_TMAX_EXPIRE (R160). -/
  | feedPreTmaxExpire (f : Fin 2)
  /-- FEED_SOA_TIMER_EXPIRE (R165). -/
  | feedSoaTimerExpire (f : Fin 2)
  /-- FEED_PRE_OVERLAP_END (R160). -/
  | feedPreOverlapEnd (f : Fin 2)
  /-- FEED_CLEAN_TIME_END (R160). -/
  | feedCleanTimeEnd (f : Fin 2)
  /-- FEED_RETRY_DELAY_END (R160). -/
  | feedRetryDelayEnd (f : Fin 2)
  /-- FEED_LOSS_COMP_LOW (R170). -/
  | feedLossCompLow (c : FeedSensed)
  /-- FEED_LOSS_COMP_HIGH (R170). -/
  | feedLossCompHigh (c : FeedSensed)
  /-- FEED_FET_SHORT (R172). -/
  | feedFetShort (f : Fin 2) (path : Fin 2) (ma : Int) (mv : Int)
  /-- FEED_GATE_FAIL (R173). -/
  | feedGateFail (f : Fin 2) (gate : Fin 3) (mv : Nat)
  /-- FEED_TEST_END (R173). -/
  | feedTestEnd (f : Fin 2)
  /-- FEED_CTRL_ENABLE (R160). -/
  | feedCtrlEnable (f : Fin 2) (sess : Fin 8)
  /-- FEED_CTRL_DISABLE (R160). -/
  | feedCtrlDisable (f : Fin 2) (sess : Fin 8)
  /-- FEED_CTRL_CLEAR (R168). -/
  | feedCtrlClear (f : Fin 2) (sess : Fin 8)
  /-- FEED_CTRL_TEST (R173). -/
  | feedCtrlTest (f : Fin 2) (sess : Fin 8)
  /-- FEED_CTRL_RESET_ENERGY (R157). -/
  | feedCtrlResetEnergy (f : Fin 2) (sess : Fin 8)
  /-- BANK_PARAM_FRAME (R174). -/
  | bankParamFrame (crcOk : Bool)
  /-- HOLD_CTRL_HANDBACK (R199). -/
  | holdCtrlHandback (sess : Fin 8)
  /-- WEIR_EVALUATION (R216). -/
  | weirEvaluation (skipped : Nat) (took : Nat)
  /-- BATT_COUNT_SAMPLE (R234). -/
  | battCountSample (b : Fin 8)
  /-- BATT_REST_ANCHOR (R237). -/
  | battRestAnchor (b : Fin 8)
  /-- BATT_FULL_ANCHOR (R238). -/
  | battFullAnchor (b : Fin 8)
  /-- BATT_VOLTAGE_EMPTY (R241). -/
  | battVoltageEmpty (b : Fin 8)
  /-- BATT_CUTOFF (R243). -/
  | battCutoff (b : Fin 8)
  /-- BATT_ABSENT (R230). -/
  | battAbsent (b : Fin 8)
  /-- BATT_CTRL_CLEAR_CUTOFF (R244). -/
  | battCtrlClearCutoff (b : Fin 8) (sess : Fin 8)
  /-- BATT_CTRL_CANCEL_LEARN (R245). -/
  | battCtrlCancelLearn (b : Fin 8) (sess : Fin 8)
  /-- BATT_CTRL_REESTIMATE (R240). -/
  | battCtrlReestimate (b : Fin 8) (sess : Fin 8)
  /-- PORT_TRAIN_COMPLETE (R263). -/
  | portTrainComplete (p : Fin 64) (cls : Nat)
  /-- PORT_TRAIN_DWELL_EXPIRE (R263). -/
  | portTrainDwellExpire (p : Fin 64)
  /-- PORT_LOSS_OF_LOCK (R263). -/
  | portLossOfLock (p : Fin 64)
  /-- PORT_ERROR_RATE (R263). -/
  | portErrorRate (p : Fin 64) (errs : Nat)
  /-- PORT_UPSHIFT_ATTEMPT (R263). -/
  | portUpshiftAttempt (p : Fin 64)
  /-- PORT_RETRAIN_DELAY_END (R263). -/
  | portRetrainDelayEnd (p : Fin 64)
  /-- RILL_FRAME_RECEIVE (R268). -/
  | rillFrameReceive (p : Fin 64) (data : List Byte) (ending : RxEnd) (noise : Nat) (sofAge : Nat)
  /-- RILL_RX_TIMEOUT (R268). -/
  | rillRxTimeout (p : Fin 64)
  /-- RILL_CREDIT_RECEIVE (R270). -/
  | rillCreditReceive (p : Fin 64) (cnt : Fin 256) (notCnt : Fin 256)
  /-- RILL_FRAME_TRANSMIT (R272). -/
  | rillFrameTransmit (p : Fin 64)
  /-- PORT_TX_STALL (R272). -/
  | portTxStall (p : Fin 64)
  /-- STAMP_FIELD_FRAME (R271). -/
  | stampFieldFrame (p : Fin 64)
  /-- HUB_FRAME_TIMEOUT (R275). -/
  | hubFrameTimeout (p : Fin 64)
  /-- PMB_DISCOVERY (R280). -/
  | pmbDiscovery (p : Fin 64) (t : Fin 16)
  /-- PMB_POLL_CYCLE (R281). -/
  | pmbPollCycle (p : Fin 64)
  /-- PMB_TRANSACTION_DONE (R280). -/
  | pmbTransactionDone (p : Fin 64) (ending : PmbEnd) (data : List Byte)
  /-- PMB_BUS_TIMEOUT (R282). -/
  | pmbBusTimeout (p : Fin 64) (cause : Nat) (recovered : Bool)
  /-- PMB_BUS_RECOVERY_RETRY (R282). -/
  | pmbBusRecoveryRetry (p : Fin 64) (recovered : Bool)
  /-- PMB_ALERT (R283). -/
  | pmbAlert (p : Fin 64) (addr : Nat) (status : Nat) (still : Bool)
  /-- PMB_ALERT_UNMASK (R283). -/
  | pmbAlertUnmask (p : Fin 64)
  /-- NODE_LEASE_LAPSE (R298). -/
  | nodeLeaseLapse (a : Nat)
  /-- NODE_KEEPALIVE_SEND (R298). -/
  | nodeKeepaliveSend (a : Nat)
  /-- NODE_RETX_TIMEOUT (R300). -/
  | nodeRetxTimeout (a : Nat)
  /-- NODE_CTRL_CLOSE (R304). -/
  | nodeCtrlClose (a : Nat) (sess : Fin 8)
  /-- POOL_SCRUB (R333). -/
  | poolScrub (e : PoolEcc)
  /-- SILT_CURSOR_WRITE (R353). -/
  | siltCursorWrite (p : Fin 4) (v : Nat)
  /-- SILT_WIN_LATCH (R354). -/
  | siltWinLatch (p : Fin 4)
  /-- SILT_WIN_AUTO_ADVANCE (R354). -/
  | siltWinAutoAdvance (p : Fin 4)
  /-- SILT_CTRL_CLEAR (R356). -/
  | siltCtrlClear (sess : Fin 8)
  /-- SPATE_CTRL_TRIGGER (R360). -/
  | spateCtrlTrigger (sess : Fin 8)
  /-- SPATE_CTRL_LOCK (R364). -/
  | spateCtrlLock (n : Fin 48) (sess : Fin 8)
  /-- SPATE_CTRL_UNLOCK (R364). -/
  | spateCtrlUnlock (n : Fin 48) (sess : Fin 8)
  /-- HOST_ETH_FRAME (R371). -/
  | hostEthFrame (e : Fin 2) (f : EthFrame)
  /-- HOST_ETH_REG_ACCESS (R381). -/
  | hostEthRegAccess (e : Fin 2) (ep : Endpoint) (data : List Byte)
  /-- HOST_ETH_LINK (R370). -/
  | hostEthLink (e : Fin 2) (up : Bool)
  /-- HOST_REG_WRITE (R377). -/
  | hostRegWrite (n : Fin 2) (hd : List Byte) (data : List Byte)
  /-- HR_TIME_LO_READ (R377). -/
  | hrTimeLoRead (p : Fin 4)
  /-- MB_TX_WRITE (R375). -/
  | mbTxWrite (n : Fin 2) (m : Fin 16) (w : Nat)
  /-- MB_RX_READ (R375). -/
  | mbRxRead (n : Fin 2) (m : Fin 16)
  /-- HOST_SPI_ABANDON (R376). -/
  | hostSpiAbandon (n : Fin 2) (cut : SpiIdle) (tx : Option (Fin 16))
  /-- MB_CLAIM (R384). -/
  | mbClaim (n : Fin 2) (m : Fin 16)
  /-- MB_RELEASE (R384). -/
  | mbRelease (n : Fin 2) (m : Fin 16)
  /-- MB_DOORBELL (R386). -/
  | mbDoorbell (n : Fin 2) (m : Fin 16)
  /-- MB_TX_DISCARD (R384). -/
  | mbTxDiscard (n : Fin 2) (m : Fin 16)
  /-- MB_RX_SKIP (R384). -/
  | mbRxSkip (n : Fin 2) (m : Fin 16)
  /-- HOST_REQUEST_TAKE (R387). -/
  | hostRequestTake (entropy : Nat)
  /-- SESSION_CLAIM_TIMEOUT (R392). -/
  | sessionClaimTimeout (k : Fin 8)
  /-- SESSION_PROVE_TIMEOUT (R392). -/
  | sessionProveTimeout (k : Fin 8)
  /-- SESSION_LEASE_LAPSE (R393). -/
  | sessionLeaseLapse (k : Fin 8)
  /-- PERMIT_LAPSE (R397). -/
  | permitLapse (n : Nat)
  /-- KEY_LOCKOUT_END (R391). -/
  | keyLockoutEnd (k : Fin 8)
  /-- SESSION_OPEN (R391). -/
  | sessionOpen (port : Fin 4) (ep : Endpoint) (q : Req) (body : List Byte) (entropy : Nat)
  /-- SESSION_PROVE (R391). -/
  | sessionProve (q : Req) (body : List Byte)
  /-- SESSION_CLOSE (R419). -/
  | sessionClose (q : Req) (body : List Byte)
  /-- HOST_KEEPALIVE (R393). -/
  | hostKeepalive (q : Req) (body : List Byte)
  /-- NOTICE_SET (R420). -/
  | noticeSet (q : Req) (body : List Byte)
  /-- PERMIT_ACQUIRE (R397). -/
  | permitAcquire (q : Req) (body : List Byte)
  /-- PERMIT_RENEW (R397). -/
  | permitRenew (q : Req) (body : List Byte)
  /-- PERMIT_RELEASE (R397). -/
  | permitRelease (q : Req) (body : List Byte)
  /-- PERMIT_TAKE (R399). -/
  | permitTake (q : Req) (body : List Byte)
  /-- PARAM_READ (R422). -/
  | paramRead (q : Req) (body : List Byte)
  /-- PARAM_WRITE (R401). -/
  | paramWrite (q : Req) (body : List Byte)
  /-- STAGE (R401). -/
  | stage (q : Req) (body : List Byte)
  /-- DISCARD (R401). -/
  | discard (q : Req) (body : List Byte)
  /-- COMMIT (R402). -/
  | commit (q : Req) (body : List Byte)
  /-- POINT_READ (R334). -/
  | pointRead (q : Req) (body : List Byte)
  /-- SUBSCRIBE (R335). -/
  | subscribe (q : Req) (body : List Byte)
  /-- UNSUBSCRIBE (R426). -/
  | unsubscribe (q : Req) (body : List Byte)
  /-- SILT_READ (R355). -/
  | siltRead (q : Req) (body : List Byte)
  /-- SPATE_READ (R364). -/
  | spateRead (q : Req) (body : List Byte)
  /-- BATT_EXPORT (R250). -/
  | battExport (q : Req) (body : List Byte)
  /-- BATT_RESTORE (R251). -/
  | battRestore (q : Req) (body : List Byte)
  /-- NODE_RELAY (R303). -/
  | nodeRelay (q : Req) (body : List Byte)
  /-- PMBUS_XFER (R429). -/
  | pmbusXfer (q : Req) (body : List Byte)
  /-- TIME_SET (R37). -/
  | timeSet (q : Req) (body : List Byte)
  /-- KEY_LOAD (R390). -/
  | keyLoad (q : Req) (body : List Byte)
  /-- STATE_REQ (R498). -/
  | stateReq (q : Req) (body : List Byte)
  /-- FW_BEGIN (R507). -/
  | fwBegin (q : Req) (body : List Byte)
  /-- FW_BLOCK (R507). -/
  | fwBlock (q : Req) (body : List Byte)
  /-- FW_END (R507). -/
  | fwEnd (q : Req) (body : List Byte)
  /-- FW_ACTIVATE (R508). -/
  | fwActivate (q : Req) (body : List Byte)
  /-- KENEB_BEGIN (R432). -/
  | kenebBegin (q : Req) (body : List Byte)
  /-- KENEB_BLOCK (R432). -/
  | kenebBlock (q : Req) (body : List Byte)
  /-- KENEB_END (R437). -/
  | kenebEnd (q : Req) (body : List Byte)
  /-- KENEB_READ (R432). -/
  | kenebRead (q : Req) (body : List Byte)
  /-- STEM_HEARTBEAT (R447). -/
  | stemHeartbeat (k : Fin 2) (count : Nat)
  /-- STEM_SILENCE (R447). -/
  | stemSilence (k : Fin 2)
  /-- STEM_OUTPUT_COPY (R445). -/
  | stemOutputCopy (k : Fin 2) (g : Fin 5) (oseq : Nat) (bits : List Byte)
  /-- STEM_FAULT_REPORT (R446). -/
  | stemFaultReport (k : Fin 2) (kind : Nat) (l : Fin 16)
  /-- STEM_WATCHDOG_EXPIRE (R446). -/
  | stemWatchdogExpire (k : Fin 2)
  /-- BRIDGE_FLIT_CRC_FAIL (R442). -/
  | bridgeFlitCrcFail (link : Fin 6) (resent : Fin 4)
  /-- STEM_BOOT_COMPLETE (R443). -/
  | stemBootComplete (k : Fin 2)
  /-- STEM_RESTART_COMPLETE (R443). -/
  | stemRestartComplete (k : Fin 2)
  /-- STEM_RESYNC_PASS (R453). -/
  | stemResyncPass (dirty : Bool)
  /-- STEM_DIGEST_ROUND (R453). -/
  | stemDigestRound (mismatched : Nat)
  /-- STEM_CTRL_SWITCHOVER (R443). -/
  | stemCtrlSwitchover (sess : Fin 8)
  /-- STEM_CTRL_RESYNC (R462). -/
  | stemCtrlResync (sess : Fin 8)
  /-- STEM_CTRL_RESTART_STANDBY (R443). -/
  | stemCtrlRestartStandby (sess : Fin 8)
  /-- THERM_SCAN (R468). -/
  | thermScan (raw : Vector Int 44) (xt : Vector Nat 16) (sup : Vector Int 10)
  /-- THERM_AUTO_START (R475). -/
  | thermAutoStart (l : Fin 16)
  /-- THERM_CTRL_CLEAR_LATCH (R473). -/
  | thermCtrlClearLatch (d : Fin 8) (sess : Fin 8)
  /-- THERM_SENSOR_RELEARN (R485). -/
  | thermSensorRelearn (n : Fin 64) (sess : Fin 8)
  /-- TIMER_ADVANCE (R478). -/
  | timerAdvance (t : Fin 32)
  /-- TIMER_WRITE_APPLY (R479). -/
  | timerWriteApply (t : Fin 32)
  /-- TIMER_CTRL_START (R479). -/
  | timerCtrlStart (t : Fin 32) (sess : Fin 8)
  /-- TIMER_CTRL_STOP (R479). -/
  | timerCtrlStop (t : Fin 32) (sess : Fin 8)
  /-- TIMER_CTRL_CLEAR (R479). -/
  | timerCtrlClear (t : Fin 32) (sess : Fin 8)
  /-- TIMER_CAPTURE (R481). -/
  | timerCapture (src : Fin 51) (falling : Bool) (held : Nat)
  /-- BROWN_WARN_ASSERT (R491). -/
  | brownWarnAssert (n : Fin 10)
  /-- BROWN_OUT (R493). -/
  | brownOut (n : Fin 10)
  /-- DORMANT_WAKE (R500). -/
  | dormantWake (cause : Nat) (early : Bool)
  /-- NRST (R493). -/
  | nrst (long : Bool)
  /-- STEM_SUPPLY_LOW (R488). -/
  | stemSupplyLow (k : Fin 2)
  /-- SUPPLY_MIN_SAMPLE (R489). -/
  | supplyMinSample (v : Vector Int 10)
  /-- KENEB_IMAGE_APPLY (R504). -/
  | kenebImageApply (head : Bool)
  /-- LOOP_AUTOSTART (R505). -/
  | loopAutostart (l : Fin 16)
  /-- PEER_HELLO_SEND (R509). -/
  | peerHelloSend (n : Fin 2)
  /-- PEER_FRAME_RECEIVE (R509). -/
  | peerFrameReceive (n : Fin 2) (data : List Byte)
  /-- PEER_LINK_UP (R509). -/
  | peerLinkUp (n : Fin 2)
  /-- PEER_LINK_DOWN (R509). -/
  | peerLinkDown (n : Fin 2)
  /-- PHASE_TON_MIN_END (R66). -/
  | phaseTonMinEnd (p : Fin 48)
  /-- BANK_THERMAL_SCAN (R471). -/
  | bankThermalScan (raw : Vector Int 4)
  /-- VBAT_LOW (R488). -/
  | vbatLow (mv : Nat)
  /-- SLUICE_PERIOD_BOUNDARY (R41). -/
  | sluicePeriodBoundary
  /-- TB_REFCLK_LOSS (R31). -/
  | tbRefclkLoss
  /-- TB_SYNC_LOSS (R31). -/
  | tbSyncLoss
  /-- TB_ANNOUNCE_TIMEOUT (R31). -/
  | tbAnnounceTimeout
  /-- TB_REFERENCE_RETURN (R31). -/
  | tbReferenceReturn
  /-- TB_HOLDOVER_EXPIRY (R31). -/
  | tbHoldoverExpiry
  /-- POOL_ADMIT_FRAME (R49). -/
  | poolAdmitFrame
  /-- LOOP_EVALUATION (R96). -/
  | loopEvaluation
  /-- BANK_HEARTBEAT (R176). -/
  | bankHeartbeat
  /-- BANK_HB_TIMEOUT (R176). -/
  | bankHbTimeout
  /-- BANK_HB_RETURN (R176). -/
  | bankHbReturn
  /-- BANK_PARAM_COMMIT (R174). -/
  | bankParamCommit
  /-- BANK_COMMAND_FRAME (R176). -/
  | bankCommandFrame
  /-- BANK_TELEMETRY (R175). -/
  | bankTelemetry
  /-- ENERGY_COPY (R157). -/
  | energyCopy
  /-- BANK_POWER_ON (R157). -/
  | bankPowerOn
  /-- BANK_POWER_OFF (R171). -/
  | bankPowerOff
  /-- SHARE_UPDATE (R185). -/
  | shareUpdate
  /-- SHARE_TIE_UPDATE (R190). -/
  | shareTieUpdate
  /-- PEER_SHARE_SEND (R189). -/
  | peerShareSend
  /-- HOLD_PRELOAD_COMPUTE (R192). -/
  | holdPreloadCompute
  /-- FEED_LOSS_INPUT (R197). -/
  | feedLossInput
  /-- FEED_LOSS_RELEASE_INPUT (R199). -/
  | feedLossReleaseInput
  /-- HOLD_RETURN_TIMER (R199). -/
  | holdReturnTimer
  /-- HOLD_QUORUM_MET (R199). -/
  | holdQuorumMet
  /-- THROTTLE_RESEND (R213). -/
  | throttleResend
  /-- HUB_FRAME_RECEIVE (R274). -/
  | hubFrameReceive
  /-- NODE_MSG_RECEIVE (R296). -/
  | nodeMsgReceive
  /-- NODE_OPEN_REQUEST (R293). -/
  | nodeOpenRequest
  /-- NODE_REPLY (R300). -/
  | nodeReply
  /-- HOLDUP_STATE_RESEND (R302). -/
  | holdupStateResend
  /-- POOL_ACTION_LOOP_STOP (R329). -/
  | poolActionLoopStop
  /-- POOL_ACTION_NODE_OFF (R329). -/
  | poolActionNodeOff
  /-- SUB_NOTICE_POST (R335). -/
  | subNoticePost
  /-- SILT_EVENT (R350). -/
  | siltEvent
  /-- SILT_RECORD_COMMIT (R346). -/
  | siltRecordCommit
  /-- SILT_TALLY_WRITE (R346). -/
  | siltTallyWrite
  /-- LEDGER_WRITE (R342). -/
  | ledgerWrite
  /-- SPATE_FRAME (R358). -/
  | spateFrame
  /-- SPATE_TRIGGER (R360). -/
  | spateTrigger
  /-- SPATE_FREEZE (R361). -/
  | spateFreeze
  /-- SPATE_BLOCK_COPY (R362). -/
  | spateBlockCopy
  /-- COMMIT_PIPELINE_HEAD (R402). -/
  | commitPipelineHead
  /-- KENEB_IMAGE_WRITTEN (R403). -/
  | kenebImageWritten
  /-- COMMIT_APPLY (R404). -/
  | commitApply
  /-- STEM_OUTPUT_LATE (R447). -/
  | stemOutputLate
  /-- STEM_SWITCHOVER_INPUT (R449). -/
  | stemSwitchoverInput
  /-- STEM_SYNC_AGREEMENT (R453). -/
  | stemSyncAgreement
  /-- STEM_RESYNC_TIMEOUT (R454). -/
  | stemResyncTimeout
  /-- BROWN_RESUME_START (R491). -/
  | brownResumeStart
  /-- BROWN_WARN_RELEASE (R491). -/
  | brownWarnRelease
  /-- COLD_POR (R493). -/
  | coldPor
  /-- MAIN_POR (R493). -/
  | mainPor
  /-- WAKE_TIMEOUT (R500). -/
  | wakeTimeout
  /-- VCORE_P_LOW (R488). -/
  | vcorePLow
  /-- VCORE_P_RECOVER (R84). -/
  | vcorePRecover
  /-- DEV_RESET_RELEASE (R490). -/
  | devResetRelease
  /-- RETENTION_WRITE (R496). -/
  | retentionWrite
  /-- FW_TRIAL_CONFIRM (R508). -/
  | fwTrialConfirm
  /-- TIME_SLEW_COMPLETE (R36). -/
  | timeSlewComplete
  /-- LATCHED_WAKE_MAIN_EN_HIGH (R500). -/
  | latchedWakeMainEnHigh
deriving DecidableEq, Repr

end Sys2Proof
end

