-- ==== Sys2Proof/Decode.lean ====
section
/-! DEFINITION. The reading of a table word. The table of operations and events gives its rows no bits, so no word spells a command. -/

namespace Sys2Proof

/-- The command that a word of the table spells: none, for no row has bits. -/
def decodeTableWord (_nbits _w : Nat) : Option Instr := none

end Sys2Proof
end

