-- ==== Sys2Proof/Machine/Num.lean ====
section
/-! DEFINITION. Named arithmetic shared by every family: saturation, clamps, rounding, bit fields, byte order,
sparse maps and fixed tables. -/

namespace Sys2Proof.Machine

/-- The largest value of an unsigned counter of `w` bits. -/
def umax (w : Nat) : Nat := 2 ^ w - 1

/-- Saturating addition at the top of `w` bits (the counters the parameter tables call saturating). -/
def satAdd (w a b : Nat) : Nat := min (a + b) (umax w)

/-- A saturating 32-bit counter raised by one. -/
def bump (a : Nat) : Nat := satAdd 32 a 1

/-- `x` held between `lo` and `hi`. -/
def clampI (lo hi x : Int) : Int := max lo (min hi x)

/-- `x` saturated to a signed word of `w` bits. -/
def satS (w : Nat) (x : Int) : Int := clampI (-(2 ^ (w - 1) : Int)) (2 ^ (w - 1) - 1) x

/-- `x` saturated to an unsigned word of `w` bits. -/
def satU (w : Nat) (x : Int) : Nat := (clampI 0 (2 ^ w - 1) x).toNat

/-- Floor division (towards minus infinity) by a positive number; 0 when the divisor is 0. -/
def floorDiv (a b : Int) : Int := a.fdiv b

/-- Nearest integer to `a / b` for positive `b`; a half goes to the lower neighbour. -/
def nearHalfDown (a b : Int) : Int := -((-2 * a + b).fdiv (2 * b))

/-- Nearest integer to `a / b` for positive `b`; a half goes to the upper neighbour. -/
def nearHalfUp (a b : Int) : Int := (2 * a + b).fdiv (2 * b)

/-- Nearest integer to `a / b` for positive `b`; a half goes away from zero. -/
def nearHalfAway (a b : Int) : Int :=
  if 0 ≤ a then (2 * a + b).fdiv (2 * b) else -((-2 * a + b).fdiv (2 * b))

/-- Nearest integer to `a / b` for positive `b`; a half goes to the even neighbour (R96, R97). -/
def nearEven (a b : Int) : Int :=
  let q := a.fdiv b
  let r := a - q * b
  if 2 * r < b then q else if b < 2 * r then q + 1 else if q % 2 = 0 then q else q + 1

/-- `⌈a / b⌉` for positive `b`. -/
def ceilDiv (a b : Nat) : Nat := (a + b - 1) / b

/-- Truncation towards zero. -/
def truncDiv (a b : Int) : Int := a.tdiv b

/-- The integer square root, rounded down, by `fuel` halvings of the search interval. -/
def isqrtAux : Nat → Nat → Nat → Nat → Nat
  | 0, _, lo, _ => lo
  | fuel + 1, n, lo, hi =>
    let mid := (lo + hi + 1) / 2
    if mid * mid ≤ n then isqrtAux fuel n mid hi else isqrtAux fuel n lo (mid - 1)

/-- `⌊√n⌋` for `n < 2 ^ 128`. -/
def isqrt (n : Nat) : Nat := isqrtAux 65 n 0 (2 ^ 64)

/-- Bit `i` of `n`. -/
def bit (n i : Nat) : Bool := n / 2 ^ i % 2 == 1

/-- A Boolean as a bit. -/
def b2n (b : Bool) : Nat := if b then 1 else 0

/-- Bits `hi` down to `lo` of `n`. -/
def bits (n hi lo : Nat) : Nat := n / 2 ^ lo % 2 ^ (hi + 1 - lo)

/-- `n` with bit `i` set. -/
def setBit (n i : Nat) : Nat := if bit n i then n else n + 2 ^ i

/-- `n` with bit `i` cleared. -/
def clearBit (n i : Nat) : Nat := if bit n i then n - 2 ^ i else n

/-- A two's-complement word of `w` bits as a natural number. -/
def toWord (w : Nat) (x : Int) : Nat := (x % (2 ^ w : Int)).toNat

/-- The signed reading of the low `w` bits of `n`. -/
def signed (w n : Nat) : Int := if bit n (w - 1) then (n % 2 ^ w : Int) - 2 ^ w else (n % 2 ^ w : Int)

/-- The `k` little-endian bytes of `n` (R7). -/
def leBytes : Nat → Nat → List Byte
  | 0, _ => []
  | k + 1, n => BitVec.ofNat 8 n :: leBytes k (n / 256)

/-- The number little-endian bytes spell (R7). -/
def leNat : List Byte → Nat
  | [] => 0
  | b :: bs => b.toNat + 256 * leNat bs

/-- The number `k` bytes from offset `o` of a byte list spell. -/
def leAt (bs : List Byte) (o k : Nat) : Nat := leNat ((bs.drop o).take k)

/-- How many of the first `n` numbers satisfy `p`. -/
def countTo (n : Nat) (p : Nat → Bool) : Nat := ((List.range n).filter p).length

/-- The sum of `f` over a list. -/
def sumI {α : Type} (l : List α) (f : α → Int) : Int := l.foldl (fun a x => a + f x) 0

/-- The numbers of `Fin n`, in order. -/
def fins (n : Nat) : List (Fin n) := List.finRange n

/-- A value one step nearer to another. -/
def stepTo (x y : Int) : Int := if x < y then x + 1 else if y < x then x - 1 else x

end Sys2Proof.Machine

namespace Sys2Proof

/-- The value at key `k`, or `d` where the key is absent. -/
def SMap.get {α : Type} (d : α) (k : Nat) : SMap α → α
  | [] => d
  | (k', v) :: m => if k' = k then v else SMap.get d k m

/-- The value at key `k`, or none. -/
def SMap.find {α : Type} (k : Nat) : SMap α → Option α
  | [] => none
  | (k', v) :: m => if k' = k then some v else SMap.find k m

/-- The table without key `k`. -/
def SMap.erase {α : Type} (k : Nat) (m : SMap α) : SMap α := m.filter (fun p => p.1 != k)

/-- A new entry put in key order, before the first larger key. -/
def SMap.insert {α : Type} (k : Nat) (v : α) : SMap α → SMap α
  | [] => [(k, v)]
  | (k', v') :: m => if k < k' then (k, v) :: (k', v') :: m else (k', v') :: SMap.insert k v m

/-- Key `k` set to `v`; writing the default removes the entry, so equal tables are equal lists. -/
def SMap.set {α : Type} [DecidableEq α] (d : α) (k : Nat) (v : α) (m : SMap α) : SMap α :=
  if v = d then SMap.erase k m else SMap.insert k v (SMap.erase k m)

/-- The canonical form: keys strictly rising and no entry equal to the default. -/
abbrev SMap.wf {α : Type} [DecidableEq α] (d : α) (m : SMap α) : Prop :=
  m.Pairwise (fun a b => a.1 < b.1) ∧ ∀ p ∈ m, p.2 ≠ d

/-- A fixed table with the entry at `i` changed by `f`. -/
def upd {α : Type} {n : Nat} (v : Vector α n) (i : Fin n) (f : α → α) : Vector α n :=
  v.set i.val (f v[i.val]) i.isLt

/-- A fixed table built from a rule. -/
def tab {α : Type} (n : Nat) (f : Fin n → α) : Vector α n := Vector.ofFn f

end Sys2Proof
end

