-- ==== Sys2Proof/Machine/Crc.lean ====
section
/-! DEFINITION. The two checks of the spec: CRC-32C (R265) and the bridge CRC-16 (R174, R344, R442). -/

namespace Sys2Proof.Machine

/-- `k` shifts of the reflected CRC-32C register. -/
def crc32cShift : Nat → Nat → Nat
  | 0, c => c
  | k + 1, c => crc32cShift k (if c % 2 = 1 then (c / 2) ^^^ 0x82F63B78 else c / 2)

/-- CRC-32C: polynomial 0x1EDC6F41 reflected, initial value and final XOR 0xFFFFFFFF (R265). -/
def crc32c (bs : List Byte) : Nat :=
  (bs.foldl (fun c b => crc32cShift 8 (c ^^^ b.toNat)) 0xFFFFFFFF) ^^^ 0xFFFFFFFF

/-- `k` shifts of the reflected CRC-16 register. -/
def crc16Shift : Nat → Nat → Nat
  | 0, c => c
  | k + 1, c => crc16Shift k (if c % 2 = 1 then (c / 2) ^^^ 0x8408 else c / 2)

/-- CRC-16: polynomial 0x1021 reflected, initial value 0xFFFF, no final XOR (R344). -/
def crc16 (bs : List Byte) : Nat := bs.foldl (fun c b => crc16Shift 8 (c ^^^ b.toNat)) 0xFFFF

end Sys2Proof.Machine
end

