-- ==== Sys2Proof/Config.lean ====
section
/-! DEFINITION. The values the spec leaves open: constants without a body, so that no statement can rest on what they are.
Each takes the model's own counter or the operands it depends on. -/

namespace Sys2Proof

/-- A value the spec leaves open, named by the model's counter `free` (log entry 2). -/
opaque Config.freeInt : Nat → Int

/-- The code of the record that RESET_ENERGY makes of the accumulators (R157): the spec gives none (log entry 33). -/
opaque Config.energyResetCode : Nat

/-- The cause of WEIR_SHAVE_STOP where a loop may no longer be shaved for a reason R225 has no code for (log entry 112). -/
opaque Config.shaveOffCause : Nat

/-- The signature of an Onolael image verifies against the maker's public key, which the spec does not print (R506, log entry 57). -/
opaque Config.fwSignatureOk : List Byte → Bool

/-- How much of an image has been written at a tick, in 1/1,024: the spec gives no times of the write (R377, log entry 56). -/
opaque Config.imagePart : Nat → Nat

/-- What R466 gives a thermistor where its formula has no temperature that THERM_RAW holds: the spec states none (log entry 66). -/
opaque Config.xtBeyond : Nat → Nat → Nat → Int

/-- THERM_COMP_T, the ascending temperatures of the compensation table, trimmed at manufacture (R476). -/
opaque Config.compT : Nat → Int

/-- THERM_COMP_OSC, trimmed at manufacture (R476). -/
opaque Config.compOsc : Nat → Int

/-- THERM_COMP_REF, trimmed at manufacture (R476). -/
opaque Config.compRef : Nat → Int

/-- The steering of the tick frequency, in 0.01 ppm, that the servo of a bandwidth in mHz reaches from a steering and a measured error
against a reference of a frequency in MHz, 0 for PTP: the spec gives the bandwidth and no law (R30, R36, log entry 117). -/
opaque Config.servoStep : Nat → Nat → Int → Int → Int

end Sys2Proof
end

