-- ==== Sys2Proof/Machine/Params.lean ====
section
/-! DEFINITION. The parameter tables of the spec: one entry per parameter, with its identifier, type, range, default,
keeping class, permit and instance index (R51, R87 to R89, R117, R118, R146 to R148, R182, R203, R204, R224, R253, R286,
R313, R336, R337, R367, R368, R408, R409, R462, R485, R486, R512, R513; R423, R434, R435). -/

namespace Sys2Proof.Machine

/-- The types of R423. -/
inductive PTy where
  | enum | u8 | u16 | u32 | u64 | s16 | s32 | s64 | bitmap8 | bitmap16 | bitmap32 | raw32 | bytes16
deriving DecidableEq, Repr

/-- The keeping classes of R13. -/
inductive Keep where
  | K | S | T | V | H
deriving DecidableEq, Repr

/-- The Permit column: the permit a message needs, `image` for a value taken from the Keneb image alone, `device` for a
parameter no message writes. `sched` is CONFIG, and HOLDUP for coefficient set 4; `feedCtrl` is
CONFIG, and MAINT as R177;
`spateCtrl` is CONFIG for TRIGGER and SILT for LOCK and UNLOCK; `nodePort` is NODE of the node's port. -/
inductive PPermit where
  | config | holdup | weir | battery | silt | maint | image | device | sched | feedCtrl | spateCtrl | nodePort
deriving DecidableEq, Repr

/-- What the instance index of a parameter ranges over (R434). `upTo n`: 0 to n - 1; `loopSet`: loop
x 8 + set, set 0 to 4;
`node`: a node address of R257; `permit`: a permit index of R396; `code`: an event code. -/
inductive PInst where
  | one | upTo (n : Nat) | loopSet | node | permit | code
deriving DecidableEq, Repr

/-- One row of a parameter table. `extra` lists values allowed beside `lo` to `hi`; `w1c` says that a message clears
its W1C fields; `wo` that it is write-only. Bounds that name another parameter are in `Prm.valueOk`. -/
structure Prm where
  id : Nat
  ty : PTy
  lo : Int
  hi : Int
  extra : List Int
  dflt : Int
  keeps : Keep
  permit : PPermit
  inst : PInst
  w1c : Bool
  wo : Bool
deriving DecidableEq, Repr

namespace P

/-- DEV_TB_SOURCE (R51). -/
def DEV_TB_SOURCE : Prm := ⟨0x0420, .enum, 0, 3, [], 0, .K, .config, .one, false, false⟩
/-- DEV_REFCLK_FREQ (R51). -/
def DEV_REFCLK_FREQ : Prm := ⟨0x0421, .enum, 0, 1, [], 0, .K, .config, .one, false, false⟩
/-- DEV_PTP_PORT (R51). -/
def DEV_PTP_PORT : Prm := ⟨0x0422, .enum, 0, 1, [], 0, .K, .config, .one, false, false⟩
/-- DEV_PTP_DOMAIN (R51). -/
def DEV_PTP_DOMAIN : Prm := ⟨0x0423, .u8, 0, 127, [], 0, .K, .config, .one, false, false⟩
/-- DEV_PTP_DELAY_MECH (R51). -/
def DEV_PTP_DELAY_MECH : Prm := ⟨0x0424, .enum, 0, 1, [], 0, .K, .config, .one, false, false⟩
/-- DEV_PTP_TRANSPORT (R51). -/
def DEV_PTP_TRANSPORT : Prm := ⟨0x0425, .enum, 0, 2, [], 1, .K, .config, .one, false, false⟩
/-- DEV_PTP_ASYM (R51). -/
def DEV_PTP_ASYM : Prm := ⟨0x0426, .s32, -100000, 100000, [], 0, .K, .config, .upTo 2, false, false⟩
/-- DEV_TIME_SERVO_BW (R51). -/
def DEV_TIME_SERVO_BW : Prm := ⟨0x0427, .u16, 10, 1000, [], 100, .K, .config, .one, false, false⟩
/-- DEV_TIME_STEP_LIMIT (R51). -/
def DEV_TIME_STEP_LIMIT : Prm := ⟨0x0428, .u32, 1, 1000000, [], 1000, .K, .config, .one, false, false⟩
/-- DEV_TIME_STATUS (R51). -/
def DEV_TIME_STATUS : Prm := ⟨0x0429, .bitmap16, 0, 65535, [], 0, .V, .config, .one, true, false⟩
/-- DEV_TIME_OFFSET (R51). -/
def DEV_TIME_OFFSET : Prm := ⟨0x042A, .s64, -9223372036854775808, 9223372036854775807, [], 0, .V, .device, .one, false, false⟩
/-- SLUICE_SHARE_EDDY (R51). -/
def SLUICE_SHARE_EDDY : Prm := ⟨0x0800, .u8, 5, 50, [], 25, .K, .image, .one, false, false⟩
/-- SLUICE_SHARE_POOL (R51). -/
def SLUICE_SHARE_POOL : Prm := ⟨0x0801, .u8, 10, 70, [], 40, .K, .image, .one, false, false⟩
/-- SLUICE_SHARE_MP (R51). -/
def SLUICE_SHARE_MP : Prm := ⟨0x0802, .u8, 10, 40, [], 20, .K, .image, .one, false, false⟩
/-- SLUICE_SHARE_SILT (R51). -/
def SLUICE_SHARE_SILT : Prm := ⟨0x0803, .u8, 1, 20, [], 5, .K, .image, .one, false, false⟩
/-- SLUICE_SHARE_SPATE (R51). -/
def SLUICE_SHARE_SPATE : Prm := ⟨0x0804, .u8, 1, 20, [], 5, .K, .image, .one, false, false⟩
/-- SLUICE_SHARE_BRIDGE (R51). -/
def SLUICE_SHARE_BRIDGE : Prm := ⟨0x0805, .u8, 5, 20, [], 5, .K, .image, .one, false, false⟩
/-- SLUICE_BUDGET (R51). -/
def SLUICE_BUDGET : Prm := ⟨0x0810, .u16, 0, 65535, [], 0, .V, .device, .upTo 6, false, false⟩
/-- SLUICE_STALL_PERIODS (R51). -/
def SLUICE_STALL_PERIODS : Prm := ⟨0x0811, .u32, 0, 4294967295, [], 0, .V, .device, .upTo 6, false, false⟩
/-- SLUICE_PEAK_USE (R51). -/
def SLUICE_PEAK_USE : Prm := ⟨0x0812, .u16, 0, 65535, [], 0, .V, .device, .upTo 6, false, false⟩
/-- SLUICE_EDDY_LOAD (R51). -/
def SLUICE_EDDY_LOAD : Prm := ⟨0x0813, .u16, 0, 65535, [], 0, .V, .device, .one, false, false⟩
/-- PHASE_LOOP (R87). -/
def PHASE_LOOP : Prm := ⟨0x0C00, .u8, 0, 15, [255], 255, .K, .config, .upTo 48, false, false⟩
/-- PHASE_MODE (R87). -/
def PHASE_MODE : Prm := ⟨0x0C01, .enum, 0, 2, [], 0, .K, .config, .upTo 48, false, false⟩
/-- PHASE_BIDIR_FWD (R87). -/
def PHASE_BIDIR_FWD : Prm := ⟨0x0C02, .enum, 0, 1, [], 1, .K, .config, .upTo 48, false, false⟩
/-- PHASE_SENSE (R87). -/
def PHASE_SENSE : Prm := ⟨0x0C03, .enum, 0, 1, [], 0, .K, .config, .upTo 48, false, false⟩
/-- PHASE_CS_GAIN (R87). -/
def PHASE_CS_GAIN : Prm := ⟨0x0C04, .enum, 0, 3, [], 0, .K, .config, .upTo 48, false, false⟩
/-- PHASE_CS_RSENSE (R87). -/
def PHASE_CS_RSENSE : Prm := ⟨0x0C05, .u32, 50, 100000, [], 1000, .K, .config, .upTo 48, false, false⟩
/-- PHASE_SHARE_TRIM (R87). -/
def PHASE_SHARE_TRIM : Prm := ⟨0x0C06, .s16, -4096, 4096, [], 0, .K, .config, .upTo 48, false, false⟩
/-- PHASE_AVG_CORR (R87). -/
def PHASE_AVG_CORR : Prm := ⟨0x0C07, .enum, 0, 1, [], 1, .K, .config, .upTo 48, false, false⟩
/-- PHASE_ILIM (R87). -/
def PHASE_ILIM : Prm := ⟨0x0C08, .u32, 0, 4294967295, [], 150000, .K, .config, .upTo 48, false, false⟩
/-- PHASE_BLANK (R87). -/
def PHASE_BLANK : Prm := ⟨0x0C09, .u16, 128, 4000, [], 400, .K, .config, .upTo 48, false, false⟩
/-- PHASE_LIM_BLANK (R87). -/
def PHASE_LIM_BLANK : Prm := ⟨0x0C0A, .u16, 64, 2000, [], 160, .K, .config, .upTo 48, false, false⟩
/-- PHASE_TON_MIN (R87). -/
def PHASE_TON_MIN : Prm := ⟨0x0C0B, .u16, 160, 8000, [], 480, .K, .config, .upTo 48, false, false⟩
/-- PHASE_TOFF_MIN (R87). -/
def PHASE_TOFF_MIN : Prm := ⟨0x0C0C, .u16, 80, 8000, [], 400, .K, .config, .upTo 48, false, false⟩
/-- PHASE_DMAX (R87). -/
def PHASE_DMAX : Prm := ⟨0x0C0D, .u8, 50, 98, [], 90, .K, .config, .upTo 48, false, false⟩
/-- PHASE_TON_FORCE_MAX (R87). -/
def PHASE_TON_FORCE_MAX : Prm := ⟨0x0C0E, .u32, 400, 80000, [], 8000, .K, .config, .upTo 48, false, false⟩
/-- PHASE_DT_RISE (R87). -/
def PHASE_DT_RISE : Prm := ⟨0x0C0F, .u16, 0, 1023, [], 160, .K, .config, .upTo 48, false, false⟩
/-- PHASE_DT_FALL (R87). -/
def PHASE_DT_FALL : Prm := ⟨0x0C10, .u16, 0, 1023, [], 160, .K, .config, .upTo 48, false, false⟩
/-- PHASE_OUT_MODE (R87). -/
def PHASE_OUT_MODE : Prm := ⟨0x0C11, .enum, 0, 2, [], 0, .K, .config, .upTo 48, false, false⟩
/-- PHASE_ZC_LEVEL (R87). -/
def PHASE_ZC_LEVEL : Prm := ⟨0x0C12, .u16, 0, 10000, [], 500, .K, .config, .upTo 48, false, false⟩
/-- PHASE_RAMP_ADAPT (R87). -/
def PHASE_RAMP_ADAPT : Prm := ⟨0x0C13, .enum, 0, 1, [], 1, .K, .config, .upTo 48, false, false⟩
/-- PHASE_RAMP_MULT (R87). -/
def PHASE_RAMP_MULT : Prm := ⟨0x0C14, .u8, 64, 192, [], 96, .K, .config, .upTo 48, false, false⟩
/-- PHASE_RAMP_INIT (R87). -/
def PHASE_RAMP_INIT : Prm := ⟨0x0C15, .u16, 5, 40000, [], 1000, .K, .config, .upTo 48, false, false⟩
/-- PHASE_RAMP_MIN (R87). -/
def PHASE_RAMP_MIN : Prm := ⟨0x0C16, .u16, 5, 40000, [], 5, .K, .config, .upTo 48, false, false⟩
/-- PHASE_SLOPE_AVG (R87). -/
def PHASE_SLOPE_AVG : Prm := ⟨0x0C17, .u8, 0, 8, [], 4, .K, .config, .upTo 48, false, false⟩
/-- PHASE_MEAS_GUARD (R87). -/
def PHASE_MEAS_GUARD : Prm := ⟨0x0C18, .u16, 0, 2000, [], 800, .K, .config, .upTo 48, false, false⟩
/-- PHASE_TLM_RATE (R87). -/
def PHASE_TLM_RATE : Prm := ⟨0x0C19, .enum, 0, 2, [], 0, .K, .config, .upTo 48, false, false⟩
/-- PHASE_CMD_WDOG (R87). -/
def PHASE_CMD_WDOG : Prm := ⟨0x0C20, .u16, 8, 1000, [], 20, .K, .config, .upTo 4, false, false⟩
/-- PHASE_STATUS (R87). -/
def PHASE_STATUS : Prm := ⟨0x0C40, .bitmap16, 0, 65535, [], 0, .V, .config, .upTo 48, true, false⟩
/-- PHASE_SLOPE_UP (R87). -/
def PHASE_SLOPE_UP : Prm := ⟨0x0C41, .s32, -2147483648, 2147483647, [], 0, .V, .device, .upTo 48, false, false⟩
/-- PHASE_SLOPE_DOWN (R87). -/
def PHASE_SLOPE_DOWN : Prm := ⟨0x0C42, .s32, -2147483648, 2147483647, [], 0, .V, .device, .upTo 48, false, false⟩
/-- PHASE_RAMP_NOW (R87). -/
def PHASE_RAMP_NOW : Prm := ⟨0x0C43, .u16, 0, 65535, [], 0, .V, .device, .upTo 48, false, false⟩
/-- PHASE_I_AVG (R87). -/
def PHASE_I_AVG : Prm := ⟨0x0C44, .s32, -2147483648, 2147483647, [], 0, .V, .device, .upTo 48, false, false⟩
/-- PHASE_I_PEAK (R87). -/
def PHASE_I_PEAK : Prm := ⟨0x0C45, .s32, -2147483648, 2147483647, [], 0, .V, .device, .upTo 48, false, false⟩
/-- PHASE_CS_OFFSET (R87). -/
def PHASE_CS_OFFSET : Prm := ⟨0x0C46, .s16, -32768, 32767, [], 0, .V, .device, .upTo 48, false, false⟩
/-- PHASE_PARITY_ERR (R87). -/
def PHASE_PARITY_ERR : Prm := ⟨0x0C47, .u32, 0, 4294967295, [], 0, .V, .device, .upTo 4, false, false⟩
/-- PHASE_MAXDUTY_CNT (R87). -/
def PHASE_MAXDUTY_CNT : Prm := ⟨0x0C48, .u32, 0, 4294967295, [], 0, .V, .device, .upTo 48, false, false⟩
/-- PHASE_DIE_STATE (R87). -/
def PHASE_DIE_STATE : Prm := ⟨0x0C49, .enum, 0, 2, [], 0, .V, .device, .upTo 4, false, false⟩
/-- PHASE_VS_RATIO (R88). -/
def PHASE_VS_RATIO : Prm := ⟨0x0C80, .u32, 1000, 1000000, [], 1000, .K, .config, .upTo 16, false, false⟩
/-- PHASE_VS_OVS (R88). -/
def PHASE_VS_OVS : Prm := ⟨0x0C81, .u32, 0, 1200000, [], 1200000, .K, .config, .upTo 16, false, false⟩
/-- PHASE_VS_UVS (R88). -/
def PHASE_VS_UVS : Prm := ⟨0x0C82, .u32, 0, 1200000, [], 0, .K, .config, .upTo 16, false, false⟩
/-- PHASE_VS_HYST (R88). -/
def PHASE_VS_HYST : Prm := ⟨0x0C83, .u16, 0, 50000, [], 5000, .K, .config, .upTo 16, false, false⟩
/-- PHASE_VS_WIN_EN (R88). -/
def PHASE_VS_WIN_EN : Prm := ⟨0x0C84, .enum, 0, 3, [], 0, .K, .config, .upTo 16, false, false⟩
/-- LOOP_FSW (R89). -/
def LOOP_FSW : Prm := ⟨0x10C0, .u32, 20000, 2000000, [], 250000, .K, .config, .upTo 16, false, false⟩
/-- LOOP_SS_MODE (R89). -/
def LOOP_SS_MODE : Prm := ⟨0x10C1, .enum, 0, 2, [], 0, .K, .config, .upTo 16, false, false⟩
/-- LOOP_SS_DEV (R89). -/
def LOOP_SS_DEV : Prm := ⟨0x10C2, .u8, 2, 24, [], 8, .K, .config, .upTo 16, false, false⟩
/-- LOOP_SS_RATE (R89). -/
def LOOP_SS_RATE : Prm := ⟨0x10C3, .u16, 5, 500, [], 50, .K, .config, .upTo 16, false, false⟩
/-- LOOP_SS_SEED (R89). -/
def LOOP_SS_SEED : Prm := ⟨0x10C4, .u16, 0, 65535, [], 0, .K, .config, .upTo 16, false, false⟩
/-- LOOP_FSW_NOW (R89). -/
def LOOP_FSW_NOW : Prm := ⟨0x10C5, .u32, 0, 4294967295, [], 0, .V, .device, .upTo 16, false, false⟩
/-- LOOP_ENABLE (R117). -/
def LOOP_ENABLE : Prm := ⟨0x1000, .enum, 0, 1, [], 0, .K, .config, .upTo 16, false, false⟩
/-- LOOP_KIND (R117). -/
def LOOP_KIND : Prm := ⟨0x1001, .enum, 0, 2, [], 0, .K, .config, .upTo 16, false, false⟩
/-- LOOP_VS_SEL (R117). -/
def LOOP_VS_SEL : Prm := ⟨0x1002, .u8, 0, 15, [255], 255, .K, .config, .upTo 16, false, false⟩
/-- LOOP_VS_AUX (R117). -/
def LOOP_VS_AUX : Prm := ⟨0x1003, .u8, 0, 15, [255], 255, .K, .config, .upTo 16, false, false⟩
/-- LOOP_SAMPLE_DIV (R117). -/
def LOOP_SAMPLE_DIV : Prm := ⟨0x1004, .u8, 1, 64, [], 5, .K, .config, .upTo 16, false, false⟩
/-- LOOP_SAMPLE_MODE (R117). -/
def LOOP_SAMPLE_MODE : Prm := ⟨0x1005, .enum, 0, 1, [], 1, .K, .config, .upTo 16, false, false⟩
/-- LOOP_SAMPLE_OFFSET (R117). -/
def LOOP_SAMPLE_OFFSET : Prm := ⟨0x1006, .u32, 0, 400000, [], 0, .K, .config, .upTo 16, false, false⟩
/-- LOOP_SETPOINT (R117). -/
def LOOP_SETPOINT : Prm := ⟨0x1007, .s32, -8388608, 8388607, [], 0, .K, .config, .upTo 16, false, false⟩
/-- LOOP_SP_SLEW (R117). -/
def LOOP_SP_SLEW : Prm := ⟨0x1008, .u32, 0, 10000000, [], 0, .K, .config, .upTo 16, false, false⟩
/-- LOOP_ICMD_MAX (R117). -/
def LOOP_ICMD_MAX : Prm := ⟨0x1009, .s32, -3600000, 3600000, [], 0, .K, .config, .upTo 16, false, false⟩
/-- LOOP_ICMD_MIN (R117). -/
def LOOP_ICMD_MIN : Prm := ⟨0x100A, .s32, -3600000, 3600000, [], 0, .K, .config, .upTo 16, false, false⟩
/-- LOOP_START_SLEW (R117). -/
def LOOP_START_SLEW : Prm := ⟨0x100B, .u32, 1, 10000000, [], 1000, .K, .config, .upTo 16, false, false⟩
/-- LOOP_START_IMIN (R117). -/
def LOOP_START_IMIN : Prm := ⟨0x100C, .s32, -3600000, 0, [], 0, .K, .config, .upTo 16, false, false⟩
/-- LOOP_FERR_LIMIT (R117). -/
def LOOP_FERR_LIMIT : Prm := ⟨0x100D, .u32, 0, 8388607, [], 0, .K, .config, .upTo 16, false, false⟩
/-- LOOP_FERR_TIME (R117). -/
def LOOP_FERR_TIME : Prm := ⟨0x100E, .u32, 10, 10000000, [], 1000, .K, .config, .upTo 16, false, false⟩
/-- LOOP_FERR_ACTION (R117). -/
def LOOP_FERR_ACTION : Prm := ⟨0x100F, .enum, 0, 2, [], 1, .K, .config, .upTo 16, false, false⟩
/-- LOOP_CMD_STEP_TRIP (R117). -/
def LOOP_CMD_STEP_TRIP : Prm := ⟨0x1010, .u32, 0, 3600000, [], 0, .K, .config, .upTo 16, false, false⟩
/-- LOOP_DROOP (R117). -/
def LOOP_DROOP : Prm := ⟨0x1011, .u32, 0, 10000, [], 0, .K, .config, .upTo 16, false, false⟩
/-- LOOP_HOLDUP_EN (R117). -/
def LOOP_HOLDUP_EN : Prm := ⟨0x1012, .enum, 0, 1, [], 0, .K, .holdup, .upTo 16, false, false⟩
/-- LOOP_HU_KIND (R117). -/
def LOOP_HU_KIND : Prm := ⟨0x1013, .enum, 0, 2, [], 0, .K, .holdup, .upTo 16, false, false⟩
/-- LOOP_HU_SETPOINT (R117). -/
def LOOP_HU_SETPOINT : Prm := ⟨0x1014, .s32, -8388608, 8388607, [], 0, .K, .holdup, .upTo 16, false, false⟩
/-- LOOP_CTRL (R117). -/
def LOOP_CTRL : Prm := ⟨0x1020, .enum, 1, 3, [], 0, .V, .config, .upTo 16, false, true⟩
/-- LOOP_STATE (R117). -/
def LOOP_STATE : Prm := ⟨0x1040, .enum, 0, 4, [], 0, .V, .device, .upTo 16, false, false⟩
/-- LOOP_STATUS (R117). -/
def LOOP_STATUS : Prm := ⟨0x1041, .bitmap16, 0, 65535, [], 0, .V, .config, .upTo 16, true, false⟩
/-- LOOP_REGION (R117). -/
def LOOP_REGION : Prm := ⟨0x1042, .u8, 0, 255, [], 0, .V, .device, .upTo 16, false, false⟩
/-- LOOP_Y (R117). -/
def LOOP_Y : Prm := ⟨0x1043, .s32, -2147483648, 2147483647, [], 0, .V, .device, .upTo 16, false, false⟩
/-- LOOP_REF (R117). -/
def LOOP_REF : Prm := ⟨0x1044, .s32, -2147483648, 2147483647, [], 0, .V, .device, .upTo 16, false, false⟩
/-- LOOP_ICMD (R117). -/
def LOOP_ICMD : Prm := ⟨0x1045, .s32, -2147483648, 2147483647, [], 0, .V, .device, .upTo 16, false, false⟩
/-- LOOP_FERR_CNT (R117). -/
def LOOP_FERR_CNT : Prm := ⟨0x1046, .u32, 0, 4294967295, [], 0, .V, .device, .upTo 16, false, false⟩
/-- LOOP_STOP_CAUSE (R117). -/
def LOOP_STOP_CAUSE : Prm := ⟨0x1047, .enum, 0, 6, [], 6, .V, .device, .upTo 16, false, false⟩
/-- SCHED_VAR (R118). -/
def SCHED_VAR : Prm := ⟨0x1400, .enum, 0, 3, [], 0, .K, .config, .upTo 16, false, false⟩
/-- SCHED_REGIONS (R118). -/
def SCHED_REGIONS : Prm := ⟨0x1401, .u8, 1, 4, [], 1, .K, .config, .upTo 16, false, false⟩
/-- SCHED_TH1 (R118). -/
def SCHED_TH1 : Prm := ⟨0x1402, .s32, -8388608, 8388607, [], 0, .K, .config, .upTo 16, false, false⟩
/-- SCHED_TH2 (R118). -/
def SCHED_TH2 : Prm := ⟨0x1403, .s32, -8388608, 8388607, [], 0, .K, .config, .upTo 16, false, false⟩
/-- SCHED_TH3 (R118). -/
def SCHED_TH3 : Prm := ⟨0x1404, .s32, -8388608, 8388607, [], 0, .K, .config, .upTo 16, false, false⟩
/-- SCHED_HYST (R118). -/
def SCHED_HYST : Prm := ⟨0x1405, .u32, 0, 1000000, [], 0, .K, .config, .upTo 16, false, false⟩
/-- SCHED_DWELL (R118). -/
def SCHED_DWELL : Prm := ⟨0x1406, .u16, 1, 65535, [], 16, .K, .config, .upTo 16, false, false⟩
/-- SCHED_B0 (R118). -/
def SCHED_B0 : Prm := ⟨0x1410, .s32, -2147483648, 2147483647, [], 0, .K, .sched, .loopSet, false, false⟩
/-- SCHED_B1 (R118). -/
def SCHED_B1 : Prm := ⟨0x1411, .s32, -2147483648, 2147483647, [], 0, .K, .sched, .loopSet, false, false⟩
/-- SCHED_B2 (R118). -/
def SCHED_B2 : Prm := ⟨0x1412, .s32, -2147483648, 2147483647, [], 0, .K, .sched, .loopSet, false, false⟩
/-- SCHED_B3 (R118). -/
def SCHED_B3 : Prm := ⟨0x1413, .s32, -2147483648, 2147483647, [], 0, .K, .sched, .loopSet, false, false⟩
/-- SCHED_A1 (R118). -/
def SCHED_A1 : Prm := ⟨0x1414, .s32, -2147483648, 2147483647, [], 0, .K, .sched, .loopSet, false, false⟩
/-- SCHED_A2 (R118). -/
def SCHED_A2 : Prm := ⟨0x1415, .s32, -2147483648, 2147483647, [], 0, .K, .sched, .loopSet, false, false⟩
/-- SCHED_P0 (R118). -/
def SCHED_P0 : Prm := ⟨0x1416, .u32, 0, 16777216, [], 16777216, .K, .sched, .loopSet, false, false⟩
/-- LOOP_OC_MODE (R146). -/
def LOOP_OC_MODE : Prm := ⟨0x1080, .enum, 0, 1, [], 0, .K, .config, .upTo 16, false, false⟩
/-- LOOP_OC_MODE_HU (R146). -/
def LOOP_OC_MODE_HU : Prm := ⟨0x1081, .enum, 0, 1, [], 1, .K, .holdup, .upTo 16, false, false⟩
/-- LOOP_OC_COUNT (R146). -/
def LOOP_OC_COUNT : Prm := ⟨0x1082, .u8, 1, 255, [], 16, .K, .config, .upTo 16, false, false⟩
/-- LOOP_OC_WINDOW (R146). -/
def LOOP_OC_WINDOW : Prm := ⟨0x1083, .u16, 0, 4096, [], 0, .K, .config, .upTo 16, false, false⟩
/-- LOOP_OC_OFF_TIME (R146). -/
def LOOP_OC_OFF_TIME : Prm := ⟨0x1084, .u32, 500, 2000000, [], 10000, .K, .config, .upTo 16, false, false⟩
/-- LOOP_OC_RETRIES (R146). -/
def LOOP_OC_RETRIES : Prm := ⟨0x1085, .u8, 0, 15, [255], 3, .K, .config, .upTo 16, false, false⟩
/-- LOOP_OC_CLEAN_TIME (R146). -/
def LOOP_OC_CLEAN_TIME : Prm := ⟨0x1086, .u32, 1, 60000, [], 10000, .K, .config, .upTo 16, false, false⟩
/-- LOOP_FB_KNEE (R146). -/
def LOOP_FB_KNEE : Prm := ⟨0x1087, .u32, 0, 8388607, [], 0, .K, .config, .upTo 16, false, false⟩
/-- LOOP_FB_MIN (R146). -/
def LOOP_FB_MIN : Prm := ⟨0x1088, .u16, 0, 1024, [], 256, .K, .config, .upTo 16, false, false⟩
/-- LOOP_SHORT_TIME (R146). -/
def LOOP_SHORT_TIME : Prm := ⟨0x1089, .u32, 100, 1000000, [0], 20000, .K, .config, .upTo 16, false, false⟩
/-- LOOP_PG_LO (R146). -/
def LOOP_PG_LO : Prm := ⟨0x108A, .s32, -8388608, 8388607, [], 0, .K, .config, .upTo 16, false, false⟩
/-- LOOP_PG_HI (R146). -/
def LOOP_PG_HI : Prm := ⟨0x108B, .s32, -8388608, 8388607, [], 0, .K, .config, .upTo 16, false, false⟩
/-- LOOP_PG_DELAY (R146). -/
def LOOP_PG_DELAY : Prm := ⟨0x108C, .u32, 0, 10000000, [], 1000, .K, .config, .upTo 16, false, false⟩
/-- LOOP_PG_DRIVE (R146). -/
def LOOP_PG_DRIVE : Prm := ⟨0x108D, .enum, 0, 1, [], 0, .K, .config, .upTo 16, false, false⟩
/-- LOOP_PROT_STATUS (R146). -/
def LOOP_PROT_STATUS : Prm := ⟨0x10A0, .bitmap16, 0, 65535, [], 0, .V, .config, .upTo 16, true, false⟩
/-- LOOP_OC_RETRY_CNT (R146). -/
def LOOP_OC_RETRY_CNT : Prm := ⟨0x10A1, .u8, 0, 255, [], 0, .V, .device, .upTo 16, false, false⟩
/-- LOOP_OC_TRIPS (R146). -/
def LOOP_OC_TRIPS : Prm := ⟨0x10A2, .u32, 0, 4294967295, [], 0, .V, .device, .upTo 16, false, false⟩
/-- LOOP_FB_FACTOR (R146). -/
def LOOP_FB_FACTOR : Prm := ⟨0x10A3, .u16, 0, 65535, [], 1024, .V, .device, .upTo 16, false, false⟩
/-- EBB_ENABLE (R147). -/
def EBB_ENABLE : Prm := ⟨0x1800, .enum, 0, 1, [], 0, .K, .config, .upTo 16, false, false⟩
/-- EBB_MIN_PHASES (R147). -/
def EBB_MIN_PHASES : Prm := ⟨0x1801, .u8, 1, 24, [], 1, .K, .config, .upTo 16, false, false⟩
/-- EBB_SHED_TH (R147). -/
def EBB_SHED_TH : Prm := ⟨0x1802, .u32, 0, 150000, [], 5000, .K, .config, .upTo 16, false, false⟩
/-- EBB_ADD_TH (R147). -/
def EBB_ADD_TH : Prm := ⟨0x1803, .u32, 1, 150000, [], 10000, .K, .config, .upTo 16, false, false⟩
/-- EBB_FILT (R147). -/
def EBB_FILT : Prm := ⟨0x1804, .u8, 0, 8, [], 3, .K, .config, .upTo 16, false, false⟩
/-- EBB_DWELL (R147). -/
def EBB_DWELL : Prm := ⟨0x1805, .u32, 10, 10000000, [], 1000, .K, .config, .upTo 16, false, false⟩
/-- EBB_HOLDOFF (R147). -/
def EBB_HOLDOFF : Prm := ⟨0x1806, .u32, 0, 10000000, [], 1000, .K, .config, .upTo 16, false, false⟩
/-- EBB_ROT_EN (R147). -/
def EBB_ROT_EN : Prm := ⟨0x1807, .enum, 0, 1, [], 1, .K, .config, .upTo 16, false, false⟩
/-- EBB_ROT_EXP (R147). -/
def EBB_ROT_EXP : Prm := ⟨0x1808, .u8, 4, 16, [], 4, .K, .config, .upTo 16, false, false⟩
/-- EBB_ROT_SEED (R147). -/
def EBB_ROT_SEED : Prm := ⟨0x1809, .u16, 0, 65535, [], 0, .K, .config, .upTo 16, false, false⟩
/-- EBB_IMB_LIMIT (R147). -/
def EBB_IMB_LIMIT : Prm := ⟨0x180A, .u8, 1, 100, [], 10, .K, .config, .upTo 16, false, false⟩
/-- EBB_IMB_ACTION (R147). -/
def EBB_IMB_ACTION : Prm := ⟨0x180B, .enum, 0, 2, [], 1, .K, .config, .upTo 16, false, false⟩
/-- EBB_HOT_LIMIT (R147). -/
def EBB_HOT_LIMIT : Prm := ⟨0x180C, .u32, 1000, 150000, [0], 0, .K, .config, .upTo 16, false, false⟩
/-- EBB_N_ACT (R147). -/
def EBB_N_ACT : Prm := ⟨0x1840, .u8, 0, 255, [], 0, .V, .device, .upTo 16, false, false⟩
/-- EBB_SHED_MASK (R147). -/
def EBB_SHED_MASK : Prm := ⟨0x1841, .u64, 0, 18446744073709551615, [], 0, .V, .device, .upTo 16, false, false⟩
/-- EBB_SHED_CNT (R147). -/
def EBB_SHED_CNT : Prm := ⟨0x1842, .u32, 0, 4294967295, [], 0, .V, .device, .upTo 16, false, false⟩
/-- EBB_PH_IMEAN (R147). -/
def EBB_PH_IMEAN : Prm := ⟨0x1880, .s32, -2147483648, 2147483647, [], 0, .V, .device, .upTo 48, false, false⟩
/-- EBB_PH_IRMS (R147). -/
def EBB_PH_IRMS : Prm := ⟨0x1881, .u32, 0, 4294967295, [], 0, .V, .device, .upTo 48, false, false⟩
/-- DEV_FAULT_SRC (R148). -/
def DEV_FAULT_SRC : Prm := ⟨0x0440, .bitmap32, 0, 4294967295, [], 0, .K, .config, .upTo 4, false, false⟩
/-- DEV_FAULT_LOOPS (R148). -/
def DEV_FAULT_LOOPS : Prm := ⟨0x0441, .bitmap16, 0, 65535, [], 0, .K, .config, .upTo 4, false, false⟩
/-- DEV_FAULT_MODE (R148). -/
def DEV_FAULT_MODE : Prm := ⟨0x0442, .enum, 0, 1, [], 0, .K, .config, .upTo 4, false, false⟩
/-- DEV_FAULT_DRIVE (R148). -/
def DEV_FAULT_DRIVE : Prm := ⟨0x0443, .enum, 0, 1, [], 1, .K, .config, .upTo 4, false, false⟩
/-- DEV_FAULT_STATUS (R148). -/
def DEV_FAULT_STATUS : Prm := ⟨0x0444, .bitmap16, 0, 65535, [], 15, .V, .config, .one, true, false⟩
/-- FEED_AUTO_EN (R182). -/
def FEED_AUTO_EN : Prm := ⟨0x1C00, .enum, 0, 1, [], 0, .K, .config, .upTo 2, false, false⟩
/-- FEED_RSHUNT (R182). -/
def FEED_RSHUNT : Prm := ⟨0x1C01, .u32, 50, 100000, [], 1000, .K, .config, .upTo 2, false, false⟩
/-- FEED_DIV_RATIO (R182). -/
def FEED_DIV_RATIO : Prm := ⟨0x1C02, .u32, 1000, 1000000, [], 1000000, .K, .config, .upTo 7, false, false⟩
/-- FEED_UV (R182). -/
def FEED_UV : Prm := ⟨0x1C03, .u32, 150000, 1150000, [], 180000, .K, .config, .upTo 2, false, false⟩
/-- FEED_UV_HYST (R182). -/
def FEED_UV_HYST : Prm := ⟨0x1C04, .u32, 0, 100000, [], 10000, .K, .config, .upTo 2, false, false⟩
/-- FEED_OV (R182). -/
def FEED_OV : Prm := ⟨0x1C05, .u32, 150000, 1200000, [], 1150000, .K, .config, .upTo 2, false, false⟩
/-- FEED_OV_HYST (R182). -/
def FEED_OV_HYST : Prm := ⟨0x1C06, .u32, 0, 100000, [], 10000, .K, .config, .upTo 2, false, false⟩
/-- FEED_WIN_FILT (R182). -/
def FEED_WIN_FILT : Prm := ⟨0x1C07, .u32, 32, 1000000, [], 1000, .K, .config, .upTo 2, false, false⟩
/-- FEED_INSERT_DELAY (R182). -/
def FEED_INSERT_DELAY : Prm := ⟨0x1C08, .u32, 10, 10000, [], 1000, .K, .config, .upTo 2, false, false⟩
/-- FEED_INRUSH_MODE (R182). -/
def FEED_INRUSH_MODE : Prm := ⟨0x1C09, .enum, 0, 1, [], 0, .K, .config, .upTo 2, false, false⟩
/-- FEED_PRE_DV (R182). -/
def FEED_PRE_DV : Prm := ⟨0x1C0A, .u32, 1000, 100000, [], 20000, .K, .config, .upTo 2, false, false⟩
/-- FEED_PRE_TMAX (R182). -/
def FEED_PRE_TMAX : Prm := ⟨0x1C0B, .u32, 10, 60000, [], 5000, .K, .config, .upTo 2, false, false⟩
/-- FEED_DVDT (R182). -/
def FEED_DVDT : Prm := ⟨0x1C0C, .u16, 1, 500, [], 10, .K, .config, .upTo 2, false, false⟩
/-- FEED_SOA_P (R182). -/
def FEED_SOA_P : Prm := ⟨0x1C0D, .u32, 10, 20000, [], 500, .K, .config, .upTo 2, false, false⟩
/-- FEED_SOA_T (R182). -/
def FEED_SOA_T : Prm := ⟨0x1C0E, .u32, 1, 10000, [], 100, .K, .config, .upTo 2, false, false⟩
/-- FEED_PRE_OVERLAP (R182). -/
def FEED_PRE_OVERLAP : Prm := ⟨0x1C0F, .u32, 0, 10000, [], 100, .K, .config, .upTo 2, false, false⟩
/-- FEED_FAST_TRIP (R182). -/
def FEED_FAST_TRIP : Prm := ⟨0x1C10, .u32, 1000, 4294967295, [], 100000, .K, .config, .upTo 2, false, false⟩
/-- FEED_I2T_BASE (R182). -/
def FEED_I2T_BASE : Prm := ⟨0x1C11, .u32, 1000, 2000000, [], 50000, .K, .config, .upTo 2, false, false⟩
/-- FEED_I2T_LIMIT (R182). -/
def FEED_I2T_LIMIT : Prm := ⟨0x1C12, .u32, 1, 10000000, [], 5000, .K, .config, .upTo 2, false, false⟩
/-- FEED_RETRIES (R182). -/
def FEED_RETRIES : Prm := ⟨0x1C13, .u8, 0, 15, [255], 3, .K, .config, .upTo 2, false, false⟩
/-- FEED_RETRY_DELAY (R182). -/
def FEED_RETRY_DELAY : Prm := ⟨0x1C14, .u32, 100, 600000, [], 10000, .K, .config, .upTo 2, false, false⟩
/-- FEED_CLEAN_TIME (R182). -/
def FEED_CLEAN_TIME : Prm := ⟨0x1C15, .u32, 1, 86400, [], 600, .K, .config, .upTo 2, false, false⟩
/-- FEED_REV_TRIP (R182). -/
def FEED_REV_TRIP : Prm := ⟨0x1C16, .u32, 0, 4294967295, [], 5000, .K, .config, .upTo 2, false, false⟩
/-- FEED_OR_ON (R182). -/
def FEED_OR_ON : Prm := ⟨0x1C17, .u32, 0, 4294967295, [], 2000, .K, .config, .upTo 2, false, false⟩
/-- FEED_OR_ON_DLY (R182). -/
def FEED_OR_ON_DLY : Prm := ⟨0x1C18, .u32, 1, 10000, [], 10, .K, .config, .upTo 2, false, false⟩
/-- FEED_LOSS_LEVEL (R182). -/
def FEED_LOSS_LEVEL : Prm := ⟨0x1C19, .u32, 150000, 1150000, [], 190000, .K, .config, .upTo 2, false, false⟩
/-- FEED_LOSS_HYST (R182). -/
def FEED_LOSS_HYST : Prm := ⟨0x1C1A, .u32, 0, 100000, [], 10000, .K, .config, .upTo 2, false, false⟩
/-- FEED_LOSS_FILT (R182). -/
def FEED_LOSS_FILT : Prm := ⟨0x1C1B, .u32, 0, 100000, [], 5000, .K, .config, .upTo 2, false, false⟩
/-- FEED_LOSS_RET (R182). -/
def FEED_LOSS_RET : Prm := ⟨0x1C1C, .u32, 100, 1000000, [], 10000, .K, .config, .upTo 2, false, false⟩
/-- FEED_FETSHORT_V (R182). -/
def FEED_FETSHORT_V : Prm := ⟨0x1C1D, .u32, 1000, 100000, [], 20000, .K, .config, .upTo 2, false, false⟩
/-- FEED_FETSHORT_I (R182). -/
def FEED_FETSHORT_I : Prm := ⟨0x1C1E, .u32, 500, 100000, [], 2000, .K, .config, .upTo 2, false, false⟩
/-- FEED_GATE_OK (R182). -/
def FEED_GATE_OK : Prm := ⟨0x1C1F, .u16, 8000, 15000, [], 12000, .K, .config, .upTo 2, false, false⟩
/-- FEED_T_GATE (R182). -/
def FEED_T_GATE : Prm := ⟨0x1C20, .u16, 1, 1000, [], 50, .K, .config, .upTo 2, false, false⟩
/-- FEED_HB_TIMEOUT (R182). -/
def FEED_HB_TIMEOUT : Prm := ⟨0x1C21, .u16, 50, 10000, [], 1000, .K, .config, .upTo 2, false, false⟩
/-- FEED_CAL_GAIN (R182). -/
def FEED_CAL_GAIN : Prm := ⟨0x1C22, .s32, -50000, 50000, [], 0, .K, .config, .upTo 7, false, false⟩
/-- FEED_CAL_OFS (R182). -/
def FEED_CAL_OFS : Prm := ⟨0x1C23, .s32, -10000, 10000, [], 0, .K, .config, .upTo 7, false, false⟩
/-- FEED_CTRL (R182). -/
def FEED_CTRL : Prm := ⟨0x1C30, .enum, 1, 5, [], 0, .V, .feedCtrl, .upTo 2, false, true⟩
/-- FEED_STATE (R182). -/
def FEED_STATE : Prm := ⟨0x1C40, .enum, 0, 6, [], 0, .V, .device, .upTo 2, false, false⟩
/-- FEED_STATUS (R182). -/
def FEED_STATUS : Prm := ⟨0x1C41, .bitmap16, 0, 65535, [], 0, .V, .config, .upTo 2, true, false⟩
/-- FEED_V (R182). -/
def FEED_V : Prm := ⟨0x1C42, .s32, -2147483648, 2147483647, [], 0, .V, .device, .upTo 2, false, false⟩
/-- FEED_I (R182). -/
def FEED_I : Prm := ⟨0x1C43, .s32, -2147483648, 2147483647, [], 0, .V, .device, .upTo 2, false, false⟩
/-- FEED_P (R182). -/
def FEED_P : Prm := ⟨0x1C44, .s32, -2147483648, 2147483647, [], 0, .V, .device, .upTo 2, false, false⟩
/-- FEED_E_IMPORT (R182). -/
def FEED_E_IMPORT : Prm := ⟨0x1C45, .u64, 0, 18446744073709551615, [], 0, .S, .device, .upTo 2, false, false⟩
/-- FEED_E_EXPORT (R182). -/
def FEED_E_EXPORT : Prm := ⟨0x1C46, .u64, 0, 18446744073709551615, [], 0, .S, .device, .upTo 2, false, false⟩
/-- FEED_I2T_NOW (R182). -/
def FEED_I2T_NOW : Prm := ⟨0x1C47, .u16, 0, 65535, [], 0, .V, .device, .upTo 2, false, false⟩
/-- FEED_RETRY_CNT (R182). -/
def FEED_RETRY_CNT : Prm := ⟨0x1C48, .u8, 0, 255, [], 0, .V, .device, .upTo 2, false, false⟩
/-- FEED_TRIPS (R182). -/
def FEED_TRIPS : Prm := ⟨0x1C49, .u32, 0, 4294967295, [], 0, .V, .device, .upTo 2, false, false⟩
/-- FEED_BUS_V (R182). -/
def FEED_BUS_V : Prm := ⟨0x1C4A, .s32, -2147483648, 2147483647, [], 0, .V, .device, .one, false, false⟩
/-- FEED_BANK_STATUS (R182). -/
def FEED_BANK_STATUS : Prm := ⟨0x1C4B, .bitmap16, 0, 65535, [], 0, .V, .config, .one, true, false⟩
/-- SHARE_ENABLE (R203). -/
def SHARE_ENABLE : Prm := ⟨0x2000, .enum, 0, 1, [], 0, .K, .config, .upTo 4, false, false⟩
/-- SHARE_RATE (R203). -/
def SHARE_RATE : Prm := ⟨0x2001, .u16, 1000, 20000, [], 10000, .K, .config, .one, false, false⟩
/-- SHARE_GAIN (R203). -/
def SHARE_GAIN : Prm := ⟨0x2002, .u16, 0, 10000, [], 20, .K, .config, .one, false, false⟩
/-- SHARE_TRIM_MAX (R203). -/
def SHARE_TRIM_MAX : Prm := ⟨0x2003, .u32, 0, 2000000, [], 500000, .K, .config, .one, false, false⟩
/-- SHARE_STALE (R203). -/
def SHARE_STALE : Prm := ⟨0x2004, .u8, 2, 100, [], 3, .K, .config, .one, false, false⟩
/-- SHARE_MBR_NODE (R203). -/
def SHARE_MBR_NODE : Prm := ⟨0x2010, .u16, 0, 65535, [], 65535, .K, .config, .upTo 64, false, false⟩
/-- SHARE_MBR_GROUP (R203). -/
def SHARE_MBR_GROUP : Prm := ⟨0x2011, .u8, 0, 3, [255], 255, .K, .config, .upTo 64, false, false⟩
/-- SHARE_MBR_WEIGHT (R203). -/
def SHARE_MBR_WEIGHT : Prm := ⟨0x2012, .u16, 1, 65535, [], 1000, .K, .config, .upTo 64, false, false⟩
/-- SHARE_MBR_IPT (R203). -/
def SHARE_MBR_IPT : Prm := ⟨0x2013, .u32, 0, 131071, [4294967295], 4294967295, .K, .config, .upTo 64, false, false⟩
/-- SHARE_MBR_RATED (R203). -/
def SHARE_MBR_RATED : Prm := ⟨0x2014, .u32, 0, 1000000, [], 0, .K, .config, .upTo 64, false, false⟩
/-- SHARE_TIE_UP (R203). -/
def SHARE_TIE_UP : Prm := ⟨0x2020, .u8, 0, 3, [255], 255, .K, .config, .one, false, false⟩
/-- SHARE_TIE_DOWN (R203). -/
def SHARE_TIE_DOWN : Prm := ⟨0x2021, .u8, 0, 3, [255], 255, .K, .config, .one, false, false⟩
/-- SHARE_TIE_GAIN (R203). -/
def SHARE_TIE_GAIN : Prm := ⟨0x2022, .u16, 0, 10000, [], 50, .K, .config, .one, false, false⟩
/-- SHARE_TIE_MAX (R203). -/
def SHARE_TIE_MAX : Prm := ⟨0x2023, .u32, 0, 2000000, [], 300000, .K, .config, .one, false, false⟩
/-- SHARE_MBR_STATE (R203). -/
def SHARE_MBR_STATE : Prm := ⟨0x2040, .enum, 0, 4, [], 0, .V, .device, .upTo 64, false, false⟩
/-- SHARE_MBR_TRIM (R203). -/
def SHARE_MBR_TRIM : Prm := ⟨0x2041, .s32, -2147483648, 2147483647, [], 0, .V, .device, .upTo 64, false, false⟩
/-- SHARE_GROUP_I (R203). -/
def SHARE_GROUP_I : Prm := ⟨0x2042, .s32, -2147483648, 2147483647, [], 0, .V, .device, .upTo 4, false, false⟩
/-- SHARE_TIE_OFS (R203). -/
def SHARE_TIE_OFS : Prm := ⟨0x2043, .s32, -2147483648, 2147483647, [], 0, .V, .device, .upTo 4, false, false⟩
/-- SHARE_GROUP_FRAC (R203). -/
def SHARE_GROUP_FRAC : Prm := ⟨0x2044, .u16, 0, 65535, [], 0, .V, .device, .upTo 4, false, false⟩
/-- HOLD_LOAD_SRC (R204). -/
def HOLD_LOAD_SRC : Prm := ⟨0x2400, .enum, 0, 1, [], 0, .K, .holdup, .one, false, false⟩
/-- HOLD_EFF (R204). -/
def HOLD_EFF : Prm := ⟨0x2401, .u16, 500, 1000, [], 960, .K, .holdup, .one, false, false⟩
/-- HOLD_LOAD_WIN (R204). -/
def HOLD_LOAD_WIN : Prm := ⟨0x2402, .u32, 100, 100000, [], 5000, .K, .holdup, .one, false, false⟩
/-- HOLD_LOAD_PT (R204). -/
def HOLD_LOAD_PT : Prm := ⟨0x2403, .u32, 0, 131071, [4294967295], 4294967295, .K, .holdup, .upTo 32, false, false⟩
/-- HOLD_PRE_CAP (R204). -/
def HOLD_PRE_CAP : Prm := ⟨0x2404, .u32, 0, 2000000, [], 2000000, .K, .holdup, .one, false, false⟩
/-- HOLD_PRE_PERIOD (R204). -/
def HOLD_PRE_PERIOD : Prm := ⟨0x2405, .u32, 50, 10000, [], 100, .K, .holdup, .one, false, false⟩
/-- HOLD_WEIGHT (R204). -/
def HOLD_WEIGHT : Prm := ⟨0x2406, .u16, 0, 65535, [], 1, .K, .holdup, .upTo 16, false, false⟩
/-- HOLD_STRING (R204). -/
def HOLD_STRING : Prm := ⟨0x2407, .u8, 0, 7, [255], 255, .K, .holdup, .upTo 16, false, false⟩
/-- HOLD_VSTR_FIX (R204). -/
def HOLD_VSTR_FIX : Prm := ⟨0x2408, .u32, 1000, 1000000, [], 48000, .K, .holdup, .one, false, false⟩
/-- HOLD_IMIN (R204). -/
def HOLD_IMIN : Prm := ⟨0x2409, .s32, -3600000, 0, [], 0, .K, .holdup, .upTo 16, false, false⟩
/-- HOLD_HANDBACK (R204). -/
def HOLD_HANDBACK : Prm := ⟨0x240A, .enum, 0, 1, [], 0, .K, .holdup, .one, false, false⟩
/-- HOLD_RETURN_DELAY (R204). -/
def HOLD_RETURN_DELAY : Prm := ⟨0x240B, .u32, 0, 600000, [], 5000, .K, .holdup, .one, false, false⟩
/-- HOLD_MIN_MODULES (R204). -/
def HOLD_MIN_MODULES : Prm := ⟨0x240C, .u8, 0, 64, [], 0, .K, .holdup, .one, false, false⟩
/-- HOLD_RETURN_SLEW (R204). -/
def HOLD_RETURN_SLEW : Prm := ⟨0x240D, .u32, 1, 10000000, [], 100, .K, .holdup, .upTo 16, false, false⟩
/-- HOLD_SPATE_EN (R204). -/
def HOLD_SPATE_EN : Prm := ⟨0x240E, .enum, 0, 1, [], 1, .K, .holdup, .one, false, false⟩
/-- HOLD_CTRL (R204). -/
def HOLD_CTRL : Prm := ⟨0x2420, .enum, 1, 1, [], 0, .V, .holdup, .one, false, true⟩
/-- HOLD_STATE (R204). -/
def HOLD_STATE : Prm := ⟨0x2440, .enum, 0, 3, [], 0, .V, .device, .one, false, false⟩
/-- HOLD_STATUS (R204). -/
def HOLD_STATUS : Prm := ⟨0x2441, .bitmap16, 0, 65535, [], 0, .V, .holdup, .one, true, false⟩
/-- HOLD_P_LOAD (R204). -/
def HOLD_P_LOAD : Prm := ⟨0x2442, .s32, -2147483648, 2147483647, [], 0, .V, .device, .one, false, false⟩
/-- HOLD_PRELOAD (R204). -/
def HOLD_PRELOAD : Prm := ⟨0x2443, .s32, -2147483648, 2147483647, [], 0, .V, .device, .upTo 16, false, false⟩
/-- HOLD_ENTRIES (R204). -/
def HOLD_ENTRIES : Prm := ⟨0x2444, .u32, 0, 4294967295, [], 0, .V, .device, .one, false, false⟩
/-- HOLD_LAST_TIME (R204). -/
def HOLD_LAST_TIME : Prm := ⟨0x2445, .u32, 0, 4294967295, [], 0, .V, .device, .one, false, false⟩
/-- WEIR_ENABLE (R224). -/
def WEIR_ENABLE : Prm := ⟨0x2800, .enum, 0, 1, [], 0, .K, .config, .one, false, false⟩
/-- WEIR_PERIOD (R224). -/
def WEIR_PERIOD : Prm := ⟨0x2801, .u32, 100, 100000, [], 1000, .K, .config, .one, false, false⟩
/-- WEIR_AVG_WIN (R224). -/
def WEIR_AVG_WIN : Prm := ⟨0x2802, .u32, 100, 1000000, [], 10000, .K, .config, .one, false, false⟩
/-- WEIR_GAIN (R224). -/
def WEIR_GAIN : Prm := ⟨0x2803, .u16, 100, 1000, [], 1000, .K, .config, .one, false, false⟩
/-- WEIR_RESP_TIME (R224). -/
def WEIR_RESP_TIME : Prm := ⟨0x2804, .u32, 1, 10000, [], 20, .K, .config, .one, false, false⟩
/-- WEIR_RELEASE_RATE (R224). -/
def WEIR_RELEASE_RATE : Prm := ⟨0x2805, .u32, 1, 1000000, [], 1000, .K, .config, .one, false, false⟩
/-- WEIR_HARD_DELAY (R224). -/
def WEIR_HARD_DELAY : Prm := ⟨0x2806, .u32, 10, 60000, [], 2000, .K, .config, .one, false, false⟩
/-- WEIR_HARD_OVER (R224). -/
def WEIR_HARD_OVER : Prm := ⟨0x2807, .u16, 0, 500, [], 50, .K, .config, .one, false, false⟩
/-- WEIR_HARD_I2T (R224). -/
def WEIR_HARD_I2T : Prm := ⟨0x2808, .u32, 1, 10000000, [], 1000, .K, .config, .one, false, false⟩
/-- WEIR_CAP (R224). -/
def WEIR_CAP : Prm := ⟨0x2810, .u32, 0, 4294967294, [4294967295], 4294967295, .V, .weir, .upTo 36, false, false⟩
/-- WEIR_STD_CAP (R224). -/
def WEIR_STD_CAP : Prm := ⟨0x2811, .u32, 0, 4294967294, [4294967295], 4294967295, .K, .image, .upTo 36, false, false⟩
/-- WEIR_CAP_MAX (R224). -/
def WEIR_CAP_MAX : Prm := ⟨0x2812, .u32, 0, 4000000, [4294967295], 4294967295, .K, .image, .upTo 36, false, false⟩
/-- WEIR_HEADROOM (R224). -/
def WEIR_HEADROOM : Prm := ⟨0x2813, .u32, 0, 100000, [], 1000, .K, .config, .upTo 36, false, false⟩
/-- WEIR_REL_BAND (R224). -/
def WEIR_REL_BAND : Prm := ⟨0x2814, .u32, 0, 100000, [], 1000, .K, .config, .upTo 36, false, false⟩
/-- WEIR_SEG_PT (R224). -/
def WEIR_SEG_PT : Prm := ⟨0x2818, .u32, 0, 131071, [4294967295], 4294967295, .K, .config, .upTo 64, false, false⟩
/-- WEIR_GRP_PRIO (R224). -/
def WEIR_GRP_PRIO : Prm := ⟨0x2820, .u8, 0, 7, [], 0, .K, .config, .upTo 32, false, false⟩
/-- WEIR_GRP_FLOOR (R224). -/
def WEIR_GRP_FLOOR : Prm := ⟨0x2821, .u32, 0, 4000000, [], 0, .K, .config, .upTo 32, false, false⟩
/-- WEIR_GRP_SEG (R224). -/
def WEIR_GRP_SEG : Prm := ⟨0x2822, .enum, 0, 2, [], 2, .K, .config, .upTo 32, false, false⟩
/-- WEIR_NODE_GROUP (R224). -/
def WEIR_NODE_GROUP : Prm := ⟨0x2830, .u8, 0, 31, [255], 255, .K, .config, .node, false, false⟩
/-- WEIR_NODE_PPT (R224). -/
def WEIR_NODE_PPT : Prm := ⟨0x2831, .u32, 0, 131071, [4294967295], 4294967295, .K, .config, .node, false, false⟩
/-- WEIR_SHAVE_EN (R224). -/
def WEIR_SHAVE_EN : Prm := ⟨0x2838, .enum, 0, 1, [], 0, .K, .config, .upTo 16, false, false⟩
/-- WEIR_SHAVE_IMAX (R224). -/
def WEIR_SHAVE_IMAX : Prm := ⟨0x2839, .s32, 0, 3600000, [], 0, .K, .config, .upTo 16, false, false⟩
/-- WEIR_SHAVE_SOC_MIN (R224). -/
def WEIR_SHAVE_SOC_MIN : Prm := ⟨0x283A, .u8, 0, 100, [], 80, .K, .config, .upTo 16, false, false⟩
/-- WEIR_LOOP_SEG (R224). -/
def WEIR_LOOP_SEG : Prm := ⟨0x283B, .enum, 0, 2, [], 2, .K, .config, .upTo 16, false, false⟩
/-- WEIR_STATUS (R224). -/
def WEIR_STATUS : Prm := ⟨0x2840, .bitmap16, 0, 65535, [], 0, .V, .weir, .upTo 36, true, false⟩
/-- WEIR_P (R224). -/
def WEIR_P : Prm := ⟨0x2841, .s32, -2147483648, 2147483647, [], 0, .V, .device, .upTo 36, false, false⟩
/-- WEIR_REDUCE (R224). -/
def WEIR_REDUCE : Prm := ⟨0x2842, .u32, 0, 4294967295, [], 0, .V, .device, .upTo 36, false, false⟩
/-- WEIR_CAP_NOW (R224). -/
def WEIR_CAP_NOW : Prm := ⟨0x2843, .u32, 0, 4294967295, [], 4294967295, .V, .device, .upTo 36, false, false⟩
/-- WEIR_NODE_LIMIT (R224). -/
def WEIR_NODE_LIMIT : Prm := ⟨0x2844, .u32, 0, 4294967295, [], 4294967295, .V, .device, .node, false, false⟩
/-- WEIR_NODE_STATE (R224). -/
def WEIR_NODE_STATE : Prm := ⟨0x2845, .enum, 0, 2, [], 0, .V, .device, .node, false, false⟩
/-- WEIR_SHAVE_NOW (R224). -/
def WEIR_SHAVE_NOW : Prm := ⟨0x2846, .s32, -2147483648, 2147483647, [], 0, .V, .device, .upTo 16, false, false⟩
/-- WEIR_HARD_I (R224). -/
def WEIR_HARD_I : Prm := ⟨0x2847, .u32, 0, 4294967295, [], 0, .V, .device, .upTo 2, false, false⟩
/-- BATT_ENABLE (R253). -/
def BATT_ENABLE : Prm := ⟨0x2C00, .enum, 0, 1, [], 0, .K, .battery, .upTo 8, false, false⟩
/-- BATT_CHEM (R253). -/
def BATT_CHEM : Prm := ⟨0x2C01, .u8, 0, 3, [], 0, .K, .battery, .upTo 8, false, false⟩
/-- BATT_CELLS (R253). -/
def BATT_CELLS : Prm := ⟨0x2C02, .u8, 1, 255, [], 16, .K, .battery, .upTo 8, false, false⟩
/-- BATT_I_SRC (R253). -/
def BATT_I_SRC : Prm := ⟨0x2C03, .enum, 0, 1, [], 0, .K, .battery, .upTo 8, false, false⟩
/-- BATT_I_PT (R253). -/
def BATT_I_PT : Prm := ⟨0x2C04, .u32, 0, 131071, [4294967295], 4294967295, .K, .battery, .upTo 8, false, false⟩
/-- BATT_I_SIGN (R253). -/
def BATT_I_SIGN : Prm := ⟨0x2C05, .enum, 0, 1, [], 0, .K, .battery, .upTo 8, false, false⟩
/-- BATT_V_PT (R253). -/
def BATT_V_PT : Prm := ⟨0x2C06, .u32, 0, 131071, [4294967295], 4294967295, .K, .battery, .upTo 128, false, false⟩
/-- BATT_V_MIN_SRC (R253). -/
def BATT_V_MIN_SRC : Prm := ⟨0x2C07, .u8, 1, 16, [], 1, .K, .battery, .upTo 8, false, false⟩
/-- BATT_V_STALE (R253). -/
def BATT_V_STALE : Prm := ⟨0x2C08, .u32, 10, 60000, [], 1000, .K, .battery, .upTo 8, false, false⟩
/-- BATT_REINSERT_TIME (R253). -/
def BATT_REINSERT_TIME : Prm := ⟨0x2C09, .u32, 1, 3600, [], 10, .K, .battery, .upTo 8, false, false⟩
/-- BATT_T_PT (R253). -/
def BATT_T_PT : Prm := ⟨0x2C0A, .u32, 0, 131071, [4294967295], 4294967295, .K, .battery, .upTo 128, false, false⟩
/-- BATT_T_FIX (R253). -/
def BATT_T_FIX : Prm := ⟨0x2C0B, .s16, -400, 1250, [], 250, .K, .battery, .upTo 8, false, false⟩
/-- BATT_RINT (R253). -/
def BATT_RINT : Prm := ⟨0x2C0C, .u32, 0, 1000000, [], 0, .K, .battery, .upTo 8, false, false⟩
/-- BATT_CAP_NOM (R253). -/
def BATT_CAP_NOM : Prm := ⟨0x2C0D, .u32, 1000, 100000000, [], 100000, .K, .battery, .upTo 8, false, false⟩
/-- BATT_CHG_EFF (R253). -/
def BATT_CHG_EFF : Prm := ⟨0x2C0E, .u16, 900, 1000, [], 995, .K, .battery, .upTo 8, false, false⟩
/-- BATT_I_REST (R253). -/
def BATT_I_REST : Prm := ⟨0x2C0F, .u32, 0, 100000, [], 1000, .K, .battery, .upTo 8, false, false⟩
/-- BATT_T_REST (R253). -/
def BATT_T_REST : Prm := ⟨0x2C10, .u32, 60, 86400, [], 1800, .K, .battery, .upTo 8, false, false⟩
/-- BATT_I_LOW (R253). -/
def BATT_I_LOW : Prm := ⟨0x2C11, .u32, 0, 1000000, [], 5000, .K, .battery, .upTo 8, false, false⟩
/-- BATT_OCV_MIN_SLOPE (R253). -/
def BATT_OCV_MIN_SLOPE : Prm := ⟨0x2C12, .u16, 0, 10000, [], 200, .K, .battery, .upTo 8, false, false⟩
/-- BATT_V_FULL (R253). -/
def BATT_V_FULL : Prm := ⟨0x2C13, .u32, 1000, 1000000, [], 1000000, .K, .battery, .upTo 8, false, false⟩
/-- BATT_I_TAPER (R253). -/
def BATT_I_TAPER : Prm := ⟨0x2C14, .u32, 0, 1000000, [], 5000, .K, .battery, .upTo 8, false, false⟩
/-- BATT_T_FULL (R253). -/
def BATT_T_FULL : Prm := ⟨0x2C15, .u32, 1, 3600, [], 60, .K, .battery, .upTo 8, false, false⟩
/-- BATT_V_EMPTY (R253). -/
def BATT_V_EMPTY : Prm := ⟨0x2C16, .u32, 1000, 1000000, [], 2000, .K, .battery, .upTo 8, false, false⟩
/-- BATT_EMPTY_FILT (R253). -/
def BATT_EMPTY_FILT : Prm := ⟨0x2C17, .u32, 1, 60000, [], 1000, .K, .battery, .upTo 8, false, false⟩
/-- BATT_DISAGREE_MARGIN (R253). -/
def BATT_DISAGREE_MARGIN : Prm := ⟨0x2C18, .u32, 0, 100000, [], 1000, .K, .battery, .upTo 8, false, false⟩
/-- BATT_V_CUTOFF (R253). -/
def BATT_V_CUTOFF : Prm := ⟨0x2C19, .u32, 1000, 1000000, [], 1000, .K, .battery, .upTo 8, false, false⟩
/-- BATT_CUT_FILT (R253). -/
def BATT_CUT_FILT : Prm := ⟨0x2C1A, .u32, 1, 10000, [], 10, .K, .battery, .upTo 8, false, false⟩
/-- BATT_CUT_RELEASE (R253). -/
def BATT_CUT_RELEASE : Prm := ⟨0x2C1B, .u8, 1, 50, [], 5, .K, .battery, .upTo 8, false, false⟩
/-- BATT_EMPTY_ACTION (R253). -/
def BATT_EMPTY_ACTION : Prm := ⟨0x2C1C, .enum, 0, 1, [], 0, .K, .battery, .upTo 8, false, false⟩
/-- BATT_LEARN_TMIN (R253). -/
def BATT_LEARN_TMIN : Prm := ⟨0x2C1D, .s16, -400, 1250, [], 100, .K, .battery, .upTo 8, false, false⟩
/-- BATT_LEARN_TMAX (R253). -/
def BATT_LEARN_TMAX : Prm := ⟨0x2C1E, .s16, -400, 1250, [], 400, .K, .battery, .upTo 8, false, false⟩
/-- BATT_LEARN_MAX_STEP (R253). -/
def BATT_LEARN_MAX_STEP : Prm := ⟨0x2C1F, .u8, 1, 50, [], 10, .K, .battery, .upTo 8, false, false⟩
/-- BATT_LEARN_WEIGHT (R253). -/
def BATT_LEARN_WEIGHT : Prm := ⟨0x2C20, .u8, 0, 4, [], 2, .K, .battery, .upTo 8, false, false⟩
/-- BATT_CAP_MIN (R253). -/
def BATT_CAP_MIN : Prm := ⟨0x2C21, .u8, 10, 100, [], 50, .K, .battery, .upTo 8, false, false⟩
/-- BATT_CAP_MAX (R253). -/
def BATT_CAP_MAX : Prm := ⟨0x2C22, .u8, 100, 150, [], 110, .K, .battery, .upTo 8, false, false⟩
/-- BATT_STRING_ID (R253). -/
def BATT_STRING_ID : Prm := ⟨0x2C23, .u32, 0, 4294967295, [], 0, .K, .battery, .upTo 8, false, false⟩
/-- BATT_OCV_TCOL (R253). -/
def BATT_OCV_TCOL : Prm := ⟨0x2C28, .s16, -400, 1250, [], 0, .K, .battery, .upTo 16, false, false⟩
/-- BATT_OCV_SOC (R253). -/
def BATT_OCV_SOC : Prm := ⟨0x2C29, .u16, 0, 1000, [], 0, .K, .battery, .upTo 128, false, false⟩
/-- BATT_OCV_V (R253). -/
def BATT_OCV_V : Prm := ⟨0x2C2A, .u16, 0, 65535, [], 0, .K, .battery, .upTo 512, false, false⟩
/-- BATT_CTRL (R253). -/
def BATT_CTRL : Prm := ⟨0x2C30, .enum, 1, 3, [], 0, .V, .battery, .upTo 8, false, true⟩
/-- BATT_STATUS (R253). -/
def BATT_STATUS : Prm := ⟨0x2C40, .bitmap16, 0, 65535, [], 0, .V, .battery, .upTo 8, true, false⟩
/-- BATT_SOC (R253). -/
def BATT_SOC : Prm := ⟨0x2C41, .u16, 0, 65535, [], 0, .V, .device, .upTo 8, false, false⟩
/-- BATT_V (R253). -/
def BATT_V : Prm := ⟨0x2C42, .s32, -2147483648, 2147483647, [], 0, .V, .device, .upTo 8, false, false⟩
/-- BATT_V_CORR (R253). -/
def BATT_V_CORR : Prm := ⟨0x2C43, .s32, -2147483648, 2147483647, [], 0, .V, .device, .upTo 8, false, false⟩
/-- BATT_I (R253). -/
def BATT_I : Prm := ⟨0x2C44, .s32, -2147483648, 2147483647, [], 0, .V, .device, .upTo 8, false, false⟩
/-- BATT_T (R253). -/
def BATT_T : Prm := ⟨0x2C45, .s16, -32768, 32767, [], 0, .V, .device, .upTo 8, false, false⟩
/-- BATT_Q_REM (R253). -/
def BATT_Q_REM : Prm := ⟨0x2C46, .s64, -9223372036854775808, 9223372036854775807, [], 0, .V, .device, .upTo 8, false, false⟩
/-- BATT_Q_DIS (R253). -/
def BATT_Q_DIS : Prm := ⟨0x2C47, .s64, -9223372036854775808, 9223372036854775807, [], 0, .V, .device, .upTo 8, false, false⟩
/-- BATT_REST_TIME (R253). -/
def BATT_REST_TIME : Prm := ⟨0x2C48, .u32, 0, 4294967295, [], 0, .V, .device, .upTo 8, false, false⟩
/-- BATT_CAP_LEARNED (R253). -/
def BATT_CAP_LEARNED : Prm := ⟨0x2C50, .u32, 0, 4294967295, [], 0, .H, .device, .upTo 8, false, false⟩
/-- BATT_GENERATION (R253). -/
def BATT_GENERATION : Prm := ⟨0x2C51, .u32, 0, 4294967295, [], 0, .H, .device, .upTo 8, false, false⟩
/-- BATT_CYCLES (R253). -/
def BATT_CYCLES : Prm := ⟨0x2C52, .u32, 0, 4294967295, [], 0, .H, .device, .upTo 8, false, false⟩
/-- BATT_LEARN_CNT (R253). -/
def BATT_LEARN_CNT : Prm := ⟨0x2C53, .u16, 0, 65535, [], 0, .H, .device, .upTo 8, false, false⟩
/-- BATT_LEARN_REJ (R253). -/
def BATT_LEARN_REJ : Prm := ⟨0x2C54, .u16, 0, 65535, [], 0, .H, .device, .upTo 8, false, false⟩
/-- BATT_DIS_THRU (R253). -/
def BATT_DIS_THRU : Prm := ⟨0x2C55, .u64, 0, 18446744073709551615, [], 0, .H, .device, .upTo 8, false, false⟩
/-- PORT_MODE (R286). -/
def PORT_MODE : Prm := ⟨0x3000, .enum, 0, 2, [], 0, .K, .config, .upTo 64, false, false⟩
/-- PORT_TOPOLOGY (R286). -/
def PORT_TOPOLOGY : Prm := ⟨0x3001, .enum, 0, 1, [], 0, .K, .config, .upTo 64, false, false⟩
/-- PORT_REDUND (R286). -/
def PORT_REDUND : Prm := ⟨0x3002, .enum, 0, 1, [], 0, .K, .config, .upTo 64, false, false⟩
/-- PORT_RATE_MAX (R286). -/
def PORT_RATE_MAX : Prm := ⟨0x3003, .enum, 0, 3, [], 0, .K, .config, .upTo 64, false, false⟩
/-- PORT_RATE_MIN (R286). -/
def PORT_RATE_MIN : Prm := ⟨0x3004, .enum, 0, 3, [], 3, .K, .config, .upTo 64, false, false⟩
/-- PORT_TRAIN_DWELL (R286). -/
def PORT_TRAIN_DWELL : Prm := ⟨0x3005, .u16, 4, 1000, [], 4, .K, .config, .upTo 64, false, false⟩
/-- PORT_UPSHIFT (R286). -/
def PORT_UPSHIFT : Prm := ⟨0x3006, .enum, 0, 1, [], 0, .K, .config, .upTo 64, false, false⟩
/-- PORT_UPSHIFT_TIME (R286). -/
def PORT_UPSHIFT_TIME : Prm := ⟨0x3007, .u32, 10, 86400, [], 600, .K, .config, .upTo 64, false, false⟩
/-- PORT_ERR_LIMIT (R286). -/
def PORT_ERR_LIMIT : Prm := ⟨0x3008, .u16, 1, 1000, [], 16, .K, .config, .upTo 64, false, false⟩
/-- PORT_RETRAIN_DELAY (R286). -/
def PORT_RETRAIN_DELAY : Prm := ⟨0x3009, .u32, 10, 60000, [], 1000, .K, .config, .upTo 64, false, false⟩
/-- PORT_TX_STALL (R286). -/
def PORT_TX_STALL : Prm := ⟨0x300A, .u32, 100, 1000000, [], 10000, .K, .config, .upTo 64, false, false⟩
/-- PORT_QUIET (R286). -/
def PORT_QUIET : Prm := ⟨0x300B, .enum, 0, 1, [], 0, .K, .config, .upTo 64, false, false⟩
/-- PORT_PMB_SPEED (R286). -/
def PORT_PMB_SPEED : Prm := ⟨0x300C, .enum, 0, 2, [], 1, .K, .config, .upTo 64, false, false⟩
/-- PORT_PMB_PERIOD (R286). -/
def PORT_PMB_PERIOD : Prm := ⟨0x300D, .u32, 1000, 10000000, [], 10000, .K, .config, .upTo 64, false, false⟩
/-- PORT_NODE_BASE (R286). -/
def PORT_NODE_BASE : Prm := ⟨0x3010, .u32, 0, 131071, [4294967295], 4294967295, .K, .config, .node, false, false⟩
/-- PORT_NODE_SLOTS (R286). -/
def PORT_NODE_SLOTS : Prm := ⟨0x3011, .u16, 0, 4096, [], 0, .K, .config, .node, false, false⟩
/-- PORT_PMB_ADDR (R286). -/
def PORT_PMB_ADDR : Prm := ⟨0x3018, .u8, 8, 119, [255], 255, .K, .config, .upTo 1024, false, false⟩
/-- PORT_PMB_PEC (R286). -/
def PORT_PMB_PEC : Prm := ⟨0x3019, .enum, 0, 1, [], 1, .K, .config, .upTo 1024, false, false⟩
/-- PORT_POLL_TARGET (R286). -/
def PORT_POLL_TARGET : Prm := ⟨0x3020, .u8, 0, 15, [255], 255, .K, .config, .upTo 4096, false, false⟩
/-- PORT_POLL_CMD (R286). -/
def PORT_POLL_CMD : Prm := ⟨0x3021, .u8, 0, 255, [], 139, .K, .config, .upTo 4096, false, false⟩
/-- PORT_POLL_CONV (R286). -/
def PORT_POLL_CONV : Prm := ⟨0x3022, .enum, 0, 2, [], 0, .K, .config, .upTo 4096, false, false⟩
/-- PORT_POLL_POINT (R286). -/
def PORT_POLL_POINT : Prm := ⟨0x3023, .u16, 0, 65535, [], 0, .K, .config, .upTo 4096, false, false⟩
/-- PORT_POLL_DIV (R286). -/
def PORT_POLL_DIV : Prm := ⟨0x3024, .u8, 1, 255, [], 1, .K, .config, .upTo 4096, false, false⟩
/-- PORT_STATE (R286). -/
def PORT_STATE : Prm := ⟨0x3040, .enum, 0, 5, [], 0, .V, .device, .upTo 64, false, false⟩
/-- PORT_RATE_NOW (R286). -/
def PORT_RATE_NOW : Prm := ⟨0x3041, .enum, 0, 3, [], 0, .V, .device, .upTo 64, false, false⟩
/-- PORT_STATUS (R286). -/
def PORT_STATUS : Prm := ⟨0x3042, .bitmap16, 0, 65535, [], 0, .V, .config, .upTo 64, true, false⟩
/-- PORT_RX_FRAMES (R286). -/
def PORT_RX_FRAMES : Prm := ⟨0x3043, .u32, 0, 4294967295, [], 0, .V, .device, .upTo 64, false, false⟩
/-- PORT_RX_CRC_ERR (R286). -/
def PORT_RX_CRC_ERR : Prm := ⟨0x3044, .u32, 0, 4294967295, [], 0, .V, .device, .upTo 64, false, false⟩
/-- PORT_RX_ABANDON (R286). -/
def PORT_RX_ABANDON : Prm := ⟨0x3045, .u32, 0, 4294967295, [], 0, .V, .device, .upTo 64, false, false⟩
/-- PORT_RX_MALFORMED (R286). -/
def PORT_RX_MALFORMED : Prm := ⟨0x3046, .u32, 0, 4294967295, [], 0, .V, .device, .upTo 64, false, false⟩
/-- PORT_RX_NOISE (R286). -/
def PORT_RX_NOISE : Prm := ⟨0x3047, .u32, 0, 4294967295, [], 0, .V, .device, .upTo 64, false, false⟩
/-- PORT_RX_NOCREDIT (R286). -/
def PORT_RX_NOCREDIT : Prm := ⟨0x3048, .u32, 0, 4294967295, [], 0, .V, .device, .upTo 64, false, false⟩
/-- PORT_CODE_ERR (R286). -/
def PORT_CODE_ERR : Prm := ⟨0x3049, .u32, 0, 4294967295, [], 0, .V, .device, .upTo 64, false, false⟩
/-- PORT_TX_FLUSHED (R286). -/
def PORT_TX_FLUSHED : Prm := ⟨0x304A, .u32, 0, 4294967295, [], 0, .V, .device, .upTo 64, false, false⟩
/-- PORT_PT_ERR (R286). -/
def PORT_PT_ERR : Prm := ⟨0x304B, .u32, 0, 4294967295, [], 0, .V, .device, .upTo 64, false, false⟩
/-- PORT_DUAL_DUP (R286). -/
def PORT_DUAL_DUP : Prm := ⟨0x304C, .u32, 0, 4294967295, [], 0, .V, .device, .upTo 64, false, false⟩
/-- PORT_PMB_ERR (R286). -/
def PORT_PMB_ERR : Prm := ⟨0x304D, .u32, 0, 4294967295, [], 0, .V, .device, .upTo 64, false, false⟩
/-- PORT_NODE_LINK (R286). -/
def PORT_NODE_LINK : Prm := ⟨0x3050, .enum, 0, 1, [], 0, .V, .device, .node, false, false⟩
/-- PORT_HUB_LINKS (R286). -/
def PORT_HUB_LINKS : Prm := ⟨0x3051, .u32, 0, 4294967295, [], 0, .V, .device, .upTo 64, false, false⟩
/-- PORT_PMB_STATE (R286). -/
def PORT_PMB_STATE : Prm := ⟨0x3052, .enum, 0, 1, [], 0, .V, .device, .upTo 1024, false, false⟩
/-- NODE_CLASS (R313). -/
def NODE_CLASS : Prm := ⟨0x3400, .enum, 0, 5, [], 0, .K, .config, .node, false, false⟩
/-- NODE_LEASE (R313). -/
def NODE_LEASE : Prm := ⟨0x3401, .u32, 1000, 600000, [], 3000, .K, .config, .node, false, false⟩
/-- NODE_PUB_PERIOD (R313). -/
def NODE_PUB_PERIOD : Prm := ⟨0x3402, .u32, 100, 10000000, [], 100000, .K, .config, .node, false, false⟩
/-- NODE_STD_LIMIT (R313). -/
def NODE_STD_LIMIT : Prm := ⟨0x3403, .u32, 0, 4000000, [4294967295], 4294967295, .K, .image, .node, false, false⟩
/-- NODE_STATE_PT (R313). -/
def NODE_STATE_PT : Prm := ⟨0x3404, .u16, 0, 4095, [65535], 65535, .K, .config, .node, false, false⟩
/-- NODE_UID_LOCK (R313). -/
def NODE_UID_LOCK : Prm := ⟨0x3405, .u64, 0, 18446744073709551615, [], 0, .K, .config, .node, false, false⟩
/-- NODE_RETX_TIME (R313). -/
def NODE_RETX_TIME : Prm := ⟨0x3406, .u32, 100, 1000000, [], 2000, .K, .config, .one, false, false⟩
/-- NODE_RETX_MAX (R313). -/
def NODE_RETX_MAX : Prm := ⟨0x3407, .u8, 1, 15, [], 5, .K, .config, .one, false, false⟩
/-- NODE_CTRL (R313). -/
def NODE_CTRL : Prm := ⟨0x3420, .enum, 1, 1, [], 0, .V, .nodePort, .node, false, true⟩
/-- NODE_SESSION (R313). -/
def NODE_SESSION : Prm := ⟨0x3440, .enum, 0, 1, [], 0, .V, .device, .node, false, false⟩
/-- NODE_EPOCH (R313). -/
def NODE_EPOCH : Prm := ⟨0x3441, .u32, 0, 4294967295, [], 0, .V, .device, .node, false, false⟩
/-- NODE_UID (R313). -/
def NODE_UID : Prm := ⟨0x3442, .u64, 0, 18446744073709551615, [], 0, .V, .device, .node, false, false⟩
/-- NODE_FW_VER (R313). -/
def NODE_FW_VER : Prm := ⟨0x3443, .u32, 0, 4294967295, [], 0, .V, .device, .node, false, false⟩
/-- NODE_RX_SEQ (R313). -/
def NODE_RX_SEQ : Prm := ⟨0x3444, .u32, 0, 4294967295, [], 0, .V, .device, .node, false, false⟩
/-- NODE_TX_SEQ (R313). -/
def NODE_TX_SEQ : Prm := ⟨0x3445, .u32, 0, 4294967295, [], 0, .V, .device, .node, false, false⟩
/-- NODE_DUP (R313). -/
def NODE_DUP : Prm := ⟨0x3446, .u32, 0, 4294967295, [], 0, .V, .device, .node, false, false⟩
/-- NODE_STALE (R313). -/
def NODE_STALE : Prm := ⟨0x3447, .u32, 0, 4294967295, [], 0, .V, .device, .node, false, false⟩
/-- NODE_GAP (R313). -/
def NODE_GAP : Prm := ⟨0x3448, .u32, 0, 4294967295, [], 0, .V, .device, .node, false, false⟩
/-- NODE_OPENS (R313). -/
def NODE_OPENS : Prm := ⟨0x3449, .u32, 0, 4294967295, [], 0, .V, .device, .node, false, false⟩
/-- NODE_OUT_STATE (R313). -/
def NODE_OUT_STATE : Prm := ⟨0x344A, .enum, 255, 255, [], 255, .V, .device, .node, false, false⟩
/-- NODE_RELAY_STATE (R313). -/
def NODE_RELAY_STATE : Prm := ⟨0x344B, .enum, 0, 1, [], 0, .V, .device, .node, false, false⟩
/-- NODE_BOOT_GEN (R313). -/
def NODE_BOOT_GEN : Prm := ⟨0x344C, .u16, 0, 65535, [], 1, .S, .device, .one, false, false⟩
/-- POOL_DESC_LO (R336). -/
def POOL_DESC_LO : Prm := ⟨0x3800, .bitmap32, 0, 4294967295, [], 0, .K, .config, .upTo 65536, false, false⟩
/-- POOL_DESC_HI (R336). -/
def POOL_DESC_HI : Prm := ⟨0x3801, .bitmap32, 0, 4294967295, [], 0, .K, .config, .upTo 65536, false, false⟩
/-- POOL_SRC_BASE (R336). -/
def POOL_SRC_BASE : Prm := ⟨0x3802, .u32, 0, 131071, [4294967295], 4294967295, .K, .config, .upTo 3, false, false⟩
/-- POOL_SRC_SLOTS (R336). -/
def POOL_SRC_SLOTS : Prm := ⟨0x3803, .u16, 0, 4096, [], 0, .K, .config, .upTo 3, false, false⟩
/-- POOL_UPDATES (R336). -/
def POOL_UPDATES : Prm := ⟨0x3840, .u64, 0, 18446744073709551615, [], 0, .V, .device, .one, false, false⟩
/-- POOL_EVENTS (R336). -/
def POOL_EVENTS : Prm := ⟨0x3841, .u32, 0, 4294967295, [], 0, .V, .device, .one, false, false⟩
/-- POOL_ECC_CE (R336). -/
def POOL_ECC_CE : Prm := ⟨0x3842, .u32, 0, 4294967295, [], 0, .V, .device, .one, false, false⟩
/-- POOL_ECC_UE (R336). -/
def POOL_ECC_UE : Prm := ⟨0x3843, .u32, 0, 4294967295, [], 0, .V, .device, .one, false, false⟩
/-- POOL_SUB_ACTIVE (R336). -/
def POOL_SUB_ACTIVE : Prm := ⟨0x3844, .u8, 0, 255, [], 0, .V, .device, .one, false, false⟩
/-- POOL_SUB_LOST (R336). -/
def POOL_SUB_LOST : Prm := ⟨0x3845, .u32, 0, 4294967295, [], 0, .V, .device, .one, false, false⟩
/-- LIMIT_HH (R337). -/
def LIMIT_HH : Prm := ⟨0x3C00, .raw32, 0, 4294967295, [], 0, .K, .config, .upTo 16384, false, false⟩
/-- LIMIT_H (R337). -/
def LIMIT_H : Prm := ⟨0x3C01, .raw32, 0, 4294967295, [], 0, .K, .config, .upTo 16384, false, false⟩
/-- LIMIT_L (R337). -/
def LIMIT_L : Prm := ⟨0x3C02, .raw32, 0, 4294967295, [], 0, .K, .config, .upTo 16384, false, false⟩
/-- LIMIT_LL (R337). -/
def LIMIT_LL : Prm := ⟨0x3C03, .raw32, 0, 4294967295, [], 0, .K, .config, .upTo 16384, false, false⟩
/-- LIMIT_HYST (R337). -/
def LIMIT_HYST : Prm := ⟨0x3C04, .u32, 0, 4294967295, [], 0, .K, .config, .upTo 16384, false, false⟩
/-- LIMIT_DEBOUNCE (R337). -/
def LIMIT_DEBOUNCE : Prm := ⟨0x3C05, .u8, 0, 255, [], 1, .K, .config, .upTo 16384, false, false⟩
/-- LIMIT_ACTION (R337). -/
def LIMIT_ACTION : Prm := ⟨0x3C06, .enum, 0, 4, [], 0, .K, .config, .upTo 16384, false, false⟩
/-- LIMIT_FLAGS (R337). -/
def LIMIT_FLAGS : Prm := ⟨0x3C07, .bitmap8, 0, 255, [], 0, .K, .config, .upTo 16384, false, false⟩
/-- LIMIT_ARG (R337). -/
def LIMIT_ARG : Prm := ⟨0x3C08, .u32, 0, 4294967295, [], 0, .K, .config, .upTo 16384, false, false⟩
/-- SILT_CODE_WINDOW (R367). -/
def SILT_CODE_WINDOW : Prm := ⟨0x4000, .u32, 1, 3600000, [0], 0, .K, .config, .code, false, false⟩
/-- SILT_CODE_BURST (R367). -/
def SILT_CODE_BURST : Prm := ⟨0x4001, .u8, 1, 255, [], 32, .K, .config, .code, false, false⟩
/-- SILT_CODE_RATE (R367). -/
def SILT_CODE_RATE : Prm := ⟨0x4002, .u16, 1, 10000, [], 10, .K, .config, .code, false, false⟩
/-- SILT_CTRL (R367). -/
def SILT_CTRL : Prm := ⟨0x4020, .enum, 1, 1, [], 0, .V, .silt, .one, false, true⟩
/-- SILT_OLDEST (R367). -/
def SILT_OLDEST : Prm := ⟨0x4040, .u32, 0, 4294967295, [], 0, .S, .device, .one, false, false⟩
/-- SILT_NEWEST (R367). -/
def SILT_NEWEST : Prm := ⟨0x4041, .u32, 0, 4294967295, [], 4294967295, .S, .device, .one, false, false⟩
/-- SILT_COUNT (R367). -/
def SILT_COUNT : Prm := ⟨0x4042, .u32, 0, 4294967295, [], 0, .S, .device, .one, false, false⟩
/-- SILT_SUPPRESSED (R367). -/
def SILT_SUPPRESSED : Prm := ⟨0x4043, .u32, 0, 4294967295, [], 0, .V, .device, .code, false, false⟩
/-- SILT_COMMITS (R367). -/
def SILT_COMMITS : Prm := ⟨0x4044, .u64, 0, 18446744073709551615, [], 0, .V, .device, .one, false, false⟩
/-- SPATE_ENABLE (R368). -/
def SPATE_ENABLE : Prm := ⟨0x4400, .enum, 0, 1, [], 0, .K, .config, .one, false, false⟩
/-- SPATE_RATE (R368). -/
def SPATE_RATE : Prm := ⟨0x4401, .enum, 0, 5, [], 1, .K, .config, .one, false, false⟩
/-- SPATE_PRE (R368). -/
def SPATE_PRE : Prm := ⟨0x4402, .u8, 0, 100, [], 25, .K, .config, .one, false, false⟩
/-- SPATE_SIG (R368). -/
def SPATE_SIG : Prm := ⟨0x4403, .u32, 0, 4294967295, [], 4294967295, .K, .config, .upTo 16, false, false⟩
/-- SPATE_TRIG_EN (R368). -/
def SPATE_TRIG_EN : Prm := ⟨0x4404, .bitmap8, 0, 255, [], 126, .K, .config, .one, false, false⟩
/-- SPATE_CTRL (R368). -/
def SPATE_CTRL : Prm := ⟨0x4420, .enum, 1, 3, [], 0, .V, .spateCtrl, .upTo 48, false, true⟩
/-- SPATE_SLOT_STATE (R368). -/
def SPATE_SLOT_STATE : Prm := ⟨0x4440, .enum, 0, 3, [], 0, .S, .device, .upTo 48, false, false⟩
/-- SPATE_NEXT (R368). -/
def SPATE_NEXT : Prm := ⟨0x4441, .u8, 0, 255, [], 0, .V, .device, .one, false, false⟩
/-- SPATE_MISSED_CNT (R368). -/
def SPATE_MISSED_CNT : Prm := ⟨0x4442, .u32, 0, 4294967295, [], 0, .V, .device, .one, false, false⟩
/-- HOST_ETH_MODE (R408). -/
def HOST_ETH_MODE : Prm := ⟨0x4800, .enum, 0, 3, [], 0, .K, .image, .upTo 2, false, false⟩
/-- HOST_ETH_MAC (R408). -/
def HOST_ETH_MAC : Prm := ⟨0x4801, .u64, 0, 18446744073709551615, [], 0, .K, .image, .upTo 2, false, false⟩
/-- HOST_ENCAP (R408). -/
def HOST_ENCAP : Prm := ⟨0x4802, .bitmap8, 0, 255, [], 2, .K, .image, .upTo 2, false, false⟩
/-- HOST_ETHERTYPE (R408). -/
def HOST_ETHERTYPE : Prm := ⟨0x4803, .u16, 1536, 65535, [], 34997, .K, .image, .upTo 2, false, false⟩
/-- HOST_VLAN (R408). -/
def HOST_VLAN : Prm := ⟨0x4804, .u16, 1, 4094, [0], 0, .K, .image, .upTo 2, false, false⟩
/-- HOST_IPV4_ADDR (R408). -/
def HOST_IPV4_ADDR : Prm := ⟨0x4805, .u32, 0, 4294967295, [], 0, .K, .image, .upTo 2, false, false⟩
/-- HOST_IPV6_ADDR (R408). -/
def HOST_IPV6_ADDR : Prm := ⟨0x4806, .bytes16, 0, 340282366920938463463374607431768211455, [], 0, .K, .image, .upTo 2, false, false⟩
/-- HOST_UDP_PORT (R408). -/
def HOST_UDP_PORT : Prm := ⟨0x4807, .u16, 1024, 65535, [], 50400, .K, .image, .upTo 2, false, false⟩
/-- HOST_SPI_ABANDON (R408). -/
def HOST_SPI_ABANDON : Prm := ⟨0x4808, .u32, 10, 100000, [], 1000, .K, .config, .upTo 2, false, false⟩
/-- HOST_SESSION_LEASE (R408). -/
def HOST_SESSION_LEASE : Prm := ⟨0x4809, .u32, 1000, 600000, [], 10000, .K, .config, .one, false, false⟩
/-- HOST_KEY_ROLES (R408). -/
def HOST_KEY_ROLES : Prm := ⟨0x4820, .bitmap8, 0, 255, [], 0, .S, .device, .upTo 8, false, false⟩
/-- HOST_KEY_PORTS (R408). -/
def HOST_KEY_PORTS : Prm := ⟨0x4821, .bitmap8, 0, 255, [], 0, .S, .device, .upTo 8, false, false⟩
/-- HOST_KEY_MAC_REQ (R408). -/
def HOST_KEY_MAC_REQ : Prm := ⟨0x4822, .enum, 0, 1, [], 1, .S, .device, .upTo 8, false, false⟩
/-- HOST_KEY_STATE (R408). -/
def HOST_KEY_STATE : Prm := ⟨0x4823, .enum, 0, 1, [], 0, .S, .device, .upTo 8, false, false⟩
/-- HOST_SESSION_STATE (R408). -/
def HOST_SESSION_STATE : Prm := ⟨0x4840, .enum, 0, 3, [], 0, .V, .device, .upTo 8, false, false⟩
/-- HOST_SESSION_EPOCH (R408). -/
def HOST_SESSION_EPOCH : Prm := ⟨0x4841, .u32, 0, 4294967295, [], 0, .V, .device, .upTo 8, false, false⟩
/-- HOST_LAST_COMMIT (R408). -/
def HOST_LAST_COMMIT : Prm := ⟨0x4842, .u64, 0, 18446744073709551615, [], 0, .V, .device, .upTo 8, false, false⟩
/-- HOST_LAST_COMMIT_ST (R408). -/
def HOST_LAST_COMMIT_ST : Prm := ⟨0x4843, .u16, 0, 65535, [], 0, .V, .device, .upTo 8, false, false⟩
/-- HOST_STAGED (R408). -/
def HOST_STAGED : Prm := ⟨0x4844, .u16, 0, 65535, [], 0, .V, .device, .upTo 8, false, false⟩
/-- HOST_REFUSED (R408). -/
def HOST_REFUSED : Prm := ⟨0x4845, .u32, 0, 4294967295, [], 0, .V, .device, .upTo 4, false, false⟩
/-- HOST_NOTICE_LOST (R408). -/
def HOST_NOTICE_LOST : Prm := ⟨0x4846, .u32, 0, 4294967295, [], 0, .V, .device, .upTo 8, false, false⟩
/-- PERMIT_LEASE_MAX (R409). -/
def PERMIT_LEASE_MAX : Prm := ⟨0x4C00, .u16, 1, 600, [], 600, .K, .config, .permit, false, false⟩
/-- PERMIT_TAKE_EN (R409). -/
def PERMIT_TAKE_EN : Prm := ⟨0x4C01, .enum, 0, 1, [], 1, .K, .image, .permit, false, false⟩
/-- PERMIT_HOLDER (R409). -/
def PERMIT_HOLDER : Prm := ⟨0x4C40, .u8, 0, 255, [], 255, .V, .device, .permit, false, false⟩
/-- PERMIT_EPOCH (R409). -/
def PERMIT_EPOCH : Prm := ⟨0x4C41, .u32, 0, 4294967295, [], 0, .V, .device, .permit, false, false⟩
/-- PERMIT_LEASE_LEFT (R409). -/
def PERMIT_LEASE_LEFT : Prm := ⟨0x4C42, .u32, 0, 4294967295, [], 0, .V, .device, .permit, false, false⟩
/-- PERMIT_GRANTS (R409). -/
def PERMIT_GRANTS : Prm := ⟨0x4C43, .u32, 0, 4294967295, [], 0, .V, .device, .permit, false, false⟩
/-- STEM_GROUP_MODE (R462). -/
def STEM_GROUP_MODE : Prm := ⟨0x5000, .enum, 0, 1, [], 0, .K, .config, .upTo 4, false, false⟩
/-- STEM_PREFERRED (R462). -/
def STEM_PREFERRED : Prm := ⟨0x5001, .enum, 0, 1, [], 0, .K, .config, .one, false, false⟩
/-- STEM_RESTART_MAX (R462). -/
def STEM_RESTART_MAX : Prm := ⟨0x5002, .u8, 1, 10, [], 3, .K, .config, .one, false, false⟩
/-- STEM_CTRL (R462). -/
def STEM_CTRL : Prm := ⟨0x5020, .enum, 1, 3, [], 0, .V, .maint, .one, false, true⟩
/-- STEM_STATE (R462). -/
def STEM_STATE : Prm := ⟨0x5040, .enum, 0, 5, [], 0, .V, .device, .upTo 2, false, false⟩
/-- STEM_STATUS (R462). -/
def STEM_STATUS : Prm := ⟨0x5041, .bitmap16, 0, 65535, [], 0, .V, .config, .one, true, false⟩
/-- STEM_SWITCHOVERS (R462). -/
def STEM_SWITCHOVERS : Prm := ⟨0x5042, .u32, 0, 4294967295, [], 0, .V, .device, .one, false, false⟩
/-- STEM_DIVERGENCES (R462). -/
def STEM_DIVERGENCES : Prm := ⟨0x5043, .u32, 0, 4294967295, [], 0, .V, .device, .one, false, false⟩
/-- STEM_LAST_FAULT (R462). -/
def STEM_LAST_FAULT : Prm := ⟨0x5044, .u8, 0, 255, [], 0, .V, .device, .one, false, false⟩
/-- STEM_RESYNC_TIME (R462). -/
def STEM_RESYNC_TIME : Prm := ⟨0x5045, .u32, 0, 4294967295, [], 0, .V, .device, .one, false, false⟩
/-- STEM_LAG_PEAK (R462). -/
def STEM_LAG_PEAK : Prm := ⟨0x5046, .u32, 0, 4294967295, [], 0, .V, .device, .one, false, false⟩
/-- STEM_BRIDGE_RESEND (R462). -/
def STEM_BRIDGE_RESEND : Prm := ⟨0x5047, .u32, 0, 4294967295, [], 0, .V, .device, .upTo 6, false, false⟩
/-- STEM_ECC_CE (R462). -/
def STEM_ECC_CE : Prm := ⟨0x5048, .u32, 0, 4294967295, [], 0, .V, .device, .upTo 2, false, false⟩
/-- STEM_ECC_UE (R462). -/
def STEM_ECC_UE : Prm := ⟨0x5049, .u32, 0, 4294967295, [], 0, .V, .device, .upTo 2, false, false⟩
/-- THERM_NBR (R485). -/
def THERM_NBR : Prm := ⟨0x5400, .u64, 0, 18446744073709551615, [], 0, .K, .config, .upTo 64, false, false⟩
/-- THERM_DELTA (R485). -/
def THERM_DELTA : Prm := ⟨0x5401, .u16, 10, 500, [], 80, .K, .config, .upTo 64, false, false⟩
/-- THERM_GROUP (R485). -/
def THERM_GROUP : Prm := ⟨0x5402, .u8, 0, 15, [255], 255, .K, .config, .upTo 64, false, false⟩
/-- THERM_OFS_INIT (R485). -/
def THERM_OFS_INIT : Prm := ⟨0x5403, .s16, -100, 100, [], 0, .K, .config, .upTo 64, false, false⟩
/-- THERM_XT_MODE (R485). -/
def THERM_XT_MODE : Prm := ⟨0x5408, .enum, 0, 2, [], 0, .K, .config, .upTo 16, false, false⟩
/-- THERM_XT_R25 (R485). -/
def THERM_XT_R25 : Prm := ⟨0x5409, .u32, 1000, 1000000, [], 10000, .K, .config, .upTo 16, false, false⟩
/-- THERM_XT_BETA (R485). -/
def THERM_XT_BETA : Prm := ⟨0x540A, .u16, 1000, 10000, [], 3435, .K, .config, .upTo 16, false, false⟩
/-- THERM_XT_NF (R485). -/
def THERM_XT_NF : Prm := ⟨0x540B, .u16, 9500, 10500, [], 10080, .K, .config, .upTo 16, false, false⟩
/-- THERM_WARN (R485). -/
def THERM_WARN : Prm := ⟨0x5410, .s16, 600, 1300, [], 1250, .K, .config, .upTo 8, false, false⟩
/-- THERM_ROR_LIMIT (R485). -/
def THERM_ROR_LIMIT : Prm := ⟨0x5418, .u16, 1, 1000, [], 50, .K, .config, .upTo 16, false, false⟩
/-- THERM_ROR_WIN (R485). -/
def THERM_ROR_WIN : Prm := ⟨0x5419, .u16, 100, 60000, [], 1000, .K, .config, .upTo 16, false, false⟩
/-- THERM_ROR_ACTION (R485). -/
def THERM_ROR_ACTION : Prm := ⟨0x541A, .enum, 0, 1, [], 0, .K, .config, .upTo 16, false, false⟩
/-- THERM_ROR_ARG (R485). -/
def THERM_ROR_ARG : Prm := ⟨0x541B, .u32, 0, 4294967295, [], 0, .K, .config, .upTo 16, false, false⟩
/-- THERM_AUTO_START (R485). -/
def THERM_AUTO_START : Prm := ⟨0x541C, .enum, 0, 1, [], 1, .K, .config, .upTo 16, false, false⟩
/-- THERM_SUSPECT_CNT (R485). -/
def THERM_SUSPECT_CNT : Prm := ⟨0x541D, .u8, 1, 255, [], 10, .K, .config, .one, false, false⟩
/-- THERM_OFS_MAX (R485). -/
def THERM_OFS_MAX : Prm := ⟨0x541E, .u16, 0, 200, [], 50, .K, .config, .one, false, false⟩
/-- THERM_COMP_T (R485). -/
def THERM_COMP_T : Prm := ⟨0x5420, .s16, -32768, 32767, [], 0, .S, .device, .upTo 16, false, false⟩
/-- THERM_COMP_OSC (R485). -/
def THERM_COMP_OSC : Prm := ⟨0x5421, .s32, -2147483648, 2147483647, [], 0, .S, .device, .upTo 16, false, false⟩
/-- THERM_COMP_REF (R485). -/
def THERM_COMP_REF : Prm := ⟨0x5422, .s32, -2147483648, 2147483647, [], 0, .S, .device, .upTo 16, false, false⟩
/-- THERM_CTRL (R485). -/
def THERM_CTRL : Prm := ⟨0x5430, .enum, 1, 1, [], 0, .V, .maint, .upTo 8, false, true⟩
/-- THERM_SENSOR_CTRL (R485). -/
def THERM_SENSOR_CTRL : Prm := ⟨0x5431, .enum, 1, 1, [], 0, .V, .config, .upTo 64, false, true⟩
/-- THERM_T (R485). -/
def THERM_T : Prm := ⟨0x5440, .s16, -32768, 32767, [], 0, .V, .device, .upTo 64, false, false⟩
/-- THERM_RAW (R485). -/
def THERM_RAW : Prm := ⟨0x5441, .s16, -32768, 32767, [], 0, .V, .device, .upTo 64, false, false⟩
/-- THERM_OFS (R485). -/
def THERM_OFS : Prm := ⟨0x5442, .s16, -32768, 32767, [], 0, .V, .device, .upTo 64, false, false⟩
/-- THERM_SENSOR_STATUS (R485). -/
def THERM_SENSOR_STATUS : Prm := ⟨0x5443, .bitmap8, 0, 255, [], 0, .V, .device, .upTo 64, false, false⟩
/-- THERM_DIE_STATE (R485). -/
def THERM_DIE_STATE : Prm := ⟨0x5444, .enum, 0, 2, [], 0, .V, .device, .upTo 8, false, false⟩
/-- THERM_DIE_T (R485). -/
def THERM_DIE_T : Prm := ⟨0x5445, .s16, -32768, 32767, [], 0, .V, .device, .upTo 8, false, false⟩
/-- THERM_SHUTDOWNS (R485). -/
def THERM_SHUTDOWNS : Prm := ⟨0x5446, .u16, 0, 65535, [], 0, .S, .device, .upTo 8, false, false⟩
/-- THERM_LAST_SHUTDOWN (R485). -/
def THERM_LAST_SHUTDOWN : Prm := ⟨0x5447, .u64, 0, 18446744073709551615, [], 0, .S, .device, .upTo 8, false, false⟩
/-- THERM_ROR_NOW (R485). -/
def THERM_ROR_NOW : Prm := ⟨0x5448, .s16, -32768, 32767, [], 0, .V, .device, .upTo 16, false, false⟩
/-- TIMER_PRESCALE (R486). -/
def TIMER_PRESCALE : Prm := ⟨0x5800, .u32, 1, 65536, [], 1, .K, .config, .upTo 32, false, false⟩
/-- TIMER_RELOAD (R486). -/
def TIMER_RELOAD : Prm := ⟨0x5801, .u32, 1, 4294967295, [], 4294967295, .K, .config, .upTo 32, false, false⟩
/-- TIMER_INTERVAL (R486). -/
def TIMER_INTERVAL : Prm := ⟨0x5802, .u32, 0, 4294967295, [], 0, .K, .config, .upTo 32, false, false⟩
/-- TIMER_CAP_SRC (R486). -/
def TIMER_CAP_SRC : Prm := ⟨0x5803, .u8, 0, 50, [], 0, .K, .config, .upTo 32, false, false⟩
/-- TIMER_CAP_EDGE (R486). -/
def TIMER_CAP_EDGE : Prm := ⟨0x5804, .enum, 0, 2, [], 0, .K, .config, .upTo 32, false, false⟩
/-- TIMER_CAP_FILT (R486). -/
def TIMER_CAP_FILT : Prm := ⟨0x5805, .u8, 0, 255, [], 0, .K, .config, .upTo 32, false, false⟩
/-- TIMER_AUTOSTART (R486). -/
def TIMER_AUTOSTART : Prm := ⟨0x5806, .enum, 0, 1, [], 0, .K, .config, .upTo 32, false, false⟩
/-- TIMER_CTRL (R486). -/
def TIMER_CTRL : Prm := ⟨0x5820, .enum, 1, 3, [], 0, .V, .config, .upTo 32, false, true⟩
/-- TIMER_CMP (R486). -/
def TIMER_CMP : Prm := ⟨0x5821, .u32, 0, 4294967295, [], 0, .V, .config, .upTo 32, false, false⟩
/-- TIMER_CMP_EN (R486). -/
def TIMER_CMP_EN : Prm := ⟨0x5822, .enum, 0, 1, [], 0, .V, .config, .upTo 32, false, false⟩
/-- TIMER_COUNT (R486). -/
def TIMER_COUNT : Prm := ⟨0x5840, .u32, 0, 4294967295, [], 0, .V, .device, .upTo 32, false, false⟩
/-- TIMER_CMP_APPLIED_AT (R486). -/
def TIMER_CMP_APPLIED_AT : Prm := ⟨0x5841, .u32, 0, 4294967295, [], 0, .V, .device, .upTo 32, false, false⟩
/-- TIMER_STATUS (R486). -/
def TIMER_STATUS : Prm := ⟨0x5842, .bitmap16, 0, 65535, [], 0, .V, .config, .upTo 32, true, false⟩
/-- TIMER_CAP (R486). -/
def TIMER_CAP : Prm := ⟨0x5843, .bytes16, 0, 340282366920938463463374607431768211455, [], 0, .V, .device, .upTo 32, false, false⟩
/-- TIMER_CAP_DROPPED (R486). -/
def TIMER_CAP_DROPPED : Prm := ⟨0x5844, .u32, 0, 4294967295, [], 0, .V, .device, .upTo 32, false, false⟩
/-- TIMER_MATCH_CNT (R486). -/
def TIMER_MATCH_CNT : Prm := ⟨0x5845, .u32, 0, 4294967295, [], 0, .V, .device, .upTo 32, false, false⟩
/-- DEV_STATE (R512). -/
def DEV_STATE : Prm := ⟨0x0400, .enum, 0, 2, [], 0, .V, .device, .one, false, false⟩
/-- DEV_BOOT_STATE (R512). -/
def DEV_BOOT_STATE : Prm := ⟨0x0401, .enum, 1, 2, [], 1, .K, .config, .one, false, false⟩
/-- DEV_LOOP_AUTOSTART (R512). -/
def DEV_LOOP_AUTOSTART : Prm := ⟨0x0402, .bitmap16, 0, 65535, [], 0, .K, .config, .one, false, false⟩
/-- DEV_WAKE_EN (R512). -/
def DEV_WAKE_EN : Prm := ⟨0x0403, .bitmap8, 0, 255, [], 16, .K, .config, .one, false, false⟩
/-- DEV_WAKE_POL (R512). -/
def DEV_WAKE_POL : Prm := ⟨0x0404, .bitmap8, 0, 255, [], 15, .K, .config, .one, false, false⟩
/-- DEV_RETAIN (R512). -/
def DEV_RETAIN : Prm := ⟨0x0405, .u32, 0, 4294967295, [], 0, .T, .config, .upTo 16, false, false⟩
/-- DEV_RESET_KIND (R512). -/
def DEV_RESET_KIND : Prm := ⟨0x0406, .enum, 1, 1, [], 1, .V, .device, .one, false, false⟩
/-- DEV_WAKE_CAUSE (R512). -/
def DEV_WAKE_CAUSE : Prm := ⟨0x0407, .enum, 0, 255, [], 0, .V, .device, .one, false, false⟩
/-- DEV_RESET_CNT (R512). -/
def DEV_RESET_CNT : Prm := ⟨0x0408, .u32, 0, 4294967295, [], 0, .T, .device, .one, false, false⟩
/-- DEV_CHAIN_EXPECT (R512). -/
def DEV_CHAIN_EXPECT : Prm := ⟨0x0409, .u8, 1, 250, [0], 0, .K, .config, .one, false, false⟩
/-- DEV_CHAIN_ADDR (R512). -/
def DEV_CHAIN_ADDR : Prm := ⟨0x040A, .u8, 0, 255, [], 0, .V, .device, .one, false, false⟩
/-- DEV_CHAIN_STATUS (R512). -/
def DEV_CHAIN_STATUS : Prm := ⟨0x040B, .bitmap8, 0, 255, [], 0, .V, .config, .one, true, false⟩
/-- DEV_FW_TRIAL_TIME (R512). -/
def DEV_FW_TRIAL_TIME : Prm := ⟨0x040C, .u32, 10, 3600, [], 300, .K, .config, .one, false, false⟩
/-- DEV_FW_STATE (R512). -/
def DEV_FW_STATE : Prm := ⟨0x040D, .enum, 0, 3, [], 0, .V, .device, .one, false, false⟩
/-- DEV_FW_VERSION (R512). -/
def DEV_FW_VERSION : Prm := ⟨0x040E, .u32, 0, 4294967295, [], 0, .S, .device, .upTo 2, false, false⟩
/-- DEV_ROLLBACK (R512). -/
def DEV_ROLLBACK : Prm := ⟨0x040F, .u16, 0, 65535, [], 0, .S, .device, .one, false, false⟩
/-- DEV_KENEB_SLOT (R512). -/
def DEV_KENEB_SLOT : Prm := ⟨0x0410, .u8, 0, 255, [], 255, .V, .device, .one, false, false⟩
/-- DEV_BOOT_TIME (R512). -/
def DEV_BOOT_TIME : Prm := ⟨0x0411, .u32, 0, 4294967295, [], 0, .V, .device, .one, false, false⟩
/-- SUPPLY_VBAT_LOW (R513). -/
def SUPPLY_VBAT_LOW : Prm := ⟨0x5C00, .u16, 2000, 3000, [], 2200, .K, .config, .one, false, false⟩
/-- SUPPLY_V (R513). -/
def SUPPLY_V : Prm := ⟨0x5C40, .s32, -2147483648, 2147483647, [], 0, .V, .device, .upTo 10, false, false⟩
/-- SUPPLY_MIN (R513). -/
def SUPPLY_MIN : Prm := ⟨0x5C41, .s32, -2147483648, 2147483647, [], 0, .V, .device, .upTo 10, false, false⟩
/-- SUPPLY_STATUS (R513). -/
def SUPPLY_STATUS : Prm := ⟨0x5C42, .bitmap16, 0, 65535, [], 0, .V, .config, .one, true, false⟩
/-- SUPPLY_WARN_CNT (R513). -/
def SUPPLY_WARN_CNT : Prm := ⟨0x5C43, .u32, 0, 4294967295, [], 0, .T, .device, .one, false, false⟩
/-- SUPPLY_WARN_LAST (R513). -/
def SUPPLY_WARN_LAST : Prm := ⟨0x5C44, .u32, 0, 4294967295, [], 0, .V, .device, .one, false, false⟩

end P

/-- Part 1 of the parameter list, in identifier order of the spec tables. -/
def paramList1 : List Prm :=
  [P.DEV_TB_SOURCE, P.DEV_REFCLK_FREQ, P.DEV_PTP_PORT, P.DEV_PTP_DOMAIN,
   P.DEV_PTP_DELAY_MECH, P.DEV_PTP_TRANSPORT, P.DEV_PTP_ASYM, P.DEV_TIME_SERVO_BW,
   P.DEV_TIME_STEP_LIMIT, P.DEV_TIME_STATUS, P.DEV_TIME_OFFSET, P.SLUICE_SHARE_EDDY,
   P.SLUICE_SHARE_POOL, P.SLUICE_SHARE_MP, P.SLUICE_SHARE_SILT, P.SLUICE_SHARE_SPATE,
   P.SLUICE_SHARE_BRIDGE, P.SLUICE_BUDGET, P.SLUICE_STALL_PERIODS, P.SLUICE_PEAK_USE,
   P.SLUICE_EDDY_LOAD, P.PHASE_LOOP, P.PHASE_MODE, P.PHASE_BIDIR_FWD,
   P.PHASE_SENSE, P.PHASE_CS_GAIN, P.PHASE_CS_RSENSE, P.PHASE_SHARE_TRIM,
   P.PHASE_AVG_CORR, P.PHASE_ILIM, P.PHASE_BLANK, P.PHASE_LIM_BLANK,
   P.PHASE_TON_MIN, P.PHASE_TOFF_MIN, P.PHASE_DMAX, P.PHASE_TON_FORCE_MAX,
   P.PHASE_DT_RISE, P.PHASE_DT_FALL, P.PHASE_OUT_MODE, P.PHASE_ZC_LEVEL,
   P.PHASE_RAMP_ADAPT, P.PHASE_RAMP_MULT, P.PHASE_RAMP_INIT, P.PHASE_RAMP_MIN,
   P.PHASE_SLOPE_AVG, P.PHASE_MEAS_GUARD, P.PHASE_TLM_RATE, P.PHASE_CMD_WDOG,
   P.PHASE_STATUS, P.PHASE_SLOPE_UP, P.PHASE_SLOPE_DOWN, P.PHASE_RAMP_NOW,
   P.PHASE_I_AVG, P.PHASE_I_PEAK, P.PHASE_CS_OFFSET, P.PHASE_PARITY_ERR,
   P.PHASE_MAXDUTY_CNT, P.PHASE_DIE_STATE, P.PHASE_VS_RATIO, P.PHASE_VS_OVS]

/-- Part 2 of the parameter list, in identifier order of the spec tables. -/
def paramList2 : List Prm :=
  [P.PHASE_VS_UVS, P.PHASE_VS_HYST, P.PHASE_VS_WIN_EN, P.LOOP_FSW,
   P.LOOP_SS_MODE, P.LOOP_SS_DEV, P.LOOP_SS_RATE, P.LOOP_SS_SEED,
   P.LOOP_FSW_NOW, P.LOOP_ENABLE, P.LOOP_KIND, P.LOOP_VS_SEL,
   P.LOOP_VS_AUX, P.LOOP_SAMPLE_DIV, P.LOOP_SAMPLE_MODE, P.LOOP_SAMPLE_OFFSET,
   P.LOOP_SETPOINT, P.LOOP_SP_SLEW, P.LOOP_ICMD_MAX, P.LOOP_ICMD_MIN,
   P.LOOP_START_SLEW, P.LOOP_START_IMIN, P.LOOP_FERR_LIMIT, P.LOOP_FERR_TIME,
   P.LOOP_FERR_ACTION, P.LOOP_CMD_STEP_TRIP, P.LOOP_DROOP, P.LOOP_HOLDUP_EN,
   P.LOOP_HU_KIND, P.LOOP_HU_SETPOINT, P.LOOP_CTRL, P.LOOP_STATE,
   P.LOOP_STATUS, P.LOOP_REGION, P.LOOP_Y, P.LOOP_REF,
   P.LOOP_ICMD, P.LOOP_FERR_CNT, P.LOOP_STOP_CAUSE, P.SCHED_VAR,
   P.SCHED_REGIONS, P.SCHED_TH1, P.SCHED_TH2, P.SCHED_TH3,
   P.SCHED_HYST, P.SCHED_DWELL, P.SCHED_B0, P.SCHED_B1,
   P.SCHED_B2, P.SCHED_B3, P.SCHED_A1, P.SCHED_A2,
   P.SCHED_P0, P.LOOP_OC_MODE, P.LOOP_OC_MODE_HU, P.LOOP_OC_COUNT,
   P.LOOP_OC_WINDOW, P.LOOP_OC_OFF_TIME, P.LOOP_OC_RETRIES, P.LOOP_OC_CLEAN_TIME]

/-- Part 3 of the parameter list, in identifier order of the spec tables. -/
def paramList3 : List Prm :=
  [P.LOOP_FB_KNEE, P.LOOP_FB_MIN, P.LOOP_SHORT_TIME, P.LOOP_PG_LO,
   P.LOOP_PG_HI, P.LOOP_PG_DELAY, P.LOOP_PG_DRIVE, P.LOOP_PROT_STATUS,
   P.LOOP_OC_RETRY_CNT, P.LOOP_OC_TRIPS, P.LOOP_FB_FACTOR, P.EBB_ENABLE,
   P.EBB_MIN_PHASES, P.EBB_SHED_TH, P.EBB_ADD_TH, P.EBB_FILT,
   P.EBB_DWELL, P.EBB_HOLDOFF, P.EBB_ROT_EN, P.EBB_ROT_EXP,
   P.EBB_ROT_SEED, P.EBB_IMB_LIMIT, P.EBB_IMB_ACTION, P.EBB_HOT_LIMIT,
   P.EBB_N_ACT, P.EBB_SHED_MASK, P.EBB_SHED_CNT, P.EBB_PH_IMEAN,
   P.EBB_PH_IRMS, P.DEV_FAULT_SRC, P.DEV_FAULT_LOOPS, P.DEV_FAULT_MODE,
   P.DEV_FAULT_DRIVE, P.DEV_FAULT_STATUS, P.FEED_AUTO_EN, P.FEED_RSHUNT,
   P.FEED_DIV_RATIO, P.FEED_UV, P.FEED_UV_HYST, P.FEED_OV,
   P.FEED_OV_HYST, P.FEED_WIN_FILT, P.FEED_INSERT_DELAY, P.FEED_INRUSH_MODE,
   P.FEED_PRE_DV, P.FEED_PRE_TMAX, P.FEED_DVDT, P.FEED_SOA_P,
   P.FEED_SOA_T, P.FEED_PRE_OVERLAP, P.FEED_FAST_TRIP, P.FEED_I2T_BASE,
   P.FEED_I2T_LIMIT, P.FEED_RETRIES, P.FEED_RETRY_DELAY, P.FEED_CLEAN_TIME,
   P.FEED_REV_TRIP, P.FEED_OR_ON, P.FEED_OR_ON_DLY, P.FEED_LOSS_LEVEL]

/-- Part 4 of the parameter list, in identifier order of the spec tables. -/
def paramList4 : List Prm :=
  [P.FEED_LOSS_HYST, P.FEED_LOSS_FILT, P.FEED_LOSS_RET, P.FEED_FETSHORT_V,
   P.FEED_FETSHORT_I, P.FEED_GATE_OK, P.FEED_T_GATE, P.FEED_HB_TIMEOUT,
   P.FEED_CAL_GAIN, P.FEED_CAL_OFS, P.FEED_CTRL, P.FEED_STATE,
   P.FEED_STATUS, P.FEED_V, P.FEED_I, P.FEED_P,
   P.FEED_E_IMPORT, P.FEED_E_EXPORT, P.FEED_I2T_NOW, P.FEED_RETRY_CNT,
   P.FEED_TRIPS, P.FEED_BUS_V, P.FEED_BANK_STATUS, P.SHARE_ENABLE,
   P.SHARE_RATE, P.SHARE_GAIN, P.SHARE_TRIM_MAX, P.SHARE_STALE,
   P.SHARE_MBR_NODE, P.SHARE_MBR_GROUP, P.SHARE_MBR_WEIGHT, P.SHARE_MBR_IPT,
   P.SHARE_MBR_RATED, P.SHARE_TIE_UP, P.SHARE_TIE_DOWN, P.SHARE_TIE_GAIN,
   P.SHARE_TIE_MAX, P.SHARE_MBR_STATE, P.SHARE_MBR_TRIM, P.SHARE_GROUP_I,
   P.SHARE_TIE_OFS, P.SHARE_GROUP_FRAC, P.HOLD_LOAD_SRC, P.HOLD_EFF,
   P.HOLD_LOAD_WIN, P.HOLD_LOAD_PT, P.HOLD_PRE_CAP, P.HOLD_PRE_PERIOD,
   P.HOLD_WEIGHT, P.HOLD_STRING, P.HOLD_VSTR_FIX, P.HOLD_IMIN,
   P.HOLD_HANDBACK, P.HOLD_RETURN_DELAY, P.HOLD_MIN_MODULES, P.HOLD_RETURN_SLEW,
   P.HOLD_SPATE_EN, P.HOLD_CTRL, P.HOLD_STATE, P.HOLD_STATUS]

/-- Part 5 of the parameter list, in identifier order of the spec tables. -/
def paramList5 : List Prm :=
  [P.HOLD_P_LOAD, P.HOLD_PRELOAD, P.HOLD_ENTRIES, P.HOLD_LAST_TIME,
   P.WEIR_ENABLE, P.WEIR_PERIOD, P.WEIR_AVG_WIN, P.WEIR_GAIN,
   P.WEIR_RESP_TIME, P.WEIR_RELEASE_RATE, P.WEIR_HARD_DELAY, P.WEIR_HARD_OVER,
   P.WEIR_HARD_I2T, P.WEIR_CAP, P.WEIR_STD_CAP, P.WEIR_CAP_MAX,
   P.WEIR_HEADROOM, P.WEIR_REL_BAND, P.WEIR_SEG_PT, P.WEIR_GRP_PRIO,
   P.WEIR_GRP_FLOOR, P.WEIR_GRP_SEG, P.WEIR_NODE_GROUP, P.WEIR_NODE_PPT,
   P.WEIR_SHAVE_EN, P.WEIR_SHAVE_IMAX, P.WEIR_SHAVE_SOC_MIN, P.WEIR_LOOP_SEG,
   P.WEIR_STATUS, P.WEIR_P, P.WEIR_REDUCE, P.WEIR_CAP_NOW,
   P.WEIR_NODE_LIMIT, P.WEIR_NODE_STATE, P.WEIR_SHAVE_NOW, P.WEIR_HARD_I,
   P.BATT_ENABLE, P.BATT_CHEM, P.BATT_CELLS, P.BATT_I_SRC,
   P.BATT_I_PT, P.BATT_I_SIGN, P.BATT_V_PT, P.BATT_V_MIN_SRC,
   P.BATT_V_STALE, P.BATT_REINSERT_TIME, P.BATT_T_PT, P.BATT_T_FIX,
   P.BATT_RINT, P.BATT_CAP_NOM, P.BATT_CHG_EFF, P.BATT_I_REST,
   P.BATT_T_REST, P.BATT_I_LOW, P.BATT_OCV_MIN_SLOPE, P.BATT_V_FULL,
   P.BATT_I_TAPER, P.BATT_T_FULL, P.BATT_V_EMPTY, P.BATT_EMPTY_FILT]

/-- Part 6 of the parameter list, in identifier order of the spec tables. -/
def paramList6 : List Prm :=
  [P.BATT_DISAGREE_MARGIN, P.BATT_V_CUTOFF, P.BATT_CUT_FILT, P.BATT_CUT_RELEASE,
   P.BATT_EMPTY_ACTION, P.BATT_LEARN_TMIN, P.BATT_LEARN_TMAX, P.BATT_LEARN_MAX_STEP,
   P.BATT_LEARN_WEIGHT, P.BATT_CAP_MIN, P.BATT_CAP_MAX, P.BATT_STRING_ID,
   P.BATT_OCV_TCOL, P.BATT_OCV_SOC, P.BATT_OCV_V, P.BATT_CTRL,
   P.BATT_STATUS, P.BATT_SOC, P.BATT_V, P.BATT_V_CORR,
   P.BATT_I, P.BATT_T, P.BATT_Q_REM, P.BATT_Q_DIS,
   P.BATT_REST_TIME, P.BATT_CAP_LEARNED, P.BATT_GENERATION, P.BATT_CYCLES,
   P.BATT_LEARN_CNT, P.BATT_LEARN_REJ, P.BATT_DIS_THRU, P.PORT_MODE,
   P.PORT_TOPOLOGY, P.PORT_REDUND, P.PORT_RATE_MAX, P.PORT_RATE_MIN,
   P.PORT_TRAIN_DWELL, P.PORT_UPSHIFT, P.PORT_UPSHIFT_TIME, P.PORT_ERR_LIMIT,
   P.PORT_RETRAIN_DELAY, P.PORT_TX_STALL, P.PORT_QUIET, P.PORT_PMB_SPEED,
   P.PORT_PMB_PERIOD, P.PORT_NODE_BASE, P.PORT_NODE_SLOTS, P.PORT_PMB_ADDR,
   P.PORT_PMB_PEC, P.PORT_POLL_TARGET, P.PORT_POLL_CMD, P.PORT_POLL_CONV,
   P.PORT_POLL_POINT, P.PORT_POLL_DIV, P.PORT_STATE, P.PORT_RATE_NOW,
   P.PORT_STATUS, P.PORT_RX_FRAMES, P.PORT_RX_CRC_ERR, P.PORT_RX_ABANDON]

/-- Part 7 of the parameter list, in identifier order of the spec tables. -/
def paramList7 : List Prm :=
  [P.PORT_RX_MALFORMED, P.PORT_RX_NOISE, P.PORT_RX_NOCREDIT, P.PORT_CODE_ERR,
   P.PORT_TX_FLUSHED, P.PORT_PT_ERR, P.PORT_DUAL_DUP, P.PORT_PMB_ERR,
   P.PORT_NODE_LINK, P.PORT_HUB_LINKS, P.PORT_PMB_STATE, P.NODE_CLASS,
   P.NODE_LEASE, P.NODE_PUB_PERIOD, P.NODE_STD_LIMIT, P.NODE_STATE_PT,
   P.NODE_UID_LOCK, P.NODE_RETX_TIME, P.NODE_RETX_MAX, P.NODE_CTRL,
   P.NODE_SESSION, P.NODE_EPOCH, P.NODE_UID, P.NODE_FW_VER,
   P.NODE_RX_SEQ, P.NODE_TX_SEQ, P.NODE_DUP, P.NODE_STALE,
   P.NODE_GAP, P.NODE_OPENS, P.NODE_OUT_STATE, P.NODE_RELAY_STATE,
   P.NODE_BOOT_GEN, P.POOL_DESC_LO, P.POOL_DESC_HI, P.POOL_SRC_BASE,
   P.POOL_SRC_SLOTS, P.POOL_UPDATES, P.POOL_EVENTS, P.POOL_ECC_CE,
   P.POOL_ECC_UE, P.POOL_SUB_ACTIVE, P.POOL_SUB_LOST, P.LIMIT_HH,
   P.LIMIT_H, P.LIMIT_L, P.LIMIT_LL, P.LIMIT_HYST,
   P.LIMIT_DEBOUNCE, P.LIMIT_ACTION, P.LIMIT_FLAGS, P.LIMIT_ARG,
   P.SILT_CODE_WINDOW, P.SILT_CODE_BURST, P.SILT_CODE_RATE, P.SILT_CTRL,
   P.SILT_OLDEST, P.SILT_NEWEST, P.SILT_COUNT, P.SILT_SUPPRESSED]

/-- Part 8 of the parameter list, in identifier order of the spec tables. -/
def paramList8 : List Prm :=
  [P.SILT_COMMITS, P.SPATE_ENABLE, P.SPATE_RATE, P.SPATE_PRE,
   P.SPATE_SIG, P.SPATE_TRIG_EN, P.SPATE_CTRL, P.SPATE_SLOT_STATE,
   P.SPATE_NEXT, P.SPATE_MISSED_CNT, P.HOST_ETH_MODE, P.HOST_ETH_MAC,
   P.HOST_ENCAP, P.HOST_ETHERTYPE, P.HOST_VLAN, P.HOST_IPV4_ADDR,
   P.HOST_IPV6_ADDR, P.HOST_UDP_PORT, P.HOST_SPI_ABANDON, P.HOST_SESSION_LEASE,
   P.HOST_KEY_ROLES, P.HOST_KEY_PORTS, P.HOST_KEY_MAC_REQ, P.HOST_KEY_STATE,
   P.HOST_SESSION_STATE, P.HOST_SESSION_EPOCH, P.HOST_LAST_COMMIT, P.HOST_LAST_COMMIT_ST,
   P.HOST_STAGED, P.HOST_REFUSED, P.HOST_NOTICE_LOST, P.PERMIT_LEASE_MAX,
   P.PERMIT_TAKE_EN, P.PERMIT_HOLDER, P.PERMIT_EPOCH, P.PERMIT_LEASE_LEFT,
   P.PERMIT_GRANTS, P.STEM_GROUP_MODE, P.STEM_PREFERRED, P.STEM_RESTART_MAX,
   P.STEM_CTRL, P.STEM_STATE, P.STEM_STATUS, P.STEM_SWITCHOVERS,
   P.STEM_DIVERGENCES, P.STEM_LAST_FAULT, P.STEM_RESYNC_TIME, P.STEM_LAG_PEAK,
   P.STEM_BRIDGE_RESEND, P.STEM_ECC_CE, P.STEM_ECC_UE, P.THERM_NBR,
   P.THERM_DELTA, P.THERM_GROUP, P.THERM_OFS_INIT, P.THERM_XT_MODE,
   P.THERM_XT_R25, P.THERM_XT_BETA, P.THERM_XT_NF, P.THERM_WARN]

/-- Part 9 of the parameter list, in identifier order of the spec tables. -/
def paramList9 : List Prm :=
  [P.THERM_ROR_LIMIT, P.THERM_ROR_WIN, P.THERM_ROR_ACTION, P.THERM_ROR_ARG,
   P.THERM_AUTO_START, P.THERM_SUSPECT_CNT, P.THERM_OFS_MAX, P.THERM_COMP_T,
   P.THERM_COMP_OSC, P.THERM_COMP_REF, P.THERM_CTRL, P.THERM_SENSOR_CTRL,
   P.THERM_T, P.THERM_RAW, P.THERM_OFS, P.THERM_SENSOR_STATUS,
   P.THERM_DIE_STATE, P.THERM_DIE_T, P.THERM_SHUTDOWNS, P.THERM_LAST_SHUTDOWN,
   P.THERM_ROR_NOW, P.TIMER_PRESCALE, P.TIMER_RELOAD, P.TIMER_INTERVAL,
   P.TIMER_CAP_SRC, P.TIMER_CAP_EDGE, P.TIMER_CAP_FILT, P.TIMER_AUTOSTART,
   P.TIMER_CTRL, P.TIMER_CMP, P.TIMER_CMP_EN, P.TIMER_COUNT,
   P.TIMER_CMP_APPLIED_AT, P.TIMER_STATUS, P.TIMER_CAP, P.TIMER_CAP_DROPPED,
   P.TIMER_MATCH_CNT, P.DEV_STATE, P.DEV_BOOT_STATE, P.DEV_LOOP_AUTOSTART,
   P.DEV_WAKE_EN, P.DEV_WAKE_POL, P.DEV_RETAIN, P.DEV_RESET_KIND,
   P.DEV_WAKE_CAUSE, P.DEV_RESET_CNT, P.DEV_CHAIN_EXPECT, P.DEV_CHAIN_ADDR,
   P.DEV_CHAIN_STATUS, P.DEV_FW_TRIAL_TIME, P.DEV_FW_STATE, P.DEV_FW_VERSION,
   P.DEV_ROLLBACK, P.DEV_KENEB_SLOT, P.DEV_BOOT_TIME, P.SUPPLY_VBAT_LOW,
   P.SUPPLY_V, P.SUPPLY_MIN, P.SUPPLY_STATUS, P.SUPPLY_WARN_CNT]

/-- Part 10 of the parameter list, in identifier order of the spec tables. -/
def paramList10 : List Prm :=
  [P.SUPPLY_WARN_LAST]

/-- Every parameter the spec tables define (R438). -/
def allParams : List Prm :=
  paramList1 ++ paramList2 ++ paramList3 ++ paramList4 ++ paramList5 ++ paramList6 ++ paramList7 ++ paramList8 ++ paramList9 ++ paramList10

/-- The parameter an identifier names, if any (R434). -/
def findParam (id : Nat) : Option Prm := allParams.find? (fun p => p.id == id)

end Sys2Proof.Machine
end

