-- ==== Sys2Proof/Machine/State.lean ====
section
/-! DEFINITION. The state of the part, as plain data, and the state right after reset. -/

namespace Sys2Proof.Machine

/-- An event on its way to the Silt writer: code, source, 64-bit data and the shelf time of its stamp (R345, R350). -/
structure LogEv where
  code : Nat
  src : Nat
  data : Nat
  time : Nat
deriving DecidableEq, Repr

/-- The time-base states of R31. -/
inductive TbState where
  | free | acquire | locked | holdover
deriving DecidableEq, Repr

/-- The direction of a slew of shelf time (R36). -/
inductive Slew where
  | none | forward | backward
deriving DecidableEq, Repr

/-- The tick and shelf time (R8, R35, R36, R41). `t5k` is shelf time in 1/5,000 of a 4 ns step, so
that a tick adds 5,000, or
5,001 or 4,999 under a slew. -/
structure Clock where
  dlRef : Bool
  tick : Nat
  t5k : Nat
deriving DecidableEq, Repr

/-- Shelf time in nanoseconds, a multiple of 4 (R8). -/
def Clock.shelf (c : Clock) : Nat := c.t5k / 5000 * 4

/-- The time-base: its state machine and the fields of DEV_TIME_STATUS (R31, R36, R40). `slewOfs` is
the offset measured at
the start of the slew or at the last measurement and `slewTick` the tick of it; `syncGood` counts
consecutive Sync messages
with an offset below 1 µs; `lastOffset` is DEV_TIME_OFFSET. `steer` is the steering of the tick
frequency in 0.01 ppm (R30) and
`frozen` that it stands (R31); `master` the sender and data set of the selected PTP master, `delay`
the measured path delay in ns, `syncAt` the arrival of a two-step Sync whose follow-up is to come and
`lastSync` when the last Sync left and arrived (R33). -/
structure TimeBase where
  state : TbState
  isSet : Bool
  lockFreq : Bool
  lockTime : Bool
  holdover : Bool
  refclkLost : Bool
  ptpLost : Bool
  timeGap : Bool
  slew : Slew
  slewOfs : Int
  slewTick : Nat
  syncGood : Nat
  lastOffset : Int
  frozen : Bool
  steer : Int
  master : Option (Nat × PtpSet)
  delay : Int
  syncAt : Option Int
  lastSync : Option (Int × Int)
deriving DecidableEq, Repr

/-- Sluice (R42 to R47, R52): per activity, grants used in this period, the stall of this period,
stalled periods, peak use
and the tick of the last stall, the tick of the last stall that was logged or raised a tally;
activities in the order of R43. -/
structure Sluice where
  used : Vector Nat 6
  stalled : Vector Bool 6
  stallPeriods : Vector Nat 6
  peakUse : Vector Nat 6
  lastStall : Vector (Option Nat) 6
  counted : Vector (Option Nat) 6
deriving DecidableEq, Repr

/-- The states of a phase die (R82). -/
inductive DieState where
  | safe | armed | run
deriving DecidableEq, Repr

/-- How a command frame stops a loop's phases (R109): not at all, at the period boundary, or at once. -/
inductive StopMode where
  | none | boundary | atOnce
deriving DecidableEq, Repr

/-- One command frame of a loop for a phase die (R81, R106, R108, R127, R134, R135), or an idle
frame when `loop` is none.
`start` is the start command of R82, `slope` the command-slope event of R113. -/
structure CmdFrame where
  loop : Option (Fin 16)
  seq : Nat
  icmd : Int
  shedMask : Nat
  factor : Nat
  preload : Int
  arm : Bool
  hu : Bool
  exit : Bool
  abortSeen : Bool
  slope : Bool
  start : Bool
  stop : StopMode
deriving DecidableEq, Repr

/-- A report of a phase die to the stems (R537). -/
inductive DieReport where
  | safeEntry (cause : Nat)
  | armed
  | shedAbort (loop : Fin 16) (cause : Nat) (mask : Nat)
  | currentSum (loop : Fin 16) (sum : Int)
deriving DecidableEq, Repr

/-- What a phase die holds of one loop: the latched command, the shed mask in force and the one
waiting for the period start,
the fold-back factor, preload, ARM and accept mode (R106), the abort latch of R135; `shareAll`:
until the next period start every phase in service shares the
preload (R195); `hu`: the last frame taken carried the HU tag (R108). -/
structure DieLoop where
  run : Bool
  icmd : Int
  seq : Nat
  maskNow : Nat
  maskNext : Nat
  factor : Nat
  preload : Int
  arm : Bool
  accept : Bool
  ignoreShed : Bool
  slopeSeen : Bool
  stopping : Bool
  shareAll : Bool
  hu : Bool
deriving DecidableEq, Repr

/-- A phase die (R81, R82, R537). `goodAt` is the tick of the last good frame. `link` holds the
frames on their way to it and `reports` its telemetry on the way to the
stems; `ran` says that it had left ARMED or RUN; `supplyLow` that VCORE_P or VANA is below its reset
level, `held` that the
temperature hub holds it in reset (R472), `off` that its domain is off; `sums` the charge of each
loop's period averages since millisecond `msAt`, in mA x 125 ps (R227). -/
structure Die where
  state : DieState
  ran : Bool
  safeAt : Nat
  delayCal : Bool
  src : Bool
  goodFrame : Bool
  goodAt : Nat
  parityRun : Nat
  parityErr : Nat
  paritySince : Nat
  supplyLow : Bool
  lowRan : Bool
  held : Bool
  off : Bool
  link : List CmdFrame
  reports : List DieReport
  lp : Vector DieLoop 16
  sums : Vector Int 16
  msAt : Nat
deriving DecidableEq, Repr

/-- Direction of current in a phase (R68). -/
inductive Dir where
  | fwd | rev
deriving DecidableEq, Repr

/-- Ebb's state of a phase (R134). -/
inductive ShedState where
  | active | shedding | shed
deriving DecidableEq, Repr

/-- What a running dead time will turn on (R70). -/
inductive DeadTime where
  | none | controlled | sync
deriving DecidableEq, Repr

/-- Slope measurement of a phase in one direction (R71): filtered up-slope and down-slope in µA/µs,
none before the first
valid measurement; the down-slope in use, measured or derived; consecutive periods without a down-slope; the fallback to
PHASE_RAMP_INIT and its one record; the on-time of the last pulse in 125 ps. -/
structure Slopes where
  up : Option Int
  down : Option Int
  use : Option Int
  bad : Nat
  fallen : Bool
  tOn : Nat
deriving DecidableEq, Repr

/-- A phase channel's pulse and pins (R53 to R70). Times are in 125 ps. `pulse` is the direction of
the pulse in progress;
`held` a start waiting for the minimum off-time; `tripWaits` a regulation trip inside PHASE_TON_MIN.
`toffAt` and `toffLen` are the tick
and the length of the minimum off-time, `deadAt` and `deadLen` those of the dead time; `zeroRef`
holds the reference of a reverse pulse at
zero (R195). -/
structure Pulse where
  pulse : Option Dir
  forced : Bool
  regBlank : Bool
  limBlank : Bool
  tonMin : Bool
  tripWaits : Bool
  toff : Bool
  held : Bool
  heldForced : Bool
  dead : DeadTime
  pwmh : Bool
  pwml : Bool
  onTick : Nat
  period : Nat
  lastDir : Dir
  toffAt : Nat
  toffLen : Nat
  deadAt : Nat
  deadLen : Nat
  zeroRef : Bool
deriving DecidableEq, Repr

/-- A phase channel's references, measurements and status (R59 to R73, R86). `calPending` holds a
calibration in progress, true
where it belongs to an entry into ARMED; `slot` the slot of an active phase; `adc` the latest ADC
sample in mA; `iPh` and `corr` are in µA, `ramp` in 0.00001 mV/µs; `onS` and `offS` the
samples of the phase's running period as (time since the controlled switch turned on in 125 ps, mA). -/
structure Phase where
  inService : Bool
  calFail : Bool
  calPending : Option Bool
  offset : Int
  shed : ShedState
  hot : Bool
  shedPeriods : Nat
  slot : Option Nat
  pl : Pulse
  adc : Int
  iPh : Int
  corr : Int
  refCode : Nat
  limCodeF : Nat
  limCodeR : Nat
  ramp : Nat
  slF : Slopes
  slR : Slopes
  fallback : Bool
  dcm : Bool
  dcmNow : Bool
  limit : Bool
  maxduty : Bool
  refClamp : Bool
  rampClamp : Bool
  limitedNow : Bool
  maxdutyCnt : Nat
  maxdutyWin : Nat
  onS : List (Nat × Int)
  offS : List (Nat × Int)
deriving DecidableEq, Repr

/-- Current statistics of a phase (R87, R91, R138): sum, number and highest of the samples of the
running loop period, the last period's
average and peak, the running 1 s window and its results. -/
structure PhaseStat where
  perSum : Int
  perN : Nat
  perMax : Int
  iAvg : Int
  iPeak : Int
  winSum : Int
  winSq : Nat
  winN : Nat
  winWhole : Bool
  iMean : Int
  iRms : Nat
deriving DecidableEq, Repr

/-- A voltage-sense input (R75 to R78, R93): window state, its entry tick and extreme pin voltage,
the conversions of the
running period (end offset in 125 ps, code), and the last code. -/
structure VSense where
  ovs : Bool
  uvs : Bool
  since : Nat
  extreme : Int
  convs : List (Nat × Nat)
  last : Nat
deriving DecidableEq, Repr

/-- A per-period limit report of one die (R121); `waits` while a pulse that started in that period still runs. -/
structure LimRep where
  die : Fin 4
  period : Nat
  limited : Bool
  waits : Bool
deriving DecidableEq, Repr

/-- A sample of a loop on its way to Eddy (R91, R94): order number and shelf time of its instant,
the period that ended with it,
the voltage at LOOP_VS_SEL and LOOP_VS_AUX in mV, the loop current in mA, full scale read, time
since the previous sample in
125 ps, and the hold conditions of R99. -/
structure Sample where
  ord : Nat
  time : Nat
  period : Nat
  v : Int
  vaux : Int
  i : Int
  sat : Bool
  dt : Nat
  fwdHold : Bool
  revHold : Bool
deriving DecidableEq, Repr

/-- The states of a loop (R109). -/
inductive LoopState where
  | stopped | starting | running | hiccupOff | faulted
deriving DecidableEq, Repr

/-- The switching period of a loop (R56, R73, R74, R94, R136): period length in 125 ps, number,
whether a run starts at the next
period start and whether spread spectrum does, time since the spread-spectrum entry, the two LFSRs,
the drawn step, the LFSR value of the last rotation and the override of R139, periods since the last
rotation, periods of the
run, time since the last sample, its order number (`lastOrd`), and the last completed period. -/
structure LoopTime where
  p : Nat
  pLast : Nat
  number : Nat
  fresh : Bool
  ssFresh : Bool
  ssElapsed : Nat
  ssLfsr : Nat
  ssStep : Nat
  rotLfsr : Nat
  rotNow : Nat
  rotForce : Bool
  rotCount : Nat
  runPeriods : Nat
  sinceSample : Nat
  lastOrd : Nat
deriving DecidableEq, Repr

/-- A feed-loss input that a loop has not taken yet, since samples stamped before it wait: its order
number, shelf time, tick and the preload then (R109). -/
structure LossIn where
  ord : Nat
  time : Nat
  tick : Nat
  preload : Int
deriving DecidableEq, Repr

/-- A loop's compensator and reference (R96 to R108, R110 to R113). `ref8` is the reference in
1/8,000,000 of a sense unit, so
that a slew in units per ms over 125 ps is a whole number. `vNow`, `iNow` and `auxNow` are the
last VOLTAGE, CURRENT and AUX_VOLTAGE samples. `huEnter` holds the order number and preload of a feed-loss input
not yet evaluated; `exitAt` the order number of a handback; `loss` a feed-loss input behind waiting samples. -/
structure LoopCtl where
  state : LoopState
  cause : Nat
  region : Nat
  x : Int
  e1 : Int
  e2 : Int
  e3 : Int
  v1 : Int
  v2 : Int
  ref8 : Int
  y : Int
  vNow : Int
  iNow : Int
  auxNow : Int
  icmd : Int
  first : Bool
  prebiasWait : Bool
  dwell : Nat
  startAt : Nat
  setAt : Nat
  huEnter : Option (Nat × Int)
  exitAt : Option Nat
  returning : Bool
  ferrT : Option Nat
  ferrCnt : Nat
  seq : Nat
  arm : Bool
  preload : Int
  loss : Option LossIn
deriving DecidableEq, Repr

/-- The flags of LOOP_STATUS that are not derived from the state (R116). -/
structure LoopFlags where
  clampHi : Bool
  clampLo : Bool
  awHold : Bool
  spRamping : Bool
  prebias : Bool
  ferr : Bool
  slopeTrip : Bool
  vSat : Bool
  vsSat : Bool
  evalLate : Bool
deriving DecidableEq, Repr

/-- The over-current supervisor's states (R122). -/
inductive OcState where
  | idle | watch | counting | off | latched
deriving DecidableEq, Repr

/-- Over-current supervisor, start-short timer and fold-back of a loop (R120 to R129). `asm` gathers
the reports of periods
not yet complete: period, dies reported, limited. `shortT` is the tick at which the running
start-short timer started and `shortAt` the
period at whose end a sample found it expired (R126); `offAt` and `cleanAt` the ticks since which
the off time and the time without a
limited period run; `fbLast` F of the last sample (R146). -/
structure OcSup where
  st : OcState
  count : Nat
  hist : List Bool
  retries : Nat
  trips : Nat
  reps : List LimRep
  asm : List (Nat × List (Fin 4) × Bool)
  shortT : Option Nat
  shortAt : Option Nat
  offAt : Nat
  cleanAt : Nat
  startShort : Bool
  cause : Nat
  mode : Nat
  factor : Nat
  lowest : Nat
  foldAt : Nat
  fbLast : Nat
deriving DecidableEq, Repr

/-- Ebb and power-good of a loop (R131 to R141). `iF8` is the filtered magnitude in 1/256 mA. `mask`
is the shed mask Eddy
sends; `holdAt` the tick since which the hold-off runs, `abortDue` that no frame has carried
ABORT_SEEN yet; `timerStarted` that a fault timer started since the previous step; `sinceShed` and
`pgAt` are times in 125 ps between samples. -/
structure EbbPg where
  iF8 : Nat
  iFset : Bool
  sinceShed : Option Nat
  holdOff : Bool
  holdAt : Nat
  abortSeen : Bool
  abortDue : Bool
  mask : Nat
  nAct : Nat
  shedCnt : Nat
  imbalance : Bool
  reseeded : Bool
  pg : Nat
  pgAt : Nat
  pgPin : Bool
  timerStarted : Bool
deriving DecidableEq, Repr

/-- One regulation loop. `fwdHold` and `revHold` gather the hold conditions of R99 since the last sample. -/
structure Loop where
  tm : LoopTime
  ct : LoopCtl
  fl : LoopFlags
  oc : OcSup
  eb : EbbPg
  samples : List Sample
  fwdHold : Bool
  revHold : Bool
deriving DecidableEq, Repr

/-- The FAULT pins (R143, R144): `hold` while they are asserted from a reset until DEV_FAULT_SRC is
applied, the level of each
pin and its latch. -/
structure FaultPins where
  hold : Bool
  pin : Vector Bool 4
deriving DecidableEq, Repr

/-- What a phase die holds of a loop after its reset (R82: all commands discarded). -/
def DieLoop.reset : DieLoop := ⟨false, 0, 0, 0, 0, 1024, 0, false, false, false, false, false, false, false⟩

/-- A phase die after reset: SAFE, no command source, nothing received (R81, R82). -/
def Die.reset : Die :=
  ⟨.safe, false, 0, false, false, false, 0, 0, 0, 0, false, false, false, false, [], [], Vector.replicate 16 DieLoop.reset, Vector.replicate 16 0, 0⟩

/-- A direction with no valid measurement (R71). -/
def Slopes.reset : Slopes := ⟨none, none, none, 0, false, 0⟩

/-- A phase with both outputs low. -/
def Pulse.reset : Pulse :=
  ⟨none, false, false, false, false, false, false, false, false, .none, false, false, 0, 0, .fwd, 0, 0, 0, 0, false⟩

/-- A phase channel after reset: out of service, both outputs low (R86). -/
def Phase.reset : Phase :=
  ⟨false, false, none, 0, .active, false, 0, none, Pulse.reset, 0, 0, 0, 0, 0, 0, 0, Slopes.reset, Slopes.reset, false, false, false,
   false, false, false, false, false, 0, 0, [], []⟩

/-- A loop after reset: STOPPED with cause RESET (R109, R116, R117, R122, R141, R145). -/
def Loop.reset : Loop :=
  { tm := ⟨32000, 0, 0, false, false, 0, 1, 0, 1, 0, false, 0, 0, 0, 0⟩
    ct := ⟨.stopped, 6, 0, 0, 0, 0, 0, 0, 0, 0, 0, 0, 0, 0, 0, false, false, 0, 0, 0, none, none, false, none, 0, 0, false, 0, none⟩
    fl := ⟨false, false, false, false, false, false, false, false, false, false⟩
    oc := ⟨.idle, 0, [], 0, 0, [], [], none, none, 0, 0, false, 0, 0, 1024, 1024, 0, 1024⟩
    eb := ⟨0, false, none, false, 0, false, false, 0, 0, 0, false, false, 0, 0, false, false⟩
    samples := [], fwdHold := false, revHold := false }

/-- The states of a feed (R160). -/
inductive FeedState where
  | off | qualify | insert | precharge | connected | tripped | lockout
deriving DecidableEq, Repr

/-- One window of a feed (R159): set, clear or not yet determined; metering steps of the setting and
the clearing run. -/
structure Win where
  set : Option Bool
  setRun : Nat
  clrRun : Nat
deriving DecidableEq, Repr

/-- A feed of the Bank die (R155 to R173, R179). `goAt`, `gmAt`, `gpAt`: ticks of the last change of
each gate; `reg`: GMx regulated by a
DVDT precharge, so that V_bus rises at `slope` V/ms; `ideal`: ideal-diode control in force; `revAt`,
`revMin`: tick and most negative
current of the reverse turn-off; `a2t`: the I²t store in mA² x 32 µs and
`a2tOver` its steps above the base; `insAt`, `preAt`, `tripAt`, `conAt`: ticks of the insertion
timer, the precharge, the trip and the
connection; `soaSteps`: metering steps with the power limit acting; `insLen`, `preLen`, `soaLen`,
`retryLen`: the lengths of the timers
in ms as they were when these started (R162); `insDone`, `retryDue`: a timer that expired and has
not acted; `overlap`, `test`: a timer
that runs; `vMain`, `vOr`: the voltages across the main FET and the OR FET; the remainders are in pJ. -/
structure Feed where
  state : FeedState
  uv : Win
  ov : Win
  go : Bool
  gm : Bool
  gp : Bool
  goAt : Nat
  gmAt : Nat
  gpAt : Nat
  reg : Bool
  slope : Nat
  ideal : Bool
  rev : Bool
  revAt : Nat
  revMin : Int
  soaLimit : Bool
  lossLow : Bool
  fast : Bool
  i2t : Bool
  inrush : Bool
  gateFail : Bool
  fetShort : Bool
  a2t : Nat
  a2tOver : Nat
  retries : Nat
  trips : Nat
  insAt : Option Nat
  insDone : Bool
  preAt : Nat
  tripAt : Nat
  conAt : Nat
  soaSteps : Nat
  insLen : Nat
  preLen : Nat
  soaLen : Nat
  retryLen : Nat
  overlap : Bool
  test : Bool
  retryRun : Bool
  retryDue : Bool
  v : Int
  i : Int
  p : Int
  dv : Int
  vMain : Int
  vOr : Int
  eImp : Nat
  eExp : Nat
  eImpRem : Nat
  eExpRem : Nat
deriving DecidableEq, Repr

/-- A command frame for the Bank die on the barrier channel (R157, R160, R173, R176, R179, R180):
FEED_CTRL, or W1C fields to clear. -/
inductive FeedCmd where
  | enable (f : Fin 2) | disable (f : Fin 2) | clear (f : Fin 2) | test (f : Fin 2) | resetEnergy (f : Fin 2)
  | clearStatus (f : Fin 2) (v : Nat) | clearBank (v : Nat)
deriving DecidableEq, Repr

/-- What a frame of Bank telemetry says of a feed (R158, R175, R182). -/
structure FeedSeen where
  state : FeedState
  status : Nat
  v : Int
  i : Int
  p : Int
  eImp : Nat
  eExp : Nat
  i2t : Nat
  retries : Nat
  trips : Nat
deriving DecidableEq, Repr

/-- A frame of Bank telemetry (R158, R175): the feeds, V_bus, FEED_BANK_STATUS; `step` says that it
carries a metering step; the shelf time at which the die sent it, and the feeds that have tripped since the frame
before (R318, R360). -/
structure BankTlm where
  feed : Vector FeedSeen 2
  vbus : Int
  status : Nat
  step : Bool
  time : Nat
  trips : List (Fin 2)
deriving DecidableEq, Repr

/-- A copy of the energy accumulators in the silt store (R157). -/
structure EnergyCopy where
  time : Nat
  imp : Vector Nat 2
  exp : Vector Nat 2
deriving DecidableEq, Repr

/-- The Bank die (R153 to R183). `set`: the parameter set in force as differences from the defaults,
`next` a set received that
applies from the next metering step, `sending` the frames of the set on its way, `got` those that
passed and `bad` that one failed, `sent` the whole set;
`commitDue` that a commit frame is still to come. `hbAt` is the tick of the last heartbeat,
`hbLostAt` that of its loss; `accAt` that of
the last publication of the accumulators; `seen` the last frame of telemetry that reached the stems
and `seenLine` the feed-loss line as
they know it; `lineQ` the assertions (true) and releases of the line on their way to the stems,
`latch` an assertion on its way to each
phase die (R171); `tripped` the feeds that have tripped since the last frame of telemetry. -/
structure Bank where
  on : Bool
  configured : Bool
  hbOk : Bool
  srcValid : Bool
  armed : Bool
  line : Bool
  lossAt : Nat
  disarmed : Bool
  oscLocked : Bool
  energyGap : Bool
  chErr : Bool
  errs : Nat
  hbAt : Nat
  hbLostAt : Option Nat
  vbus : Int
  set : SMap Int
  next : Option (SMap Int)
  sending : List (Nat × Nat)
  got : List (Nat × Nat)
  sent : List (Nat × Nat)
  bad : Bool
  commitDue : Bool
  cmds : List FeedCmd
  tlm : List BankTlm
  seen : BankTlm
  seenLine : Bool
  lineQ : List Bool
  latch : Vector Bool 4
  feed : Vector Feed 2
  copy : Option EnergyCopy
  accAt : Nat
  tripped : List (Fin 2)
deriving DecidableEq, Repr

/-- A window with no run completed (R159). -/
def Win.reset : Win := ⟨none, 0, 0⟩

/-- A feed at the start of BK_HV: OFF, every gate low, windows undetermined, loss comparator low (R159, R170). -/
def Feed.reset : Feed :=
  { state := .off, uv := Win.reset, ov := Win.reset, go := false, gm := false, gp := false, goAt := 0, gmAt := 0, gpAt := 0
    reg := false, slope := 0, ideal := false, rev := false, revAt := 0, revMin := 0, soaLimit := false, lossLow := true, fast := false, i2t := false, inrush := false, gateFail := false
    fetShort := false, a2t := 0, a2tOver := 0, retries := 0, trips := 0, insAt := none, insDone := false, preAt := 0, tripAt := 0, conAt := 0
    soaSteps := 0, insLen := 0, preLen := 0, soaLen := 0, retryLen := 0, overlap := false
    test := false, retryRun := false, retryDue := false, v := 0, i := 0, p := 0, dv := 0, vMain := 0, vOr := 0, eImp := 0, eExp := 0, eImpRem := 0, eExpRem := 0 }

/-- What the stems know of the Bank die while BK_HV is off: OFF, LOSS_LOW 1 (R170, R179). -/
def BankTlm.reset : BankTlm := ⟨Vector.replicate 2 ⟨.off, 0x4000, 0, 0, 0, 0, 0, 0, 0, 0⟩, 0, 0, false, 0, []⟩

/-- The Bank die before BK_HV starts (R152, R180). -/
def Bank.reset : Bank :=
  { on := false, configured := false, hbOk := false, srcValid := false, armed := false, line := false, lossAt := 0, disarmed := false
    oscLocked := false, energyGap := false, chErr := false, errs := 0, hbAt := 0, hbLostAt := none, vbus := 0, set := [], next := none, sending := []
    got := [], sent := [], bad := false, commitDue := false, cmds := [], tlm := []
    seen := BankTlm.reset, seenLine := false, lineQ := [], latch := Vector.replicate 4 false, feed := Vector.replicate 2 Feed.reset, copy := none, accAt := 0, tripped := [] }

/-- The states of a Confluence member (R187). -/
inductive MemberState where
  | absent | trimmed | held | droop | suspended
deriving DecidableEq, Repr

/-- A Confluence member (R185 to R187): `trim` in 1/1,000 µV, the last value sent, the clamp flag,
the member's sequence number, the
tick since which it has had neither a session nor a fresh point, and the epoch whose session a
member in DROOP has left. -/
structure Member where
  state : MemberState
  trim : Int
  sent : Int
  limited : Bool
  seq : Nat
  lostAt : Option Nat
  ep : Nat
deriving DecidableEq, Repr

/-- A sharing group: load at the last update, tie offset and fraction (R185, R190). -/
structure ShareGroup where
  load : Int
  tieOfs : Int
  frac : Nat
deriving DecidableEq, Repr

/-- The last peer share record of a neighbour (R189, R190): 0 PCU, 1 PCD. -/
structure PeerRec where
  addr : Nat
  holdup : Bool
  valid : Nat
  seq : Nat
  loadUp : Int
  capUp : Int
  loadDown : Int
  capDown : Int
  arrived : Option Nat
  fresh : Bool
deriving DecidableEq, Repr

/-- Confluence: members, groups, neighbours and the sequence number of the device's own record. -/
structure Share where
  mbr : Vector Member 64
  grp : Vector ShareGroup 4
  peer : Vector PeerRec 2
  seq : Nat
deriving DecidableEq, Repr

/-- The hold-up states of R199. -/
inductive HoldState where
  | normal | holdup | returnWait | handback
deriving DecidableEq, Repr

/-- Hold-up (R192 to R202). `line` is the feed-loss line; `stateAt` the tick of the last entry into
HOLDUP or RETURN_WAIT, `pre` the computed preloads in mA, `preAt` their ticks and `stale` which are
older than R193 allows;
`importPeak` the metering steps kept for IMPORT_PEAK (tick, P_A + P_B). -/
structure Hold where
  state : HoldState
  line : Bool
  frozen : Bool
  preCapped : Bool
  loopClamp : Bool
  noArmed : Bool
  autoFallback : Bool
  loadSrcBad : Bool
  pLoad : Int
  pre : Vector Int 16
  preAt : Vector Nat 16
  stale : Vector Bool 16
  entries : Nat
  lastTime : Nat
  enterAt : Nat
  stateAt : Nat
  releasedAt : Nat
  timerDone : Bool
  importPeak : List (Nat × Int)
deriving DecidableEq, Repr

/-- A Weir scope (R206 to R216, R223): the granted cap, d in µW, P_s in W and whether it was above
the cap, the layers used in this
engagement, the tick since which the layers have been exhausted above the cap, y1 and y2 in W; `avg`
the values of the last
WEIR_AVG_WIN as (tick, W). -/
structure Scope where
  grant : Option Nat
  d : Nat
  settleEnd : Nat
  p : Int
  isOver : Bool
  lastEval : Option Nat
  engagedAt : Nat
  layers : Nat
  overSince : Option Nat
  srcStale : Bool
  exceeded : Bool
  overrun : Bool
  y1 : Nat
  y2 : Nat
  avg : List (Nat × Int)
deriving DecidableEq, Repr

/-- What Weir keeps of a member node (R212, R213, R215): its averaged draw and reference, the limit
in force and the one each
scope gives, compliance. -/
structure WeirNode where
  draw : Nat
  ref : Nat
  limit : Option Nat
  nonc : Bool
  loweredAt : Nat
  belowSince : Option Nat
  avg : List (Nat × Int)
deriving DecidableEq, Repr

/-- Weir: the 36 scopes, member nodes by address, shave currents, the hard limit (R217, R218):
I_hard of each feed it was computed
for, and the feed voltage it was computed from; boundaries skipped and the longest evaluation since
the last WEIR_OVERRUN (R225). -/
structure Weir where
  scope : Vector Scope 36
  node : SMap WeirNode
  shave : Vector Int 16
  hardArmed : Bool
  hardI : Vector (Option Nat) 2
  hardV : Vector Int 2
  overSince : Option Nat
  underSince : Option Nat
  ovrSkip : Nat
  ovrLong : Nat
deriving DecidableEq, Repr

/-- A scope that nothing has evaluated. -/
def Scope.reset : Scope := ⟨none, 0, 0, 0, false, none, 0, 0, none, false, false, false, 0, 0, []⟩

/-- A member node with no limit (R212). -/
def WeirNode.none : WeirNode := ⟨0, 0, Option.none, false, 0, Option.none, []⟩

/-- The learned values of a string, as one of its two buffers holds them (R247, R249): capacity in
mAh, generation, cycles in 0.01,
accepted and rejected learnings, discharged charge in As. -/
structure Learned where
  cap : Nat
  gen : Nat
  cycles : Nat
  cnt : Nat
  rej : Nat
  thru : Nat
deriving DecidableEq, Repr

/-- The flags of BATT_STATUS (R252) but SOC_VALID, and `srcBad`: V_SRC_BAD or I_SRC_BAD has been set
since the last anchor (R231). -/
structure BattFlags where
  present : Bool
  unrested : Bool
  unrestored : Bool
  resting : Bool
  flat : Bool
  full : Bool
  empty : Bool
  cutoff : Bool
  disagree : Bool
  learning : Bool
  lowRate : Bool
  vBad : Bool
  tBad : Bool
  iBad : Bool
  learnDone : Bool
  srcBad : Bool
deriving DecidableEq, Repr

/-- A battery string (R226 to R251). Charges `q` and `qDis` are in mAs with their remainders in
1/8,000,000,000,000 mAs, the unit
of mA x 125 ps / 1,000 (R234). `acc` is the charge heard from the phase dies since the last
millisecond in mA x 125 ps, `part` the
charge of the running low-rate interval; `msAt`, `sampleAt` the ticks of the last millisecond and
count sample; `below` a
millisecond below BATT_I_LOW; `chgEmpty`, `chgCut` the charge counted in since EMPTY and CUTOFF;
`cutOrd` and `uncutOrd` the order numbers of the
cut-off and of its end, `zero` a count kept at 0 with the voltage agreeing; `ever` present since its
state was lost. `restFrom` the start of the running BATT_T_REST,
and `fullAt`, `emptyAt`, `cutAt`,
`badAt` the ticks since which the conditions of full, voltage empty, cut-off and absence have held
(R230, R237, R238, R241, R243). -/
structure Batt where
  fl : BattFlags
  ever : Bool
  absentAt : Nat
  v : Int
  vcorr : Int
  t : Int
  i : Int
  q : Int
  qFrac : Int
  qDis : Nat
  qDisFrac : Nat
  restAt : Option Nat
  restFrom : Option Nat
  fullAt : Option Nat
  emptyAt : Option Nat
  cutAt : Option Nat
  badAt : Option Nat
  acc : Int
  part : Int
  msAt : Nat
  sampleAt : Nat
  below : Bool
  chgEmpty : Nat
  chgCut : Nat
  cutOrd : Nat
  uncutOrd : Nat
  zero : Bool
  disFrac : Nat
  cycFrac : Nat
  buf : Vector Learned 2
  active : Fin 2
deriving DecidableEq, Repr

/-- A string whose state has been lost, at a nominal capacity of 100,000 mAh (R248, R252). -/
def Batt.reset : Batt :=
  { fl := ⟨false, true, true, false, false, false, false, false, false, false, false, false, false, false, false, false⟩
    ever := false, absentAt := 0, v := 0, vcorr := 0, t := 0, i := 0, q := 0, qFrac := 0, qDis := 0, qDisFrac := 0, restAt := none
    restFrom := none, fullAt := none, emptyAt := none, cutAt := none, badAt := none
    acc := 0, part := 0, msAt := 0, sampleAt := 0, below := false, chgEmpty := 0, chgCut := 0, cutOrd := 0, uncutOrd := 0, zero := false, disFrac := 0, cycFrac := 0
    buf := Vector.replicate 2 ⟨100000, 0, 0, 0, 0, 0⟩, active := 0 }

/-- The states of a field port (R263); `pmbus` is a PMBus port in service. -/
inductive PortState where
  | off | train | up | down | fault | pmbus
deriving DecidableEq, Repr

/-- A Rill frame without its delimiters and CRC (R264): TYPE 0 POINTS, 1 MSG, 2 HUB. -/
structure Frame where
  typ : Nat
  node : Nat
  path : Bool
  retx : Bool
  epoch : Nat
  seq : Nat
  payload : List Byte
deriving DecidableEq, Repr

/-- A complete frame in a receive queue with T_SOF (R267, R269). `own` marks a frame that the device
formed for PMBus targets
(R281, R288), `stamped` one that waits for its admission to the Pool (R271). -/
structure RxItem where
  frame : Frame
  time : Nat
  own : Bool
  stamped : Bool
deriving DecidableEq, Repr

/-- What a PMBus transaction is for (R279 to R283). -/
inductive PmbWhy where
  | discover (step : Nat)
  | poll (entry : Nat)
  | pass (sess : Nat) (seq : Nat)
deriving DecidableEq, Repr

/-- A PMBus transaction waiting or on the bus: protocol as PMBUS_XFER numbers them, bytes to write,
bytes to read; `again` marks the
one retry of a polled read. -/
structure PmbJob where
  target : Fin 16
  cmd : Nat
  proto : Nat
  wdata : List Byte
  rlen : Nat
  why : PmbWhy
  again : Bool
deriving DecidableEq, Repr

/-- A PMBus target (R280, R283): consecutive failures, the exponent of its VOUT_MODE, ticks of its
recent alert answers, the tick of its
last discovery. -/
structure PmbTarget where
  present : Bool
  fails : Nat
  voutExp : Int
  alerts : List Nat
  tryAt : Option Nat
deriving DecidableEq, Repr

/-- The PMBus side of a port (R281, R282): the cycle number, its start, the tick at which a cycle
last came due, the transactions to come, the results of the cycle as
(target, point, value, tick of the end). -/
structure Pmb where
  cycle : Nat
  cycleAt : Nat
  dueAt : Option Nat
  running : Bool
  due : Bool
  jobs : List PmbJob
  results : List (Fin 16 × Nat × Nat × Nat)
  targets : Vector PmbTarget 16
deriving DecidableEq, Repr

/-- The counters of a port (R286), and the four of PORT_RX_ERROR since its last record (R268). -/
structure PortCount where
  rxFrames : Nat
  crcErr : Nat
  abandon : Nat
  malformed : Nat
  noise : Nat
  noCredit : Nat
  codeErr : Nat
  txFlushed : Nat
  ptErr : Nat
  dualDup : Nat
  pmbErr : Nat
  newCrc : Nat
  newAbandon : Nat
  newMalformed : Nat
  newNoCredit : Nat
deriving DecidableEq, Repr

/-- A field port (R255 to R286). Credit counts are modulo 256 (R270): granted to the partner and
frames it started, granted by the
partner and frames the device started. `out` is the last frame sent, as bytes; `hubAt` the tick of
the last HUB frame, `dual` the
(node, epoch, seq, CRC) of the last copies passed (R277). Ticks: `trainAt` the start of the rate
under trial, `trainFrom` of training, `cleanAt`
the last code error, `downAt` DOWN, FAULT or the last bus recovery that failed, `stallAt` since when
a frame waits with no credit granted,
`maskAt` since when alerts are masked (R263, R272, R282, R283). -/
structure Port where
  state : PortState
  rate : Nat
  trainAt : Nat
  trainFrom : Nat
  cleanAt : Nat
  downAt : Nat
  stallAt : Option Nat
  rx : List RxItem
  tx : List Frame
  grantTo : Nat
  started : Nat
  grantBy : Nat
  sent : Nat
  out : List Byte
  hubAt : Option Nat
  hubLinks : Nat
  topoMis : Bool
  txStall : Bool
  rateDown : Bool
  overrun : Bool
  stuck : Bool
  alert : Bool
  maskAt : Option Nat
  dual : List (Nat × Nat × Nat × Nat)
  cnt : PortCount
  pmb : Pmb
deriving DecidableEq, Repr

/-- A message for Onolael as the stamper delivered it (R271): node address, port, the frame, T_SOF
and the order number. -/
structure InMsg where
  addr : Nat
  port : Nat
  frame : Frame
  time : Nat
  ord : Nat
deriving DecidableEq, Repr

/-- A port after reset: OFF, queues empty (R286). -/
def Port.reset : Port :=
  { state := .off, rate := 0, trainAt := 0, trainFrom := 0, cleanAt := 0, downAt := 0, stallAt := none, rx := [], tx := [], grantTo := 0, started := 0, grantBy := 0, sent := 0, out := []
    hubAt := none, hubLinks := 0, topoMis := false, txStall := false, rateDown := false, overrun := false, stuck := false, alert := false
    maskAt := none, dual := [], cnt := ⟨0, 0, 0, 0, 0, 0, 0, 0, 0, 0, 0, 0, 0, 0, 0⟩
    pmb := ⟨0, 0, none, false, false, [], [], Vector.replicate 16 ⟨false, 0, 0, [], none⟩⟩ }

/-- Who caused a request to a node (R300, R303, R329): a host's relay step, or a Pool action. -/
inductive ReqWho where
  | relay (sess seq : Nat) | action
deriving DecidableEq, Repr

/-- The request outstanding to a node (R300): `sentAt` the tick of its last sending. -/
structure NodeReq where
  op : Nat
  seq : Nat
  resends : Nat
  body : List Byte
  who : ReqWho
  sentAt : Nat
deriving DecidableEq, Repr

/-- The session of a node address (R292 to R304, R313). `win`: bit n set says that the SEQ n below
the newest was seen; `k` the
opens since the start of the stems; `lastRx`, `lastTx` ticks; `closedAt` the tick of the last
CLOSED; `waiting` requests behind the
outstanding one; `link` PORT_NODE_LINK; `granted` the body of the OPEN reply (R293). -/
structure NodeSess where
  isOpen : Bool
  epoch : Nat
  k : Nat
  nonce : Nat
  uid : Nat
  fwVer : Nat
  rxSeq : Nat
  win : Nat
  txSeq : Nat
  lastRx : Nat
  lastTx : Nat
  closedAt : Option Nat
  dup : Nat
  stale : Nat
  staleNew : Nat
  gap : Nat
  opens : Nat
  req : Option NodeReq
  waiting : List NodeReq
  outState : Nat
  link : Bool
  granted : List Byte
deriving DecidableEq, Repr

/-- A node firmware relay (R303): its node, session, bytes relayed. -/
structure Relay where
  addr : Nat
  sess : Nat
  bytes : Nat
deriving DecidableEq, Repr

/-- A node address never heard of (R313). -/
def NodeSess.none : NodeSess :=
  { isOpen := false, epoch := 0, k := 0, nonce := 0, uid := 0, fwVer := 0, rxSeq := 0, win := 0, txSeq := 0, lastRx := 0, lastTx := 0
    closedAt := Option.none, dup := 0, stale := 0, staleNew := 0, gap := 0, opens := 0, req := Option.none, waiting := []
    outState := 255, link := false, granted := [] }

/-- The conversation layer: sessions by node address, frames for Onolael, accepted replies, relays
by port, NODE_BOOT_GEN (R292),
the tick of the last HOLDUP round (R302). -/
structure Nodes where
  sess : SMap NodeSess
  inbox : List InMsg
  replies : List InMsg
  relay : SMap (Option Relay)
  bootGen : Nat
deriving DecidableEq, Repr

/-- A slot record (R318): ZONE 0 NORMAL, 1 H, 2 HH, 3 L, 4 LL; `wrote` the tick at which it was written,
`pins` the FAULT pins of its action in force (R329). -/
structure Slot where
  value : Nat
  zone : Nat
  cnt : Nat
  valid : Bool
  act : Bool
  time : Nat
  wrote : Nat
  pins : Nat
deriving DecidableEq, Repr

/-- A slot that no update has reached (R319). -/
def Slot.none : Slot := ⟨0, 0, 0, false, false, 0, 0, 0⟩

/-- A limit event (R327): `subs` the EVENTS subscriptions that covered the slot when it was raised,
where its set had NOTIFY (R335). -/
structure LimitEvent where
  slot : Nat
  set : Nat
  old : Nat
  new : Nat
  value : Nat
  time : Nat
  subs : List Nat
deriving DecidableEq, Repr

/-- An action taken at a limit event and not yet at its target (R329): code, ARG. -/
structure PoolAct where
  code : Nat
  arg : Nat
  slot : Nat
deriving DecidableEq, Repr

/-- A subscription (R335): kind 0 EVENTS, 1 VALUES; `posted` holds, per slot, the value and the tick
of the last posting. -/
structure Sub where
  id : Nat
  sess : Nat
  first : Nat
  count : Nat
  values : Bool
  deadband : Nat
  interval : Nat
  posted : SMap (Option (Nat × Nat))
deriving DecidableEq, Repr

/-- The Pool (R315 to R338): slots, the arbiter's pointer (0 to 63 ports, 64 Bank, 65 phases, 66
Delta), the queues of the three
internal sources as frames of (point, value, time), Onolael's event queue, actions on their way,
subscriptions, the slots whose update in hand a double-bit error discards, counters. -/
structure Pool where
  slot : SMap Slot
  ptr : Nat
  src : Vector (List (List (Nat × Nat × Nat))) 3
  events : List LimitEvent
  acts : List PoolAct
  subs : List Sub
  drops : List Nat
  updates : Nat
  eventCnt : Nat
  ce : Nat
  ue : Nat
  subLost : Nat
  subLostNew : SMap Nat
deriving DecidableEq, Repr

/-- A record decided by the Silt writer and waiting for its commit (R343, R350). -/
structure SRec where
  flags : Nat
  code : Nat
  src : Nat
  seq : Nat
  time : Nat
  data : Nat
  tally : Nat
deriving DecidableEq, Repr

/-- What the Silt writer keeps of an event code (R350, R351): the most recent record with its
source, tally and last counted
occurrence, tokens taken and not yet refilled in 1e-10 of a token with the time of the last refill,
refused events and the first of
them, SILT_SUPPRESSED. -/
structure CodeSt where
  seq : Option Nat
  src : Nat
  last : Nat
  tally : Nat
  deficit : Nat
  at_ : Nat
  refused : Nat
  firstRef : Nat
  suppressed : Nat
deriving DecidableEq, Repr

/-- A code never seen in this start of the stems: its bucket full. -/
def CodeSt.none : CodeSt := ⟨Option.none, 0, 0, 0, 0, 0, 0, 0, 0⟩

/-- The Silt log and the working ledger (R341 to R357): OLDEST, the next sequence to give and the
next to commit, the writer's
queue, tally words to write, GEN of the last ledger write or read and whether it was copy B, whether
a ledger write is due, the tick of
the last one, the sequences of the SILT_CLEARED records not yet committed, the tally writes requested before the ledger
write that is due (R340), the ledger write of a BROWN_WARN assertion (R348), and the events of a
hold not yet decided. -/
structure Silt where
  oldest : Nat
  next : Nat
  done : Nat
  queue : List SRec
  tallyDue : List (Nat × Nat)
  code : SMap CodeSt
  commits : Nat
  gen : Nat
  copyB : Bool
  ledgerDue : Bool
  ledgerAt : Nat
  clears : List Nat
  ledgerAfter : Nat
  ledgerWarn : Bool
  heldN : Nat
deriving DecidableEq, Repr

/-- The states of a capture buffer (R361, R362). -/
inductive BufState where
  | idle | running | post | frozen
deriving DecidableEq, Repr

/-- A Spate trigger on its way (R360, R361): code, ARG, trigger instant, order number of the stamped input. -/
structure SpTrig where
  code : Nat
  arg : Nat
  time : Nat
  ord : Nat
deriving DecidableEq, Repr

/-- A capture buffer (R358 to R363): frames with their shelf times, oldest first; the primary
trigger, P as it stood at the trigger and
the frames kept before it; secondary triggers as (code, ARG, frame index) and their count; the slot
and the blocks copied; signals and rate. -/
structure SpBuf where
  st : BufState
  frames : List (Nat × List Int)
  trig : SpTrig
  keep : Nat
  pre : Nat
  secs : List (Nat × Nat × Nat)
  secN : Nat
  slot : Option (Fin 48)
  blk : Nat
  recSeq : Nat
  sig : List Nat
  rate : Nat
deriving DecidableEq, Repr

/-- Spate (R358 to R364): two buffers, the order in which they froze, triggers on their way,
SPATE_NEXT, missed captures. -/
structure Spate where
  buf : Vector SpBuf 2
  order : List (Fin 2)
  trigs : List SpTrig
  next : Fin 48
  missed : Nat
deriving DecidableEq, Repr

/-- A buffer that holds nothing. -/
def SpBuf.reset : SpBuf := ⟨.idle, [], ⟨0, 0, 0, 0⟩, 0, 0, [], 0, none, 0, 0, [], 0⟩

/-- The states of a host session (R392). -/
inductive SessState where
  | free | claimed | proving | isOpen
deriving DecidableEq, Repr

/-- A staged entry (R401, R424): parameter identifier, instance, value, the PERMIT_EPOCH of its STAGE request. -/
structure Entry where
  id : Nat
  inst : Nat
  val : Int
  pe : Nat
deriving DecidableEq, Repr

/-- A host session (R391 to R395, R401). `win`: bit n set says that the SEQ n below the newest was
seen; `stored` the last 8
replies by REQ_SEQ; `leaseAt`, `since` ticks; `staleAt` the tick of the last STALE_EPOCH; `out`
requests whose reply is to come, as
(SEQ, opcode, tagged). -/
structure Sess where
  state : SessState
  port : Nat
  ep : Endpoint
  role : Nat
  macEvery : Bool
  key : Nat
  epoch : Nat
  nh : List Byte
  nd : List Byte
  tagKey : List Byte
  leaseAt : Nat
  since : Nat
  rxSeq : Nat
  win : Nat
  txSeq : Nat
  stored : List (Nat × List Byte)
  staging : List Entry
  stageLost : Bool
  mask : Nat
  noticeLost : Nat
  lostNew : Nat
  staleAt : Option Nat
  out : List (Nat × Nat × Bool)
deriving DecidableEq, Repr

/-- A mailbox (R383 to R386): words since the last doorbell, a word lost since then, complete
messages to be read as words, words
read of the first one, the three W1C flags. -/
structure Mbox where
  tx : List Nat
  lost : Bool
  rx : List (List Nat)
  part : Nat
  overflow : Bool
  abandoned : Bool
  rejected : Bool
deriving DecidableEq, Repr

/-- A key slot (R389 to R391, R406): `fails` the ticks of failed proofs, `lockAt` the tick of a lock-out in force. -/
structure Key where
  prov : Bool
  roles : Nat
  ports : Nat
  macReq : Nat
  key : List Byte
  fails : List Nat
  lockAt : Option Nat
  lastEpoch : Nat
  lastSeq : Nat
  lastSt : Nat
deriving DecidableEq, Repr

/-- A permit (R397, R398): holder, epoch of the last grant, grants since the stems started, lease in
ms and the tick it started. -/
structure Permit where
  holder : Option (Fin 8)
  epoch : Nat
  k : Nat
  lease : Nat
  at_ : Nat
  grants : Nat
deriving DecidableEq, Repr

/-- A permit that nobody has held. -/
def Permit.none : Permit := ⟨Option.none, 0, 0, 0, 0, 0⟩

/-- What a commit in the pipeline came from (R401 to R403, R432, R251). -/
inductive CommitKind where
  | write | staged | image | restore | key
deriving DecidableEq, Repr

/-- How far a commit has come (R402 to R404): waiting, its image being written, past its commit point. -/
inductive CommitStage where
  | waiting | writing | committed
deriving DecidableEq, Repr

/-- A commit in the pipeline (R402). -/
structure Commit where
  sess : Fin 8
  key : Nat
  epoch : Nat
  seq : Nat
  op : Nat
  tagged : Bool
  kind : CommitKind
  entries : List Entry
  data : List Byte
  stage : CommitStage
deriving DecidableEq, Repr

/-- A host port (R376, R377, R380, R390): HR_IRQ_STATUS W1C bits, mask, scratch, Silt
cursor and window (`latched` once it has been latched), refused
messages since the reset and since the last record of them; Ethernet link; the word last read. -/
structure HostPort where
  ended : Bool
  permitLost : Bool
  switched : Bool
  abandoned : Bool
  mask : Nat
  scratch : Nat
  cursor : Nat
  auto : Bool
  latch : Nat
  latched : Bool
  moved : Bool
  win : List Nat
  refused : Nat
  refNew : Nat
  link : Bool
  rdata : Nat
deriving DecidableEq, Repr

/-- What an SPI transaction does with the bytes that follow (R374, R376): ignored, or none since
reset; ignored with 0xFF
driven, for an INSTR that is neither WRITE nor READ; words written or read, the next at this offset. -/
inductive SpiRun where
  | ignored
  | foreign
  | write (off : Nat)
  | read (off : Nat)
deriving DecidableEq, Repr

/-- An SPI port (R374 to R376): the transaction since CS fell, the bytes of a word not yet complete,
the mailbox whose MB_TX it
wrote, the bytes driven behind its header, oldest first. -/
structure SpiPort where
  run : SpiRun
  part : List Byte
  wrote : Option (Fin 16)
  shift : List Byte
deriving DecidableEq, Repr

/-- The header of a message sent over Ethernet (R372): source MAC address; EtherType; source IP
address and UDP port, IPv4 DF, and TTL
or hop limit, all 0 for an EtherType frame. -/
structure EthHdr where
  mac : Nat
  ty : Nat
  ip : Nat
  udp : Nat
  df : Bool
  ttl : Nat
deriving DecidableEq, Repr

/-- A frame that left HE0 or HE1 (R371, R372): the port, the endpoint it went to, the header of a
message (none for an answer to ARP, an
echo or a solicitation), its bytes. -/
structure EthOut where
  port : Nat
  ep : Endpoint
  hdr : Option EthHdr
  data : List Byte
deriving DecidableEq, Repr

/-- A transfer of a Keneb image (R432): its session, LENGTH, and the blocks received as (OFFSET,
bytes), oldest first. -/
structure KLoad where
  sess : Fin 8
  len : Nat
  blocks : List (Nat × List Byte)
deriving DecidableEq, Repr

/-- Hosts (R370 to R438). `rung` holds the requests in doorbell order as (mailbox, words), `kSess`
the session opens since the
start of the stems, `ledImg` the image slot in force, `kenebId`, `kenebGen` and `minFw` of the
image in force, `load` an image transfer, `staleEp` the ticks at which endpoints with no session
were last answered STALE_EPOCH, `sent` the frames sent at
HE0 and HE1, `timeHi` HR_TIME_HI, `spi` the transactions of HS0 and HS1, `ctl` the status that the
last control written was answered with. -/
structure Hosts where
  sess : Vector Sess 8
  mb : Vector Mbox 16
  rung : List (Fin 16 × List Nat)
  key : Vector Key 8
  permit : SMap Permit
  port : Vector HostPort 4
  commits : List Commit
  kSess : Nat
  ledImg : Nat
  kenebId : Nat
  kenebGen : Nat
  minFw : Nat
  load : Option KLoad
  staleEp : List (Nat × Endpoint × Nat)
  sent : List EthOut
  timeHi : Nat
  spi : Vector SpiPort 2
  ctl : Nat
deriving DecidableEq, Repr

/-- No endpoint. -/
def Endpoint.none : Endpoint := ⟨0, 0, false, 0, 0⟩

/-- A session that is FREE (R392). -/
def Sess.reset : Sess :=
  { state := .free, port := 0, ep := Endpoint.none, role := 0, macEvery := false, key := 0, epoch := 0, nh := [], nd := [], tagKey := []
    leaseAt := 0, since := 0, rxSeq := 0, win := 1, txSeq := 0, stored := [], staging := [], stageLost := false, mask := 0
    noticeLost := 0, lostNew := 0, staleAt := none, out := [] }

/-- An empty mailbox. -/
def Mbox.reset : Mbox := ⟨[], false, [], 0, false, false, false⟩

/-- A host port after reset (R377, R380). -/
def HostPort.reset : HostPort := ⟨false, false, false, false, 0, 0, 0, false, 0, false, false, List.replicate 8 0, 0, 0, false, 0⟩

/-- Hosts after a reset of everything: keys empty. -/
def Hosts.reset : Hosts :=
  { sess := Vector.replicate 8 Sess.reset, mb := Vector.replicate 16 Mbox.reset, rung := []
    key := Vector.replicate 8 ⟨false, 0, 0, 1, List.replicate 32 0, [], none, 0, 0, 0⟩, permit := []
    port := Vector.replicate 4 HostPort.reset, commits := [], kSess := 0, ledImg := 0, kenebId := 0, kenebGen := 0, minFw := 0, load := none, staleEp := [], sent := []
    timeHi := 0, spi := Vector.replicate 2 ⟨.ignored, [], none, []⟩, ctl := 0 }

/-- The states of a stem (R443). -/
inductive StemState where
  | off | boot | sync | standby | active | failed
deriving DecidableEq, Repr

/-- A stem (R443 to R447): ticks of its restarts in the last hour, whether RESTART_LIMIT holds it,
tick and grant count of its last
heartbeat and the tick at which the count last moved, ECC counts; whether thermal shutdown or its supply holds it;
`failAt` the tick of its last failure. -/
structure Stem where
  st : StemState
  restarts : List Nat
  limited : Bool
  hbAt : Nat
  hbCount : Nat
  moveAt : Nat
  ce : Nat
  ue : Nat
  hot : Bool
  low : Bool
  failAt : Option Nat
deriving DecidableEq, Repr

/-- A copy of an output at the comparer (R445). -/
structure OutCopy where
  stem : Fin 2
  group : Fin 5
  oseq : Nat
  bits : List Byte
  at_ : Nat
deriving DecidableEq, Repr

/-- A resynchronisation (R453): its start, the pass to come (0 first, 1 to 3 dirty, 4 final point, 5
digest rounds, 6 agreement),
dirty passes and digest rounds made, the tick from which the outputs have agreed. -/
structure SyncRun where
  startAt : Nat
  stage : Nat
  dirty : Nat
  rounds : Nat
  agreeAt : Nat
deriving DecidableEq, Repr

/-- The stems, the comparer and the bridge links (R440 to R463). `input` a switch-over input on its
way as (cause, fault kind, OSEQ of group 1), `resend` flits resent per link,
`newResend` those since the last record, `doubt` a divergence that a fault report may still explain,
as (group, kind, OSEQ, tick). -/
structure Stems where
  stem : Vector Stem 2
  sync : Option SyncRun
  waiting : List OutCopy
  doubt : Option (Nat × Nat × Nat × Nat)
  input : Option (Nat × Nat × Nat)
  switched : Bool
  diverged : Bool
  selfFault : Bool
  resyncFailed : Bool
  switchovers : Nat
  divergences : Nat
  lastFault : Nat
  resyncTime : Nat
  lagPeak : Nat
  resend : Vector Nat 6
  newResend : Vector Nat 6
deriving DecidableEq, Repr

/-- A stem in reset. -/
def Stem.reset : Stem := ⟨.off, [], false, 0, 0, 0, 0, 0, false, false, none⟩

/-- Both stems in reset. -/
def Stems.reset : Stems :=
  { stem := Vector.replicate 2 Stem.reset, sync := none, waiting := [], doubt := none, input := none, switched := false
    diverged := false, selfFault := false, resyncFailed := false, switchovers := 0, divergences := 0, lastFault := 0, resyncTime := 0
    lagPeak := 0, resend := Vector.replicate 6 0, newResend := Vector.replicate 6 0 }

/-- A temperature sensor (R464 to R470): reading, c, t and offset in 0.1 °C, the offset's remainder
in 1/65,536, the run and calm
counts, the flags of R484, and (c, t) of the last scans, newest first. -/
structure Sensor where
  raw : Int
  c : Int
  t : Int
  ofs : Int
  ofsRem : Int
  run : Nat
  calm : Nat
  suspect : Bool
  noCheck : Bool
  isOpen : Bool
  ofsClamp : Bool
  learning : Bool
  hist : List (Int × Int)
deriving DecidableEq, Repr

/-- The states of a die under R473. -/
inductive ThermState where
  | run | shutdown | latched
deriving DecidableEq, Repr

/-- A die's temperature and thermal item (R471 to R474): 0 Stem A, 1 Stem B, 2 Delta, 3 to 6 PD0 to PD3, 7 Bank. -/
structure ThDie where
  st : ThermState
  temp : Int
  cool : Nat
  warn : Bool
  last : Nat
  count : Nat
  recorded : Bool
  hottest : Nat
deriving DecidableEq, Repr

/-- A rate-of-rise group (R470): ROR, the rate in 0.1 °C/s, scans below 80 % of the limit. -/
structure ThGroup where
  ror : Bool
  rate : Int
  below : Nat
deriving DecidableEq, Repr

/-- The temperature hub (R464 to R477): oscillator correction in 0.01 ppm, reference correction in
ppm, loops that wait for the
automatic START of R475. -/
structure Therm where
  sen : Vector Sensor 64
  die : Vector ThDie 8
  grp : Vector ThGroup 16
  osc : Int
  ref : Int
  auto : Vector Bool 16
deriving DecidableEq, Repr

/-- A capture (R481, R482). -/
structure Capture where
  time : Nat
  count : Nat
  src : Nat
deriving DecidableEq, Repr

/-- What a committed write does to a timer at its apply boundary (R479): `par` sets the parameter of an identifier. -/
inductive TimerWrite where
  | start | stop | clear | cmp (c : Nat) | cmpEn (on : Bool) | par (id v : Nat)
deriving DecidableEq, Repr

/-- A timer (R478 to R482, R484, R486): the parameters in force at its last boundary, tick at which
the running prescale period
began, captures recognised and not yet delivered, captures queued, writes on their way with the tick
of their apply boundary, captures dropped since the last pop
and since the last record. -/
structure Timer where
  prescale : Nat
  reload : Nat
  interval : Nat
  src : Nat
  edge : Nat
  filt : Nat
  running : Bool
  count : Nat
  phase : Nat
  cmp : Nat
  cmpEn : Bool
  appliedAt : Nat
  matched : Bool
  overrun : Bool
  matchCnt : Nat
  dropped : Nat
  dropNew : Nat
  dropPop : Bool
  recog : List Capture
  queue : List Capture
  writes : List (Nat × TimerWrite)
deriving DecidableEq, Repr

/-- A sensor at a start of DL_SNS with THERM_OFS_INIT 0 (R469). -/
def Sensor.reset : Sensor := ⟨0, 0, 0, 0, 0, 0, 0, false, false, false, false, false, []⟩

/-- A timer after reset. -/
def Timer.reset : Timer := ⟨1, 0xFFFFFFFF, 0, 0, 0, 0, false, 0, 0, 0, false, 0, false, false, 0, 0, 0, false, [], [], []⟩

/-- The temperature hub after a reset of everything. -/
def Therm.reset : Therm :=
  ⟨Vector.replicate 64 Sensor.reset, Vector.replicate 8 ⟨.run, 0, 0, false, 0, 0, true, 0⟩, Vector.replicate 16 ⟨false, 0, 0⟩, 0, 0,
   Vector.replicate 16 false⟩

/-- A supply of R488: its last measured value, the lowest since reset, below warning, below reset. -/
structure Supply where
  v : Int
  min : Option Int
  warn : Bool
  low : Bool
deriving DecidableEq, Repr

/-- The brown-out states of R491. -/
inductive BrownState where
  | normal | warn | resume
deriving DecidableEq, Repr

/-- The operating states (R498). -/
inductive DevState where
  | boot | run | quiet | dormant
deriving DecidableEq, Repr

/-- A copy of spring retention (R496) with a good CRC. -/
structure Ret where
  gen : Nat
  time : Nat
  kind : Nat
  prev : Nat
  wakeCause : Nat
  wakeEn : Nat
  wakePol : Nat
  pendWarn : Nat
  pendTime : Nat
  warnCnt : Nat
  resetCnt : Nat
  dormantTime : Nat
  retain : Vector Nat 16
deriving DecidableEq, Repr

/-- A firmware slot that holds a valid image (R506). -/
structure FwImage where
  version : Nat
  rollback : Nat
  length : Nat
deriving DecidableEq, Repr

/-- A firmware transfer (R507): session, target slot, length, version, the bytes received, and the
SEQ of a block held during
BROWN_WARN whose reply is owed. -/
structure FwLoad where
  sess : Fin 8
  slot : Fin 2
  len : Nat
  version : Nat
  data : List Byte
  owed : Option Nat
deriving DecidableEq, Repr

/-- A peer port (R509, R510): link, ADDR of the last HELLO, own sequence number, the last frame sent. -/
structure Peer where
  up : Bool
  addr : Nat
  seq : Nat
  out : List Byte
deriving DecidableEq, Repr

/-- Supplies and the brown-out warning (R488 to R492): the episode's first supply, the set in the
encoding of NOTICE_SUPPLY, its
shelf time and tick, the tick at which RESUME began, the lowest reading of the first supply; scans
for which VCORE_A and VCORE_B differed. -/
structure Power where
  sup : Vector Supply 10
  brown : BrownState
  first : Nat
  set : Nat
  time : Nat
  at_ : Nat
  resumeAt : Nat
  min : Option Int
  warnCnt : Nat
  warnLast : Nat
  warnSeen : Bool
  vbatLow : Bool
  vauxhUv : Bool
  mismatch : Bool
  mismatchRun : Nat
deriving DecidableEq, Repr

/-- Resets and spring retention (R493 to R497): kind, state before, cause of a firmware restart,
whether DEV_RESET is to be logged;
the two retention copies and whether B was written last; a pending warning found at a start and the
supply and set of a brown-out
reset. -/
structure Spring where
  kind : Nat
  prev : Nat
  fwCause : Nat
  record : Bool
  valid : Bool
  resetCnt : Nat
  wakeCause : Nat
  wakeLatch : Option Nat
  mainEn : Bool
  dormantTime : Nat
  ret : Vector (Option Ret) 2
  retB : Bool
  pend : Option (Nat × Nat)
  resetSup : Option (Nat × Nat)
  retain : Vector Nat 16
deriving DecidableEq, Repr

/-- Firmware slots, the boot item, the tick of TRIAL_START and a transfer (R503 to R508). -/
structure Firm where
  slot : Vector (Option FwImage) 2
  run : Fin 2
  runSlot : Fin 2
  trialSlot : Option (Fin 2)
  trialBoots : Nat
  trialStart : Nat
  trialTick : Nat
  kenebSlot : Option (Fin 2)
  rollback : Nat
  load : Option FwLoad
  verified : Bool
  reverted : Option (Fin 2)
  refused : List (Nat × Nat)
deriving DecidableEq, Repr

/-- The peer chain (R509, R510). -/
structure Chain where
  head : Bool
  addr : Nat
  mis : Bool
  skew : Bool
  conflict : Bool
  peer : Vector Peer 2
deriving DecidableEq, Repr

/-- Operating state and start (R498 to R505): `held` reset not released; `applied` the image has
been applied in this start; the
domains that states and shutdown switch; loops that wait for the automatic START; tick of the last
start of the stems. -/
structure Dev where
  state : DevState
  held : Bool
  applied : Bool
  mbReady : Bool
  phOn : Bool
  isoOn : Bool
  nvOn : Bool
  snsOn : Bool
  coreOn : Bool
  hostOn : Bool
  fldlOn : Bool
  fldhOn : Bool
  auto : Vector Bool 16
  started : Nat
  bootTime : Nat
deriving DecidableEq, Repr

/-- Supplies before anything has been measured. -/
def Power.reset : Power :=
  ⟨Vector.replicate 10 ⟨0, none, false, false⟩, .normal, 0, 0, 0, 0, 0, none, 0, 0, false, false, false, false, 0⟩

/-- Spring retention after COLD_POR: both copies bad. -/
def Spring.reset : Spring :=
  { kind := 1, prev := 0, fwCause := 0, record := true, valid := false, resetCnt := 0, wakeCause := 0, wakeLatch := none, mainEn := true
    dormantTime := 0, ret := Vector.replicate 2 none, retB := true, pend := none, resetSup := none, retain := Vector.replicate 16 0 }

/-- Firmware 2.4.0 in image slot 0, no trial, no Keneb image (log entry 40). -/
def Firm.reset : Firm :=
  { slot := #v[some ⟨0x02040000, 0, 4194304⟩, none], run := 0, runSlot := 0, trialSlot := none, trialBoots := 0, trialStart := 0, trialTick := 0
    kenebSlot := none, rollback := 0, load := none, verified := false, reverted := none, refused := [] }

/-- No address, both links down. -/
def Chain.reset : Chain := ⟨false, 0, false, false, false, Vector.replicate 2 ⟨false, 0, 0, []⟩⟩

/-- The part held in reset. -/
def Dev.reset : Dev :=
  { state := .boot, held := true, applied := false, mbReady := false, phOn := false, isoOn := false, nvOn := true, snsOn := true, coreOn := true, hostOn := true, fldlOn := false
    fldhOn := false, auto := Vector.replicate 16 false, started := 0, bootTime := 0 }

/-- Everything the spec gives the part, and the queue of waiting commands. -/
structure State where
  /-- The commands waiting, first in, first out. -/
  pending : List Instr
  /-- Tick and shelf time (R8, R35, R41). -/
  clk : Clock
  /-- Time-base (R31, R36, R40). -/
  tb : TimeBase
  /-- Sluice (R42 to R47). -/
  slu : Sluice
  /-- Parameter values in force that differ from their defaults, by identifier x 65,536 + instance (R434, R436). -/
  cfg : SMap Int
  /-- Values that a commit has replaced and that a phase die or Eddy still uses, until the boundary at which it takes the commit (R25, R55, R404). -/
  lag : SMap Int
  /-- Order number of the last stamped input (R440). -/
  ord : Nat
  /-- The model's own counter, which names the next free value (log entry 2). -/
  free : Nat
  /-- Events raised and not yet taken by the Silt writer (R350). -/
  evq : List LogEv
  /-- Phase dies (R81, R82). -/
  die : Vector Die 4
  /-- Phase channels (R53 to R86). -/
  ph : Vector Phase 48
  /-- Phase statistics (R87, R138). -/
  pst : Vector PhaseStat 48
  /-- Voltage-sense inputs (R75 to R78, R93). -/
  vs : Vector VSense 16
  /-- Regulation loops (R91 to R145). -/
  loop : Vector Loop 16
  /-- FAULT pins (R143, R144). -/
  fault : FaultPins
  /-- Fault kinds the active stem has reported and the comparer has not taken (R446). -/
  stemRep : List (Nat × Nat)
  /-- Confluence (R184 to R191). -/
  share : Share
  /-- Hold-up (R192 to R202). -/
  hold : Hold
  /-- The Bank die (R150 to R183). -/
  bank : Bank
  /-- Weir (R206 to R223). -/
  weir : Weir
  /-- Battery strings (R226 to R251). -/
  batt : Vector Batt 8
  /-- Field ports (R255 to R287). -/
  port : Vector Port 64
  /-- Node conversations (R288 to R314). -/
  nodes : Nodes
  /-- The Pool (R315 to R338). -/
  pool : Pool
  /-- The silt store of 48 MiB as the bytes that are not 0 (R339). -/
  mram : List Host.Cell
  /-- The Silt log and the working ledger (R341 to R357). -/
  silt : Silt
  /-- Spate capture (R358 to R364). -/
  spate : Spate
  /-- Hosts, mailboxes, sessions, permits, commits (R370 to R438). -/
  host : Hosts
  /-- The stems, the comparer and the bridge (R440 to R463). -/
  stems : Stems
  /-- OSEQ of the last output of each group that the comparer passed, the Silt record stream as the fifth (R23, R347, R445). -/
  passed : Vector Nat 5
  /-- The temperature hub (R464 to R477). -/
  therm : Therm
  /-- Timers (R478 to R482). -/
  timer : Vector Timer 32
  /-- Supplies and the brown-out warning (R488 to R492). -/
  power : Power
  /-- Resets and spring retention (R493 to R497). -/
  spring : Spring
  /-- Firmware images and transfers (R503 to R508). -/
  firm : Firm
  /-- The peer chain (R509, R510). -/
  chain : Chain
  /-- Operating state and start (R498 to R505). -/
  dev : Dev
deriving DecidableEq, Repr

/-- Why the part stops. No rule of the spec stops the part as a machine, so no meaning of this model
raises a fault; the one
reason stands for an access outside the silt store of R339, which no command's operands can name (safe). -/
inductive Fault where
  /-- An address outside the 48 MiB of the silt store (R339). Raised by no meaning (safe). -/
  | outsideStore
deriving DecidableEq, Repr

/-- Why a command has no meaning here. -/
inductive Refusal where
  /-- A command whose meaning is not written yet; raised by an arm of Dispatch.lean alone (safe). -/
  | notModelled (mnemonic : String)
deriving DecidableEq, Repr

/-- What a command answers. -/
abbrev Res := Host.Outcome State Fault Refusal

/-- The part right after the reset of R493 that resets everything: every field at the value the spec gives, or at the value
the assumption log names. -/
def State.reset : State where
  pending := []
  clk := ⟨false, 0, 0⟩
  tb := ⟨.free, false, false, false, false, false, false, true, .none, 0, 0, 0, 0, false, 0, none, 0, none, none⟩
  slu := ⟨Vector.replicate 6 0, Vector.replicate 6 false, Vector.replicate 6 0, Vector.replicate 6 0, Vector.replicate 6 none, Vector.replicate 6 none⟩
  cfg := []
  lag := []
  ord := 0
  free := 0
  evq := []
  die := Vector.replicate 4 { Die.reset with off := true }
  ph := Vector.replicate 48 Phase.reset
  pst := Vector.replicate 48 ⟨0, 0, 0, 0, 0, 0, 0, 0, true, 0, 0⟩
  vs := Vector.replicate 16 ⟨false, false, 0, 0, [], 0⟩
  loop := Vector.replicate 16 Loop.reset
  fault := ⟨true, Vector.replicate 4 true⟩
  stemRep := []
  share := ⟨Vector.replicate 64 ⟨.absent, 0, 0, false, 0, none, 0⟩, Vector.replicate 4 ⟨0, 0, 0⟩, Vector.replicate 2 ⟨0, false, 0, 0, 0, 0, 0, 0, none, false⟩, 0⟩
  hold := ⟨.normal, false, false, false, false, false, false, false, 0, Vector.replicate 16 0, Vector.replicate 16 0, Vector.replicate 16 false, 0, 0, 0, 0, 0, false, []⟩
  bank := Bank.reset
  weir := ⟨Vector.replicate 36 Scope.reset, [], Vector.replicate 16 0, false, Vector.replicate 2 none, Vector.replicate 2 0, none, none, 0, 0⟩
  batt := Vector.replicate 8 Batt.reset
  port := Vector.replicate 64 Port.reset
  nodes := ⟨[], [], [], [], 1⟩
  pool := ⟨[], 0, Vector.replicate 3 [], [], [], [], [], 0, 0, 0, 0, 0, []⟩
  mram := []
  silt := ⟨0, 0, 0, [], [], [], 0, 0, true, false, 0, [], 0, false, 0⟩
  spate := ⟨Vector.replicate 2 SpBuf.reset, [], [], 0, 0⟩
  host := Hosts.reset
  stems := Stems.reset
  passed := Vector.replicate 5 0
  therm := Therm.reset
  timer := Vector.replicate 32 Timer.reset
  power := Power.reset
  spring := Spring.reset
  firm := Firm.reset
  chain := Chain.reset
  dev := Dev.reset

end Sys2Proof.Machine
end

