-- ==== Sys2Proof/Machine/Ops.lean ====
section
/-! DEFINITION. The named operations over the state that every family uses: parameters, the log,
order numbers, fixed tables. -/

namespace Sys2Proof.Machine

/-- The key of a parameter instance in `cfg` (R434). -/
def pkey (p : Prm) (i : Nat) : Nat := p.id * 65536 + i

/-- The event codes whose home chapter coalesces them by tally (R366). -/
def coalesced : List Nat :=
  [0x0202, 0x0303, 0x0307, 0x0308, 0x0405, 0x0408, 0x0501, 0x0502, 0x0609, 0x0701, 0x0702, 0x080A, 0x0903, 0x0A05, 0x0A07, 0x0A0C, 0x0B06, 0x0B0A, 0x0C04, 0x0D03, 0x0E03,
   0x0E07, 0x0E08, 0x0E09, 0x0F03, 0x1008, 0x1009, 0x1104, 0x1105, 0x1110, 0x120C]

/-- The sensors `lo` to `hi` but `i` as a mask. -/
def sensorMask (lo hi i : Nat) : Nat := 2 ^ (hi + 1) - 2 ^ lo - 2 ^ i

/-- The default of THERM_NBR: the other sensors of the die of an on-die sensor (R464, R467). -/
def nbrDefault (i : Nat) : Nat :=
  if i < 6 then sensorMask 0 5 i
  else if i < 12 then sensorMask 6 11 i
  else if i < 20 then sensorMask 12 19 i
  else if i < 44 then sensorMask ((i - 20) / 6 * 6 + 20) ((i - 20) / 6 * 6 + 25) i
  else if i < 48 then sensorMask 44 47 i
  else 0

/-- The default of an instance of a parameter: three parameters have a default for each instance (R366, R409, R467). -/
def Prm.dfltAt (p : Prm) (i : Nat) : Int :=
  if p.id = 0x4000 then (if coalesced.contains i then 1000 else 0)
  else if p.id = 0x5400 then (nbrDefault i : Nat)
  else if p.id = 0x4C01 ∧ (i = 5 ∨ i = 6) then 0
  else p.dflt

/-- A parameter's value in a set of values: the value set, or the default (R436). -/
def cfgGet (c : SMap Int) (p : Prm) (i : Nat) : Int := SMap.get (p.dfltAt i) (pkey p i) c

/-- The value in force of a parameter. -/
def State.par (s : State) (p : Prm) (i : Nat) : Int := cfgGet s.cfg p i

/-- The value in force of a parameter that is never negative. -/
def State.parN (s : State) (p : Prm) (i : Nat) : Nat := (s.par p i).toNat

/-- The value that a phase die or Eddy uses: the one in force before a commit until the boundary at
which it takes the commit, then the
value in force (R25, R404). -/
def State.parNow (s : State) (p : Prm) (i : Nat) : Int := (SMap.find (pkey p i) s.lag).getD (s.par p i)

/-- The value that a phase die or Eddy uses of a parameter that is never negative. -/
def State.parNowN (s : State) (p : Prm) (i : Nat) : Nat := (s.parNow p i).toNat

/-- A set of values with one parameter set. -/
def cfgSet (c : SMap Int) (p : Prm) (i : Nat) (v : Int) : SMap Int := SMap.set (p.dfltAt i) (pkey p i) v c

/-- A parameter set. -/
def State.setPar (s : State) (p : Prm) (i : Nat) (v : Int) : State := { s with cfg := cfgSet s.cfg p i v }

/-- What shelf time gains in a tick, in 1/5,000 of 4 ns: 5,000, and 5,001 or 4,999 under a slew (R36). -/
def Slew.rate : Slew → Nat
  | .none => 5000
  | .forward => 5001
  | .backward => 4999

/-- An event sent to the Silt writer, with its source, data and shelf time (R345, R350). -/
def State.log (s : State) (code src : Nat) (data : Int) : State :=
  { s with evq := s.evq ++ [⟨code, src, toWord 64 data, s.clk.shelf⟩] }

/-- An event that carries the shelf time of an earlier input (R197, R405). -/
def State.logAt (s : State) (code src : Nat) (data : Int) (time : Nat) : State :=
  { s with evq := s.evq ++ [⟨code, src, toWord 64 data, time⟩] }

/-- A condition that began at `since` has held for `n` ticks. -/
def State.held (s : State) (since : Option Nat) (n : Nat) : Bool := match since with
  | none => false
  | some t => decide (t + n ≤ s.clk.tick)

/-- The tick since which a condition holds, from whether it holds now. -/
def holdFrom (on : Bool) (was : Option Nat) (now : Nat) : Option Nat := if on then some (was.getD now) else none

/-- The next order number is given to an input (R23, R440). -/
def State.stamp (s : State) : State := { s with ord := s.ord + 1 }

/-- Data of two 32-bit halves: `lo` in bits 31:0 and `hi` in bits 63:32. -/
def lohi (lo hi : Int) : Int := (toWord 32 lo : Int) + (toWord 32 hi : Int) * 2 ^ 32

/-- The host ports work: reset released, their domain on (R374, R494). -/
def State.hostUp (s : State) : Bool := !s.dev.held && s.dev.hostOn

/-- The active stem, 0 A, 1 B (R443); A where none is active. -/
def State.activeStem (s : State) : Nat := if s.stems.stem[(1 : Fin 2)].st = .active then 1 else 0

/-- A fault of its own that the active stem reports (R446). -/
def State.stemFault (s : State) (kind : Nat) : State := { s with stemRep := s.stemRep ++ [(s.activeStem, kind)] }

/-- Stem `k` runs in step (R443). -/
def State.stemOk (s : State) (k : Fin 2) : Bool := s.stems.stem[k].st == .active || s.stems.stem[k].st == .standby

/-- A stem is active: Onolael acts (R443). -/
def State.hasActive (s : State) : Bool := (List.finRange 2).any (fun (k : Fin 2) => s.stems.stem[k].st == .active)

/-- BROWN_WARN is active (R491). -/
def State.brownWarn (s : State) : Bool := s.power.brown != .normal

/-- A trigger for the running capture buffer, at the present instant (R360). -/
def State.spateReq (s : State) (code arg : Nat) : State :=
  { s with spate := { s.spate with trigs := s.spate.trigs ++ [⟨code, arg, s.clk.shelf, s.ord⟩] } }

/-- The status codes of R415. -/
def stOk : Nat := 0x0000
/-- STAGED (R415). -/
def stStaged : Nat := 0x0001
/-- BUSY (R415). -/
def stBusy : Nat := 0x0010
/-- BUSY_SUPPLY (R415). -/
def stBusySupply : Nat := 0x0011
/-- STALE_EPOCH (R415). -/
def stStaleEpoch : Nat := 0x0020
/-- NO_PERMIT (R415). -/
def stNoPermit : Nat := 0x0021
/-- BAD_CRC (R415). -/
def stBadCrc : Nat := 0x0030
/-- BAD_TAG (R415). -/
def stBadTag : Nat := 0x0031
/-- RANGE (R415). -/
def stRange : Nat := 0x0040
/-- NO_BUDGET (R415). -/
def stNoBudget : Nat := 0x0041
/-- READ_ONLY (R415). -/
def stReadOnly : Nat := 0x0042
/-- UNKNOWN (R415). -/
def stUnknown : Nat := 0x0043
/-- ABANDONED (R415). -/
def stAbandoned : Nat := 0x0050
/-- BAD_SIGNATURE (R415). -/
def stBadSignature : Nat := 0x0060
/-- ROLLBACK (R415). -/
def stRollback : Nat := 0x0061

/-- An output of a group leaves both stems with the next OSEQ of its group, and the comparer passes it (R23, R445). -/
def State.output (s : State) (g : Fin 5) : State := { s with passed := upd s.passed g (· + 1) }

/-- The time-base changed by `f`. -/
def State.modTb (s : State) (f : TimeBase → TimeBase) : State := { s with tb := f s.tb }

/-- Phase `p` changed. -/
def State.modPh (s : State) (p : Fin 48) (f : Phase → Phase) : State := { s with ph := upd s.ph p f }

/-- The pulse of phase `p` changed. -/
def State.modPl (s : State) (p : Fin 48) (f : Pulse → Pulse) : State := s.modPh p (fun x => { x with pl := f x.pl })

/-- The statistics of phase `p` changed. -/
def State.modPst (s : State) (p : Fin 48) (f : PhaseStat → PhaseStat) : State := { s with pst := upd s.pst p f }

/-- Phase die `d` changed. -/
def State.modDie (s : State) (d : Fin 4) (f : Die → Die) : State := { s with die := upd s.die d f }

/-- What die `d` holds of loop `l` changed. -/
def State.modLp (s : State) (d : Fin 4) (l : Fin 16) (f : DieLoop → DieLoop) : State :=
  s.modDie d (fun x => { x with lp := upd x.lp l f })

/-- Voltage-sense input `v` changed. -/
def State.modVs (s : State) (v : Fin 16) (f : VSense → VSense) : State := { s with vs := upd s.vs v f }

/-- Loop `l` changed. -/
def State.modLoop (s : State) (l : Fin 16) (f : Loop → Loop) : State := { s with loop := upd s.loop l f }

/-- The compensator of loop `l` changed. -/
def State.modCt (s : State) (l : Fin 16) (f : LoopCtl → LoopCtl) : State := s.modLoop l (fun x => { x with ct := f x.ct })

/-- The period counter of loop `l` changed. -/
def State.modTm (s : State) (l : Fin 16) (f : LoopTime → LoopTime) : State := s.modLoop l (fun x => { x with tm := f x.tm })

/-- The status flags of loop `l` changed. -/
def State.modFl (s : State) (l : Fin 16) (f : LoopFlags → LoopFlags) : State := s.modLoop l (fun x => { x with fl := f x.fl })

/-- The over-current supervisor of loop `l` changed. -/
def State.modOc (s : State) (l : Fin 16) (f : OcSup → OcSup) : State := s.modLoop l (fun x => { x with oc := f x.oc })

/-- Ebb and power-good of loop `l` changed. -/
def State.modEb (s : State) (l : Fin 16) (f : EbbPg → EbbPg) : State := s.modLoop l (fun x => { x with eb := f x.eb })

/-- The activities' share parameters, in the order of R43. -/
def shareParam (a : Fin 6) : Prm :=
  match a with
  | 0 => P.SLUICE_SHARE_EDDY
  | 1 => P.SLUICE_SHARE_POOL
  | 2 => P.SLUICE_SHARE_MP
  | 3 => P.SLUICE_SHARE_SILT
  | 4 => P.SLUICE_SHARE_SPATE
  | 5 => P.SLUICE_SHARE_BRIDGE

/-- The grants an activity may use in a period: its share times 75 (R43). -/
def State.sluiceBudget (s : State) (a : Fin 6) : Nat := s.parN (shareParam a) 0 * 75

/-- An activity other than Eddy may use `n` more grants in this period (R46). -/
def State.sluiceRoom (s : State) (a : Fin 6) (n : Nat) : Bool := s.slu.used[a] + n ≤ s.sluiceBudget a

/-- `n` grants used by an activity (R42). -/
def State.sluiceUse (s : State) (a : Fin 6) (n : Nat) : State :=
  { s with slu := { s.slu with used := upd s.slu.used a (· + n) } }

/-- An activity has used its whole budget (R46). -/
def State.sluiceSpent (s : State) (a : Fin 6) : Bool := decide (s.sluiceBudget a ≤ s.slu.used[a])

/-- Work of the management processor or of the bridge: a number of grants that the spec does not
give, up to the budget (R43, log
entry 118). -/
def State.sluiceWork (s : State) (a : Fin 6) : State :=
  let n := (Config.freeInt s.free).toNat
  { s with free := s.free + 1, slu := { s.slu with used := upd s.slu.used a (fun u => max u (min (u + n) (s.sluiceBudget a))) } }

/-- An activity stalls until the next period boundary; what it holds is kept (R46). -/
def State.sluiceStall (s : State) (a : Fin 6) : State :=
  { s with slu := { s.slu with stalled := s.slu.stalled.set a.val true a.isLt } }

/-- The Silt writer changed. -/
def State.modSilt (s : State) (f : Silt → Silt) : State := { s with silt := f s.silt }

/-- The writer's queue of 64 is full of records and tally increments that wait (R46, R348). -/
def Silt.full (x : Silt) : Bool := decide (64 ≤ x.queue.length + x.tallyDue.length)

/-- A change of what the ledger holds makes a ledger write due, behind the tally writes requested
before it (R340, R342). -/
def State.ledgerNeed (s : State) : State := s.modSilt (fun x => { x with
  ledgerDue := true, ledgerAfter := if x.ledgerDue then x.ledgerAfter else x.tallyDue.length })

end Sys2Proof.Machine
end

