-- ==== Sys2Proof/Machine/Sha256.lean ====
section
/-! DEFINITION. SHA-256 and HMAC-SHA-256, which R391 and R412 name for proofs and tags. The spec
names the functions alone; their
definition is the published standard's (log entry 41). -/

namespace Sys2Proof.Machine

/-- Rotation of a 32-bit word to the right. -/
def rotr32 (x n : Nat) : Nat := (x >>> n) ||| ((x <<< (32 - n)) % 2 ^ 32)

/-- The four words that a number of 128 bits spells, the first one highest. -/
def quadWords (q : Nat) : List Nat := [q / 2 ^ 96, q / 2 ^ 64 % 2 ^ 32, q / 2 ^ 32 % 2 ^ 32, q % 2 ^ 32]

/-- The round constants, four words to a number: the first 32 bits of the fractional parts of the
cube roots of the first 64 primes
(`sha_rounds_are_cube_roots` computes them). -/
def shaRounds : List Nat :=
  [0x428a2f9871374491b5c0fbcfe9b5dba5, 0x3956c25b59f111f1923f82a4ab1c5ed5, 0xd807aa9812835b01243185be550c7dc3,
   0x72be5d7480deb1fe9bdc06a7c19bf174, 0xe49b69c1efbe47860fc19dc6240ca1cc, 0x2de92c6f4a7484aa5cb0a9dc76f988da,
   0x983e5152a831c66db00327c8bf597fc7, 0xc6e00bf3d5a7914706ca635114292967, 0x27b70a852e1b21384d2c6dfc53380d13,
   0x650a7354766a0abb81c2c92e92722c85, 0xa2bfe8a1a81a664bc24b8b70c76c51a3, 0xd192e819d6990624f40e3585106aa070,
   0x19a4c1161e376c082748774c34b0bcb5, 0x391c0cb34ed8aa4a5b9cca4f682e6ff3, 0x748f82ee78a5636f84c878148cc70208,
   0x90befffaa4506cebbef9a3f7c67178f2].flatMap quadWords

/-- The initial hash value: the same of the square roots of the first 8 primes. -/
def shaInit : List Nat := [0x6a09e667bb67ae853c6ef372a54ff53a, 0x510e527f9b05688c1f83d9ab5be0cd19].flatMap quadWords

/-- The number big-endian bytes spell. -/
def beNat (bs : List Byte) : Nat := bs.foldl (fun a b => a * 256 + b.toNat) 0

/-- `k` words of four bytes, big-endian. -/
def beWords : Nat → List Byte → List Nat
  | 0, _ => []
  | k + 1, bs => beNat (bs.take 4) :: beWords k (bs.drop 4)

/-- A word as four bytes, big-endian. -/
def beBytes4 (w : Nat) : List Byte := (leBytes 4 w).reverse

/-- One word of the message schedule from the last sixteen, newest first. -/
def shaNext (w : List Nat) : Nat :=
  let g (i : Nat) : Nat := w.getD i 0
  let s0 := rotr32 (g 14) 7 ^^^ rotr32 (g 14) 18 ^^^ (g 14 >>> 3)
  let s1 := rotr32 (g 1) 17 ^^^ rotr32 (g 1) 19 ^^^ (g 1 >>> 10)
  (g 15 + s0 + g 6 + s1) % 2 ^ 32

/-- `k` more words of the schedule, newest first. -/
def shaSchedule : Nat → List Nat → List Nat
  | 0, w => w
  | k + 1, w => shaSchedule k (shaNext w :: w)

/-- One round on the eight working variables. -/
def shaRound (v : List Nat) (kw : Nat × Nat) : List Nat :=
  let g (i : Nat) : Nat := v.getD i 0
  let e := g 4
  let a := g 0
  let ch := (e &&& g 5) ^^^ ((2 ^ 32 - 1 - e) &&& g 6)
  let t1 := g 7 + (rotr32 e 6 ^^^ rotr32 e 11 ^^^ rotr32 e 25) + ch + kw.1 + kw.2
  let t2 := (rotr32 a 2 ^^^ rotr32 a 13 ^^^ rotr32 a 22) + ((a &&& g 1) ^^^ (a &&& g 2) ^^^ (g 1 &&& g 2))
  [(t1 + t2) % 2 ^ 32, a, g 1, g 2, (g 3 + t1) % 2 ^ 32, e, g 5, g 6]

/-- One 64-byte block. -/
def shaBlock (h : List Nat) (block : List Byte) : List Nat :=
  let w := (shaSchedule 48 (beWords 16 block).reverse).reverse
  let v := (shaRounds.zip w).foldl shaRound h
  (h.zip v).map (fun q => (q.1 + q.2) % 2 ^ 32)

/-- `k` blocks in order. -/
def shaBlocks : Nat → List Nat → List Byte → List Nat
  | 0, h, _ => h
  | k + 1, h, bs => shaBlocks k (shaBlock h (bs.take 64)) (bs.drop 64)

/-- SHA-256. -/
def sha256 (m : List Byte) : List Byte :=
  let z := (119 - m.length % 64) % 64
  let p := m ++ [0x80#8] ++ List.replicate z 0#8 ++ (leBytes 8 (8 * m.length)).reverse
  (shaBlocks (p.length / 64) shaInit p).flatMap beBytes4

/-- HMAC-SHA-256 with a key of at most 64 bytes. -/
def hmac (key m : List Byte) : List Byte :=
  let k := key ++ List.replicate (64 - key.length) 0#8
  sha256 (k.map (· ^^^ 0x5c#8) ++ sha256 (k.map (· ^^^ 0x36#8) ++ m))

end Sys2Proof.Machine
end

