-- ==== Sys2Proof/Machine/HostOps.lean ====
section
/-! DEFINITION. Messages to hosts: their bytes, replies, notices, and where they go (R372, R383,
R388, R395, R411 to R414). -/

namespace Sys2Proof.Machine

/-- The hosts' state changed. -/
def State.modHost (s : State) (f : Hosts → Hosts) : State := { s with host := f s.host }

/-- Session `k` changed. -/
def State.modSess (s : State) (k : Fin 8) (f : Sess → Sess) : State := s.modHost (fun h => { h with sess := upd h.sess k f })

/-- Mailbox `m` changed. -/
def State.modMb (s : State) (m : Fin 16) (f : Mbox → Mbox) : State := s.modHost (fun h => { h with mb := upd h.mb m f })

/-- Host port `p` changed. -/
def State.modHp (s : State) (p : Fin 4) (f : HostPort → HostPort) : State := s.modHost (fun h => { h with port := upd h.port p f })

/-- Session `k`. -/
def State.sess (s : State) (k : Fin 8) : Sess := s.host.sess[k]

/-- The request mailbox of a session's pair (R382). -/
def mbReq (k : Fin 8) : Fin 16 := ⟨2 * k.val, by omega⟩

/-- The notice mailbox of a session's pair (R382). -/
def mbNotice (k : Fin 8) : Fin 16 := ⟨2 * k.val + 1, by omega⟩

/-- A message as bytes (R411, R412): `key` where it carries a tag. -/
def hostMsg (op flags status epoch seq reqSeq : Nat) (body : List Byte) (key : Option (List Byte)) : List Byte :=
  let len := 28 + body.length + (if key.isSome then 16 else 0)
  let m := [1#8, BitVec.ofNat 8 (flags + (if key.isSome then 4 else 0))] ++ leBytes 2 len ++ leBytes 2 op ++ leBytes 2 status ++
    leBytes 4 epoch ++ leBytes 4 seq ++ leBytes 4 0 ++ leBytes 4 reqSeq ++ body
  let t := match key with
    | none => m
    | some k => m ++ (hmac k m).take 16
  t ++ leBytes 4 (crc32c t)

/-- A message as the words of a mailbox, the last one padded (R412). -/
def msgWords : Nat → List Byte → List Nat
  | 0, _ => []
  | n + 1, bs => leNat (bs.take 4) :: msgWords n (bs.drop 4)

/-- The entries of a mailbox's reply queue in use (R383). -/
def Mbox.used (m : Mbox) : Nat := (m.rx.map List.length).sum - m.part

/-- A complete message put into a mailbox's reply queue, of 1,024 entries (R383). A request is
taken, and a notice posted,
only where it has room. -/
def State.mbPut (s : State) (m : Fin 16) (bs : List Byte) : State :=
  let ws := msgWords (ceilDiv bs.length 4) bs
  s.modMb m (fun x => if x.used + ws.length ≤ 1024 then { x with rx := x.rx ++ [ws] } else x)

/-- The IP address of a host port, of version 6 or 4 (R371, R408). -/
def State.hostIp (s : State) (e : Fin 2) (v6 : Bool) : Nat := if v6 then s.parN P.HOST_IPV6_ADDR e else s.parN P.HOST_IPV4_ADDR e

/-- The header of a message that a port sends to an endpoint, in the encapsulation of the endpoint's
own: from the port's own addresses
and HOST_UDP_PORT, with IPv4 DF set and TTL 64, or with IPv6 hop limit 64 (R372). -/
def State.ethHdr (s : State) (e : Fin 2) (ep : Endpoint) : EthHdr :=
  let mac := s.parN P.HOST_ETH_MAC e
  if ep.udp = 0 ∧ ep.ip = 0 then ⟨mac, s.parN P.HOST_ETHERTYPE e, 0, 0, false, 0⟩
  else ⟨mac, if ep.v6 then 0x86DD else 0x0800, s.hostIp e ep.v6, s.parN P.HOST_UDP_PORT e, !ep.v6, 64⟩

/-- A message sent at a port to an endpoint (R372). -/
def State.sendTo (s : State) (e : Fin 2) (ep : Endpoint) (bs : List Byte) : State :=
  s.modHost (fun h => { h with sent := h.sent ++ [⟨e.val, ep, some (s.ethHdr e ep), bs⟩] })

/-- The answer to ARP, an echo or a solicitation (R371). -/
def State.ethAnswer (s : State) (e : Fin 2) (ep : Endpoint) (bs : List Byte) : State :=
  s.modHost (fun h => { h with sent := h.sent ++ [⟨e.val, ep, none, bs⟩] })

/-- A reply or notice of a pair goes through the comparer to its mailbox, or as a frame to the
session's endpoint (R23, R372, R388). -/
def State.pairOut (s : State) (k : Fin 8) (notice : Bool) (bs : List Byte) : State :=
  (if 2 ≤ (s.sess k).port then s.mbPut (if notice then mbNotice k else mbReq k) bs
  else s.sendTo ⟨(s.sess k).port % 2, Nat.mod_lt _ (by omega)⟩ (s.sess k).ep bs).output 2

/-- The device's next sequence number of a session (R295, R395). -/
def Sess.nextSeq (x : Sess) : Nat := if 0xFFFFFFFF ≤ x.txSeq then 1 else x.txSeq + 1

/-- The last 8 replies of a session with a new one (R395). -/
def Sess.keep (x : Sess) (seq : Nat) (bs : List Byte) : List (Nat × List Byte) :=
  let l := x.stored ++ [(seq, bs)]
  l.drop (l.length - 8)

/-- A reply with the session's next sequence number, stored (R395, R412, R413). -/
def State.reply (s : State) (k : Fin 8) (op seq status : Nat) (tagged : Bool) (body : List Byte) : State :=
  let x := s.sess k
  let key := if tagged ∨ x.macEvery then some x.tagKey else none
  let bs := hostMsg op 1 status x.epoch x.nextSeq seq body key
  (s.modSess k (fun y => { y with txSeq := x.nextSeq, stored := y.keep seq bs })).pairOut k false bs

/-- The reply of a request that was answered later (R300, R402, R429); dropped where the session has ended. -/
def State.answer (s : State) (sess seq status : Nat) (body : List Byte) : State :=
  if h : sess < 8 then
    let k : Fin 8 := ⟨sess, h⟩
    match (s.sess k).out.find? (fun o => o.1 == seq) with
    | none => s
    | some o => (s.modSess k (fun y => { y with out := y.out.filter (fun q => q.1 != seq) })).reply k o.2.1 seq status o.2.2 body
  else s

/-- A notice to a session (R388, R414), and whether there was room for it. -/
def State.notice (s : State) (k : Fin 8) (op : Nat) (body : List Byte) : State × Bool :=
  let x := s.sess k
  if x.state ≠ .isOpen then (s, false)
  else
    let key := if x.macEvery then some x.tagKey else none
    let lost : Bool := decide (0 < x.lostNew)
    let bs := hostMsg op (2 + (if lost then 8 else 0)) 0 x.epoch x.nextSeq x.lostNew body key
    if 2 ≤ x.port ∧ 1024 < (s.host.mb[mbNotice k]).used + ceilDiv bs.length 4 then
      (s.modSess k (fun y => { y with noticeLost := bump y.noticeLost, lostNew := bump y.lostNew }), false)
    else ((s.modSess k (fun y => { y with txSeq := x.nextSeq, lostNew := 0 })).pairOut k true bs, true)

/-- A notice to every open session whose selection has a bit (R420, R433). -/
def State.noticeAll (s : State) (sel op : Nat) (body : List Byte) : State :=
  (fins 8).foldl (fun (t : State) (k : Fin 8) => if bit (t.sess k).mask sel then (t.notice k op body).1 else t) s

/-- The keys every slot of which is EMPTY (R378, R390). -/
def State.commissioning (s : State) : Bool := (fins 8).all (fun k => !s.host.key[k].prov)

/-- A permit as kept (R396). -/
def State.permit (s : State) (i : Nat) : Permit := SMap.get Permit.none i s.host.permit

/-- A permit changed. -/
def State.setPermit (s : State) (i : Nat) (p : Permit) : State :=
  s.modHost (fun h => { h with permit := SMap.set Permit.none i p h.permit })

/-- A session holds a permit (R397). -/
def State.holds (s : State) (k : Fin 8) (i : Nat) : Bool := (s.permit i).holder == some k

/-- A held permit's lease starts again (R397). -/
def State.renewPermit (s : State) (i : Nat) : State :=
  let p := s.permit i
  if p.holder.isSome then s.setPermit i { p with at_ := s.clk.tick } else s

/-- The leases of permits used by an accepted request start again (R397). -/
def State.useRenew (s : State) (is : List Nat) : State := is.foldl State.renewPermit s

/-- A key slot is locked out: for 60 s (R391). -/
def Key.locked (x : Key) (now : Nat) : Bool := match x.lockAt with
  | none => false
  | some t => decide (now < t + 15000000000)

/-- The permit check of R398: OK, NO_PERMIT or STALE_EPOCH. -/
def State.permitCheck (s : State) (k : Fin 8) (i pe : Nat) : Nat :=
  if s.holds k i then (if pe = 0 ∨ pe = (s.permit i).epoch then stOk else stStaleEpoch)
  else if pe = 0 then stNoPermit else stStaleEpoch

end Sys2Proof.Machine
end

