-- ==== Sys2Proof/Machine/Operands.lean ====
section
/-! DEFINITION. Conversions between codes, currents, voltages and times of the phase channels and
voltage-sense inputs, and who
belongs to whom (R14, R54, R56, R59, R60, R63 to R65, R68, R73, R75, R93, R95). -/

namespace Sys2Proof.Machine

/-- The die that holds a phase (R14). -/
def dieOf (p : Fin 48) : Fin 4 := ⟨p.val / 12, by omega⟩

/-- A phase belongs to a loop (R54). -/
def State.inLoop (s : State) (l : Fin 16) (p : Fin 48) : Bool := s.parN P.PHASE_LOOP p == l.val

/-- The loop a phase belongs to, if any (R54). -/
def State.loopOf (s : State) (p : Fin 48) : Option (Fin 16) :=
  let n := s.parN P.PHASE_LOOP p
  if h : n < 16 then some ⟨n, h⟩ else none

/-- The phases of a loop, in ascending number. -/
def State.phasesOf (s : State) (l : Fin 16) : List (Fin 48) := (fins 48).filter (s.inLoop l)

/-- The phases of a loop on one die. -/
def State.phasesOn (s : State) (d : Fin 4) (l : Fin 16) : List (Fin 48) := (s.phasesOf l).filter (fun p => dieOf p == d)

/-- The dies that hold a phase of a loop. -/
def State.diesOf (s : State) (l : Fin 16) : List (Fin 4) := (fins 4).filter (fun d => (s.phasesOf l).any (fun p => dieOf p == d))

/-- The phases of a die. -/
def phasesOfDie (d : Fin 4) : List (Fin 48) := (fins 48).filter (fun p => dieOf p == d)

/-- The enabled loop whose LOOP_VS_SEL names a voltage-sense input (R75, R92). -/
def State.loopOfVs (s : State) (v : Fin 16) : Option (Fin 16) :=
  (fins 16).find? (fun l => s.par P.LOOP_ENABLE l == 1 && s.parNowN P.LOOP_VS_SEL l == v.val)

/-- The input full scale in µV (R59). -/
def State.fsIn (s : State) (p : Fin 48) : Nat := 150000 / 2 ^ s.parN P.PHASE_CS_GAIN p

/-- A sense code as a current in mA, the measured offset subtracted (R59 to R61). -/
def State.senseMa (s : State) (p : Fin 48) (code : Int) : Int :=
  nearHalfAway ((code * s.fsIn p - s.ph[p].offset * 2048) * 1000) (2048 * s.par P.PHASE_CS_RSENSE p)

/-- The offset in µV that 64 sense codes average to (R61). -/
def State.offsetUv (s : State) (p : Fin 48) (sum : Int) : Int := nearHalfAway (sum * s.fsIn p) (2048 * 64)

/-- The peak-DAC code of a reference in µA for a pulse in a direction, with the offset, before it is
limited to the span (R61, R64). -/
def State.dacCode (s : State) (p : Fin 48) (d : Dir) (iRef : Int) : Int :=
  let ofs := if d = .rev then -s.ph[p].offset else s.ph[p].offset
  nearHalfDown ((iRef * s.par P.PHASE_CS_RSENSE p + ofs * 1000000) * 4096) (2 * s.fsIn p * 1000000)

/-- A reference in µA exceeds the span of the peak DAC (R64). -/
def State.pastSpan (s : State) (p : Fin 48) (iRef : Int) : Bool := decide (2 * s.fsIn p * 1000000 < iRef * s.par P.PHASE_CS_RSENSE p)

/-- The limit-DAC code of PHASE_ILIM folded back by `f` / 1,024 (R65, R127). The measured offset corrects
no limit reference: R65 writes the code without it, and R61 does not say which references it means
(DESIGN CHOICE, log entry 135). -/
def State.limCode (s : State) (p : Fin 48) (f : Nat) : Nat :=
  min 1023 (s.parNowN P.PHASE_ILIM p * f * s.parN P.PHASE_CS_RSENSE p / (1000 * s.fsIn p))

/-- The per-phase command in µA of a loop command shared by `n` phases (R63). -/
def State.perPhase (s : State) (p : Fin 48) (icmd : Int) (n : Nat) : Int :=
  if n = 0 then 0 else nearHalfAway (icmd * 1000 * (32768 + s.parNow P.PHASE_SHARE_TRIM p)) (32768 * n)

/-- The direction a per-phase command asks for (R68, R69): reverse only in BIDIR mode. -/
def State.cmdDir (s : State) (p : Fin 48) (iPh : Int) : Dir :=
  if s.par P.PHASE_MODE p = 2 ∧ iPh < 0 then .rev else .fwd

/-- PWMH is the controlled output in a direction (R68). -/
def State.ctlIsHigh (s : State) (p : Fin 48) (d : Dir) : Bool :=
  if s.par P.PHASE_MODE p = 0 then true
  else if s.par P.PHASE_MODE p = 1 then false
  else (s.par P.PHASE_BIDIR_FWD p == 0) == (d == .fwd)

/-- The slopes of a phase in a direction (R69). -/
def Phase.sl (x : Phase) (d : Dir) : Slopes := match d with | .fwd => x.slF | .rev => x.slR

/-- A phase with its slopes in a direction changed. -/
def Phase.modSl (x : Phase) (d : Dir) (f : Slopes → Slopes) : Phase :=
  match d with | .fwd => { x with slF := f x.slF } | .rev => { x with slR := f x.slR }

/-- The ramp slope asked for in 0.00001 mV/µs and whether it comes from a measurement (R69, R71, R72). -/
def State.rampAsked (s : State) (p : Fin 48) (d : Dir) : Int × Bool :=
  let sl := s.ph[p].sl d
  if s.parNow P.PHASE_RAMP_ADAPT p = 0 ∨ sl.fallen then (s.parNow P.PHASE_RAMP_INIT p * 1000, false)
  else match sl.use with
    | none => (s.parNow P.PHASE_RAMP_INIT p * 1000, false)
    | some f => (nearHalfAway (s.parNow P.PHASE_RAMP_MULT p * f * s.par P.PHASE_CS_RSENSE p) 1280000, true)

/-- PHASE_RAMP_NOW, to the nearest 0.01 mV/µs (R87). -/
def State.rampNow (s : State) (p : Fin 48) : Nat := (s.ph[p].ramp + 500) / 1000

/-- PHASE_CS_OFFSET: the measured offset, saturated to the 16 bits of its type (R87; DESIGN CHOICE, log entry 121). -/
def State.csOffset (s : State) (p : Fin 48) : Int := satS 16 s.ph[p].offset

/-- The correction term of R63 in µA: S_e × t_on + ½ × S_n × t_on of the previous pulse in the direction. -/
def State.avgCorr (s : State) (p : Fin 48) (d : Dir) (ramp : Nat) : Int :=
  if s.parNow P.PHASE_AVG_CORR p = 0 then 0
  else
    let sl := s.ph[p].sl d
    nearHalfAway ((ramp : Int) * 10000 * sl.tOn) (s.par P.PHASE_CS_RSENSE p * 8000)
      + nearHalfAway (sl.up.getD 0 * sl.tOn) 16000

/-- P₀ in 125 ps (R73). -/
def State.centreP (s : State) (l : Fin 16) : Nat := (nearHalfDown 8000000000 (s.parNow P.LOOP_FSW l)).toNat

/-- The position in the triangle at `e` steps of 125 ps after the entry, from -20,000,000 to 20,000,000 (R73). -/
def triangle (rate e : Nat) : Int :=
  let q := e * rate % 80000000
  if q < 20000000 then q else if q < 60000000 then 40000000 - q else (q : Int) - 80000000

/-- The period in 125 ps at the spread-spectrum position of a loop (R73, R74). -/
def State.periodNow (s : State) (l : Fin 16) : Nat :=
  let f0 := s.parNow P.LOOP_FSW l
  let dev := s.parNow P.LOOP_SS_DEV l
  let t := s.loop[l].tm
  if s.parNow P.LOOP_SS_MODE l = 1 then
    (nearHalfDown (8000000000 * 4000000000) (f0 * (4000000000 + dev * triangle (s.parNowN P.LOOP_SS_RATE l) t.ssElapsed))).toNat
  else if s.parNow P.LOOP_SS_MODE l = 2 then
    (nearHalfDown (8000000000 * 51000) (f0 * (51000 - 255 * dev + 2 * t.ssStep * dev))).toNat
  else s.centreP l

/-- One step of the 16-bit Galois LFSR of R73. -/
def lfsrStep (v : Nat) : Nat := if v % 2 = 1 then (v / 2) ^^^ 0xB400 else v / 2

/-- The seed of a loop's LFSR (R73, R136). -/
def lfsrSeed (l : Fin 16) (seed : Nat) : Nat := if seed = 0 then l.val + 1 else seed

/-- The start of slot `k` of `n` in 125 ps, ties down (R56). -/
def slotStart (p n k : Nat) : Nat := (nearHalfDown (k * p) n).toNat

/-- The code a pin voltage in µV converts to (R93). -/
def vsCode (pin : Int) : Nat := (clampI 0 16383 (nearHalfDown (pin * 16384) 1200000)).toNat

/-- The node voltage in mV of `n` conversions that sum to `sum` (R93, R94), rounded once, a half
away from zero (DESIGN CHOICE, log entry
10). -/
def State.nodeMv (s : State) (v : Fin 16) (sum n : Nat) : Int :=
  if n = 0 then 0 else nearHalfAway ((sum : Int) * 1200000 * s.parNow P.PHASE_VS_RATIO v) (16384 * n * 1000000)

/-- A window level in steps of the 12-bit DAC (R75). A level exactly halfway between two steps takes
the upper one (DESIGN CHOICE, log
entry 10). -/
def winStep (uv : Int) : Int := min 4095 (nearHalfAway (uv * 4096) 1200000)

/-- The phase die that holds a voltage-sense input (R14, R16). -/
def vsDie (v : Fin 16) : Fin 4 := ⟨v.val / 4, by omega⟩

/-- A phase die is powered and out of reset (R19, R82). -/
def State.dieOn (s : State) (d : Fin 4) : Bool := !s.die[d].off && !s.die[d].held && !s.die[d].supplyLow

/-- The overshoot side of an input's window is enabled (R75). -/
def State.ovsEn (s : State) (v : Fin 16) : Bool := s.parNow P.PHASE_VS_WIN_EN v == 1 || s.parNow P.PHASE_VS_WIN_EN v == 3

/-- The undershoot side of an input's window is enabled (R75). -/
def State.uvsEn (s : State) (v : Fin 16) : Bool := decide (2 ≤ s.parNow P.PHASE_VS_WIN_EN v)

/-- The pin has crossed the overshoot level of an input (R75). -/
def State.overOvs (s : State) (v : Fin 16) (pin : Int) : Bool := decide (winStep (s.parNow P.PHASE_VS_OVS v) * 1200000 ≤ pin * 4096)

/-- The pin is back at the release level of the overshoot window (R75). -/
def State.ovsOver (s : State) (v : Fin 16) (pin : Int) : Bool :=
  decide (pin * 4096 ≤ winStep (s.parNow P.PHASE_VS_OVS v) * 1200000 - s.parNow P.PHASE_VS_HYST v * 4096)

/-- The pin has crossed the undershoot level of an input (R75). -/
def State.underUvs (s : State) (v : Fin 16) (pin : Int) : Bool := decide (pin * 4096 ≤ winStep (s.parNow P.PHASE_VS_UVS v) * 1200000)

/-- The pin is back at the release level of the undershoot window (R75). -/
def State.uvsOver (s : State) (v : Fin 16) (pin : Int) : Bool :=
  decide (winStep (s.parNow P.PHASE_VS_UVS v) * 1200000 + s.parNow P.PHASE_VS_HYST v * 4096 ≤ pin * 4096)

/-- Every die that holds a phase of the loop is ARMED or RUN, and a phase is in service (R106, R109). -/
def State.canStart (s : State) (l : Fin 16) : Bool :=
  (s.diesOf l).all (fun d => s.die[d].state != .safe) && (s.phasesOf l).any (fun p => s.ph[p].inService)

/-- The ARM bit Eddy gives a loop (R106). -/
def State.armOf (s : State) (l : Fin 16) : Bool :=
  s.parNow P.LOOP_HOLDUP_EN l == 1 &&
    (match s.loop[l].ct.state with
     | .starting => true
     | .running => true
     | .stopped => s.canStart l
     | .hiccupOff => false
     | .faulted => false)

/-- The loop is STARTING or RUNNING. -/
def State.live (s : State) (l : Fin 16) : Bool := s.loop[l].ct.state == .starting || s.loop[l].ct.state == .running

/-- A replaced value that phase `p` takes at its next period start (R55). -/
def lagOfPhase (p : Fin 48) (k : Nat) : Bool := decide (0x0C00 ≤ k / 65536 ∧ k / 65536 < 0x0C20) && k % 65536 == p.val

/-- A replaced value that die `d` takes at the next period start of one of its phases (R55). -/
def lagOfDie (d : Fin 4) (k : Nat) : Bool := k == 0x0C20 * 65536 + d.val

/-- A replaced value that loop `l` takes at its next loop period start: its switching parameters and
the window of its voltage-sense
input (R55, R89). -/
def State.lagOfPeriod (s : State) (l : Fin 16) (k : Nat) : Bool :=
  let id := k / 65536
  (decide (0x10C0 ≤ id ∧ id ≤ 0x10C4) && k % 65536 == l.val) ||
    (decide (0x0C80 ≤ id ∧ id ≤ 0x0C84) && k % 65536 == s.parNowN P.LOOP_VS_SEL l)

/-- A replaced value that Eddy takes at the next sample of loop `l`: those of its own chapters, HOLD_STRING,
HOLD_IMIN and HOLD_RETURN_SLEW (R25, R404). -/
def lagOfSample (l : Fin 16) (k : Nat) : Bool :=
  let id := k / 65536
  let i := if 0x1410 ≤ id ∧ id ≤ 0x1416 then k % 65536 / 8 else k % 65536
  (decide (0x1000 ≤ id ∧ id < 0x1C00) && !decide (0x10C0 ≤ id ∧ id ≤ 0x10C4) || decide (id = 0x2407 ∨ id = 0x2409 ∨ id = 0x240D)) && i == l.val

/-- A boundary: the values of a commit replace those that `f` names (R25, R404). -/
def State.lagTake (s : State) (f : Nat → Bool) : State := { s with lag := s.lag.filter (fun q => !f q.1) }

/-- The consumer of a parameter is at work and takes a change at its own boundary (R25, R55, R404). -/
def State.lagKeeps (s : State) (k : Nat) : Bool :=
  (fins 48).any (fun p => lagOfPhase p k && s.ph[p].slot.isSome && s.die[dieOf p].state == .run) ||
    (fins 4).any (fun d => lagOfDie d k && s.die[d].state == .run) ||
    (fins 16).any (fun l => s.live l && (s.lagOfPeriod l k || lagOfSample l k))

/-- The values in force before a commit that its consumers go on using until their boundaries (R25, R55, R404). -/
def State.lagAdd (s : State) (ks : List Nat) : State :=
  ks.foldl (fun (t : State) k => if s.lagKeeps k ∧ SMap.find k t.lag = none then
    match findParam (k / 65536) with
    | none => t
    | some p => { t with lag := SMap.insert k (s.par p (k % 65536)) t.lag }
  else t) s

/-- The shed mask of a loop as phases: bit n for PHn. -/
def maskHas (m : Nat) (p : Fin 48) : Bool := bit m p.val

/-- The phases that take slots: in service, not SHED (R56). -/
def State.activeOf (s : State) (l : Fin 16) : List (Fin 48) :=
  (s.phasesOf l).filter (fun p => s.ph[p].inService && s.ph[p].shed != .shed)

/-- The loop's CURRENT sample: the sum over its active phases of each phase's average over the period (R91). -/
def State.loopCurrent (s : State) (l : Fin 16) : Int := sumI (s.activeOf l) (fun p => s.pst[p].iAvg)

/-- The over-current mode for a loop's set (R129). -/
def State.ocModeOf (s : State) (l : Fin 16) (region : Nat) : Nat :=
  if region = 4 then s.parNowN P.LOOP_OC_MODE_HU l else s.parNowN P.LOOP_OC_MODE l

/-- The over-current mode in force; a change of it sets the count to 0 and keeps the retries (R129). -/
def State.ocModeStep (s : State) (l : Fin 16) : State :=
  let m := s.ocModeOf l s.loop[l].ct.region
  if m = s.loop[l].oc.mode then s
  else s.modOc l (fun o => { o with mode := m, count := 0, hist := [], st := if o.st = .counting then .watch else o.st })

/-- A sample in mV has reached 10 % of the set point in the direction of the ramp (R125). -/
def State.shortReached (s : State) (l : Fin 16) (y : Int) : Bool :=
  let sp := s.parNow P.LOOP_SETPOINT l
  if 0 < sp then decide (sp ≤ 10 * y) else if sp < 0 then decide (10 * y ≤ sp) else true

end Sys2Proof.Machine
end

