-- ==== Sys2Proof/Machine/FaultPins.lean ====
section
/-! DEFINITION. The FAULT pins: their sources and what a change of them does (R143, R144, R149). -/

namespace Sys2Proof.Machine

/-- A loop counts for FAULT pin `m` (R143). -/
def State.faultLoop (s : State) (m : Fin 4) (l : Fin 16) : Bool := bit (s.parN P.DEV_FAULT_LOOPS m) l

/-- Some loop selected for pin `m` satisfies `f`. -/
def State.anyLoop (s : State) (m : Fin 4) (f : Fin 16 → Bool) : Bool := (fins 16).any (fun l => s.faultLoop m l && f l)

/-- One stem is ACTIVE and the other STANDBY (R443, R463). -/
def State.inStep (s : State) : Bool := s.stemOk 0 && s.stemOk 1

/-- The sources active for FAULT pin `m`, as DEV_FAULT_SRC numbers them, selected or not; those of
the Bank die as their stamped inputs
gave them (R143, R181). -/
def State.faultActive (s : State) (m : Fin 4) : Nat :=
  let src : List Bool := [
    s.anyLoop m (fun l => s.loop[l].ct.state == .faulted),
    s.anyLoop m (fun l => s.loop[l].ct.state == .hiccupOff),
    s.anyLoop m (fun l => s.par P.LOOP_ENABLE l == 1 && !s.loop[l].eb.pgPin),
    (fins 4).any (fun d => s.die[d].state == .safe && (fins 16).any (fun l => s.par P.LOOP_ENABLE l == 1 && (s.diesOf l).contains d)),
    s.anyLoop m (fun l => s.loop[l].eb.imbalance),
    (fins 8).any (fun d => s.therm.die[d].st != .run),
    (fins 2).any (fun f => s.bank.seen.feed[f].state == .tripped || s.bank.seen.feed[f].state == .lockout),
    s.bank.seenLine,
    (fins 16).any (fun l => s.loop[l].ct.region == 4),
    !s.inStep,
    s.pool.slot.any (fun q => q.2.act && bit q.2.pins m.val),
    s.brownWarn]
  (src.zipIdx.map (fun q => if q.1 then 2 ^ q.2 else 0)).sum

/-- The selected sources active for FAULT pin `m` (R143). -/
def State.faultSources (s : State) (m : Fin 4) : Nat := s.faultActive m &&& s.parN P.DEV_FAULT_SRC m

/-- One pin after a change of its sources (R144): FOLLOW follows them, LATCH holds an assertion;
each assertion is logged. -/
def State.faultPinStep (s : State) (m : Fin 4) : State :=
  let act := s.faultSources m
  let was := s.fault.pin[m]
  let now := if act ≠ 0 then true else if s.par P.DEV_FAULT_MODE m = 1 then was else false
  let s1 := { s with fault := { s.fault with pin := s.fault.pin.set m.val now m.isLt } }
  if now && !was then s1.log 0x0530 m.val act else s1

/-- The FAULT pins after any change of a source; from a reset until DEV_FAULT_SRC is applied they
stay asserted (R144). -/
def State.faultScan (s : State) : State := if s.fault.hold then s else (fins 4).foldl State.faultPinStep s

end Sys2Proof.Machine
end

