-- ==== Sys2Proof/Machine/Slope.lean ====
section
/-! DEFINITION. Slope measurement of the phase channels (R62, R71, R86). -/

namespace Sys2Proof.Machine

/-- The slope in µA/µs that usable samples (mA, 100 ns apart) yield, if there are at least four (R71). -/
def slopeOf (u : List Int) : Option Int :=
  let h := u.length / 2
  if u.length < 4 then none
  else some (floorDiv ((sumI (u.drop (u.length - h)) id - sumI (u.take h) id) * 10000) (h * h))

/-- One filter step of a slope; the first measurement sets it outright (R71). -/
def slopeFilter (avg : Nat) (old : Option Int) (new : Int) : Int := match old with
  | none => new
  | some o => o + floorDiv (new - o) (2 ^ avg)

/-- The slopes of a phase after a period of length `per` in which its last pulse ran in direction
`d` (R62, R71). A DCM period whose
off-interval yields a slope is measured like any other: the rule keeps the last ramp where there is
none (DEDUCED, log entry 120). -/
def State.slopesAfter (s : State) (p : Fin 48) (d : Dir) (per : Nat) : Slopes × Bool :=
  let x := s.ph[p]
  let sl := x.sl d
  let sg : Int := if d = .rev then -1 else 1
  let guard := s.parNowN P.PHASE_MEAS_GUARD p
  let zc := s.parNow P.PHASE_ZC_LEVEL p
  let avg := s.parNowN P.PHASE_SLOPE_AVG p
  let on := (x.onS.filter (fun q => decide (guard < q.1 ∧ q.1 + guard < sl.tOn ∧ s.parNowN P.PHASE_BLANK p ≤ q.1 ∧ zc < sg * q.2))).map
    (fun q => sg * q.2)
  let off := (x.offS.filter (fun q => decide (sl.tOn + guard < q.1 ∧ q.1 + guard < per ∧ zc < sg * q.2))).map (fun q => sg * q.2)
  let up := (slopeOf on).map (slopeFilter avg sl.up)
  let up' := match up with | some u => some u | none => sl.up
  match slopeOf off with
  | some m =>
    let f := slopeFilter avg sl.down (-m)
    ({ sl with up := up', down := some f, use := some f, bad := 0, fallen := false }, false)
  | none =>
    match x.dcmNow, up, up' with
    | false, some _, some u =>
      if sl.tOn < per then
        ({ sl with up := up', use := some (floorDiv (u * sl.tOn) ((per : Int) - sl.tOn)), bad := 0, fallen := false }, true)
      else ({ sl with up := up', bad := sl.bad + 1, fallen := sl.fallen || decide (256 ≤ sl.bad + 1) }, false)
    | _, _, _ => ({ sl with up := up', bad := sl.bad + 1, fallen := sl.fallen || decide (256 ≤ sl.bad + 1) }, false)

/-- A phase's own period closes at its next one: slopes, DCM, SLOPE_FALLBACK; the values of a commit
are taken (R55, R71, R86). -/
def State.closeSlopes (s : State) (p : Fin 48) (per : Nat) : State :=
  let x := s.ph[p]
  let d := x.pl.lastDir
  let m := s.slopesAfter p d per
  let adapt : Bool := s.parNow P.PHASE_RAMP_ADAPT p == 1
  let s1 := (s.modPh p (fun y => { (if adapt then y.modSl d (fun _ => m.1) else y) with
    fallback := adapt && m.2, dcm := y.dcmNow, dcmNow := false, onS := [], offS := [] })).lagTake (lagOfPhase p)
  if adapt && m.1.fallen && !(x.sl d).fallen then s1.log 0x0306 p.val (if d = .fwd then 0 else 1) else s1

end Sys2Proof.Machine
end

