-- ==== Sys2Proof/Machine/PulseOps.lean ====
section
/-! DEFINITION. Shared operations of the phase channels and phase dies: pulses and pins, references,
command frames, the safe
state (R53 to R86, R106, R195, R537). -/

namespace Sys2Proof.Machine

/-- An output driven, PWMH (`high`) or PWML: turning one on turns the other off, so that both are
never high together (R70). -/
def Pulse.driven (x : Pulse) (high go : Bool) : Pulse :=
  if high then { x with pwmh := go, pwml := x.pwml && !go } else { x with pwml := go, pwmh := x.pwmh && !go }

/-- An output of a phase driven; in SAFE no output is turned on (R82). -/
def State.driveOut (s : State) (p : Fin 48) (high on : Bool) : State :=
  s.modPl p (fun x => x.driven high (on && s.die[dieOf p].state != .safe))

/-- The controlled output of a phase in a direction driven to `on` (R68). -/
def State.setCtl (s : State) (p : Fin 48) (d : Dir) (on : Bool) : State := s.driveOut p (s.ctlIsHigh p d) on

/-- The synchronous output of a phase in a direction driven to `on` (R68). -/
def State.setSync (s : State) (p : Fin 48) (d : Dir) (on : Bool) : State := s.driveOut p (!s.ctlIsHigh p d) on

/-- The synchronous output of a phase in a direction. -/
def State.syncOn (s : State) (p : Fin 48) (d : Dir) : Bool :=
  if s.ctlIsHigh p d then s.ph[p].pl.pwml else s.ph[p].pl.pwmh

/-- Both outputs of a phase low, no pulse and no pending edge (R55, R82). -/
def State.outputsLow (s : State) (p : Fin 48) : State :=
  s.modPl p (fun x => { x with
    pulse := none, forced := false, regBlank := false, limBlank := false, tonMin := false, tripWaits := false
    held := false, heldForced := false, dead := .none, pwmh := false, pwml := false })

/-- A hold condition of R99 seen in a direction. -/
def State.holdSeen (s : State) (p : Fin 48) (d : Dir) : State :=
  match s.loopOf p with
  | none => s
  | some l => match d with
    | .fwd => s.modLoop l (fun x => { x with fwdHold := true })
    | .rev => s.modLoop l (fun x => { x with revHold := true })

/-- The DAC code of a phase's reference: |I_ph| plus the correction term, the highest code past the span (R63, R64). -/
def State.refCodeOf (s : State) (p : Fin 48) : Int :=
  let x := s.ph[p]
  if s.pastSpan p (x.iPh.natAbs + x.corr) then 4095 else s.dacCode p (x.pl.pulse.getD (s.cmdDir p x.iPh)) (x.iPh.natAbs + x.corr)

/-- The phase's reference from its per-phase command: |I_ph| plus the correction term fixed at the
pulse, as a DAC code; a reverse
pulse that a preload met keeps a zero reference (R63, R64, R195). -/
def State.formRef (s : State) (p : Fin 48) : State :=
  let x := s.ph[p]
  let past := s.pastSpan p (x.iPh.natAbs + x.corr)
  let s' := s.modPh p (fun x => { x with
    refCode := if x.pl.zeroRef then 0 else (clampI 0 4095 (s.refCodeOf p)).toNat, refClamp := x.refClamp || past })
  if past then s'.holdSeen p (s.cmdDir p x.iPh) else s'

/-- A new loop command shared by `n` phases reaches a phase (R63). -/
def State.formIph (s : State) (p : Fin 48) (icmd : Int) (n : Nat) : State :=
  (s.modPh p (fun x => { x with iPh := s.perPhase p icmd n })).formRef p

/-- A pulse of a phase starts in a direction: the ramp of the pulse, its reference, blanking and the controlled output
(R56, R63, R66, R70, R72). The samples of a slot pulse and of a forced pulse of one period are taken
together, under the on-time of the last one: R71 does not say which is measured (DESIGN CHOICE, log entry 135). -/
def State.startPulse (s : State) (p : Fin 48) (d : Dir) (forced : Bool) (number : Nat) : State :=
  let asked := s.rampAsked p d
  let lo := s.parNow P.PHASE_RAMP_MIN p * 1000
  let ramp := (if asked.2 then clampI lo 40000000 asked.1 else asked.1).toNat
  let clamped : Bool := asked.2 && decide (asked.1 < lo ∨ 40000000 < asked.1)
  let s1 := s.modPh p (fun x => { x with
    ramp := ramp, rampClamp := x.rampClamp || clamped, corr := s.avgCorr p d ramp
    pl := { x.pl with
      pulse := some d, forced := forced, regBlank := true, limBlank := true, tonMin := true, tripWaits := false
      held := false, heldForced := false, zeroRef := false, dead := .none, onTick := s.clk.tick, period := number, lastDir := d } })
  let s2 := if clamped then s1.log 0x0305 p.val (nearHalfAway asked.1 1000) else s1
  let s3 := ((s2.setSync p d false).setCtl p d true).formRef p
  if forced then s3.holdSeen p .fwd else s3

/-- The number of the running period of a phase's loop. -/
def State.periodNo (s : State) (p : Fin 48) : Nat := match s.loopOf p with
  | none => 0
  | some l => s.loop[l].tm.number

/-- A limit report held back by a pulse of its period is completed once no phase of its die still runs one (R121). -/
def State.settleReport (s : State) (p : Fin 48) (number : Nat) (byLimit : Bool) : State :=
  match s.loopOf p with
  | none => s
  | some l =>
    let busy := (s.phasesOn (dieOf p) l).any (fun q => s.ph[q].pl.pulse.isSome && s.ph[q].pl.period == number)
    s.modOc l (fun o => { o with reps := o.reps.map (fun r =>
      if r.die = dieOf p ∧ r.period = number ∧ r.waits then { r with limited := r.limited || byLimit, waits := busy } else r) })

/-- The die of a phase has the phase's loop running (R82, R109). -/
def State.dieRuns (s : State) (p : Fin 48) : Bool := match s.loopOf p with
  | none => false
  | some l => s.die[dieOf p].state == .run && s.die[dieOf p].lp[l].run

/-- The pulse of a phase ends after `t` (125 ps): the controlled output falls, the minimum off-time
starts and, unless the output
mode forbids it or the loop has stopped, the dead time before the synchronous switch (R53, R63, R66, R70, R82). -/
def State.endPulse (s : State) (p : Fin 48) (t : Nat) (byLimit : Bool) : State :=
  match s.ph[p].pl.pulse with
  | none => s
  | some d =>
    let number := s.ph[p].pl.period
    let sync : Bool := s.parNow P.PHASE_OUT_MODE p != 1 && s.dieRuns p
    let s1 := (s.setCtl p d false).modPh p (fun x => { (x.modSl d (fun y => { y with tOn := t })) with
      limitedNow := x.limitedNow || (byLimit && number == s.periodNo p)
      pl := { x.pl with
        pulse := none, forced := false, regBlank := false, limBlank := false, tonMin := false, tripWaits := false
        toff := true, toffAt := s.clk.tick, toffLen := s.parNowN P.PHASE_TOFF_MIN p, zeroRef := false
        dead := if sync then .sync else .none, deadAt := s.clk.tick, deadLen := s.parNowN P.PHASE_DT_FALL p } })
    s1.settleReport p number byLimit

/-- How long the pulse in progress has lasted, in 125 ps, by the tick. -/
def State.pulseAge (s : State) (p : Fin 48) : Nat := (s.clk.tick - s.ph[p].pl.onTick) * 32

/-- The window of the voltage-sense input that a phase's loop selects (R75): its overshoot where
`above`, else its undershoot. -/
def State.inWindow (s : State) (p : Fin 48) (above : Bool) : Bool := match s.loopOf p with
  | none => false
  | some l =>
    let v := s.parNowN P.LOOP_VS_SEL l
    if h : v < 16 then
      s.loopOfVs ⟨v, h⟩ == some l && (if above then s.vs[v].ovs && s.ovsEn ⟨v, h⟩ else s.vs[v].uvs && s.uvsEn ⟨v, h⟩)
    else false

/-- The voltage-sense input of a phase's loop is in overshoot (R76). -/
def State.inOvs (s : State) (p : Fin 48) : Bool := s.inWindow p true

/-- The voltage-sense input of a phase's loop is in undershoot (R77). -/
def State.inUvs (s : State) (p : Fin 48) : Bool := s.inWindow p false

/-- The stop of a phase's loop has reached its die: it begins no new pulse (R109). -/
def State.stops (s : State) (p : Fin 48) : Bool := match s.loopOf p with
  | none => false
  | some l => s.die[dieOf p].lp[l].stopping

/-- The undershoot-forced pulse of a phase (R70, R77): none in overshoot, and none once a stop has
reached the die (R76, R109). -/
def State.forcePulse (s : State) (p : Fin 48) : State :=
  if s.ph[p].inService ∧ s.dieRuns p ∧ s.ph[p].calPending = none then
    let s0 := if s.ph[p].pl.pulse = some .rev then s.endPulse p (s.pulseAge p) false else s
    if s0.inOvs p ∨ s0.stops p then s0
    else if s0.ph[p].pl.pulse = some .fwd then (s0.modPl p (fun x => { x with forced := true, tripWaits := false })).holdSeen p .fwd
    else if s0.ph[p].pl.toff then s0.modPl p (fun x => { x with heldForced := true })
    else if s0.ph[p].pl.pwmh ∨ s0.ph[p].pl.pwml then
      s0.modPl p (fun x => { x with
        pwmh := false, pwml := false, dead := .controlled, heldForced := true, deadAt := s.clk.tick, deadLen := s.parNowN P.PHASE_DT_RISE p })
    else s0.startPulse p .fwd true (s0.periodNo p)
  else s

/-- A phase may have a period now (R55, R61, R82, R134): its loop runs at its die, it has a slot and
is in service and ACTIVE. -/
def State.switches (s : State) (p : Fin 48) (l : Fin 16) : Bool :=
  let x := s.ph[p]
  s.dieRuns p && x.slot.isSome && x.inService && x.calPending.isNone && x.shed == .active && !s.die[dieOf p].lp[l].stopping

/-- The limit codes of a phase with the fold-back factor its die holds; the reverse limit is not folded (R65, R127). -/
def State.limSet (s : State) (p : Fin 48) (l : Fin 16) : State :=
  s.modPh p (fun x => { x with limCodeF := s.limCode p s.die[dieOf p].lp[l].factor, limCodeR := s.limCode p 1024 })

/-- The start of a phase's own period: its last one closes, with the values of a commit taken, and
its limit codes are formed; the die takes PHASE_CMD_WDOG with the first of its phases (R55, R71, R127;
DEDUCED, log entry 120). -/
def State.slotOpen (s : State) (p : Fin 48) (l : Fin 16) : State :=
  ((s.closeSlopes p s.loop[l].tm.pLast).limSet p l).lagTake (lagOfDie (dieOf p))

/-- A phase's slot start at a zero command (R67, R70): in BIDIR and in ASYNC mode both outputs low, in
SYNC mode the synchronous switch on, which a dead time still running turns on at its end. -/
def State.zeroStart (s : State) (p : Fin 48) : State :=
  if s.par P.PHASE_MODE p = 2 then s.modPl p (fun y => { y with pwmh := false, pwml := false, dead := .none })
  else if s.parNow P.PHASE_OUT_MODE p = 0 then (if s.ph[p].pl.dead = .sync then s else s.setSync p .fwd true)
  else if s.parNow P.PHASE_OUT_MODE p = 1 then s.modPl p (fun y => { y with pwmh := false, pwml := false, dead := .none })
  else s

/-- A phase's scheduled slot start (R55 to R57, R66, R67, R76, R134): delayed to the end of its
minimum off-time, else its last period
closes, its limit codes are formed (R127) and a pulse starts where the phase may start one and no forced
pulse waits for PHASE_DT_RISE (R70, R77); at a
zero command the synchronous switch stays on in BUCK and BOOST, and both
outputs stay low in BIDIR, from the phase's own period start (DEDUCED, log entry 120). -/
def State.slotStartOf (s : State) (p : Fin 48) : State :=
  match s.loopOf p with
  | none => s
  | some l =>
    if s.switches p l = false then s
    else if s.ph[p].pl.pulse.isSome || s.ph[p].pl.toff then s.modPl p (fun y => { y with held := true })
    else
      let t := s.slotOpen p l
      let x := t.ph[p]
      if x.pl.dead = .controlled then t
      else if x.iPh = 0 then t.zeroStart p
      else if t.cmdDir p x.iPh = .fwd ∧ t.inOvs p then t
      else t.startPulse p (t.cmdDir p x.iPh) false t.loop[l].tm.number

/-- A die whose phases have no period to come takes the values of a commit at once (R55). -/
def State.dieLag (s : State) (d : Fin 4) : State :=
  s.lagTake (fun k => lagOfDie d k || (phasesOfDie d).any (fun p => lagOfPhase p k))

/-- All outputs of a die low and everything it holds of the loops discarded (R82, R108). -/
def State.dieClear (s : State) (d : Fin 4) : State :=
  let s1 := (phasesOfDie d).foldl (fun s p => (s.outputsLow p).modPh p (fun x => { x with
    iPh := 0, corr := 0, refCode := 0, shed := .active, hot := false, shedPeriods := 0, calPending := none })) s
  (s1.dieLag d).modDie d (fun x => { x with lp := Vector.replicate 16 DieLoop.reset, goodFrame := false, parityRun := 0 })

/-- The filtered slopes of a die's phases discarded (R71, R82). -/
def State.dieForget (s : State) (d : Fin 4) : State :=
  (phasesOfDie d).foldl (fun s p => s.modPh p (fun x => { x with slF := Slopes.reset, slR := Slopes.reset })) s

/-- A die in ARMED or RUN enters SAFE for a cause of 0 to 3, which it logs and reports (R82, R90, R537). -/
def State.enterSafe (s : State) (d : Fin 4) (cause : Nat) : State :=
  if s.die[d].state = .safe then s
  else ((s.dieClear d).modDie d (fun x => { x with
      state := .safe, ran := true, safeAt := s.clk.tick, reports := x.reports ++ [.safeEntry cause] })).log 0x0301 d.val cause

/-- A die goes to SAFE for a supply or a reset: outputs low, commands and slopes discarded, with no
record yet (R82, R84). -/
def State.dieDown (s : State) (d : Fin 4) : State :=
  let was : Bool := s.die[d].state != .safe
  ((s.dieClear d).dieForget d).modDie d (fun x => { x with
    state := .safe, ran := x.ran || was, safeAt := if was then s.clk.tick else x.safeAt, lowRan := x.lowRan || was })

/-- A die in RUN with no loop left running is ARMED again (R82). -/
def State.dieSettle (s : State) (d : Fin 4) : State :=
  if s.die[d].state = .run ∧ (fins 16).all (fun l => !s.die[d].lp[l].run) then
    (s.dieLag d).modDie d (fun x => { x with state := .armed })
  else s

/-- The phases of a loop on a die stop at once (R109). -/
def State.stopAtOnce (s : State) (d : Fin 4) (l : Fin 16) : State :=
  (((s.phasesOn d l).foldl State.outputsLow s).modLp d l (fun x => { x with run := false, stopping := false, icmd := 0 })).dieSettle d

/-- The N_act a die counts for a loop's per-phase command: the loop's active phases, or every phase
in service from the preload to the
next period start, which re-adds the shed ones (R56, R63, R195). -/
def State.shareOf (s : State) (d : Fin 4) (l : Fin 16) : Nat :=
  if s.die[d].lp[l].shareAll then ((s.phasesOf l).filter (fun p => s.ph[p].inService)).length else s.loop[l].eb.nAct

/-- A good frame for a loop takes effect at a die (R63, R82, R106, R108, R127, R134, R135). -/
def State.frameIn (s : State) (d : Fin 4) (l : Fin 16) (f : CmdFrame) : State :=
  if s.die[d].state = .safe then s
  else if s.die[d].lp[l].accept ∧ ¬ f.hu ∧ ¬ f.exit then s
  else
    let s1 := s.modLp d l (fun x => { x with
      icmd := f.icmd, seq := f.seq, preload := f.preload, arm := f.arm, factor := f.factor
      accept := x.accept && !f.exit
      hu := f.hu && !f.exit
      ignoreShed := x.ignoreShed && !f.abortSeen
      maskNext := if x.ignoreShed ∧ ¬ f.abortSeen then 0 else f.shedMask
      slopeSeen := x.slopeSeen || f.slope
      run := x.run || f.start
      stopping := (x.stopping && !f.start) || (f.stop == .boundary && x.run) })
    let s2 := if f.start then
        ((s1.phasesOn d l).foldl (fun s p => ((s.outputsLow p).limSet p l).modPh p (fun x => { x with calPending := some (x.calPending == some true) })) s1).modDie d
          (fun x => { x with state := .run })
      else s1
    let s3 := (s2.phasesOn d l).foldl (fun t p => t.formIph p f.icmd (s2.shareOf d l)) s2
    if f.stop = .atOnce then s3.stopAtOnce d l else s3

/-- A frame reaches a phase die (R81, R82): parity, the command watchdog's restart, the effect of a
good frame; three parity errors
in a row take the die to SAFE. -/
def State.dieReceive (s : State) (d : Fin 4) (f : CmdFrame) (parityOk : Bool) : State :=
  if s.dieOn d = false then s
  else if parityOk then
    let s1 := s.modDie d (fun x => { x with goodFrame := true, goodAt := s.clk.tick, parityRun := 0 })
    match f.loop with
    | none => s1
    | some l => s1.frameIn d l f
  else
    let s1 := (s.modDie d (fun x => { x with
      parityErr := bump x.parityErr, parityRun := x.parityRun + 1, paritySince := x.paritySince + 1 })).log 0x0303 d.val (s.die[d].paritySince + 1 : Nat)
    if s1.die[d].parityRun ≥ 3 then s1.enterSafe d 3 else s1

/-- The frame that carries a loop's present command, ARM and preload (R81, R106, R127, R134, R193). -/
def State.loopFrame (s : State) (l : Fin 16) : CmdFrame :=
  let x := s.loop[l]
  { loop := some l, seq := x.ct.seq, icmd := x.ct.icmd, shedMask := x.eb.mask, factor := x.oc.factor, preload := x.ct.preload
    arm := s.armOf l, hu := x.ct.region == 4, exit := false, abortSeen := x.eb.abortSeen, slope := false, start := false
    stop := .none }

/-- The frame that carries no command (R81). -/
def idleFrame : CmdFrame :=
  { loop := none, seq := 0, icmd := 0, shedMask := 0, factor := 1024, preload := 0, arm := false, hu := false, exit := false
    abortSeen := false, slope := false, start := false, stop := .none }

/-- A preload that goes out older than 4 periods is marked and recorded once (R193). -/
def State.preStale (s : State) (l : Fin 16) : State :=
  let age := s.clk.tick - s.hold.preAt[l]
  if s.par P.LOOP_HOLDUP_EN l = 1 ∧ s.hold.preAt[l] ≠ 0 ∧ s.hold.stale[l] = false ∧ s.parN P.HOLD_PRE_PERIOD 0 * 1000 < age then
    { s with hold := { s.hold with stale := s.hold.stale.set l.val true l.isLt } }.log 0x0726 l.val (age / 250 : Nat)
  else s

/-- A frame of a loop sent through the comparer to every die that holds a phase of it, with the next
sequence number (R23, R81, R106);
ABORT_SEEN stands until the hold-off has ended and a frame has carried it (R135, log entry 19). -/
def State.sendFrame (s : State) (l : Fin 16) (g : CmdFrame → CmdFrame) : State :=
  let s1 := s.modLoop l (fun x => { x with
    ct := { x.ct with seq := x.ct.seq + 1, arm := s.armOf l }
    eb := { x.eb with abortSeen := x.eb.abortSeen && (x.eb.holdOff || x.eb.abortDue), abortDue := false } })
  let f := g (s1.loopFrame l)
  ((s1.diesOf l).foldl (fun t d => t.modDie d (fun x => { x with link := x.link ++ [f] })) s1).output 0

end Sys2Proof.Machine
end

