-- ==== Sys2Proof/Machine/LoopOps.lean ====
section
/-! DEFINITION. The loop state machine's shared operations: starting, leaving STARTING or RUNNING,
the over-current trip, fold-back,
hold-up entry (R99, R106 to R111, R120 to R129, R141). -/

namespace Sys2Proof.Machine

/-- PG falls when a loop leaves RUNNING (`why` 1) or is disabled (0: no condition of R140 fails;
DEDUCED, log entry 125) (R141). -/
def State.pgDrop (s : State) (l : Fin 16) (why : Nat) : State :=
  let was := s.loop[l].eb.pgPin
  let s1 := s.modEb l (fun e => { e with pg := 0, pgAt := 0, pgPin := false, timerStarted := false })
  if was then s1.log 0x0520 l.val (lohi (why * 256 : Nat) s.loop[l].ct.vNow) else s1

/-- F back at 1,024, with the record of the exit (R127, R128, R149). -/
def State.foldExit (s : State) (l : Fin 16) : State :=
  let o := s.loop[l].oc
  if o.factor < 1024 then
    (s.modOc l (fun x => { x with factor := 1024, lowest := 1024 })).log 0x0505 l.val
      (lohi (o.lowest * 65536 : Nat) ((s.clk.shelf - o.foldAt) / 1000 : Nat))
  else s

/-- The scheduling variable, from a command, a CURRENT and an AUX_VOLTAGE sample (R103). -/
def State.schedValue (s : State) (l : Fin 16) (icmd i vaux : Int) : Int :=
  if s.parNow P.SCHED_VAR l = 1 then icmd else if s.parNow P.SCHED_VAR l = 2 then i else if s.parNow P.SCHED_VAR l = 3 then vaux else 0

/-- A change of region, with its record (R105, R119). -/
def State.setRegion (s : State) (l : Fin 16) (r : Nat) (v : Int) : State :=
  let old := s.loop[l].ct.region
  if r = old then s
  else (s.modCt l (fun c => { c with region := r, dwell := 0, setAt := s.clk.shelf })).log 0x0405 l.val (lohi (r + old * 256 : Nat) v)

/-- A loop is in set 4 as R109 states it: from the feed-loss input on (R107 to R109). -/
def State.inSet4 (s : State) (l : Fin 16) : Bool := s.loop[l].ct.region == 4 || s.loop[l].ct.huEnter.isSome || s.loop[l].ct.loss.isSome

/-- A feed-loss input acts on a loop (R107, R109, R122). A handback that no sample has taken comes first
in stamp order: the loop leaves set 4 and enters it again. -/
def State.lossEnter (s : State) (l : Fin 16) (q : LossIn) : State :=
  let c := s.loop[l].ct
  let enter (from_ : Nat) (s : State) : State :=
    ((s.modLoop l (fun x => { x with
      tm := { x.tm with ssFresh := x.tm.ssFresh || from_ == 1 }
      ct := { x.ct with setAt := q.time, state := .running, huEnter := some (q.ord, q.preload), exitAt := none, returning := false
                        prebiasWait := false, first := false, loss := none }
      oc := { x.oc with shortT := none, shortAt := none, cleanAt := if from_ = 2 then x.oc.cleanAt else q.tick } })).logAt 0x0406 l.val
        (lohi q.preload from_) q.time).faultScan
  match c.state with
  | .stopped =>
    if c.arm then
      ((enter 0 s).lagTake (lagOfSample l)).modLoop l (fun x => { x with
        tm := { x.tm with fresh := true }
        oc := { x.oc with st := .watch, count := 0, hist := [], retries := 0, reps := [], asm := [] } })
    else s
  | .starting => enter 1 s
  | .running =>
    if c.exitAt.isSome then enter 2 (s.logAt 0x0407 l.val (q.time - c.setAt : Nat) q.time)
    else if c.region = 4 ∨ c.huEnter.isSome then s.modCt l (fun x => { x with loss := none })
    else enter 2 s
  | .hiccupOff => s
  | .faulted => s

/-- A feed-loss input that waited for older samples acts now. -/
def State.lossTake (s : State) (l : Fin 16) : State := match s.loop[l].ct.loss with
  | none => s
  | some q => s.lossEnter l q

/-- A waiting feed-loss input precedes an input of this order number. -/
def State.lossBefore (s : State) (l : Fin 16) (ord : Nat) : Bool := match s.loop[l].ct.loss with
  | none => false
  | some q => decide (q.ord ≤ ord)

/-- A loop leaves STARTING and RUNNING for another state: set 4 is left with its record, the stop
frame carries EXIT where it was
in force, x is 0, every fault timer stops, PG falls, shed phases are ACTIVE again (R108, R109, R112, R134, R141). -/
def State.leaveLive (s : State) (l : Fin 16) (st : LoopState) (mode : StopMode) : State :=
  let s := s.lossTake l
  let c := s.loop[l].ct
  let hu : Bool := s.inSet4 l
  let s1 := if hu then s.log 0x0407 l.val (s.clk.shelf - c.setAt : Nat) else s
  let s2 := (if c.region = 4 then s1.setRegion l 0 (s.schedValue l c.icmd c.iNow c.auxNow) else s1).foldExit l
  let s3 := s2.modLoop l (fun x => { x with
    samples := [], fwdHold := false, revHold := false
    ct := { x.ct with
      state := st, x := 0, icmd := 0, first := false, prebiasWait := false
      huEnter := none, exitAt := none, returning := false, ferrT := none, dwell := 0, loss := none }
    fl := { x.fl with spRamping := false }
    oc := { x.oc with shortT := none, shortAt := none, asm := [], reps := [] }
    eb := { x.eb with mask := 0, iFset := false, abortSeen := false, abortDue := false, holdOff := false, sinceShed := none } })
  let s4 := (s3.phasesOf l).foldl (fun t p => (t.modPh p (fun y => { y with shed := .active, hot := false })).modPst p (fun y => { y with winWhole := false })) s3
  (s4.sendFrame l (fun f => { f with exit := hu, stop := mode, hu := hu })).pgDrop l 1

/-- A loop enters STOPPED for a cause, which it logs with its last command (R109, R119, R122). -/
def State.stopLoop (s : State) (l : Fin 16) (cause : Nat) (mode : StopMode) : State :=
  let i := s.loop[l].ct.icmd
  let s1 := (s.leaveLive l .stopped mode).modLoop l (fun x => { x with
    ct := { x.ct with cause := cause }
    oc := { x.oc with st := .idle, count := 0, hist := [], retries := 0 } })
  (s1.log 0x0403 l.val (lohi cause i)).faultScan

/-- A loop enters FAULTED for a cause (R109). Where the following-error timer is the cause the table of R122 has
no row: the over-current supervisor keeps its state and count until CLEAR (DESIGN CHOICE, log entry 137). -/
def State.faultLoopAt (s : State) (l : Fin 16) (cause : Nat) (mode : StopMode) : State :=
  let i := s.loop[l].ct.icmd
  let s1 := (s.leaveLive l .faulted mode).modCt l (fun c => { c with cause := cause })
  ((s1.log 0x0403 l.val (lohi cause i)).spateReq 4 l.val).faultScan

/-- The start-short timer as a start sets it, from the entry into STARTING on (R122, R125). -/
def State.shortStart (s : State) (l : Fin 16) : Option Nat :=
  if s.parNow P.LOOP_KIND l = 0 ∧ s.parNow P.LOOP_SHORT_TIME l ≠ 0 then some s.clk.tick else none

/-- A loop enters STARTING (R61, R94, R109, R110, R122, R131): its first sample is the first period
start to come; its phases
measure their offsets. -/
def State.startLoop (s : State) (l : Fin 16) (retries : Nat) : State :=
  let s1 := (s.lagTake (lagOfSample l)).modLoop l (fun x => { x with
    samples := [], fwdHold := false, revHold := false
    tm := { x.tm with fresh := true }
    ct := { x.ct with
      state := .starting, x := 0, e1 := 0, e2 := 0, e3 := 0, v1 := 0, v2 := 0, icmd := 0, first := true, prebiasWait := false
      startAt := s.clk.shelf, huEnter := none, exitAt := none, returning := false, ferrT := none, dwell := 0, loss := none }
    fl := { x.fl with prebias := false, spRamping := false }
    oc := { x.oc with
      st := .watch, count := 0, hist := [], retries := retries, reps := [], asm := [], shortT := s.shortStart l, shortAt := none
      mode := s.ocModeOf l 0 }
    eb := { x.eb with mask := 0, iFset := false, timerStarted := (s.shortStart l).isSome } })
  (s1.sendFrame l (fun f => { f with start := true })).faultScan

/-- A START or STOP reaches a loop: it receives no automatic START any more (R475, R505). -/
def State.noAuto (s : State) (l : Fin 16) : State :=
  { s with
    therm := { s.therm with auto := s.therm.auto.set l.val false l.isLt }
    dev := { s.dev with auto := s.dev.auto.set l.val false l.isLt } }

/-- The effect of START on a loop that is enabled (R109). -/
def State.loopStartOn (s : State) (l : Fin 16) : State × Nat :=
  match s.loop[l].ct.state with
  | .stopped =>
    if s.canStart l then (s.startLoop l 0, stOk)
    else ((s.modCt l (fun c => { c with cause := 4 })).log 0x0403 l.val (lohi 4 s.loop[l].ct.icmd), stOk)
  | .starting => (s, stOk)
  | .running => (s, stOk)
  | .hiccupOff => (s, stOk)
  | .faulted => (s, stBusy)

/-- LOOP_CTRL START (R109): the new state and the status. -/
def State.loopStart (s : State) (l : Fin 16) : State × Nat :=
  if s.par P.LOOP_ENABLE l = 0 then (s, stBusy) else (s.noAuto l).loopStartOn l

/-- LOOP_CTRL STOP; `holdup` says that the session holds HOLDUP too (R109). -/
def State.loopStop (s : State) (l : Fin 16) (holdup : Bool) : State × Nat :=
  match s.loop[l].ct.state with
  | .starting => ((s.noAuto l).stopLoop l 0 .boundary, stOk)
  | .running => if s.inSet4 l ∧ ¬ holdup then (s, stNoPermit) else ((s.noAuto l).stopLoop l 0 .boundary, stOk)
  | .hiccupOff => ((s.noAuto l).stopLoop l 0 .none, stOk)
  | .stopped => (s.noAuto l, stOk)
  | .faulted => (s.noAuto l, stOk)

/-- LOOP_CTRL CLEAR (R109, R122). -/
def State.loopClear (s : State) (l : Fin 16) : State × Nat :=
  if s.loop[l].ct.state = .faulted then
    let s1 := s.modLoop l (fun x => { x with
      ct := { x.ct with state := .stopped }
      oc := { x.oc with st := .idle, count := 0, hist := [], retries := 0 } })
    ((s1.log 0x040A l.val s.loop[l].ct.cause).faultScan, stOk)
  else (s, stOk)

/-- An over-current trip (R123, R124): the loop enters HICCUP_OFF, or FAULTED with no retry left. -/
def State.ocTrip (s : State) (l : Fin 16) (cause : Nat) : State :=
  let o := s.loop[l].oc
  let v := s.loop[l].ct.vNow
  let s1 := s.modOc l (fun x => { x with trips := bump x.trips, cause := cause })
  if o.retries < s.parNowN P.LOOP_OC_RETRIES l ∨ s.parNow P.LOOP_OC_RETRIES l = 255 then
    let s2 := s1.log 0x0501 l.val (lohi (o.retries + cause * 256 + o.count * 65536 : Nat) v)
    (((s2.leaveLive l .hiccupOff .atOnce).modOc l (fun x => { x with st := .off, offAt := s.clk.tick })).spateReq 4 l.val).faultScan
  else
    let s2 := s1.log 0x0503 l.val (o.retries + cause * 256 : Nat)
    (s2.faultLoopAt l 3 .atOnce).modOc l (fun x => { x with st := .latched })

/-- The dies whose reports complete a period: those that hold an active phase of the loop (R121). -/
def State.reporters (s : State) (l : Fin 16) : List (Fin 4) :=
  (s.diesOf l).filter (fun d => (s.phasesOn d l).any (fun p => s.ph[p].slot.isSome))

/-- A complete period enters the count (R122). A commit of LOOP_OC_WINDOW in mid-count: to 0 the history goes and
the count stands until the next period, from 0 a new window begins with it, and a shorter one keeps its newest
periods (DESIGN CHOICE, log entry 137). -/
def ocCount (window : Nat) (o : OcSup) (limited : Bool) : OcSup :=
  if window = 0 then { o with count := if limited then o.count + 1 else 0, hist := [] }
  else
    let h := (o.hist ++ [limited]).drop ((o.hist.length + 1) - window)
    { o with hist := h, count := (h.filter id).length }

/-- A limit report taken by the supervisor (R121, R122): once every reporting die has reported its
period, the period counts. The
supervisor counts in WATCH and COUNTING alone; a limited period restarts the time of OC_CLEAN_TIME_END. -/
def State.absorb (s : State) (l : Fin 16) (r : LimRep) : State :=
  let o := s.loop[l].oc
  if o.st ≠ .watch ∧ o.st ≠ .counting then s
  else
    let old := (o.asm.find? (fun a => a.1 == r.period)).getD (r.period, [], false)
    let new := (r.period, r.die :: old.2.1, old.2.2 || r.limited)
    let rest := o.asm.filter (fun a => a.1 != r.period)
    if (s.reporters l).all (fun d => new.2.1.contains d) then
      let o1 := ocCount (s.parNowN P.LOOP_OC_WINDOW l) { o with asm := rest } new.2.2
      let o2 := { o1 with st := if o1.count = 0 then .watch else .counting, cleanAt := if new.2.2 then s.clk.tick else o1.cleanAt }
      s.modLoop l (fun x => { x with oc := o2, eb := { x.eb with timerStarted := x.eb.timerStarted || (o.count == 0 && o2.count != 0) } })
    else s.modOc l (fun x => { x with asm := new :: rest })

/-- The count has reached the trip level in HICCUP mode (R122, R128). -/
def State.countFull (s : State) (l : Fin 16) : Bool :=
  let o := s.loop[l].oc
  o.mode == 0 && (o.st == .watch || o.st == .counting) && s.parNowN P.LOOP_OC_COUNT l ≤ o.count

/-- The start-short timer expires at the sample that found it so: START_SHORT and its record with
the y of that sample (R125, R149). -/
def State.shortExpire (s : State) (l : Fin 16) : State :=
  let y := match s.loop[l].samples.find? (fun q => some q.period == s.loop[l].oc.shortAt) with
    | none => s.loop[l].ct.y
    | some q => clampI (-8388608) 8388607 q.v
  (s.modOc l (fun o => { o with shortT := none, shortAt := none, startShort := true })).log 0x0504 l.val y

/-- The feed-loss input at one loop (R107, R109, R122): a loop with LOOP_HOLDUP_EN that is live in a
scheduled set, or stopped with its last ARM set, is RUNNING and switches to set 4 at its first sample after the
input. Samples stamped before the input are evaluated before it acts. -/
def State.loopFeedLoss (s : State) (l : Fin 16) : State :=
  let q : LossIn := ⟨s.ord, s.clk.shelf, s.clk.tick, s.loop[l].ct.preload⟩
  if s.parNow P.LOOP_HOLDUP_EN l = 0 then s
  else if s.loop[l].samples.isEmpty ∨ ¬ s.live l then s.lossEnter l q
  else if s.inSet4 l ∧ s.loop[l].ct.exitAt = none then s
  else s.modCt l (fun c => { c with loss := some q })

/-- A handback command at one loop in set 4 (R108, R200). -/
def State.loopHandback (s : State) (l : Fin 16) : State :=
  let c := s.loop[l].ct
  if c.state = .running ∧ s.inSet4 l then
    (s.lossTake l).modCt l (fun x => { x with exitAt := some s.ord, returning := true })
  else s

end Sys2Proof.Machine
end

