-- ==== Sys2Proof/Machine/HoldOps.lean ====
section
/-! DEFINITION. Hold-up operations that a loop's evaluation uses (R199, R217, R243). -/

namespace Sys2Proof.Machine

/-- The shave current in force on a loop, as its target reads it at each sample (R217, R221). -/
def State.shaveOf (s : State) (l : Fin 16) : Int := s.weir.shave[l]

/-- Battery string `b` changed. -/
def State.modBatt (s : State) (b : Fin 8) (f : Batt → Batt) : State := { s with batt := upd s.batt b f }

/-- The string a loop stands for (R192). -/
def State.stringOf (s : State) (l : Fin 16) : Option (Fin 8) :=
  let b := s.parN P.HOLD_STRING l
  if h : b < 8 then some ⟨b, h⟩ else none

/-- The string a loop stands for at its samples (R25, R192). -/
def State.stringNow (s : State) (l : Fin 16) : Option (Fin 8) :=
  let b := s.parNowN P.HOLD_STRING l
  if h : b < 8 then some ⟨b, h⟩ else none

/-- A cut-off string takes its loops' forward current away from the first sample after the cut-off to the first after
its end (R243, R244). -/
def State.fwdBlocked (s : State) (l : Fin 16) (ord : Nat) : Bool := match s.stringNow l with
  | none => false
  | some b => decide (s.batt[b].cutOrd ≤ ord) && (s.batt[b].fl.cutoff || decide (ord < s.batt[b].uncutOrd))

/-- A loop's current sum reaches the string it discharges or charges (R227). -/
def State.currentHeard (s : State) (l : Fin 16) (sum : Int) : State := match s.stringOf l with
  | none => s
  | some b => s.modBatt b (fun x => { x with acc := x.acc + (if s.par P.BATT_I_SIGN b = 0 then sum else -sum) })

/-- The number HOLD_STATE reads (R204). -/
def HoldState.code : HoldState → Nat
  | .normal => 0 | .holdup => 1 | .returnWait => 2 | .handback => 3

/-- The hold-up state changed. -/
def State.modHold (s : State) (f : Hold → Hold) : State := { s with hold := f s.hold }

/-- HOLD_STATE changes, with the notice to the sessions that chose it (R433). -/
def State.holdTo (s : State) (st : HoldState) : State :=
  (s.modHold (fun h => { h with state := st })).noticeAll 0 0x8005
    (leBytes 1 st.code ++ leBytes 1 s.hold.state.code ++ leBytes 2 0 ++ leBytes 4 (toWord 32 s.hold.pLoad) ++ leBytes 8 s.clk.shelf)

/-- The stamped release of the feed-loss line, or what R171 takes for it (R171, R199). -/
def State.lineReleased (s : State) : State :=
  let s1 := { s with hold := { s.hold with line := false }, bank := { s.bank with seenLine := false, disarmed := false } }
  if s.hold.state = .holdup then
    ((s1.modHold (fun h => { h with timerDone := false, stateAt := s.clk.tick, releasedAt := s.clk.tick })).log 0x0721 0
      ((s.clk.tick - s.hold.stateAt) / 250000 : Nat)).holdTo .returnWait
  else s1

/-- HANDBACK ends once every loop handed back has its reference at its target: HOLD_EXIT (R199, R205). -/
def State.holdExitScan (s : State) : State :=
  if s.hold.state = .handback ∧ (fins 16).all (fun l => !s.loop[l].ct.returning && s.loop[l].ct.exitAt.isNone) then
    let ms := (s.clk.tick - s.hold.enterAt) / 250000
    ((s.modHold (fun h => { h with frozen := false, lastTime := ms })).holdTo .normal).log 0x0724 0 (ms : Nat)
  else s

/-- The voltage of a loop's string in mV, or HOLD_VSTR_FIX without a valid one (R192, R204, R231). -/
def State.stringMv (s : State) (l : Fin 16) : Int := match s.stringOf l with
  | none => s.par P.HOLD_VSTR_FIX 0
  | some b => if s.batt[b].fl.present ∧ s.batt[b].fl.vBad = false then s.batt[b].v else s.par P.HOLD_VSTR_FIX 0

end Sys2Proof.Machine
end

