-- ==== Sys2Proof/Machine/PortOps.lean ====
section
/-! DEFINITION. The field ports' shared operations: frames as bytes and as queue entries, credit,
flushing, training, the links of
nodes (R255 to R277). -/

namespace Sys2Proof.Machine

/-- Port `p` changed. -/
def State.modPort (s : State) (p : Fin 64) (f : Port → Port) : State := { s with port := upd s.port p f }

/-- The counters of port `p` changed. -/
def State.modCnt (s : State) (p : Fin 64) (f : PortCount → PortCount) : State := s.modPort p (fun x => { x with cnt := f x.cnt })

/-- The 12 header bytes of a frame (R264). -/
def Frame.header (f : Frame) : List Byte :=
  [BitVec.ofNat 8 (f.typ + 16), BitVec.ofNat 8 (f.node + b2n f.path * 32 + b2n f.retx * 64)] ++ leBytes 2 f.payload.length ++
    leBytes 4 f.epoch ++ leBytes 4 f.seq

/-- The bytes between SOF and EOF of a frame sent (R264, R265). -/
def Frame.bytes (f : Frame) : List Byte :=
  let b := f.header ++ f.payload
  b ++ leBytes 4 (crc32c b)

/-- The frame that a run of 12 or more header bytes and its payload spells (R264). -/
def Frame.parse (bs : List Byte) (payload : List Byte) : Frame :=
  let b1 := leAt bs 1 1
  ⟨leAt bs 0 1 % 16, b1 % 32, bit b1 5, bit b1 6, leAt bs 4 4, leAt bs 8 4, payload⟩

/-- Bytes in words of four, little-endian, the last one zero-padded. -/
def wordsOf : Nat → List Byte → List Nat
  | 0, _ => []
  | n + 1, bs => leNat (bs.take 4) :: wordsOf n (bs.drop 4)

/-- A frame's entries in a receive queue as (TAG, DATA) (R269). -/
def RxItem.entries (x : RxItem) : List (Nat × Nat) :=
  let h := x.frame.header
  let body := h.drop 4 ++ x.frame.payload
  let ws := wordsOf (ceilDiv body.length 4) body
  [(1, leNat (h.take 4)), (2, x.time % 2 ^ 32), (2, x.time / 2 ^ 32)] ++ (ws.dropLast.map (fun w => (3, w))) ++
    (ws.drop (ws.length - 1)).map (fun w => (4, w))

/-- The entries a frame takes in a receive queue (R269). -/
def RxItem.size (x : RxItem) : Nat := 3 + ceilDiv (8 + x.frame.payload.length) 4

/-- A frame's entries in a transmit queue as (TAG, DATA): those of a receive queue without TIME, and no CRC (R269). -/
def Frame.entries (f : Frame) : List (Nat × Nat) := ((RxItem.mk f 0 false false).entries).filter (fun e => e.1 != 2)

/-- The entries a frame takes in a transmit queue (R269). -/
def Frame.size (f : Frame) : Nat := 1 + ceilDiv (8 + f.payload.length) 4

/-- The frames that stand in a queue of so many entries, in their order; those behind wait at the
comparer (R269, R272). -/
def txFits : Nat → List Frame → List Frame
  | _, [] => []
  | room, f :: fs => if f.size ≤ room then f :: txFits (room - f.size) fs else []

/-- The transmit queue of 2,048 entries (R269). -/
def Port.txQueue (x : Port) : List Frame := txFits 2048 x.tx

/-- A read of a queue with the entries `es`: its first, or the idle item (R269). -/
def queueRead (es : List (Nat × Nat)) : Nat × Nat := es.headD (0, 0)

/-- Free entries of a port's receive queue of 2,048 (R269). -/
def Port.free (x : Port) : Nat := 2048 - (x.rx.map RxItem.size).sum

/-- The partner's credit still unused (R270). -/
def Port.credit (x : Port) : Nat := (x.grantTo + 256 - x.started % 256) % 256

/-- The device's credit at the partner still unused (R270, R272). -/
def Port.txCredit (x : Port) : Nat := (x.grantBy + 256 - x.sent % 256) % 256

/-- One credit for each 150 free entries (R270): the grant count rises to that. -/
def State.regrant (s : State) (p : Fin 64) : State :=
  s.modPort p (fun x => if x.credit < x.free / 150 then { x with grantTo := (x.started + x.free / 150) % 256 } else x)

/-- A frame waits while the partner grants no credit: since when (R272). -/
def Port.stall (x : Port) (now : Nat) : Port :=
  { x with stallAt := holdFrom (x.state == .up && x.tx != [] && x.txCredit == 0) x.stallAt now }

/-- The transmit queue flushed and counted, and what waits behind it with it where the port leaves UP (R272). -/
def State.flushTx (s : State) (p : Fin 64) : State :=
  s.modPort p (fun x => { x with tx := [], stallAt := none, cnt := { x.cnt with txFlushed := satAdd 32 x.cnt.txFlushed x.tx.length } })

/-- The port's pair is DUAL (R276). -/
def State.dual (s : State) (p : Fin 64) : Bool := s.par P.PORT_REDUND p == 1

/-- The even port of a port's pair. -/
def evenOf (p : Fin 64) : Fin 64 := ⟨p.val / 2 * 2, by omega⟩

/-- The odd port of a port's pair. -/
def oddOf (p : Fin 64) : Fin 64 := ⟨p.val / 2 * 2 + 1, by omega⟩

/-- The port whose number forms the addresses of nodes heard on a port (R257, R276). -/
def State.homePort (s : State) (p : Fin 64) : Fin 64 := if s.dual p then evenOf p else p

/-- The port of a node address (R257). -/
def portOfAddr (a : Nat) : Fin 64 := ⟨a / 32 % 64, Nat.mod_lt _ (by omega)⟩

/-- A node address names a node (R257). -/
def isNode (a : Nat) : Bool := a % 32 != 0 && decide (a ≤ 0x07FF)

/-- A session as kept (R313). -/
def State.node (s : State) (a : Nat) : NodeSess := SMap.get NodeSess.none a s.nodes.sess

/-- A session changed. -/
def State.modNode (s : State) (a : Nat) (f : NodeSess → NodeSess) : State :=
  { s with nodes := { s.nodes with sess := SMap.set NodeSess.none a (f (s.node a)) s.nodes.sess } }

/-- PORT_NODE_LINK of a node number on a port as R275 gives it. -/
def State.linkNow (s : State) (p : Fin 64) (n : Nat) : Bool :=
  let x := s.port[p]
  x.state == .up &&
    (if s.par P.PORT_TOPOLOGY p = 1 then n == 1 || (x.hubAt.isSome && bit x.hubLinks (n - 2)) else n == 1)

/-- The links of a port's nodes after a change; each change is logged (R275). -/
def State.linkScan (s : State) (p : Fin 64) : State :=
  (List.range 31).foldl (fun t k =>
    let a := p.val * 32 + (k + 1)
    let up := t.linkNow p (k + 1)
    if (t.node a).link = up then t else (t.modNode a (fun x => { x with link := up })).log 0x0A07 a (b2n up)) s

/-- A frame written into a port's transmit queue (R272); a port that is not UP holds none, so the frame is flushed
(DESIGN CHOICE, log entries 48 and 142). -/
def State.txPush (s : State) (p : Fin 64) (f : Frame) : State :=
  (s.modPort p (fun x => if x.state = .up then ({ x with tx := x.tx ++ [f] } : Port).stall s.clk.tick
    else { x with cnt := { x.cnt with txFlushed := satAdd 32 x.cnt.txFlushed 1 } })).output 1

/-- A frame for a node (R272, R276): on a DUAL pair the even port carries Stem A's copy and the odd port Stem B's. -/
def State.frameOut (s : State) (a : Nat) (f : Frame) : State :=
  let p := portOfAddr a
  if s.dual p then
    let s1 := if s.stemOk 0 then s.txPush (evenOf p) { f with path := false } else s
    if s.stemOk 1 then s1.txPush (oddOf p) { f with path := true } else s1
  else s.txPush p { f with path := false }

/-- The domain of a port is on (R263): DL_FLDL for ports 0 to 31, DL_FLDH for the others; in Quiet
the quiet ports alone. -/
def State.portOn (s : State) (p : Fin 64) : Bool :=
  if p.val < 32 then s.dev.fldlOn && (s.dev.state != .quiet || s.par P.PORT_QUIET p == 1) else s.dev.fldhOn

/-- A port runs below PORT_RATE_MAX at this instant (R285). -/
def State.rateBelow (s : State) (p : Fin 64) : Bool :=
  s.port[p].state != .off && s.port[p].state != .pmbus && decide (s.parN P.PORT_RATE_MAX p < s.port[p].rate)

/-- A port starts training at a rate (R263). -/
def State.startTrain (s : State) (p : Fin 64) (rate : Nat) : State :=
  s.modPort p (fun x => { x with
    state := .train, rate := rate, trainAt := s.clk.tick, trainFrom := if x.state = .train then x.trainFrom else s.clk.tick
    rateDown := x.rateDown || decide (s.parN P.PORT_RATE_MAX p < rate) })

/-- A port leaves UP for training (R263, R272): frames flushed, PORT_DOWN logged, the rate one step lower or higher. -/
def State.leaveUp (s : State) (p : Fin 64) (cause rate : Nat) : State :=
  (((s.flushTx p).log 0x0A02 p.val cause).startTrain p rate).linkScan p

/-- One rate step lower, unless already at PORT_RATE_MIN (R263). -/
def State.rateLower (s : State) (p : Fin 64) : Nat :=
  let r := s.port[p].rate
  if r < s.parN P.PORT_RATE_MIN p then r + 1 else r

/-- The domain of a port has power: DL_FLDL for ports 0 to 31, DL_FLDH for the others (R19). -/
def State.portDomain (s : State) (p : Fin 64) : Bool := if p.val < 32 then s.dev.fldlOn else s.dev.fldhOn

/-- A port goes OFF (R263): mode OFF committed, the port disabled, or its domain off. Frames that have completed wait
for the stamper while the domain is on (R271); flags that only a host clears, and the last HUB
frame, stay (R275, R285, R286). -/
def State.portOff (s : State) (p : Fin 64) : State :=
  ((s.flushTx p).modPort p (fun x => { Port.reset with
    rx := if s.portDomain p then x.rx else [], cnt := x.cnt, rate := x.rate, txStall := x.txStall, rateDown := x.rateDown
    overrun := x.overrun, hubAt := x.hubAt, hubLinks := x.hubLinks })).linkScan p

/-- A port as its mode and its domain ask (R255, R263, R280): OFF, training, or in PMBus service
with every target to discover. -/
def State.portApply (s : State) (p : Fin 64) : State :=
  let mode := s.parN P.PORT_MODE p
  let x := s.port[p]
  if mode = 0 ∨ s.portOn p = false then (if x.state = .off then s else s.portOff p)
  else if mode = 1 then (if x.state = .off then s.startTrain p (s.parN P.PORT_RATE_MAX p) else s)
  else if x.state = .off then s.modPort p (fun y => { y with state := .pmbus }) else s

/-- PORT_STATUS (R285). -/
def State.portStatus (s : State) (p : Fin 64) : Nat :=
  let x := s.port[p]
  let peer := if p.val % 2 = 0 then oddOf p else evenOf p
  ([x.state == .up || x.state == .pmbus, x.hubAt.isSome, x.state == .up && x.credit == 0, x.txStall, x.topoMis, x.rateDown,
    s.dual p && s.port[peer].state == .up, x.overrun, x.stuck, x.alert, x.maskAt.isSome].zipIdx.map (fun q => b2n q.1 * 2 ^ q.2)).sum

/-- PORT_RX_ERROR with the counts since its last record (R268). -/
def State.rxError (s : State) (p : Fin 64) : State :=
  let c := s.port[p].cnt
  s.log 0x0A05 p.val (min c.newCrc 65535 + min c.newAbandon 65535 * 2 ^ 16 + min c.newMalformed 65535 * 2 ^ 32 + min c.newNoCredit 65535 * 2 ^ 48 : Nat)

end Sys2Proof.Machine
end

