-- ==== Sys2Proof/Machine/NodeOps.lean ====
section
/-! DEFINITION. The conversation layer's shared operations: sending, the window, ending and opening
sessions, requests and relays
(R289 to R304), and the Confluence members that follow a session (R187). -/

namespace Sys2Proof.Machine

/-- The payload of a MSG frame (R289): op, flags (1 REPLY, 2 REQUEST), status, REQ_SEQ, body. -/
def msgPayload (op flags status reqSeq : Nat) (body : List Byte) : List Byte :=
  [BitVec.ofNat 8 op, BitVec.ofNat 8 flags] ++ leBytes 2 status ++ leBytes 4 reqSeq ++ body

/-- The SEQ after one, from 0xFFFFFFFF to 1 (R295). -/
def seqNext (q : Nat) : Nat := if 0xFFFFFFFF ≤ q then 1 else q + 1

/-- A MSG frame to a node outside any session's numbering: an OPEN reply or CLOSED (R295, R299). -/
def State.nodeRaw (s : State) (a epoch : Nat) (payload : List Byte) : State :=
  s.frameOut a ⟨1, a % 32, false, false, epoch, 0, payload⟩

/-- A MSG frame of a node's session with its next SEQ; nothing without an open session (R295, R299). -/
def State.nodeSend (s : State) (a op flags : Nat) (body : List Byte) : State :=
  let n := s.node a
  if n.isOpen then
    let q := seqNext n.txSeq
    (s.modNode a (fun x => { x with txSeq := q, lastTx := s.clk.tick })).frameOut a
      ⟨1, a % 32, false, false, n.epoch, q, msgPayload op flags 0 0 body⟩
  else s

/-- The members of Confluence that are a node (R184). -/
def State.membersOf (s : State) (a : Nat) : List (Fin 64) := (fins 64).filter (fun (m : Fin 64) => s.parN P.SHARE_MBR_NODE m == a)

/-- A member is placed in a group and has a node (R184). -/
def State.memberUsed (s : State) (m : Fin 64) : Bool := s.parN P.SHARE_MBR_GROUP m != 255 && s.parN P.SHARE_MBR_NODE m != 0xFFFF

/-- Member `m` changed. -/
def State.modMbr (s : State) (m : Fin 64) (f : Member → Member) : State :=
  { s with share := { s.share with mbr := upd s.share.mbr m f } }

/-- The number SHARE_MBR_STATE reads (R203). -/
def MemberState.code : MemberState → Nat
  | .absent => 0 | .trimmed => 1 | .held => 2 | .droop => 3 | .suspended => 4

/-- A member changes state, with its record (R187, R205): its trim starts from 0 except between TRIMMED and HELD. -/
def State.mbrTo (s : State) (m : Fin 64) (st : MemberState) : State :=
  let x := s.share.mbr[m]
  if x.state = st then s
  else
    let keep : Bool := st == .held || (x.state == .held && st == .trimmed)
    (s.modMbr m (fun y => { y with
      state := st, trim := if keep then y.trim else 0, limited := keep && y.limited, lostAt := none, ep := 0 })).log 0x0701 m.val
      (lohi (st.code + x.state.code * 256 : Nat) (nearHalfAway x.trim 1000))

/-- A member that follows trims falls to DROOP; it waits for a session other than `ep` (R187). -/
def State.mbrDroop (s : State) (m : Fin 64) (ep : Nat) : State :=
  let st := s.share.mbr[m].state
  if st = .trimmed ∨ st = .held then (s.mbrTo m .droop).modMbr m (fun x => { x with ep := ep }) else s

/-- A TRIM message to a member, clamped as R186 (R186, R290). -/
def State.sendTrim (s : State) (m : Fin 64) : State :=
  let a := s.parN P.SHARE_MBR_NODE m
  let g := s.parN P.SHARE_MBR_GROUP m
  let ofs : Int := if h : g < 4 then s.share.grp[g].tieOfs else 0
  let lim := s.par P.SHARE_TRIM_MAX 0
  let v := clampI (-lim) lim (nearHalfAway s.share.mbr[m].trim 1000 + ofs)
  if (s.node a).isOpen then
    (s.modMbr m (fun x => { x with sent := v, seq := x.seq + 1 })).nodeSend a 0x10 0
      (leBytes 4 (toWord 32 v) ++ leBytes 4 (1000000 / s.parN P.SHARE_RATE 0))
  else s

/-- The HOLDUP in force for a node (R302): MODE 1 while its member is SUSPENDED. -/
def State.sendHoldup (s : State) (a : Nat) : State :=
  match s.membersOf a with
  | [] => s
  | m :: _ =>
    if s.memberUsed m then s.nodeSend a 0x12 0 [if s.share.mbr[m].state = .suspended then 1 else 0, 0, 0, 0] else s

/-- A limit or a release to a node (R213, R290). -/
def State.sendThrottle (s : State) (a : Nat) (limit : Option Nat) : State := s.nodeSend a 0x11 0 (leBytes 4 (limit.getD 0xFFFFFFFF))

/-- The limit of a node (R213). -/
def State.weirNode (s : State) (a : Nat) : WeirNode := SMap.get WeirNode.none a s.weir.node

/-- The relay of a port (R303). -/
def State.relayOf (s : State) (p : Nat) : Option Relay := SMap.get none p s.nodes.relay

/-- The relay of a port changed. -/
def State.setRelay (s : State) (p : Nat) (r : Option Relay) : State :=
  { s with nodes := { s.nodes with relay := SMap.set none p r s.nodes.relay } }

/-- A relay is abandoned and logged (R303). -/
def State.relayAbandon (s : State) (p status : Nat) : State := match s.relayOf p with
  | none => s
  | some r => (s.setRelay p none).log 0x0B09 r.addr (3 + status * 65536 + r.bytes * 2 ^ 32 : Nat)

/-- The host behind a request is answered ABANDONED, with no body (R300, R303, R417). -/
def State.failHost (s : State) (r : NodeReq) : State := match r.who with
  | .action => s
  | .relay sess seq => s.answer sess seq stAbandoned []

/-- The outstanding request fails, with its record; the requests behind it fail with it when the
session ends (R299, R300). -/
def State.failReq (s : State) (a : Nat) : State := match (s.node a).req with
  | none => s
  | some r =>
    let s1 := ((s.modNode a (fun x => { x with req := none })).failHost r).log 0x0B08 a (r.op + r.resends * 256 + r.seq * 2 ^ 32 : Nat)
    match r.who with
    | .action => s1
    | .relay _ _ => s1.relayAbandon (a / 32) 0

/-- A relay to a node, if one runs (R303). -/
def State.relayEnd (s : State) (a : Nat) : State := match s.relayOf (a / 32) with
  | none => s
  | some r => if r.addr = a then s.relayAbandon (a / 32) 0 else s

/-- A session ends (R299): requests failed, relay abandoned, the member to DROOP (R187). -/
def State.endSess (s : State) (a : Nat) : State :=
  let n := s.node a
  if n.isOpen then
    let s1 := n.waiting.foldl (fun (t : State) r => t.failHost r) ((s.failReq a).relayEnd a)
    let s2 := s1.modNode a (fun x => { x with isOpen := false, epoch := 0, waiting := [], win := 0 })
    (s.membersOf a).foldl (fun (t : State) (m : Fin 64) => t.mbrDroop m n.epoch) s2
  else s

/-- CLOSED for an epoch, not numbered (R290, R295, R299). -/
def State.sendClosed (s : State) (a epoch reason : Nat) : State :=
  (s.modNode a (fun x => { x with closedAt := some s.clk.tick })).nodeRaw a epoch
    (msgPayload 0x04 0 0 0 [BitVec.ofNat 8 reason, 0, 0, 0])

/-- A session closed by the device (R304): CLOSED, the end, the record. -/
def State.closeSess (s : State) (a reason : Nat) : State :=
  let n := s.node a
  if n.isOpen then ((s.sendClosed a n.epoch reason).endSess a).log 0x0B07 a (reason + n.epoch * 2 ^ 32 : Nat) else s

/-- SEQ `q` is newer than `r` (R295). -/
def seqNewer (q r : Nat) : Bool := let d := (q + 2 ^ 32 - r) % 2 ^ 32; decide (1 ≤ d ∧ d < 2 ^ 31)

/-- A frame without a matching session (R296): counted, CLOSED at most every 100 ms, the record coalesced. -/
def State.nodeStale (s : State) (a epoch : Nat) : State :=
  let n := s.node a
  let s1 := s.modNode a (fun x => { x with stale := bump x.stale, staleNew := x.staleNew + 1 })
  let recent : Bool := match n.closedAt with
    | none => false
    | some t => decide (s.clk.tick < t + 25000000)
  let s2 := if recent then s1 else s1.sendClosed a epoch 1
  s2.log 0x0B06 a (epoch + (n.staleNew + 1) * 2 ^ 32 : Nat)

/-- A frame in a session checked against the window (R296): whether it is accepted. SEQ 0 is no SEQ
of a session frame. -/
def State.nodeAccept (s : State) (a epoch seq : Nat) : State × Bool :=
  let n := s.node a
  if n.isOpen = false ∨ epoch ≠ n.epoch then (s.nodeStale a epoch, false)
  else if seqNewer seq n.rxSeq then
    let d := (seq + 2 ^ 32 - n.rxSeq) % 2 ^ 32
    let skip := if seq < n.rxSeq then d - 2 else d - 1
    (s.modNode a (fun x => { x with
      rxSeq := seq, win := if 64 ≤ d then 1 else (x.win * 2 ^ d + 1) % 2 ^ 64, gap := satAdd 32 x.gap skip, lastRx := s.clk.tick }), true)
  else
    let back := (n.rxSeq + 2 ^ 32 - seq) % 2 ^ 32
    if 63 < back ∨ bit n.win back then (s.modNode a (fun x => { x with dup := bump x.dup }), false)
    else (s.modNode a (fun x => { x with win := setBit x.win back, lastRx := s.clk.tick }), true)

/-- A request sent to a node, or kept behind the outstanding one (R300). -/
def State.nodeRequest (s : State) (a : Nat) (op : Nat) (body : List Byte) (who : ReqWho) : State :=
  let n := s.node a
  if n.isOpen = false then s
  else if n.req.isSome then s.modNode a (fun x => { x with waiting := x.waiting ++ [⟨op, 0, 0, body, who, 0⟩] })
  else (s.modNode a (fun x => { x with req := some ⟨op, seqNext n.txSeq, 0, body, who, s.clk.tick⟩ })).nodeSend a op 2 body

/-- The next waiting request takes the place of one that is done (R300). -/
def State.nextReq (s : State) (a : Nat) : State := match (s.node a).waiting with
  | [] => s
  | r :: rs => (s.modNode a (fun x => { x with waiting := rs })).nodeRequest a r.op r.body r.who

/-- The state messages in force, right after an OPEN reply (R299). -/
def State.queueState (s : State) (a : Nat) : State :=
  let s1 := match (s.weirNode a).limit with
    | none => s
    | some l => s.sendThrottle a (some l)
  s1.sendHoldup a

end Sys2Proof.Machine
end

