-- ==== Sys2Proof/Machine/PoolOps.lean ====
section
/-! DEFINITION. The Pool's shared operations: descriptors, limit sets, the evaluation of an update,
the blocks of nodes and internal
sources, reading a slot in a unit (R315 to R329). -/

namespace Sys2Proof.Machine

/-- The Pool changed by `f`. -/
def State.modPool (s : State) (f : Pool → Pool) : State := { s with pool := f s.pool }

/-- A slot record (R318). -/
def State.slot (s : State) (k : Nat) : Slot := SMap.get Slot.none k s.pool.slot

/-- A slot record written (R319). -/
def State.setSlot (s : State) (k : Nat) (v : Slot) : State := s.modPool (fun p => { p with slot := SMap.set Slot.none k v p.slot })

/-- A slot's descriptor (R320). -/
def State.desc (s : State) (k : Nat) : Nat := if k < 65536 then s.parN P.POOL_DESC_LO k else s.parN P.POOL_DESC_HI (k - 65536)

/-- FMT of a descriptor (R320). -/
def descFmt (d : Nat) : Nat := bits d 16 15

/-- A 32-bit pattern read under a format (R321). -/
def readFmt (fmt v : Nat) : Int := if fmt = 1 then signed 32 v else (v : Int)

/-- The decimal exponent of a descriptor (R320). -/
def descExp (d : Nat) : Int := signed 4 (bits d 24 21)

/-- A slot's value in units of 10^u of its quantity (R321): nearest, ties to even, saturated to the
consumer's type: s16 in 0.1 °C,
s32 in every other unit. -/
def State.slotIn (s : State) (k : Nat) (u : Int) : Int :=
  let d := s.desc k
  let v := readFmt (descFmt d) (s.slot k).value
  let e := descExp d - u
  let x := if 0 ≤ e then v * 10 ^ e.toNat else nearEven v (10 ^ (-e).toNat)
  if u = -1 then clampI (-32768) 32767 x else clampI (-2147483648) 2147483647 x

/-- A slot has been written within the last `ns` nanoseconds (R185, R192, R207, R227, R228, R307). -/
def State.slotFresh (s : State) (k : Nat) (ns : Nat) : Bool := (s.slot k).valid && decide (s.clk.tick * 4 ≤ (s.slot k).wrote * 4 + ns)

/-- The candidate zone of a value without hysteresis (R326). -/
def zoneRaw (fl : Nat) (v hh h l ll : Int) : Nat :=
  if bit fl 3 ∧ hh ≤ v then 2 else if bit fl 4 ∧ h ≤ v then 1 else if bit fl 6 ∧ v ≤ ll then 4 else if bit fl 5 ∧ v ≤ l then 3 else 0

/-- The candidate zone of a value under a limit set, from the present zone (R326). -/
def State.zoneOf (s : State) (set fmt zone v : Nat) : Nat :=
  let fl := s.parN P.LIMIT_FLAGS set
  let hh := s.parN P.LIMIT_HH set
  let h := s.parN P.LIMIT_H set
  if fmt = 2 then (if bit fl 3 ∧ v &&& hh ≠ 0 then 2 else if bit fl 4 ∧ v &&& h ≠ 0 then 1 else 0)
  else
    let hy := s.par P.LIMIT_HYST set
    let x := readFmt fmt v
    let tHH := readFmt fmt hh
    let tH := readFmt fmt h
    let tL := readFmt fmt (s.parN P.LIMIT_L set)
    let tLL := readFmt fmt (s.parN P.LIMIT_LL set)
    let z := zoneRaw fl x tHH tH tL tLL
    if zone = 2 ∧ tHH - hy ≤ x then 2
    else if zone = 1 ∧ (z = 0 ∨ z = 3 ∨ z = 4) ∧ tH - hy ≤ x then 1
    else if zone = 4 ∧ x ≤ tLL + hy then 4
    else if zone = 3 ∧ (z = 0 ∨ z = 1 ∨ z = 2) ∧ x ≤ tL + hy then 3
    else z

/-- An action zone of a set (R329). -/
def State.actionZone (s : State) (set z : Nat) : Bool := if bit (s.parN P.LIMIT_FLAGS set) 2 then z != 0 else z == 2 || z == 4

/-- The FAULT pins that the action of a set drives (R329). -/
def State.pinMask (s : State) (set : Nat) : Nat := if s.par P.LIMIT_ACTION set = 1 then s.parN P.LIMIT_ARG set % 16 else 0

/-- A subscription covers a slot (R335). -/
def Sub.covers (u : Sub) (k : Nat) : Bool := decide (u.first ≤ k ∧ k < u.first + u.count)

/-- The EVENTS subscriptions that a limit event of a set goes to: those that cover the slot, if
NOTIFY is set (R327, R335). -/
def State.eventSubs (s : State) (set k : Nat) : List Nat :=
  if bit (s.parN P.LIMIT_FLAGS set) 1 then (s.pool.subs.filter (fun u => !u.values && u.covers k)).map (·.id) else []

/-- A limit event goes to the Silt log, to Onolael's event queue and to the action stage (R327, R329). -/
def State.limitEvent (s : State) (e : LimitEvent) : State :=
  let fl := s.parN P.LIMIT_FLAGS e.set
  let data : Nat := e.value + e.set * 2 ^ 32 + e.new * 2 ^ 48 + e.old * 2 ^ 52
  let s1 := if bit fl 0 then s.log (if e.slot < 65536 then 0x0C01 else 0x0C02) (e.slot % 65536) data else s
  let s2 := s1.modPool (fun p => { p with events := p.events ++ [e], eventCnt := bump p.eventCnt })
  let was := s.actionZone e.set e.old
  let is := s.actionZone e.set e.new
  let code := s.parN P.LIMIT_ACTION e.set
  let arg := s.parN P.LIMIT_ARG e.set
  if is ∧ ¬ was then
    let s3 := s2.setSlot e.slot { s2.slot e.slot with act := true, pins := s.pinMask e.set }
    let s4 := if code = 1 then s3 else s3.log 0x0C03 e.set (e.slot + code * 2 ^ 24 + arg * 2 ^ 32 : Nat)
    let s5 := if code = 4 then s4.spateReq 2 (arg % 256)
      else if code = 2 ∨ code = 3 then s4.modPool (fun p => { p with acts := p.acts ++ [⟨code, arg, e.slot⟩] }) else s4
    s5.faultScan
  else if ¬ is ∧ (s2.slot e.slot).act then (s2.setSlot e.slot { s2.slot e.slot with act := false, pins := 0 }).faultScan
  else s2

/-- A slot written by an update; FAULT pins follow where the pins that it drives change (R143, R328). -/
def State.slotPut (s : State) (k pins : Nat) (q : Slot) : State :=
  if q.pins = pins then s.setSlot k q else (s.setSlot k q).faultScan

/-- One update of a slot (R325); an action in force follows its set from the first update after a commit (R328). -/
def State.slotUpdate (s : State) (k v t : Nat) : State :=
  let r := s.slot k
  let d := s.desc k
  let set := bits d 13 0
  let z := s.zoneOf set (descFmt d) r.zone v
  let s0 := s.modPool (fun p => { p with updates := (p.updates + 1) % 2 ^ 64 })
  let pins := if r.act then s.pinMask set else r.pins
  let q : Slot := { r with value := v, time := t, wrote := s.clk.tick, valid := true, pins := pins }
  if bit d 14 = false ∨ z = r.zone then s0.slotPut k r.pins { q with cnt := 0 }
  else
    let c := min (r.cnt + 1) 255
    if max 1 (s.parN P.LIMIT_DEBOUNCE set) ≤ c then
      (s0.slotPut k r.pins { q with cnt := 0, zone := z }).limitEvent
        ⟨k, set, r.zone, z, v, t, s.eventSubs set k⟩
    else s0.slotPut k r.pins { q with cnt := c }

/-- An update of a slot, discarded where its read of the record found a double-bit error (R325, R332). -/
def State.poolUpdate (s : State) (k v t : Nat) : State :=
  if s.pool.drops.contains k then s.modPool (fun p => { p with drops := p.drops.erase k }) else s.slotUpdate k v t

/-- A slot cleared as a descriptor change clears it: zone, count, action (R328). -/
def State.slotRearm (s : State) (k : Nat) : State :=
  let r := s.slot k
  (s.setSlot k { r with zone := 0, cnt := 0, act := false, pins := 0 }).faultScan

/-- The slot of a node's point, where the point lies in its block (R258). -/
def State.nodeSlot (s : State) (a p : Nat) : Option Nat :=
  if p < s.parN P.PORT_NODE_SLOTS a ∧ s.parN P.PORT_NODE_BASE a ≠ 0xFFFFFFFF then some (s.parN P.PORT_NODE_BASE a + p) else none

/-- The slot of an internal source's point (R317). -/
def State.srcSlot (s : State) (src p : Nat) : Option Nat :=
  if p < s.parN P.POOL_SRC_SLOTS src ∧ s.parN P.POOL_SRC_BASE src ≠ 0xFFFFFFFF then some (s.parN P.POOL_SRC_BASE src + p) else none

/-- A frame of an internal source put in its queue of eight (R317, R331): the values its block has room for. -/
def State.srcPush (s : State) (src : Fin 3) (fr : List (Nat × Nat × Nat)) : State :=
  let kept := fr.filter (fun q => (s.srcSlot src q.1).isSome)
  if kept = [] then s else s.modPool (fun p => { p with src := upd p.src src (· ++ [kept]) })

/-- The output state of a node under R307, where its point is fresh: 255 otherwise. -/
def State.outState (s : State) (a : Nat) : Nat :=
  match s.nodeSlot a (s.parN P.NODE_STATE_PT a) with
  | none => 255
  | some k => if s.slotFresh k 10000000 then (s.slot k).value else 255

/-- NODE_OUT_STATE logged at a change of the value a node reports, 255 once it is not fresh (R307, R314). -/
def State.outScan (s : State) (a : Nat) : State :=
  let v := s.outState a
  let old := (s.node a).outState
  if v = old then s else (s.modNode a (fun x => { x with outState := v })).log 0x0B0A a (v % 256 + old % 256 * 256 : Nat)

/-- An update of a node's output state: a change is logged, and a 2 is the droop fallback of R187 (R307, R314). -/
def State.outTake (s : State) (a : Nat) : State :=
  let s1 := s.outScan a
  if s.outState a = 2 then (s1.membersOf a).foldl (fun (t : State) (m : Fin 64) => t.mbrDroop m (s.node a).epoch) s1 else s1

end Sys2Proof.Machine
end

