-- ==== Sys2Proof/Machine/BattOps.lean ====
section
/-! DEFINITION. The battery strings' shared operations: measurements, the open-circuit table,
anchors, empty, cut-off, learning, the
export record (R226 to R252). -/

namespace Sys2Proof.Machine

/-- One mAs in the unit of the charge remainders. -/
def mAs : Nat := 8000000000000

/-- The learned values in force (R249). -/
def Batt.learned (x : Batt) : Learned := x.buf[x.active]

/-- The capacity in force in mAs (R234). -/
def Batt.cap (x : Batt) : Nat := x.learned.cap * 3600

/-- BATT_SOC in 0.01 % (R234, R239, R242). -/
def Batt.soc (x : Batt) : Nat :=
  if x.fl.disagree ∧ x.zero = false then 100
  else
    let r := (clampI 0 10000 (nearEven (x.q * 10000) x.cap)).toNat
    if x.fl.full then r else min r 9900

/-- SOC_VALID (R231). -/
def Batt.socValid (x : Batt) : Bool := x.fl.present && !x.fl.unrested && !x.fl.srcBad && !x.fl.vBad && !x.fl.iBad

/-- BATT_STATUS (R252). -/
def Batt.status (x : Batt) : Nat :=
  let f := x.fl
  ([f.present, x.socValid, f.unrested, f.unrestored, f.resting, f.flat, f.full, f.empty, f.cutoff, f.disagree, f.learning, f.lowRate,
    f.vBad, f.tBad, f.iBad, f.learnDone].zipIdx.map (fun q => b2n q.1 * 2 ^ q.2)).sum

/-- The flags of a string changed. -/
def State.modBf (s : State) (b : Fin 8) (f : BattFlags → BattFlags) : State := s.modBatt b (fun x => { x with fl := f x.fl })

/-- The slots a list parameter names for a string (R226, R229). -/
def State.battSlots (s : State) (p : Prm) (b : Fin 8) : List Nat :=
  ((List.range 16).map (fun e => s.parN p (b.val * 16 + e))).filter (· != 0xFFFFFFFF)

/-- Those of them that are fresh (R228). -/
def State.battFresh (s : State) (p : Prm) (b : Fin 8) : List Nat :=
  (s.battSlots p b).filter (fun k => s.slotFresh k (s.parN P.BATT_V_STALE b * 1000000))

/-- A number put in order. -/
def insertInt (x : Int) : List Int → List Int
  | [] => [x]
  | y :: ys => if x ≤ y then x :: y :: ys else y :: insertInt x ys

/-- The median, the lower middle value of an even count (R228). -/
def medianLow (l : List Int) : Int := (l.foldl (fun a x => insertInt x a) []).getD ((l.length - 1) / 2) 0

/-- V_corr of a string at a current (R228). -/
def State.battCorr (s : State) (b : Fin 8) (v i : Int) : Int := v + nearHalfAway (i * s.par P.BATT_RINT b) 1000000

/-- The voltage and temperature of a string at a sample (R228, R229, R231). -/
def State.battMeasure (s : State) (b : Fin 8) : State :=
  let vs := s.battFresh P.BATT_V_PT b
  let ts := s.battFresh P.BATT_T_PT b
  let bad : Bool := decide (vs.length < s.parN P.BATT_V_MIN_SRC b)
  s.modBatt b (fun x => { x with
    v := if bad then x.v else medianLow (vs.map (fun k => s.slotIn k (-3)))
    t := if ts = [] then s.par P.BATT_T_FIX b else nearHalfAway (sumI ts (fun k => s.slotIn k (-1))) ts.length
    fl := { x.fl with vBad := bad, tBad := ts.isEmpty, srcBad := x.fl.srcBad || bad } })

/-- The two columns of a chemistry slot that bracket a temperature, and the weight toward the second
as a fraction (R233). -/
def State.ocvColumns (s : State) (chem : Nat) (t : Int) : Nat × Nat × Int × Int :=
  let c (k : Nat) : Int := s.par P.BATT_OCV_TCOL (chem * 4 + k)
  if t ≤ c 0 then (0, 0, 0, 1) else if c 3 ≤ t then (3, 3, 0, 1)
  else if t < c 1 then (0, 1, t - c 0, c 1 - c 0) else if t < c 2 then (1, 2, t - c 1, c 2 - c 1) else (2, 3, t - c 2, c 3 - c 2)

/-- The look-up of R233 for a string: the state of charge in 0.01 %, and whether the slope reaches
BATT_OCV_MIN_SLOPE. Voltages
are compared in 0.1 mV x the weight's divisor x cells, so that nothing is rounded before the end. -/
def State.ocvLookup (s : State) (b : Fin 8) : Int × Bool :=
  let chem := s.parN P.BATT_CHEM b
  let x := s.batt[b]
  let q := s.ocvColumns chem x.t
  let cells := s.par P.BATT_CELLS b
  let v := x.vcorr * 10 * q.2.2.2
  let u (p : Nat) : Int :=
    let a := s.par P.BATT_OCV_V (chem * 128 + p * 4 + q.1)
    let z := s.par P.BATT_OCV_V (chem * 128 + p * 4 + q.2.1)
    (a * q.2.2.2 + (z - a) * q.2.2.1) * cells
  let soc (p : Nat) : Int := s.par P.BATT_OCV_SOC (chem * 32 + p)
  if v ≤ u 0 then (0, decide (s.par P.BATT_OCV_MIN_SLOPE b ≤ 0))
  else if u 31 ≤ v then (10000, decide (s.par P.BATT_OCV_MIN_SLOPE b ≤ 0))
  else match (List.range 31).find? (fun p => decide (u p ≤ v ∧ v < u (p + 1))) with
    | none => (10000, false)
    | some p =>
      let du := u (p + 1) - u p
      let ds := soc (p + 1) - soc p
      (nearEven ((soc p * du + ds * (v - u p)) * 10) du,
       decide (s.par P.BATT_OCV_MIN_SLOPE b * ds * q.2.2.2 * cells ≤ 100 * du))

/-- Q_rem set to a share of the capacity in 0.01 %. -/
def Batt.setSoc (x : Batt) (soc : Int) : Batt := { x with q := nearHalfAway (soc * x.cap) 10000, qFrac := 0 }

/-- A learning attempt is cancelled for a cause (R245). -/
def State.battCancel (s : State) (b : Fin 8) (cause : Nat) : State :=
  if s.batt[b].fl.learning then
    (s.modBf b (fun f => { f with learning := false })).log 0x0906 b.val (lohi cause (s.batt[b].qDis / 3600 : Nat))
  else s

/-- BATT_ANCHOR of a kind, from the state of charge before (R254). -/
def State.battAnchorLog (s : State) (b : Fin 8) (kind before : Nat) : State :=
  s.log 0x0903 b.val (kind + before * 2 ^ 16 + s.batt[b].soc * 2 ^ 32 : Nat)

/-- The estimate formed from voltage at an insertion or REESTIMATE (R240). -/
def State.battEstimate (s : State) (b : Fin 8) : State :=
  let before := s.batt[b].soc
  let soc := (s.ocvLookup b).1
  let s1 := s.battCancel b 5
  (s1.modBatt b (fun x => { x.setSoc soc with
    fl := { x.fl with unrested := true, full := false, empty := false, disagree := false, srcBad := false } })).battAnchorLog b 4 before

/-- The learned values of a string replaced through the other buffer; the reported state of charge stands (R249). -/
def State.battLearned (s : State) (b : Fin 8) (r : Learned) : State :=
  s.modBatt b (fun x =>
    let k : Fin 2 := if x.active = 0 then 1 else 0
    { x with buf := x.buf.set k.val r k.isLt, active := k, q := nearHalfAway ((x.soc : Int) * (r.cap * 3600 : Nat)) 10000, qFrac := 0 })

/-- The export record of a string (R250). -/
def State.battRecord (s : State) (b : Fin 8) : List Byte :=
  let l := s.batt[b].learned
  let r := leBytes 1 1 ++ leBytes 1 b.val ++ leBytes 1 (s.parN P.BATT_CHEM b) ++ leBytes 1 0 ++ leBytes 4 (s.parN P.BATT_STRING_ID b) ++
    leBytes 4 l.gen ++ leBytes 4 l.cap ++ leBytes 4 l.cycles ++ leBytes 2 l.cnt ++ leBytes 2 l.rej ++ leBytes 8 l.thru ++
    leBytes 8 s.clk.shelf ++ leBytes 4 (s.parN P.BATT_CAP_NOM b)
  r ++ leBytes 4 (crc32c r)

/-- The capacity learned from a discharge from full to empty is taken or not (R246). -/
def State.battLearn (s : State) (b : Fin 8) : State :=
  let x := s.batt[b]
  let l := x.learned
  let c : Int := x.cap
  let new : Int := x.qDis
  let nom : Int := s.par P.BATT_CAP_NOM b * 3600
  let w := s.parN P.BATT_LEARN_WEIGHT b
  let ok : Bool := decide ((new - c).natAbs * 100 ≤ s.parN P.BATT_LEARN_MAX_STEP b * x.cap ∧
    s.par P.BATT_CAP_MIN b * nom ≤ new * 100 ∧ new * 100 ≤ s.par P.BATT_CAP_MAX b * nom)
  let s1 := s.modBf b (fun f => { f with learning := false, learnDone := f.learnDone || ok })
  if ok then
    let cap := (nearHalfAway (c * 2 ^ w + (new - c)) (3600 * 2 ^ w)).toNat
    let s2 := s1.battLearned b { l with cap := cap, gen := (l.gen + 1) % 2 ^ 32, cnt := (l.cnt + 1) % 2 ^ 16 }
    (s2.log 0x0907 b.val (lohi (x.qDis / 3600 : Nat) cap)).noticeAll 1 0x8006 (s2.battRecord b)
  else
    (s1.modBatt b (fun y => { y with buf := upd y.buf y.active (fun r => { r with rej := (r.rej + 1) % 2 ^ 16 }) })).log 0x0908 b.val
      (lohi (x.qDis / 3600 : Nat) l.cap)

/-- Cut-off declared for a cause (R243): 1 voltage, 2 empty action. -/
def State.battCut (s : State) (b : Fin 8) (cause : Nat) : State :=
  if s.batt[b].fl.cutoff then s
  else (s.modBatt b (fun x => { x with chgCut := 0, cutOrd := s.ord + 1, fl := { x.fl with cutoff := true } })).log 0x0909 b.val
    (lohi (1 + cause * 256 : Nat) s.batt[b].v)

/-- Cut-off cleared (R244): 3 charge counted, 4 host. -/
def State.battUncut (s : State) (b : Fin 8) (cause : Nat) : State :=
  if s.batt[b].fl.cutoff then
    (s.modBatt b (fun x => { x with cutAt := none, uncutOrd := s.ord + 1, fl := { x.fl with cutoff := false } })).log 0x0909 b.val (lohi (cause * 256 : Nat) s.batt[b].v)
  else s

/-- Voltage empty declared (R241, R243, R246). -/
def State.battEmpty (s : State) (b : Fin 8) : State :=
  let before := s.batt[b].soc
  let s1 := (s.modBatt b (fun x => { x with
    q := 0, qFrac := 0, chgEmpty := 0, fl := { x.fl with empty := true, disagree := false, srcBad := false } })).battAnchorLog b 3 before
  let s2 := if s.batt[b].fl.learning then s1.battLearn b else s1
  if s.par P.BATT_EMPTY_ACTION b = 1 then s2.battCut b 2 else s2

/-- An interval of counting starts at this instant: nothing heard before it enters the count or a
running time (R226, R234). -/
def State.battStart (s : State) (b : Fin 8) : State :=
  s.modBatt b (fun x => { x with
    msAt := s.clk.tick, sampleAt := s.clk.tick, acc := 0, part := 0
    restAt := none, restFrom := none, fullAt := none, emptyAt := none, cutAt := none, badAt := none })

/-- The H state of every string lost, with the learning attempts that it cancels (R245, R248). -/
def State.battLose (s : State) : State :=
  (fins 8).foldl (fun (t : State) (b : Fin 8) => (t.battCancel b 7).modBatt b (fun _ => { Batt.reset with
    msAt := s.clk.tick, sampleAt := s.clk.tick })) s

/-- The times since which the conditions of full, voltage empty, cut-off and absence have held
(R230, R238, R241, R243). A string that has
never been present has no voltage. -/
def State.battTimers (s : State) (b : Fin 8) : State :=
  let now := s.clk.tick
  s.modBatt b (fun x => { x with
    fullAt := holdFrom (decide (x.i < 0 ∧ s.par P.BATT_V_FULL b ≤ x.v ∧ x.i.natAbs ≤ s.parN P.BATT_I_TAPER b)) x.fullAt now
    emptyAt := holdFrom (x.ever && decide (x.vcorr ≤ s.par P.BATT_V_EMPTY b)) x.emptyAt now
    cutAt := holdFrom (x.ever && decide (x.v ≤ s.par P.BATT_V_CUTOFF b)) x.cutAt now
    badAt := holdFrom x.fl.vBad x.badAt now })

end Sys2Proof.Machine
end

