-- ==== Sys2Proof/Machine/CtrlOps.lean ====
section
/-! DEFINITION. A control parameter written by a host (R398, R402, R404): the permits it needs, then
its effect and status. -/

namespace Sys2Proof.Machine

/-- What a control that was taken leaves behind its effect: `ctl` holds its status, and an accepted
one renews the leases of the permits it
needed and still has (R397, R398). -/
def State.ctlDone (s : State) (k : Fin 8) (permits : List Nat) (st : Nat) : State :=
  (if st = stOk then s.useRenew (permits.filter (fun i => s.holds k i)) else s).modHost (fun h => { h with ctl := st })

/-- A control of a session that needs the named permits, taken by an active stem alone (R19):
NO_PERMIT without them, BUSY_SUPPLY while
BROWN_WARN is active, else the
control's own effect and status (R397, R398, R405, R416). -/
def State.control (s : State) (k : Fin 8) (permits : List Nat) (f : State → State × Nat) : State :=
  if s.hasActive = false then s
  else if s.brownWarn then s.modHost (fun h => { h with ctl := stBusySupply })
  else if (s.sess k).state = .isOpen ∧ permits.all (fun i => s.holds k i) then
    (f s).1.ctlDone k permits (f s).2
  else s.modHost (fun h => { h with ctl := stNoPermit })

end Sys2Proof.Machine
end

