-- ==== Sys2Proof/Machine/Battery.lean ====
section
/-! DEFINITION. Battery state estimation: count samples, anchors, empty and cut-off, the controls (R227 to R246). -/

namespace Sys2Proof.Machine

/-- The current of a POINT source in mA, and whether its slot is stale (R227). -/
def State.battPoint (s : State) (b : Fin 8) : Int × Bool :=
  let k := s.parN P.BATT_I_PT b
  if s.slotFresh k (s.parN P.BATT_V_STALE b * 1000000) then (s.slotIn k (-3), false) else (0, true)

/-- The charge of a sample enters Q_rem, throughput, cycles, Q_dis and the charge counted in (R234,
R236, R239, R245). -/
def State.battCount (s : State) (b : Fin 8) (ch : Int) : State :=
  let eff := s.par P.BATT_CHG_EFF b
  s.modBatt b (fun x =>
    let out := (ch * 1000).toNat
    let in_ := (-ch * eff).toNat
    let t := x.qFrac + in_ - out
    let q := x.q + t.fdiv mAs
    let full := !x.fl.full && decide ((x.cap : Int) ≤ q)
    let dis := x.disFrac + out
    let cyc := x.cycFrac + out
    let per := max 1 (x.learned.cap * 36 * mAs)
    let qd := x.qDisFrac + out
    { x with
      q := if full then x.cap else q, qFrac := if full then 0 else t % (mAs : Int)
      disFrac := dis % (1000 * mAs), cycFrac := cyc % per
      qDis := if x.fl.learning then x.qDis + qd / mAs else x.qDis, qDisFrac := if x.fl.learning then qd % mAs else x.qDisFrac
      chgEmpty := x.chgEmpty + in_, chgCut := x.chgCut + in_
      buf := upd x.buf x.active (fun l => { l with
        thru := (l.thru + dis / (1000 * mAs)) % 2 ^ 64, cycles := (l.cycles + cyc / per) % 2 ^ 32 }) })

/-- The rest timer, FULL with the limit of Q_rem, EMPTY and CUTOFF after a sample's current (R237,
R238, R239, R241, R244). -/
def State.battFlags (s : State) (b : Fin 8) : State :=
  let x := s.batt[b]
  let rest : Bool := decide (x.i.natAbs < s.parN P.BATT_I_REST b)
  let full : Bool := x.fl.full && decide (x.i ≤ 0 ∨ x.i < s.par P.BATT_I_REST b)
  let one := x.learned.cap * 36 * mAs
  let s1 := s.modBatt b (fun y => { y with
    restAt := holdFrom rest y.restAt s.clk.tick, restFrom := holdFrom rest y.restFrom s.clk.tick
    q := if full then y.q else min y.q y.cap, qFrac := if full ∨ y.q < y.cap then y.qFrac else 0
    fl := { y.fl with
      resting := y.fl.resting && rest, full := full
      empty := y.fl.empty && decide (x.chgEmpty < one) } })
  if x.fl.cutoff ∧ s.parN P.BATT_CUT_RELEASE b * one ≤ x.chgCut then s1.battUncut b 3 else s1

/-- A discharge sample that brings the count from `q0` to 0 or below while EMPTY is clear (R241,
R242). A count that runs
below 0 because the voltage disagreed, or that no voltage has yet given, goes on. -/
def State.battZero (s : State) (b : Fin 8) (ch q0 : Int) : State :=
  let x := s.batt[b]
  let level := s.par P.BATT_V_EMPTY b + s.par P.BATT_DISAGREE_MARGIN b
  if ch ≤ 0 ∨ x.fl.empty ∨ 0 < x.q ∨ (q0 ≤ 0 ∧ (x.ever = false ∨ (x.fl.disagree ∧ x.zero = false))) then s
  else if x.fl.vBad then s.battEmpty b
  else if level < x.vcorr then
    ((s.modBatt b (fun y => { y with zero := false, fl := { y.fl with disagree := true } })).log 0x0904 b.val (lohi x.vcorr level)).battCancel b 3
  else s.modBatt b (fun y => { y with q := 0, qFrac := 0, zero := true })

/-- The conditions that cancel a learning attempt at a sample, in the order of R245. -/
def State.battLearnCheck (s : State) (b : Fin 8) : State :=
  let x := s.batt[b]
  if x.i < 0 ∧ x.i ≤ -s.par P.BATT_I_REST b then s.battCancel b 1
  else if x.fl.tBad ∨ x.t < s.par P.BATT_LEARN_TMIN b ∨ s.par P.BATT_LEARN_TMAX b < x.t then s.battCancel b 2
  else if x.fl.iBad then s.battCancel b 4
  else s

/-- A string whose voltage is valid again becomes present (R230). -/
def State.battPresence (s : State) (b : Fin 8) : State :=
  let x := s.batt[b]
  if x.fl.present ∨ x.fl.vBad then s
  else
    let ins : Bool := !x.ever || decide (x.absentAt + s.parN P.BATT_REINSERT_TIME b * 250000000 ≤ s.clk.tick)
    let s1 := (s.modBatt b (fun y => { y with ever := true, fl := { y.fl with present := true } })).log 0x0901 b.val
      (lohi (if ins then 1 else 2) x.v)
    if ins then s1.battEstimate b else s1

/-- A count sample of a string over the interval since the last one, in which charge `ch` passed
(R228, R234 to R245). -/
def State.battSample (s : State) (b : Fin 8) (ch : Int) : State :=
  let dt := s.clk.tick - s.batt[b].sampleAt
  let i := if dt = 0 then s.batt[b].i else nearHalfAway ch (dt * 32)
  let s1 := (s.modBatt b (fun x => { x with i := i, vcorr := s.battCorr b x.v i, sampleAt := s.clk.tick, part := 0 })).battCount b ch
  ((s1.battLearnCheck b).battFlags b).battZero b ch s.batt[b].q

/-- BATT_COUNT_SAMPLE: the end of a millisecond of a string. A string that is not estimated counts
nothing (R226). At the low rate the millisecond only adds to the running interval, until
a 100 ms boundary or a millisecond at or above BATT_I_LOW ends it (R227, R234, R235). -/
def execBattCountSample (b : Fin 8) (s : State) : Res :=
  if s.hasActive = false then .next s
  else if s.par P.BATT_ENABLE b = 0 then .next (s.battStart b)
  else
    let x := s.batt[b]
    let dt := s.clk.tick - x.msAt
    let pt := s.battPoint b
    let loop : Bool := s.par P.BATT_I_SRC b == 0
    let ch : Int := if loop then x.acc else pt.1 * (dt * 32 : Nat)
    let big : Bool := decide (s.parN P.BATT_I_LOW b * dt * 32 ≤ ch.natAbs)
    let edge : Bool := x.msAt / 25000000 != s.clk.tick / 25000000
    let due : Bool := !x.fl.lowRate || edge || big
    let whole : Int := if loop ∨ x.fl.lowRate = false then x.part + ch else pt.1 * ((s.clk.tick - x.sampleAt) * 32 : Nat)
    let iBad : Bool := !loop && pt.2
    let s1 := (s.stamp.modBatt b (fun y => { y with
      acc := 0, part := y.part + ch, msAt := s.clk.tick, below := !big
      fl := { y.fl with
        iBad := iBad, srcBad := y.fl.srcBad || iBad
        lowRate := if y.fl.lowRate then !big else edge && x.below && !big } })).battMeasure b
    let s2 := if due then s1.battSample b whole else s1.modBatt b (fun y => { y with vcorr := s.battCorr b y.v y.i })
    .next ((s2.battPresence b).battTimers b)

/-- BATT_REST_ANCHOR: BATT_T_REST of unbroken rest, since its start or the last rest anchor (R237). -/
def execBattRestAnchor (b : Fin 8) (s : State) : Res :=
  let x := s.batt[b]
  .next (if s.par P.BATT_ENABLE b = 0 ∨ s.held x.restFrom (s.parN P.BATT_T_REST b * 250000000) = false then s
  else
    let r := s.ocvLookup b
    let before := x.soc
    let s1 := s.modBatt b (fun y => { y with restFrom := some s.clk.tick, fl := { y.fl with resting := true } })
    if r.2 then
      (s1.modBatt b (fun y => { y.setSoc r.1 with
        fl := { y.fl with flat := false, unrested := false, disagree := false, srcBad := false } })).battAnchorLog b 0 before
    else
      let s2 := s1.modBf b (fun f => { f with flat := true })
      (if x.fl.unrested then s2.modBatt b (fun y => y.setSoc r.1) else s2).battAnchorLog b 1 before)

/-- BATT_FULL_ANCHOR: the conditions of full have held for BATT_T_FULL (R238, R245). -/
def execBattFullAnchor (b : Fin 8) (s : State) : Res :=
  let x := s.batt[b]
  .next (if s.par P.BATT_ENABLE b = 0 ∨ x.fl.full ∨ s.held x.fullAt (s.parN P.BATT_T_FULL b * 250000000) = false then s
  else
    let before := x.soc
    let s1 := (s.modBatt b (fun y => { y with
      q := y.cap, qFrac := 0
      fl := { y.fl with full := true, unrested := false, disagree := false, srcBad := false } })).battAnchorLog b 2 before
    if s.par P.BATT_LEARN_TMIN b ≤ x.t ∧ x.t ≤ s.par P.BATT_LEARN_TMAX b then
      (s1.modBatt b (fun y => { y with qDis := 0, qDisFrac := 0, fl := { y.fl with learning := true } })).log 0x0905 b.val x.t
    else s1)

/-- BATT_VOLTAGE_EMPTY: V_corr at or below BATT_V_EMPTY for BATT_EMPTY_FILT (R241). -/
def execBattVoltageEmpty (b : Fin 8) (s : State) : Res :=
  .next (if s.par P.BATT_ENABLE b = 1 ∧ s.batt[b].fl.empty = false ∧ s.held s.batt[b].emptyAt (s.parN P.BATT_EMPTY_FILT b * 250000) then s.battEmpty b else s)

/-- BATT_CUTOFF: V at or below BATT_V_CUTOFF for BATT_CUT_FILT (R243). -/
def execBattCutoff (b : Fin 8) (s : State) : Res :=
  .next (if s.par P.BATT_ENABLE b = 1 ∧ s.held s.batt[b].cutAt (s.parN P.BATT_CUT_FILT b * 250000) then s.battCut b 1 else s)

/-- BATT_ABSENT: V invalid for BATT_V_STALE (R230). -/
def execBattAbsent (b : Fin 8) (s : State) : Res :=
  .next (if s.par P.BATT_ENABLE b = 1 ∧ s.batt[b].fl.present ∧ s.held s.batt[b].badAt (s.parN P.BATT_V_STALE b * 250000) then
    (s.modBatt b (fun x => { x with absentAt := s.clk.tick, fl := { x.fl with present := false } })).log 0x0902 b.val
      ((s.battFresh P.BATT_V_PT b).length + s.batt[b].soc * 2 ^ 16 : Nat)
  else s)

/-- BATT_CTRL CLEAR_CUTOFF (R244). -/
def State.battClearCutoff (s : State) (b : Fin 8) : State × Nat := (s.battUncut b 4, stOk)

/-- BATT_CTRL CANCEL_LEARN (R245). -/
def State.battCancelLearn (s : State) (b : Fin 8) : State × Nat := (s.battCancel b 6, stOk)

/-- BATT_CTRL REESTIMATE (R240). -/
def State.battReestimate (s : State) (b : Fin 8) : State × Nat := (s.battEstimate b, stOk)

/-- BATT_CTRL_CLEAR_CUTOFF. -/
def execBattCtrlClearCutoff (b : Fin 8) (sess : Fin 8) (s : State) : Res := .next (s.control sess [3] (fun t => t.battClearCutoff b))

/-- BATT_CTRL_CANCEL_LEARN. -/
def execBattCtrlCancelLearn (b : Fin 8) (sess : Fin 8) (s : State) : Res := .next (s.control sess [3] (fun t => t.battCancelLearn b))

/-- BATT_CTRL_REESTIMATE. -/
def execBattCtrlReestimate (b : Fin 8) (sess : Fin 8) (s : State) : Res := .next (s.control sess [3] (fun t => t.battReestimate b))

end Sys2Proof.Machine
end

