-- ==== Sys2Proof/Machine/FeedOps.lean ====
section
/-! DEFINITION. The Bank die's shared operations: its parameter set, its gates, the feed-loss line,
leaving PRECHARGE and CONNECTED
(R150 to R176). -/

namespace Sys2Proof.Machine

/-- The Bank die changed by `f`. -/
def State.modBank (s : State) (f : Bank → Bank) : State := { s with bank := f s.bank }

/-- Feed `f` changed. -/
def State.modFeed (s : State) (f : Fin 2) (g : Feed → Feed) : State := s.modBank (fun b => { b with feed := upd b.feed f g })

/-- A parameter in force at the Bank die (R162, R174). -/
def State.bpar (s : State) (p : Prm) (i : Nat) : Int := cfgGet s.bank.set p i

/-- The same for a parameter that is never negative. -/
def State.bparN (s : State) (p : Prm) (i : Nat) : Nat := (s.bpar p i).toNat

/-- WIN_OK: both windows determined and clear (R159). -/
def Feed.winOk (x : Feed) : Bool := x.uv.set == some false && x.ov.set == some false

/-- A feed is available (R170). -/
def Feed.avail (x : Feed) : Bool := x.state == .connected && !x.lossLow

/-- FEED_STATUS (R179). -/
def Feed.status (x : Feed) : Nat :=
  ([x.uv.set == some true, x.ov.set == some true, x.winOk, x.go, x.rev, x.gm, x.gp, x.soaLimit, x.avail, x.fast, x.i2t, x.inrush,
    x.gateFail, x.fetShort, x.lossLow].zipIdx.map (fun q => b2n q.1 * 2 ^ q.2)).sum

/-- The number FEED_STATE reads (R182). -/
def FeedState.code : FeedState → Nat
  | .off => 0 | .qualify => 1 | .insert => 2 | .precharge => 3 | .connected => 4 | .tripped => 5 | .lockout => 6

/-- FEED_BANK_STATUS at the die (R180). -/
def Bank.status (b : Bank) : Nat :=
  ([b.configured, b.hbOk, b.srcValid, b.armed, b.line, b.oscLocked, b.energyGap, b.chErr].zipIdx.map (fun q => b2n q.1 * 2 ^ q.2)).sum

/-- FEED_I2T_NOW in 0.1 % of the limit in force (R167, R182). -/
def Bank.i2tNow (b : Bank) (f : Fin 2) : Nat :=
  min 1000 (b.feed[f].a2t * 1000 / ((cfgGet b.set P.FEED_I2T_LIMIT f).toNat * 31250000000))

/-- What the die reports of a feed (R158, R175). -/
def Bank.report (b : Bank) (f : Fin 2) : FeedSeen :=
  let x := b.feed[f]
  ⟨x.state, x.status, x.v, x.i, x.p, x.eImp, x.eExp, b.i2tNow f, x.retries, x.trips⟩

/-- The frame of Bank telemetry that the state gives at a shelf time (R158, R175). -/
def Bank.frame (b : Bank) (step : Bool) (now : Nat) : BankTlm := ⟨tab 2 (fun f => b.report f), b.vbus, b.status, step, now, b.tripped⟩

/-- A bit of FEED_STATUS as the stems last saw it (R175, R179). -/
def State.seenBit (s : State) (f : Fin 2) (n : Nat) : Bool := bit s.bank.seen.feed[f].status n

/-- The gates of a feed driven, with the tick of each change; GMx is regulated no more (R172, R173). -/
def Feed.drive (x : Feed) (t : Nat) (go gm gp : Bool) : Feed :=
  { x with
    go := go, gm := gm, gp := gp, reg := false
    goAt := if go = x.go then x.goAt else t
    gmAt := if gm = x.gm ∧ x.reg = false then x.gmAt else t
    gpAt := if gp = x.gp then x.gpAt else t }

/-- A frame of telemetry sent (R175). -/
def State.bankSend (s : State) (step : Bool) : State := s.modBank (fun b => { b with tlm := b.tlm ++ [b.frame step s.clk.shelf], tripped := [] })

/-- The output comparer has a valid Bank-command source: a stem is ACTIVE (R176, R443). -/
def State.bankSource (s : State) : Bool := s.hasActive

/-- The Bank die is not in thermal shutdown (R472). -/
def State.bankCool (s : State) : Bool := s.therm.die[(7 : Fin 8)].st == .run

/-- The die acts on commands, and on timers that wait for SRC_VALID (R176, R472). -/
def State.bankActs (s : State) : Bool := s.bank.on && s.bank.hbOk && s.bank.srcValid && s.bankCool

/-- A feed may leave INSERT: gates stay low until the die holds a committed set (R152, R176). -/
def State.bankGo (s : State) : Bool := s.bankActs && s.bank.configured

/-- A command frame leaves for the Bank die through the comparer, while BK_HV is on (R18, R23, R176). -/
def State.bankCmd (s : State) (c : FeedCmd) : State :=
  if s.bank.on then (s.modBank (fun b => { b with cmds := b.cmds ++ [c] })).output 3 else s

/-- Some feed is available. -/
def State.anyAvail (s : State) : Bool := (fins 2).any (fun f => s.bank.feed[f].avail)

/-- The feed-loss line after a change at feed `f` (R171): armed the first time a feed is available;
asserted when the last one goes,
with its record, on its way to the stems and the phase dies; released when one comes back. `cause`
is that of FEED_LOSS (R183). -/
def State.lineScan (s : State) (f : Fin 2) (cause : Nat) : State :=
  let av := s.anyAvail
  let s1 := if av && s.bank.configured && !s.bank.armed then s.modBank (fun b => { b with armed := true }) else s
  let s2 :=
    if s1.bank.armed && !av && !s1.bank.line then
      (s1.modBank (fun b => { b with
        line := true, lossAt := s.clk.tick, lineQ := b.lineQ ++ [true], latch := Vector.replicate 4 true })).log 0x060C f.val (lohi (f.val + cause * 256 : Nat) s.bank.vbus)
    else if s1.bank.armed && av && s1.bank.line then
      (s1.modBank (fun b => { b with line := false, lineQ := b.lineQ ++ [false] })).log 0x060D f.val (f.val + (s.clk.tick - s.bank.lossAt) / 250 * 256 : Nat)
    else s1
  s2.bankSend false

/-- FEED_REVERSE of a reverse turn-off that ends now (R169). -/
def State.revRecord (s : State) (f : Fin 2) : State :=
  let x := s.bank.feed[f]
  if x.rev then s.log 0x0609 f.val (lohi x.revMin ((s.clk.tick - x.revAt) / 250 : Nat)) else s

/-- A feed leaves for a state with every gate low (R160); a reverse turn-off in force is logged if
it leaves PRECHARGE or
CONNECTED (R169). -/
def State.feedOpen (s : State) (f : Fin 2) (st : FeedState) : State :=
  (s.revRecord f).modFeed f (fun x => { x.drive s.clk.tick false false false with
    state := st, ideal := false, rev := false, soaLimit := false
    overlap := false, test := false, insAt := none, insDone := false, retryRun := false, retryDue := false })

/-- A trip (R160, R162, R166, R167, R168): GMx and GPx low, GOx as it is, a TEST of it goes on to
its end, the retry timer runs. -/
def State.feedTrip (s : State) (f : Fin 2) : State :=
  (s.revRecord f).modFeed f (fun x => { x.drive s.clk.tick x.go false false with
    state := .tripped, ideal := false, rev := false, soaLimit := false, overlap := false
    tripAt := s.clk.tick, retryLen := s.bparN P.FEED_RETRY_DELAY f, retryRun := true, retryDue := false, trips := bump x.trips })

/-- GATE_FAIL or FET_SHORT takes a feed to LOCKOUT (R160): its own record was made; FEED_LOCKOUT follows. -/
def State.feedLock (s : State) (f : Fin 2) (cause : Nat) : State :=
  ((s.feedOpen f .lockout).log 0x0608 f.val cause).lineScan f 5

/-- A feed becomes CONNECTED and logs it (R160): `how` 0 direct, 1 resistor, 2 dV/dt. -/
def State.feedConnect (s : State) (f : Fin 2) (how : Nat) : State :=
  let x := s.bank.feed[f]
  let ms := if how = 0 then 0 else (s.clk.tick - x.preAt) / 250000
  let s1 := s.modFeed f (fun y => { y.drive s.clk.tick y.go true y.gp with
    state := .connected, conAt := s.clk.tick, overlap := y.gp, soaLimit := false, ideal := true, insAt := none, insDone := false })
  (s1.log 0x0601 f.val ((toWord 32 x.dv + how * 2 ^ 32 + ms * 2 ^ 40 : Nat))).lineScan f 0

/-- INSERT is left (R160, R162 to R165): a direct connection, a precharge through the resistor or by
regulating GMx, or a wait for the
other feed. -/
def State.feedLeaveInsert (s : State) (f : Fin 2) : State :=
  let x := s.bank.feed[f]
  let other : Fin 2 := if f = 0 then 1 else 0
  if x.dv.natAbs ≤ s.bparN P.FEED_PRE_DV f ∨ x.dv < 0 then
    (s.modFeed f (fun y => { y.drive s.clk.tick false false false with rev := false, goAt := s.clk.tick })).feedConnect f 0
  else if s.bank.feed[other].state = .precharge then s
  else
    let dvdt : Bool := s.bpar P.FEED_INRUSH_MODE f == 1
    (s.modFeed f (fun y => { y.drive s.clk.tick false false (!dvdt) with
      state := .precharge, insAt := none, insDone := false, preAt := s.clk.tick, preLen := s.bparN P.FEED_PRE_TMAX f, ideal := true
      goAt := s.clk.tick, rev := false, reg := dvdt, slope := s.bparN P.FEED_DVDT f, soaSteps := 0, soaLen := s.bparN P.FEED_SOA_T f
      a2t := 0, a2tOver := 0, soaLimit := false })).bankSend false

/-- ENABLE at the die (R160). -/
def State.feedEnable (s : State) (f : Fin 2) : State :=
  if s.bank.feed[f].state = .off then (s.modFeed f (fun x => { x with state := .qualify, retries := 0 })).bankSend false else s

/-- DISABLE at the die (R160). -/
def State.feedDisable (s : State) (f : Fin 2) : State :=
  if s.bank.feed[f].state = .off then s
  else ((s.feedOpen f .off).log 0x0602 f.val (lohi 3 s.bank.feed[f].v)).lineScan f 4

/-- The trip of a feed goes to the stems with the next frame of telemetry, where it is a trigger (R175, R360). -/
def State.feedTripped (s : State) (f : Fin 2) : State := s.modBank (fun b => { b with tripped := b.tripped ++ [f] })

/-- The device issues ENABLE for every feed with FEED_AUTO_EN ON that telemetry has shown OFF (R18, R160). -/
def State.autoEnable (s : State) : State :=
  ((fins 2).filter (fun (f : Fin 2) => s.par P.FEED_AUTO_EN f == 1 && s.bank.seen.feed[f].state == .off)).foldl
    (fun (t : State) f => t.bankCmd (.enable f)) s

/-- CLEAR at the die; in LOCKOUT with FEED_AUTO_EN ON, the device issues ENABLE at once (R160, R168). -/
def State.feedClear (s : State) (f : Fin 2) : State :=
  if s.bank.feed[f].state = .lockout then
    let s1 := (s.modFeed f (fun x => { x with state := .off, gateFail := false, fetShort := false })).bankSend false
    if s.par P.FEED_AUTO_EN f = 1 then s1.bankCmd (.enable f) else s1
  else s

/-- TEST is allowed (R173). -/
def State.feedTestOk (s : State) (f : Fin 2) : Bool := s.bank.feed[f].state == .connected && s.bank.feed[f].rev

/-- TEST at the die: GOx high for FEED_T_GATE, REV kept (R173). -/
def State.feedTest (s : State) (f : Fin 2) : State :=
  if s.feedTestOk f then (s.modFeed f (fun x => { x with go := true, goAt := s.clk.tick, test := true })).bankSend false else s

/-- RESET_ENERGY (R157): the values are logged, then both accumulators are 0. The code of the record
is one the spec does not give. -/
def State.feedResetEnergy (s : State) (f : Fin 2) : State :=
  let x := s.bank.feed[f]
  (((s.log Config.energyResetCode f.val x.eImp).log Config.energyResetCode f.val x.eExp).modFeed f (fun y => { y with
    eImp := 0, eExp := 0, eImpRem := 0, eExpRem := 0 }))

/-- W1C fields of FEED_STATUS cleared at the die (R12, R179). -/
def State.feedStatusClear (s : State) (f : Fin 2) (v : Nat) : State :=
  (s.modFeed f (fun x => { x with
    fast := x.fast && !(bit v 9), i2t := x.i2t && !(bit v 10), inrush := x.inrush && !(bit v 11) })).bankSend false

/-- W1C fields of FEED_BANK_STATUS cleared at the die (R12, R180). -/
def State.bankStatusClear (s : State) (v : Nat) : State :=
  (s.modBank (fun b => { b with energyGap := b.energyGap && !(bit v 6), chErr := b.chErr && !(bit v 7) })).bankSend false

/-- The parameters the Bank die holds, each with its number of instances (R174, R182): the kept ones of the chapter. -/
def bankParams : List (Prm × Nat) :=
  [(P.FEED_AUTO_EN, 2), (P.FEED_RSHUNT, 2), (P.FEED_DIV_RATIO, 7), (P.FEED_UV, 2), (P.FEED_UV_HYST, 2), (P.FEED_OV, 2), (P.FEED_OV_HYST, 2),
   (P.FEED_WIN_FILT, 2), (P.FEED_INSERT_DELAY, 2), (P.FEED_INRUSH_MODE, 2), (P.FEED_PRE_DV, 2), (P.FEED_PRE_TMAX, 2), (P.FEED_DVDT, 2),
   (P.FEED_SOA_P, 2), (P.FEED_SOA_T, 2), (P.FEED_PRE_OVERLAP, 2), (P.FEED_FAST_TRIP, 2), (P.FEED_I2T_BASE, 2), (P.FEED_I2T_LIMIT, 2),
   (P.FEED_RETRIES, 2), (P.FEED_RETRY_DELAY, 2), (P.FEED_CLEAN_TIME, 2)] ++
  [(P.FEED_REV_TRIP, 2), (P.FEED_OR_ON, 2), (P.FEED_OR_ON_DLY, 2), (P.FEED_LOSS_LEVEL, 2), (P.FEED_LOSS_HYST, 2), (P.FEED_LOSS_FILT, 2),
   (P.FEED_LOSS_RET, 2), (P.FEED_FETSHORT_V, 2), (P.FEED_FETSHORT_I, 2), (P.FEED_GATE_OK, 2), (P.FEED_T_GATE, 2), (P.FEED_HB_TIMEOUT, 2),
   (P.FEED_CAL_GAIN, 7), (P.FEED_CAL_OFS, 7)]

/-- The keys of every parameter the Bank die holds. -/
def bankKeys : List (Prm × Nat) := bankParams.flatMap (fun q => (List.range q.2).map (fun i => (q.1, i)))

/-- The value of a parameter as a set for the Bank die carries it: under a hard limit the effective
I²t base and limit (R218). -/
def State.bankValue (s : State) (hard : Option (Vector (Option Nat) 2)) (p : Prm) (i : Nat) : Int :=
  match hard with
  | none => s.par p i
  | some b =>
    if h : i < 2 then
      match b[i] with
      | none => s.par p i
      | some x =>
        if p.id = P.FEED_I2T_BASE.id then min (s.par p i) (x : Nat)
        else if p.id = P.FEED_I2T_LIMIT.id then s.par P.WEIR_HARD_I2T 0
        else s.par p i
    else s.par p i

/-- A whole parameter set is sent over the barrier through the comparer: one frame per value, then
the commit frame (R23, R174). -/
def State.bankSendSet (s : State) : State :=
  let hard := if s.weir.hardArmed then some s.weir.hardI else none
  let fr := bankKeys.map (fun q => (pkey q.1 q.2, toWord 32 (s.bankValue hard q.1 q.2)))
  (s.modBank (fun b => { b with sending := fr, sent := fr, got := [], bad := false, commitDue := true })).output 3

/-- The set sent last is sent again through the comparer (R23, R174, R176). -/
def State.bankResend (s : State) : State :=
  (s.modBank (fun b => { b with sending := b.sent, got := [], bad := false, commitDue := true })).output 3

/-- The set a run of passed frames spells. -/
def bankSetOf (got : List (Nat × Nat)) : SMap Int :=
  bankKeys.foldl (fun m q => match got.find? (fun g => g.1 == pkey q.1 q.2) with
    | none => m
    | some g => cfgSet m q.1 q.2 (if q.1.lo < (0 : Int) then signed 32 g.2 else (g.2 : Int))) []

/-- Every gate low, both feeds OFF (R160, R176, R471). -/
def State.bankAllOff (s : State) (cause : Nat) : State :=
  (fins 2).foldl (fun t f => if t.bank.feed[f].state = .off then t else (t.feedOpen f .off).lineScan f cause) s

end Sys2Proof.Machine
end

