-- ==== Sys2Proof/Machine/Feed.lean ====
section
/-! DEFINITION. The feed entry on the Bank die: metering, windows, the feed state machine, the
electronic fuse, ideal diodes, damaged
FETs and the barrier channel (R155 to R176). -/

namespace Sys2Proof.Machine

/-- A channel's corrected reading in 1/1,000,000 µV (R155). -/
def State.chan (s : State) (raw : Vector Int 7) (c : Fin 7) : Int :=
  (raw[c] - s.bpar P.FEED_CAL_OFS c) * (1000000 + s.bpar P.FEED_CAL_GAIN c)

/-- A divider channel in mV (R155). -/
def State.chanMv (s : State) (raw : Vector Int 7) (c : Fin 7) : Int :=
  nearHalfAway (s.chan raw c * s.bpar P.FEED_DIV_RATIO c) 1000000000000

/-- One window's runs after a step; `n` steps complete a run (R159). -/
def Win.step (w : Win) (n : Nat) (setting clearing : Bool) : Win :=
  let a := if setting then w.setRun + 1 else 0
  let c := if clearing then w.clrRun + 1 else 0
  ⟨if n ≤ a then some true else if n ≤ c then some false else w.set, a, c⟩

/-- What a metering step measures at a feed: V_feed, I_x, P_x, ΔV, the voltages across its FETs,
energy, the I²t store, the windows, the
power limit and the slope of a DVDT precharge (R150, R155, R157, R159, R165, R167). How far the
limit lowers the slope the spec does not
say: a free value up to FEED_DVDT (DESIGN CHOICE, log entry 126). -/
def State.feedMeasure (s : State) (raw : Vector Int 7) (f : Fin 2) : State :=
  let ci : Fin 7 := ⟨f.val, by omega⟩
  let cn : Fin 7 := ⟨3 + f.val, by omega⟩
  let vn := s.chanMv raw cn
  let vp := s.chanMv raw 2
  let v := vp - vn
  let dv := -vn
  let i := nearHalfAway (s.chan raw ci) (1000 * s.bpar P.FEED_RSHUNT f)
  let e := v * i * 32
  let n := ceilDiv (s.bparN P.FEED_WIN_FILT f) 32
  let vm := s.chanMv raw ⟨5 + f.val, by omega⟩
  let excess := i * i - s.bpar P.FEED_I2T_BASE f ^ 2
  let lim : Bool := s.bank.feed[f].state == .precharge && s.bank.feed[f].reg && decide (s.bpar P.FEED_SOA_P f * 1000000 ≤ dv * i)
  let low := min (s.bparN P.FEED_DVDT f) (Config.freeInt s.free).toNat
  let t : State := { s with free := s.free + b2n lim }
  t.modFeed f (fun x =>
    let on : Bool := x.state == .precharge || x.state == .connected
    let a := if on then (max 0 ((x.a2t : Int) + excess)).toNat else x.a2t
    let imp := x.eImpRem + e.toNat
    let exp := x.eExpRem + (-e).toNat
    { x with
      v := v, i := i, p := nearHalfAway (v * i) 1000000, dv := dv, vMain := vm - vn, vOr := vm
      eImp := (x.eImp + imp / 1000000000) % 2 ^ 64, eImpRem := imp % 1000000000
      eExp := (x.eExp + exp / 1000000000) % 2 ^ 64, eExpRem := exp % 1000000000
      uv := x.uv.step n (decide (v < s.bpar P.FEED_UV f)) (decide (s.bpar P.FEED_UV f + s.bpar P.FEED_UV_HYST f ≤ v))
      ov := x.ov.step n (decide (s.bpar P.FEED_OV f < v)) (decide (v ≤ s.bpar P.FEED_OV f - s.bpar P.FEED_OV_HYST f))
      a2t := a
      a2tOver := if a = 0 then 0 else if on && decide (0 < excess) then x.a2tOver + 1 else x.a2tOver
      revMin := if x.rev then min x.revMin i else x.revMin
      soaLimit := lim, soaSteps := x.soaSteps + b2n lim, slope := if lim then low else s.bparN P.FEED_DVDT f })

/-- The retry or the lockout that a finished retry delay takes (R160). -/
def State.feedRetry (s : State) (f : Fin 2) : State :=
  let x := s.bank.feed[f]
  if x.retries < s.bparN P.FEED_RETRIES f ∨ s.bpar P.FEED_RETRIES f = 255 then
    let n := min 255 (x.retries + 1)
    (((s.feedOpen f .qualify).modFeed f (fun y => { y with retries := n })).log 0x0607 f.val (n : Nat)).lineScan f 2
  else ((s.feedOpen f .lockout).log 0x0608 f.val 1).lineScan f 2

/-- A time of `n` units of `u` ticks has passed since tick `at_`. -/
def State.since (s : State) (at_ n u : Nat) : Bool := decide (at_ + n * u ≤ s.clk.tick)

/-- The check of a path finds its FET shorted at the last metering step: path 0 the main FET, with
GMx and GPx low for 1 ms, 1 the OR FET,
with GOx low under R169 for 1 ms (R172). -/
def State.fetFound (s : State) (f path : Fin 2) : Bool :=
  let x := s.bank.feed[f]
  match path with
  | 0 => !x.gm && !x.gp && !x.reg && s.since x.gmAt 1 250000 && s.since x.gpAt 1 250000 && decide (s.bpar P.FEED_UV f ≤ x.v)
      && decide (2 * s.bpar P.FEED_FETSHORT_V f ≤ x.dv)
      && (decide (s.bpar P.FEED_FETSHORT_I f < x.i) || decide (x.vMain < s.bpar P.FEED_FETSHORT_V f))
  | 1 => !x.go && x.ideal && s.since x.goAt 1 250000 && decide (x.i < -s.bpar P.FEED_FETSHORT_I f)

/-- The voltage across the FET of a path at the last metering step (R155). -/
def State.fetVolt (s : State) (f path : Fin 2) : Int := if path = 0 then s.bank.feed[f].vMain else s.bank.feed[f].vOr

/-- A FET found short and not yet declared: it comes before the step's other events (R161, R172). -/
def State.fetDue (s : State) (f : Fin 2) : Bool :=
  let x := s.bank.feed[f]
  (s.fetFound f 0 || s.fetFound f 1) && !(x.fetShort && (x.state == .off || x.state == .lockout))

/-- An inrush failure is due: FEED_PRE_TMAX or the SOA timer has run out (R160, R165). -/
def State.inrushDue (s : State) (f : Fin 2) : Bool :=
  let x := s.bank.feed[f]
  s.since x.preAt x.preLen 250000 || decide (x.soaLen * 1000 ≤ x.soaSteps * 32)

/-- The first event a metering step brings a feed, in the order of R161 (R160, R161, R167). A FET found short and an
inrush failure that are due have commands of their own: the events below them are dropped in this step. -/
def State.feedEvents (s : State) (f : Fin 2) : State :=
  let x := s.bank.feed[f]
  let limit := s.bparN P.FEED_I2T_LIMIT f * 31250 * 1000000
  let cause : Int := if x.uv.set = some true then 1 else 2
  if s.fetDue f then s else
  match x.state with
  | .off => s
  | .qualify =>
    if x.winOk then (s.modFeed f (fun y => { y with
      state := .insert, insAt := some s.clk.tick, insLen := s.bparN P.FEED_INSERT_DELAY f, insDone := false })).bankSend false
    else s
  | .insert =>
    if x.winOk = false then
      ((s.modFeed f (fun y => { y with state := .qualify, insAt := none, insDone := false })).log 0x0603 f.val
        ((s.clk.tick - x.insAt.getD s.clk.tick) / 250000 : Nat)).bankSend false
    else if x.insDone ∧ s.bankGo then s.feedLeaveInsert f else s
  | .precharge =>
    if limit ≤ x.a2t then
      ((((s.modFeed f (fun y => { y with i2t := true, a2t := 0 })).log 0x0605 f.val (lohi x.i (x.a2tOver * 32 / 1000 : Nat))).feedTrip f).feedTripped f).lineScan f 2
    else if s.inrushDue f then s
    else if x.winOk = false then ((s.feedOpen f .qualify).log 0x0602 f.val (lohi cause x.v)).lineScan f 3
    else if x.dv ≤ s.bpar P.FEED_PRE_DV f then s.feedConnect f (if x.reg then 2 else 1)
    else s
  | .connected =>
    if limit ≤ x.a2t then
      ((((s.modFeed f (fun y => { y with i2t := true, a2t := 0 })).log 0x0605 f.val (lohi x.i (x.a2tOver * 32 / 1000 : Nat))).feedTrip f).feedTripped f).lineScan f 2
    else if x.winOk = false then ((s.feedOpen f .qualify).log 0x0602 f.val (lohi cause x.v)).lineScan f 3
    else s
  | .tripped => if x.retryDue ∧ s.bankActs then s.feedRetry f else s
  | .lockout => s

/-- BANK_METERING_STEP: the seven channels as the converter reads them, in µV (R155 to R167, R175).
A set received since the last
step applies first (R162). -/
def execBankMeteringStep (raw : Vector Int 7) (s : State) : Res :=
  .next (if s.bank.on then
    let s0 := s.modBank (fun b => { b with set := b.next.getD b.set, next := none })
    let s1 := (s0.modBank (fun b => { b with vbus := s0.chanMv raw 2 }))
    let s2 := (fins 2).foldl (fun t f => t.feedMeasure raw f) s1
    ((fins 2).foldl State.feedEvents s2).bankSend true
  else s)

/-- FEED_FAST_TRIP: the highest I_x of the step (R160, R166). -/
def execFeedFastTrip (f : Fin 2) (i : Int) (s : State) : Res :=
  let x := s.bank.feed[f]
  let rs := s.bpar P.FEED_RSHUNT f
  let code := min 1023 (s.bpar P.FEED_FAST_TRIP f * rs * 1024 / 200000000)
  .next (if s.bank.on ∧ (x.state = .precharge ∨ x.state = .connected) ∧ code * 200000000 < i * rs * 1024 then
    ((((s.modFeed f (fun y => { y with fast := true })).log 0x0604 f.val (lohi x.state.code i)).feedTrip f).feedTripped f).lineScan f 2
  else s)

/-- FEED_REVERSE_TRIP: the current and V_feed at the trip; V_feed below the level takes the loss
comparator low at once (R169,
R170). -/
def execFeedReverseTrip (f : Fin 2) (i v : Int) (s : State) : Res :=
  let x := s.bank.feed[f]
  .next (if s.bank.on ∧ x.ideal ∧ i < -s.bpar P.FEED_REV_TRIP f then
    let s1 := s.modFeed f (fun y => { y with
      go := false, goAt := if y.go then s.clk.tick else y.goAt, test := false, rev := true, revAt := if y.rev then y.revAt else s.clk.tick
      revMin := if y.rev then min y.revMin i else i })
    if v < s.bpar P.FEED_LOSS_LEVEL f then (s1.modFeed f (fun y => { y with lossLow := true })).lineScan f 1 else s1.bankSend false
  else s)

/-- FEED_OR_ON_DELAY_END: a forward current above FEED_OR_ON has flowed for FEED_OR_ON_DLY. GOx
goes high, or stays high where a TEST
drives it, and REV clears (R169, R173). -/
def execFeedOrOnDelayEnd (c : FeedSensed) (s : State) : Res :=
  let f := c.feed
  let x := s.bank.feed[f]
  .next (if x.ideal ∧ (x.go = false ∨ x.rev) ∧ s.bpar P.FEED_OR_ON f < c.value ∧ s.bparN P.FEED_OR_ON_DLY f * 1000 ≤ c.held then
    ((s.revRecord f).modFeed f (fun y => { y with
      go := true, goAt := if y.go then y.goAt else s.clk.tick, rev := false, test := false })).bankSend false
  else s)

/-- FEED_INSERT_TIMER: FEED_INSERT_DELAY has passed (R160, R162, R176). -/
def execFeedInsertTimer (f : Fin 2) (s : State) : Res :=
  let x := s.bank.feed[f]
  .next (if x.state = .insert ∧ s.since (x.insAt.getD s.clk.tick) x.insLen 250000 then
    let s1 := s.modFeed f (fun y => { y with insDone := true })
    if x.winOk ∧ s.bankGo then s1.feedLeaveInsert f else s1
  else s)

/-- An inrush failure (R160): cause 1 FEED_PRE_TMAX, 2 SOA timer. -/
def State.inrushFail (s : State) (f : Fin 2) (cause : Nat) : State :=
  (((s.modFeed f (fun y => { y with inrush := true })).log 0x0606 f.val (lohi cause s.bank.feed[f].dv)).feedTrip f).lineScan f 2

/-- FEED_PRE_TMAX_EXPIRE: FEED_PRE_TMAX has passed in PRECHARGE (R160, R162). -/
def execFeedPreTmaxExpire (f : Fin 2) (s : State) : Res :=
  let x := s.bank.feed[f]
  .next (if x.state = .precharge ∧ s.since x.preAt x.preLen 250000 then s.inrushFail f 1 else s)

/-- FEED_SOA_TIMER_EXPIRE: the power limit has acted for FEED_SOA_T in steps of 32 µs (R160, R162, R165). -/
def execFeedSoaTimerExpire (f : Fin 2) (s : State) : Res :=
  let x := s.bank.feed[f]
  .next (if x.state = .precharge ∧ x.soaLen * 1000 ≤ x.soaSteps * 32 then s.inrushFail f 2 else s)

/-- FEED_PRE_OVERLAP_END: FEED_PRE_OVERLAP after GMx went high (R160). -/
def execFeedPreOverlapEnd (f : Fin 2) (s : State) : Res :=
  let x := s.bank.feed[f]
  .next (if x.overlap ∧ s.since x.conAt (s.bparN P.FEED_PRE_OVERLAP f) 250 then
    (s.modFeed f (fun y => { y.drive s.clk.tick y.go y.gm false with overlap := false })).bankSend false
  else s)

/-- FEED_CLEAN_TIME_END: FEED_CLEAN_TIME in CONNECTED with no trip (R160). -/
def execFeedCleanTimeEnd (f : Fin 2) (s : State) : Res :=
  let x := s.bank.feed[f]
  .next (if x.state = .connected ∧ s.since x.conAt (s.bparN P.FEED_CLEAN_TIME f) 250000000 then s.modFeed f (fun y => { y with retries := 0 }) else s)

/-- FEED_RETRY_DELAY_END: FEED_RETRY_DELAY has passed since the trip (R160, R162, R176). -/
def execFeedRetryDelayEnd (f : Fin 2) (s : State) : Res :=
  let x := s.bank.feed[f]
  .next (if x.state = .tripped ∧ x.retryRun ∧ s.since x.tripAt x.retryLen 250000 then
    let s1 := s.modFeed f (fun y => { y with retryRun := false, retryDue := true })
    if s.bankActs then s1.feedRetry f else s1
  else s)

/-- FEED_LOSS_COMP_LOW: V_feed has stayed below FEED_LOSS_LEVEL for FEED_LOSS_FILT (R170, R171). -/
def execFeedLossCompLow (c : FeedSensed) (s : State) : Res :=
  let f := c.feed
  .next (if s.bank.on ∧ c.value < s.bpar P.FEED_LOSS_LEVEL f ∧ s.bparN P.FEED_LOSS_FILT f ≤ c.held then
    (s.modFeed f (fun y => { y with lossLow := true })).lineScan f 0
  else s)

/-- FEED_LOSS_COMP_HIGH: V_feed has stayed at or above FEED_LOSS_LEVEL + FEED_LOSS_HYST for
FEED_LOSS_RET (R170, R171). -/
def execFeedLossCompHigh (c : FeedSensed) (s : State) : Res :=
  let f := c.feed
  .next (if s.bank.on ∧ s.bpar P.FEED_LOSS_LEVEL f + s.bpar P.FEED_LOSS_HYST f ≤ c.value ∧ s.bparN P.FEED_LOSS_RET f * 1000 ≤ c.held then
    (s.modFeed f (fun y => { y with lossLow := false })).lineScan f 0
  else s)

/-- FEED_FET_SHORT: a FET found short is declared with the current and the voltage of the last
metering step, which `ma` and `mv` repeat; a feed that is not OFF goes to LOCKOUT. A feed
that holds the bit already, OFF or in
LOCKOUT, has been declared (R160, R172; DEDUCED, log entry 126). -/
def execFeedFetShort (f : Fin 2) (path : Fin 2) (ma mv : Int) (s : State) : Res :=
  let x := s.bank.feed[f]
  let s1 := (s.modFeed f (fun y => { y with fetShort := true })).log 0x060A f.val
    (lohi (path.val + toWord 24 ma.natAbs * 256 : Nat) mv)
  .next (if s.bank.on = false ∨ s.fetFound f path = false ∨ (ma, mv) ≠ (x.i, s.fetVolt f path) ∨ (x.fetShort ∧ (x.state = .off ∨ x.state = .lockout)) then s
  else if x.state = .off then s1.bankSend false
  else s1.feedLock f 3)

/-- FEED_GATE_FAIL: the gate commanded high (0 GOx, 1 GMx, 2 GPx) for FEED_T_GATE, and its pad voltage (R160, R173). -/
def execFeedGateFail (f : Fin 2) (gate : Fin 3) (mv : Nat) (s : State) : Res :=
  let x := s.bank.feed[f]
  let n := s.bparN P.FEED_T_GATE f
  let high : Bool := match gate with
    | 0 => x.go && s.since x.goAt n 250
    | 1 => x.gm && s.since x.gmAt n 250
    | 2 => x.gp && s.since x.gpAt n 250
  .next (if high ∧ mv < s.bparN P.FEED_GATE_OK f ∧ x.state ≠ .off then
    ((s.modFeed f (fun y => { y with gateFail := true })).log 0x060B f.val (gate.val + mv * 65536 : Nat)).feedLock f 2
  else s)

/-- FEED_TEST_END: GOx has been high for FEED_T_GATE (R173). -/
def execFeedTestEnd (f : Fin 2) (s : State) : Res :=
  let x := s.bank.feed[f]
  .next (if x.test ∧ s.since x.goAt (s.bparN P.FEED_T_GATE f) 250 then
    (s.modFeed f (fun y => { y.drive s.clk.tick false y.gm y.gp with test := false })).bankSend false
  else s)

/-- BANK_HEARTBEAT: SRC_VALID as the output comparer gives it; what waited for its return acts (R154, R176). -/
def execBankHeartbeat (s : State) : Res :=
  .next (if s.bank.on ∧ s.dev.isoOn then
    let s1 := s.modBank (fun b => { b with hbOk := true, hbAt := s.clk.tick, oscLocked := true, srcValid := s.bankSource })
    let s2 := if s1.bank.status = s.bank.status then s1 else s1.bankSend false
    if s2.bankActs ∧ s.bank.srcValid = false then
      (fins 2).foldl (fun (t : State) (f : Fin 2) =>
        let x := t.bank.feed[f]
        if x.state = .tripped ∧ x.retryDue then t.feedRetry f
        else if x.state = .insert ∧ x.insDone ∧ x.winOk ∧ t.bank.configured then t.feedLeaveInsert f
        else t) s2
    else s2
  else s)

/-- No heartbeat for FEED_HB_TIMEOUT: the shorter of the two feeds' values, since the loss takes
both feeds to OFF (R176, R182; DESIGN
CHOICE, log entry 126). -/
def State.hbDue (s : State) : Bool := s.since s.bank.hbAt (min (s.bparN P.FEED_HB_TIMEOUT 0) (s.bparN P.FEED_HB_TIMEOUT 1)) 250

/-- BANK_HB_TIMEOUT (R154, R176). -/
def execBankHbTimeout (s : State) : Res :=
  .next (if s.bank.on ∧ s.bank.hbOk ∧ s.hbDue then
    ((s.bankAllOff 6).modBank (fun b => { b with
      hbOk := false, srcValid := false, oscLocked := false, configured := false, next := none, hbLostAt := some s.clk.tick
      sending := [], got := [], bad := false, commitDue := false })).bankSend false
  else s)

/-- BANK_HB_RETURN (R174, R176): the record of the outage in µs, and the set again. -/
def execBankHbReturn (s : State) : Res :=
  match s.bank.hbLostAt with
  | none => .next s
  | some t =>
    if s.dev.isoOn = false then .next s
    else .next (((s.modBank (fun b => { b with hbLostAt := none, hbOk := true, hbAt := s.clk.tick, oscLocked := true })).log 0x060E 0
      ((s.clk.tick - t) / 250 : Nat)).bankResend.bankSend false)

/-- A set that does not pass: the set in force stays, the failure is logged and the set is sent again (R174). -/
def State.bankRefuse (s : State) : State := (s.log 0x060F 0 (s.bank.errs : Nat)).bankResend

/-- BANK_PARAM_FRAME: the next frame of the set on its way, behind the last one its commit frame; one that fails its
check is discarded and counted, and with the commit frame the set has failed (R174). -/
def execBankParamFrame (crcOk : Bool) (s : State) : Res :=
  match s.bank.sending with
  | [] =>
    .next (if s.bank.commitDue ∧ s.bank.on ∧ crcOk = false then
      (s.modBank (fun b => { b with chErr := true, errs := b.errs + 1 })).bankRefuse
    else s)
  | q :: qs =>
    .next (if crcOk then s.modBank (fun b => { b with sending := qs, got := b.got ++ [q] })
      else s.modBank (fun b => { b with sending := qs, chErr := true, errs := b.errs + 1, bad := true }))

/-- BANK_PARAM_COMMIT (R160, R162, R174; log entry 144): a whole set whose every frame passed is
held, and applies from the next
metering step; else the set
in force stays, the failure is
logged and the set is sent again. -/
def execBankParamCommit (s : State) : Res :=
  if s.bank.commitDue = false ∨ s.bank.on = false then .next s
  else if s.bank.sending = [] ∧ s.bank.bad = false then
    let m := bankSetOf s.bank.got
    let s1 := s.modBank (fun b => { b with next := some m, configured := true, commitDue := false, got := [] })
    .next (if s.bank.configured then s1 else (s1.bankSend false).autoEnable)
  else .next s.bankRefuse

/-- BANK_COMMAND_FRAME (R157, R160, R168, R173, R176): the next command; the die acts on it while SRC_VALID is high. -/
def execBankCommandFrame (s : State) : Res :=
  match s.bank.cmds with
  | [] => .next s
  | c :: cs =>
    let s1 := s.modBank (fun b => { b with cmds := cs })
    .next (if s.bankActs then match c with
      | .enable f => s1.feedEnable f
      | .disable f => s1.feedDisable f
      | .clear f => s1.feedClear f
      | .test f => s1.feedTest f
      | .resetEnergy f => s1.feedResetEnergy f
      | .clearStatus f v => s1.feedStatusClear f v
      | .clearBank v => s1.bankStatusClear v
    else s1)

/-- The accumulators as telemetry last gave them, as a copy for the ledger, whose write falls due (R18, R157, R342). -/
def State.energyCopy (s : State) : State :=
  if s.bank.on then
    (s.modBank (fun b => { b with
      copy := some ⟨s.clk.shelf, tab 2 (fun f => b.seen.feed[f].eImp), tab 2 (fun f => b.seen.feed[f].eExp)⟩ })).ledgerNeed
  else s

/-- ENERGY_COPY (R157). -/
def execEnergyCopy (s : State) : Res := .next s.energyCopy

/-- BANK_POWER_ON (R152, R157, R159, R170, R174): the energy is reloaded from the copy,
which the stems know, and the set is sent. -/
def State.bankOn (s : State) : State :=
  if s.bank.on then s
  else
    let c : EnergyCopy := s.bank.copy.getD ⟨0, Vector.replicate 2 0, Vector.replicate 2 0⟩
    let s1 := s.modBank (fun b => { b with
      on := true, energyGap := true, set := [], next := none, configured := false, armed := false, line := false, tripped := []
      seen := { BankTlm.reset with feed := tab 2 (fun f => { BankTlm.reset.feed[f] with eImp := c.imp[f], eExp := c.exp[f] }) }
      feed := tab 2 (fun f => { Feed.reset with eImp := c.imp[f], eExp := c.exp[f], trips := b.feed[f].trips }) })
    (((s1.log 0x0610 0 (c.time : Nat)).log 0x0610 1 (c.time : Nat)).bankSendSet).bankSend false

/-- BANK_POWER_ON: VAUXH is back above its reset level plus hysteresis; BK_HV starts in the states
in which it is powered (R157, R488,
R499). -/
def execBankPowerOn (s : State) : Res :=
  let s1 := { s with power := { s.power with vauxhUv := false } }
  .next (if s.dev.isoOn then s1.bankOn else s1)

/-- BK_HV goes off (R152, R170, R171): every gate low, both feeds OFF, the line disarmed and
released, with its record. The stems know it
from the supply and the barrier channel, without telemetry. -/
def State.bankOff (s : State) : State :=
  if s.bank.on then
    let s0 := (fins 2).foldl State.revRecord s
    let s1 := if s.bank.line then s0.log 0x060D 255 (255 + (s.clk.tick - s.bank.lossAt) / 250 * 256 : Nat) else s0
    (s1.modBank (fun b => { b with
      on := false, configured := false, hbOk := false, srcValid := false, oscLocked := false, armed := false, line := false
      disarmed := b.disarmed || b.line, next := none, sending := [], got := [], bad := false, commitDue := false, cmds := []
      hbLostAt := none, tlm := [], tripped := [], seen := BankTlm.reset, seenLine := false
      feed := tab 2 (fun f => { Feed.reset with eImp := b.feed[f].eImp, eExp := b.feed[f].eExp, trips := b.feed[f].trips }) })).faultScan
  else s

/-- BANK_POWER_OFF: VAUXH is below its reset level (R171, R488). -/
def execBankPowerOff (s : State) : Res := .next { s with power := { s.power with vauxhUv := true } }.bankOff

end Sys2Proof.Machine
end

