-- ==== Sys2Proof/Machine/Port.lean ====
section
/-! DEFINITION. Field ports and the Rill link: training, receive, credit, transmit, stamping, hubs (R262 to R277). -/

namespace Sys2Proof.Machine

/-- PORT_TRAIN_COMPLETE: the partner's class, 0 controller, 1 node, 2 hub (R262, R263, R270). -/
def execPortTrainComplete (p : Fin 64) (cls : Nat) (s : State) : Res :=
  let x := s.port[p]
  let want := if s.par P.PORT_TOPOLOGY p = 1 then 2 else 1
  .next (if x.state ≠ .train then s
  else if cls = want then
    ((s.modPort p (fun y => { y with
      state := .up, topoMis := false, cleanAt := s.clk.tick, started := 0, sent := 0, grantBy := 0, grantTo := y.free / 150 % 256 })).log 0x0A01 p.val
      (lohi (x.rate + cls * 256 : Nat) ((s.clk.tick - x.trainFrom) / 250 : Nat))).linkScan p
  else (s.modPort p (fun y => { y with state := .fault, topoMis := true, downAt := s.clk.tick })).log 0x0A04 p.val cls)

/-- PORT_TRAIN_DWELL_EXPIRE: PORT_TRAIN_DWELL at the rate under trial (R263). -/
def execPortTrainDwellExpire (p : Fin 64) (s : State) : Res :=
  let x := s.port[p]
  .next (if x.state ≠ .train ∨ s.held (some x.trainAt) (s.parN P.PORT_TRAIN_DWELL p * 250000) = false then s
  else if x.rate < s.parN P.PORT_RATE_MIN p then
    (s.startTrain p (x.rate + 1)).log 0x0A03 p.val (x.rate + 1 + x.rate * 256 : Nat)
  else (s.modPort p (fun y => { y with state := .down, downAt := s.clk.tick })).log 0x0A02 p.val 3)

/-- PORT_LOSS_OF_LOCK (R263, R272). -/
def execPortLossOfLock (p : Fin 64) (s : State) : Res :=
  .next (if s.port[p].state = .up then s.leaveUp p 1 (s.rateLower p) else s)

/-- PORT_ERROR_RATE: the code violations and disparity errors of a millisecond (R263). -/
def execPortErrorRate (p : Fin 64) (errs : Nat) (s : State) : Res :=
  .next (if s.port[p].state = .up then
    let s1 := s.modPort p (fun y => { y with
      cleanAt := if errs = 0 then y.cleanAt else s.clk.tick, cnt := { y.cnt with codeErr := satAdd 32 y.cnt.codeErr errs } })
    if s.parN P.PORT_ERR_LIMIT p < errs then s1.leaveUp p 2 (s1.rateLower p) else s1
  else s)

/-- PORT_UPSHIFT_ATTEMPT: no error in PORT_UPSHIFT_TIME (R263). -/
def execPortUpshiftAttempt (p : Fin 64) (s : State) : Res :=
  let x := s.port[p]
  .next (if x.state = .up ∧ s.par P.PORT_UPSHIFT p = 1 ∧ s.parN P.PORT_RATE_MAX p < x.rate ∧
    s.held (some x.cleanAt) (s.parN P.PORT_UPSHIFT_TIME p * 250000000) then s.leaveUp p 5 (x.rate - 1) else s)

/-- PORT_RETRAIN_DELAY_END: PORT_RETRAIN_DELAY in DOWN or FAULT (R263). -/
def execPortRetrainDelayEnd (p : Fin 64) (s : State) : Res :=
  let x := s.port[p]
  .next (if (x.state = .down ∨ x.state = .fault) ∧ s.held (some x.downAt) (s.parN P.PORT_RETRAIN_DELAY p * 250000) then s.startTrain p (s.parN P.PORT_RATE_MAX p) else s)

/-- A frame discarded while it arrived, counted and logged (R268). -/
def State.rxDiscard (s : State) (p : Fin 64) (f : PortCount → PortCount) : State := ((s.modCnt p f).rxError p).regrant p

/-- A malformed frame (R268). -/
def PortCount.bad (c : PortCount) : PortCount := { c with malformed := bump c.malformed, newMalformed := c.newMalformed + 1 }

/-- The second copy of a frame on a DUAL pair is dropped; the first of its copies is remembered with
its CRC over the frame with PATH
0, 64 for each pair (R277). -/
def State.dualPass (s : State) (p : Fin 64) (f : Frame) : State × Bool :=
  if s.dual p then
    let e := evenOf p
    let crc := crc32c ({ f with path := false }.header ++ f.payload)
    match (s.port[e].dual).find? (fun q => q.1 == f.node && q.2.1 == f.epoch && q.2.2.1 == f.seq) with
    | none =>
      let l := s.port[e].dual ++ [(f.node, f.epoch, f.seq, crc)]
      (s.modPort e (fun x => { x with dual := l.drop (l.length - 64) }), true)
    | some q =>
      let s1 := s.modCnt e (fun c => { c with dualDup := bump c.dualDup })
      (if q.2.2.2 = crc then s1 else s1.log 0x0A08 (e.val * 32 + f.node) (lohi f.seq f.epoch), false)
  else (s, true)

/-- A complete frame enters the receive queue, and credit for what is still free is granted (R268 to R270, R277). -/
def State.rxComplete (s : State) (p : Fin 64) (f : Frame) (time : Nat) : State :=
  let r := (s.modCnt p (fun c => { c with rxFrames := bump c.rxFrames })).dualPass p f
  (if r.2 then r.1.modPort p (fun x => { x with rx := x.rx ++ [⟨f, time, false, false⟩] }) else r.1).regrant p

/-- RILL_FRAME_RECEIVE: the bytes between SOF and the end, how it ended, the data characters outside
frames since the last one, and
the time since SOF in ns, taken to the boundary that saw SOF (R8, R27, R264 to R270). -/
def execRillFrameReceive (p : Fin 64) (data : List Byte) (ending : RxEnd) (noise : Nat) (sofAge : Nat) (s : State) : Res :=
  let s0 := s.modCnt p (fun c => { c with noise := satAdd 32 c.noise noise })
  .next (if s.port[p].state ≠ .up then s
  else if s.port[p].credit = 0 then s0.rxDiscard p (fun c => { c with noCredit := bump c.noCredit, newNoCredit := c.newNoCredit + 1 })
  else
    let s1 := s0.modPort p (fun x => { x with started := (x.started + 1) % 256 })
    match ending with
    | .overrun => s1.rxDiscard p PortCount.bad
    | .code => (s1.modPort p (fun x => { x with cleanAt := s.clk.tick })).rxDiscard p PortCount.bad
    | .orderedSet => s1.rxDiscard p PortCount.bad
    | .abort => s1.rxDiscard p (fun c => { c with abandon := bump c.abandon, newAbandon := c.newAbandon + 1 })
    | .eof =>
      let len := leAt data 2 2
      if data.length ≠ 16 + len ∨ 576 < len then s1.rxDiscard p PortCount.bad
      else if crc32c (data.take (12 + len)) ≠ leAt data (12 + len) 4 then
        s1.rxDiscard p (fun c => { c with crcErr := bump c.crcErr, newCrc := c.newCrc + 1 })
      else
        let f := Frame.parse data ((data.drop 12).take len)
        if 2 < f.typ ∨ (f.typ = 0 ∧ len % 9 ≠ 0) then s1.rxDiscard p PortCount.bad
        else s1.rxComplete p f (s.clk.shelf - sofAge / 4 * 4))

/-- RILL_RX_TIMEOUT: a frame in progress is abandoned (R268). -/
def execRillRxTimeout (p : Fin 64) (s : State) : Res :=
  .next (if s.port[p].state ≠ .up then s
  else if s.port[p].credit = 0 then s.rxDiscard p (fun c => { c with noCredit := bump c.noCredit, newNoCredit := c.newNoCredit + 1 })
  else (s.modPort p (fun x => { x with started := (x.started + 1) % 256 })).rxDiscard p
    (fun c => { c with abandon := bump c.abandon, newAbandon := c.newAbandon + 1 }))

/-- RILL_CREDIT_RECEIVE: the two arguments of a CRD (R261, R270). -/
def execRillCreditReceive (p : Fin 64) (cnt : Fin 256) (notCnt : Fin 256) (s : State) : Res :=
  .next (if s.port[p].state = .up ∧ cnt.val + notCnt.val = 255 then s.modPort p (fun x => ({ x with grantBy := cnt.val } : Port).stall s.clk.tick) else s)

/-- RILL_FRAME_TRANSMIT (R272). -/
def execRillFrameTransmit (p : Fin 64) (s : State) : Res :=
  match s.port[p].tx with
  | [] => .next s
  | f :: fs =>
    .next (if s.port[p].state = .up ∧ s.port[p].txCredit ≠ 0 then
      s.modPort p (fun x => ({ x with tx := fs, sent := (x.sent + 1) % 256, out := f.bytes } : Port).stall s.clk.tick)
    else s)

/-- PORT_TX_STALL: a frame has waited with no credit granted for PORT_TX_STALL (R272). -/
def execPortTxStall (p : Fin 64) (s : State) : Res :=
  let x := s.port[p]
  .next (if x.state = .up ∧ s.held x.stallAt (s.parN P.PORT_TX_STALL p * 250) then
    let n := x.txQueue.length
    (s.modPort p (fun y => ({ y with
      tx := y.tx.drop n, stallAt := none, txStall := true, cnt := { y.cnt with txFlushed := satAdd 32 y.cnt.txFlushed n } } : Port).stall s.clk.tick)).log
      0x0A06 p.val n
  else s)

/-- STAMP_FIELD_FRAME: the head of a receive queue reaches the stems. A POINTS frame waits there for
its admission, which
gives its updates their place in the input order (R271, R325, R328; log entry 139); any other is
stamped and goes to Onolael. -/
def execStampFieldFrame (p : Fin 64) (s : State) : Res :=
  match s.port[p].rx with
  | [] => .next s
  | q :: qs =>
    if q.frame.typ = 0 then
      .next (if q.stamped then s else s.modPort p (fun x => { x with rx := { q with stamped := true } :: qs }))
    else
      let s1 := (s.stamp.modPort p (fun x => { x with rx := qs })).regrant p
      let m : InMsg := ⟨(s.homePort p).val * 32 + q.frame.node, p.val, q.frame, q.time, s1.ord⟩
      if q.frame.typ = 1 ∧ q.frame.payload.length < 8 then .next (s1.rxDiscard p PortCount.bad)
      else .next { s1 with nodes := { s1.nodes with inbox := s1.nodes.inbox ++ [m] } }

/-- HUB_FRAME_RECEIVE: the HUB frame at the head of Onolael's frames (R274, R275). -/
def execHubFrameReceive (s : State) : Res :=
  match s.nodes.inbox with
  | [] => .next s
  | m :: ms =>
    if m.frame.typ ≠ 2 then .next s
    else
      let s1 := { s with nodes := { s.nodes with inbox := ms } }
      if h : m.port < 64 then
        let p : Fin 64 := ⟨m.port, h⟩
        if m.frame.payload.length = 16 ∧ leAt m.frame.payload 0 1 = 1 ∧ s.par P.PORT_TOPOLOGY p = 1 then
          .next ((s1.modPort p (fun x => { x with hubAt := some s.clk.tick, hubLinks := leAt m.frame.payload 2 4 % 2 ^ 30 })).linkScan p)
        else .next s1
      else .next s1

/-- HUB_FRAME_TIMEOUT: 300 ms without a HUB frame (R275). -/
def execHubFrameTimeout (p : Fin 64) (s : State) : Res :=
  .next (if s.held s.port[p].hubAt 75000000 = false then s else (s.modPort p (fun x => { x with hubAt := none })).linkScan p)

end Sys2Proof.Machine
end

