-- ==== Sys2Proof/Machine/Share.lean ====
section
/-! DEFINITION. Confluence: trims of the sharing groups, tie offsets, the peer share record (R184 to R191). -/

namespace Sys2Proof.Machine

/-- A member's output-current point is fresh (R185). -/
def State.mbrFresh (s : State) (m : Fin 64) : Bool :=
  s.slotFresh (s.parN P.SHARE_MBR_IPT m) (s.parN P.SHARE_STALE 0 * 1000000000 / s.parN P.SHARE_RATE 0)

/-- A member's output current in mA (R185). -/
def State.mbrI (s : State) (m : Fin 64) : Int := s.slotIn (s.parN P.SHARE_MBR_IPT m) (-3)

/-- A member's node has an open session. -/
def State.mbrOpen (s : State) (m : Fin 64) : Bool := (s.node (s.parN P.SHARE_MBR_NODE m)).isOpen

/-- One member's transitions at an update, its node's output state looked at first (R187, R307). A
member in DROOP leaves it with a session other
than the one it left, or
after one second without a session and a fresh point. -/
def State.mbrStep (s : State) (m : Fin 64) : State :=
  if s.memberUsed m = false then s
  else
    let x := s.share.mbr[m]
    let up := s.mbrOpen m
    let fresh := s.mbrFresh m
    let s1 := (s.outScan (s.parN P.SHARE_MBR_NODE m)).modMbr m (fun y => { y with lostAt := if up ∨ fresh then none else some (y.lostAt.getD s.clk.tick) })
    match x.state with
    | .absent => if up ∧ fresh then s1.mbrTo m .trimmed else s1
    | .trimmed => if fresh then s1 else s1.mbrTo m .held
    | .held => if fresh then s1.mbrTo m .trimmed else s1
    | .droop =>
      if up ∧ fresh ∧ (s.node (s.parN P.SHARE_MBR_NODE m)).epoch ≠ x.ep then s1.mbrTo m .trimmed
      else match s1.share.mbr[m].lostAt with
        | some t => if t + 250000000 ≤ s.clk.tick then s1.mbrTo m .absent else s1
        | none => s1
    | .suspended => s1

/-- The members of a group. -/
def State.groupMembers (s : State) (g : Fin 4) : List (Fin 64) :=
  (fins 64).filter (fun m => s.memberUsed m && s.parN P.SHARE_MBR_GROUP m == g.val)

/-- The load of a group: the fresh output currents of its members, in mA (R189). -/
def State.groupLoad (s : State) (g : Fin 4) : Int := sumI ((s.groupMembers g).filter s.mbrFresh) s.mbrI

/-- The capacity of a group in mA (R189). -/
def State.groupCap (s : State) (g : Fin 4) : Nat :=
  (((s.groupMembers g).filter (fun m =>
    let st := s.share.mbr[m].state
    st == .trimmed || st == .held || st == .droop)).map (fun m => s.parN P.SHARE_MBR_RATED m)).sum

/-- A trim in nV set, clamped, with its record (R185). -/
def State.setTrim (s : State) (m : Fin 64) (v : Int) : State :=
  let lim := s.par P.SHARE_TRIM_MAX 0 * 1000
  let cut : Bool := decide (lim < v) || decide (v < -lim)
  let s1 := s.modMbr m (fun x => { x with trim := clampI (-lim) lim v, limited := cut })
  if cut then s1.log 0x0702 m.val (nearHalfAway v 1000) else s1

/-- The trims of one group at an update (R185). -/
def State.groupTrim (s : State) (g : Fin 4) : State :=
  let s0 := { s with share := { s.share with grp := upd s.share.grp g (fun x => { x with load := s.groupLoad g }) } }
  let act := (s.groupMembers g).filter (fun m => s.share.mbr[m].state == .trimmed && s.mbrFresh m)
  let free := sumI act s.mbrI
  let w := sumI act (fun m => s.par P.SHARE_MBR_WEIGHT m)
  let raw : List (Fin 64 × Int) := act.map (fun (m : Fin 64) => (m, s.share.mbr[m].trim +
    nearHalfAway (s.par P.SHARE_GAIN 0 * (free * s.par P.SHARE_MBR_WEIGHT m - s.mbrI m * w)) w))
  let mean := if act = [] then 0 else nearHalfAway (sumI raw (·.2)) act.length
  raw.foldl (fun (t : State) q => t.setTrim q.1 (q.2 - mean)) s0

/-- SHARE_UPDATE: members follow R187, the trims of every enabled group are computed and sent (R185, R186). -/
def execShareUpdate (s : State) : Res :=
  if s.hasActive = false then .next s
  else
    let s1 := (fins 64).foldl State.mbrStep s
    let on : List (Fin 4) := (fins 4).filter (fun (g : Fin 4) => s.par P.SHARE_ENABLE g == 1)
    let s2 := on.foldl State.groupTrim s1
    .next (on.foldl (fun (t : State) (g : Fin 4) => (t.groupMembers g).foldl (fun (u : State) (m : Fin 64) =>
      let st := u.share.mbr[m].state
      if st = .trimmed ∨ st = .held then u.sendTrim m else u) t) s2)

/-- A fraction of a load over a capacity in 0.1 % (R190). -/
def fraction (load : Int) (cap : Nat) : Nat := if cap = 0 then 1000 else (clampI 0 1000 (floorDiv (1000 * load) cap)).toNat

/-- The shelf is in hold-up for its neighbours (R191). -/
def State.inHoldup (s : State) : Bool := s.hold.state != .normal

/-- f of a group (R190, R191). -/
def State.groupFrac (s : State) (g : Fin 4) : Nat := if s.inHoldup then 1000 else fraction (s.groupLoad g) (s.groupCap g)

/-- A neighbour's fraction: the upstream one is read from its lower tie, the downstream one from its
upper tie (R190, R191). -/
def PeerRec.frac (x : PeerRec) (i : Fin 2) : Nat :=
  if x.holdup then 1000
  else if i.val = 0 then fraction x.loadDown x.capDown.toNat
  else fraction x.loadUp x.capUp.toNat

/-- A group is tied to the neighbour on a peer port: 0 PCU, 1 PCD (R190). -/
def State.tiedTo (s : State) (g : Fin 4) (i : Fin 2) : Bool :=
  s.parN (if i.val = 0 then P.SHARE_TIE_UP else P.SHARE_TIE_DOWN) 0 == g.val

/-- A neighbour whose records are older than 5 ms is no longer fresh (R190). -/
def State.peerAge (s : State) (i : Fin 2) : State :=
  let x := s.share.peer[i]
  let old : Bool := match x.arrived with
    | none => true
    | some t => decide (t + 1250000 < s.clk.tick)
  if x.fresh ∧ old then
    ({ s with share := { s.share with peer := upd s.share.peer i (fun y => { y with fresh := false }) } }).log 0x0703 i.val
      (x.seq + x.addr * 65536 : Nat)
  else s

/-- The tie offset of a group at an update (R190, R191). -/
def State.tieStep (s : State) (g : Fin 4) : State :=
  let own := s.groupFrac g
  let nb := (fins 2).filter (fun (i : Fin 2) => s.tiedTo g i && s.share.peer[i].fresh)
  let max := s.par P.SHARE_TIE_MAX 0
  let ofs := s.share.grp[g].tieOfs
  let v : Int :=
    if s.inHoldup then 0
    else if nb = [] then (let step := max / 100; if ofs < 0 then min 0 (ofs + step) else (if step ≤ ofs then ofs - step else 0))
    else
      clampI (-max) max (ofs + nearHalfAway (s.par P.SHARE_TIE_GAIN 0 *
        (sumI nb (fun (i : Fin 2) => ((s.share.peer[i].frac i : Nat) : Int)) - own * nb.length)) nb.length)
  { s with share := { s.share with grp := upd s.share.grp g (fun x => { x with tieOfs := v, frac := own }) } }

/-- SHARE_TIE_UPDATE (R190, R191). -/
def execShareTieUpdate (s : State) : Res :=
  .next (if s.hasActive then (fins 4).foldl State.tieStep ((fins 2).foldl State.peerAge s) else s)

/-- A frame on a peer port with the port's next sequence number, through the comparer (R23, R509). -/
def State.peerSend (s : State) (i : Fin 2) (typ : Nat) (payload : List Byte) : State :=
  let x := s.chain.peer[i]
  let b := leBytes 1 typ ++ leBytes 1 s.chain.addr ++ leBytes 2 payload.length ++ leBytes 4 x.seq ++ payload
  ({ s with chain := { s.chain with peer := upd s.chain.peer i (fun y => { y with
      seq := (y.seq + 1) % 2 ^ 32, out := b ++ leBytes 4 (crc32c b) }) } } : State).output 1

/-- The group a tie parameter names. -/
def State.tieGroup (s : State) (p : Prm) : Option (Fin 4) :=
  let g := s.parN p 0
  if h : g < 4 then some ⟨g, h⟩ else none

/-- The peer share record (R189). -/
def State.shareRecord (s : State) : List Byte :=
  let valid := ((fins 4).map (fun (g : Fin 4) => if s.groupMembers g = [] then 0 else 2 ^ (g.val + 1))).sum
  let part (p : Prm) : List Byte := match s.tieGroup p with
    | none => leBytes 8 0
    | some g => leBytes 4 (toWord 32 (s.groupLoad g)) ++ leBytes 4 (s.groupCap g)
  leBytes 1 s.chain.addr ++ leBytes 1 (b2n s.inHoldup + valid) ++ leBytes 2 s.share.seq ++ part P.SHARE_TIE_UP ++ part P.SHARE_TIE_DOWN

/-- PEER_SHARE_SEND: the record on both ports, only while the unit has an address (R189, R509). -/
def execPeerShareSend (s : State) : Res :=
  if s.hasActive = false ∨ s.chain.addr = 0 then .next s
  else
    let s1 := { s with share := { s.share with seq := (s.share.seq + 1) % 65536 } }
    let r := s1.shareRecord
    .next ((s1.peerSend 0 2 r).peerSend 1 2 r)

end Sys2Proof.Machine
end

