-- ==== Sys2Proof/Machine/TimerOps.lean ====
section
/-! DEFINITION. The timers' shared operations: captures and the writes of an apply boundary (R478 to R482). -/

namespace Sys2Proof.Machine

/-- Timer `t` changed. -/
def State.modTimer (s : State) (t : Fin 32) (f : Timer → Timer) : State := { s with timer := upd s.timer t f }

/-- Shelf time at the boundary `n` ticks ago, at the rate of the slew now in force (R27, R36). -/
def State.shelfBack (s : State) (n : Nat) : Nat :=
  ({ s.clk with t5k := s.clk.t5k - n * s.tb.slew.rate } : Clock).shelf

/-- The prescale phase of a running timer is due (R478). -/
def Timer.due (x : Timer) (now : Nat) : Bool := x.running && decide (x.phase + x.prescale ≤ now)

/-- The count after the next advance (R478). -/
def Timer.nextCount (x : Timer) : Nat := if x.reload ≤ x.count then 0 else x.count + 1

/-- The count after `n` advances (R478). -/
def Timer.countAfter (x : Timer) (n : Nat) : Nat := if n = 0 then x.count else (x.nextCount + (n - 1)) % (x.reload + 1)

/-- The count of a timer at tick `at_`, after that boundary's advance: the advances due since the
prescale period began are added, those
made after `at_` are taken back (R478, R481). -/
def Timer.countAt (x : Timer) (at_ : Nat) : Nat :=
  if x.running = false then x.count
  else if x.phase ≤ at_ then x.countAfter ((at_ - x.phase) / max 1 x.prescale)
  else (x.count + (x.reload + 1) - (1 + (x.phase - at_ - 1) / max 1 x.prescale) % (x.reload + 1)) % (x.reload + 1)

/-- A capture source recognised at the boundary `ago` ticks back: each timer that names it keeps its
count, with shelf time and source
(R27, R481). -/
def State.recognise (s : State) (src ago : Nat) (sel : Timer → Bool) : State :=
  { s with timer := s.timer.map (fun x =>
      if src ≠ 0 ∧ x.src = src ∧ sel x then { x with recog := x.recog ++ [⟨s.shelfBack ago, x.countAt (s.clk.tick - ago), src⟩] }
      else x) }

/-- An internal event that timers may capture: matches, the feed-loss input, the switch-over input (R481). -/
def State.captureEvent (s : State) (src : Nat) : State := s.recognise src 0 (fun _ => true)

/-- A recognised capture reaches the queue of four and the Delta source, or is dropped (R477, R482). -/
def State.deliver (s : State) (t : Fin 32) (c : Capture) : State :=
  let s0 := (s.stamp).modTimer t (fun x => { x with recog := x.recog.erase c })
  let s1 :=
    if s.timer[t].queue.length < 4 then s0.modTimer t (fun x => { x with queue := x.queue ++ [c] })
    else
      (s0.modTimer t (fun x => { x with
        overrun := true, dropped := bump x.dropped, dropNew := x.dropNew + 1, dropPop := true })).log 0x1110 t.val (s.timer[t].dropNew + 1 : Nat)
  s1.srcPush 2 [(128 + t.val, c.count, c.time)]

/-- An advance that is due is made: the count advances or wraps; a match adds the interval and is
captured (R478, R481). -/
def State.timerTick (s : State) (t : Fin 32) : State :=
  let x := s.timer[t]
  if x.due s.clk.tick then
    let n := x.nextCount
    let s1 := s.modTimer t (fun y => { y with count := n, phase := x.phase + x.prescale })
    if x.cmpEn ∧ n = x.cmp then
      (s1.modTimer t (fun y => { y with
        matched := true, matchCnt := bump y.matchCnt, cmp := (y.cmp + y.interval) % (y.reload + 1) })).captureEvent (17 + t.val)
    else s1
  else s

/-- A write takes effect at its apply boundary (R479, R480). -/
def Timer.apply (x : Timer) (now : Nat) : TimerWrite → Timer
  | .start => { x with running := true, phase := now }
  | .stop => { x with running := false }
  | .clear => { x with count := 0 }
  | .cmp c => { x with cmp := c, appliedAt := x.count }
  | .cmpEn on => { x with cmpEn := on }
  | .par id v =>
    if id = 0x5800 then { x with prescale := v, phase := now }
    else if id = 0x5801 then { x with reload := v }
    else if id = 0x5802 then { x with interval := v }
    else if id = 0x5803 then { x with src := v }
    else if id = 0x5804 then { x with edge := v }
    else if id = 0x5805 then { x with filt := v }
    else x

/-- A committed write waits for its apply boundary, 1,000 ns or 250 ticks after the stamp of its
apply input (R479; log entry 133). -/
def State.timerWrite (s : State) (t : Fin 32) (w : TimerWrite) : State :=
  s.modTimer t (fun x => { x with writes := x.writes ++ [(s.clk.tick + 250, w)] })

/-- The writes whose apply boundary has come act in their order, after that boundary's advance (R478, R479). -/
def Timer.applyDue (x : Timer) (now : Nat) : Timer :=
  (x.writes.filter (fun w => decide (w.1 ≤ now))).foldl (fun y w => y.apply now w.2)
    { x with writes := x.writes.filter (fun w => decide (now < w.1)) }

/-- TIMER_STATUS (R484). -/
def Timer.status (x : Timer) : Nat := b2n x.running + 2 * b2n x.cmpEn + 4 * b2n x.matched + 8 * b2n x.overrun + 16 * x.queue.length

end Sys2Proof.Machine
end

