-- ==== Sys2Proof/Machine/WeirOps.lean ====
section
/-! DEFINITION. Weir's shared operations: caps, scopes, capacities, allocation, the hard limit (R206 to R220). -/

namespace Sys2Proof.Machine

/-- Weir changed by `f`. -/
def State.modWeir (s : State) (f : Weir → Weir) : State := { s with weir := f s.weir }

/-- Scope `k` changed. -/
def State.modScope (s : State) (k : Fin 36) (f : Scope → Scope) : State := s.modWeir (fun w => { w with scope := upd w.scope k f })

/-- The Weir state of a node changed. -/
def State.modWeirNode (s : State) (a : Nat) (f : WeirNode → WeirNode) : State :=
  s.modWeir (fun w => { w with node := SMap.set WeirNode.none a (f (s.weirNode a)) w.node })

/-- The cap in force of a scope, none where there is no cap (R208). -/
def State.capNow (s : State) (k : Fin 36) : Option Nat :=
  match s.weir.scope[k].grant with
  | some c => some c
  | none => let c := s.parN P.WEIR_STD_CAP k; if c = 0xFFFFFFFF then none else some c

/-- A cap as a 32-bit value. -/
def capWord (c : Option Nat) : Nat := c.getD 0xFFFFFFFF

/-- WEIR_CAP written (R208, R225). -/
def State.weirSetCap (s : State) (k : Fin 36) (v : Nat) : State :=
  (s.modScope k (fun x => { x with grant := if v = 0xFFFFFFFF then none else some v })).log 0x0801 k.val (lohi v (capWord (s.capNow k)))

/-- Every granted cap is discarded at the end of the lease under which it was granted (R210). -/
def State.weirLapse (s : State) : State :=
  let mask := sumI (fins 36) (fun (k : Fin 36) => if s.weir.scope[k].grant.isSome then (2 ^ k.val : Int) else 0)
  if mask = 0 then s
  else (s.modWeir (fun w => { w with scope := w.scope.map (fun x => { x with grant := none }) })).log 0x0802 0 mask

/-- A scope is in force (R206). -/
def State.scopeOn (s : State) (k : Fin 36) : Bool :=
  if k.val < 3 then s.hold.state == .normal else if k.val = 3 then s.hold.state != .normal else true

/-- The instances of a parameter that differ from its default. -/
def State.instances (s : State) (p : Prm) : List Nat := (s.cfg.filter (fun q => q.1 / 65536 == p.id)).map (fun q => q.1 % 65536)

/-- The member nodes of Weir (R211). -/
def State.weirNodes (s : State) : List Nat := s.instances P.WEIR_NODE_GROUP

/-- The member nodes of a group. -/
def State.groupNodes (s : State) (g : Nat) : List Nat := s.weirNodes.filter (fun a => s.parN P.WEIR_NODE_GROUP a == g)

/-- A node counts as NONCOMPLIANT: marked so, or on a PMBus port (R213, R215). -/
def State.nonCompliant (s : State) (a : Nat) : Bool := (s.weirNode a).nonc || s.parN P.PORT_MODE (a / 32) == 2

/-- P_c of a group (R212). -/
def State.groupPc (s : State) (g : Nat) : Nat :=
  (((s.groupNodes g).filter (fun a => !s.nonCompliant a)).map (fun a => (s.weirNode a).ref)).sum

/-- A1_g (R212). -/
def State.groupA1 (s : State) (g : Nat) : Nat :=
  let pnc := (((s.groupNodes g).filter (fun a => s.nonCompliant a)).map (fun a => (s.weirNode a).draw)).sum
  s.groupPc g - (s.parN P.WEIR_GRP_FLOOR g - pnc)

/-- The nodes with a limit in force (R213). -/
def State.limitedNodes (s : State) : List Nat := (s.weir.node.filter (fun q => q.2.limit.isSome)).map (·.1)

/-- The nodes whose limits an evaluation forms: the members, and those that a commit took out of their group (R213). -/
def State.limitNodes (s : State) : List Nat :=
  let ms := s.weirNodes
  ms ++ s.limitedNodes.filter (fun a => !(ms.contains a))

/-- The node groups a scope may throttle (R206). -/
def State.scopeGroups (s : State) (k : Fin 36) : List Nat :=
  if k.val = 0 ∨ k.val = 3 then List.range 32
  else if k.val < 3 then (List.range 32).filter (fun g => s.parN P.WEIR_GRP_SEG g + 1 == k.val)
  else [k.val - 4]

/-- A loop is eligible for shaving (R217). -/
def State.shaveOk (s : State) (l : Fin 16) : Bool :=
  s.par P.WEIR_SHAVE_EN l == 1 && s.loop[l].ct.state == .running && s.loop[l].ct.region != 4 && s.par P.LOOP_KIND l == 1

/-- The forward ceiling of a loop (R217). -/
def State.shaveCeiling (s : State) (l : Fin 16) : Int :=
  match s.stringOf l with
  | none => 0
  | some b =>
    if s.batt[b].socValid ∧ s.parN P.WEIR_SHAVE_SOC_MIN l * 100 ≤ s.batt[b].soc then s.par P.WEIR_SHAVE_IMAX l else 0

/-- The loops a scope may shave (R206). -/
def State.scopeLoops (s : State) (k : Fin 36) : List (Fin 16) :=
  if k.val = 0 then (fins 16).filter s.shaveOk
  else if k.val < 3 then (fins 16).filter (fun l => s.shaveOk l && s.parN P.WEIR_LOOP_SEG l + 1 == k.val)
  else []

/-- A loop's shave capacity in µW, less its shave in force (R217). -/
def State.shaveCap (s : State) (l : Fin 16) : Nat :=
  ((max 0 ((s.shaveCeiling l - s.par P.LOOP_SETPOINT l) * s.stringMv l)) - s.weir.shave[l] * s.stringMv l).toNat

/-- a1 of a scope in W (R216). -/
def State.scopeA1 (s : State) (k : Fin 36) : Nat := ((s.scopeGroups k).map s.groupA1).sum

/-- a2 of a scope in W (R216, R217). -/
def State.scopeA2 (s : State) (k : Fin 36) : Nat := ((s.scopeLoops k).map s.shaveCap).sum / 1000000

/-- An amount shared by weight, each share rounded down and the remainder given to the first (R214). -/
def shareOut (amount : Nat) (w : List (Nat × Nat)) : List (Nat × Nat) :=
  let tot := (w.map (·.2)).sum
  if tot = 0 then []
  else
    let r := w.map (fun q => (q.1, amount * q.2 / tot))
    let rest := amount - (r.map (·.2)).sum
    match r with
    | [] => []
    | q :: qs => (q.1, q.2 + rest) :: qs

/-- The layer-1 amount of a scope given to its groups, in ascending priority (R214): (group, r_g). -/
def State.layer1 (s : State) (k : Fin 36) (y1 : Nat) : List (Nat × Nat) :=
  let gs := s.scopeGroups k
  ((List.range 8).foldl (fun (acc : Nat × List (Nat × Nat)) prio =>
    let lv := (gs.filter (fun g => s.parN P.WEIR_GRP_PRIO g == prio)).map (fun g => (g, s.groupA1 g))
    let give := min acc.1 (lv.map (·.2)).sum
    (acc.1 - give, acc.2 ++ shareOut give (lv.filter (fun q => q.2 != 0)))) (y1, [])).2.filter (fun q => q.2 != 0)

/-- The limit a scope gives a node: its share of what its group keeps (R212). -/
def State.limitFrom (s : State) (rs : List (Nat × Nat)) (a : Nat) : Option Nat :=
  if s.nonCompliant a then none
  else match rs.find? (fun q => q.1 == s.parN P.WEIR_NODE_GROUP a) with
    | none => none
    | some q =>
      let pc := s.groupPc q.1
      if pc = 0 then none else some ((s.weirNode a).ref * (pc - q.2) / pc)

/-- The lower of two limits. -/
def minLimit (a b : Option Nat) : Option Nat := match a, b with
  | none, y => y
  | x, none => x
  | some x, some y => some (min x y)

/-- A node's limit set to a new value, sent where it changed but not over a PMBus port (R212, R213).
A NONCOMPLIANT node keeps the limit
it has while its group is throttled. -/
def State.setLimit (s : State) (a : Nat) (lim : Option Nat) : State :=
  let n := s.weirNode a
  if n.limit = lim then s
  else
    let lowered : Bool := match n.limit, lim with
      | none, some _ => true
      | some x, some y => decide (y < x)
      | _, none => false
    let s1 := s.modWeirNode a (fun x => { x with
      limit := lim, loweredAt := if lowered then s.clk.tick else x.loweredAt, belowSince := none
      nonc := x.nonc && lim.isSome })
    if s.parN P.PORT_MODE (a / 32) = 2 then s1 else s1.sendThrottle a lim

/-- WEIR_SHAVE_STOP with the shave taken away (R217). -/
def State.shaveStop (s : State) (l : Fin 16) (cause : Nat) : State :=
  let i := s.weir.shave[l]
  if i = 0 then s else (s.modWeir (fun w => { w with shave := w.shave.set l.val 0 l.isLt })).log 0x0809 l.val (lohi cause i)

/-- Limits and shaves formed from every scope's y1 and y2 (R212 to R214, R217). -/
def State.weirAllocate (s : State) : State :=
  let rs := (fins 36).map (fun (k : Fin 36) => s.layer1 k s.weir.scope[k].y1)
  let s1 := s.limitNodes.foldl (fun (t : State) a =>
    let lim := rs.foldl (fun m r => minLimit m (s.limitFrom r a)) none
    let busy := rs.any (fun r => r.any (fun q => q.1 == s.parN P.WEIR_NODE_GROUP a))
    if (s.weirNode a).nonc ∧ busy then t else t.setLimit a lim) s
  let share (k : Fin 36) (l : Fin 16) : Int :=
    let ls := s.scopeLoops k
    let tot := (ls.map s.shaveCap).sum
    if tot = 0 ∨ ls.contains l = false ∨ s.stringMv l ≤ 0 then 0
    else floorDiv (floorDiv (((s.weir.scope[k].y2 * 1000000 * s.shaveCap l : Nat)) : Int) tot) (s.stringMv l)
  s1.modWeir (fun w => { w with shave := tab 16 (fun l => max (share 0 l) (max (share 1 l) (share 2 l))) })

/-- WEIR_HARD for each feed that `x` has an I_hard of: 1 armed, 0 removed (R218, R225). -/
def State.hardLog (s x : State) (armed : Nat) : State :=
  (fins 2).foldl (fun (t : State) (f : Fin 2) => match x.weir.hardI[f] with
    | none => t
    | some i => t.log 0x0808 f.val (lohi armed (min i 0xFFFFFFFF : Nat))) s

/-- The hard limit goes (R218). -/
def State.hardRemove (s : State) : State :=
  if s.weir.hardArmed then
    let s1 := s.hardLog s 0
    (s1.modWeir (fun w => { w with hardArmed := false, hardI := Vector.replicate 2 none, overSince := none, underSince := none })).bankSendSet
  else s.modWeir (fun w => { w with overSince := none, underSince := none })

/-- The feed is CONNECTED as the stems last saw it. -/
def State.seenConnected (s : State) (f : Fin 2) : Bool := s.bank.seen.feed[f].state == .connected

/-- I_hard for a cap, at the feed voltages last seen; none for a feed that is not CONNECTED (R218). -/
def State.hardSet (s : State) (cap : Nat) : State :=
  let i : Vector (Option Nat) 2 := tab 2 (fun f =>
    let v := s.bank.seen.feed[f].v
    if s.seenConnected f ∧ 0 < v then some (floorDiv ((cap * (1000 + s.parN P.WEIR_HARD_OVER 0) * 1000 : Nat) : Int) v).toNat else none)
  (s.modWeir (fun w => { w with hardArmed := true, hardI := i, hardV := tab 2 (fun f => s.bank.seen.feed[f].v) })).bankSendSet

/-- The layer-3 test of scope 0 (R216, R218): `full` says that both layers are exhausted at this evaluation. -/
def State.hardTest (s : State) (cap : Nat) (full : Bool) : State :=
  let p := s.weir.scope[(0 : Fin 36)].p
  let delay := s.parN P.WEIR_HARD_DELAY 0 * 250000
  let now := s.clk.tick
  let above : Bool := decide ((cap : Int) < p)
  let below : Bool := decide (p ≤ (cap : Int) - s.par P.WEIR_HEADROOM 0)
  let s1 := s.modWeir (fun w => { w with
    overSince := if above then some (w.overSince.getD now) else none, underSince := if below then some (w.underSince.getD now) else none })
  if s.weir.hardArmed then
    let calm : Bool := match s1.weir.underSince with
      | some t => decide (t + delay ≤ now)
      | none => false
    if calm then s1.hardRemove
    else if (fins 2).any (fun f => decide (s.weir.hardV[f].natAbs < (s.bank.seen.feed[f].v - s.weir.hardV[f]).natAbs * 100)) then s1.hardSet cap
    else s1
  else match s1.weir.overSince with
    | some t =>
      if full ∧ t + delay ≤ now then
        let s2 := s1.hardSet cap
        let s3 := s2.hardLog s2 1
        if bit s3.weir.scope[(0 : Fin 36)].layers 3 then s3
        else (s3.modScope 0 (fun x => { x with layers := setBit x.layers 3 })).log 0x0804 0 (lohi 3 (p - cap))
      else s1
    | none => s1

/-- d of a scope changed, with the records of an engagement and its end (R216). -/
def State.setReduce (s : State) (k : Fin 36) (d : Nat) : State :=
  let x := s.weir.scope[k]
  let s1 := s.modScope k (fun y => { y with d := d })
  if x.d = 0 ∧ d ≠ 0 then
    (s1.modScope k (fun y => { y with engagedAt := s.clk.tick, layers := 0 })).log 0x0803 k.val (lohi x.p (capWord (s.capNow k)))
  else if x.d ≠ 0 ∧ d = 0 then s1.log 0x0805 k.val ((s.clk.tick - x.engagedAt) / 250000 : Nat)
  else s1

/-- The layers a scope uses, from its d: y1, y2 and the record of a layer's first use (R216). -/
def State.scopeLayers (s : State) (k : Fin 36) (a1 a2 : Nat) : State :=
  let d := s.weir.scope[k].d / 1000000
  let y1 := min d a1
  let y2 := min (d - y1) a2
  let use (n y : Nat) (t : State) : State :=
    if y ≠ 0 ∧ bit t.weir.scope[k].layers n = false then
      (t.modScope k (fun x => { x with layers := setBit x.layers n })).log 0x0804 k.val (lohi n y)
    else t
  use 2 y2 (use 1 y1 (s.modScope k (fun x => { x with y1 := y1, y2 := y2 })))

end Sys2Proof.Machine
end

