-- ==== Sys2Proof/Machine/Weir.lean ====
section
/-! DEFINITION. Weir's evaluation cycle and the resending of limits (R207, R212 to R222). -/

namespace Sys2Proof.Machine

/-- Values kept over the averaging window, with a new one (R207). -/
def State.avgKeep (s : State) (l : List (Nat × Int)) (v : Int) : List (Nat × Int) :=
  l.filter (fun q => decide (s.clk.tick < q.1 + s.parN P.WEIR_AVG_WIN 0 * 250)) ++ [(s.clk.tick, v)]

/-- The mean of kept values. -/
def avgOf (l : List (Nat × Int)) : Int := if l = [] then 0 else nearHalfAway (sumI l (·.2)) l.length

/-- The slots a scope's power is summed from (R206). -/
def State.scopeSlots (s : State) (k : Fin 36) : List Nat :=
  let seg (n : Nat) : List Nat := ((List.range 32).map (fun e => s.parN P.WEIR_SEG_PT (n * 32 + e))).filter (· != 0xFFFFFFFF)
  if k.val = 0 then []
  else if k.val < 3 then seg (k.val - 1)
  else if k.val = 3 then seg 0 ++ seg 1
  else ((s.groupNodes (k.val - 4)).map (fun a => s.parN P.WEIR_NODE_PPT a)).filter (· != 0xFFFFFFFF)

/-- The power of the loops in set 4 that carry load, in W (R206). -/
def State.holdupPower (s : State) : Int :=
  floorDiv (sumI ((fins 16).filter (fun l => s.loop[l].ct.region == 4)) (fun l => max 0 s.loop[l].ct.iNow * s.stringMv l)) 1000000

/-- What a scope's power is at this instant (R206). -/
def State.scopePower (s : State) (k : Fin 36) : Int :=
  if k.val = 0 then s.bank.seen.feed[(0 : Fin 2)].p + s.bank.seen.feed[(1 : Fin 2)].p
  else sumI (s.scopeSlots k) (fun n => s.slotIn n 0) + (if k.val = 3 then s.holdupPower else 0)

/-- P_s of a scope at an evaluation, of a scope in force (R207). Scope 0 averages the metering steps themselves. -/
def State.scopeMeasure (s : State) (k : Fin 36) (on : Bool) : State :=
  let stale : Bool := (s.scopeSlots k).any (fun n => !s.slotFresh n (s.parN P.WEIR_PERIOD 0 * 10000))
  let win := s.hold.importPeak.filter (fun q => decide (s.clk.tick < q.1 + s.parN P.WEIR_AVG_WIN 0 * 250))
  s.modScope k (fun x =>
    let l := s.avgKeep x.avg (s.scopePower k)
    let p := if k.val = 0 ∧ win ≠ [] then avgOf win else avgOf l
    if on then { x with avg := l, p := p, srcStale := stale, isOver := match s.capNow k with
      | none => false
      | some c => decide ((c : Int) < p) }
    else { x with avg := l })

/-- The averaged draw, the reference and the compliance of a member node at an evaluation (R212, R215). -/
def State.nodeMeasure (s : State) (a : Nat) : State :=
  let n := s.weirNode a
  let k := s.parN P.WEIR_NODE_PPT a
  let l := s.avgKeep n.avg (if k = 0xFFFFFFFF then 0 else s.slotIn k 0)
  let draw := (avgOf l).toNat
  let resp := s.parN P.WEIR_RESP_TIME 0 * 250000
  let s1 := s.modWeirNode a (fun x => { x with avg := l, draw := draw, ref := if x.limit.isSome then x.ref else draw })
  match n.limit with
  | none => s1.modWeirNode a (fun x => { x with nonc := false, belowSince := none })
  | some lim =>
    if n.nonc then
      if draw ≤ lim then
        let since := n.belowSince.getD s.clk.tick
        s1.modWeirNode a (fun x => { x with belowSince := some since, nonc := decide (s.clk.tick < since + resp) })
      else s1.modWeirNode a (fun x => { x with belowSince := none })
    else if s.parN P.PORT_MODE (a / 32) ≠ 2 ∧ n.loweredAt + resp ≤ s.clk.tick ∧ lim * 105 + 500 < draw * 100 then
      (s1.modWeirNode a (fun x => { x with nonc := true, belowSince := none })).log 0x0806 a (lohi draw lim)
    else s1

/-- EXCEEDED: the layers exhausted above the cap for WEIR_RESP_TIME (R216). -/
def State.scopeExceed (s : State) (k : Fin 36) (cap : Nat) (full : Bool) : State :=
  let x := s.weir.scope[k]
  let resp := s.parN P.WEIR_RESP_TIME 0 * 250000
  if full ∧ (cap : Int) < x.p then
    let t := x.overSince.getD s.clk.tick
    let s1 := s.modScope k (fun y => { y with overSince := some t })
    if t + resp ≤ s.clk.tick ∧ (x.overSince = none ∨ x.lastEval.getD 0 < t + resp) then
      (s1.modScope k (fun y => { y with exceeded := true })).log 0x0807 k.val (x.p - cap)
    else s1
  else s.modScope k (fun y => { y with overSince := none })

/-- One scope at an evaluation, at the cap in force at that instant: a grant or a lapse acts from
here (R214, R216, R221, R222). -/
def State.scopeEval (s : State) (k : Fin 36) : State :=
  let s1 := s.scopeMeasure k (s.scopeOn k)
  let x := s1.weir.scope[k]
  let now := s.clk.tick
  let dt := now - x.lastEval.getD now
  let fall := s.parN P.WEIR_RELEASE_RATE 0 * dt * 4 / 1000
  let a1 := s1.scopeA1 k
  let a2 := s1.scopeA2 k
  let cap := if s1.scopeOn k then s1.capNow k else none
  let s2 := match cap with
    | none => ((s1.setReduce k (x.d - fall)).scopeLayers k a1 a2).modScope k (fun y => { y with overSince := none })
    | some c =>
      let t : Int := (c : Int) - s.par P.WEIR_HEADROOM k
      let s3 :=
        if x.settleEnd ≤ now then
          if t < x.p then
            (s1.setReduce k (min (x.d + ((x.p - t) * s.par P.WEIR_GAIN 0 * 1000).toNat) ((a1 + a2 + s.parN P.WEIR_HEADROOM k) * 1000000))).modScope k
              (fun y => { y with settleEnd := now + s.parN P.WEIR_RESP_TIME 0 * 250000 })
          else if x.p < t - s.par P.WEIR_REL_BAND k then s1.setReduce k (x.d - fall)
          else s1
        else s1
      let s4 := s3.scopeLayers k a1 a2
      let y := s4.weir.scope[k]
      s4.scopeExceed k c (y.y1 == a1 && y.y2 == a2)
  let s5 := s2.modScope k (fun y => { y with lastEval := some now })
  if k.val = 0 then
    match cap with
    | none => s5.hardRemove
    | some c => s5.hardTest c (s5.weir.scope[k].y1 == a1 && s5.weir.scope[k].y2 == a2)
  else s5

/-- A shave whose loop may no longer be shaved ends (R217). -/
def State.shaveCheck (s : State) (l : Fin 16) : State :=
  if s.weir.shave[l] = 0 then s
  else if s.loop[l].ct.state ≠ .running then s.shaveStop l 2
  else if s.loop[l].ct.region = 4 then s.shaveStop l 3
  else if s.shaveCeiling l = 0 ∧ 0 < s.par P.LOOP_SETPOINT l + s.weir.shave[l] then s.shaveStop l 1
  else if s.shaveOk l = false then s.shaveStop l (Config.shaveOffCause % 256)
  else s

/-- With WEIR_ENABLE = OFF every limit ends, every shave is 0 and every d returns to 0 (R207, R216). -/
def State.weirOff (s : State) : State :=
  let s1 := (fins 36).foldl (fun (t : State) (k : Fin 36) => t.setReduce k 0) (s.limitedNodes.foldl (fun (t : State) a => t.setLimit a none) s)
  (s1.modWeir (fun w => { w with
    shave := Vector.replicate 16 0
    scope := w.scope.map (fun x => { x with y1 := 0, y2 := 0, lastEval := none, overSince := none, settleEnd := 0, avg := [] }) })).hardRemove

/-- WEIR_OVERRUN: the boundaries skipped since the last record of this code, and the longest evaluation (R222, R225). -/
def State.weirOverrun (s : State) (skipped took : Nat) : State :=
  let w := s.weir
  let n := min (w.ovrSkip + skipped) 0xFFFFFFFF
  let long := max w.ovrLong (min took 0xFFFFFFFF)
  (s.modWeir (fun w => { w with
    ovrSkip := n, ovrLong := long
    scope := tab 36 (fun k => if s.scopeOn k then { w.scope[k] with overrun := true } else w.scope[k]) })).log 0x080A 0 (lohi n long)

/-- WEIR_EVALUATION: the boundaries skipped since the last one because it still ran, and its length
in µs (R216, R222). -/
def execWeirEvaluation (skipped : Nat) (took : Nat) (s : State) : Res :=
  if s.hasActive = false then .next s
  else if s.par P.WEIR_ENABLE 0 = 0 then .next s
  else
    let s0 := if skipped = 0 then s else s.weirOverrun skipped took
    let s1 := (fins 16).foldl State.shaveCheck (s0.weirNodes.foldl State.nodeMeasure s0)
    .next ((fins 36).foldl State.scopeEval s1).weirAllocate

/-- Weir at a feed-loss input, an evaluation of its own (R207, R219): scope 3 in force and seeded
from the frozen load, scopes 0 to 2
cleared, shaves and hard limit gone. Scope 3 that is still releasing in NORMAL keeps the larger d (R220). -/
def State.weirHoldup (s : State) : State :=
  if s.par P.WEIR_ENABLE 0 = 0 then s
  else
    let s1 := (fins 16).foldl (fun (t : State) (l : Fin 16) => t.shaveStop l 4) s
    let s2 := ([0, 1, 2] : List (Fin 36)).foldl (fun (t : State) (k : Fin 36) =>
      (t.setReduce k 0).modScope k (fun x => { x with y1 := 0, y2 := 0, overSince := none })) s1
    let k : Fin 36 := 3
    let s3 := (s2.weirNodes.foldl State.nodeMeasure s2.hardRemove).scopeMeasure k true
    let s4 := match s3.capNow k with
      | none => s3
      | some c =>
        let t : Int := (c : Int) - s.par P.WEIR_HEADROOM k
        let seed := (max 0 (s.hold.pLoad - t)).toNat * 1000000
        let d := if s.hold.state = HoldState.normal then max s3.weir.scope[k].d seed else seed
        (s3.setReduce k d).modScope k (fun x => { x with
          settleEnd := s.clk.tick + s.parN P.WEIR_RESP_TIME 0 * 250000, lastEval := some s.clk.tick })
    (s4.scopeLayers k (s4.scopeA1 k) 0).weirAllocate

/-- THROTTLE_RESEND (R213). -/
def execThrottleResend (s : State) : Res :=
  .next (if s.hasActive then s.limitedNodes.foldl (fun (t : State) a => match (t.weirNode a).limit with
    | none => t
    | some l => t.sendThrottle a (some l)) s
  else s)

end Sys2Proof.Machine
end

