-- ==== Sys2Proof/Machine/Hold.lean ====
section
/-! DEFINITION. Hold-up: preloads, the feed-loss input and its release, return and handback (R192 to R201). -/

namespace Sys2Proof.Machine

/-- The loops whose preload is computed: LOOP_HOLDUP_EN and ARM set (R192). -/
def State.armedLoops (s : State) : List (Fin 16) := (fins 16).filter (fun (l : Fin 16) => s.par P.LOOP_HOLDUP_EN l == 1 && s.armOf l)

/-- The slots listed in HOLD_LOAD_PT (R192). -/
def State.loadSlots (s : State) : List Nat := ((List.range 32).map (fun e => s.parN P.HOLD_LOAD_PT e)).filter (· != 0xFFFFFFFF)

/-- P_src in µW (R192). -/
def State.loadSource (s : State) : Int :=
  if s.par P.HOLD_LOAD_SRC 0 = 0 then
    let win := s.hold.importPeak.filter (fun q => decide (s.clk.tick ≤ q.1 + s.parN P.HOLD_LOAD_WIN 0 * 250))
    s.par P.HOLD_EFF 0 * 1000 * (win.foldl (fun a q => max a q.2) 0)
  else sumI s.loadSlots (fun k => s.slotIn k 0) * 1000000

/-- P_load in µW (R192). -/
def State.holdLoad (s : State) : Int :=
  max 0 (s.loadSource - sumI ((fins 16).filter (fun (l : Fin 16) => s.par P.LOOP_HOLDUP_EN l == 1))
    (fun (l : Fin 16) => max 0 (-s.loop[l].ct.iNow) * s.stringMv l))

/-- The weight of a loop; a cut-off string counts for nothing, until the loop's next sample after the end of the cut-off
(R192, R243, R244). -/
def State.holdWeight (s : State) (l : Fin 16) : Nat := match s.stringOf l with
  | none => s.parN P.HOLD_WEIGHT l
  | some b => if s.batt[b].fl.cutoff ∨ s.loop[l].tm.lastOrd < s.batt[b].uncutOrd then 0 else s.parN P.HOLD_WEIGHT l

/-- I_pre of a loop before its clamp (R192). -/
def State.preRaw (s : State) (pre : Int) (w : Nat) (l : Fin 16) : Int :=
  let v := s.stringMv l
  if w = 0 ∨ v ≤ 0 then 0 else floorDiv (pre * s.holdWeight l) (w * v)

/-- HOLD_PRELOAD_COMPUTE (R192, R193). -/
def execHoldPreloadCompute (s : State) : Res :=
  if s.hasActive = false ∨ s.hold.state ≠ .normal then .next s
  else
    let s1 := (fins 16).foldl State.preStale s
    let load := s.holdLoad
    let cap := s.par P.HOLD_PRE_CAP 0 * 1000000
    let armed := s.armedLoops
    let w := (armed.map s.holdWeight).sum
    let raw (l : Fin 16) : Int := s.preRaw (min load cap) w l
    let i (l : Fin 16) : Int := clampI 0 (s.par P.LOOP_ICMD_MAX l) (raw l)
    let bad : Bool := s.par P.HOLD_LOAD_SRC 0 == 1 && s.loadSlots.any (fun k => !s.slotFresh k (s.parN P.HOLD_PRE_PERIOD 0 * 10000))
    let s2 := s1.modHold (fun h => { h with
      pLoad := load / 1000000, preCapped := decide (cap < load), loopClamp := armed.any (fun l => i l != raw l), loadSrcBad := bad
      pre := tab 16 (fun l => if armed.contains l then i l else h.pre[l])
      preAt := tab 16 (fun l => if armed.contains l then s.clk.tick else h.preAt[l])
      stale := tab 16 (fun l => if armed.contains l then false else h.stale[l]) })
    .next (armed.foldl (fun (t : State) (l : Fin 16) => t.modCt l (fun c => { c with preload := i l })) s2)

/-- Every member that follows trims or runs in droop is suspended and told so (R187, R197). -/
def State.suspendMember (s : State) (m : Fin 64) : State :=
  let st := s.share.mbr[m].state
  if st = .trimmed ∨ st = .held ∨ st = .droop then (s.mbrTo m .suspended).sendHoldup (s.parN P.SHARE_MBR_NODE m) else s

/-- The steps of R197: records, members, Weir, Spate, notice. -/
def State.holdEnter (s : State) : State :=
  let h := s.hold
  let armed := (fins 16).filter (fun (l : Fin 16) => s.loop[l].ct.arm)
  let mask := (armed.map (fun (l : Fin 16) => 2 ^ l.val)).sum
  let age := (armed.map (fun (l : Fin 16) => (s.clk.tick - h.preAt[l]) / 250)).foldl max 0
  let s1 := (s.modHold (fun x => { x with
    frozen := true, noArmed := x.noArmed || armed.isEmpty, stateAt := s.clk.tick, timerDone := false
    enterAt := if h.state = .normal then s.clk.tick else x.enterAt
    entries := if h.state = .normal then bump x.entries else x.entries })).log 0x0720 0
      (toWord 32 h.pLoad + mask * 2 ^ 32 + min age 65535 * 2 ^ 48 : Nat)
  let s2 := if armed.isEmpty then s1.log 0x0725 0 h.pLoad else s1
  let s3 := ((fins 64).foldl State.suspendMember s2).weirHoldup
  let s4 := if s.par P.HOLD_SPATE_EN 0 = 1 then s3.spateReq 1 0 else s3
  s4.holdTo .holdup

/-- The next event of the feed-loss line on its way to the stems is `up`, and a stem takes it (R171). -/
def State.lineEvent (s : State) (up : Bool) : Bool := s.hasActive && s.bank.lineQ.head? == some up

/-- FEED_LOSS_INPUT: the stamped assertion of the feed-loss line (R107, R109, R193, R197, R199, R481). -/
def execFeedLossInput (s : State) : Res :=
  if s.lineEvent true = false then .next s
  else
    let s0 := (fins 16).foldl State.preStale ((s.stamp.modHold (fun h => { h with line := true })).modBank (fun b => { b with
      lineQ := b.lineQ.tail, seenLine := !(b.disarmed && !b.line), disarmed := b.disarmed && !b.line }))
    let s1 := s0.captureEvent 49 |>.faultScan
    let s2 := (fins 16).foldl State.loopFeedLoss s1
    match s.hold.state with
    | .normal => .next s2.holdEnter
    | .handback => .next s2.holdEnter
    | .holdup => .next s2
    | .returnWait =>
      .next (((s2.modHold (fun h => { h with timerDone := false, stateAt := s.clk.tick })).log 0x0722 0
        ((s.clk.tick - s.hold.stateAt) / 250000 : Nat)).holdTo .holdup)

/-- FEED_LOSS_RELEASE_INPUT: the stamped release of the feed-loss line (R171, R199). -/
def execFeedLossReleaseInput (s : State) : Res :=
  .next (if s.lineEvent false then
    ((s.stamp.modBank (fun b => { b with lineQ := b.lineQ.tail })).lineReleased).faultScan
  else s)

/-- The members that meet the quorum (R199, R307). -/
def State.quorumCount (s : State) : Nat :=
  ((fins 64).filter (fun (m : Fin 64) =>
    let a := s.parN P.SHARE_MBR_NODE m
    let o := s.outState a
    s.share.mbr[m].state == .suspended && (s.node a).isOpen && (o == 1 || o == 2))).length

/-- The quorum is met (R199). -/
def State.quorum (s : State) : Bool := decide (s.parN P.HOLD_MIN_MODULES 0 ≤ s.quorumCount)

/-- A suspended member is handed back (R187, R200): HOLDUP MODE 0 before its first trim. -/
def State.releaseMember (s : State) (m : Fin 64) : State :=
  if s.share.mbr[m].state ≠ .suspended then s
  else
    let a := s.parN P.SHARE_MBR_NODE m
    let s1 := if s.mbrOpen m ∧ s.mbrFresh m then s.mbrTo m .trimmed
      else (s.mbrTo m .droop).modMbr m (fun x => { x with ep := (s.node a).epoch })
    s1.sendHoldup a

/-- Handback with its cause (R199, R200). -/
def State.handback (s : State) (cause : Nat) : State :=
  let s1 := s.log 0x0723 0 (cause + s.quorumCount * 256 + (s.clk.tick - s.hold.releasedAt) / 250000 * 2 ^ 32 : Nat)
  let s2 := (fins 64).foldl State.releaseMember s1
  (((fins 16).foldl State.loopHandback s2.stamp).holdTo .handback).holdExitScan

/-- Handback where R199 lets it happen without a command: AUTO, or HOST with nobody holding HOLDUP. -/
def State.tryHandback (s : State) : State :=
  if s.hasActive ∧ s.hold.state = .returnWait ∧ s.hold.timerDone ∧ s.quorum then
    if s.par P.HOLD_HANDBACK 0 = 0 then s.handback 0
    else if (s.permit 2).holder = none then (s.modHold (fun h => { h with autoFallback := true })).handback 2
    else s
  else s

/-- HOLD_RETURN_TIMER: HOLD_RETURN_DELAY has elapsed (R199). -/
def execHoldReturnTimer (s : State) : Res :=
  .next (if s.hasActive ∧ s.hold.state = .returnWait ∧ s.hold.stateAt + 250000 * s.parN P.HOLD_RETURN_DELAY 0 ≤ s.clk.tick then (s.modHold (fun h => { h with timerDone := true })).tryHandback else s)

/-- The output states of the members' nodes looked at (R307, R314). -/
def State.memberScan (s : State) : State :=
  ((fins 64).filter s.memberUsed).foldl (fun (t : State) (m : Fin 64) => t.outScan (t.parN P.SHARE_MBR_NODE m)) s

/-- HOLD_QUORUM_MET: the quorum becomes met after the delay (R199). -/
def execHoldQuorumMet (s : State) : Res := .next (if s.hasActive then s.memberScan.tryHandback else s)

/-- The effect of HANDBACK (R199): BUSY in HOLDUP; where the table has no row, OK and no change. -/
def State.holdHandback (s : State) : State × Nat := match s.hold.state with
  | .returnWait => (s.handback 1, stOk)
  | .holdup => (s, stBusy)
  | .normal => (s, stOk)
  | .handback => (s, stOk)

/-- HOLD_CTRL HANDBACK by a session that holds HOLDUP (R199). -/
def execHoldCtrlHandback (k : Fin 8) (s : State) : Res := .next (s.control k [2] (fun t => t.holdHandback))

/-- HOLD_STATUS (R202). -/
def State.holdStatus (s : State) : Nat :=
  let h := s.hold
  let period := s.parN P.HOLD_PRE_PERIOD 0 * 1000
  let stale := (fins 16).any (fun (l : Fin 16) => s.par P.LOOP_HOLDUP_EN l == 1 && h.preAt[l] != 0 && decide (period < s.clk.tick - h.preAt[l]))
  ([s.bank.seenLine, h.frozen, stale, h.preCapped, h.loopClamp, h.noArmed, s.hasActive && s.quorum, h.autoFallback, h.loadSrcBad,
    (fins 64).any (fun (m : Fin 64) => s.share.mbr[m].limited)].zipIdx.map (fun q => if q.1 then 2 ^ q.2 else 0)).sum

end Sys2Proof.Machine
end

