-- ==== Sys2Proof/Machine/MramOps.lean ====
section
/-! DEFINITION. The silt store as addressed memory (R339): its canonical form, reads and writes. An
unlisted byte reads 0. -/

namespace Sys2Proof.Machine

/-- The size of the silt store (R339). -/
def mramSize : Nat := 0x3000000

/-- The canonical form: addresses strictly rising, inside the store, no byte equal to what an
unlisted address reads as. -/
abbrev Memory.wf (m : List Host.Cell) : Prop := SMap.wf (0#8) m ∧ ∀ c ∈ m, c.1 < mramSize

/-- The byte at an address. -/
def mramByte (m : List Host.Cell) (a : Nat) : Byte := SMap.get (0#8) a m

/-- One byte written; an address outside the store takes nothing. -/
def mramSet (m : List Host.Cell) (a : Nat) (b : Byte) : List Host.Cell := if a < mramSize then SMap.set (0#8) a b m else m

/-- Bytes written from an address upward. -/
def mramPut (m : List Host.Cell) (a : Nat) : List Byte → List Host.Cell
  | [] => m
  | b :: bs => mramPut (mramSet m a b) (a + 1) bs

/-- `n` bytes read from an address upward. -/
def mramGet (m : List Host.Cell) (a : Nat) : Nat → List Byte
  | 0 => []
  | n + 1 => mramByte m a :: mramGet m (a + 1) n

/-- Bytes of the silt store written. -/
def State.store (s : State) (a : Nat) (bs : List Byte) : State := { s with mram := mramPut s.mram a bs }

/-- Bytes of the silt store read. -/
def State.load (s : State) (a n : Nat) : List Byte := mramGet s.mram a n

/-- The number `n` bytes of the silt store spell. -/
def State.loadNat (s : State) (a n : Nat) : Nat := leNat (s.load a n)

/-- Some byte of a region is not 0. -/
def State.written (s : State) (a n : Nat) : Bool := s.mram.any (fun c => decide (a ≤ c.1 ∧ c.1 < a + n))

end Sys2Proof.Machine
end

