-- ==== Sys2Proof/Machine/SiltOps.lean ====
section
/-! DEFINITION. The Silt writer's shared operations: the decision on an event, records as bytes, the
ledger, reading a slot
(R341 to R354). -/

namespace Sys2Proof.Machine

/-- The number of record slots (R339). -/
def siltSlots : Nat := 786432

/-- Record sequences run modulo this (R345). -/
def siltMod : Nat := 4294705152

/-- The sequence after one (R345). -/
def siltNext (q : Nat) : Nat := (q + 1) % siltMod

/-- The address of the slot of a sequence (R339, R345). -/
def siltAddr (q : Nat) : Nat := 0xC00000 + 32 * (q % siltSlots)

/-- The number of records from OLDEST to the newest (R354). -/
def Silt.count (x : Silt) : Nat := (x.done + siltMod - x.oldest) % siltMod

/-- The always-recorded codes (R352). -/
def alwaysCodes : List Nat := [0x0D01, 0x1101, 0x1102, 0x1103, 0x1201, 0x1202, 0x1001, 0x0E04, 0x0E05]

/-- What the writer keeps of a code. -/
def State.codeSt (s : State) (c : Nat) : CodeSt := SMap.get CodeSt.none c s.silt.code

/-- What the writer keeps of a code changed. -/
def State.setCode (s : State) (c : Nat) (x : CodeSt) : State := s.modSilt (fun y => { y with code := SMap.set CodeSt.none c x y.code })

/-- The fields of a code's data that count "since the last record of this code": lowest bit and
width (R90, R183, R225, R268, R287, R314,
R338, R439, R463, R487). -/
def sinceFields (code : Nat) : List (Nat × Nat) :=
  if code = 0x0303 ∨ code = 0x060F ∨ code = 0x0C06 ∨ code = 0x1008 ∨ code = 0x1110 then [(0, 64)]
  else if code = 0x0A05 then [(0, 16), (16, 16), (32, 16), (48, 16)]
  else if code = 0x0B06 ∨ code = 0x0F03 then [(32, 32)]
  else if code = 0x080A then [(0, 32)]
  else []

/-- A data word whose counts begin after a record with data `r`. -/
def sinceRecord (code r data : Nat) : Nat :=
  (sinceFields code).foldl (fun d q => d - min (r / 2 ^ q.1 % 2 ^ q.2) (d / 2 ^ q.1 % 2 ^ q.2) * 2 ^ q.1) data

/-- The counts that run "since the last record of this code" start again with a record made of an
event of data `r`: of those added since
the event they keep the rest, and so do the events of this code and source that still wait. -/
def State.recordMade (s : State) (code src r : Nat) : State :=
  if sinceFields code = [] then s
  else
    let s := { s with evq := s.evq.map (fun e => if e.code = code ∧ e.src = src then { e with data := sinceRecord code r e.data } else e) }
    let f (n : Nat) : Nat := r / 2 ^ (16 * n) % 65536
    let hi := r / 2 ^ 32
    if code = 0x0303 then (if h : src < 4 then s.modDie ⟨src, h⟩ (fun d => { d with paritySince := d.paritySince - r }) else s)
    else if code = 0x060F then { s with bank := { s.bank with errs := s.bank.errs - r } }
    else if code = 0x080A then { s with weir := { s.weir with ovrSkip := s.weir.ovrSkip - r % 2 ^ 32, ovrLong := 0 } }
    else if code = 0x0A05 then
      s.modCnt (portOfAddr (src * 32)) (fun c => { c with
        newCrc := c.newCrc - f 0, newAbandon := c.newAbandon - f 1, newMalformed := c.newMalformed - f 2, newNoCredit := c.newNoCredit - f 3 })
    else if code = 0x0B06 then s.modNode src (fun n => { n with staleNew := n.staleNew - hi })
    else if code = 0x0C06 then s.modPool (fun p => { p with subLostNew := SMap.set 0 src (SMap.get 0 src p.subLostNew - r) p.subLostNew })
    else if code = 0x1008 then
      { s with stems := { s.stems with newResend := tab 6 (fun k => s.stems.newResend[k] - (if k.val = src then r else 0)) } }
    else if code = 0x1110 then
      { s with timer := tab 32 (fun t => if t.val = src then { s.timer[t] with dropNew := s.timer[t].dropNew - r } else s.timer[t]) }
    else s.modHost (fun h => { h with port := tab 4 (fun p => if p.val = src then { h.port[p] with refNew := h.port[p].refNew - hi } else h.port[p]) })

/-- FLAGS of a record decided now (R343); DEFERRED in a hold, or for an event that waited through one (R348). -/
def State.recFlags (s : State) (suppressed always : Bool) : Nat :=
  b2n suppressed + 2 * b2n always + 4 * b2n (s.activeStem == 1) + 8 * b2n (!s.tb.isSet) + 16 * b2n (s.brownWarn || decide (0 < s.silt.heldN))

/-- A new record at the end of the writer's queue (R343, R345). -/
def State.newRecord (s : State) (e : LogEv) (always : Bool) (deficit : Nat) : State :=
  let c := s.codeSt e.code
  let sup : Bool := decide (c.refused ≠ 0) && !always
  let data := if sup then c.refused % 2 ^ 32 + min ((e.time - c.firstRef) / 1000000) 0xFFFFFFFF * 2 ^ 32 else e.data
  let q := s.silt.next
  let s1 := s.modSilt (fun x => { x with
    queue := x.queue ++ [⟨s.recFlags sup always, e.code, e.src, q, e.time, data, 0⟩], next := siltNext q
    clears := if e.code = 0x0D01 then x.clears ++ [q] else x.clears })
  (s1.setCode e.code { c with
    seq := some q, src := e.src, last := e.time, tally := 0, deficit := deficit, at_ := e.time
    refused := if sup then 0 else c.refused, firstRef := if sup then 0 else c.firstRef }).recordMade e.code e.src e.data

/-- A repeat folds into the record of its code, in the queue or by a tally write (R350). -/
def State.tallyEvent (s : State) (e : LogEv) (q : Nat) : State :=
  let c := s.codeSt e.code
  let n := c.tally + 1
  let s1 := s.setCode e.code { c with last := e.time, tally := n }
  if s.silt.queue.any (fun r => r.seq == q) then
    s1.modSilt (fun x => { x with queue := x.queue.map (fun r => if r.seq = q then { r with tally := n } else r) })
  else s1.modSilt (fun x => { x with tallyDue := x.tallyDue ++ [(q, n)] })

/-- The decision of R350 on an event. -/
def State.siltDecide (s : State) (e : LogEv) : State :=
  let c := s.codeSt e.code
  if alwaysCodes.contains e.code then s.newRecord e true c.deficit
  else
    let w := s.parN P.SILT_CODE_WINDOW e.code * 1000000
    let folds : Option Nat := match c.seq with
      | none => none
      | some q => if w ≠ 0 ∧ c.src = e.src ∧ e.time ≤ c.last + w ∧ c.tally < 65535 then some q else none
    match folds with
    | some q => s.tallyEvent e q
    | none =>
      let deficit := c.deficit - s.parN P.SILT_CODE_RATE e.code * (e.time - c.at_)
      if deficit + 10000000000 ≤ s.parN P.SILT_CODE_BURST e.code * 10000000000 then s.newRecord e false (deficit + 10000000000)
      else
        s.setCode e.code { c with
          deficit := deficit, at_ := e.time, refused := c.refused + 1, firstRef := if c.refused = 0 then e.time else c.firstRef
          suppressed := bump c.suppressed }

/-- A record as its 32 bytes (R343, R344). -/
def SRec.bytes (r : SRec) : List Byte :=
  let b := leBytes 1 0x5A ++ leBytes 1 r.flags ++ leBytes 2 r.code ++ leBytes 2 r.src ++ leBytes 4 r.seq ++ leBytes 8 r.time ++ leBytes 8 r.data
  b ++ leBytes 2 (crc16 b) ++ leBytes 2 r.tally ++ leBytes 2 (65535 - r.tally)

/-- The silt store still owes a tally write or a ledger write, each requested before a record or a
Spate block that takes
its grant now (R340). -/
def State.storeOwes (s : State) : Bool := s.silt.tallyDue != [] || s.silt.ledgerDue

/-- A slot holds a valid record (R344, R346). -/
def recValid (bs : List Byte) : Bool := leAt bs 0 1 == 0x5A && crc16 (bs.take 26) == leAt bs 26 2

/-- A record put before every record that waits, with the sequence of the first of them; those
behind it move up by one (R491), and a slot whose header names one of them has its header copied anew (R362). -/
def State.headRecord (s : State) (r : SRec) : State :=
  let q := s.silt.done
  let moves (k : Nat) : Bool := s.silt.queue.any (fun x => x.seq == k)
  let s1 := { s with spate := { s.spate with buf := s.spate.buf.map (fun (b : SpBuf) => if b.st = BufState.frozen ∧ 8064 < b.blk ∧ moves b.recSeq then
    { b with recSeq := siltNext b.recSeq, blk := 8065 } else b) } }
  s1.modSilt (fun x => { x with
    queue := { r with seq := q } :: x.queue.map (fun (y : SRec) => { y with seq := siltNext y.seq }), next := siltNext x.next
    clears := x.clears.map (fun k => if moves k then siltNext k else k)
    code := x.code.map (fun (p : Nat × CodeSt) => (p.1, { p.2 with seq := p.2.seq.map (fun k => if moves k then siltNext k else k) })) })

/-- The boot item of the ledger (R503). -/
def State.bootItem (s : State) : List Byte :=
  let f := s.firm
  leBytes 1 f.runSlot ++ leBytes 1 (match f.trialSlot with | none => 255 | some t => t.val) ++ leBytes 1 f.trialBoots ++ leBytes 1 s.host.ledImg ++
    leBytes 8 f.trialStart ++ leBytes 4 0

/-- The thermal item of a die (R474). -/
def ThDie.item (x : ThDie) : List Byte :=
  leBytes 8 x.last ++ leBytes 2 x.count ++ leBytes 1 (b2n (x.st == .latched) + 2 * b2n (x.st != .run) + 4 * b2n x.recorded) ++ leBytes 1 0

/-- A ledger copy as its 4,096 bytes (R341). -/
def State.ledgerBytes (s : State) (gen : Nat) : List Byte :=
  let c : EnergyCopy := s.bank.copy.getD ⟨0, Vector.replicate 2 0, Vector.replicate 2 0⟩
  let head := leBytes 4 gen ++ leBytes 4 s.silt.oldest ++ leBytes 4 s.silt.done ++ leBytes 2 s.nodes.bootGen ++ leBytes 2 0 ++
    leBytes 8 c.imp[(0 : Fin 2)] ++ leBytes 8 c.exp[(0 : Fin 2)] ++ leBytes 8 c.imp[(1 : Fin 2)] ++ leBytes 8 c.exp[(1 : Fin 2)] ++
    leBytes 8 c.time ++ leBytes 8 0
  let b := head ++ s.bootItem ++ List.replicate (3968 - 80) 0#8 ++ (fins 8).flatMap (fun (d : Fin 8) => s.therm.die[d].item) ++
    List.replicate (4092 - 4064) 0#8
  b ++ leBytes 4 (crc32c b)

/-- The address of a ledger copy (R339). -/
def ledgerAddr (b : Bool) : Nat := if b then 0xBF0000 else 0x9F0000

/-- A ledger write: to the copy not read or written last, with GEN one above (R342). -/
def State.ledgerWrite (s : State) : State :=
  let gen := (s.silt.gen + 1) % 2 ^ 32
  (s.store (ledgerAddr (!s.silt.copyB)) (s.ledgerBytes gen)).modSilt (fun x => { x with
    gen := gen, copyB := !x.copyB, ledgerDue := false, ledgerAfter := 0, ledgerWarn := false, ledgerAt := s.clk.tick, commits := x.commits + 1 })

/-- 10 s have passed since the last ledger write, or since the start of DL_NV (R342). -/
def State.ledgerOld (s : State) : Bool := decide (s.silt.ledgerAt + 2500000000 ≤ s.clk.tick)

/-- A ledger copy has a good CRC (R341, R342). -/
def State.ledgerOk (s : State) (b : Bool) : Bool :=
  s.written (ledgerAddr b) 4096 && crc32c (s.load (ledgerAddr b) 4092) == s.loadNat (ledgerAddr b + 4092) 4

/-- The ledger copy in force: the one with a good CRC and the higher GEN (R342). -/
def State.ledgerPick (s : State) : Option Bool :=
  let gen (b : Bool) : Nat := s.loadNat (ledgerAddr b) 4
  if s.ledgerOk false ∧ s.ledgerOk true then some (decide (gen false < gen true))
  else if s.ledgerOk false then some false
  else if s.ledgerOk true then some true
  else none

/-- What a record takes at its commit: STEM of the stem that writes it (R343); for SILT_CLEARED the
records it clears and the OLDEST
before it (R369). -/
def State.recSealed (s : State) (r : SRec) : SRec :=
  let r1 := { r with flags := (if bit r.flags 2 then r.flags - 4 else r.flags) + 4 * b2n (s.activeStem == 1) }
  if s.silt.clears.contains r.seq then { r1 with data := s.silt.count + s.silt.oldest * 2 ^ 32 } else r1

/-- The slot at a sequence as a reader latches it: the sequence read, STATUS (0 VALID, 1 EMPTY, 2
BAD), whether the cursor moved to
OLDEST, the 32 bytes (R354). -/
def State.siltLatch (s : State) (cursor : Nat) : Nat × Nat × Bool × List Byte :=
  let n := s.silt.count
  let d := (cursor + siltMod - s.silt.oldest) % siltMod
  let at_ := if n < d then s.silt.oldest else cursor
  let moved : Bool := decide (n < d)
  let d1 := if n < d then 0 else d
  if d1 < n then
    let bs := s.load (siltAddr at_) 32
    (at_, if recValid bs then 0 else 2, moved, bs)
  else (at_, 1, moved, List.replicate 32 0#8)

end Sys2Proof.Machine
end

