-- ==== Sys2Proof/Machine/SpateOps.lean ====
section
/-! DEFINITION. Spate's shared operations: signals, buffers, slots (R358 to R363). -/

namespace Sys2Proof.Machine

/-- Spate changed. -/
def State.modSpate (s : State) (f : Spate → Spate) : State := { s with spate := f s.spate }

/-- Capture buffer `b` changed. -/
def State.modBuf (s : State) (b : Fin 2) (f : SpBuf → SpBuf) : State := s.modSpate (fun x => { x with buf := upd x.buf b f })

/-- The 16 entries of SPATE_SIG (R358, R363). -/
def State.spateSig (s : State) : List Nat := (List.range 16).map (fun e => s.parN P.SPATE_SIG e)

/-- The signals named in a buffer's entries, in entry order (R358). -/
def SpBuf.used (b : SpBuf) : List Nat := b.sig.filter (· != 0xFFFFFFFF)

/-- Frames a buffer holds: 64,512 / N (R358). -/
def SpBuf.depth (b : SpBuf) : Nat := 64512 / b.used.length

/-- Ticks per frame (R358). -/
def SpBuf.every (b : SpBuf) : Nat := [50, 250, 1000, 5000, 8000, 25000].getD b.rate 250

/-- A capture holds all of its F − P frames from the trigger frame on (R361). -/
def SpBuf.complete (b : SpBuf) : Bool := decide (b.depth ≤ b.frames.length - b.pre + b.keep)

/-- Frames kept before a trigger: P (R361). -/
def State.spatePre (s : State) (b : SpBuf) : Nat := b.depth * s.parN P.SPATE_PRE 0 / 100

/-- The digital word (R359). -/
def State.digital (s : State) : Nat :=
  ((fins 16).map (fun (l : Fin 16) => if s.loop[l].eb.pgPin then 2 ^ l.val else 0)).sum +
  ((fins 4).map (fun (m : Fin 4) => if s.fault.pin[m] then 2 ^ (16 + m.val) else 0)).sum + b2n s.bank.seenLine * 2 ^ 20 + b2n s.brownWarn * 2 ^ 21

/-- The latest value of a signal (R359; what VS_CONVERSION and PHASE_ADC_SAMPLE bring has reached
the stems: DESIGN CHOICE,
log entry 140). -/
def State.signal (s : State) (sig : Nat) : Int :=
  let kind := sig / 2 ^ 24
  let i := sig % 2 ^ 24
  if kind = 1 then (if h : i < 16 then s.nodeMv ⟨i, h⟩ s.vs[i].last 1 else 0)
  else if kind = 2 then (if h : i < 48 then s.ph[i].adc else 0)
  else if kind = 3 then (if h : i < 16 then s.loop[i].ct.icmd else 0)
  else if kind = 4 then (if h : i < 16 then s.loop[i].ct.y else 0)
  else if kind = 5 then (if h : i < 2 then s.bank.seen.feed[i].v else 0)
  else if kind = 6 then (if h : i < 2 then s.bank.seen.feed[i].i else 0)
  else if kind = 7 then s.bank.seen.vbus
  else if kind = 8 then signed 32 (s.slot i).value
  else (s.digital : Nat)

/-- A buffer is recording. -/
def SpBuf.records (b : SpBuf) : Bool := b.st == .running || b.st == .post

/-- A buffer that holds nothing starts to run, where none records and SPATE_ENABLE is ON (R358, R361). -/
def State.spateRun (s : State) : State :=
  if s.par P.SPATE_ENABLE 0 = 0 ∨ (fins 2).any (fun (b : Fin 2) => s.spate.buf[b].records) then s
  else match (fins 2).find? (fun (b : Fin 2) => s.spate.buf[b].st == .idle) with
    | none => s
    | some b => s.modBuf b (fun _ => { SpBuf.reset with st := .running, sig := s.spateSig, rate := s.parN P.SPATE_RATE 0 })

/-- SPATE_ENABLE, SPATE_RATE or SPATE_SIG has been applied: a running buffer starts afresh, or stops (R358). -/
def State.spateApply (s : State) : State :=
  ((fins 2).foldl (fun (t : State) (b : Fin 2) => if t.spate.buf[b].st = .running then t.modBuf b (fun _ => SpBuf.reset) else t) s).spateRun

/-- The address of a slot (R339). -/
def slotAddr (k : Fin 48) : Nat := 0x2400000 + 262144 * k.val

/-- A slot is locked (R363). -/
def State.slotLocked (s : State) (k : Fin 48) : Bool := s.loadNat (slotAddr k + 4088) 4 == 1

/-- SPATE_SLOT_STATE (R368). -/
def State.slotState (s : State) (k : Fin 48) : Nat :=
  let mark := s.loadNat (slotAddr k) 1
  if mark = 0x5A then (if s.slotLocked k then 2 else 1) else if mark = 0xA5 then 3 else 0

/-- A trigger is taken (R360). -/
def State.trigTaken (s : State) (t : SpTrig) : Bool := t.code == 0 || bit (s.parN P.SPATE_TRIG_EN 0) t.code

/-- A frozen buffer's frames as data bytes (R363). -/
def SpBuf.data (b : SpBuf) : List Byte := b.frames.flatMap (fun f => f.2.flatMap (fun v => leBytes 4 (toWord 32 v)))

/-- The header of a slot from byte 1 to byte 4,087 (R363). -/
def SpBuf.header (b : SpBuf) : List Byte :=
  let first : Nat := match b.frames with
    | [] => 0
    | f :: _ => f.1
  let sig := b.sig.flatMap (leBytes 4)
  let secs := (b.secs ++ List.replicate (8 - b.secs.length) (0, 0, 0)).flatMap (fun (q : Nat × Nat × Nat) =>
    leBytes 1 q.1 ++ leBytes 1 q.2.1 ++ leBytes 2 0 ++ leBytes 4 q.2.2)
  leBytes 1 1 ++ leBytes 1 b.trig.code ++ leBytes 1 b.trig.arg ++ leBytes 4 b.recSeq ++ leBytes 8 b.trig.time ++ leBytes 8 first ++
    leBytes 1 b.rate ++ leBytes 1 b.used.length ++ leBytes 2 b.pre ++ leBytes 4 b.frames.length ++ leBytes 1 (min b.secN 255) ++
    List.replicate 7 0#8 ++ sig ++ secs ++ List.replicate 3920 0#8

end Sys2Proof.Machine
end

