-- ==== Sys2Proof/Machine/Spate.lean ====
section
/-! DEFINITION. Spate capture: frames, triggers, freezes, the copy to a slot, controls (R358 to R364). -/

namespace Sys2Proof.Machine

/-- SPATE_FRAME: a frame instant of the recording buffer, which lies on the tick grid of its rate (R358, R361). -/
def execSpateFrame (s : State) : Res :=
  match (fins 2).find? (fun (b : Fin 2) => s.spate.buf[b].records) with
  | none => .next s
  | some b =>
    let x := s.spate.buf[b]
    let f := (s.clk.shelf, x.used.map s.signal)
    .next (if s.hasActive = false ∨ s.par P.SPATE_ENABLE 0 = 0 ∨ s.clk.tick % x.every ≠ 0 then s
    else if x.st = .running then
      s.modBuf b (fun y => { y with frames := (y.frames ++ [f]).drop (y.frames.length + 1 - y.depth) })
    else if x.complete then s
    else s.modBuf b (fun y => { y with frames := y.frames ++ [f] }))

/-- A trigger meets the buffers: it starts a capture, joins one, or is missed (R361). -/
def State.spateTake (s : State) (t : SpTrig) : State :=
  match (fins 2).find? (fun (b : Fin 2) => s.spate.buf[b].records) with
  | none => (s.modSpate (fun x => { x with missed := bump x.missed })).log 0x0D11 t.code (1 + t.arg * 256 : Nat)
  | some b =>
    let x := s.spate.buf[b]
    if x.st = .running then
      let before := x.frames.filter (fun f => decide (f.1 < t.time))
      let keep := min before.length (s.spatePre x)
      s.modBuf b (fun y => { y with
        st := .post, trig := t, keep := s.spatePre x, pre := keep, frames := before.drop (before.length - keep) ++ y.frames.drop before.length })
    else
      let i := (x.frames.filter (fun f => decide (f.1 < t.time))).length
      s.modBuf b (fun y => { y with secs := if y.secN < 8 then y.secs ++ [(t.code, t.arg, i)] else y.secs, secN := y.secN + 1 })

/-- SPATE_TRIGGER: the triggers of one stamped input step, the lowest code first (R360, R361). -/
def execSpateTrigger (s : State) : Res :=
  match s.spate.trigs with
  | [] => .next s
  | t :: _ =>
    if s.hasActive = false then .next s
    else
      let now := s.spate.trigs.takeWhile (fun u => u.ord == t.ord)
      let s1 := s.modSpate (fun x => { x with trigs := x.trigs.drop now.length })
      if s.par P.SPATE_ENABLE 0 = 0 then .next s1
      else
        let taken := now.filter s.trigTaken
        .next ((List.range 7).foldl (fun (u : State) c => (taken.filter (fun q => q.code == c)).foldl State.spateTake u) s1)

/-- SPATE_FREEZE: a complete capture freezes and takes a slot; the other buffer starts (R361, R362). -/
def execSpateFreeze (s : State) : Res :=
  match (fins 2).find? (fun (b : Fin 2) => s.spate.buf[b].st == .post) with
  | none => .next s
  | some b =>
    let x := s.spate.buf[b]
    if s.hasActive = false ∨ x.complete = false then .next s
    else
      let order := (List.range 48).map (fun i => (s.spate.next.val + i) % 48)
      let free := order.filterMap (fun i => if h : i < 48 then (if s.slotLocked ⟨i, h⟩ then none else some (⟨i, h⟩ : Fin 48)) else none)
      match free with
      | [] =>
        .next ((((s.modBuf b (fun _ => SpBuf.reset)).modSpate (fun y => { y with missed := bump y.missed })).log 0x0D11 x.trig.code
          (2 + x.trig.arg * 256 : Nat)).spateRun)
      | k :: _ =>
        .next (((s.modBuf b (fun y => { y with st := .frozen, slot := some k, blk := 0 })).modSpate (fun y => { y with
          order := y.order ++ [b], next := k + 1 })).spateRun)

/-- The header's record of a saved capture, decided when the data region is complete (R362, R363). -/
def State.spateSaved (s : State) (b : Fin 2) (k : Fin 48) : State :=
  let x := s.spate.buf[b]
  let e : LogEv := ⟨0x0D10, k.val, x.trig.code + x.trig.arg * 256 + min x.secN 255 * 65536 + x.pre * 2 ^ 32, s.clk.shelf⟩
  let s1 := s.siltDecide e
  s1.modBuf b (fun y => { y with recSeq := if s1.silt.next = s.silt.next then 0xFFFFFFFF else s.silt.next, blk := y.blk + 1 })

/-- The record of a saved capture has been committed, or none was made. -/
def State.spateCommitted (s : State) (q : Nat) : Bool := q == 0xFFFFFFFF || !(s.silt.queue.any (fun r => r.seq == q))

/-- SPATE_BLOCK_COPY: one Spate grant of the oldest frozen buffer, behind the writes requested
before it: a block of data,
then the record is decided, the header written, and the seal once the record is committed (R43, R340, R348, R362, R363).
Each block is a commit (R340, R367). -/
def execSpateBlockCopy (s : State) : Res :=
  match s.spate.order with
  | [] => .next s
  | b :: rest =>
    let x := s.spate.buf[b]
    match x.slot with
    | none => .next s
    | some k =>
      let a := slotAddr k
      if s.hasActive = false ∨ s.brownWarn ∨ s.slu.stalled[(4 : Fin 6)] ∨ s.storeOwes then .next s
      else if s.sluiceRoom 4 1 = false then .next (s.sluiceStall 4)
      else
        let s1 := s.sluiceUse 4 1
        let step (t : State) : State := (t.modSilt (fun x => { x with commits := x.commits + 1 })).modBuf b (fun y => { y with blk := y.blk + 1 })
        if x.blk < 8064 then
          let d := (x.data.drop (32 * x.blk)).take 32
          .next (step ((if x.blk = 0 then s1.store a [0xA5] else s1).store (a + 4096 + 32 * x.blk) (d ++ List.replicate (32 - d.length) 0#8)))
        else if x.blk = 8064 then (if s.silt.full then .next s else .next (s1.spateSaved b k))
        else if x.blk < 8193 then
          let h := x.header
          let i := x.blk - 8065
          let crc := crc32c (h ++ s.load (a + 4096) 258048)
          let all := [0xA5#8] ++ h ++ s.load (a + 4088) 4 ++ leBytes 4 (if i = 127 then crc else 0)
          .next (step (s1.store (a + 32 * i) ((all.drop (32 * i)).take 32)))
        else if s.spateCommitted x.recSeq then
          .next (((s1.store a [0x5A]).modBuf b (fun _ => SpBuf.reset)).modSpate (fun y => { y with order := rest })).spateRun
        else .next s

/-- SPATE_CTRL TRIGGER by a session that holds CONFIG (R360, R368). -/
def execSpateCtrlTrigger (k : Fin 8) (s : State) : Res := .next (s.control k [0] (fun t => (t.spateReq 0 0, stOk)))

/-- A slot locked or unlocked (R363, R364). -/
def State.slotLock (s : State) (k : Fin 8) (n : Fin 48) (on : Bool) : State :=
  (s.store (slotAddr n + 4088) (leBytes 4 (b2n on))).log 0x0D12 n.val (b2n on + k.val * 65536 : Nat)

/-- SPATE_CTRL LOCK by a session that holds SILT (R364, R368). -/
def execSpateCtrlLock (n : Fin 48) (k : Fin 8) (s : State) : Res := .next (s.control k [4] (fun t => (t.slotLock k n true, stOk)))

/-- SPATE_CTRL UNLOCK by a session that holds SILT (R364, R368). -/
def execSpateCtrlUnlock (n : Fin 48) (k : Fin 8) (s : State) : Res := .next (s.control k [4] (fun t => (t.slotLock k n false, stOk)))

/-- A slot whose copy a reset interrupted is empty at the next start; TRIGGER and ARG are read from
its header as it stands (R362). -/
def State.spateStart (s : State) : State :=
  (fins 48).foldl (fun (t : State) (k : Fin 48) =>
    if t.slotState k = 3 then
      ((t.store (slotAddr k) [0]).modSpate (fun y => { y with missed := bump y.missed })).log 0x0D11 (t.loadNat (slotAddr k + 2) 1) (3 + t.loadNat (slotAddr k + 3) 1 * 256 : Nat)
    else t) s

end Sys2Proof.Machine
end

