-- ==== Sys2Proof/Machine/ResetOps.lean ====
section
/-! DEFINITION. What a reset keeps and loses, spring retention, the choice of a firmware image, a restart of both stems
(R493 to R497, R503). -/

namespace Sys2Proof.Machine

/-- Resets and retention changed. -/
def State.modSpring (s : State) (f : Spring → Spring) : State := { s with spring := f s.spring }

/-- Firmware slots changed. -/
def State.modFirm (s : State) (f : Firm → Firm) : State := { s with firm := f s.firm }

/-- The operating state changed. -/
def State.modDev (s : State) (f : Dev → Dev) : State := { s with dev := f s.dev }

/-- The stems changed. -/
def State.modStems (s : State) (f : Stems → Stems) : State := { s with stems := f s.stems }

/-- Stem `k` changed. -/
def State.modStem (s : State) (k : Fin 2) (f : Stem → Stem) : State := s.modStems (fun x => { x with stem := upd x.stem k f })

/-- The number DEV_STATE reads (R512); Dormant cannot be read. -/
def DevState.code : DevState → Nat
  | .boot => 0 | .run => 1 | .quiet => 2 | .dormant => 3

/-- A session at a reset that loses class V stem state (R392): an SPI pair stays CLAIMED where DL_CORE stayed on. -/
def Sess.lost (x : Sess) (core : Bool) (now : Nat) : Sess :=
  if core ∧ x.state ≠ .free ∧ 2 ≤ x.port then { Sess.reset with state := .claimed, port := x.port, ep := x.ep, since := now } else Sess.reset

/-- Class V stem state and class H lost; `core` says that DL_CORE stayed on (R494). Class-K values
wait for the image to be applied; the
one that decides the start is read before it (R443). The learning attempts that end with class H
leave their records, and SAFE entries wait for a stem that can record them (R84, R245, R248). -/
def State.stemLost (s : State) (core : Bool) : State :=
  let l := ({ s with evq := s.evq.filter (fun e => e.code == 0x0301) } : State).battLose
  { s with
    ord := 0, stemRep := [], evq := l.evq
    cfg := s.cfg.filter (fun q => q.1 == pkey P.STEM_PREFERRED 0)
    pst := State.reset.pst
    loop := Vector.replicate 16 Loop.reset
    fault := State.reset.fault
    share := State.reset.share
    hold := { State.reset.hold with line := s.bank.line }
    bank := { s.bank with lineQ := [], seenLine := s.bank.line }
    weir := State.reset.weir
    batt := l.batt
    nodes := { State.reset.nodes with bootGen := s.nodes.bootGen }
    pool := State.reset.pool
    silt := { s.silt with
      next := s.silt.done, queue := [], tallyDue := [], code := [], commits := 0, clears := [], ledgerAfter := 0, heldN := 0 }
    spate := State.reset.spate
    host := { s.host with
      sess := s.host.sess.map (fun x => x.lost core s.clk.tick), permit := [], commits := [], kSess := 0, load := none
      key := s.host.key.map (fun k => { k with fails := [], lockAt := none }) }
    stems := { Stems.reset with stem := s.stems.stem.map (fun y => { Stem.reset with hot := y.hot, low := y.low }) }
    timer := Vector.replicate 32 Timer.reset
    chain := { s.chain with head := false, addr := 0, mis := false, skew := false, conflict := false }
    therm := { s.therm with auto := Vector.replicate 16 false }
    firm := { s.firm with load := none, verified := false, trialStart := 0 }
    slu := State.reset.slu
    lag := []
    passed := State.reset.passed
    dev := { s.dev with state := .boot, applied := false, mbReady := false, auto := Vector.replicate 16 false } }

/-- The command-source signal and SRC_VALID fall: every phase die SAFE, the Bank die acts on no command (R495). -/
def State.sourceDrop (s : State) : State :=
  ((fins 4).foldl (fun (t : State) (d : Fin 4) => (t.modDie d (fun x => { x with src := false })).enterSafe d 1) s).modBank
    (fun b => { b with srcValid := false })

/-- The copy of spring retention written last, where it is good (R496, R497). -/
def Spring.newest (x : Spring) : Option Ret := if x.retB then x.ret[(1 : Fin 2)] else x.ret[(0 : Fin 2)]

/-- What spring retention would hold now, with WAKE_EN and WAKE_POL (R496). -/
def State.retNow (s : State) (en pol : Nat) : Ret :=
  let x := s.spring
  let gen : Nat := match x.newest with
    | none => 0
    | some r => r.gen
  let p : Nat × Nat := x.pend.getD (0, 0)
  { gen := (gen + 1) % 2 ^ 32, time := s.clk.shelf, kind := x.kind, prev := x.prev, wakeCause := x.wakeCause
    wakeEn := en, wakePol := pol, pendWarn := p.1, pendTime := p.2
    warnCnt := s.power.warnCnt, resetCnt := x.resetCnt, dormantTime := x.dormantTime, retain := x.retain }

/-- A copy put where the last write did not go (R496). -/
def State.retPut (s : State) (r : Ret) : State :=
  s.modSpring (fun y => { y with ret := upd y.ret (if y.retB then 0 else 1) (fun _ => some r), retB := !y.retB })

/-- Spring retention written; WAKE_EN and WAKE_POL stay as Dormant entry left them (R496). -/
def State.retWrite (s : State) : State := match s.spring.newest with
  | none => s.retPut (s.retNow 0 0)
  | some r => s.retPut (s.retNow r.wakeEn r.wakePol)

/-- A reset of a kind is taken: DEV_RESET_KIND, the state before it (Dormant entry has kept its
own), the count (R493, R494, R496). -/
def State.resetTaken (s : State) (kind cause : Nat) (record : Bool) : State :=
  s.modSpring (fun x => { x with
    kind := kind, prev := if record ∧ s.dev.state ≠ .dormant then s.dev.state.code else x.prev, fwCause := cause, record := x.record || record
    resetCnt := bump x.resetCnt })

/-- A slot is tried (R503, R506, R507): 0 where its image loads, else the cause of DEV_FW_REFUSED. -/
def State.slotCause (s : State) (k : Fin 2) : Nat := match s.firm.slot[k] with
  | none => 1
  | some i => if i.rollback < s.firm.rollback then 3 else 0

/-- The slots in the order they are tried, and the boot item after the choice (R503). -/
def State.bootOrder (s : State) : List (Fin 2) × State :=
  let rest := [s.firm.runSlot, 1 - s.firm.runSlot]
  match s.firm.trialSlot with
  | none => (rest, s)
  | some t =>
    if s.firm.trialBoots = 0 then (t :: rest, (s.modFirm (fun f => { f with trialBoots := 1 })).ledgerNeed)
    else (rest, (s.modFirm (fun f => { f with trialSlot := none, trialBoots := 0, trialStart := 0, reverted := some t })).ledgerNeed)

/-- The image loads from the first slot that passes; a skipped slot and a revert are recorded (R503,
R514). With no slot the stems stay
in reset. -/
def State.bootChoose (s : State) : State :=
  let r := s.bootOrder
  let bad := r.1.takeWhile (fun k => r.2.slotCause k != 0)
  let s1 := bad.foldl (fun (t : State) (k : Fin 2) => t.log 0x1208 k.val (r.2.slotCause k)) r.2
  match r.1.find? (fun k => r.2.slotCause k == 0) with
  | none => s1
  | some k =>
    let v : Nat := match s.firm.slot[k] with
      | none => 0
      | some i => i.version
    let s2 := match s1.firm.reverted with
      | none => s1
      | some t => (s1.log 0x1206 t.val (Int.ofNat v)).modFirm (fun f => { f with reverted := none })
    (s2.modFirm (fun f => { f with run := k })).modStems (fun x => { x with
      stem := x.stem.map (fun y => if y.hot ∨ y.low then y else { y with st := .boot }) })

/-- THERM_SHUTDOWN of a die's last shutdown, where it has not been recorded (R474, R487). -/
def State.shutRecord (s : State) (d : Fin 8) : State :=
  let x := s.therm.die[d]
  if x.recorded then s
  else
    let s1 := s.logAt 0x1101 d.val (x.hottest + b2n (x.st == .latched) * 256 + toWord 16 x.temp * 65536 + x.count * 2 ^ 32 : Nat) x.last
    ({ s1 with therm := { s1.therm with die := upd s1.therm.die d (fun y => { y with recorded := true }) } }).ledgerNeed

/-- NODE_BOOT_GEN one up, past 0 (R292). -/
def State.bootGenUp (s : State) : State :=
  { s with nodes := { s.nodes with bootGen := if 65535 ≤ s.nodes.bootGen then 1 else s.nodes.bootGen + 1 } }

/-- The SAFE entry of a die whose supply has recovered is recorded and reported with cause 4 (R84, R90, R537). -/
def State.lowRecord (s : State) (d : Fin 4) : State :=
  if s.die[d].lowRan ∧ s.die[d].supplyLow = false then (s.modDie d (fun x => { x with lowRan := false, reports := x.reports ++ [.safeEntry 4] })).log 0x0301 d.val 4 else s

/-- A start of the stems (R84, R292, R362, R474, R492, R494, R502): the reset, a warning, shutdowns
and SAFE entries recorded, interrupted
captures dropped, NODE_BOOT_GEN one up, the image chosen. -/
def State.startStems (s : State) : State :=
  let x := s.spring
  let c := if x.kind = 8 then x.fwCause else x.wakeCause
  let s1 := if x.record then
    (s.log 0x1203 x.kind (x.prev + c * 256 + b2n x.valid * 65536 + x.resetCnt * 2 ^ 32 : Nat)).modSpring (fun y => { y with record := false })
  else s
  let s2 := match x.pend with
    | none => s1
    | some p =>
      let src := if bit p.1 0 then 0 else if bit p.1 1 then 6 else if bit p.1 2 then 5 else 7
      ((s1.logAt 0x1201 src (0xFFFF + p.1 * 65536 + 0xFFFFFFFF * 2 ^ 32 : Nat) p.2).modSpring (fun y => { y with pend := none }))
  let s3 := match x.resetSup with
    | none => s2
    | some p => (s2.log 0x1202 p.1 (p.2 * 65536 : Nat)).modSpring (fun y => { y with resetSup := none })
  let s3 := ((fins 4).foldl State.lowRecord ((fins 8).foldl State.shutRecord s3)).spateStart
  ((s3.bootGenUp.ledgerNeed.modDev (fun d => { d with started := s.clk.tick })).bootChoose).retWrite

/-- FW_RESTART of both stems with its cause (R443, R493, R494, R514). -/
def State.fwRestart (s : State) (cause : Nat) : State :=
  (((s.resetTaken 8 cause true).sourceDrop).stemLost true).startStems

/-- `s1`, the rest of the reset of `s`, with every stem and Delta domain at its reset values; `ref`
says that DL_REF goes on (R493, R494). SAFE entries that waited go on waiting; the reset's own is none (R84). -/
def State.resetFrom (s s1 : State) (ref : Bool) : State :=
  { s1 with
    die := tab 4 (fun d => { Die.reset with off := true, ran := s1.die[d].ran, safeAt := s1.die[d].safeAt, lowRan := s1.die[d].lowRan })
    evq := s.evq.filter (fun e => e.code == 0x0301) ++ s1.evq.filter (fun e => e.code != 0x0301)
    ph := Vector.replicate 48 Phase.reset
    vs := State.reset.vs
    port := Vector.replicate 64 Port.reset
    nodes := { State.reset.nodes with bootGen := s.nodes.bootGen }
    therm := { State.reset.therm with die := tab 8 (fun d => { s.therm.die[d] with temp := 0, cool := 0, warn := false }) }
    chain := Chain.reset
    slu := State.reset.slu
    host := { Hosts.reset with key := s1.host.key, ledImg := s.host.ledImg }
    power := { s.power with
      sup := s.power.sup.map (fun x => { x with min := none }), brown := .normal, first := 0, set := 0, min := none, warnLast := 0
      warnSeen := false, mismatch := false, mismatchRun := 0 }
    clk := { s.clk with dlRef := ref }
    tb := if ref then s.tb else State.reset.tb
    dev := { Dev.reset with
      nvOn := s.dev.nvOn, snsOn := s.dev.snsOn, coreOn := s.dev.coreOn, hostOn := s.dev.hostOn, isoOn := ref && s.dev.isoOn } }

/-- The writes of a record's commit in their order as (offset, bytes) (R346). -/
def SRec.words (r : SRec) : List (Nat × List Byte) :=
  let b := r.bytes
  (0, List.replicate 4 0#8) :: ((List.range 7).map (fun i => (4 * (i + 1), (b.drop (4 * (i + 1))).take 4))) ++ [(0, b.take 4)]

/-- The record at the head of the writer's queue may be in the middle of its commit when a reset
stops it: a number of its
words that nothing fixes has been written (R340, R346; log entry 70). In a hold none is in progress (R348). -/
def State.tearHead (s : State) : State := match s.silt.queue with
  | [] => s
  | r :: _ =>
    if s.hasActive = false ∨ s.dev.held ∨ s.brownWarn then s
    else
      let n := (Config.freeInt s.free).toNat % 10
      { (((s.recSealed r).words.take n).foldl (fun (t : State) w => t.store (siltAddr r.seq + w.1) w.2) s) with free := s.free + 1 }

/-- Every stem and Delta domain is reset (kinds 1 to 5); `ref` says that DL_REF and the heartbeat go on (R493, R494). -/
def State.fullReset (s : State) (kind : Nat) (ref : Bool) : State :=
  let s2 := s.resetFrom (((s.tearHead.resetTaken kind 0 true).sourceDrop).stemLost false) ref
  if ref then s2 else s2.modBank (fun b => { b with srcValid := false })

end Sys2Proof.Machine
end

