-- ==== Sys2Proof/Machine/Silt.lean ====
section
/-! DEFINITION. The Silt log: events, commits, tally writes, the ledger, the registers that read it,
clearing (R341 to R357). -/

namespace Sys2Proof.Machine

/-- SILT_EVENT: the next event is decided, unless the writer's queue is full (R46, R350). -/
def execSiltEvent (s : State) : Res :=
  match s.evq with
  | [] => .next s
  | e :: es =>
    .next (if s.hasActive = false then s
    else if s.silt.full then s
    else (({ s with evq := es } : State).siltDecide e).modSilt (fun x => { x with heldN := x.heldN - 1 }))

/-- The record at the head of the queue, which the active stem's stream gives (R347), is written as
it is sealed: the next record is in the log,
OLDEST moves past a slot used again, and a
SILT_CLEARED record clears what lies before it (R345, R346, R356). -/
def State.siltCommit (s : State) : State := match s.silt.queue with
  | [] => s
  | r :: rs =>
    let s1 := (s.store (siltAddr r.seq) (s.recSealed r).bytes).modSilt (fun x => { x with queue := rs, done := siltNext r.seq, commits := x.commits + 1 })
    let s2 := if siltSlots < s1.silt.count then s1.modSilt (fun x => { x with oldest := (x.done + siltMod - siltSlots) % siltMod }) else s1
    (if s.silt.clears.contains r.seq then (s2.modSilt (fun x => { x with oldest := r.seq, clears := x.clears.erase r.seq })).ledgerNeed else s2).output 4

/-- The record at the head of the queue is a SPATE_SAVED whose slot's header is not complete (R362). -/
def State.savedHeld (s : State) : Bool := match s.silt.queue with
  | [] => false
  | r :: _ => (fins 2).any (fun b => let x := s.spate.buf[b]; x.st == .frozen && decide (8064 < x.blk ∧ x.blk < 8193) && x.recSeq == r.seq)

/-- SILT_RECORD_COMMIT: the record at the head of the queue is written, with one Silt grant, never
during BROWN_WARN, and behind the writes requested before it (R43, R340, R346,
R348, R356, R362). -/
def execSiltRecordCommit (s : State) : Res :=
  .next (if s.silt.queue = [] ∨ s.hasActive = false ∨ s.brownWarn ∨ s.slu.stalled[(3 : Fin 6)] ∨ s.storeOwes ∨ s.savedHeld then s
  else if s.sluiceRoom 3 1 = false then s.sluiceStall 3
  else (s.sluiceUse 3 1).siltCommit)

/-- SILT_TALLY_WRITE: word 7 of a committed record, behind a ledger write requested before it (R340,
R346, R348, R350). -/
def execSiltTallyWrite (s : State) : Res :=
  match s.silt.tallyDue with
  | [] => .next s
  | q :: qs =>
    .next (if s.hasActive = false ∨ s.brownWarn ∨ (s.silt.ledgerDue ∧ s.silt.ledgerAfter = 0) then s
    else ((s.store (siltAddr q.1 + 28) (leBytes 2 q.2 ++ leBytes 2 (65535 - q.2))).modSilt (fun x => { x with
      tallyDue := qs, ledgerAfter := x.ledgerAfter - 1, commits := x.commits + 1 })).output 4)

/-- Every tally write that is due is made (R340, R500). -/
def State.tallyDrain (s : State) : State :=
  s.silt.tallyDue.foldl (fun (t : State) q =>
    (t.store (siltAddr q.1 + 28) (leBytes 2 q.2 ++ leBytes 2 (65535 - q.2))).modSilt (fun x => { x with commits := x.commits + 1 })|>.output 4)
    (s.modSilt (fun x => { x with tallyDue := [], ledgerAfter := 0 }))

/-- LEDGER_WRITE: one that a change made due, or the write of every 10 s, behind the tally writes
requested before it; during
BROWN_WARN that of its assertion alone (R340, R342, R348). -/
def execLedgerWrite (s : State) : Res :=
  .next (if s.dev.held ∨ s.dev.state = .dormant then s
  else if s.brownWarn then (if s.silt.ledgerWarn then s.ledgerWrite else s)
  else if s.silt.ledgerDue ∨ s.ledgerOld then
    let s1 := s.ledgerNeed
    if s1.silt.ledgerAfter = 0 then s1.ledgerWrite else s1
  else s)

/-- SILT_CURSOR written at a host port (R353). -/
def execSiltCursorWrite (p : Fin 4) (v : Nat) (s : State) : Res :=
  .next (if s.hostUp ∧ v < siltMod then s.modHp p (fun x => { x with cursor := v }) else s)

/-- A read of SILT_WIN0 at a host port: the slot at the cursor is latched (R354). -/
def State.winLatch (s : State) (p : Fin 4) : State :=
  let r := s.siltLatch s.host.port[p].cursor
  let w := msgWords 8 r.2.2.2
  let s1 := s.modHp p (fun x => { x with
    cursor := r.1, latch := r.2.1, latched := true, moved := x.moved || r.2.2.1, win := w, rdata := w.getD 0 0 })
  if r.2.1 = 2 then s1.log 0x0D03 p.val r.1 else s1

/-- SILT_WIN_LATCH (R354). -/
def execSiltWinLatch (p : Fin 4) (s : State) : Res := .next (if s.hostUp ∧ s.dev.nvOn then s.winLatch p else s)

/-- A read of SILT_WIN7 at a host port, which advances the cursor under AUTO (R354). -/
def State.winLast (s : State) (p : Fin 4) : State :=
  s.modHp p (fun x => { x with
    rdata := x.win.getD 7 0, cursor := if x.auto ∧ x.latched ∧ x.latch ≠ 1 then siltNext x.cursor else x.cursor })

/-- SILT_WIN_AUTO_ADVANCE (R354). -/
def execSiltWinAutoAdvance (p : Fin 4) (s : State) : Res := .next (if s.hostUp ∧ s.dev.nvOn then s.winLast p else s)

/-- The effect of CLEAR for a session (R356): the MAINTENANCE role too; SILT_CLEARED is committed,
its data with it, then the ledger. -/
def State.siltClear (s : State) (k : Fin 8) : State × Nat :=
  if (s.sess k).role = 1 then
    (s.log 0x0D01 k.val 0, stOk)
  else (s, stNoPermit)

/-- SILT_CTRL CLEAR by a session in the MAINTENANCE role that holds SILT (R356). -/
def execSiltCtrlClear (k : Fin 8) (s : State) : Res := .next (s.control k [4] (fun t => t.siltClear k))

end Sys2Proof.Machine
end

