-- ==== Sys2Proof/Machine/DevOps.lean ====
section
/-! DEFINITION. Entry to Run, Quiet and Dormant (R19, R20, R498 to R500, R505). -/

namespace Sys2Proof.Machine

/-- Every loop that is STARTING, RUNNING or HICCUP_OFF stops with cause HOST (R499). -/
def State.allStop (s : State) : State :=
  (fins 16).foldl (fun (t : State) (l : Fin 16) =>
    match t.loop[l].ct.state with
    | .starting => (t.loopStop l true).1
    | .running => (t.loopStop l true).1
    | .hiccupOff => (t.loopStop l true).1
    | .stopped => t
    | .faulted => t) s

/-- What a phase die holds of its phases and voltage-sense inputs, at the values of a reset, with the
current measured there (R19, R86, R87). -/
def State.phasesLost (s : State) (d : Fin 4) : State :=
  let s1 := (phasesOfDie d).foldl (fun t p => (t.modPh p (fun _ => Phase.reset)).modPst p (fun y => { y with
    perSum := 0, perN := 0, perMax := 0, iAvg := 0, iPeak := 0, winWhole := false })) s
  ((fins 16).filter (fun v => vsDie v == d)).foldl (fun t v => t.modVs v (fun _ => ⟨false, false, 0, 0, [], 0⟩)) s1

/-- The domain of a phase die goes off (R19, R82, R84): outputs low, everything that the die holds at the values of a
reset, its counts and W1C flags too, of which no rule speaks (DESIGN CHOICE, log entry 135). What others keep of it
stays: whether it had left ARMED or RUN and when, the state of its supply and a SAFE entry still to be
recorded, the reports that it has sent. -/
def State.dieOff (s : State) (d : Fin 4) : State :=
  ((s.dieDown d).modDie d (fun x => { Die.reset with
    state := x.state, off := true, held := x.held, ran := x.ran, safeAt := x.safeAt, supplyLow := x.supplyLow
    lowRan := s.die[d].lowRan, reports := x.reports })).phasesLost d

/-- The domain of a phase die comes on (R19); the command-source signal stands high once the image
has been applied (R81, R505). -/
def State.dieUp (s : State) (d : Fin 4) : State := s.modDie d (fun x => { x with off := false, src := s.dev.applied })

/-- Every port as its mode and domain ask (R20). -/
def State.portsApply (s : State) : State := (fins 64).foldl State.portApply s

/-- DEV_STATE changes, with its record: `src` the session, 255 at boot (R498, R514). -/
def State.stateTo (s : State) (st : DevState) (src : Nat) : State :=
  (s.modDev (fun d => { d with state := st })).log 0x1204 src (st.code + s.dev.state.code * 256 : Nat)

/-- Steps 1 to 4 of Quiet entry; a die that they take from ARMED or RUN to SAFE is a trigger (R360, R499). -/
def State.quietDown (s : State) : State :=
  let s1 := s.allStop.energyCopy.bankOff.modDev (fun d => { d with isoOn := false, auto := Vector.replicate 16 false })
  let s2 := (fins 4).foldl (fun (t : State) d => (if t.die[d].state = .safe then t else t.spateReq 5 d.val).dieOff d) s1
  (s2.modDev (fun d => { d with phOn := false, fldhOn := false })).portsApply.faultScan

/-- Quiet entry (R499). -/
def State.quietEntry (s : State) (src : Nat) : State := (s.stateTo .quiet src).quietDown

/-- The domains of Run come on (R19, R499, R505): the loops of DEV_LOOP_AUTOSTART wait for their automatic START. -/
def State.runUp (s : State) : State :=
  let s1 := (s.modDev (fun d => { d with fldlOn := true, fldhOn := true, phOn := true, isoOn := true
                                         auto := tab 16 (fun l => bit (s.parN P.DEV_LOOP_AUTOSTART 0) l.val) })).portsApply
  let s2 := (fins 4).foldl State.dieUp s1
  if s2.power.vauxhUv then s2 else s2.bankOn

/-- Run entry (R499). -/
def State.runEntry (s : State) (src : Nat) : State := (s.stateTo .run src).runUp

/-- The Silt writer decides every event that waits and commits every record it holds (R500). -/
def State.siltDrain (s : State) : Nat → State
  | 0 => s
  | n + 1 => s.siltCommit.siltDrain n

/-- Every event that waits is decided (R350, R500). -/
def State.siltDecideAll (s : State) : State := s.evq.foldl State.siltDecide { s with evq := [] }

/-- Dormant entry (R500): Quiet entry, commits in flight done, the ledger and spring retention
written, every domain but DL_SPRING off,
MAIN_EN low. -/
def State.dormantEntry (s : State) (src : Nat) : State :=
  let prev := s.dev.state.code
  let s1 := (s.stateTo .dormant src).quietDown.siltDecideAll
  let s2 := (s1.tallyDrain.siltDrain s1.silt.queue.length).ledgerWrite.modSpring (fun x => { x with prev := prev, dormantTime := s.clk.shelf, wakeLatch := none })
  let s3 := s2.retPut (s2.retNow (s.parN P.DEV_WAKE_EN 0) (s.parN P.DEV_WAKE_POL 0))
  let s4 := s3.modStems (fun x => { x with stem := x.stem.map (fun y => { y with st := .off }) })
  { s4.modSpring (fun x => { x with mainEn := false }) with
    clk := { s4.clk with dlRef := false }
    port := Vector.replicate 64 Port.reset
    fault := State.reset.fault
    dev := { s4.dev with held := true, nvOn := false, snsOn := false, coreOn := false, hostOn := false, fldlOn := false, mbReady := false } }

end Sys2Proof.Machine
end

