-- ==== Sys2Proof/Machine/Pmb.lean ====
section
/-! DEFINITION. PMBus ports: discovery, polling, transactions, bus recovery, alerts (R278 to R283). -/

namespace Sys2Proof.Machine

/-- The PMBus side of a port changed. -/
def State.modPmb (s : State) (p : Fin 64) (f : Pmb → Pmb) : State := s.modPort p (fun x => { x with pmb := f x.pmb })

/-- A target of a port changed. -/
def State.modTgt (s : State) (p : Fin 64) (t : Fin 16) (f : PmbTarget → PmbTarget) : State :=
  s.modPmb p (fun x => { x with targets := upd x.targets t f })

/-- A read's transaction (R279): Block Read for the names, Read Word for the word commands, Read Byte for the others. -/
def pmbProto (cmd : Nat) : Nat :=
  if cmd = 0x99 ∨ cmd = 0x9A then 6
  else if cmd = 0x79 ∨ (0x88 ≤ cmd ∧ cmd ≤ 0x97) then 4 else 3

/-- The commands of a discovery, in order (R280). -/
def pmbDiscovery : List Nat := [0x19, 0x20, 0x98, 0x99, 0x9A]

/-- A read of a target. -/
def pmbRead (t : Fin 16) (cmd : Nat) (why : PmbWhy) : PmbJob :=
  ⟨t, cmd, pmbProto cmd, [], if pmbProto cmd = 4 then 2 else if pmbProto cmd = 3 then 1 else 32, why, false⟩

/-- PMB_DISCOVERY: at the port's entry into service, and once per second while the target is ABSENT (R280). -/
def execPmbDiscovery (p : Fin 64) (t : Fin 16) (s : State) : Res :=
  let x := s.port[p].pmb
  let soon : Bool := x.targets[t].tryAt.isSome && !(s.held x.targets[t].tryAt 250000000)
  let busy : Bool := soon || x.jobs.any (fun j => j.target == t && (match j.why with | .discover _ => true | .poll _ => false | .pass _ _ => false))
  .next (if s.port[p].state = .pmbus ∧ s.parN P.PORT_PMB_ADDR (p.val * 16 + t.val) ≠ 0xFF ∧ x.targets[t].present = false ∧ busy = false then
    (s.modTgt p t (fun y => { y with tryAt := some s.clk.tick })).modPmb p (fun y => { y with jobs := y.jobs ++ pmbDiscovery.zipIdx.map (fun q => pmbRead t q.1 (.discover q.2)) })
  else s)

/-- The poll entries of a cycle (R281). -/
def State.pollJobs (s : State) (p : Fin 64) (cycle : Nat) : List PmbJob :=
  (List.range 64).filterMap (fun e =>
    let k := p.val * 64 + e
    let t := s.parN P.PORT_POLL_TARGET k
    if h : t < 16 then
      if (s.port[p].pmb.targets[t]).present ∧ cycle % s.parN P.PORT_POLL_DIV k = 0 then
        some (pmbRead ⟨t, h⟩ (s.parN P.PORT_POLL_CMD k) (.poll e))
      else none
    else none)

/-- A poll cycle starts (R281). -/
def State.startCycle (s : State) (p : Fin 64) : State :=
  let c := s.port[p].pmb.cycle
  let js := s.pollJobs p c
  s.modPmb p (fun x => { x with
    cycle := c + 1, cycleAt := s.clk.tick, due := false, running := !js.isEmpty, jobs := x.jobs ++ js })

/-- PMB_POLL_CYCLE: a cycle comes due every PORT_PMB_PERIOD; one that finds the last not finished
waits for it (R281). -/
def execPmbPollCycle (p : Fin 64) (s : State) : Res :=
  let x := s.port[p].pmb
  let soon : Bool := x.dueAt.isSome && !(s.held x.dueAt (s.parN P.PORT_PMB_PERIOD p * 250))
  .next (if s.port[p].state ≠ .pmbus ∨ soon then s
  else
    let s1 := s.modPmb p (fun y => { y with dueAt := some s.clk.tick })
    if x.running then (s1.modPmb p (fun y => { y with due := true })).modPort p (fun y => { y with overrun := true }) else s1.startCycle p)

/-- A polled result as the point's 32-bit value (R281). -/
def State.pmbConv (s : State) (p : Fin 64) (e : Nat) (t : Fin 16) (w : Nat) : Nat :=
  let scale (m ex : Int) : Int := if 0 ≤ ex then m * 2 ^ ex.toNat else nearHalfAway m (2 ^ (-ex).toNat)
  match s.parN P.PORT_POLL_CONV (p.val * 64 + e) with
  | 1 => toWord 32 (scale (signed 11 w * 1000) (signed 5 (w / 2048)))
  | 2 => toWord 32 (scale ((w : Int) * 1000) (s.port[p].pmb.targets[t]).voutExp)
  | _ => w % 2 ^ 32

/-- Results of a target as one POINTS frame in the port's receive queue (R281). -/
def State.pmbFrame (s : State) (p : Fin 64) (t : Fin 16) (rs : List (Nat × Nat × Nat)) : State :=
  if rs = [] then s
  else
    let entry (r : Nat × Nat × Nat) : List Byte := leBytes 2 r.1 ++ leBytes 4 r.2.1 ++ leBytes 3 (min 0xFFFFFF ((s.clk.tick - r.2.2) * 4 / 100))
    s.modPort p (fun x => { x with rx := x.rx ++ [⟨⟨0, t.val + 1, false, false, 0, 0, rs.flatMap entry⟩, s.clk.shelf, true, false⟩] })

/-- A job is a poll entry. -/
def PmbJob.isPoll (j : PmbJob) : Bool := match j.why with
  | .poll _ => true
  | .discover _ => false
  | .pass _ _ => false

/-- A target's entries are done when none waits: its frame goes out; the cycle ends with the last
poll entry, and a due one starts with
the record of the time the late one took (R281, R287). -/
def State.pmbSettle (s : State) (p : Fin 64) (t : Fin 16) : State :=
  let x := s.port[p].pmb
  let s1 := if x.jobs.any (fun j => j.isPoll && j.target == t) then s
    else (s.pmbFrame p t ((x.results.filter (fun r => r.1 == t)).map (fun r => r.2))).modPmb p (fun y => { y with
      results := y.results.filter (fun r => r.1 != t) })
  if x.running ∧ x.jobs.all (fun j => !j.isPoll) then
    if x.due then (s1.log 0x0A0C p.val ((s.clk.tick - x.cycleAt) / 250 : Nat)).startCycle p else s1.modPmb p (fun y => { y with running := false })
  else s1

/-- A failed transaction counts against its target; three in a row make it ABSENT (R280). -/
def State.pmbFail (s : State) (p : Fin 64) (t : Fin 16) : State :=
  let x := s.port[p].pmb.targets[t]
  let s1 := (s.modCnt p (fun c => { c with pmbErr := bump c.pmbErr })).modTgt p t (fun y => { y with fails := y.fails + 1 })
  if 3 ≤ x.fails + 1 ∧ x.present then
    ((s1.modTgt p t (fun y => { y with present := false })).modPmb p (fun y => { y with
      jobs := y.jobs.filter (fun j => !(j.isPoll && j.target == t)) })).log 0x0A09 p.val t.val
  else s1

/-- The RESULT of a pass-through (R429). -/
def pmbEndCode (e : PmbEnd) : Nat := match e with
  | .ok => 0 | .addrNack => 1 | .dataNack => 2 | .pec => 3 | .timeout => 4

/-- The transaction on the bus ends (R280, R281, R429); `stuck` says that the bus did not recover. -/
def State.pmbDone (s : State) (p : Fin 64) (e : PmbEnd) (data : List Byte) (stuck : Bool) : State :=
  match s.port[p].pmb.jobs with
  | [] => s
  | j :: js =>
    let t := j.target
    let s1 := s.modPmb p (fun x => { x with jobs := js })
    let s2 := if e = .ok then s1.modTgt p t (fun y => { y with fails := 0 }) else s1.pmbFail p t
    match j.why with
    | .discover k =>
      if e ≠ .ok then s2.modPmb p (fun x => { x with jobs := x.jobs.filter (fun q => match q.why with
        | .discover _ => q.target != t
        | .poll _ => true
        | .pass _ _ => true) })
      else
        let s3 := if k = 1 then s2.modTgt p t (fun y => { y with voutExp := signed 5 (leNat data) }) else s2
        if k = 4 then (s3.modTgt p t (fun y => { y with present := true })).log 0x0A09 p.val (t.val + 256 : Nat) else s3
    | .poll n =>
      if e = .ok then
        (s2.modPmb p (fun x => { x with results := x.results ++
          [(t, s.parN P.PORT_POLL_POINT (p.val * 64 + n), s.pmbConv p n t (leNat data), s.clk.tick)] })).pmbSettle p t
      else if j.again = false ∧ (s2.port[p].pmb.targets[t]).present then
        s2.modPmb p (fun x => { x with jobs := { j with again := true } :: x.jobs })
      else s2.pmbSettle p t
    | .pass sess seq =>
      let got := if e = .ok then data.take j.rlen else []
      (s2.answer sess seq stOk (leBytes 1 (if stuck then 5 else pmbEndCode e) ++ leBytes 1 got.length ++ leBytes 2 0 ++ got)).pmbSettle p t

/-- PMB_TRANSACTION_DONE: PEC is checked where PORT_PMB_PEC is ON (R278); none runs while the
receive queue has fewer than 150 free entries or the bus is stuck (R280 to R282). -/
def execPmbTransactionDone (p : Fin 64) (ending : PmbEnd) (data : List Byte) (s : State) : Res :=
  let x := s.port[p]
  let pec : Bool := match x.pmb.jobs with
    | [] => false
    | j :: _ => s.par P.PORT_PMB_PEC (p.val * 16 + j.target.val) == 1
  .next (if x.state = .pmbus ∧ 150 ≤ x.free ∧ x.stuck = false then s.pmbDone p (if ending = .pec ∧ pec = false then .ok else ending) data false else s)

/-- PMB_BUS_TIMEOUT: cause 1 SCL held low, 2 SDA held low, 3 cumulative stretch, and whether the bus
recovered (R282). -/
def execPmbBusTimeout (p : Fin 64) (cause : Nat) (recovered : Bool) (s : State) : Res :=
  .next (if s.port[p].state ≠ .pmbus then s
  else
    let s1 := (s.modPort p (fun x => { x with stuck := !recovered, downAt := s.clk.tick })).log 0x0A0B p.val (cause + b2n recovered * 256 : Nat)
    if cause = 2 then s1 else s1.pmbDone p .timeout [] (!recovered))

/-- PMB_BUS_RECOVERY_RETRY: PORT_RETRAIN_DELAY after the last recovery that failed (R282). -/
def execPmbBusRecoveryRetry (p : Fin 64) (recovered : Bool) (s : State) : Res :=
  .next (if s.port[p].state = .pmbus ∧ s.port[p].stuck ∧ s.held (some s.port[p].downAt) (s.parN P.PORT_RETRAIN_DELAY p * 250000) then
    s.modPort p (fun x => { x with stuck := !recovered, downAt := s.clk.tick }) else s)

/-- PMB_ALERT: SMBALERT# found low, the address that answers, its STATUS_WORD, and whether the pin
is still low afterwards
(R283). While it is masked, with fewer than 150 free entries or the bus stuck, the device runs no transaction and only
sees the pin (R281, R282, R285). -/
def execPmbAlert (p : Fin 64) (addr : Nat) (status : Nat) (still : Bool) (s : State) : Res :=
  let s0 := s.modPort p (fun x => { x with alert := still })
  if s.port[p].state ≠ .pmbus then .next s
  else if s.port[p].maskAt.isSome ∨ s.port[p].free < 150 ∨ s.port[p].stuck then .next s0
  else
    match (fins 16).find? (fun (t : Fin 16) => s.parN P.PORT_PMB_ADDR (p.val * 16 + t.val) == addr) with
    | none => .next (s0.log 0x0A0A p.val (255 + status % 2 ^ 16 * 2 ^ 16 : Nat))
    | some t =>
      let s1 := s0.log 0x0A0A p.val (t.val + status % 2 ^ 16 * 2 ^ 16 : Nat)
      let al := (s.port[p].pmb.targets[t]).alerts.filter (fun a => decide (s.clk.tick < a + 250000000)) ++ [s.clk.tick]
      let s2 := (s1.modTgt p t (fun y => { y with alerts := al })).modPort p (fun x => { x with maskAt := if still ∧ 5 ≤ al.length then some s.clk.tick else none })
      let ent := (List.range 64).find? (fun e =>
        s.parN P.PORT_POLL_TARGET (p.val * 64 + e) == t.val && s.parN P.PORT_POLL_CMD (p.val * 64 + e) == 0x79)
      .next (match ent with
        | none => s2
        | some e => s2.pmbFrame p t [(s.parN P.PORT_POLL_POINT (p.val * 64 + e), s.pmbConv p e t (status % 2 ^ 16), s.clk.tick)])

/-- PMB_ALERT_UNMASK: masked for one second (R283). -/
def execPmbAlertUnmask (p : Fin 64) (s : State) : Res :=
  .next (if s.held s.port[p].maskAt 250000000 then s.modPort p (fun x => { x with maskAt := none }) else s)

end Sys2Proof.Machine
end

