-- ==== Sys2Proof/Machine/Pool.lean ====
section
/-! DEFINITION. The Pool: admission, internal sources, actions, subscriptions, scrub (R49, R85, R158, R315 to R335). -/

namespace Sys2Proof.Machine

/-- A frame as the arbiter sees it: none where the source holds none. For a field port: the stamped
POINTS frame at the head (R271). -/
def State.portFrame (s : State) (p : Fin 64) : Option RxItem := match s.port[p].rx with
  | [] => none
  | q :: _ => if q.frame.typ = 0 ∧ q.stamped then some q else none

/-- Updates of the frame that a source holds, none without a frame: sources 0 to 63 are the ports,
64 to 66 the internal ones (R49). -/
def State.srcCost (s : State) (k : Nat) : Option Nat :=
  if h : k < 64 then (s.portFrame ⟨k, h⟩).map (fun q => q.frame.payload.length / 9)
  else if h2 : k - 64 < 3 then
    match s.pool.src[k - 64] with
    | [] => none
    | f :: _ => some f.length
  else none

/-- One entry of a POINTS frame applied, or counted in PORT_PT_ERR (R267). -/
def State.pointIn (s : State) (p : Fin 64) (a time : Nat) (e : List Byte) : State :=
  let pt := leAt e 0 2
  match (if pt < 4096 then s.nodeSlot a pt else none) with
  | none => s.modCnt p (fun c => { c with ptErr := bump c.ptErr })
  | some k =>
    let t := s.poolUpdate k (leAt e 2 4) (time - leAt e 6 3 * 100)
    if pt = s.parN P.NODE_STATE_PT a then t.outTake a else t

/-- The entries of a POINTS payload, nine bytes each (R266). -/
def pointEntries : Nat → List Byte → List (List Byte)
  | 0, _ => []
  | n + 1, bs => bs.take 9 :: pointEntries n (bs.drop 9)

/-- The frame at the head of a port's queue admitted, which stamps its updates (R267, R271, R296,
R325): a stale or repeated frame changes no slot. -/
def State.admitPort (s : State) (p : Fin 64) (q : RxItem) : State :=
  let a := (s.homePort p).val * 32 + q.frame.node
  let s1 := (s.stamp.modPort p (fun x => { x with rx := x.rx.tail })).regrant p
  let r := if q.own then (s1, true) else s1.nodeAccept a q.frame.epoch q.frame.seq
  if r.2 then
    let es := pointEntries (q.frame.payload.length / 9) q.frame.payload
    es.foldl (fun (t : State) e => t.pointIn p a q.time e) ((r.1.sluiceUse 1 es.length).outScan a)
  else r.1

/-- The frame at the head of an internal source's queue admitted (R317). -/
def State.admitSrc (s : State) (i : Fin 3) : State := match s.pool.src[i] with
  | [] => s
  | f :: fs =>
    f.foldl (fun (t : State) u => match t.srcSlot i.val u.1 with
      | none => t
      | some k => t.poolUpdate k u.2.1 u.2.2) ((s.stamp.modPool (fun x => { x with src := upd x.src i (fun _ => fs) })).sluiceUse 1 f.length)

/-- POOL_ADMIT_FRAME: the whole frame of the first source from the pointer that holds one, or the
rest of the period stalled (R49); with the
Silt queue full, or no room in the event queue for an event of each update, the Pool waits (R46, R327). -/
def execPoolAdmitFrame (s : State) : Res :=
  if s.hasActive = false ∨ s.slu.stalled[(1 : Fin 6)] ∨ s.silt.full then .next s
  else match ((List.range 67).map (fun i => (s.pool.ptr + i) % 67)).find? (fun k => (s.srcCost k).isSome) with
    | none => .next s
    | some k =>
      if 4096 < s.pool.events.length + (s.srcCost k).getD 0 then .next s
      else if s.sluiceRoom 1 ((s.srcCost k).getD 0) = false then .next ((s.modPool (fun x => { x with ptr := k })).sluiceStall 1)
      else
        let s1 := s.modPool (fun x => { x with ptr := (k + 1) % 67 })
        if h : k < 64 then
          match s.portFrame ⟨k, h⟩ with
          | none => .next s1
          | some q => .next (s1.admitPort ⟨k, h⟩ q)
        else if h2 : k - 64 < 3 then .next (s1.admitSrc ⟨k - 64, h2⟩)
        else .next s1

/-- PHASE_STATUS (R86). -/
def State.phaseStatus (s : State) (p : Fin 48) : Nat :=
  let x := s.ph[p]
  ([x.inService, x.slot.isSome, x.shed == .shed, x.pl.pulse.isSome && x.pl.forced, s.inOvs p, x.pl.lastDir == .rev, x.limit,
    x.maxduty, x.refClamp, x.rampClamp, x.fallback, x.dcm, x.calFail].zipIdx.map (fun q => if q.1 then 2 ^ q.2 else 0)).sum

/-- The four published values of a phase (R85). -/
def State.phasePoints (s : State) (p : Fin 48) : List (Nat × Nat × Nat) :=
  [(4 * p.val, toWord 32 s.pst[p].iAvg, s.clk.shelf), (4 * p.val + 1, toWord 32 s.pst[p].iPeak, s.clk.shelf),
   (4 * p.val + 2, s.rampNow p, s.clk.shelf), (4 * p.val + 3, s.phaseStatus p, s.clk.shelf)]

/-- PHASE_TLM_PUBLISH: at 1 kHz, or at 10 kHz where `fast`, the four values of each phase in service
with that PHASE_TLM_RATE on a die that works, in
frames of one die (R85, R317). -/
def execPhaseTlmPublish (fast : Bool) (s : State) : Res :=
  .next (if s.hasActive = false then s
  else (fins 4).foldl (fun (t : State) (d : Fin 4) =>
    match (phasesOfDie d).filter (fun (p : Fin 48) => s.dieOn d && s.ph[p].inService && s.parNowN P.PHASE_TLM_RATE p == 1 + b2n fast) with
    | [] => t
    | ps => t.srcPush 1 (ps.flatMap s.phasePoints)) s)

/-- The points of a frame of Bank telemetry: a metering step's values, the accumulators once a
millisecond, a changed FEED_STATUS
(R158, R317), with the shelf time at which the die took them (R318). -/
def State.bankPoints (s : State) (q : BankTlm) (acc : Bool) : List (Nat × Nat × Nat) :=
  let now := q.time
  let step (f : Fin 2) : List (Nat × Nat × Nat) :=
    [(1 + 3 * f.val, toWord 32 q.feed[f].v, now), (2 + 3 * f.val, toWord 32 q.feed[f].i, now), (3 + 3 * f.val, toWord 32 q.feed[f].p, now)]
  let sum (f : Fin 2) : List (Nat × Nat × Nat) :=
    let x := q.feed[f]
    [(7 + 4 * f.val, x.eImp % 2 ^ 32, now), (8 + 4 * f.val, x.eImp / 2 ^ 32, now), (9 + 4 * f.val, x.eExp % 2 ^ 32, now),
     (10 + 4 * f.val, x.eExp / 2 ^ 32, now)]
  (if q.step then (0, toWord 32 q.vbus, now) :: (fins 2).flatMap step else []) ++ (if acc then (fins 2).flatMap sum else []) ++
    (fins 2).flatMap (fun (f : Fin 2) => if q.feed[f].status = s.bank.seen.feed[f].status then [] else [(15 + f.val, q.feed[f].status, now)])

/-- BANK_TELEMETRY: a frame reaches the Delta die and is stamped; after a disarming the first feed
it shows AVAILABLE releases the line
for HOLD_STATE, and its trips are triggers of a capture (R143, R158, R171, R175, R192, R206, R360). -/
def execBankTelemetry (s : State) : Res :=
  match s.bank.tlm with
  | [] => .next s
  | q :: qs =>
    let s1 := s.modBank (fun b => { b with tlm := qs })
    if s.hasActive = false then .next s1
    else
      let acc : Bool := q.step && decide (s.bank.accAt + 250000 ≤ s.clk.tick)
      let s0 := q.trips.foldl (fun (t : State) (f : Fin 2) => t.spateReq 3 f.val) s1.stamp
      let s2 := (s0.srcPush 0 (s1.bankPoints q acc)).modBank (fun b => { b with seen := q, accAt := if acc then s.clk.tick else b.accAt })
      let s3 := (if s.bank.disarmed ∧ (fins 2).any (fun f => s2.seenBit f 8) then s2.lineReleased else s2).faultScan
      let keep := max (s.parN P.HOLD_LOAD_WIN 0) (s.parN P.WEIR_AVG_WIN 0) * 250
      .next (if q.step then
        s3.modHold (fun h => { h with
          importPeak := h.importPeak.filter (fun u => decide (s.clk.tick ≤ u.1 + keep)) ++ [(s.clk.tick, q.feed[(0 : Fin 2)].p + q.feed[(1 : Fin 2)].p)] })
      else s3)

/-- The next action of a code is taken from the action stage. -/
def State.popAct (s : State) (code : Nat) : Option (PoolAct × State) :=
  (s.pool.acts.find? (fun a => a.code == code)).map (fun a => (a, s.modPool (fun p => { p with acts := p.acts.erase a })))

/-- POOL_ACTION_LOOP_STOP: a stamped STOP with cause HOST (R329). -/
def execPoolActionLoopStop (s : State) : Res :=
  match s.popAct 2 with
  | none => .next s
  | some (a, t) => .next (if s.hasActive then (t.stamp.loopStop ⟨a.arg % 16, Nat.mod_lt _ (by omega)⟩ true).1 else s)

/-- POOL_ACTION_NODE_OFF: a CMD request with OUTPUT_OFF (R290, R329). -/
def execPoolActionNodeOff (s : State) : Res :=
  match s.popAct 3 with
  | none => .next s
  | some (a, t) => .next (if s.hasActive then t.nodeRequest (a.arg % 65536) 0x20 [1, 0, 0, 0] .action else s)

/-- A slot record as its 16 bytes (R318). -/
def Slot.bytes (r : Slot) : List Byte :=
  leBytes 4 r.value ++ leBytes 4 (r.zone + r.cnt * 8 + b2n r.valid * 2048 + b2n r.act * 4096) ++ leBytes 8 r.time

/-- A limit event in a notice (R433). -/
def LimitEvent.bytes (e : LimitEvent) : List Byte :=
  leBytes 4 e.slot ++ leBytes 2 e.set ++ leBytes 1 e.old ++ leBytes 1 e.new ++ leBytes 4 e.value ++ leBytes 4 0 ++ leBytes 8 e.time

/-- A subscription notice, counted where it is lost (R335). -/
def State.subNotice (s : State) (u : Sub) (op : Nat) (body : List Byte) : State :=
  let r := s.notice ⟨u.sess % 8, Nat.mod_lt _ (by omega)⟩ op body
  if r.2 then r.1
  else
    let n := SMap.get 0 u.sess r.1.pool.subLostNew + 1
    (r.1.modPool (fun p => { p with subLost := bump p.subLost, subLostNew := SMap.set 0 u.sess n p.subLostNew })).log 0x0C06 u.sess n

/-- The value of a slot has moved enough to post it (R335, R426). -/
def State.moved (s : State) (u : Sub) (k v : Nat) : Bool :=
  let fmt := descFmt (s.desc k)
  let now := (s.slot k).value
  if fmt = 2 then now != v else decide (u.deadband < (readFmt fmt now - readFmt fmt v).natAbs)

/-- The covered slots of a VALUES subscription that are due (R335). -/
def State.subDue (s : State) (u : Sub) : List Nat :=
  ((List.range u.count).map (· + u.first)).filter (fun k =>
    (s.slot k).valid && (match SMap.get none k u.posted with
      | none => true
      | some q => s.moved u k q.1 && decide (q.2 + u.interval * 250 ≤ s.clk.tick)))

/-- One NOTICE_VALUES of up to 64 postings (R433). -/
def State.postValues (s : State) (u : Sub) (ks : List Nat) : State :=
  let t := s.modPool (fun p => { p with subs := p.subs.map (fun x =>
    if x.id = u.id then { x with posted := ks.foldl (fun m k => SMap.set none k (some ((s.slot k).value, s.clk.tick)) m) x.posted } else x) })
  t.subNotice u 0x8002 (leBytes 1 u.id ++ leBytes 1 ks.length ++ leBytes 2 0 ++ ks.flatMap (fun k => leBytes 4 k ++ (s.slot k).bytes))

/-- SUB_NOTICE_POST: up to 48 queued limit events go to the EVENTS subscriptions that cover them,
and up to 64 due values to each VALUES
subscription (R327, R335, R433). -/
def execSubNoticePost (s : State) : Res :=
  if s.hasActive = false then .next s
  else if s.sluiceSpent 2 then .next (s.sluiceStall 2)
  else
    let evs := s.pool.events.take 48
    let s1 := s.modPool (fun p => { p with events := p.events.drop 48 })
    .next (s.pool.subs.foldl (fun (t : State) u =>
      if u.values then
        let ks := (t.subDue u).take 64
        if ks = [] then t else t.postValues u ks
      else
        let es := evs.filter (fun e => e.subs.contains u.id)
        if es = [] then t
        else t.subNotice u 0x8001 (leBytes 1 u.id ++ leBytes 1 es.length ++ leBytes 2 0 ++ es.flatMap LimitEvent.bytes)) s1)

/-- The region of a Pool word and what it holds (R315, R332): 0 slot, 1 descriptor, 2 limit set, 3 subscription. -/
def poolRegion (w : Nat) : Nat := if w < 0x40000 then 0 else if w < 0x50000 then 1 else if w < 0x60000 then 2 else 3

/-- A slot cleared to zero (R319, R332). -/
def State.slotClear (s : State) (k : Nat) : State := (s.setSlot k Slot.none).faultScan

/-- A double-bit error where the stem holds the only state (R332). An entry reloaded from the Keneb
image has the values in
force, which are those of the image (R403). -/
def State.poolLose (s : State) (w : Nat) (subs : List Nat) (hand : Bool) : State :=
  let used := s.pool.slot.map (·.1)
  match poolRegion w with
  | 0 => (s.slotClear (w / 2)).modPool (fun p => { p with drops := if hand then p.drops ++ [w / 2] else p.drops })
  | 1 => (s.slotRearm ((w - 0x40000) * 2)).slotRearm ((w - 0x40000) * 2 + 1)
  | 2 => (used.filter (fun k => bits (s.desc k) 13 0 == (w - 0x50000) / 4)).foldl State.slotRearm s
  | _ =>
    let gone := s.pool.subs.filter (fun u => subs.contains u.id)
    gone.foldl (fun (t : State) u => t.subNotice u 0x8003 (leBytes 1 u.id ++ leBytes 1 1 ++ leBytes 2 0))
      (s.modPool (fun p => { p with subs := p.subs.filter (fun u => !subs.contains u.id) }))

/-- POOL_SCRUB: one word read and checked, by the scrubber or by a read that the Pool makes (R332,
R333, R446; log entry 141). -/
def execPoolScrub (e : PoolEcc) (s : State) : Res :=
  match e with
  | .clean => .next s
  | .single k w =>
    .next (if s.stemOk k then (s.modPool (fun p => { p with ce := bump p.ce })).log 0x0C04 k.val w else s)
  | .double k w subs hand =>
    .next (if s.stemOk k then
      let s1 := (s.modPool (fun p => { p with ue := bump p.ue })).log 0x0C05 k.val (poolRegion w + w * 2 ^ 32 : Nat)
      let s2 := if s.stemOk (1 - k) then s1 else s1.poolLose w subs hand
      { s2 with stemRep := s2.stemRep ++ [(k.val, 1)] }
    else s)

end Sys2Proof.Machine
end

