-- ==== Sys2Proof/Machine/Eddy.lean ====
section
/-! DEFINITION. One evaluation of a loop (R91, R96 to R115, R127, R129, R131 to R133, R140, R141, R194). -/

namespace Sys2Proof.Machine

/-- A value saturated to the signed 24 bits of R97. -/
def sat24 (x : Int) : Int := clampI (-8388608) 8388607 x

/-- A value saturated to the signed 48 bits of R97. -/
def sat48 (x : Int) : Int := clampI (-(2 ^ 47)) (2 ^ 47 - 1) x

/-- The sample of a kind in its sense unit, saturated to its 24 bits; a POWER sample halfway between
two units is rounded away from zero
(R91, R97; DESIGN CHOICE, log entry 10). -/
def sampleY (kind : Int) (q : Sample) : Int :=
  sat24 (if kind = 0 then q.v else if kind = 1 then q.i else nearHalfAway (q.v * q.i) 100000)

/-- A filter increment in Q24.24 before saturation (R96, R97): `b` are b0 to b3, `a` a1 and a2. -/
def increment (b0 b1 b2 b3 a1 a2 e e1 e2 e3 v1 v2 : Int) : Int :=
  nearEven ((b0 * e + b1 * e1 + b2 * e2 + b3 * e3) * 2 ^ 24 - a1 * v1 - a2 * v2) (2 ^ 24)

/-- The command of an integrator value: nearest milliampere, ties to even (R96). -/
def cmdOf (x : Int) : Int := nearEven x (2 ^ 24)

/-- The regions in use (R103, R104). -/
def State.regions (s : State) (l : Fin 16) : Nat := if s.parNow P.SCHED_VAR l = 0 then 1 else s.parNowN P.SCHED_REGIONS l

/-- Threshold `j`, 1 to 3 (R103). -/
def State.schedTh (s : State) (l : Fin 16) (j : Nat) : Int :=
  if j = 1 then s.parNow P.SCHED_TH1 l else if j = 2 then s.parNow P.SCHED_TH2 l else s.parNow P.SCHED_TH3 l

/-- The scheduling variable of a sample, with the command given (R103). -/
def State.schedVar (s : State) (l : Fin 16) (q : Sample) (icmd : Int) : Int := s.schedValue l icmd q.i q.vaux

/-- The entry rule: the region whose bounds hold `v` (R104). -/
def State.entryRegion (s : State) (l : Fin 16) (v : Int) : Nat :=
  ((List.range (s.regions l)).filter (fun j => j ≠ 0 && decide (s.schedTh l j ≤ v))).foldl max 0

/-- The region for the next evaluation (R104): the largest move up, else the largest move down. -/
def State.nextRegion (s : State) (l : Fin 16) (r : Nat) (v : Int) : Nat :=
  let h := s.parNow P.SCHED_HYST l
  let js := (List.range (s.regions l)).filter (· ≠ 0)
  let ups := js.filter (fun j => decide (r < j ∧ s.schedTh l j + h ≤ v))
  let downs := js.filter (fun j => decide (j ≤ r ∧ v < s.schedTh l j - h))
  match ups.getLast?, downs.head? with
  | some j, _ => j
  | none, some j => j - 1
  | none, none => r

/-- A reference (in 1/8,000,000 unit) moved toward a target by at most `slew` units per ms over `dt`
(125 ps); 0 steps (R101). -/
def moveRef (ref target slew : Int) (dt : Nat) : Int :=
  if slew = 0 then target else if ref < target then min target (ref + slew * dt) else max target (ref - slew * dt)

/-- The target of R101: the set point with the shave of R217, or the hold-up set point. -/
def State.target (s : State) (l : Fin 16) (region : Nat) : Int :=
  if region = 4 then s.parNow P.LOOP_HU_SETPOINT l else s.parNow P.LOOP_SETPOINT l + s.shaveOf l

/-- The first sample of a start already lies at or beyond the set point (R110). -/
def prebiased (sp y : Int) : Bool := if 0 < sp then decide (sp ≤ y) else if sp < 0 then decide (y ≤ sp) else true

/-- What precedes the arithmetic of a sample: the loop's inputs, the coefficient set, the reference
(R101, R103 to R108, R110).
The flag says that the histories are levelled at this sample, the other that this command leaves set
4. A hiccup retry has no
LOOP_START record. The one further sample that a prebiased loop stays in STARTING is the next one,
at which it is RUNNING (DEDUCED, log
entry 122). -/
def State.prepare (s : State) (l : Fin 16) (q : Sample) : State × Bool × Bool :=
  let c := s.loop[l].ct
  let unit : Int := 8000000
  let enterNow : Bool := match c.huEnter with | some h => decide (h.1 ≤ q.ord) | none => false
  let exitNow : Bool := match c.exitAt with | some o => decide (o ≤ q.ord) | none => false
  if exitNow then
    let v := s.schedVar l q c.icmd
    let y := sampleY (s.parNow P.LOOP_KIND l) q
    let s1 := if s.inSet4 l then s.log 0x0407 l.val (s.clk.shelf - c.setAt : Nat) else s
    let s2 := (s1.setRegion l (s.entryRegion l v) v).modCt l (fun x => { x with
      huEnter := none, exitAt := none, ref8 := y * unit, dwell := 0, returning := x.returning && y != s.target l 0 })
    (s2.modFl l (fun f => { f with spRamping := y != s.target l 0 }), true, true)
  else if enterNow then
    let y := sampleY (s.parNow P.LOOP_HU_KIND l) q
    let pre := match c.huEnter with | some h => h.2 | none => 0
    let s2 := (s.setRegion l 4 (s.schedVar l q c.icmd)).modCt l (fun x => { x with
      huEnter := none, first := false, x := pre * 2 ^ 24, ref8 := y * unit, setAt := s.clk.shelf })
    (s2.modFl l (fun f => { f with spRamping := y != s.parNow P.LOOP_HU_SETPOINT l }), true, false)
  else if c.first then
    if s.parNow P.LOOP_HOLDUP_EN l = 1 ∧ (s.hold.state = .holdup ∨ s.hold.state = .returnWait) then
      let y := sampleY (s.parNow P.LOOP_HU_KIND l) q
      let s2 := (s.setRegion l 4 (s.schedVar l q 0)).modLoop l (fun x => { x with
        tm := { x.tm with ssFresh := true }
        ct := { x.ct with state := .running, first := false, x := 0, e1 := 0, e2 := 0, e3 := 0, v1 := 0, v2 := 0, ref8 := y * unit
                          setAt := s.clk.shelf }
        oc := { x.oc with shortT := none, shortAt := none, cleanAt := s.clk.tick } })
      ((s2.modFl l (fun f => { f with spRamping := y != s.parNow P.LOOP_HU_SETPOINT l })).log 0x0406 l.val (lohi 0 1), false, false)
    else
      let y := sampleY (s.parNow P.LOOP_KIND l) q
      let sp := s.parNow P.LOOP_SETPOINT l
      let pb := prebiased sp y
      let s1 := s.setRegion l (s.entryRegion l (s.schedVar l q 0)) (s.schedVar l q 0)
      let s2 := s1.modLoop l (fun x => { x with
        ct := { x.ct with first := false, prebiasWait := pb, x := 0, e1 := 0, e2 := 0, e3 := 0, v1 := 0, v2 := 0
                          ref8 := (if pb then sp else y) * unit, dwell := 0 }
        fl := { x.fl with prebias := pb, spRamping := false } })
      (if s.loop[l].oc.retries = 0 then s2.log 0x0401 l.val (toWord 63 y + (if pb then 2 ^ 63 else 0) : Nat) else s2, false, false)
  else
    let v := s.schedVar l q c.icmd
    let s1 := if c.region < 4 ∧ s.regions l ≤ c.region then s.setRegion l (s.entryRegion l v) v else s
    match c.state with
    | .starting =>
      let tgt := s.parNow P.LOOP_SETPOINT l * unit
      let r := moveRef c.ref8 tgt (s.parNow P.LOOP_START_SLEW l) q.dt
      let ran : Bool := c.prebiasWait || r == tgt
      let s2 := s1.modLoop l (fun x => { x with
        tm := { x.tm with ssFresh := x.tm.ssFresh || ran }
        ct := { x.ct with ref8 := r, prebiasWait := false, state := if ran then .running else x.ct.state }
        oc := { x.oc with cleanAt := if ran then s.clk.tick else x.oc.cleanAt } })
      (if ran then s2.log 0x0402 l.val (s.clk.shelf - c.startAt : Nat) else s2, false, false)
    | _ =>
      let tgt := s1.target l s1.loop[l].ct.region * unit
      let slew := if c.returning ∧ c.exitAt = none then s.parNow P.HOLD_RETURN_SLEW l else s.parNow P.LOOP_SP_SLEW l
      let r := moveRef c.ref8 tgt slew q.dt
      let s2 := s1.modLoop l (fun x => { x with
        ct := { x.ct with ref8 := r, returning := x.ct.returning && (x.ct.exitAt.isSome || r != tgt) }
        fl := { x.fl with spRamping := r != tgt } })
      (s2, false, false)

/-- The fold-back factor of a voltage (R127). -/
def foldFactor (knee fmin v : Int) : Nat :=
  if knee ≤ v then 1024 else if v ≤ 0 then fmin.toNat else (fmin + (1024 - fmin) * v / knee).toNat

/-- The over-current mode in force and the factor F of the sample (R127 to R129). -/
def State.foldStep (s : State) (l : Fin 16) (q : Sample) : State :=
  let s1 := s.ocModeStep l
  let f := if s1.loop[l].oc.mode = 1 then foldFactor (s.parNow P.LOOP_FB_KNEE l) (s.parNow P.LOOP_FB_MIN l) q.v else 1024
  let o := s1.loop[l].oc
  if f < 1024 then
    let s2 := s1.modOc l (fun x => { x with factor := f, fbLast := f, lowest := min x.lowest f, foldAt := if o.factor < 1024 then x.foldAt else s.clk.shelf })
    if o.factor < 1024 then s2 else s2.log 0x0505 l.val (1 + f * 65536 : Nat)
  else (s1.modOc l (fun x => { x with fbLast := f })).foldExit l

/-- The clamp bounds of x in mA (R98, R111, R194, R243). -/
def State.bounds (s : State) (l : Fin 16) (ord : Nat) : Int × Int :=
  let lo := s.parNow P.LOOP_ICMD_MIN l
  let hi := s.parNow P.LOOP_ICMD_MAX l
  let c := s.loop[l].ct
  let lo1 := if c.state = .starting then max lo (s.parNow P.LOOP_START_IMIN l) else lo
  let lo2 := if c.region = 4 then max lo1 (s.parNow P.HOLD_IMIN l) else lo1
  (lo2, if s.fwdBlocked l ord then min hi 0 else hi)

/-- The arithmetic of one sample (R96 to R99, R102, R105): error, increment, hold, clamp, command, histories. -/
def State.compensate (s : State) (l : Fin 16) (q : Sample) (level : Bool) : State :=
  let c := s.loop[l].ct
  let kind := if c.region = 4 then s.parNow P.LOOP_HU_KIND l else s.parNow P.LOOP_KIND l
  let y := sampleY kind q
  let ref := nearEven c.ref8 8000000
  let drooped := if kind = 0 ∧ s.parNow P.LOOP_DROOP l ≠ 0 then ref - nearEven (s.parNow P.LOOP_DROOP l * q.i) 1000 else ref
  let e := sat24 (drooped - y)
  let k := l.val * 8 + c.region
  let e1 := if level then e else c.e1
  let e2 := if level then e else c.e2
  let e3 := if level then e else c.e3
  let v1 := if level then 0 else c.v1
  let v2 := if level then 0 else c.v2
  let vraw := increment (s.parNow P.SCHED_B0 k) (s.parNow P.SCHED_B1 k) (s.parNow P.SCHED_B2 k) (s.parNow P.SCHED_B3 k)
    (s.parNow P.SCHED_A1 k) (s.parNow P.SCHED_A2 k) e e1 e2 e3 v1 v2
  let v := sat48 vraw
  let xn := nearEven (s.parNow P.SCHED_P0 k * c.x) (2 ^ 24) + v
  let fold : Bool := decide (s.loop[l].oc.factor < 1024)
  let up : Bool := (q.fwdHold || fold) && decide (c.x < xn)
  let down : Bool := q.revHold && decide (xn < c.x)
  let xh := if up || down then c.x else xn
  let b := s.bounds l q.ord
  let x := clampI (b.1 * 2 ^ 24) (b.2 * 2 ^ 24) xh
  let icmd := cmdOf x
  s.modLoop l (fun z => { z with
    ct := { z.ct with x := x, e1 := e, e2 := e1, e3 := e2, v1 := v, v2 := v1, y := y, vNow := q.v, iNow := q.i, auxNow := q.vaux, icmd := icmd }
    fl := { z.fl with
      clampHi := decide (b.2 * 2 ^ 24 < xh), clampLo := decide (xh < b.1 * 2 ^ 24), awHold := up || down
      vSat := z.fl.vSat || vraw != v, vsSat := z.fl.vsSat || q.sat } })

/-- The following-error timer and the start-short timer after a sample (R112, R125); LOOP_SHORT_TIME 0 turns
the latter off. -/
def State.faultTimers (s : State) (l : Fin 16) (q : Sample) : State :=
  let c := s.loop[l].ct
  let err := (nearEven c.ref8 8000000 - c.y).natAbs
  let lim := s.parNowN P.LOOP_FERR_LIMIT l
  let ferr : Option Nat := if lim ≠ 0 ∧ lim < err then some (match c.ferrT with | none => 0 | some t => t + q.dt) else none
  let reached : Bool := s.shortReached l c.y || s.parNow P.LOOP_SHORT_TIME l == 0
  s.modLoop l (fun z => { z with
    ct := { z.ct with ferrT := ferr }
    oc := { z.oc with shortT := if reached then none else z.oc.shortT, shortAt := if reached then none else z.oc.shortAt }
    eb := { z.eb with timerStarted := z.eb.timerStarted || (c.ferrT.isNone && ferr.isSome) } })

/-- The command-slope check (R113): the rise from the previous command. -/
def State.slopeCheck (s : State) (l : Fin 16) (old : Int) : State × Bool :=
  let rise := s.loop[l].ct.icmd - old
  let lim := s.parNow P.LOOP_CMD_STEP_TRIP l
  if lim ≠ 0 ∧ lim < rise then
    ((s.modFl l (fun f => { f with slopeTrip := true })).log 0x0408 l.val rise, true)
  else (s, false)

/-- The region for the next evaluation (R104). -/
def State.regionStep (s : State) (l : Fin 16) (q : Sample) : State :=
  let s1 := s.modCt l (fun c => { c with dwell := c.dwell + 1 })
  let c := s1.loop[l].ct
  if c.region = 4 ∨ c.dwell < s.parNowN P.SCHED_DWELL l then s1
  else
    let v := s.schedVar l q c.icmd
    s1.setRegion l (s.nextRegion l c.region v) v

/-- A shed sequence of the loop is in progress or on its way to the dies (R131). -/
def State.shedBusy (s : State) (l : Fin 16) : Bool :=
  (s.phasesOf l).any (fun p => s.ph[p].shed == .shedding || (maskHas s.loop[l].eb.mask p && s.ph[p].shed == .active && s.ph[p].inService))

/-- Ebb is kept from acting on a loop at all (R131). -/
def State.ebbOff (s : State) (l : Fin 16) : Bool :=
  !(s.parNow P.EBB_ENABLE l == 1 && s.loop[l].ct.state == .running && decide (s.loop[l].ct.region < 4) && s.loop[l].oc.factor == 1024)

/-- The active phases as Ebb counts them: in service and not SHED under the mask (R56, R134). -/
def State.ebbActive (s : State) (l : Fin 16) : List (Fin 48) :=
  (s.phasesOf l).filter (fun p => s.ph[p].inService && !(maskHas s.loop[l].eb.mask p && s.ph[p].shed == .shed))

/-- Shedding is blocked (R131). -/
def State.shedBlocked (s : State) (l : Fin 16) : Bool :=
  s.loop[l].eb.holdOff || s.shedBusy l || decide ((s.ebbActive l).length ≤ s.parNowN P.EBB_MIN_PHASES l)

/-- A phase shed under HOT_SHED is held out while HOT_SHED acts and its EBB_PH_IRMS is not below 75
% of EBB_HOT_LIMIT (R139). -/
def State.hotHeld (s : State) (l : Fin 16) (p : Fin 48) : Bool :=
  let lim := s.parNowN P.EBB_HOT_LIMIT l
  s.ph[p].hot && s.parNow P.EBB_IMB_ACTION l == 2 && lim != 0 && decide (lim * 75 ≤ s.pst[p].iRms * 100)

/-- The next shed phase to add: lowest EBB_PH_IRMS, hot-shed phases last, ties to the lower number (R133, R139). -/
def State.nextAdd (s : State) (l : Fin 16) (mask : Nat) : Option (Fin 48) :=
  let c := (s.phasesOf l).filter (fun p => s.ph[p].inService && maskHas mask p && s.ph[p].shed == .shed && !s.hotHeld l p)
  let key (p : Fin 48) : Nat := s.pst[p].iRms + (if s.ph[p].hot then 2 ^ 40 else 0)
  c.foldl (fun b p => match b with
    | none => some p
    | some q => if key p < key q then some p else some q) none

/-- `n` phases taken out of a shed mask in the order of R133. -/
def State.addPhases (s : State) (l : Fin 16) : Nat → Nat → Nat
  | 0, mask => mask
  | n + 1, mask => match s.nextAdd l mask with
    | none => mask
    | some p => s.addPhases l n (clearBit mask p.val)

/-- The phase to shed: highest EBB_PH_IRMS, ties to the lower number (R133). -/
def State.nextShed (s : State) (l : Fin 16) : Option (Fin 48) :=
  (s.ebbActive l).foldl (fun b p => match b with
    | none => some p
    | some q => if s.pst[q].iRms < s.pst[p].iRms then some p else some q) none

/-- Ebb's filter and decision at a sample; `running` says that the loop was RUNNING before it: the
first such sample sets I_f
(R131 to R133). -/
def State.ebbStep (s : State) (l : Fin 16) (q : Sample) (running : Bool) : State :=
  let mag := s.loop[l].ct.icmd.natAbs * 256
  let s1 := s.modEb l (fun e => { e with
    iF8 := if running && !e.iFset then mag
      else (e.iF8 + floorDiv ((mag : Int) - e.iF8) (2 ^ s.parNowN P.EBB_FILT l)).toNat
    iFset := running, sinceShed := e.sinceShed.map (· + q.dt) })
  let e := s1.loop[l].eb
  if s1.ebbOff l then
    let readd : Bool := s1.loop[l].ct.state == .starting || s1.loop[l].ct.region == 4 || decide (s1.loop[l].oc.factor < 1024)
    s1.modEb l (fun x => { x with mask := if readd then 0 else x.mask })
  else
    let n := (s1.ebbActive l).length
    let inS := ((s.phasesOf l).filter (fun p => s.ph[p].inService)).length
    let addTh := s.parNowN P.EBB_ADD_TH l * 256
    if addTh * n < e.iF8 then
      s1.modEb l (fun x => { x with mask := s1.addPhases l (min (ceilDiv e.iF8 addTh) inS - n) x.mask })
    else
      let rested : Bool := match e.sinceShed with | none => true | some t => decide (s.parNowN P.EBB_DWELL l * 8000 ≤ t)
      if !s1.shedBlocked l && decide (e.iF8 < s.parNowN P.EBB_SHED_TH l * 256 * (n - 1)) && rested then
        match s1.nextShed l with
        | none => s1
        | some p => (s1.modEb l (fun x => { x with mask := setBit x.mask p.val, sinceShed := some 0 })).modPh p (fun x => { x with hot := false })
      else s1

/-- The first condition of R140 that fails: 0 none, 1 not RUNNING, 2 window, 3 fold-back, 4 fault timer (R149). -/
def State.pgFails (s : State) (l : Fin 16) (q : Sample) : Nat :=
  let x := s.loop[l]
  if x.ct.state ≠ .running then 1
  else if s.parNowN P.LOOP_VS_SEL l ≠ 255 ∧ (q.v < s.parNow P.LOOP_PG_LO l ∨ s.parNow P.LOOP_PG_HI l < q.v) then 2
  else if x.oc.factor < 1024 then 3
  else if x.ct.ferrT.isSome ∨ x.oc.shortT.isSome ∨ 0 < x.oc.count ∨ x.eb.timerStarted then 4
  else 0

/-- One step of the power-good state machine of an enabled loop (R140, R141): 0 LOW, 1 DELAY, 2 HIGH. -/
def State.pgStep (s : State) (l : Fin 16) (q : Sample) : State :=
  if s.par P.LOOP_ENABLE l = 0 then s else
  let f := s.pgFails l q
  let e := s.loop[l].eb
  let s1 := s.modEb l (fun x => { x with timerStarted := false })
  let low (s : State) : State := s.modEb l (fun x => { x with pg := 0, pgAt := 0, pgPin := false })
  if e.pg = 0 then (if f = 0 then s1.modEb l (fun x => { x with pg := 1, pgAt := 0 }) else s1)
  else if e.pg = 1 then
    if f ≠ 0 then low s1
    else if s.parNowN P.LOOP_PG_DELAY l * 8000 ≤ e.pgAt + q.dt then
      (s1.modEb l (fun x => { x with pg := 2, pgPin := true })).log 0x0520 l.val (lohi 1 q.v)
    else s1.modEb l (fun x => { x with pgAt := x.pgAt + q.dt })
  else if f ≠ 0 then (low s1).log 0x0520 l.val (lohi (f * 256 : Nat) q.v) else s1

/-- The evaluation of one sample of a loop, the inputs stamped before it taken (R96, R109, the listing after R100). -/
def State.evaluate (s : State) (l : Fin 16) (q : Sample) : State :=
  let s := if s.lossBefore l q.ord then s.lossTake l else s
  let old := s.loop[l].ct.icmd
  let pr := s.prepare l q
  let s1 := (pr.1.foldStep l q).compensate l q pr.2.1
  let sl := (s1.faultTimers l q).slopeCheck l old
  let hu : Bool := sl.1.loop[l].ct.region == 4
  let s2 := (((sl.1.preStale l).regionStep l q).ebbStep l q (s.loop[l].ct.state == .running)).pgStep l q
  (((s2.sendFrame l (fun f => { f with hu := hu, exit := pr.2.2, slope := sl.2 })).holdExitScan.sluiceUse 0 22).faultScan).lossTake l

/-- The loop whose sample is evaluated next, of each the newest: earliest sample instant, then lower
number (R114, R115). -/
def State.nextLoop (s : State) : Option (Fin 16) :=
  (fins 16).foldl (fun b l => match s.loop[l].samples.getLast?, b with
    | none, _ => b
    | some _, none => some l
    | some q, some m => match s.loop[m].samples.getLast? with
      | none => some l
      | some r => if q.time < r.time then some l else b) none

/-- A sample overtaken by a later one of its loop is discarded: EVAL_LATE, its record, a fault of
the stem (R47, R115). -/
def State.discardLate (s : State) (l : Fin 16) (q : Sample) : State :=
  (((s.modFl l (fun f => { f with evalLate := true })).log 0x0409 l.val q.time).stemFault 7)

/-- LOOP_EVALUATION: the earliest of the loops' newest samples; the samples of its loop that it has
overtaken are discarded, their time and their hold
conditions go to it (R99, R114, R115). -/
def execLoopEvaluation (s : State) : Res :=
  match s.nextLoop with
  | none => .next s
  | some l =>
    match s.loop[l].samples.reverse with
    | [] => .next s
    | q0 :: late =>
      let q := late.foldl (fun (q : Sample) r => { q with dt := q.dt + r.dt, fwdHold := q.fwdHold || r.fwdHold, revHold := q.revHold || r.revHold }) q0
      .next ((late.reverse.foldl (fun t r => t.discardLate l r) (s.modLoop l (fun x => { x with samples := [] }))).evaluate l q)

/-- The following-error timer has run for LOOP_FERR_TIME (R112). -/
def State.ferrDue (s : State) (l : Fin 16) : Bool := match s.loop[l].ct.ferrT with
  | none => false
  | some t => decide (s.parNowN P.LOOP_FERR_TIME l * 8000 ≤ t)

/-- FOLLOW_ERR_EXPIRE (R109, R112). -/
def execFollowErrExpire (l : Fin 16) (s : State) : Res :=
  let c := s.loop[l].ct
  if s.live l ∧ s.ferrDue l then
    let s1 := (s.modLoop l (fun x => { x with
      ct := { x.ct with ferrCnt := bump x.ct.ferrCnt, ferrT := some 0 }, fl := { x.fl with ferr := true } })).log 0x0404 l.val
      (nearEven c.ref8 8000000 - c.y).natAbs
    let a := s.parNow P.LOOP_FERR_ACTION l
    .next (if a = 0 then s1 else if a = 1 then s1.stopLoop l 2 .boundary else s1.faultLoopAt l 2 .boundary)
  else .next s

end Sys2Proof.Machine
end

