-- ==== Sys2Proof/Machine/StemOps.lean ====
section
/-! DEFINITION. Stem states: failure, switch-over, divergence, resynchronisation (R443, R447 to R454). -/

namespace Sys2Proof.Machine

/-- The number STEM_STATE reads (R462). -/
def StemState.code : StemState → Nat
  | .off => 0 | .boot => 1 | .sync => 2 | .standby => 3 | .active => 4 | .failed => 5

/-- The state of stem `k`. -/
def State.stemSt (s : State) (k : Fin 2) : StemState := s.stems.stem[k].st

/-- One stem is ACTIVE and the other STANDBY (R443). -/
def State.redundant (s : State) : Bool := (s.stemSt 0 == .active && s.stemSt 1 == .standby) || (s.stemSt 0 == .standby && s.stemSt 1 == .active)

/-- NOTICE_STEM to the sessions that select it (R420, R433, R450). -/
def State.stemNotice (s : State) (event : Nat) : State :=
  s.noticeAll 2 0x8007 (leBytes 1 event ++ leBytes 1 s.activeStem ++ leBytes 2 0 ++ leBytes 8 s.clk.shelf)

/-- The copies that a new active stem had sent and the comparer had not passed leave now; the rest
are discarded (R449). -/
def State.releaseWaiting (s : State) (k : Fin 2) : State :=
  let w := s.stems.waiting
  ({ s with passed := tab 5 (fun g => (w.filter (fun (o : OutCopy) => o.stem == k && o.group == g)).foldl (fun (a : Nat) (o : OutCopy) => max a o.oseq) s.passed[g]) }).modStems
    (fun x => { x with waiting := [] })

/-- Switch-over to stem `k` with its cause and fault kind: the roles, the outputs, the input on its way (R449). -/
def State.switchTo (s : State) (k : Fin 2) (cause kind : Nat) (old : StemState) : State :=
  let t := ((s.modStem (1 - k) (fun x => { x with st := old })).modStem k (fun x => { x with st := .active })).releaseWaiting k
  t.modStems (fun x => { x with
    switched := true, switchovers := bump x.switchovers, input := some (cause, kind, t.passed[(1 : Fin 5)]) }) |>.faultScan

/-- A stem restarts alone: reset kind 6 after its watchdog, else 7; a firmware trial is not
confirmed after it (R493, R508). -/
def State.stemRestart (s : State) (k : Fin 2) (watchdog : Bool) : State :=
  let s1 := (s.resetTaken (if watchdog then 6 else 7) 0 false).modStem k (fun x => { x with st := .failed })
  s1.modFirm (fun f => { f with trialStart := 0 })

/-- The local action of a fault that a lone active stem reports (R443, R446): kind 1 as R332, kind 3
a loop's state of Eddy set to 0. -/
def State.eddyReload (s : State) (l : Fin 16) : State :=
  s.modCt l (fun c => { c with x := 0, e1 := 0, e2 := 0, e3 := 0, v1 := 0, v2 := 0 })

/-- Stem `k` failed within the last 2 µs (R443). -/
def State.failedJust (s : State) (k : Fin 2) : Bool := match s.stems.stem[k].failAt with
  | none => false
  | some t => decide (s.clk.tick ≤ t + 500)

/-- A failure of stem `k` (R443, R447): `cause` 1 fault report of `kind`, 2 silence, 3 late; `loop`
the loop of an Eddy RAM error. It
comes before a divergence not yet recognised (R449). -/
def State.stemFail (s : State) (k : Fin 2) (cause kind : Nat) (loop : Fin 16) : State :=
  let st := s.stemSt k
  let s0 := (s.modStems (fun x => { x with
    doubt := none, selfFault := x.selfFault || cause == 1, lastFault := if cause = 1 then kind else x.lastFault })).modStem k (fun x => { x with
      failAt := some s.clk.tick })
  let rec_ (t : State) (solo : Bool) : State :=
    if cause = 1 then t.log 0x1003 k.val (kind + b2n (st == .active) * 256 + b2n solo * 65536 : Nat)
    else t.log 0x1004 k.val (cause - 1 : Nat)
  match st with
  | .off => s
  | .failed => s
  | .boot => (rec_ s0 false).stemRestart k (kind == 5)
  | .sync => ((((rec_ s0 false).modStems (fun x => { x with sync := none })).stemRestart k (kind == 5)).stemNotice 4)
  | .standby => ((rec_ s0 false).stemRestart k (kind == 5)).stemNotice 4
  | .active =>
    if s.stemSt (1 - k) = .standby then rec_ ((s0.switchTo (1 - k) cause (if cause = 1 then kind else 0) .active).stemRestart k (kind == 5)) false
    else if cause = 1 ∧ kind = 1 then rec_ s0 true
    else if cause = 1 ∧ kind = 3 then rec_ (s0.eddyReload loop) true
    else s0.fwRestart (if s.failedJust (1 - k) then 1 else 2)

/-- The stem in ACTIVE or STANDBY with a role, if any. -/
def State.stemOf (s : State) (st : StemState) : Option (Fin 2) := (fins 2).find? (fun (k : Fin 2) => s.stemSt k == st)

/-- A standby stem enters SYNC (R443, R453). -/
def State.toSync (s : State) (k : Fin 2) : State :=
  (s.modStem k (fun x => { x with st := .sync })).modStems (fun x => { x with sync := some ⟨s.clk.tick, 0, 0, 0, 0⟩, waiting := [], doubt := none })

/-- Divergence of the standby: group, 1 values differ or 2 late, OSEQ (R448, R450). -/
def State.diverge (s : State) (g kind oseq : Nat) : State := match s.stemOf .standby with
  | none => s
  | some k =>
    (((s.toSync k).modStems (fun x => { x with diverged := true, divergences := bump x.divergences })).log 0x1002 k.val
      (g + kind * 256 + oseq * 2 ^ 32 : Nat)).stemNotice 2

/-- A mismatch or a late copy of the standby: a divergence, unless a stem fails within 2 µs of it (R448, R449). -/
def State.doubtful (s : State) (g kind oseq : Nat) : State :=
  s.modStems (fun x => { x with doubt := match x.doubt with
    | none => some (g, kind, oseq, s.clk.tick)
    | some d => some d })

/-- 2 µs after a mismatch with no failure of a stem, the divergence is recognised (R448). -/
def State.doubtEnd (s : State) : State := match s.stems.doubt with
  | none => s
  | some d => if s.clk.tick < d.2.2.2 + 500 then s else ((s.modStems (fun x => { x with doubt := none })).diverge d.1 d.2.1 d.2.2.1).faultScan

/-- A resynchronisation fails: 1 time, 2 blocks mismatched (R443, R454). -/
def State.syncFail (s : State) (cause blocks : Nat) : State := match s.stemOf .sync with
  | none => s
  | some k =>
    (((s.modStems (fun x => { x with sync := none, resyncFailed := true })).log 0x1007 k.val (cause + blocks * 2 ^ 32 : Nat)).stemRestart k
      false).stemNotice 4 |>.faultScan

/-- The effect of STEM_CTRL SWITCHOVER: BUSY unless the device is redundant (R449, R462). -/
def State.stemSwitch (s : State) : State × Nat := match s.redundant, s.stemOf .standby with
  | true, some n => (s.switchTo n 4 0 .standby, stOk)
  | _, _ => (s, stBusy)

/-- The effect of STEM_CTRL RESYNC: BUSY unless the device is redundant (R453, R462). -/
def State.stemResync (s : State) : State × Nat := match s.redundant, s.stemOf .standby with
  | true, some n => (((s.toSync n).log 0x1005 n.val s.ord).faultScan, stOk)
  | _, _ => (s, stBusy)

/-- The effect of STEM_CTRL RESTART_STANDBY: BUSY unless RESTART_LIMIT is set (R443, R462). -/
def State.stemRestartCtl (s : State) : State × Nat := match (fins 2).find? (fun (n : Fin 2) => s.stems.stem[n].limited) with
  | some n => ((s.modStem n (fun x => { x with limited := false, st := if x.hot ∨ x.low then .off else .boot })).faultScan, stOk)
  | none => (s, stBusy)

/-- STEM_STATUS (R461). -/
def State.stemStatus (s : State) : Nat :=
  let x := s.stems
  ([s.redundant, s.activeStem == 1, (s.stemOf .sync).isSome, x.switched, x.diverged, x.selfFault, x.resyncFailed,
    (fins 2).any (fun (k : Fin 2) => x.stem[k].limited)].zipIdx.map (fun q => if q.1 then 2 ^ q.2 else 0)).sum

end Sys2Proof.Machine
end

