-- ==== Sys2Proof/Machine/ThermOps.lean ====
section
/-! DEFINITION. The temperature hub's shared operations: sensors, neighbours, offsets, groups,
shutdown and return of a die
(R464 to R477). -/

namespace Sys2Proof.Machine

/-- The temperature hub changed. -/
def State.modTherm (s : State) (f : Therm → Therm) : State := { s with therm := f s.therm }

/-- Die `d`'s item changed. -/
def State.modTd (s : State) (d : Fin 8) (f : ThDie → ThDie) : State := s.modTherm (fun x => { x with die := upd x.die d f })

/-- The sensors of a die, none of them external (R464). -/
def sensorDie (n : Fin 64) : Option (Fin 8) :=
  if n.val < 6 then some 0 else if n.val < 12 then some 1 else if n.val < 20 then some 2
  else if h : n.val < 44 then some ⟨(n.val - 20) / 6 + 3, by omega⟩
  else if n.val < 48 then some 7 else none

/-- The phase die of a die number (R464). -/
def phaseDie (d : Fin 8) : Option (Fin 4) := if h : 3 ≤ d.val ∧ d.val < 7 then some ⟨d.val - 3, by omega⟩ else none

/-- The stem of a die number (R464). -/
def stemDie (d : Fin 8) : Option (Fin 2) := if h : d.val < 2 then some ⟨d.val, h⟩ else none

/-- The domain of a die is on (R466). -/
def State.thermOn (s : State) (d : Fin 8) : Bool := match phaseDie d, stemDie d with
  | some k, _ => !s.die[k].off
  | none, some k => !s.stems.stem[k].low
  | none, none => d.val == 2 || s.bank.on

/-- A sensor is converted: its die's domain is on, or its XT mode is not OFF (R466). -/
def State.sensorOn (s : State) (n : Fin 64) : Bool := match sensorDie n with
  | some d => s.thermOn d
  | none => s.par P.THERM_XT_MODE (n.val - 48) != 0

/-- A sensor is usable (R466). -/
def State.sensorUsable (s : State) (n : Fin 64) : Bool := s.sensorOn n && !s.therm.sen[n].isOpen

/-- The usable neighbours of a sensor that are not SUSPECT (R468). -/
def State.neighbours (s : State) (n : Fin 64) : List (Fin 64) :=
  (fins 64).filter (fun (k : Fin 64) => bit (s.parN P.THERM_NBR n) k.val && s.sensorUsable k && !s.therm.sen[k].suspect)

/-- The median of a list, the mean of the middle two where their number is even (R468). -/
def medianOf (l : List Int) : Int :=
  let m := l.foldl (fun a x => insertInt x a) []
  let h := m.length / 2
  if m.length % 2 = 1 then m.getD h 0 else nearHalfAway (m.getD (h - 1) 0 + m.getD h 0) 2

/-- c of a sensor has moved by less than 0.5 °C over the last 60 s (R469). -/
def Sensor.still (x : Sensor) : Bool :=
  let l := (x.c :: x.hist.map (fun q => q.1)).take 60001
  l.length == 60001 && decide (l.foldl max x.c - l.foldl min x.c < 5)

/-- The offset of a sensor that learns, and whether the limit acts, with the offset asked for (R469). -/
def Sensor.learnStep (x : Sensor) (lim diff : Int) : Sensor × Option Int :=
  let total := x.ofs * 65536 + x.ofsRem + diff
  if lim * 65536 < total then ({ x with ofs := lim, ofsRem := 0, ofsClamp := true }, some (truncDiv total 65536))
  else if total < -lim * 65536 then ({ x with ofs := -lim, ofsRem := 0, ofsClamp := true }, some (truncDiv total 65536))
  else ({ x with ofs := floorDiv total 65536, ofsRem := total - floorDiv total 65536 * 65536, ofsClamp := false }, none)

/-- The scans of history that a sensor keeps. -/
def State.scanDepth (s : State) (n : Fin 64) : Nat :=
  let g := s.parN P.THERM_GROUP n
  max 60000 (if g < 16 then s.parN P.THERM_ROR_WIN g else 0)

/-- `n` binary digits of the logarithm to base 2 of `m` / 2^62, which lies from 1 up to 2, after the digits `acc`. -/
def log2Bits : Nat → Nat → Nat → Nat
  | 0, _, acc => acc
  | n + 1, m, acc =>
    let q := m * m / 2 ^ 62
    if 2 ^ 63 ≤ q then log2Bits n (q / 2) (2 * acc + 1) else log2Bits n q (2 * acc)

/-- The logarithm to base 2 of a number from 1 to 2^62, in units of 2^-40 (R466). -/
def log2Fx (r : Nat) : Nat := r.log2 * 2 ^ 40 + log2Bits 40 (r * 2 ^ (62 - r.log2)) 0

/-- The temperature of a thermistor in 0.1 °C (R466): 298.15 K and ln 2 in units of 2^-40; none
where the formula has no temperature
that 16 bits hold. -/
def ntcTemp (r r25 beta : Nat) : Option Int :=
  let l : Int := floorDiv (((log2Fx r : Int) - log2Fx r25) * 762123384786) (2 ^ 40)
  let den : Int := 100 * beta * 2 ^ 40 + 29815 * l
  if den ≤ 0 then none
  else
    let t := nearHalfAway (2 * (298150 * beta * 2 ^ 40) - 5463 * den) (2 * den)
    if t ≤ 32767 then some t else none

/-- The temperature of a remote diode in 0.1 °C from its ΔV in µV (R466), with q / k =
16,021,766,340 / 1,380,649 K/V. -/
def diodeTemp (uv nf : Nat) : Int :=
  let den : Int := 1380649 * nf * 2302585092994046
  nearHalfAway (2 * (16021766340 * uv * 100000000000000) - 5463 * den) (2 * den)

/-- An XT reading is outside its range (R466): in ohms in mode NTC, in µV in mode DIODE. -/
def State.xtOut (s : State) (k : Fin 16) (v : Nat) : Bool :=
  if s.par P.THERM_XT_MODE k = 1 then decide (v < 10 ∨ 2000000 < v)
  else s.par P.THERM_XT_MODE k = 2 && decide (v < 20000 ∨ 150000 < v)

/-- The temperature of an XT reading in its range (R466). -/
def State.xtTemp (s : State) (k : Fin 16) (v : Nat) : Int :=
  if s.par P.THERM_XT_MODE k = 1 then
    let r25 := s.parN P.THERM_XT_R25 k
    let beta := s.parN P.THERM_XT_BETA k
    (ntcTemp v r25 beta).getD (clampI (-32768) 32767 (Config.xtBeyond v r25 beta))
  else diodeTemp v (s.parN P.THERM_XT_NF k)

/-- Raw readings and the c of every usable sensor (R466, R468): `raw` of the on-die sensors that the
hub converts, `xt` of the XT
inputs; one that is OPEN keeps its last reading. -/
def State.scanRead (s : State) (raw : Vector Int 44) (xt : Vector Nat 16) : State :=
  let k (n : Fin 64) : Fin 16 := ⟨n.val % 16, Nat.mod_lt _ (by omega)⟩
  let out (n : Fin 64) : Bool := decide (48 ≤ n.val) && s.sensorOn n && s.xtOut (k n) xt[k n]
  let r (n : Fin 64) : Int :=
    if h : n.val < 44 then raw[n.val] else if 48 ≤ n.val ∧ out n = false then s.xtTemp (k n) xt[k n] else s.therm.sen[n].raw
  let s1 := s.modTherm (fun t => { t with sen := tab 64 (fun n => { t.sen[n] with
    raw := if s.sensorOn n then r n else t.sen[n].raw
    isOpen := out n }) })
  s1.modTherm (fun t => { t with sen := tab 64 (fun n => if s1.sensorUsable n then { t.sen[n] with c := t.sen[n].raw - t.sen[n].ofs } else t.sen[n]) })

/-- The evaluation of one sensor against its neighbours, and the offset asked for where the limit acts (R468, R469). -/
def State.sensorEval (s : State) (n : Fin 64) : Sensor × Option Int :=
  let x := s.therm.sen[n]
  let push (y : Sensor) (t : Int) : Sensor := { y with t := t, hist := ((x.c, t) :: x.hist).take (s.scanDepth n + 1) }
  if s.sensorUsable n = false then ({ x with hist := [], learning := false }, none)
  else
    let nb := s.neighbours n
    if nb.length < 2 then (push { x with noCheck := true, learning := false } x.c, none)
    else
      let est := medianOf (nb.map (fun (k : Fin 64) => s.therm.sen[k].c))
      let d : Int := (x.c - est).natAbs
      let lim := s.par P.THERM_DELTA n
      let run := if lim < d then x.run + 1 else 0
      let calm := if 2 * d ≤ lim then x.calm + 1 else 0
      let sus : Bool := if x.suspect then decide (calm < 60) else decide (s.parN P.THERM_SUSPECT_CNT 0 ≤ run)
      let learn : Bool := !sus && x.still && nb.all (fun (k : Fin 64) => s.therm.sen[k].still)
      let y := push { x with noCheck := false, run := run, calm := calm, suspect := sus, learning := learn } (if sus then est else x.c)
      if learn then y.learnStep (s.par P.THERM_OFS_MAX 0) (x.c - est) else (y, none)

/-- The records of a sensor's evaluation (R468, R469). -/
def State.sensorLog (s old : State) (n : Fin 64) (ofs : Option Int) : State :=
  let x := s.therm.sen[n]
  let was := old.therm.sen[n].suspect
  let est := medianOf ((old.neighbours n).map (fun (k : Fin 64) => old.therm.sen[k].c))
  let s1 := if x.suspect != was then s.log 0x1105 n.val (b2n x.suspect + toWord 16 x.c * 65536 + toWord 16 est * 2 ^ 32 : Nat) else s
  match ofs with
  | none => s1
  | some v => if old.therm.sen[n].ofsClamp then s1 else s1.log 0x1107 n.val v

/-- The usable sensors of a die (R471). -/
def State.dieSensors (s : State) (d : Fin 8) : List (Fin 64) := (fins 64).filter (fun (n : Fin 64) => sensorDie n == some d && s.sensorUsable n)

/-- A die's temperature and its hottest sensor, none without a usable sensor (R471). -/
def State.dieTemp (s : State) (d : Fin 8) : Option (Int × Nat) :=
  (s.dieSensors d).foldl (fun (a : Option (Int × Nat)) (n : Fin 64) => match a with
    | none => some (s.therm.sen[n].t, n.val)
    | some q => if q.1 < s.therm.sen[n].t then some (s.therm.sen[n].t, n.val) else a) none

/-- The shutdown condition of a die that the hub tests (R471). -/
def State.dieTooHot (s : State) (d : Fin 8) (temp : Int) : Bool :=
  decide (1350 ≤ temp) || decide (2 ≤ ((s.dieSensors d).filter (fun (n : Fin 64) => decide (1350 ≤ s.therm.sen[n].c))).length)

/-- A stem is held by thermal shutdown of its own die or of the Delta die (R472). -/
def State.hotScan (s : State) : State :=
  let down (d : Fin 8) : Bool := s.therm.die[d].st != .run
  (s.modStem 0 (fun x => { x with hot := down 0 || down 2 })).modStem 1 (fun x => { x with hot := down 1 || down 2 })

/-- Shutdowns that the ledger shows in force at a start of DL_SNS are kept: phase dies held, and
with the Delta die DL_HOST off; the Bank
die tests its own item at every command (R472, R473). -/
def State.hotHold (s : State) : State :=
  let t := (fins 4).foldl (fun (u : State) (k : Fin 4) =>
    if s.therm.die[(⟨k.val + 3, by omega⟩ : Fin 8)].st = .run then u else u.modDie k (fun x => { x with held := true })) s.hotScan
  if s.therm.die[(2 : Fin 8)].st = .run then t else t.modDev (fun d => { d with hostOn := false })

/-- Loops with phases on a phase die stop with cause THERMAL, as a stamped input; those with
THERM_AUTO_START wait for their START. The die's way into SAFE from ARMED or RUN is a trigger of that input
(R109, R360, R472, R475). -/
def State.thermStop (s : State) (k : Fin 4) : State :=
  if s.hasActive = false then s
  else (fins 16).foldl (fun (t : State) (l : Fin 16) =>
    let st := t.loop[l].ct.state
    if (t.diesOf l).contains k ∧ (st = .starting ∨ st = .running ∨ st = .hiccupOff) then
      (t.stopLoop l 5 .boundary).modTherm (fun x => { x with auto := x.auto.set l.val (t.par P.THERM_AUTO_START l == 1) l.isLt })
    else t) (if s.die[k].state = .safe then s.stamp else s.stamp.spateReq 5 k.val)

/-- A phase die held in reset (R82, R472): the reports that it has sent still arrive. -/
def State.dieHold (s : State) (k : Fin 4) : State :=
  let low := s.die[k].lowRan
  (s.dieDown k).modDie k (fun x => { x with held := true, lowRan := low, link := [] })

/-- The Delta die in shutdown: both stems in reset, the field and host domains off, SRC_VALID low (R472). -/
def State.deltaDown (s : State) : State :=
  ({ (s.sourceDrop.stemLost false) with
      port := Vector.replicate 64 Port.reset
      host := { Hosts.reset with key := s.host.key, ledImg := s.host.ledImg } }.modDev (fun d => { d with
    state := s.dev.state, hostOn := false, fldlOn := false, fldhOn := false })).hotScan

/-- Shutdown of a die as R472 gives it. -/
def State.dieShut (s : State) (d : Fin 8) : State := match phaseDie d, stemDie d with
  | some k, _ => (s.thermStop k).dieHold k
  | none, some k => s.hotScan.stemFail k 1 9 0
  | none, none =>
    if d.val = 2 then s.deltaDown
    else (s.bankAllOff 6).modBank (fun b => { b with configured := false, next := none, cmds := [] })

/-- A die meets its shutdown condition (R473, R474): SHUTDOWN, or LATCHED within 3,600 s of the
previous one; recorded at once where a
stem still runs. -/
def State.thermShutdown (s : State) (d : Fin 8) (temp : Int) (hottest : Nat) : State :=
  let x := s.therm.die[d]
  let latch : Bool := decide (x.last ≠ 0 ∧ s.clk.shelf ≤ x.last + 3600000000000)
  let s1 := (s.modTd d (fun y => { y with
    st := if latch then .latched else .shutdown, last := s.clk.shelf, count := satAdd 16 y.count 1, cool := 0
    recorded := false, temp := temp, hottest := hottest })).ledgerNeed
  let s2 := s1.dieShut d
  (if s2.hasActive then s2.shutRecord d else s2).faultScan

/-- Both stems start again after the Delta die's return (R475, R493). -/
def State.deltaBack (s : State) : State :=
  (s.hotScan.modDev (fun d => { d with hostOn := true })).fwRestart 4

/-- A stem released from reset boots (R443). -/
def State.stemRelease (s : State) (k : Fin 2) : State :=
  s.modStem k (fun x => if (x.st = .off ∨ x.st = .failed) ∧ ¬ x.hot ∧ ¬ x.low ∧ ¬ x.limited then { x with st := .boot } else x)

/-- A die is released from thermal shutdown (R473, R475). -/
def State.thermRelease (s : State) (d : Fin 8) : State :=
  let s1 := ((s.modTd d (fun y => { y with st := .run, cool := 0 })).ledgerNeed).log 0x1102 d.val ((s.clk.shelf - s.therm.die[d].last) / 1000000 : Nat)
  (match phaseDie d, stemDie d with
   | some k, _ => s1.modDie k (fun x => { x with held := false })
   | none, some k => s1.hotScan.stemRelease k
   | none, none => if d.val = 2 then s1.deltaBack else if s1.bank.on then s1.bankSendSet else s1).faultScan

/-- The die machine of R473 at a scan that finds temperature `temp` and whether the shutdown condition holds. -/
def State.dieMachine (s : State) (d : Fin 8) (temp : Int) (hot : Bool) (hottest : Nat) : State :=
  let x := s.therm.die[d]
  let cool := if temp < 1150 then min (x.cool + 1) 10 else 0
  match x.st with
  | .run => if hot then s.thermShutdown d temp hottest else s
  | .shutdown => if 10 ≤ cool then s.thermRelease d else s.modTd d (fun y => { y with cool := cool })
  | .latched => s.modTd d (fun y => { y with cool := cool })

/-- A die at the hub's scan: its temperature, THERM_WARN, and its machine for every die but the Bank
die (R471, R473). -/
def State.dieScan (s : State) (d : Fin 8) : State := match s.dieTemp d with
  | none => s
  | some (temp, n) =>
    let lim := s.par P.THERM_WARN d
    let was := s.therm.die[d].warn
    let warn : Bool := if was then decide (lim - 20 < temp) else decide (lim ≤ temp)
    let s1 := s.modTd d (fun y => { y with temp := temp, warn := warn })
    let s2 := if warn != was then s1.log 0x1104 d.val (b2n warn + toWord 16 temp * 65536 : Nat) else s1
    if d.val = 7 then s2 else s2.dieMachine d temp (s.dieTooHot d temp) n

/-- The rise of a sensor's t over a group's window, where it has that much history and may count (R470). -/
def State.riseOf (s : State) (g : Fin 16) (n : Fin 64) : Option Int :=
  let x := s.therm.sen[n]
  if s.parN P.THERM_GROUP n = g.val ∧ s.sensorUsable n ∧ ¬ x.suspect then
    (x.hist[s.parN P.THERM_ROR_WIN g]?).map (fun q => x.t - q.2)
  else none

/-- The fastest member of a group and its rise (R470). -/
def State.fastest (s : State) (g : Fin 16) : Option (Nat × Int) :=
  (fins 64).foldl (fun (a : Option (Nat × Int)) (n : Fin 64) => match s.riseOf g n, a with
    | none, _ => a
    | some r, none => some (n.val, r)
    | some r, some q => if q.2 < r then some (n.val, r) else a) none

/-- A group at a scan (R470): its rate, ROR, the action. -/
def State.groupScan (s : State) (g : Fin 16) : State :=
  let x := s.therm.grp[g]
  let q := (s.fastest g).getD (255, 0)
  let win := s.parN P.THERM_ROR_WIN g
  let lim := s.par P.THERM_ROR_LIMIT g * win
  let rise := q.2 * 1000
  let rate := clampI (-32768) 32767 (nearHalfAway rise win)
  let below := if rise * 5 < lim * 4 then x.below + 1 else 0
  let ror : Bool := if x.ror then decide (below < win) else decide (lim < rise)
  let s1 := s.modTherm (fun t => { t with grp := upd t.grp g (fun _ => ⟨ror, rate, if x.ror then below else 0⟩) })
  if ror = x.ror then s1
  else
    let s2 := s1.log 0x1106 g.val (b2n ror + q.1 * 256 + toWord 16 rate * 65536 : Nat)
    if ror ∧ s.par P.THERM_ROR_ACTION g = 1 ∧ s.hasActive then
      (s2.stamp.loopStop ⟨s.parN P.THERM_ROR_ARG g % 16, by omega⟩ true).1
    else s2

/-- THERM_SENSOR_STATUS (R484). -/
def State.sensorStatus (s : State) (n : Fin 64) : Nat :=
  let x := s.therm.sen[n]
  let ror := (fins 16).any (fun (g : Fin 16) => s.parN P.THERM_GROUP n == g.val && s.therm.grp[g].ror)
  b2n (s.sensorUsable n && !x.hist.isEmpty) + 2 * b2n x.suspect + 4 * b2n x.noCheck + 8 * b2n x.isOpen + 16 * b2n x.ofsClamp + 32 * b2n x.learning + 64 * b2n ror

/-- The Delta source's points of a scan (R477). -/
def State.thermPublish (s old : State) : State :=
  let now := s.clk.shelf
  let pt (p : Nat) (v : Int) : Nat × Nat × Nat := (p, toWord 32 v, now)
  let ts := ((fins 64).filter s.sensorUsable).map (fun (n : Fin 64) => pt n.val s.therm.sen[n].t)
  let st := ((fins 64).filter (fun (n : Fin 64) => s.sensorStatus n != old.sensorStatus n)).map (fun (n : Fin 64) => pt (64 + n.val) (s.sensorStatus n))
  let ds := (fins 8).map (fun (d : Fin 8) => pt (160 + d.val) s.therm.die[d].temp)
  let gs := (fins 16).map (fun (g : Fin 16) => pt (168 + g.val) s.therm.grp[g].rate)
  if s.hasActive then ((s.srcPush 2 ts).srcPush 2 st).srcPush 2 (ds ++ gs) else s

/-- A table of 16 points interpolated at a temperature; the end points beyond it (R476). -/
def compAt (y : Nat → Int) (t : Int) : Int :=
  if t ≤ Config.compT 0 then y 0
  else match (List.range 15).find? (fun i => decide (t < Config.compT (i + 1))) with
    | none => y 15
    | some i => y i + nearHalfAway ((y (i + 1) - y i) * (t - Config.compT i)) (Config.compT (i + 1) - Config.compT i)

/-- Oscillator and reference compensation from t of sensor 12 (R476). With no reference steering goes
back to none by a step a scan; with the oscillator's correction it stays within ±100 ppm (R30, R31; log entry 117). -/
def State.compensateTemp (s : State) : State :=
  let t := s.therm.sen[(12 : Fin 64)].t
  let o := compAt Config.compOsc t
  let osc := clampI (-10000) 10000 (stepTo s.therm.osc o)
  (s.modTherm (fun h => { h with osc := osc, ref := compAt Config.compRef t })).modTb (fun t => { t with
    steer := clampI (-10000 - osc) (10000 - osc) (if t.state = .free then stepTo t.steer 0 else t.steer) })

/-- The effect of THERM_CTRL CLEAR_LATCH: LATCHED to SHUTDOWN, with its record (R473, R485). -/
def State.thermClearLatch (s : State) (d k : Fin 8) : State × Nat :=
  if s.therm.die[d].st = .latched then
    (((s.modTd d (fun x => { x with st := .shutdown })).ledgerNeed).log 0x1103 d.val (1 + k.val * 256 : Nat), stOk)
  else (s, stOk)

/-- The effect of RELEARN: SUSPECT cleared, ofs := THERM_OFS_INIT (R485). -/
def State.sensorRelearn (s : State) (n : Fin 64) : State :=
  s.modTherm (fun x => { x with
    sen := upd x.sen n (fun y => { y with suspect := false, ofs := s.par P.THERM_OFS_INIT n, ofsRem := 0 }) })

end Sys2Proof.Machine
end

