-- ==== Sys2Proof/Machine/TimeBase.lean ====
section
/-! DEFINITION. Shelf time, the time-base state machine and the Sluice period (R29 to R47, R52). -/

namespace Sys2Proof.Machine

/-- DEV_TB_SOURCE (R29). -/
def State.tbSource (s : State) : Nat := s.parN P.DEV_TB_SOURCE 0

/-- The source names REFCLK (R29). -/
def State.usesRefclk (s : State) : Bool := s.tbSource == 1 || s.tbSource == 3

/-- The source names PTP (R29). -/
def State.usesPtp (s : State) : Bool := s.tbSource == 2 || s.tbSource == 3

/-- FREE with a source and DL_REF powered measures the reference (R31, first row). -/
def State.tbMeasure (s : State) : State :=
  if s.tb.state = .free ∧ s.tbSource ≠ 0 ∧ s.clk.dlRef then s.modTb (fun t => { t with state := .acquire }) else s

/-- The tick frequency is steered towards its reference by an error measured against it, one step of
0.01 ppm at a measurement, and with the correction of the oscillator never more than ±100 ppm off, unless steering is
frozen (R29 to R31, R476; DESIGN CHOICE, log entry 117). -/
def State.steerBy (s : State) (err : Int) : State :=
  let mhz : Nat := if s.usesRefclk then (if s.par P.DEV_REFCLK_FREQ 0 = 1 then 25 else 10) else 0
  if s.tb.frozen then s
  else s.modTb (fun t => { t with
    steer := clampI (-10000 - s.therm.osc) (10000 - s.therm.osc)
      (stepTo t.steer (Config.servoStep (s.parN P.DEV_TIME_SERVO_BW 0) mhz t.steer err)) })

/-- A new DEV_TB_SOURCE clears the lock bits and starts afresh; under INTERNAL the steering
goes back step by step (State.compensateTemp), which leaves temperature compensation alone (R29 to R31, last row). -/
def State.tbRestart (s : State) : State :=
  s.modTb (fun t => { t with
    state := if s.tbSource = 0 then .free else .acquire
    lockFreq := false, lockTime := false, holdover := false, frozen := false, syncGood := 0, syncAt := none, lastSync := none })

/-- Entry to HOLDOVER (R31, R40). -/
def State.tbHoldover (s : State) (cause : Nat) : State :=
  (s.modTb (fun t => { t with
    state := .holdover, holdover := true, frozen := true, lockFreq := false, lockTime := false
    refclkLost := t.refclkLost || cause == 0, ptpLost := t.ptpLost || cause != 0, syncGood := 0 })).log 0x0123 0 cause

/-- The slew still to be removed, in 1/5,000 ns (R36). -/
def State.slewLeft (s : State) : Int :=
  let gone : Int := 4 * ((s.clk.tick : Int) - s.tb.slewTick)
  match s.tb.slew with
  | .none => 0
  | .forward => s.tb.slewOfs * 5000 - gone
  | .backward => s.tb.slewOfs * 5000 + gone

/-- A slew ends; its change of rate is a stamped input (R36, R38). -/
def State.slewEnd (s : State) : State :=
  if s.tb.slew = .none then s else (s.modTb (fun t => { t with slew := .none, slewOfs := 0 })).stamp

/-- An offset between shelf time and its source is corrected: stepped, slewed or left alone. A step,
and a change of the slew rate, are
stamped inputs (R36, R38). -/
def State.correctOffset (s : State) (off : Int) : State :=
  if off.natAbs < 100 then s.slewEnd
  else if off > s.par P.DEV_TIME_STEP_LIMIT 0 * 1000 then
    let step := off.toNat / 4 * 4
    let s1 := (s.modTb (fun t => { t with slew := .none, slewOfs := 0 })).stamp
    { s1 with clk := { s1.clk with t5k := s1.clk.t5k + step / 4 * 5000 } }.log 0x0120 0 step
  else
    let dir : Slew := if off > 0 then .forward else .backward
    let s1 := s.modTb (fun t => { t with slew := dir, slewOfs := off, slewTick := s.clk.tick })
    if s.tb.slew = dir then s1 else s1.stamp.log 0x0121 0 off

/-- TB_LOCKED: `err` is the measured frequency error in 0.01 ppm for REFCLK, towards which the tick
is steered before and after the lock (R29); for PTP the criterion is 16 consecutive Sync
messages with an offset below 1 µs (R31, R34). A REFCLK beyond ±200 ppm is rejected. -/
def execTbLocked (ref : TbRef) (err : Int) (s : State) : Res :=
  let s := s.tbMeasure
  match ref with
  | .refclk =>
    if s.usesRefclk ∧ s.tb.state = .acquire then
      if err.natAbs > 20000 then .next (s.log 0x0125 0 err)
      else if err.natAbs < 10 then
        .next (((s.steerBy err).modTb (fun t => { t with state := .locked, lockFreq := true })).log 0x0122 0 s.tbSource)
      else .next (s.steerBy err)
    else .next (if s.usesRefclk ∧ s.tb.state = .locked then s.steerBy err else s)
  | .ptp =>
    if s.usesPtp ∧ 16 ≤ s.tb.syncGood ∧ s.tb.state = .acquire ∧ s.tbSource = 2 then
      .next ((s.modTb (fun t => { t with state := .locked, lockFreq := true, lockTime := true })).log 0x0122 0 2)
    else if s.usesPtp ∧ 16 ≤ s.tb.syncGood ∧ s.tb.state = .locked ∧ s.tb.lockTime = false then
      .next ((s.modTb (fun t => { t with lockTime := true })).log 0x0122 0 s.tbSource)
    else .next s

/-- TB_REFCLK_LOSS (R31, R40). A loss recognised outside LOCKED changes nothing and sets no lost bit
(DESIGN CHOICE, log entry 119; the
same for TB_SYNC_LOSS and TB_ANNOUNCE_TIMEOUT). -/
def execTbRefclkLoss (s : State) : Res :=
  .next (if s.usesRefclk ∧ s.tb.state = .locked then s.tbHoldover 0 else s)

/-- TB_SYNC_LOSS (R31). -/
def execTbSyncLoss (s : State) : Res :=
  .next (if s.usesPtp ∧ s.tb.state = .locked then s.tbHoldover 1 else s)

/-- TB_ANNOUNCE_TIMEOUT: the selected master is no longer heard (R31, R33). -/
def execTbAnnounceTimeout (s : State) : Res :=
  .next ((if s.usesPtp ∧ s.tb.state = .locked then s.tbHoldover 2 else s).modTb (fun t => { t with master := none, syncAt := none, lastSync := none }))

/-- TB_REFERENCE_RETURN (R31). -/
def execTbReferenceReturn (s : State) : Res :=
  .next (if s.tb.state = .holdover then
    s.modTb (fun t => { t with state := .locked, holdover := false, frozen := false, lockFreq := true
                               lockTime := s.tbSource == 2 })
  else s)

/-- TB_HOLDOVER_EXPIRY: frequency goes back to temperature compensation alone, in steps of 0.01 ppm
(R30, R31; State.compensateTemp). -/
def execTbHoldoverExpiry (s : State) : Res :=
  .next (if s.tb.state = .holdover then
    s.modTb (fun t => { t with state := .free, holdover := false, frozen := false, lockFreq := false, lockTime := false })
  else s)

/-- The order in which two data sets are compared (R33; PRESUMED, log entry 7): of one grandmaster by
the steps removed, of two by priority 1, class, accuracy, variance, priority 2 and identity. -/
def ptpKeys (d e : PtpSet) : List Nat :=
  if d.identity = e.identity then [d.steps] else [d.prio1, d.cls, d.accuracy, d.variance, d.prio2, d.identity]

/-- The first data set is the better one (R33). -/
def ptpBetter (d e : PtpSet) : Bool := decide (ptpKeys d e < ptpKeys e d)

/-- The selected master after an Announce: the better of it and the one before (R33). -/
def TimeBase.heard (t : TimeBase) (sender : Nat) (d : PtpSet) : Option (Nat × PtpSet) := match t.master with
  | none => some (sender, d)
  | some m => if m.1 = sender ∨ ptpBetter d m.2 then some (sender, d) else some m

/-- The offset, source minus shelf time, of a Sync that left the master at `t1` and was timestamped
at `t2` (R33): the path delay and
DEV_PTP_ASYM added to `t1` (PRESUMED, log entry 7). -/
def State.ptpOffset (s : State) (port : Fin 2) (t1 t2 : Int) : Int := t1 + s.tb.delay + s.par P.DEV_PTP_ASYM port - t2

/-- A measured offset: it counts towards lock below 1 µs, steers the frequency where PTP gives it,
and corrects shelf time (R29 to R31,
R35, R36). -/
def State.ptpMeasured (s : State) (off : Int) : State :=
  let s1 := s.modTb (fun t => { t with
    lastOffset := off, isSet := true, timeGap := false, syncAt := none
    syncGood := if off.natAbs < 1000 then t.syncGood + 1 else 0 })
  (if s.tbSource = 2 then s1.steerBy off else s1).correctOffset off

/-- A PTP message at the port, transport and domain that the parameters select, with the time-base
not in FREE (R29, R31, R33). -/
def State.ptpHears (s : State) (port : Fin 2) (domain : Nat) (m : PtpMsg) : Bool :=
  s.usesPtp && s.tb.state != .free && decide (port.val = s.parN P.DEV_PTP_PORT 0 ∧ m.transport = s.parN P.DEV_PTP_TRANSPORT 0 ∧
    domain = s.parN P.DEV_PTP_DOMAIN 0)

/-- A Sync that left the selected master at `t1` and arrived at `t2` (R33). -/
def State.ptpSync (s : State) (port : Fin 2) (t1 t2 : Int) : State :=
  (s.modTb (fun t => { t with lastSync := some (t1, t2) })).ptpMeasured (s.ptpOffset port t1 t2)

/-- The mean of a way there and a way back, in ns, rounded down (R33; PRESUMED, log entry 7). -/
def meanPath (a b : Int) : Int := (a + b) / 2

/-- PTP_EVENT_MESSAGE at the port, transport and domain that the parameters select: an Announce, a
Sync or its follow-up from the selected master, its answer to a delay request, or the answer of the
peer, each delay where its mechanism is selected (R29, R33). -/
def execPtpEventMessage (port : Fin 2) (domain : Nat) (m : PtpMsg) (s : State) : Res :=
  let s := s.tbMeasure
  let t2 : Int := (s.clk.shelf : Int) - m.age
  if s.usesPtp ∧ port.val = s.parN P.DEV_PTP_PORT 0 ∧ m.transport = s.parN P.DEV_PTP_TRANSPORT 0 ∧ domain = s.parN P.DEV_PTP_DOMAIN 0 then
    let mine : Bool := (s.tb.master.map (·.1)) == some m.sender
    match m.kind with
    | .announce d => .next (s.modTb (fun t => { t with master := t.heard m.sender d }))
    | .sync true _ => .next (if mine then s.modTb (fun t => { t with syncAt := some t2 }) else s)
    | .sync false t1 => .next (if mine then s.ptpSync port t1 t2 else s)
    | .followUp t1 => .next (match s.tb.syncAt with
      | some t2 => if mine then s.ptpSync port t1 t2 else s
      | none => s)
    | .delayResp t3 t4 => .next (match s.tb.lastSync with
      | some q => if mine ∧ s.parN P.DEV_PTP_DELAY_MECH 0 = 0 then s.modTb (fun t => { t with delay := meanPath (q.2 - q.1) (t4 - t3) }) else s
      | none => s)
    | .peerResp a1 a2 a3 a4 => .next (if s.parN P.DEV_PTP_DELAY_MECH 0 = 1 then s.modTb (fun t => { t with delay := meanPath (a2 - a1) (a4 - a3) })
      else s)
  else .next s

/-- TIME_SLEW_COMPLETE: the slew ends once the offset being removed is below 100 ns (R36, R38). -/
def execTimeSlewComplete (s : State) : Res :=
  .next (if s.slewLeft < 500000 ∧ -500000 < s.slewLeft then s.slewEnd else s)

/-- A stall of an activity reaches the Silt writer: after a full second without one, or within the
coalescing window of the stall counted
last (R52). -/
def State.stallCounts (s : State) (a : Fin 6) : Bool :=
  let quiet : Bool := match s.slu.lastStall[a] with
    | none => true
    | some t => decide (t + 250000000 ≤ s.clk.tick)
  let folds : Bool := match s.slu.counted[a] with
    | none => false
    | some t => decide (s.clk.tick ≤ t + s.parN P.SILT_CODE_WINDOW 0x0202 * 250000)
  quiet || folds

/-- What one activity's period leaves behind (R46, R47, R52): peak use, stalled periods and the event of a stall. -/
def State.sluiceClose (s : State) (a : Fin 6) : State :=
  let used := s.slu.used[a]
  let stalled := s.slu.stalled[a]
  let heard : Bool := stalled && s.stallCounts a
  let s' := { s with slu := { s.slu with
    peakUse := upd s.slu.peakUse a (max used)
    stallPeriods := upd s.slu.stallPeriods a (fun n => if stalled then bump n else n)
    lastStall := upd s.slu.lastStall a (fun t => if stalled then some s.clk.tick else t)
    counted := upd s.slu.counted a (fun t => if heard then some s.clk.tick else t) } }
  if heard then s'.log 0x0202 a.val 1 else s'

/-- SLUICE_PERIOD_BOUNDARY (R41, R43, R46, R47, R52): every activity's period closes and every
budget is whole again; Eddy
grants beyond its budget are logged and reported as a fault of the stem at the boundary that closes the
period (DESIGN CHOICE, log entry 134). -/
def execSluicePeriodBoundary (s : State) : Res :=
  let excess := s.slu.used[(0 : Fin 6)] > s.sluiceBudget 0
  let s1 := (fins 6).foldl State.sluiceClose s
  let s2 := if excess then (s1.log 0x0201 s.activeStem (s.slu.used[(0 : Fin 6)] : Nat)).stemFault 6 else s1
  .next (if s.hasActive then { s2 with slu := { s2.slu with used := Vector.replicate 6 0, stalled := Vector.replicate 6 false } }.stamp else s)

end Sys2Proof.Machine
end

