-- ==== Sys2Proof/Machine/Flags.lean ====
section
/-! DEFINITION. The status words that messages read, and the clearing of their W1C fields (R12, R40,
R86, R116, R145, R179, R180, R202,
R223, R252, R285, R461, R484, R511). -/

namespace Sys2Proof.Machine

/-- A word from its bits, bit 0 first. -/
def ofBits (l : List Bool) : Nat := (l.zipIdx.map (fun q => b2n q.1 * 2 ^ q.2)).sum

/-- `f` at an instance inside a table, 0 outside it. -/
def finI (n i : Nat) (f : Fin n → Int) : Int := if h : i < n then f ⟨i, h⟩ else 0

/-- `f` at an instance inside a table; the state unchanged outside it. -/
def finS (n i : Nat) (s : State) (f : Fin n → State) : State := if h : i < n then f ⟨i, h⟩ else s

/-- DEV_TIME_STATUS (R40). -/
def TimeBase.status (x : TimeBase) : Nat :=
  ofBits [x.isSet, x.lockFreq, x.lockTime, x.holdover, x.refclkLost, x.ptpLost, x.timeGap, x.slew != .none]

/-- The number LOOP_STATE reads (R117). -/
def LoopState.code : LoopState → Nat
  | .stopped => 0 | .starting => 1 | .running => 2 | .hiccupOff => 3 | .faulted => 4

/-- LOOP_STATUS (R116). -/
def State.loopStatus (s : State) (l : Fin 16) : Nat :=
  let f := s.loop[l].fl
  ofBits [f.clampHi, f.clampLo, f.awHold, f.spRamping, f.prebias, s.loop[l].ct.region == 4, s.loop[l].ct.ferrT.isSome, f.ferr, f.slopeTrip,
    f.vSat, f.vsSat, f.evalLate, s.armOf l]

/-- LOOP_PROT_STATUS (R145). -/
def State.protStatus (s : State) (l : Fin 16) : Nat :=
  let o := s.loop[l].oc
  let e := s.loop[l].eb
  ofBits [decide (0 < o.count), o.st == .off, o.st == .latched, decide (o.factor < 1024), o.shortT.isSome, o.startShort, e.pgPin, e.pg == 1,
    s.hasActive && s.shedBlocked l, s.shedBusy l, e.imbalance, (s.phasesOf l).any (fun (p : Fin 48) => s.ph[p].hot && s.ph[p].shed != .active), o.mode == 1]

/-- DEV_FAULT_STATUS (R148). -/
def State.faultStatus (s : State) : Nat := ofBits s.fault.pin.toList

/-- WEIR_STATUS (R223). -/
def State.weirStatus (s : State) (k : Fin 36) : Nat :=
  let x := s.weir.scope[k]
  let falling : Bool := decide (x.d ≠ 0) && ((s.capNow k).isNone || !(s.scopeOn k))
  ofBits [s.hasActive && s.scopeOn k, x.grant.isSome, x.isOver, decide (s.clk.tick < x.settleEnd), decide (0 < x.y1), decide (0 < x.y2),
    k.val == 0 && s.weir.hardArmed, falling, x.srcStale, x.exceeded, x.overrun]

/-- SUPPLY_STATUS (R511). -/
def Power.status (x : Power) : Nat :=
  ofBits [x.brown != .normal, x.brown == .resume, x.vbatLow, x.vauxhUv, x.warnSeen, x.mismatch]

/-- DEV_CHAIN_STATUS (R511). -/
def Chain.status (x : Chain) : Nat :=
  ofBits [x.head, x.addr != 0, x.mis, x.skew, x.peer[(0 : Fin 2)].up, x.peer[(1 : Fin 2)].up, x.conflict]

/-- A flag after a W1C write: a 1 clears it, a 0 has no effect (R12). -/
def w1c (old : Bool) (v i : Nat) : Bool := old && !(bit v i)

/-- DEV_FAULT_STATUS written: a latched pin whose bit is 1 is released when no source of it is active (R144). -/
def State.faultRelease (s : State) (v : Nat) : State :=
  (fins 4).foldl (fun (t : State) (m : Fin 4) =>
    if bit v m.val ∧ t.fault.hold = false ∧ t.fault.pin[m] ∧ t.faultSources m = 0 then
      { t with fault := { t.fault with pin := t.fault.pin.set m.val false m.isLt } }
    else t) s

/-- A message's value for a status parameter: the W1C fields whose bits are 1 are cleared, the rest
is ignored (R12, R435). -/
def State.w1cWrite (s : State) (p : Prm) (i v : Nat) : State :=
  if p.id = 0x0429 then s.modTb (fun x => { x with refclkLost := w1c x.refclkLost v 4, ptpLost := w1c x.ptpLost v 5 })
  else if p.id = 0x0C40 then
    finS 48 i s (fun k => s.modPh k (fun x => { x with
      limit := w1c x.limit v 6, maxduty := w1c x.maxduty v 7, refClamp := w1c x.refClamp v 8, rampClamp := w1c x.rampClamp v 9 }))
  else if p.id = 0x1041 then
    finS 16 i s (fun k => s.modFl k (fun x => { x with
      ferr := w1c x.ferr v 7, slopeTrip := w1c x.slopeTrip v 8, vSat := w1c x.vSat v 9, vsSat := w1c x.vsSat v 10
      evalLate := w1c x.evalLate v 11 }))
  else if p.id = 0x10A0 then
    finS 16 i s (fun k => (s.modOc k (fun x => { x with startShort := w1c x.startShort v 5 })).modEb k (fun x => { x with
      imbalance := w1c x.imbalance v 10 }))
  else if p.id = 0x0444 then s.faultRelease v
  else if p.id = 0x1C41 then
    finS 2 i s (fun k => s.bankCmd (.clearStatus k v))
  else if p.id = 0x1C4B then s.bankCmd (.clearBank v)
  else if p.id = 0x2441 then s.modHold (fun x => { x with noArmed := w1c x.noArmed v 5, autoFallback := w1c x.autoFallback v 7 })
  else if p.id = 0x2840 then
    finS 36 i s (fun k => s.modScope k (fun x => { x with exceeded := w1c x.exceeded v 9, overrun := w1c x.overrun v 10 }))
  else if p.id = 0x2C40 then finS 8 i s (fun k => s.modBf k (fun x => { x with learnDone := w1c x.learnDone v 15 }))
  else if p.id = 0x3042 then
    finS 64 i s (fun k => s.modPort k (fun x => { x with
      txStall := w1c x.txStall v 3, rateDown := w1c x.rateDown v 5 || s.rateBelow k, overrun := w1c x.overrun v 7 }))
  else if p.id = 0x5041 then
    s.modStems (fun x => { x with
      switched := w1c x.switched v 3, diverged := w1c x.diverged v 4, selfFault := w1c x.selfFault v 5
      resyncFailed := w1c x.resyncFailed v 6 })
  else if p.id = 0x5842 then
    finS 32 i s (fun k => s.modTimer k (fun x => { x with matched := w1c x.matched v 2, overrun := w1c x.overrun v 3 }))
  else if p.id = 0x040B then { s with chain := { s.chain with conflict := w1c s.chain.conflict v 6 } }
  else if p.id = 0x5C42 then { s with power := { s.power with warnSeen := w1c s.power.warnSeen v 4 } }
  else s

end Sys2Proof.Machine
end

