-- ==== Sys2Proof/Machine/Node.lean ====
section
/-! DEFINITION. Node conversations: opening, frames, replies, leases, retransmission, closing (R288 to R304). -/

namespace Sys2Proof.Machine

/-- OP of a message for Onolael (R289). -/
def InMsg.op (m : InMsg) : Nat := leAt m.frame.payload 0 1

/-- FLAGS of a message (R289). -/
def InMsg.flags (m : InMsg) : Nat := leAt m.frame.payload 1 1

/-- The body of a message (R289). -/
def InMsg.body (m : InMsg) : List Byte := m.frame.payload.drop 8

/-- A message is an OPEN of epoch 0 (R296). -/
def InMsg.isOpenReq (m : InMsg) : Bool := m.op == 1 && m.frame.epoch == 0

/-- A malformed message counted at the port it came by (R291). -/
def State.msgBad (s : State) (m : InMsg) : State := s.rxDiscard (portOfAddr (m.port * 32)) PortCount.bad

/-- The next message for Onolael is taken. -/
def State.inboxPop (s : State) : State := { s with nodes := { s.nodes with inbox := s.nodes.inbox.tail } }

/-- The body of the OK reply to an OPEN (R294). -/
def State.openBody (s : State) (a : Nat) : List Byte :=
  leBytes 4 (s.parN P.NODE_LEASE a) ++ leBytes 4 (s.parN P.NODE_PUB_PERIOD a) ++ leBytes 4 (s.parN P.NODE_STD_LIMIT a) ++ leBytes 2 a ++ leBytes 2 0

/-- The OK reply to an OPEN, with the body that the grant formed (R293). -/
def State.openReply (s : State) (a : Nat) (retx : Bool) : State :=
  let n := s.node a
  s.frameOut a ⟨1, a % 32, false, retx, n.epoch, 0, msgPayload 1 1 stOk n.nonce n.granted⟩

/-- The cause for which an OPEN is refused, 0 where it is not (R293, R314). -/
def State.openRefusal (s : State) (a : Nat) (body : List Byte) : Nat :=
  if leAt body 0 1 ≠ s.parN P.NODE_CLASS a then 1
  else if leAt body 1 1 ≠ 1 then 2
  else if s.parN P.NODE_UID_LOCK a ≠ 0 ∧ s.parN P.NODE_UID_LOCK a ≠ leAt body 4 8 then 3
  else if s.parN P.PORT_NODE_SLOTS a < leAt body 2 2 then 4
  else 0

/-- A new session for an address, with the epoch, the reply, the state in force and the records
(R292, R293, R299, R304). -/
def State.openGrant (s : State) (a nonce : Nat) (body : List Byte) : State :=
  let n := s.node a
  let k := n.k % 65535 + 1
  let epoch := s.nodes.bootGen * 65536 + k
  let uid := leAt body 4 8
  let fw := leAt body 12 4
  let s1 := if 0 < n.opens ∧ uid ≠ n.uid then s.log 0x0B04 a (lohi n.uid uid) else s
  let s2 := (s1.endSess a).modNode a (fun x => { x with
    isOpen := true, epoch := epoch, k := k, nonce := nonce, uid := uid, fwVer := fw, rxSeq := 0, win := 1, txSeq := 0
    lastRx := s.clk.tick, lastTx := s.clk.tick, opens := bump x.opens, req := none, waiting := [], granted := s.openBody a })
  let s3 := (s2.openReply a false).queueState a
  if n.isOpen then s3.log 0x0B02 a (lohi epoch n.epoch)
  else s3.log 0x0B01 a (epoch + leAt body 0 1 % 256 * 2 ^ 32 + fw % 65536 * 2 ^ 48 : Nat)

/-- An OPEN checked in the order of R293. -/
def State.openRequest (s : State) (a nonce : Nat) (body : List Byte) : State :=
  let n := s.node a
  if n.isOpen ∧ n.uid = leAt body 4 8 ∧ n.nonce = nonce then s.openReply a true
  else
    let c := s.openRefusal a body
    if c ≠ 0 then
      (((s.endSess a).nodeRaw a 0 (msgPayload 1 1 stRange nonce []))).log 0x0B03 a (lohi c (leAt body 4 4))
    else s.openGrant a nonce body

/-- NODE_OPEN_REQUEST: the next message, where it is an OPEN of epoch 0 (R293, R296). A ledger write
that is due, as that of
NODE_BOOT_GEN is after a start, comes before the reply (R292, R342); in BROWN_WARN the OPEN waits for it. -/
def execNodeOpenRequest (s : State) : Res :=
  match s.nodes.inbox with
  | [] => .next s
  | m :: _ =>
    .next (if s.hasActive ∧ m.frame.typ = 1 ∧ m.isOpenReq then
      (if m.flags ≠ 2 ∨ m.body.length ≠ 16 then s.inboxPop.msgBad m
       else if s.silt.ledgerDue ∧ s.brownWarn then s
       else (if s.silt.ledgerDue then s.ledgerWrite else s).inboxPop.openRequest m.addr m.frame.seq m.body)
    else s)

/-- NODE_MSG_RECEIVE: the next message, where it is not an OPEN of epoch 0, is checked and delivered
(R290, R291, R296). -/
def execNodeMsgReceive (s : State) : Res :=
  match s.nodes.inbox with
  | [] => .next s
  | m :: _ =>
    if s.hasActive = false ∨ m.frame.typ ≠ 1 ∨ m.isOpenReq then .next s
    else
      let r := s.inboxPop.nodeAccept m.addr m.frame.epoch m.frame.seq
      if r.2 = false then .next r.1
      else if 4 ≤ m.flags ∨ ([1, 3, 4, 0x10, 0x11, 0x12, 0x20, 0x21, 0x22, 0x23].contains m.op) = false then .next (r.1.msgBad m)
      else if bit m.flags 0 then .next { r.1 with nodes := { r.1.nodes with replies := r.1.nodes.replies ++ [m] } }
      else .next r.1

/-- A relay step answered by the node: its status to the host, the bytes relayed, the end at FW_END (R303, R429). -/
def State.relayReply (s : State) (a : Nat) (r : NodeReq) (sess seq status : Nat) : State :=
  match s.relayOf (a / 32) with
  | none => s
  | some x =>
    let bytes := if r.op = 0x22 ∧ status = stOk then x.bytes + (r.body.length - 4) else x.bytes
    let s1 := (s.setRelay (a / 32) (some { x with bytes := bytes })).answer sess seq stOk (leBytes 2 status ++ leBytes 2 0 ++ leBytes 4 bytes)
    if r.op = 0x23 then (s1.setRelay (a / 32) none).log 0x0B09 a (2 + status * 2 ^ 16 + bytes * 2 ^ 32 : Nat) else s1

/-- NODE_REPLY: the next accepted reply completes the request of its session that it names, or is discarded (R300). -/
def execNodeReply (s : State) : Res :=
  match s.nodes.replies with
  | [] => .next s
  | m :: ms =>
    if s.hasActive = false then .next s
    else
      let s1 := { s with nodes := { s.nodes with replies := ms } }
      match (s.node m.addr).req with
      | none => .next s1
      | some r =>
        if r.seq ≠ leAt m.frame.payload 4 4 ∨ m.frame.epoch ≠ (s.node m.addr).epoch then .next s1
        else
          let s2 := s1.modNode m.addr (fun x => { x with req := none })
          let s3 := match r.who with
            | .action => s2
            | .relay sess seq => s2.relayReply m.addr r sess seq (leAt m.frame.payload 2 2)
          .next (s3.nextReq m.addr)

/-- A message of a session is stamped and waits for Onolael, who will accept it (R296, R298). -/
def State.renewWaits (s : State) (a : Nat) : Bool :=
  s.nodes.inbox.any (fun m => m.addr == a && m.frame.typ == 1 && !m.isOpenReq && (s.nodeAccept a m.frame.epoch m.frame.seq).2)

/-- NODE_LEASE_LAPSE, the check once per millisecond: no frame accepted for NODE_LEASE, nor one
stamped that will be, the
session of an address ends; its output state is looked at (R298, R304, R307). -/
def execNodeLeaseLapse (a : Nat) (s : State) : Res :=
  let n := s.node a
  .next (if s.hasActive = false then s
  else if n.isOpen ∧ s.held (some n.lastRx) (s.parN P.NODE_LEASE a * 250000) ∧ s.renewWaits a = false then
    ((s.outScan a).endSess a).log 0x0B05 a (lohi n.epoch ((s.clk.tick - n.lastRx) / 250000 : Nat))
  else s.outScan a)

/-- NODE_KEEPALIVE_SEND: nothing sent for a quarter of NODE_LEASE (R298). -/
def execNodeKeepaliveSend (a : Nat) (s : State) : Res :=
  .next (if s.hasActive ∧ s.held (some (s.node a).lastTx) (s.parN P.NODE_LEASE a * 62500) then s.nodeSend a 3 0 [] else s)

/-- NODE_RETX_TIMEOUT: NODE_RETX_TIME after its last sending the request goes again with RETX, or fails (R300). -/
def execNodeRetxTimeout (a : Nat) (s : State) : Res :=
  match (s.node a).req with
  | none => .next s
  | some r =>
    if s.hasActive = false ∨ s.held (some r.sentAt) (s.parN P.NODE_RETX_TIME 0 * 250) = false then .next s
    else if r.resends < s.parN P.NODE_RETX_MAX 0 then
      .next ((s.modNode a (fun x => { x with req := some { r with resends := r.resends + 1, sentAt := s.clk.tick }, lastTx := s.clk.tick })).frameOut a
        ⟨1, a % 32, false, true, (s.node a).epoch, r.seq, msgPayload r.op 2 0 0 r.body⟩)
    else .next ((s.failReq a).nextReq a)

/-- NODE_CTRL CLOSE by a session that holds NODE of the port (R304, R313). -/
def execNodeCtrlClose (a : Nat) (k : Fin 8) (s : State) : Res :=
  .next (if s.hasActive = false then s
  else if isNode a then s.control k [8 + a / 32] (fun t => (t.closeSess a 3, stOk))
  else s.modHost (fun h => { h with ctl := stUnknown }))

/-- HOLDUP_STATE_RESEND: the HOLDUP in force to every member with a session (R302). -/
def execHoldupStateResend (s : State) : Res :=
  .next (if s.hasActive then
    (fins 64).foldl (fun (t : State) (m : Fin 64) => if t.memberUsed m then t.sendHoldup (t.parN P.SHARE_MBR_NODE m) else t) s
  else s)

end Sys2Proof.Machine
end

