-- ==== Sys2Proof/Machine/ParamRules.lean ====
section
/-! DEFINITION. Parameters as messages and images name them: instances, encodings, ranges, permits
(R12, R13, R423, R424, R434,
R435). -/

namespace Sys2Proof.Machine

/-- The event codes of the spec (R52, R90, R119, R149, R183, R205, R225, R254, R287, R314, R338,
R369, R410, R439, R463, R487, R514). -/
def isCode (c : Nat) : Bool :=
  [(0x0120, 0x0125), (0x0201, 0x0203), (0x0301, 0x0309), (0x0401, 0x040A), (0x0501, 0x0505), (0x0510, 0x0514), (0x0520, 0x0520),
   (0x0530, 0x0530), (0x0601, 0x0610), (0x0701, 0x0704), (0x0720, 0x0726), (0x0801, 0x080A), (0x0901, 0x090A), (0x0A01, 0x0A0C),
   (0x0B01, 0x0B0A), (0x0C01, 0x0C06), (0x0D01, 0x0D04), (0x0D10, 0x0D12), (0x0E01, 0x0E0B), (0x0F01, 0x0F03), (0x1001, 0x1009),
   (0x1101, 0x1107), (0x1110, 0x1110), (0x1201, 0x120C)].any (fun r => decide (r.1 ≤ c ∧ c ≤ r.2))

/-- The permit indices of R396. -/
def isPermit (i : Nat) : Bool := decide (i < 72 ∧ i ≠ 7)

/-- An instance is inside the parameter's index range (R434). -/
def Prm.instOk (p : Prm) (i : Nat) : Bool := match p.inst with
  | .one => i == 0
  | .upTo n => decide (i < n) && !(p.id == 0x5C41 && (i == 4 || i == 8 || i == 9))
  | .loopSet => decide (i / 8 < 16 ∧ i % 8 < 5)
  | .node => isNode i
  | .permit => isPermit i
  | .code => isCode i

/-- VALUE bytes (R423). -/
def PTy.size : PTy → Nat
  | .u64 => 8 | .s64 => 8 | .bytes16 => 16 | _ => 4

/-- The bits of a type (R423). -/
def PTy.width : PTy → Nat
  | .enum => 8 | .u8 => 8 | .u16 => 16 | .u32 => 32 | .u64 => 64 | .s16 => 16 | .s32 => 32 | .s64 => 64
  | .bitmap8 => 8 | .bitmap16 => 16 | .bitmap32 => 32 | .raw32 => 32 | .bytes16 => 128

/-- A signed type. -/
def PTy.isSigned : PTy → Bool
  | .s16 => true | .s32 => true | .s64 => true | _ => false

/-- The value that VALUE bytes spell (R423). -/
def PTy.read (t : PTy) (bs : List Byte) : Int := if t.isSigned then signed (8 * t.size) (leNat bs) else (leNat bs : Nat)

/-- The VALUE bytes of a value (R423). -/
def PTy.write (t : PTy) (v : Int) : List Byte := leBytes t.size (toWord (8 * t.size) v)

/-- VALUE is of the type's width: zero, or copies of the sign, above it (R423). -/
def PTy.fits (t : PTy) (v : Int) : Bool :=
  if t.isSigned then decide (-(2 ^ (t.width - 1) : Int) ≤ v ∧ v < 2 ^ (t.width - 1)) else decide (0 ≤ v ∧ v < 2 ^ t.width)

/-- The value of a type nearest to a value. -/
def PTy.clamp (t : PTy) (v : Int) : Int :=
  if t.isSigned then clampI (-(2 ^ (t.width - 1) : Int)) (2 ^ (t.width - 1) - 1) v else clampI 0 (2 ^ t.width - 1) v

/-- The defined bits of a bitmap parameter that a message writes; the others are ignored (R13). -/
def Prm.defined (p : Prm) : Nat :=
  if p.id = 0x0440 then 0xFFF
  else if p.id = 0x4404 then 0x7E
  else if p.id = 0x4802 then 7
  else if p.id = 0x0403 then 0x1F
  else if p.id = 0x0404 then 0x0F
  else if p.id = 0x3800 ∨ p.id = 0x3801 then 0x01FFFFFF
  else if p.id = 0x3C07 then 0x7F
  else 2 ^ 32 - 1

/-- A value as it is kept: a bitmap without its reserved bits (R13). -/
def Prm.norm (p : Prm) (v : Int) : Int := match p.ty with
  | .bitmap8 => ((v.toNat &&& p.defined : Nat) : Int)
  | .bitmap16 => ((v.toNat &&& p.defined : Nat) : Int)
  | .bitmap32 => ((v.toNat &&& p.defined : Nat) : Int)
  | _ => v

/-- The poll commands of R279. -/
def pollCmds : List Int := [0x78, 0x79, 0x7A, 0x7B, 0x7C, 0x7D, 0x7E, 0x88, 0x89, 0x8B, 0x8C, 0x8D, 0x8E, 0x96, 0x97]

/-- The limits a parameter's own row or rule sets beside its range, on a value in range at an
instance: descriptors (R13, R320),
EtherTypes and MAC addresses (R408), poll commands (R279), target addresses (R278), quiet ports
(R256), group 3 (R445), MAINT and
FIRMWARE (R409), signal kinds of a capture (R13, R359), node addresses (R257), always-recorded codes
(R352), steps of 100 ns (R170),
retained and wake words. -/
def Prm.ownRule (p : Prm) (i : Nat) (v : Int) : Bool :=
  if p.id = 0x3800 ∨ p.id = 0x3801 then decide (bits v.toNat 16 15 ≠ 3 ∧ bits v.toNat 20 17 < 10)
  else if p.id = 0x1C1B then v % 100 == 0
  else if p.id = 0x4803 then !([0x0800, 0x0806, 0x8100, 0x86DD, 0x88F7].contains v)
  else if p.id = 0x4801 then decide (v < 2 ^ 48) && !(bit v.toNat 40)
  else if p.id = 0x3021 then pollCmds.contains v
  else if p.id = 0x3018 then v != 0x0C
  else if p.id = 0x300B then v == 0 || decide (i < 32)
  else if p.id = 0x5000 then v == 0 || i != 3
  else if p.id = 0x4C01 then v == 0 || (i != 5 && i != 6)
  else if p.id = 0x2010 then v == 0xFFFF || isNode v.toNat
  else if p.id = 0x4403 then v == 0xFFFFFFFF || decide (1 ≤ v.toNat / 2 ^ 24 ∧ v.toNat / 2 ^ 24 ≤ 9)
  else if p.id = 0x4000 ∨ p.id = 0x4001 ∨ p.id = 0x4002 then !(alwaysCodes.contains i)
  else true

/-- A value is of the type's width, in the parameter's range and kept by its own rule (R13, R423). -/
def Prm.valueOk (p : Prm) (i : Nat) (v : Int) : Bool :=
  let x := p.norm v
  p.ty.fits v && (decide (p.lo ≤ x ∧ x ≤ p.hi) || p.extra.contains x) && p.ownRule i x

/-- A message may write the parameter (R435). -/
def Prm.writable (p : Prm) : Bool := match p.permit with
  | .image => false
  | .device => false
  | _ => true

end Sys2Proof.Machine
end

