-- ==== Sys2Proof/Machine/Control.lean ====
section
/-! DEFINITION. Control parameters: the permits and the effect of each value, and the controls of
loops, feeds and FAULT pins
(R109, R144, R160, R177, R404, R424). -/

namespace Sys2Proof.Machine

/-- FEED_CTRL at the stems (R157, R160, R168, R173): a command frame for the Bank die; TEST is BUSY
outside a feed reported CONNECTED
with REV set. -/
def State.feedControl (s : State) (f : Fin 2) (v : Nat) : State × Nat :=
  if v = 1 then (s.bankCmd (.enable f), stOk)
  else if v = 2 then (s.bankCmd (.disable f), stOk)
  else if v = 3 then (s.bankCmd (.clear f), stOk)
  else if v = 4 then (if s.bank.seen.feed[f].state = .connected ∧ s.seenBit f 4 then (s.bankCmd (.test f), stOk) else (s, stBusy))
  else (s.bankCmd (.resetEnergy f), stOk)

/-- The feed is the last one reported available (R175, R177). -/
def State.lastFeed (s : State) (f : Fin 2) : Bool := s.seenBit f 8 && !s.seenBit (1 - f) 8

/-- The permits that FEED_CTRL needs (R177). -/
def State.feedPermits (s : State) (f : Fin 2) (v : Nat) : List Nat := if v = 5 ∨ (v = 2 ∧ s.lastFeed f) then [0, 5] else [0]

/-- The permits that LOOP_CTRL needs: HOLDUP too for a STOP in set 4 (R109, R396, R424). -/
def State.loopPermits (s : State) (l : Fin 16) (v : Nat) : List Nat := if v = 2 ∧ s.inSet4 l then [0, 2] else [0]

/-- A control of one instance of `n`: its effect, UNKNOWN outside them. -/
def State.ctlAt (s : State) (n i : Nat) (f : Fin n → State × Nat) : State × Nat := if h : i < n then f ⟨i, h⟩ else (s, stUnknown)

/-- The effect and status of a control parameter written by session `k` (R404); `may`: it counts as
holding HOLDUP, as past
the commit point, where no permit is tested again (R403). -/
def State.ctlEffect (s : State) (k : Fin 8) (may : Bool) (p : Prm) (i v : Nat) : State × Nat :=
  if p.id = 0x1020 then
    s.ctlAt 16 i (fun l => if v = 1 then s.loopStart l else if v = 2 then s.loopStop l may else s.loopClear l)
  else if p.id = 0x1C30 then s.ctlAt 2 i (fun f => s.feedControl f v)
  else if p.id = 0x2420 then s.holdHandback
  else if p.id = 0x2C30 then
    s.ctlAt 8 i (fun b => if v = 1 then s.battClearCutoff b else if v = 2 then s.battCancelLearn b else s.battReestimate b)
  else if p.id = 0x3420 then (s.closeSess i 3, stOk)
  else if p.id = 0x4020 then s.siltClear k
  else if p.id = 0x4420 then
    s.ctlAt 48 i (fun n => (if v = 1 then s.spateReq 0 0 else s.slotLock k n (v == 2), stOk))
  else if p.id = 0x5020 then (if v = 1 then s.stemSwitch else if v = 2 then s.stemResync else s.stemRestartCtl)
  else if p.id = 0x5430 then s.ctlAt 8 i (fun d => s.thermClearLatch d k)
  else if p.id = 0x5431 then s.ctlAt 64 i (fun n => (s.sensorRelearn n, stOk))
  else if p.id = 0x5820 then
    s.ctlAt 32 i (fun t => (s.timerWrite t (if v = 1 then .start else if v = 2 then .stop else .clear), stOk))
  else (s, stOk)

/-- The permits an entry needs, the governing one last (R177, R396, R424). -/
def State.entryPermits (s : State) (p : Prm) (i : Nat) (v : Int) : List Nat := match p.permit with
  | .config =>
    if p.id = 0x1020 then (if h : i < 16 then s.loopPermits ⟨i, h⟩ v.toNat else [0]) else [0]
  | .holdup => [2]
  | .weir => [1]
  | .battery => [3]
  | .silt => [4]
  | .maint => [5]
  | .image => []
  | .device => []
  | .sched => if i % 8 = 4 then [0, 2] else [0]
  | .feedCtrl => if h : i < 2 then s.feedPermits ⟨i, h⟩ v.toNat else [0]
  | .spateCtrl => if v = 1 then [0] else [4]
  | .nodePort => [8 + i / 32]

/-- LOOP_CTRL START by a session that holds CONFIG (R109). -/
def execLoopCtrlStart (l : Fin 16) (k : Fin 8) (s : State) : Res := .next (s.control k [0] (fun t => t.loopStart l))

/-- LOOP_CTRL STOP by a session that holds CONFIG, and HOLDUP for a loop in set 4 (R109, R396). -/
def execLoopCtrlStop (l : Fin 16) (k : Fin 8) (s : State) : Res :=
  .next (s.control k (s.loopPermits l 2) (fun t => t.loopStop l (t.holds k 2)))

/-- LOOP_CTRL CLEAR by a session that holds CONFIG (R109). -/
def execLoopCtrlClear (l : Fin 16) (k : Fin 8) (s : State) : Res := .next (s.control k [0] (fun t => t.loopClear l))

/-- DEV_FAULT_STATUS written by a session that holds CONFIG (R144, R148). -/
def execFaultStatusRelease (k : Fin 8) (v : Nat) (s : State) : Res := .next (s.control k [0] (fun t => (t.faultRelease v, stOk)))

/-- FEED_CTRL ENABLE (R160). -/
def execFeedCtrlEnable (f : Fin 2) (k : Fin 8) (s : State) : Res := .next (s.control k (s.feedPermits f 1) (fun t => t.feedControl f 1))

/-- FEED_CTRL DISABLE, with MAINT too for the last available feed (R160, R177). -/
def execFeedCtrlDisable (f : Fin 2) (k : Fin 8) (s : State) : Res := .next (s.control k (s.feedPermits f 2) (fun t => t.feedControl f 2))

/-- FEED_CTRL CLEAR (R160, R168). -/
def execFeedCtrlClear (f : Fin 2) (k : Fin 8) (s : State) : Res := .next (s.control k (s.feedPermits f 3) (fun t => t.feedControl f 3))

/-- FEED_CTRL TEST (R173). -/
def execFeedCtrlTest (f : Fin 2) (k : Fin 8) (s : State) : Res := .next (s.control k (s.feedPermits f 4) (fun t => t.feedControl f 4))

/-- FEED_CTRL RESET_ENERGY, with MAINT too (R157, R177). -/
def execFeedCtrlResetEnergy (f : Fin 2) (k : Fin 8) (s : State) : Res := .next (s.control k (s.feedPermits f 5) (fun t => t.feedControl f 5))

end Sys2Proof.Machine
end

