-- ==== Sys2Proof/Machine/HostSess.lean ====
section
/-! DEFINITION. Sessions and permits: grants, the end of a holding, the end of a session, binding
and freeing a pair (R382, R388 to
R400). -/

namespace Sys2Proof.Machine

/-- An epoch: NODE_BOOT_GEN x 65,536 + `k` (R292, R391, R398). -/
def State.epochOf (s : State) (k : Nat) : Nat := s.nodes.bootGen * 65536 + k

/-- The count after `k`, from 1 and wrapping from 65,535 to 1 (R292, R398). -/
def nextK (k : Nat) : Nat := if 65535 ≤ k then 1 else k + 1

/-- A permit granted to a session for `lease` seconds at most (R397, R398). -/
def State.grantPermit (s : State) (k : Fin 8) (i lease : Nat) : State :=
  let p := s.permit i
  let l := min lease (s.parN P.PERMIT_LEASE_MAX i)
  let n := nextK p.k
  (s.setPermit i ⟨some k, s.epochOf n, n, l * 1000, s.clk.tick, bump p.grants⟩).log 0x0E04 i
    (k.val + l * 65536 + s.epochOf n * 2 ^ 32 : Nat)

/-- An entry needs a permit. -/
def State.entryNeeds (s : State) (i : Nat) (e : Entry) : Bool := match findParam e.id with
  | none => false
  | some p => (s.entryPermits p e.inst e.val).contains i

/-- The staged entries that need a permit are discarded, and STAGE_LOST is set (R400). -/
def State.stageDrop (s : State) (k : Fin 8) (i : Nat) : State :=
  s.modSess k (fun x => { x with staging := x.staging.filter (fun e => !(s.entryNeeds i e)), stageLost := true })

/-- A relay's host loses the NODE permit of its port: the step outstanding is answered ABANDONED and
the relay ends (R303, R400). -/
def State.relayLapse (s : State) (p : Nat) : State := match s.relayOf p with
  | none => s
  | some r =>
    let n := s.node r.addr
    let own (q : NodeReq) : Bool := match q.who with
      | .relay _ _ => true
      | .action => false
    let s1 := (n.waiting.filter own).foldl (fun (t : State) q => t.failHost q)
      (s.modNode r.addr (fun x => { x with waiting := x.waiting.filter (fun q => !(own q)) }))
    let s2 := match n.req with
      | none => s1
      | some q => if own q then (((s1.modNode r.addr (fun x => { x with req := none })).failHost q).nextReq r.addr) else s1
    s2.relayAbandon p 0

/-- A firmware transfer is abandoned; a block held during BROWN_WARN is answered ABANDONED (R400, R507). -/
def State.fwAbandon (s : State) : State :=
  let t := s.modFirm (fun f => { f with load := none })
  match s.firm.load with
  | none => t
  | some x => match x.owed with
    | none => t
    | some q => t.answer x.sess.val q stAbandoned []

/-- The standing order at the end of a holding by session `k` (R400, R432, R507). -/
def State.standingOrder (s : State) (k : Fin 8) (i : Nat) : State :=
  let ends (t : State) : State := t.modHost (fun h => { h with load := h.load.filter (fun x => x.sess != k) })
  if i = 0 ∨ i = 5 then ends s
  else if i = 1 then s.weirLapse
  else if i = 2 then s.tryHandback
  else if i = 6 then s.fwAbandon
  else if 8 ≤ i then s.relayLapse (i - 8)
  else s

/-- A holding ends: cause 1 release, 2 lapse, 3 session end, 4 taken (R400, R410, R414, R433). -/
def State.permitEnd (s : State) (i cause : Nat) : State :=
  let p := s.permit i
  match p.holder with
  | none => s
  | some k =>
    let s1 := ((s.stageDrop k i).setPermit i { p with holder := none, lease := 0 }).log 0x0E05 i
      (cause + k.val * 256 + p.epoch * 2 ^ 32 : Nat)
    let s2 := s1.standingOrder k i
    let pt : Fin 4 := ⟨(s.sess k).port % 4, Nat.mod_lt _ (by omega)⟩
    let s3 := if cause = 1 then s2 else s2.modHp pt (fun x => { x with permitLost := true })
    if cause = 2 ∨ cause = 4 then (s3.notice k 0x8004 (leBytes 1 i ++ leBytes 1 cause ++ leBytes 2 0 ++ leBytes 4 p.epoch)).1 else s3

/-- The permits a session holds. -/
def State.heldBy (s : State) (k : Fin 8) : List Nat := (s.host.permit.filter (fun q => q.2.holder == some k)).map (·.1)

/-- A session starts anew in a pair that stays bound (R392). -/
def Sess.claimed (x : Sess) (now : Nat) : Sess :=
  { Sess.reset with state := .claimed, port := x.port, ep := x.ep, since := now, noticeLost := x.noticeLost }

/-- A pair is freed: its mailboxes are emptied and the requests rung in them dropped (R382, R392). -/
def State.unbind (s : State) (k : Fin 8) : State :=
  s.modHost (fun h => { h with
    sess := upd h.sess k (fun x => { Sess.reset with noticeLost := x.noticeLost })
    mb := upd (upd h.mb (mbReq k) (fun _ => Mbox.reset)) (mbNotice k) (fun _ => Mbox.reset)
    rung := h.rung.filter (fun q => q.1 != mbReq k) })

/-- A session that is not, or no longer, OPEN leaves PROVING or OPEN: CLAIMED on SPI, FREE on Ethernet (R392). -/
def State.toClaimed (s : State) (k : Fin 8) : State :=
  if 2 ≤ (s.sess k).port then s.modSess k (fun x => x.claimed s.clk.tick) else s.unbind k

/-- What ends with an OPEN session: its permits, staging area, subscriptions and transfers;
SESSION_ENDED and the record (R393). -/
def State.sessOver (s : State) (k : Fin 8) (cause : Nat) : State :=
  let x := s.sess k
  if x.state ≠ .isOpen then s
  else
    let s1 := (s.heldBy k).foldl (fun (t : State) i => t.permitEnd i 3) s
    let s2 := (s1.modPool (fun p => { p with subs := p.subs.filter (fun u => u.sess != k.val) })).modHost (fun h => { h with
      load := h.load.filter (fun q => q.sess != k) })
    let pt : Fin 4 := ⟨x.port % 4, Nat.mod_lt _ (by omega)⟩
    (s2.modHp pt (fun y => { y with ended := true })).log 0x0E02 k.val (cause + x.epoch * 2 ^ 32 : Nat)

/-- An OPEN session ends: cause 1 close, 2 lease lapse, 3 replaced, 4 key load (R392, R393). -/
def State.sessEnd (s : State) (k : Fin 8) (cause : Nat) : State :=
  if (s.sess k).state = .isOpen then (s.sessOver k cause).toClaimed k else s

/-- RELEASE frees a pair, its session ended first with cause 5 (R384, R392). -/
def State.sessRelease (s : State) (k : Fin 8) : State :=
  if (s.sess k).state = .free then s else (s.sessOver k 5).unbind k

/-- A pair bound to a port and endpoint (R382). -/
def State.bindPair (s : State) (k : Fin 8) (port : Nat) (ep : Endpoint) : State :=
  (s.unbind k).modSess k (fun x => { x with state := .claimed, port := port, ep := ep, since := s.clk.tick })

/-- SESSION_CLAIM_TIMEOUT: 10 s in CLAIMED with no session opened (R392). -/
def execSessionClaimTimeout (k : Fin 8) (s : State) : Res :=
  .next (if s.hasActive ∧ (s.sess k).state = .claimed ∧ (s.sess k).since + 2500000000 ≤ s.clk.tick then s.unbind k else s)

/-- SESSION_PROVE_TIMEOUT: 1 s in PROVING with no proof (R392). -/
def execSessionProveTimeout (k : Fin 8) (s : State) : Res :=
  .next (if s.hasActive ∧ (s.sess k).state = .proving ∧ (s.sess k).since + 250000000 ≤ s.clk.tick then s.toClaimed k else s)

/-- SESSION_LEASE_LAPSE: no request accepted for HOST_SESSION_LEASE (R393). -/
def execSessionLeaseLapse (k : Fin 8) (s : State) : Res :=
  .next (if s.hasActive ∧ (s.sess k).leaseAt + s.parN P.HOST_SESSION_LEASE 0 * 250000 ≤ s.clk.tick then s.sessEnd k 2 else s)

/-- PERMIT_LAPSE: a lease has run for its length (R397). -/
def execPermitLapse (i : Nat) (s : State) : Res :=
  .next (if s.hasActive ∧ (s.permit i).at_ + (s.permit i).lease * 250000 ≤ s.clk.tick then s.permitEnd i 2 else s)

/-- KEY_LOCKOUT_END: 60 s after the lock-out (R391). -/
def execKeyLockoutEnd (k : Fin 8) (s : State) : Res :=
  .next (if s.hasActive ∧ (s.host.key[k]).locked s.clk.tick = false then
    s.modHost (fun h => { h with key := upd h.key k (fun x => { x with lockAt := none }) })
  else s)

end Sys2Proof.Machine
end

