-- ==== Sys2Proof/Machine/CrossRules.lean ====
section
/-! DEFINITION. The rules over several parameters that an image or a commit must keep, on the values
it would leave (R402, R437), and
the state rules of a commit (R55, R255). -/

namespace Sys2Proof.Machine

/-- A value of a set of values that is never negative. -/
def cN (c : SMap Int) (p : Prm) (i : Nat) : Nat := (cfgGet c p i).toNat

/-- The instances of a parameter that differ from their default. -/
def cInst (c : SMap Int) (p : Prm) : List Nat := (c.filter (fun q => q.1 / 65536 == p.id)).map (fun q => q.1 % 65536)

/-- The phases of a loop (R54). -/
def cPhases (c : SMap Int) (l : Nat) : List Nat := (List.range 48).filter (fun p => cN c P.PHASE_LOOP p == l)

/-- A loop is enabled (R538). -/
def cOn (c : SMap Int) (l : Nat) : Bool := cN c P.LOOP_ENABLE l == 1

/-- The enabled loops. -/
def cLoops (c : SMap Int) : List Nat := (List.range 16).filter (cOn c)

/-- LOOP_SS_DEV in force in 0.5 %: 0 with spread spectrum off (R73, R95). -/
def cDev (c : SMap Int) (l : Nat) : Nat := if cN c P.LOOP_SS_MODE l = 0 then 0 else cN c P.LOOP_SS_DEV l

/-- All values of a list are equal. -/
def allSame (v : List Nat) : Bool := match v with
  | [] => true
  | a :: as => as.all (· == a)

/-- No value stands twice in a list. -/
def noRepeat : List Nat → Bool
  | [] => true
  | a :: as => !(as.contains a) && noRepeat as

/-- Each value stands below the next one by at least `gap`, and strictly. -/
def rising (gap : Int) : List Int → Bool
  | [] => true
  | a :: as => (match as with
    | [] => true
    | b :: _ => decide (a < b ∧ a + gap ≤ b)) && rising gap as

/-- Phases and voltage-sense inputs (R54, R65, R75, R87). -/
def rulePhases (c : SMap Int) : Bool :=
  (List.range 48).all (fun p =>
    !(cN c P.PHASE_SENSE p == 1 && cN c P.PHASE_MODE p == 2) &&
    decide (cN c P.PHASE_ILIM p * cN c P.PHASE_CS_RSENSE p ≤ 150000 / 2 ^ cN c P.PHASE_CS_GAIN p * 1000) &&
    decide (cN c P.PHASE_BLANK p ≤ cN c P.PHASE_TON_MIN p)) &&
  (List.range 16).all (fun l =>
    decide ((cPhases c l).length ≤ 24) && allSame ((cPhases c l).map (cN c P.PHASE_MODE)) &&
    allSame ((cPhases c l).map (cN c P.PHASE_BIDIR_FWD))) &&
  (List.range 16).all (fun v => decide (cN c P.PHASE_VS_UVS v + 2 * cN c P.PHASE_VS_HYST v < cN c P.PHASE_VS_OVS v))

/-- Spread spectrum and sample rate (R74, R95). -/
def ruleRates (c : SMap Int) : Bool :=
  (List.range 16).all (fun l =>
    let f := cN c P.LOOP_FSW l
    let d := cDev c l
    let n := cN c P.LOOP_SAMPLE_DIV l
    (cN c P.LOOP_SS_MODE l == 0 ||
      decide (cN c P.LOOP_SS_RATE l * 2000 ≤ f ∧ f * (200 + d) ≤ 400000000 ∧ 4000000 ≤ f * (200 - d))) &&
    (!(cOn c l) || decide (20000 * 200 * n ≤ f * (200 - d) ∧ f * (200 + d) ≤ 1000000 * 200 * n)))

/-- The samples of a loop that can fall in one Sluice period, ⌈f x 10 µs⌉ (R48, R95). -/
def cEvals (c : SMap Int) (l : Nat) : Nat := ceilDiv (cN c P.LOOP_FSW l * (200 + cDev c l)) (200 * cN c P.LOOP_SAMPLE_DIV l * 100000)

/-- E of R48. -/
def cLoad (c : SMap Int) : Nat := ((cLoops c).map (cEvals c)).sum

/-- Eddy admission (R48): at most 80 evaluations, within Eddy's grants, no sample waits past the next of its loop. -/
def ruleBudget (c : SMap Int) : Bool :=
  let m := (cLoops c).length
  decide (cLoad c ≤ 80 ∧ 22 * cLoad c ≤ 75 * cN c P.SLUICE_SHARE_EDDY 0) &&
  (cLoops c).all (fun l => decide ((m - 1) * 125 * (cN c P.LOOP_FSW l * (200 + cDev c l)) < 1000000000 * 200 * cN c P.LOOP_SAMPLE_DIV l))

/-- Loops (R92, R98, R103, R128, R132, R140, R146, R538) and coefficient sets (R100). -/
def ruleLoops (c : SMap Int) : Bool :=
  (List.range 16).all (fun l =>
    decide (cN c P.EBB_SHED_TH l < cN c P.EBB_ADD_TH l) &&
    (cN c P.LOOP_OC_WINDOW l == 0 || decide (cN c P.LOOP_OC_COUNT l ≤ cN c P.LOOP_OC_WINDOW l)) &&
    (!(cOn c l) ||
      (let vs : Bool := cN c P.LOOP_VS_SEL l != 255
       let hu : Bool := cN c P.LOOP_HOLDUP_EN l == 1
       let knee : Bool := cN c P.LOOP_FB_KNEE l != 0
       let r := cN c P.SCHED_REGIONS l
       let th := [cfgGet c P.SCHED_TH1 l, cfgGet c P.SCHED_TH2 l, cfgGet c P.SCHED_TH3 l].take (r - 1)
       (vs || cN c P.LOOP_KIND l == 1) && (vs || !hu || cN c P.LOOP_HU_KIND l == 1) &&
       decide (cfgGet c P.LOOP_ICMD_MIN l ≤ cfgGet c P.LOOP_ICMD_MAX l) &&
       (decide (0 ≤ cfgGet c P.LOOP_ICMD_MIN l) || (cPhases c l).all (fun p => cN c P.PHASE_MODE p == 2)) &&
       rising (2 * cfgGet c P.SCHED_HYST l) th && (cN c P.SCHED_VAR l != 3 || cN c P.LOOP_VS_AUX l != 255) &&
       (cN c P.LOOP_OC_MODE l == 0 || (vs && knee)) && (!hu || cN c P.LOOP_OC_MODE_HU l == 0 || !hu || (vs && knee)) &&
       decide (cfgGet c P.LOOP_PG_LO l ≤ cfgGet c P.LOOP_PG_HI l)))) &&
  noRepeat (((cLoops c).map (cN c P.LOOP_VS_SEL)).filter (· != 255)) &&
  (cInst c P.SCHED_A1 ++ cInst c P.SCHED_A2).all (fun i =>
    decide ((cfgGet c P.SCHED_A2 i).natAbs < 2 ^ 24 ∧ ((cfgGet c P.SCHED_A1 i).natAbs : Int) < 2 ^ 24 + cfgGet c P.SCHED_A2 i))

/-- The Sluice shares (R44) and the feeds (R159, R166, R169, R170). -/
def ruleFeeds (c : SMap Int) : Bool :=
  ((fins 6).map (fun a => cN c (shareParam a) 0)).sum == 100 &&
  (List.range 2).all (fun f =>
    let r := cN c P.FEED_RSHUNT f
    decide (cN c P.FEED_UV f + cN c P.FEED_UV_HYST f + cN c P.FEED_OV_HYST f < cN c P.FEED_OV f ∧
      cN c P.FEED_FAST_TRIP f * r ≤ 200000000 ∧
      2000000 ≤ cN c P.FEED_REV_TRIP f * r ∧ cN c P.FEED_REV_TRIP f * r ≤ 50000000 ∧
      1000000 ≤ cN c P.FEED_OR_ON f * r ∧ cN c P.FEED_OR_ON f * r ≤ 50000000 ∧
      cN c P.FEED_UV f ≤ cN c P.FEED_LOSS_LEVEL f))

/-- Confluence members (R184, R283) and Weir (R209, R211, R224). -/
def ruleShare (c : SMap Int) : Bool :=
  let nodes := ((List.range 64).map (cN c P.SHARE_MBR_NODE)).filter (· != 0xFFFF)
  (List.range 64).all (fun m =>
    cN c P.SHARE_MBR_GROUP m == 255 || (cN c P.SHARE_MBR_NODE m != 0xFFFF && cN c P.SHARE_MBR_IPT m != 0xFFFFFFFF)) &&
  noRepeat nodes && nodes.all (fun a => cN c P.PORT_MODE (a / 32) != 2) &&
  (List.range 36).all (fun k => cN c P.WEIR_STD_CAP k == 0xFFFFFFFF || decide (cN c P.WEIR_STD_CAP k ≤ cN c P.WEIR_CAP_MAX k)) &&
  (cInst c P.WEIR_NODE_GROUP).all (fun a => cN c P.WEIR_NODE_PPT a != 0xFFFFFFFF) &&
  (List.range 16).all (fun l =>
    decide (cfgGet c P.WEIR_SHAVE_IMAX l ≤ max 0 (cfgGet c P.LOOP_ICMD_MAX l)) &&
    (cN c P.WEIR_SHAVE_EN l != 1 || (decide (cfgGet c P.WEIR_SHAVE_IMAX l ≤ cfgGet c P.LOOP_ICMD_MAX l) && cN c P.LOOP_KIND l == 1 && cN c P.HOLD_STRING l != 255)))

/-- A chemistry slot keeps R232. -/
def ruleChem (c : SMap Int) (k : Nat) : Bool :=
  let soc := (List.range 32).map (fun p => cfgGet c P.BATT_OCV_SOC (k * 32 + p))
  soc.head? == some 0 && soc.getLast? == some 1000 && rising 0 soc &&
  rising 0 ((List.range 4).map (fun q => cfgGet c P.BATT_OCV_TCOL (k * 4 + q))) &&
  (List.range 4).all (fun q => (List.range 31).all (fun p =>
    decide (cfgGet c P.BATT_OCV_V (k * 128 + p * 4 + q) ≤ cfgGet c P.BATT_OCV_V (k * 128 + (p + 1) * 4 + q))))

/-- A chemistry slot is in use: a value of it differs from its default, or an enabled string names it. -/
def chemUsed (c : SMap Int) (k : Nat) : Bool :=
  (cInst c P.BATT_OCV_SOC).any (fun i => i / 32 == k) || (cInst c P.BATT_OCV_TCOL).any (fun i => i / 4 == k) ||
  (cInst c P.BATT_OCV_V).any (fun i => i / 128 == k) || (List.range 8).any (fun b => cN c P.BATT_ENABLE b == 1 && cN c P.BATT_CHEM b == k)

/-- Battery strings (R226, R232, R243). -/
def ruleBatt (c : SMap Int) : Bool :=
  (List.range 8).all (fun b =>
    decide (cN c P.BATT_V_CUTOFF b < cN c P.BATT_V_EMPTY b ∧ cN c P.BATT_V_EMPTY b < cN c P.BATT_V_FULL b) &&
    (cN c P.BATT_ENABLE b == 0 ||
      ((List.range 16).any (fun e => cN c P.BATT_V_PT (b * 16 + e) != 0xFFFFFFFF) &&
       (cN c P.BATT_I_SRC b == 0 || cN c P.BATT_I_PT b != 0xFFFFFFFF)))) &&
  (List.range 4).all (fun k => !(chemUsed c k) || ruleChem c k)

/-- Some port is DUAL. -/
def cDual (c : SMap Int) : Bool := (cInst c P.PORT_REDUND).any (fun p => cN c P.PORT_REDUND p == 1)

/-- Field ports (R276, R278, R286) and the group modes (R445). -/
def rulePorts (c : SMap Int) : Bool :=
  (List.range 64).all (fun p => decide (cN c P.PORT_RATE_MAX p ≤ cN c P.PORT_RATE_MIN p)) &&
  (List.range 32).all (fun k =>
    let e := 2 * k
    let o := 2 * k + 1
    let same (q : Prm) : Bool := cN c q e == cN c q o
    (cN c P.PORT_REDUND e == 0 && cN c P.PORT_REDUND o == 0) ||
    (same P.PORT_REDUND && same P.PORT_MODE && same P.PORT_TOPOLOGY && same P.PORT_RATE_MAX && same P.PORT_RATE_MIN &&
     cN c P.PORT_MODE e == 1 && cN c P.PORT_TOPOLOGY e == 0)) &&
  (!(cDual c) || cN c P.STEM_GROUP_MODE 1 == 1) &&
  (List.range 64).all (fun p => noRepeat (((cInst c P.PORT_PMB_ADDR).filter (fun i => i / 16 == p)).map (cN c P.PORT_PMB_ADDR))) &&
  (cInst c P.PORT_POLL_TARGET).all (fun i =>
    decide (cN c P.PORT_POLL_POINT i < cN c P.PORT_NODE_SLOTS (i / 64 * 32 + cN c P.PORT_POLL_TARGET i + 1)))

/-- The Pool blocks as (first slot, slots) (R258, R317). -/
def cBlocks (c : SMap Int) : List (Nat × Nat) :=
  ((cInst c P.PORT_NODE_SLOTS).map (fun a => (cN c P.PORT_NODE_BASE a, cN c P.PORT_NODE_SLOTS a))) ++
  ((List.range 3).filter (fun k => cN c P.POOL_SRC_SLOTS k != 0)).map (fun k => (cN c P.POOL_SRC_BASE k, cN c P.POOL_SRC_SLOTS k))

/-- Blocks are disjoint from a first one on. -/
def apart : List (Nat × Nat) → Bool
  | [] => true
  | a :: as => as.all (fun b => decide (a.1 + a.2 ≤ b.1 ∨ b.1 + b.2 ≤ a.1)) && apart as

/-- The descriptor of a slot in a set of values (R320). -/
def cDesc (c : SMap Int) (k : Nat) : Nat := if k < 65536 then cN c P.POOL_DESC_LO k else cN c P.POOL_DESC_HI (k - 65536)

/-- A slot that a consumer names has its quantity (R322). -/
def cQty (c : SMap Int) (q : Nat) (slot : Nat) : Bool := slot == 0xFFFFFFFF || bits (cDesc c slot) 20 17 == q

/-- Every instance of a consumer's parameter names a slot of its quantity (R322). -/
def cConsumer (c : SMap Int) (p : Prm) (q : Nat) : Bool := (cInst c p).all (fun i => cQty c q (cN c p i))

/-- A limit set keeps R324 under a format: enabled thresholds in order and apart; none of L and LL under BITS. -/
def cLimitSet (c : SMap Int) (k fmt : Nat) : Bool :=
  let fl := cN c P.LIMIT_FLAGS k
  if fmt = 2 then !(bit fl 5) && !(bit fl 6)
  else
    let r (p : Prm) : Int := readFmt fmt (cN c p k)
    let on := ([(6, r P.LIMIT_LL), (5, r P.LIMIT_L), (4, r P.LIMIT_H), (3, r P.LIMIT_HH)].filter (fun q => bit fl q.1)).map (fun q => q.2)
    rising (2 * cfgGet c P.LIMIT_HYST k) on

/-- The Pool (R258, R316, R317, R322, R324). -/
def rulePool (c : SMap Int) : Bool :=
  let bl := cBlocks c
  bl.all (fun b => decide (b.1 + b.2 ≤ 0x20000)) && apart bl &&
  cConsumer c P.SHARE_MBR_IPT 2 && cConsumer c P.BATT_I_PT 2 && cConsumer c P.HOLD_LOAD_PT 3 && cConsumer c P.WEIR_SEG_PT 3 &&
  cConsumer c P.WEIR_NODE_PPT 3 && cConsumer c P.BATT_V_PT 1 && cConsumer c P.BATT_T_PT 4 &&
  (cInst c P.NODE_STATE_PT).all (fun a =>
    let d := cDesc c (cN c P.PORT_NODE_BASE a + cN c P.NODE_STATE_PT a)
    decide (cN c P.PORT_NODE_SLOTS a ≤ cN c P.NODE_STATE_PT a) || (bits d 20 17 == 9 && bits d 16 15 == 0 && bits d 24 21 == 0)) &&
  ((cInst c P.POOL_DESC_LO).map (cN c P.POOL_DESC_LO) ++ (cInst c P.POOL_DESC_HI).map (cN c P.POOL_DESC_HI)).all (fun d =>
    !(bit d 14) || cLimitSet c (bits d 13 0) (bits d 16 15))

/-- A signal of R359. -/
def isSignal (v : Nat) : Bool :=
  let i := v % 2 ^ 24
  match v / 2 ^ 24 with
  | 1 => decide (i < 16) | 2 => decide (i < 48) | 3 => decide (i < 16) | 4 => decide (i < 16) | 5 => decide (i < 2) | 6 => decide (i < 2)
  | 7 => i == 0 | 8 => decide (i < 0x20000) | 9 => i == 0 | _ => false

/-- Spate (R359), sensors (R467), timers (R479). -/
def ruleRest (c : SMap Int) : Bool :=
  (cInst c P.SPATE_SIG).all (fun e => isSignal (cN c P.SPATE_SIG e)) && (cN c P.SPATE_ENABLE 0 == 0 || !(cInst c P.SPATE_SIG).isEmpty) &&
  (List.range 64).all (fun n => !(bit (cN c P.THERM_NBR n) n)) &&
  (List.range 32).all (fun t => decide (cN c P.TIMER_INTERVAL t ≤ cN c P.TIMER_RELOAD t))

/-- The first rule over several parameters that a set of values breaks: OK, RANGE, or NO_BUDGET for R48 (R402, R437). -/
def crossStatus (c : SMap Int) : Nat :=
  if rulePhases c && ruleRates c && ruleLoops c && ruleFeeds c && ruleShare c && ruleBatt c && rulePorts c && rulePool c && ruleRest c then
    (if ruleBudget c then stOk else stNoBudget)
  else stRange

/-- Two sets of values differ in an instance of a parameter. -/
def cDiff (a b : SMap Int) (p : Prm) (i : Nat) : Bool := cfgGet a p i != cfgGet b p i

/-- A change touches no loop that is starting, running or in hiccup, and no port that is not DOWN or OFF (R55, R255). -/
def State.quietFor (s : State) (c : SMap Int) : Bool :=
  let busy (l : Nat) : Bool := if h : l < 16 then
      let st := s.loop[l].ct.state
      st == .starting || st == .running || st == .hiccupOff
    else false
  (List.range 48).all (fun p =>
    !([P.PHASE_LOOP, P.PHASE_MODE, P.PHASE_BIDIR_FWD, P.PHASE_SENSE, P.PHASE_CS_GAIN, P.PHASE_CS_RSENSE].any (fun q => cDiff s.cfg c q p)) ||
    !(busy (cN s.cfg P.PHASE_LOOP p) || busy (cN c P.PHASE_LOOP p))) &&
  (fins 64).all (fun (p : Fin 64) =>
    !([P.PORT_MODE, P.PORT_TOPOLOGY, P.PORT_REDUND].any (fun q => cDiff s.cfg c q p)) ||
    s.port[p].state == .off || s.port[p].state == .down)

end Sys2Proof.Machine
end

