-- ==== Sys2Proof/Machine/KenebOps.lean ====
section
/-! DEFINITION. Keneb images as bytes (R436, R437): building one, reading one, its slots in the silt store. -/

namespace Sys2Proof.Machine

/-- The address of an image slot (R339). -/
def imgAddr (k : Nat) : Nat := if k = 0 then 0x800000 else 0xA00000

/-- The largest image in bytes (R339, R432). -/
def imgMax : Nat := 2031616

/-- The key and value of an entry of an image: parameter, instance, value. -/
structure ImgEntry where
  prm : Prm
  inst : Nat
  val : Int
deriving DecidableEq, Repr

/-- An entry as bytes (R422, R436). -/
def entryBytes (p : Prm) (i : Nat) (v : Int) : List Byte := leBytes 2 p.id ++ leBytes 2 i ++ p.ty.write v

/-- The class-K values of a set of values, as image entries in ascending order (R436). -/
def imgBody (c : SMap Int) : List (List Byte) :=
  c.filterMap (fun q => match findParam (q.1 / 65536) with
    | none => none
    | some p => if p.keeps = .K then some (entryBytes p (q.1 % 65536) q.2) else none)

/-- LAST_COMMIT of an image (R436): EPOCH, SEQ and STATUS of each key slot. -/
def lastCommits (key : Vector Key 8) : List Byte :=
  (fins 8).flatMap (fun k => leBytes 4 key[k].lastEpoch ++ leBytes 4 key[k].lastSeq ++ leBytes 2 key[k].lastSt ++ leBytes 2 0)

/-- An image from its parts, its seal already 0x5A (R436). -/
def imgBuild (minFw id gen : Nat) (key : Vector Key 8) (c : SMap Int) : List Byte :=
  let es := imgBody c
  let body := es.flatten
  let len := 132 + body.length
  let t := [1#8, 0#8, 0#8] ++ leBytes 4 0x4C470848 ++ leBytes 4 minFw ++ leBytes 4 id ++ leBytes 4 gen ++ leBytes 4 len ++
    leBytes 4 es.length ++ leBytes 4 0 ++ lastCommits key ++ body
  [0x5A#8] ++ t ++ leBytes 4 (crc32c t)

/-- LENGTH of an image (R436). -/
def imgLen (bs : List Byte) : Nat := leAt bs 20 4

/-- Step 1 of R437: seal, length and CRC. -/
def imgSound (bs : List Byte) (len : Nat) : Bool :=
  decide (leAt bs 0 1 = 0x5A ∧ imgLen bs = len ∧ 132 ≤ len ∧ len ≤ imgMax ∧ len = bs.length) &&
  crc32c ((bs.drop 1).take (len - 5)) == leAt bs (len - 4) 4

/-- Step 2 of R437: format, part and the release it needs. -/
def imgFits (bs : List Byte) (release : Nat) : Bool :=
  decide (leAt bs 1 1 = 1 ∧ leAt bs 4 4 = 0x4C470848 ∧ leAt bs 8 4 ≤ release)

/-- How the entries of an image are refused: entry, parameter identifier, instance, status (R417, R437). -/
structure ImgFail where
  entry : Nat
  id : Nat
  inst : Nat
  status : Nat
deriving DecidableEq, Repr

/-- Step 3 of R437: `n` entries, each above the key before it, each a class-K parameter inside its
instances and range; the bytes end
with them. `k` is the number of the next entry and `prev` one above the key of the last. -/
def imgEntries (bs : List Byte) (k prev : Nat) : Nat → Except ImgFail (List ImgEntry)
  | 0 => if bs.isEmpty then .ok [] else .error ⟨0xFFFF, 0, 0, stRange⟩
  | n + 1 =>
    let id := leAt bs 0 2
    let i := leAt bs 2 2
    let key := id * 65536 + i
    if bs.length < 8 then .error ⟨0xFFFF, 0, 0, stRange⟩
    else if key < prev then .error ⟨k, id, i, stRange⟩
    else match findParam id with
      | none => .error ⟨k, id, i, stUnknown⟩
      | some p =>
        if p.instOk i = false then .error ⟨k, id, i, stUnknown⟩
        else if p.keeps ≠ .K then .error ⟨k, id, i, stRange⟩
        else
          let v := p.ty.read ((bs.drop 4).take p.ty.size)
          if bs.length < 4 + p.ty.size ∨ p.valueOk i v = false then .error ⟨k, id, i, stRange⟩
          else match imgEntries (bs.drop (4 + p.ty.size)) (k + 1) (key + 1) n with
            | .error e => .error e
            | .ok l => .ok (⟨p, i, p.norm v⟩ :: l)

/-- The entries of an image (R436). -/
def imgParse (bs : List Byte) : Except ImgFail (List ImgEntry) := imgEntries ((bs.drop 128).take (imgLen bs - 132)) 0 0 (leAt bs 24 4)

/-- The values of an image's entries; a parameter it does not hold has its default (R436). -/
def imgValues (l : List ImgEntry) : SMap Int := l.foldl (fun c e => cfgSet c e.prm e.inst e.val) []

/-- The image bytes in a slot, as long as its header says. -/
def State.imgAt (s : State) (k : Nat) : List Byte :=
  if s.loadNat (imgAddr k) 1 = 0x5A then s.load (imgAddr k) (min imgMax (s.loadNat (imgAddr k + 20) 4)) else []

/-- The running release (R377, R506). -/
def State.release (s : State) : Nat := match s.firm.slot[s.firm.run] with
  | none => 0
  | some x => x.version

/-- The first of the steps 1 to 3 of R437 that an image in a slot fails, 0 where it passes, and its values. -/
def State.imgCheck (s : State) (k : Nat) : Nat × SMap Int :=
  let bs := s.imgAt k
  if imgSound bs bs.length = false then (1, [])
  else if imgFits bs s.release = false then (2, [])
  else match imgParse bs with
    | .error _ => (3, [])
    | .ok l => (0, imgValues l)

/-- An image stored in a slot, its seal last (R403, R436). -/
def State.imgStore (s : State) (k : Nat) (bs : List Byte) : State :=
  (s.store (imgAddr k) (0#8 :: bs.drop 1)).store (imgAddr k) (bs.take 1)

end Sys2Proof.Machine
end

