-- ==== Sys2Proof/Machine/ReadParam.lean ====
section
/-! DEFINITION. What a read of a parameter returns (R422): the value in force of a kept parameter,
the present value of a read-only or
status parameter, 0 of a write-only one. -/

namespace Sys2Proof.Machine

/-- The number PHASE_DIE_STATE reads (R87). -/
def DieState.code : DieState → Nat
  | .safe => 0 | .armed => 1 | .run => 2

/-- The number PORT_STATE reads (R286). -/
def PortState.code : PortState → Nat
  | .off => 0 | .train => 1 | .up => 2 | .down => 3 | .fault => 4 | .pmbus => 5

/-- The number HOST_SESSION_STATE reads (R379, R408). -/
def SessState.code : SessState → Nat
  | .free => 0 | .claimed => 1 | .proving => 2 | .isOpen => 3

/-- The number THERM_DIE_STATE reads (R485). -/
def ThermState.code : ThermState → Nat
  | .run => 0 | .shutdown => 1 | .latched => 2

/-- DEV_FW_STATE (R512): a trial goes before a transfer, a transfer before a verified image. -/
def Firm.code (f : Firm) : Nat :=
  if f.trialSlot.isSome then 3 else if f.load.isSome then 1 else if f.verified then 2 else 0

/-- TIMER_CAP of a timer (R482): the oldest entry, or VALID 0 with every other byte 0; `left` entries remain. -/
def Timer.capWord (x : Timer) (left : Nat) : Nat := match x.queue with
  | [] => 0
  | c :: _ => c.time % 2 ^ 64 + c.count % 2 ^ 32 * 2 ^ 64 + c.src * 2 ^ 96 + (1 + 2 * b2n x.dropPop) * 2 ^ 104 + left * 2 ^ 112

/-- DEV_, time-base and Sluice parameters (R51, R148, R512). -/
def State.readDev (s : State) (id i : Nat) : Int := match id with
  | 0x0429 => (s.tb.status : Nat)
  | 0x042A => s.tb.lastOffset
  | 0x0810 => finI 6 i (fun a => (s.sluiceBudget a : Nat))
  | 0x0811 => finI 6 i (fun a => (s.slu.stallPeriods[a] : Nat))
  | 0x0812 => finI 6 i (fun a => (s.slu.peakUse[a] : Nat))
  | 0x0813 => (cLoad s.cfg : Nat)
  | 0x0444 => (s.faultStatus : Nat)
  | 0x0400 => (s.dev.state.code : Nat)
  | 0x0405 => finI 16 i (fun k => (s.spring.retain[k] : Nat))
  | 0x0406 => (s.spring.kind : Nat)
  | 0x0407 => (s.spring.wakeCause : Nat)
  | 0x0408 => (s.spring.resetCnt : Nat)
  | 0x040A => (s.chain.addr : Nat)
  | 0x040B => (s.chain.status : Nat)
  | 0x040D => (s.firm.code : Nat)
  | 0x040E => finI 2 i (fun k => match s.firm.slot[k] with
    | none => 0
    | some x => (x.version : Nat))
  | 0x040F => (s.firm.rollback : Nat)
  | 0x0410 => match s.firm.kenebSlot with
    | none => 255
    | some k => (k.val : Nat)
  | 0x0411 => (s.dev.bootTime : Nat)
  | _ => 0

/-- A slope in mA/µs from µA/µs (R71, R87). -/
def slopeMa (x : Option Int) : Int := nearHalfAway (x.getD 0) 1000

/-- Phase parameters (R87). -/
def State.readPhase (s : State) (id i : Nat) : Int := match id with
  | 0x0C40 => finI 48 i (fun p => (s.phaseStatus p : Nat))
  | 0x0C41 => finI 48 i (fun p => slopeMa (s.ph[p].sl s.ph[p].pl.lastDir).up)
  | 0x0C42 => finI 48 i (fun p => slopeMa (s.ph[p].sl s.ph[p].pl.lastDir).use)
  | 0x0C43 => finI 48 i (fun p => (s.rampNow p : Nat))
  | 0x0C44 => finI 48 i (fun p => s.pst[p].iAvg)
  | 0x0C45 => finI 48 i (fun p => s.pst[p].iPeak)
  | 0x0C46 => finI 48 i (fun p => s.csOffset p)
  | 0x0C47 => finI 4 i (fun d => (s.die[d].parityErr : Nat))
  | 0x0C48 => finI 48 i (fun p => (s.ph[p].maxdutyCnt : Nat))
  | 0x0C49 => finI 4 i (fun d => (s.die[d].state.code : Nat))
  | 0x1880 => finI 48 i (fun p => s.pst[p].iMean)
  | 0x1881 => finI 48 i (fun p => (s.pst[p].iRms : Nat))
  | _ => 0

/-- Loop, Ebb and protection parameters (R89, R117, R146, R147). -/
def State.readLoop (s : State) (id i : Nat) : Int := finI 16 i (fun l =>
  let x := s.loop[l]
  match id with
  | 0x10C5 => nearHalfAway 8000000000 (x.tm.pLast : Nat)
  | 0x1040 => (x.ct.state.code : Nat)
  | 0x1041 => (s.loopStatus l : Nat)
  | 0x1042 => (x.ct.region : Nat)
  | 0x1043 => x.ct.y
  | 0x1044 => nearEven x.ct.ref8 8000000
  | 0x1045 => x.ct.icmd
  | 0x1046 => (x.ct.ferrCnt : Nat)
  | 0x1047 => (x.ct.cause : Nat)
  | 0x10A0 => (s.protStatus l : Nat)
  | 0x10A1 => (x.oc.retries : Nat)
  | 0x10A2 => (x.oc.trips : Nat)
  | 0x10A3 => (x.oc.fbLast : Nat)
  | 0x1840 => (x.eb.nAct : Nat)
  | 0x1841 => (((s.phasesOf l).filter (fun p => s.ph[p].shed == .shed)).map (fun p => 2 ^ p.val)).sum
  | 0x1842 => (x.eb.shedCnt : Nat)
  | _ => 0)

/-- FEED_BANK_STATUS as the stems know it: the last report, and the line as its own input gave it (R171, R175, R180). -/
def State.bankStatus (s : State) : Nat :=
  let w := clearBit s.bank.seen.status 4
  if s.bank.seenLine then setBit w 4 else w

/-- Feed parameters, as Bank telemetry last reported them (R175, R182). -/
def State.readFeed (s : State) (id i : Nat) : Int := match id with
  | 0x1C4A => s.bank.seen.vbus
  | 0x1C4B => (s.bankStatus : Nat)
  | _ => finI 2 i (fun f =>
    let x := s.bank.seen.feed[f]
    match id with
    | 0x1C40 => (x.state.code : Nat)
    | 0x1C41 => (x.status : Nat)
    | 0x1C42 => x.v
    | 0x1C43 => x.i
    | 0x1C44 => x.p
    | 0x1C45 => (x.eImp : Nat)
    | 0x1C46 => (x.eExp : Nat)
    | 0x1C47 => (x.i2t : Nat)
    | 0x1C48 => (x.retries : Nat)
    | 0x1C49 => (x.trips : Nat)
    | _ => 0)

/-- I_pre of a loop in the phase dies: that of its first die (R106, R204). -/
def State.preNow (s : State) (l : Fin 16) : Int := match s.diesOf l with
  | [] => 0
  | d :: _ => s.die[d].lp[l].preload

/-- Confluence and hold-up parameters (R203, R204). -/
def State.readShare (s : State) (id i : Nat) : Int := match id with
  | 0x2040 => finI 64 i (fun m => (s.share.mbr[m].state.code : Nat))
  | 0x2041 => finI 64 i (fun m => s.share.mbr[m].sent)
  | 0x2042 => finI 4 i (fun g => s.share.grp[g].load)
  | 0x2043 => finI 4 i (fun g => s.share.grp[g].tieOfs)
  | 0x2044 => finI 4 i (fun g => (s.share.grp[g].frac : Nat))
  | 0x2440 => (s.hold.state.code : Nat)
  | 0x2441 => (s.holdStatus : Nat)
  | 0x2442 => s.hold.pLoad
  | 0x2443 => finI 16 i (fun l => s.preNow l)
  | 0x2444 => (s.hold.entries : Nat)
  | 0x2445 => (s.hold.lastTime : Nat)
  | _ => 0

/-- Weir parameters (R224). -/
def State.readWeir (s : State) (id i : Nat) : Int := match id with
  | 0x2810 => finI 36 i (fun k => (capWord s.weir.scope[k].grant : Nat))
  | 0x2840 => finI 36 i (fun k => (s.weirStatus k : Nat))
  | 0x2841 => finI 36 i (fun k => s.weir.scope[k].p)
  | 0x2842 => finI 36 i (fun k => (s.weir.scope[k].d / 1000000 : Nat))
  | 0x2843 => finI 36 i (fun k => (capWord (s.capNow k) : Nat))
  | 0x2844 => (capWord (s.weirNode i).limit : Nat)
  | 0x2845 => if s.nonCompliant i then 2 else if (s.weirNode i).limit.isSome then 1 else 0
  | 0x2846 => finI 16 i (fun l => s.weir.shave[l])
  | 0x2847 => finI 2 i (fun f => match s.weir.hardI[f] with
    | none => 0
    | some x => min (s.par P.FEED_I2T_BASE f) (x : Nat))
  | _ => 0

/-- Battery parameters (R253). -/
def State.readBatt (s : State) (id i : Nat) : Int := finI 8 i (fun b =>
  let x := s.batt[b]
  match id with
  | 0x2C40 => (x.status : Nat)
  | 0x2C41 => (x.soc : Nat)
  | 0x2C42 => x.v
  | 0x2C43 => x.vcorr
  | 0x2C44 => x.i
  | 0x2C45 => x.t
  | 0x2C46 => x.q
  | 0x2C47 => (x.qDis : Nat)
  | 0x2C48 => match x.restAt with
    | none => 0
    | some t => ((s.clk.tick - t) / 250000000 : Nat)
  | 0x2C50 => (x.learned.cap : Nat)
  | 0x2C51 => (x.learned.gen : Nat)
  | 0x2C52 => (x.learned.cycles : Nat)
  | 0x2C53 => (x.learned.cnt : Nat)
  | 0x2C54 => (x.learned.rej : Nat)
  | 0x2C55 => (x.learned.thru : Nat)
  | _ => 0)

/-- Port parameters (R286). -/
def State.readPort (s : State) (id i : Nat) : Int := match id with
  | 0x3050 => if (s.node i).link then 1 else 0
  | 0x3052 => finI 64 (i / 16) (fun p => finI 16 (i % 16) (fun t => (b2n s.port[p].pmb.targets[t].present : Nat)))
  | _ => finI 64 i (fun p =>
    let x := s.port[p]
    match id with
    | 0x3040 => (x.state.code : Nat)
    | 0x3041 => (x.rate : Nat)
    | 0x3042 => (s.portStatus p : Nat)
    | 0x3043 => (x.cnt.rxFrames : Nat)
    | 0x3044 => (x.cnt.crcErr : Nat)
    | 0x3045 => (x.cnt.abandon : Nat)
    | 0x3046 => (x.cnt.malformed : Nat)
    | 0x3047 => (x.cnt.noise : Nat)
    | 0x3048 => (x.cnt.noCredit : Nat)
    | 0x3049 => (x.cnt.codeErr : Nat)
    | 0x304A => (x.cnt.txFlushed : Nat)
    | 0x304B => (x.cnt.ptErr : Nat)
    | 0x304C => (x.cnt.dualDup : Nat)
    | 0x304D => (x.cnt.pmbErr : Nat)
    | 0x3051 => (x.hubLinks : Nat)
    | _ => 0)

/-- Node parameters (R313). -/
def State.readNode (s : State) (id i : Nat) : Int :=
  let n := s.node i
  match id with
  | 0x3440 => (b2n n.isOpen : Nat)
  | 0x3441 => (n.epoch : Nat)
  | 0x3442 => (n.uid : Nat)
  | 0x3443 => (n.fwVer : Nat)
  | 0x3444 => (n.rxSeq : Nat)
  | 0x3445 => (n.txSeq : Nat)
  | 0x3446 => (n.dup : Nat)
  | 0x3447 => (n.stale : Nat)
  | 0x3448 => (n.gap : Nat)
  | 0x3449 => (n.opens : Nat)
  | 0x344A => (s.outState i : Nat)
  | 0x344B => match s.relayOf (i / 32) with
    | none => 0
    | some r => if r.addr = i then 1 else 0
  | 0x344C => (s.nodes.bootGen : Nat)
  | _ => 0

/-- Pool, Silt and Spate parameters (R336, R367, R368). -/
def State.readPool (s : State) (id i : Nat) : Int := match id with
  | 0x3840 => (s.pool.updates : Nat)
  | 0x3841 => (s.pool.eventCnt : Nat)
  | 0x3842 => (s.pool.ce : Nat)
  | 0x3843 => (s.pool.ue : Nat)
  | 0x3844 => (s.pool.subs.length : Nat)
  | 0x3845 => (s.pool.subLost : Nat)
  | 0x4040 => (s.silt.oldest : Nat)
  | 0x4041 => if s.silt.count = 0 then 0xFFFFFFFF else ((s.silt.done + siltMod - 1) % siltMod : Nat)
  | 0x4042 => (s.silt.count : Nat)
  | 0x4043 => ((s.codeSt i).suppressed : Nat)
  | 0x4044 => (s.silt.commits : Nat)
  | 0x4440 => finI 48 i (fun k => (s.slotState k : Nat))
  | 0x4441 => (s.spate.next.val : Nat)
  | 0x4442 => (s.spate.missed : Nat)
  | _ => 0

/-- What is left of a permit's lease in ms (R397, R409). -/
def State.leaseLeft (s : State) (i : Nat) : Nat :=
  let p := s.permit i
  if p.holder.isSome then p.lease - (s.clk.tick - p.at_) / 250000 else 0

/-- Host and permit parameters (R408, R409). -/
def State.readHost (s : State) (id i : Nat) : Int := match id with
  | 0x4820 => finI 8 i (fun k => (s.host.key[k].roles : Nat))
  | 0x4821 => finI 8 i (fun k => (s.host.key[k].ports : Nat))
  | 0x4822 => finI 8 i (fun k => (s.host.key[k].macReq : Nat))
  | 0x4823 => finI 8 i (fun k => (b2n s.host.key[k].prov : Nat))
  | 0x4840 => finI 8 i (fun k => ((s.sess k).state.code : Nat))
  | 0x4841 => finI 8 i (fun k => ((s.sess k).epoch : Nat))
  | 0x4842 => finI 8 i (fun k => (s.host.key[k].lastEpoch * 2 ^ 32 + s.host.key[k].lastSeq : Nat))
  | 0x4843 => finI 8 i (fun k => (s.host.key[k].lastSt : Nat))
  | 0x4844 => finI 8 i (fun k => ((s.sess k).staging.length + 32768 * b2n (s.sess k).stageLost : Nat))
  | 0x4845 => finI 4 i (fun p => (s.host.port[p].refused : Nat))
  | 0x4846 => finI 8 i (fun k => ((s.sess k).noticeLost : Nat))
  | 0x4C40 => match (s.permit i).holder with
    | none => 255
    | some k => (k.val : Nat)
  | 0x4C41 => ((s.permit i).epoch : Nat)
  | 0x4C42 => (s.leaseLeft i : Nat)
  | 0x4C43 => ((s.permit i).grants : Nat)
  | _ => 0

/-- Stem parameters (R462). -/
def State.readStem (s : State) (id i : Nat) : Int := match id with
  | 0x5040 => finI 2 i (fun k => ((s.stemSt k).code : Nat))
  | 0x5041 => (s.stemStatus : Nat)
  | 0x5042 => (s.stems.switchovers : Nat)
  | 0x5043 => (s.stems.divergences : Nat)
  | 0x5044 => (s.stems.lastFault : Nat)
  | 0x5045 => (s.stems.resyncTime : Nat)
  | 0x5046 => (s.stems.lagPeak : Nat)
  | 0x5047 => finI 6 i (fun k => (s.stems.resend[k] : Nat))
  | 0x5048 => finI 2 i (fun k => (s.stems.stem[k].ce : Nat))
  | 0x5049 => finI 2 i (fun k => (s.stems.stem[k].ue : Nat))
  | _ => 0

/-- Temperature and timer parameters (R485, R486). -/
def State.readTherm (s : State) (id i : Nat) : Int := match id with
  | 0x5420 => Config.compT i
  | 0x5421 => Config.compOsc i
  | 0x5422 => Config.compRef i
  | 0x5440 => finI 64 i (fun n => s.therm.sen[n].t)
  | 0x5441 => finI 64 i (fun n => s.therm.sen[n].raw)
  | 0x5442 => finI 64 i (fun n => s.therm.sen[n].ofs)
  | 0x5443 => finI 64 i (fun n => (s.sensorStatus n : Nat))
  | 0x5444 => finI 8 i (fun d => (s.therm.die[d].st.code : Nat))
  | 0x5445 => finI 8 i (fun d => s.therm.die[d].temp)
  | 0x5446 => finI 8 i (fun d => (s.therm.die[d].count : Nat))
  | 0x5447 => finI 8 i (fun d => (s.therm.die[d].last : Nat))
  | 0x5448 => finI 16 i (fun g => s.therm.grp[g].rate)
  | _ => finI 32 i (fun t =>
    let x := s.timer[t]
    match id with
    | 0x5821 => (x.cmp : Nat)
    | 0x5822 => (b2n x.cmpEn : Nat)
    | 0x5840 => (x.countAt s.clk.tick : Nat)
    | 0x5841 => (x.appliedAt : Nat)
    | 0x5842 => (x.status : Nat)
    | 0x5843 => (x.capWord x.queue.length : Nat)
    | 0x5844 => (x.dropped : Nat)
    | 0x5845 => (x.matchCnt : Nat)
    | _ => 0)

/-- Supply parameters (R513). -/
def State.readSupply (s : State) (id i : Nat) : Int := match id with
  | 0x5C40 => finI 10 i (fun k => s.power.sup[k].v)
  | 0x5C41 => finI 10 i (fun k => s.power.sup[k].min.getD 0)
  | 0x5C42 => (s.power.status : Nat)
  | 0x5C43 => (s.power.warnCnt : Nat)
  | 0x5C44 => (s.power.warnLast : Nat)
  | _ => 0

/-- The value a read of a parameter returns (R422): by class where it is not a kept value. -/
def State.readValue (s : State) (p : Prm) (i : Nat) : Int :=
  if p.wo then 0
  else if p.keeps = .K then s.par p i
  else match p.id / 1024 with
    | 1 => s.readDev p.id i
    | 2 => s.readDev p.id i
    | 3 => s.readPhase p.id i
    | 4 => s.readLoop p.id i
    | 6 => if 0x1880 ≤ p.id then s.readPhase p.id i else s.readLoop p.id i
    | 7 => s.readFeed p.id i
    | 8 => s.readShare p.id i
    | 9 => s.readShare p.id i
    | 10 => s.readWeir p.id i
    | 11 => s.readBatt p.id i
    | 12 => s.readPort p.id i
    | 13 => s.readNode p.id i
    | 14 => s.readPool p.id i
    | 16 => s.readPool p.id i
    | 17 => s.readPool p.id i
    | 18 => s.readHost p.id i
    | 19 => s.readHost p.id i
    | 20 => s.readStem p.id i
    | 21 => s.readTherm p.id i
    | 22 => s.readTherm p.id i
    | 23 => s.readSupply p.id i
    | _ => 0

/-- The value a read gives: a value beyond the parameter's type reads as the nearest of the type (log entry 121). -/
def State.readParam (s : State) (p : Prm) (i : Nat) : Int := p.ty.clamp (s.readValue p i)

/-- A read by a session (R422, R482): a holder of CONFIG takes the oldest capture out of the queue of TIMER_CAP. -/
def State.readBy (s : State) (k : Fin 8) (p : Prm) (i : Nat) : Int × State :=
  if p.id = 0x5843 ∧ s.holds k 0 then
    if h : i < 32 then
      let t : Fin 32 := ⟨i, h⟩
      let x := s.timer[t]
      ((x.capWord (x.queue.length - 1) : Nat), if x.queue.isEmpty then s
        else s.modTimer t (fun y => { y with queue := y.queue.tail, dropPop := false }))
    else (0, s)
  else (s.readParam p i, s)

end Sys2Proof.Machine
end

