-- ==== Sys2Proof/Machine/HostReg.lean ====
section
/-! DEFINITION. The direct host register space (R377 to R381, R384, R385) as a host port reads and writes it. -/

namespace Sys2Proof.Machine

/-- HR_DEV_STATE (R378). -/
def State.hrDevState (s : State) : Nat :=
  s.dev.state.code % 4 + 4 * s.activeStem + 8 * b2n s.redundant + 16 * b2n s.brownWarn + 32 * b2n s.dev.mbReady + 64 * b2n s.commissioning

/-- HR_SESSION of a session (R379). -/
def Sess.word (x : Sess) : Nat :=
  x.state.code + x.port % 4 * 4 + x.role % 2 * 16 + b2n x.macEvery * 32 + x.key % 16 * 64 + x.epoch % 65536 * 65536

/-- The holder of a permit as a nibble, 15 for none (R377). -/
def State.holderNib (s : State) (i : Nat) : Nat := match (s.permit i).holder with
  | none => 15
  | some k => k.val

/-- `n` holders from permit `i` on, four bits each (R377). -/
def State.holderWord (s : State) (i n : Nat) : Nat := ((List.range n).map (fun j => s.holderNib (i + j) * 16 ^ j)).sum

/-- The pair of a mailbox (R382). -/
def pairOf (m : Fin 16) : Fin 8 := ⟨m.val / 2, by omega⟩

/-- A mailbox is bound to a port (R382). -/
def State.mbBound (s : State) (p : Fin 4) (m : Fin 16) : Bool := (s.sess (pairOf m)).state != .free && (s.sess (pairOf m)).port == p.val

/-- A mailbox holds a complete message (R383). -/
def Mbox.ready (x : Mbox) : Bool := !x.rx.isEmpty

/-- HR_IRQ_STATUS of a port (R380). -/
def State.irqStatus (s : State) (p : Fin 4) : Nat :=
  let x := s.host.port[p]
  ((fins 16).map (fun (m : Fin 16) => b2n (s.mbBound p m && s.host.mb[m].ready) * 2 ^ m.val)).sum + b2n x.ended * 2 ^ 16 +
    b2n x.permitLost * 2 ^ 17 + b2n s.brownWarn * 2 ^ 18 + b2n x.switched * 2 ^ 19 + b2n x.abandoned * 2 ^ 20

/-- HIRQ of an SPI port is asserted (R380). -/
def State.hirq (s : State) (p : Fin 4) : Bool := decide (2 ≤ p.val) && s.irqStatus p &&& s.host.port[p].mask != 0

/-- HR_MB_OWNER of a port (R377). -/
def State.mbOwner (s : State) (p : Fin 4) : Nat :=
  ((fins 16).map (fun (m : Fin 16) =>
    (if (s.sess (pairOf m)).state = .free then 0 else if s.mbBound p m then 1 else 2) * 4 ^ m.val)).sum

/-- HR_LINK_STATUS (R377). -/
def State.linkStatus (s : State) : Nat :=
  let speed (e : Fin 2) : Nat :=
    if s.host.port[(⟨e.val, by omega⟩ : Fin 4)].link then (if s.par P.HOST_ETH_MODE e = 3 then 2 else 1) else 0
  let up (e : Fin 2) : Nat := if s.host.port[(⟨e.val, by omega⟩ : Fin 4)].link then 1 else 0
  up 0 + 2 * up 1 + 4 * speed 0 + 16 * speed 1

/-- HR_COMMIT_STATE (R377); how much of an image has been written is a free value (log entry 56). -/
def State.commitState (s : State) : Nat := match s.host.commits with
  | [] => 0
  | c :: _ =>
    let w : Bool := c.stage == .writing
    1 + 2 * b2n w + 4 * b2n (w && s.brownWarn) + c.sess.val * 256 + b2n w * (Config.imagePart s.clk.tick % 1025) * 65536

/-- The requests of a mailbox rung and not yet taken. -/
def State.rungOf (s : State) (m : Fin 16) : List (List Nat) := (s.host.rung.filter (fun q => q.1 == m)).map (·.2)

/-- The free entries of a request queue (R383). -/
def State.txFree (s : State) (m : Fin 16) : Nat := 1024 - (s.host.mb[m].tx.length + ((s.rungOf m).map List.length).sum)

/-- MB_STATUS of a mailbox bound to the reading port (R385). -/
def State.mbStatus (s : State) (m : Fin 16) : Nat :=
  let x := s.host.mb[m]
  1 + 2 * b2n ((s.sess (pairOf m)).state == .isOpen) + 4 * b2n x.ready + 8 * b2n (!x.tx.isEmpty) + 16 * b2n x.overflow +
    32 * b2n x.abandoned + 64 * b2n x.rejected + 128 * b2n (decide (0 < x.part)) + 256 * min 4 (s.rungOf m).length + 65536 * s.txFree m

/-- The tag of word `i` of a message of `n` words (R269, R383): 1 HDR, 4 END, else 3 DATA. -/
def mbTag (i n : Nat) : Nat := if i = 0 then 1 else if i + 1 = n then 4 else 3

/-- The entry at the head of a mailbox's reply queue, TAG and DATA; IDLE with DATA 0 where no
message is complete (R383). -/
def Mbox.head (x : Mbox) : Nat × Nat := match x.rx with
  | [] => (0, 0)
  | w :: _ => (mbTag x.part w.length, w.getD x.part 0)

/-- An entry as SPI reads it: the idle item is 0xFFFF_0000 (R375, R383). -/
def spiWord (e : Nat × Nat) : Nat := if e.1 = 0 then 0xFFFF0000 else e.2

/-- The word a port reads at an offset, before any effect of the read (R377 to R380, R385, R353). -/
def State.hostReg (s : State) (p : Fin 4) (off : Nat) : Nat :=
  let x := s.host.port[p]
  let slot : Nat := s.firm.run.val
  if off = 0x000 then 0x4C470848
  else if off = 0x004 then 0x000000B1
  else if off = 0x008 then s.release
  else if off = 0x00C then slot + s.firm.rollback % 65536 * 65536
  else if off = 0x010 then s.host.kenebId
  else if off = 0x014 then s.host.kenebGen
  else if off = 0x018 then s.chain.addr % 256 + s.parN P.DEV_CHAIN_EXPECT 0 % 256 * 256 + b2n s.chain.mis * 65536
  else if off = 0x01C then s.hrDevState
  else if off = 0x020 then s.clk.shelf % 2 ^ 32
  else if off = 0x024 then s.host.timeHi
  else if off = 0x028 then s.tb.status
  else if off = 0x02C then s.hold.state.code
  else if off = 0x030 then s.faultStatus
  else if off = 0x034 then s.nodes.bootGen
  else if off = 0x038 then (s.clk.tick - s.dev.started) / 250000 % 2 ^ 32
  else if 0x040 ≤ off ∧ off < 0x060 then (s.sess ⟨(off - 0x040) / 4 % 8, Nat.mod_lt _ (by omega)⟩).word
  else if off = 0x060 then s.holderWord 0 7
  else if 0x064 ≤ off ∧ off < 0x084 then s.holderWord (8 + (off - 0x064) / 4 * 8) 8
  else if off = 0x084 then s.irqStatus p
  else if off = 0x088 then x.mask
  else if off = 0x08C then s.mbOwner p
  else if off = 0x090 then s.linkStatus
  else if off = 0x094 then x.scratch
  else if off = 0x098 then s.commitState
  else if off = 0x0C0 then x.cursor
  else if off = 0x0C4 then b2n x.auto + x.latch * 2 + b2n x.moved * 8
  else if 0x0C8 ≤ off ∧ off < 0x0E8 then x.win.getD ((off - 0x0C8) / 4) 0
  else if 0x100 ≤ off ∧ off < 0x200 then
    let m : Fin 16 := ⟨(off - 0x100) / 16 % 16, Nat.mod_lt _ (by omega)⟩
    if s.mbBound p m = false then 0
    else if off % 16 = 4 then s.mbStatus m
    else if off % 16 = 12 then spiWord s.host.mb[m].head
    else 0
  else 0

/-- A read of HR_TIME_LO latches HR_TIME_HI, which is common to all four ports (R377). -/
def State.readTimeLo (s : State) (p : Fin 4) : State :=
  (s.modHp p (fun x => { x with rdata := s.clk.shelf % 2 ^ 32 })).modHost (fun h => { h with timeHi := s.clk.shelf / 2 ^ 32 % 2 ^ 32 })

/-- A word of the reply queue read at MB_RX; the last word removes the message (R375, R383). -/
def State.mbRead (s : State) (p : Fin 4) (m : Fin 16) : State :=
  if s.mbBound p m = false then s.modHp p (fun x => { x with rdata := 0 })
  else
    (s.modHp p (fun x => { x with rdata := spiWord s.host.mb[m].head })).modMb m (fun x => match x.rx with
      | [] => x
      | w :: ws => if w.length ≤ x.part + 1 then { x with rx := ws, part := 0 } else { x with part := x.part + 1 })

/-- A register read at a port, with the effects of its read (R354, R375, R377): the word, then the state. -/
def State.regRead (s : State) (p : Fin 4) (off : Nat) : Nat × State :=
  let t :=
    if off = 0x020 then s.readTimeLo p
    else if off = 0x0C8 then s.winLatch p
    else if off = 0x0E4 then s.winLast p
    else if 0x100 ≤ off ∧ off % 16 = 12 then s.mbRead p ⟨(off - 0x100) / 16 % 16, Nat.mod_lt _ (by omega)⟩
    else s.modHp p (fun x => { x with rdata := s.hostReg p off })
  (t.host.port[p].rdata, t)

/-- SILT_CTL written (R353). -/
def HostPort.setCtl (x : HostPort) (v : Nat) : HostPort := { x with auto := bit v 0, moved := w1c x.moved v 3 }

/-- SILT_CURSOR written (R353). -/
def HostPort.setCursor (x : HostPort) (v : Nat) : HostPort := if v < siltMod then { x with cursor := v } else x

/-- The writes that act at every port: HR_SCRATCH, SILT_CURSOR, SILT_CTL (R381). -/
def HostPort.write (x : HostPort) (off v : Nat) : HostPort :=
  if off = 0x094 then { x with scratch := v % 2 ^ 32 } else if off = 0x0C0 then x.setCursor (v % 2 ^ 32) else if off = 0x0C4 then x.setCtl v else x

/-- The answer to a register access over Ethernet (R381). -/
def regAnswer (mark addr count status : Nat) (data : List Nat) : List Byte :=
  leBytes 4 (mark + 0x80) ++ leBytes 2 addr ++ leBytes 1 count ++ leBytes 1 status ++ data.flatMap (leBytes 4)

/-- An OPEN session has this endpoint on this port (R381). -/
def State.openAt (s : State) (e : Fin 2) (ep : Endpoint) : Bool :=
  (fins 8).any (fun k => (s.sess k).state == .isOpen && (s.sess k).port == e.val && decide ((s.sess k).ep = ep))

/-- The words of a run of registers read in order. -/
def State.regRun (s : State) (p : Fin 4) (off : Nat) : Nat → List Nat × State
  | 0 => ([], s)
  | n + 1 =>
    let r := s.regRead p off
    let t := r.2.regRun p (off + 4) n
    (r.1 :: t.1, t.2)

/-- A register access over Ethernet: answered, refused or malformed (R381). -/
def State.ethReg (s : State) (e : Fin 2) (ep : Endpoint) (data : List Byte) : State :=
  let p : Fin 4 := ⟨e.val, by omega⟩
  let mark := leAt data 0 4
  let addr := leAt data 4 2
  let count := leAt data 6 1
  let top := if s.openAt e ep then 0x0E4 else 0x038
  let offs := (List.range count).map (fun i => addr + 4 * i)
  let send (t : State) (bs : List Byte) : State := t.sendTo e ep bs
  if (mark ≠ 0xFFFF0001 ∧ mark ≠ 0xFFFF0002) ∨ data.length < 8 ∨ count = 0 ∨ 64 < count ∨ addr % 4 ≠ 0 ∨ 0x200 ≤ addr ∨
      (mark = 0xFFFF0002 ∧ data.length < 8 + 4 * count) then
    send s (regAnswer mark addr count 2 [])
  else if top < addr + 4 * (count - 1) then send s (regAnswer mark addr count 1 [])
  else if mark = 0xFFFF0001 then
    let r := s.regRun p addr count
    send r.2 (regAnswer mark addr count 0 r.1)
  else if offs.all (fun o => o == 0x094 || o == 0x0C0 || o == 0x0C4) then
    send (s.modHp p (fun x => offs.zipIdx.foldl (fun (y : HostPort) q => y.write q.1 (leAt data (8 + 4 * q.2) 4)) x))
      (regAnswer mark addr count 0 [])
  else send s (regAnswer mark addr count 1 [])

/-- HR_TIME_LO_READ (R377). -/
def execHrTimeLoRead (p : Fin 4) (s : State) : Res := .next (if s.hostUp then s.readTimeLo p else s)

/-- MB_RX_READ: a word read at MB_RX of a mailbox by an SPI port (R375). -/
def execMbRxRead (n : Fin 2) (m : Fin 16) (s : State) : Res := .next (if s.hostUp then s.mbRead ⟨2 + n.val, by omega⟩ m else s)

/-- HOST_ETH_REG_ACCESS (R381). -/
def execHostEthRegAccess (e : Fin 2) (ep : Endpoint) (data : List Byte) (s : State) : Res :=
  .next (if s.hostUp then s.ethReg e ep data else s)

/-- The link of an Ethernet port changes, with its record (R370, R410). -/
def State.ethLink (s : State) (e : Fin 2) (up : Bool) : State :=
  let p : Fin 4 := ⟨e.val, by omega⟩
  if s.host.port[p].link = up then s
  else (s.modHp p (fun x => { x with link := up })).log 0x0E0B e.val (b2n up + s.parN P.HOST_ETH_MODE e * 256 : Nat)

/-- HOST_ETH_LINK: the link of an Ethernet port comes up or goes down (R370, R410). -/
def execHostEthLink (e : Fin 2) (up : Bool) (s : State) : Res :=
  .next (if s.hostUp = false ∨ s.par P.HOST_ETH_MODE e = 0 then s else s.ethLink e up)

end Sys2Proof.Machine
end

