-- ==== Sys2Proof/Machine/Mailbox.lean ====
section
/-! DEFINITION. Mailboxes as a host port writes them (R375, R376, R382 to R386). -/

namespace Sys2Proof.Machine

/-- A word put into the request queue of an even mailbox, or lost to overflow (R383, R385). -/
def State.mbPush (s : State) (m : Fin 16) (w : Nat) : State :=
  if m.val % 2 = 1 then s
  else if s.txFree m = 0 then s.modMb m (fun x => { x with lost := true, overflow := true })
  else s.modMb m (fun x => { x with tx := x.tx ++ [w % 2 ^ 32] })

/-- Why a doorbell is refused (R386): 0 accepted, 1 overflow, 2 length, 3 four pending. -/
def State.bellCause (s : State) (m : Fin 16) : Nat :=
  let x := s.host.mb[m]
  let len := x.tx.headD 0 / 65536
  if x.lost then 1
  else if ceilDiv len 4 ≠ x.tx.length ∨ len < 12 ∨ 1440 < len then 2
  else if 4 ≤ (s.rungOf m).length then 3
  else 0

/-- A doorbell (R386). -/
def State.doorbell (s : State) (m : Fin 16) : State :=
  let x := s.host.mb[m]
  if x.tx = [] ∧ x.lost = false then s
  else
    let c := s.bellCause m
    let s1 := s.modMb m (fun y => { y with tx := [], lost := false, rejected := y.rejected || c != 0 })
    if c = 0 then s1.modHost (fun h => { h with rung := h.rung ++ [(m, x.tx)] }) else s1.log 0x0E09 m.val c

/-- CLAIM of a pair by a port (R384). -/
def State.mbClaim (s : State) (p : Fin 4) (m : Fin 16) : State :=
  if m.val % 2 = 0 ∧ (s.sess (pairOf m)).state = .free then s.bindPair (pairOf m) p.val Endpoint.none else s

/-- The words written since the last doorbell discarded; that one was lost to overflow since then still refuses the next
doorbell (R376, R384, R386). -/
def State.mbDiscard (s : State) (m : Fin 16) : State := s.modMb m (fun x => { x with tx := [] })

/-- The rest of the message at the head of the reply queue discarded (R384). -/
def State.mbSkip (s : State) (m : Fin 16) : State := s.modMb m (fun x => { x with rx := x.rx.tail, part := 0 })

/-- One bit of MB_CTL written at a port, none of which but CLAIM acts on a mailbox bound elsewhere (R377, R384). -/
def State.mbBit (s : State) (p : Fin 4) (m : Fin 16) (i : Nat) : State :=
  if i = 0 then s.mbClaim p m
  else if s.mbBound p m = false then s
  else if i = 1 then s.sessRelease (pairOf m)
  else if i = 2 then s.doorbell m
  else if i = 3 then s.mbDiscard m
  else s.mbSkip m

/-- MB_CTL written: its bits act in ascending order (R384). -/
def State.mbCtl (s : State) (p : Fin 4) (m : Fin 16) (v : Nat) : State :=
  ((List.range 5).filter (fun i => bit v i)).foldl (fun (t : State) i => t.mbBit p m i) s

/-- MB_STATUS written: its W1C flags (R385). -/
def State.mbW1c (s : State) (p : Fin 4) (m : Fin 16) (v : Nat) : State :=
  if s.mbBound p m then
    s.modMb m (fun x => { x with overflow := w1c x.overflow v 4, abandoned := w1c x.abandoned v 5, rejected := w1c x.rejected v 6 })
  else s

/-- A word written at an offset by a port (R12, R375, R377, R384, R385). -/
def State.regWrite (s : State) (p : Fin 4) (off v : Nat) : State :=
  if 0x100 ≤ off ∧ off < 0x200 then
    let m : Fin 16 := ⟨(off - 0x100) / 16 % 16, Nat.mod_lt _ (by omega)⟩
    if off % 16 = 0 then s.mbCtl p m v
    else if off % 16 = 4 then s.mbW1c p m v
    else if off % 16 = 8 then (if s.mbBound p m then s.mbPush m v else s)
    else s
  else s.modHp p (fun x =>
    if off = 0x084 then { x with
      ended := w1c x.ended v 16, permitLost := w1c x.permitLost v 17, switched := w1c x.switched v 19, abandoned := w1c x.abandoned v 20 }
    else if off = 0x088 then { x with mask := v % 2 ^ 32 }
    else x.write off v)

/-- The SPI port `n` as a host port. -/
def spiPort (n : Fin 2) : Fin 4 := ⟨2 + n.val, by omega⟩

/-- SPI port `n` changed. -/
def State.modSpi (s : State) (n : Fin 2) (f : SpiPort → SpiPort) : State := s.modHost (fun h => { h with spi := upd h.spi n f })

/-- The transaction that the bytes after a fall of CS begin (R374): INSTR and ADDR, and for a READ
the two bytes of TURN. -/
def spiOpen (hd : List Byte) : SpiRun :=
  let a := leAt hd 1 2
  if hd.length < 3 then .ignored
  else if leAt hd 0 1 ≠ 2 ∧ leAt hd 0 1 ≠ 3 then .foreign
  else if a % 4 ≠ 0 ∨ 512 ≤ a then .ignored
  else if leAt hd 0 1 = 2 then .write a
  else if hd.length < 5 then .ignored
  else .read a

/-- The offset of the word after one: 4 on, 0x000 after 0x1FC, but MB_TX and MB_RX repeat (R375). -/
def spiNext (off : Nat) : Nat := if 0x100 ≤ off ∧ 8 ≤ off % 16 then off else (off + 4) % 0x200

/-- The mailbox whose MB_TX stands at an offset. -/
def mbTxAt (off : Nat) : Option (Fin 16) :=
  if 0x100 ≤ off ∧ off % 16 = 8 then some ⟨(off - 0x100) / 16 % 16, Nat.mod_lt _ (by omega)⟩ else none

/-- The next word of the transaction at an SPI port: written as its 32nd bit arrives, or read and
driven; then the offset moves on (R375). -/
def State.spiWordAt (s : State) (n : Fin 2) (w : Nat) : State :=
  let x := s.host.spi[n]
  match x.run with
  | .ignored => s
  | .foreign => s
  | .write off => (s.regWrite (spiPort n) off w).modSpi n (fun y => { y with
      run := .write (spiNext off), wrote := if (mbTxAt off).isSome then mbTxAt off else y.wrote })
  | .read off =>
    let r := s.regRead (spiPort n) off
    r.2.modSpi n (fun y => { y with run := .read (spiNext off), shift := y.shift ++ leBytes 4 r.1 })

/-- The words of a run of bytes in order; the bytes of a last word that is not complete are kept,
and are discarded where CS rises (R375). -/
def State.spiWords (s : State) (n : Fin 2) (bs : List Byte) : State :=
  let m := bs.length / 4
  ((msgWords m bs).foldl (fun (t : State) w => t.spiWordAt n w) s).modSpi n (fun y => { y with part := bs.drop (4 * m) })

/-- HOST_REG_WRITE: bytes clocked at an SPI port. `hd` holds the header that followed a fall of CS,
and is empty where CS has stayed low since
the bytes before; `data` the bytes behind it (R374, R375, R377; log entry 110). -/
def execHostRegWrite (n : Fin 2) (hd data : List Byte) (s : State) : Res :=
  .next (if s.hostUp = false then s
  else
    let r := spiOpen hd
    let turn : List Byte := if leAt hd 0 1 = 3 ∧ r ≠ .ignored then [0xFF#8, 0xFF#8] else []
    let s1 := if hd = [] then s else s.modSpi n (fun _ => ⟨r, [], none, turn⟩)
    let x := s1.host.spi[n]
    match x.run with
    | .ignored => s1
    | .foreign => s1.modSpi n (fun y => { y with shift := y.shift ++ List.replicate data.length 0xFF#8 })
    | _ => s1.spiWords n (x.part ++ data))

/-- MB_TX_WRITE: a word written to MB_TX (R375). -/
def execMbTxWrite (n : Fin 2) (m : Fin 16) (w : Nat) (s : State) : Res :=
  .next (if s.hostUp ∧ s.mbBound (spiPort n) m then s.mbPush m w else s)

/-- MB_CLAIM (R384). -/
def execMbClaim (n : Fin 2) (m : Fin 16) (s : State) : Res := .next (if s.hostUp then s.mbBit (spiPort n) m 0 else s)

/-- MB_RELEASE (R384). -/
def execMbRelease (n : Fin 2) (m : Fin 16) (s : State) : Res := .next (if s.hostUp then s.mbBit (spiPort n) m 1 else s)

/-- MB_DOORBELL (R386). -/
def execMbDoorbell (n : Fin 2) (m : Fin 16) (s : State) : Res := .next (if s.hostUp then s.mbBit (spiPort n) m 2 else s)

/-- MB_TX_DISCARD (R384). -/
def execMbTxDiscard (n : Fin 2) (m : Fin 16) (s : State) : Res := .next (if s.hostUp then s.mbBit (spiPort n) m 3 else s)

/-- MB_RX_SKIP (R384). -/
def execMbRxSkip (n : Fin 2) (m : Fin 16) (s : State) : Res := .next (if s.hostUp then s.mbBit (spiPort n) m 4 else s)

/-- HOST_SPI_ABANDON: CS low with no edge; `tx` the mailbox whose MB_TX the transaction wrote by
MB_TX_WRITE. It is abandoned
once it has stood still for HOST_SPI_ABANDON, and what is clocked before CS falls again is ignored (R376). -/
def execHostSpiAbandon (n : Fin 2) (cut : SpiIdle) (tx : Option (Fin 16)) (s : State) : Res :=
  let p := spiPort n
  let s1 := (s.modHp p (fun x => { x with abandoned := true })).modSpi n (fun x => { x with run := .ignored, part := [], wrote := none })
  let hit (m : Fin 16) : Bool := s.mbBound p m && m.val % 2 == 0
  let r : State × Nat := match tx.or s.host.spi[n].wrote with
    | none => (s1, 0)
    | some m => if hit m then ((s1.mbDiscard m).modMb m (fun x => { x with abandoned := true }), s.host.mb[m].tx.length) else (s1, 0)
  .next (if s.hostUp ∧ s.parN P.HOST_SPI_ABANDON n ≤ cut.us then r.1.log 0x0E08 n.val (cut.off % 65536 + r.2 * 65536 : Nat) else s)

end Sys2Proof.Machine
end

