-- ==== Sys2Proof/Machine/HostMsg.lean ====
section
/-! DEFINITION. Requests as R394 checks them: layouts, epochs, tags, sequence numbers, roles and
permits (R394, R395, R411 to R418,
R424). -/

namespace Sys2Proof.Machine

/-- What a handler answers: the state, and the status and body of the reply, none where the reply comes later. -/
abbrev Ans := State × Option (Nat × List Byte)

/-- An entry of a message as it is carried: parameter identifier, instance, VALUE (R422). -/
structure RawEntry where
  id : Nat
  inst : Nat
  val : List Byte
deriving DecidableEq, Repr

/-- `n` entries, and nothing behind them; an identifier that no table defines ends the reading,
since its length is unknown (R422). -/
def rawEntries : Nat → List Byte → Option (List RawEntry)
  | 0, bs => if bs.isEmpty then some [] else none
  | n + 1, bs =>
    if bs.length < 4 then none
    else match findParam (leAt bs 0 2) with
      | none => some [⟨leAt bs 0 2, leAt bs 2 2, []⟩]
      | some p =>
        if bs.length < 4 + p.ty.size then none
        else (rawEntries n (bs.drop (4 + p.ty.size))).map (fun l =>
          ⟨leAt bs 0 2, leAt bs 2 2, (bs.drop 4).take p.ty.size⟩ :: l)

/-- The opcodes of requests (R418). -/
def opKnown (op : Nat) : Bool :=
  [0x0001, 0x0002, 0x0003, 0x0004, 0x0005, 0x0101, 0x0102, 0x0103, 0x0104, 0x0201, 0x0202, 0x0203, 0x0204, 0x0205, 0x0301, 0x0302, 0x0303,
   0x0401, 0x0402, 0x0501, 0x0502, 0x0601, 0x0602, 0x0701, 0x0702, 0x0703, 0x0710, 0x0711, 0x0712, 0x0713, 0x0720, 0x0721, 0x0722,
   0x0723].contains op

/-- The opcodes that a commissioning session may use (R390, R418). -/
def opCommissioning (op : Nat) : Bool := [0x0001, 0x0003, 0x0004, 0x0201, 0x0702].contains op

/-- The opcodes that start a commit (R405, R418). -/
def opCommits (op : Nat) : Bool := [0x0202, 0x0205, 0x0502, 0x0702, 0x0722].contains op

/-- The opcodes whose refusal names an entry (R417). -/
def opNamesEntry (op : Nat) : Bool := [0x0201, 0x0202, 0x0203, 0x0205, 0x0722].contains op

/-- The body of a refusal that names an entry (R417). -/
def failBody (entry id inst : Nat) : List Byte := leBytes 2 entry ++ leBytes 2 0 ++ leBytes 2 id ++ leBytes 2 inst

/-- A refusal (R417). -/
def refusal (op st : Nat) : Nat × List Byte := (st, if opNamesEntry op then failBody 0xFFFF 0 0 else [])

/-- The length of a block of an image: 4 bytes of offset, then 4 to 1,024 bytes (R431, R432). -/
def blockLen (n : Nat) : Bool := decide (8 ≤ n ∧ n ≤ 1028)

/-- The body's length is that of its opcode's layout (R412, R418 to R432, R290). -/
def bodyOk (op : Nat) (b : List Byte) : Bool :=
  let n := b.length
  match op with
  | 0x0001 => n == 20
  | 0x0002 => n == 16
  | 0x0003 => n == 0
  | 0x0004 => n == 0
  | 0x0005 => n == 4
  | 0x0101 => n == 20
  | 0x0102 => n == 20
  | 0x0103 => n == 20
  | 0x0104 => n == 20
  | 0x0201 => decide (4 ≤ n) && n == 4 + 4 * leAt b 0 2
  | 0x0202 => (rawEntries 1 b).isSome
  | 0x0203 => decide (4 ≤ n) && (rawEntries (leAt b 0 2) (b.drop 4)).isSome
  | 0x0204 => n == 0
  | 0x0205 => n == 0
  | 0x0301 => n == 8
  | 0x0302 => n == 16
  | 0x0303 => n == 4
  | 0x0401 => n == 8
  | 0x0402 => n == 8
  | 0x0501 => n == 4
  | 0x0502 => n == 48
  | 0x0601 =>
    let m := n - 4
    decide (4 ≤ n) && (match leAt b 2 1 with
      | 1 => m == 12
      | 2 => decide (5 ≤ m ∧ m ≤ 516)
      | 3 => m == 0
      | _ => true)
  | 0x0602 => decide (8 ≤ n) && n == 8 + leAt b 4 1
  | 0x0701 => n == 8
  | 0x0702 => n == 36
  | 0x0703 => n == 4
  | 0x0710 => n == 8
  | 0x0711 => blockLen n && n % 4 == 0
  | 0x0712 => n == 0
  | 0x0713 => n == 4
  | 0x0720 => n == 4
  | 0x0721 => blockLen n
  | 0x0722 => n == 0
  | 0x0723 => n == 8
  | _ => true

/-- The permits of an opcode, the governing one last (R418, R424). -/
def State.opPermits (s : State) (k : Fin 8) (op : Nat) (b : List Byte) : List Nat :=
  if op = 0x0502 then [3]
  else if op = 0x0601 then [8 + leAt b 0 2 / 32]
  else if op = 0x0602 then [8 + leAt b 0 1]
  else if op = 0x0701 ∨ op = 0x0703 ∨ op = 0x0104 then [5]
  else if op = 0x0702 then (if (s.sess k).key = 15 then [] else [5])
  else if 0x0710 ≤ op ∧ op ≤ 0x0713 then [6]
  else if 0x0720 ≤ op ∧ op ≤ 0x0722 then [5, 0]
  else []

/-- A session's kind, role and port may use an opcode (R390, R396, R399, R418). -/
def State.opRole (s : State) (k : Fin 8) (op : Nat) : Bool :=
  let x := s.sess k
  if x.key = 15 then opCommissioning op
  else if op = 0x0702 then x.role == 1 && decide (2 ≤ x.port)
  else if op = 0x0104 ∨ (0x0720 ≤ op ∧ op ≤ 0x0722) then x.role == 1
  else true

/-- Permits checked in order, the last with PERMIT_EPOCH, the others by holding alone (R398, R424). -/
def State.permitsCheck (s : State) (k : Fin 8) (pe : Nat) : List Nat → Nat
  | [] => stOk
  | [i] => s.permitCheck k i pe
  | i :: is => if s.holds k i then s.permitsCheck k pe is else stNoPermit

/-- A message refused at a host port is counted, and recorded where it is refused at steps 1 to 3
(R371, R394, R408, R439). -/
def State.countRefused (s : State) (port : Nat) : State :=
  s.modHp ⟨port % 4, Nat.mod_lt _ (by omega)⟩ (fun x => { x with refused := bump x.refused })

/-- A refusal at steps 1 to 3 is counted and recorded (R394, R439). -/
def State.refusedAt (s : State) (port st : Nat) : State :=
  let p : Fin 4 := ⟨port % 4, Nat.mod_lt _ (by omega)⟩
  let n := s.host.port[p].refNew + 1
  ((s.countRefused port).modHp p (fun x => { x with refNew := n })).log 0x0F03 p.val (st + n * 2 ^ 32 : Nat)

/-- The reply that refuses a request at steps 1 to 3: the request's epoch, SEQ 0, no tag (R413). -/
def earlyReply (op st : Nat) (q : Req) : List Byte := hostMsg op 1 st q.epoch 0 q.seq (refusal op st).2 none

/-- A request of a pair refused at steps 1 to 3 of R394; STALE_EPOCH goes out once per 100 ms. -/
def State.refuse (s : State) (k : Fin 8) (op st : Nat) (q : Req) : State :=
  let x := s.sess k
  let mute : Bool := st == stStaleEpoch && (match x.staleAt with
    | none => false
    | some t => decide (s.clk.tick < t + 25000000))
  let s1 := s.refusedAt x.port st
  if mute then s1
  else
    (if st = stStaleEpoch then s1.modSess k (fun y => { y with staleAt := some s.clk.tick }) else s1).pairOut k false (earlyReply op st q)

/-- Step 2 of R394 for a pair. -/
def State.epochOk (s : State) (k : Fin 8) (op : Nat) (q : Req) : Bool :=
  let x := s.sess k
  if op = 1 then q.epoch == 0
  else if op = 2 then x.state == .proving && x.epoch == q.epoch
  else x.state == .isOpen && x.epoch == q.epoch

/-- Step 3 of R394: a tag that is required is there, and one that is there is right (R412). -/
def State.tagOk (s : State) (k : Fin 8) (op : Nat) (q : Req) : Bool :=
  let x := s.sess k
  if op = 1 ∨ op = 2 then true
  else if bit q.flags 2 then x.key != 15 && (hmac x.tagKey q.covered).take 16 == q.tag
  else !x.macEvery

/-- Steps 1 to 3 of R394: OK, or the status of the refusal. -/
def State.earlyCheck (s : State) (k : Fin 8) (op : Nat) (q : Req) (b : List Byte) : Nat :=
  if bodyOk op b = false then stBadCrc
  else if s.epochOk k op q = false then stStaleEpoch
  else if s.tagOk k op q = false then stBadTag
  else stOk

/-- Step 4 of R394: a stored reply goes out again, a SEQ seen or too old is dropped, any other is
accepted and renews the lease
(R295, R393, R395). -/
def State.seqCheck (s : State) (k : Fin 8) (seq : Nat) : State × Bool :=
  let x := s.sess k
  if seqNewer seq x.rxSeq then
    let d := (seq + 2 ^ 32 - x.rxSeq) % 2 ^ 32
    (s.modSess k (fun y => { y with
      rxSeq := seq, win := if 64 ≤ d then 1 else (y.win * 2 ^ d + 1) % 2 ^ 64, leaseAt := s.clk.tick }), true)
  else match x.stored.find? (fun r => r.1 == seq) with
    | some r => (s.pairOut k false r.2, false)
    | none =>
      let back := (x.rxSeq + 2 ^ 32 - seq) % 2 ^ 32
      if 63 < back ∨ bit x.win back then (s, false)
      else (s.modSess k (fun y => { y with win := setBit y.win back, leaseAt := s.clk.tick }), true)

/-- Step 5 of R394 up to the opcode's own rules, in the order of R416. -/
def State.opCheck (s : State) (k : Fin 8) (op : Nat) (q : Req) (b : List Byte) : Nat :=
  if opKnown op = false then stUnknown
  else if s.opRole k op = false then stNoPermit
  else if opCommits op ∧ s.brownWarn then stBusySupply
  else s.permitsCheck k q.pe (s.opPermits k op b)

/-- A request whose reply comes later (R387, R402, R429). -/
def State.owe (s : State) (k : Fin 8) (op : Nat) (q : Req) : State :=
  s.modSess k (fun x => { x with out := x.out ++ [(q.seq, op, bit q.flags 2)] })

/-- OK with an empty body. -/
def ansOk : Option (Nat × List Byte) := some (stOk, [])

end Sys2Proof.Machine
end

