-- ==== Sys2Proof/Machine/ReqSess.lean ====
section
/-! DEFINITION. Requests about sessions and permits (R390 to R392, R397, R399, R419 to R421). -/

namespace Sys2Proof.Machine

/-- Why an open request is refused (R390, R391): OK where it is not; 15 names the commissioning session, which has the
MAINTENANCE role whichever ROLE its request carries. -/
def State.openStatus (s : State) (port : Nat) (body : List Byte) : Nat :=
  let slot := leAt body 0 1
  let role := leAt body 1 1
  if slot = 15 then (if s.commissioning ∧ 2 ≤ port ∧ role < 2 then stOk else stRange)
  else if h : slot < 8 then
    let x := s.host.key[slot]
    if x.locked s.clk.tick then stBusy
    else if x.prov ∧ role < 2 ∧ bit x.roles role ∧ bit x.ports port then stOk
    else stRange
  else stRange

/-- The session that an accepted open request makes: PROVING, or OPEN for commissioning; its own
sequence numbers (R391, R394, R419). -/
def Sess.opened (x : Sess) (q : Req) (body nd : List Byte) (epoch now : Nat) : Sess :=
  let slot := leAt body 0 1
  { Sess.reset with
    state := if slot = 15 then .isOpen else .proving
    port := x.port, ep := x.ep, role := if slot = 15 then 1 else leAt body 1 1, key := slot, epoch := epoch
    nh := (body.drop 4).take 16, nd := nd, leaseAt := now, since := now, rxSeq := q.seq, noticeLost := x.noticeLost }

/-- An open request at a bound pair (R391, R392, R413, R419): `entropy` gives ND. A refusal carries
epoch 0 and SEQ 0. -/
def State.sessionOpen (s : State) (k : Fin 8) (q : Req) (body : List Byte) (entropy : Nat) : State :=
  let x := s.sess k
  let st := s.openStatus x.port body
  if st ≠ stOk then
    let s1 := s.pairOut k false (hostMsg 1 1 st 0 0 q.seq [] none)
    if x.state = .claimed ∧ x.port < 2 then s1.unbind k else s1
  else
    let s1 := s.sessOver k 3
    let n := nextK s1.host.kSess
    let e := s1.epochOf n
    let slot := leAt body 0 1
    let nd := if slot = 15 then List.replicate 16 0#8 else leBytes 16 entropy
    let s2 := (s1.modHost (fun h => { h with kSess := n })).modSess k (fun y => y.opened q body nd e s.clk.tick)
    let s3 := s2.reply k 1 q.seq stOk false (nd ++ leBytes 4 e ++ leBytes 1 k.val ++ leBytes 1 (s2.sess k).state.code ++ leBytes 2 0)
    if slot = 15 then s3.log 0x0E01 k.val (e + 15 * 2 ^ 32 + 2 ^ 40 + x.port * 2 ^ 48 : Nat) else s3

/-- The pair that an endpoint of an Ethernet port has (R382). -/
def State.pairAt (s : State) (port : Nat) (ep : Endpoint) : Option (Fin 8) :=
  (fins 8).find? (fun k => (s.sess k).state != .free && (s.sess k).port == port && decide ((s.sess k).ep = ep))

/-- The lowest free pair (R382). -/
def State.freePair (s : State) : Option (Fin 8) := (fins 8).find? (fun k => (s.sess k).state == .free)

/-- The proof of R391, and the tag key. -/
def Sess.proof (x : Sess) (key : List Byte) : List Byte :=
  (hmac key (x.nh ++ x.nd ++ leBytes 4 x.epoch ++ leBytes 1 x.role ++ leBytes 1 x.port)).take 16

/-- A failed proof for a slot: counted over 60 s, and at the third the slot is locked out (R391). -/
def Key.failed (y : Key) (now : Nat) : Key :=
  let l := y.fails.filter (fun t => decide (now < t + 15000000000)) ++ [now]
  { y with fails := l, lockAt := if 3 ≤ l.length then some now else y.lockAt }

/-- A correct proof (R391, R392, R419): other sessions of the slot end, the lease starts. -/
def State.proved (s : State) (k : Fin 8) (q : Req) : State :=
  let x := s.sess k
  let slot : Fin 8 := ⟨x.key % 8, Nat.mod_lt _ (by omega)⟩
  let key := s.host.key[slot]
  let s1 := ((fins 8).filter (fun j => j != k && (s.sess j).state == .isOpen && (s.sess j).key == x.key)).foldl
    (fun (t : State) j => t.sessEnd j 3) s
  let s2 := s1.modSess k (fun y => { y with state := .isOpen, tagKey := hmac key.key (x.nd ++ x.nh ++ leBytes 4 x.epoch), leaseAt := s.clk.tick })
  let s3 := (s2.reply k 2 q.seq stOk false (leBytes 4 (s.parN P.HOST_SESSION_LEASE 0))).modSess k (fun y => { y with macEvery := key.macReq == 1 })
  s3.log 0x0E01 k.val (x.epoch + x.key * 2 ^ 32 + x.role * 2 ^ 40 + x.port * 2 ^ 48 : Nat)

/-- A wrong proof (R391, R392). -/
def State.unproved (s : State) (k : Fin 8) (q : Req) : State :=
  let x := s.sess k
  let slot : Fin 8 := ⟨x.key % 8, Nat.mod_lt _ (by omega)⟩
  let y := (s.host.key[slot]).failed s.clk.tick
  let s1 := (s.reply k 2 q.seq stBadTag false []).modHost (fun h => { h with key := upd h.key slot (fun _ => y) })
  (s1.log 0x0E03 x.key (x.port + min 255 y.fails.length * 256 + b2n (y.locked s.clk.tick) * 65536 : Nat)).toClaimed k

/-- A prove request (R391, R392). -/
def State.sessionProve (s : State) (k : Fin 8) (q : Req) (body : List Byte) : State :=
  let x := s.sess k
  let slot : Fin 8 := ⟨x.key % 8, Nat.mod_lt _ (by omega)⟩
  if body = x.proof (s.host.key[slot]).key then s.proved k q else s.unproved k q

/-- NOTICE_SET (R420). -/
def State.noticeSet (s : State) (k : Fin 8) (body : List Byte) : Ans :=
  (s.modSess k (fun x => { x with mask := leAt body 0 4 % 16 }), ansOk)

/-- The permits that a MASK names, ascending (R396, R421). -/
def maskPermits (body : List Byte) : List Nat :=
  let m := leAt body 0 16
  (List.range 72).filter (fun i => isPermit i && bit m i)

/-- The session's role may hold a permit (R396). -/
def Sess.mayHold (x : Sess) (i : Nat) : Bool := x.role == 1 || (i != 5 && i != 6)

/-- The grants of a reply (R421). -/
def State.grantBody (s : State) (is : List Nat) : List Byte :=
  leBytes 1 is.length ++ leBytes 3 0 ++ is.flatMap (fun i =>
    leBytes 1 i ++ leBytes 1 0 ++ leBytes 2 ((s.permit i).lease / 1000) ++ leBytes 4 (s.permit i).epoch)

/-- PERMIT_ACQUIRE: all or none (R397, R421). -/
def State.permitAcquire (s : State) (k : Fin 8) (body : List Byte) : Ans :=
  let is := maskPermits body
  let lease := leAt body 16 2
  if is.all (fun i => (s.sess k).mayHold i) = false then (s, some (stNoPermit, []))
  else if is = [] ∨ lease = 0 ∨ 600 < lease then (s, some (stRange, []))
  else match is.find? (fun i => (s.permit i).holder.isSome && !(s.holds k i)) with
    | some i => (s, some (stBusy, leBytes 1 (s.holderNib i) ++ leBytes 1 i ++ leBytes 2 0 ++ leBytes 4 (s.leaseLeft i)))
    | none =>
      let t := is.foldl (fun (u : State) i => u.grantPermit k i lease) s
      (t, some (stOk, t.grantBody is))

/-- PERMIT_RENEW: all or none (R397, R421). -/
def State.permitRenew (s : State) (k : Fin 8) (body : List Byte) : Ans :=
  let is := maskPermits body
  if is = [] then (s, some (stRange, []))
  else if is.all (fun i => s.holds k i) = false then (s, some (stNoPermit, []))
  else (s.useRenew is, some (stOk, (s.useRenew is).grantBody is))

/-- PERMIT_RELEASE (R397, R421). -/
def State.permitRelease (s : State) (k : Fin 8) (body : List Byte) : Ans :=
  let is := maskPermits body
  if is = [] then (s, some (stRange, []))
  else (is.foldl (fun (t : State) i => if t.holds k i then t.permitEnd i 1 else t) s, ansOk)

/-- PERMIT_TAKE: the holdings of others end with cause 4, then every permit named is granted (R399, R421). -/
def State.permitTake (s : State) (k : Fin 8) (body : List Byte) : Ans :=
  let is := maskPermits body
  let lease := leAt body 16 2
  if is = [] ∨ lease = 0 ∨ 600 < lease ∨ is.any (fun i => i == 5 || i == 6 || s.par P.PERMIT_TAKE_EN i == 0) then (s, some (stRange, []))
  else
    let t := is.foldl (fun (u : State) i => (if u.holds k i then u else u.permitEnd i 4).grantPermit k i lease) s
    (t, some (stOk, t.grantBody is))

end Sys2Proof.Machine
end

