-- ==== Sys2Proof/Machine/ReqParam.lean ====
section
/-! DEFINITION. Parameter requests: reads, writes, staging (R401, R416, R417, R422 to R425, R434, R435). -/

namespace Sys2Proof.Machine

/-- The checks of R416 on one entry, in order: UNKNOWN, READ_ONLY, its permits, its type and range. -/
def State.entryStatus (s : State) (k : Fin 8) (pe : Nat) (e : RawEntry) : Nat := match findParam e.id with
  | none => stUnknown
  | some p =>
    let v := p.ty.read e.val
    if p.instOk e.inst = false then stUnknown
    else if p.writable = false then stReadOnly
    else
      let st := s.permitsCheck k pe (s.entryPermits p e.inst v)
      if st ≠ stOk then st else if (if p.w1c then p.ty.fits v else p.valueOk e.inst v) then stOk else stRange

/-- The first entry that fails: its index, the entry, its status. -/
def State.firstFail (s : State) (k : Fin 8) (pe n : Nat) : List RawEntry → Option (Nat × RawEntry × Nat)
  | [] => none
  | e :: es => if s.entryStatus k pe e = stOk then s.firstFail k pe (n + 1) es else some (n, e, s.entryStatus k pe e)

/-- A carried entry as it is staged: the value without reserved bits, with the PERMIT_EPOCH of its
request (R13, R424). -/
def RawEntry.entry (e : RawEntry) (pe : Nat) : Entry := match findParam e.id with
  | none => ⟨e.id, e.inst, 0, pe⟩
  | some p => ⟨e.id, e.inst, p.norm (p.ty.read e.val), pe⟩

/-- The permits that entries use. -/
def State.usedBy (s : State) (es : List Entry) : List Nat := es.flatMap (fun e => match findParam e.id with
  | none => []
  | some p => s.entryPermits p e.inst e.val)

/-- PARAM_READ: every value from one input; the number of entries is the opcode's own rule (R416, R422). -/
def State.paramRead (s : State) (k : Fin 8) (body : List Byte) : Ans :=
  let n := leAt body 0 2
  let keys := (List.range n).map (fun i => (leAt body (4 + 4 * i) 2, leAt body (6 + 4 * i) 2))
  let known (q : Nat × Nat) : Bool := match findParam q.1 with
    | none => false
    | some p => p.instOk q.2
  match keys.zipIdx.find? (fun q => !(known q.1)) with
  | some q => (s, some (stUnknown, failBody q.2 q.1.1 q.1.2))
  | none =>
    if n = 0 ∨ 64 < n then (s, some (stRange, failBody 0xFFFF 0 0))
    else
      let r := keys.foldl (fun (a : List Byte × State) q => match findParam q.1 with
        | none => a
        | some p =>
          let v := a.2.readBy k p q.2
          (a.1 ++ entryBytes p q.2 v.1, v.2)) ([], s)
      (r.2, some (stOk, leBytes 2 n ++ leBytes 2 0 ++ r.1))

/-- A commit put into the pipeline; its reply comes at its end (R402). -/
def State.pushCommit (s : State) (k : Fin 8) (op : Nat) (q : Req) (kind : CommitKind) (es : List Entry) (data : List Byte) : State :=
  let x := s.sess k
  (s.owe k op q).modHost (fun h => { h with
    commits := h.commits ++ [⟨k, x.key, x.epoch, q.seq, op, bit q.flags 2, kind, es, data, .waiting⟩] })

/-- PARAM_WRITE: the commit of one entry (R401). -/
def State.paramWrite (s : State) (k : Fin 8) (q : Req) (body : List Byte) : Ans := match rawEntries 1 body with
  | some [e] =>
    match s.firstFail k q.pe 0 [e] with
    | some f => (s, some (f.2.2, failBody f.1 e.id e.inst))
    | none =>
      let es := [e.entry q.pe]
      ((s.useRenew (s.usedBy es)).pushCommit k 0x0202 q .write es [], none)
  | _ => (s, some (stRange, failBody 0xFFFF 0 0))

/-- An entry joins a staging area; one for the same instance takes the earlier one's place (R401, R425). -/
def stageOne (l : List Entry) (e : Entry) : List Entry :=
  if l.any (fun x => x.id == e.id && x.inst == e.inst) then l.map (fun x => if x.id = e.id ∧ x.inst = e.inst then e else x) else l ++ [e]

/-- The index of the first entry that would be the 257th of a staging area (R401). -/
def stageOverflow (l : List Entry) (n : Nat) : List Entry → Option Nat
  | [] => none
  | e :: es => if 256 < (stageOne l e).length then some n else stageOverflow (stageOne l e) (n + 1) es

/-- STAGE: staged whole or refused whole; the number of entries is the opcode's own rule (R401, R416, R422). -/
def State.stage (s : State) (k : Fin 8) (q : Req) (body : List Byte) : Ans :=
  let n := leAt body 0 2
  match rawEntries n (body.drop 4) with
  | none => (s, some (stRange, failBody 0xFFFF 0 0))
  | some raw =>
    match s.firstFail k q.pe 0 raw with
    | some f => (s, some (f.2.2, failBody f.1 f.2.1.id f.2.1.inst))
    | none =>
      if n = 0 ∨ 64 < n then (s, some (stRange, failBody 0xFFFF 0 0))
      else
        let es := raw.map (fun e => e.entry q.pe)
        match stageOverflow (s.sess k).staging 0 es with
        | some i => (s, some (stRange, failBody i (es.getD i ⟨0, 0, 0, 0⟩).id (es.getD i ⟨0, 0, 0, 0⟩).inst))
        | none =>
          let l := es.foldl stageOne (s.sess k).staging
          ((s.useRenew (s.usedBy es)).modSess k (fun x => { x with staging := l }),
            some (stStaged, leBytes 2 l.length ++ leBytes 2 0))

/-- DISCARD (R401). -/
def State.discard (s : State) (k : Fin 8) : Ans := (s.modSess k (fun x => { x with staging := [], stageLost := false }), ansOk)

/-- COMMIT of the staging area; an empty one is answered at once. It renews the leases of the
permits that its entries use (R397, R402). -/
def State.commitStaged (s : State) (k : Fin 8) (q : Req) : Ans :=
  match (s.sess k).staging with
  | [] => (s, some (stOk, leBytes 4 0))
  | es => ((s.useRenew ((s.usedBy es).filter (fun i => s.holds k i))).pushCommit k 0x0205 q .staged es [], none)

end Sys2Proof.Machine
end

