-- ==== Sys2Proof/Machine/ReqData.lean ====
section
/-! DEFINITION. Requests about slots, subscriptions, records, captures, batteries, nodes, PMBus
targets and shelf time (R37, R250, R251,
R303, R334, R335, R355, R364, R426 to R430). -/

namespace Sys2Proof.Machine

/-- POINT_READ (R334, R426). -/
def State.pointRead (s : State) (body : List Byte) : Ans :=
  let first := leAt body 0 4
  let n := leAt body 4 2
  if n = 0 ∨ 64 < n ∨ 0x20000 < first + n then (s, some (stRange, []))
  else (s, some (stOk, leBytes 4 first ++ leBytes 2 n ++ leBytes 2 0 ++ (List.range n).flatMap (fun i => (s.slot (first + i)).bytes)))

/-- The slots that VALUES subscriptions cover together (R335). -/
def State.valuesCovered (s : State) : Nat := ((s.pool.subs.filter (fun u => u.values)).map (fun u => u.count)).sum

/-- The lowest free subscription number (R426). -/
def State.freeSub (s : State) : Option Nat := (List.range 64).find? (fun i => !(s.pool.subs.any (fun u => u.id == i)))

/-- SUBSCRIBE (R335, R426). -/
def State.subscribe (s : State) (k : Fin 8) (body : List Byte) : Ans :=
  let kind := leAt body 0 1
  let n := leAt body 2 2
  let first := leAt body 4 4
  let values : Bool := kind == 1
  let interval := leAt body 12 4
  if 1 < kind ∨ n = 0 ∨ 4096 < n ∨ 0x20000 < first + n ∨ (values ∧ 10000000 < interval) ∨ (values ∧ 16384 < s.valuesCovered + n) then
    (s, some (stRange, []))
  else if 16 ≤ (s.pool.subs.filter (fun u => u.sess == k.val)).length then (s, some (stBusy, []))
  else match s.freeSub with
    | none => (s, some (stBusy, []))
    | some i =>
      (s.modPool (fun p => { p with
        events := p.events.map (fun e => { e with subs := e.subs.filter (· != i) })
        subs := p.subs ++ [⟨i, k.val, first, n, values, leAt body 8 4, interval, []⟩] }),
        some (stOk, leBytes 1 i ++ leBytes 3 0))

/-- Values posted in notices of up to 64 (R335, R433); `n` notices at most. -/
def State.postAll (s : State) (u : Sub) (ks : List Nat) : Nat → State
  | 0 => s
  | n + 1 => if ks = [] then s else (s.postValues u (ks.take 64)).postAll u (ks.drop 64) n

/-- The first postings of the newest VALUES subscription, at once after its reply (R335). -/
def State.postFirst (s : State) : State := match s.pool.subs.getLast? with
  | none => s
  | some u => if u.values then s.postAll u (s.subDue u) 64 else s

/-- UNSUBSCRIBE (R426). -/
def State.unsubscribe (s : State) (k : Fin 8) (body : List Byte) : Ans :=
  let i := leAt body 0 1
  if s.pool.subs.any (fun u => u.id == i && u.sess == k.val) then
    (s.modPool (fun p => { p with subs := p.subs.filter (fun u => u.id != i) }), ansOk)
  else (s, some (stRange, []))

/-- Up to `n` records latched from a sequence on, as (sequence, STATUS, bytes), and whether the
first latch moved (R354, R355, R427). -/
def State.siltRun (s : State) (cursor : Nat) : Nat → List (Nat × Nat × List Byte)
  | 0 => []
  | n + 1 =>
    let r := s.siltLatch cursor
    if r.2.1 = 1 then [] else (r.1, r.2.1, r.2.2.2) :: s.siltRun (siltNext r.1) n

/-- SILT_READ (R355, R427). -/
def State.siltRead (s : State) (k : Fin 8) (body : List Byte) : Ans :=
  let first := leAt body 0 4
  let n := leAt body 4 1
  if n = 0 ∨ 16 < n then (s, some (stRange, []))
  else
    let l := s.siltRun first n
    let head := s.siltLatch first
    let t := (l.filter (fun q => q.2.1 == 2)).foldl (fun (u : State) q => u.log 0x0D03 (s.sess k).port (Int.ofNat q.1)) s
    (t, some (stOk, leBytes 4 head.1 ++ leBytes 1 l.length ++ leBytes 1 (b2n head.2.2.1) ++ leBytes 2 0 ++
      l.flatMap (fun q => leBytes 1 q.2.1 ++ leBytes 3 0 ++ q.2.2)))

/-- SPATE_READ (R364, R427). -/
def State.spateRead (s : State) (body : List Byte) : Ans :=
  let slot := leAt body 0 1
  let len := leAt body 2 2
  let off := leAt body 4 4
  if h : slot < 48 then
    if len < 4 ∨ 1024 < len ∨ len % 4 ≠ 0 ∨ off % 4 ≠ 0 ∨ 262144 < off + len then (s, some (stRange, []))
    else
      let k : Fin 48 := ⟨slot, h⟩
      if s.slotState k = 3 then (s, some (stBusy, []))
      else if s.slotState k = 0 then (s, some (stRange, []))
      else (s, some (stOk, body.take 1 ++ leBytes 1 0 ++ leBytes 2 len ++ leBytes 4 off ++ s.load (slotAddr k + 4) 4 ++ s.load (slotAddr k + off) len))
  else (s, some (stRange, []))

/-- BATT_EXPORT (R250, R428). -/
def State.battExport (s : State) (body : List Byte) : Ans :=
  let i := leAt body 0 1
  if h : i < 8 then (if s.par P.BATT_ENABLE i = 1 then (s, some (stOk, s.battRecord ⟨i, h⟩)) else (s, some (stRange, [])))
  else (s, some (stRange, []))

/-- The restore of a string from a record: rules 3 to 6 of R251, then its effect. -/
def State.battRestore (s : State) (r : List Byte) : State × Nat :=
  let i := leAt r 1 1
  if crc32c (r.take 44) ≠ leAt r 44 4 then (s, stBadCrc)
  else if h : i < 8 then
    let b : Fin 8 := ⟨i, h⟩
    let x := s.batt[b]
    let cap := leAt r 12 4
    let gen := leAt r 8 4
    let nom := s.parN P.BATT_CAP_NOM b
    if leAt r 0 1 ≠ 1 ∨ s.par P.BATT_ENABLE b = 0 ∨ leAt r 4 4 ≠ s.parN P.BATT_STRING_ID b ∨ leAt r 2 1 ≠ s.parN P.BATT_CHEM b ∨
        cap * 100 < s.parN P.BATT_CAP_MIN b * nom ∨ s.parN P.BATT_CAP_MAX b * nom < cap * 100 ∨ leAt r 3 1 ≠ 0 then (s, stRange)
    else if x.fl.unrestored = false ∧ gen < x.learned.gen then (s, stRange)
    else if x.fl.unrestored = false ∧ gen = x.learned.gen then (s, stOk)
    else
      let s1 := (s.battLearned b ⟨cap, gen, leAt r 16 4, leAt r 20 2, leAt r 22 2, leAt r 24 8⟩).modBf b (fun f => { f with unrestored := false })
      (s1.log 0x090A b.val (lohi gen cap), stOk)
  else (s, stRange)

/-- NODE_RELAY: one step of a relay goes to the node; without a session of the node the step is BUSY, and UNKNOWN for an
address that names no node (R303, R429, R434). -/
def State.nodeRelay (s : State) (k : Fin 8) (q : Req) (body : List Byte) : Ans :=
  let a := leAt body 0 2
  let step := leAt body 2 1
  let data := body.drop 4
  if isNode a = false then (s, some (stUnknown, []))
  else if step = 0 ∨ 3 < step then (s, some (stRange, []))
  else if step = 1 then
    if (s.relayOf (a / 32)).isSome ∨ (s.node a).isOpen = false then (s, some (stBusy, []))
    else
      ((((s.owe k 0x0601 q).setRelay (a / 32) (some ⟨a, k.val, 0⟩)).log 0x0B09 a 1).nodeRequest a 0x21 data (.relay k.val q.seq), none)
  else match s.relayOf (a / 32) with
    | none => (s, some (stRange, []))
    | some r =>
      if r.addr ≠ a ∨ r.sess ≠ k.val then (s, some (stRange, []))
      else ((s.owe k 0x0601 q).nodeRequest a (if step = 2 then 0x22 else 0x23) data (.relay k.val q.seq), none)

/-- The lengths of a PMBus protocol (R429): W bytes written, R read. -/
def pmbLens (proto w r : Nat) : Bool :=
  match proto with
  | 0 => w == 0 && r == 0
  | 1 => w == 1 && r == 0
  | 2 => w == 2 && r == 0
  | 3 => w == 0 && r == 1
  | 4 => w == 0 && r == 2
  | 5 => w == 2 && r == 2
  | 6 => w == 0 && decide (1 ≤ r ∧ r ≤ 32)
  | _ => false

/-- PMBUS_XFER: RANGE for what the device does not support, the extended command codes among it
(R279); the transaction waits behind the one on the bus; a stuck bus is answered at once (R429). -/
def State.pmbusXfer (s : State) (k : Fin 8) (q : Req) (body : List Byte) : Ans :=
  let port := leAt body 0 1
  let tgt := leAt body 1 1
  let w := leAt body 4 1
  let r := leAt body 5 1
  if h : port < 64 ∧ tgt < 16 then
    let p : Fin 64 := ⟨port, h.1⟩
    if s.par P.PORT_MODE p ≠ 2 ∨ s.parN P.PORT_PMB_ADDR (port * 16 + tgt) = 0xFF ∨ 0xFE ≤ leAt body 3 1 ∨ pmbLens (leAt body 2 1) w r = false then (s, some (stRange, []))
    else if s.port[p].stuck then (s, some (stOk, leBytes 1 5 ++ leBytes 3 0))
    else
      let j : PmbJob := ⟨⟨tgt, h.2⟩, leAt body 3 1, leAt body 2 1, (body.drop 8).take w, r, .pass k.val q.seq, false⟩
      ((s.owe k 0x0602 q).modPmb p (fun x => { x with jobs := x.jobs.take 1 ++ j :: x.jobs.drop 1 }), none)
  else (s, some (stRange, []))

/-- TIME_SET: applied as an offset from a time source; BUSY while shelf time is locked (R35 to R37, R39). -/
def State.timeSet (s : State) (body : List Byte) : Ans :=
  if s.tb.lockTime then (s, some (stBusy, []))
  else ((s.modTb (fun t => { t with isSet := true, timeGap := false })).correctOffset ((leAt body 0 8 / 4 * 4 : Nat) - (s.clk.shelf : Int)), ansOk)

end Sys2Proof.Machine
end

