-- ==== Sys2Proof/Machine/ReqDev.lean ====
section
/-! DEFINITION. Requests about keys, operating states, firmware and Keneb images (R390, R430 to
R432, R437, R498, R507, R508). -/

namespace Sys2Proof.Machine

/-- A key load breaks R390: a slot or policy that does not exist, a key of zeros, or a commissioning
session once a slot is
PROVISIONED. -/
def State.keyLoadBad (s : State) (comm : Bool) (body : List Byte) : Bool :=
  decide (8 ≤ leAt body 0 1 ∨ 2 ≤ leAt body 3 1 ∨ leNat (body.drop 4) = 0) || (comm && !s.commissioning)

/-- The key slot that a key load leaves (R389, R390): roles 0 empties it. -/
def Key.loaded (x : Key) (body : List Byte) : Key :=
  let roles := leAt body 1 1 % 4
  if roles = 0 then { x with prov := false, roles := 0, ports := 0, macReq := 1, key := List.replicate 32 0, fails := [], lockAt := none }
  else { x with prov := true, roles := roles, ports := leAt body 2 1 % 16, macReq := leAt body 3 1, key := body.drop 4, fails := [], lockAt := none }

/-- A key load takes effect, and every open session of the slot ends with cause 4 (R390, R410). -/
def State.keyLoad (s : State) (sess : Nat) (body : List Byte) : State :=
  let slot : Fin 8 := ⟨leAt body 0 1 % 8, Nat.mod_lt _ (by omega)⟩
  let s1 := (s.modHost (fun h => { h with key := upd h.key slot (fun x => x.loaded body) })).log 0x0E0A slot.val
    (sess + leAt body 1 1 % 4 * 256 + leAt body 2 1 % 16 * 65536 : Nat)
  ((fins 8).filter (fun j => (s.sess j).state == .isOpen && (s.sess j).key == slot.val)).foldl (fun (t : State) j => t.sessEnd j 4) s1

/-- The status of STATE_REQ; OK lets the change follow the reply (R498). -/
def State.stateStatus (s : State) (body : List Byte) : Nat :=
  let t := leAt body 0 1
  if t = 0 ∨ 3 < t then stRange
  else if s.brownWarn then stBusySupply
  else if t ≠ 1 ∧ s.hold.state ≠ .normal then stBusy
  else stOk

/-- What an accepted STATE_REQ does (R498 to R500). -/
def State.stateChange (s : State) (k : Fin 8) (body : List Byte) : State :=
  let t := leAt body 0 1
  if t = s.dev.state.code then s
  else if t = 1 then s.runEntry k.val
  else if t = 2 then s.quietEntry k.val
  else s.dormantEntry k.val

/-- Bytes of an image put into a firmware slot of the silt store from an offset on; its first word
stays 0 until FW_END (R339, R507). -/
def State.fwStore (s : State) (k : Fin 2) (off : Nat) (bs : List Byte) : State :=
  let n := 4 - min 4 off
  s.store (0x400000 * k.val + off) (List.replicate (min n bs.length) 0#8 ++ bs.drop n)

/-- FW_BEGIN (R507). -/
def State.fwBegin (s : State) (k : Fin 8) (body : List Byte) : Ans :=
  let len := leAt body 0 4
  let other : Bool := match s.firm.load with
    | none => false
    | some x => x.sess != k
  let slot : Fin 2 := 1 - s.firm.run
  if s.firm.trialSlot.isSome ∨ other then (s, some (stBusy, []))
  else if len < 1024 ∨ 4194304 < len ∨ len % 4 ≠ 0 then (s, some (stRange, []))
  else
    ((s.fwStore slot 0 (List.replicate 4 0#8)).modFirm (fun f => { f with
      slot := upd f.slot slot (fun _ => none), verified := false, load := some ⟨k, slot, len, leAt body 4 4, [], none⟩ }), ansOk)

/-- FW_BLOCK: during BROWN_WARN the block and its reply wait for the end of it (R507). -/
def State.fwBlock (s : State) (k : Fin 8) (q : Req) (body : List Byte) : Ans :=
  let data := body.drop 4
  match s.firm.load with
  | none => (s, some (stRange, []))
  | some x =>
    if x.sess ≠ k ∨ leAt body 0 4 ≠ x.data.length ∨ x.len < x.data.length + data.length then (s, some (stRange, []))
    else
      let put (o : Option Nat) (t : State) : State := t.modFirm (fun f => { f with load := some { x with data := x.data ++ data, owed := o } })
      if s.brownWarn then (put (some q.seq) (s.owe k 0x0711 q), none)
      else (put none (s.fwStore x.slot x.data.length data), ansOk)

/-- The status of FW_END for a transfer (R506, R507). -/
def State.fwStatus (s : State) (x : FwLoad) : Nat :=
  let d := x.data
  if d.length ≠ x.len ∨ leAt d 0 4 ≠ 0x4C4F4E4C ∨ leAt d 16 4 ≠ 0x4C470848 ∨ leAt d 12 4 ≠ x.len ∨ leAt d 4 4 ≠ x.version then stRange
  else if Config.fwSignatureOk d = false then stBadSignature
  else if leAt d 8 2 < s.firm.rollback then stRollback
  else stOk

/-- FW_END: the slot holds a valid image, or none (R507). -/
def State.fwEnd (s : State) (k : Fin 8) : Ans := match s.firm.load with
  | none => (s, some (stRange, []))
  | some x =>
    if x.sess ≠ k then (s, some (stRange, []))
    else
      let st := s.fwStatus x
      let img : Option FwImage := if st = stOk then some ⟨x.version, leAt x.data 8 2, x.len⟩ else none
      let s1 := if st = stOk then s.store (0x400000 * x.slot.val) (x.data.take 4) else s
      (s1.modFirm (fun f => { f with load := none, slot := upd f.slot x.slot (fun _ => img), verified := img.isSome }), some (st, []))

/-- The status of FW_ACTIVATE (R508). -/
def State.activateStatus (s : State) (body : List Byte) : Nat :=
  let n := leAt body 0 1
  if h : n < 2 then
    let k : Fin 2 := ⟨n, h⟩
    match s.firm.slot[k] with
    | none => stRange
    | some i =>
      if k = s.firm.run ∨ i.rollback < s.firm.rollback then stRange
      else if s.firm.trialSlot.isSome ∨ s.hold.state ≠ .normal then stBusy
      else stOk
  else stRange

/-- An accepted FW_ACTIVATE after its reply (R508): its record is committed before the restart. -/
def State.fwActivate (s : State) (body : List Byte) : State :=
  let k : Fin 2 := ⟨leAt body 0 1 % 2, Nat.mod_lt _ (by omega)⟩
  match s.firm.slot[k] with
  | none => s
  | some i =>
    let s1 := (s.modFirm (fun f => { f with trialSlot := some k, trialBoots := 0, trialStart := 0 })).ledgerWrite
    let s2 := (s1.log 0x1205 k.val (i.version + i.rollback * 2 ^ 32 : Nat)).siltDecideAll
    (s2.siltDrain s2.silt.queue.length).fwRestart 3

/-- The image slot not in force (R403, R432). -/
def State.otherImg (s : State) : Nat := match s.firm.kenebSlot with
  | none => 1 - s.host.ledImg
  | some k => 1 - k.val

/-- KENEB_BEGIN (R432). -/
def State.kenebBegin (s : State) (k : Fin 8) (body : List Byte) : Ans :=
  let len := leAt body 0 4
  if len < 132 ∨ imgMax < len then (s, some (stRange, []))
  else (s.modHost (fun h => { h with load := some ⟨k, len, []⟩ }), ansOk)

/-- KENEB_BLOCK (R432). -/
def State.kenebBlock (s : State) (k : Fin 8) (body : List Byte) : Ans :=
  let off := leAt body 0 4
  let data := body.drop 4
  match s.host.load with
  | none => (s, some (stRange, []))
  | some x =>
    if x.sess ≠ k ∨ off % 4 ≠ 0 ∨ x.len < off + data.length then (s, some (stRange, []))
    else (s.modHost (fun h => { h with load := some { x with blocks := x.blocks ++ [(off, data)] } }), ansOk)

/-- The image that a transfer leaves in the slot not in force (R432). -/
def State.loaded (s : State) (x : KLoad) : List Byte :=
  let a := imgAddr s.otherImg
  mramGet (x.blocks.foldl (fun m b => mramPut m (a + b.1) b.2) s.mram) a x.len

/-- Steps 1 to 3 of R437 on a loaded image: OK, or the status, entry, parameter and instance. -/
def State.loadFail (s : State) (bs : List Byte) (len : Nat) : ImgFail :=
  if imgSound bs len = false then ⟨0xFFFF, 0, 0, stBadCrc⟩
  else if imgFits bs s.release = false then ⟨0xFFFF, 0, 0, stRange⟩
  else match imgParse bs with
    | .error e => e
    | .ok _ => ⟨0xFFFF, 0, 0, stOk⟩

/-- A refused image is recorded (R437, R439). -/
def State.kenebRefused (s : State) (k : Fin 8) (status entry id : Nat) : State :=
  s.log 0x0F02 k.val (status + entry * 65536 + id * 2 ^ 32 : Nat)

/-- KENEB_END: steps 1 to 3 of R437, then a commit; the transfer runs on until that has its commit
point (R432, R437). -/
def State.kenebEnd (s : State) (k : Fin 8) (q : Req) : Ans := match s.host.load with
  | none => (s, some (stRange, failBody 0xFFFF 0 0))
  | some x =>
    if x.sess ≠ k then (s, some (stRange, failBody 0xFFFF 0 0))
    else
      let bs := s.loaded x
      let f := s.loadFail bs x.len
      if f.status ≠ stOk then (s.kenebRefused k f.status f.entry (leAt bs 12 4), some (f.status, failBody f.entry f.id f.inst))
      else (s.pushCommit k 0x0722 q .image [] bs, none)

/-- KENEB_READ: part of the image in force (R432). -/
def State.kenebRead (s : State) (body : List Byte) : Ans :=
  let off := leAt body 0 4
  let len := leAt body 4 2
  match s.firm.kenebSlot with
  | none => (s, some (stRange, []))
  | some k =>
    if len < 4 ∨ 1024 < len ∨ len % 4 ≠ 0 ∨ off % 4 ≠ 0 ∨ s.loadNat (imgAddr k + 20) 4 < off + len then (s, some (stRange, []))
    else (s, some (stOk, body ++ s.load (imgAddr k + off) len))

end Sys2Proof.Machine
end

