-- ==== Sys2Proof/Machine/Commit.lean ====
section
/-! DEFINITION. The commit pipeline: the checks at its head, the image and its ledger write, the
apply input (R401 to R406, R437). -/

namespace Sys2Proof.Machine

/-- A set of values with the class-K entries of a commit (R403). -/
def newCfg (c : SMap Int) (es : List Entry) : SMap Int := es.foldl (fun c e => match findParam e.id with
  | none => c
  | some p => if p.keeps = .K then cfgSet c p e.inst e.val else c) c

/-- An entry of class K. -/
def Entry.isK (e : Entry) : Bool := match findParam e.id with
  | none => false
  | some p => p.keeps == .K

/-- A control entry. -/
def Entry.isCtl (e : Entry) : Bool := match findParam e.id with
  | none => false
  | some p => p.wo

/-- The values a commit leaves in force (R403, R437). -/
def State.commitCfg (s : State) (c : Commit) : SMap Int := match c.kind with
  | .image => match imgParse c.data with
    | .error _ => s.cfg
    | .ok l => imgValues l
  | _ => newCfg s.cfg c.entries

/-- The permits and the ranges of an entry that depend on the state or on other parameters (R210, R398, R402, R486). -/
def State.headEntry (s : State) (k : Fin 8) (c : SMap Int) (e : Entry) : Nat := match findParam e.id with
  | none => stUnknown
  | some p =>
    let st := s.permitsCheck k e.pe (s.entryPermits p e.inst e.val)
    if st ≠ stOk then st
    else if p.id = 0x2810 ∧ e.val ≠ 0xFFFFFFFF ∧ cfgGet c P.WEIR_CAP_MAX e.inst < e.val then stRange
    else if p.id = 0x5821 ∧ cfgGet c P.TIMER_RELOAD e.inst < e.val then stRange
    else stOk

/-- The first entry whose check at the head fails, with its status. -/
def State.headFail (s : State) (k : Fin 8) (c : SMap Int) (n : Nat) : List Entry → Option (Nat × Entry × Nat)
  | [] => none
  | e :: es => if s.headEntry k c e = stOk then s.headFail k c (n + 1) es else some (n, e, s.headEntry k c e)

/-- The effect and status of a control entry (R404); `may`: HOLDUP counts as held. -/
def State.ctlEntry (s : State) (k : Fin 8) (may : Bool) (e : Entry) : State × Nat := match findParam e.id with
  | none => (s, stOk)
  | some p => if p.wo then s.ctlEffect k may p e.inst e.val.toNat else (s, stOk)

/-- The first control entry that would be refused, tried in entry order on the new values (R402, R404). -/
def State.ctlFail (s : State) (k : Fin 8) (n : Nat) : List Entry → Option (Nat × Entry × Nat)
  | [] => none
  | e :: es =>
    let r := s.ctlEntry k (s.holds k 2) e
    if r.2 = stOk then r.1.ctlFail k (n + 1) es else some (n, e, r.2)

/-- The session that sent a commit is still the one it came from. -/
def State.sameSess (s : State) (c : Commit) : Bool := (s.sess c.sess).state == .isOpen && (s.sess c.sess).epoch == c.epoch

/-- The state in which the permits of a commit are checked: a session that has ended holds none (R393, R402). -/
def State.headState (s : State) (c : Commit) : State := if s.sameSess c then s else s.modHost (fun h => { h with permit := [] })

/-- A commit writes an image (R403). -/
def Commit.writes (c : Commit) : Bool := match c.kind with
  | .image => true
  | .restore => false
  | .key => false
  | _ => c.entries.any Entry.isK

/-- The image that a set of values makes fits its slot of 1,984 KiB (R339; DESIGN CHOICE, log entry 142). -/
def imgRoom (c : SMap Int) : Bool := decide (132 + (imgBody c).flatten.length ≤ imgMax)

/-- The check of a commit at the head of the pipeline (R402): status, entry, parameter and instance. -/
def State.headCheck (s : State) (c : Commit) : ImgFail :=
  let new := s.commitCfg c
  let t := s.headState c
  let one (f : Nat × Entry × Nat) : ImgFail := ⟨f.1, f.2.1.id, f.2.1.inst, f.2.2⟩
  match c.kind with
  | .restore =>
    let st := t.permitCheck c.sess 3 0
    ⟨0xFFFF, 0, 0, if st ≠ stOk then st else (s.battRestore c.data).2⟩
  | .key =>
    let st := if c.key ≠ 15 then t.permitCheck c.sess 5 0 else if s.sameSess c then stOk else stNoPermit
    ⟨0xFFFF, 0, 0, if st ≠ stOk then st else if s.keyLoadBad (c.key == 15) c.data then stRange else stOk⟩
  | .image =>
    let st := t.permitsCheck c.sess 0 [5, 0]
    if st ≠ stOk then ⟨0xFFFF, 0, 0, st⟩
    else if s.quietFor new = false then ⟨0xFFFF, 0, 0, stBusy⟩
    else ⟨0xFFFF, 0, 0, crossStatus new⟩
  | _ =>
    match t.headFail c.sess new 0 c.entries with
    | some f => one f
    | none =>
      if s.quietFor new = false then ⟨0xFFFF, 0, 0, stBusy⟩
      else if crossStatus new ≠ stOk then ⟨0xFFFF, 0, 0, crossStatus new⟩
      else if c.writes ∧ imgRoom new = false then ⟨0xFFFF, 0, 0, stRange⟩
      else match ({ s with cfg := new } : State).ctlFail c.sess 0 c.entries with
        | some f => one f
        | none => ⟨0xFFFF, 0, 0, stOk⟩

/-- The commit at the head leaves the pipeline. -/
def State.commitPop (s : State) : State := s.modHost (fun h => { h with commits := h.commits.tail })

/-- The commit at the head goes on to its next stage. -/
def State.commitTo (s : State) (st : CommitStage) : State :=
  s.modHost (fun h => { h with commits := match h.commits with
    | [] => []
    | c :: cs => { c with stage := st } :: cs })

/-- HOST_LAST_COMMIT and HOST_LAST_COMMIT_ST of the commit's key slot (R406); a commissioning session has none. -/
def State.lastCommit (s : State) (c : Commit) (st : Nat) : State :=
  if h : c.key < 8 then
    s.modHost (fun x => { x with key := upd x.key ⟨c.key, h⟩ (fun y => { y with lastEpoch := c.epoch, lastSeq := c.seq, lastSt := st }) })
  else s

/-- The reply of a commit, dropped where its session has ended (R393, R402). -/
def State.commitReply (s : State) (c : Commit) (st : Nat) (body : List Byte) : State :=
  if s.sameSess c then s.answer c.sess.val c.seq st body else s

/-- A commit is refused before its commit point: HOST_COMMIT_REFUSED whatever it carries, for an image behind
KENEB_REFUSED (R402, R410, R437, R439, R52). -/
def State.commitRefuse (s : State) (c : Commit) (f : ImgFail) : State :=
  let s1 := s.commitPop.lastCommit c f.status
  let s2 := (if c.kind = .image then s1.kenebRefused c.sess f.status f.entry (leAt c.data 12 4) else s1).log 0x0E07 c.sess.val
    (f.status + f.entry * 65536 + c.seq * 2 ^ 32 : Nat)
  let e := cLoad (s.commitCfg c)
  let s3 := if f.status = stNoBudget then s2.log 0x0203 c.sess.val (e % 65536 + 22 * e * 65536 : Nat) else s2
  s3.commitReply c f.status (if opNamesEntry c.op then failBody f.entry f.id f.inst else [])

/-- COMMIT_PIPELINE_HEAD: the commit at the head is checked; refused, or on its way to its image or
its apply input. One that writes an
image waits for the end of BROWN_WARN (R402, R403, R405). -/
def execCommitPipelineHead (s : State) : Res :=
  match s.host.commits with
  | [] => .next s
  | c :: _ =>
    .next (if s.hasActive = false ∨ c.stage ≠ .waiting ∨ (s.brownWarn ∧ c.writes) then s
    else if s.sluiceSpent 2 then s.sluiceStall 2
    else
      let f := s.headCheck c
      if f.status ≠ stOk then s.commitRefuse c f else s.commitTo (if c.writes then .writing else .committed))

/-- The image that a commit stores (R403, R436, R437): built from the new values, or as loaded with
KENEB_GEN and LAST_COMMIT of this
device. -/
def State.commitImage (s : State) (c : Commit) : List Byte :=
  let h := s.host
  let gen := (h.kenebGen + 1) % 2 ^ 32
  match c.kind with
  | .image =>
    let d := c.data
    let t := (d.drop 1).take 15 ++ leBytes 4 gen ++ (d.drop 20).take 12 ++ lastCommits h.key ++ (d.take (d.length - 4)).drop 128
    d.take 1 ++ t ++ leBytes 4 (crc32c t)
  | _ => imgBuild h.minFw h.kenebId gen h.key (s.commitCfg c)

/-- KENEB_IMAGE_WRITTEN: the image stands in the slot not in force and one ledger write puts it in
force, which is the commit point and the end of the transfer that loaded it
(R403, R404, R406, R432; log entry 93). -/
def execKenebImageWritten (s : State) : Res :=
  match s.host.commits with
  | [] => .next s
  | c :: _ =>
    .next (if s.hasActive = false ∨ c.stage ≠ .writing ∨ s.brownWarn then s
    else if s.sluiceSpent 2 then s.sluiceStall 2
    else
      let k := s.otherImg
      let s1 := s.lastCommit c stOk
      let image : Bool := decide (c.kind = .image)
      let s2 := (s1.imgStore k (s1.commitImage c)).modHost (fun h => { h with
        load := if image ∧ s.sameSess c then none else h.load
        ledImg := k, kenebGen := (h.kenebGen + 1) % 2 ^ 32
        kenebId := if image then leAt c.data 12 4 else h.kenebId, minFw := if image then leAt c.data 8 4 else h.minFw })
      ((s2.modFirm (fun f => { f with kenebSlot := some ⟨k % 2, Nat.mod_lt _ (by omega)⟩ })).ledgerWrite).commitTo .committed)

/-- The keys of two sets of values at which they may differ. -/
def changedKeys (a b : SMap Int) : List Nat :=
  (a.map (·.1) ++ (b.map (·.1)).filter (fun k => !(a.any (fun q => q.1 == k)))).filter (fun k => match findParam (k / 65536) with
    | none => false
    | some p => cDiff a b p (k % 65536))

/-- The slots that lie in no block any more lose their record: they read with VALID 0 (R316). -/
def State.slotsPrune (s : State) : State :=
  let bl := cBlocks s.cfg
  s.modPool (fun p => { p with slot := p.slot.filter (fun q => bl.any (fun b => decide (b.1 ≤ q.1 ∧ q.1 < b.1 + b.2))) })

/-- The tokens of a code's bucket settled at a commit of its burst or rate: refilled at the old rate
up to now, and limited
to the new size (R351). -/
def CodeSt.settle (c : CodeSt) (now rate burst burst' : Nat) : CodeSt :=
  let used := c.deficit - rate * (now - c.at_)
  let tokens := burst * 10000000000 - used
  { c with deficit := burst' * 10000000000 - min tokens (burst' * 10000000000), at_ := max c.at_ now }

/-- The buckets of the codes whose burst or rate a commit changes (R351). -/
def State.codeSettle (s : State) (new : SMap Int) (ks : List Nat) : State :=
  ks.foldl (fun (t : State) k =>
    if k / 65536 = 0x4001 ∨ k / 65536 = 0x4002 then
      let i := k % 65536
      t.setCode i ((t.codeSt i).settle s.clk.shelf (s.parN P.SILT_CODE_RATE i) (cN s.cfg P.SILT_CODE_BURST i) (cN new P.SILT_CODE_BURST i))
    else t) s

/-- What follows a new value of a kept parameter (R31, R86, R129, R141, R187, R207, R226, R255, R263, R304, R328, R358,
R370, R479). -/
def State.afterPar (s : State) (id i : Nat) : State :=
  if id = 0x0420 then s.tbRestart
  else if id = 0x1000 then finS 16 i s (fun l => if s.par P.LOOP_ENABLE l = 0 then s.pgDrop l 0 else s)
  else if id = 0x0C00 then finS 48 i s (fun p => (s.outputsLow p).modPh p (fun x => { x with slot := none, shed := .active, hot := false }))
  else if id = 0x1080 ∨ id = 0x1081 then finS 16 i s (fun l => if s.live l then s else s.ocModeStep l)
  else if id = 0x2011 then finS 64 i s (fun m => (s.mbrTo m .absent).modMbr m (fun x => { x with trim := 0 }))
  else if id = 0x2800 then (if s.par P.WEIR_ENABLE 0 = 0 then s.weirOff else s)
  else if id = 0x2C00 then finS 8 i s (fun b => s.battStart b)
  else if id = 0x3000 then finS 64 i s (fun p => (s.portOff p).portApply p)
  else if id = 0x3003 then finS 64 i s (fun p => s.modPort p (fun x => { x with rateDown := x.rateDown || s.rateBelow p }))
  else if id = 0x300B then finS 64 i s (fun p => s.portApply p)
  else if id = 0x3010 ∨ id = 0x3011 then (s.closeSess i 4).slotsPrune
  else if id = 0x3400 then s.closeSess i 4
  else if id = 0x3802 ∨ id = 0x3803 then s.slotsPrune
  else if id = 0x3800 then s.slotRearm i
  else if id = 0x3801 then s.slotRearm (65536 + i)
  else if 0x4400 ≤ id ∧ id ≤ 0x4403 then s.spateApply
  else if id = 0x4800 then finS 2 i s (fun e => s.ethLink e false)
  else if 0x5800 ≤ id ∧ id ≤ 0x5805 then
    finS 32 i s (fun t => s.timerWrite t (.par id (match findParam id with
      | none => 0
      | some p => s.parN p i)))
  else s

/-- A commit of EBB_ROT_EXP ends the override of R139, whether or not the value changes; an image sets every one. -/
def State.rotCommit (s : State) (c : Commit) : State :=
  let all : Bool := c.kind == .image
  (fins 16).foldl (fun (t : State) (l : Fin 16) =>
    if all ∨ c.entries.any (fun e => e.id == 0x1808 && e.inst == l.val) then t.modTm l (fun x => { x with rotForce := false }) else t) s

/-- New values in force: each consumer takes them, the Bank die as one set (R404). -/
def State.applyCfg (s : State) (new : SMap Int) : State :=
  let ks := changedKeys s.cfg new
  let s1 := ks.foldl (fun (t : State) k => t.afterPar (k / 65536) (k % 65536)) { (s.codeSettle new ks).lagAdd ks with cfg := new }
  let bank : Bool := ks.any (fun k => bankParams.any (fun q => q.1.id == k / 65536))
  (if bank ∧ s1.bank.on then s1.bankSendSet else s1).faultScan

/-- The first granted cap of a commit whose permit has ended since the head of the pipeline, with its status (R210). -/
def State.capFail (s : State) (c : Commit) (n : Nat) : List Entry → ImgFail
  | [] => ⟨0xFFFF, 0, 0, stOk⟩
  | e :: es =>
    let st := (s.headState c).permitsCheck c.sess e.pe [1]
    if e.id = 0x2810 ∧ st ≠ stOk then ⟨n, e.id, e.inst, st⟩ else s.capFail c (n + 1) es

/-- What a commit still meets at its apply input where that input is its commit point: a restore
finds the learning and a
cap write finds the end of its lease that were stamped before it (R210, R251, R403). A commit that wrote an image is
past its commit point and is applied in full. -/
def State.applyCheck (s : State) (c : Commit) : ImgFail := match c.kind with
  | .restore => ⟨0xFFFF, 0, 0, (s.battRestore c.data).2⟩
  | .key => ⟨0xFFFF, 0, 0, if s.keyLoadBad (c.key == 15) c.data then stRange else stOk⟩
  | _ => if c.writes then ⟨0xFFFF, 0, 0, stOk⟩ else s.capFail c 0 c.entries

/-- An entry that is neither kept nor a control: a W1C field, a granted cap, a timer's compare
value, a retained word (R12, R210, R435,
R479, R496). -/
def State.applyVal (s : State) (e : Entry) : State := match findParam e.id with
  | none => s
  | some p =>
    let v := e.val.toNat
    if p.keeps = .K ∨ p.wo then s
    else if p.w1c then (s.w1cWrite p e.inst v).faultScan
    else if p.id = 0x2810 then finS 36 e.inst s (fun k => s.weirSetCap k v)
    else if p.id = 0x5821 then finS 32 e.inst s (fun t => s.timerWrite t (.cmp v))
    else if p.id = 0x5822 then finS 32 e.inst s (fun t => s.timerWrite t (.cmpEn (v == 1)))
    else if p.id = 0x0405 then finS 16 e.inst s (fun k => (s.modSpring (fun x => { x with retain := upd x.retain k (fun _ => v) })).retWrite)
    else s

/-- The entries that a commit applies. -/
def Commit.count (c : Commit) : Nat := match c.kind with
  | .image => leAt c.data 24 4
  | _ => c.entries.length

/-- A commit that sets parameters takes effect: every value, then the controls in entry order; then
its record and reply (R404, R410,
R422, R439). -/
def State.applyParams (s : State) (c : Commit) : State :=
  let n := c.count
  let w : Bool := c.writes
  let s1 := if w then (s.applyCfg (s.commitCfg c)).rotCommit c else s.lastCommit c stOk
  let s2 := c.entries.foldl (fun (t : State) e => t.applyVal e) s1
  let s3 := c.entries.foldl (fun (t : State) e => (t.ctlEntry c.sess true e).1) s2
  let s4 := if c.kind = .staged ∧ s.sameSess c then s3.modSess c.sess (fun x => { x with staging := [], stageLost := false }) else s3
  let s5 := if c.kind = .image then s4.log 0x0F01 c.sess.val (s.host.kenebId + s.host.kenebGen * 2 ^ 32 : Nat) else s4
  let s6 := s5.log 0x0E06 c.sess.val (n % 65536 + b2n w * 65536 + c.seq * 2 ^ 32 : Nat)
  s6.commitReply c stOk (if c.kind = .write then [] else leBytes 2 n ++ leBytes 1 (b2n w) ++ leBytes 1 0)

/-- The record of a commit that sets no parameter: no entries and no image (R403, R410). -/
def State.commitLog (s : State) (c : Commit) : State := (s.lastCommit c stOk).log 0x0E06 c.sess.val (c.seq * 2 ^ 32 : Nat)

/-- A key load at its apply input: its reply goes out before the sessions of the slot end (R390, R403). -/
def State.applyKey (s : State) (c : Commit) : State :=
  ((s.commitReply c stOk []).keyLoad (if c.key = 15 then 15 else c.sess.val) c.data).commitLog c

/-- COMMIT_APPLY: the whole commit acts as one stamped input, which is the commit point of one that writes no image
(R403, R404). -/
def execCommitApply (s : State) : Res :=
  match s.host.commits with
  | [] => .next s
  | c :: _ =>
    .next (if s.hasActive = false ∨ c.stage ≠ .committed then s
    else
      let f := s.applyCheck c
      if f.status ≠ stOk then s.stamp.commitRefuse c f
      else
        let s1 := s.commitPop.stamp
        match c.kind with
        | .restore => ((s1.battRestore c.data).1.commitLog c).commitReply c stOk []
        | .key => s1.applyKey c
        | _ => s1.applyParams c)

end Sys2Proof.Machine
end

