-- ==== Sys2Proof/Machine/Requests.lean ====
section
/-! DEFINITION. Requests served: the checks of R394, the opcode's own handler, its reply and what
follows the reply; requests taken from
the mailboxes; Ethernet frames (R370 to R372, R382, R387, R394, R413, R414, R418). -/

namespace Sys2Proof.Machine

/-- What an accepted request of an opcode does, with its reply (R418 to R432). -/
def State.handle (s : State) (k : Fin 8) (op : Nat) (q : Req) (b : List Byte) : Ans :=
  match op with
  | 0x0005 => s.noticeSet k b
  | 0x0101 => s.permitAcquire k b
  | 0x0102 => s.permitRenew k b
  | 0x0103 => s.permitRelease k b
  | 0x0104 => s.permitTake k b
  | 0x0201 => s.paramRead k b
  | 0x0202 => s.paramWrite k q b
  | 0x0203 => s.stage k q b
  | 0x0204 => s.discard k
  | 0x0205 => s.commitStaged k q
  | 0x0301 => s.pointRead b
  | 0x0302 => s.subscribe k b
  | 0x0303 => s.unsubscribe k b
  | 0x0401 => s.siltRead k b
  | 0x0402 => s.spateRead b
  | 0x0501 => s.battExport b
  | 0x0502 => (s.pushCommit k 0x0502 q .restore [] b, none)
  | 0x0601 => s.nodeRelay k q b
  | 0x0602 => s.pmbusXfer k q b
  | 0x0701 => s.timeSet b
  | 0x0702 => (s.pushCommit k 0x0702 q .key [] b, none)
  | 0x0703 => (s, some (s.stateStatus b, []))
  | 0x0710 => s.fwBegin k b
  | 0x0711 => s.fwBlock k q b
  | 0x0712 => s.fwEnd k
  | 0x0713 => (s, some (s.activateStatus b, []))
  | 0x0720 => s.kenebBegin k b
  | 0x0721 => s.kenebBlock k b
  | 0x0722 => s.kenebEnd k q
  | 0x0723 => s.kenebRead b
  | _ => (s, ansOk)

/-- What an accepted request does after its reply has been queued: the end of its session, first
postings, a change of state, a restart
(R335, R392, R498, R508). -/
def State.after (s : State) (k : Fin 8) (op : Nat) (b : List Byte) : State :=
  match op with
  | 0x0003 => s.sessEnd k 1
  | 0x0302 => s.postFirst
  | 0x0703 => s.stateChange k b
  | 0x0713 => s.fwActivate b
  | _ => s

/-- A request at step 5 of R394, checked in the order of R416, done, answered; a permit it used has
its lease renewed (R397). -/
def State.perform (s : State) (k : Fin 8) (op : Nat) (q : Req) (b : List Byte) : State :=
  let tagged := bit q.flags 2
  let st := s.opCheck k op q b
  if st ≠ stOk then s.reply k op q.seq st tagged (refusal op st).2
  else
    let used := s.opPermits k op b
    let r := s.handle k op q b
    match r.2 with
    | none => r.1.useRenew used
    | some a =>
      if a.1 = stOk ∨ a.1 = stStaged then
        let t := (r.1.useRenew used).reply k op q.seq a.1 tagged a.2
        if a.1 = stOk then t.after k op b else t
      else r.1.reply k op q.seq a.1 tagged a.2

/-- A request of a bound pair: ignored where it has NOTICE or REPLY, refused at steps 1 to 3, or
served (R394, R414). `entropy` gives the
nonce of an open. -/
def State.serve (s : State) (k : Fin 8) (op : Nat) (q : Req) (b : List Byte) (entropy : Nat) : State :=
  let x := s.sess k
  if x.state = .free then s
  else if bit q.flags 0 ∨ bit q.flags 1 then s.countRefused x.port
  else
    let st := s.earlyCheck k op q b
    if st ≠ stOk then s.refuse k op st q
    else if op = 1 then s.sessionOpen k q b entropy
    else
      let r := s.seqCheck k q.seq
      if r.2 = false then r.1 else if op = 2 then r.1.sessionProve k q b else r.1.perform k op q b

/-- Onolael takes requests: the host ports work, a stem is active, the image has been applied (R374, R387, R504). -/
def State.takes (s : State) : Bool := s.hostUp && s.hasActive && s.dev.mbReady

/-- A session's next request may be taken: it owes no reply, and its reply queue has 360 free entries (R387). -/
def State.reqReady (s : State) (k : Fin 8) : Bool :=
  (s.sess k).out.isEmpty && decide ((s.host.mb[mbReq k]).used + 360 ≤ 1024)

/-- The next request in the order of the doorbells that may be taken (R387). -/
def State.nextRung (s : State) : Option (Fin 16 × List Nat) := s.host.rung.find? (fun r => s.reqReady (pairOf r.1))

/-- A request rung now may be taken at once: no earlier one may be, its session is ready, and the management processor
has grants left (R46, R387). -/
def State.mayTake (s : State) (k : Fin 8) : Bool := s.nextRung.isNone && s.reqReady k && !s.sluiceSpent 2

/-- A request as the bytes of its message (R411, R412). -/
def reqBytes (op : Nat) (q : Req) (b : List Byte) : List Byte :=
  let tag := if bit q.flags 2 then q.tag else []
  let m := [1#8, BitVec.ofNat 8 q.flags] ++ leBytes 2 (28 + b.length + tag.length) ++ leBytes 2 op ++ leBytes 2 0 ++
    leBytes 4 q.epoch ++ leBytes 4 q.seq ++ leBytes 4 q.pe ++ leBytes 4 0 ++ b ++ tag
  m ++ leBytes 4 (crc32c m)

/-- A request that cannot be taken yet waits, rung, in its pair's request queue; refused as a doorbell is where four
wait or the queue has no room (R46, R383, R386, R387). -/
def State.holdReq (s : State) (k : Fin 8) (op : Nat) (q : Req) (b : List Byte) : State :=
  let m := mbReq k
  let bs := reqBytes op q b
  let ws := msgWords (ceilDiv bs.length 4) bs
  let t := if s.sluiceSpent 2 then s.sluiceStall 2 else s
  if (s.sess k).state = .free then s
  else if s.txFree m < ws.length then (t.modMb m (fun y => { y with overflow := true, rejected := true })).log 0x0E09 m.val 1
  else if 4 ≤ (s.rungOf m).length then (t.modMb m (fun y => { y with rejected := true })).log 0x0E09 m.val 3
  else t.modHost (fun h => { h with rung := h.rung ++ [(m, ws)] })

/-- A request of pair `k` as a port carries it: taken at once as one stamped input, served with grants of the management
processor, or waiting its turn (R46, R387, R394). -/
def State.carry (s : State) (k : Fin 8) (op : Nat) (q : Req) (b : List Byte) (entropy : Nat) : State :=
  if s.mayTake k then (s.sluiceWork 2).stamp.serve k op q b entropy else s.holdReq k op q b

/-- A request of an opcode as its pair carries it (R387, R394). -/
def State.request (s : State) (op : Nat) (q : Req) (b : List Byte) : State :=
  if s.takes then s.carry q.sess op q b 0 else s

/-- An open request of an endpoint with no pair: the lowest free pair is bound, or BUSY answered (R382). -/
def State.openNew (s : State) (e : Fin 2) (ep : Endpoint) (seq : Nat) (bound : State → Fin 8 → State) : State :=
  match s.freePair with
  | none => (s.stamp.sendTo e ep (hostMsg 1 1 stBusy 0 0 seq [] none)).output 2
  | some k => bound (s.bindPair k e.val ep) k

/-- A request of an endpoint with no pair that is no open request is refused at once, STALE_EPOCH
once per 100 ms (R394). -/
def State.refuseFrom (s : State) (e : Fin 2) (ep : Endpoint) (op st : Nat) (q : Req) : State :=
  let mute : Bool := st == stStaleEpoch &&
    s.host.staleEp.any (fun r => r.1 == e.val && decide (r.2.1 = ep) && decide (s.clk.tick < r.2.2 + 25000000))
  let s1 := s.stamp.refusedAt e.val st
  if mute then s1
  else
    let s2 := if st = stStaleEpoch then s1.modHost (fun h => { h with
      staleEp := h.staleEp.filter (fun r => !(r.1 == e.val && decide (r.2.1 = ep))) ++ [(e.val, ep, s.clk.tick)] }) else s1
    (s2.sendTo e ep (earlyReply op st q)).output 2

/-- A request of an endpoint with no pair, its CRC right: an open request binds the lowest free
pair, or is answered BUSY (R382, R394, R414). -/
def State.fromNew (s : State) (e : Fin 2) (ep : Endpoint) (op : Nat) (q : Req) (b : List Byte) (bound : State → Fin 8 → State) : State :=
  if bit q.flags 0 ∨ bit q.flags 1 then s.countRefused e.val
  else if bodyOk op b = false then s.refuseFrom e ep op stBadCrc q
  else if op ≠ 1 ∨ q.epoch ≠ 0 then s.refuseFrom e ep op stStaleEpoch q
  else s.openNew e ep q.seq bound

/-- SESSION_OPEN: on an SPI port the pair of the request, on an Ethernet port that of its endpoint
(R382, R391, R394). -/
def execSessionOpen (port : Fin 4) (ep : Endpoint) (q : Req) (body : List Byte) (entropy : Nat) (s : State) : Res :=
  .next (if s.takes = false then s
  else if h : port.val < 2 then
    match s.pairAt port.val ep with
    | some k => s.carry k 1 q body entropy
    | none => s.fromNew ⟨port.val, h⟩ ep 1 q body (fun t k => t.carry k 1 q body entropy)
  else s.carry q.sess 1 q body entropy)

/-- SESSION_PROVE (R391, R392, R419). -/
def execSessionProve (q : Req) (body : List Byte) (s : State) : Res := .next (s.request 0x0002 q body)

/-- SESSION_CLOSE: the reply, then the end of the session with cause 1 (R392, R393). -/
def execSessionClose (q : Req) (body : List Byte) (s : State) : Res := .next (s.request 0x0003 q body)

/-- HOST_KEEPALIVE (R393). -/
def execHostKeepalive (q : Req) (body : List Byte) (s : State) : Res := .next (s.request 0x0004 q body)

/-- NOTICE_SET (R420). -/
def execNoticeSet (q : Req) (body : List Byte) (s : State) : Res := .next (s.request 0x0005 q body)

/-- PERMIT_ACQUIRE (R397, R421). -/
def execPermitAcquire (q : Req) (body : List Byte) (s : State) : Res := .next (s.request 0x0101 q body)

/-- PERMIT_RENEW (R397, R421). -/
def execPermitRenew (q : Req) (body : List Byte) (s : State) : Res := .next (s.request 0x0102 q body)

/-- PERMIT_RELEASE (R397, R400, R421). -/
def execPermitRelease (q : Req) (body : List Byte) (s : State) : Res := .next (s.request 0x0103 q body)

/-- PERMIT_TAKE (R399, R421). -/
def execPermitTake (q : Req) (body : List Byte) (s : State) : Res := .next (s.request 0x0104 q body)

/-- PARAM_READ (R422). -/
def execParamRead (q : Req) (body : List Byte) (s : State) : Res := .next (s.request 0x0201 q body)

/-- PARAM_WRITE (R401, R422). -/
def execParamWrite (q : Req) (body : List Byte) (s : State) : Res := .next (s.request 0x0202 q body)

/-- STAGE (R401, R422). -/
def execStage (q : Req) (body : List Byte) (s : State) : Res := .next (s.request 0x0203 q body)

/-- DISCARD (R401). -/
def execDiscard (q : Req) (body : List Byte) (s : State) : Res := .next (s.request 0x0204 q body)

/-- COMMIT (R401, R402). -/
def execCommit (q : Req) (body : List Byte) (s : State) : Res := .next (s.request 0x0205 q body)

/-- POINT_READ (R334, R426). -/
def execPointRead (q : Req) (body : List Byte) (s : State) : Res := .next (s.request 0x0301 q body)

/-- SUBSCRIBE (R335, R426). -/
def execSubscribe (q : Req) (body : List Byte) (s : State) : Res := .next (s.request 0x0302 q body)

/-- UNSUBSCRIBE (R426). -/
def execUnsubscribe (q : Req) (body : List Byte) (s : State) : Res := .next (s.request 0x0303 q body)

/-- SILT_READ (R355, R427). -/
def execSiltRead (q : Req) (body : List Byte) (s : State) : Res := .next (s.request 0x0401 q body)

/-- SPATE_READ (R364, R427). -/
def execSpateRead (q : Req) (body : List Byte) (s : State) : Res := .next (s.request 0x0402 q body)

/-- BATT_EXPORT (R250, R428). -/
def execBattExport (q : Req) (body : List Byte) (s : State) : Res := .next (s.request 0x0501 q body)

/-- BATT_RESTORE (R251, R428). -/
def execBattRestore (q : Req) (body : List Byte) (s : State) : Res := .next (s.request 0x0502 q body)

/-- NODE_RELAY (R303, R429). -/
def execNodeRelay (q : Req) (body : List Byte) (s : State) : Res := .next (s.request 0x0601 q body)

/-- PMBUS_XFER (R279, R429). -/
def execPmbusXfer (q : Req) (body : List Byte) (s : State) : Res := .next (s.request 0x0602 q body)

/-- TIME_SET (R37, R430). -/
def execTimeSet (q : Req) (body : List Byte) (s : State) : Res := .next (s.request 0x0701 q body)

/-- KEY_LOAD (R390, R430). -/
def execKeyLoad (q : Req) (body : List Byte) (s : State) : Res := .next (s.request 0x0702 q body)

/-- STATE_REQ (R430, R498 to R500). -/
def execStateReq (q : Req) (body : List Byte) (s : State) : Res := .next (s.request 0x0703 q body)

/-- FW_BEGIN (R431, R507). -/
def execFwBegin (q : Req) (body : List Byte) (s : State) : Res := .next (s.request 0x0710 q body)

/-- FW_BLOCK (R431, R507). -/
def execFwBlock (q : Req) (body : List Byte) (s : State) : Res := .next (s.request 0x0711 q body)

/-- FW_END (R507). -/
def execFwEnd (q : Req) (body : List Byte) (s : State) : Res := .next (s.request 0x0712 q body)

/-- FW_ACTIVATE (R431, R508). -/
def execFwActivate (q : Req) (body : List Byte) (s : State) : Res := .next (s.request 0x0713 q body)

/-- KENEB_BEGIN (R432). -/
def execKenebBegin (q : Req) (body : List Byte) (s : State) : Res := .next (s.request 0x0720 q body)

/-- KENEB_BLOCK (R432). -/
def execKenebBlock (q : Req) (body : List Byte) (s : State) : Res := .next (s.request 0x0721 q body)

/-- KENEB_END (R432, R437). -/
def execKenebEnd (q : Req) (body : List Byte) (s : State) : Res := .next (s.request 0x0722 q body)

/-- KENEB_READ (R432). -/
def execKenebRead (q : Req) (body : List Byte) (s : State) : Res := .next (s.request 0x0723 q body)

/-- LEN of a message (R411). -/
def msgLen (bs : List Byte) : Nat := leAt bs 2 2

/-- OP of a message (R411). -/
def msgOp (bs : List Byte) : Nat := leAt bs 4 2

/-- A message's length and CRC-32C are right (R411, R412). -/
def msgSound (bs : List Byte) : Bool :=
  let n := bs.length
  decide (28 + (if bit (leAt bs 1 1) 2 then 16 else 0) ≤ n ∧ n ≤ 1440 ∧ msgLen bs = n) && crc32c (bs.take (n - 4)) == leAt bs (n - 4) 4

/-- The header of a message, for the pair that carries it (R411, R412). -/
def msgReq (k : Fin 8) (bs : List Byte) : Req :=
  let n := bs.length
  { sess := k, epoch := leAt bs 8 4, seq := leAt bs 12 4, pe := leAt bs 16 4, flags := leAt bs 1 1
    covered := bs.take (n - 20), tag := (bs.drop (n - 20)).take 16 }

/-- The body of a message (R412). -/
def msgBody (bs : List Byte) : List Byte :=
  (bs.take (bs.length - (if bit (leAt bs 1 1) 2 then 20 else 4))).drop 24

/-- HOST_REQUEST_TAKE: the next request, stamped, its length and CRC checked, then served (R387,
R394, R411, R412). Onolael serves it with
grants of the management processor; with that budget used up the request waits for the period boundary (R43, R46). -/
def execHostRequestTake (entropy : Nat) (s : State) : Res :=
  match s.nextRung with
  | none => .next s
  | some r =>
    .next (if s.takes = false then s
    else if s.sluiceSpent 2 then s.sluiceStall 2
    else
      let k := pairOf r.1
      let bs0 := r.2.flatMap (leBytes 4)
      let bs := bs0.take (msgLen bs0)
      let s1 := ((s.sluiceWork 2).modHost (fun h => { h with rung := h.rung.erase r })).stamp
      let q := msgReq k bs
      if msgSound bs then s1.serve k (msgOp bs) q (msgBody bs) entropy else s1.refuse k (msgOp bs) stBadCrc q)

/-- An ARP request. -/
def isArp : EthKind → Bool
  | .arp _ => true
  | .ether _ => false
  | .udp _ _ _ _ => false
  | .ptp _ => false
  | .echo _ _ => false
  | .solicit _ _ => false
  | .other => false

/-- A neighbour solicitation. -/
def isSolicit : EthKind → Bool
  | .solicit _ _ => true
  | .arp _ => false
  | .ether _ => false
  | .udp _ _ _ _ => false
  | .ptp _ => false
  | .echo _ _ => false
  | .other => false

/-- PTP. -/
def isPtp : EthKind → Bool
  | .ptp _ => true
  | .arp _ => false
  | .ether _ => false
  | .udp _ _ _ _ => false
  | .echo _ _ => false
  | .solicit _ _ => false
  | .other => false

/-- A frame passes R370: a port that is on with its link up, its tag as HOST_VLAN asks, its destination for its kind. -/
def State.ethAccepts (s : State) (e : Fin 2) (f : EthFrame) : Bool :=
  let p : Fin 4 := ⟨e.val, by omega⟩
  let ptp : Bool := s.parN P.DEV_PTP_PORT 0 == e.val && decide (2 ≤ s.parN P.DEV_TB_SOURCE 0)
  let v := s.parN P.HOST_VLAN e
  let dst : Bool := match f.dst with
    | .unicast mac => mac == s.parN P.HOST_ETH_MAC e
    | .broadcast => isArp f.kind
    | .solicited low => isSolicit f.kind && bit (s.parN P.HOST_ENCAP e) 2 && low == s.parN P.HOST_IPV6_ADDR e / 2 ^ 104
    | .ptp transport => isPtp f.kind && ptp && transport == s.parN P.DEV_PTP_TRANSPORT 0
    | .other => false
  s.parN P.HOST_ETH_MODE e != 0 && s.host.port[p].link && f.tag == (if v = 0 then none else some v) && dst

/-- A frame is a message or register access for the device (R371). -/
def State.ethMsg (s : State) (e : Fin 2) (f : EthFrame) : Bool :=
  let enc := s.parN P.HOST_ENCAP e
  match f.kind with
  | .ether ty => bit enc 0 && ty == s.parN P.HOST_ETHERTYPE e
  | .udp dport ip plain sum =>
    bit enc (if f.ep.v6 then 2 else 1) && ip == s.hostIp e f.ep.v6 && plain && sum && dport == s.parN P.HOST_UDP_PORT e
  | .ptp _ => false
  | .arp _ => false
  | .echo _ _ => false
  | .solicit _ _ => false
  | .other => false

/-- A message of an accepted frame: put into the pair's mailbox and rung, or from an endpoint with
no pair an open request or a refusal
(R372, R382, R386, R394). -/
def State.ethRequest (s : State) (e : Fin 2) (ep : Endpoint) (data : List Byte) : State :=
  let bs := data.take (max 4 (msgLen data))
  let ring (t : State) (k : Fin 8) : State :=
    let m := mbReq k
    ((msgWords (ceilDiv bs.length 4) bs).foldl (fun (u : State) w => u.mbPush m w) t).doorbell m
  match s.pairAt e.val ep with
  | some k => ring s k
  | none =>
    if s.takes = false then s
    else
      let q := msgReq 0 bs
      let op := msgOp bs
      if msgSound bs then s.fromNew e ep op q (msgBody bs) ring else s.refuseFrom e ep op stBadCrc q

/-- HOST_ETH_FRAME: a register access, a message, a request that the device answers, PTP for its own
port, or a frame discarded and
counted, as every fragment and every datagram with options or extension headers is (R370 to R373, R381, R386). -/
def execHostEthFrame (e : Fin 2) (f : EthFrame) (s : State) : Res :=
  .next (if s.hostUp = false then s
  else if s.ethAccepts e f = false then s.countRefused e.val
  else if s.ethMsg e f then (if 0xFFFF0000 ≤ leAt f.data 0 4 then s.ethReg e f.ep f.data else s.ethRequest e f.ep f.data)
  else match f.kind with
    | .ptp plain => if plain ∧ s.parN P.DEV_PTP_PORT 0 = e.val ∧ 2 ≤ s.parN P.DEV_TB_SOURCE 0 then s else s.countRefused e.val
    | .arp ip => if ip = s.hostIp e false then s.ethAnswer e f.ep (leBytes 6 (s.parN P.HOST_ETH_MAC e)) else s.countRefused e.val
    | .solicit ip plain => if plain ∧ ip = s.hostIp e true then s.ethAnswer e f.ep (leBytes 6 (s.parN P.HOST_ETH_MAC e)) else s.countRefused e.val
    | .echo ip plain => if plain ∧ ip = s.hostIp e f.ep.v6 then s.ethAnswer e f.ep f.data else s.countRefused e.val
    | .ether _ => s.countRefused e.val
    | .udp _ _ _ _ => s.countRefused e.val
    | .other => s.countRefused e.val)

end Sys2Proof.Machine
end

