-- ==== Sys2Proof/Machine/Stems.lean ====
section
/-! DEFINITION. The stems: heartbeats, output copies, faults, switch-over, resynchronisation,
controls (R440 to R463). -/

namespace Sys2Proof.Machine

/-- STEM_HEARTBEAT: a flit with the count of fabric grants reaches the comparer (R447). -/
def execStemHeartbeat (k : Fin 2) (count : Nat) (s : State) : Res :=
  .next (if s.stemSt k = .off ∨ s.stemSt k = .failed then s else s.modStem k (fun x => { x with
    hbAt := s.clk.tick, hbCount := count, moveAt := if x.hbCount = count then x.moveAt else s.clk.tick }))

/-- No heartbeat of a stem for 1.5 µs, or heartbeats 1.5 µs apart with one grant count (R447). -/
def Stem.silent (x : Stem) (now : Nat) : Bool := decide (x.hbAt + 375 ≤ now) || decide (x.moveAt + 375 ≤ x.hbAt)

/-- STEM_SILENCE: no heartbeat or no progress for 1.5 µs, of a stem that has booted (R447). -/
def execStemSilence (k : Fin 2) (s : State) : Res :=
  .next (if s.stemSt k ≠ .boot ∧ (s.stems.stem[k]).silent s.clk.tick then (s.stemFail k 2 0 0).faultScan else s)

/-- A copy passed at the comparer (R445). -/
def State.passCopy (s : State) (g : Fin 5) (oseq : Nat) : State :=
  { s with passed := upd s.passed g (fun p => max p oseq) }

/-- A group is in DUAL; the Silt record stream is always in HOLD (R347, R445). -/
def State.groupDual (s : State) (g : Fin 5) : Bool := decide (g.val < 4) && s.par P.STEM_GROUP_MODE g == 1

/-- A resynchronisation in its last step: the outputs of the stem in SYNC are compared and not released (R453). -/
def State.agreeing (s : State) : Bool := match s.stems.sync with
  | none => false
  | some r => r.stage == 6

/-- Outputs that differ or are late while a resynchronisation is in its last step: its 1 ms starts again (R453). -/
def State.disagree (s : State) : State :=
  s.modStems (fun x => { x with sync := x.sync.map (fun r => { r with agreeAt := s.clk.tick }) })

/-- STEM_OUTPUT_COPY: a copy arrives, of a group or (4) of the Silt record stream; it leaves under
HOLD or DUAL and is compared with
the other stem's (R347, R445, R448, R453). -/
def execStemOutputCopy (k : Fin 2) (g : Fin 5) (oseq : Nat) (bits : List Byte) (s : State) : Res :=
  if s.stemOk k = false ∧ ¬ (s.agreeing ∧ s.stemSt k = .sync) then .next s
  else
    let s1 := if s.stemSt k = .active ∨ (s.groupDual g ∧ s.stemOk k) then s.passCopy g oseq else s
    if s.redundant = false ∧ s.agreeing = false then .next s1
    else match s.stems.waiting.find? (fun o => o.stem != k && o.group == g && o.oseq == oseq) with
      | none => .next (s1.modStems (fun x => { x with waiting := x.waiting ++ [⟨k, g, oseq, bits, s.clk.tick⟩] }))
      | some o =>
        let s2 := s1.modStems (fun x => { x with waiting := x.waiting.erase o, lagPeak := max x.lagPeak (4 * (s.clk.tick - o.at_)) })
        .next (if o.bits = bits then s2 else if s.redundant then s2.doubtful g.val 1 oseq else s2.disagree)

/-- STEM_OUTPUT_LATE: the oldest copy has waited 1.5 µs for the other one (R447, R448, R453). -/
def execStemOutputLate (s : State) : Res :=
  match s.stems.waiting with
  | [] => .next s
  | o :: _ =>
    .next (if s.clk.tick < o.at_ + 375 ∨ (s.redundant = false ∧ s.agreeing = false) then s
    else if s.redundant = false then (s.modStems (fun x => { x with waiting := x.waiting.tail })).disagree
    else if s.stemSt o.stem = .active then
      (s.modStems (fun x => { x with waiting := x.waiting.tail })).doubtful o.group.val 2 o.oseq
    else (s.stemFail (1 - o.stem) 3 0 0).faultScan)

/-- STEM_FAULT_REPORT: a stem's report of a fault of its own, with the loop whose coefficients or
state an Eddy RAM error hit (R446). -/
def execStemFaultReport (k : Fin 2) (kind : Nat) (l : Fin 16) (s : State) : Res :=
  if kind = 0 ∨ 9 < kind then .next s
  else
    let s1 := { s with stemRep := s.stemRep.erase (k.val, kind) }
    let s2 := if kind = 2 ∨ kind = 3 then s1.modStem k (fun x => { x with ue := bump x.ue }) else s1
    .next (s2.stemFail k 1 kind l).faultScan

/-- STEM_SWITCHOVER_INPUT: the input reaches the new active stem (R449, R450, R481). -/
def execStemSwitchoverInput (s : State) : Res :=
  match s.stems.input with
  | none => .next s
  | some (cause, kind, oseq) =>
    let s1 := (s.modStems (fun x => { x with input := none })).stamp.captureEvent 50
    let s2 := (s1.log 0x1001 s1.activeStem (cause + kind * 256 + oseq * 2 ^ 32 : Nat)).spateReq 6 0
    .next ((s2.modHost (fun h => { h with port := h.port.map (fun p => { p with switched := true }) })).stemNotice 1)

/-- STEM_WATCHDOG_EXPIRE: fault kind 5; during a firmware trial it orders a restart of both stems (R446, R493, R508). -/
def execStemWatchdogExpire (k : Fin 2) (s : State) : Res :=
  .next (if s.stemOk k = false then s
  else if s.firm.trialSlot.isSome then s.fwRestart 5
  else (s.stemFail k 1 5 0).faultScan)

/-- The stem that a failed link counts against: the receiver, or the sender of a Stem-to-Delta link (R442). -/
def linkStem (link : Fin 6) : Fin 2 := if link.val = 0 ∨ link.val = 2 ∨ link.val = 5 then 0 else 1

/-- BRIDGE_FLIT_CRC_FAIL: a flit that had been resent `resent` times fails its CRC: resent again, or
the link has failed; the links work while a stem does (R19, R442). -/
def execBridgeFlitCrcFail (link : Fin 6) (resent : Fin 4) (s : State) : Res :=
  .next (if s.hasActive = false then s
  else if resent.val = 3 then { s with stemRep := s.stemRep ++ [((linkStem link).val, 4)] }
  else
    (s.modStems (fun x => { x with
      resend := upd x.resend link bump, newResend := upd x.newResend link (· + 1) })).log 0x1008 link.val (s.stems.newResend[link] + 1 : Nat))

/-- A stem that has booted sends heartbeats from here on (R447). -/
def State.beats (s : State) (k : Fin 2) : State := s.modStem k (fun x => { x with hbAt := s.clk.tick, hbCount := 0, moveAt := s.clk.tick })

/-- STEM_BOOT_COMPLETE (R443). -/
def execStemBootComplete (k : Fin 2) (s : State) : Res :=
  .next (if s.stemSt k ≠ .boot then s
  else
    let s := if s.stemSt (1 - k) = .boot then (s.beats k).beats (1 - k) else s.beats k
    (match s.stemSt (1 - k) with
    | .active => ((s.toSync k).log 0x1005 k.val s.ord)
    | .boot =>
      let p : Fin 2 := if s.par P.STEM_PREFERRED 0 = 1 then 1 else 0
      ({ s with ord := 0 }.modStem p (fun x => { x with st := .active })).modStem (1 - p) (fun x => { x with st := .standby })
    | .off => s.modStem k (fun x => { x with st := .active })
    | .sync => s.modStem k (fun x => { x with st := .active })
    | .standby => s.modStem k (fun x => { x with st := .active })
    | .failed => s.modStem k (fun x => { x with st := .active })).faultScan)

/-- STEM_RESTART_COMPLETE: to BOOT, or held OFF at the restart limit (R443, R450, R463). -/
def execStemRestartComplete (k : Fin 2) (s : State) : Res :=
  let x := s.stems.stem[k]
  .next (if x.st ≠ .failed ∨ x.hot ∨ x.low then s
  else
    let recent := x.restarts.filter (fun t => decide (s.clk.tick < t + 900000000000))
    if recent.length < s.parN P.STEM_RESTART_MAX 0 then (s.modStem k (fun y => { y with st := .boot, restarts := recent ++ [s.clk.tick] })).faultScan
    else (((s.modStem k (fun y => { y with st := .off, limited := true, restarts := recent })).log 0x1004 k.val 3).stemNotice 4).faultScan)

/-- STEM_RESYNC_PASS: a transfer pass is complete; `dirty` says that lines were written after their
sending (R453). With the Bridge budget
used up the pass waits for the period boundary (R46). -/
def execStemResyncPass (dirty : Bool) (s : State) : Res :=
  match s.stems.sync with
  | none => .next s
  | some r =>
    let r1 : SyncRun :=
      if r.stage < 3 ∧ dirty then { r with stage := r.stage + 1, dirty := r.dirty + 1 }
      else if r.stage < 4 then { r with stage := 4 }
      else if r.stage = 4 then { r with stage := 5 }
      else r
    .next (if s.sluiceSpent 5 then s.sluiceStall 5 else (s.sluiceWork 5).modStems (fun x => { x with sync := some r1 }))

/-- STEM_DIGEST_ROUND: the digests are compared, with the number of blocks that differ (R453, R454). -/
def execStemDigestRound (mismatched : Nat) (s : State) : Res :=
  match s.stems.sync with
  | none => .next s
  | some r =>
    .next (if r.stage ≠ 5 then s
    else if s.sluiceSpent 5 then s.sluiceStall 5
    else if mismatched = 0 then s.modStems (fun x => { x with sync := some { r with stage := 6, rounds := r.rounds + 1, agreeAt := s.clk.tick } })
    else if r.rounds + 1 < 3 then s.modStems (fun x => { x with sync := some { r with rounds := r.rounds + 1 } })
    else s.syncFail 2 mismatched)

/-- STEM_SYNC_AGREEMENT: 1 ms of agreeing outputs (R443, R450, R453). -/
def execStemSyncAgreement (s : State) : Res :=
  match s.stems.sync, s.stemOf .sync with
  | some r, some k =>
    if r.stage ≠ 6 ∨ s.clk.tick < r.agreeAt + 250000 then .next s
    else
      let us := (s.clk.tick - r.startAt) / 250
      .next ((((s.modStem k (fun x => { x with st := .standby })).modStems (fun x => { x with sync := none, resyncTime := us })).log 0x1006 k.val
        (us + r.dirty * 2 ^ 32 + r.rounds * 2 ^ 40 : Nat)).stemNotice 3).faultScan
  | _, _ => .next s

/-- STEM_RESYNC_TIMEOUT: 40 ms from the start of SYNC (R454). -/
def execStemResyncTimeout (s : State) : Res :=
  match s.stems.sync with
  | none => .next s
  | some r => .next (if r.startAt + 10000000 ≤ s.clk.tick then s.syncFail 1 0 else s)

/-- STEM_CTRL SWITCHOVER by a session that holds MAINT (R443, R462). -/
def execStemCtrlSwitchover (k : Fin 8) (s : State) : Res := .next (s.control k [5] (fun t => t.stemSwitch))

/-- STEM_CTRL RESYNC by a session that holds MAINT (R462). -/
def execStemCtrlResync (k : Fin 8) (s : State) : Res := .next (s.control k [5] (fun t => t.stemResync))

/-- STEM_CTRL RESTART_STANDBY by a session that holds MAINT (R443, R462). -/
def execStemCtrlRestartStandby (k : Fin 8) (s : State) : Res := .next (s.control k [5] (fun t => t.stemRestartCtl))

end Sys2Proof.Machine
end

