-- ==== Sys2Proof/Machine/Supply.lean ====
section
/-! DEFINITION. Supplies, the brown-out warning, resets, the wake from Dormant (R84, R488 to R497, R500). -/

namespace Sys2Proof.Machine

/-- Supplies changed. -/
def State.modPower (s : State) (f : Power → Power) : State := { s with power := f s.power }

/-- Supply `i` changed. -/
def State.modSup (s : State) (i : Fin 10) (f : Supply → Supply) : State := s.modPower (fun p => { p with sup := upd p.sup i f })

/-- A supply whose warning level the table of R488 gives: indices 0 to 7 but VSD. -/
def isMonitored (i : Fin 10) : Bool := decide (i.val < 8) && i.val != 4

/-- A supply's bit in SUPPLIES of NOTICE_SUPPLY (R433). -/
def supBit (i : Fin 10) : Nat := if i.val < 4 then 0 else if i.val = 6 then 1 else if i.val = 5 then 2 else 3

/-- NOTICE_SUPPLY to the sessions that select it (R420, R433). -/
def State.supplyNotice (s : State) (level : Nat) : State :=
  s.noticeAll 3 0x8008 (leBytes 1 level ++ leBytes 1 s.power.set ++ leBytes 2 0 ++ leBytes 8 s.clk.shelf)

/-- What is queued is committed after the hold (R348). -/
def SRec.hold (r : SRec) : SRec := { r with flags := setBit r.flags 4 }

/-- An episode begins (R342, R348, R491, R492, R496). -/
def State.brownBegin (s : State) (i : Fin 10) : State :=
  let set := 2 ^ supBit i
  let now := s.clk.shelf
  let s1 := (s.modPower (fun p => { p with
    brown := .warn, first := i.val, set := set, time := now, at_ := s.clk.tick, min := none, warnCnt := bump p.warnCnt, warnSeen := true })).modSilt
      (fun x => { x with queue := x.queue.map SRec.hold })
  let s2 := (s1.energyCopy.ledgerNeed.modSilt (fun x => { x with ledgerWarn := true })).modSpring (fun x => { x with pend := some (set, now) })
  let s3 := s2.retWrite.headRecord ⟨s2.recFlags false true, 0x1201, i.val, 0, now, toWord 64 (0xFFFF + set * 65536 : Nat), 0⟩
  (s3.supplyNotice 1).faultScan

/-- A supply that already stands below its warning level where the device leaves reset begins an
episode, with every other one below
its own (R491). -/
def State.brownStart (s : State) : State :=
  let low := (fins 10).filter (fun (i : Fin 10) => s.power.sup[i].warn)
  match low with
  | [] => s
  | i :: _ => let t : State := s.brownBegin i
    t.modPower (fun p => { p with set := low.foldl (fun m (j : Fin 10) => setBit m (supBit j)) p.set })

/-- BROWN_WARN_ASSERT: a monitored supply is below its warning level (R491). -/
def execBrownWarnAssert (i : Fin 10) (s : State) : Res :=
  if isMonitored i = false ∨ s.dev.state = .dormant then .next s
  else
    let s1 := s.modSup i (fun x => { x with warn := true })
    let join (t : State) : State := t.modPower (fun p => { p with brown := .warn, set := setBit p.set (supBit i) })
    .next (if s.dev.held then s1
    else match s.power.brown with
      | .normal => s1.brownBegin i
      | .warn => join s1
      | .resume => join s1)

/-- BROWN_RESUME_START: every monitored supply is back above its warning level plus hysteresis (R491). -/
def execBrownResumeStart (s : State) : Res :=
  .next (s.modPower (fun p => { p with
    sup := p.sup.map (fun x => { x with warn := false })
    brown := if p.brown = .warn then .resume else p.brown
    resumeAt := if p.brown = .warn then s.clk.tick else p.resumeAt }))

/-- The record of an episode completed (R492). -/
def State.brownRecord (s : State) (us : Nat) : State :=
  let p := s.power
  let low : Nat := match p.min with
    | none => 0xFFFF
    | some v => toWord 16 v
  let d := toWord 64 (low + p.set * 65536 + min us 0xFFFFFFFF * 2 ^ 32 : Nat)
  s.modSilt (fun x => { x with queue := x.queue.map (fun r => if r.code = 0x1201 ∧ r.time = p.time then { r with data := d } else r) })

/-- A block of firmware held during the episode is written and answered (R507). -/
def State.fwOwed (s : State) : State := match s.firm.load with
  | none => s
  | some x => match x.owed with
    | none => s
    | some q => ((s.fwStore x.slot 0 x.data).modFirm (fun f => { f with load := some { x with owed := none } })).answer x.sess.val q stOk []

/-- BROWN_WARN_RELEASE: 100 µs above every warning level plus hysteresis (R491, R492, R496). -/
def execBrownWarnRelease (s : State) : Res :=
  .next (if s.power.brown ≠ .resume ∨ s.clk.tick < s.power.resumeAt + 25000 then s
  else
    let us := (s.clk.tick - s.power.at_) / 250
    let s1 := ((s.brownRecord us).modSilt (fun x => { x with ledgerWarn := false, heldN := s.evq.length })).modPower (fun p => { p with brown := .normal, warnLast := min us 0xFFFFFFFF })
    let s2 := (s1.modSpring (fun x => { x with pend := none })).retWrite
    (s2.supplyNotice 0).fwOwed.faultScan)

/-- One supply's sample of the minimum tracker, to 10 mV (R489, R492). -/
def State.minSample (s : State) (v : Vector Int 10) (i : Fin 10) : State :=
  if isMonitored i = false then s
  else
    let m := floorDiv v[i] 10 * 10
    let low (o : Option Int) : Option Int := match o with
      | none => some m
      | some a => some (min a m)
    let s1 := s.modSup i (fun x => { x with min := low x.min })
    if s.power.brown ≠ .normal ∧ s.power.first = i.val then s1.modPower (fun p => { p with min := low p.min }) else s1

/-- A stem held by its core supply is released once the supply stands above its reset level plus
hysteresis (R443, R488). -/
def State.stemSupply (s : State) (v : Vector Int 10) (k : Fin 2) : State :=
  if s.stems.stem[k].low ∧ 530 ≤ v[k.val] then (s.modStem k (fun x => { x with low := false })).stemRelease k else s

/-- SUPPLY_MIN_SAMPLE: the monitored supplies in mV, once per microsecond (R489). -/
def execSupplyMinSample (v : Vector Int 10) (s : State) : Res :=
  .next (if s.dev.held then s else ((fins 2).foldl (fun (t : State) (k : Fin 2) => t.stemSupply v k) ((fins 10).foldl (fun (t : State) (i : Fin 10) => t.minSample v i) s)))

/-- A brown-out reset by a supply at its reset level, with the supplies below warning (R492, R493).
VANA takes the phase dies to SAFE of
its own (R82, R84). -/
def State.brownReset (s : State) (i : Fin 10) : State :=
  let s1 := if i.val = 7 then (fins 4).foldl State.dieDown s else s
  (s1.fullReset 5 false).modSpring (fun x => { x with resetSup := some (i.val, s.power.set) })

/-- BROWN_OUT: VCORE_D, VIO18, VIO33 or VANA at its reset level (R488, R493). -/
def execBrownOut (i : Fin 10) (s : State) : Res :=
  .next (if (i.val = 2 ∨ i.val = 5 ∨ i.val = 6 ∨ i.val = 7) ∧ s.dev.state ≠ .dormant then s.brownReset i else s)

/-- STEM_SUPPLY_LOW: a stem's core supply at its reset level stops that stem with fault kind 8; both
low are a brown-out reset (R446, R488). -/
def execStemSupplyLow (k : Fin 2) (s : State) : Res :=
  let s1 := s.modStem k (fun x => { x with low := true })
  .next (if s.dev.held then s
  else if s1.stems.stem[1 - k].low then s1.brownReset ⟨k.val, by omega⟩
  else (s1.stemFail k 1 8 0).faultScan)

/-- VCORE_P_LOW: every phase die SAFE, with no reset (R82, R84, R488). -/
def execVcorePLow (s : State) : Res :=
  .next (((fins 4).foldl (fun (t : State) (d : Fin 4) => (t.dieDown d).modDie d (fun x => { x with supplyLow := true })) s).faultScan)

/-- The SAFE entry of a die whose supply has recovered is recorded and reported with cause 4 (R84, R90, R537). -/
def State.dieRecover (s : State) (d : Fin 4) : State :=
  if s.die[d].supplyLow = false then s
  else (s.modDie d (fun x => { x with supplyLow := false })).lowRecord d

/-- VCORE_P_RECOVER (R84). -/
def execVcorePRecover (s : State) : Res := .next ((fins 4).foldl State.dieRecover s)

/-- VBAT_LOW: VBAT in mV against SUPPLY_VBAT_LOW, with its hysteresis of 50 mV (R488, R511). -/
def execVbatLow (mv : Nat) (s : State) : Res :=
  let lim := s.parN P.SUPPLY_VBAT_LOW 0
  .next (s.modPower (fun p => { p with vbatLow := if mv < lim then true else if lim + 50 ≤ mv then false else p.vbatLow }))

/-- COLD_POR: DL_SPRING from below its power-on level; everything is reset (R493, R494). -/
def execColdPor (s : State) : Res :=
  .next { (s.fullReset 1 false) with
    spring := Spring.reset, power := Power.reset, tb := State.reset.tb, clk := { s.clk with dlRef := false } }

/-- MAIN_POR: the main supplies rise with DL_SPRING kept (R493). -/
def execMainPor (s : State) : Res := .next (if s.dev.state = .dormant then s else s.fullReset 2 false)

/-- nRST low for 10 ms clears every thermal latch (R473, R494). -/
def State.latchClear (s : State) (d : Fin 8) : State :=
  if s.therm.die[d].st = .latched then
    ((s.modTd d (fun x => { x with st := .shutdown })).ledgerNeed).log 0x1103 d.val (2 + 255 * 256 : Nat)
  else s

/-- NRST: nRST low for 1 µs, `long` for 10 ms, which writes the thermal items it changes at once
(R473, R474, R493); shelf time runs on only where DL_REF does (R39, R494). In Dormant it is a wake
event alone (R500). -/
def execNrst (long : Bool) (s : State) : Res :=
  .next (if s.dev.state = .dormant then s
  else
    let s1 := s.fullReset 4 s.clk.dlRef
    if long ∧ (fins 8).any (fun (d : Fin 8) => s1.therm.die[d].st == .latched) then ((fins 8).foldl State.latchClear s1).ledgerWrite else s1)

/-- A wake event of a cause is enabled: WAKE_EN as Dormant entry left it, nRST always (R496, R500). -/
def State.wakeOn (s : State) (cause : Nat) : Bool :=
  let en : Nat := match s.spring.newest with
    | none => 0
    | some r => r.wakeEn
  cause == 6 || (decide (1 ≤ cause ∧ cause ≤ 5) && bit en (cause - 1))

/-- A wake: MAIN_EN high, the device in reset until its supplies have come (R490, R493, R500). -/
def State.wake (s : State) (cause : Nat) : State :=
  (s.modSpring (fun x => { x with mainEn := true, wakeCause := cause, wakeLatch := none })).fullReset 3 false

/-- DORMANT_WAKE: a wake event in Dormant with its cause of DEV_WAKE_CAUSE; `early` where it came
before MAIN_EN fell (R500). -/
def execDormantWake (cause : Nat) (early : Bool) (s : State) : Res :=
  .next (if s.dev.state ≠ .dormant ∨ s.wakeOn cause = false then s
  else if early then s.modSpring (fun x => { x with wakeLatch := some cause })
  else s.wake cause)

/-- LATCHED_WAKE_MAIN_EN_HIGH: 10 ms after MAIN_EN fell with a wake latched before (R500). -/
def execLatchedWakeMainEnHigh (s : State) : Res :=
  match s.spring.wakeLatch with
  | none => .next s
  | some c => .next (if s.dev.state = .dormant then s.wake c else s)

/-- WAKE_TIMEOUT: the supplies have not come within 1 s of a wake: MAIN_EN low again, WAKE_CAUSE with bit 7 (R500). -/
def execWakeTimeout (s : State) : Res :=
  .next (if s.dev.held ∧ s.dev.state = .boot ∧ s.spring.kind = 3 then
    (s.modSpring (fun x => { x with mainEn := false, wakeCause := x.wakeCause % 128 + 128 })).modDev (fun d => { d with state := .dormant })
  else s)

end Sys2Proof.Machine
end

