-- ==== Sys2Proof/Machine/Boot.lean ====
section
/-! DEFINITION. The start of the part: reset released, shelf time resumed, ledger and retention
read, the Keneb image applied; the
automatic START, retention writes, the end of a firmware trial (R39, R342, R349, R406, R490, R496,
R497, R502 to R508, R510). -/

namespace Sys2Proof.Machine

/-- The sequences of the valid records in the silt store, in slot order (R339, R343, R344). -/
def State.validSeqs (s : State) : List Nat :=
  s.mram.filterMap (fun c =>
    if 0xC00000 ≤ c.1 ∧ c.1 < 0x2400000 ∧ c.1 % 32 = 0 ∧ c.2 = 0x5A#8 ∧ recValid (s.load c.1 32) then some (s.loadNat (c.1 + 6) 4) else none)

/-- The sequence behind which every other one of a list lies, none of an empty list (R345). -/
def newestSeq (l : List Nat) : Option Nat := l.find? (fun q => l.all (fun r => decide ((q + siltMod - r) % siltMod < siltMod / 2)))

/-- The sequence before which no other one of a list lies (R345). -/
def oldestSeq (l : List Nat) : Option Nat := l.find? (fun q => l.all (fun r => decide ((r + siltMod - q) % siltMod < siltMod / 2)))

/-- The shelf time of the newest valid record of the log, 0 without one (R39, R349). -/
def State.newestTime (s : State) : Nat :=
  match newestSeq (s.validSeqs.filter (fun q => decide ((q + siltMod - s.silt.oldest) % siltMod < s.silt.count))) with
  | none => 0
  | some q => s.loadNat (siltAddr q + 10) 8

/-- The largest shelf time in the ledger in force: TRIAL_START, ENERGY_TIME and the LAST of every thermal item (R39). -/
def State.ledgerTime (s : State) : Nat := match s.ledgerPick with
  | none => 0
  | some b =>
    let a := ledgerAddr b
    (fins 8).foldl (fun m (d : Fin 8) => max m (s.loadNat (a + 3968 + 12 * d.val) 8)) (max (s.loadNat (a + 48) 8) (s.loadNat (a + 68) 8))

/-- The copy of spring retention with a good CRC and the higher GEN (R497). -/
def Spring.best (x : Spring) : Option Ret := match x.ret[(0 : Fin 2)], x.ret[(1 : Fin 2)] with
  | some a, some b => if a.gen < b.gen then some b else some a
  | some a, none => some a
  | none, b => b

/-- Shelf time resumes where DL_REF starts: the largest of three values plus 4 ns (R35, R39). -/
def State.resumeTime (s : State) : State :=
  if s.clk.dlRef then s
  else
    let saved : Nat := match s.spring.best with
      | none => 0
      | some r => r.time
    let v := (max saved (max s.newestTime s.ledgerTime) + 4) / 4 * 4
    ({ s with
      clk := { s.clk with dlRef := true, t5k := v / 4 * 5000 }
      tb := { State.reset.tb with timeGap := true } }).log 0x0124 0 (Int.ofNat v)

/-- The first sequence, from `q` upward, whose slot does not hold it as a valid record, and the last
SILT_CLEARED record met (R349). -/
def State.siltScan (s : State) : Nat → Nat → Option Nat → Nat × Option Nat
  | 0, q, c => (q, c)
  | n + 1, q, c =>
    if recValid (s.load (siltAddr q) 32) ∧ s.loadNat (siltAddr q + 6) 4 = q then
      s.siltScan n (siltNext q) (if s.loadNat (siltAddr q + 2) 2 = 0x0D01 then some q else c)
    else (q, c)

/-- The log as a scan forward from a ledger's OLDEST and NEXT finds it (R349). -/
def State.siltFound (s : State) (oldest next : Nat) : State :=
  let r := s.siltScan s.mram.length next none
  let o := r.2.getD oldest
  s.modSilt (fun x => { x with
    oldest := if siltSlots < (r.1 + siltMod - o) % siltMod then (r.1 + siltMod - siltSlots) % siltMod else o, next := r.1, done := r.1 })

/-- A thermal item read back (R474). -/
def ThDie.fromItem (x : ThDie) (bs : List Byte) : ThDie :=
  let f := leAt bs 10 1
  { x with
    last := leAt bs 0 8, count := leAt bs 8 2, recorded := bit f 2
    st := if bit f 0 then .latched else if bit f 1 then .shutdown else .run }

/-- The energy copy of a ledger copy (R157, R341). -/
def energyFrom (bs : List Byte) : EnergyCopy :=
  ⟨leAt bs 48 8, #v[leAt bs 16 8, leAt bs 32 8], #v[leAt bs 24 8, leAt bs 40 8]⟩

/-- Everything the ledger holds, from the 4,096 bytes of copy `b` (R341, R342, R474, R503). -/
def State.ledgerFrom (s : State) (b : Bool) (bs : List Byte) : State :=
  let t := leAt bs 65 1
  let s1 := ((s.siltFound (leAt bs 4 4) (leAt bs 8 4)).modSilt (fun x => { x with gen := leAt bs 0 4, copyB := b })).modFirm (fun f => { f with
    runSlot := ⟨leAt bs 64 1 % 2, Nat.mod_lt _ (by omega)⟩, trialSlot := if h : t < 2 then some ⟨t, h⟩ else none
    trialBoots := leAt bs 66 1, trialStart := leAt bs 68 8 })
  { s1 with
    nodes := { s.nodes with bootGen := leAt bs 12 2 }
    bank := { s.bank with copy := some (energyFrom bs) }
    host := { s.host with ledImg := leAt bs 67 1 % 2 }
    therm := { s.therm with die := tab 8 (fun d => s.therm.die[d].fromItem (bs.drop (3968 + 12 * d.val))) } }

/-- With both copies bad, the log is found by a scan of every slot, NODE_BOOT_GEN from the newest
NODE_OPEN record, the energy is 0
(R157, R342). -/
def State.ledgerRebuild (s : State) : State :=
    let l := s.validSeqs
    let opens := l.filter (fun q => s.loadNat (siltAddr q + 2) 2 == 0x0B01)
    let next : Nat := match newestSeq l with
      | none => 0
      | some q => siltNext q
    let g : Nat := match newestSeq opens with
      | none => 1
      | some q => s.loadNat (siltAddr q + 18 + 2) 2 + 1
    { s.modSilt (fun x => { x with oldest := (oldestSeq l).getD 0, next := next, done := next, gen := 0, copyB := true }) with
      nodes := { s.nodes with bootGen := g }
      bank := { s.bank with copy := none } }

/-- A start of DL_NV: everything the ledger holds comes from the copy in force, or is rebuilt (R342, R349). -/
def State.ledgerLoad (s : State) : State :=
  (match s.ledgerPick with
   | some b => s.ledgerFrom b (s.load (ledgerAddr b) 4096)
   | none => s.ledgerRebuild).modSilt (fun x => { x with ledgerDue := false, ledgerAfter := 0, ledgerWarn := false, ledgerAt := s.clk.tick })

/-- What a start of DL_NV records: a bad ledger copy; a torn slot where the scan of the log ended,
and one that carries the mark of a
record but no good CRC (R342, R349, R369). -/
def State.ledgerStart (s : State) : State :=
  let gen (x : Bool) : Nat := s.loadNat (ledgerAddr x) 4
  let s1 := match s.ledgerOk false, s.ledgerOk true with
    | true, true => s
    | true, false => s.log 0x0D04 1 (Int.ofNat (gen false))
    | false, true => s.log 0x0D04 0 (Int.ofNat (gen true))
    | false, false => s.log 0x0D04 2 0
  let a := siltAddr s.silt.done
  if s.ledgerPick = none ∨ s.written a 32 = false ∨ recValid (s.load a 32) then s1
  else
    let s2 := s1.log 0x0D02 0 s.silt.done
    if s.loadNat a 1 = 0x5A then s2.log 0x0D03 255 s.silt.done else s2

/-- The retention check: without a good copy, class T is lost and the reset counts as COLD_POR; GEN
of a bad copy is a free value
(R39, R492, R494, R497). -/
def State.retentionStart (s : State) : State := match s.spring.best with
  | some r => s.modSpring (fun x => { x with valid := true, pend := if r.pendWarn = 0 then none else some (r.pendWarn, r.pendTime) })
  | none =>
    let s1 := (s.modSpring (fun x => { x with
      valid := false, kind := 1, prev := 0, wakeCause := 0, resetCnt := 0, dormantTime := 0, pend := none, retain := Vector.replicate 16 0 })).modPower
        (fun p => { p with warnCnt := 0 })
    { (s1.log 0x120B 0 (lohi (Config.freeInt s.free) (Config.freeInt (s.free + 1)))) with free := s.free + 2 }

/-- A host port's Silt cursor starts at OLDEST (R353, R377). -/
def State.cursorsStart (s : State) : State := s.modHost (fun h => { h with port := h.port.map (fun p => { p with cursor := s.silt.oldest }) })

/-- DEV_RESET_RELEASE: every main supply has stood for 1 ms and nRST is high; the stems start unless
the ledger shows the Delta die in
shutdown (R39, R342, R490, R497, R502, R503). -/
def execDevResetRelease (s : State) : Res :=
  .next (if s.dev.held = false ∨ s.dev.state = .dormant then s
  else
    let s1 := s.modDev (fun d => { d with
      held := false, nvOn := true, snsOn := true, coreOn := true, hostOn := true })
    let s2 := s1.ledgerLoad.resumeTime.ledgerStart.retentionStart.cursorsStart.hotHold
    (if s2.therm.die[(2 : Fin 8)].st = .run then s2.startStems else s2).brownStart)

/-- The image that is applied (R504): its slot, its values, and the event of a fallback as (source, data). -/
def State.imgChoose (s : State) : Option (Nat × SMap Int) × Option (Nat × Nat) :=
  let k := s.host.ledImg
  let a := s.imgCheck k
  if a.1 = 0 then (some (k, a.2), none)
  else
    let b := s.imgCheck (1 - k)
    if b.1 = 0 then (some (1 - k, b.2), some (1 - k, 1 + a.1 * 256)) else (none, some (255, 2 + a.1 * 256))

/-- HOST_LAST_COMMIT and HOST_LAST_COMMIT_ST of the key slots as an image holds them (R406, R436). -/
def keysFrom (bs : List Byte) (key : Vector Key 8) : Vector Key 8 :=
  tab 8 (fun k => { key[k] with
    lastEpoch := leAt bs (32 + 12 * k.val) 4, lastSeq := leAt bs (36 + 12 * k.val) 4, lastSt := leAt bs (40 + 12 * k.val) 2 })

/-- The image in force, or the defaults, become the values of every class-K parameter (R404, R406, R436, R504). -/
def State.imgLoad (s : State) : State :=
  let c := s.imgChoose
  let s1 := match c.1 with
    | none => ({ s with cfg := [] }.modHost (fun h => { h with kenebId := 0, kenebGen := 0, minFw := 0, key := keysFrom [] h.key })).modFirm
        (fun f => { f with kenebSlot := none })
    | some q =>
      let bs := s.imgAt q.1
      ({ s with cfg := q.2 }.modHost (fun h => { h with
        ledImg := q.1, kenebId := leAt bs 12 4, kenebGen := leAt bs 16 4, minFw := leAt bs 8 4, key := keysFrom bs h.key })).modFirm
          (fun f => { f with kenebSlot := some ⟨q.1 % 2, Nat.mod_lt _ (by omega)⟩ })
  match c.2 with
  | none => s1
  | some e => (s1.log 0x1209 e.1 (Int.ofNat e.2)).ledgerNeed

/-- A timer's parameters, and its start where TIMER_AUTOSTART is ON, at the first application of the
image (R479, R482). -/
def State.timerBoot (s : State) (t : Fin 32) : State :=
  let ps := [P.TIMER_PRESCALE, P.TIMER_RELOAD, P.TIMER_INTERVAL, P.TIMER_CAP_SRC, P.TIMER_CAP_EDGE, P.TIMER_CAP_FILT]
  let s1 := ps.foldl (fun (u : State) (p : Prm) => if u.parN p t = (p.dfltAt t).toNat then u else u.timerWrite t (.par p.id (u.parN p t))) s
  if s.par P.TIMER_AUTOSTART t = 1 then s1.timerWrite t .start else s1

/-- A string's learned capacity starts at its nominal one, and counting at this instant (R234, R248). -/
def State.battBoot (s : State) (b : Fin 8) : State :=
  let cap := s.parN P.BATT_CAP_NOM b
  ({ s with batt := upd s.batt b (fun x => { x with buf := x.buf.map (fun l => { l with cap := cap }) }) } : State).battStart b

/-- Sensor offsets start at THERM_OFS_INIT with DL_SNS (R469). -/
def State.offsetsBoot (s : State) : State :=
  if s.spring.kind = 8 then s
  else s.modTherm (fun t => { t with sen := tab 64 (fun n => { t.sen[n] with ofs := s.par P.THERM_OFS_INIT n }) })

/-- A trial reaches MB_READY: TRIAL_START (R503, R508). -/
def State.trialBegin (s : State) : State :=
  if s.firm.trialSlot = some s.firm.run ∧ s.firm.trialBoots = 1 then (s.modFirm (fun f => { f with trialStart := s.clk.shelf, trialTick := s.clk.tick })).ledgerNeed else s

/-- The FAULT pins follow DEV_FAULT_SRC from here on (R144). -/
def State.faultFree (s : State) : State := { s with fault := { s.fault with hold := false } }.faultScan

/-- A unit whose CHAIN_HEAD strap is high takes address 1 (R510). -/
def State.chainBoot (s : State) (head : Bool) : State :=
  let exp := s.parN P.DEV_CHAIN_EXPECT 0
  let s1 := { s with chain := { s.chain with head := head, addr := if head then 1 else 0, mis := head && decide (exp ≠ 0 ∧ exp ≠ 1) } }
  if s1.chain.mis then s1.log 0x120A 1 (1 + exp * 256 : Nat) else s1

/-- The operating state that the image asks for at a start, with its domains (R19, R498, R499, R505). -/
def State.stateBoot (s : State) : State :=
  if s.par P.DEV_BOOT_STATE 0 = 2 then ((s.stateTo .quiet 255).modDev (fun d => { d with fldlOn := true })).quietDown else s.runEntry 255

/-- KENEB_IMAGE_APPLY: the image in force, a fallback or the defaults; the command-source signal
rises, the FAULT pins follow their
sources, the mailboxes are ready, the state is RUN or QUIET. `head` is the CHAIN_HEAD strap (R81,
R144, R504, R505, R510). -/
def execKenebImageApply (head : Bool) (s : State) : Res :=
  .next (if s.hasActive = false ∨ s.dev.applied then s
  else
    let s1 := (s.imgLoad.modDev (fun d => { d with applied := true, mbReady := true, bootTime := (s.clk.tick - d.started) / 250 })).stamp
    let s2 := (fins 8).foldl State.battBoot ((fins 32).foldl State.timerBoot s1)
    let s3 := (fins 4).foldl (fun (t : State) (d : Fin 4) => t.modDie d (fun x => { x with src := true })) s2.offsetsBoot.spateApply
    let s4 := if s3.bank.on then s3.bankSendSet else s3
    ((s4.faultFree.trialBegin).chainBoot head).stateBoot)

/-- LOOP_AUTOSTART: the automatic START of a loop once every die holding its phases is ARMED (R505). -/
def execLoopAutostart (l : Fin 16) (s : State) : Res :=
  .next (if s.hasActive ∧ s.dev.state = .run ∧ s.dev.auto[l] ∧ s.canStart l then (s.stamp.loopStart l).1 else s)

/-- RETENTION_WRITE: once per second (R39, R496). -/
def execRetentionWrite (s : State) : Res := .next (if s.dev.held ∨ s.dev.state = .dormant then s else s.retWrite)

/-- FW_TRIAL_CONFIRM: DEV_FW_TRIAL_TIME has passed since TRIAL_START with no reset, watchdog or restart (R508). -/
def execFwTrialConfirm (s : State) : Res :=
  match s.firm.trialSlot with
  | none => .next s
  | some k =>
    match s.firm.slot[k] with
    | none => .next s
    | some i =>
      .next (if s.firm.trialStart = 0 ∨ s.hasActive = false ∨ s.clk.tick < s.firm.trialTick + s.parN P.DEV_FW_TRIAL_TIME 0 * 250000000 then s
      else
        let rb := max s.firm.rollback i.rollback
        ((s.modFirm (fun f => { f with
          runSlot := k, trialSlot := none, trialBoots := 0, trialStart := 0, rollback := rb })).ledgerNeed).log 0x1207 k.val
            (i.version + rb * 2 ^ 32 : Nat))

end Sys2Proof.Machine
end

