-- ==== Sys2Proof/Machine/Peer.lean ====
section
/-! DEFINITION. The peer chain: HELLO, frames received, links (R189 to R191, R509, R510). -/

namespace Sys2Proof.Machine

/-- The chain changed. -/
def State.modChain (s : State) (f : Chain → Chain) : State := { s with chain := f s.chain }

/-- Peer port `n` changed. -/
def State.modPeer (s : State) (n : Fin 2) (f : Peer → Peer) : State := s.modChain (fun c => { c with peer := upd c.peer n f })

/-- The payload of HELLO (R509). -/
def State.helloBody (s : State) : List Byte :=
  leBytes 1 (b2n s.chain.head + 2 * b2n (s.chain.addr != 0)) ++ leBytes 1 (s.parN P.DEV_CHAIN_EXPECT 0) ++ leBytes 2 0

/-- PEER_HELLO_SEND: a HELLO on one peer port (R509). -/
def execPeerHelloSend (n : Fin 2) (s : State) : Res := .next (if s.hasActive then s.peerSend n 1 s.helloBody else s)

/-- The address that a unit other than the head takes from a HELLO on PCU, with its records (R510). -/
def State.takeAddr (s : State) (up : Nat) : State :=
  let exp := s.parN P.DEV_CHAIN_EXPECT 0
  if up = 250 then s.log 0x120A 0 (2 + exp * 256 : Nat)
  else
    let a := up + 1
    let mis : Bool := decide (exp ≠ 0 ∧ exp ≠ a)
    let s1 := s.modChain (fun c => { c with addr := a, mis := mis })
    if mis then s1.log 0x120A a (1 + exp * 256 : Nat) else s1

/-- A HELLO with the sender's address (R510). -/
def State.helloIn (s : State) (n : Fin 2) (a : Nat) : State :=
  let s1 := s.modPeer n (fun x => { x with addr := a })
  if n.val = 1 then s1
  else if s.chain.head then
    (if a = 0 then s1 else (s1.modChain (fun c => { c with conflict := true })).log 0x120A 1 (3 + s.parN P.DEV_CHAIN_EXPECT 0 * 256 : Nat))
  else if s.chain.addr = 0 then (if 1 ≤ a ∧ a ≤ 250 then s1.takeAddr a else s1)
  else s1.modChain (fun c => { c with skew := c.skew || a + 1 != c.addr })

/-- A peer share record (R189 to R191): ignored where its ADDR is not the neighbour's; fresh where
its SEQ is a new one; the end of a freshness over before it is logged first. -/
def State.shareIn (s : State) (n : Fin 2) (b : List Byte) : State :=
  let a := leAt b 0 1
  let q := leAt b 2 2
  let x := s.share.peer[n]
  let hu := bit (leAt b 1 1) 0
  if a = 0 ∨ a ≠ s.chain.peer[n].addr then s
  else
    let isNew : Bool := x.arrived.isNone || x.seq != q
    let s0 := s.peerAge n
    let s1 := { s0 with share := { s0.share with peer := upd s0.share.peer n (fun y => { y with
      addr := a, holdup := hu, valid := leAt b 1 1 / 2 % 16, seq := q
      loadUp := signed 32 (leAt b 4 4), capUp := leAt b 8 4, loadDown := signed 32 (leAt b 12 4), capDown := leAt b 16 4
      arrived := if isNew then some s.clk.tick else y.arrived, fresh := y.fresh || isNew }) } }
    if hu ∧ x.holdup = false then s1.log 0x0704 n.val (Int.ofNat a) else s1

/-- PEER_FRAME_RECEIVE: a frame on a peer port whose CRC-32C passes and whose LEN is that of its
type, stamped (R509). -/
def execPeerFrameReceive (n : Fin 2) (data : List Byte) (s : State) : Res :=
  let k := data.length
  let typ := leAt data 0 1
  let len := leAt data 2 2
  .next (if s.hasActive = false ∨ s.chain.peer[n].up = false then s
  else if k < 12 ∨ k ≠ 12 + len ∨ crc32c (data.take (k - 4)) ≠ leAt data (k - 4) 4 then s
  else if typ = 1 ∧ len = 4 then s.stamp.helloIn n (leAt data 1 1)
  else if typ = 2 ∧ len = 20 then s.stamp.shareIn n (data.drop 8)
  else s)

/-- PEER_LINK_UP (R509). -/
def execPeerLinkUp (n : Fin 2) (s : State) : Res := .next (if s.dev.held then s else s.modPeer n (fun x => { x with up := true }))

/-- PEER_LINK_DOWN (R509). -/
def execPeerLinkDown (n : Fin 2) (s : State) : Res := .next (s.modPeer n (fun x => { x with up := false }))

end Sys2Proof.Machine
end

