-- ==== Sys2Proof/Machine/Period.lean ====
section
/-! DEFINITION. The loop period (R56, R57, R67, R71, R73, R74, R94, R121, R134, R136): what closes
with a period, what a period
start applies, the sample it takes. -/

namespace Sys2Proof.Machine

/-- The loop period of a phase closes: average and highest of its samples (R87, R91). -/
def State.closePhase (s : State) (p : Fin 48) : State :=
  s.modPst p (fun y => { y with
    iAvg := if y.perN = 0 then y.iAvg else nearHalfAway y.perSum y.perN, iPeak := if y.perN = 0 then y.iPeak else y.perMax
    perSum := 0, perN := 0, perMax := 0 })

/-- Each die's limit report of the period just ended (R120, R121). -/
def State.reportPeriod (s : State) (l : Fin 16) : State :=
  let number := s.loop[l].tm.number
  let reps := (s.diesOf l).map (fun d => (⟨d, number, (s.phasesOn d l).any (fun p => s.ph[p].limitedNow),
    (s.phasesOn d l).any (fun p => s.ph[p].pl.pulse.isSome && s.ph[p].pl.period == number)⟩ : LimRep))
  let s1 := s.modOc l (fun o => { o with reps := o.reps ++ reps })
  (s.phasesOf l).foldl (fun s p => s.modPh p (fun x => { x with limitedNow := false })) s1

/-- The stop and the shed mask a die applies at a loop period start (R109, R134, R135). A pulse still in
progress there runs to its end, as R109 cuts none, and has no synchronous conduction after it (DESIGN CHOICE, log
entry 136). -/
def State.applyAtDie (s : State) (l : Fin 16) (d : Fin 4) : State :=
  let q := s.die[d].lp[l]
  let s1 := s.modLp d l (fun x => { x with maskNow := x.maskNext, shareAll := false })
  let s2 := if q.stopping then (s1.phasesOn d l).foldl (fun t p => if t.ph[p].pl.pulse = none then t.outputsLow p else t) s1
    |>.modLp d l (fun x => { x with run := false, stopping := false }) |>.dieSettle d else s1
  (s2.phasesOn d l).foldl (fun t p =>
    let has := maskHas q.maskNext p
    match t.ph[p].shed with
    | .active => if has then t.modPh p (fun x => { x with shed := .shedding, shedPeriods := 0 }) else t
    | .shedding =>
      if has then t.modPh p (fun x => { x with shedPeriods := x.shedPeriods + 1 }) else t.modPh p (fun x => { x with shed := .active, hot := false })
    | .shed => if has then t else t.modPh p (fun x => { x with shed := .active, hot := false })) s2

/-- N_act and the slots from a period start; the offset is the last rotation's LFSR value modulo the
new N_act; a phase added back is
logged (R56, R57, R134, R136). -/
def State.assignSlots (s prev : State) (l : Fin 16) : State :=
  let act := s.activeOf l
  let n := act.length
  let o := if s.parNow P.EBB_ROT_EN l = 1 ∨ s.loop[l].tm.rotForce then s.loop[l].tm.rotNow else 0
  let s1 := s.modEb l (fun e => { e with nAct := n })
  (s.phasesOf l).foldl (fun t p =>
    let r := act.idxOf p
    let t1 := t.modPh p (fun x => { x with slot := if r < n then some ((r + o % n) % n) else none })
    if s.live l ∧ r < n ∧ prev.ph[p].shed = .shed then t1.log 0x0511 p.val n else t1) s1

/-- The spread-spectrum entry and position of a period start (R73): seeds and the first draw at an
entry. The rotation's LFSR is seeded
where a run of the loop starts (R136; DEDUCED, log entry 125). -/
def State.spread (s : State) (l : Fin 16) : State :=
  let s1 := if s.loop[l].tm.fresh then
    s.modTm l (fun t => { t with
      rotLfsr := if t.rotForce then t.rotLfsr else lfsrSeed l (s.parNowN P.EBB_ROT_SEED l), rotNow := 0, rotCount := 0 })
  else s
  if s.loop[l].tm.fresh || s.loop[l].tm.ssFresh then
    let v := lfsrStep (lfsrSeed l (s.parNowN P.LOOP_SS_SEED l))
    s1.modTm l (fun t => { t with ssElapsed := 0, ssLfsr := v, ssStep := v % 256 })
  else s1

/-- What a sample reads at the voltage-sense input of its loop: node mV, full scale read, and the
instant as an offset into the period
of length `per` that ends: the mean of the period's conversions, or the one that completes nearest
to LOOP_SAMPLE_OFFSET, the earlier of
two; the last conversion where the period has none (R93, R94, R115). -/
def State.vsSample (s : State) (l : Fin 16) (per v : Nat) : Int × Bool × Nat :=
  if h : v < 16 then
    let x := s.vs[v]
    match x.convs with
    | [] => (s.nodeMv ⟨v, h⟩ x.last 1, x.last == 16383, per)
    | c :: cs =>
      if s.parNow P.LOOP_SAMPLE_MODE l = 1 then
        (s.nodeMv ⟨v, h⟩ (((c :: cs).map (·.2)).sum) (cs.length + 1), (c :: cs).any (fun q => q.2 == 16383), per)
      else
        let o := s.parNow P.LOOP_SAMPLE_OFFSET l
        let b := cs.foldl (fun b q => if ((q.1 : Int) - o).natAbs < ((b.1 : Int) - o).natAbs then q else b) c
        (s.nodeMv ⟨v, h⟩ b.2 1, b.2 == 16383, b.1)
  else (0, false, per)

/-- The AUX_VOLTAGE sample: the conversion of LOOP_VS_AUX that completed last before the sample
instant (R103, log entry 25). -/
def State.auxSample (s : State) (l : Fin 16) : Int :=
  let v := s.parNowN P.LOOP_VS_AUX l
  if h : v < 16 then s.nodeMv ⟨v, h⟩ s.vs[v].last 1 else 0

/-- A forced pulse of the loop is in progress: the period that starts holds forward too (R99;
DEDUCED, log entry 136). -/
def State.forcedNow (s : State) (l : Fin 16) : Bool := (s.phasesOf l).any (fun p => s.ph[p].pl.pulse.isSome && s.ph[p].pl.forced)

/-- The sample taken at the start of a period, at the end of the one before it, of length `per`, with
the CURRENT `cur` of the phases active in that one (R91, R94, R99, R115). T is taken between period starts in POINT
mode too, where the conversion chosen lies earlier (DESIGN CHOICE, log entry 136). -/
def State.takeSample (s : State) (l : Fin 16) (per : Nat) (cur : Int) : State :=
  let x := s.loop[l]
  let v := s.vsSample l per (s.parNowN P.LOOP_VS_SEL l)
  let smp : Sample := ⟨s.ord, s.clk.shelf - (per - v.2.2) / 32 * 4, x.tm.number - 1, v.1, s.auxSample l, cur, v.2.1,
    x.tm.sinceSample, x.fwdHold, x.revHold⟩
  s.modLoop l (fun y => { y with samples := y.samples ++ [smp], fwdHold := s.forcedNow l, revHold := false, tm := { y.tm with sinceSample := 0, lastOrd := s.ord } })

/-- The conversions of the period just ended are let go (R93). -/
def State.clearConvs (s : State) (l : Fin 16) : State :=
  let v := s.parNowN P.LOOP_VS_SEL l
  if h : v < 16 then s.modVs ⟨v, h⟩ (fun x => { x with convs := [] }) else s

/-- The period averages of a loop's phases in service on a die enter the die's sums; at the first
period end past a millisecond the
die sends its sums (R227, R537). -/
def State.dieSums (s : State) (l : Fin 16) (per : Nat) (d : Fin 4) : State :=
  let q := sumI ((s.phasesOn d l).filter (fun p => s.ph[p].inService)) (fun p => s.pst[p].iAvg * per)
  let ms := s.clk.tick / 250000
  let s1 := s.modDie d (fun x => { x with sums := upd x.sums l (· + q) })
  if s.die[d].msAt = ms then s1
  else s1.modDie d (fun x => { x with
    reports := x.reports ++ ((fins 16).filter (fun (k : Fin 16) => x.sums[k] != 0)).map (fun k => DieReport.currentSum k x.sums[k])
    sums := Vector.replicate 16 0, msAt := ms })

/-- A sample of a loop that finds its start-short timer expired: one below the level of R125 once
LOOP_SHORT_TIME has passed (R125,
R126); with LOOP_SHORT_TIME 0 the timer is off. -/
def State.shortFound (s : State) (l : Fin 16) (q : Sample) : Bool := match s.loop[l].oc.shortT with
  | none => false
  | some t => s.parNowN P.LOOP_SHORT_TIME l != 0 && decide (t + 250 * s.parNowN P.LOOP_SHORT_TIME l ≤ s.clk.tick) && !s.shortReached l q.v

/-- The sample just taken tests the start-short timer; the period that ended with it is kept (R126). -/
def State.shortFind (s : State) (l : Fin 16) : State := match s.loop[l].samples.getLast? with
  | none => s
  | some q => if s.shortFound l q ∧ s.loop[l].oc.shortAt = none then s.modOc l (fun o => { o with shortAt := some q.period }) else s

/-- What a period start finds of the phases that have no period: they take the values of a commit at
once, and were not ACTIVE for the whole window (R55, R138). -/
def State.idlePhases (s : State) (l : Fin 16) : State :=
  ((s.phasesOf l).filter (fun p => !s.switches p l)).foldl (fun t p =>
    (t.lagTake (lagOfPhase p)).modPst p (fun y => { y with winWhole := false })) s

/-- A loop's period starts (R25, R55 to R57, R71, R73, R74, R94, R121, R134): what ended closes, the dies
take stops and sheds, the period
that starts has its length and slots, a sample is taken every LOOP_SAMPLE_DIV periods of a run: its CURRENT is that
of the phases active in the period that ended (R91; DESIGN CHOICE, log entry 136). -/
def State.periodStart (s : State) (l : Fin 16) : State :=
  let per := s.loop[l].tm.p
  let fresh := s.loop[l].tm.fresh
  let ss := fresh || s.loop[l].tm.ssFresh
  let s0 := (s.phasesOf l).foldl State.closePhase s
  let s1 := (s0.diesOf l).foldl (fun t d => t.dieSums l per d) s0
  let s2 := ((s1.lagTake (s1.lagOfPeriod l)).reportPeriod l).spread l
  let s3 := (s2.diesOf l).foldl (fun t d => t.applyAtDie l d) s2
  let s4 := s3.modLoop l (fun x => { x with
    tm := { x.tm with
      p := s3.periodNow l, pLast := per, number := x.tm.number + 1, fresh := false, ssFresh := false
      ssElapsed := if ss then s3.periodNow l else x.tm.ssElapsed + s3.periodNow l
      rotCount := x.tm.rotCount + 1, runPeriods := if fresh then 0 else x.tm.runPeriods + 1
      sinceSample := if fresh then 0 else x.tm.sinceSample + per } })
  let due := s4.live l && s4.loop[l].tm.runPeriods % s4.parNowN P.LOOP_SAMPLE_DIV l == 0
  let s5 := if due then (((s4.lagTake (lagOfSample l)).ocModeStep l).stamp.takeSample l per (s0.loopCurrent l)).shortFind l else s4
  ((s5.clearConvs l).assignSlots s l).idlePhases l

/-- The domain of some phase die is on (R19). -/
def State.anyDie (s : State) : Bool := (fins 4).any (fun d => !s.die[d].off)

/-- LOOP_PERIOD_START, of which there is none while every phase die is off (R19, R74). -/
def execLoopPeriodStart (l : Fin 16) (s : State) : Res := .next (if s.anyDie then s.periodStart l else s)

/-- SS_FREQUENCY_DRAW: in PSEUDO_RANDOM mode a running loop advances its LFSR and draws a frequency (R73). -/
def execSsFrequencyDraw (l : Fin 16) (s : State) : Res :=
  .next (if s.parNow P.LOOP_SS_MODE l = 2 ∧ s.live l then
    s.modTm l (fun t => { t with ssLfsr := lfsrStep t.ssLfsr, ssStep := lfsrStep t.ssLfsr % 256 })
  else s)

/-- 2^EBB_ROT_EXP loop periods, or 2^4 under the override of R139, have started since the last rotation (R136). -/
def State.rotDue (s : State) (l : Fin 16) : Bool :=
  decide (2 ^ (if s.loop[l].tm.rotForce then 4 else s.parNowN P.EBB_ROT_EXP l) ≤ s.loop[l].tm.rotCount)

/-- SLOT_ROTATION: a rotation step that is due advances the LFSR, whose value gives the slots of the
period start that follows
(R57, R136, R139). -/
def execSlotRotation (l : Fin 16) (s : State) : Res :=
  .next (if (s.parNow P.EBB_ROT_EN l = 1 ∨ s.loop[l].tm.rotForce) ∧ s.rotDue l then
    s.modTm l (fun t => { t with rotLfsr := lfsrStep t.rotLfsr, rotNow := lfsrStep t.rotLfsr, rotCount := 0 })
  else s)

end Sys2Proof.Machine
end

