-- ==== Sys2Proof/Machine/Phase.lean ====
section
/-! DEFINITION. Events of the phase channels, phase dies and voltage windows (R53 to R90, R93, R537). -/

namespace Sys2Proof.Machine

/-- PULSE_START (R56, R57, R63, R66, R67, R69, R72). -/
def execPulseStart (p : Fin 48) (s : State) : Res := .next (s.slotStartOf p)

/-- The comparator is already past its reference when its blanking ends, with `sensed` mA in the
pulse's direction (R64, R66). -/
def State.pastAtBlank (s : State) (p : Fin 48) (d : Dir) (which : Comp) (sensed : Int) : Bool :=
  match which with
  | .regulation =>
    let ofs := if d = .rev then -s.ph[p].offset else s.ph[p].offset
    decide ((s.ph[p].refCode : Int) * 2 * s.fsIn p * 100000 - (s.ph[p].ramp : Int) * s.parNow P.PHASE_BLANK p * 512
      ≤ (sensed * s.par P.PHASE_CS_RSENSE p + ofs * 1000) * 409600)
  | .limit => decide (((if d = .fwd then s.ph[p].limCodeF else s.ph[p].limCodeR) : Int) * s.fsIn p * 1000
      ≤ sensed * s.par P.PHASE_CS_RSENSE p * 1024)

/-- The regulation comparator ends a pulse at `t`, or waits for PHASE_TON_MIN (R64, R66). -/
def State.regTrip (s : State) (p : Fin 48) (t : Nat) : State :=
  if s.ph[p].pl.tonMin then s.modPl p (fun x => { x with tripWaits := true }) else s.endPulse p t false

/-- The limit comparator ends a pulse at `t`: LIMIT, the hold of R99 and the limited period of R120 (R65, R66). -/
def State.limTrip (s : State) (p : Fin 48) (t : Nat) : State :=
  match s.ph[p].pl.pulse with
  | none => s
  | some d => ((s.holdSeen p d).endPulse p t true).modPh p (fun x => { x with limit := true })

/-- PHASE_BLANK_END (R64, R66): a comparator already past its reference ends the pulse. -/
def execPhaseBlankEnd (p : Fin 48) (which : Comp) (sensed : Int) (s : State) : Res :=
  match s.ph[p].pl.pulse with
  | none => .next s
  | some d =>
    match which with
    | .regulation =>
      let s1 := s.modPl p (fun x => { x with regBlank := false })
      .next (if s.ph[p].pl.regBlank ∧ s.pastAtBlank p d .regulation sensed ∧ ¬ (s.ph[p].pl.forced ∧ s.inUvs p) then
        s1.regTrip p (s.parNowN P.PHASE_BLANK p) else s1)
    | .limit =>
      let s1 := s.modPl p (fun x => { x with limBlank := false })
      .next (if s.ph[p].pl.limBlank ∧ s.pastAtBlank p d .limit sensed then s1.limTrip p (s.parNowN P.PHASE_LIM_BLANK p) else s1)

/-- REGULATION_TRIP at `t` after the controlled switch turned on (R53, R64, R66, R77). -/
def execRegulationTrip (p : Fin 48) (t : Nat) (s : State) : Res :=
  .next (if s.ph[p].pl.pulse ≠ none ∧ s.ph[p].pl.regBlank = false ∧ ¬ (s.ph[p].pl.forced ∧ s.inUvs p) then s.regTrip p t else s)

/-- LIMIT_COMPARATOR_TRIP at `t` after the controlled switch turned on (R53, R65, R66, R120). -/
def execLimitComparatorTrip (p : Fin 48) (t : Nat) (s : State) : Res :=
  .next (if s.ph[p].pl.pulse ≠ none ∧ s.ph[p].pl.limBlank = false then s.limTrip p t else s)

/-- MAXDUTY_REACHED: the pulse ends at PHASE_DMAX of the period (R66, R86, R99), also where that point falls
inside PHASE_TON_MIN, for which R66 gives both ends (DESIGN CHOICE, log entry 135). -/
def execMaxdutyReached (p : Fin 48) (s : State) : Res :=
  match s.ph[p].pl.pulse, s.loopOf p with
  | some d, some l =>
    if s.ph[p].pl.forced then .next s
    else .next (((s.holdSeen p d).endPulse p (s.loop[l].tm.p * s.parNowN P.PHASE_DMAX p / 100) false).modPh p (fun x => { x with
      maxduty := true, maxdutyCnt := bump x.maxdutyCnt, maxdutyWin := x.maxdutyWin + 1 }))
  | _, _ => .next s

/-- PHASE_TON_MIN_END: a regulation trip that came inside the minimum on-time ends the pulse now,
but not a forced one whose undershoot
stands (R66, R77). -/
def execPhaseTonMinEnd (p : Fin 48) (s : State) : Res :=
  let s1 := s.modPl p (fun x => { x with tonMin := false })
  .next (if s.ph[p].pl.pulse ≠ none ∧ s.ph[p].pl.tripWaits ∧ ¬ (s.ph[p].pl.forced ∧ s.inUvs p) then s1.endPulse p (s.parNowN P.PHASE_TON_MIN p) false else s1)

/-- FORCED_PULSE_MAX (R77). -/
def execForcedPulseMax (p : Fin 48) (s : State) : Res :=
  .next (if s.ph[p].pl.pulse ≠ none ∧ s.ph[p].pl.forced then s.endPulse p (s.parNowN P.PHASE_TON_FORCE_MAX p) false else s)

/-- A time of `len` (125 ps) that began at tick `at_` may have passed. -/
def State.past (s : State) (at_ len : Nat) : Bool := decide (at_ + len / 32 ≤ s.clk.tick)

/-- DEAD_TIME_END: once PHASE_DT_FALL or PHASE_DT_RISE has passed, the other switch of the
half-bridge turns on; a loop stopped meanwhile
turns none on (R70, R77, R82). -/
def execDeadTimeEnd (p : Fin 48) (s : State) : Res :=
  let x := s.ph[p].pl
  let s1 := s.modPl p (fun x => { x with dead := .none })
  if s.past x.deadAt x.deadLen = false then .next s
  else match x.dead with
  | .none => .next s
  | .sync => .next (if s.dieRuns p then s1.setSync p x.lastDir true else s1)
  | .controlled =>
    .next (if s.ph[p].inService ∧ s.dieRuns p ∧ ¬ s.inOvs p ∧ ¬ s.stops p then s1.startPulse p .fwd true (s.periodNo p)
    else s1.modPl p (fun x => { x with heldForced := false }))

/-- TOFF_MIN_END: PHASE_TOFF_MIN has passed and a start that it held back begins, a forced one
whether or not the undershoot still stands
(R57, R66, R77). -/
def execToffMinEnd (p : Fin 48) (s : State) : Res :=
  let x := s.ph[p].pl
  let s1 := s.modPl p (fun y => { y with toff := false, held := false, heldForced := false })
  .next (if x.toff = false ∨ s.past x.toffAt x.toffLen = false then s
    else if x.heldForced ∧ ¬ s.inOvs p then s1.forcePulse p
    else if x.held then s1.slotStartOf p
    else s1)

/-- PHASE_ADC_SAMPLE: a code taken `t` after the controlled switch last turned on (R60 to R62, R70, R71, R85, R138). -/
def execPhaseAdcSample (p : Fin 48) (code : Int) (t : Nat) (s : State) : Res :=
  let i := s.senseMa p code
  let x := s.ph[p]
  let on : Bool := x.pl.pulse.isSome
  if s.dieOn (dieOf p) = false ∨ (s.par P.PHASE_SENSE p = 1 ∧ on = false) then .next s
  else
    let s1 := s.modPh p (fun y => if on then { y with adc := i, onS := y.onS ++ [(t, i)] } else { y with adc := i, offS := y.offS ++ [(t, i)] })
    let s2 := s1.modPst p (fun y => { y with
      perSum := y.perSum + i, perN := y.perN + 1, perMax := if y.perN = 0 then i else max y.perMax i
      winSum := y.winSum + i, winSq := y.winSq + i.natAbs ^ 2, winN := y.winN + 1
      winWhole := y.winWhole && x.slot.isSome && x.shed == .active })
    let directed : Int := if x.pl.lastDir = .rev then -i else i
    .next (if s.parNow P.PHASE_OUT_MODE p = 2 ∧ on = false ∧ s.syncOn p x.pl.lastDir ∧ directed ≤ s.parNow P.PHASE_ZC_LEVEL p then
      (s2.setSync p x.pl.lastDir false).modPh p (fun y => { y with dcmNow := true })
    else s2)

/-- PHASE_CMD_FRAME: the first frame on its way to a die reaches it (R81, R82). -/
def execPhaseCmdFrame (d : Fin 4) (parityOk : Bool) (s : State) : Res :=
  match s.die[d].link with
  | [] => .next s
  | f :: fs => .next (((s.modDie d (fun x => { x with link := fs })).dieReceive d f parityOk).faultScan)

/-- The frames the Delta die re-sends to a die: the last frame of every running or hold-up loop with
phases on it, else an idle
frame (R81, R106, R193). -/
def State.refreshFrames (s : State) (d : Fin 4) : List CmdFrame :=
  let ls := (fins 16).filter (fun l => (s.phasesOf l).any (fun p => dieOf p == d) && (s.live l || s.parNow P.LOOP_HOLDUP_EN l == 1))
  match ls with
  | [] => [idleFrame]
  | _ => ls.map s.loopFrame

/-- PHASE_REFRESH_FRAME, and its reception (R81, R106, R193). -/
def execPhaseRefreshFrame (d : Fin 4) (parityOk : Bool) (s : State) : Res :=
  if s.die[d].src ∧ ¬ s.die[d].off then
    let fs := s.refreshFrames d
    let s1 := fs.foldl (fun t f => match f.loop with
      | none => t
      | some l => (t.preStale l).modCt l (fun c => { c with arm := f.arm })) s
    .next ((fs.foldl (fun t f => t.dieReceive d f parityOk) s1).faultScan)
  else .next s

/-- PHASE_CAL_DONE: `sum` of 64 sense codes taken with both outputs low; a phase that enters service
has no slopes yet (R61, R71, R82). -/
def execPhaseCalDone (p : Fin 48) (sum : Int) (s : State) : Res :=
  match s.ph[p].calPending with
  | none => .next s
  | some atArmed =>
    let ofs := s.offsetUv p sum
    let s1 := s.modPh p (fun x => { x with calPending := none, offset := ofs })
    .next (if 3000 < ofs.natAbs then
      (s1.modPh p (fun x => { x with calFail := true, inService := false })).log 0x0304 p.val ofs
    else if atArmed then s1.modPh p (fun x => { x with
      calFail := false, inService := true
      slF := if x.inService then x.slF else Slopes.reset, slR := if x.inService then x.slR else Slopes.reset })
    else s1)

/-- No good frame has reached a die for PHASE_CMD_WDOG (R82). -/
def State.wdogDue (s : State) (d : Fin 4) : Bool := decide (s.die[d].goodAt + 250 * s.parNowN P.PHASE_CMD_WDOG d ≤ s.clk.tick)

/-- PHASE_DIE_ARMED (R61, R82, R537): a die in SAFE with its source, a good frame and no cause left
measures its offsets. -/
def execPhaseDieArmed (d : Fin 4) (s : State) : Res :=
  let x := s.die[d]
  if x.state = .safe ∧ x.src ∧ x.goodFrame ∧ s.dieOn d ∧ x.parityRun < 3 ∧ s.wdogDue d = false then
    let s1 := (phasesOfDie d).foldl (fun t p => t.modPh p (fun y => { y with calPending := some true })) s
    let s2 := s1.modDie d (fun y => { y with state := .armed, delayCal := true, ran := false, reports := y.reports ++ [.armed] })
    .next ((if x.ran then s2.log 0x0302 d.val ((s.clk.tick - x.safeAt) * 4 : Nat) else s2).faultScan)
  else .next s

/-- PHASE_CMD_WDOG_EXPIRE (R82). -/
def execPhaseCmdWdogExpire (d : Fin 4) (s : State) : Res := .next (if s.wdogDue d then (s.enterSafe d 0).faultScan else s)

/-- PHASE_SRC_SIGNAL_LOW (R81, R82). -/
def execPhaseSrcSignalLow (d : Fin 4) (s : State) : Res :=
  .next ((s.modDie d (fun x => { x with src := false })).enterSafe d 1).faultScan

/-- DELAY_LINE_CAL_LOST (R82). -/
def execDelayLineCalLost (d : Fin 4) (s : State) : Res :=
  .next ((s.modDie d (fun x => { x with delayCal := false })).enterSafe d 2).faultScan

/-- VS_CONVERSION: the pin voltage in µV at the start of a slot that ends `off` (125 ps) after the
loop's period start. Slots lie on a
grid of 50 ticks aligned to that start; a slot off the grid, or one that would end after the next period start,
is never started (R93). An input that no loop selects has no period to keep to. -/
def execVsConversion (v : Fin 16) (pin : Int) (off : Nat) (s : State) : Res :=
  let c := vsCode pin
  let own : Bool := (s.loopOfVs v).isSome
  let fits : Bool := match s.loopOfVs v with
    | none => true
    | some l => decide (off % 1600 = 0 ∧ 0 < off ∧ off ≤ s.loop[l].tm.p)
  .next (if s.dieOn (vsDie v) = false ∨ fits = false then s
  else s.modVs v (fun x => { x with
    last := c
    convs := if own then x.convs ++ [(off, c)] else x.convs
    extreme := if x.ovs then max x.extreme pin else if x.uvs then min x.extreme pin else x.extreme }))

/-- A window opens at an input, with its pin voltage (R75 to R78). -/
def State.windowOpen (s : State) (v : Fin 16) (above : Bool) (pin : Int) : State :=
  s.modVs v (fun x => { x with
    ovs := x.ovs || above, uvs := x.uvs || !above, since := s.clk.tick, extreme := pin })

/-- A window closes at an input: its record has the duration in ns, whose field of 32 bits wraps
(DESIGN CHOICE, log entry 121), and the
extreme pin voltage (R78, R90). -/
def State.windowClose (s : State) (v : Fin 16) (above : Bool) : State :=
  (s.modVs v (fun x => { x with ovs := x.ovs && !above, uvs := x.uvs && above })).log (if above then 0x0307 else 0x0308) v.val
    (lohi ((s.clk.tick - s.vs[v].since) * 4 : Nat) s.vs[v].extreme)

/-- A phase of an input that enters overshoot: its forward pulse ends, and a forced one that waited
does not start (R76). -/
def State.overshootPhase (s : State) (p : Fin 48) : State :=
  (if s.ph[p].pl.pulse = some .fwd then s.endPulse p (s.pulseAge p) false else s).modPl p (fun x => { x with
    heldForced := false, dead := if x.dead = .controlled then .none else x.dead })

/-- VS_OVERSHOOT_ENTER (R16, R75, R76): every forward pulse of the loop ends. -/
def execVsOvershootEnter (v : Fin 16) (pin : Int) (s : State) : Res :=
  match s.loopOfVs v with
  | none => .next s
  | some l =>
    .next (if s.dieOn (vsDie v) ∧ s.ovsEn v ∧ s.overOvs v pin ∧ s.vs[v].ovs = false then
      (s.phasesOf l).foldl State.overshootPhase (s.windowOpen v true pin)
    else s)

/-- VS_OVERSHOOT_RELEASE (R75, R76, R78): each phase resumes at its next slot start. -/
def execVsOvershootRelease (v : Fin 16) (pin : Int) (s : State) : Res :=
  .next (if s.dieOn (vsDie v) ∧ s.vs[v].ovs ∧ s.ovsOver v pin then s.windowClose v true else s)

/-- VS_UNDERSHOOT_ENTER (R16, R70, R75, R77). -/
def execVsUndershootEnter (v : Fin 16) (pin : Int) (s : State) : Res :=
  match s.loopOfVs v with
  | none => .next s
  | some l =>
    .next (if s.dieOn (vsDie v) ∧ s.uvsEn v ∧ s.underUvs v pin ∧ s.vs[v].uvs = false then
      (s.phasesOf l).foldl State.forcePulse (s.windowOpen v false pin)
    else s)

/-- VS_UNDERSHOOT_RELEASE: the forced pulses may now end at the regulation comparator (R75, R77, R78). -/
def execVsUndershootRelease (v : Fin 16) (pin : Int) (s : State) : Res :=
  .next (if s.dieOn (vsDie v) ∧ s.vs[v].uvs ∧ s.uvsOver v pin then s.windowClose v false else s)

/-- One armed loop's part of the feed-loss latch at a die (R106, R195, R201): the preload is the
command, shared by every phase in
service until the next period start; a reverse pulse gets a zero reference; a stopped loop's phases
start at their next slot. A loop
that the line already switched, or that a frame has put into set 4, keeps its command (R108). -/
def State.latchPreload (s : State) (d : Fin 4) (l : Fin 16) : State :=
  let q := s.die[d].lp[l]
  if q.arm ∧ ¬ q.accept ∧ ¬ q.hu ∧ s.die[d].state ≠ .safe then
    let n := ((s.phasesOf l).filter (fun p => s.ph[p].inService)).length
    let s1 := (s.modLp d l (fun x => { x with icmd := x.preload, accept := true, run := true, stopping := false, shareAll := true })).modDie d
      (fun x => { x with state := .run })
    (s1.phasesOn d l).foldl (fun t p =>
      let t := if q.run then t else t.limSet p l
      let t1 := if t.ph[p].pl.pulse = some .rev then t.modPl p (fun x => { x with zeroRef := true }) else t
      t1.formIph p q.preload n) s1
  else s

/-- PHASE_FEED_LOSS_LATCH: an assertion of the feed-loss line by the Bank die reaches a phase die
(R24, R106, R171, R195). -/
def execPhaseFeedLossLatch (d : Fin 4) (s : State) : Res :=
  .next (if s.bank.latch[d] then
    (fins 16).foldl (fun t l => t.latchPreload d l) { s with bank := { s.bank with latch := s.bank.latch.set d.val false d.isLt } }
  else s)

end Sys2Proof.Machine
end

