-- ==== Sys2Proof/Machine/Protect.lean ====
section
/-! DEFINITION. Over-current supervision, Ebb's events and the 1 s window, phase-die reports (R90,
R120 to R139, R537). -/

namespace Sys2Proof.Machine

/-- LIMIT_REPORT: the first complete report on its way reaches the supervisor as a stamped input. A
count that it completes trips the
loop, with cause 3 where the end of that same period found the start-short timer expired (R121 to R123, R125, R126). -/
def execLimitReport (l : Fin 16) (s : State) : Res :=
  match s.loop[l].oc.reps.find? (fun r => !r.waits) with
  | none => .next s
  | some r =>
    let s1 := (s.stamp.modOc l (fun o => { o with reps := o.reps.erase r })).absorb l r
    .next (if s1.countFull l ∧ s1.live l then
      if s1.loop[l].oc.shortAt = some r.period then (s1.shortExpire l).ocTrip l 3 else s1.ocTrip l 1
    else s1)

/-- LOOP_OC_OFF_TIME has passed since the trip (R123). -/
def State.offDue (s : State) (l : Fin 16) : Bool := decide (s.loop[l].oc.offAt + 250 * s.parN P.LOOP_OC_OFF_TIME l ≤ s.clk.tick)

/-- HICCUP_OFF_END (R109, R122). The count of retries stays at 255, the end of its type (DESIGN
CHOICE, log entry 125). -/
def execHiccupOffEnd (l : Fin 16) (s : State) : Res :=
  if s.loop[l].ct.state = .hiccupOff ∧ s.offDue l then
    let o := s.loop[l].oc
    if o.retries < s.parN P.LOOP_OC_RETRIES l ∨ s.par P.LOOP_OC_RETRIES l = 255 then
      let n := min 255 (o.retries + 1)
      if s.canStart l then
        .next ((s.log 0x0502 l.val n).startLoop l n)
      else .next (s.stopLoop l 4 .none)
    else
      let s1 := s.log 0x0503 l.val (o.retries + o.cause * 256 : Nat)
      .next ((s1.faultLoopAt l 3 .none).modOc l (fun x => { x with st := .latched }))
  else .next s

/-- START_SHORT_EXPIRE (R125, R126): a sample has found the timer expired; reports of the period
that ended with it which complete the
count make it one trip of cause 3. -/
def execStartShortExpire (l : Fin 16) (s : State) : Res :=
  match s.loop[l].oc.shortAt with
  | none => .next s
  | some n =>
    let s1 := s.shortExpire l
    if s.loop[l].oc.mode = 1 then .next s1
    else
      let ready := s.loop[l].oc.reps.filter (fun r => !r.waits && r.period == n)
      let s2 := ready.foldl (fun t r => (t.stamp.modOc l (fun o => { o with reps := o.reps.erase r })).absorb l r) s1
      .next (s2.ocTrip l (if s2.countFull l then 3 else 2))

/-- A loop has been RUNNING for LOOP_OC_CLEAN_TIME with no limited period (R122). -/
def State.cleanDue (s : State) (l : Fin 16) : Bool :=
  decide (s.loop[l].oc.cleanAt + 250000 * s.parNowN P.LOOP_OC_CLEAN_TIME l ≤ s.clk.tick)

/-- OC_CLEAN_TIME_END (R122). -/
def execOcCleanTimeEnd (l : Fin 16) (s : State) : Res :=
  .next (if s.loop[l].oc.st = .watch ∧ s.loop[l].ct.state = .running ∧ s.cleanDue l then s.modOc l (fun o => { o with retries := 0 }) else s)

/-- The shed sequence of a phase may end: no pulse, and in ASYNC mode at once, else with its current
at or below PHASE_ZC_LEVEL or after 4
loop periods (R134). -/
def State.shedDone (s : State) (p : Fin 48) : Bool :=
  let x := s.ph[p]
  let directed : Int := if x.pl.lastDir = .rev then -x.adc else x.adc
  x.shed == .shedding && x.pl.pulse.isNone &&
    (s.parNow P.PHASE_OUT_MODE p == 1 || decide (directed ≤ s.parNow P.PHASE_ZC_LEVEL p) || decide (4 ≤ x.shedPeriods))

/-- SHED_COMPLETE: a shedding phase goes SHED, with N_act as it will be after the shed (R134, R149). -/
def execShedComplete (p : Fin 48) (s : State) : Res :=
  match s.loopOf p with
  | none => .next s
  | some l =>
    let s1 := ((s.outputsLow p).modPh p (fun x => { x with shed := .shed })).modEb l (fun e => { e with shedCnt := bump e.shedCnt })
    .next (if s.shedDone p then s1.log 0x0510 p.val ((s1.activeOf l).length : Nat) else s)

/-- The trigger of a shed abort stands at a die: 0 undershoot, 1 command slope, 2 feed loss (R135). -/
def State.abortCause (s : State) (d : Fin 4) (l : Fin 16) (cause : Nat) : Bool :=
  if cause = 0 then
    let v := s.parNowN P.LOOP_VS_SEL l
    if h : v < 16 then s.vs[v].uvs else false
  else if cause = 1 then s.die[d].lp[l].slopeSeen
  else if cause = 2 then s.die[d].lp[l].accept
  else false

/-- SHED_ABORT at one die (R134, R135): sheds in progress are cancelled, the mask is cleared, shed
bits are ignored until ABORT_SEEN,
and the abort is reported with the phases it adds back, those SHED. -/
def execShedAbort (d : Fin 4) (l : Fin 16) (cause : Nat) (s : State) : Res :=
  if s.abortCause d l cause then
    let ps := (s.phasesOn d l).filter (fun p => s.ph[p].shed != .active)
    let mask := ((ps.filter (fun p => s.ph[p].shed == .shed)).map (fun p => 2 ^ p.val)).sum
    let s1 := ps.foldl (fun t p => t.modPh p (fun x => if x.shed = .shedding then { x with shed := .active, hot := false } else x)) s
    let s2 := s1.modLp d l (fun x => { x with maskNext := 0, ignoreShed := true, slopeSeen := false })
    .next (s2.modDie d (fun x => { x with reports := x.reports ++ [.shedAbort l cause mask] }))
  else .next s

/-- EBB_HOLDOFF has passed since the last abort report (R135). -/
def State.holdoffDue (s : State) (l : Fin 16) : Bool :=
  decide (s.loop[l].eb.holdAt + 250 * s.parNowN P.EBB_HOLDOFF l ≤ s.clk.tick)

/-- EBB_HOLDOFF_END (R135). -/
def execEbbHoldoffEnd (l : Fin 16) (s : State) : Res :=
  .next (if s.holdoffDue l then s.modEb l (fun e => { e with holdOff := false }) else s)

/-- Eddy hears of a shed abort: the hold-off starts afresh (R135). -/
def State.abortHeard (s : State) (l : Fin 16) (cause mask : Nat) : State :=
  (s.modEb l (fun e => { e with abortSeen := true, abortDue := true, holdOff := true, holdAt := s.clk.tick, mask := 0 })).log 0x0512 l.val (cause + mask * 256 : Nat)

/-- A die's entry into SAFE reaches the stems: its live loops stop (R109, R537). -/
def State.safeHeard (s : State) (d : Fin 4) : State :=
  (fins 16).foldl (fun t l => if (t.diesOf l).contains d ∧ t.live l then t.stopLoop l 1 .boundary else t) (s.spateReq 5 d.val)

/-- PHASE_DIE_REPORT: the first report of a die reaches both stems (R109, R135, R234, R537). -/
def execPhaseDieReport (d : Fin 4) (s : State) : Res :=
  match s.die[d].reports with
  | [] => .next s
  | r :: rs =>
    if s.hasActive = false then .next s
    else
    let s1 := (s.modDie d (fun x => { x with reports := rs })).stamp
    .next (match r with
      | .safeEntry _ => (s1.safeHeard d).faultScan
      | .armed => s1.faultScan
      | .shedAbort l cause mask => s1.abortHeard l cause mask
      | .currentSum l sum => s1.currentHeard l sum)

/-- The results of a phase's 1 s window; the next one begins whole where the phase is ACTIVE (R138). -/
def State.closeWindow (s : State) (p : Fin 48) : State :=
  let x := s.pst[p]
  let s1 := s.modPst p (fun y => { y with
    iMean := if x.winN = 0 then 0 else nearHalfAway x.winSum x.winN
    iRms := if x.winN = 0 then 0 else isqrt (x.winSq / x.winN)
    winSum := 0, winSq := 0, winN := 0, winWhole := s.ph[p].slot.isSome && s.ph[p].shed == .active })
  let m := s.ph[p].maxdutyWin
  if 0 < m then (s1.modPh p (fun y => { y with maxdutyWin := 0 })).log 0x0309 p.val m else s1

/-- The excess of a phase's mean over its share, in 0.1 % rounded down, where it is beyond EBB_IMB_LIMIT (R138). -/
def State.excess (s : State) (l : Fin 16) (p : Fin 48) (total : Int) (n : Nat) : Option Nat :=
  let sg : Int := if total < 0 then -1 else 1
  let share := sg * total * (32768 + s.parNow P.PHASE_SHARE_TRIM p)
  let mine := sg * s.pst[p].iMean * n * 32768
  if n ≠ 0 ∧ 1000 * (n : Int) ≤ sg * total ∧ share * (100 + s.parNow P.EBB_IMB_LIMIT l) < mine * 100 then
    some (floorDiv ((mine - share) * 1000) share).toNat
  else none

/-- The imbalance test and its response for one loop (R138, R139): `whole` says which phases were
ACTIVE for the whole window; the excess
that a record holds ends at 65,535 (DESIGN CHOICE, log entry 125). The loop's mean per-phase current is that of
the phases examined (DESIGN CHOICE, log entry 137). -/
def State.imbalanceStep (s : State) (entropy : Nat) (whole : Fin 48 → Bool) (l : Fin 16) : State :=
  let ps := (s.phasesOf l).filter (fun p => whole p && s.ph[p].slot.isSome)
  let total := sumI ps (fun p => s.pst[p].iMean)
  let bad := ps.filterMap (fun p => (s.excess l p total ps.length).map (fun x => (p, x)))
  let act := s.parNowN P.EBB_IMB_ACTION l
  let taken := if act = 1 ∧ s.loop[l].eb.reseeded then 0 else act
  match bad with
  | [] => s.modEb l (fun e => { e with reseeded := false })
  | _ =>
    let s1 := bad.foldl (fun t q => t.log 0x0513 q.1.val (min 65535 q.2 + taken * 65536 : Nat)) (s.modEb l (fun e => { e with imbalance := true }))
    if taken = 1 then
      let seed := entropy / 65536 ^ l.val % 65536
      s1.modLoop l (fun x => { x with
        tm := { x.tm with rotLfsr := if seed = 0 then 1 else seed, rotForce := true }, eb := { x.eb with reseeded := true } })
    else s1

/-- HOT_SHED for one loop at the end of a window (R139). -/
def State.hotStep (s : State) (l : Fin 16) : State :=
  let lim := s.parNowN P.EBB_HOT_LIMIT l
  if s.parNow P.EBB_IMB_ACTION l ≠ 2 ∨ lim = 0 then s
  else
    let cool := (s.phasesOf l).filter (fun p => s.ph[p].hot && decide (s.pst[p].iRms * 100 < lim * 75))
    let s1 := s.modEb l (fun e => { e with mask := cool.foldl (fun m p => clearBit m p.val) e.mask })
    if s.ebbOff l ∨ s.loop[l].eb.holdOff ∨ s.shedBusy l then s1
    else (s.ebbActive l).foldl (fun t p =>
      if lim < t.pst[p].iRms ∧ ¬ maskHas t.loop[l].eb.mask p
          ∧ t.parNowN P.EBB_MIN_PHASES l + 1 < ((t.ebbActive l).filter (fun q => !maskHas t.loop[l].eb.mask q)).length then
        ((t.modEb l (fun e => { e with mask := setBit e.mask p.val })).modPh p (fun x => { x with hot := true })).log 0x0514 p.val
          t.pst[p].iRms
      else t) s1

/-- EBB_WINDOW_END: `entropy` is what the Delta die's entropy source delivers, one stamped input (R90, R138, R139). -/
def execEbbWindowEnd (entropy : Nat) (s : State) : Res :=
  let s1 := (fins 48).foldl State.closeWindow s.stamp
  let s2 := (fins 16).foldl (fun t l => t.imbalanceStep entropy (fun p => s.pst[p].winWhole) l) s1
  .next (if s.hasActive then ((fins 16).foldl State.hotStep s2).faultScan else s)

end Sys2Proof.Machine
end

