-- ==== Sys2Proof/Machine/Therm.lean ====
section
/-! DEFINITION. The temperature network's commands: the scans of the hub and of the Bank die, the
automatic START, the controls
(R464 to R477, R485). -/

namespace Sys2Proof.Machine

/-- The supplies measured in a scan: SUPPLY_V, and the difference of the two core supplies (R489).
VAUXH is measured by the Bank die
alone and VSD is not monitored. -/
def State.supplyScan (s : State) (v : Vector Int 10) : State :=
  let p := s.power
  let apart : Bool := decide (20 < (v[0] - v[1]).natAbs)
  let run := if apart then min 3 (p.mismatchRun + 1) else 0
  let mis : Bool := decide (3 ≤ run)
  let s1 := { s with power := { p with
    sup := tab 10 (fun i => if i.val = 4 ∨ i.val = 9 then p.sup[i] else { p.sup[i] with v := v[i] }), mismatch := mis, mismatchRun := run } }
  if mis then s1.log 0x120C 0 (lohi v[0] v[1]) else s1

/-- THERM_SCAN: the readings of the 44 on-die sensors that the hub converts, in 0.1 °C, and of the
XT inputs as R466 measures them, in
ohms or µV (R465 to R473, R476, R477). -/
def execThermScan (raw : Vector Int 44) (xt : Vector Nat 16) (sup : Vector Int 10) (s : State) : Res :=
  if s.dev.snsOn = false ∨ s.dev.held then .next s else
  let s1 := (s.supplyScan sup).scanRead raw xt
  let r := tab 64 s1.sensorEval
  let s2 := s1.modTherm (fun t => { t with sen := r.map (fun q => q.1) })
  let s3 := (fins 64).foldl (fun (t : State) (n : Fin 64) => t.sensorLog s1 n r[n].2) s2
  let s4 := (fins 8).foldl State.dieScan s3
  let s5 := (fins 16).foldl State.groupScan s4
  .next (s5.compensateTemp.thermPublish s)

/-- BANK_THERMAL_SCAN: the Bank die's own four sensors, its own test of its shutdown condition, the
readings sent to the hub (R465,
R471, R473). -/
def execBankThermalScan (raw : Vector Int 4) (s : State) : Res :=
  if s.bank.on = false then .next s
  else
    let sen (i : Fin 4) : Fin 64 := ⟨44 + i.val, by omega⟩
    let s1 := (fins 4).foldl (fun (t : State) (i : Fin 4) => t.modTherm (fun x => { x with sen := upd x.sen (sen i) (fun y => { y with raw := raw[i] }) })) s
    let c (i : Fin 4) : Int := raw[i] - s.therm.sen[sen i].ofs
    let ok := (fins 4).filter (fun (i : Fin 4) => !(s.bank.hbOk && s.therm.sen[sen i].suspect))
    let top := ok.foldl (fun (a : Option (Int × Nat)) (i : Fin 4) => match a with
      | none => some (c i, 44 + i.val)
      | some q => if q.1 < c i then some (c i, 44 + i.val) else a) none
    let two : Bool := decide (2 ≤ ((fins 4).filter (fun (i : Fin 4) => decide (1350 ≤ c i))).length)
    .next (match top with
    | none => if two then s1.dieMachine 7 1350 true 44 else s1
    | some q => s1.dieMachine 7 q.1 (decide (1350 ≤ q.1) || two) q.2)

/-- THERM_AUTO_START: Onolael sends the START of a loop stopped with cause THERMAL once every die of
it is ARMED (R475). -/
def execThermAutoStart (l : Fin 16) (s : State) : Res :=
  .next (if s.hasActive ∧ s.therm.auto[l] ∧ s.par P.THERM_AUTO_START l = 1 ∧ s.canStart l then (s.stamp.loopStart l).1 else s)

/-- THERM_CTRL CLEAR_LATCH by a session that holds MAINT (R473). -/
def execThermCtrlClearLatch (d : Fin 8) (k : Fin 8) (s : State) : Res := .next (s.control k [5] (fun t => t.thermClearLatch d k))

/-- THERM_SENSOR_CTRL RELEARN by a session that holds CONFIG: SUSPECT cleared, ofs := THERM_OFS_INIT (R485). -/
def execThermSensorRelearn (n : Fin 64) (k : Fin 8) (s : State) : Res :=
  .next (s.control k [0] (fun t => (t.sensorRelearn n, stOk)))

end Sys2Proof.Machine
end

