-- ==== Sys2Proof/Machine/Timers.lean ====
section
/-! DEFINITION. Timers: advances, applied writes, controls, captures (R478 to R482). -/

namespace Sys2Proof.Machine

/-- TIMER_ADVANCE: a running timer whose prescale phase is due advances by one (R478). -/
def execTimerAdvance (t : Fin 32) (s : State) : Res := .next (if s.dev.held then s else s.timerTick t)

/-- TIMER_WRITE_APPLY: the committed writes of a timer whose apply boundary has come act, after an
advance that is due (R478 to R480). -/
def execTimerWriteApply (t : Fin 32) (s : State) : Res :=
  .next (if s.dev.held then s else (s.timerTick t).modTimer t (fun x => x.applyDue s.clk.tick))

/-- TIMER_CTRL START (R479). -/
def execTimerCtrlStart (t : Fin 32) (k : Fin 8) (s : State) : Res := .next (s.control k [0] (fun u => (u.timerWrite t .start, stOk)))

/-- TIMER_CTRL STOP (R479). -/
def execTimerCtrlStop (t : Fin 32) (k : Fin 8) (s : State) : Res := .next (s.control k [0] (fun u => (u.timerWrite t .stop, stOk)))

/-- TIMER_CTRL CLEAR (R479). -/
def execTimerCtrlClear (t : Fin 32) (k : Fin 8) (s : State) : Res := .next (s.control k [0] (fun u => (u.timerWrite t .clear, stOk)))

/-- TIMER_CAPTURE: an edge at CAP0 to CAP15 (sources 1 to 16) whose level was first seen `held`
ticks ago and has held since, or the events of an internal source
recognised before, become entries of the queues (R481, R482); none while the stems and the Delta die are held (R19). -/
def execTimerCapture (src : Fin 51) (falling : Bool) (held : Nat) (s : State) : Res :=
  let s1 :=
    if 1 ≤ src.val ∧ src.val ≤ 16 then
      s.recognise src.val held (fun x => (x.edge == 2 || x.edge == b2n falling) && decide (x.filt ≤ held))
    else s
  .next (if s.dev.held then s else (fins 32).foldl (fun (u : State) (t : Fin 32) =>
    ((u.timer[t].recog.filter (fun c => c.src == src.val))).foldl (fun (v : State) c => v.deliver t c) u) s1)

end Sys2Proof.Machine
end

