-- ==== Sys2Proof/Machine/Dispatch.lean ====
section
/-! DEFINITION. One arm per command. -/

namespace Sys2Proof.Machine

open Sys2Proof

def exec (i : Instr) (s : State) : Host.Outcome State Fault Refusal :=
  match i with
  | .sluicePeriodBoundary => Sys2Proof.Machine.execSluicePeriodBoundary s
  | .tbLocked ref err => Sys2Proof.Machine.execTbLocked ref err s
  | .tbRefclkLoss => Sys2Proof.Machine.execTbRefclkLoss s
  | .tbSyncLoss => Sys2Proof.Machine.execTbSyncLoss s
  | .tbAnnounceTimeout => Sys2Proof.Machine.execTbAnnounceTimeout s
  | .tbReferenceReturn => Sys2Proof.Machine.execTbReferenceReturn s
  | .tbHoldoverExpiry => Sys2Proof.Machine.execTbHoldoverExpiry s
  | .ptpEventMessage port domain m => Sys2Proof.Machine.execPtpEventMessage port domain m s
  | .poolAdmitFrame => Sys2Proof.Machine.execPoolAdmitFrame s
  | .loopPeriodStart l => Sys2Proof.Machine.execLoopPeriodStart l s
  | .ssFrequencyDraw l => Sys2Proof.Machine.execSsFrequencyDraw l s
  | .pulseStart p => Sys2Proof.Machine.execPulseStart p s
  | .phaseBlankEnd p which sensed => Sys2Proof.Machine.execPhaseBlankEnd p which sensed s
  | .regulationTrip p t => Sys2Proof.Machine.execRegulationTrip p t s
  | .limitComparatorTrip p t => Sys2Proof.Machine.execLimitComparatorTrip p t s
  | .maxdutyReached p => Sys2Proof.Machine.execMaxdutyReached p s
  | .deadTimeEnd p => Sys2Proof.Machine.execDeadTimeEnd p s
  | .toffMinEnd p => Sys2Proof.Machine.execToffMinEnd p s
  | .phaseAdcSample p code t => Sys2Proof.Machine.execPhaseAdcSample p code t s
  | .phaseCmdFrame d parityOk => Sys2Proof.Machine.execPhaseCmdFrame d parityOk s
  | .phaseRefreshFrame d parityOk => Sys2Proof.Machine.execPhaseRefreshFrame d parityOk s
  | .phaseCalDone p sum => Sys2Proof.Machine.execPhaseCalDone p sum s
  | .phaseDieArmed d => Sys2Proof.Machine.execPhaseDieArmed d s
  | .phaseCmdWdogExpire d => Sys2Proof.Machine.execPhaseCmdWdogExpire d s
  | .phaseSrcSignalLow d => Sys2Proof.Machine.execPhaseSrcSignalLow d s
  | .delayLineCalLost d => Sys2Proof.Machine.execDelayLineCalLost d s
  | .phaseDieReport d => Sys2Proof.Machine.execPhaseDieReport d s
  | .phaseTlmPublish fast => Sys2Proof.Machine.execPhaseTlmPublish fast s
  | .vsConversion v pin off => Sys2Proof.Machine.execVsConversion v pin off s
  | .vsOvershootEnter v pin => Sys2Proof.Machine.execVsOvershootEnter v pin s
  | .vsOvershootRelease v pin => Sys2Proof.Machine.execVsOvershootRelease v pin s
  | .vsUndershootEnter v pin => Sys2Proof.Machine.execVsUndershootEnter v pin s
  | .vsUndershootRelease v pin => Sys2Proof.Machine.execVsUndershootRelease v pin s
  | .forcedPulseMax p => Sys2Proof.Machine.execForcedPulseMax p s
  | .phaseFeedLossLatch d => Sys2Proof.Machine.execPhaseFeedLossLatch d s
  | .loopEvaluation => Sys2Proof.Machine.execLoopEvaluation s
  | .loopCtrlStart l sess => Sys2Proof.Machine.execLoopCtrlStart l sess s
  | .loopCtrlStop l sess => Sys2Proof.Machine.execLoopCtrlStop l sess s
  | .loopCtrlClear l sess => Sys2Proof.Machine.execLoopCtrlClear l sess s
  | .followErrExpire l => Sys2Proof.Machine.execFollowErrExpire l s
  | .limitReport l => Sys2Proof.Machine.execLimitReport l s
  | .hiccupOffEnd l => Sys2Proof.Machine.execHiccupOffEnd l s
  | .startShortExpire l => Sys2Proof.Machine.execStartShortExpire l s
  | .ocCleanTimeEnd l => Sys2Proof.Machine.execOcCleanTimeEnd l s
  | .shedComplete p => Sys2Proof.Machine.execShedComplete p s
  | .shedAbort d l cause => Sys2Proof.Machine.execShedAbort d l cause s
  | .ebbHoldoffEnd l => Sys2Proof.Machine.execEbbHoldoffEnd l s
  | .slotRotation l => Sys2Proof.Machine.execSlotRotation l s
  | .ebbWindowEnd entropy => Sys2Proof.Machine.execEbbWindowEnd entropy s
  | .faultStatusRelease sess value => Sys2Proof.Machine.execFaultStatusRelease sess value s
  | .bankMeteringStep raw => Sys2Proof.Machine.execBankMeteringStep raw s
  | .feedFastTrip f ma => Sys2Proof.Machine.execFeedFastTrip f ma s
  | .feedReverseTrip f ma v => Sys2Proof.Machine.execFeedReverseTrip f ma v s
  | .feedOrOnDelayEnd c => Sys2Proof.Machine.execFeedOrOnDelayEnd c s
  | .feedInsertTimer f => Sys2Proof.Machine.execFeedInsertTimer f s
  | .feedPreTmaxExpire f => Sys2Proof.Machine.execFeedPreTmaxExpire f s
  | .feedSoaTimerExpire f => Sys2Proof.Machine.execFeedSoaTimerExpire f s
  | .feedPreOverlapEnd f => Sys2Proof.Machine.execFeedPreOverlapEnd f s
  | .feedCleanTimeEnd f => Sys2Proof.Machine.execFeedCleanTimeEnd f s
  | .feedRetryDelayEnd f => Sys2Proof.Machine.execFeedRetryDelayEnd f s
  | .feedLossCompLow c => Sys2Proof.Machine.execFeedLossCompLow c s
  | .feedLossCompHigh c => Sys2Proof.Machine.execFeedLossCompHigh c s
  | .feedFetShort f path ma mv => Sys2Proof.Machine.execFeedFetShort f path ma mv s
  | .feedGateFail f gate mv => Sys2Proof.Machine.execFeedGateFail f gate mv s
  | .feedTestEnd f => Sys2Proof.Machine.execFeedTestEnd f s
  | .feedCtrlEnable f sess => Sys2Proof.Machine.execFeedCtrlEnable f sess s
  | .feedCtrlDisable f sess => Sys2Proof.Machine.execFeedCtrlDisable f sess s
  | .feedCtrlClear f sess => Sys2Proof.Machine.execFeedCtrlClear f sess s
  | .feedCtrlTest f sess => Sys2Proof.Machine.execFeedCtrlTest f sess s
  | .feedCtrlResetEnergy f sess => Sys2Proof.Machine.execFeedCtrlResetEnergy f sess s
  | .bankHeartbeat => Sys2Proof.Machine.execBankHeartbeat s
  | .bankHbTimeout => Sys2Proof.Machine.execBankHbTimeout s
  | .bankHbReturn => Sys2Proof.Machine.execBankHbReturn s
  | .bankParamFrame crcOk => Sys2Proof.Machine.execBankParamFrame crcOk s
  | .bankParamCommit => Sys2Proof.Machine.execBankParamCommit s
  | .bankCommandFrame => Sys2Proof.Machine.execBankCommandFrame s
  | .bankTelemetry => Sys2Proof.Machine.execBankTelemetry s
  | .energyCopy => Sys2Proof.Machine.execEnergyCopy s
  | .bankPowerOn => Sys2Proof.Machine.execBankPowerOn s
  | .bankPowerOff => Sys2Proof.Machine.execBankPowerOff s
  | .shareUpdate => Sys2Proof.Machine.execShareUpdate s
  | .shareTieUpdate => Sys2Proof.Machine.execShareTieUpdate s
  | .peerShareSend => Sys2Proof.Machine.execPeerShareSend s
  | .holdPreloadCompute => Sys2Proof.Machine.execHoldPreloadCompute s
  | .feedLossInput => Sys2Proof.Machine.execFeedLossInput s
  | .feedLossReleaseInput => Sys2Proof.Machine.execFeedLossReleaseInput s
  | .holdReturnTimer => Sys2Proof.Machine.execHoldReturnTimer s
  | .holdQuorumMet => Sys2Proof.Machine.execHoldQuorumMet s
  | .holdCtrlHandback sess => Sys2Proof.Machine.execHoldCtrlHandback sess s
  | .weirEvaluation skipped took => Sys2Proof.Machine.execWeirEvaluation skipped took s
  | .throttleResend => Sys2Proof.Machine.execThrottleResend s
  | .battCountSample b => Sys2Proof.Machine.execBattCountSample b s
  | .battRestAnchor b => Sys2Proof.Machine.execBattRestAnchor b s
  | .battFullAnchor b => Sys2Proof.Machine.execBattFullAnchor b s
  | .battVoltageEmpty b => Sys2Proof.Machine.execBattVoltageEmpty b s
  | .battCutoff b => Sys2Proof.Machine.execBattCutoff b s
  | .battAbsent b => Sys2Proof.Machine.execBattAbsent b s
  | .battCtrlClearCutoff b sess => Sys2Proof.Machine.execBattCtrlClearCutoff b sess s
  | .battCtrlCancelLearn b sess => Sys2Proof.Machine.execBattCtrlCancelLearn b sess s
  | .battCtrlReestimate b sess => Sys2Proof.Machine.execBattCtrlReestimate b sess s
  | .portTrainComplete p cls => Sys2Proof.Machine.execPortTrainComplete p cls s
  | .portTrainDwellExpire p => Sys2Proof.Machine.execPortTrainDwellExpire p s
  | .portLossOfLock p => Sys2Proof.Machine.execPortLossOfLock p s
  | .portErrorRate p errs => Sys2Proof.Machine.execPortErrorRate p errs s
  | .portUpshiftAttempt p => Sys2Proof.Machine.execPortUpshiftAttempt p s
  | .portRetrainDelayEnd p => Sys2Proof.Machine.execPortRetrainDelayEnd p s
  | .rillFrameReceive p data ending noise sofAge => Sys2Proof.Machine.execRillFrameReceive p data ending noise sofAge s
  | .rillRxTimeout p => Sys2Proof.Machine.execRillRxTimeout p s
  | .rillCreditReceive p cnt notCnt => Sys2Proof.Machine.execRillCreditReceive p cnt notCnt s
  | .rillFrameTransmit p => Sys2Proof.Machine.execRillFrameTransmit p s
  | .portTxStall p => Sys2Proof.Machine.execPortTxStall p s
  | .stampFieldFrame p => Sys2Proof.Machine.execStampFieldFrame p s
  | .hubFrameReceive => Sys2Proof.Machine.execHubFrameReceive s
  | .hubFrameTimeout p => Sys2Proof.Machine.execHubFrameTimeout p s
  | .pmbDiscovery p t => Sys2Proof.Machine.execPmbDiscovery p t s
  | .pmbPollCycle p => Sys2Proof.Machine.execPmbPollCycle p s
  | .pmbTransactionDone p ending data => Sys2Proof.Machine.execPmbTransactionDone p ending data s
  | .pmbBusTimeout p cause recovered => Sys2Proof.Machine.execPmbBusTimeout p cause recovered s
  | .pmbBusRecoveryRetry p recovered => Sys2Proof.Machine.execPmbBusRecoveryRetry p recovered s
  | .pmbAlert p addr status still => Sys2Proof.Machine.execPmbAlert p addr status still s
  | .pmbAlertUnmask p => Sys2Proof.Machine.execPmbAlertUnmask p s
  | .nodeMsgReceive => Sys2Proof.Machine.execNodeMsgReceive s
  | .nodeOpenRequest => Sys2Proof.Machine.execNodeOpenRequest s
  | .nodeReply => Sys2Proof.Machine.execNodeReply s
  | .nodeLeaseLapse a => Sys2Proof.Machine.execNodeLeaseLapse a s
  | .nodeKeepaliveSend a => Sys2Proof.Machine.execNodeKeepaliveSend a s
  | .nodeRetxTimeout a => Sys2Proof.Machine.execNodeRetxTimeout a s
  | .nodeCtrlClose a sess => Sys2Proof.Machine.execNodeCtrlClose a sess s
  | .holdupStateResend => Sys2Proof.Machine.execHoldupStateResend s
  | .poolActionLoopStop => Sys2Proof.Machine.execPoolActionLoopStop s
  | .poolActionNodeOff => Sys2Proof.Machine.execPoolActionNodeOff s
  | .subNoticePost => Sys2Proof.Machine.execSubNoticePost s
  | .poolScrub e => Sys2Proof.Machine.execPoolScrub e s
  | .siltEvent => Sys2Proof.Machine.execSiltEvent s
  | .siltRecordCommit => Sys2Proof.Machine.execSiltRecordCommit s
  | .siltTallyWrite => Sys2Proof.Machine.execSiltTallyWrite s
  | .ledgerWrite => Sys2Proof.Machine.execLedgerWrite s
  | .siltCursorWrite p v => Sys2Proof.Machine.execSiltCursorWrite p v s
  | .siltWinLatch p => Sys2Proof.Machine.execSiltWinLatch p s
  | .siltWinAutoAdvance p => Sys2Proof.Machine.execSiltWinAutoAdvance p s
  | .siltCtrlClear sess => Sys2Proof.Machine.execSiltCtrlClear sess s
  | .spateFrame => Sys2Proof.Machine.execSpateFrame s
  | .spateTrigger => Sys2Proof.Machine.execSpateTrigger s
  | .spateFreeze => Sys2Proof.Machine.execSpateFreeze s
  | .spateBlockCopy => Sys2Proof.Machine.execSpateBlockCopy s
  | .spateCtrlTrigger sess => Sys2Proof.Machine.execSpateCtrlTrigger sess s
  | .spateCtrlLock n sess => Sys2Proof.Machine.execSpateCtrlLock n sess s
  | .spateCtrlUnlock n sess => Sys2Proof.Machine.execSpateCtrlUnlock n sess s
  | .hostEthFrame e f => Sys2Proof.Machine.execHostEthFrame e f s
  | .hostEthRegAccess e ep data => Sys2Proof.Machine.execHostEthRegAccess e ep data s
  | .hostEthLink e up => Sys2Proof.Machine.execHostEthLink e up s
  | .hostRegWrite n hd data => Sys2Proof.Machine.execHostRegWrite n hd data s
  | .hrTimeLoRead p => Sys2Proof.Machine.execHrTimeLoRead p s
  | .mbTxWrite n m w => Sys2Proof.Machine.execMbTxWrite n m w s
  | .mbRxRead n m => Sys2Proof.Machine.execMbRxRead n m s
  | .hostSpiAbandon n cut tx => Sys2Proof.Machine.execHostSpiAbandon n cut tx s
  | .mbClaim n m => Sys2Proof.Machine.execMbClaim n m s
  | .mbRelease n m => Sys2Proof.Machine.execMbRelease n m s
  | .mbDoorbell n m => Sys2Proof.Machine.execMbDoorbell n m s
  | .mbTxDiscard n m => Sys2Proof.Machine.execMbTxDiscard n m s
  | .mbRxSkip n m => Sys2Proof.Machine.execMbRxSkip n m s
  | .hostRequestTake entropy => Sys2Proof.Machine.execHostRequestTake entropy s
  | .sessionClaimTimeout k => Sys2Proof.Machine.execSessionClaimTimeout k s
  | .sessionProveTimeout k => Sys2Proof.Machine.execSessionProveTimeout k s
  | .sessionLeaseLapse k => Sys2Proof.Machine.execSessionLeaseLapse k s
  | .permitLapse n => Sys2Proof.Machine.execPermitLapse n s
  | .keyLockoutEnd k => Sys2Proof.Machine.execKeyLockoutEnd k s
  | .commitPipelineHead => Sys2Proof.Machine.execCommitPipelineHead s
  | .kenebImageWritten => Sys2Proof.Machine.execKenebImageWritten s
  | .commitApply => Sys2Proof.Machine.execCommitApply s
  | .sessionOpen port ep q body entropy => Sys2Proof.Machine.execSessionOpen port ep q body entropy s
  | .sessionProve q body => Sys2Proof.Machine.execSessionProve q body s
  | .sessionClose q body => Sys2Proof.Machine.execSessionClose q body s
  | .hostKeepalive q body => Sys2Proof.Machine.execHostKeepalive q body s
  | .noticeSet q body => Sys2Proof.Machine.execNoticeSet q body s
  | .permitAcquire q body => Sys2Proof.Machine.execPermitAcquire q body s
  | .permitRenew q body => Sys2Proof.Machine.execPermitRenew q body s
  | .permitRelease q body => Sys2Proof.Machine.execPermitRelease q body s
  | .permitTake q body => Sys2Proof.Machine.execPermitTake q body s
  | .paramRead q body => Sys2Proof.Machine.execParamRead q body s
  | .paramWrite q body => Sys2Proof.Machine.execParamWrite q body s
  | .stage q body => Sys2Proof.Machine.execStage q body s
  | .discard q body => Sys2Proof.Machine.execDiscard q body s
  | .commit q body => Sys2Proof.Machine.execCommit q body s
  | .pointRead q body => Sys2Proof.Machine.execPointRead q body s
  | .subscribe q body => Sys2Proof.Machine.execSubscribe q body s
  | .unsubscribe q body => Sys2Proof.Machine.execUnsubscribe q body s
  | .siltRead q body => Sys2Proof.Machine.execSiltRead q body s
  | .spateRead q body => Sys2Proof.Machine.execSpateRead q body s
  | .battExport q body => Sys2Proof.Machine.execBattExport q body s
  | .battRestore q body => Sys2Proof.Machine.execBattRestore q body s
  | .nodeRelay q body => Sys2Proof.Machine.execNodeRelay q body s
  | .pmbusXfer q body => Sys2Proof.Machine.execPmbusXfer q body s
  | .timeSet q body => Sys2Proof.Machine.execTimeSet q body s
  | .keyLoad q body => Sys2Proof.Machine.execKeyLoad q body s
  | .stateReq q body => Sys2Proof.Machine.execStateReq q body s
  | .fwBegin q body => Sys2Proof.Machine.execFwBegin q body s
  | .fwBlock q body => Sys2Proof.Machine.execFwBlock q body s
  | .fwEnd q body => Sys2Proof.Machine.execFwEnd q body s
  | .fwActivate q body => Sys2Proof.Machine.execFwActivate q body s
  | .kenebBegin q body => Sys2Proof.Machine.execKenebBegin q body s
  | .kenebBlock q body => Sys2Proof.Machine.execKenebBlock q body s
  | .kenebEnd q body => Sys2Proof.Machine.execKenebEnd q body s
  | .kenebRead q body => Sys2Proof.Machine.execKenebRead q body s
  | .stemHeartbeat k count => Sys2Proof.Machine.execStemHeartbeat k count s
  | .stemSilence k => Sys2Proof.Machine.execStemSilence k s
  | .stemOutputCopy k g oseq bits => Sys2Proof.Machine.execStemOutputCopy k g oseq bits s
  | .stemOutputLate => Sys2Proof.Machine.execStemOutputLate s
  | .stemFaultReport k kind l => Sys2Proof.Machine.execStemFaultReport k kind l s
  | .stemSwitchoverInput => Sys2Proof.Machine.execStemSwitchoverInput s
  | .stemWatchdogExpire k => Sys2Proof.Machine.execStemWatchdogExpire k s
  | .bridgeFlitCrcFail link resent => Sys2Proof.Machine.execBridgeFlitCrcFail link resent s
  | .stemBootComplete k => Sys2Proof.Machine.execStemBootComplete k s
  | .stemRestartComplete k => Sys2Proof.Machine.execStemRestartComplete k s
  | .stemResyncPass dirty => Sys2Proof.Machine.execStemResyncPass dirty s
  | .stemDigestRound mismatched => Sys2Proof.Machine.execStemDigestRound mismatched s
  | .stemSyncAgreement => Sys2Proof.Machine.execStemSyncAgreement s
  | .stemResyncTimeout => Sys2Proof.Machine.execStemResyncTimeout s
  | .stemCtrlSwitchover sess => Sys2Proof.Machine.execStemCtrlSwitchover sess s
  | .stemCtrlResync sess => Sys2Proof.Machine.execStemCtrlResync sess s
  | .stemCtrlRestartStandby sess => Sys2Proof.Machine.execStemCtrlRestartStandby sess s
  | .thermScan raw xt sup => Sys2Proof.Machine.execThermScan raw xt sup s
  | .thermAutoStart l => Sys2Proof.Machine.execThermAutoStart l s
  | .thermCtrlClearLatch d sess => Sys2Proof.Machine.execThermCtrlClearLatch d sess s
  | .thermSensorRelearn n sess => Sys2Proof.Machine.execThermSensorRelearn n sess s
  | .timerAdvance t => Sys2Proof.Machine.execTimerAdvance t s
  | .timerWriteApply t => Sys2Proof.Machine.execTimerWriteApply t s
  | .timerCtrlStart t sess => Sys2Proof.Machine.execTimerCtrlStart t sess s
  | .timerCtrlStop t sess => Sys2Proof.Machine.execTimerCtrlStop t sess s
  | .timerCtrlClear t sess => Sys2Proof.Machine.execTimerCtrlClear t sess s
  | .timerCapture src falling held => Sys2Proof.Machine.execTimerCapture src falling held s
  | .brownWarnAssert n => Sys2Proof.Machine.execBrownWarnAssert n s
  | .brownResumeStart => Sys2Proof.Machine.execBrownResumeStart s
  | .brownWarnRelease => Sys2Proof.Machine.execBrownWarnRelease s
  | .brownOut n => Sys2Proof.Machine.execBrownOut n s
  | .coldPor => Sys2Proof.Machine.execColdPor s
  | .mainPor => Sys2Proof.Machine.execMainPor s
  | .dormantWake cause early => Sys2Proof.Machine.execDormantWake cause early s
  | .wakeTimeout => Sys2Proof.Machine.execWakeTimeout s
  | .nrst long => Sys2Proof.Machine.execNrst long s
  | .stemSupplyLow k => Sys2Proof.Machine.execStemSupplyLow k s
  | .vcorePLow => Sys2Proof.Machine.execVcorePLow s
  | .vcorePRecover => Sys2Proof.Machine.execVcorePRecover s
  | .supplyMinSample v => Sys2Proof.Machine.execSupplyMinSample v s
  | .devResetRelease => Sys2Proof.Machine.execDevResetRelease s
  | .kenebImageApply head => Sys2Proof.Machine.execKenebImageApply head s
  | .loopAutostart l => Sys2Proof.Machine.execLoopAutostart l s
  | .retentionWrite => Sys2Proof.Machine.execRetentionWrite s
  | .fwTrialConfirm => Sys2Proof.Machine.execFwTrialConfirm s
  | .peerHelloSend n => Sys2Proof.Machine.execPeerHelloSend n s
  | .peerFrameReceive n data => Sys2Proof.Machine.execPeerFrameReceive n data s
  | .peerLinkUp n => Sys2Proof.Machine.execPeerLinkUp n s
  | .peerLinkDown n => Sys2Proof.Machine.execPeerLinkDown n s
  | .phaseTonMinEnd p => Sys2Proof.Machine.execPhaseTonMinEnd p s
  | .bankThermalScan raw => Sys2Proof.Machine.execBankThermalScan raw s
  | .vbatLow mv => Sys2Proof.Machine.execVbatLow mv s
  | .timeSlewComplete => Sys2Proof.Machine.execTimeSlewComplete s
  | .latchedWakeMainEnHigh => Sys2Proof.Machine.execLatchedWakeMainEnHigh s

end Sys2Proof.Machine
end

