-- ==== Sys2Proof/Machine/Tick.lean ====
section
/-! DEFINITION. What happens while no command waits: the tick (R8, R35, R36, R448). -/

namespace Sys2Proof.Machine

/-- One tick of 4 ns on the clock while DL_REF runs; without it the tick and shelf time stand (R8, R35). -/
def State.clockOnce (s : State) : State :=
  if s.clk.dlRef then { s with clk := { s.clk with tick := s.clk.tick + 1, t5k := s.clk.t5k + s.tb.slew.rate } } else s

/-- One tick: the clock, and the end of the 2 µs in which a fault may explain a mismatch of outputs (R448). -/
def State.tickOnce (s : State) : State := s.clockOnce.doubtEnd

end Sys2Proof.Machine
end

