-- ==== Sys2Proof/Machine/Step.lean ====
section
/-! DEFINITION. One step of the block: the command at the front of the queue, or a tick where none waits. -/

namespace Sys2Proof.Machine

open Sys2Proof

/-- One step: the command at the front of the queue acts with the queue's rest behind it; on an
empty queue one tick of 4 ns
passes (log entry 1). -/
def step (s : State) : Host.Outcome State Fault Refusal :=
  match s.pending with
  | [] => .next s.tickOnce
  | c :: cs => exec c { s with pending := cs }

/-- `s` with the command of a table word at the front of its queue; unchanged where the word spells none. -/
def State.withFetchWord (s : State) (nbits w : Nat) : State :=
  match decodeTableWord nbits w with
  | none => s
  | some c => { s with pending := c :: s.pending }

end Sys2Proof.Machine
end

