-- ==== Sys2Proof/Machine/Pads.lean ====
section
/-! DEFINITION. What the output pads of the state show (R21, R142, R144, R380, R500, R515, R517):
each is a function of the state. -/

namespace Sys2Proof.Machine

/-- The level of an output pad whose bank supply is present: driven high, driven low, not driven, or regulated
between the two (R165). -/
inductive PadLevel where
  | high | low | floating | regulated
deriving DecidableEq, Repr

/-- A push-pull pad of a Boolean level. -/
def PadLevel.push (b : Bool) : PadLevel := if b then .high else .low

/-- A pad that is high when released: driven in PUSH_PULL (0), open in OPEN_DRAIN (1) (R142, R144). -/
def PadLevel.released (drive : Int) : PadLevel := if drive = 1 then .floating else .high

/-- PG`n`: held low while DL_CORE is off or in reset, in either mode of LOOP_PG_DRIVE (R141, R142, R515). -/
def State.pgPad (s : State) (n : Fin 16) : PadLevel :=
  if s.dev.coreOn ∧ ¬ s.dev.held ∧ s.loop[n].eb.pgPin then PadLevel.released (s.par P.LOOP_PG_DRIVE n) else .low

/-- FAULT`m`: low when asserted, and while DL_CORE is off or in reset (R143, R144, R515). -/
def State.faultPad (s : State) (m : Fin 4) : PadLevel :=
  if s.dev.coreOn ∧ ¬ s.dev.held ∧ ¬ s.fault.hold ∧ ¬ s.fault.pin[m] then PadLevel.released (s.par P.DEV_FAULT_DRIVE m) else .low

/-- PWMH`n` and PWML`n`: held low while the domain of the phase die is off or the die is held (R21, R515). -/
def State.pwmPads (s : State) (n : Fin 48) : PadLevel × PadLevel :=
  let k := dieOf n
  if s.die[k].off ∨ s.die[k].held then (.low, .low) else (.push s.ph[n].pl.pwmh, .push s.ph[n].pl.pwml)

/-- HIRQ`n`, an open drain driven low while the port's interrupt is asserted, released while DL_HOST
is off (R380, R515). -/
def State.hirqPad (s : State) (n : Fin 2) : PadLevel :=
  if s.dev.hostOn ∧ s.hirq ⟨n.val + 2, by omega⟩ then .low else .floating

/-- What a field-port pad serves as (R255). -/
inductive FieldRole where
  | disabled | txPos | txNeg | rxPos | rxNeg | scl | sda | alertIn | unused
deriving DecidableEq, Repr

/-- The roles of the pads A to D under RILL (R255). -/
def rillRoles : List FieldRole := [.txPos, .txNeg, .rxPos, .rxNeg]

/-- The roles of the pads A to D under PMBUS (R255). -/
def pmbusRoles : List FieldRole := [.scl, .sda, .alertIn, .unused]

/-- FP`p`A to FP`p`D (`k` 0 to 3): by PORT_MODE, and disabled, which is high impedance, while the
port is OFF or its domain
off or in reset (R20, R255, R263, R515). -/
def State.fieldPad (s : State) (p : Fin 64) (k : Fin 4) : FieldRole :=
  if s.dev.held ∨ s.portOn p = false ∨ s.port[p].state = .off then .disabled
  else if s.parN P.PORT_MODE p = 1 then rillRoles.getD k.val .disabled
  else if s.parN P.PORT_MODE p = 2 then pmbusRoles.getD k.val .disabled
  else .disabled

/-- MAIN_EN (R500, R515). -/
def State.mainEnPad (s : State) : PadLevel := .push s.spring.mainEn

/-- GMx, GPx and GOx of a feed, low while BK_HV is off (R152, R517); GMx is regulated in a DVDT precharge (R165). -/
def State.gatePads (s : State) (f : Fin 2) : PadLevel × PadLevel × PadLevel :=
  let x := s.bank.feed[f]
  if s.bank.on then (if x.reg then .regulated else .push x.gm, .push x.gp, .push x.go) else (.low, .low, .low)

end Sys2Proof.Machine
end

