-- ==== Sys2Proof/Safety.lean ====
section
/-! DEFINITION. What a safe part looks like: no stage shorted, no output driven by a die in SAFE, the silt store in canonical form. -/

namespace Sys2Proof

open Sys2Proof.Machine

/-- The parts of the state, one for each field but the queue. -/
inductive Part where
  | clk | tb | slu | cfg | ord | free | evq | die | ph | pst | vs | loop
  | fault | stemRep | share | hold | bank | weir | batt | port | nodes | pool | mram | silt
  | spate | host | stems | therm | timer | power | spring | firm | chain | dev | lag | passed
deriving DecidableEq, Repr

/-- The number of a part, its bit in a mask. -/
def Part.idx : Part → Nat
  | .clk => 0 | .tb => 1 | .slu => 2 | .cfg => 3 | .ord => 4 | .free => 5
  | .evq => 6 | .die => 7 | .ph => 8 | .pst => 9 | .vs => 10 | .loop => 11
  | .fault => 12 | .stemRep => 13 | .share => 14 | .hold => 15 | .bank => 16 | .weir => 17
  | .batt => 18 | .port => 19 | .nodes => 20 | .pool => 21 | .mram => 22 | .silt => 23
  | .spate => 24 | .host => 25 | .stems => 26 | .therm => 27 | .timer => 28 | .power => 29
  | .spring => 30 | .firm => 31 | .chain => 32 | .dev => 33 | .lag => 34 | .passed => 35

/-- A part is the same in two states. -/
abbrev Part.same (p : Part) (s t : State) : Prop :=
  match p with
  | .clk => t.clk = s.clk | .tb => t.tb = s.tb | .slu => t.slu = s.slu
  | .cfg => t.cfg = s.cfg | .ord => t.ord = s.ord | .free => t.free = s.free
  | .evq => t.evq = s.evq | .die => t.die = s.die | .ph => t.ph = s.ph
  | .pst => t.pst = s.pst | .vs => t.vs = s.vs | .loop => t.loop = s.loop
  | .fault => t.fault = s.fault | .stemRep => t.stemRep = s.stemRep | .share => t.share = s.share
  | .hold => t.hold = s.hold | .bank => t.bank = s.bank | .weir => t.weir = s.weir
  | .batt => t.batt = s.batt | .port => t.port = s.port | .nodes => t.nodes = s.nodes
  | .pool => t.pool = s.pool | .mram => t.mram = s.mram | .silt => t.silt = s.silt
  | .spate => t.spate = s.spate | .host => t.host = s.host | .stems => t.stems = s.stems
  | .therm => t.therm = s.therm | .timer => t.timer = s.timer | .power => t.power = s.power
  | .spring => t.spring = s.spring | .firm => t.firm = s.firm | .chain => t.chain = s.chain
  | .dev => t.dev = s.dev | .lag => t.lag = s.lag | .passed => t.passed = s.passed

/-- The parts of the state that a command may change; every other part it leaves alone. -/
def Instr.parts : Instr → List Part
  | .sluicePeriodBoundary =>
    [.slu, .ord, .evq, .stemRep]
  | .tbLocked _ _ | .tbRefclkLoss | .tbSyncLoss | .tbAnnounceTimeout =>
    [.tb, .evq]
  | .tbReferenceReturn | .tbHoldoverExpiry =>
    [.tb]
  | .ptpEventMessage _ _ _ =>
    [.clk, .tb, .ord, .evq]
  | .poolAdmitFrame =>
    [.slu, .ord, .evq, .fault, .share, .port, .nodes, .pool, .spate, .passed]
  | .loopPeriodStart _ =>
    [.ord, .evq, .die, .ph, .pst, .vs, .loop, .lag]
  | .ssFrequencyDraw _ | .ocCleanTimeEnd _ | .ebbHoldoffEnd _ | .slotRotation _ =>
    [.loop]
  | .pulseStart _ | .toffMinEnd _ =>
    [.evq, .ph, .loop, .lag]
  | .phaseBlankEnd _ _ _ | .regulationTrip _ _ | .limitComparatorTrip _ _ | .maxdutyReached _ | .forcedPulseMax _ | .phaseTonMinEnd _ =>
    [.ph, .loop]
  | .deadTimeEnd _ | .shedComplete _ =>
    [.evq, .ph, .loop]
  | .phaseAdcSample _ _ _ =>
    [.ph, .pst]
  | .phaseCmdFrame _ _ =>
    [.evq, .die, .ph, .loop, .fault, .lag]
  | .phaseRefreshFrame _ _ =>
    [.evq, .die, .ph, .loop, .fault, .hold, .lag]
  | .phaseCalDone _ _ =>
    [.evq, .ph]
  | .phaseDieArmed _ =>
    [.evq, .die, .ph, .fault]
  | .phaseCmdWdogExpire _ | .phaseSrcSignalLow _ | .delayLineCalLost _ | .vcorePLow =>
    [.evq, .die, .ph, .fault, .lag]
  | .phaseDieReport _ =>
    [.ord, .evq, .die, .ph, .pst, .loop, .fault, .batt, .spate, .lag, .passed]
  | .phaseTlmPublish _ =>
    [.pool]
  | .vsConversion _ _ _ =>
    [.vs]
  | .vsOvershootEnter _ _ =>
    [.ph, .vs, .loop]
  | .vsOvershootRelease _ _ | .vsUndershootRelease _ _ =>
    [.evq, .vs]
  | .vsUndershootEnter _ _ =>
    [.evq, .ph, .vs, .loop]
  | .phaseFeedLossLatch _ =>
    [.die, .ph, .loop, .bank]
  | .loopEvaluation =>
    [.slu, .ord, .evq, .die, .ph, .loop, .fault, .stemRep, .share, .hold, .port, .nodes, .host, .lag, .passed]
  | .loopCtrlStart _ _ =>
    [.evq, .die, .loop, .fault, .host, .therm, .dev, .lag, .passed]
  | .loopCtrlStop _ _ =>
    [.evq, .die, .ph, .pst, .loop, .fault, .host, .therm, .dev, .lag, .passed]
  | .loopCtrlClear _ _ =>
    [.evq, .loop, .fault, .host]
  | .followErrExpire _ | .hiccupOffEnd _ =>
    [.evq, .die, .ph, .pst, .loop, .fault, .spate, .lag, .passed]
  | .limitReport _ | .startShortExpire _ =>
    [.ord, .evq, .die, .ph, .pst, .loop, .fault, .spate, .lag, .passed]
  | .shedAbort _ _ _ =>
    [.die, .ph]
  | .ebbWindowEnd _ =>
    [.ord, .evq, .ph, .pst, .loop, .fault]
  | .faultStatusRelease _ _ =>
    [.fault, .host]
  | .bankMeteringStep _ =>
    [.free, .evq, .bank]
  | .feedFastTrip _ _ | .feedReverseTrip _ _ _ | .feedOrOnDelayEnd _ | .feedInsertTimer _ | .feedPreTmaxExpire _ | .feedSoaTimerExpire _
    | .feedRetryDelayEnd _ | .feedLossCompLow _ | .feedLossCompHigh _ | .feedFetShort _ _ _ _ | .feedGateFail _ _ _ | .bankHeartbeat
    | .bankHbTimeout =>
    [.evq, .bank]
  | .feedPreOverlapEnd _ | .feedCleanTimeEnd _ | .feedTestEnd _ =>
    [.bank]
  | .feedCtrlEnable _ _ | .feedCtrlDisable _ _ | .feedCtrlClear _ _ | .feedCtrlTest _ _ | .feedCtrlResetEnergy _ _ =>
    [.bank, .host, .passed]
  | .bankHbReturn | .bankParamFrame _ | .bankParamCommit | .bankCommandFrame =>
    [.evq, .bank, .passed]
  | .bankTelemetry =>
    [.ord, .evq, .fault, .hold, .bank, .pool, .spate, .host, .passed]
  | .energyCopy =>
    [.bank, .silt]
  | .bankPowerOn =>
    [.evq, .bank, .power, .passed]
  | .bankPowerOff =>
    [.evq, .fault, .bank, .power]
  | .shareUpdate =>
    [.evq, .share, .port, .nodes, .passed]
  | .shareTieUpdate =>
    [.evq, .share]
  | .peerShareSend =>
    [.share, .chain, .passed]
  | .holdPreloadCompute =>
    [.evq, .loop, .hold]
  | .feedLossInput =>
    [.ord, .evq, .loop, .fault, .share, .hold, .bank, .weir, .port, .nodes, .spate, .host, .timer, .lag, .passed]
  | .feedLossReleaseInput =>
    [.ord, .evq, .fault, .hold, .bank, .host, .passed]
  | .holdReturnTimer | .holdQuorumMet | .holdCtrlHandback _ =>
    [.ord, .evq, .loop, .fault, .share, .hold, .port, .nodes, .host, .lag, .passed]
  | .weirEvaluation _ _ =>
    [.evq, .bank, .weir, .port, .nodes, .passed]
  | .throttleResend | .nodeKeepaliveSend _ | .holdupStateResend =>
    [.port, .nodes, .passed]
  | .battCountSample _ =>
    [.ord, .evq, .batt, .host, .stems, .passed]
  | .battRestAnchor _ | .battFullAnchor _ =>
    [.evq, .batt, .stems]
  | .battVoltageEmpty _ =>
    [.evq, .batt, .host, .passed]
  | .battCutoff _ | .battAbsent _ =>
    [.evq, .batt]
  | .battCtrlClearCutoff _ _ | .battCtrlCancelLearn _ _ | .battCtrlReestimate _ _ =>
    [.evq, .batt, .host]
  | .portTrainComplete _ _ | .portLossOfLock _ | .portErrorRate _ _ | .portUpshiftAttempt _ | .hubFrameReceive | .hubFrameTimeout _ =>
    [.evq, .port, .nodes]
  | .portTrainDwellExpire _ | .rillFrameReceive _ _ _ _ _ | .rillRxTimeout _ | .portTxStall _ | .pmbAlert _ _ _ _ =>
    [.evq, .port]
  | .portRetrainDelayEnd _ | .rillCreditReceive _ _ _ | .rillFrameTransmit _ | .pmbDiscovery _ _ | .pmbPollCycle _
    | .pmbBusRecoveryRetry _ _ | .pmbAlertUnmask _ =>
    [.port]
  | .stampFieldFrame _ =>
    [.ord, .evq, .port, .nodes]
  | .pmbTransactionDone _ _ _ | .pmbBusTimeout _ _ _ =>
    [.evq, .port, .host, .passed]
  | .nodeMsgReceive =>
    [.evq, .port, .nodes, .passed]
  | .nodeOpenRequest =>
    [.evq, .share, .port, .nodes, .mram, .silt, .host, .passed]
  | .nodeReply | .nodeRetxTimeout _ =>
    [.evq, .port, .nodes, .host, .passed]
  | .nodeLeaseLapse _ =>
    [.evq, .share, .nodes, .host, .passed]
  | .nodeCtrlClose _ _ =>
    [.evq, .share, .port, .nodes, .host, .passed]
  | .poolActionLoopStop =>
    [.ord, .evq, .die, .ph, .pst, .loop, .fault, .pool, .therm, .dev, .lag, .passed]
  | .poolActionNodeOff =>
    [.port, .nodes, .pool, .passed]
  | .subNoticePost =>
    [.slu, .evq, .pool, .host, .passed]
  | .poolScrub _ =>
    [.evq, .fault, .stemRep, .pool, .host, .passed]
  | .siltEvent =>
    [.evq, .die, .bank, .weir, .port, .nodes, .pool, .silt, .host, .stems, .timer]
  | .siltRecordCommit =>
    [.slu, .mram, .silt, .passed]
  | .siltTallyWrite =>
    [.mram, .silt, .passed]
  | .ledgerWrite =>
    [.mram, .silt]
  | .siltCursorWrite _ _ | .siltWinAutoAdvance _ | .hrTimeLoRead _ | .mbTxWrite _ _ _ | .mbRxRead _ _ | .sessionClaimTimeout _
    | .sessionProveTimeout _ | .keyLockoutEnd _ =>
    [.host]
  | .siltWinLatch _ | .siltCtrlClear _ | .hostEthRegAccess _ _ _ | .hostEthLink _ _ | .hostSpiAbandon _ _ _ =>
    [.evq, .host]
  | .spateFrame =>
    [.spate]
  | .spateTrigger | .spateFreeze =>
    [.evq, .spate]
  | .spateBlockCopy =>
    [.slu, .evq, .die, .bank, .weir, .port, .nodes, .pool, .mram, .silt, .spate, .host, .stems, .timer]
  | .spateCtrlTrigger _ =>
    [.spate, .host]
  | .spateCtrlLock _ _ | .spateCtrlUnlock _ _ =>
    [.evq, .mram, .host]
  | .hostEthFrame _ _ =>
    [.ord, .evq, .host, .passed]
  | .hostRegWrite _ _ _ | .mbClaim _ _ | .mbRelease _ _ | .mbDoorbell _ _ | .mbTxDiscard _ _ | .mbRxSkip _ _ | .sessionLeaseLapse _ =>
    [.ord, .evq, .loop, .fault, .share, .hold, .weir, .port, .nodes, .pool, .host, .firm, .lag, .passed]
  | .hostRequestTake _ =>
    [.clk, .tb, .slu, .cfg, .ord, .free, .evq, .die, .ph, .pst, .vs, .loop, .fault, .stemRep, .share, .hold, .bank, .weir, .batt, .port,
     .nodes, .pool, .mram, .silt, .spate, .host, .stems, .therm, .timer, .spring, .firm, .chain, .dev, .lag, .passed]
  | .permitLapse _ =>
    [.ord, .evq, .loop, .fault, .share, .hold, .weir, .port, .nodes, .host, .firm, .lag, .passed]
  | .commitPipelineHead =>
    [.slu, .evq, .host, .passed]
  | .kenebImageWritten =>
    [.slu, .mram, .silt, .host, .firm]
  | .commitApply =>
    [.tb, .cfg, .ord, .evq, .die, .ph, .pst, .loop, .fault, .share, .hold, .bank, .weir, .batt, .port, .nodes, .pool, .mram, .silt, .spate,
     .host, .stems, .therm, .timer, .power, .spring, .firm, .chain, .dev, .lag, .passed]
  | .sessionOpen _ _ _ _ _ | .sessionProve _ _ | .sessionClose _ _ | .hostKeepalive _ _ | .noticeSet _ _ | .permitAcquire _ _
    | .permitRenew _ _ | .permitRelease _ _ | .permitTake _ _ | .paramWrite _ _ | .stage _ _ | .discard _ _ | .commit _ _ | .pointRead _ _
    | .subscribe _ _ | .unsubscribe _ _ | .siltRead _ _ | .spateRead _ _ | .battExport _ _ | .battRestore _ _ | .nodeRelay _ _
    | .pmbusXfer _ _ | .keyLoad _ _ | .kenebBegin _ _ | .kenebBlock _ _ | .kenebEnd _ _ | .kenebRead _ _ =>
    [.slu, .ord, .free, .evq, .loop, .fault, .share, .hold, .weir, .port, .nodes, .pool, .host, .firm, .lag, .passed]
  | .paramRead _ _ =>
    [.slu, .ord, .free, .evq, .loop, .fault, .share, .hold, .weir, .port, .nodes, .pool, .host, .timer, .firm, .lag, .passed]
  | .timeSet _ _ =>
    [.clk, .tb, .slu, .ord, .free, .evq, .loop, .fault, .share, .hold, .weir, .port, .nodes, .pool, .host, .firm, .lag, .passed]
  | .stateReq _ _ =>
    [.clk, .slu, .ord, .free, .evq, .die, .ph, .pst, .vs, .loop, .fault, .share, .hold, .bank, .weir, .port, .nodes, .pool, .mram, .silt,
     .spate, .host, .stems, .therm, .timer, .spring, .firm, .dev, .lag, .passed]
  | .fwBegin _ _ | .fwBlock _ _ | .fwEnd _ _ =>
    [.slu, .ord, .free, .evq, .loop, .fault, .share, .hold, .weir, .port, .nodes, .pool, .mram, .host, .firm, .lag, .passed]
  | .fwActivate _ _ =>
    [.slu, .cfg, .ord, .free, .evq, .die, .ph, .pst, .loop, .fault, .stemRep, .share, .hold, .bank, .weir, .batt, .port, .nodes, .pool,
     .mram, .silt, .spate, .host, .stems, .therm, .timer, .spring, .firm, .chain, .dev, .lag, .passed]
  | .stemHeartbeat _ _ =>
    [.stems]
  | .stemSilence _ | .stemOutputLate | .stemFaultReport _ _ _ | .stemWatchdogExpire _ =>
    [.slu, .cfg, .ord, .evq, .die, .ph, .pst, .loop, .fault, .stemRep, .share, .hold, .bank, .weir, .batt, .nodes, .pool, .mram, .silt,
     .spate, .host, .stems, .therm, .timer, .spring, .firm, .chain, .dev, .lag, .passed]
  | .stemOutputCopy _ _ _ _ =>
    [.stems, .passed]
  | .stemSwitchoverInput =>
    [.ord, .evq, .spate, .host, .stems, .timer, .passed]
  | .bridgeFlitCrcFail _ _ =>
    [.evq, .stemRep, .stems]
  | .stemBootComplete _ =>
    [.ord, .evq, .fault, .stems]
  | .stemRestartComplete _ | .stemSyncAgreement | .stemCtrlSwitchover _ =>
    [.evq, .fault, .host, .stems, .passed]
  | .stemResyncPass _ =>
    [.slu, .free, .host, .stems]
  | .stemDigestRound _ =>
    [.slu, .evq, .fault, .host, .stems, .spring, .firm, .passed]
  | .stemResyncTimeout =>
    [.evq, .fault, .host, .stems, .spring, .firm, .passed]
  | .stemCtrlResync _ | .stemCtrlRestartStandby _ =>
    [.evq, .fault, .host, .stems]
  | .thermScan _ _ _ =>
    [.tb, .slu, .cfg, .ord, .evq, .die, .ph, .pst, .loop, .fault, .stemRep, .share, .hold, .bank, .weir, .batt, .port, .nodes, .pool,
     .mram, .silt, .spate, .host, .stems, .therm, .timer, .power, .spring, .firm, .chain, .dev, .lag, .passed]
  | .thermAutoStart _ | .loopAutostart _ =>
    [.ord, .evq, .die, .loop, .fault, .therm, .dev, .lag, .passed]
  | .thermCtrlClearLatch _ _ =>
    [.evq, .silt, .host, .therm]
  | .thermSensorRelearn _ _ =>
    [.host, .therm]
  | .timerAdvance _ | .timerWriteApply _ =>
    [.timer]
  | .timerCtrlStart _ _ | .timerCtrlStop _ _ | .timerCtrlClear _ _ =>
    [.host, .timer]
  | .timerCapture _ _ _ =>
    [.ord, .evq, .pool, .timer]
  | .brownWarnAssert _ =>
    [.evq, .fault, .bank, .silt, .spate, .host, .power, .spring, .passed]
  | .brownResumeStart | .vbatLow _ =>
    [.power]
  | .brownWarnRelease =>
    [.evq, .fault, .mram, .silt, .host, .power, .spring, .firm, .passed]
  | .brownOut _ | .coldPor | .mainPor | .dormantWake _ _ | .nrst _ | .stemSupplyLow _ | .latchedWakeMainEnHigh =>
    [.clk, .tb, .slu, .cfg, .ord, .free, .evq, .die, .ph, .pst, .vs, .loop, .fault, .stemRep, .share, .hold, .bank, .weir, .batt, .port,
     .nodes, .pool, .mram, .silt, .spate, .host, .stems, .therm, .timer, .power, .spring, .firm, .chain, .dev, .lag, .passed]
  | .wakeTimeout =>
    [.spring, .dev]
  | .vcorePRecover =>
    [.evq, .die]
  | .supplyMinSample _ =>
    [.stems, .power]
  | .devResetRelease =>
    [.clk, .tb, .free, .evq, .die, .fault, .bank, .nodes, .mram, .silt, .spate, .host, .stems, .therm, .power, .spring, .firm, .dev,
     .passed]
  | .kenebImageApply _ =>
    [.cfg, .ord, .evq, .die, .ph, .pst, .vs, .loop, .fault, .bank, .batt, .port, .nodes, .silt, .spate, .host, .therm, .timer, .firm,
     .chain, .dev, .lag, .passed]
  | .retentionWrite =>
    [.spring]
  | .fwTrialConfirm =>
    [.evq, .silt, .firm]
  | .peerHelloSend _ =>
    [.chain, .passed]
  | .peerFrameReceive _ _ =>
    [.ord, .evq, .share, .chain]
  | .peerLinkUp _ | .peerLinkDown _ =>
    [.chain]
  | .bankThermalScan _ =>
    [.slu, .cfg, .ord, .evq, .die, .ph, .pst, .loop, .fault, .stemRep, .share, .hold, .bank, .weir, .batt, .port, .nodes, .pool, .mram,
     .silt, .spate, .host, .stems, .therm, .timer, .spring, .firm, .chain, .dev, .lag, .passed]
  | .timeSlewComplete =>
    [.tb, .ord]

/-- Both switches of a stage are never on together (R70). -/
abbrev Safety.noShootThrough (s : State) : Prop := ∀ p : Fin 48, ¬ (s.ph[p].pl.pwmh = true ∧ s.ph[p].pl.pwml = true)

/-- In SAFE, every PWM output of a die is low (R82). -/
abbrev Safety.safeDieLow (s : State) : Prop :=
  ∀ p : Fin 48, s.die[dieOf p].state = .safe → s.ph[p].pl.pwmh = false ∧ s.ph[p].pl.pwml = false

/-- The silt store is in its canonical form (R339). -/
abbrev Safety.storeWf (s : State) : Prop := Memory.wf s.mram

/-- A session may write a control that needs these permits: a stem active, no brown-out warning, the session open, every permit held
(R19, R398, R404, R405). -/
def Machine.State.mayControl (s : Machine.State) (k : Fin 8) (permits : List Nat) : Bool :=
  s.hasActive && !s.brownWarn && (s.sess k).state == .isOpen && permits.all (fun i => s.holds k i)

/-- A request of an open session that passes steps 1 to 4 of R394, its sequence number newer than every one before, and the checks of
R416 that come before the opcode's own. -/
def Machine.State.passes (s : Machine.State) (op : Nat) (q : Req) (b : List Byte) : Bool :=
  (s.sess q.sess).state == .isOpen && !bit q.flags 0 && !bit q.flags 1 && s.earlyCheck q.sess op q b == stOk &&
    seqNewer q.seq (s.sess q.sess).rxSeq && s.opCheck q.sess op q b == stOk

/-- Such a request where requests are taken and its own is taken at once (R46, R387). -/
def Machine.State.accepted (s : Machine.State) (op : Nat) (q : Req) (b : List Byte) : Bool :=
  s.takes && s.mayTake q.sess && s.passes op q b

/-- The reply to a request, with the session's next sequence number, is the last one stored (R395, R412, R413). -/
abbrev Machine.State.answered (s t : Machine.State) (op : Nat) (q : Req) (st : Nat) (body : List Byte) : Prop :=
  (t.sess q.sess).stored.getLast? = some (q.seq, hostMsg op 1 st (s.sess q.sess).epoch (s.sess q.sess).nextSeq q.seq body
    (if bit q.flags 2 ∨ (s.sess q.sess).macEvery then some (s.sess q.sess).tagKey else none))

/-- A request of an accepted message that a commit of the pipeline answers later (R402). -/
abbrev Machine.State.queued (s t : Machine.State) (op : Nat) (q : Req) (kind : CommitKind) (es : List Entry) (data : List Byte) : Prop :=
  t.host.commits = s.host.commits ++
      [⟨q.sess, (s.sess q.sess).key, (s.sess q.sess).epoch, q.seq, op, bit q.flags 2, kind, es, data, .waiting⟩] ∧
    (t.sess q.sess).out = (s.sess q.sess).out ++ [(q.seq, op, bit q.flags 2)] ∧ t.cfg = s.cfg

/-- A command leaves the queue of waiting commands as it found it. -/
def Safety.keepsQueue (c : Instr) (s : State) : Prop := ∀ t, exec c s = .next t → t.pending = s.pending

end Sys2Proof
end

