-- ==== Sys2Proof/Certificates/Slice0/Obligations.lean ====
section
/-! DEFINITION. The statements about the model, for the provers. -/

open Sys2Proof
open Sys2Proof.Machine

/-- TB_LOCKED, TB_REFCLK_LOSS, TB_SYNC_LOSS, TB_ANNOUNCE_TIMEOUT, TB_REFERENCE_RETURN and TB_HOLDOVER_EXPIRY where the row of R31 for them
applies. Where the spec leaves a value, an order or an instant open these clauses state the choice of the model: log entries 4, 5, 6, 117, 119. -/
def Obligations.TimeBaseFollowsItsReference : Prop :=
  (∀ (s : State) (err : Int), s.usesRefclk = true → s.tb.state = .acquire → err.natAbs < 10 →
    ∃ t, exec (.tbLocked .refclk err) s = .next t ∧ t.tb = { (s.steerBy err).tb with state := .locked, lockFreq := true } ∧
      (s.tb.frozen = false → -10000 ≤ t.tb.steer + s.therm.osc ∧ t.tb.steer + s.therm.osc ≤ 10000) ∧ t.evq = s.evq ++ [⟨0x0122, 0, s.tbSource, s.clk.shelf⟩]) ∧
  (∀ (s : State) (err : Int), s.usesRefclk = true → s.tb.state = .locked →
    ∃ t, exec (.tbLocked .refclk err) s = .next t ∧ t = s.steerBy err ∧ t.tb.state = .locked) ∧
  (∀ (s : State) (err : Int), s.usesRefclk = true → s.tb.state = .acquire → 20000 < err.natAbs →
    ∃ t, exec (.tbLocked .refclk err) s = .next t ∧ t.tb = s.tb ∧ t.evq = s.evq ++ [⟨0x0125, 0, toWord 64 err, s.clk.shelf⟩]) ∧
  (∀ (s : State) (err : Int), s.tbSource = 2 → s.tb.state = .acquire → 16 ≤ s.tb.syncGood →
    ∃ t, exec (.tbLocked .ptp err) s = .next t ∧ t.tb = { s.tb with state := .locked, lockFreq := true, lockTime := true } ∧
      t.evq = s.evq ++ [⟨0x0122, 0, 2, s.clk.shelf⟩]) ∧
  (∀ s : State, s.usesRefclk = true → s.tb.state = .locked →
    ∃ t, exec .tbRefclkLoss s = .next t ∧ t.tb.state = .holdover ∧ t.tb.holdover = true ∧ t.tb.frozen = true ∧ t.tb.lockFreq = false ∧
      t.tb.lockTime = false ∧ t.tb.refclkLost = true ∧ t.evq = s.evq ++ [⟨0x0123, 0, 0, s.clk.shelf⟩]) ∧
  (∀ s : State, s.usesPtp = true → s.tb.state = .locked →
    ∃ t, exec .tbSyncLoss s = .next t ∧ t.tb.state = .holdover ∧ t.tb.holdover = true ∧ t.tb.frozen = true ∧ t.tb.lockFreq = false ∧
      t.tb.lockTime = false ∧ t.tb.ptpLost = true ∧ t.evq = s.evq ++ [⟨0x0123, 0, 1, s.clk.shelf⟩]) ∧
  (∀ s : State, s.usesPtp = true → s.tb.state = .locked →
    ∃ t, exec .tbAnnounceTimeout s = .next t ∧ t.tb.state = .holdover ∧ t.tb.holdover = true ∧ t.tb.frozen = true ∧
      t.tb.steer = s.tb.steer ∧ t.tb.lockFreq = false ∧ t.tb.lockTime = false ∧ t.tb.ptpLost = true ∧ t.tb.master = none ∧
      t.evq = s.evq ++ [⟨0x0123, 0, 2, s.clk.shelf⟩]) ∧
  (∀ s : State, s.tb.state = .holdover →
    ∃ t, exec .tbReferenceReturn s = .next t ∧ t.tb.state = .locked ∧ t.tb.holdover = false ∧ t.tb.frozen = false ∧ t.tb.steer = s.tb.steer ∧ t.evq = s.evq) ∧
  (∀ s : State, s.tb.state = .holdover →
    ∃ t, exec .tbHoldoverExpiry s = .next t ∧ t.tb.state = .free ∧ t.tb.holdover = false ∧ t.tb.lockFreq = false ∧ t.tb.steer = s.tb.steer ∧ t.evq = s.evq)

/-- PTP_EVENT_MESSAGE and TIME_SLEW_COMPLETE. A step is taken in whole ticks of 4 ns (log entry 9). Where the spec leaves a value, an order or an instant open these clauses state the choice of the model: log entries 7, 9, 117. -/
def Obligations.ShelfTimeIsCorrected : Prop :=
  (∀ (s : State) (port : Fin 2) (dom : Nat) (m : PtpMsg) (t1 off : Int), s.ptpHears port dom m = true → s.tb.master.map (·.1) = some m.sender →
    m.kind = .sync false t1 → off = s.ptpOffset port t1 ((s.clk.shelf : Int) - m.age) → off.natAbs < 100 →
    ∃ t, exec (.ptpEventMessage port dom m) s = .next t ∧ t.tb.isSet = true ∧ t.tb.timeGap = false ∧ t.tb.lastOffset = off ∧ t.clk.tick = s.clk.tick ∧ 
      t.tb.slew = .none ∧ t.clk = s.clk ∧ t.evq = s.evq ∧ t.ord = (if s.tb.slew = .none then s.ord else s.ord + 1)) ∧
  (∀ (s : State) (port : Fin 2) (dom : Nat) (m : PtpMsg) (t1 off : Int), s.ptpHears port dom m = true → s.tb.master.map (·.1) = some m.sender →
    m.kind = .sync false t1 → off = s.ptpOffset port t1 ((s.clk.shelf : Int) - m.age) → 100 ≤ off.natAbs →
    s.par P.DEV_TIME_STEP_LIMIT 0 * 1000 < off →
    ∃ t, exec (.ptpEventMessage port dom m) s = .next t ∧ t.tb.isSet = true ∧ t.tb.timeGap = false ∧ t.tb.lastOffset = off ∧ t.clk.tick = s.clk.tick ∧ 
      s.clk.t5k ≤ t.clk.t5k ∧ t.tb.slew = .none ∧ t.clk.t5k = s.clk.t5k + off.toNat / 4 * 5000 ∧ t.ord = s.ord + 1 ∧
      t.evq = s.evq ++ [⟨0x0120, 0, toWord 64 (off.toNat / 4 * 4 : Nat), t.clk.shelf⟩]) ∧
  (∀ (s : State) (port : Fin 2) (dom : Nat) (m : PtpMsg) (t1 off : Int), s.ptpHears port dom m = true → s.tb.master.map (·.1) = some m.sender →
    m.kind = .sync false t1 → off = s.ptpOffset port t1 ((s.clk.shelf : Int) - m.age) → 100 ≤ off.natAbs →
    off ≤ s.par P.DEV_TIME_STEP_LIMIT 0 * 1000 →
    ∃ t, exec (.ptpEventMessage port dom m) s = .next t ∧ t.tb.isSet = true ∧ t.tb.timeGap = false ∧ t.tb.lastOffset = off ∧ t.clk.tick = s.clk.tick ∧ 
      t.clk = s.clk ∧ t.tb.slewOfs = off ∧ t.tb.slewTick = s.clk.tick ∧ t.tb.slew = (if 0 < off then .forward else .backward) ∧
      t.ord = (if t.tb.slew = s.tb.slew then s.ord else s.ord + 1) ∧
      t.evq = s.evq ++ (if t.tb.slew = s.tb.slew then [] else [⟨0x0121, 0, toWord 64 off, s.clk.shelf⟩])) ∧
  (∀ (s : State) (port : Fin 2) (dom : Nat) (m : PtpMsg) (t1 : Int), s.ptpHears port dom m = true → s.tb.master.map (·.1) = some m.sender →
    m.kind = .sync true t1 →
    ∃ t, exec (.ptpEventMessage port dom m) s = .next t ∧ t = { s with tb := { s.tb with syncAt := some ((s.clk.shelf : Int) - m.age) } }) ∧
  (∀ (s : State) (port : Fin 2) (dom : Nat) (m : PtpMsg) (d : PtpSet), s.ptpHears port dom m = true → m.kind = .announce d →
    ∃ t, exec (.ptpEventMessage port dom m) s = .next t ∧ t = { s with tb := { s.tb with master := s.tb.heard m.sender d } }) ∧
  (∀ s : State, s.tb.slew ≠ .none → s.slewLeft < 500000 → -500000 < s.slewLeft →
    ∃ t, exec .timeSlewComplete s = .next t ∧ t.tb.slew = .none ∧ t.clk = s.clk ∧ t.ord = s.ord + 1)

/-- SLUICE_PERIOD_BOUNDARY. Where the spec leaves a value, an order or an instant open these clauses state the choice of the model: log entries 8, 118, 134. -/
def Obligations.SluicePeriodCloses : Prop :=
  ∀ s : State, s.hasActive = true → ∃ t, exec .sluicePeriodBoundary s = .next t ∧ t.ord = s.ord + 1 ∧
    (∀ a : Fin 6, t.slu.used[a] = 0 ∧ t.slu.stalled[a] = false ∧ t.slu.peakUse[a] = max s.slu.used[a] s.slu.peakUse[a] ∧
      t.slu.stallPeriods[a] = if s.slu.stalled[a] = true then bump s.slu.stallPeriods[a] else s.slu.stallPeriods[a]) ∧
    (s.sluiceBudget 0 < s.slu.used[(0 : Fin 6)] → t.stemRep = s.stemRep ++ [(s.activeStem, 6)]) ∧
    (s.slu.used[(0 : Fin 6)] ≤ s.sluiceBudget 0 → t.stemRep = s.stemRep)

/-- PULSE_START where nothing holds the start back, where a pulse or the minimum off-time does, and at a zero command. -/
def Obligations.SlotStartBeginsAPulse : Prop :=
  (∀ (s : State) (p : Fin 48) (l : Fin 16), s.loopOf p = some l → s.switches p l = true → s.ph[p].pl.pulse = none → s.ph[p].pl.toff = false →
    s.ph[p].pl.dead ≠ .controlled → s.ph[p].iPh ≠ 0 → ¬ ((s.slotOpen p l).cmdDir p s.ph[p].iPh = .fwd ∧ (s.slotOpen p l).inOvs p = true) →
    ∃ t, exec (.pulseStart p) s = .next t ∧ t.ph[p].pl.pulse = some ((s.slotOpen p l).cmdDir p s.ph[p].iPh) ∧ t.ph[p].pl.forced = false ∧
      t.ph[p].pl.regBlank = true ∧ t.ph[p].pl.limBlank = true ∧ t.ph[p].pl.tonMin = true ∧ t.ph[p].pl.onTick = s.clk.tick ∧
      t.ph[p].pl.period = s.loop[l].tm.number ∧
      t.ph[p].pl.pwmh = s.ctlIsHigh p ((s.slotOpen p l).cmdDir p s.ph[p].iPh) ∧
      t.ph[p].pl.pwml = !s.ctlIsHigh p ((s.slotOpen p l).cmdDir p s.ph[p].iPh) ∧
      t.ph[p].corr = (s.slotOpen p l).avgCorr p ((s.slotOpen p l).cmdDir p s.ph[p].iPh) t.ph[p].ramp ∧ t.ph[p].iPh = s.ph[p].iPh ∧
      (t.ph[p].refCode : Int) = clampI 0 4095 (t.refCodeOf p) ∧
      ∀ q : Fin 48, q ≠ p → t.ph[q] = s.ph[q]) ∧
  (∀ (s : State) (p : Fin 48) (l : Fin 16), s.loopOf p = some l → s.switches p l = true → (s.ph[p].pl.pulse.isSome || s.ph[p].pl.toff) = true →
    ∃ t, exec (.pulseStart p) s = .next t ∧ t = s.modPh p (fun y => { y with pl := { y.pl with held := true } })) ∧
  (∀ (s : State) (p : Fin 48) (l : Fin 16), s.loopOf p = some l → s.switches p l = true → s.ph[p].pl.pulse = none → s.ph[p].pl.toff = false →
    s.ph[p].pl.dead = .none → s.ph[p].iPh = 0 → s.par P.PHASE_MODE p ≠ 2 → (s.slotOpen p l).parNow P.PHASE_OUT_MODE p = 0 →
    ∃ t, exec (.pulseStart p) s = .next t ∧ t.syncOn p .fwd = true ∧ t.ph[p].pl.pulse = none ∧
      ∀ q : Fin 48, q ≠ p → t.ph[q] = s.ph[q]) ∧
  (∀ (s : State) (p : Fin 48) (l : Fin 16), s.loopOf p = some l → s.switches p l = true → s.ph[p].pl.pulse = none → s.ph[p].pl.toff = false →
    s.ph[p].pl.dead ≠ .controlled → s.ph[p].iPh = 0 → s.par P.PHASE_MODE p = 2 →
    ∃ t, exec (.pulseStart p) s = .next t ∧ t.ph[p].pl.pwmh = false ∧ t.ph[p].pl.pwml = false ∧ t.ph[p].pl.pulse = none ∧
      ∀ q : Fin 48, q ≠ p → t.ph[q] = s.ph[q]) ∧
  (∀ (s : State) (p : Fin 48) (l : Fin 16), s.loopOf p = some l → s.switches p l = true → s.ph[p].pl.pulse = none → s.ph[p].pl.toff = false →
    s.ph[p].pl.dead = .controlled →
    ∃ t, exec (.pulseStart p) s = .next t ∧ t = s.slotOpen p l ∧ t.ph[p].pl = s.ph[p].pl)

/-- The ends of a pulse. Where the spec leaves a value, an order or an instant open these clauses state the choice of the model: log entry 135. -/
def Obligations.PulseEnds : Prop :=
  (∀ (s : State) (p : Fin 48) (w : Nat) (d : Dir), s.ph[p].pl.pulse = some d → s.ph[p].pl.regBlank = false →
    s.ph[p].pl.forced = false → s.ph[p].pl.tonMin = false →
    ∃ t, exec (.regulationTrip p w) s = .next t ∧ t.ph[p].pl.pulse = none ∧ t.ph[p].pl.toff = true ∧ (t.ph[p].sl d).tOn = w ∧
      t.ph[p].limit = s.ph[p].limit) ∧
  (∀ (s : State) (p : Fin 48) (w : Nat), s.ph[p].pl.pulse ≠ none → s.ph[p].pl.regBlank = false →
    s.ph[p].pl.forced = false → s.ph[p].pl.tonMin = true →
    ∃ t, exec (.regulationTrip p w) s = .next t ∧ t.ph[p].pl.pulse = s.ph[p].pl.pulse ∧ t.ph[p].pl.tripWaits = true) ∧
  (∀ (s : State) (p : Fin 48) (w : Nat) (d : Dir), s.ph[p].pl.pulse = some d → s.ph[p].pl.limBlank = false →
    ∃ t, exec (.limitComparatorTrip p w) s = .next t ∧ t.ph[p].pl.pulse = none ∧ t.ph[p].pl.toff = true ∧ (t.ph[p].sl d).tOn = w ∧
      t.ph[p].limit = true) ∧
  (∀ (s : State) (p : Fin 48) (d : Dir) (l : Fin 16), s.ph[p].pl.pulse = some d → s.loopOf p = some l → s.ph[p].pl.forced = false →
    ∃ t, exec (.maxdutyReached p) s = .next t ∧ t.ph[p].pl.pulse = none ∧ t.ph[p].pl.toff = true ∧ t.ph[p].maxduty = true ∧
      t.ph[p].maxdutyCnt = bump s.ph[p].maxdutyCnt ∧ (t.ph[p].sl d).tOn = s.loop[l].tm.p * s.parNowN P.PHASE_DMAX p / 100) ∧
  (∀ (s : State) (p : Fin 48) (d : Dir), s.ph[p].pl.pulse = some d → s.ph[p].pl.tripWaits = true →
    ¬ (s.ph[p].pl.forced = true ∧ s.inUvs p = true) →
    ∃ t, exec (.phaseTonMinEnd p) s = .next t ∧ t.ph[p].pl.pulse = none ∧ t.ph[p].pl.toff = true ∧ t.ph[p].pl.tripWaits = false ∧
      (t.ph[p].sl d).tOn = s.parNowN P.PHASE_TON_MIN p) ∧
  (∀ (s : State) (p : Fin 48), s.ph[p].pl.tripWaits = false →
    ∃ t, exec (.phaseTonMinEnd p) s = .next t ∧ t = s.modPh p (fun x => { x with pl := { x.pl with tonMin := false } })) ∧
  (∀ (s : State) (p : Fin 48) (d : Dir), s.ph[p].pl.pulse = some d → s.ph[p].pl.forced = true →
    ∃ t, exec (.forcedPulseMax p) s = .next t ∧ t.ph[p].pl.pulse = none ∧ t.ph[p].pl.toff = true ∧
      (t.ph[p].sl d).tOn = s.parNowN P.PHASE_TON_FORCE_MAX p) ∧
  (∀ (s : State) (p : Fin 48) (sensed : Int) (d : Dir), s.ph[p].pl.pulse = some d → s.ph[p].pl.limBlank = true →
    s.pastAtBlank p d .limit sensed = true →
    ∃ t, exec (.phaseBlankEnd p .limit sensed) s = .next t ∧ t.ph[p].pl.pulse = none ∧ t.ph[p].limit = true ∧
      (t.ph[p].sl d).tOn = s.parNowN P.PHASE_LIM_BLANK p) ∧
  (∀ (s : State) (p : Fin 48) (sensed : Int) (d : Dir), s.ph[p].pl.pulse = some d → s.pastAtBlank p d .limit sensed = false →
    ∃ t, exec (.phaseBlankEnd p .limit sensed) s = .next t ∧ t = s.modPh p (fun x => { x with pl := { x.pl with limBlank := false } }))

/-- DEAD_TIME_END and TOFF_MIN_END. -/
def Obligations.HeldSwitchesTurnOn : Prop :=
  (∀ (s : State) (p : Fin 48), s.ph[p].pl.dead = .sync → s.past s.ph[p].pl.deadAt s.ph[p].pl.deadLen = true → s.dieRuns p = true →
    ∃ t, exec (.deadTimeEnd p) s = .next t ∧ t.ph[p].pl.dead = .none ∧ t.syncOn p s.ph[p].pl.lastDir = true ∧
      (t.ph[p].pl.pwmh = true → t.ph[p].pl.pwml = false)) ∧
  (∀ (s : State) (p : Fin 48), s.ph[p].pl.dead = .controlled →
    s.past s.ph[p].pl.deadAt s.ph[p].pl.deadLen = true → s.ph[p].inService = true → s.dieRuns p = true → s.inOvs p = false →
    s.stops p = false →
    ∃ t, exec (.deadTimeEnd p) s = .next t ∧ t.ph[p].pl.pulse = some .fwd ∧ t.ph[p].pl.forced = true ∧ t.ph[p].pl.dead = .none) ∧
  (∀ (s : State) (p : Fin 48), s.ph[p].pl.toff = true → s.past s.ph[p].pl.toffAt s.ph[p].pl.toffLen = true → s.ph[p].pl.held = false →
    s.ph[p].pl.heldForced = false →
    ∃ t, exec (.toffMinEnd p) s = .next t ∧ t = s.modPl p (fun x => { x with toff := false, held := false, heldForced := false })) ∧
  (∀ (s : State) (p : Fin 48), s.ph[p].pl.toff = true → s.past s.ph[p].pl.toffAt s.ph[p].pl.toffLen = true → s.ph[p].pl.held = true →
    s.ph[p].pl.heldForced = false →
    ∃ t, exec (.toffMinEnd p) s = .next t ∧
      exec (.pulseStart p) (s.modPl p (fun x => { x with toff := false, held := false, heldForced := false })) = .next t) ∧
  (∀ (s : State) (p : Fin 48), s.ph[p].pl.toff = true → s.past s.ph[p].pl.toffAt s.ph[p].pl.toffLen = true → s.ph[p].pl.heldForced = true → s.inOvs p = false →
    ∃ t, exec (.toffMinEnd p) s = .next t ∧
      t = (s.modPl p (fun x => { x with toff := false, held := false, heldForced := false })).forcePulse p)

/-- PHASE_CMD_WDOG_EXPIRE, PHASE_SRC_SIGNAL_LOW, DELAY_LINE_CAL_LOST and PHASE_DIE_ARMED. Where the spec leaves a value, an order or an instant open these clauses state the choice of the model: log entry 135. -/
def Obligations.DieFallsToSafe : Prop :=
  (∀ (s : State) (d : Fin 4), s.wdogDue d = true → s.die[d].state ≠ .safe →
    ∃ t, exec (.phaseCmdWdogExpire d) s = .next t ∧ t.die[d].state = .safe ∧ t.die[d].lp = Vector.replicate 16 DieLoop.reset ∧
      t.die[d].reports = s.die[d].reports ++ [.safeEntry 0] ∧ t.die[d].src = s.die[d].src ∧
      t.evq.take (s.evq.length + 1) = s.evq ++ [⟨0x0301, d.val, 0, s.clk.shelf⟩] ∧
      (∀ p : Fin 48, dieOf p = d → t.ph[p].pl.pwmh = false ∧ t.ph[p].pl.pwml = false ∧ t.ph[p].pl.pulse = none ∧ t.ph[p].iPh = 0) ∧
      (∀ p : Fin 48, dieOf p ≠ d → t.ph[p] = s.ph[p])) ∧
  (∀ (s : State) (d : Fin 4), s.die[d].state ≠ .safe →
    ∃ t, exec (.phaseSrcSignalLow d) s = .next t ∧ t.die[d].state = .safe ∧ t.die[d].lp = Vector.replicate 16 DieLoop.reset ∧
      t.die[d].reports = s.die[d].reports ++ [.safeEntry 1] ∧ t.die[d].src = false ∧
      t.evq.take (s.evq.length + 1) = s.evq ++ [⟨0x0301, d.val, 1, s.clk.shelf⟩] ∧
      (∀ p : Fin 48, dieOf p = d → t.ph[p].pl.pwmh = false ∧ t.ph[p].pl.pwml = false ∧ t.ph[p].pl.pulse = none ∧ t.ph[p].iPh = 0) ∧
      (∀ p : Fin 48, dieOf p ≠ d → t.ph[p] = s.ph[p])) ∧
  (∀ (s : State) (d : Fin 4), s.die[d].state ≠ .safe →
    ∃ t, exec (.delayLineCalLost d) s = .next t ∧ t.die[d].state = .safe ∧ t.die[d].lp = Vector.replicate 16 DieLoop.reset ∧
      t.die[d].reports = s.die[d].reports ++ [.safeEntry 2] ∧ t.die[d].delayCal = false ∧
      t.evq.take (s.evq.length + 1) = s.evq ++ [⟨0x0301, d.val, 2, s.clk.shelf⟩] ∧
      (∀ p : Fin 48, dieOf p = d → t.ph[p].pl.pwmh = false ∧ t.ph[p].pl.pwml = false ∧ t.ph[p].pl.pulse = none ∧ t.ph[p].iPh = 0) ∧
      (∀ p : Fin 48, dieOf p ≠ d → t.ph[p] = s.ph[p])) ∧
  (∀ (s : State) (d : Fin 4), s.die[d].state = .safe → s.die[d].src = true → s.die[d].goodFrame = true → s.dieOn d = true →
    s.die[d].parityRun < 3 → s.wdogDue d = false →
    ∃ t, exec (.phaseDieArmed d) s = .next t ∧ t.die[d].state = .armed ∧ t.die[d].delayCal = true ∧
      t.die[d].reports = s.die[d].reports ++ [.armed] ∧ (∀ p : Fin 48, dieOf p = d → t.ph[p].calPending = some true) ∧
      (∀ p : Fin 48, dieOf p ≠ d → t.ph[p] = s.ph[p]))

/-- PHASE_CMD_FRAME and PHASE_REFRESH_FRAME at a die that can receive. -/
def Obligations.CommandFramesReachADie : Prop :=
  (∀ (s : State) (d : Fin 4) (f : CmdFrame) (fs : List CmdFrame), s.die[d].link = f :: fs → s.die[d].off = false → s.die[d].held = false →
    s.die[d].supplyLow = false → f.loop = none →
    ∃ t, exec (.phaseCmdFrame d true) s = .next t ∧ t.die[d].link = fs ∧ t.die[d].goodFrame = true ∧ t.die[d].parityRun = 0 ∧
      t.die[d].lp = s.die[d].lp ∧ t.die[d].state = s.die[d].state ∧ t.ph = s.ph) ∧
  (∀ (s : State) (d : Fin 4) (f : CmdFrame) (fs : List CmdFrame) (l : Fin 16), s.die[d].link = f :: fs → s.die[d].off = false →
    s.die[d].held = false → s.die[d].supplyLow = false → f.loop = some l → s.die[d].state ≠ .safe → s.die[d].lp[l].accept = false →
    s.die[d].lp[l].ignoreShed = false → f.stop = .none → f.start = false → f.exit = false →
    ∃ t, exec (.phaseCmdFrame d true) s = .next t ∧ t.die[d].link = fs ∧ t.die[d].goodFrame = true ∧ t.die[d].lp[l].icmd = f.icmd ∧
      t.die[d].lp[l].seq = f.seq ∧ t.die[d].lp[l].preload = f.preload ∧ t.die[d].lp[l].arm = f.arm ∧
      t.die[d].lp[l].maskNext = f.shedMask ∧ t.die[d].lp[l].factor = f.factor ∧ t.die[d].lp[l].run = s.die[d].lp[l].run ∧
      (∀ k : Fin 16, k ≠ l → t.die[d].lp[k] = s.die[d].lp[k]) ∧ t.die[d].state = s.die[d].state) ∧
  (∀ (s : State) (d : Fin 4) (f : CmdFrame) (fs : List CmdFrame), s.die[d].link = f :: fs → s.die[d].off = false → s.die[d].held = false →
    s.die[d].supplyLow = false → s.die[d].parityRun < 2 →
    ∃ t, exec (.phaseCmdFrame d false) s = .next t ∧ t.die[d].link = fs ∧ t.die[d].goodFrame = s.die[d].goodFrame ∧
      t.die[d].parityRun = s.die[d].parityRun + 1 ∧ t.die[d].parityErr = bump s.die[d].parityErr ∧ t.die[d].lp = s.die[d].lp ∧
      t.die[d].state = s.die[d].state ∧ t.ph = s.ph) ∧
  (∀ (s : State) (d : Fin 4) (f : CmdFrame) (fs : List CmdFrame), s.die[d].link = f :: fs → s.die[d].off = false → s.die[d].held = false →
    s.die[d].supplyLow = false → 2 ≤ s.die[d].parityRun → s.die[d].state ≠ .safe →
    ∃ t, exec (.phaseCmdFrame d false) s = .next t ∧ t.die[d].state = .safe ∧ t.die[d].reports = s.die[d].reports ++ [.safeEntry 3] ∧
      t.die[d].parityErr = bump s.die[d].parityErr) ∧
  (∀ (s : State) (d : Fin 4), s.die[d].src = true → s.die[d].off = false → s.die[d].held = false → s.die[d].supplyLow = false →
    s.refreshFrames d = [idleFrame] →
    ∃ t, exec (.phaseRefreshFrame d true) s = .next t ∧ t.die[d].goodFrame = true ∧ t.die[d].parityRun = 0 ∧ t.die[d].lp = s.die[d].lp ∧
      t.die[d].link = s.die[d].link ∧ t.die[d].state = s.die[d].state ∧ t.ph = s.ph)

/-- PHASE_ADC_SAMPLE and PHASE_CAL_DONE. Where the spec leaves a value, an order or an instant open these clauses state the choice of the model: log entries 10, 11, 12, 13, 120, 135. -/
def Obligations.PhaseMeasures : Prop :=
  (∀ (s : State) (p : Fin 48) (code : Int) (w : Nat), s.dieOn (dieOf p) = true → s.ph[p].pl.pulse ≠ none →
    ∃ t, exec (.phaseAdcSample p code w) s = .next t ∧ t.ph[p].adc = s.senseMa p code ∧
      t.ph[p].onS = s.ph[p].onS ++ [(w, s.senseMa p code)] ∧ t.ph[p].offS = s.ph[p].offS ∧ t.ph[p].pl = s.ph[p].pl ∧
      t.pst[p].winSum = s.pst[p].winSum + s.senseMa p code ∧ t.pst[p].winSq = s.pst[p].winSq + (s.senseMa p code).natAbs ^ 2 ∧
      t.pst[p].winN = s.pst[p].winN + 1) ∧
  (∀ (s : State) (p : Fin 48) (code : Int) (w : Nat), s.dieOn (dieOf p) = true → s.ph[p].pl.pulse = none →
    s.par P.PHASE_SENSE p ≠ 1 → s.parNow P.PHASE_OUT_MODE p ≠ 2 →
    ∃ t, exec (.phaseAdcSample p code w) s = .next t ∧ t.ph[p].adc = s.senseMa p code ∧
      t.ph[p].offS = s.ph[p].offS ++ [(w, s.senseMa p code)] ∧ t.ph[p].onS = s.ph[p].onS ∧ t.ph[p].pl = s.ph[p].pl) ∧
  (∀ (s : State) (p : Fin 48) (sum : Int), s.ph[p].calPending = some true → (s.offsetUv p sum).natAbs ≤ 3000 →
    ∃ t, exec (.phaseCalDone p sum) s = .next t ∧ t.ph[p].offset = s.offsetUv p sum ∧ t.ph[p].inService = true ∧
      t.ph[p].calFail = false ∧ t.ph[p].calPending = none ∧ t.evq = s.evq) ∧
  (∀ (s : State) (p : Fin 48) (sum : Int), s.ph[p].calPending = some false → (s.offsetUv p sum).natAbs ≤ 3000 →
    ∃ t, exec (.phaseCalDone p sum) s = .next t ∧ t.ph[p].offset = s.offsetUv p sum ∧ t.ph[p].inService = s.ph[p].inService ∧
      t.ph[p].calFail = s.ph[p].calFail ∧ t.ph[p].calPending = none ∧ t.evq = s.evq) ∧
  (∀ (s : State) (p : Fin 48) (sum : Int), s.ph[p].calPending ≠ none → 3000 < (s.offsetUv p sum).natAbs →
    ∃ t, exec (.phaseCalDone p sum) s = .next t ∧ t.ph[p].offset = s.offsetUv p sum ∧ t.ph[p].inService = false ∧
      t.ph[p].calFail = true ∧ t.evq = s.evq ++ [⟨0x0304, p.val, toWord 64 (s.offsetUv p sum), s.clk.shelf⟩])

/-- VS_CONVERSION, VS_OVERSHOOT_ENTER, VS_OVERSHOOT_RELEASE, VS_UNDERSHOOT_ENTER and VS_UNDERSHOOT_RELEASE. Where the spec leaves a value, an order or an instant open these clauses state the choice of the model: log entries 120, 121. -/
def Obligations.VoltageWindows : Prop :=
  (∀ (s : State) (v : Fin 16) (pin : Int) (w : Nat) (l : Fin 16), s.dieOn (vsDie v) = true → s.loopOfVs v = some l → w % 1600 = 0 → 0 < w →
    w ≤ s.loop[l].tm.p →
    ∃ t, exec (.vsConversion v pin w) s = .next t ∧ t.vs[v].last = vsCode pin ∧ t.vs[v].convs = s.vs[v].convs ++ [(w, vsCode pin)] ∧
      t.vs[v].ovs = s.vs[v].ovs ∧ t.vs[v].uvs = s.vs[v].uvs ∧ ∀ u : Fin 16, u ≠ v → t.vs[u] = s.vs[u]) ∧
  (∀ (s : State) (v : Fin 16) (pin : Int) (w : Nat) (l : Fin 16), s.dieOn (vsDie v) = true → s.loopOfVs v = some l →
    (w % 1600 ≠ 0 ∨ w = 0 ∨ s.loop[l].tm.p < w) →
    ∃ t, exec (.vsConversion v pin w) s = .next t ∧ t = s) ∧
  (∀ (s : State) (v : Fin 16) (pin : Int) (l : Fin 16), s.dieOn (vsDie v) = true → s.loopOfVs v = some l → s.ovsEn v = true →
    s.overOvs v pin = true → s.vs[v].ovs = false →
    ∃ t, exec (.vsOvershootEnter v pin) s = .next t ∧ t.vs[v].ovs = true ∧ t.vs[v].since = s.clk.tick ∧ t.vs[v].extreme = pin ∧
      t.evq = s.evq ∧ ∀ p : Fin 48, s.loopOf p = some l → t.ph[p].pl.pulse ≠ some .fwd ∧ t.inOvs p = true) ∧
  (∀ (s : State) (v : Fin 16) (pin : Int), s.loopOfVs v = none →
    ∃ t, exec (.vsOvershootEnter v pin) s = .next t ∧ t = s ∧ exec (.vsUndershootEnter v pin) s = .next t) ∧
  (∀ (s : State) (v : Fin 16) (pin : Int), s.dieOn (vsDie v) = true → s.vs[v].ovs = true → s.ovsOver v pin = true →
    ∃ t, exec (.vsOvershootRelease v pin) s = .next t ∧ t.vs[v].ovs = false ∧ t.ph = s.ph ∧
      t.evq = s.evq ++ [⟨0x0307, v.val, toWord 64 (lohi ((s.clk.tick - s.vs[v].since) * 4 : Nat) s.vs[v].extreme), s.clk.shelf⟩] ∧
      ∀ (p : Fin 48) (l : Fin 16), s.loopOf p = some l → s.parNowN P.LOOP_VS_SEL l = v.val → t.inOvs p = false) ∧
  (∀ (s : State) (v : Fin 16) (pin : Int) (l : Fin 16), s.dieOn (vsDie v) = true → s.loopOfVs v = some l → s.uvsEn v = true →
    s.underUvs v pin = true → s.vs[v].uvs = false →
    ∃ t, exec (.vsUndershootEnter v pin) s = .next t ∧ t.vs[v].uvs = true ∧ t.vs[v].since = s.clk.tick ∧ t.vs[v].extreme = pin ∧
      ∀ p : Fin 48, s.loopOf p = some l → s.ph[p].inService = true → s.dieRuns p = true → s.ph[p].calPending = none →
        s.ph[p].pl.pulse = none → s.ph[p].pl.toff = false → s.ph[p].pl.pwmh = false → s.ph[p].pl.pwml = false →
        t.ph[p].pl.pulse = some .fwd ∧ t.ph[p].pl.forced = true) ∧
  (∀ (s : State) (v : Fin 16) (pin : Int), s.dieOn (vsDie v) = true → s.vs[v].uvs = true → s.uvsOver v pin = true →
    ∃ t, exec (.vsUndershootRelease v pin) s = .next t ∧ t.vs[v].uvs = false ∧ t.ph = s.ph ∧
      t.evq = s.evq ++ [⟨0x0308, v.val, toWord 64 (lohi ((s.clk.tick - s.vs[v].since) * 4 : Nat) s.vs[v].extreme), s.clk.shelf⟩])

/-- PHASE_FEED_LOSS_LATCH, in each of its cases. -/
def Obligations.FeedLossLatchesThePreload : Prop :=
  (∀ (s : State) (d : Fin 4) (l : Fin 16), s.bank.latch[d] = true → s.die[d].state ≠ .safe → s.die[d].lp[l].arm = true →
    s.die[d].lp[l].accept = false → s.die[d].lp[l].hu = false →
    ∃ t, exec (.phaseFeedLossLatch d) s = .next t ∧ t.die[d].state = .run ∧ t.die[d].lp[l].icmd = s.die[d].lp[l].preload ∧
      t.die[d].lp[l].accept = true ∧ t.die[d].lp[l].run = true ∧ t.die[d].lp[l].stopping = false ∧ t.evq = s.evq ∧
      t.bank.latch[d] = false) ∧
  (∀ (s : State) (d : Fin 4) (l : Fin 16), (s.die[d].lp[l].arm = false ∨ s.die[d].lp[l].accept = true ∨
      s.die[d].lp[l].hu = true) →
    ∃ t, exec (.phaseFeedLossLatch d) s = .next t ∧ t.die[d].lp[l] = s.die[d].lp[l] ∧ t.evq = s.evq) ∧
  (∀ (s : State) (d : Fin 4), s.die[d].state = .safe →
    ∃ t, exec (.phaseFeedLossLatch d) s = .next t ∧ t.die = s.die ∧ t.ph = s.ph ∧ t.evq = s.evq) ∧
  (∀ (s : State) (d : Fin 4), s.bank.latch[d] = false → ∃ t, exec (.phaseFeedLossLatch d) s = .next t ∧ t = s)

/-- PHASE_DIE_REPORT and PHASE_TLM_PUBLISH. Where the spec leaves a value, an order or an instant open these clauses state the choice of the model: log entries 18, 19. -/
def Obligations.DieReportsReachTheStems : Prop :=
  (∀ (s : State) (d : Fin 4) (l : Fin 16) (cause mask : Nat) (rs : List DieReport), s.hasActive = true → s.die[d].reports = .shedAbort l cause mask :: rs →
    ∃ t, exec (.phaseDieReport d) s = .next t ∧ t.die[d].reports = rs ∧ t.ord = s.ord + 1 ∧ t.loop[l].eb.abortSeen = true ∧
      t.loop[l].eb.holdOff = true ∧ t.loop[l].eb.mask = 0 ∧ t.loop[l].ct = s.loop[l].ct ∧
      t.evq = s.evq ++ [⟨0x0512, l.val, toWord 64 (cause + mask * 256 : Nat), s.clk.shelf⟩]) ∧
  (∀ (s : State) (d : Fin 4) (l : Fin 16) (sum : Int) (rs : List DieReport), s.hasActive = true → s.die[d].reports = .currentSum l sum :: rs →
    ∃ t, exec (.phaseDieReport d) s = .next t ∧ t.die[d].reports = rs ∧ t.ord = s.ord + 1 ∧ t.loop = s.loop ∧ t.ph = s.ph) ∧
  (∀ (s : State) (d : Fin 4) (cause : Nat) (rs : List DieReport), s.hasActive = true → s.die[d].reports = .safeEntry cause :: rs →
    ∃ t, exec (.phaseDieReport d) s = .next t ∧ t.die[d].reports = rs ∧ t.ord = s.ord + 1 ∧
      ∀ l : Fin 16, (s.diesOf l).contains d = true → t.live l = false) ∧
  (∀ (s : State) (d : Fin 4) (rs : List DieReport), s.hasActive = true → s.die[d].reports = .armed :: rs →
    ∃ t, exec (.phaseDieReport d) s = .next t ∧ t.die[d].reports = rs ∧ t.ord = s.ord + 1 ∧ t.loop = s.loop ∧ t.ph = s.ph) ∧
  (∀ (s : State) (d : Fin 4), s.die[d].reports = [] ∨ s.hasActive = false → ∃ t, exec (.phaseDieReport d) s = .next t ∧ t = s) ∧
  (∀ (s : State) (fast : Bool), ∃ t, exec (.phaseTlmPublish fast) s = .next t ∧ t.ord = s.ord ∧ t.evq = s.evq ∧ t.ph = s.ph ∧
    (s.hasActive = false → t = s) ∧
    ((∀ p : Fin 48, s.ph[p].inService = false) → t = s))

/-- LOOP_PERIOD_START, SS_FREQUENCY_DRAW and SLOT_ROTATION. Where the spec leaves a value, an order or an instant open these clauses state the choice of the model: log entries 12, 14, 25, 120, 125, 136. -/
def Obligations.LoopPeriodStarts : Prop :=
  (∀ (s : State) (l : Fin 16), s.anyDie = true → s.live l = true → s.loop[l].tm.fresh = true →
    ∃ t, exec (.loopPeriodStart l) s = .next t ∧ t.loop[l].tm.number = s.loop[l].tm.number + 1 ∧ t.loop[l].tm.fresh = false ∧
      t.loop[l].tm.pLast = s.loop[l].tm.p ∧
      (s.par P.LOOP_SS_MODE l = 0 → t.loop[l].tm.p = (nearHalfDown 8000000000 (s.par P.LOOP_FSW l)).toNat) ∧ t.ord = s.ord + 1 ∧
      t.loop[l].samples.map (fun q => (q.ord, q.period)) =
        s.loop[l].samples.map (fun q => (q.ord, q.period)) ++ [(s.ord + 1, s.loop[l].tm.number)] ∧
      (s.par P.LOOP_SAMPLE_MODE l = 1 →
        t.loop[l].samples.map (fun q => q.time) = s.loop[l].samples.map (fun q => q.time) ++ [s.clk.shelf]) ∧
      t.loop[l].ct = s.loop[l].ct) ∧
  (∀ (s : State) (l : Fin 16), s.anyDie = true → s.live l = true → s.loop[l].tm.fresh = false →
    (s.loop[l].tm.runPeriods + 1) % s.parNowN P.LOOP_SAMPLE_DIV l ≠ 0 →
    ∃ t, exec (.loopPeriodStart l) s = .next t ∧ t.loop[l].tm.number = s.loop[l].tm.number + 1 ∧
      t.loop[l].tm.runPeriods = s.loop[l].tm.runPeriods + 1 ∧ t.ord = s.ord ∧ t.loop[l].samples = s.loop[l].samples ∧
      t.loop[l].tm.sinceSample = s.loop[l].tm.sinceSample + s.loop[l].tm.p) ∧
  (∀ (s : State) (l : Fin 16), s.anyDie = true → s.live l = false →
    ∃ t, exec (.loopPeriodStart l) s = .next t ∧ t.loop[l].tm.number = s.loop[l].tm.number + 1 ∧ t.ord = s.ord ∧
      t.loop[l].samples = s.loop[l].samples) ∧
  (∀ (s : State) (l : Fin 16), s.anyDie = false → ∃ t, exec (.loopPeriodStart l) s = .next t ∧ t = s) ∧
  (∀ (s : State) (l : Fin 16), s.parNow P.LOOP_SS_MODE l = 2 → s.live l = true →
    ∃ t, exec (.ssFrequencyDraw l) s = .next t ∧ t.loop[l].tm.ssLfsr = lfsrStep s.loop[l].tm.ssLfsr ∧
      t.loop[l].tm.ssStep = lfsrStep s.loop[l].tm.ssLfsr % 256 ∧ t.loop[l].ct = s.loop[l].ct ∧
      ∀ k : Fin 16, k ≠ l → t.loop[k] = s.loop[k]) ∧
  (∀ (s : State) (l : Fin 16), (s.parNow P.EBB_ROT_EN l = 1 ∨ s.loop[l].tm.rotForce = true) →
    2 ^ (if s.loop[l].tm.rotForce = true then 4 else s.parNowN P.EBB_ROT_EXP l) ≤ s.loop[l].tm.rotCount →
    ∃ t, exec (.slotRotation l) s = .next t ∧ t.loop[l].tm.rotLfsr = lfsrStep s.loop[l].tm.rotLfsr ∧
      t.loop[l].tm.rotNow = lfsrStep s.loop[l].tm.rotLfsr ∧ t.loop[l].tm.rotCount = 0 ∧
      t.loop[l].ct = s.loop[l].ct ∧ ∀ k : Fin 16, k ≠ l → t.loop[k] = s.loop[k]) ∧
  (∀ (s : State) (l : Fin 16), ((s.parNow P.EBB_ROT_EN l ≠ 1 ∧ s.loop[l].tm.rotForce = false) ∨
      s.loop[l].tm.rotCount < 2 ^ (if s.loop[l].tm.rotForce = true then 4 else s.parNowN P.EBB_ROT_EXP l)) →
    ∃ t, exec (.slotRotation l) s = .next t ∧ t = s)

/-- LOOP_EVALUATION in the RUNNING state (and with no sample). Where the spec leaves a value, an order or an instant open these clauses state the choice of the model: log entries 10, 15, 23, 24, 122. -/
def Obligations.EvaluationComputesTheCommand : Prop :=
  (∀ s : State, s.nextLoop = none → ∃ t, exec .loopEvaluation s = .next t ∧ t = s) ∧
  (∀ (s : State) (l : Fin 16) (q : Sample), s.nextLoop = some l → s.loop[l].samples = [q] → s.loop[l].ct.state = .running →
    s.loop[l].ct.huEnter = none → s.loop[l].ct.exitAt = none → s.loop[l].ct.first = false → s.loop[l].ct.region < s.regions l →
    s.loop[l].ct.region < 4 → s.ocModeOf l s.loop[l].ct.region ≠ 1 → q.fwdHold = false → q.revHold = false →
    ∃ t, exec .loopEvaluation s = .next t ∧ t.loop[l].samples = [] ∧ t.loop[l].ct.state = .running ∧
      t.loop[l].ct.y = sampleY (s.parNow P.LOOP_KIND l) q ∧ t.loop[l].ct.e2 = s.loop[l].ct.e1 ∧ t.loop[l].ct.e3 = s.loop[l].ct.e2 ∧
      t.loop[l].ct.v2 = s.loop[l].ct.v1 ∧
      t.loop[l].ct.e1 = sat24 ((if s.parNow P.LOOP_KIND l = 0 ∧ s.parNow P.LOOP_DROOP l ≠ 0
        then nearEven t.loop[l].ct.ref8 8000000 - nearEven (s.parNow P.LOOP_DROOP l * q.i) 1000
        else nearEven t.loop[l].ct.ref8 8000000) - t.loop[l].ct.y) ∧
      t.loop[l].ct.v1 = sat48 (increment (s.parNow P.SCHED_B0 (l.val * 8 + s.loop[l].ct.region))
        (s.parNow P.SCHED_B1 (l.val * 8 + s.loop[l].ct.region)) (s.parNow P.SCHED_B2 (l.val * 8 + s.loop[l].ct.region))
        (s.parNow P.SCHED_B3 (l.val * 8 + s.loop[l].ct.region)) (s.parNow P.SCHED_A1 (l.val * 8 + s.loop[l].ct.region))
        (s.parNow P.SCHED_A2 (l.val * 8 + s.loop[l].ct.region)) t.loop[l].ct.e1 s.loop[l].ct.e1 s.loop[l].ct.e2 s.loop[l].ct.e3
        s.loop[l].ct.v1 s.loop[l].ct.v2) ∧
      t.loop[l].ct.x = clampI ((s.bounds l q.ord).1 * 2 ^ 24) ((s.bounds l q.ord).2 * 2 ^ 24)
        (nearEven (s.parNow P.SCHED_P0 (l.val * 8 + s.loop[l].ct.region) * s.loop[l].ct.x) (2 ^ 24) + t.loop[l].ct.v1) ∧
      t.loop[l].ct.icmd = cmdOf t.loop[l].ct.x ∧ t.loop[l].ct.seq = s.loop[l].ct.seq + 1 ∧
      ∀ k : Fin 16, k ≠ l → t.loop[k].samples = s.loop[k].samples ∧ t.loop[k].ct.x = s.loop[k].ct.x)

/-- LOOP_CTRL_START, LOOP_CTRL_STOP and LOOP_CTRL_CLEAR. Where the spec leaves a value, an order or an instant open these clauses state the choice of the model: log entries 16, 28, 60, 136, 137. -/
def Obligations.LoopControls : Prop :=
  (∀ (s : State) (l : Fin 16) (k : Fin 8), s.mayControl k [0] = true → s.par P.LOOP_ENABLE l ≠ 0 → s.loop[l].ct.state = .stopped →
    s.canStart l = true →
    ∃ t, exec (.loopCtrlStart l k) s = .next t ∧ t.host.ctl = stOk ∧ t.loop[l].ct.state = .starting ∧ t.loop[l].ct.x = 0 ∧
      t.loop[l].ct.icmd = 0 ∧ t.loop[l].ct.e1 = 0 ∧ t.loop[l].ct.v1 = 0 ∧ t.loop[l].ct.first = true ∧ t.loop[l].tm.fresh = true ∧
      t.loop[l].ct.seq = s.loop[l].ct.seq + 1 ∧ ∀ j : Fin 16, j ≠ l → t.loop[j] = s.loop[j]) ∧
  (∀ (s : State) (l : Fin 16) (k : Fin 8), s.mayControl k [0] = true → s.par P.LOOP_ENABLE l ≠ 0 → s.loop[l].ct.state = .stopped →
    s.canStart l = false →
    ∃ t, exec (.loopCtrlStart l k) s = .next t ∧ t.host.ctl = stOk ∧ t.loop[l].ct.state = .stopped ∧ t.loop[l].ct.cause = 4 ∧
      t.evq = s.evq ++ [⟨0x0403, l.val, toWord 64 (lohi 4 s.loop[l].ct.icmd), s.clk.shelf⟩]) ∧
  (∀ (s : State) (l : Fin 16) (k : Fin 8), s.mayControl k [0] = true → s.par P.LOOP_ENABLE l = 0 →
    ∃ t, exec (.loopCtrlStart l k) s = .next t ∧ t.host.ctl = stBusy ∧ t.loop = s.loop ∧ t.evq = s.evq) ∧
  (∀ (s : State) (l : Fin 16) (k : Fin 8), s.mayControl k [0] = true → s.loop[l].ct.state = .running → s.loop[l].ct.region < 4 →
    ∃ t, exec (.loopCtrlStop l k) s = .next t ∧ t.host.ctl = stOk ∧ t.loop[l].ct.state = .stopped ∧ t.loop[l].ct.cause = 0 ∧
      t.loop[l].ct.icmd = 0 ∧ t.loop[l].ct.x = 0 ∧
      ⟨0x0403, l.val, toWord 64 (lohi 0 s.loop[l].ct.icmd), s.clk.shelf⟩ ∈ t.evq ∧ ∀ j : Fin 16, j ≠ l → t.loop[j] = s.loop[j]) ∧
  (∀ (s : State) (l : Fin 16) (k : Fin 8), s.mayControl k [0] = true → s.loop[l].ct.state = .faulted →
    ∃ t, exec (.loopCtrlClear l k) s = .next t ∧ t.host.ctl = stOk ∧ t.loop[l].ct.state = .stopped ∧ t.loop[l].oc.st = .idle ∧
      t.loop[l].oc.retries = 0 ∧
      t.evq.take (s.evq.length + 1) = s.evq ++ [⟨0x040A, l.val, toWord 64 s.loop[l].ct.cause, s.clk.shelf⟩])

/-- FOLLOW_ERR_EXPIRE and FAULT_STATUS_RELEASE. -/
def Obligations.FollowingErrorActs : Prop :=
  (∀ (s : State) (l : Fin 16), s.live l = true → s.ferrDue l = true → s.parNow P.LOOP_FERR_ACTION l = 0 →
    ∃ t, exec (.followErrExpire l) s = .next t ∧ t.loop[l].ct.ferrCnt = bump s.loop[l].ct.ferrCnt ∧ t.loop[l].fl.ferr = true ∧
      t.loop[l].ct.ferrT = some 0 ∧ t.loop[l].ct.state = s.loop[l].ct.state ∧
      t.evq = s.evq ++ [⟨0x0404, l.val, toWord 64 (nearEven s.loop[l].ct.ref8 8000000 - s.loop[l].ct.y).natAbs, s.clk.shelf⟩] ∧
      ∀ j : Fin 16, j ≠ l → t.loop[j] = s.loop[j]) ∧
  (∀ (s : State) (l : Fin 16), s.live l = true → s.ferrDue l = true → s.parNow P.LOOP_FERR_ACTION l = 1 →
    ∃ t, exec (.followErrExpire l) s = .next t ∧ t.loop[l].ct.state = .stopped ∧ t.loop[l].ct.cause = 2 ∧
      t.loop[l].ct.ferrCnt = bump s.loop[l].ct.ferrCnt ∧
      ⟨0x0403, l.val, toWord 64 (lohi 2 s.loop[l].ct.icmd), s.clk.shelf⟩ ∈ t.evq) ∧
  (∀ (s : State) (l : Fin 16), s.live l = true → s.ferrDue l = true → 2 ≤ s.parNow P.LOOP_FERR_ACTION l →
    ∃ t, exec (.followErrExpire l) s = .next t ∧ t.loop[l].ct.state = .faulted ∧ t.loop[l].ct.cause = 2 ∧
      t.loop[l].ct.ferrCnt = bump s.loop[l].ct.ferrCnt ∧
      ⟨0x0403, l.val, toWord 64 (lohi 2 s.loop[l].ct.icmd), s.clk.shelf⟩ ∈ t.evq) ∧
  (∀ (s : State) (l : Fin 16), s.ferrDue l = false → ∃ t, exec (.followErrExpire l) s = .next t ∧ t = s) ∧
  (∀ (s : State) (k : Fin 8) (v : Nat), s.mayControl k [0] = true → s.fault.hold = false →
    ∃ t, exec (.faultStatusRelease k v) s = .next t ∧ t.host.ctl = stOk ∧ t.evq = s.evq ∧ t.loop = s.loop ∧
      ∀ m : Fin 4, t.fault.pin[m] = (s.fault.pin[m] && !(bit v m.val && decide (s.faultSources m = 0)))) ∧
  (∀ (s : State) (k : Fin 8) (v : Nat), s.mayControl k [0] = true → s.fault.hold = true →
    ∃ t, exec (.faultStatusRelease k v) s = .next t ∧ t.host.ctl = stOk ∧ t.fault = s.fault)

/-- LIMIT_REPORT, HICCUP_OFF_END, START_SHORT_EXPIRE and OC_CLEAN_TIME_END. Where the spec leaves a value, an order or an instant open these clauses state the choice of the model: log entries 21, 125, 137. -/
def Obligations.OvercurrentSupervision : Prop :=
  (∀ (s : State) (l : Fin 16) (r : LimRep), s.loop[l].oc.reps = [r] → r.waits = false → s.loop[l].oc.st = .watch →
    s.loop[l].oc.asm = [] → s.reporters l = [r.die] → s.parNow P.LOOP_OC_WINDOW l = 0 →
    s.loop[l].oc.count + 1 < s.parNowN P.LOOP_OC_COUNT l →
    ∃ t, exec (.limitReport l) s = .next t ∧ t.loop[l].oc.reps = [] ∧ t.ord = s.ord + 1 ∧
      t.loop[l].oc.count = (if r.limited = true then s.loop[l].oc.count + 1 else 0) ∧
      t.loop[l].oc.st = (if r.limited = true then .counting else .watch) ∧ t.loop[l].ct = s.loop[l].ct ∧ t.evq = s.evq) ∧
  (∀ (s : State) (l : Fin 16) (r : LimRep), s.loop[l].oc.reps = [r] → r.waits = false → r.limited = true → s.loop[l].oc.st = .watch →
    s.loop[l].oc.asm = [] → s.reporters l = [r.die] → s.parNow P.LOOP_OC_WINDOW l = 0 → s.live l = true → s.loop[l].oc.mode = 0 →
    s.parNowN P.LOOP_OC_COUNT l ≤ s.loop[l].oc.count + 1 → s.loop[l].oc.retries < s.parNowN P.LOOP_OC_RETRIES l →
    s.loop[l].oc.shortAt ≠ some r.period →
    ∃ t, exec (.limitReport l) s = .next t ∧ t.loop[l].ct.state = .hiccupOff ∧ t.loop[l].oc.st = .off ∧
      t.loop[l].oc.trips = bump s.loop[l].oc.trips ∧ t.loop[l].oc.cause = 1 ∧ t.loop[l].ct.icmd = 0 ∧
      ⟨0x0501, l.val, toWord 64 (lohi (s.loop[l].oc.retries + 256 + (s.loop[l].oc.count + 1) * 65536 : Nat) s.loop[l].ct.vNow),
        s.clk.shelf⟩ ∈ t.evq) ∧
  (∀ (s : State) (l : Fin 16) (r : LimRep), s.loop[l].oc.reps = [r] → r.waits = false → r.limited = true → s.loop[l].oc.st = .watch →
    s.loop[l].oc.asm = [] → s.reporters l = [r.die] → s.parNow P.LOOP_OC_WINDOW l = 0 → s.live l = true → s.loop[l].oc.mode = 0 →
    s.parNowN P.LOOP_OC_COUNT l ≤ s.loop[l].oc.count + 1 → s.loop[l].oc.retries < s.parNowN P.LOOP_OC_RETRIES l →
    s.loop[l].oc.shortAt = some r.period →
    ∃ t, exec (.limitReport l) s = .next t ∧ t.loop[l].ct.state = .hiccupOff ∧ t.loop[l].oc.cause = 3 ∧
      t.loop[l].oc.trips = bump s.loop[l].oc.trips ∧ t.loop[l].oc.startShort = true ∧ t.loop[l].oc.shortT = none) ∧
  (∀ (s : State) (l : Fin 16), s.loop[l].ct.state = .hiccupOff → s.offDue l = true → s.loop[l].oc.retries < s.parN P.LOOP_OC_RETRIES l →
    s.canStart l = true →
    ∃ t, exec (.hiccupOffEnd l) s = .next t ∧ t.loop[l].ct.state = .starting ∧
      t.loop[l].oc.retries = min 255 (s.loop[l].oc.retries + 1) ∧ t.loop[l].oc.st = .watch ∧
      t.evq.take (s.evq.length + 1) = s.evq ++ [⟨0x0502, l.val, toWord 64 (min 255 (s.loop[l].oc.retries + 1) : Nat), s.clk.shelf⟩]) ∧
  (∀ (s : State) (l : Fin 16), s.loop[l].ct.state = .hiccupOff → s.offDue l = true → s.par P.LOOP_OC_RETRIES l = 255 →
    s.canStart l = true →
    ∃ t, exec (.hiccupOffEnd l) s = .next t ∧ t.loop[l].ct.state = .starting ∧
      t.loop[l].oc.retries = min 255 (s.loop[l].oc.retries + 1)) ∧
  (∀ (s : State) (l : Fin 16), s.loop[l].ct.state = .hiccupOff → s.offDue l = true → s.loop[l].oc.retries < s.parN P.LOOP_OC_RETRIES l →
    s.canStart l = false →
    ∃ t, exec (.hiccupOffEnd l) s = .next t ∧ t.loop[l].ct.state = .stopped ∧ t.loop[l].ct.cause = 4 ∧ t.loop[l].oc.retries = 0) ∧
  (∀ (s : State) (l : Fin 16), s.loop[l].ct.state = .hiccupOff → s.offDue l = true → s.parN P.LOOP_OC_RETRIES l ≤ s.loop[l].oc.retries →
    s.par P.LOOP_OC_RETRIES l ≠ 255 →
    ∃ t, exec (.hiccupOffEnd l) s = .next t ∧ t.loop[l].ct.state = .faulted ∧ t.loop[l].ct.cause = 3 ∧ t.loop[l].oc.st = .latched) ∧
  (∀ (s : State) (l : Fin 16) (q : Sample), s.loop[l].oc.shortAt = some q.period → s.loop[l].samples = [q] → s.loop[l].oc.mode = 1 →
    ∃ t, exec (.startShortExpire l) s = .next t ∧ t.loop[l].oc.shortT = none ∧ t.loop[l].oc.startShort = true ∧
      t.loop[l].ct = s.loop[l].ct ∧
      t.evq = s.evq ++ [⟨0x0504, l.val, toWord 64 (clampI (-8388608) 8388607 q.v), s.clk.shelf⟩]) ∧
  (∀ (s : State) (l : Fin 16), s.loop[l].oc.shortAt ≠ none → s.loop[l].oc.mode = 0 →
    (∀ r ∈ s.loop[l].oc.reps, some r.period ≠ s.loop[l].oc.shortAt) → s.loop[l].oc.count < s.parNowN P.LOOP_OC_COUNT l →
    ∃ t, exec (.startShortExpire l) s = .next t ∧ t.live l = false ∧ t.loop[l].oc.startShort = true ∧
      t.loop[l].oc.trips = bump s.loop[l].oc.trips ∧ t.loop[l].oc.cause = 2) ∧
  (∀ (s : State) (l : Fin 16), s.loop[l].oc.shortAt = none → ∃ t, exec (.startShortExpire l) s = .next t ∧ t = s) ∧
  (∀ (s : State) (l : Fin 16), s.loop[l].oc.st = .watch → s.loop[l].ct.state = .running → s.cleanDue l = true →
    ∃ t, exec (.ocCleanTimeEnd l) s = .next t ∧ t.loop[l].oc = { s.loop[l].oc with retries := 0 } ∧ t.loop[l].ct = s.loop[l].ct)

/-- SHED_COMPLETE, SHED_ABORT, EBB_HOLDOFF_END and EBB_WINDOW_END. Where the spec leaves a value, an order or an instant open these clauses state the choice of the model: log entries 19, 22, 29, 31, 125, 137. -/
def Obligations.EbbSheds : Prop :=
  (∀ (s : State) (p : Fin 48) (l : Fin 16), s.loopOf p = some l → s.shedDone p = true →
    ∃ t, exec (.shedComplete p) s = .next t ∧ t.ph[p].shed = .shed ∧ t.ph[p].pl.pwmh = false ∧ t.ph[p].pl.pwml = false ∧
      t.loop[l].eb.shedCnt = bump s.loop[l].eb.shedCnt ∧ t.loop[l].ct = s.loop[l].ct ∧
      t.evq = s.evq ++ [⟨0x0510, p.val, toWord 64 ((s.activeOf l).filter (fun q => q ≠ p)).length, s.clk.shelf⟩]) ∧
  (∀ (s : State) (d : Fin 4) (l : Fin 16) (cause : Nat), s.abortCause d l cause = true →
    ∃ t, exec (.shedAbort d l cause) s = .next t ∧ t.die[d].lp[l].maskNext = 0 ∧ t.die[d].lp[l].ignoreShed = true ∧
      t.die[d].reports = s.die[d].reports ++ [.shedAbort l cause
        (((s.phasesOn d l).filter (fun p => s.ph[p].shed == .shed)).map (fun p => 2 ^ p.val)).sum] ∧ t.evq = s.evq ∧
      ∀ p : Fin 48, dieOf p = d → s.loopOf p = some l → s.ph[p].shed = .shedding → t.ph[p].shed = .active) ∧
  (∀ (s : State) (l : Fin 16), s.holdoffDue l = true →
    ∃ t, exec (.ebbHoldoffEnd l) s = .next t ∧ t.loop[l].eb = { s.loop[l].eb with holdOff := false } ∧
      t.loop[l].ct = s.loop[l].ct ∧ ∀ j : Fin 16, j ≠ l → t.loop[j] = s.loop[j]) ∧
  (∀ (s : State) (l : Fin 16), s.holdoffDue l = false → ∃ t, exec (.ebbHoldoffEnd l) s = .next t ∧ t = s) ∧
  (∀ (s : State) (entropy : Nat), s.hasActive = true →
    ∃ t, exec (.ebbWindowEnd entropy) s = .next t ∧ ∀ p : Fin 48, t.pst[p].winN = 0 ∧ t.pst[p].winSum = 0 ∧ t.pst[p].winSq = 0 ∧
      t.pst[p].iMean = (if s.pst[p].winN = 0 then 0 else nearHalfAway s.pst[p].winSum s.pst[p].winN) ∧
      t.pst[p].iRms = (if s.pst[p].winN = 0 then 0 else isqrt (s.pst[p].winSq / s.pst[p].winN)) ∧ t.ph[p].maxdutyWin = 0)

/-- R181, as the stems know it: FEED_FAULT is source 6 and FEED_LOSS source 7 of DEV_FAULT_SRC (R148). That the sources follow the stamped
reports and the stamped line is the model's choice. Where the spec leaves a value, an order or an instant open these clauses state the choice of the model: log entry 83. -/
def Obligations.FeedFaultSources : Prop :=
  ∀ (s : State) (m : Fin 4),
    ((s.faultActive m).testBit 6 = true ↔ ∃ f : Fin 2, s.bank.seen.feed[f].state = .tripped ∨ s.bank.seen.feed[f].state = .lockout) ∧
    ((s.faultActive m).testBit 7 = true ↔ s.bank.seenLine = true)

/-- BANK_METERING_STEP. A step of 32 µs of 1 mV times 1 mA is 32 units of 1 pJ; 10^9 of them are 1 mJ. Where the spec leaves a value, an order or an instant open these clauses state the choice of the model: log entry 35. -/
def Obligations.MeteringStep : Prop :=
  (∀ (s : State) (raw : Vector Int 7), s.bank.on = true →
    ∃ t, exec (.bankMeteringStep raw) s = .next t ∧ t.bank.next = none ∧ t.bank.set = s.bank.next.getD s.bank.set ∧
      t.bank.vbus = t.chanMv raw 2 ∧
      (∀ f : Fin 2, t.bank.feed[f].v = t.chanMv raw 2 - t.chanMv raw ⟨3 + f.val, by omega⟩ ∧
        t.bank.feed[f].i = nearHalfAway (t.chan raw ⟨f.val, by omega⟩) (1000 * t.bpar P.FEED_RSHUNT f) ∧
        t.bank.feed[f].p = nearHalfAway (t.bank.feed[f].v * t.bank.feed[f].i) 1000000 ∧
        t.bank.feed[f].vOr = t.chanMv raw ⟨5 + f.val, by omega⟩ ∧
        t.bank.feed[f].vMain = t.chanMv raw ⟨5 + f.val, by omega⟩ - t.chanMv raw ⟨3 + f.val, by omega⟩ ∧
        t.bank.feed[f].eImpRem < 1000000000 ∧
        ((s.bank.feed[f].eImp * 1000000000 + s.bank.feed[f].eImpRem + (t.bank.feed[f].v * t.bank.feed[f].i * 32).toNat) / 1000000000) %
          2 ^ 64 = t.bank.feed[f].eImp) ∧
      (∃ q, t.bank.tlm.getLast? = some q ∧ q.step = true ∧ q.vbus = t.bank.vbus)) ∧
  (∀ (s : State) (raw : Vector Int 7), s.bank.on = false → ∃ t, exec (.bankMeteringStep raw) s = .next t ∧ t = s)

/-- FEED_INSERT_TIMER, FEED_PRE_OVERLAP_END, FEED_CLEAN_TIME_END, FEED_OR_ON_DELAY_END and FEED_TEST_END. -/
def Obligations.FeedConnects : Prop :=
  (∀ (s : State) (f : Fin 2), s.bank.feed[f].state = .insert →
    s.since (s.bank.feed[f].insAt.getD s.clk.tick) s.bank.feed[f].insLen 250000 = true → s.bank.feed[f].winOk = true → s.bankGo = true →
    s.bank.feed[f].dv.natAbs ≤ s.bparN P.FEED_PRE_DV f →
    ∃ t, exec (.feedInsertTimer f) s = .next t ∧ t.bank.feed[f].state = .connected ∧ t.bank.feed[f].gm = true ∧
      t.bank.feed[f].ideal = true ∧ t.bank.feed[f].go = false ∧ ∀ g : Fin 2, g ≠ f → t.bank.feed[g] = s.bank.feed[g]) ∧
  (∀ (s : State) (f : Fin 2), s.bank.feed[f].state = .insert →
    s.since (s.bank.feed[f].insAt.getD s.clk.tick) s.bank.feed[f].insLen 250000 = true → s.bank.feed[f].winOk = true → s.bankGo = true →
    s.bparN P.FEED_PRE_DV f < s.bank.feed[f].dv.natAbs → 0 ≤ s.bank.feed[f].dv → (∀ g : Fin 2, s.bank.feed[g].state ≠ .precharge) →
    ∃ t, exec (.feedInsertTimer f) s = .next t ∧ t.bank.feed[f].state = .precharge ∧ t.bank.feed[f].preAt = s.clk.tick ∧
      t.bank.feed[f].gm = false ∧ t.bank.feed[f].gp = (s.bpar P.FEED_INRUSH_MODE f != 1) ∧
      t.bank.feed[f].reg = (s.bpar P.FEED_INRUSH_MODE f == 1) ∧ t.bank.feed[f].ideal = true ∧
      ∀ g : Fin 2, g ≠ f → t.bank.feed[g] = s.bank.feed[g]) ∧
  (∀ (s : State) (f g : Fin 2), s.bank.feed[f].state = .insert →
    s.since (s.bank.feed[f].insAt.getD s.clk.tick) s.bank.feed[f].insLen 250000 = true → s.bank.feed[f].winOk = true → s.bankGo = true →
    s.bparN P.FEED_PRE_DV f < s.bank.feed[f].dv.natAbs → 0 ≤ s.bank.feed[f].dv → s.bank.feed[g].state = .precharge →
    ∃ t, exec (.feedInsertTimer f) s = .next t ∧ t.bank.feed[f].state = .insert ∧ t.bank.feed[f].insDone = true ∧
      t.bank.feed[g].state = .precharge) ∧
  (∀ (s : State) (f : Fin 2), s.bank.feed[f].overlap = true → s.since s.bank.feed[f].conAt (s.bparN P.FEED_PRE_OVERLAP f) 250 = true →
    ∃ t, exec (.feedPreOverlapEnd f) s = .next t ∧ t.bank.feed[f].gp = false ∧ t.bank.feed[f].overlap = false ∧
      t.bank.feed[f].gm = s.bank.feed[f].gm ∧ t.bank.feed[f].go = s.bank.feed[f].go ∧ t.bank.feed[f].state = s.bank.feed[f].state) ∧
  (∀ (s : State) (f : Fin 2), s.bank.feed[f].state = .connected →
    s.since s.bank.feed[f].conAt (s.bparN P.FEED_CLEAN_TIME f) 250000000 = true →
    ∃ t, exec (.feedCleanTimeEnd f) s = .next t ∧ t.bank.feed[f] = { s.bank.feed[f] with retries := 0 } ∧ t.evq = s.evq) ∧
  (∀ (s : State) (f : Fin 2) (ma : Int) (held : Nat), s.bank.feed[f].ideal = true → (s.bank.feed[f].go = false ∨ s.bank.feed[f].rev = true) →
    s.bpar P.FEED_OR_ON f < ma → s.bparN P.FEED_OR_ON_DLY f * 1000 ≤ held →
    ∃ t, exec (.feedOrOnDelayEnd ⟨f, ma, held⟩) s = .next t ∧ t.bank.feed[f].go = true ∧ t.bank.feed[f].rev = false ∧
      t.bank.feed[f].test = false ∧ t.bank.feed[f].state = s.bank.feed[f].state ∧ (s.bank.feed[f].rev = false → t.evq = s.evq)) ∧
  (∀ (s : State) (f : Fin 2) (ma : Int) (held : Nat), (ma ≤ s.bpar P.FEED_OR_ON f ∨ held < s.bparN P.FEED_OR_ON_DLY f * 1000) →
    ∃ t, exec (.feedOrOnDelayEnd ⟨f, ma, held⟩) s = .next t ∧ t = s) ∧
  (∀ (s : State) (f : Fin 2), s.bank.feed[f].test = true → s.since s.bank.feed[f].goAt (s.bparN P.FEED_T_GATE f) 250 = true →
    ∃ t, exec (.feedTestEnd f) s = .next t ∧ t.bank.feed[f].go = false ∧ t.bank.feed[f].test = false ∧
      t.bank.feed[f].rev = s.bank.feed[f].rev ∧ t.bank.feed[f].state = s.bank.feed[f].state)

/-- FEED_FAST_TRIP, FEED_PRE_TMAX_EXPIRE, FEED_SOA_TIMER_EXPIRE, FEED_RETRY_DELAY_END, FEED_FET_SHORT and FEED_GATE_FAIL: the next state
of each is its own effect, for every state. Where the spec leaves a value, an order or an instant open these clauses state the choice of the model: log entries 36, 126. -/
def Obligations.FeedTrips : Prop :=
  (∀ (s : State) (f : Fin 2) (i : Int), s.bank.on = true → (s.bank.feed[f].state = .precharge ∨ s.bank.feed[f].state = .connected) →
    min 1023 (s.bpar P.FEED_FAST_TRIP f * s.bpar P.FEED_RSHUNT f * 1024 / 200000000) * 200000000 < i * s.bpar P.FEED_RSHUNT f * 1024 →
    ∃ t, exec (.feedFastTrip f i) s = .next t ∧ t.bank.feed[f].state = .tripped ∧ t.bank.feed[f].gm = false ∧ t.bank.feed[f].gp = false ∧
      t.bank.feed[f].go = s.bank.feed[f].go ∧
      t.bank.feed[f].fast = true ∧ t.bank.feed[f].trips = bump s.bank.feed[f].trips ∧ t.bank.feed[f].retryRun = true ∧
      t.evq.take (s.evq.length + 1) = s.evq ++ [⟨0x0604, f.val, toWord 64 (lohi s.bank.feed[f].state.code i), s.clk.shelf⟩]) ∧
  (∀ (s : State) (f : Fin 2) (i : Int), (s.bank.on = false ∨ (s.bank.feed[f].state ≠ .precharge ∧ s.bank.feed[f].state ≠ .connected) ∨
      i * s.bpar P.FEED_RSHUNT f * 1024 ≤ min 1023 (s.bpar P.FEED_FAST_TRIP f * s.bpar P.FEED_RSHUNT f * 1024 / 200000000) * 200000000) →
    ∃ t, exec (.feedFastTrip f i) s = .next t ∧ t = s) ∧
  (∀ (s : State) (f : Fin 2), s.bank.feed[f].state = .precharge → s.since s.bank.feed[f].preAt s.bank.feed[f].preLen 250000 = true →
    ∃ t, exec (.feedPreTmaxExpire f) s = .next t ∧ t.bank.feed[f].state = .tripped ∧ t.bank.feed[f].gm = false ∧
      t.bank.feed[f].gp = false ∧ t.bank.feed[f].inrush = true ∧ t.bank.feed[f].trips = bump s.bank.feed[f].trips ∧
      t.bank.feed[f].retryRun = true ∧
      t.evq.take (s.evq.length + 1) = s.evq ++ [⟨0x0606, f.val, toWord 64 (lohi 1 s.bank.feed[f].dv), s.clk.shelf⟩]) ∧
  (∀ (s : State) (f : Fin 2), (s.bank.feed[f].state ≠ .precharge ∨ s.since s.bank.feed[f].preAt s.bank.feed[f].preLen 250000 = false) →
    ∃ t, exec (.feedPreTmaxExpire f) s = .next t ∧ t = s) ∧
  (∀ (s : State) (f : Fin 2), s.bank.feed[f].state = .precharge → s.bank.feed[f].soaLen * 1000 ≤ s.bank.feed[f].soaSteps * 32 →
    ∃ t, exec (.feedSoaTimerExpire f) s = .next t ∧ t.bank.feed[f].state = .tripped ∧ t.bank.feed[f].gm = false ∧
      t.bank.feed[f].gp = false ∧ t.bank.feed[f].inrush = true ∧ t.bank.feed[f].trips = bump s.bank.feed[f].trips ∧
      t.bank.feed[f].retryRun = true ∧
      t.evq.take (s.evq.length + 1) = s.evq ++ [⟨0x0606, f.val, toWord 64 (lohi 2 s.bank.feed[f].dv), s.clk.shelf⟩]) ∧
  (∀ (s : State) (f : Fin 2), (s.bank.feed[f].state ≠ .precharge ∨ s.bank.feed[f].soaSteps * 32 < s.bank.feed[f].soaLen * 1000) →
    ∃ t, exec (.feedSoaTimerExpire f) s = .next t ∧ t = s) ∧
  (∀ (s : State) (f : Fin 2), s.bank.feed[f].state = .tripped → s.bank.feed[f].retryRun = true →
    s.since s.bank.feed[f].tripAt s.bank.feed[f].retryLen 250000 = true → s.bankActs = true →
    (s.bank.feed[f].retries < s.bparN P.FEED_RETRIES f ∨ s.bpar P.FEED_RETRIES f = 255) →
    ∃ t, exec (.feedRetryDelayEnd f) s = .next t ∧ t.bank.feed[f].state = .qualify ∧
      t.bank.feed[f].retries = min 255 (s.bank.feed[f].retries + 1) ∧ t.bank.feed[f].gm = false ∧ t.bank.feed[f].go = false ∧
      ⟨0x0607, f.val, toWord 64 (min 255 (s.bank.feed[f].retries + 1) : Nat), s.clk.shelf⟩ ∈ t.evq) ∧
  (∀ (s : State) (f : Fin 2), s.bank.feed[f].state = .tripped → s.bank.feed[f].retryRun = true →
    s.since s.bank.feed[f].tripAt s.bank.feed[f].retryLen 250000 = true → s.bankActs = true →
    s.bparN P.FEED_RETRIES f ≤ s.bank.feed[f].retries → s.bpar P.FEED_RETRIES f ≠ 255 →
    ∃ t, exec (.feedRetryDelayEnd f) s = .next t ∧ t.bank.feed[f].state = .lockout ∧
      ⟨0x0608, f.val, 1, s.clk.shelf⟩ ∈ t.evq) ∧
  (∀ (s : State) (f : Fin 2), s.bank.feed[f].state = .tripped → s.bank.feed[f].retryRun = true →
    s.since s.bank.feed[f].tripAt s.bank.feed[f].retryLen 250000 = true → s.bankActs = false →
    ∃ t, exec (.feedRetryDelayEnd f) s = .next t ∧ t.bank.feed[f] = { s.bank.feed[f] with retryRun := false, retryDue := true } ∧
      t.evq = s.evq) ∧
  (∀ (s : State) (f path : Fin 2), s.bank.on = true → s.bank.feed[f].state ≠ .off → s.bank.feed[f].fetShort = false →
    s.fetFound f path = true →
    ∃ t, exec (.feedFetShort f path s.bank.feed[f].i (s.fetVolt f path)) s = .next t ∧ t.bank.feed[f].state = .lockout ∧ t.bank.feed[f].fetShort = true ∧
      t.bank.feed[f].go = false ∧ t.bank.feed[f].gm = false ∧ t.bank.feed[f].gp = false ∧
      t.evq.take (s.evq.length + 1) = s.evq ++ [⟨0x060A, f.val,
        toWord 64 (lohi (path.val + toWord 24 s.bank.feed[f].i.natAbs * 256 : Nat)
          (s.fetVolt f path)), s.clk.shelf⟩] ∧
      ⟨0x0608, f.val, 3, s.clk.shelf⟩ ∈ t.evq) ∧
  (∀ (s : State) (f path : Fin 2) (ma mv : Int), (s.bank.on = false ∨ s.fetFound f path = false ∨ ma ≠ s.bank.feed[f].i ∨
      mv ≠ s.fetVolt f path) →
    ∃ t, exec (.feedFetShort f path ma mv) s = .next t ∧ t = s) ∧
  (∀ (s : State) (f : Fin 2) (mv : Nat), s.bank.feed[f].state ≠ .off → s.bank.feed[f].gm = true →
    s.since s.bank.feed[f].gmAt (s.bparN P.FEED_T_GATE f) 250 = true → mv < s.bparN P.FEED_GATE_OK f →
    ∃ t, exec (.feedGateFail f 1 mv) s = .next t ∧ t.bank.feed[f].state = .lockout ∧ t.bank.feed[f].gateFail = true ∧
      t.bank.feed[f].go = false ∧ t.bank.feed[f].gm = false ∧ t.bank.feed[f].gp = false ∧
      t.evq.take (s.evq.length + 1) = s.evq ++ [⟨0x060B, f.val, toWord 64 (1 + mv * 65536 : Nat), s.clk.shelf⟩] ∧
      ⟨0x0608, f.val, 2, s.clk.shelf⟩ ∈ t.evq) ∧
  (∀ (s : State) (f : Fin 2) (gate : Fin 3) (mv : Nat), (s.bank.feed[f].state = .off ∨ s.bparN P.FEED_GATE_OK f ≤ mv) →
    ∃ t, exec (.feedGateFail f gate mv) s = .next t ∧ t = s)

/-- FEED_REVERSE_TRIP, FEED_LOSS_COMP_LOW and FEED_LOSS_COMP_HIGH. Where the spec leaves a value, an order or an instant open these clauses state the choice of the model: log entries 36, 63. -/
def Obligations.FeedLossLine : Prop :=
  (∀ (s : State) (f : Fin 2) (i v : Int), s.bank.on = true → s.bank.feed[f].ideal = true → i < -s.bpar P.FEED_REV_TRIP f →
    s.bpar P.FEED_LOSS_LEVEL f ≤ v →
    ∃ t, exec (.feedReverseTrip f i v) s = .next t ∧ t.bank.feed[f].go = false ∧ t.bank.feed[f].rev = true ∧
      t.bank.feed[f].lossLow = s.bank.feed[f].lossLow ∧ t.bank.line = s.bank.line ∧ t.bank.feed[f].state = s.bank.feed[f].state) ∧
  (∀ (s : State) (f : Fin 2) (mv : Int) (held : Nat), s.bank.on = true → mv < s.bpar P.FEED_LOSS_LEVEL f →
    s.bparN P.FEED_LOSS_FILT f ≤ held → s.bank.armed = true → s.bank.line = false → (∀ g : Fin 2, g ≠ f → s.bank.feed[g].avail = false) →
    ∃ t, exec (.feedLossCompLow ⟨f, mv, held⟩) s = .next t ∧ t.bank.feed[f].lossLow = true ∧ t.bank.line = true ∧ t.bank.lossAt = s.clk.tick ∧
      t.bank.lineQ = s.bank.lineQ ++ [true] ∧ (∀ d : Fin 4, t.bank.latch[d] = true) ∧
      t.evq.take (s.evq.length + 1) = s.evq ++ [⟨0x060C, f.val, toWord 64 (lohi (f.val : Nat) s.bank.vbus), s.clk.shelf⟩]) ∧
  (∀ (s : State) (f : Fin 2) (mv : Int) (held : Nat), s.bank.on = true →
    s.bpar P.FEED_LOSS_LEVEL f + s.bpar P.FEED_LOSS_HYST f ≤ mv → s.bparN P.FEED_LOSS_RET f * 1000 ≤ held →
    s.bank.armed = true → s.bank.line = true → s.bank.feed[f].state = .connected →
    ∃ t, exec (.feedLossCompHigh ⟨f, mv, held⟩) s = .next t ∧ t.bank.feed[f].lossLow = false ∧ t.bank.feed[f].avail = true ∧ t.bank.line = false ∧
      t.evq.take (s.evq.length + 1) =
        s.evq ++ [⟨0x060D, f.val, toWord 64 (f.val + (s.clk.tick - s.bank.lossAt) / 250 * 256 : Nat), s.clk.shelf⟩]) ∧
  (∀ (s : State) (f : Fin 2) (mv : Int) (held : Nat), s.bank.on = false →
    ∃ t, exec (.feedLossCompLow ⟨f, mv, held⟩) s = .next t ∧ t = s ∧ exec (.feedLossCompHigh ⟨f, mv, held⟩) s = .next t)

/-- FEED_CTRL_ENABLE, FEED_CTRL_DISABLE, FEED_CTRL_CLEAR, FEED_CTRL_TEST, FEED_CTRL_RESET_ENERGY and BANK_COMMAND_FRAME. Where the spec leaves a value, an order or an instant open these clauses state the choice of the model: log entries 32, 33, 83, 126, 144. -/
def Obligations.FeedControls : Prop :=
  (∀ (s : State) (f : Fin 2) (k : Fin 8), s.mayControl k [0] = true → s.bank.on = true →
    ∃ t, exec (.feedCtrlEnable f k) s = .next t ∧ t.host.ctl = stOk ∧ t.bank = { s.bank with cmds := s.bank.cmds ++ [.enable f] } ∧
      t.passed[(3 : Fin 5)] = s.passed[(3 : Fin 5)] + 1) ∧
  (∀ (s : State) (f : Fin 2) (k : Fin 8), s.mayControl k [0, 5] = true → s.bank.on = true →
    ∃ t, exec (.feedCtrlDisable f k) s = .next t ∧ t.host.ctl = stOk ∧ t.bank = { s.bank with cmds := s.bank.cmds ++ [.disable f] } ∧
      t.passed[(3 : Fin 5)] = s.passed[(3 : Fin 5)] + 1) ∧
  (∀ (s : State) (f : Fin 2) (k : Fin 8), s.hasActive = true → s.brownWarn = false → s.lastFeed f = true → s.holds k 5 = false →
    ∃ t, exec (.feedCtrlDisable f k) s = .next t ∧ t = { s with host := { s.host with ctl := stNoPermit } }) ∧
  (∀ (s : State) (f : Fin 2) (k : Fin 8), s.mayControl k [0] = true → s.bank.on = true →
    ∃ t, exec (.feedCtrlClear f k) s = .next t ∧ t.host.ctl = stOk ∧ t.bank = { s.bank with cmds := s.bank.cmds ++ [.clear f] } ∧
      t.passed[(3 : Fin 5)] = s.passed[(3 : Fin 5)] + 1) ∧
  (∀ (s : State) (f : Fin 2) (k : Fin 8), s.mayControl k [0] = true → s.bank.on = true → s.bank.seen.feed[f].state = .connected →
    s.seenBit f 4 = true →
    ∃ t, exec (.feedCtrlTest f k) s = .next t ∧ t.host.ctl = stOk ∧ t.bank = { s.bank with cmds := s.bank.cmds ++ [.test f] }) ∧
  (∀ (s : State) (f : Fin 2) (k : Fin 8), s.mayControl k [0] = true → (s.bank.seen.feed[f].state ≠ .connected ∨ s.seenBit f 4 = false) →
    ∃ t, exec (.feedCtrlTest f k) s = .next t ∧ t.host.ctl = stBusy ∧ t.bank = s.bank) ∧
  (∀ (s : State) (f : Fin 2) (k : Fin 8), s.mayControl k [0, 5] = true → s.bank.on = true →
    ∃ t, exec (.feedCtrlResetEnergy f k) s = .next t ∧ t.host.ctl = stOk ∧
      t.bank = { s.bank with cmds := s.bank.cmds ++ [.resetEnergy f] }) ∧
  (∀ (s : State) (f : Fin 2) (k : Fin 8), s.hasActive = true → s.brownWarn = false → s.holds k 5 = false →
    ∃ t, exec (.feedCtrlResetEnergy f k) s = .next t ∧ t = { s with host := { s.host with ctl := stNoPermit } }) ∧
  (∀ (s : State) (f : Fin 2) (cs : List FeedCmd), s.bank.cmds = .enable f :: cs → s.bankActs = true → s.bank.feed[f].state = .off →
    ∃ t, exec .bankCommandFrame s = .next t ∧ t.bank.cmds = cs ∧ t.bank.feed[f] = { s.bank.feed[f] with state := .qualify, retries := 0 } ∧
      ∀ g : Fin 2, g ≠ f → t.bank.feed[g] = s.bank.feed[g]) ∧
  (∀ (s : State) (f : Fin 2) (cs : List FeedCmd), s.bank.cmds = .disable f :: cs → s.bankActs = true → s.bank.feed[f].state ≠ .off →
    ∃ t, exec .bankCommandFrame s = .next t ∧ t.bank.cmds = cs ∧ t.bank.feed[f].state = .off ∧ t.bank.feed[f].go = false ∧
      t.bank.feed[f].gm = false ∧ t.bank.feed[f].gp = false ∧
      ⟨0x0602, f.val, toWord 64 (lohi 3 s.bank.feed[f].v), s.clk.shelf⟩ ∈ t.evq) ∧
  (∀ (s : State) (f : Fin 2) (cs : List FeedCmd), s.bank.cmds = .clear f :: cs → s.bankActs = true → s.bank.feed[f].state = .lockout →
    s.par P.FEED_AUTO_EN f = 0 →
    ∃ t, exec .bankCommandFrame s = .next t ∧ t.bank.cmds = cs ∧
      t.bank.feed[f] = { s.bank.feed[f] with state := .off, gateFail := false, fetShort := false }) ∧
  (∀ (s : State) (f : Fin 2) (cs : List FeedCmd), s.bank.cmds = .test f :: cs → s.bankActs = true → s.bank.feed[f].state = .connected →
    s.bank.feed[f].rev = true →
    ∃ t, exec .bankCommandFrame s = .next t ∧ t.bank.cmds = cs ∧
      t.bank.feed[f] = { s.bank.feed[f] with go := true, goAt := s.clk.tick, test := true }) ∧
  (∀ (s : State) (f : Fin 2) (cs : List FeedCmd), s.bank.cmds = .resetEnergy f :: cs → s.bankActs = true →
    ∃ t, exec .bankCommandFrame s = .next t ∧ t.bank.cmds = cs ∧
      t.bank.feed[f] = { s.bank.feed[f] with eImp := 0, eExp := 0, eImpRem := 0, eExpRem := 0 } ∧
      (t.evq.drop s.evq.length).map (fun e => (e.src, e.data)) =
        [(f.val, toWord 64 s.bank.feed[f].eImp), (f.val, toWord 64 s.bank.feed[f].eExp)]) ∧
  (∀ (s : State) (c : FeedCmd) (cs : List FeedCmd), s.bank.cmds = c :: cs → s.bankActs = false →
    ∃ t, exec .bankCommandFrame s = .next t ∧ t.bank = { s.bank with cmds := cs } ∧ t.evq = s.evq)

/-- BANK_PARAM_FRAME, BANK_PARAM_COMMIT, BANK_HEARTBEAT, BANK_HB_TIMEOUT, BANK_HB_RETURN, BANK_TELEMETRY and
ENERGY_COPY. Where the spec leaves a value, an order or an instant open these clauses state the choice of the model: log entries 34, 144. -/
def Obligations.BarrierChannel : Prop :=
  (∀ (s : State) (q : Nat × Nat) (qs : List (Nat × Nat)), s.bank.sending = q :: qs →
    ∃ t, exec (.bankParamFrame true) s = .next t ∧ t.bank = { s.bank with sending := qs, got := s.bank.got ++ [q] }) ∧
  (∀ (s : State) (q : Nat × Nat) (qs : List (Nat × Nat)), s.bank.sending = q :: qs →
    ∃ t, exec (.bankParamFrame false) s = .next t ∧
      t.bank = { s.bank with sending := qs, chErr := true, errs := s.bank.errs + 1, bad := true }) ∧
  (∀ s : State, s.bank.commitDue = true → s.bank.on = true → s.bank.sending = [] → s.bank.bad = false → s.bank.configured = false →
    ∃ t, exec .bankParamCommit s = .next t ∧ t.bank.next = some (bankSetOf s.bank.got) ∧ t.bank.set = s.bank.set ∧
      t.bank.configured = true ∧ t.bank.commitDue = false ∧ t.bank.feed = s.bank.feed) ∧
  (∀ s : State, s.bank.commitDue = true → s.bank.on = true → s.bank.sending = [] → s.bank.bad = false → s.bank.configured = true →
    ∃ t, exec .bankParamCommit s = .next t ∧ t.bank = { s.bank with next := some (bankSetOf s.bank.got), commitDue := false, got := [] }) ∧
  (∀ s : State, s.bank.commitDue = true → s.bank.on = true → s.bank.bad = true →
    ∃ t, exec .bankParamCommit s = .next t ∧ t.bank.set = s.bank.set ∧ t.bank.configured = s.bank.configured ∧ t.bank.next = s.bank.next ∧
      t.bank.sending = s.bank.sent ∧ t.bank.commitDue = true ∧ t.bank.bad = false ∧
      t.evq = s.evq ++ [⟨0x060F, 0, toWord 64 s.bank.errs, s.clk.shelf⟩]) ∧
  (∀ s : State, s.bank.on = true → s.dev.isoOn = true → s.bank.srcValid = true →
    ∃ t, exec .bankHeartbeat s = .next t ∧ t.bank.hbOk = true ∧ t.bank.hbAt = s.clk.tick ∧ t.bank.oscLocked = true ∧
      t.bank.srcValid = s.bankSource ∧ t.bank.feed = s.bank.feed ∧ t.evq = s.evq) ∧
  (∀ s : State, s.bank.on = true → s.bank.hbOk = true → s.hbDue = true →
    ∃ t, exec .bankHbTimeout s = .next t ∧ t.bank.hbOk = false ∧ t.bank.configured = false ∧ t.bank.srcValid = false ∧
      t.bank.hbLostAt = some s.clk.tick ∧
      ∀ f : Fin 2, t.bank.feed[f].state = .off ∧
        (s.bank.feed[f].state ≠ .off → t.bank.feed[f].go = false ∧ t.bank.feed[f].gm = false ∧ t.bank.feed[f].gp = false)) ∧
  (∀ (s : State) (at_ : Nat), s.bank.hbLostAt = some at_ → s.dev.isoOn = true →
    ∃ t, exec .bankHbReturn s = .next t ∧ t.bank.hbLostAt = none ∧ t.bank.hbOk = true ∧ t.bank.sending = s.bank.sent ∧
      t.bank.commitDue = true ∧ t.bank.feed = s.bank.feed ∧
      t.evq = s.evq ++ [⟨0x060E, 0, toWord 64 ((s.clk.tick - at_) / 250 : Nat), s.clk.shelf⟩]) ∧
  (∀ (s : State) (q : BankTlm) (qs : List BankTlm), s.bank.tlm = q :: qs → s.hasActive = true →
    ∃ t, exec .bankTelemetry s = .next t ∧ t.bank.tlm = qs ∧ t.ord = s.ord + 1 ∧ t.bank.seen = q ∧ t.bank.feed = s.bank.feed) ∧
  (∀ s : State, s.bank.on = true →
    ∃ t, exec .energyCopy s = .next t ∧ t.bank = { s.bank with
      copy := some ⟨s.clk.shelf, tab 2 (fun f => s.bank.seen.feed[f].eImp), tab 2 (fun f => s.bank.seen.feed[f].eExp)⟩ } ∧ t.silt.ledgerDue = true)

/-- BANK_POWER_ON and BANK_POWER_OFF. Where the spec leaves a value, an order or an instant open these clauses state the choice of the model: log entries 63, 126. -/
def Obligations.BankPower : Prop :=
  (∀ (s : State) (c : EnergyCopy), s.bank.on = false → s.dev.isoOn = true → s.bank.copy = some c →
    ∃ t, exec .bankPowerOn s = .next t ∧ t.bank.on = true ∧ t.bank.configured = false ∧ t.bank.armed = false ∧ t.bank.line = false ∧
      t.bank.energyGap = true ∧ t.bank.commitDue = true ∧ t.power.vauxhUv = false ∧
      ∀ f : Fin 2, t.bank.feed[f].state = .off ∧ t.bank.feed[f].lossLow = true ∧ t.bank.feed[f].eImp = c.imp[f] ∧
        t.bank.feed[f].eExp = c.exp[f] ∧ t.bank.feed[f].gm = false ∧ t.bank.feed[f].go = false ∧ t.bank.feed[f].gp = false) ∧
  (∀ s : State, s.bank.on = true →
    ∃ t, exec .bankPowerOff s = .next t ∧ t.bank.on = false ∧ t.bank.configured = false ∧ t.bank.armed = false ∧ t.bank.line = false ∧
      t.power.vauxhUv = true ∧
      ∀ f : Fin 2, t.bank.feed[f].state = .off ∧ t.bank.feed[f].eImp = s.bank.feed[f].eImp ∧ t.bank.feed[f].eExp = s.bank.feed[f].eExp ∧
        t.bank.feed[f].gm = false ∧ t.bank.feed[f].go = false ∧ t.bank.feed[f].gp = false)

/-- BATT_COUNT_SAMPLE, BATT_REST_ANCHOR and BATT_FULL_ANCHOR. Where the spec leaves a value, an order or an instant open these clauses state the choice of the model: log entries 37, 38, 42, 127. -/
def Obligations.BatteryCounts : Prop :=
  (∀ (s : State) (b : Fin 8), s.par P.BATT_ENABLE b ≠ 0 → s.hasActive = true →
    ∃ t, exec (.battCountSample b) s = .next t ∧ t.ord = s.ord + 1 ∧ t.batt[b].acc = 0 ∧ t.batt[b].msAt = s.clk.tick ∧
      (s.par P.BATT_I_SRC b = 0 → s.parN P.BATT_I_LOW b * (s.clk.tick - s.batt[b].msAt) * 32 ≤ s.batt[b].acc.natAbs →
        t.batt[b].fl.lowRate = false ∧ t.batt[b].sampleAt = s.clk.tick) ∧
      ∀ c : Fin 8, c ≠ b → t.batt[c] = s.batt[c]) ∧
  (∀ (s : State) (b : Fin 8), s.par P.BATT_ENABLE b = 0 → s.hasActive = true →
    ∃ t, exec (.battCountSample b) s = .next t ∧ t.ord = s.ord ∧ t.evq = s.evq ∧
      t.batt[b] = { s.batt[b] with
        msAt := s.clk.tick, sampleAt := s.clk.tick, acc := 0, part := 0,
        restAt := none, restFrom := none, fullAt := none, emptyAt := none, cutAt := none, badAt := none } ∧
      ∀ c : Fin 8, c ≠ b → t.batt[c] = s.batt[c]) ∧
  (∀ (s : State) (b : Fin 8), s.hasActive = false → ∃ t, exec (.battCountSample b) s = .next t ∧ t = s) ∧
  (∀ (s : State) (b : Fin 8), s.par P.BATT_ENABLE b ≠ 0 → s.held s.batt[b].restFrom (s.parN P.BATT_T_REST b * 250000000) = true →
    (s.ocvLookup b).2 = true →
    ∃ t, exec (.battRestAnchor b) s = .next t ∧ t.batt[b].q = nearHalfAway ((s.ocvLookup b).1 * s.batt[b].cap) 10000 ∧
      t.batt[b].qFrac = 0 ∧ t.batt[b].fl.resting = true ∧ t.batt[b].fl.flat = false ∧ t.batt[b].fl.unrested = false ∧
      t.batt[b].fl.disagree = false ∧ t.batt[b].restFrom = some s.clk.tick) ∧
  (∀ (s : State) (b : Fin 8), s.par P.BATT_ENABLE b ≠ 0 → s.held s.batt[b].restFrom (s.parN P.BATT_T_REST b * 250000000) = true →
    (s.ocvLookup b).2 = false →
    s.batt[b].fl.unrested = false →
    ∃ t, exec (.battRestAnchor b) s = .next t ∧ t.batt[b].q = s.batt[b].q ∧ t.batt[b].fl.flat = true ∧
      t.batt[b].fl.resting = true) ∧
  (∀ (s : State) (b : Fin 8), (s.par P.BATT_ENABLE b = 0 ∨ s.held s.batt[b].restFrom (s.parN P.BATT_T_REST b * 250000000) = false) →
    ∃ t, exec (.battRestAnchor b) s = .next t ∧ t = s) ∧
  (∀ (s : State) (b : Fin 8), s.par P.BATT_ENABLE b ≠ 0 → s.batt[b].fl.full = false →
    s.held s.batt[b].fullAt (s.parN P.BATT_T_FULL b * 250000000) = true → s.par P.BATT_LEARN_TMIN b ≤ s.batt[b].t → s.batt[b].t ≤ s.par P.BATT_LEARN_TMAX b →
    ∃ t, exec (.battFullAnchor b) s = .next t ∧ t.batt[b].q = s.batt[b].cap ∧ t.batt[b].fl.full = true ∧
      t.batt[b].fl.unrested = false ∧ t.batt[b].fl.learning = true ∧ t.batt[b].qDis = 0) ∧
  (∀ (s : State) (b : Fin 8), (s.par P.BATT_ENABLE b = 0 ∨ s.batt[b].fl.full = true ∨
      s.held s.batt[b].fullAt (s.parN P.BATT_T_FULL b * 250000000) = false) →
    ∃ t, exec (.battFullAnchor b) s = .next t ∧ t = s)

/-- BATT_VOLTAGE_EMPTY, BATT_CUTOFF, BATT_ABSENT, BATT_CTRL_CLEAR_CUTOFF, BATT_CTRL_CANCEL_LEARN and BATT_CTRL_REESTIMATE. Where the spec leaves a value, an order or an instant open these clauses state the choice of the model: log entries 42, 127, 138. -/
def Obligations.BatteryEmptyCutAbsent : Prop :=
  (∀ (s : State) (b : Fin 8), s.par P.BATT_ENABLE b = 1 → s.batt[b].fl.empty = false →
    s.held s.batt[b].emptyAt (s.parN P.BATT_EMPTY_FILT b * 250000) = true →
    s.batt[b].fl.learning = false →
    ∃ t, exec (.battVoltageEmpty b) s = .next t ∧ t.batt[b].q = 0 ∧ t.batt[b].fl.empty = true ∧ t.batt[b].fl.disagree = false ∧
      t.batt[b].fl.cutoff = (s.batt[b].fl.cutoff || s.par P.BATT_EMPTY_ACTION b == 1)) ∧
  (∀ (s : State) (b : Fin 8), s.par P.BATT_ENABLE b = 1 → s.batt[b].fl.cutoff = false →
    s.held s.batt[b].cutAt (s.parN P.BATT_CUT_FILT b * 250000) = true →
    ∃ t, exec (.battCutoff b) s = .next t ∧ t.batt[b] = { s.batt[b] with
      chgCut := 0, cutOrd := s.ord + 1, fl := { s.batt[b].fl with cutoff := true } } ∧
      t.evq = s.evq ++ [⟨0x0909, b.val, toWord 64 (lohi 257 s.batt[b].v), s.clk.shelf⟩]) ∧
  (∀ (s : State) (b : Fin 8), s.par P.BATT_ENABLE b = 1 → s.batt[b].fl.present = true →
    s.held s.batt[b].badAt (s.parN P.BATT_V_STALE b * 250000) = true →
    ∃ t, exec (.battAbsent b) s = .next t ∧ t.batt[b].fl.present = false ∧ t.batt[b].absentAt = s.clk.tick ∧
      t.batt[b].q = s.batt[b].q ∧ (t.evq.drop s.evq.length).map (fun e => (e.code, e.src)) = [(0x0902, b.val)]) ∧
  (∀ (s : State) (b : Fin 8), s.batt[b].cutAt = none → ∃ t, exec (.battCutoff b) s = .next t ∧ t = s) ∧
  (∀ (s : State) (b : Fin 8), s.batt[b].emptyAt = none → ∃ t, exec (.battVoltageEmpty b) s = .next t ∧ t = s) ∧
  (∀ (s : State) (b k : Fin 8), s.mayControl k [3] = true → s.batt[b].fl.cutoff = true →
    ∃ t, exec (.battCtrlClearCutoff b k) s = .next t ∧ t.host.ctl = stOk ∧ t.batt[b].fl.cutoff = false ∧ t.batt[b].q = s.batt[b].q ∧
      t.evq = s.evq ++ [⟨0x0909, b.val, toWord 64 (lohi 1024 s.batt[b].v), s.clk.shelf⟩]) ∧
  (∀ (s : State) (b k : Fin 8), s.mayControl k [3] = true → s.batt[b].fl.learning = true →
    ∃ t, exec (.battCtrlCancelLearn b k) s = .next t ∧ t.host.ctl = stOk ∧ t.batt[b].fl.learning = false ∧
      t.evq = s.evq ++ [⟨0x0906, b.val, toWord 64 (lohi 6 (s.batt[b].qDis / 3600 : Nat)), s.clk.shelf⟩]) ∧
  (∀ (s : State) (b k : Fin 8), s.mayControl k [3] = true →
    ∃ t, exec (.battCtrlReestimate b k) s = .next t ∧ t.host.ctl = stOk ∧
      t.batt[b].q = nearHalfAway ((s.ocvLookup b).1 * s.batt[b].cap) 10000 ∧ t.batt[b].fl.unrested = true ∧
      t.batt[b].fl.full = false ∧ t.batt[b].fl.empty = false ∧ t.batt[b].fl.learning = false)

/-- SHARE_UPDATE, SHARE_TIE_UPDATE and PEER_SHARE_SEND. Where the spec leaves a value, an order or an instant open these clauses state the choice of the model: log entries 51, 52, 53, 54. -/
def Obligations.ConfluenceUpdates : Prop :=
  (∀ (s : State) (m : Fin 64), s.hasActive = true → s.memberUsed m = false →
    ∃ t, exec .shareUpdate s = .next t ∧ t.share.mbr[m].state = s.share.mbr[m].state) ∧
  (∀ (s : State) (m : Fin 64), s.hasActive = true → s.memberUsed m = true →
    ∃ t, exec .shareUpdate s = .next t ∧
      (s.share.mbr[m].state = .absent → t.share.mbr[m].state = if s.mbrOpen m = true ∧ s.mbrFresh m = true then .trimmed else .absent) ∧
      (s.share.mbr[m].state = .trimmed → t.share.mbr[m].state = if s.mbrFresh m = true then .trimmed else .held) ∧
      (s.share.mbr[m].state = .held → t.share.mbr[m].state = if s.mbrFresh m = true then .trimmed else .held) ∧
      (s.share.mbr[m].state = .suspended → t.share.mbr[m].state = .suspended)) ∧
  (∀ s : State, s.hasActive = true → s.hold.state ≠ .normal →
    ∃ t, exec .shareTieUpdate s = .next t ∧ ∀ g : Fin 4, t.share.grp[g].tieOfs = 0 ∧ t.share.grp[g].frac = 1000) ∧
  (∀ s : State, s.hasActive = true → s.chain.addr ≠ 0 →
    ∃ t, exec .peerShareSend s = .next t ∧ t.share.seq = (s.share.seq + 1) % 65536 ∧ t.share.mbr = s.share.mbr ∧
      ∀ i : Fin 2, t.chain.peer[i].seq = (s.chain.peer[i].seq + 1) % 2 ^ 32 ∧ t.chain.peer[i].out.length = 32) ∧
  (∀ s : State, s.hasActive = false → ∃ t, exec .shareUpdate s = .next t ∧ t = s) ∧
  (∀ s : State, s.hasActive = false → ∃ t, exec .shareTieUpdate s = .next t ∧ t = s) ∧
  (∀ s : State, s.hasActive = false → ∃ t, exec .peerShareSend s = .next t ∧ t = s)

/-- HOLD_PRELOAD_COMPUTE, FEED_LOSS_INPUT, FEED_LOSS_RELEASE_INPUT, HOLD_CTRL_HANDBACK, HOLD_RETURN_TIMER and HOLD_QUORUM_MET. Where the spec leaves a value, an order or an instant open these clauses state the choice of the model: log entries 20, 61, 62, 63. -/
def Obligations.HoldUpEntersAndReturns : Prop :=
  (∀ (s : State) (l : Fin 16), s.hasActive = true → s.hold.state = .normal →
    ∃ t, exec .holdPreloadCompute s = .next t ∧ t.hold.state = .normal ∧
      (l ∈ s.armedLoops → 0 ≤ s.par P.LOOP_ICMD_MAX l → 0 ≤ t.hold.pre[l] ∧ t.hold.pre[l] ≤ s.par P.LOOP_ICMD_MAX l ∧
        t.hold.preAt[l] = s.clk.tick ∧ t.loop[l].ct.preload = t.hold.pre[l]) ∧
      (l ∉ s.armedLoops → t.hold.pre[l] = s.hold.pre[l] ∧ t.loop[l].ct.preload = s.loop[l].ct.preload)) ∧
  (∀ s : State, s.lineEvent true = true → s.hold.state = .normal →
    ∃ t, exec .feedLossInput s = .next t ∧ s.ord < t.ord ∧ t.hold.line = true ∧ t.bank.seenLine = true ∧ t.bank.lineQ = s.bank.lineQ.tail ∧ t.hold.state = .holdup ∧ t.hold.frozen = true ∧
      t.hold.entries = bump s.hold.entries ∧ t.hold.enterAt = s.clk.tick ∧ t.hold.pre = s.hold.pre) ∧
  (∀ s : State, s.lineEvent false = true → s.hold.state = .holdup →
    ∃ t, exec .feedLossReleaseInput s = .next t ∧ t.ord = s.ord + 1 ∧ t.hold.line = false ∧ t.bank.seenLine = false ∧ t.hold.state = .returnWait ∧
      t.hold.timerDone = false ∧ t.hold.releasedAt = s.clk.tick ∧ t.hold.frozen = s.hold.frozen) ∧
  (∀ s : State, s.lineEvent true = false → ∃ t, exec .feedLossInput s = .next t ∧ t = s) ∧
  (∀ s : State, s.lineEvent false = false → ∃ t, exec .feedLossReleaseInput s = .next t ∧ t = s) ∧
  (∀ (s : State) (k : Fin 8), s.mayControl k [2] = true → s.hold.state = .returnWait →
    ∃ t, exec (.holdCtrlHandback k) s = .next t ∧ t.host.ctl = stOk ∧ (t.hold.state = .handback ∨ t.hold.state = .normal) ∧
      s.ord < t.ord) ∧
  (∀ (s : State) (k : Fin 8), s.mayControl k [2] = true → s.hold.state = .holdup →
    ∃ t, exec (.holdCtrlHandback k) s = .next t ∧ t.host.ctl = stBusy ∧ t.hold = s.hold ∧ t.loop = s.loop) ∧
  (∀ s : State, s.hasActive = true → s.hold.state = .returnWait → s.hold.stateAt + 250000 * s.parN P.HOLD_RETURN_DELAY 0 ≤ s.clk.tick →
    s.quorum = false →
    ∃ t, exec .holdReturnTimer s = .next t ∧ t = { s with hold := { s.hold with timerDone := true } }) ∧
  (∀ s : State, s.clk.tick < s.hold.stateAt + 250000 * s.parN P.HOLD_RETURN_DELAY 0 →
    ∃ t, exec .holdReturnTimer s = .next t ∧ t = s) ∧
  (∀ s : State, s.hasActive = true → s.hold.state = .returnWait → s.hold.timerDone = true → s.quorum = true →
    s.par P.HOLD_HANDBACK 0 = 0 →
    ∃ t, exec .holdQuorumMet s = .next t ∧ (t.hold.state = .handback ∨ t.hold.state = .normal) ∧ s.ord < t.ord) ∧
  (∀ s : State, s.hold.state ≠ .returnWait →
    ∃ t, exec .holdQuorumMet s = .next t ∧ t = s)

/-- WEIR_EVALUATION, THROTTLE_RESEND and HOLDUP_STATE_RESEND. Where the spec leaves a value, an order or an instant open these clauses state the choice of the model: log entries 50, 127. -/
def Obligations.WeirEvaluates : Prop :=
  (∀ (s : State) (skipped took : Nat), s.hasActive = true → s.par P.WEIR_ENABLE 0 ≠ 0 →
    ∃ t, exec (.weirEvaluation skipped took) s = .next t ∧ ∀ k : Fin 36,
      t.weir.scope[k].lastEval = some s.clk.tick ∧
      t.weir.scope[k].isOver = (if s.scopeOn k = true then
        (match s.capNow k with | none => false | some c => decide ((c : Int) < t.weir.scope[k].p)) else s.weir.scope[k].isOver) ∧
      t.weir.scope[k].y1 + t.weir.scope[k].y2 ≤ t.weir.scope[k].d / 1000000 ∧
      t.weir.scope[k].overrun = (s.weir.scope[k].overrun || (decide (skipped ≠ 0) && s.scopeOn k)) ∧
      t.weir.scope[k].grant = s.weir.scope[k].grant) ∧
  (∀ (s : State) (skipped took : Nat), s.hasActive = true → s.par P.WEIR_ENABLE 0 = 0 →
    ∃ t, exec (.weirEvaluation skipped took) s = .next t ∧ t = s) ∧
  (∀ s : State, (∀ l : Fin 16, s.weirOff.weir.shave[l] = 0) ∧ s.weirOff.weir.hardArmed = false ∧
    ∀ k : Fin 36, s.weirOff.weir.scope[k].d = 0 ∧ s.weirOff.weir.scope[k].y1 = 0 ∧ s.weirOff.weir.scope[k].y2 = 0) ∧
  (∀ (s : State) (a lim : Nat), s.hasActive = true → s.limitedNodes = [a] → (s.weirNode a).limit = some lim → (s.node a).isOpen = true →
    ∃ t, exec .throttleResend s = .next t ∧ (t.node a).txSeq = seqNext (s.node a).txSeq ∧ (t.node a).lastTx = s.clk.tick ∧
      t.weir = s.weir) ∧
  (∀ (s : State) (m : Fin 64) (a : Nat), s.hasActive = true → (∀ j : Fin 64, s.memberUsed j = decide (j = m)) →
    s.parN P.SHARE_MBR_NODE m = a → s.membersOf a = [m] → (s.node a).isOpen = true →
    ∃ t, exec .holdupStateResend s = .next t ∧ (t.node a).txSeq = seqNext (s.node a).txSeq ∧ t.share = s.share ∧ t.weir = s.weir)

/-- PORT_TRAIN_COMPLETE, PORT_TRAIN_DWELL_EXPIRE, PORT_LOSS_OF_LOCK, PORT_ERROR_RATE, PORT_UPSHIFT_ATTEMPT, PORT_RETRAIN_DELAY_END and
PORT_TX_STALL. Where the spec leaves a value, an order or an instant open these clauses state the choice of the model: log entries 48, 128. -/
def Obligations.PortTrains : Prop :=
  (∀ (s : State) (p : Fin 64) (cls : Nat), s.port[p].state = .train → cls = (if s.par P.PORT_TOPOLOGY p = 1 then 2 else 1) →
    ∃ t, exec (.portTrainComplete p cls) s = .next t ∧ t.port[p].state = .up ∧ t.port[p].sent = 0 ∧ t.port[p].grantBy = 0 ∧
      t.port[p].started = 0 ∧ t.port[p].grantTo = s.port[p].free / 150 % 256 ∧ t.port[p].topoMis = false) ∧
  (∀ (s : State) (p : Fin 64) (cls : Nat), s.port[p].state = .train → cls ≠ (if s.par P.PORT_TOPOLOGY p = 1 then 2 else 1) →
    ∃ t, exec (.portTrainComplete p cls) s = .next t ∧ t.port[p].state = .fault ∧ t.port[p].topoMis = true ∧
      t.evq = s.evq ++ [⟨0x0A04, p.val, toWord 64 cls, s.clk.shelf⟩]) ∧
  (∀ (s : State) (p : Fin 64), s.port[p].state = .train →
    s.held (some s.port[p].trainAt) (s.parN P.PORT_TRAIN_DWELL p * 250000) = true → s.port[p].rate < s.parN P.PORT_RATE_MIN p →
    ∃ t, exec (.portTrainDwellExpire p) s = .next t ∧ t.port[p].state = .train ∧ t.port[p].rate = s.port[p].rate + 1 ∧
      t.port[p].trainAt = s.clk.tick) ∧
  (∀ (s : State) (p : Fin 64), s.port[p].state = .train →
    s.held (some s.port[p].trainAt) (s.parN P.PORT_TRAIN_DWELL p * 250000) = true → s.parN P.PORT_RATE_MIN p ≤ s.port[p].rate →
    ∃ t, exec (.portTrainDwellExpire p) s = .next t ∧ t.port[p].state = .down ∧
      t.evq = s.evq ++ [⟨0x0A02, p.val, 3, s.clk.shelf⟩]) ∧
  (∀ (s : State) (p : Fin 64), s.held (some s.port[p].trainAt) (s.parN P.PORT_TRAIN_DWELL p * 250000) = false →
    ∃ t, exec (.portTrainDwellExpire p) s = .next t ∧ t = s) ∧
  (∀ (s : State) (p : Fin 64), s.port[p].state = .up →
    ∃ t, exec (.portLossOfLock p) s = .next t ∧ t.port[p].state = .train ∧ t.port[p].rate = s.rateLower p ∧ t.port[p].tx = [] ∧
      t.port[p].cnt.txFlushed = satAdd 32 s.port[p].cnt.txFlushed s.port[p].tx.length) ∧
  (∀ (s : State) (p : Fin 64) (errs : Nat), s.port[p].state = .up → s.parN P.PORT_ERR_LIMIT p < errs →
    ∃ t, exec (.portErrorRate p errs) s = .next t ∧ t.port[p].state = .train ∧ t.port[p].rate = s.rateLower p ∧ t.port[p].tx = [] ∧
      t.port[p].cnt.codeErr = satAdd 32 s.port[p].cnt.codeErr errs) ∧
  (∀ (s : State) (p : Fin 64) (errs : Nat), s.port[p].state = .up → errs ≤ s.parN P.PORT_ERR_LIMIT p →
    ∃ t, exec (.portErrorRate p errs) s = .next t ∧ t.port[p].state = .up ∧ t.port[p].tx = s.port[p].tx ∧
      t.port[p].cnt.codeErr = satAdd 32 s.port[p].cnt.codeErr errs ∧ t.evq = s.evq) ∧
  (∀ (s : State) (p : Fin 64), s.port[p].state = .up → s.par P.PORT_UPSHIFT p = 1 → s.parN P.PORT_RATE_MAX p < s.port[p].rate →
    s.held (some s.port[p].cleanAt) (s.parN P.PORT_UPSHIFT_TIME p * 250000000) = true →
    ∃ t, exec (.portUpshiftAttempt p) s = .next t ∧ t.port[p].state = .train ∧ t.port[p].rate = s.port[p].rate - 1 ∧
      t.port[p].tx = []) ∧
  (∀ (s : State) (p : Fin 64), s.held (some s.port[p].cleanAt) (s.parN P.PORT_UPSHIFT_TIME p * 250000000) = false →
    ∃ t, exec (.portUpshiftAttempt p) s = .next t ∧ t = s) ∧
  (∀ (s : State) (p : Fin 64), (s.port[p].state = .down ∨ s.port[p].state = .fault) →
    s.held (some s.port[p].downAt) (s.parN P.PORT_RETRAIN_DELAY p * 250000) = true →
    ∃ t, exec (.portRetrainDelayEnd p) s = .next t ∧ t.port[p].state = .train ∧ t.port[p].rate = s.parN P.PORT_RATE_MAX p) ∧
  (∀ (s : State) (p : Fin 64), s.held (some s.port[p].downAt) (s.parN P.PORT_RETRAIN_DELAY p * 250000) = false →
    ∃ t, exec (.portRetrainDelayEnd p) s = .next t ∧ t = s) ∧
  (∀ (s : State) (p : Fin 64), s.port[p].state = .up → s.held s.port[p].stallAt (s.parN P.PORT_TX_STALL p * 250) = true →
    ∃ t, exec (.portTxStall p) s = .next t ∧ t.port[p].tx = [] ∧ t.port[p].txStall = true ∧ t.port[p].state = .up ∧
      t.evq = s.evq ++ [⟨0x0A06, p.val, toWord 64 s.port[p].tx.length, s.clk.shelf⟩]) ∧
  (∀ (s : State) (p : Fin 64), s.held s.port[p].stallAt (s.parN P.PORT_TX_STALL p * 250) = false →
    ∃ t, exec (.portTxStall p) s = .next t ∧ t = s)

/-- RILL_FRAME_RECEIVE, RILL_RX_TIMEOUT, RILL_CREDIT_RECEIVE, RILL_FRAME_TRANSMIT, STAMP_FIELD_FRAME, HUB_FRAME_RECEIVE and
HUB_FRAME_TIMEOUT, on a port that is not of a DUAL pair. That a POINTS frame is numbered at its admission is the model's choice (log
entry 139). Where the spec leaves a value, an order or an instant open these clauses state the choice of the model: log entries 44, 45, 46, 47, 48, 142. -/
def Obligations.RillFrames : Prop :=
  (∀ (s : State) (p : Fin 64) (data : List Byte) (noise age : Nat), s.port[p].state = .up → s.port[p].credit ≠ 0 → s.dual p = false →
    data.length = 16 + leAt data 2 2 → leAt data 2 2 ≤ 576 →
    crc32c (data.take (12 + leAt data 2 2)) = leAt data (12 + leAt data 2 2) 4 → (leAt data 0 1 % 16 = 1 ∨ leAt data 0 1 % 16 = 2) →
    ∃ t, exec (.rillFrameReceive p data .eof noise age) s = .next t ∧ t.port[p].started = (s.port[p].started + 1) % 256 ∧
      t.port[p].cnt.rxFrames = bump s.port[p].cnt.rxFrames ∧ t.evq = s.evq ∧
      t.port[p].rx = s.port[p].rx ++
        [⟨Frame.parse data ((data.drop 12).take (leAt data 2 2)), s.clk.shelf - age / 4 * 4, false, false⟩]) ∧
  (∀ (s : State) (p : Fin 64) (data : List Byte) (noise age : Nat), s.port[p].state = .up → s.port[p].credit ≠ 0 →
    data.length = 16 + leAt data 2 2 → leAt data 2 2 ≤ 576 →
    crc32c (data.take (12 + leAt data 2 2)) ≠ leAt data (12 + leAt data 2 2) 4 →
    ∃ t, exec (.rillFrameReceive p data .eof noise age) s = .next t ∧ t.port[p].started = (s.port[p].started + 1) % 256 ∧
      t.port[p].cnt.crcErr = bump s.port[p].cnt.crcErr ∧ t.port[p].rx = s.port[p].rx) ∧
  (∀ (s : State) (p : Fin 64) (data : List Byte) (e : RxEnd) (noise age : Nat), s.port[p].state = .up → s.port[p].credit = 0 →
    ∃ t, exec (.rillFrameReceive p data e noise age) s = .next t ∧ t.port[p].cnt.noCredit = bump s.port[p].cnt.noCredit ∧
      t.port[p].rx = s.port[p].rx ∧ t.port[p].started = s.port[p].started) ∧
  (∀ (s : State) (p : Fin 64), s.port[p].state = .up → s.port[p].credit ≠ 0 →
    ∃ t, exec (.rillRxTimeout p) s = .next t ∧ t.port[p].cnt.abandon = bump s.port[p].cnt.abandon ∧ t.port[p].rx = s.port[p].rx ∧
      t.port[p].started = (s.port[p].started + 1) % 256) ∧
  (∀ (s : State) (p : Fin 64) (cnt notCnt : Fin 256), s.port[p].state = .up → cnt.val + notCnt.val = 255 →
    ∃ t, exec (.rillCreditReceive p cnt notCnt) s = .next t ∧
      t.port[p] = { s.port[p] with grantBy := cnt.val, stallAt := t.port[p].stallAt } ∧ t.evq = s.evq ∧
      ∀ q : Fin 64, q ≠ p → t.port[q] = s.port[q]) ∧
  (∀ (s : State) (p : Fin 64) (cnt notCnt : Fin 256), cnt.val + notCnt.val ≠ 255 →
    ∃ t, exec (.rillCreditReceive p cnt notCnt) s = .next t ∧ t = s) ∧
  (∀ (s : State) (p : Fin 64) (f : Frame) (fs : List Frame), s.port[p].tx = f :: fs → s.port[p].state = .up → s.port[p].txCredit ≠ 0 →
    ∃ t, exec (.rillFrameTransmit p) s = .next t ∧
      t.port[p] = { s.port[p] with tx := fs, sent := (s.port[p].sent + 1) % 256, out := f.bytes, stallAt := t.port[p].stallAt } ∧
      t.evq = s.evq ∧ ∀ q : Fin 64, q ≠ p → t.port[q] = s.port[q]) ∧
  (∀ (s : State) (p : Fin 64) (q : RxItem) (qs : List RxItem), s.port[p].rx = q :: qs → q.frame.typ = 0 → q.stamped = false →
    ∃ t, exec (.stampFieldFrame p) s = .next t ∧ t.ord = s.ord ∧ t.port[p].rx = { q with stamped := true } :: qs ∧
      t.nodes = s.nodes) ∧
  (∀ (s : State) (p : Fin 64) (q : RxItem) (qs : List RxItem), s.port[p].rx = q :: qs → q.frame.typ = 2 →
    ∃ t, exec (.stampFieldFrame p) s = .next t ∧ t.ord = s.ord + 1 ∧ t.port[p].rx = qs ∧
      t.nodes.inbox = s.nodes.inbox ++ [⟨(s.homePort p).val * 32 + q.frame.node, p.val, q.frame, q.time, s.ord + 1⟩]) ∧
  (∀ (s : State) (m : InMsg) (ms : List InMsg) (p : Fin 64), s.nodes.inbox = m :: ms → m.frame.typ = 2 → m.port = p.val →
    m.frame.payload.length = 16 → leAt m.frame.payload 0 1 = 1 → s.par P.PORT_TOPOLOGY p = 1 → s.port[p].state = .up →
    ∃ t, exec .hubFrameReceive s = .next t ∧ t.nodes.inbox = ms ∧ t.port[p].hubAt = some s.clk.tick ∧
      t.port[p].hubLinks = leAt m.frame.payload 2 4 % 2 ^ 30) ∧
  (∀ (s : State) (p : Fin 64), s.held s.port[p].hubAt 75000000 = true →
    ∃ t, exec (.hubFrameTimeout p) s = .next t ∧ t.port[p].hubAt = none ∧ t.port[p].state = s.port[p].state) ∧
  (∀ (s : State) (p : Fin 64), s.held s.port[p].hubAt 75000000 = false → ∃ t, exec (.hubFrameTimeout p) s = .next t ∧ t = s)

/-- PMB_DISCOVERY, PMB_POLL_CYCLE, PMB_TRANSACTION_DONE, PMB_BUS_TIMEOUT, PMB_BUS_RECOVERY_RETRY, PMB_ALERT and PMB_ALERT_UNMASK. Where the spec leaves a value, an order or an instant open these clauses state the choice of the model: log entries 49, 128. -/
def Obligations.PmbusPort : Prop :=
  (∀ (s : State) (p : Fin 64) (g : Fin 16), s.port[p].state = .pmbus → s.parN P.PORT_PMB_ADDR (p.val * 16 + g.val) ≠ 0xFF →
    s.port[p].pmb.targets[g].present = false → s.port[p].pmb.jobs = [] →
    (s.port[p].pmb.targets[g].tryAt = none ∨ s.held s.port[p].pmb.targets[g].tryAt 250000000 = true) →
    ∃ t, exec (.pmbDiscovery p g) s = .next t ∧
      t.port[p].pmb.jobs.map (fun j => (j.target, j.cmd)) = [(g, 0x19), (g, 0x20), (g, 0x98), (g, 0x99), (g, 0x9A)]) ∧
  (∀ (s : State) (p : Fin 64), s.port[p].state = .pmbus → s.port[p].pmb.running = true →
    (s.port[p].pmb.dueAt = none ∨ s.held s.port[p].pmb.dueAt (s.parN P.PORT_PMB_PERIOD p * 250) = true) →
    ∃ t, exec (.pmbPollCycle p) s = .next t ∧ t.port[p].overrun = true ∧ t.port[p].pmb.due = true ∧
      t.port[p].pmb.dueAt = some s.clk.tick ∧ t.port[p].pmb.cycle = s.port[p].pmb.cycle ∧ t.evq = s.evq) ∧
  (∀ (s : State) (p : Fin 64) (data : List Byte) (j : PmbJob) (e : Nat), s.port[p].state = .pmbus → 150 ≤ s.port[p].free →
    s.port[p].stuck = false → s.port[p].pmb.jobs = [j] → j.why = .poll e → s.port[p].pmb.running = true → s.port[p].pmb.due = true →
    ∃ t, exec (.pmbTransactionDone p .ok data) s = .next t ∧ t.port[p].pmb.cycle = s.port[p].pmb.cycle + 1 ∧
      t.port[p].pmb.cycleAt = s.clk.tick ∧ t.port[p].pmb.due = false ∧
      t.evq = s.evq ++ [⟨0x0A0C, p.val, toWord 64 ((s.clk.tick - s.port[p].pmb.cycleAt) / 250 : Nat), s.clk.shelf⟩]) ∧
  (∀ (s : State) (p : Fin 64), s.port[p].state = .pmbus → s.port[p].pmb.running = false →
    (s.port[p].pmb.dueAt = none ∨ s.held s.port[p].pmb.dueAt (s.parN P.PORT_PMB_PERIOD p * 250) = true) →
    ∃ t, exec (.pmbPollCycle p) s = .next t ∧ t.port[p].pmb.cycle = s.port[p].pmb.cycle + 1 ∧ t.port[p].pmb.cycleAt = s.clk.tick ∧
      t.port[p].pmb.jobs = s.port[p].pmb.jobs ++ s.pollJobs p s.port[p].pmb.cycle ∧ t.evq = s.evq) ∧
  (∀ (s : State) (p : Fin 64) (data : List Byte) (j : PmbJob) (js : List PmbJob), s.port[p].state = .pmbus → 150 ≤ s.port[p].free →
    s.port[p].stuck = false → s.port[p].pmb.jobs = j :: js → j.why = .discover 4 →
    ∃ t, exec (.pmbTransactionDone p .ok data) s = .next t ∧ t.port[p].pmb.jobs = js ∧
      t.port[p].pmb.targets[j.target].present = true ∧ t.port[p].pmb.targets[j.target].fails = 0 ∧
      t.evq = s.evq ++ [⟨0x0A09, p.val, toWord 64 (j.target.val + 256 : Nat), s.clk.shelf⟩]) ∧
  (∀ (s : State) (p : Fin 64) (data : List Byte) (e : PmbEnd) (j : PmbJob) (js : List PmbJob), s.port[p].state = .pmbus →
    150 ≤ s.port[p].free → s.port[p].stuck = false → s.port[p].pmb.jobs = j :: js → j.why = .discover 4 → e ≠ .ok →
    (e = .pec → s.par P.PORT_PMB_PEC (p.val * 16 + j.target.val) = 1) →
    ∃ t, exec (.pmbTransactionDone p e data) s = .next t ∧
      t.port[p].pmb.targets[j.target].fails = s.port[p].pmb.targets[j.target].fails + 1 ∧
      t.port[p].cnt.pmbErr = bump s.port[p].cnt.pmbErr) ∧
  (∀ (s : State) (p : Fin 64) (cause : Nat) (rec_ : Bool), s.port[p].state = .pmbus →
    ∃ t, exec (.pmbBusTimeout p cause rec_) s = .next t ∧ t.port[p].stuck = !rec_ ∧
      t.evq.take (s.evq.length + 1) = s.evq ++ [⟨0x0A0B, p.val, toWord 64 (cause + b2n rec_ * 256 : Nat), s.clk.shelf⟩]) ∧
  (∀ (s : State) (p : Fin 64) (rec_ : Bool), s.port[p].state = .pmbus → s.port[p].stuck = true →
    s.held (some s.port[p].downAt) (s.parN P.PORT_RETRAIN_DELAY p * 250000) = true →
    ∃ t, exec (.pmbBusRecoveryRetry p rec_) s = .next t ∧ t = s.modPort p (fun x => { x with stuck := !rec_, downAt := s.clk.tick })) ∧
  (∀ (s : State) (p : Fin 64) (addr status : Nat) (still : Bool), s.port[p].state = .pmbus → s.port[p].maskAt = none →
    150 ≤ s.port[p].free → s.port[p].stuck = false →
    (∀ g : Fin 16, s.parN P.PORT_PMB_ADDR (p.val * 16 + g.val) ≠ addr) →
    ∃ t, exec (.pmbAlert p addr status still) s = .next t ∧ t.port[p].alert = still ∧ t.port[p].maskAt = none ∧
      t.evq = s.evq ++ [⟨0x0A0A, p.val, toWord 64 (255 + status % 2 ^ 16 * 2 ^ 16 : Nat), s.clk.shelf⟩]) ∧
  (∀ (s : State) (p : Fin 64), s.held s.port[p].maskAt 250000000 = true →
    ∃ t, exec (.pmbAlertUnmask p) s = .next t ∧ t = s.modPort p (fun x => { x with maskAt := none })) ∧
  (∀ (s : State) (p : Fin 64), s.held s.port[p].maskAt 250000000 = false → ∃ t, exec (.pmbAlertUnmask p) s = .next t ∧ t = s)

/-- NODE_OPEN_REQUEST, NODE_MSG_RECEIVE, NODE_REPLY, NODE_RETX_TIMEOUT, NODE_LEASE_LAPSE, NODE_CTRL_CLOSE and NODE_KEEPALIVE_SEND. Where the spec leaves a value, an order or an instant open these clauses state the choice of the model: log entries 55, 129. -/
def Obligations.NodeConversations : Prop :=
  (∀ (s : State) (m : InMsg) (ms : List InMsg), s.hasActive = true → s.nodes.inbox = m :: ms → m.frame.typ = 1 → m.isOpenReq = true →
    m.flags = 2 → m.body.length = 16 → (s.node m.addr).isOpen = false → s.openRefusal m.addr m.body = 0 →
    ∃ t, exec .nodeOpenRequest s = .next t ∧ t.nodes.inbox = ms ∧ (t.node m.addr).isOpen = true ∧
      (t.node m.addr).epoch = s.nodes.bootGen * 65536 + ((s.node m.addr).k % 65535 + 1) ∧ (t.node m.addr).uid = leAt m.body 4 8 ∧
      (t.node m.addr).rxSeq = 0 ∧ (t.node m.addr).req = none ∧ (t.node m.addr).opens = bump (s.node m.addr).opens ∧
      0x0B01 ∈ t.evq.map (·.code)) ∧
  (∀ (s : State) (m : InMsg) (ms : List InMsg), s.hasActive = true → s.nodes.inbox = m :: ms → m.frame.typ = 1 → m.isOpenReq = false →
    (s.node m.addr).isOpen = true → m.frame.epoch = (s.node m.addr).epoch → seqNewer m.frame.seq (s.node m.addr).rxSeq = true →
    m.flags = 1 → [1, 3, 4, 0x10, 0x11, 0x12, 0x20, 0x21, 0x22, 0x23].contains m.op = true →
    ∃ t, exec .nodeMsgReceive s = .next t ∧ t.nodes.inbox = ms ∧ (t.node m.addr).rxSeq = m.frame.seq ∧
      (t.node m.addr).lastRx = s.clk.tick ∧ t.nodes.replies = s.nodes.replies ++ [m]) ∧
  (∀ (s : State) (m : InMsg) (ms : List InMsg), s.hasActive = true → s.nodes.inbox = m :: ms → m.frame.typ = 1 → m.isOpenReq = false →
    m.frame.epoch ≠ (s.node m.addr).epoch →
    ∃ t, exec .nodeMsgReceive s = .next t ∧ t.nodes.inbox = ms ∧ (t.node m.addr).stale = bump (s.node m.addr).stale ∧
      (t.node m.addr).rxSeq = (s.node m.addr).rxSeq ∧ t.nodes.replies = s.nodes.replies) ∧
  (∀ (s : State) (m : InMsg) (ms : List InMsg) (r : NodeReq), s.hasActive = true → s.nodes.replies = m :: ms →
    (s.node m.addr).req = some r → r.seq = leAt m.frame.payload 4 4 → m.frame.epoch = (s.node m.addr).epoch → r.who = .action → (s.node m.addr).waiting = [] →
    ∃ t, exec .nodeReply s = .next t ∧ t.nodes.replies = ms ∧ (t.node m.addr).req = none ∧ t.port = s.port ∧ t.evq = s.evq) ∧
  (∀ (s : State) (a : Nat) (r : NodeReq), s.hasActive = true → (s.node a).req = some r →
    s.held (some r.sentAt) (s.parN P.NODE_RETX_TIME 0 * 250) = true → r.resends < s.parN P.NODE_RETX_MAX 0 →
    ∃ t, exec (.nodeRetxTimeout a) s = .next t ∧ (t.node a).req = some { r with resends := r.resends + 1, sentAt := s.clk.tick } ∧
      (t.node a).lastTx = s.clk.tick ∧ (t.node a).txSeq = (s.node a).txSeq ∧ t.evq = s.evq) ∧
  (∀ (s : State) (a : Nat), s.hasActive = true → (s.node a).isOpen = true →
    s.held (some (s.node a).lastRx) (s.parN P.NODE_LEASE a * 250000) = true →
    ∃ t, exec (.nodeLeaseLapse a) s = .next t ∧ (t.node a).isOpen = false ∧ (t.node a).epoch = 0 ∧ (t.node a).req = none ∧
      ⟨0x0B05, a, toWord 64 (lohi (s.node a).epoch ((s.clk.tick - (s.node a).lastRx) / 250000 : Nat)), s.clk.shelf⟩ ∈ t.evq) ∧
  (∀ (s : State) (a : Nat) (k : Fin 8), isNode a = true → s.mayControl k [8 + a / 32] = true → (s.node a).isOpen = true →
    ∃ t, exec (.nodeCtrlClose a k) s = .next t ∧ t.host.ctl = stOk ∧ (t.node a).isOpen = false ∧
      ⟨0x0B07, a, toWord 64 (3 + (s.node a).epoch * 2 ^ 32 : Nat), s.clk.shelf⟩ ∈ t.evq) ∧
  (∀ (s : State) (a : Nat), s.held (some (s.node a).lastRx) (s.parN P.NODE_LEASE a * 250000) = false →
    ∃ t, exec (.nodeLeaseLapse a) s = .next t ∧ t = s) ∧
  (∀ (s : State) (a : Nat), s.hasActive = true → (s.node a).isOpen = true →
    s.held (some (s.node a).lastTx) (s.parN P.NODE_LEASE a * 62500) = true →
    ∃ t, exec (.nodeKeepaliveSend a) s = .next t ∧ (t.node a).txSeq = seqNext (s.node a).txSeq ∧ (t.node a).lastTx = s.clk.tick ∧
      (t.node a).isOpen = true ∧ t.evq = s.evq)

/-- POOL_ADMIT_FRAME from an internal source. Where the spec leaves a value, an order or an instant open these clauses state the choice of the model: log entry 139. -/
def Obligations.PoolAdmits : Prop :=
  (∀ (s : State) (i : Fin 3) (pt v time : Nat) (fs : List (List (Nat × Nat × Nat))) (k : Nat), s.hasActive = true →
    s.slu.stalled[(1 : Fin 6)] = false → s.silt.full = false → s.pool.events.length < 4096 → s.pool.ptr = 64 + i.val →
    s.pool.src[i] = [(pt, v, time)] :: fs → s.srcSlot i.val pt = some k → s.sluiceRoom 1 1 = true →
    ∃ t, exec .poolAdmitFrame s = .next t ∧ t.pool.src[i] = fs ∧ t.pool.ptr = (65 + i.val) % 67 ∧
      t.slu.used[(1 : Fin 6)] = s.slu.used[(1 : Fin 6)] + 1 ∧ (t.slot k).value = v ∧ (t.slot k).time = time ∧ (t.slot k).valid = true ∧
      t.pool.updates = (s.pool.updates + 1) % 2 ^ 64 ∧ ∀ j : Nat, j ≠ k → t.slot j = s.slot j) ∧
  (∀ (s : State) (i : Fin 3) (f : List (Nat × Nat × Nat)) (fs : List (List (Nat × Nat × Nat))), s.hasActive = true →
    s.slu.stalled[(1 : Fin 6)] = false → s.silt.full = false → s.pool.events.length + f.length ≤ 4096 → s.pool.ptr = 64 + i.val →
    s.pool.src[i] = f :: fs → s.sluiceRoom 1 f.length = false →
    ∃ t, exec .poolAdmitFrame s = .next t ∧ t.slu.stalled[(1 : Fin 6)] = true ∧ t.slu.used = s.slu.used ∧ t.pool = s.pool) ∧
  (∀ s : State, s.hasActive = false → ∃ t, exec .poolAdmitFrame s = .next t ∧ t = s)

/-- POOL_ACTION_LOOP_STOP, POOL_ACTION_NODE_OFF, SUB_NOTICE_POST and POOL_SCRUB. Where the spec leaves a value, an order or an instant open these clauses state the choice of the model: log entries 60, 118, 139, 141. -/
def Obligations.PoolActsAndScrubs : Prop :=
  (∀ (s : State) (a : PoolAct) (as : List PoolAct) (l : Fin 16), s.hasActive = true → s.pool.acts = a :: as → a.code = 2 →
    a.arg % 16 = l.val → s.loop[l].ct.state = .running →
    ∃ t, exec .poolActionLoopStop s = .next t ∧ t.pool.acts = as ∧ t.ord = s.ord + 1 ∧ t.loop[l].ct.state = .stopped ∧
      t.loop[l].ct.cause = 0 ∧ ∀ j : Fin 16, j ≠ l → t.loop[j] = s.loop[j]) ∧
  (∀ (s : State) (a : PoolAct) (as : List PoolAct) (n : Nat), s.hasActive = true → s.pool.acts = a :: as → a.code = 3 →
    a.arg % 65536 = n → (s.node n).isOpen = true → (s.node n).req = none →
    ∃ t, exec .poolActionNodeOff s = .next t ∧ t.pool.acts = as ∧ (t.node n).txSeq = seqNext (s.node n).txSeq ∧
      (t.node n).req = some ⟨0x20, seqNext (s.node n).txSeq, 0, [1, 0, 0, 0], .action, s.clk.tick⟩) ∧
  (∀ s : State, s.hasActive = true → s.sluiceSpent 2 = false →
    ∃ t, exec .subNoticePost s = .next t ∧ t.pool.events = s.pool.events.drop 48 ∧ t.pool.slot = s.pool.slot ∧
      (s.pool.subs = [] → t = { s with pool := { s.pool with events := s.pool.events.drop 48 } })) ∧
  (∀ s : State, ∃ t, exec (.poolScrub .clean) s = .next t ∧ t = s) ∧
  (∀ (s : State) (k : Fin 2) (w : Nat), s.stemOk k = true →
    ∃ t, exec (.poolScrub (.single k w)) s = .next t ∧ t.pool = { s.pool with ce := bump s.pool.ce } ∧ t.stemRep = s.stemRep ∧
      t.evq = s.evq ++ [⟨0x0C04, k.val, toWord 64 w, s.clk.shelf⟩]) ∧
  (∀ (s : State) (k : Fin 2) (w : Nat) (subs : List Nat) (hand : Bool), s.stemOk k = true → s.stemOk (1 - k) = true →
    ∃ t, exec (.poolScrub (.double k w subs hand)) s = .next t ∧ t.pool = { s.pool with ue := bump s.pool.ue } ∧
      t.stemRep = s.stemRep ++ [(k.val, 1)] ∧
      t.evq = s.evq ++ [⟨0x0C05, k.val, toWord 64 (poolRegion w + w * 2 ^ 32 : Nat), s.clk.shelf⟩])

/-- R345, over SILT_EVENT, SILT_RECORD_COMMIT and SILT_TALLY_WRITE. The record region begins at 0xC00000 (R339). -/
def Obligations.RecordSequences : Prop :=
  siltMod = 786432 * 5461 ∧
  (∀ (s : State) (e : LogEv) (es : List LogEv), s.evq = e :: es → s.hasActive = true → s.silt.full = false →
    s.silt.next ≤ 4294705151 →
    ∃ t, exec .siltEvent s = .next t ∧ t.evq = es ∧ t.silt.done = s.silt.done ∧
      ((t.silt.next = (if s.silt.next = 4294705151 then 0 else s.silt.next + 1) ∧
          t.silt.queue.map (fun r => (r.seq, r.code, r.src)) =
            s.silt.queue.map (fun r => (r.seq, r.code, r.src)) ++ [(s.silt.next, e.code, e.src)]) ∨
        (t.silt.next = s.silt.next ∧ t.silt.queue.map (·.seq) = s.silt.queue.map (·.seq)))) ∧
  (∀ (s : State) (r : SRec) (rs : List SRec), s.silt.queue = r :: rs → s.hasActive = true → s.brownWarn = false →
    s.slu.stalled[(3 : Fin 6)] = false → s.sluiceRoom 3 1 = true → s.storeOwes = false → s.savedHeld = false →
    ∃ t, exec .siltRecordCommit s = .next t ∧ t.silt.queue = rs ∧ t.silt.next = s.silt.next ∧
      t.silt.done = (r.seq + 1) % 4294705152 ∧ t.load (0xC00000 + 32 * (r.seq % 786432)) 32 = (s.recSealed r).bytes ∧
      ∀ a : Nat, ¬ (0xC00000 + 32 * (r.seq % 786432) ≤ a ∧ a < 0xC00000 + 32 * (r.seq % 786432) + 32) →
        mramByte t.mram a = mramByte s.mram a) ∧
  (∀ (s : State) (q : Nat × Nat) (qs : List (Nat × Nat)), s.silt.tallyDue = q :: qs → s.hasActive = true → s.brownWarn = false →
    (s.silt.ledgerDue = false ∨ s.silt.ledgerAfter ≠ 0) →
    ∃ t, exec .siltTallyWrite s = .next t ∧ t.silt.tallyDue = qs ∧ t.silt.next = s.silt.next ∧ t.silt.done = s.silt.done ∧
      t.silt.queue = s.silt.queue ∧
      t.load (0xC00000 + 32 * (q.1 % 786432) + 28) 4 = leBytes 2 q.2 ++ leBytes 2 (65535 - q.2) ∧
      ∀ a : Nat, ¬ (0xC00000 + 32 * (q.1 % 786432) + 28 ≤ a ∧ a < 0xC00000 + 32 * (q.1 % 786432) + 32) →
        mramByte t.mram a = mramByte s.mram a)

/-- LEDGER_WRITE, SILT_CURSOR_WRITE, SILT_WIN_LATCH, SILT_WIN_AUTO_ADVANCE and SILT_CTRL_CLEAR. Where the spec leaves a value, an order or an instant open these clauses state the choice of the model: log entries 70, 130. -/
def Obligations.LedgerAndLogReads : Prop :=
  (∀ s : State, s.dev.held = false → s.dev.state ≠ .dormant →
    ((s.brownWarn = false ∧ (s.silt.ledgerDue = true ∨ s.ledgerOld = true) ∧ s.ledgerNeed.silt.ledgerAfter = 0) ∨
      (s.brownWarn = true ∧ s.silt.ledgerWarn = true)) →
    ∃ t, exec .ledgerWrite s = .next t ∧ t.silt.copyB = !s.silt.copyB ∧ t.silt.gen = (s.silt.gen + 1) % 2 ^ 32 ∧
      t.silt.ledgerDue = false ∧ t.load (ledgerAddr t.silt.copyB) 4096 = s.ledgerBytes t.silt.gen ∧
      ∀ a : Nat, ¬ (ledgerAddr t.silt.copyB ≤ a ∧ a < ledgerAddr t.silt.copyB + 4096) → mramByte t.mram a = mramByte s.mram a) ∧
  (∀ s : State, ((s.brownWarn = false ∧ s.silt.ledgerDue = false ∧ s.ledgerOld = false) ∨
      (s.brownWarn = true ∧ s.silt.ledgerWarn = false)) → ∃ t, exec .ledgerWrite s = .next t ∧ t = s) ∧
  (∀ (s : State) (p : Fin 4) (v : Nat), s.hostUp = true → v ≤ 4294705151 →
    ∃ t, exec (.siltCursorWrite p v) s = .next t ∧ t.host.port[p] = { s.host.port[p] with cursor := v } ∧ t.mram = s.mram) ∧
  (∀ (s : State) (p : Fin 4) (v : Nat), (s.hostUp = false ∨ 4294705151 < v) → ∃ t, exec (.siltCursorWrite p v) s = .next t ∧ t = s) ∧
  (∀ (s : State) (p : Fin 4), s.hostUp = true → s.dev.nvOn = true →
    ∃ t, exec (.siltWinLatch p) s = .next t ∧ t.host.port[p].cursor = (s.siltLatch s.host.port[p].cursor).1 ∧
      t.host.port[p].latch = (s.siltLatch s.host.port[p].cursor).2.1 ∧
      t.host.port[p].win = msgWords 8 (s.siltLatch s.host.port[p].cursor).2.2.2 ∧ t.mram = s.mram ∧ t.silt = s.silt) ∧
  (∀ (s : State) (p : Fin 4), s.hostUp = true → s.dev.nvOn = true →
    ∃ t, exec (.siltWinAutoAdvance p) s = .next t ∧ t.host.port[p].rdata = s.host.port[p].win.getD 7 0 ∧
      t.host.port[p].cursor = (if s.host.port[p].auto = true ∧ s.host.port[p].latched = true ∧ s.host.port[p].latch ≠ 1 then (s.host.port[p].cursor + 1) % 4294705152
        else s.host.port[p].cursor) ∧ t.silt = s.silt) ∧
  (∀ (s : State) (k : Fin 8), s.mayControl k [4] = true → (s.sess k).role = 1 →
    ∃ t, exec (.siltCtrlClear k) s = .next t ∧ t.host.ctl = stOk ∧ t.silt = s.silt ∧
      (t.evq.drop s.evq.length).map (fun e => (e.code, e.src)) = [(0x0D01, k.val)]) ∧
  (∀ (s : State) (k : Fin 8), s.hasActive = true → (s.sess k).role ≠ 1 → s.brownWarn = false →
    ∃ t, exec (.siltCtrlClear k) s = .next t ∧ t.host.ctl = stNoPermit ∧ t.silt = s.silt ∧ t.evq = s.evq)

/-- SPATE_FRAME, SPATE_TRIGGER, SPATE_FREEZE, SPATE_BLOCK_COPY, SPATE_CTRL_TRIGGER, SPATE_CTRL_LOCK and SPATE_CTRL_UNLOCK. Where the spec leaves a value, an order or an instant open these clauses state the choice of the model: log entries 71, 72, 130, 140. -/
def Obligations.SpateCaptures : Prop :=
  (∀ s : State, s.hasActive = true → s.par P.SPATE_ENABLE 0 ≠ 0 → s.spate.buf[(0 : Fin 2)].st = .running →
    s.clk.tick % s.spate.buf[(0 : Fin 2)].every = 0 → s.spate.buf[(0 : Fin 2)].frames.length < s.spate.buf[(0 : Fin 2)].depth →
    ∃ t, exec .spateFrame s = .next t ∧ t.spate.buf[(0 : Fin 2)].frames =
        s.spate.buf[(0 : Fin 2)].frames ++ [(s.clk.shelf, s.spate.buf[(0 : Fin 2)].sig.map s.signal)] ∧
      t.spate.buf[(1 : Fin 2)] = s.spate.buf[(1 : Fin 2)]) ∧
  (∀ s : State, s.spate.buf[(0 : Fin 2)].st = .running → s.clk.tick % s.spate.buf[(0 : Fin 2)].every ≠ 0 →
    ∃ t, exec .spateFrame s = .next t ∧ t = s) ∧
  (∀ (s : State) (q : SpTrig), s.hasActive = true → s.par P.SPATE_ENABLE 0 ≠ 0 → s.spate.trigs = [q] → q.code < 7 →
    s.trigTaken q = true → s.spate.buf[(0 : Fin 2)].st = .running →
    ∃ t, exec .spateTrigger s = .next t ∧ t.spate.trigs = [] ∧ t.spate.buf[(0 : Fin 2)].st = .post ∧
      t.spate.buf[(0 : Fin 2)].trig = q ∧ t.spate.missed = s.spate.missed) ∧
  (∀ s : State, s.hasActive = true → s.spate.buf[(0 : Fin 2)].st = .post → s.slotLocked s.spate.next = false →
    s.spate.buf[(0 : Fin 2)].complete = true →
    ∃ t, exec .spateFreeze s = .next t ∧ t.spate.buf[(0 : Fin 2)].st = .frozen ∧ t.spate.buf[(0 : Fin 2)].slot = some s.spate.next ∧
      t.spate.buf[(0 : Fin 2)].blk = 0 ∧ t.spate.order = s.spate.order ++ [0] ∧ t.spate.next = s.spate.next + 1) ∧
  (∀ (s : State) (b : Fin 2) (rest : List (Fin 2)) (k : Fin 48), s.hasActive = true → s.brownWarn = false →
    s.slu.stalled[(4 : Fin 6)] = false → s.sluiceRoom 4 1 = true → s.storeOwes = false → s.spate.order = b :: rest → s.spate.buf[b].slot = some k →
    0 < s.spate.buf[b].blk → s.spate.buf[b].blk < 8064 →
    ∃ t, exec .spateBlockCopy s = .next t ∧ t.spate.buf[b].blk = s.spate.buf[b].blk + 1 ∧ t.spate.order = s.spate.order ∧
      ∀ a : Nat, ¬ (slotAddr k + 4096 + 32 * s.spate.buf[b].blk ≤ a ∧ a < slotAddr k + 4096 + 32 * s.spate.buf[b].blk + 32) →
        mramByte t.mram a = mramByte s.mram a) ∧
  (∀ (s : State) (k : Fin 8), s.mayControl k [0] = true →
    ∃ t, exec (.spateCtrlTrigger k) s = .next t ∧ t.host.ctl = stOk ∧
      t.spate.trigs = s.spate.trigs ++ [⟨0, 0, s.clk.shelf, s.ord⟩] ∧ t.mram = s.mram) ∧
  (∀ (s : State) (n : Fin 48) (k : Fin 8), s.mayControl k [4] = true →
    ∃ t, exec (.spateCtrlLock n k) s = .next t ∧ t.host.ctl = stOk ∧ t.slotLocked n = true ∧
      (∀ a : Nat, ¬ (slotAddr n + 4088 ≤ a ∧ a < slotAddr n + 4092) → mramByte t.mram a = mramByte s.mram a) ∧
      t.evq = s.evq ++ [⟨0x0D12, n.val, toWord 64 (1 + k.val * 65536 : Nat), s.clk.shelf⟩]) ∧
  (∀ (s : State) (n : Fin 48) (k : Fin 8), s.mayControl k [4] = true →
    ∃ t, exec (.spateCtrlUnlock n k) s = .next t ∧ t.host.ctl = stOk ∧ t.slotLocked n = false ∧
      (∀ a : Nat, ¬ (slotAddr n + 4088 ≤ a ∧ a < slotAddr n + 4092) → mramByte t.mram a = mramByte s.mram a) ∧
      t.evq = s.evq ++ [⟨0x0D12, n.val, toWord 64 (k.val * 65536 : Nat), s.clk.shelf⟩])

/-- TIMER_ADVANCE, TIMER_WRITE_APPLY, TIMER_CTRL_START, TIMER_CTRL_STOP, TIMER_CTRL_CLEAR and TIMER_CAPTURE. Where the spec leaves a value, an order or an instant open these clauses state the choice of the model: log entries 64, 133. -/
def Obligations.TimersCount : Prop :=
  (∀ (s : State) (n : Fin 32), s.dev.held = false → s.timer[n].running = true → s.timer[n].phase + s.timer[n].prescale ≤ s.clk.tick → s.timer[n].cmpEn = false →
    ∃ t, exec (.timerAdvance n) s = .next t ∧
      t.timer[n].count = (if s.timer[n].reload ≤ s.timer[n].count then 0 else s.timer[n].count + 1) ∧
      t.timer[n].matched = s.timer[n].matched ∧ t.timer[n].phase = s.timer[n].phase + s.timer[n].prescale ∧ ∀ m : Fin 32, m ≠ n → t.timer[m] = s.timer[m]) ∧
  (∀ (s : State) (n : Fin 32), s.dev.held = false → s.timer[n].running = true → s.timer[n].phase + s.timer[n].prescale ≤ s.clk.tick → s.timer[n].cmpEn = true →
    s.timer[n].count < s.timer[n].reload →
    s.timer[n].cmp = s.timer[n].count + 1 →
    ∃ t, exec (.timerAdvance n) s = .next t ∧ t.timer[n].count = s.timer[n].count + 1 ∧ t.timer[n].matched = true ∧
      t.timer[n].matchCnt = bump s.timer[n].matchCnt ∧
      t.timer[n].cmp = (s.timer[n].cmp + s.timer[n].interval) % (s.timer[n].reload + 1)) ∧
  (∀ (s : State) (n : Fin 32), (s.dev.held = true ∨ s.timer[n].running = false ∨ s.clk.tick < s.timer[n].phase + s.timer[n].prescale) →
    ∃ t, exec (.timerAdvance n) s = .next t ∧ t = s) ∧
  (∀ (s : State) (n : Fin 32) (k : Fin 8), s.mayControl k [0] = true →
    ∃ t, exec (.timerCtrlStart n k) s = .next t ∧ t.host.ctl = stOk ∧
      t.timer[n] = { s.timer[n] with writes := s.timer[n].writes ++ [(s.clk.tick + 250, .start)] }) ∧
  (∀ (s : State) (n : Fin 32) (k : Fin 8), s.mayControl k [0] = true →
    ∃ t, exec (.timerCtrlStop n k) s = .next t ∧ t.host.ctl = stOk ∧
      t.timer[n] = { s.timer[n] with writes := s.timer[n].writes ++ [(s.clk.tick + 250, .stop)] }) ∧
  (∀ (s : State) (n : Fin 32) (k : Fin 8), s.mayControl k [0] = true →
    ∃ t, exec (.timerCtrlClear n k) s = .next t ∧ t.host.ctl = stOk ∧
      t.timer[n] = { s.timer[n] with writes := s.timer[n].writes ++ [(s.clk.tick + 250, .clear)] }) ∧
  (∀ (s : State) (n : Fin 32) (at_ : Nat) (w : TimerWrite) (ws : List (Nat × TimerWrite)), s.dev.held = false → s.timer[n].writes = (at_, w) :: ws →
    at_ ≤ s.clk.tick → (∀ q ∈ ws, s.clk.tick < q.1) →
    (s.timer[n].running = false ∨ s.clk.tick < s.timer[n].phase + s.timer[n].prescale) →
    ∃ t, exec (.timerWriteApply n) s = .next t ∧ t.timer[n].writes = ws ∧
      (w = .start → t.timer[n] = { s.timer[n] with writes := ws, running := true, phase := s.clk.tick }) ∧
      (w = .stop → t.timer[n] = { s.timer[n] with writes := ws, running := false }) ∧
      (w = .clear → t.timer[n] = { s.timer[n] with writes := ws, count := 0 })) ∧
  (∀ (s : State) (n : Fin 32), (∀ q ∈ s.timer[n].writes, s.clk.tick < q.1) →
    (s.timer[n].running = false ∨ s.clk.tick < s.timer[n].phase + s.timer[n].prescale) →
    ∃ t, exec (.timerWriteApply n) s = .next t ∧ t.timer[n] = s.timer[n] ∧ t.evq = s.evq) ∧
  (∀ (s : State) (n : Fin 32) (src : Fin 51) (falling : Bool) (held : Nat), s.dev.held = false → 1 ≤ src.val → src.val ≤ 16 → s.timer[n].src = src.val →
    (s.timer[n].edge = 2 ∨ s.timer[n].edge = b2n falling) → s.timer[n].filt ≤ held → s.timer[n].recog = [] →
    s.timer[n].queue.length < 4 →
    ∃ t, exec (.timerCapture src falling held) s = .next t ∧ s.ord < t.ord ∧
      t.timer[n].queue = s.timer[n].queue ++ [⟨s.shelfBack held, s.timer[n].countAt (s.clk.tick - held), src.val⟩] ∧ t.timer[n].recog = [] ∧
      t.timer[n].dropped = s.timer[n].dropped) ∧
  (∀ (s : State) (n : Fin 32) (src : Fin 51) (falling : Bool) (held : Nat), s.dev.held = false → 1 ≤ src.val → src.val ≤ 16 → s.timer[n].src = src.val →
    (s.timer[n].edge = 2 ∨ s.timer[n].edge = b2n falling) → s.timer[n].filt ≤ held → s.timer[n].recog = [] →
    4 ≤ s.timer[n].queue.length →
    ∃ t, exec (.timerCapture src falling held) s = .next t ∧ t.timer[n].queue = s.timer[n].queue ∧ t.timer[n].overrun = true ∧
      t.timer[n].dropped = bump s.timer[n].dropped)

/-- STEM_HEARTBEAT, STEM_SILENCE, STEM_FAULT_REPORT, STEM_WATCHDOG_EXPIRE, STEM_OUTPUT_COPY, STEM_OUTPUT_LATE and BRIDGE_FLIT_CRC_FAIL. Where the spec leaves a value, an order or an instant open these clauses state the choice of the model: log entries 27, 74, 132, 143. -/
def Obligations.StemsFail : Prop :=
  (∀ (s : State) (k : Fin 2) (count : Nat), s.stemSt k ≠ .off → s.stemSt k ≠ .failed →
    ∃ t, exec (.stemHeartbeat k count) s = .next t ∧ t.stems.stem[k].hbAt = s.clk.tick ∧ t.stems.stem[k].hbCount = count ∧
      t.stemSt k = s.stemSt k ∧ t.stems.stem[1 - k] = s.stems.stem[1 - k]) ∧
  (∀ (s : State) (k : Fin 2), s.stemSt k = .standby → (s.stems.stem[k]).silent s.clk.tick = true → s.stemSt (1 - k) = .active →
    ∃ t, exec (.stemSilence k) s = .next t ∧ t.stemSt k = .failed ∧ t.stems.stem[1 - k] = s.stems.stem[1 - k] ∧ t.spring.kind = 7 ∧
      t.evq.take (s.evq.length + 1) = s.evq ++ [⟨0x1004, k.val, 1, s.clk.shelf⟩]) ∧
  (∀ (s : State) (k : Fin 2), (s.stems.stem[k]).silent s.clk.tick = false → ∃ t, exec (.stemSilence k) s = .next t ∧ t = s) ∧
  (∀ (s : State) (k : Fin 2), s.stemSt k = .active → (s.stems.stem[k]).silent s.clk.tick = true → s.stemSt (1 - k) = .standby →
    ∃ t, exec (.stemSilence k) s = .next t ∧ t.stemSt k = .failed ∧ t.stemSt (1 - k) = .active ∧ t.stems.switched = true ∧
      t.stems.switchovers = bump s.stems.switchovers ∧ t.stems.input = some (2, 0, t.passed[(1 : Fin 5)]) ∧ t.stems.waiting = []) ∧
  (∀ (s : State) (k : Fin 2), s.stemSt k = .active → (s.stems.stem[k]).silent s.clk.tick = true → s.stemSt (1 - k) ≠ .standby →
    ∃ t, exec (.stemSilence k) s = .next t ∧ t.hasActive = false ∧ t.spring.kind = 8 ∧
      t.spring.fwCause = (if s.failedJust (1 - k) then 1 else 2)) ∧
  (∀ (s : State) (k : Fin 2) (kind : Nat) (l : Fin 16), s.stemSt k = .standby → s.stemSt (1 - k) = .active → 0 < kind → kind ≤ 9 →
    ∃ t, exec (.stemFaultReport k kind l) s = .next t ∧ t.stemSt k = .failed ∧ t.stemSt (1 - k) = .active ∧ t.stems.selfFault = true ∧
      t.stems.lastFault = kind ∧ t.spring.kind = (if kind = 5 then 6 else 7)) ∧
  (∀ (s : State) (k : Fin 2) (l : Fin 16), s.stemSt k = .active → s.stemSt (1 - k) ≠ .standby →
    ∃ t, exec (.stemFaultReport k 1 l) s = .next t ∧ t.stemSt k = .active ∧ t.stems.selfFault = true ∧ t.spring = s.spring ∧
      t.evq.take (s.evq.length + 1) = s.evq ++ [⟨0x1003, k.val, 0x10101, s.clk.shelf⟩]) ∧
  (∀ (s : State) (k : Fin 2), s.stemSt k = .standby → s.stemSt (1 - k) = .active → s.firm.trialSlot = none →
    ∃ t, exec (.stemWatchdogExpire k) s = .next t ∧ t.stemSt k = .failed ∧ t.stemSt (1 - k) = .active ∧ t.spring.kind = 6) ∧
  (∀ (s : State) (k : Fin 2), s.stemOk k = true → s.firm.trialSlot.isSome = true →
    ∃ t, exec (.stemWatchdogExpire k) s = .next t ∧ t.hasActive = false ∧ t.spring.kind = 8 ∧ t.spring.fwCause = 5) ∧
  (∀ (s : State) (k : Fin 2) (g : Fin 5) (n : Nat) (bits : List Byte), s.stemSt k = .active → s.redundant = false →
    s.agreeing = false →
    ∃ t, exec (.stemOutputCopy k g n bits) s = .next t ∧ t = { s with passed := upd s.passed g (fun p => max p n) }) ∧
  (∀ (s : State) (k : Fin 2) (g : Fin 5) (n : Nat) (bits : List Byte), s.redundant = true → s.stems.waiting = [] →
    ∃ t, exec (.stemOutputCopy k g n bits) s = .next t ∧ t.stems.waiting = [⟨k, g, n, bits, s.clk.tick⟩] ∧ t.stems.stem = s.stems.stem) ∧
  (∀ (s : State) (k : Fin 2) (g : Fin 5) (n : Nat) (bits : List Byte) (o : OutCopy) (os : List OutCopy), s.redundant = true →
    s.stems.waiting = o :: os → o.stem = 1 - k → o.group = g → o.oseq = n → o.bits = bits →
    ∃ t, exec (.stemOutputCopy k g n bits) s = .next t ∧ t.stems.waiting = os ∧ t.stems.stem = s.stems.stem ∧
      t.stems.divergences = s.stems.divergences) ∧
  (∀ (s : State) (k : Fin 2) (g : Fin 5) (n : Nat) (bits : List Byte) (o : OutCopy) (os : List OutCopy), s.redundant = true →
    s.stems.waiting = o :: os → o.stem = 1 - k → o.group = g → o.oseq = n → o.bits ≠ bits → s.stems.doubt = none →
    ∃ t, exec (.stemOutputCopy k g n bits) s = .next t ∧ t.stems.stem = s.stems.stem ∧ t.stems.waiting = os ∧
      t.stems.doubt = some (g.val, 1, n, s.clk.tick)) ∧
  (∀ (s : State) (o : OutCopy) (os : List OutCopy), s.redundant = true → s.stems.waiting = o :: os → s.stemSt o.stem = .active →
    o.at_ + 375 ≤ s.clk.tick → s.stems.doubt = none →
    ∃ t, exec .stemOutputLate s = .next t ∧ t.stems.stem = s.stems.stem ∧ t.stems.waiting = os ∧
      t.stems.doubt = some (o.group.val, 2, o.oseq, s.clk.tick)) ∧
  (∀ (s : State) (g kind n at_ : Nat) (j : Fin 2), s.pending = [] → s.clk.dlRef = true → s.stems.doubt = some (g, kind, n, at_) →
    at_ + 500 ≤ s.clk.tick + 1 → s.stemSt j = .standby → s.stemSt (1 - j) = .active →
    ∃ t, step s = .next t ∧ t.stemSt j = .sync ∧ t.stemSt (1 - j) = .active ∧ t.stems.diverged = true ∧ t.stems.doubt = none ∧
      t.stems.divergences = bump s.stems.divergences ∧ t.stems.waiting = []) ∧
  (∀ (s : State) (o : OutCopy) (os : List OutCopy), s.stems.waiting = o :: os → s.clk.tick < o.at_ + 375 →
    ∃ t, exec .stemOutputLate s = .next t ∧ t = s) ∧
  (∀ (s : State) (o : OutCopy) (os : List OutCopy), s.redundant = true → s.stems.waiting = o :: os → s.stemSt o.stem = .standby →
    o.at_ + 375 ≤ s.clk.tick →
    ∃ t, exec .stemOutputLate s = .next t ∧ t.stemSt o.stem = .active ∧ t.stemSt (1 - o.stem) = .failed ∧
      t.stems.input = some (3, 0, t.passed[(1 : Fin 5)])) ∧
  (∀ (s : State) (link : Fin 6) (n : Fin 4), s.hasActive = true → n ≠ 3 →
    ∃ t, exec (.bridgeFlitCrcFail link n) s = .next t ∧ t.stems.resend = upd s.stems.resend link bump ∧
      t.evq.map (fun e => (e.code, e.src)) = s.evq.map (fun e => (e.code, e.src)) ++ [(0x1008, link.val)] ∧ t.stemRep = s.stemRep) ∧
  (∀ (s : State) (link : Fin 6), s.hasActive = true → ∃ t, exec (.bridgeFlitCrcFail link 3) s = .next t ∧ t.stemRep = s.stemRep ++ [((linkStem link).val, 4)] ∧
    t.stems = s.stems)

/-- STEM_BOOT_COMPLETE, STEM_RESTART_COMPLETE, STEM_RESYNC_PASS, STEM_DIGEST_ROUND, STEM_SYNC_AGREEMENT, STEM_RESYNC_TIMEOUT,
STEM_SWITCHOVER_INPUT, STEM_CTRL_SWITCHOVER, STEM_CTRL_RESYNC and STEM_CTRL_RESTART_STANDBY. Where the spec leaves a value, an order or an instant open these clauses state the choice of the model: log entries 27, 73, 132. -/
def Obligations.StemsResynchronise : Prop :=
  (∀ (s : State) (k : Fin 2), s.stemSt k = .boot → s.stemSt (1 - k) = .boot →
    ∃ t, exec (.stemBootComplete k) s = .next t ∧ t.ord = 0 ∧
      t.stemSt 0 = (if s.par P.STEM_PREFERRED 0 = 1 then .standby else .active) ∧
      t.stemSt 1 = (if s.par P.STEM_PREFERRED 0 = 1 then .active else .standby)) ∧
  (∀ (s : State) (k : Fin 2), s.stemSt k = .boot → s.stemSt (1 - k) = .active →
    ∃ t, exec (.stemBootComplete k) s = .next t ∧ t.stemSt k = .sync ∧ t.stemSt (1 - k) = .active ∧
      t.stems.sync = some ⟨s.clk.tick, 0, 0, 0, 0⟩ ∧ t.ord = s.ord) ∧
  (∀ (s : State) (k : Fin 2), s.stemSt k = .boot → s.stemSt (1 - k) = .off ∨ s.stemSt (1 - k) = .failed →
    ∃ t, exec (.stemBootComplete k) s = .next t ∧ t.stemSt k = .active ∧ t.stemSt (1 - k) = s.stemSt (1 - k)) ∧
  (∀ (s : State) (k : Fin 2), s.stemSt k = .failed → s.stems.stem[k].hot = false → s.stems.stem[k].low = false →
    s.stems.stem[k].restarts.length < s.parN P.STEM_RESTART_MAX 0 →
    ∃ t, exec (.stemRestartComplete k) s = .next t ∧ t.stemSt k = .boot ∧ s.clk.tick ∈ t.stems.stem[k].restarts ∧
      t.stems.stem[1 - k] = s.stems.stem[1 - k]) ∧
  (∀ (s : State) (k : Fin 2), s.stemSt k = .failed → s.stems.stem[k].hot = false → s.stems.stem[k].low = false →
    (∀ q ∈ s.stems.stem[k].restarts, s.clk.tick < q + 900000000000) → s.parN P.STEM_RESTART_MAX 0 ≤ s.stems.stem[k].restarts.length →
    ∃ t, exec (.stemRestartComplete k) s = .next t ∧ t.stemSt k = .off ∧ t.stems.stem[k].limited = true ∧
      t.evq.take (s.evq.length + 1) = s.evq ++ [⟨0x1004, k.val, 3, s.clk.shelf⟩]) ∧
  (∀ (s : State) (r : SyncRun), s.stems.sync = some r → r.stage < 3 → s.sluiceSpent 5 = false →
    ∃ t, exec (.stemResyncPass true) s = .next t ∧ t.stems = { s.stems with sync := some { r with stage := r.stage + 1, dirty := r.dirty + 1 } }) ∧
  (∀ (s : State) (r : SyncRun) (dirty : Bool), s.stems.sync = some r → s.sluiceSpent 5 = false → r.stage < 4 → (dirty = false ∨ r.stage = 3) →
    ∃ t, exec (.stemResyncPass dirty) s = .next t ∧ t.stems = { s.stems with sync := some { r with stage := 4 } }) ∧
  (∀ (s : State) (r : SyncRun) (dirty : Bool), s.stems.sync = some r → s.sluiceSpent 5 = true →
    ∃ t, exec (.stemResyncPass dirty) s = .next t ∧ t.stems = s.stems ∧ t.slu.stalled[(5 : Fin 6)] = true) ∧
  (∀ (s : State) (r : SyncRun), s.stems.sync = some r → s.sluiceSpent 5 = false → r.stage = 5 →
    ∃ t, exec (.stemDigestRound 0) s = .next t ∧ t.stems = { s.stems with sync := some { r with stage := 6, rounds := r.rounds + 1, agreeAt := s.clk.tick } }) ∧
  (∀ (s : State) (r : SyncRun) (k : Fin 2) (m : Nat), s.stems.sync = some r → s.sluiceSpent 5 = false → r.stage = 5 → 2 ≤ r.rounds → 0 < m → s.stemOf .sync = some k →
    ∃ t, exec (.stemDigestRound m) s = .next t ∧ t.stemSt k = .failed ∧ t.stems.resyncFailed = true ∧ t.stems.sync = none) ∧
  (∀ (s : State) (r : SyncRun) (k : Fin 2), s.stems.sync = some r → r.stage = 6 → r.agreeAt + 250000 ≤ s.clk.tick → s.stemOf .sync = some k →
    ∃ t, exec .stemSyncAgreement s = .next t ∧ t.stemSt k = .standby ∧ t.stems.stem[1 - k] = s.stems.stem[1 - k] ∧ t.stems.sync = none ∧
      t.stems.resyncTime = (s.clk.tick - r.startAt) / 250) ∧
  (∀ (s : State) (r : SyncRun), s.stems.sync = some r → (r.stage ≠ 6 ∨ s.clk.tick < r.agreeAt + 250000) →
    ∃ t, exec .stemSyncAgreement s = .next t ∧ t = s) ∧
  (∀ (s : State) (r : SyncRun), s.stems.sync = some r → s.clk.tick < r.startAt + 10000000 →
    ∃ t, exec .stemResyncTimeout s = .next t ∧ t = s) ∧
  (∀ (s : State) (r : SyncRun) (k : Fin 2), s.stems.sync = some r → r.startAt + 10000000 ≤ s.clk.tick → s.stemOf .sync = some k →
    ∃ t, exec .stemResyncTimeout s = .next t ∧ t.stemSt k = .failed ∧ t.stems.resyncFailed = true ∧ t.stems.sync = none) ∧
  (∀ (s : State) (cause kind n : Nat), s.stems.input = some (cause, kind, n) →
    ∃ t, exec .stemSwitchoverInput s = .next t ∧ t.stems = { s.stems with input := none } ∧ t.ord = s.ord + 1 ∧
      (⟨0x1001, s.activeStem, toWord 64 (cause + kind * 256 + n * 2 ^ 32 : Nat), s.clk.shelf⟩ : LogEv) ∈ t.evq) ∧
  (∀ (s : State) (k : Fin 8) (j : Fin 2), s.mayControl k [5] = true → s.stemSt j = .standby → s.stemSt (1 - j) = .active →
    ∃ t, exec (.stemCtrlSwitchover k) s = .next t ∧ t.host.ctl = stOk ∧ t.stemSt j = .active ∧ t.stemSt (1 - j) = .standby ∧
      t.stems.switchovers = bump s.stems.switchovers ∧ t.stems.input = some (4, 0, t.passed[(1 : Fin 5)])) ∧
  (∀ (s : State) (k : Fin 8) (j : Fin 2), s.mayControl k [5] = true → s.stemSt j = .standby → s.stemSt (1 - j) = .active →
    ∃ t, exec (.stemCtrlResync k) s = .next t ∧ t.host.ctl = stOk ∧ t.stemSt j = .sync ∧ t.stemSt (1 - j) = .active ∧
      t.stems.sync = some ⟨s.clk.tick, 0, 0, 0, 0⟩) ∧
  (∀ (s : State) (k : Fin 8), s.mayControl k [5] = true → s.redundant = false →
    ∃ t, exec (.stemCtrlSwitchover k) s = .next t ∧ t.host.ctl = stBusy ∧ t.stems = s.stems) ∧
  (∀ (s : State) (k : Fin 8), s.mayControl k [5] = true → s.stems.stem[(0 : Fin 2)].limited = false → s.stems.stem[(1 : Fin 2)].limited = true →
    s.stems.stem[(1 : Fin 2)].hot = false → s.stems.stem[(1 : Fin 2)].low = false →
    ∃ t, exec (.stemCtrlRestartStandby k) s = .next t ∧ t.host.ctl = stOk ∧ t.stemSt 1 = .boot ∧ t.stems.stem[(1 : Fin 2)].limited = false ∧
      t.stems.stem[(0 : Fin 2)] = s.stems.stem[(0 : Fin 2)])

/-- THERM_SCAN, BANK_THERMAL_SCAN, THERM_AUTO_START, THERM_CTRL_CLEAR_LATCH and THERM_SENSOR_RELEARN. Where the spec leaves a value, an order or an instant open these clauses state the choice of the model: log entries 65, 66, 67, 69. -/
def Obligations.TemperatureNetwork : Prop :=
  (∀ (s : State) (raw : Vector Int 44) (xt : Vector Nat 16) (sup : Vector Int 10) (n : Fin 44),
    s.dev.snsOn = true → s.dev.held = false → s.sensorOn ⟨n.val, by omega⟩ = true → s.parN P.THERM_NBR n = 0 →
    ∃ t, exec (.thermScan raw xt sup) s = .next t ∧
      t.therm.sen[(⟨n.val, by omega⟩ : Fin 64)].raw = raw[n] ∧
      t.therm.sen[(⟨n.val, by omega⟩ : Fin 64)].c = raw[n] - s.therm.sen[(⟨n.val, by omega⟩ : Fin 64)].ofs ∧
      t.therm.sen[(⟨n.val, by omega⟩ : Fin 64)].t = t.therm.sen[(⟨n.val, by omega⟩ : Fin 64)].c ∧
      t.therm.sen[(⟨n.val, by omega⟩ : Fin 64)].noCheck = true ∧
      t.therm.sen[(⟨n.val, by omega⟩ : Fin 64)].ofs = s.therm.sen[(⟨n.val, by omega⟩ : Fin 64)].ofs ∧
      t.power.sup[(0 : Fin 10)].v = sup[0] ∧ t.power.sup[(4 : Fin 10)] = s.power.sup[(4 : Fin 10)]) ∧
  (∀ (s : State) (raw : Vector Int 44) (xt : Vector Nat 16) (sup : Vector Int 10) (k : Fin 16),
    s.dev.snsOn = true → s.dev.held = false → s.par P.THERM_XT_MODE k = 2 → 20000 ≤ xt[k] → xt[k] ≤ 150000 →
    ∃ t, exec (.thermScan raw xt sup) s = .next t ∧ t.therm.sen[(⟨48 + k.val, by omega⟩ : Fin 64)].isOpen = false ∧
      t.therm.sen[(⟨48 + k.val, by omega⟩ : Fin 64)].raw = nearHalfAway
        (2 * (16021766340 * xt[k] * 100000000000000) - 5463 * (1380649 * s.parN P.THERM_XT_NF k * 2302585092994046))
        (2 * (1380649 * s.parN P.THERM_XT_NF k * 2302585092994046)) ∧
      t.therm.sen[(⟨48 + k.val, by omega⟩ : Fin 64)].c =
        t.therm.sen[(⟨48 + k.val, by omega⟩ : Fin 64)].raw - s.therm.sen[(⟨48 + k.val, by omega⟩ : Fin 64)].ofs) ∧
  (∀ (s : State) (raw : Vector Int 44) (xt : Vector Nat 16) (sup : Vector Int 10) (k : Fin 16) (y : Int),
    s.dev.snsOn = true → s.dev.held = false → s.par P.THERM_XT_MODE k = 1 → 10 ≤ xt[k] → xt[k] ≤ 2000000 →
    ntcTemp xt[k] (s.parN P.THERM_XT_R25 k) (s.parN P.THERM_XT_BETA k) = some y →
    ∃ t, exec (.thermScan raw xt sup) s = .next t ∧ t.therm.sen[(⟨48 + k.val, by omega⟩ : Fin 64)].isOpen = false ∧
      t.therm.sen[(⟨48 + k.val, by omega⟩ : Fin 64)].raw = y) ∧
  (∀ (s : State) (raw : Vector Int 44) (xt : Vector Nat 16) (sup : Vector Int 10) (k : Fin 16),
    s.dev.snsOn = true → s.dev.held = false →
    ((s.par P.THERM_XT_MODE k = 1 ∧ (xt[k] < 10 ∨ 2000000 < xt[k])) ∨ (s.par P.THERM_XT_MODE k = 2 ∧ (xt[k] < 20000 ∨ 150000 < xt[k]))) →
    ∃ t, exec (.thermScan raw xt sup) s = .next t ∧ t.therm.sen[(⟨48 + k.val, by omega⟩ : Fin 64)].isOpen = true ∧
      t.therm.sen[(⟨48 + k.val, by omega⟩ : Fin 64)].raw = s.therm.sen[(⟨48 + k.val, by omega⟩ : Fin 64)].raw ∧
      t.sensorUsable ⟨48 + k.val, by omega⟩ = false) ∧
  (∀ (s : State) (raw : Vector Int 44) (xt : Vector Nat 16) (sup : Vector Int 10), (s.dev.snsOn = false ∨ s.dev.held = true) →
    ∃ t, exec (.thermScan raw xt sup) s = .next t ∧ t = s) ∧
  (∀ (s : State) (raw : Vector Int 4), s.bank.on = true → s.therm.die[(7 : Fin 8)].st = .run →
    (∀ n : Fin 64, 44 ≤ n.val → n.val < 48 → s.therm.sen[n].ofs = 0 ∧ s.therm.sen[n].suspect = false) → (∃ j : Fin 4, 1350 ≤ raw[j]) →
    ∃ t, exec (.bankThermalScan raw) s = .next t ∧ t.therm.die[(7 : Fin 8)].last = s.clk.shelf ∧
      t.therm.die[(7 : Fin 8)].st = (if s.therm.die[(7 : Fin 8)].last ≠ 0 ∧ s.clk.shelf ≤ s.therm.die[(7 : Fin 8)].last + 3600000000000
        then .latched else .shutdown) ∧ ∀ f : Fin 2, t.bank.feed[f].state ≠ .connected) ∧
  (∀ (s : State) (raw : Vector Int 4), s.bank.on = true → s.therm.die[(7 : Fin 8)].st = .run →
    (∀ n : Fin 64, 44 ≤ n.val → n.val < 48 → s.therm.sen[n].ofs = 0) → (∀ j : Fin 4, raw[j] < 1350) →
    ∃ t, exec (.bankThermalScan raw) s = .next t ∧ t.therm.die[(7 : Fin 8)].st = .run ∧ t.bank = s.bank ∧
      ∀ j : Fin 4, t.therm.sen[(⟨44 + j.val, by omega⟩ : Fin 64)].raw = raw[j]) ∧
  (∀ (s : State) (raw : Vector Int 4), s.bank.on = false → ∃ t, exec (.bankThermalScan raw) s = .next t ∧ t = s) ∧
  (∀ (s : State) (l : Fin 16), s.therm.auto[l] = false ∨ s.canStart l = false → ∃ t, exec (.thermAutoStart l) s = .next t ∧ t = s) ∧
  (∀ (s : State) (l : Fin 16), s.hasActive = true → s.therm.auto[l] = true → s.par P.THERM_AUTO_START l = 1 →
    s.par P.LOOP_ENABLE l ≠ 0 → s.loop[l].ct.state = .stopped → s.canStart l = true →
    ∃ t, exec (.thermAutoStart l) s = .next t ∧ t.ord = s.ord + 1 ∧ t.loop[l].ct.state = .starting ∧ t.therm.auto[l] = false) ∧
  (∀ (s : State) (d k : Fin 8), s.mayControl k [5] = true → s.therm.die[d].st = .latched →
    ∃ t, exec (.thermCtrlClearLatch d k) s = .next t ∧ t.host.ctl = stOk ∧ t.therm.die[d] = { s.therm.die[d] with st := .shutdown } ∧
      (∀ j : Fin 8, j ≠ d → t.therm.die[j] = s.therm.die[j]) ∧
      t.evq = s.evq ++ [⟨0x1103, d.val, toWord 64 (1 + k.val * 256 : Nat), s.clk.shelf⟩]) ∧
  (∀ (s : State) (d k : Fin 8), s.mayControl k [5] = true → s.therm.die[d].st ≠ .latched →
    ∃ t, exec (.thermCtrlClearLatch d k) s = .next t ∧ t.host.ctl = stOk ∧ t.therm = s.therm ∧ t.evq = s.evq) ∧
  (∀ (s : State) (n : Fin 64) (k : Fin 8), s.mayControl k [0] = true →
    ∃ t, exec (.thermSensorRelearn n k) s = .next t ∧ t.host.ctl = stOk ∧ t.therm.sen[n].suspect = false ∧
      t.therm.sen[n].ofs = s.par P.THERM_OFS_INIT n ∧ t.therm.sen[n].c = s.therm.sen[n].c ∧
      ∀ j : Fin 64, j ≠ n → t.therm.sen[j] = s.therm.sen[j])

/-- SESSION_CLAIM_TIMEOUT, SESSION_PROVE_TIMEOUT, SESSION_LEASE_LAPSE, PERMIT_LAPSE, KEY_LOCKOUT_END and HOST_ETH_LINK. Where the spec leaves a value, an order or an instant open these clauses state the choice of the model: log entries 90, 98, 131. -/
def Obligations.SessionsTimeOut : Prop :=
  (∀ (s : State) (k : Fin 8), s.clk.tick < (s.sess k).since + 2500000000 → ∃ t, exec (.sessionClaimTimeout k) s = .next t ∧ t = s) ∧
  (∀ (s : State) (k : Fin 8), s.clk.tick < (s.sess k).since + 250000000 → ∃ t, exec (.sessionProveTimeout k) s = .next t ∧ t = s) ∧
  (∀ (s : State) (k : Fin 8), s.clk.tick < (s.sess k).leaseAt + s.parN P.HOST_SESSION_LEASE 0 * 250000 →
    ∃ t, exec (.sessionLeaseLapse k) s = .next t ∧ t = s) ∧
  (∀ (s : State) (i : Nat), s.clk.tick < (s.permit i).at_ + (s.permit i).lease * 250000 →
    ∃ t, exec (.permitLapse i) s = .next t ∧ t = s) ∧
  (∀ (s : State) (k : Fin 8), (s.host.key[k]).locked s.clk.tick = true → ∃ t, exec (.keyLockoutEnd k) s = .next t ∧ t = s) ∧
  (∀ (s : State) (k : Fin 8), s.hasActive = true → (s.sess k).state = .claimed → (s.sess k).since + 2500000000 ≤ s.clk.tick →
    ∃ t, exec (.sessionClaimTimeout k) s = .next t ∧ (t.sess k).state = .free ∧ t.host.mb[mbReq k] = Mbox.reset ∧
      t.host.mb[mbNotice k] = Mbox.reset ∧ ∀ j : Fin 8, j ≠ k → t.sess j = s.sess j) ∧
  (∀ (s : State) (k : Fin 8), s.hasActive = true → (s.sess k).state = .proving → (s.sess k).since + 250000000 ≤ s.clk.tick →
    ∃ t, exec (.sessionProveTimeout k) s = .next t ∧ (t.sess k).state = (if 2 ≤ (s.sess k).port then .claimed else .free) ∧
      ∀ j : Fin 8, j ≠ k → t.sess j = s.sess j) ∧
  (∀ (s : State) (k : Fin 8) (p : Fin 4), s.hasActive = true → (s.sess k).state = .isOpen → (s.sess k).port = p.val → 2 ≤ p.val →
    (s.sess k).leaseAt + s.parN P.HOST_SESSION_LEASE 0 * 250000 ≤ s.clk.tick →
    ∃ t, exec (.sessionLeaseLapse k) s = .next t ∧ (t.sess k).state = .claimed ∧ (t.sess k).since = s.clk.tick ∧ (t.sess k).staging = [] ∧
      t.host.port[p].ended = true ∧
      (⟨0x0E02, k.val, toWord 64 (2 + (s.sess k).epoch * 2 ^ 32 : Nat), s.clk.shelf⟩ : LogEv) ∈ t.evq) ∧
  (∀ (s : State) (k : Fin 8), (s.sess k).state ≠ .isOpen → ∃ t, exec (.sessionLeaseLapse k) s = .next t ∧ t = s) ∧
  (∀ (s : State) (i : Nat) (k : Fin 8), s.hasActive = true → (s.permit i).holder = some k →
    (s.permit i).at_ + (s.permit i).lease * 250000 ≤ s.clk.tick →
    ∃ t, exec (.permitLapse i) s = .next t ∧ (t.permit i).holder = none ∧ (t.sess k).state = (s.sess k).state ∧ (t.sess k).stageLost = true ∧
      (⟨0x0E05, i, toWord 64 (2 + k.val * 256 + (s.permit i).epoch * 2 ^ 32 : Nat), s.clk.shelf⟩ : LogEv) ∈ t.evq) ∧
  (∀ (s : State) (i : Nat), (s.permit i).holder = none → ∃ t, exec (.permitLapse i) s = .next t ∧ t = s) ∧
  (∀ (s : State) (k : Fin 8), s.hasActive = true → (s.host.key[k]).locked s.clk.tick = false →
    ∃ t, exec (.keyLockoutEnd k) s = .next t ∧ t.host.key[k] = { s.host.key[k] with lockAt := none } ∧
      ∀ j : Fin 8, j ≠ k → t.host.key[j] = s.host.key[j]) ∧
  (∀ (s : State) (e : Fin 2) (up : Bool), s.hostUp = true → s.par P.HOST_ETH_MODE e ≠ 0 →
    ∃ t, exec (.hostEthLink e up) s = .next t ∧ t.host.port[(⟨e.val, by omega⟩ : Fin 4)].link = up ∧
      t.evq = s.evq ++ (if s.host.port[(⟨e.val, by omega⟩ : Fin 4)].link = up then []
        else [⟨0x0E0B, e.val, toWord 64 (b2n up + s.parN P.HOST_ETH_MODE e * 256 : Nat), s.clk.shelf⟩]))

/-- HR_TIME_LO_READ, MB_RX_READ, HOST_REG_WRITE and HOST_ETH_REG_ACCESS. Where the spec leaves a value, an order or an instant open these clauses state the choice of the model: log entries 56, 91, 110. -/
def Obligations.HostRegisters : Prop :=
  (∀ (s : State) (p : Fin 4), s.hostUp = true →
    ∃ t, exec (.hrTimeLoRead p) s = .next t ∧
      t.host.timeHi = s.clk.shelf / 2 ^ 32 % 2 ^ 32 ∧ t.host.port[p] = { s.host.port[p] with rdata := s.clk.shelf % 2 ^ 32 } ∧
      ∀ j : Fin 4, j ≠ p → t.host.port[j] = s.host.port[j]) ∧
  (∀ (s : State) (n : Fin 2) (m : Fin 16) (w : List Nat) (ws : List (List Nat)), s.hostUp = true → s.mbBound (spiPort n) m = true →
    s.host.mb[m].rx = w :: ws → s.host.mb[m].part + 1 < w.length →
    ∃ t, exec (.mbRxRead n m) s = .next t ∧ t.host.port[spiPort n].rdata = w.getD s.host.mb[m].part 0 ∧
      t.host.mb[m] = { s.host.mb[m] with part := s.host.mb[m].part + 1 }) ∧
  (∀ (s : State) (n : Fin 2) (m : Fin 16) (w : List Nat) (ws : List (List Nat)), s.hostUp = true → s.mbBound (spiPort n) m = true →
    s.host.mb[m].rx = w :: ws → s.host.mb[m].part + 1 = w.length →
    ∃ t, exec (.mbRxRead n m) s = .next t ∧ t.host.port[spiPort n].rdata = w.getD s.host.mb[m].part 0 ∧
      t.host.mb[m] = { s.host.mb[m] with rx := ws, part := 0 }) ∧
  (∀ (s : State) (n : Fin 2) (m : Fin 16), s.hostUp = true → s.mbBound (spiPort n) m = false →
    ∃ t, exec (.mbRxRead n m) s = .next t ∧ t.host.port[spiPort n].rdata = 0 ∧ t.host.mb = s.host.mb) ∧
  (∀ (s : State) (n : Fin 2) (data : List Byte), s.hostUp = true → data.length = 4 →
    ∃ t, exec (.hostRegWrite n [2#8, 0x94#8, 0#8] data) s = .next t ∧
      t.host.port[spiPort n] = { s.host.port[spiPort n] with scratch := leAt data 0 4 } ∧ t.host.spi[n].run = .write 0x098 ∧
      (∀ j : Fin 4, j ≠ spiPort n → t.host.port[j] = s.host.port[j]) ∧ t.host.mb = s.host.mb) ∧
  (∀ (s : State) (n : Fin 2) (data : List Byte), s.hostUp = true → data.length = 4 →
    ∃ t, exec (.hostRegWrite n [2#8, 0x88#8, 0#8] data) s = .next t ∧
      t.host.port[spiPort n] = { s.host.port[spiPort n] with mask := leAt data 0 4 } ∧
      (∀ j : Fin 4, j ≠ spiPort n → t.host.port[j] = s.host.port[j]) ∧ t.host.mb = s.host.mb) ∧
  (∀ (s : State) (n : Fin 2), s.hostUp = true →
    ∃ t, exec (.hostRegWrite n [2#8, 0x84#8, 0#8] [0#8, 0#8, 1#8, 0#8]) s = .next t ∧
      t.host.port[spiPort n] = { s.host.port[spiPort n] with ended := false }) ∧
  (∀ (s : State) (n : Fin 2) (data : List Byte), s.hostUp = true → data.length = 4 →
    ∃ t, exec (.hostRegWrite n [3#8, 0x94#8, 0#8, 0#8, 0#8] data) s = .next t ∧
      t.host.spi[n] = ⟨.read 0x098, [], none, [0xFF#8, 0xFF#8] ++ leBytes 4 s.host.port[spiPort n].scratch⟩ ∧ t.host.mb = s.host.mb) ∧
  (∀ (s : State) (n : Fin 2) (data : List Byte) (off : Nat), s.hostUp = true → data.length = 4 → s.host.spi[n].run = .write off →
    s.host.spi[n].part = [] →
    ∃ t, exec (.hostRegWrite n [] data) s = .next t ∧ t.host.spi[n].run = .write
      (if 0x100 ≤ off ∧ 8 ≤ off % 16 then off else (off + 4) % 0x200)) ∧
  (∀ (s : State) (n : Fin 2) (hd data : List Byte), s.hostUp = true → hd ≠ [] → data.length < 4 →
    ∃ t, exec (.hostRegWrite n hd data) s = .next t ∧ t.host.port = s.host.port ∧ t.host.mb = s.host.mb ∧ t.host.sess = s.host.sess) ∧
  (∀ (s : State) (n : Fin 2) (hd data : List Byte), s.hostUp = true → 3 ≤ hd.length →
    ((leAt hd 0 1 ≠ 2 ∧ leAt hd 0 1 ≠ 3) ∨ leAt hd 1 2 % 4 ≠ 0 ∨ 0x200 ≤ leAt hd 1 2) →
    ∃ t, exec (.hostRegWrite n hd data) s = .next t ∧ t.host.port = s.host.port ∧ t.host.mb = s.host.mb ∧ t.host.sess = s.host.sess ∧
      (leAt hd 0 1 ≠ 2 → leAt hd 0 1 ≠ 3 → t.host.spi[n].shift = List.replicate data.length 0xFF#8)) ∧
  (∀ (s : State) (e : Fin 2) (ep : Endpoint) (data : List Byte) (a : Nat), s.hostUp = true → 8 ≤ data.length → leAt data 0 4 = 0xFFFF0001 →
    leAt data 4 2 = a → leAt data 6 1 = 1 → a % 4 = 0 → a ≤ 0x038 → a ≠ 0x020 →
    ∃ t, exec (.hostEthRegAccess e ep data) s = .next t ∧
      t.host.sent = s.host.sent ++ [⟨e.val, ep, some (s.ethHdr e ep), regAnswer 0xFFFF0001 a 1 0 [s.hostReg ⟨e.val, by omega⟩ a]⟩] ∧ t.host.mb = s.host.mb ∧
      t.host.sess = s.host.sess) ∧
  (∀ (s : State) (e : Fin 2) (ep : Endpoint) (data : List Byte) (a : Nat), s.hostUp = true → 8 ≤ data.length → leAt data 0 4 = 0xFFFF0001 →
    leAt data 4 2 = a → leAt data 6 1 = 1 → a % 4 = 0 → 0x038 < a → a < 0x200 → s.openAt e ep = false →
    ∃ t, exec (.hostEthRegAccess e ep data) s = .next t ∧
      t.host.sent = s.host.sent ++ [⟨e.val, ep, some (s.ethHdr e ep), regAnswer 0xFFFF0001 a 1 1 []⟩] ∧ t.host.port = s.host.port) ∧
  (∀ (s : State) (n : Fin 2) (hd data : List Byte), s.hostUp = false → ∃ t, exec (.hostRegWrite n hd data) s = .next t ∧ t = s)

/-- MB_TX_WRITE, MB_CLAIM, MB_RELEASE, MB_DOORBELL, MB_TX_DISCARD, MB_RX_SKIP, HOST_SPI_ABANDON, HOST_ETH_FRAME and HOST_REQUEST_TAKE. Where the spec leaves a value, an order or an instant open these clauses state the choice of the model: log entries 87, 91, 92, 110, 118, 138, 143. -/
def Obligations.MailboxesAndFrames : Prop :=
  (∀ (s : State) (n : Fin 2) (m : Fin 16) (w : Nat), s.hostUp = true → s.mbBound (spiPort n) m = true → m.val % 2 = 0 → 0 < s.txFree m →
    ∃ t, exec (.mbTxWrite n m w) s = .next t ∧ t.host.mb[m] = { s.host.mb[m] with tx := s.host.mb[m].tx ++ [w % 2 ^ 32] } ∧
      ∀ j : Fin 16, j ≠ m → t.host.mb[j] = s.host.mb[j]) ∧
  (∀ (s : State) (n : Fin 2) (m : Fin 16) (w : Nat), s.hostUp = true → s.mbBound (spiPort n) m = true → m.val % 2 = 0 → s.txFree m = 0 →
    ∃ t, exec (.mbTxWrite n m w) s = .next t ∧ t.host.mb[m] = { s.host.mb[m] with lost := true, overflow := true }) ∧
  (∀ (s : State) (n : Fin 2) (m : Fin 16), s.hostUp = true → m.val % 2 = 0 → (s.sess (pairOf m)).state = .free →
    ∃ t, exec (.mbClaim n m) s = .next t ∧ (t.sess (pairOf m)).state = .claimed ∧ (t.sess (pairOf m)).port = (spiPort n).val ∧
      (t.sess (pairOf m)).since = s.clk.tick ∧ t.mbBound (spiPort n) m = true ∧ ∀ j : Fin 8, j ≠ pairOf m → t.sess j = s.sess j) ∧
  (∀ (s : State) (n : Fin 2) (m : Fin 16), s.hostUp = true → s.mbBound (spiPort n) m = true →
    ∃ t, exec (.mbRelease n m) s = .next t ∧ (t.sess (pairOf m)).state = .free ∧ t.host.mb[m] = Mbox.reset ∧
      t.mbBound (spiPort n) m = false) ∧
  (∀ (s : State) (n : Fin 2) (m : Fin 16), s.hostUp = true → s.mbBound (spiPort n) m = true → s.host.mb[m].tx ≠ [] → s.bellCause m = 0 →
    ∃ t, exec (.mbDoorbell n m) s = .next t ∧ t.host.rung = s.host.rung ++ [(m, s.host.mb[m].tx)] ∧
      t.host.mb[m] = { s.host.mb[m] with tx := [], lost := false } ∧ t.evq = s.evq) ∧
  (∀ (s : State) (n : Fin 2) (m : Fin 16), s.hostUp = true → s.mbBound (spiPort n) m = true → s.host.mb[m].tx ≠ [] → s.bellCause m ≠ 0 →
    ∃ t, exec (.mbDoorbell n m) s = .next t ∧ t.host.rung = s.host.rung ∧
      t.host.mb[m] = { s.host.mb[m] with tx := [], lost := false, rejected := true } ∧
      t.evq = s.evq ++ [⟨0x0E09, m.val, toWord 64 (s.bellCause m), s.clk.shelf⟩]) ∧
  (∀ (s : State) (n : Fin 2) (m : Fin 16), s.hostUp = true → s.mbBound (spiPort n) m = true →
    ∃ t, exec (.mbTxDiscard n m) s = .next t ∧ t.host.mb[m] = { s.host.mb[m] with tx := [] } ∧ t.host.rung = s.host.rung) ∧
  (∀ (s : State) (n : Fin 2) (m : Fin 16), s.hostUp = true → s.mbBound (spiPort n) m = true →
    ∃ t, exec (.mbRxSkip n m) s = .next t ∧ t.host.mb[m] = { s.host.mb[m] with rx := s.host.mb[m].rx.tail, part := 0 }) ∧
  (∀ (s : State) (n : Fin 2) (off : Nat) (m : Fin 16) (idle : Nat), s.hostUp = true → s.mbBound (spiPort n) m = true → m.val % 2 = 0 →
    s.parN P.HOST_SPI_ABANDON n ≤ idle →
    ∃ t, exec (.hostSpiAbandon n ⟨off, idle⟩ (some m)) s = .next t ∧ t.host.port[spiPort n] = { s.host.port[spiPort n] with abandoned := true } ∧
      t.host.mb[m] = { s.host.mb[m] with tx := [], abandoned := true } ∧ t.host.spi[n].run = .ignored ∧
      t.evq = s.evq ++ [⟨0x0E08, n.val, toWord 64 (off % 65536 + s.host.mb[m].tx.length * 65536 : Nat), s.clk.shelf⟩]) ∧
  (∀ (s : State) (n : Fin 2) (off : Nat) (tx : Option (Fin 16)) (idle : Nat), idle < s.parN P.HOST_SPI_ABANDON n →
    ∃ t, exec (.hostSpiAbandon n ⟨off, idle⟩ tx) s = .next t ∧ t = s) ∧
  (∀ (s : State) (e : Fin 2) (f : EthFrame), s.hostUp = true → s.ethAccepts e f = false →
    ∃ t, exec (.hostEthFrame e f) s = .next t ∧
      t.host.port[(⟨e.val, by omega⟩ : Fin 4)].refused = bump s.host.port[(⟨e.val, by omega⟩ : Fin 4)].refused ∧ t.host.mb = s.host.mb ∧
      t.host.sent = s.host.sent ∧ t.evq = s.evq) ∧
  (∀ (s : State) (e : Fin 2) (f : EthFrame) (k : Fin 8), s.hostUp = true → s.ethAccepts e f = true → s.ethMsg e f = true →
    leAt f.data 0 4 < 0xFFFF0000 → s.pairAt e.val f.ep = some k → s.host.mb[mbReq k].tx = [] → s.host.mb[mbReq k].lost = false →
    (s.rungOf (mbReq k)).length < 4 → 12 ≤ msgLen f.data → msgLen f.data ≤ 1440 → msgLen f.data ≤ f.data.length →
    ceilDiv (msgLen f.data) 4 ≤ s.txFree (mbReq k) →
    ∃ t, exec (.hostEthFrame e f) s = .next t ∧ t.host.sent = s.host.sent ∧ t.host.mb[mbReq k].tx = [] ∧
      t.host.rung = s.host.rung ++ [(mbReq k, msgWords (ceilDiv (msgLen f.data) 4) (f.data.take (msgLen f.data)))]) ∧
  (∀ (s : State) (entropy : Nat), s.host.rung = [] → ∃ t, exec (.hostRequestTake entropy) s = .next t ∧ t = s) ∧
  (∀ (s : State) (entropy : Nat) (r : Fin 16 × List Nat), s.takes = true → s.sluiceSpent 2 = false → s.nextRung = some r →
    msgSound ((r.2.flatMap (leBytes 4)).take (msgLen (r.2.flatMap (leBytes 4)))) = false →
    ∃ t, exec (.hostRequestTake entropy) s = .next t ∧ t.host.rung = s.host.rung.erase r ∧ t.ord = s.ord + 1 ∧
      (t.evq.drop s.evq.length).map (·.code) = [0x0F03] ∧ t.cfg = s.cfg ∧ t.loop = s.loop) ∧
  (∀ (s : State) (entropy : Nat) (r : Fin 16 × List Nat) (bs : List Byte) (q : Req), s.takes = true → s.sluiceSpent 2 = false →
    s.nextRung = some r → bs = (r.2.flatMap (leBytes 4)).take (msgLen (r.2.flatMap (leBytes 4))) → q = msgReq (pairOf r.1) bs →
    msgSound bs = true → msgOp bs = 0x0004 → s.passes 0x0004 q (msgBody bs) = true →
    ∃ t, exec (.hostRequestTake entropy) s = .next t ∧ t.host.rung = s.host.rung.erase r ∧ t.ord = s.ord + 1 ∧
      s.answered t 0x0004 q stOk [] ∧ (t.sess q.sess).leaseAt = s.clk.tick ∧ (t.sess q.sess).rxSeq = q.seq ∧ t.cfg = s.cfg ∧
      t.evq = s.evq)

/-- SESSION_OPEN, SESSION_PROVE, SESSION_CLOSE, HOST_KEEPALIVE, NOTICE_SET, PERMIT_ACQUIRE, PERMIT_RENEW, PERMIT_RELEASE and PERMIT_TAKE. Where the spec leaves a value, an order or an instant open these clauses state the choice of the model: log entries 43, 92, 138. -/
def Obligations.SessionRequests : Prop :=
  (∀ (s : State) (port : Fin 4) (ep : Endpoint) (q : Req) (b : List Byte) (entropy : Nat), s.takes = true → s.mayTake q.sess = true → 2 ≤ port.val →
    (s.sess q.sess).state = .claimed → bit q.flags 0 = false → bit q.flags 1 = false → b.length = 20 → q.epoch = 0 → leAt b 0 1 < 8 →
    s.openStatus (s.sess q.sess).port b = stOk →
    ∃ t, exec (.sessionOpen port ep q b entropy) s = .next t ∧ (t.sess q.sess).state = .proving ∧
      (t.sess q.sess).epoch = s.epochOf (nextK s.host.kSess) ∧ (t.sess q.sess).role = leAt b 1 1 ∧ (t.sess q.sess).rxSeq = q.seq ∧
      (t.sess q.sess).nd = leBytes 16 entropy ∧ t.host.kSess = nextK s.host.kSess ∧ t.ord = s.ord + 1) ∧
  (∀ (s : State) (port : Fin 4) (ep : Endpoint) (q : Req) (b : List Byte) (entropy : Nat), s.takes = true → s.mayTake q.sess = true → 2 ≤ port.val →
    (s.sess q.sess).state ≠ .free → 2 ≤ (s.sess q.sess).port → bit q.flags 0 = false → bit q.flags 1 = false → b.length = 20 →
    q.epoch = 0 → s.openStatus (s.sess q.sess).port b ≠ stOk →
    ∃ t, exec (.sessionOpen port ep q b entropy) s = .next t ∧ t.host.sess = s.host.sess ∧ t.host.kSess = s.host.kSess) ∧
  (∀ (s : State) (port : Fin 4) (ep : Endpoint) (q : Req) (b : List Byte) (entropy : Nat) (k : Fin 8), s.takes = true → port.val < 2 →
    s.nextRung = none → (∀ r ∈ s.host.rung, pairOf r.1 ≠ k) → s.sluiceSpent 2 = false →
    s.pairAt port.val ep = none → s.freePair = some k → bit q.flags 0 = false → bit q.flags 1 = false → b.length = 20 → q.epoch = 0 →
    leAt b 0 1 < 8 → s.openStatus port.val b = stOk →
    ∃ t, exec (.sessionOpen port ep q b entropy) s = .next t ∧ (t.sess k).state = .proving ∧ (t.sess k).port = port.val ∧
      (t.sess k).ep = ep ∧ (t.sess k).epoch = s.epochOf (nextK s.host.kSess)) ∧
  (∀ (s : State) (q : Req) (b : List Byte), s.takes = true → s.mayTake q.sess = true → (s.sess q.sess).state = .proving → bit q.flags 0 = false → bit q.flags 1 = false →
    b.length = 16 → q.epoch = (s.sess q.sess).epoch → seqNewer q.seq (s.sess q.sess).rxSeq = true → (s.sess q.sess).key < 8 →
    b = (s.sess q.sess).proof (s.host.key[(⟨(s.sess q.sess).key % 8, Nat.mod_lt _ (by omega)⟩ : Fin 8)]).key →
    ∃ t, exec (.sessionProve q b) s = .next t ∧ (t.sess q.sess).state = .isOpen ∧ (t.sess q.sess).leaseAt = s.clk.tick ∧
      (t.sess q.sess).rxSeq = q.seq ∧
      (⟨0x0E01, q.sess.val, toWord 64 ((s.sess q.sess).epoch + (s.sess q.sess).key * 2 ^ 32 + (s.sess q.sess).role * 2 ^ 40 +
        (s.sess q.sess).port * 2 ^ 48 : Nat), s.clk.shelf⟩ : LogEv) ∈ t.evq) ∧
  (∀ (s : State) (q : Req) (b : List Byte), s.takes = true → s.mayTake q.sess = true → (s.sess q.sess).state = .proving → 2 ≤ (s.sess q.sess).port →
    bit q.flags 0 = false → bit q.flags 1 = false → b.length = 16 → q.epoch = (s.sess q.sess).epoch →
    seqNewer q.seq (s.sess q.sess).rxSeq = true → (s.sess q.sess).key < 8 →
    b ≠ (s.sess q.sess).proof (s.host.key[(⟨(s.sess q.sess).key % 8, Nat.mod_lt _ (by omega)⟩ : Fin 8)]).key →
    ∃ t, exec (.sessionProve q b) s = .next t ∧ (t.sess q.sess).state = .claimed ∧
      t.host.key[(⟨(s.sess q.sess).key % 8, Nat.mod_lt _ (by omega)⟩ : Fin 8)] =
        (s.host.key[(⟨(s.sess q.sess).key % 8, Nat.mod_lt _ (by omega)⟩ : Fin 8)]).failed s.clk.tick) ∧
  (∀ (s : State) (q : Req) (b : List Byte), s.accepted 0x0003 q b = true → 2 ≤ (s.sess q.sess).port →
    ∃ t, exec (.sessionClose q b) s = .next t ∧ (t.sess q.sess).state = .claimed ∧ (∀ u ∈ t.pool.subs, u.sess ≠ q.sess.val) ∧
      (⟨0x0E02, q.sess.val, toWord 64 (1 + (s.sess q.sess).epoch * 2 ^ 32 : Nat), s.clk.shelf⟩ : LogEv) ∈ t.evq) ∧
  (∀ (s : State) (q : Req) (b : List Byte), s.accepted 0x0004 q b = true →
    ∃ t, exec (.hostKeepalive q b) s = .next t ∧ s.answered t 0x0004 q stOk [] ∧ (t.sess q.sess).leaseAt = s.clk.tick ∧
      (t.sess q.sess).rxSeq = q.seq ∧ t.ord = s.ord + 1 ∧ t.evq = s.evq ∧ t.cfg = s.cfg ∧ t.host.permit = s.host.permit) ∧
  (∀ (s : State) (q : Req) (b : List Byte), s.accepted 0x0005 q b = true →
    ∃ t, exec (.noticeSet q b) s = .next t ∧ s.answered t 0x0005 q stOk [] ∧ (t.sess q.sess).mask = leAt b 0 4 % 16) ∧
  (∀ (s : State) (q : Req) (b : List Byte) (i : Nat), s.accepted 0x0101 q b = true → maskPermits b = [i] →
    (s.sess q.sess).mayHold i = true → 0 < leAt b 16 2 → leAt b 16 2 ≤ 600 → (s.permit i).holder = none →
    ∃ t, exec (.permitAcquire q b) s = .next t ∧ t.permit i = ⟨some q.sess, s.epochOf (nextK (s.permit i).k), nextK (s.permit i).k,
        min (leAt b 16 2) (s.parN P.PERMIT_LEASE_MAX i) * 1000, s.clk.tick, bump (s.permit i).grants⟩ ∧
      s.answered t 0x0101 q stOk (t.grantBody [i]) ∧ ∀ j : Nat, j ≠ i → t.permit j = s.permit j) ∧
  (∀ (s : State) (q : Req) (b : List Byte) (i : Nat) (j : Fin 8), s.accepted 0x0101 q b = true → maskPermits b = [i] →
    (s.sess q.sess).mayHold i = true → 0 < leAt b 16 2 → leAt b 16 2 ≤ 600 → (s.permit i).holder = some j → j ≠ q.sess →
    ∃ t, exec (.permitAcquire q b) s = .next t ∧ t.host.permit = s.host.permit ∧
      s.answered t 0x0101 q stBusy (leBytes 1 j.val ++ leBytes 1 i ++ leBytes 2 0 ++ leBytes 4 (s.leaseLeft i))) ∧
  (∀ (s : State) (q : Req) (b : List Byte) (i : Nat), s.accepted 0x0102 q b = true → maskPermits b = [i] → s.holds q.sess i = true →
    ∃ t, exec (.permitRenew q b) s = .next t ∧ t.permit i = { s.permit i with at_ := s.clk.tick } ∧
      s.answered t 0x0102 q stOk (s.grantBody [i])) ∧
  (∀ (s : State) (q : Req) (b : List Byte) (i : Nat), s.accepted 0x0103 q b = true → maskPermits b = [i] → s.holds q.sess i = true →
    ∃ t, exec (.permitRelease q b) s = .next t ∧ (t.permit i).holder = none ∧ (t.sess q.sess).stageLost = true ∧
      (⟨0x0E05, i, toWord 64 (1 + q.sess.val * 256 + (s.permit i).epoch * 2 ^ 32 : Nat), s.clk.shelf⟩ : LogEv) ∈ t.evq) ∧
  (∀ (s : State) (q : Req) (b : List Byte) (i : Nat) (j : Fin 8), s.accepted 0x0104 q b = true → maskPermits b = [i] → i ≠ 5 → i ≠ 6 →
    s.par P.PERMIT_TAKE_EN i ≠ 0 → 0 < leAt b 16 2 → leAt b 16 2 ≤ 600 → (s.permit i).holder = some j → j ≠ q.sess →
    ∃ t, exec (.permitTake q b) s = .next t ∧ (t.permit i).holder = some q.sess ∧ (t.permit i).epoch = s.epochOf (nextK (s.permit i).k) ∧
      (t.sess j).stageLost = true ∧
      (⟨0x0E05, i, toWord 64 (4 + j.val * 256 + (s.permit i).epoch * 2 ^ 32 : Nat), s.clk.shelf⟩ : LogEv) ∈ t.evq)

/-- PARAM_READ, PARAM_WRITE, STAGE, DISCARD, COMMIT, POINT_READ, SUBSCRIBE, UNSUBSCRIBE, SILT_READ, SPATE_READ, BATT_EXPORT and BATT_RESTORE. Where the spec leaves a value, an order or an instant open these clauses state the choice of the model: log entries 85, 93. -/
def Obligations.DataRequests : Prop :=
  (∀ (s : State) (q : Req) (b : List Byte) (p : Prm), s.accepted 0x0201 q b = true → leAt b 0 2 = 1 → findParam (leAt b 4 2) = some p →
    p.instOk (leAt b 6 2) = true → p.keeps = .K → p.wo = false → p.id ≠ 0x5843 →
    ∃ t, exec (.paramRead q b) s = .next t ∧ t.cfg = s.cfg ∧
      s.answered t 0x0201 q stOk (leBytes 2 1 ++ leBytes 2 0 ++ entryBytes p (leAt b 6 2) (s.par p (leAt b 6 2)))) ∧
  (∀ (s : State) (q : Req) (b : List Byte) (e : RawEntry), s.accepted 0x0202 q b = true → rawEntries 1 b = some [e] →
    s.entryStatus q.sess q.pe e = stOk →
    ∃ t, exec (.paramWrite q b) s = .next t ∧ s.queued t 0x0202 q .write [e.entry q.pe] []) ∧
  (∀ (s : State) (q : Req) (b : List Byte) (e : RawEntry), s.accepted 0x0202 q b = true → rawEntries 1 b = some [e] →
    s.entryStatus q.sess q.pe e ≠ stOk →
    ∃ t, exec (.paramWrite q b) s = .next t ∧ s.answered t 0x0202 q (s.entryStatus q.sess q.pe e) (failBody 0 e.id e.inst) ∧
      t.host.commits = s.host.commits ∧ t.cfg = s.cfg) ∧
  (∀ (s : State) (q : Req) (b : List Byte) (es : List RawEntry), s.accepted 0x0203 q b = true → 0 < leAt b 0 2 → leAt b 0 2 ≤ 64 →
    rawEntries (leAt b 0 2) (b.drop 4) = some es → s.firstFail q.sess q.pe 0 es = none →
    stageOverflow (s.sess q.sess).staging 0 (es.map (fun e => e.entry q.pe)) = none →
    ∃ t, exec (.stage q b) s = .next t ∧
      (t.sess q.sess).staging = (es.map (fun e => e.entry q.pe)).foldl stageOne (s.sess q.sess).staging ∧
      s.answered t 0x0203 q stStaged (leBytes 2 (t.sess q.sess).staging.length ++ leBytes 2 0) ∧ t.cfg = s.cfg ∧
      t.host.commits = s.host.commits) ∧
  (∀ (s : State) (q : Req) (b : List Byte), s.accepted 0x0204 q b = true →
    ∃ t, exec (.discard q b) s = .next t ∧ (t.sess q.sess).staging = [] ∧ (t.sess q.sess).stageLost = false ∧
      s.answered t 0x0204 q stOk []) ∧
  (∀ (s : State) (q : Req) (b : List Byte) (e : Entry) (es : List Entry), s.accepted 0x0205 q b = true → (s.sess q.sess).staging = e :: es →
    ∃ t, exec (.commit q b) s = .next t ∧ s.queued t 0x0205 q .staged (e :: es) [] ∧ (t.sess q.sess).staging = e :: es) ∧
  (∀ (s : State) (q : Req) (b : List Byte), s.accepted 0x0205 q b = true → (s.sess q.sess).staging = [] →
    ∃ t, exec (.commit q b) s = .next t ∧ s.answered t 0x0205 q stOk (leBytes 4 0) ∧ t.host.commits = s.host.commits) ∧
  (∀ (s : State) (q : Req) (b : List Byte) (first n : Nat), s.accepted 0x0301 q b = true → leAt b 0 4 = first → leAt b 4 2 = n → 0 < n →
    n ≤ 64 → first + n ≤ 131072 →
    ∃ t, exec (.pointRead q b) s = .next t ∧ t.pool = s.pool ∧ s.answered t 0x0301 q stOk
      (leBytes 4 first ++ leBytes 2 n ++ leBytes 2 0 ++ (List.range n).flatMap (fun i => (s.slot (first + i)).bytes))) ∧
  (∀ (s : State) (q : Req) (b : List Byte) (i : Nat), s.accepted 0x0302 q b = true → leAt b 0 1 = 0 → 0 < leAt b 2 2 → leAt b 2 2 ≤ 4096 →
    leAt b 4 4 + leAt b 2 2 ≤ 131072 → (s.pool.subs.filter (fun u => u.sess == q.sess.val)).length < 16 → s.freeSub = some i →
    ∃ t, exec (.subscribe q b) s = .next t ∧ s.answered t 0x0302 q stOk (leBytes 1 i ++ leBytes 3 0) ∧
      t.pool.subs = s.pool.subs ++ [⟨i, q.sess.val, leAt b 4 4, leAt b 2 2, false, leAt b 8 4, leAt b 12 4, []⟩]) ∧
  (∀ (s : State) (q : Req) (b : List Byte), s.accepted 0x0303 q b = true →
    s.pool.subs.any (fun u => u.id == leAt b 0 1 && u.sess == q.sess.val) = true →
    ∃ t, exec (.unsubscribe q b) s = .next t ∧ s.answered t 0x0303 q stOk [] ∧
      t.pool.subs = s.pool.subs.filter (fun u => u.id != leAt b 0 1)) ∧
  (∀ (s : State) (q : Req) (b : List Byte), s.accepted 0x0401 q b = true → 0 < leAt b 4 1 → leAt b 4 1 ≤ 16 →
    ∃ t, exec (.siltRead q b) s = .next t ∧ t.mram = s.mram ∧ t.silt = s.silt ∧ s.answered t 0x0401 q stOk
      (leBytes 4 (s.siltLatch (leAt b 0 4)).1 ++ leBytes 1 (s.siltRun (leAt b 0 4) (leAt b 4 1)).length ++
        leBytes 1 (b2n (s.siltLatch (leAt b 0 4)).2.2.1) ++ leBytes 2 0 ++
        (s.siltRun (leAt b 0 4) (leAt b 4 1)).flatMap (fun x => leBytes 1 x.2.1 ++ leBytes 3 0 ++ x.2.2))) ∧
  (∀ (s : State) (q : Req) (b : List Byte) (k : Fin 48), s.accepted 0x0402 q b = true → leAt b 0 1 = k.val → 4 ≤ leAt b 2 2 →
    leAt b 2 2 ≤ 1024 → leAt b 2 2 % 4 = 0 → leAt b 4 4 % 4 = 0 → leAt b 4 4 + leAt b 2 2 ≤ 262144 → s.slotState k ≠ 3 → s.slotState k ≠ 0 →
    ∃ t, exec (.spateRead q b) s = .next t ∧ t.mram = s.mram ∧ t.spate = s.spate ∧ s.answered t 0x0402 q stOk
      (b.take 1 ++ leBytes 1 0 ++ leBytes 2 (leAt b 2 2) ++ leBytes 4 (leAt b 4 4) ++ s.load (slotAddr k + 4) 4 ++
        s.load (slotAddr k + leAt b 4 4) (leAt b 2 2))) ∧
  (∀ (s : State) (q : Req) (b : List Byte) (i : Fin 8), s.accepted 0x0501 q b = true → leAt b 0 1 = i.val → s.par P.BATT_ENABLE i = 1 →
    ∃ t, exec (.battExport q b) s = .next t ∧ t.batt = s.batt ∧ s.answered t 0x0501 q stOk (s.battRecord i)) ∧
  (∀ (s : State) (q : Req) (b : List Byte), s.accepted 0x0502 q b = true →
    ∃ t, exec (.battRestore q b) s = .next t ∧ s.queued t 0x0502 q .restore [] b ∧ t.batt = s.batt)

/-- NODE_RELAY, PMBUS_XFER, TIME_SET, KEY_LOAD, STATE_REQ, FW_BEGIN, FW_BLOCK, FW_END, FW_ACTIVATE, KENEB_BEGIN, KENEB_BLOCK, KENEB_END and
KENEB_READ. Where the spec leaves a value, an order or an instant open these clauses state the choice of the model: log entries 81, 88, 93, 102, 131. -/
def Obligations.DeviceRequests : Prop :=
  (∀ (s : State) (q : Req) (b : List Byte) (a : Nat), s.accepted 0x0601 q b = true → leAt b 0 2 = a → isNode a = true → leAt b 2 1 = 1 →
    s.relayOf (a / 32) = none → (s.node a).isOpen = true → (s.node a).req = none →
    ∃ t, exec (.nodeRelay q b) s = .next t ∧ (t.node a).txSeq = seqNext (s.node a).txSeq ∧
      (t.node a).req = some ⟨0x21, seqNext (s.node a).txSeq, 0, b.drop 4, .relay q.sess.val q.seq, s.clk.tick⟩ ∧ (t.relayOf (a / 32)).isSome = true ∧
      (t.sess q.sess).out = (s.sess q.sess).out ++ [(q.seq, 0x0601, bit q.flags 2)]) ∧
  (∀ (s : State) (q : Req) (b : List Byte) (p : Fin 64) (g : Fin 16), s.accepted 0x0602 q b = true → leAt b 0 1 = p.val → leAt b 1 1 = g.val →
    s.par P.PORT_MODE p = 2 → s.parN P.PORT_PMB_ADDR (p.val * 16 + g.val) ≠ 0xFF → pmbLens (leAt b 2 1) (leAt b 4 1) (leAt b 5 1) = true →
    s.port[p].stuck = false →
    ∃ t, exec (.pmbusXfer q b) s = .next t ∧ t.port[p].pmb.jobs = s.port[p].pmb.jobs.take 1 ++
        ⟨g, leAt b 3 1, leAt b 2 1, (b.drop 8).take (leAt b 4 1), leAt b 5 1, .pass q.sess.val q.seq, false⟩ :: s.port[p].pmb.jobs.drop 1 ∧
      (t.sess q.sess).out = (s.sess q.sess).out ++ [(q.seq, 0x0602, bit q.flags 2)]) ∧
  (∀ (s : State) (q : Req) (b : List Byte), s.accepted 0x0701 q b = true → s.tb.lockTime = false →
    ∃ t, exec (.timeSet q b) s = .next t ∧ t.tb.isSet = true ∧ t.tb.timeGap = false ∧ s.answered t 0x0701 q stOk []) ∧
  (∀ (s : State) (q : Req) (b : List Byte), s.accepted 0x0701 q b = true → s.tb.lockTime = true →
    ∃ t, exec (.timeSet q b) s = .next t ∧ t.tb = s.tb ∧ t.clk = s.clk ∧ s.answered t 0x0701 q stBusy []) ∧
  (∀ (s : State) (q : Req) (b : List Byte), s.accepted 0x0702 q b = true →
    ∃ t, exec (.keyLoad q b) s = .next t ∧ s.queued t 0x0702 q .key [] b ∧ t.host.key = s.host.key) ∧
  (∀ (s : State) (q : Req) (b : List Byte), s.accepted 0x0703 q b = true → leAt b 0 1 = 2 → s.brownWarn = false → s.hold.state = .normal →
    s.dev.state = .run →
    ∃ t, exec (.stateReq q b) s = .next t ∧ t.dev.state = .quiet ∧ t.dev.isoOn = false ∧ t.bank.on = false ∧
      (∀ d : Fin 4, t.die[d].off = true) ∧
      ∀ l : Fin 16, t.loop[l].ct.state = .stopped ∨ t.loop[l].ct.state = .faulted) ∧
  (∀ (s : State) (q : Req) (b : List Byte), s.accepted 0x0703 q b = true → leAt b 0 1 = 3 → s.brownWarn = false → s.hold.state = .normal →
    s.dev.state ≠ .dormant →
    ∃ t, exec (.stateReq q b) s = .next t ∧ t.dev.state = .dormant ∧ t.spring.mainEn = false ∧ t.clk.dlRef = false ∧ t.hasActive = false) ∧
  (∀ (s : State) (q : Req) (b : List Byte), s.accepted 0x0703 q b = true → leAt b 0 1 = 2 ∨ leAt b 0 1 = 3 → s.brownWarn = false →
    s.hold.state ≠ .normal →
    ∃ t, exec (.stateReq q b) s = .next t ∧ t.dev = s.dev ∧ t.loop = s.loop ∧ s.answered t 0x0703 q stBusy []) ∧
  (∀ (s : State) (q : Req) (b : List Byte), s.accepted 0x0710 q b = true → s.firm.trialSlot = none → s.firm.load = none → 1024 ≤ leAt b 0 4 →
    leAt b 0 4 ≤ 4194304 → leAt b 0 4 % 4 = 0 →
    ∃ t, exec (.fwBegin q b) s = .next t ∧ s.answered t 0x0710 q stOk [] ∧ t.firm.slot[1 - s.firm.run] = none ∧
      t.firm.slot[s.firm.run] = s.firm.slot[s.firm.run] ∧ t.firm.load = some ⟨q.sess, 1 - s.firm.run, leAt b 0 4, leAt b 4 4, [], none⟩) ∧
  (∀ (s : State) (q : Req) (b : List Byte) (x : FwLoad), s.accepted 0x0711 q b = true → s.brownWarn = false → s.firm.load = some x →
    x.sess = q.sess → leAt b 0 4 = x.data.length → x.data.length + (b.drop 4).length ≤ x.len →
    ∃ t, exec (.fwBlock q b) s = .next t ∧ s.answered t 0x0711 q stOk [] ∧
      t.firm = { s.firm with load := some { x with data := x.data ++ b.drop 4, owed := none } }) ∧
  (∀ (s : State) (q : Req) (b : List Byte) (x : FwLoad), s.accepted 0x0712 q b = true → s.firm.load = some x → x.sess = q.sess →
    ∃ t, exec (.fwEnd q b) s = .next t ∧ s.answered t 0x0712 q (s.fwStatus x) [] ∧ t.firm.load = none ∧
      t.firm.slot[x.slot] = (if s.fwStatus x = stOk then some ⟨x.version, leAt x.data 8 2, x.len⟩ else none)) ∧
  (∀ (s : State) (q : Req) (b : List Byte) (k : Fin 2), s.accepted 0x0713 q b = true → leAt b 0 1 = k.val → s.activateStatus b = stOk →
    ∃ t, exec (.fwActivate q b) s = .next t ∧ t.firm.trialSlot = some k ∧ t.firm.trialBoots = 1 ∧ t.spring.kind = 8 ∧ t.spring.fwCause = 3 ∧
      t.hasActive = false ∧ t.firm.rollback = s.firm.rollback) ∧
  (∀ (s : State) (q : Req) (b : List Byte), s.accepted 0x0720 q b = true → 132 ≤ leAt b 0 4 → leAt b 0 4 ≤ imgMax →
    ∃ t, exec (.kenebBegin q b) s = .next t ∧ s.answered t 0x0720 q stOk [] ∧ t.host.load = some ⟨q.sess, leAt b 0 4, []⟩) ∧
  (∀ (s : State) (q : Req) (b : List Byte) (x : KLoad), s.accepted 0x0721 q b = true → s.host.load = some x → x.sess = q.sess →
    leAt b 0 4 % 4 = 0 → leAt b 0 4 + (b.drop 4).length ≤ x.len →
    ∃ t, exec (.kenebBlock q b) s = .next t ∧ s.answered t 0x0721 q stOk [] ∧
      t.host.load = some { x with blocks := x.blocks ++ [(leAt b 0 4, b.drop 4)] }) ∧
  (∀ (s : State) (q : Req) (b : List Byte) (x : KLoad), s.accepted 0x0722 q b = true → s.host.load = some x → x.sess = q.sess →
    (s.loadFail (s.loaded x) x.len).status = stOk →
    ∃ t, exec (.kenebEnd q b) s = .next t ∧ s.queued t 0x0722 q .image [] (s.loaded x) ∧ t.host.load = some x) ∧
  (∀ (s : State) (q : Req) (b : List Byte) (x : KLoad), s.accepted 0x0722 q b = true → s.host.load = some x → x.sess = q.sess →
    (s.loadFail (s.loaded x) x.len).status ≠ stOk →
    ∃ t, exec (.kenebEnd q b) s = .next t ∧ t.host.commits = s.host.commits ∧ t.cfg = s.cfg ∧
      (t.evq.drop s.evq.length).map (fun e => (e.code, e.src)) = [(0x0F02, q.sess.val)]) ∧
  (∀ (s : State) (q : Req) (b : List Byte) (k : Fin 2), s.accepted 0x0723 q b = true → s.firm.kenebSlot = some k → 4 ≤ leAt b 4 2 →
    leAt b 4 2 ≤ 1024 → leAt b 4 2 % 4 = 0 → leAt b 0 4 % 4 = 0 → leAt b 0 4 + leAt b 4 2 ≤ s.loadNat (imgAddr k + 20) 4 →
    ∃ t, exec (.kenebRead q b) s = .next t ∧ t.mram = s.mram ∧
      s.answered t 0x0723 q stOk (b ++ s.load (imgAddr k + leAt b 0 4) (leAt b 4 2)))

/-- COMMIT_PIPELINE_HEAD, KENEB_IMAGE_WRITTEN and COMMIT_APPLY. Where the spec leaves a value, an order or an instant open these clauses state the choice of the model: log entries 79, 81, 89, 93, 118, 131, 142. -/
def Obligations.CommitPipeline : Prop :=
  (∀ (s : State) (c : Commit) (cs : List Commit), s.hasActive = true → s.host.commits = c :: cs → c.stage = .waiting → s.brownWarn = false →
    s.sluiceSpent 2 = false → (s.headCheck c).status ≠ stOk →
    ∃ t, exec .commitPipelineHead s = .next t ∧ t.host.commits = cs ∧ t.cfg = s.cfg ∧ t.loop = s.loop ∧ t.host.permit = s.host.permit ∧
      (⟨0x0E07, c.sess.val, toWord 64 ((s.headCheck c).status + (s.headCheck c).entry * 65536 + c.seq * 2 ^ 32 : Nat), s.clk.shelf⟩ : LogEv)
        ∈ t.evq) ∧
  (∀ (s : State) (c : Commit) (cs : List Commit), s.hasActive = true → s.host.commits = c :: cs → c.stage = .waiting → s.brownWarn = false →
    s.sluiceSpent 2 = false → (s.headCheck c).status = stOk →
    ∃ t, exec .commitPipelineHead s = .next t ∧
      t = { s with host := { s.host with commits := { c with stage := if c.writes then .writing else .committed } :: cs } }) ∧
  (∀ (s : State) (c : Commit) (cs : List Commit), s.host.commits = c :: cs → s.brownWarn = true → c.writes = true →
    ∃ t, exec .commitPipelineHead s = .next t ∧ t = s) ∧
  (∀ (s : State) (c : Commit) (cs : List Commit), s.hasActive = true → s.host.commits = c :: cs → c.stage = .writing → s.brownWarn = false →
    s.sluiceSpent 2 = false →
    ∃ t, exec .kenebImageWritten s = .next t ∧ t.host.commits = { c with stage := .committed } :: cs ∧ t.host.ledImg = s.otherImg ∧
      t.host.kenebGen = (s.host.kenebGen + 1) % 2 ^ 32 ∧ t.firm.kenebSlot.isSome = true ∧ t.cfg = s.cfg ∧ t.silt.copyB = !s.silt.copyB) ∧
  (∀ (s : State) (c : Commit) (cs : List Commit) (e : Entry), s.hasActive = true → s.host.commits = c :: cs → c.stage = .committed →
    c.kind = .write → c.entries = [e] → e.isK = true →
    ∃ t, exec .commitApply s = .next t ∧ t.host.commits = cs ∧ t.ord = s.ord + 1 ∧ t.cfg = newCfg s.cfg [e] ∧
      (⟨0x0E06, c.sess.val, toWord 64 (65537 + c.seq * 2 ^ 32 : Nat), s.clk.shelf⟩ : LogEv) ∈ t.evq) ∧
  (∀ (s : State) (c : Commit) (cs : List Commit) (k : Fin 8), s.hasActive = true → s.host.commits = c :: cs → c.stage = .committed →
    c.kind = .key → s.keyLoadBad (c.key == 15) c.data = false → leAt c.data 0 1 = k.val → c.key ≠ k.val →
    ∃ t, exec .commitApply s = .next t ∧ t.ord = s.ord + 1 ∧ t.host.key[k] = (s.host.key[k]).loaded c.data ∧ t.cfg = s.cfg ∧
      (⟨0x0E06, c.sess.val, toWord 64 (c.seq * 2 ^ 32 : Nat), s.clk.shelf⟩ : LogEv) ∈ t.evq ∧
      (∀ j : Fin 8, j.val = c.key → t.host.key[j] = { s.host.key[j] with lastEpoch := c.epoch, lastSeq := c.seq, lastSt := stOk }) ∧
      ∀ j : Fin 8, j ≠ k → j.val ≠ c.key → t.host.key[j] = s.host.key[j])

/-- R425, over STAGE, COMMIT and COMMIT_APPLY. -/
def Obligations.StagingOrder : Prop :=
  (∀ (s : State) (q : Req) (b : List Byte) (e : RawEntry) (i : Nat) (x : Entry), s.accepted 0x0203 q b = true → leAt b 0 2 = 1 →
    rawEntries 1 (b.drop 4) = some [e] → s.firstFail q.sess q.pe 0 [e] = none → (s.sess q.sess).staging[i]? = some x → x.id = e.id →
    x.inst = e.inst → (s.sess q.sess).staging.length ≤ 256 →
    ∃ t, exec (.stage q b) s = .next t ∧ (t.sess q.sess).staging[i]? = some (e.entry q.pe) ∧
      (t.sess q.sess).staging.length = (s.sess q.sess).staging.length ∧
      ∀ y ∈ (s.sess q.sess).staging, (y.id ≠ e.id ∨ y.inst ≠ e.inst) → ∀ j : Fin 256, (s.sess q.sess).staging[j.val]? = some y →
        (t.sess q.sess).staging[j.val]? = some y) ∧
  (∀ (s : State) (q : Req) (b : List Byte) (e : RawEntry), s.accepted 0x0203 q b = true → leAt b 0 2 = 1 →
    rawEntries 1 (b.drop 4) = some [e] → s.firstFail q.sess q.pe 0 [e] = none →
    (∀ x ∈ (s.sess q.sess).staging, x.id ≠ e.id ∨ x.inst ≠ e.inst) → (s.sess q.sess).staging.length < 256 →
    ∃ t, exec (.stage q b) s = .next t ∧ (t.sess q.sess).staging = (s.sess q.sess).staging ++ [e.entry q.pe]) ∧
  (∀ (s : State) (q : Req) (b : List Byte), s.accepted 0x0205 q b = true → (s.sess q.sess).staging ≠ [] →
    ∃ t, exec (.commit q b) s = .next t ∧ (t.host.commits.getLast?.map (fun c => c.entries)) = some (s.sess q.sess).staging) ∧
  (∀ (s : State) (c : Commit) (cs : List Commit), s.hasActive = true → s.host.commits = c :: cs → c.stage = .committed → c.kind = .staged →
    (∀ e ∈ c.entries, e.isK = true) →
    ∃ t, exec .commitApply s = .next t ∧ t.cfg = c.entries.foldl (fun v e => newCfg v [e]) s.cfg) ∧
  (∀ (s : State) (c : Commit) (cs : List Commit), s.hasActive = true → s.host.commits = c :: cs → c.stage = .committed →
    c.kind = .staged → (∀ e ∈ c.entries, e.isCtl = true ∧ e.isK = false) →
    ∃ t, exec .commitApply s = .next t ∧ t.loop = (c.entries.foldl (fun v e => (v.ctlEntry c.sess true e).1) (s.commitPop.stamp.lastCommit c stOk)).loop ∧
      t.bank = (c.entries.foldl (fun v e => (v.ctlEntry c.sess true e).1) (s.commitPop.stamp.lastCommit c stOk)).bank ∧
      t.batt = (c.entries.foldl (fun v e => (v.ctlEntry c.sess true e).1) (s.commitPop.stamp.lastCommit c stOk)).batt ∧
      t.timer = (c.entries.foldl (fun v e => (v.ctlEntry c.sess true e).1) (s.commitPop.stamp.lastCommit c stOk)).timer ∧
      t.therm = (c.entries.foldl (fun v e => (v.ctlEntry c.sess true e).1) (s.commitPop.stamp.lastCommit c stOk)).therm)

/-- BROWN_WARN_ASSERT, BROWN_RESUME_START, BROWN_WARN_RELEASE, BROWN_OUT, COLD_POR, MAIN_POR, NRST, DORMANT_WAKE, LATCHED_WAKE_MAIN_EN_HIGH,
WAKE_TIMEOUT, STEM_SUPPLY_LOW, VCORE_P_LOW, VCORE_P_RECOVER, SUPPLY_MIN_SAMPLE and VBAT_LOW. Where the spec leaves a value, an order or an instant open these clauses state the choice of the model: log entries 70, 75, 76, 77, 133. -/
def Obligations.SuppliesAndResets : Prop :=
  (∀ (s : State) (i : Fin 10), isMonitored i = true → s.dev.state ≠ .dormant → s.dev.held = false → s.power.brown = .normal →
    ∃ t, exec (.brownWarnAssert i) s = .next t ∧ t.power.brown = .warn ∧ t.power.first = i.val ∧ t.power.set = 2 ^ supBit i ∧
      t.power.warnCnt = bump s.power.warnCnt ∧ t.power.warnSeen = true ∧ t.power.sup[i].warn = true ∧
      t.spring.pend = some (2 ^ supBit i, s.clk.shelf) ∧ t.power.time = s.clk.shelf ∧ t.cfg = s.cfg ∧ t.mram = s.mram) ∧
  (∀ (s : State) (i : Fin 10), isMonitored i = true → s.dev.state ≠ .dormant → s.dev.held = false → s.power.brown ≠ .normal →
    ∃ t, exec (.brownWarnAssert i) s = .next t ∧ t.power.brown = .warn ∧ t.power.first = s.power.first ∧ bit t.power.set (supBit i) = true ∧
      t.power.warnCnt = s.power.warnCnt) ∧
  (∀ (s : State) (i : Fin 10), isMonitored i = true → s.dev.state ≠ .dormant → s.dev.held = true →
    ∃ t, exec (.brownWarnAssert i) s = .next t ∧ t.power.brown = s.power.brown ∧ t.power.sup[i].warn = true ∧ t.power.warnCnt = s.power.warnCnt) ∧
  (∀ s : State, s.power.brown = .warn →
    ∃ t, exec .brownResumeStart s = .next t ∧ t.power.brown = .resume ∧ ∀ i : Fin 10, t.power.sup[i].warn = false) ∧
  (∀ s : State, s.power.brown = .resume → s.clk.tick < s.power.resumeAt + 25000 → ∃ t, exec .brownWarnRelease s = .next t ∧ t = s) ∧
  (∀ s : State, s.power.brown = .resume → s.power.resumeAt + 25000 ≤ s.clk.tick →
    ∃ t, exec .brownWarnRelease s = .next t ∧ t.power.brown = .normal ∧ t.spring.pend = none ∧
      t.power.warnLast = min ((s.clk.tick - s.power.at_) / 250) 0xFFFFFFFF) ∧
  (∀ s : State, s.power.brown ≠ .resume → ∃ t, exec .brownWarnRelease s = .next t ∧ t = s) ∧
  (∀ (s : State) (i : Fin 10), i.val = 2 ∨ i.val = 5 ∨ i.val = 6 ∨ i.val = 7 → s.dev.state ≠ .dormant →
    ∃ t, exec (.brownOut i) s = .next t ∧ t.spring.kind = 5 ∧ t.spring.resetSup = some (i.val, s.power.set) ∧ t.hasActive = false ∧
      t.dev.held = true ∧ t.clk.dlRef = false ∧ (∀ d : Fin 4, t.die[d].off = true) ∧
      (∀ a : Nat, (∀ r ∈ s.silt.queue.head?, ¬ (0xC00000 + 32 * (r.seq % 786432) ≤ a ∧ a < 0xC00000 + 32 * (r.seq % 786432) + 32)) →
        mramByte t.mram a = mramByte s.mram a)) ∧
  (∀ (s : State) (i : Fin 10), i.val ≠ 2 → i.val ≠ 5 → i.val ≠ 6 → i.val ≠ 7 → ∃ t, exec (.brownOut i) s = .next t ∧ t = s) ∧
  (∀ s : State, ∃ t, exec .coldPor s = .next t ∧ t.spring = Spring.reset ∧ t.spring.kind = 1 ∧ t.power = Power.reset ∧ t.clk.dlRef = false ∧
      t.hasActive = false ∧ t.dev.held = true ∧
      (∀ a : Nat, (∀ r ∈ s.silt.queue.head?, ¬ (0xC00000 + 32 * (r.seq % 786432) ≤ a ∧ a < 0xC00000 + 32 * (r.seq % 786432) + 32)) →
        mramByte t.mram a = mramByte s.mram a)) ∧
  (∀ s : State, s.dev.state ≠ .dormant →
    ∃ t, exec .mainPor s = .next t ∧ t.spring.kind = 2 ∧ t.clk.dlRef = false ∧ t.hasActive = false ∧ t.dev.held = true ∧ t.spring.retain = s.spring.retain ∧
      (∀ a : Nat, (∀ r ∈ s.silt.queue.head?, ¬ (0xC00000 + 32 * (r.seq % 786432) ≤ a ∧ a < 0xC00000 + 32 * (r.seq % 786432) + 32)) →
        mramByte t.mram a = mramByte s.mram a)) ∧
  (∀ (s : State) (long : Bool), s.dev.state ≠ .dormant →
    ∃ t, exec (.nrst long) s = .next t ∧ t.spring.kind = 4 ∧ t.clk.dlRef = s.clk.dlRef ∧ t.hasActive = false ∧ t.dev.held = true ∧
      ∀ d : Fin 8, t.therm.die[d].st = (if long = true ∧ s.therm.die[d].st = .latched then .shutdown else s.therm.die[d].st)) ∧
  (∀ (s : State) (long : Bool), s.dev.state ≠ .dormant → (long = false ∨ ∀ d : Fin 8, s.therm.die[d].st ≠ .latched) →
    ∃ t, exec (.nrst long) s = .next t ∧ t.silt.gen = s.silt.gen ∧
      (∀ a : Nat, (∀ r ∈ s.silt.queue.head?, ¬ (0xC00000 + 32 * (r.seq % 786432) ≤ a ∧ a < 0xC00000 + 32 * (r.seq % 786432) + 32)) →
        mramByte t.mram a = mramByte s.mram a)) ∧
  (∀ (s : State) (d : Fin 8), s.dev.state ≠ .dormant → s.therm.die[d].st = .latched →
    ∃ t, exec (.nrst true) s = .next t ∧ t.silt.copyB = !s.silt.copyB ∧ t.silt.gen = (s.silt.gen + 1) % 2 ^ 32 ∧
      leAt (t.load (ledgerAddr t.silt.copyB) 4096) 0 4 = t.silt.gen ∧
      ∀ a : Nat, 0xC00000 ≤ a → (∀ r ∈ s.silt.queue.head?, ¬ (0xC00000 + 32 * (r.seq % 786432) ≤ a ∧ a < 0xC00000 + 32 * (r.seq % 786432) + 32)) →
        mramByte t.mram a = mramByte s.mram a) ∧
  (∀ (s : State) (c : Nat), s.dev.state = .dormant → s.wakeOn c = true →
    ∃ t, exec (.dormantWake c false) s = .next t ∧ t.spring.kind = 3 ∧ t.spring.wakeCause = c ∧ t.spring.mainEn = true ∧
      t.spring.wakeLatch = none ∧ t.dev.state = .boot ∧ t.hasActive = false ∧
      (∀ a : Nat, (∀ r ∈ s.silt.queue.head?, ¬ (0xC00000 + 32 * (r.seq % 786432) ≤ a ∧ a < 0xC00000 + 32 * (r.seq % 786432) + 32)) →
        mramByte t.mram a = mramByte s.mram a)) ∧
  (∀ (s : State) (c : Nat), s.dev.state = .dormant → s.wakeOn c = true →
    ∃ t, exec (.dormantWake c true) s = .next t ∧ t = { s with spring := { s.spring with wakeLatch := some c } }) ∧
  (∀ (s : State) (c : Nat) (early : Bool), s.dev.state ≠ .dormant ∨ s.wakeOn c = false →
    ∃ t, exec (.dormantWake c early) s = .next t ∧ t = s) ∧
  (∀ (s : State) (c : Nat), s.dev.state = .dormant → s.spring.wakeLatch = some c →
    ∃ t, exec .latchedWakeMainEnHigh s = .next t ∧ t.spring.kind = 3 ∧ t.spring.wakeCause = c ∧ t.spring.mainEn = true ∧ t.dev.state = .boot ∧
      t.hasActive = false) ∧
  (∀ s : State, s.dev.held = true → s.dev.state = .boot → s.spring.kind = 3 →
    ∃ t, exec .wakeTimeout s = .next t ∧ t.dev.state = .dormant ∧ t.spring.mainEn = false ∧ t.spring.wakeCause = s.spring.wakeCause % 128 + 128) ∧
  (∀ (s : State) (k : Fin 2), s.dev.held = false → s.stems.stem[1 - k].low = false → s.stemSt k = .standby → s.stemSt (1 - k) = .active →
    ∃ t, exec (.stemSupplyLow k) s = .next t ∧ t.stemSt k = .failed ∧ t.stems.stem[k].low = true ∧ t.stems.stem[1 - k] = s.stems.stem[1 - k] ∧
      t.stems.lastFault = 8) ∧
  (∀ (s : State) (k : Fin 2), s.dev.held = false → s.stems.stem[1 - k].low = true →
    ∃ t, exec (.stemSupplyLow k) s = .next t ∧ t.spring.kind = 5 ∧ t.spring.resetSup = some (k.val, s.power.set) ∧ t.hasActive = false) ∧
  (∀ s : State, ∃ t, exec .vcorePLow s = .next t ∧ t.spring = s.spring ∧ t.stems = s.stems ∧
    (∀ d : Fin 4, t.die[d].state = .safe ∧ t.die[d].supplyLow = true) ∧ ∀ p : Fin 48, t.ph[p].pl.pwmh = false ∧ t.ph[p].pl.pwml = false) ∧
  (∀ s : State, ∃ t, exec .vcorePRecover s = .next t ∧ ∀ d : Fin 4, t.die[d].supplyLow = false ∧ t.die[d].state = s.die[d].state) ∧
  (∀ (s : State) (v : Vector Int 10) (i : Fin 10), s.dev.held = false → isMonitored i = true →
    ∃ t, exec (.supplyMinSample v) s = .next t ∧
      t.power.sup[i].min = some (match s.power.sup[i].min with | none => floorDiv v[i] 10 * 10 | some a => min a (floorDiv v[i] 10 * 10))) ∧
  (∀ (s : State) (mv : Nat), ∃ t, exec (.vbatLow mv) s = .next t ∧
    t.power = { s.power with vbatLow := (if mv < s.parN P.SUPPLY_VBAT_LOW 0 then true
      else if s.parN P.SUPPLY_VBAT_LOW 0 + 50 ≤ mv then false else s.power.vbatLow) })

/-- DEV_RESET_RELEASE, KENEB_IMAGE_APPLY, LOOP_AUTOSTART, RETENTION_WRITE, FW_TRIAL_CONFIRM, PEER_HELLO_SEND, PEER_LINK_UP, PEER_LINK_DOWN
and PEER_FRAME_RECEIVE. Where the spec leaves a value, an order or an instant open these clauses state the choice of the model: log entries 40, 54, 73, 95, 96, 97, 101, 130. -/
def Obligations.StartsAndChain : Prop :=
  (∀ s : State, s.dev.held = true → s.dev.state ≠ .dormant → s.ledgerPick = none → s.firm.trialSlot = none → s.slotCause s.firm.runSlot = 0 →
    (∀ d : Fin 8, s.therm.die[d].st = .run) → (∀ k : Fin 2, s.stems.stem[k].low = false) →
    ∃ t, exec .devResetRelease s = .next t ∧ t.dev.held = false ∧ t.dev.hostOn = true ∧ t.clk.dlRef = true ∧ t.firm.run = s.firm.runSlot ∧
      t.nodes.bootGen ≠ 0 ∧ ∀ k : Fin 2, t.stemSt k = .boot) ∧
  (∀ (s : State) (b : Bool) (k : Fin 2), s.dev.held = true → s.dev.state ≠ .dormant → s.ledgerPick = some b →
    leAt (s.load (ledgerAddr b) 4096) 64 1 % 2 = k.val → 2 ≤ leAt (s.load (ledgerAddr b) 4096) 65 1 → s.slotCause k = 0 →
    (∀ d : Fin 8, leAt (s.load (ledgerAddr b) 4096) (3978 + 12 * d.val) 1 % 4 = 0) → (∀ j : Fin 2, s.stems.stem[j].low = false) →
    ∃ t, exec .devResetRelease s = .next t ∧ t.dev.held = false ∧ t.firm.run = k ∧ t.firm.runSlot = k ∧
      t.nodes.bootGen = (if 65535 ≤ leAt (s.load (ledgerAddr b) 4096) 12 2 then 1 else leAt (s.load (ledgerAddr b) 4096) 12 2 + 1) ∧
      t.host.ledImg = leAt (s.load (ledgerAddr b) 4096) 67 1 % 2 ∧ ∀ j : Fin 2, t.stemSt j = .boot) ∧
  (∀ s : State, s.dev.held = false → ∃ t, exec .devResetRelease s = .next t ∧ t = s) ∧
  (∀ (s : State) (head : Bool), s.hasActive = true → s.dev.applied = false → s.imgChoose.1 = none →
    ∃ t, exec (.kenebImageApply head) s = .next t ∧ t.cfg = [] ∧ t.firm.kenebSlot = none ∧ t.dev.applied = true ∧ t.dev.mbReady = true ∧
      t.fault.hold = false ∧ t.chain.head = head ∧ t.dev.state = .run ∧ (∀ d : Fin 4, t.die[d].src = true) ∧
      (⟨0x1209, 255, toWord 64 (2 + (s.imgCheck s.host.ledImg).1 * 256 : Nat), s.clk.shelf⟩ : LogEv) ∈ t.evq) ∧
  (∀ (s : State) (head : Bool) (x : Nat × SMap Int), s.hasActive = true → s.dev.applied = false → s.imgChoose.1 = some x →
    ∃ t, exec (.kenebImageApply head) s = .next t ∧ t.cfg = x.2 ∧ t.host.ledImg = x.1 ∧ t.dev.applied = true ∧ t.dev.mbReady = true ∧
      t.dev.state = (if cfgGet x.2 P.DEV_BOOT_STATE 0 = 2 then .quiet else .run)) ∧
  (∀ (s : State) (head : Bool), s.hasActive = false ∨ s.dev.applied = true → ∃ t, exec (.kenebImageApply head) s = .next t ∧ t = s) ∧
  (∀ (s : State) (l : Fin 16), s.hasActive = true → s.dev.state = .run → s.dev.auto[l] = true → s.canStart l = true →
    s.par P.LOOP_ENABLE l ≠ 0 → s.loop[l].ct.state = .stopped →
    ∃ t, exec (.loopAutostart l) s = .next t ∧ t.ord = s.ord + 1 ∧ t.loop[l].ct.state = .starting ∧ t.dev.auto[l] = false) ∧
  (∀ (s : State) (l : Fin 16), s.dev.auto[l] = false → ∃ t, exec (.loopAutostart l) s = .next t ∧ t = s) ∧
  (∀ s : State, s.dev.held = false → s.dev.state ≠ .dormant →
    ∃ t, exec .retentionWrite s = .next t ∧ t.spring.retB = (!s.spring.retB) ∧ t.spring.newest.map (fun r => r.time) = some s.clk.shelf ∧
      t.spring.newest.map (fun r => r.retain) = some s.spring.retain ∧ t.spring.newest.map (fun r => r.kind) = some s.spring.kind ∧
      (if s.spring.retB then t.spring.ret[(1 : Fin 2)] = s.spring.ret[(1 : Fin 2)] else t.spring.ret[(0 : Fin 2)] = s.spring.ret[(0 : Fin 2)])) ∧
  (∀ s : State, s.clk.tick < s.firm.trialTick + s.parN P.DEV_FW_TRIAL_TIME 0 * 250000000 → ∃ t, exec .fwTrialConfirm s = .next t ∧ t = s) ∧
  (∀ (s : State) (k : Fin 2) (x : FwImage), s.hasActive = true → s.firm.trialSlot = some k → s.firm.slot[k] = some x → s.firm.trialStart ≠ 0 →
    s.firm.trialTick + s.parN P.DEV_FW_TRIAL_TIME 0 * 250000000 ≤ s.clk.tick →
    ∃ t, exec .fwTrialConfirm s = .next t ∧ t.firm.runSlot = k ∧ t.firm.trialSlot = none ∧ t.firm.rollback = max s.firm.rollback x.rollback ∧
      t.evq = s.evq ++ [⟨0x1207, k.val, toWord 64 (x.version + max s.firm.rollback x.rollback * 2 ^ 32 : Nat), s.clk.shelf⟩]) ∧
  (∀ (s : State) (n : Fin 2), s.hasActive = true →
    ∃ t, exec (.peerHelloSend n) s = .next t ∧ t.chain.peer[n].seq = (s.chain.peer[n].seq + 1) % 2 ^ 32 ∧
      t.chain.peer[n].out.take 8 = leBytes 1 1 ++ leBytes 1 s.chain.addr ++ leBytes 2 4 ++ leBytes 4 s.chain.peer[n].seq ∧
      t.chain.peer[1 - n] = s.chain.peer[1 - n] ∧ t.chain.addr = s.chain.addr) ∧
  (∀ (s : State) (n : Fin 2), s.dev.held = false →
    ∃ t, exec (.peerLinkUp n) s = .next t ∧ t.chain.peer[n].up = true ∧ t.chain.peer[1 - n] = s.chain.peer[1 - n]) ∧
  (∀ (s : State) (n : Fin 2), ∃ t, exec (.peerLinkDown n) s = .next t ∧ t.chain.peer[n].up = false ∧ t.chain.peer[1 - n] = s.chain.peer[1 - n]) ∧
  (∀ (s : State) (n : Fin 2) (data : List Byte), crc32c (data.take (data.length - 4)) ≠ leAt data (data.length - 4) 4 →
    ∃ t, exec (.peerFrameReceive n data) s = .next t ∧ t = s) ∧
  (∀ (s : State) (n : Fin 2) (data : List Byte), s.hasActive = true → s.chain.peer[n].up = true → data.length = 16 → leAt data 0 1 = 1 →
    leAt data 2 2 = 4 → crc32c (data.take 12) = leAt data 12 4 →
    ∃ t, exec (.peerFrameReceive n data) s = .next t ∧ t.chain.peer[n].addr = leAt data 1 1 ∧ t.ord = s.ord + 1 ∧
      t.chain.peer[1 - n] = s.chain.peer[1 - n])

/-- The step of the block. The idle step is the model's choice: log entry 1. Where the spec leaves a value, an order or an instant open these clauses state the choice of the model: log entry 74. -/
def Obligations.StepRunsTheFront : Prop :=
  (∀ (s : State) (c : Instr) (cs : List Instr), step { s with pending := c :: cs } = exec c { s with pending := cs }) ∧
  (∀ s : State, s.pending = [] → s.clk.dlRef = true →
    ∃ t, step s = .next t ∧
      t = State.doubtEnd { s with clk := { s.clk with tick := s.clk.tick + 1, t5k := s.clk.t5k + s.tb.slew.rate } }) ∧
  (∀ s : State, s.pending = [] → s.clk.dlRef = true → s.stems.doubt = none →
    ∃ t, step s = .next t ∧ t = { s with clk := { s.clk with tick := s.clk.tick + 1, t5k := s.clk.t5k + s.tb.slew.rate } }) ∧
  (∀ s : State, s.pending = [] → s.clk.dlRef = false → s.stems.doubt = none → ∃ t, step s = .next t ∧ t = s)

/-- No command stops the block. Where the spec leaves a value, an order or an instant open these clauses state the choice of the model: log entries 105, 106. -/
def Obligations.EveryCommandAnswers : Prop :=
  ∀ (s : State) (c : Instr), ∃ t, exec c s = .next t ∧ t.pending = s.pending

/-- The frame of every command, by the parts of the state. Where the spec leaves a value, an order or an instant open these clauses state the choice of the model: log entry 106. -/
def Obligations.CommandsKeepTheRest : Prop :=
  ∀ (s : State) (c : Instr) (t : State) (p : Part), exec c s = .next t → p ∉ c.parts → p.same s t

/-- The invariant of a safe part, kept by every step. Where the spec leaves a value, an order or an instant open these clauses state the choice of the model: log entry 59. -/
def Obligations.SafePartIsKept : Prop :=
  ∀ s t : State, Safety.storeWf s → Safety.noShootThrough s → Safety.safeDieLow s → step s = .next t →
    Safety.storeWf t ∧ Safety.noShootThrough t ∧ Safety.safeDieLow t

/-- R163, as an invariant of every step. -/
def Obligations.PrechargeOnce : Prop :=
  (∀ a b : Fin 2, State.reset.bank.feed[a].state = .precharge → State.reset.bank.feed[b].state = .precharge → a = b) ∧
  ∀ (s t : State), (∀ a b : Fin 2, s.bank.feed[a].state = .precharge → s.bank.feed[b].state = .precharge → a = b) → step s = .next t →
    ∀ a b : Fin 2, t.bank.feed[a].state = .precharge → t.bank.feed[b].state = .precharge → a = b

/-- Reset, and the invariant at it. The bytes of the empty store are the model's choice: log entry 58. Where the spec leaves a value, an order or an instant open these clauses state the choice of the model: log entries 103, 104. -/
def Obligations.ResetIsSafe : Prop :=
  State.reset.pending = [] ∧ State.reset.dev.state = .boot ∧ State.reset.dev.held = true ∧
  (∀ k : Fin 2, State.reset.stemSt k = .off) ∧ (∀ d : Fin 4, State.reset.die[d].state = .safe) ∧
  (∀ p : Fin 48, State.reset.ph[p].pl.pwmh = false ∧ State.reset.ph[p].pl.pwml = false) ∧
  (∀ l : Fin 16, State.reset.loop[l].ct.state = .stopped) ∧ (∀ f : Fin 2, State.reset.bank.feed[f].state = .off) ∧
  (∀ p : Fin 64, State.reset.port[p].state = .off) ∧ (∀ k : Fin 8, (State.reset.sess k).state = .free) ∧
  (∀ i : Nat, (State.reset.permit i).holder = none) ∧ State.reset.hold.state = .normal ∧
  (∀ p : Fin 48, State.reset.pwmPads p = (.low, .low)) ∧ (∀ l : Fin 16, State.reset.pgPad l = .low) ∧
  (∀ m : Fin 4, State.reset.faultPad m = .low) ∧ (∀ f : Fin 2, State.reset.gatePads f = (.low, .low, .low)) ∧
  Safety.storeWf State.reset ∧ Safety.noShootThrough State.reset ∧ Safety.safeDieLow State.reset
end

