-- ==== Sys2Proof/Laws/Keeps.lean ====
section
/-! SUPPORT. What every operation of the part keeps: the queue of waiting commands, the tick, the canonical form of the silt store, a
rollback counter that never falls, safe PWM outputs, and every part of the state outside the operation's mask. One relation on states, and
the lemmas that carry it through updates, folds and answers. -/

namespace Sys2Proof

/-- Erasing a key keeps the canonical form. -/
theorem SMap.erase_wf {α : Type} [DecidableEq α] {d : α} {m : SMap α} (k : Nat) (h : SMap.wf d m) : SMap.wf d (SMap.erase k m) :=
  ⟨h.1.filter _, fun p hp => h.2 p (List.mem_of_mem_filter hp)⟩

/-- The entries of an insertion. -/
theorem SMap.mem_insert {α : Type} {k : Nat} {v : α} {m : SMap α} {p : Nat × α} (h : p ∈ SMap.insert k v m) : p = (k, v) ∨ p ∈ m := by
  induction m with
  | nil => exact .inl (by simpa [SMap.insert] using h)
  | cons q m ih =>
    simp only [SMap.insert] at h
    split at h
    · simpa using h
    · rcases List.mem_cons.1 h with h | h
      · exact .inr (by simp [h])
      · exact (ih h).imp id (by simp_all)

/-- Inserting an absent key keeps keys rising. -/
theorem SMap.insert_sorted {α : Type} {k : Nat} {v : α} {m : SMap α} (h : m.Pairwise (fun a b => a.1 < b.1)) (hk : ∀ p ∈ m, p.1 ≠ k) :
    (SMap.insert k v m).Pairwise (fun a b => a.1 < b.1) := by
  induction m with
  | nil => simp [SMap.insert]
  | cons q m ih =>
    have h' := List.pairwise_cons.1 h
    have hq : q.1 ≠ k := hk q (by simp)
    simp only [SMap.insert]
    split
    · rename_i hlt
      refine List.pairwise_cons.2 ⟨fun p hp => ?_, h⟩
      rcases List.mem_cons.1 hp with rfl | hp
      · exact hlt
      · exact lt_trans hlt (h'.1 p hp)
    · refine List.pairwise_cons.2 ⟨fun p hp => ?_, ih h'.2 (fun p hp => hk p (by simp [hp]))⟩
      rcases SMap.mem_insert hp with rfl | hp
      · simp only
        omega
      · exact h'.1 p hp

/-- Setting a key keeps the canonical form. -/
theorem SMap.set_wf {α : Type} [DecidableEq α] {d : α} {m : SMap α} (k : Nat) (v : α) (h : SMap.wf d m) : SMap.wf d (SMap.set d k v m) := by
  simp only [SMap.set]
  split
  · exact SMap.erase_wf k h
  · rename_i hv
    have he := SMap.erase_wf k h
    refine ⟨SMap.insert_sorted he.1 (fun p hp => by simpa using (List.mem_filter.1 hp).2), fun p hp => ?_⟩
    rcases SMap.mem_insert hp with rfl | hp
    · exact hv
    · exact he.2 p hp

end Sys2Proof

namespace Sys2Proof.Machine

/-- One byte written keeps the canonical form of the store. -/
theorem Memory.set_wf {m : List Host.Cell} (a : Nat) (b : Byte) (h : Memory.wf m) : Memory.wf (mramSet m a b) := by
  simp only [mramSet]
  split
  · rename_i ha
    refine ⟨SMap.set_wf a b h.1, fun c hc => ?_⟩
    simp only [SMap.set] at hc
    split at hc
    · exact h.2 c (List.mem_of_mem_filter hc)
    · rcases SMap.mem_insert hc with rfl | hc
      · exact ha
      · exact h.2 c (List.mem_of_mem_filter hc)
  · exact h

/-- Bytes written keep the canonical form of the store. -/
theorem Memory.put_wf (bs : List Byte) {m : List Host.Cell} (a : Nat) (h : Memory.wf m) : Memory.wf (mramPut m a bs) := by
  induction bs generalizing m a with
  | nil => exact h
  | cons b bs ih => exact ih (a + 1) (Memory.set_wf a b h)

/-- Every bit of one mask is in another. -/
def Within (m w : Nat) : Prop := ∀ i, m.testBit i = true → w.testBit i = true

/-- A smaller mask. -/
theorem Within.mono {a b w : Nat} (h : a &&& b = a) (hw : Within b w) : Within a w := fun i hi =>
  hw i (by rw [← h, Nat.testBit_land, Bool.and_eq_true] at hi; exact hi.2)

/-- A bit of the mask is not outside the larger one. -/
theorem Within.no {m w i : Nat} {P : Prop} (hw : Within m w) (hi : m.testBit i = true) (hp : w.testBit i = false) : P :=
  absurd (hw i hi) (by simp [hp])

/-- The PWM outputs as the spec wants them: no stage shorted (R70), a die in SAFE low (R82). -/
def Drive (s : State) : Prop := Safety.noShootThrough s ∧ Safety.safeDieLow s

/-- What every operation with a mask of parts keeps. -/
structure Keeps (w : Nat) (s t : State) : Prop where
  queue : t.pending = s.pending
  tick : t.clk.tick = s.clk.tick
  store : Memory.wf s.mram → Memory.wf t.mram
  rollback : s.firm.rollback ≤ t.firm.rollback
  drive : Drive s → Drive t
  frame : ∀ p : Part, w.testBit p.idx = false → p.same s t

/-- A part unchanged. -/
theorem sameRefl (p : Part) (s : State) : p.same s s := by cases p <;> exact rfl

/-- A part unchanged twice. -/
theorem sameTrans {p : Part} {s t u : State} (h : p.same s t) (g : p.same t u) : p.same s u := by
  cases p <;> exact Eq.trans g h

/-- Nothing changed. -/
theorem Keeps.refl (w : Nat) (s : State) : Keeps w s s := ⟨rfl, rfl, id, le_refl _, id, fun p _ => sameRefl p s⟩

/-- One operation after another. -/
theorem Keeps.trans {w : Nat} {s t u : State} (h : Keeps w s t) (g : Keeps w t u) : Keeps w s u :=
  ⟨g.queue.trans h.queue, g.tick.trans h.tick, g.store ∘ h.store, h.rollback.trans g.rollback, g.drive ∘ h.drive,
    fun p hp => sameTrans (h.frame p hp) (g.frame p hp)⟩

/-- A larger mask. -/
theorem Keeps.mono {a w : Nat} {s t : State} (h : Keeps a s t) (hw : Within a w) : Keeps w s t :=
  ⟨h.queue, h.tick, h.store, h.rollback, h.drive, fun p hp => h.frame p (by
    cases ha : a.testBit p.idx
    · rfl
    · exact hw.no ha hp)⟩

/-- Parts that `Keeps` says nothing more of are written. -/
theorem Keeps.upd {w : Nat} {s x : State} (h : Keeps w s x) (tb : TimeBase) (slu : Sluice) (cfg : SMap Int) (lag : SMap Int) (ord : Nat)
    (free : Nat) (evq : List LogEv) (pst : Vector PhaseStat 48) (vs : Vector VSense 16) (loop : Vector Loop 16) (fault : FaultPins)
    (stemRep : List (Nat × Nat)) (share : Share) (hold : Hold) (bank : Bank) (weir : Weir) (batt : Vector Batt 8) (port : Vector Port
    64) (nodes : Nodes) (pool : Pool) (silt : Silt) (spate : Spate) (host : Hosts) (stems : Stems) (passed : Vector Nat 5) (therm :
    Therm) (timer : Vector Timer 32) (power : Power) (spring : Spring) (chain : Chain) (dev : Dev) (hf : ∀ p : Part, w.testBit p.idx =
    false → p.same x ⟨x.pending, x.clk, tb, slu, cfg, lag, ord, free, evq, x.die, x.ph, pst, vs, loop, fault, stemRep, share, hold,
    bank, weir, batt, port, nodes, pool, x.mram, silt, spate, host, stems, passed, therm, timer, power, spring, x.firm, chain, dev⟩) :
    Keeps w s ⟨x.pending, x.clk, tb, slu, cfg, lag, ord, free, evq, x.die, x.ph, pst, vs, loop, fault, stemRep, share, hold, bank, weir,
    batt, port, nodes, pool, x.mram, silt, spate, host, stems, passed, therm, timer, power, spring, x.firm, chain, dev⟩ := ⟨h.queue,
    h.tick, h.store, h.rollback, h.drive, fun p hp => sameTrans (h.frame p hp) (hf p hp)⟩

/-- The clock is written but for its tick. -/
theorem Keeps.updClk {w : Nat} {s x : State} (h : Keeps w s x) (c : Clock) (hc : c.tick = s.clk.tick) (tb : TimeBase) (slu : Sluice)
    (cfg : SMap Int) (lag : SMap Int) (ord : Nat) (free : Nat) (evq : List LogEv) (pst : Vector PhaseStat 48) (vs : Vector VSense 16)
    (loop : Vector Loop 16) (fault : FaultPins) (stemRep : List (Nat × Nat)) (share : Share) (hold : Hold) (bank : Bank) (weir : Weir)
    (batt : Vector Batt 8) (port : Vector Port 64) (nodes : Nodes) (pool : Pool) (silt : Silt) (spate : Spate) (host : Hosts) (stems :
    Stems) (passed : Vector Nat 5) (therm : Therm) (timer : Vector Timer 32) (power : Power) (spring : Spring) (chain : Chain) (dev :
    Dev) (hf : ∀ p : Part, w.testBit p.idx = false → p.same x ⟨x.pending, c, tb, slu, cfg, lag, ord, free, evq, x.die, x.ph, pst, vs,
    loop, fault, stemRep, share, hold, bank, weir, batt, port, nodes, pool, x.mram, silt, spate, host, stems, passed, therm, timer,
    power, spring, x.firm, chain, dev⟩) : Keeps w s ⟨x.pending, c, tb, slu, cfg, lag, ord, free, evq, x.die, x.ph, pst, vs, loop, fault,
    stemRep, share, hold, bank, weir, batt, port, nodes, pool, x.mram, silt, spate, host, stems, passed, therm, timer, power, spring,
    x.firm, chain, dev⟩ := ⟨h.queue, hc, h.store, h.rollback, h.drive, fun p hp => sameTrans (h.frame p hp) (hf p hp)⟩

/-- No output of a stage is higher than it was. -/
def Lower (a b : Pulse) : Prop := (a.pwmh = true → b.pwmh = true) ∧ (a.pwml = true → b.pwml = true)

/-- Phases changed with every output no higher than it was. -/
theorem Keeps.updPh {w : Nat} {s x : State} (h : Keeps w s x) (v : Vector Phase 48) (hw : w.testBit Part.ph.idx = true)
    (hv : ∀ p : Fin 48, Lower v[p].pl x.ph[p].pl) :
    Keeps w s { x with ph := v } := by
  refine ⟨h.queue, h.tick, h.store, h.rollback, fun hd => ⟨fun p hp => ?_, fun p hp => ?_⟩, fun p hp => ?_⟩
  · exact (h.drive hd).1 p ⟨(hv p).1 hp.1, (hv p).2 hp.2⟩
  · have hl := (h.drive hd).2 p hp
    have h2 := hv p
    rw [Lower, hl.1, hl.2] at h2
    exact ⟨Bool.eq_false_iff.2 (fun hq => Bool.noConfusion (h2.1 hq)), Bool.eq_false_iff.2 (fun hq => Bool.noConfusion (h2.2 hq))⟩
  · refine sameTrans (h.frame p hp) ?_
    cases p <;> first | exact rfl | exact absurd hw (by simp [hp])

/-- ARMED is not SAFE. -/
theorem armed_not_safe {P : Prop} (h : DieState.armed = .safe) : P := by cases h

/-- RUN is not SAFE. -/
theorem run_not_safe {P : Prop} (h : DieState.run = .safe) : P := by cases h

/-- Dies changed with none newly in SAFE unless its outputs are low. -/
theorem Keeps.updDie {w : Nat} {s x : State} (h : Keeps w s x) (v : Vector Die 4) (hw : w.testBit Part.die.idx = true)
    (hv : ∀ p : Fin 48, v[dieOf p].state = .safe → x.die[dieOf p].state = .safe ∨ (x.ph[p].pl.pwmh = false ∧ x.ph[p].pl.pwml = false)) :
    Keeps w s { x with die := v } := by
  refine ⟨h.queue, h.tick, h.store, h.rollback, fun hd => ⟨(h.drive hd).1, fun p hp => ?_⟩, fun p hp => ?_⟩
  · exact (hv p hp).elim ((h.drive hd).2 p) id
  · refine sameTrans (h.frame p hp) ?_
    cases p <;> first | exact rfl | exact absurd hw (by simp [hp])

/-- The table after an update at one place. -/
theorem upd_get {α : Type} {n : Nat} (v : Vector α n) (i j : Fin n) (f : α → α) : (upd v i f)[j] = if j = i then f v[i] else v[j] := by
  simp only [upd, Fin.getElem_fin, Vector.getElem_set]
  by_cases h : j = i
  · simp [h]
  · have : i.val ≠ j.val := fun e => h (Fin.ext e.symm)
    simp [h, this]

/-- A choice between two states. -/
theorem Keeps.ite {w : Nat} {s a b : State} {c : Prop} [Decidable c] (ha : Keeps w s a) (hb : Keeps w s b) : Keeps w s (if c then a else
    b) := by
  split
  · exact ha
  · exact hb

/-- A choice between two states with a value behind. -/
theorem Keeps.iteFst {w : Nat} {α : Type} {s : State} {a b : State × α} {c : Prop} [Decidable c] (ha : Keeps w s a.1) (hb : Keeps w s b.1) :
    Keeps w s (if c then a else b).1 := by
  split
  · exact ha
  · exact hb

/-- A fold of operations. -/
theorem Keeps.foldl {w : Nat} {α : Type} {f : State → α → State} (l : List α) {s x : State} (h : Keeps w s x)
    (hf : ∀ u a, Keeps w s u → Keeps w s (f u a)) : Keeps w s (l.foldl f x) := by
  induction l generalizing x with
  | nil => exact h
  | cons a l ih => exact ih (hf x a h)

/-- A fold that carries a value before the state. -/
theorem Keeps.foldlSnd {w : Nat} {α β : Type} {f : β × State → α → β × State} (l : List α) {s : State} {x : β × State} (h : Keeps w s x.2)
    (hf : ∀ u a, Keeps w s u.2 → Keeps w s (f u a).2) : Keeps w s (l.foldl f x).2 := by
  induction l generalizing x with
  | nil => exact h
  | cons a l ih => exact ih (hf x a h)

/-- A fold that carries a value behind the state. -/
theorem Keeps.foldlFst {w : Nat} {α β : Type} {f : State × β → α → State × β} (l : List α) {s : State} {x : State × β} (h : Keeps w s x.1)
    (hf : ∀ u a, Keeps w s u.1 → Keeps w s (f u a).1) : Keeps w s (l.foldl f x).1 := by
  induction l generalizing x with
  | nil => exact h
  | cons a l ih => exact ih (hf x a h)

/-- A state on the way, and the rest from there. -/
theorem Keeps.cut {w : Nat} {s v : State} {P : Prop} (hv : Keeps w s v) (hp : Keeps w s v → P) : P := hp hv

/-- What an answer keeps. -/
def Answers (w : Nat) (s : State) (r : Res) : Prop := ∃ t, r = .next t ∧ Keeps w s t

/-- A next state. -/
theorem Answers.next {w : Nat} {s t : State} (h : Keeps w s t) : Answers w s (.next t) := ⟨t, rfl, h⟩

/-- A choice between two answers. -/
theorem Answers.ite {w : Nat} {s : State} {a b : Res} {c : Prop} [Decidable c] (ha : Answers w s a) (hb : Answers w s b) :
    Answers w s (if c then a else b) := by
  split
  · exact ha
  · exact hb

end Sys2Proof.Machine
end

