-- ==== Sys2Proof/Laws/KeepsA.lean ====
section
/-! SUPPORT. What the operations keep (see Keeps.lean), one lemma each: those of Ops.lean, Operands.lean, Slope.lean, PulseOps.lean, FaultPins.lean, LoopOps.lean, HostOps.lean. -/

set_option linter.tactic.unusedName false
set_option linter.unreachableTactic false
set_option linter.unusedTactic false

namespace Sys2Proof.Machine

theorem State.setPar_keeps {wm : Nat} {s0 s : State} (p : Prm) (i : Nat) (v : Int) (h : Keeps wm s0 s) (hw : Within 0x8 wm) :
    Keeps wm s0 (State.setPar s p i v) := by
  unfold State.setPar
  repeat' first
    | (with_reducible first | assumption | exact hw | exact hw.mono (by decide)) | intro _
    | fail_if_no_progress extract_lets +onlyGivenNames x | with_reducible apply Keeps.ite | dsimp -zeta only [x]
    | (fail_if_no_progress ((with_reducible apply Keeps.upd); on_goal 2 => exact fun p hp => by cases p <;> first | with_reducible exact rfl | exact hw.no rfl hp))

theorem State.log_keeps {wm : Nat} {s0 s : State} (code : Nat) (src : Nat) (data : Int) (h : Keeps wm s0 s) (hw : Within 0x40 wm) :
    Keeps wm s0 (State.log s code src data) := by
  unfold State.log
  repeat' first
    | (with_reducible first | assumption | exact hw | exact hw.mono (by decide)) | intro _
    | fail_if_no_progress extract_lets +onlyGivenNames x | with_reducible apply Keeps.ite | dsimp -zeta only [x]
    | (fail_if_no_progress ((with_reducible apply Keeps.upd); on_goal 2 => exact fun p hp => by cases p <;> first | with_reducible exact rfl | exact hw.no rfl hp))

theorem State.logAt_keeps {wm : Nat} {s0 s : State} (code : Nat) (src : Nat) (data : Int) (time : Nat) (h : Keeps wm s0 s) (hw : Within 0x40 wm) :
    Keeps wm s0 (State.logAt s code src data time) := by
  unfold State.logAt
  repeat' first
    | (with_reducible first | assumption | exact hw | exact hw.mono (by decide)) | intro _
    | fail_if_no_progress extract_lets +onlyGivenNames x | with_reducible apply Keeps.ite | dsimp -zeta only [x]
    | (fail_if_no_progress ((with_reducible apply Keeps.upd); on_goal 2 => exact fun p hp => by cases p <;> first | with_reducible exact rfl | exact hw.no rfl hp))

theorem State.stamp_keeps {wm : Nat} {s0 s : State} (h : Keeps wm s0 s) (hw : Within 0x10 wm) :
    Keeps wm s0 (State.stamp s) := by
  unfold State.stamp
  repeat' first
    | (with_reducible first | assumption | exact hw | exact hw.mono (by decide)) | intro _
    | fail_if_no_progress extract_lets +onlyGivenNames x | with_reducible apply Keeps.ite | dsimp -zeta only [x]
    | (fail_if_no_progress ((with_reducible apply Keeps.upd); on_goal 2 => exact fun p hp => by cases p <;> first | with_reducible exact rfl | exact hw.no rfl hp))

theorem State.stemFault_keeps {wm : Nat} {s0 s : State} (kind : Nat) (h : Keeps wm s0 s) (hw : Within 0x2000 wm) :
    Keeps wm s0 (State.stemFault s kind) := by
  unfold State.stemFault
  repeat' first
    | (with_reducible first | assumption | exact hw | exact hw.mono (by decide)) | intro _
    | fail_if_no_progress extract_lets +onlyGivenNames x | with_reducible apply Keeps.ite | dsimp -zeta only [x]
    | (fail_if_no_progress ((with_reducible apply Keeps.upd); on_goal 2 => exact fun p hp => by cases p <;> first | with_reducible exact rfl | exact hw.no rfl hp))

theorem State.spateReq_keeps {wm : Nat} {s0 s : State} (code : Nat) (arg : Nat) (h : Keeps wm s0 s) (hw : Within 0x1000000 wm) :
    Keeps wm s0 (State.spateReq s code arg) := by
  unfold State.spateReq
  repeat' first
    | (with_reducible first | assumption | exact hw | exact hw.mono (by decide)) | intro _
    | ((fail_if_no_progress extract_lets +onlyGivenNames x); clear_value x) | fail_if_no_progress extract_lets +onlyGivenNames x
    | with_reducible apply Keeps.ite | dsimp -zeta only [x]
    | (fail_if_no_progress ((with_reducible apply Keeps.upd); on_goal 2 => exact fun p hp => by cases p <;> first | with_reducible exact rfl | exact hw.no rfl hp))

theorem State.output_keeps {wm : Nat} {s0 s : State} (g : Fin 5) (h : Keeps wm s0 s) (hw : Within 0x800000000 wm) :
    Keeps wm s0 (State.output s g) := by
  unfold State.output
  repeat' first
    | (with_reducible first | assumption | exact hw | exact hw.mono (by decide)) | intro _
    | fail_if_no_progress extract_lets +onlyGivenNames x | with_reducible apply Keeps.ite | dsimp -zeta only [x]
    | (fail_if_no_progress ((with_reducible apply Keeps.upd); on_goal 2 => exact fun p hp => by cases p <;> first | with_reducible exact rfl | exact hw.no rfl hp))

theorem State.modTb_keeps {wm : Nat} {s0 s : State} (f : TimeBase → TimeBase) (h : Keeps wm s0 s) (hw : Within 0x2 wm) :
    Keeps wm s0 (State.modTb s f) := by
  unfold State.modTb
  repeat' first
    | (with_reducible first | assumption | exact hw | exact hw.mono (by decide)) | intro _
    | fail_if_no_progress extract_lets +onlyGivenNames x | with_reducible apply Keeps.ite | dsimp -zeta only [x]
    | (fail_if_no_progress ((with_reducible apply Keeps.upd); on_goal 2 => exact fun p hp => by cases p <;> first | with_reducible exact rfl | exact hw.no rfl hp))

theorem State.modPh_keeps {wm : Nat} {s0 s : State} (p : Fin 48) (f : Phase → Phase) (h : Keeps wm s0 s) (hw : Within 0x100 wm) (hf : ∀ x : Phase, Lower (f x).pl x.pl) :
    Keeps wm s0 (State.modPh s p f) := by
  exact h.updPh _ (hw _ (by decide)) (fun q => by
    rw [upd_get]
    split
    · rename_i e
      subst e
      exact hf _
    · exact ⟨id, id⟩)

theorem State.modPh_get (s : State) (p q : Fin 48) (f : Phase → Phase) : (s.modPh p f).ph[q] = if q = p then f s.ph[p] else s.ph[q] :=
  upd_get s.ph p q f

theorem State.modPl_keeps {wm : Nat} {s0 s : State} (p : Fin 48) (f : Pulse → Pulse) (h : Keeps wm s0 s) (hw : Within 0x100 wm) (hf : ∀ x : Pulse, Lower (f x) x) :
    Keeps wm s0 (State.modPl s p f) := by
  exact State.modPh_keeps p _ h hw (fun x => hf x.pl)

theorem State.modPst_keeps {wm : Nat} {s0 s : State} (p : Fin 48) (f : PhaseStat → PhaseStat) (h : Keeps wm s0 s) (hw : Within 0x200 wm) :
    Keeps wm s0 (State.modPst s p f) := by
  unfold State.modPst
  repeat' first
    | (with_reducible first | assumption | exact hw | exact hw.mono (by decide)) | intro _
    | fail_if_no_progress extract_lets +onlyGivenNames x | with_reducible apply Keeps.ite | dsimp -zeta only [x]
    | (fail_if_no_progress ((with_reducible apply Keeps.upd); on_goal 2 => exact fun p hp => by cases p <;> first | with_reducible exact rfl | exact hw.no rfl hp))

theorem State.modDie_keeps {wm : Nat} {s0 s : State} (d : Fin 4) (f : Die → Die) (h : Keeps wm s0 s) (hw : Within 0x80 wm) (hf : ∀ x : Die, (f x).state = .safe → x.state = .safe) :
    Keeps wm s0 (State.modDie s d f) := by
  exact h.updDie _ (hw _ (by decide)) (fun q => by
    rw [upd_get]
    split
    · rename_i e
      subst e
      exact fun g => .inl (hf _ g)
    · exact .inl)

theorem State.modLp_keeps {wm : Nat} {s0 s : State} (d : Fin 4) (l : Fin 16) (f : DieLoop → DieLoop) (h : Keeps wm s0 s) (hw : Within 0x80 wm) :
    Keeps wm s0 (State.modLp s d l f) := by
  unfold State.modLp
  repeat' first
    | (with_reducible first | assumption | exact hw | exact hw.mono (by decide)) | exact fun _ h => h | exact fun _ h => armed_not_safe h
    | exact fun _ h => run_not_safe h | intro _ | fail_if_no_progress extract_lets +onlyGivenNames x
    | with_reducible apply State.modDie_keeps

theorem State.modVs_keeps {wm : Nat} {s0 s : State} (v : Fin 16) (f : VSense → VSense) (h : Keeps wm s0 s) (hw : Within 0x400 wm) :
    Keeps wm s0 (State.modVs s v f) := by
  unfold State.modVs
  repeat' first
    | (with_reducible first | assumption | exact hw | exact hw.mono (by decide)) | intro _
    | fail_if_no_progress extract_lets +onlyGivenNames x | with_reducible apply Keeps.ite | dsimp -zeta only [x]
    | (fail_if_no_progress ((with_reducible apply Keeps.upd); on_goal 2 => exact fun p hp => by cases p <;> first | with_reducible exact rfl | exact hw.no rfl hp))

theorem State.modLoop_keeps {wm : Nat} {s0 s : State} (l : Fin 16) (f : Loop → Loop) (h : Keeps wm s0 s) (hw : Within 0x800 wm) :
    Keeps wm s0 (State.modLoop s l f) := by
  unfold State.modLoop
  repeat' first
    | (with_reducible first | assumption | exact hw | exact hw.mono (by decide)) | intro _
    | fail_if_no_progress extract_lets +onlyGivenNames x | with_reducible apply Keeps.ite | dsimp -zeta only [x]
    | (fail_if_no_progress ((with_reducible apply Keeps.upd); on_goal 2 => exact fun p hp => by cases p <;> first | with_reducible exact rfl | exact hw.no rfl hp))

theorem State.modCt_keeps {wm : Nat} {s0 s : State} (l : Fin 16) (f : LoopCtl → LoopCtl) (h : Keeps wm s0 s) (hw : Within 0x800 wm) :
    Keeps wm s0 (State.modCt s l f) := by
  unfold State.modCt
  repeat' first
    | (with_reducible first | assumption | exact hw | exact hw.mono (by decide)) | intro _
    | fail_if_no_progress extract_lets +onlyGivenNames x | with_reducible apply State.modLoop_keeps

theorem State.modTm_keeps {wm : Nat} {s0 s : State} (l : Fin 16) (f : LoopTime → LoopTime) (h : Keeps wm s0 s) (hw : Within 0x800 wm) :
    Keeps wm s0 (State.modTm s l f) := by
  unfold State.modTm
  repeat' first
    | (with_reducible first | assumption | exact hw | exact hw.mono (by decide)) | intro _
    | fail_if_no_progress extract_lets +onlyGivenNames x | with_reducible apply State.modLoop_keeps

theorem State.modFl_keeps {wm : Nat} {s0 s : State} (l : Fin 16) (f : LoopFlags → LoopFlags) (h : Keeps wm s0 s) (hw : Within 0x800 wm) :
    Keeps wm s0 (State.modFl s l f) := by
  unfold State.modFl
  repeat' first
    | (with_reducible first | assumption | exact hw | exact hw.mono (by decide)) | intro _
    | fail_if_no_progress extract_lets +onlyGivenNames x | with_reducible apply State.modLoop_keeps

theorem State.modOc_keeps {wm : Nat} {s0 s : State} (l : Fin 16) (f : OcSup → OcSup) (h : Keeps wm s0 s) (hw : Within 0x800 wm) :
    Keeps wm s0 (State.modOc s l f) := by
  unfold State.modOc
  repeat' first
    | (with_reducible first | assumption | exact hw | exact hw.mono (by decide)) | intro _
    | fail_if_no_progress extract_lets +onlyGivenNames x | with_reducible apply State.modLoop_keeps

theorem State.modEb_keeps {wm : Nat} {s0 s : State} (l : Fin 16) (f : EbbPg → EbbPg) (h : Keeps wm s0 s) (hw : Within 0x800 wm) :
    Keeps wm s0 (State.modEb s l f) := by
  unfold State.modEb
  repeat' first
    | (with_reducible first | assumption | exact hw | exact hw.mono (by decide)) | intro _
    | fail_if_no_progress extract_lets +onlyGivenNames x | with_reducible apply State.modLoop_keeps

theorem State.sluiceUse_keeps {wm : Nat} {s0 s : State} (a : Fin 6) (n : Nat) (h : Keeps wm s0 s) (hw : Within 0x4 wm) :
    Keeps wm s0 (State.sluiceUse s a n) := by
  unfold State.sluiceUse
  repeat' first
    | (with_reducible first | assumption | exact hw | exact hw.mono (by decide)) | intro _
    | ((fail_if_no_progress extract_lets +onlyGivenNames x); clear_value x) | fail_if_no_progress extract_lets +onlyGivenNames x
    | with_reducible apply Keeps.ite | dsimp -zeta only [x]
    | (fail_if_no_progress ((with_reducible apply Keeps.upd); on_goal 2 => exact fun p hp => by cases p <;> first | with_reducible exact rfl | exact hw.no rfl hp))

theorem State.sluiceWork_keeps {wm : Nat} {s0 s : State} (a : Fin 6) (h : Keeps wm s0 s) (hw : Within 0x24 wm) :
    Keeps wm s0 (State.sluiceWork s a) := by
  unfold State.sluiceWork
  repeat' first
    | (with_reducible first | assumption | exact hw | exact hw.mono (by decide)) | intro _
    | ((fail_if_no_progress extract_lets +onlyGivenNames x); clear_value x) | fail_if_no_progress extract_lets +onlyGivenNames x
    | with_reducible apply Keeps.ite | dsimp -zeta only [x]
    | (fail_if_no_progress ((with_reducible apply Keeps.upd); on_goal 2 => exact fun p hp => by cases p <;> first | with_reducible exact rfl | exact hw.no rfl hp))

theorem State.sluiceStall_keeps {wm : Nat} {s0 s : State} (a : Fin 6) (h : Keeps wm s0 s) (hw : Within 0x4 wm) :
    Keeps wm s0 (State.sluiceStall s a) := by
  unfold State.sluiceStall
  repeat' first
    | (with_reducible first | assumption | exact hw | exact hw.mono (by decide)) | intro _
    | ((fail_if_no_progress extract_lets +onlyGivenNames x); clear_value x) | fail_if_no_progress extract_lets +onlyGivenNames x
    | with_reducible apply Keeps.ite | dsimp -zeta only [x]
    | (fail_if_no_progress ((with_reducible apply Keeps.upd); on_goal 2 => exact fun p hp => by cases p <;> first | with_reducible exact rfl | exact hw.no rfl hp))

theorem State.modSilt_keeps {wm : Nat} {s0 s : State} (f : Silt → Silt) (h : Keeps wm s0 s) (hw : Within 0x800000 wm) :
    Keeps wm s0 (State.modSilt s f) := by
  unfold State.modSilt
  repeat' first
    | (with_reducible first | assumption | exact hw | exact hw.mono (by decide)) | intro _
    | fail_if_no_progress extract_lets +onlyGivenNames x | with_reducible apply Keeps.ite | dsimp -zeta only [x]
    | (fail_if_no_progress ((with_reducible apply Keeps.upd); on_goal 2 => exact fun p hp => by cases p <;> first | with_reducible exact rfl | exact hw.no rfl hp))

theorem State.ledgerNeed_keeps {wm : Nat} {s0 s : State} (h : Keeps wm s0 s) (hw : Within 0x800000 wm) :
    Keeps wm s0 (State.ledgerNeed s) := by
  unfold State.ledgerNeed
  repeat' first
    | (with_reducible first | assumption | exact hw | exact hw.mono (by decide)) | intro _
    | fail_if_no_progress extract_lets +onlyGivenNames x | with_reducible apply State.modSilt_keeps

theorem State.lagTake_keeps {wm : Nat} {s0 s : State} (f : Nat → Bool) (h : Keeps wm s0 s) (hw : Within 0x400000000 wm) :
    Keeps wm s0 (State.lagTake s f) := by
  unfold State.lagTake
  repeat' first
    | (with_reducible first | assumption | exact hw | exact hw.mono (by decide)) | intro _
    | fail_if_no_progress extract_lets +onlyGivenNames x | with_reducible apply Keeps.ite | dsimp -zeta only [x]
    | (fail_if_no_progress ((with_reducible apply Keeps.upd); on_goal 2 => exact fun p hp => by cases p <;> first | with_reducible exact rfl | exact hw.no rfl hp))

theorem State.lagAdd_keeps {wm : Nat} {s0 s : State} (ks : List Nat) (h : Keeps wm s0 s) (hw : Within 0x400000000 wm) :
    Keeps wm s0 (State.lagAdd s ks) := by
  unfold State.lagAdd
  repeat' first
    | (with_reducible first | assumption | exact hw | exact hw.mono (by decide)) | intro _
    | fail_if_no_progress extract_lets +onlyGivenNames x
    | (with_reducible first | apply Keeps.ite | apply Keeps.foldl | apply Keeps.foldlSnd | apply Keeps.foldlFst) | dsimp -zeta only [x]
    | split | dsimp -zeta only
    | (fail_if_no_progress ((with_reducible apply Keeps.upd); on_goal 2 => exact fun p hp => by cases p <;> first | with_reducible exact rfl | exact hw.no rfl hp))

theorem State.ocModeStep_keeps {wm : Nat} {s0 s : State} (l : Fin 16) (h : Keeps wm s0 s) (hw : Within 0x800 wm) :
    Keeps wm s0 (State.ocModeStep s l) := by
  unfold State.ocModeStep
  repeat' first
    | (with_reducible first | assumption | exact hw | exact hw.mono (by decide)) | intro _
    | ((fail_if_no_progress extract_lets +onlyGivenNames x); clear_value x) | fail_if_no_progress extract_lets +onlyGivenNames x
    | (with_reducible first | apply State.modOc_keeps | apply Keeps.ite)

theorem Phase.modSl_pl (x : Phase) (d : Dir) (f : Slopes → Slopes) : (x.modSl d f).pl = x.pl := by cases d <;> rfl

theorem State.closeSlopes_keeps {wm : Nat} {s0 s : State} (p : Fin 48) (per : Nat) (h : Keeps wm s0 s) (hw : Within 0x400000140 wm) :
    Keeps wm s0 (State.closeSlopes s p per) := by
  unfold State.closeSlopes
  repeat' first
    | (with_reducible first | assumption | exact hw | exact hw.mono (by decide)) | exact (⟨fun a => a, fun a => a⟩ : Lower _ _)
    | with_reducible exact fun _ => ⟨fun a => a, fun a => a⟩ | exact fun _ => ⟨fun a => a, fun a => a⟩
    | exact fun _ => ⟨fun h => absurd h Bool.false_ne_true, fun h => absurd h Bool.false_ne_true⟩
    | (exact fun y => by simp only [Phase.modSl_pl, apply_ite Phase.pl, ite_self]; exact ⟨fun a => a, fun a => a⟩) | intro _
    | ((fail_if_no_progress extract_lets +onlyGivenNames x); refine Keeps.cut (w := wm) (s := s0) (v := x) ?_ ?_)
    | ((fail_if_no_progress extract_lets +onlyGivenNames x); clear_value x) | fail_if_no_progress extract_lets +onlyGivenNames x
    | (with_reducible first | apply State.lagTake_keeps | apply State.log_keeps | apply State.modPh_keeps | apply Keeps.ite)

theorem Pulse.driven_apart (x : Pulse) (high go : Bool) (_h : ¬ (x.pwmh = true ∧ x.pwml = true)) :
    ¬ ((x.driven high go).pwmh = true ∧ (x.driven high go).pwml = true) := by
  cases high <;> cases go <;> simp_all [Pulse.driven]

theorem Pulse.driven_off (x : Pulse) (high : Bool) (h : x.pwmh = false ∧ x.pwml = false) :
    (x.driven high false).pwmh = false ∧ (x.driven high false).pwml = false := by
  cases high <;> simp_all [Pulse.driven]

theorem State.driveOut_keeps {wm : Nat} {s0 s : State} (p : Fin 48) (high : Bool) (on : Bool) (h : Keeps wm s0 s) (hw : Within 0x100 wm) :
    Keeps wm s0 (State.driveOut s p high on) := by
  refine ⟨h.queue, h.tick, h.store, h.rollback, fun hd => ?_, fun q hq => sameTrans (h.frame q hq) ?_⟩
  · have hx := h.drive hd
    have hp : (s.driveOut p high on).ph = upd s.ph p (fun x => { x with pl := x.pl.driven high (on && s.die[dieOf p].state != .safe) }) := rfl
    refine ⟨fun q => ?_, fun q hq => ?_⟩
    · rw [hp, upd_get]
      split
      · exact Pulse.driven_apart _ _ _ (hx.1 p)
      · exact hx.1 q
    · have h1 : s.die[dieOf q].state = .safe := hq
      have h2 := hx.2 q h1
      rw [hp, upd_get]
      split
      · rename_i e
        subst e
        have h3 : (on && s.die[dieOf q].state != .safe) = false := by rw [h1]; simp
        simp only [h3]
        exact Pulse.driven_off _ _ h2
      · exact h2
  · cases q <;> first | exact hw.no rfl hq | exact rfl

theorem State.setCtl_keeps {wm : Nat} {s0 s : State} (p : Fin 48) (d : Dir) (on : Bool) (h : Keeps wm s0 s) (hw : Within 0x100 wm) :
    Keeps wm s0 (State.setCtl s p d on) := by
  unfold State.setCtl
  repeat' first
    | (with_reducible first | assumption | exact hw | exact hw.mono (by decide)) | intro _
    | fail_if_no_progress extract_lets +onlyGivenNames x | with_reducible apply State.driveOut_keeps

theorem State.setSync_keeps {wm : Nat} {s0 s : State} (p : Fin 48) (d : Dir) (on : Bool) (h : Keeps wm s0 s) (hw : Within 0x100 wm) :
    Keeps wm s0 (State.setSync s p d on) := by
  unfold State.setSync
  repeat' first
    | (with_reducible first | assumption | exact hw | exact hw.mono (by decide)) | intro _
    | fail_if_no_progress extract_lets +onlyGivenNames x | with_reducible apply State.driveOut_keeps

theorem State.outputsLow_keeps {wm : Nat} {s0 s : State} (p : Fin 48) (h : Keeps wm s0 s) (hw : Within 0x100 wm) :
    Keeps wm s0 (State.outputsLow s p) := by
  unfold State.outputsLow
  repeat' first
    | (with_reducible first | assumption | exact hw | exact hw.mono (by decide)) | exact (⟨fun a => a, fun a => a⟩ : Lower _ _)
    | with_reducible exact fun _ => ⟨fun a => a, fun a => a⟩ | exact fun _ => ⟨fun a => a, fun a => a⟩
    | exact fun _ => ⟨fun h => absurd h Bool.false_ne_true, fun h => absurd h Bool.false_ne_true⟩ | intro _
    | fail_if_no_progress extract_lets +onlyGivenNames x | with_reducible apply State.modPl_keeps

theorem State.holdSeen_keeps {wm : Nat} {s0 s : State} (p : Fin 48) (d : Dir) (h : Keeps wm s0 s) (hw : Within 0x800 wm) :
    Keeps wm s0 (State.holdSeen s p d) := by
  unfold State.holdSeen
  repeat' first
    | (with_reducible first | assumption | exact hw | exact hw.mono (by decide)) | intro _
    | fail_if_no_progress extract_lets +onlyGivenNames x | (with_reducible first | apply State.modLoop_keeps | apply Keeps.ite)
    | dsimp -zeta only [x] | split

theorem State.formRef_keeps {wm : Nat} {s0 s : State} (p : Fin 48) (h : Keeps wm s0 s) (hw : Within 0x900 wm) :
    Keeps wm s0 (State.formRef s p) := by
  unfold State.formRef
  repeat' first
    | (with_reducible first | assumption | exact hw | exact hw.mono (by decide)) | exact (⟨fun a => a, fun a => a⟩ : Lower _ _)
    | with_reducible exact fun _ => ⟨fun a => a, fun a => a⟩ | exact fun _ => ⟨fun a => a, fun a => a⟩
    | exact fun _ => ⟨fun h => absurd h Bool.false_ne_true, fun h => absurd h Bool.false_ne_true⟩ | intro _
    | ((fail_if_no_progress extract_lets +onlyGivenNames x); refine Keeps.cut (w := wm) (s := s0) (v := x) ?_ ?_)
    | ((fail_if_no_progress extract_lets +onlyGivenNames x); clear_value x) | fail_if_no_progress extract_lets +onlyGivenNames x
    | (with_reducible first | apply State.holdSeen_keeps | apply State.modPh_keeps | apply Keeps.ite)

theorem State.formIph_keeps {wm : Nat} {s0 s : State} (p : Fin 48) (icmd : Int) (n : Nat) (h : Keeps wm s0 s) (hw : Within 0x900 wm) :
    Keeps wm s0 (State.formIph s p icmd n) := by
  unfold State.formIph
  repeat' first
    | (with_reducible first | assumption | exact hw | exact hw.mono (by decide)) | exact (⟨fun a => a, fun a => a⟩ : Lower _ _)
    | with_reducible exact fun _ => ⟨fun a => a, fun a => a⟩ | exact fun _ => ⟨fun a => a, fun a => a⟩
    | exact fun _ => ⟨fun h => absurd h Bool.false_ne_true, fun h => absurd h Bool.false_ne_true⟩ | intro _
    | fail_if_no_progress extract_lets +onlyGivenNames x | (with_reducible first | apply State.formRef_keeps | apply State.modPh_keeps)

theorem State.startPulse_keeps {wm : Nat} {s0 s : State} (p : Fin 48) (d : Dir) (forced : Bool) (number : Nat) (h : Keeps wm s0 s) (hw : Within 0x940 wm) :
    Keeps wm s0 (State.startPulse s p d forced number) := by
  unfold State.startPulse
  repeat' first
    | (with_reducible first | assumption | exact hw | exact hw.mono (by decide)) | exact (⟨fun a => a, fun a => a⟩ : Lower _ _)
    | with_reducible exact fun _ => ⟨fun a => a, fun a => a⟩ | exact fun _ => ⟨fun a => a, fun a => a⟩
    | exact fun _ => ⟨fun h => absurd h Bool.false_ne_true, fun h => absurd h Bool.false_ne_true⟩ | intro _
    | ((fail_if_no_progress extract_lets +onlyGivenNames x); refine Keeps.cut (w := wm) (s := s0) (v := x) ?_ ?_)
    | ((fail_if_no_progress extract_lets +onlyGivenNames x); clear_value x) | fail_if_no_progress extract_lets +onlyGivenNames x
    | (with_reducible first | apply State.formRef_keeps | apply State.holdSeen_keeps | apply State.log_keeps)
    | (with_reducible first | apply State.modPh_keeps | apply State.setCtl_keeps | apply State.setSync_keeps | apply Keeps.ite)

theorem State.settleReport_keeps {wm : Nat} {s0 s : State} (p : Fin 48) (number : Nat) (byLimit : Bool) (h : Keeps wm s0 s) (hw : Within 0x800 wm) :
    Keeps wm s0 (State.settleReport s p number byLimit) := by
  unfold State.settleReport
  repeat' first
    | (with_reducible first | assumption | exact hw | exact hw.mono (by decide)) | intro _
    | ((fail_if_no_progress extract_lets +onlyGivenNames x); clear_value x) | fail_if_no_progress extract_lets +onlyGivenNames x
    | (with_reducible first | apply State.modOc_keeps | apply Keeps.ite) | dsimp -zeta only [x] | split

theorem State.endPulse_keeps {wm : Nat} {s0 s : State} (p : Fin 48) (t : Nat) (byLimit : Bool) (h : Keeps wm s0 s) (hw : Within 0x900 wm) :
    Keeps wm s0 (State.endPulse s p t byLimit) := by
  unfold State.endPulse
  repeat' first
    | (with_reducible first | assumption | exact hw | exact hw.mono (by decide)) | exact (⟨fun a => a, fun a => a⟩ : Lower _ _)
    | with_reducible exact fun _ => ⟨fun a => a, fun a => a⟩ | exact fun _ => ⟨fun a => a, fun a => a⟩
    | exact fun _ => ⟨fun h => absurd h Bool.false_ne_true, fun h => absurd h Bool.false_ne_true⟩ | intro _
    | ((fail_if_no_progress extract_lets +onlyGivenNames x); refine Keeps.cut (w := wm) (s := s0) (v := x) ?_ ?_)
    | ((fail_if_no_progress extract_lets +onlyGivenNames x); clear_value x) | fail_if_no_progress extract_lets +onlyGivenNames x
    | (with_reducible first | apply State.modPh_keeps | apply State.setCtl_keeps | apply State.settleReport_keeps)
    | with_reducible apply Keeps.ite | dsimp -zeta only [x] | split

theorem State.forcePulse_keeps {wm : Nat} {s0 s : State} (p : Fin 48) (h : Keeps wm s0 s) (hw : Within 0x940 wm) :
    Keeps wm s0 (State.forcePulse s p) := by
  unfold State.forcePulse
  repeat' first
    | (with_reducible first | assumption | exact hw | exact hw.mono (by decide)) | exact (⟨fun a => a, fun a => a⟩ : Lower _ _)
    | with_reducible exact fun _ => ⟨fun a => a, fun a => a⟩ | exact fun _ => ⟨fun a => a, fun a => a⟩
    | exact fun _ => ⟨fun h => absurd h Bool.false_ne_true, fun h => absurd h Bool.false_ne_true⟩ | intro _
    | ((fail_if_no_progress extract_lets +onlyGivenNames x); refine Keeps.cut (w := wm) (s := s0) (v := x) ?_ ?_)
    | fail_if_no_progress extract_lets +onlyGivenNames x
    | (with_reducible first | apply State.endPulse_keeps | apply State.holdSeen_keeps | apply State.modPl_keeps)
    | (with_reducible first | apply State.startPulse_keeps | apply Keeps.ite)

theorem State.limSet_keeps {wm : Nat} {s0 s : State} (p : Fin 48) (l : Fin 16) (h : Keeps wm s0 s) (hw : Within 0x100 wm) :
    Keeps wm s0 (State.limSet s p l) := by
  unfold State.limSet
  repeat' first
    | (with_reducible first | assumption | exact hw | exact hw.mono (by decide)) | exact (⟨fun a => a, fun a => a⟩ : Lower _ _)
    | with_reducible exact fun _ => ⟨fun a => a, fun a => a⟩ | exact fun _ => ⟨fun a => a, fun a => a⟩
    | exact fun _ => ⟨fun h => absurd h Bool.false_ne_true, fun h => absurd h Bool.false_ne_true⟩ | intro _
    | fail_if_no_progress extract_lets +onlyGivenNames x | with_reducible apply State.modPh_keeps

theorem State.slotOpen_keeps {wm : Nat} {s0 s : State} (p : Fin 48) (l : Fin 16) (h : Keeps wm s0 s) (hw : Within 0x400000140 wm) :
    Keeps wm s0 (State.slotOpen s p l) := by
  unfold State.slotOpen
  repeat' first
    | (with_reducible first | assumption | exact hw | exact hw.mono (by decide)) | intro _
    | fail_if_no_progress extract_lets +onlyGivenNames x
    | (with_reducible first | apply State.closeSlopes_keeps | apply State.lagTake_keeps | apply State.limSet_keeps)

theorem State.zeroStart_keeps {wm : Nat} {s0 s : State} (p : Fin 48) (h : Keeps wm s0 s) (hw : Within 0x100 wm) :
    Keeps wm s0 (State.zeroStart s p) := by
  unfold State.zeroStart
  repeat' first
    | (with_reducible first | assumption | exact hw | exact hw.mono (by decide)) | exact (⟨fun a => a, fun a => a⟩ : Lower _ _)
    | with_reducible exact fun _ => ⟨fun a => a, fun a => a⟩ | exact fun _ => ⟨fun a => a, fun a => a⟩
    | exact fun _ => ⟨fun h => absurd h Bool.false_ne_true, fun h => absurd h Bool.false_ne_true⟩ | intro _
    | fail_if_no_progress extract_lets +onlyGivenNames x
    | (with_reducible first | apply State.modPl_keeps | apply State.setSync_keeps | apply Keeps.ite)

theorem State.slotStartOf_keeps {wm : Nat} {s0 s : State} (p : Fin 48) (h : Keeps wm s0 s) (hw : Within 0x400000940 wm) :
    Keeps wm s0 (State.slotStartOf s p) := by
  unfold State.slotStartOf
  repeat' first
    | (with_reducible first | assumption | exact hw | exact hw.mono (by decide)) | exact (⟨fun a => a, fun a => a⟩ : Lower _ _)
    | with_reducible exact fun _ => ⟨fun a => a, fun a => a⟩ | exact fun _ => ⟨fun a => a, fun a => a⟩
    | exact fun _ => ⟨fun h => absurd h Bool.false_ne_true, fun h => absurd h Bool.false_ne_true⟩ | intro _
    | ((fail_if_no_progress extract_lets +onlyGivenNames x); refine Keeps.cut (w := wm) (s := s0) (v := x) ?_ ?_)
    | ((fail_if_no_progress extract_lets +onlyGivenNames x); clear_value x) | fail_if_no_progress extract_lets +onlyGivenNames x
    | (with_reducible first | apply State.modPl_keeps | apply State.slotOpen_keeps | apply State.startPulse_keeps)
    | (with_reducible first | apply State.zeroStart_keeps | apply Keeps.ite) | dsimp -zeta only [x] | split

theorem State.dieLag_keeps {wm : Nat} {s0 s : State} (d : Fin 4) (h : Keeps wm s0 s) (hw : Within 0x400000000 wm) :
    Keeps wm s0 (State.dieLag s d) := by
  unfold State.dieLag
  repeat' first
    | (with_reducible first | assumption | exact hw | exact hw.mono (by decide)) | intro _
    | fail_if_no_progress extract_lets +onlyGivenNames x | with_reducible apply State.lagTake_keeps

theorem State.dieClear_keeps {wm : Nat} {s0 s : State} (d : Fin 4) (h : Keeps wm s0 s) (hw : Within 0x400000180 wm) :
    Keeps wm s0 (State.dieClear s d) := by
  unfold State.dieClear
  repeat' first
    | (with_reducible first | assumption | exact hw | exact hw.mono (by decide)) | exact (⟨fun a => a, fun a => a⟩ : Lower _ _)
    | with_reducible exact fun _ => ⟨fun a => a, fun a => a⟩ | exact fun _ => ⟨fun a => a, fun a => a⟩
    | exact fun _ => ⟨fun h => absurd h Bool.false_ne_true, fun h => absurd h Bool.false_ne_true⟩ | exact fun _ h => h
    | exact fun _ h => armed_not_safe h | exact fun _ h => run_not_safe h | intro _
    | ((fail_if_no_progress extract_lets +onlyGivenNames x); refine Keeps.cut (w := wm) (s := s0) (v := x) ?_ ?_)
    | fail_if_no_progress extract_lets +onlyGivenNames x
    | (with_reducible first | apply State.dieLag_keeps | apply State.modDie_keeps | apply State.modPh_keeps)
    | (with_reducible first | apply State.outputsLow_keeps | apply Keeps.ite | apply Keeps.foldl)

theorem State.dieForget_keeps {wm : Nat} {s0 s : State} (d : Fin 4) (h : Keeps wm s0 s) (hw : Within 0x100 wm) :
    Keeps wm s0 (State.dieForget s d) := by
  unfold State.dieForget
  repeat' first
    | (with_reducible first | assumption | exact hw | exact hw.mono (by decide)) | exact (⟨fun a => a, fun a => a⟩ : Lower _ _)
    | with_reducible exact fun _ => ⟨fun a => a, fun a => a⟩ | exact fun _ => ⟨fun a => a, fun a => a⟩
    | exact fun _ => ⟨fun h => absurd h Bool.false_ne_true, fun h => absurd h Bool.false_ne_true⟩ | intro _
    | fail_if_no_progress extract_lets +onlyGivenNames x
    | (with_reducible first | apply State.modPh_keeps | apply Keeps.ite | apply Keeps.foldl)

theorem State.dieClear_low (s : State) (d : Fin 4) (p : Fin 48) (hp : dieOf p = d) :
    (s.dieClear d).ph[p].pl.pwmh = false ∧ (s.dieClear d).ph[p].pl.pwml = false := by
  have key : ∀ (l : List (Fin 48)) (u : State), (p ∈ l ∨ (u.ph[p].pl.pwmh = false ∧ u.ph[p].pl.pwml = false)) →
      (l.foldl (fun s p => (s.outputsLow p).modPh p (fun x => { x with
        iPh := 0, corr := 0, refCode := 0, shed := .active, hot := false, shedPeriods := 0, calPending := none })) u).ph[p].pl.pwmh = false ∧
      (l.foldl (fun s p => (s.outputsLow p).modPh p (fun x => { x with
        iPh := 0, corr := 0, refCode := 0, shed := .active, hot := false, shedPeriods := 0, calPending := none })) u).ph[p].pl.pwml = false := by
    intro l
    induction l with
    | nil => exact fun u h => h.elim (fun h => absurd h List.not_mem_nil) id | cons q l ih =>
      intro u h
      refine ih _ ?_
      by_cases e : p = q
      · subst e
        exact .inr (by simp only [State.modPh_get, State.outputsLow, State.modPl, if_true]; exact ⟨trivial, trivial⟩)
      · refine h.imp (fun h => (List.mem_cons.1 h).resolve_left e) (fun h => ?_)
        simpa only [State.modPh_get, State.outputsLow, State.modPl, e, if_false] using h
  exact key _ s (.inl (by simp [phasesOfDie, fins, hp]))

theorem State.toSafe_keeps {wm : Nat} {s0 s : State} (d : Fin 4) (f : Die → Die) (h : Keeps wm s0 s) (hw : Within 0x80 wm)
    (hl : ∀ p, dieOf p = d → s.ph[p].pl.pwmh = false ∧ s.ph[p].pl.pwml = false) : Keeps wm s0 (s.modDie d f) :=
  h.updDie _ (hw _ (by decide)) (fun q => by
    rw [upd_get]
    split
    · rename_i e
      exact fun _ => .inr (hl q e)
    · exact .inl)

theorem State.enterSafe_keeps {wm : Nat} {s0 s : State} (d : Fin 4) (cause : Nat) (h : Keeps wm s0 s) (hw : Within 0x4000001c0 wm) :
    Keeps wm s0 (State.enterSafe s d cause) := by
  unfold State.enterSafe
  refine Keeps.ite h (State.log_keeps _ _ _ (State.toSafe_keeps d _ (State.dieClear_keeps d h (hw.mono (by decide))) (hw.mono (by decide))
    (State.dieClear_low s d)) (hw.mono (by decide)))

theorem State.dieForget_low {s : State} {d : Fin 4} (h : ∀ p, dieOf p = d → s.ph[p].pl.pwmh = false ∧ s.ph[p].pl.pwml = false) (p : Fin 48)
    (hp : dieOf p = d) : (s.dieForget d).ph[p].pl.pwmh = false ∧ (s.dieForget d).ph[p].pl.pwml = false := by
  have key : ∀ (l : List (Fin 48)) (u : State), (u.ph[p].pl.pwmh = false ∧ u.ph[p].pl.pwml = false) →
      (l.foldl (fun s p => s.modPh p (fun x => { x with slF := Slopes.reset, slR := Slopes.reset })) u).ph[p].pl.pwmh = false ∧
      (l.foldl (fun s p => s.modPh p (fun x => { x with slF := Slopes.reset, slR := Slopes.reset })) u).ph[p].pl.pwml = false := by
    intro l
    induction l with
    | nil => exact fun u h => h | cons q l ih =>
      intro u h
      refine ih _ ?_
      by_cases e : p = q
      · subst e
        simpa only [State.modPh_get, if_true] using h
      · simpa only [State.modPh_get, e, if_false] using h
  exact key _ s (h p hp)

theorem State.dieDown_keeps {wm : Nat} {s0 s : State} (d : Fin 4) (h : Keeps wm s0 s) (hw : Within 0x400000180 wm) :
    Keeps wm s0 (State.dieDown s d) := by
  exact State.toSafe_keeps d _ (State.dieForget_keeps d (State.dieClear_keeps d h (hw.mono (by decide))) (hw.mono (by decide)))
    (hw.mono (by decide)) (State.dieForget_low (State.dieClear_low s d))

theorem State.dieSettle_keeps {wm : Nat} {s0 s : State} (d : Fin 4) (h : Keeps wm s0 s) (hw : Within 0x400000080 wm) :
    Keeps wm s0 (State.dieSettle s d) := by
  unfold State.dieSettle
  repeat' first
    | (with_reducible first | assumption | exact hw | exact hw.mono (by decide)) | exact fun _ h => h | exact fun _ h => armed_not_safe h
    | exact fun _ h => run_not_safe h | intro _ | fail_if_no_progress extract_lets +onlyGivenNames x
    | (with_reducible first | apply State.dieLag_keeps | apply State.modDie_keeps | apply Keeps.ite)

theorem State.stopAtOnce_keeps {wm : Nat} {s0 s : State} (d : Fin 4) (l : Fin 16) (h : Keeps wm s0 s) (hw : Within 0x400000180 wm) :
    Keeps wm s0 (State.stopAtOnce s d l) := by
  unfold State.stopAtOnce
  repeat' first
    | (with_reducible first | assumption | exact hw | exact hw.mono (by decide)) | intro _
    | fail_if_no_progress extract_lets +onlyGivenNames x
    | (with_reducible first | apply State.dieSettle_keeps | apply State.modLp_keeps | apply State.outputsLow_keeps)
    | (with_reducible first | apply Keeps.ite | apply Keeps.foldl)

theorem State.frameIn_keeps {wm : Nat} {s0 s : State} (d : Fin 4) (l : Fin 16) (f : CmdFrame) (h : Keeps wm s0 s) (hw : Within 0x400000980 wm) :
    Keeps wm s0 (State.frameIn s d l f) := by
  unfold State.frameIn
  repeat' first
    | (with_reducible first | assumption | exact hw | exact hw.mono (by decide)) | exact (⟨fun a => a, fun a => a⟩ : Lower _ _)
    | with_reducible exact fun _ => ⟨fun a => a, fun a => a⟩ | exact fun _ => ⟨fun a => a, fun a => a⟩
    | exact fun _ => ⟨fun h => absurd h Bool.false_ne_true, fun h => absurd h Bool.false_ne_true⟩ | exact fun _ h => h
    | exact fun _ h => armed_not_safe h | exact fun _ h => run_not_safe h | intro _
    | ((fail_if_no_progress extract_lets +onlyGivenNames x); refine Keeps.cut (w := wm) (s := s0) (v := x) ?_ ?_)
    | fail_if_no_progress extract_lets +onlyGivenNames x
    | (with_reducible first | apply State.formIph_keeps | apply State.limSet_keeps | apply State.modDie_keeps)
    | (with_reducible first | apply State.modLp_keeps | apply State.modPh_keeps | apply State.outputsLow_keeps)
    | (with_reducible first | apply State.stopAtOnce_keeps | apply Keeps.ite | apply Keeps.foldl)

theorem State.dieReceive_keeps {wm : Nat} {s0 s : State} (d : Fin 4) (f : CmdFrame) (parityOk : Bool) (h : Keeps wm s0 s) (hw : Within 0x4000009c0 wm) :
    Keeps wm s0 (State.dieReceive s d f parityOk) := by
  unfold State.dieReceive
  repeat' first
    | (with_reducible first | assumption | exact hw | exact hw.mono (by decide)) | exact fun _ h => h | exact fun _ h => armed_not_safe h
    | exact fun _ h => run_not_safe h | intro _
    | ((fail_if_no_progress extract_lets +onlyGivenNames x); refine Keeps.cut (w := wm) (s := s0) (v := x) ?_ ?_)
    | fail_if_no_progress extract_lets +onlyGivenNames x
    | (with_reducible first | apply State.enterSafe_keeps | apply State.frameIn_keeps | apply State.log_keeps)
    | (with_reducible first | apply State.modDie_keeps | apply Keeps.ite) | dsimp -zeta only [x] | split

theorem State.preStale_keeps {wm : Nat} {s0 s : State} (l : Fin 16) (h : Keeps wm s0 s) (hw : Within 0x8040 wm) :
    Keeps wm s0 (State.preStale s l) := by
  unfold State.preStale
  repeat' first
    | (with_reducible first | assumption | exact hw | exact hw.mono (by decide)) | intro _
    | ((fail_if_no_progress extract_lets +onlyGivenNames x); clear_value x) | fail_if_no_progress extract_lets +onlyGivenNames x
    | (with_reducible first | apply State.log_keeps | apply Keeps.ite) | dsimp -zeta only [x]
    | (fail_if_no_progress ((with_reducible apply Keeps.upd); on_goal 2 => exact fun p hp => by cases p <;> first | with_reducible exact rfl | exact hw.no rfl hp))

theorem State.sendFrame_keeps {wm : Nat} {s0 s : State} (l : Fin 16) (g : CmdFrame → CmdFrame) (h : Keeps wm s0 s) (hw : Within 0x800000880 wm) :
    Keeps wm s0 (State.sendFrame s l g) := by
  unfold State.sendFrame
  repeat' first
    | (with_reducible first | assumption | exact hw | exact hw.mono (by decide)) | exact fun _ h => h | exact fun _ h => armed_not_safe h
    | exact fun _ h => run_not_safe h | intro _
    | ((fail_if_no_progress extract_lets +onlyGivenNames x); refine Keeps.cut (w := wm) (s := s0) (v := x) ?_ ?_)
    | ((fail_if_no_progress extract_lets +onlyGivenNames x); clear_value x) | fail_if_no_progress extract_lets +onlyGivenNames x
    | (with_reducible first | apply State.modDie_keeps | apply State.modLoop_keeps | apply State.output_keeps)
    | (with_reducible first | apply Keeps.ite | apply Keeps.foldl)

theorem State.faultPinStep_keeps {wm : Nat} {s0 s : State} (m : Fin 4) (h : Keeps wm s0 s) (hw : Within 0x1040 wm) :
    Keeps wm s0 (State.faultPinStep s m) := by
  unfold State.faultPinStep
  repeat' first
    | (with_reducible first | assumption | exact hw | exact hw.mono (by decide)) | intro _
    | ((fail_if_no_progress extract_lets +onlyGivenNames x); refine Keeps.cut (w := wm) (s := s0) (v := x) ?_ ?_)
    | ((fail_if_no_progress extract_lets +onlyGivenNames x); clear_value x) | fail_if_no_progress extract_lets +onlyGivenNames x
    | (with_reducible first | apply State.log_keeps | apply Keeps.ite) | dsimp -zeta only [x]
    | (fail_if_no_progress ((with_reducible apply Keeps.upd); on_goal 2 => exact fun p hp => by cases p <;> first | with_reducible exact rfl | exact hw.no rfl hp))

theorem State.faultScan_keeps {wm : Nat} {s0 s : State} (h : Keeps wm s0 s) (hw : Within 0x1040 wm) :
    Keeps wm s0 (State.faultScan s) := by
  unfold State.faultScan
  repeat' first
    | (with_reducible first | assumption | exact hw | exact hw.mono (by decide)) | intro _
    | fail_if_no_progress extract_lets +onlyGivenNames x
    | (with_reducible first | apply State.faultPinStep_keeps | apply Keeps.ite | apply Keeps.foldl)

theorem State.pgDrop_keeps {wm : Nat} {s0 s : State} (l : Fin 16) (why : Nat) (h : Keeps wm s0 s) (hw : Within 0x840 wm) :
    Keeps wm s0 (State.pgDrop s l why) := by
  unfold State.pgDrop
  repeat' first
    | (with_reducible first | assumption | exact hw | exact hw.mono (by decide)) | intro _
    | ((fail_if_no_progress extract_lets +onlyGivenNames x); refine Keeps.cut (w := wm) (s := s0) (v := x) ?_ ?_)
    | ((fail_if_no_progress extract_lets +onlyGivenNames x); clear_value x) | fail_if_no_progress extract_lets +onlyGivenNames x
    | (with_reducible first | apply State.log_keeps | apply State.modEb_keeps | apply Keeps.ite)

theorem State.foldExit_keeps {wm : Nat} {s0 s : State} (l : Fin 16) (h : Keeps wm s0 s) (hw : Within 0x840 wm) :
    Keeps wm s0 (State.foldExit s l) := by
  unfold State.foldExit
  repeat' first
    | (with_reducible first | assumption | exact hw | exact hw.mono (by decide)) | intro _
    | ((fail_if_no_progress extract_lets +onlyGivenNames x); clear_value x) | fail_if_no_progress extract_lets +onlyGivenNames x
    | (with_reducible first | apply State.log_keeps | apply State.modOc_keeps | apply Keeps.ite)

theorem State.setRegion_keeps {wm : Nat} {s0 s : State} (l : Fin 16) (r : Nat) (v : Int) (h : Keeps wm s0 s) (hw : Within 0x840 wm) :
    Keeps wm s0 (State.setRegion s l r v) := by
  unfold State.setRegion
  repeat' first
    | (with_reducible first | assumption | exact hw | exact hw.mono (by decide)) | intro _
    | ((fail_if_no_progress extract_lets +onlyGivenNames x); clear_value x) | fail_if_no_progress extract_lets +onlyGivenNames x
    | (with_reducible first | apply State.log_keeps | apply State.modCt_keeps | apply Keeps.ite)

theorem State.lossEnter_keeps {wm : Nat} {s0 s : State} (l : Fin 16) (q : LossIn) (h : Keeps wm s0 s) (hw : Within 0x400001840 wm) :
    Keeps wm s0 (State.lossEnter s l q) := by
  unfold State.lossEnter
  repeat' first
    | (with_reducible first | assumption | exact hw | exact hw.mono (by decide)) | intro _
    | ((fail_if_no_progress extract_lets +onlyGivenNames x); have _ : _ → _ → State := x)
    | ((fail_if_no_progress extract_lets +onlyGivenNames x); clear_value x) | fail_if_no_progress extract_lets +onlyGivenNames x
    | (with_reducible first | apply State.faultScan_keeps | apply State.lagTake_keeps | apply State.logAt_keeps)
    | (with_reducible first | apply State.modCt_keeps | apply State.modLoop_keeps | apply Keeps.ite) | dsimp -zeta only [x] | split

theorem State.lossTake_keeps {wm : Nat} {s0 s : State} (l : Fin 16) (h : Keeps wm s0 s) (hw : Within 0x400001840 wm) :
    Keeps wm s0 (State.lossTake s l) := by
  unfold State.lossTake
  repeat' first
    | (with_reducible first | assumption | exact hw | exact hw.mono (by decide)) | intro _
    | fail_if_no_progress extract_lets +onlyGivenNames x | (with_reducible first | apply State.lossEnter_keeps | apply Keeps.ite)
    | dsimp -zeta only [x] | split

theorem State.leaveLive_keeps {wm : Nat} {s0 s : State} (l : Fin 16) (st : LoopState) (mode : StopMode) (h : Keeps wm s0 s) (hw : Within 0xc00001bc0 wm) :
    Keeps wm s0 (State.leaveLive s l st mode) := by
  unfold State.leaveLive
  repeat' first
    | (with_reducible first | assumption | exact hw | exact hw.mono (by decide)) | exact (⟨fun a => a, fun a => a⟩ : Lower _ _)
    | with_reducible exact fun _ => ⟨fun a => a, fun a => a⟩ | exact fun _ => ⟨fun a => a, fun a => a⟩
    | exact fun _ => ⟨fun h => absurd h Bool.false_ne_true, fun h => absurd h Bool.false_ne_true⟩ | intro _
    | ((fail_if_no_progress extract_lets +onlyGivenNames x); refine Keeps.cut (w := wm) (s := s0) (v := x) ?_ ?_)
    | ((fail_if_no_progress extract_lets +onlyGivenNames x); clear_value x) | fail_if_no_progress extract_lets +onlyGivenNames x
    | (with_reducible first | apply State.foldExit_keeps | apply State.log_keeps | apply State.lossTake_keeps)
    | (with_reducible first | apply State.modLoop_keeps | apply State.modPh_keeps | apply State.modPst_keeps)
    | (with_reducible first | apply State.pgDrop_keeps | apply State.sendFrame_keeps | apply State.setRegion_keeps)
    | (with_reducible first | apply Keeps.ite | apply Keeps.foldl)

theorem State.stopLoop_keeps {wm : Nat} {s0 s : State} (l : Fin 16) (cause : Nat) (mode : StopMode) (h : Keeps wm s0 s) (hw : Within 0xc00001bc0 wm) :
    Keeps wm s0 (State.stopLoop s l cause mode) := by
  unfold State.stopLoop
  repeat' first
    | (with_reducible first | assumption | exact hw | exact hw.mono (by decide)) | intro _
    | ((fail_if_no_progress extract_lets +onlyGivenNames x); refine Keeps.cut (w := wm) (s := s0) (v := x) ?_ ?_)
    | ((fail_if_no_progress extract_lets +onlyGivenNames x); clear_value x) | fail_if_no_progress extract_lets +onlyGivenNames x
    | (with_reducible first | apply State.faultScan_keeps | apply State.leaveLive_keeps | apply State.log_keeps)
    | with_reducible apply State.modLoop_keeps

theorem State.faultLoopAt_keeps {wm : Nat} {s0 s : State} (l : Fin 16) (cause : Nat) (mode : StopMode) (h : Keeps wm s0 s) (hw : Within 0xc01001bc0 wm) :
    Keeps wm s0 (State.faultLoopAt s l cause mode) := by
  unfold State.faultLoopAt
  repeat' first
    | (with_reducible first | assumption | exact hw | exact hw.mono (by decide)) | intro _
    | ((fail_if_no_progress extract_lets +onlyGivenNames x); refine Keeps.cut (w := wm) (s := s0) (v := x) ?_ ?_)
    | ((fail_if_no_progress extract_lets +onlyGivenNames x); clear_value x) | fail_if_no_progress extract_lets +onlyGivenNames x
    | (with_reducible first | apply State.faultScan_keeps | apply State.leaveLive_keeps | apply State.log_keeps)
    | (with_reducible first | apply State.modCt_keeps | apply State.spateReq_keeps)

theorem State.startLoop_keeps {wm : Nat} {s0 s : State} (l : Fin 16) (retries : Nat) (h : Keeps wm s0 s) (hw : Within 0xc000018c0 wm) :
    Keeps wm s0 (State.startLoop s l retries) := by
  unfold State.startLoop
  repeat' first
    | (with_reducible first | assumption | exact hw | exact hw.mono (by decide)) | intro _
    | ((fail_if_no_progress extract_lets +onlyGivenNames x); refine Keeps.cut (w := wm) (s := s0) (v := x) ?_ ?_)
    | fail_if_no_progress extract_lets +onlyGivenNames x
    | (with_reducible first | apply State.faultScan_keeps | apply State.lagTake_keeps | apply State.modLoop_keeps)
    | with_reducible apply State.sendFrame_keeps

theorem State.noAuto_keeps {wm : Nat} {s0 s : State} (l : Fin 16) (h : Keeps wm s0 s) (hw : Within 0x208000000 wm) :
    Keeps wm s0 (State.noAuto s l) := by
  unfold State.noAuto
  repeat' first
    | (with_reducible first | assumption | exact hw | exact hw.mono (by decide)) | intro _
    | ((fail_if_no_progress extract_lets +onlyGivenNames x); clear_value x) | fail_if_no_progress extract_lets +onlyGivenNames x
    | with_reducible apply Keeps.ite | dsimp -zeta only [x]
    | (fail_if_no_progress ((with_reducible apply Keeps.upd); on_goal 2 => exact fun p hp => by cases p <;> first | with_reducible exact rfl | exact hw.no rfl hp))

theorem State.loopStartOn_keeps {wm : Nat} {s0 s : State} (l : Fin 16) (h : Keeps wm s0 s) (hw : Within 0xc000018c0 wm) :
    Keeps wm s0 (State.loopStartOn s l).1 := by
  unfold State.loopStartOn
  repeat' first
    | (with_reducible first | assumption | exact hw | exact hw.mono (by decide)) | intro _
    | fail_if_no_progress extract_lets +onlyGivenNames x
    | (with_reducible first | apply State.log_keeps | apply State.modCt_keeps | apply State.startLoop_keeps | apply Keeps.ite)
    | with_reducible apply Keeps.iteFst | dsimp -zeta only [x] | split

theorem State.loopStart_keeps {wm : Nat} {s0 s : State} (l : Fin 16) (h : Keeps wm s0 s) (hw : Within 0xe080018c0 wm) :
    Keeps wm s0 (State.loopStart s l).1 := by
  unfold State.loopStart
  repeat' first
    | (with_reducible first | assumption | exact hw | exact hw.mono (by decide)) | intro _
    | fail_if_no_progress extract_lets +onlyGivenNames x
    | (with_reducible first | apply State.loopStartOn_keeps | apply State.noAuto_keeps | apply Keeps.ite) | dsimp -zeta only [x] | split

theorem State.loopStop_keeps {wm : Nat} {s0 s : State} (l : Fin 16) (holdup : Bool) (h : Keeps wm s0 s) (hw : Within 0xe08001bc0 wm) :
    Keeps wm s0 (State.loopStop s l holdup).1 := by
  unfold State.loopStop
  repeat' first
    | (with_reducible first | assumption | exact hw | exact hw.mono (by decide)) | intro _
    | fail_if_no_progress extract_lets +onlyGivenNames x
    | (with_reducible first | apply State.noAuto_keeps | apply State.stopLoop_keeps | apply Keeps.ite | apply Keeps.iteFst)
    | dsimp -zeta only [x] | split

theorem State.loopClear_keeps {wm : Nat} {s0 s : State} (l : Fin 16) (h : Keeps wm s0 s) (hw : Within 0x1840 wm) :
    Keeps wm s0 (State.loopClear s l).1 := by
  unfold State.loopClear
  repeat' first
    | (with_reducible first | assumption | exact hw | exact hw.mono (by decide)) | intro _
    | ((fail_if_no_progress extract_lets +onlyGivenNames x); refine Keeps.cut (w := wm) (s := s0) (v := x) ?_ ?_)
    | fail_if_no_progress extract_lets +onlyGivenNames x
    | (with_reducible first | apply State.faultScan_keeps | apply State.log_keeps | apply State.modLoop_keeps)
    | with_reducible apply Keeps.ite | dsimp -zeta only [x] | split

theorem State.ocTrip_keeps {wm : Nat} {s0 s : State} (l : Fin 16) (cause : Nat) (h : Keeps wm s0 s) (hw : Within 0xc01001bc0 wm) :
    Keeps wm s0 (State.ocTrip s l cause) := by
  unfold State.ocTrip
  repeat' first
    | (with_reducible first | assumption | exact hw | exact hw.mono (by decide)) | intro _
    | ((fail_if_no_progress extract_lets +onlyGivenNames x); refine Keeps.cut (w := wm) (s := s0) (v := x) ?_ ?_)
    | ((fail_if_no_progress extract_lets +onlyGivenNames x); clear_value x) | fail_if_no_progress extract_lets +onlyGivenNames x
    | (with_reducible first | apply State.faultLoopAt_keeps | apply State.faultScan_keeps | apply State.leaveLive_keeps)
    | (with_reducible first | apply State.log_keeps | apply State.modOc_keeps | apply State.spateReq_keeps | apply Keeps.ite)

theorem State.absorb_keeps {wm : Nat} {s0 s : State} (l : Fin 16) (r : LimRep) (h : Keeps wm s0 s) (hw : Within 0x800 wm) :
    Keeps wm s0 (State.absorb s l r) := by
  unfold State.absorb
  repeat' first
    | (with_reducible first | assumption | exact hw | exact hw.mono (by decide)) | intro _
    | ((fail_if_no_progress extract_lets +onlyGivenNames x); clear_value x) | fail_if_no_progress extract_lets +onlyGivenNames x
    | (with_reducible first | apply State.modLoop_keeps | apply State.modOc_keeps | apply Keeps.ite)

theorem State.shortExpire_keeps {wm : Nat} {s0 s : State} (l : Fin 16) (h : Keeps wm s0 s) (hw : Within 0x840 wm) :
    Keeps wm s0 (State.shortExpire s l) := by
  unfold State.shortExpire
  repeat' first
    | (with_reducible first | assumption | exact hw | exact hw.mono (by decide)) | intro _
    | ((fail_if_no_progress extract_lets +onlyGivenNames x); clear_value x) | fail_if_no_progress extract_lets +onlyGivenNames x
    | (with_reducible first | apply State.log_keeps | apply State.modOc_keeps)

theorem State.loopFeedLoss_keeps {wm : Nat} {s0 s : State} (l : Fin 16) (h : Keeps wm s0 s) (hw : Within 0x400001840 wm) :
    Keeps wm s0 (State.loopFeedLoss s l) := by
  unfold State.loopFeedLoss
  repeat' first
    | (with_reducible first | assumption | exact hw | exact hw.mono (by decide)) | intro _
    | ((fail_if_no_progress extract_lets +onlyGivenNames x); clear_value x) | fail_if_no_progress extract_lets +onlyGivenNames x
    | (with_reducible first | apply State.lossEnter_keeps | apply State.modCt_keeps | apply Keeps.ite)

theorem State.loopHandback_keeps {wm : Nat} {s0 s : State} (l : Fin 16) (h : Keeps wm s0 s) (hw : Within 0x400001840 wm) :
    Keeps wm s0 (State.loopHandback s l) := by
  unfold State.loopHandback
  repeat' first
    | (with_reducible first | assumption | exact hw | exact hw.mono (by decide)) | intro _
    | ((fail_if_no_progress extract_lets +onlyGivenNames x); clear_value x) | fail_if_no_progress extract_lets +onlyGivenNames x
    | (with_reducible first | apply State.lossTake_keeps | apply State.modCt_keeps | apply Keeps.ite)

theorem State.modHost_keeps {wm : Nat} {s0 s : State} (f : Hosts → Hosts) (h : Keeps wm s0 s) (hw : Within 0x2000000 wm) :
    Keeps wm s0 (State.modHost s f) := by
  unfold State.modHost
  repeat' first
    | (with_reducible first | assumption | exact hw | exact hw.mono (by decide)) | intro _
    | fail_if_no_progress extract_lets +onlyGivenNames x | with_reducible apply Keeps.ite | dsimp -zeta only [x]
    | (fail_if_no_progress ((with_reducible apply Keeps.upd); on_goal 2 => exact fun p hp => by cases p <;> first | with_reducible exact rfl | exact hw.no rfl hp))

theorem State.modSess_keeps {wm : Nat} {s0 s : State} (k : Fin 8) (f : Sess → Sess) (h : Keeps wm s0 s) (hw : Within 0x2000000 wm) :
    Keeps wm s0 (State.modSess s k f) := by
  unfold State.modSess
  repeat' first
    | (with_reducible first | assumption | exact hw | exact hw.mono (by decide)) | intro _
    | fail_if_no_progress extract_lets +onlyGivenNames x | with_reducible apply State.modHost_keeps

theorem State.modMb_keeps {wm : Nat} {s0 s : State} (m : Fin 16) (f : Mbox → Mbox) (h : Keeps wm s0 s) (hw : Within 0x2000000 wm) :
    Keeps wm s0 (State.modMb s m f) := by
  unfold State.modMb
  repeat' first
    | (with_reducible first | assumption | exact hw | exact hw.mono (by decide)) | intro _
    | fail_if_no_progress extract_lets +onlyGivenNames x | with_reducible apply State.modHost_keeps

theorem State.modHp_keeps {wm : Nat} {s0 s : State} (p : Fin 4) (f : HostPort → HostPort) (h : Keeps wm s0 s) (hw : Within 0x2000000 wm) :
    Keeps wm s0 (State.modHp s p f) := by
  unfold State.modHp
  repeat' first
    | (with_reducible first | assumption | exact hw | exact hw.mono (by decide)) | intro _
    | fail_if_no_progress extract_lets +onlyGivenNames x | with_reducible apply State.modHost_keeps

theorem State.mbPut_keeps {wm : Nat} {s0 s : State} (m : Fin 16) (bs : List Byte) (h : Keeps wm s0 s) (hw : Within 0x2000000 wm) :
    Keeps wm s0 (State.mbPut s m bs) := by
  unfold State.mbPut
  repeat' first
    | (with_reducible first | assumption | exact hw | exact hw.mono (by decide)) | intro _
    | ((fail_if_no_progress extract_lets +onlyGivenNames x); clear_value x) | fail_if_no_progress extract_lets +onlyGivenNames x
    | with_reducible apply State.modMb_keeps

theorem State.sendTo_keeps {wm : Nat} {s0 s : State} (e : Fin 2) (ep : Endpoint) (bs : List Byte) (h : Keeps wm s0 s) (hw : Within 0x2000000 wm) :
    Keeps wm s0 (State.sendTo s e ep bs) := by
  unfold State.sendTo
  repeat' first
    | (with_reducible first | assumption | exact hw | exact hw.mono (by decide)) | intro _
    | fail_if_no_progress extract_lets +onlyGivenNames x | with_reducible apply State.modHost_keeps

theorem State.ethAnswer_keeps {wm : Nat} {s0 s : State} (e : Fin 2) (ep : Endpoint) (bs : List Byte) (h : Keeps wm s0 s) (hw : Within 0x2000000 wm) :
    Keeps wm s0 (State.ethAnswer s e ep bs) := by
  unfold State.ethAnswer
  repeat' first
    | (with_reducible first | assumption | exact hw | exact hw.mono (by decide)) | intro _
    | fail_if_no_progress extract_lets +onlyGivenNames x | with_reducible apply State.modHost_keeps

theorem State.pairOut_keeps {wm : Nat} {s0 s : State} (k : Fin 8) (notice : Bool) (bs : List Byte) (h : Keeps wm s0 s) (hw : Within 0x802000000 wm) :
    Keeps wm s0 (State.pairOut s k notice bs) := by
  unfold State.pairOut
  repeat' first
    | (with_reducible first | assumption | exact hw | exact hw.mono (by decide)) | intro _
    | fail_if_no_progress extract_lets +onlyGivenNames x
    | (with_reducible first | apply State.mbPut_keeps | apply State.notice_keeps | apply State.output_keeps)
    | (with_reducible first | apply State.sendTo_keeps | apply Keeps.ite)

theorem State.reply_keeps {wm : Nat} {s0 s : State} (k : Fin 8) (op : Nat) (seq : Nat) (status : Nat) (tagged : Bool) (body : List Byte) (h : Keeps wm s0 s) (hw : Within 0x802000000 wm) :
    Keeps wm s0 (State.reply s k op seq status tagged body) := by
  unfold State.reply
  repeat' first
    | (with_reducible first | assumption | exact hw | exact hw.mono (by decide)) | intro _
    | ((fail_if_no_progress extract_lets +onlyGivenNames x); clear_value x) | fail_if_no_progress extract_lets +onlyGivenNames x
    | (with_reducible first | apply State.modSess_keeps | apply State.pairOut_keeps)

theorem State.answer_keeps {wm : Nat} {s0 s : State} (sess : Nat) (seq : Nat) (status : Nat) (body : List Byte) (h : Keeps wm s0 s) (hw : Within 0x802000000 wm) :
    Keeps wm s0 (State.answer s sess seq status body) := by
  unfold State.answer
  repeat' first
    | (with_reducible first | assumption | exact hw | exact hw.mono (by decide)) | intro _
    | ((fail_if_no_progress extract_lets +onlyGivenNames x); clear_value x) | fail_if_no_progress extract_lets +onlyGivenNames x
    | (with_reducible first | apply State.modSess_keeps | apply State.reply_keeps | apply Keeps.ite) | dsimp -zeta only [x] | split

theorem State.notice_keeps {wm : Nat} {s0 s : State} (k : Fin 8) (op : Nat) (body : List Byte) (h : Keeps wm s0 s) (hw : Within 0x802000000 wm) :
    Keeps wm s0 (State.notice s k op body).1 := by
  unfold State.notice
  repeat' first
    | (with_reducible first | assumption | exact hw | exact hw.mono (by decide)) | intro _
    | ((fail_if_no_progress extract_lets +onlyGivenNames x); clear_value x) | fail_if_no_progress extract_lets +onlyGivenNames x
    | (with_reducible first | apply State.modSess_keeps | apply State.pairOut_keeps | apply Keeps.ite | apply Keeps.iteFst)

theorem State.noticeAll_keeps {wm : Nat} {s0 s : State} (sel : Nat) (op : Nat) (body : List Byte) (h : Keeps wm s0 s) (hw : Within 0x802000000 wm) :
    Keeps wm s0 (State.noticeAll s sel op body) := by
  unfold State.noticeAll
  repeat' first
    | (with_reducible first | assumption | exact hw | exact hw.mono (by decide)) | intro _
    | fail_if_no_progress extract_lets +onlyGivenNames x
    | (with_reducible first | apply State.notice_keeps | apply Keeps.ite | apply Keeps.foldl)

theorem State.setPermit_keeps {wm : Nat} {s0 s : State} (i : Nat) (p : Permit) (h : Keeps wm s0 s) (hw : Within 0x2000000 wm) :
    Keeps wm s0 (State.setPermit s i p) := by
  unfold State.setPermit
  repeat' first
    | (with_reducible first | assumption | exact hw | exact hw.mono (by decide)) | intro _
    | fail_if_no_progress extract_lets +onlyGivenNames x | with_reducible apply State.modHost_keeps

theorem State.renewPermit_keeps {wm : Nat} {s0 s : State} (i : Nat) (h : Keeps wm s0 s) (hw : Within 0x2000000 wm) :
    Keeps wm s0 (State.renewPermit s i) := by
  unfold State.renewPermit
  repeat' first
    | (with_reducible first | assumption | exact hw | exact hw.mono (by decide)) | intro _
    | ((fail_if_no_progress extract_lets +onlyGivenNames x); clear_value x) | fail_if_no_progress extract_lets +onlyGivenNames x
    | (with_reducible first | apply State.setPermit_keeps | apply Keeps.ite)

theorem State.useRenew_keeps {wm : Nat} {s0 s : State} (is : List Nat) (h : Keeps wm s0 s) (hw : Within 0x2000000 wm) :
    Keeps wm s0 (State.useRenew s is) := by
  unfold State.useRenew
  repeat' first
    | (with_reducible first | assumption | exact hw | exact hw.mono (by decide)) | intro _
    | fail_if_no_progress extract_lets +onlyGivenNames x
    | (with_reducible first | apply State.renewPermit_keeps | apply Keeps.ite | apply Keeps.foldl)

end Sys2Proof.Machine
end

