-- ==== Sys2Proof/Laws/KeepsB.lean ====
section
/-! SUPPORT. What the operations keep (see Keeps.lean), one lemma each: those of HoldOps.lean, PortOps.lean, NodeOps.lean, PoolOps.lean, BattOps.lean, CtrlOps.lean, Battery.lean, MramOps.lean, SiltOps.lean, SpateOps.lean. -/

set_option linter.tactic.unusedName false
set_option linter.unreachableTactic false
set_option linter.unusedTactic false

namespace Sys2Proof.Machine

theorem State.modBatt_keeps {wm : Nat} {s0 s : State} (b : Fin 8) (f : Batt → Batt) (h : Keeps wm s0 s) (hw : Within 0x40000 wm) :
    Keeps wm s0 (State.modBatt s b f) := by
  unfold State.modBatt
  repeat' first
    | (with_reducible first | assumption | exact hw | exact hw.mono (by decide)) | intro _
    | fail_if_no_progress extract_lets +onlyGivenNames x | with_reducible apply Keeps.ite | dsimp -zeta only [x]
    | (fail_if_no_progress ((with_reducible apply Keeps.upd); on_goal 2 => exact fun p hp => by cases p <;> first | with_reducible exact rfl | exact hw.no rfl hp))

theorem State.currentHeard_keeps {wm : Nat} {s0 s : State} (l : Fin 16) (sum : Int) (h : Keeps wm s0 s) (hw : Within 0x40000 wm) :
    Keeps wm s0 (State.currentHeard s l sum) := by
  unfold State.currentHeard
  repeat' first
    | (with_reducible first | assumption | exact hw | exact hw.mono (by decide)) | intro _
    | fail_if_no_progress extract_lets +onlyGivenNames x | (with_reducible first | apply State.modBatt_keeps | apply Keeps.ite)
    | dsimp -zeta only [x] | split

theorem State.modHold_keeps {wm : Nat} {s0 s : State} (f : Hold → Hold) (h : Keeps wm s0 s) (hw : Within 0x8000 wm) :
    Keeps wm s0 (State.modHold s f) := by
  unfold State.modHold
  repeat' first
    | (with_reducible first | assumption | exact hw | exact hw.mono (by decide)) | intro _
    | fail_if_no_progress extract_lets +onlyGivenNames x | with_reducible apply Keeps.ite | dsimp -zeta only [x]
    | (fail_if_no_progress ((with_reducible apply Keeps.upd); on_goal 2 => exact fun p hp => by cases p <;> first | with_reducible exact rfl | exact hw.no rfl hp))

theorem State.holdTo_keeps {wm : Nat} {s0 s : State} (st : HoldState) (h : Keeps wm s0 s) (hw : Within 0x802008000 wm) :
    Keeps wm s0 (State.holdTo s st) := by
  unfold State.holdTo
  repeat' first
    | (with_reducible first | assumption | exact hw | exact hw.mono (by decide)) | intro _
    | fail_if_no_progress extract_lets +onlyGivenNames x
    | (with_reducible first | apply State.modHold_keeps | apply State.noticeAll_keeps)

theorem State.lineReleased_keeps {wm : Nat} {s0 s : State} (h : Keeps wm s0 s) (hw : Within 0x802018040 wm) :
    Keeps wm s0 (State.lineReleased s) := by
  unfold State.lineReleased
  repeat' first
    | (with_reducible first | assumption | exact hw | exact hw.mono (by decide)) | intro _
    | ((fail_if_no_progress extract_lets +onlyGivenNames x); refine Keeps.cut (w := wm) (s := s0) (v := x) ?_ ?_)
    | ((fail_if_no_progress extract_lets +onlyGivenNames x); clear_value x) | fail_if_no_progress extract_lets +onlyGivenNames x
    | (with_reducible first | apply State.holdTo_keeps | apply State.log_keeps | apply State.modHold_keeps | apply Keeps.ite)
    | dsimp -zeta only [x]
    | (fail_if_no_progress ((with_reducible apply Keeps.upd); on_goal 2 => exact fun p hp => by cases p <;> first | with_reducible exact rfl | exact hw.no rfl hp))

theorem State.holdExitScan_keeps {wm : Nat} {s0 s : State} (h : Keeps wm s0 s) (hw : Within 0xc0218d850 wm) :
    Keeps wm s0 (State.holdExitScan s) := by
  unfold State.holdExitScan
  repeat' first
    | (with_reducible first | assumption | exact hw | exact hw.mono (by decide)) | intro _
    | ((fail_if_no_progress extract_lets +onlyGivenNames x); clear_value x) | fail_if_no_progress extract_lets +onlyGivenNames x
    | (with_reducible first | apply State.handback_keeps | apply State.holdTo_keeps | apply State.log_keeps)
    | (with_reducible first | apply State.modHold_keeps | apply Keeps.ite)

theorem State.modPort_keeps {wm : Nat} {s0 s : State} (p : Fin 64) (f : Port → Port) (h : Keeps wm s0 s) (hw : Within 0x80000 wm) :
    Keeps wm s0 (State.modPort s p f) := by
  unfold State.modPort
  repeat' first
    | (with_reducible first | assumption | exact hw | exact hw.mono (by decide)) | intro _
    | fail_if_no_progress extract_lets +onlyGivenNames x | with_reducible apply Keeps.ite | dsimp -zeta only [x]
    | (fail_if_no_progress ((with_reducible apply Keeps.upd); on_goal 2 => exact fun p hp => by cases p <;> first | with_reducible exact rfl | exact hw.no rfl hp))

theorem State.modCnt_keeps {wm : Nat} {s0 s : State} (p : Fin 64) (f : PortCount → PortCount) (h : Keeps wm s0 s) (hw : Within 0x80000 wm) :
    Keeps wm s0 (State.modCnt s p f) := by
  unfold State.modCnt
  repeat' first
    | (with_reducible first | assumption | exact hw | exact hw.mono (by decide)) | intro _
    | fail_if_no_progress extract_lets +onlyGivenNames x | with_reducible apply State.modPort_keeps

theorem State.regrant_keeps {wm : Nat} {s0 s : State} (p : Fin 64) (h : Keeps wm s0 s) (hw : Within 0x80000 wm) :
    Keeps wm s0 (State.regrant s p) := by
  unfold State.regrant
  repeat' first
    | (with_reducible first | assumption | exact hw | exact hw.mono (by decide)) | intro _
    | fail_if_no_progress extract_lets +onlyGivenNames x | with_reducible apply State.modPort_keeps

theorem State.flushTx_keeps {wm : Nat} {s0 s : State} (p : Fin 64) (h : Keeps wm s0 s) (hw : Within 0x80000 wm) :
    Keeps wm s0 (State.flushTx s p) := by
  unfold State.flushTx
  repeat' first
    | (with_reducible first | assumption | exact hw | exact hw.mono (by decide)) | intro _
    | fail_if_no_progress extract_lets +onlyGivenNames x | with_reducible apply State.modPort_keeps

theorem State.modNode_keeps {wm : Nat} {s0 s : State} (a : Nat) (f : NodeSess → NodeSess) (h : Keeps wm s0 s) (hw : Within 0x100000 wm) :
    Keeps wm s0 (State.modNode s a f) := by
  unfold State.modNode
  repeat' first
    | (with_reducible first | assumption | exact hw | exact hw.mono (by decide)) | intro _
    | ((fail_if_no_progress extract_lets +onlyGivenNames x); clear_value x) | fail_if_no_progress extract_lets +onlyGivenNames x
    | with_reducible apply Keeps.ite | dsimp -zeta only [x]
    | (fail_if_no_progress ((with_reducible apply Keeps.upd); on_goal 2 => exact fun p hp => by cases p <;> first | with_reducible exact rfl | exact hw.no rfl hp))

theorem State.linkScan_keeps {wm : Nat} {s0 s : State} (p : Fin 64) (h : Keeps wm s0 s) (hw : Within 0x100040 wm) :
    Keeps wm s0 (State.linkScan s p) := by
  unfold State.linkScan
  repeat' first
    | (with_reducible first | assumption | exact hw | exact hw.mono (by decide)) | intro _
    | ((fail_if_no_progress extract_lets +onlyGivenNames x); clear_value x) | fail_if_no_progress extract_lets +onlyGivenNames x
    | (with_reducible first | apply State.log_keeps | apply State.modNode_keeps | apply Keeps.ite | apply Keeps.foldl)

theorem State.txPush_keeps {wm : Nat} {s0 s : State} (p : Fin 64) (f : Frame) (h : Keeps wm s0 s) (hw : Within 0x800080000 wm) :
    Keeps wm s0 (State.txPush s p f) := by
  unfold State.txPush
  repeat' first
    | (with_reducible first | assumption | exact hw | exact hw.mono (by decide)) | intro _
    | fail_if_no_progress extract_lets +onlyGivenNames x | (with_reducible first | apply State.modPort_keeps | apply State.output_keeps)

theorem State.frameOut_keeps {wm : Nat} {s0 s : State} (a : Nat) (f : Frame) (h : Keeps wm s0 s) (hw : Within 0x800080000 wm) :
    Keeps wm s0 (State.frameOut s a f) := by
  unfold State.frameOut
  repeat' first
    | (with_reducible first | assumption | exact hw | exact hw.mono (by decide)) | intro _
    | ((fail_if_no_progress extract_lets +onlyGivenNames x); refine Keeps.cut (w := wm) (s := s0) (v := x) ?_ ?_)
    | ((fail_if_no_progress extract_lets +onlyGivenNames x); clear_value x) | fail_if_no_progress extract_lets +onlyGivenNames x
    | (with_reducible first | apply State.txPush_keeps | apply Keeps.ite)

theorem State.startTrain_keeps {wm : Nat} {s0 s : State} (p : Fin 64) (rate : Nat) (h : Keeps wm s0 s) (hw : Within 0x80000 wm) :
    Keeps wm s0 (State.startTrain s p rate) := by
  unfold State.startTrain
  repeat' first
    | (with_reducible first | assumption | exact hw | exact hw.mono (by decide)) | intro _
    | fail_if_no_progress extract_lets +onlyGivenNames x | with_reducible apply State.modPort_keeps

theorem State.leaveUp_keeps {wm : Nat} {s0 s : State} (p : Fin 64) (cause : Nat) (rate : Nat) (h : Keeps wm s0 s) (hw : Within 0x180040 wm) :
    Keeps wm s0 (State.leaveUp s p cause rate) := by
  unfold State.leaveUp
  repeat' first
    | (with_reducible first | assumption | exact hw | exact hw.mono (by decide)) | intro _
    | fail_if_no_progress extract_lets +onlyGivenNames x
    | (with_reducible first | apply State.flushTx_keeps | apply State.linkScan_keeps | apply State.log_keeps)
    | with_reducible apply State.startTrain_keeps

theorem State.portOff_keeps {wm : Nat} {s0 s : State} (p : Fin 64) (h : Keeps wm s0 s) (hw : Within 0x180040 wm) :
    Keeps wm s0 (State.portOff s p) := by
  unfold State.portOff
  repeat' first
    | (with_reducible first | assumption | exact hw | exact hw.mono (by decide)) | intro _
    | ((fail_if_no_progress extract_lets +onlyGivenNames x); clear_value x) | fail_if_no_progress extract_lets +onlyGivenNames x
    | (with_reducible first | apply State.flushTx_keeps | apply State.linkScan_keeps | apply State.modPort_keeps)

theorem State.portApply_keeps {wm : Nat} {s0 s : State} (p : Fin 64) (h : Keeps wm s0 s) (hw : Within 0x180040 wm) :
    Keeps wm s0 (State.portApply s p) := by
  unfold State.portApply
  repeat' first
    | (with_reducible first | assumption | exact hw | exact hw.mono (by decide)) | intro _
    | ((fail_if_no_progress extract_lets +onlyGivenNames x); clear_value x) | fail_if_no_progress extract_lets +onlyGivenNames x
    | (with_reducible first | apply State.modPort_keeps | apply State.portOff_keeps | apply State.startTrain_keeps)
    | with_reducible apply Keeps.ite

theorem State.rxError_keeps {wm : Nat} {s0 s : State} (p : Fin 64) (h : Keeps wm s0 s) (hw : Within 0x40 wm) :
    Keeps wm s0 (State.rxError s p) := by
  unfold State.rxError
  repeat' first
    | (with_reducible first | assumption | exact hw | exact hw.mono (by decide)) | intro _
    | ((fail_if_no_progress extract_lets +onlyGivenNames x); clear_value x) | fail_if_no_progress extract_lets +onlyGivenNames x
    | with_reducible apply State.log_keeps

theorem State.nodeRaw_keeps {wm : Nat} {s0 s : State} (a : Nat) (epoch : Nat) (payload : List Byte) (h : Keeps wm s0 s) (hw : Within 0x800080000 wm) :
    Keeps wm s0 (State.nodeRaw s a epoch payload) := by
  unfold State.nodeRaw
  repeat' first
    | (with_reducible first | assumption | exact hw | exact hw.mono (by decide)) | intro _
    | fail_if_no_progress extract_lets +onlyGivenNames x | with_reducible apply State.frameOut_keeps

theorem State.nodeSend_keeps {wm : Nat} {s0 s : State} (a : Nat) (op : Nat) (flags : Nat) (body : List Byte) (h : Keeps wm s0 s) (hw : Within 0x800180000 wm) :
    Keeps wm s0 (State.nodeSend s a op flags body) := by
  unfold State.nodeSend
  repeat' first
    | (with_reducible first | assumption | exact hw | exact hw.mono (by decide)) | intro _
    | ((fail_if_no_progress extract_lets +onlyGivenNames x); clear_value x) | fail_if_no_progress extract_lets +onlyGivenNames x
    | (with_reducible first | apply State.frameOut_keeps | apply State.modNode_keeps | apply Keeps.ite)

theorem State.modMbr_keeps {wm : Nat} {s0 s : State} (m : Fin 64) (f : Member → Member) (h : Keeps wm s0 s) (hw : Within 0x4000 wm) :
    Keeps wm s0 (State.modMbr s m f) := by
  unfold State.modMbr
  repeat' first
    | (with_reducible first | assumption | exact hw | exact hw.mono (by decide)) | intro _
    | ((fail_if_no_progress extract_lets +onlyGivenNames x); clear_value x) | fail_if_no_progress extract_lets +onlyGivenNames x
    | with_reducible apply Keeps.ite | dsimp -zeta only [x]
    | (fail_if_no_progress ((with_reducible apply Keeps.upd); on_goal 2 => exact fun p hp => by cases p <;> first | with_reducible exact rfl | exact hw.no rfl hp))

theorem State.mbrTo_keeps {wm : Nat} {s0 s : State} (m : Fin 64) (st : MemberState) (h : Keeps wm s0 s) (hw : Within 0x4040 wm) :
    Keeps wm s0 (State.mbrTo s m st) := by
  unfold State.mbrTo
  repeat' first
    | (with_reducible first | assumption | exact hw | exact hw.mono (by decide)) | intro _
    | ((fail_if_no_progress extract_lets +onlyGivenNames x); clear_value x) | fail_if_no_progress extract_lets +onlyGivenNames x
    | (with_reducible first | apply State.log_keeps | apply State.modMbr_keeps | apply Keeps.ite)

theorem State.mbrDroop_keeps {wm : Nat} {s0 s : State} (m : Fin 64) (ep : Nat) (h : Keeps wm s0 s) (hw : Within 0x4040 wm) :
    Keeps wm s0 (State.mbrDroop s m ep) := by
  unfold State.mbrDroop
  repeat' first
    | (with_reducible first | assumption | exact hw | exact hw.mono (by decide)) | intro _
    | ((fail_if_no_progress extract_lets +onlyGivenNames x); clear_value x) | fail_if_no_progress extract_lets +onlyGivenNames x
    | (with_reducible first | apply State.mbrTo_keeps | apply State.modMbr_keeps | apply Keeps.ite)

theorem State.sendTrim_keeps {wm : Nat} {s0 s : State} (m : Fin 64) (h : Keeps wm s0 s) (hw : Within 0x800184000 wm) :
    Keeps wm s0 (State.sendTrim s m) := by
  unfold State.sendTrim
  repeat' first
    | (with_reducible first | assumption | exact hw | exact hw.mono (by decide)) | intro _
    | ((fail_if_no_progress extract_lets +onlyGivenNames x); clear_value x) | fail_if_no_progress extract_lets +onlyGivenNames x
    | (with_reducible first | apply State.modMbr_keeps | apply State.nodeSend_keeps | apply Keeps.ite)

theorem State.sendHoldup_keeps {wm : Nat} {s0 s : State} (a : Nat) (h : Keeps wm s0 s) (hw : Within 0x800180000 wm) :
    Keeps wm s0 (State.sendHoldup s a) := by
  unfold State.sendHoldup
  repeat' first
    | (with_reducible first | assumption | exact hw | exact hw.mono (by decide)) | intro _
    | fail_if_no_progress extract_lets +onlyGivenNames x | (with_reducible first | apply State.nodeSend_keeps | apply Keeps.ite)
    | dsimp -zeta only [x] | split

theorem State.sendThrottle_keeps {wm : Nat} {s0 s : State} (a : Nat) (limit : Option Nat) (h : Keeps wm s0 s) (hw : Within 0x800180000 wm) :
    Keeps wm s0 (State.sendThrottle s a limit) := by
  unfold State.sendThrottle
  repeat' first
    | (with_reducible first | assumption | exact hw | exact hw.mono (by decide)) | intro _
    | fail_if_no_progress extract_lets +onlyGivenNames x | with_reducible apply State.nodeSend_keeps

theorem State.setRelay_keeps {wm : Nat} {s0 s : State} (p : Nat) (r : Option Relay) (h : Keeps wm s0 s) (hw : Within 0x100000 wm) :
    Keeps wm s0 (State.setRelay s p r) := by
  unfold State.setRelay
  repeat' first
    | (with_reducible first | assumption | exact hw | exact hw.mono (by decide)) | intro _
    | ((fail_if_no_progress extract_lets +onlyGivenNames x); clear_value x) | fail_if_no_progress extract_lets +onlyGivenNames x
    | with_reducible apply Keeps.ite | dsimp -zeta only [x]
    | (fail_if_no_progress ((with_reducible apply Keeps.upd); on_goal 2 => exact fun p hp => by cases p <;> first | with_reducible exact rfl | exact hw.no rfl hp))

theorem State.relayAbandon_keeps {wm : Nat} {s0 s : State} (p : Nat) (status : Nat) (h : Keeps wm s0 s) (hw : Within 0x100040 wm) :
    Keeps wm s0 (State.relayAbandon s p status) := by
  unfold State.relayAbandon
  repeat' first
    | (with_reducible first | assumption | exact hw | exact hw.mono (by decide)) | intro _
    | fail_if_no_progress extract_lets +onlyGivenNames x
    | (with_reducible first | apply State.log_keeps | apply State.setRelay_keeps | apply Keeps.ite) | dsimp -zeta only [x] | split

theorem State.failHost_keeps {wm : Nat} {s0 s : State} (r : NodeReq) (h : Keeps wm s0 s) (hw : Within 0x802000000 wm) :
    Keeps wm s0 (State.failHost s r) := by
  unfold State.failHost
  repeat' first
    | (with_reducible first | assumption | exact hw | exact hw.mono (by decide)) | intro _
    | fail_if_no_progress extract_lets +onlyGivenNames x | (with_reducible first | apply State.answer_keeps | apply Keeps.ite)
    | dsimp -zeta only [x] | split

theorem State.failReq_keeps {wm : Nat} {s0 s : State} (a : Nat) (h : Keeps wm s0 s) (hw : Within 0x802100040 wm) :
    Keeps wm s0 (State.failReq s a) := by
  unfold State.failReq
  repeat' first
    | (with_reducible first | assumption | exact hw | exact hw.mono (by decide)) | intro _
    | ((fail_if_no_progress extract_lets +onlyGivenNames x); refine Keeps.cut (w := wm) (s := s0) (v := x) ?_ ?_)
    | fail_if_no_progress extract_lets +onlyGivenNames x
    | (with_reducible first | apply State.failHost_keeps | apply State.log_keeps | apply State.modNode_keeps)
    | (with_reducible first | apply State.relayAbandon_keeps | apply Keeps.ite) | dsimp -zeta only [x] | split

theorem State.relayEnd_keeps {wm : Nat} {s0 s : State} (a : Nat) (h : Keeps wm s0 s) (hw : Within 0x100040 wm) :
    Keeps wm s0 (State.relayEnd s a) := by
  unfold State.relayEnd
  repeat' first
    | (with_reducible first | assumption | exact hw | exact hw.mono (by decide)) | intro _
    | fail_if_no_progress extract_lets +onlyGivenNames x | (with_reducible first | apply State.relayAbandon_keeps | apply Keeps.ite)
    | dsimp -zeta only [x] | split

theorem State.endSess_keeps {wm : Nat} {s0 s : State} (a : Nat) (h : Keeps wm s0 s) (hw : Within 0x802104040 wm) :
    Keeps wm s0 (State.endSess s a) := by
  unfold State.endSess
  repeat' first
    | (with_reducible first | assumption | exact hw | exact hw.mono (by decide)) | intro _
    | ((fail_if_no_progress extract_lets +onlyGivenNames x); refine Keeps.cut (w := wm) (s := s0) (v := x) ?_ ?_)
    | ((fail_if_no_progress extract_lets +onlyGivenNames x); clear_value x) | fail_if_no_progress extract_lets +onlyGivenNames x
    | (with_reducible first | apply State.failHost_keeps | apply State.failReq_keeps | apply State.mbrDroop_keeps)
    | (with_reducible first | apply State.modNode_keeps | apply State.relayEnd_keeps | apply Keeps.ite | apply Keeps.foldl)

theorem State.sendClosed_keeps {wm : Nat} {s0 s : State} (a : Nat) (epoch : Nat) (reason : Nat) (h : Keeps wm s0 s) (hw : Within 0x800180000 wm) :
    Keeps wm s0 (State.sendClosed s a epoch reason) := by
  unfold State.sendClosed
  repeat' first
    | (with_reducible first | assumption | exact hw | exact hw.mono (by decide)) | intro _
    | fail_if_no_progress extract_lets +onlyGivenNames x | (with_reducible first | apply State.modNode_keeps | apply State.nodeRaw_keeps)

theorem State.closeSess_keeps {wm : Nat} {s0 s : State} (a : Nat) (reason : Nat) (h : Keeps wm s0 s) (hw : Within 0x802184040 wm) :
    Keeps wm s0 (State.closeSess s a reason) := by
  unfold State.closeSess
  repeat' first
    | (with_reducible first | assumption | exact hw | exact hw.mono (by decide)) | intro _
    | ((fail_if_no_progress extract_lets +onlyGivenNames x); clear_value x) | fail_if_no_progress extract_lets +onlyGivenNames x
    | (with_reducible first | apply State.endSess_keeps | apply State.log_keeps | apply State.sendClosed_keeps)
    | with_reducible apply Keeps.ite

theorem State.nodeStale_keeps {wm : Nat} {s0 s : State} (a : Nat) (epoch : Nat) (h : Keeps wm s0 s) (hw : Within 0x800180040 wm) :
    Keeps wm s0 (State.nodeStale s a epoch) := by
  unfold State.nodeStale
  repeat' first
    | (with_reducible first | assumption | exact hw | exact hw.mono (by decide)) | intro _
    | ((fail_if_no_progress extract_lets +onlyGivenNames x); refine Keeps.cut (w := wm) (s := s0) (v := x) ?_ ?_)
    | ((fail_if_no_progress extract_lets +onlyGivenNames x); clear_value x) | fail_if_no_progress extract_lets +onlyGivenNames x
    | (with_reducible first | apply State.log_keeps | apply State.modNode_keeps | apply State.sendClosed_keeps)
    | with_reducible apply Keeps.ite

theorem State.nodeAccept_keeps {wm : Nat} {s0 s : State} (a : Nat) (epoch : Nat) (seq : Nat) (h : Keeps wm s0 s) (hw : Within 0x800180040 wm) :
    Keeps wm s0 (State.nodeAccept s a epoch seq).1 := by
  unfold State.nodeAccept
  repeat' first
    | (with_reducible first | assumption | exact hw | exact hw.mono (by decide)) | intro _
    | ((fail_if_no_progress extract_lets +onlyGivenNames x); clear_value x) | fail_if_no_progress extract_lets +onlyGivenNames x
    | (with_reducible first | apply State.modNode_keeps | apply State.nodeStale_keeps | apply Keeps.ite | apply Keeps.iteFst)

theorem State.nodeRequest_keeps {wm : Nat} {s0 s : State} (a : Nat) (op : Nat) (body : List Byte) (who : ReqWho) (h : Keeps wm s0 s) (hw : Within 0x800180000 wm) :
    Keeps wm s0 (State.nodeRequest s a op body who) := by
  unfold State.nodeRequest
  repeat' first
    | (with_reducible first | assumption | exact hw | exact hw.mono (by decide)) | intro _
    | ((fail_if_no_progress extract_lets +onlyGivenNames x); clear_value x) | fail_if_no_progress extract_lets +onlyGivenNames x
    | (with_reducible first | apply State.modNode_keeps | apply State.nodeSend_keeps | apply Keeps.ite)

theorem State.nextReq_keeps {wm : Nat} {s0 s : State} (a : Nat) (h : Keeps wm s0 s) (hw : Within 0x800180000 wm) :
    Keeps wm s0 (State.nextReq s a) := by
  unfold State.nextReq
  repeat' first
    | (with_reducible first | assumption | exact hw | exact hw.mono (by decide)) | intro _
    | fail_if_no_progress extract_lets +onlyGivenNames x
    | (with_reducible first | apply State.modNode_keeps | apply State.nodeRequest_keeps | apply Keeps.ite) | dsimp -zeta only [x] | split

theorem State.queueState_keeps {wm : Nat} {s0 s : State} (a : Nat) (h : Keeps wm s0 s) (hw : Within 0x800180000 wm) :
    Keeps wm s0 (State.queueState s a) := by
  unfold State.queueState
  repeat' first
    | (with_reducible first | assumption | exact hw | exact hw.mono (by decide)) | intro _
    | ((fail_if_no_progress extract_lets +onlyGivenNames x); refine Keeps.cut (w := wm) (s := s0) (v := x) ?_ ?_)
    | fail_if_no_progress extract_lets +onlyGivenNames x
    | (with_reducible first | apply State.sendHoldup_keeps | apply State.sendThrottle_keeps | apply Keeps.ite) | dsimp -zeta only [x]
    | split

theorem State.modPool_keeps {wm : Nat} {s0 s : State} (f : Pool → Pool) (h : Keeps wm s0 s) (hw : Within 0x200000 wm) :
    Keeps wm s0 (State.modPool s f) := by
  unfold State.modPool
  repeat' first
    | (with_reducible first | assumption | exact hw | exact hw.mono (by decide)) | intro _
    | fail_if_no_progress extract_lets +onlyGivenNames x | with_reducible apply Keeps.ite | dsimp -zeta only [x]
    | (fail_if_no_progress ((with_reducible apply Keeps.upd); on_goal 2 => exact fun p hp => by cases p <;> first | with_reducible exact rfl | exact hw.no rfl hp))

theorem State.setSlot_keeps {wm : Nat} {s0 s : State} (k : Nat) (v : Slot) (h : Keeps wm s0 s) (hw : Within 0x200000 wm) :
    Keeps wm s0 (State.setSlot s k v) := by
  unfold State.setSlot
  repeat' first
    | (with_reducible first | assumption | exact hw | exact hw.mono (by decide)) | intro _
    | fail_if_no_progress extract_lets +onlyGivenNames x | with_reducible apply State.modPool_keeps

theorem State.limitEvent_keeps {wm : Nat} {s0 s : State} (e : LimitEvent) (h : Keeps wm s0 s) (hw : Within 0x1201040 wm) :
    Keeps wm s0 (State.limitEvent s e) := by
  unfold State.limitEvent
  repeat' first
    | (with_reducible first | assumption | exact hw | exact hw.mono (by decide)) | intro _
    | ((fail_if_no_progress extract_lets +onlyGivenNames x); refine Keeps.cut (w := wm) (s := s0) (v := x) ?_ ?_)
    | ((fail_if_no_progress extract_lets +onlyGivenNames x); clear_value x) | fail_if_no_progress extract_lets +onlyGivenNames x
    | (with_reducible first | apply State.faultScan_keeps | apply State.log_keeps | apply State.modPool_keeps)
    | (with_reducible first | apply State.setSlot_keeps | apply State.spateReq_keeps | apply Keeps.ite)

theorem State.slotPut_keeps {wm : Nat} {s0 s : State} (k : Nat) (pins : Nat) (q : Slot) (h : Keeps wm s0 s) (hw : Within 0x201040 wm) :
    Keeps wm s0 (State.slotPut s k pins q) := by
  unfold State.slotPut
  repeat' first
    | (with_reducible first | assumption | exact hw | exact hw.mono (by decide)) | intro _
    | fail_if_no_progress extract_lets +onlyGivenNames x
    | (with_reducible first | apply State.faultScan_keeps | apply State.setSlot_keeps | apply Keeps.ite)

theorem State.slotUpdate_keeps {wm : Nat} {s0 s : State} (k : Nat) (v : Nat) (t : Nat) (h : Keeps wm s0 s) (hw : Within 0x1201040 wm) :
    Keeps wm s0 (State.slotUpdate s k v t) := by
  unfold State.slotUpdate
  repeat' first
    | (with_reducible first | assumption | exact hw | exact hw.mono (by decide)) | intro _
    | ((fail_if_no_progress extract_lets +onlyGivenNames x); refine Keeps.cut (w := wm) (s := s0) (v := x) ?_ ?_)
    | ((fail_if_no_progress extract_lets +onlyGivenNames x); clear_value x) | fail_if_no_progress extract_lets +onlyGivenNames x
    | (with_reducible first | apply State.limitEvent_keeps | apply State.modPool_keeps | apply State.slotPut_keeps)
    | with_reducible apply Keeps.ite

theorem State.poolUpdate_keeps {wm : Nat} {s0 s : State} (k : Nat) (v : Nat) (t : Nat) (h : Keeps wm s0 s) (hw : Within 0x1201040 wm) :
    Keeps wm s0 (State.poolUpdate s k v t) := by
  unfold State.poolUpdate
  repeat' first
    | (with_reducible first | assumption | exact hw | exact hw.mono (by decide)) | intro _
    | fail_if_no_progress extract_lets +onlyGivenNames x
    | (with_reducible first | apply State.modPool_keeps | apply State.slotUpdate_keeps | apply Keeps.ite)

theorem State.slotRearm_keeps {wm : Nat} {s0 s : State} (k : Nat) (h : Keeps wm s0 s) (hw : Within 0x201040 wm) :
    Keeps wm s0 (State.slotRearm s k) := by
  unfold State.slotRearm
  repeat' first
    | (with_reducible first | assumption | exact hw | exact hw.mono (by decide)) | intro _
    | ((fail_if_no_progress extract_lets +onlyGivenNames x); clear_value x) | fail_if_no_progress extract_lets +onlyGivenNames x
    | (with_reducible first | apply State.faultScan_keeps | apply State.setSlot_keeps)

theorem State.srcPush_keeps {wm : Nat} {s0 s : State} (src : Fin 3) (fr : List (Nat × Nat × Nat)) (h : Keeps wm s0 s) (hw : Within 0x200000 wm) :
    Keeps wm s0 (State.srcPush s src fr) := by
  unfold State.srcPush
  repeat' first
    | (with_reducible first | assumption | exact hw | exact hw.mono (by decide)) | intro _
    | ((fail_if_no_progress extract_lets +onlyGivenNames x); clear_value x) | fail_if_no_progress extract_lets +onlyGivenNames x
    | (with_reducible first | apply State.modPool_keeps | apply Keeps.ite)

theorem State.outScan_keeps {wm : Nat} {s0 s : State} (a : Nat) (h : Keeps wm s0 s) (hw : Within 0x100040 wm) :
    Keeps wm s0 (State.outScan s a) := by
  unfold State.outScan
  repeat' first
    | (with_reducible first | assumption | exact hw | exact hw.mono (by decide)) | intro _
    | ((fail_if_no_progress extract_lets +onlyGivenNames x); clear_value x) | fail_if_no_progress extract_lets +onlyGivenNames x
    | (with_reducible first | apply State.log_keeps | apply State.modNode_keeps | apply Keeps.ite)

theorem State.outTake_keeps {wm : Nat} {s0 s : State} (a : Nat) (h : Keeps wm s0 s) (hw : Within 0x104040 wm) :
    Keeps wm s0 (State.outTake s a) := by
  unfold State.outTake
  repeat' first
    | (with_reducible first | assumption | exact hw | exact hw.mono (by decide)) | intro _
    | ((fail_if_no_progress extract_lets +onlyGivenNames x); refine Keeps.cut (w := wm) (s := s0) (v := x) ?_ ?_)
    | fail_if_no_progress extract_lets +onlyGivenNames x
    | (with_reducible first | apply State.mbrDroop_keeps | apply State.outScan_keeps | apply Keeps.ite | apply Keeps.foldl)

theorem State.modBf_keeps {wm : Nat} {s0 s : State} (b : Fin 8) (f : BattFlags → BattFlags) (h : Keeps wm s0 s) (hw : Within 0x40000 wm) :
    Keeps wm s0 (State.modBf s b f) := by
  unfold State.modBf
  repeat' first
    | (with_reducible first | assumption | exact hw | exact hw.mono (by decide)) | intro _
    | fail_if_no_progress extract_lets +onlyGivenNames x | with_reducible apply State.modBatt_keeps

theorem State.battMeasure_keeps {wm : Nat} {s0 s : State} (b : Fin 8) (h : Keeps wm s0 s) (hw : Within 0x40000 wm) :
    Keeps wm s0 (State.battMeasure s b) := by
  unfold State.battMeasure
  repeat' first
    | (with_reducible first | assumption | exact hw | exact hw.mono (by decide)) | intro _
    | ((fail_if_no_progress extract_lets +onlyGivenNames x); clear_value x) | fail_if_no_progress extract_lets +onlyGivenNames x
    | with_reducible apply State.modBatt_keeps

theorem State.battCancel_keeps {wm : Nat} {s0 s : State} (b : Fin 8) (cause : Nat) (h : Keeps wm s0 s) (hw : Within 0x40040 wm) :
    Keeps wm s0 (State.battCancel s b cause) := by
  unfold State.battCancel
  repeat' first
    | (with_reducible first | assumption | exact hw | exact hw.mono (by decide)) | intro _
    | fail_if_no_progress extract_lets +onlyGivenNames x
    | (with_reducible first | apply State.log_keeps | apply State.modBf_keeps | apply Keeps.ite)

theorem State.battAnchorLog_keeps {wm : Nat} {s0 s : State} (b : Fin 8) (kind : Nat) (before : Nat) (h : Keeps wm s0 s) (hw : Within 0x40 wm) :
    Keeps wm s0 (State.battAnchorLog s b kind before) := by
  unfold State.battAnchorLog
  repeat' first
    | (with_reducible first | assumption | exact hw | exact hw.mono (by decide)) | intro _
    | fail_if_no_progress extract_lets +onlyGivenNames x | with_reducible apply State.log_keeps

theorem State.battEstimate_keeps {wm : Nat} {s0 s : State} (b : Fin 8) (h : Keeps wm s0 s) (hw : Within 0x40040 wm) :
    Keeps wm s0 (State.battEstimate s b) := by
  unfold State.battEstimate
  repeat' first
    | (with_reducible first | assumption | exact hw | exact hw.mono (by decide)) | intro _
    | ((fail_if_no_progress extract_lets +onlyGivenNames x); refine Keeps.cut (w := wm) (s := s0) (v := x) ?_ ?_)
    | ((fail_if_no_progress extract_lets +onlyGivenNames x); clear_value x) | fail_if_no_progress extract_lets +onlyGivenNames x
    | (with_reducible first | apply State.battAnchorLog_keeps | apply State.battCancel_keeps | apply State.modBatt_keeps)

theorem State.battLearned_keeps {wm : Nat} {s0 s : State} (b : Fin 8) (r : Learned) (h : Keeps wm s0 s) (hw : Within 0x40000 wm) :
    Keeps wm s0 (State.battLearned s b r) := by
  unfold State.battLearned
  repeat' first
    | (with_reducible first | assumption | exact hw | exact hw.mono (by decide)) | intro _
    | fail_if_no_progress extract_lets +onlyGivenNames x | with_reducible apply State.modBatt_keeps

theorem State.battLearn_keeps {wm : Nat} {s0 s : State} (b : Fin 8) (h : Keeps wm s0 s) (hw : Within 0x802040040 wm) :
    Keeps wm s0 (State.battLearn s b) := by
  unfold State.battLearn
  repeat' first
    | (with_reducible first | assumption | exact hw | exact hw.mono (by decide)) | intro _
    | ((fail_if_no_progress extract_lets +onlyGivenNames x); refine Keeps.cut (w := wm) (s := s0) (v := x) ?_ ?_)
    | ((fail_if_no_progress extract_lets +onlyGivenNames x); clear_value x) | fail_if_no_progress extract_lets +onlyGivenNames x
    | (with_reducible first | apply State.battLearned_keeps | apply State.log_keeps | apply State.modBatt_keeps)
    | (with_reducible first | apply State.modBf_keeps | apply State.noticeAll_keeps | apply Keeps.ite)

theorem State.battCut_keeps {wm : Nat} {s0 s : State} (b : Fin 8) (cause : Nat) (h : Keeps wm s0 s) (hw : Within 0x40040 wm) :
    Keeps wm s0 (State.battCut s b cause) := by
  unfold State.battCut
  repeat' first
    | (with_reducible first | assumption | exact hw | exact hw.mono (by decide)) | intro _
    | fail_if_no_progress extract_lets +onlyGivenNames x
    | (with_reducible first | apply State.log_keeps | apply State.modBatt_keeps | apply Keeps.ite)

theorem State.battUncut_keeps {wm : Nat} {s0 s : State} (b : Fin 8) (cause : Nat) (h : Keeps wm s0 s) (hw : Within 0x40040 wm) :
    Keeps wm s0 (State.battUncut s b cause) := by
  unfold State.battUncut
  repeat' first
    | (with_reducible first | assumption | exact hw | exact hw.mono (by decide)) | intro _
    | fail_if_no_progress extract_lets +onlyGivenNames x
    | (with_reducible first | apply State.log_keeps | apply State.modBatt_keeps | apply Keeps.ite)

theorem State.battEmpty_keeps {wm : Nat} {s0 s : State} (b : Fin 8) (h : Keeps wm s0 s) (hw : Within 0x802040040 wm) :
    Keeps wm s0 (State.battEmpty s b) := by
  unfold State.battEmpty
  repeat' first
    | (with_reducible first | assumption | exact hw | exact hw.mono (by decide)) | intro _
    | ((fail_if_no_progress extract_lets +onlyGivenNames x); refine Keeps.cut (w := wm) (s := s0) (v := x) ?_ ?_)
    | ((fail_if_no_progress extract_lets +onlyGivenNames x); clear_value x) | fail_if_no_progress extract_lets +onlyGivenNames x
    | (with_reducible first | apply State.battAnchorLog_keeps | apply State.battCut_keeps | apply State.battLearn_keeps)
    | (with_reducible first | apply State.modBatt_keeps | apply Keeps.ite)

theorem State.battStart_keeps {wm : Nat} {s0 s : State} (b : Fin 8) (h : Keeps wm s0 s) (hw : Within 0x40000 wm) :
    Keeps wm s0 (State.battStart s b) := by
  unfold State.battStart
  repeat' first
    | (with_reducible first | assumption | exact hw | exact hw.mono (by decide)) | intro _
    | fail_if_no_progress extract_lets +onlyGivenNames x | with_reducible apply State.modBatt_keeps

theorem State.battLose_keeps {wm : Nat} {s0 s : State} (h : Keeps wm s0 s) (hw : Within 0x40040 wm) :
    Keeps wm s0 (State.battLose s) := by
  unfold State.battLose
  repeat' first
    | (with_reducible first | assumption | exact hw | exact hw.mono (by decide)) | intro _
    | ((fail_if_no_progress extract_lets +onlyGivenNames x); clear_value x) | fail_if_no_progress extract_lets +onlyGivenNames x
    | (with_reducible first | apply State.battCancel_keeps | apply State.modBatt_keeps | apply Keeps.ite | apply Keeps.foldl)

theorem State.battTimers_keeps {wm : Nat} {s0 s : State} (b : Fin 8) (h : Keeps wm s0 s) (hw : Within 0x40000 wm) :
    Keeps wm s0 (State.battTimers s b) := by
  unfold State.battTimers
  repeat' first
    | (with_reducible first | assumption | exact hw | exact hw.mono (by decide)) | intro _
    | ((fail_if_no_progress extract_lets +onlyGivenNames x); clear_value x) | fail_if_no_progress extract_lets +onlyGivenNames x
    | with_reducible apply State.modBatt_keeps

theorem State.ctlDone_keeps {wm : Nat} {s0 s : State} (k : Fin 8) (permits : List Nat) (st : Nat) (h : Keeps wm s0 s) (hw : Within 0x2000000 wm) :
    Keeps wm s0 (State.ctlDone s k permits st) := by
  unfold State.ctlDone
  repeat' first
    | (with_reducible first | assumption | exact hw | exact hw.mono (by decide)) | intro _
    | fail_if_no_progress extract_lets +onlyGivenNames x
    | (with_reducible first | apply State.modHost_keeps | apply State.useRenew_keeps | apply Keeps.ite)

theorem State.control_keeps {wm : Nat} {s0 s : State} (k : Fin 8) (permits : List Nat) (f : State → State × Nat) (h : Keeps wm s0 s) (hw : Within 0x2000000 wm) (hf : ∀ u, Keeps wm s0 u → Keeps wm s0 (f u).1) :
    Keeps wm s0 (State.control s k permits f) := by
  unfold State.control
  repeat' first
    | (with_reducible first | assumption | exact hw | exact hw.mono (by decide)) | intro _
    | fail_if_no_progress extract_lets +onlyGivenNames x
    | (with_reducible first | apply State.ctlDone_keeps | apply State.modHost_keeps | apply hf | apply Keeps.ite)

theorem State.battCount_keeps {wm : Nat} {s0 s : State} (b : Fin 8) (ch : Int) (h : Keeps wm s0 s) (hw : Within 0x40000 wm) :
    Keeps wm s0 (State.battCount s b ch) := by
  unfold State.battCount
  repeat' first
    | (with_reducible first | assumption | exact hw | exact hw.mono (by decide)) | intro _
    | ((fail_if_no_progress extract_lets +onlyGivenNames x); clear_value x) | fail_if_no_progress extract_lets +onlyGivenNames x
    | with_reducible apply State.modBatt_keeps

theorem State.battFlags_keeps {wm : Nat} {s0 s : State} (b : Fin 8) (h : Keeps wm s0 s) (hw : Within 0x40040 wm) :
    Keeps wm s0 (State.battFlags s b) := by
  unfold State.battFlags
  repeat' first
    | (with_reducible first | assumption | exact hw | exact hw.mono (by decide)) | intro _
    | ((fail_if_no_progress extract_lets +onlyGivenNames x); refine Keeps.cut (w := wm) (s := s0) (v := x) ?_ ?_)
    | ((fail_if_no_progress extract_lets +onlyGivenNames x); clear_value x) | fail_if_no_progress extract_lets +onlyGivenNames x
    | (with_reducible first | apply State.battUncut_keeps | apply State.modBatt_keeps | apply Keeps.ite)

theorem State.battZero_keeps {wm : Nat} {s0 s : State} (b : Fin 8) (ch : Int) (q0 : Int) (h : Keeps wm s0 s) (hw : Within 0x806040040 wm) :
    Keeps wm s0 (State.battZero s b ch q0) := by
  unfold State.battZero
  repeat' first
    | (with_reducible first | assumption | exact hw | exact hw.mono (by decide)) | intro _
    | ((fail_if_no_progress extract_lets +onlyGivenNames x); clear_value x) | fail_if_no_progress extract_lets +onlyGivenNames x
    | (with_reducible first | apply State.battCancel_keeps | apply State.battEmpty_keeps | apply State.disagree_keeps)
    | (with_reducible first | apply State.log_keeps | apply State.modBatt_keeps | apply Keeps.ite)

theorem State.battLearnCheck_keeps {wm : Nat} {s0 s : State} (b : Fin 8) (h : Keeps wm s0 s) (hw : Within 0x40040 wm) :
    Keeps wm s0 (State.battLearnCheck s b) := by
  unfold State.battLearnCheck
  repeat' first
    | (with_reducible first | assumption | exact hw | exact hw.mono (by decide)) | intro _
    | ((fail_if_no_progress extract_lets +onlyGivenNames x); clear_value x) | fail_if_no_progress extract_lets +onlyGivenNames x
    | (with_reducible first | apply State.battCancel_keeps | apply Keeps.ite)

theorem State.battPresence_keeps {wm : Nat} {s0 s : State} (b : Fin 8) (h : Keeps wm s0 s) (hw : Within 0x40040 wm) :
    Keeps wm s0 (State.battPresence s b) := by
  unfold State.battPresence
  repeat' first
    | (with_reducible first | assumption | exact hw | exact hw.mono (by decide)) | intro _
    | ((fail_if_no_progress extract_lets +onlyGivenNames x); refine Keeps.cut (w := wm) (s := s0) (v := x) ?_ ?_)
    | ((fail_if_no_progress extract_lets +onlyGivenNames x); clear_value x) | fail_if_no_progress extract_lets +onlyGivenNames x
    | (with_reducible first | apply State.battEstimate_keeps | apply State.log_keeps | apply State.modBatt_keeps)
    | with_reducible apply Keeps.ite

theorem State.battSample_keeps {wm : Nat} {s0 s : State} (b : Fin 8) (ch : Int) (h : Keeps wm s0 s) (hw : Within 0x806040040 wm) :
    Keeps wm s0 (State.battSample s b ch) := by
  unfold State.battSample
  repeat' first
    | (with_reducible first | assumption | exact hw | exact hw.mono (by decide)) | intro _
    | ((fail_if_no_progress extract_lets +onlyGivenNames x); refine Keeps.cut (w := wm) (s := s0) (v := x) ?_ ?_)
    | ((fail_if_no_progress extract_lets +onlyGivenNames x); clear_value x) | fail_if_no_progress extract_lets +onlyGivenNames x
    | (with_reducible first | apply State.battCount_keeps | apply State.battFlags_keeps | apply State.battLearnCheck_keeps)
    | (with_reducible first | apply State.battZero_keeps | apply State.modBatt_keeps)

theorem execBattCountSample_answers (b : Fin 8) {wm : Nat} (s : State) (hw : Within 0x806040050 wm) :
    Answers wm s (execBattCountSample b s) := by
  unfold execBattCountSample
  repeat' first
    | (with_reducible first | assumption | exact Keeps.refl _ _ | exact hw | exact hw.mono (by decide)) | intro _
    | ((fail_if_no_progress extract_lets +onlyGivenNames x); refine Keeps.cut (w := wm) (s := s) (v := x) ?_ ?_)
    | ((fail_if_no_progress extract_lets +onlyGivenNames x); clear_value x) | fail_if_no_progress extract_lets +onlyGivenNames x
    | (with_reducible first | apply Answers.next | apply Answers.ite | apply State.battMeasure_keeps)
    | (with_reducible first | apply State.battPresence_keeps | apply State.battSample_keeps | apply State.battStart_keeps)
    | (with_reducible first | apply State.battTimers_keeps | apply State.modBatt_keeps | apply State.stamp_keeps)
    | with_reducible apply Keeps.ite

theorem execBattRestAnchor_answers (b : Fin 8) {wm : Nat} (s : State) (hw : Within 0x4040040 wm) :
    Answers wm s (execBattRestAnchor b s) := by
  unfold execBattRestAnchor
  repeat' first
    | (with_reducible first | assumption | exact Keeps.refl _ _ | exact hw | exact hw.mono (by decide)) | intro _
    | ((fail_if_no_progress extract_lets +onlyGivenNames x); refine Keeps.cut (w := wm) (s := s) (v := x) ?_ ?_)
    | ((fail_if_no_progress extract_lets +onlyGivenNames x); clear_value x) | fail_if_no_progress extract_lets +onlyGivenNames x
    | (with_reducible first | apply Answers.next | apply Answers.ite | apply State.battAnchorLog_keeps)
    | (with_reducible first | apply State.disagree_keeps | apply State.modBatt_keeps | apply State.modBf_keeps)
    | with_reducible apply Keeps.ite

theorem execBattFullAnchor_answers (b : Fin 8) {wm : Nat} (s : State) (hw : Within 0x4040040 wm) :
    Answers wm s (execBattFullAnchor b s) := by
  unfold execBattFullAnchor
  repeat' first
    | (with_reducible first | assumption | exact Keeps.refl _ _ | exact hw | exact hw.mono (by decide)) | intro _
    | ((fail_if_no_progress extract_lets +onlyGivenNames x); refine Keeps.cut (w := wm) (s := s) (v := x) ?_ ?_)
    | ((fail_if_no_progress extract_lets +onlyGivenNames x); clear_value x) | fail_if_no_progress extract_lets +onlyGivenNames x
    | (with_reducible first | apply Answers.next | apply Answers.ite | apply State.battAnchorLog_keeps)
    | (with_reducible first | apply State.disagree_keeps | apply State.log_keeps | apply State.modBatt_keeps | apply Keeps.ite)

theorem execBattVoltageEmpty_answers (b : Fin 8) {wm : Nat} (s : State) (hw : Within 0x802040040 wm) :
    Answers wm s (execBattVoltageEmpty b s) := by
  unfold execBattVoltageEmpty
  repeat' first
    | (with_reducible first | assumption | exact Keeps.refl _ _ | exact hw | exact hw.mono (by decide)) | intro _
    | fail_if_no_progress extract_lets +onlyGivenNames x
    | (with_reducible first | apply Answers.next | apply Answers.ite | apply State.battEmpty_keeps | apply Keeps.ite)

theorem execBattCutoff_answers (b : Fin 8) {wm : Nat} (s : State) (hw : Within 0x40040 wm) :
    Answers wm s (execBattCutoff b s) := by
  unfold execBattCutoff
  repeat' first
    | (with_reducible first | assumption | exact Keeps.refl _ _ | exact hw | exact hw.mono (by decide)) | intro _
    | fail_if_no_progress extract_lets +onlyGivenNames x
    | (with_reducible first | apply Answers.next | apply Answers.ite | apply State.battCut_keeps | apply Keeps.ite)

theorem execBattAbsent_answers (b : Fin 8) {wm : Nat} (s : State) (hw : Within 0x40040 wm) :
    Answers wm s (execBattAbsent b s) := by
  unfold execBattAbsent
  repeat' first
    | (with_reducible first | assumption | exact Keeps.refl _ _ | exact hw | exact hw.mono (by decide)) | intro _
    | fail_if_no_progress extract_lets +onlyGivenNames x
    | (with_reducible first | apply Answers.next | apply Answers.ite | apply State.log_keeps | apply State.modBatt_keeps)
    | with_reducible apply Keeps.ite

theorem State.battClearCutoff_keeps {wm : Nat} {s0 s : State} (b : Fin 8) (h : Keeps wm s0 s) (hw : Within 0x40040 wm) :
    Keeps wm s0 (State.battClearCutoff s b).1 := by
  unfold State.battClearCutoff
  repeat' first
    | (with_reducible first | assumption | exact hw | exact hw.mono (by decide)) | intro _
    | fail_if_no_progress extract_lets +onlyGivenNames x | with_reducible apply State.battUncut_keeps

theorem State.battCancelLearn_keeps {wm : Nat} {s0 s : State} (b : Fin 8) (h : Keeps wm s0 s) (hw : Within 0x40040 wm) :
    Keeps wm s0 (State.battCancelLearn s b).1 := by
  unfold State.battCancelLearn
  repeat' first
    | (with_reducible first | assumption | exact hw | exact hw.mono (by decide)) | intro _
    | fail_if_no_progress extract_lets +onlyGivenNames x | with_reducible apply State.battCancel_keeps

theorem State.battReestimate_keeps {wm : Nat} {s0 s : State} (b : Fin 8) (h : Keeps wm s0 s) (hw : Within 0x40040 wm) :
    Keeps wm s0 (State.battReestimate s b).1 := by
  unfold State.battReestimate
  repeat' first
    | (with_reducible first | assumption | exact hw | exact hw.mono (by decide)) | intro _
    | fail_if_no_progress extract_lets +onlyGivenNames x | with_reducible apply State.battEstimate_keeps

theorem execBattCtrlClearCutoff_answers (b : Fin 8) (sess : Fin 8) {wm : Nat} (s : State) (hw : Within 0x2040040 wm) :
    Answers wm s (execBattCtrlClearCutoff b sess s) := by
  unfold execBattCtrlClearCutoff
  repeat' first
    | (with_reducible first | assumption | exact Keeps.refl _ _ | exact hw | exact hw.mono (by decide)) | intro _
    | fail_if_no_progress extract_lets +onlyGivenNames x
    | (with_reducible first | apply Answers.next | apply Answers.ite | apply State.battClearCutoff_keeps)
    | with_reducible apply State.control_keeps

theorem execBattCtrlCancelLearn_answers (b : Fin 8) (sess : Fin 8) {wm : Nat} (s : State) (hw : Within 0x2040040 wm) :
    Answers wm s (execBattCtrlCancelLearn b sess s) := by
  unfold execBattCtrlCancelLearn
  repeat' first
    | (with_reducible first | assumption | exact Keeps.refl _ _ | exact hw | exact hw.mono (by decide)) | intro _
    | fail_if_no_progress extract_lets +onlyGivenNames x
    | (with_reducible first | apply Answers.next | apply Answers.ite | apply State.battCancelLearn_keeps)
    | with_reducible apply State.control_keeps

theorem execBattCtrlReestimate_answers (b : Fin 8) (sess : Fin 8) {wm : Nat} (s : State) (hw : Within 0x2040040 wm) :
    Answers wm s (execBattCtrlReestimate b sess s) := by
  unfold execBattCtrlReestimate
  repeat' first
    | (with_reducible first | assumption | exact Keeps.refl _ _ | exact hw | exact hw.mono (by decide)) | intro _
    | fail_if_no_progress extract_lets +onlyGivenNames x
    | (with_reducible first | apply Answers.next | apply Answers.ite | apply State.battReestimate_keeps)
    | with_reducible apply State.control_keeps

theorem State.store_keeps {wm : Nat} {s0 s : State} (a : Nat) (bs : List Byte) (h : Keeps wm s0 s) (hw : Within 0x400000 wm) :
    Keeps wm s0 (State.store s a bs) := by
  exact ⟨h.queue, h.tick, fun g => Memory.put_wf bs a (h.store g), h.rollback, h.drive, fun p hp => sameTrans (h.frame p hp) (by
    cases p <;> first | exact hw.no rfl hp | exact rfl)⟩

theorem State.setCode_keeps {wm : Nat} {s0 s : State} (c : Nat) (x : CodeSt) (h : Keeps wm s0 s) (hw : Within 0x800000 wm) :
    Keeps wm s0 (State.setCode s c x) := by
  unfold State.setCode
  repeat' first
    | (with_reducible first | assumption | exact hw | exact hw.mono (by decide)) | intro _
    | fail_if_no_progress extract_lets +onlyGivenNames x | with_reducible apply State.modSilt_keeps

theorem State.recordMade_keeps {wm : Nat} {s0 s : State} (code : Nat) (src : Nat) (r : Nat) (h : Keeps wm s0 s) (hw : Within 0x163b00c0 wm) :
    Keeps wm s0 (State.recordMade s code src r) := by
  unfold State.recordMade
  repeat' first
    | (with_reducible first | assumption | exact hw | exact hw.mono (by decide)) | exact fun _ h => h | exact fun _ h => armed_not_safe h
    | exact fun _ h => run_not_safe h | intro _
    | ((fail_if_no_progress extract_lets +onlyGivenNames x); refine Keeps.cut (w := wm) (s := s0) (v := x) ?_ ?_)
    | ((fail_if_no_progress extract_lets +onlyGivenNames x); clear_value x) | fail_if_no_progress extract_lets +onlyGivenNames x
    | (with_reducible first | apply State.modCnt_keeps | apply State.modDie_keeps | apply State.modHost_keeps)
    | (with_reducible first | apply State.modNode_keeps | apply State.modPool_keeps | apply Keeps.ite) | dsimp -zeta only [x] | split
    | dsimp -zeta only
    | (fail_if_no_progress ((with_reducible apply Keeps.upd); on_goal 2 => exact fun p hp => by cases p <;> first | with_reducible exact rfl | exact hw.no rfl hp))

theorem State.newRecord_keeps {wm : Nat} {s0 s : State} (e : LogEv) (always : Bool) (deficit : Nat) (h : Keeps wm s0 s) (hw : Within 0x16bb00c0 wm) :
    Keeps wm s0 (State.newRecord s e always deficit) := by
  unfold State.newRecord
  repeat' first
    | (with_reducible first | assumption | exact hw | exact hw.mono (by decide)) | intro _
    | ((fail_if_no_progress extract_lets +onlyGivenNames x); refine Keeps.cut (w := wm) (s := s0) (v := x) ?_ ?_)
    | ((fail_if_no_progress extract_lets +onlyGivenNames x); clear_value x) | fail_if_no_progress extract_lets +onlyGivenNames x
    | (with_reducible first | apply State.modSilt_keeps | apply State.recordMade_keeps | apply State.setCode_keeps)

theorem State.tallyEvent_keeps {wm : Nat} {s0 s : State} (e : LogEv) (q : Nat) (h : Keeps wm s0 s) (hw : Within 0x800000 wm) :
    Keeps wm s0 (State.tallyEvent s e q) := by
  unfold State.tallyEvent
  repeat' first
    | (with_reducible first | assumption | exact hw | exact hw.mono (by decide)) | intro _
    | ((fail_if_no_progress extract_lets +onlyGivenNames x); refine Keeps.cut (w := wm) (s := s0) (v := x) ?_ ?_)
    | ((fail_if_no_progress extract_lets +onlyGivenNames x); clear_value x) | fail_if_no_progress extract_lets +onlyGivenNames x
    | (with_reducible first | apply State.modSilt_keeps | apply State.setCode_keeps | apply Keeps.ite)

theorem State.siltDecide_keeps {wm : Nat} {s0 s : State} (e : LogEv) (h : Keeps wm s0 s) (hw : Within 0x16bb00c0 wm) :
    Keeps wm s0 (State.siltDecide s e) := by
  unfold State.siltDecide
  repeat' first
    | (with_reducible first | assumption | exact hw | exact hw.mono (by decide)) | intro _
    | ((fail_if_no_progress extract_lets +onlyGivenNames x); clear_value x) | fail_if_no_progress extract_lets +onlyGivenNames x
    | (with_reducible first | apply State.newRecord_keeps | apply State.setCode_keeps | apply State.tallyEvent_keeps)
    | with_reducible apply Keeps.ite | dsimp -zeta only [x] | split

theorem State.headRecord_keeps {wm : Nat} {s0 s : State} (r : SRec) (h : Keeps wm s0 s) (hw : Within 0x1800000 wm) :
    Keeps wm s0 (State.headRecord s r) := by
  unfold State.headRecord
  repeat' first
    | (with_reducible first | assumption | exact hw | exact hw.mono (by decide)) | intro _
    | ((fail_if_no_progress extract_lets +onlyGivenNames x); refine Keeps.cut (w := wm) (s := s0) (v := x) ?_ ?_)
    | ((fail_if_no_progress extract_lets +onlyGivenNames x); clear_value x) | fail_if_no_progress extract_lets +onlyGivenNames x
    | (with_reducible first | apply State.modSilt_keeps | apply Keeps.ite) | dsimp -zeta only [x]
    | (fail_if_no_progress ((with_reducible apply Keeps.upd); on_goal 2 => exact fun p hp => by cases p <;> first | with_reducible exact rfl | exact hw.no rfl hp))

theorem State.ledgerWrite_keeps {wm : Nat} {s0 s : State} (h : Keeps wm s0 s) (hw : Within 0xc00000 wm) :
    Keeps wm s0 (State.ledgerWrite s) := by
  unfold State.ledgerWrite
  repeat' first
    | (with_reducible first | assumption | exact hw | exact hw.mono (by decide)) | intro _
    | ((fail_if_no_progress extract_lets +onlyGivenNames x); clear_value x) | fail_if_no_progress extract_lets +onlyGivenNames x
    | (with_reducible first | apply State.modSilt_keeps | apply State.store_keeps)

theorem State.modSpate_keeps {wm : Nat} {s0 s : State} (f : Spate → Spate) (h : Keeps wm s0 s) (hw : Within 0x1000000 wm) :
    Keeps wm s0 (State.modSpate s f) := by
  unfold State.modSpate
  repeat' first
    | (with_reducible first | assumption | exact hw | exact hw.mono (by decide)) | intro _
    | fail_if_no_progress extract_lets +onlyGivenNames x | with_reducible apply Keeps.ite | dsimp -zeta only [x]
    | (fail_if_no_progress ((with_reducible apply Keeps.upd); on_goal 2 => exact fun p hp => by cases p <;> first | with_reducible exact rfl | exact hw.no rfl hp))

theorem State.modBuf_keeps {wm : Nat} {s0 s : State} (b : Fin 2) (f : SpBuf → SpBuf) (h : Keeps wm s0 s) (hw : Within 0x1000000 wm) :
    Keeps wm s0 (State.modBuf s b f) := by
  unfold State.modBuf
  repeat' first
    | (with_reducible first | assumption | exact hw | exact hw.mono (by decide)) | intro _
    | fail_if_no_progress extract_lets +onlyGivenNames x | with_reducible apply State.modSpate_keeps

theorem State.spateRun_keeps {wm : Nat} {s0 s : State} (h : Keeps wm s0 s) (hw : Within 0x1000000 wm) :
    Keeps wm s0 (State.spateRun s) := by
  unfold State.spateRun
  repeat' first
    | (with_reducible first | assumption | exact hw | exact hw.mono (by decide)) | intro _
    | ((fail_if_no_progress extract_lets +onlyGivenNames x); clear_value x) | fail_if_no_progress extract_lets +onlyGivenNames x
    | (with_reducible first | apply State.modBuf_keeps | apply Keeps.ite) | dsimp -zeta only [x] | split

theorem State.spateApply_keeps {wm : Nat} {s0 s : State} (h : Keeps wm s0 s) (hw : Within 0x1000000 wm) :
    Keeps wm s0 (State.spateApply s) := by
  unfold State.spateApply
  repeat' first
    | (with_reducible first | assumption | exact hw | exact hw.mono (by decide)) | intro _
    | fail_if_no_progress extract_lets +onlyGivenNames x
    | (with_reducible first | apply State.modBuf_keeps | apply State.spateRun_keeps | apply Keeps.ite | apply Keeps.foldl)

end Sys2Proof.Machine
end

