-- ==== Sys2Proof/Laws/KeepsC.lean ====
section
/-! SUPPORT. What the operations keep (see Keeps.lean), one lemma each: those of Spate.lean, Share.lean, FeedOps.lean, WeirOps.lean, Weir.lean, TimerOps.lean, Hold.lean, ResetOps.lean. -/

set_option linter.tactic.unusedName false
set_option linter.unreachableTactic false
set_option linter.unusedTactic false

namespace Sys2Proof.Machine

theorem execSpateFrame_answers {wm : Nat} (s : State) (hw : Within 0x1000000 wm) :
    Answers wm s (execSpateFrame s) := by
  unfold execSpateFrame
  repeat' first
    | (with_reducible first | assumption | exact Keeps.refl _ _ | exact hw | exact hw.mono (by decide)) | intro _
    | ((fail_if_no_progress extract_lets +onlyGivenNames x); clear_value x) | fail_if_no_progress extract_lets +onlyGivenNames x
    | (with_reducible first | apply Answers.next | apply Answers.ite | apply State.modBuf_keeps | apply Keeps.ite) | dsimp -zeta only [x]
    | split

theorem State.spateTake_keeps {wm : Nat} {s0 s : State} (t : SpTrig) (h : Keeps wm s0 s) (hw : Within 0x1000040 wm) :
    Keeps wm s0 (State.spateTake s t) := by
  unfold State.spateTake
  repeat' first
    | (with_reducible first | assumption | exact hw | exact hw.mono (by decide)) | intro _
    | ((fail_if_no_progress extract_lets +onlyGivenNames x); clear_value x) | fail_if_no_progress extract_lets +onlyGivenNames x
    | (with_reducible first | apply State.log_keeps | apply State.modBuf_keeps | apply State.modSpate_keeps | apply Keeps.ite)
    | dsimp -zeta only [x] | split

theorem execSpateTrigger_answers {wm : Nat} (s : State) (hw : Within 0x1000040 wm) :
    Answers wm s (execSpateTrigger s) := by
  unfold execSpateTrigger
  repeat' first
    | (with_reducible first | assumption | exact Keeps.refl _ _ | exact hw | exact hw.mono (by decide)) | intro _
    | ((fail_if_no_progress extract_lets +onlyGivenNames x); refine Keeps.cut (w := wm) (s := s) (v := x) ?_ ?_)
    | ((fail_if_no_progress extract_lets +onlyGivenNames x); clear_value x) | fail_if_no_progress extract_lets +onlyGivenNames x
    | (with_reducible first | apply Answers.next | apply Answers.ite | apply State.modSpate_keeps)
    | (with_reducible first | apply State.spateTake_keeps | apply Keeps.ite | apply Keeps.foldl | apply Keeps.foldlSnd)
    | with_reducible apply Keeps.foldlFst | dsimp -zeta only [x] | split

theorem execSpateFreeze_answers {wm : Nat} (s : State) (hw : Within 0x1000040 wm) :
    Answers wm s (execSpateFreeze s) := by
  unfold execSpateFreeze
  repeat' first
    | (with_reducible first | assumption | exact Keeps.refl _ _ | exact hw | exact hw.mono (by decide)) | intro _
    | ((fail_if_no_progress extract_lets +onlyGivenNames x); clear_value x) | fail_if_no_progress extract_lets +onlyGivenNames x
    | (with_reducible first | apply Answers.next | apply Answers.ite | apply State.log_keeps | apply State.modBuf_keeps)
    | (with_reducible first | apply State.modSpate_keeps | apply State.spateRun_keeps | apply Keeps.ite) | dsimp -zeta only [x] | split

theorem State.spateSaved_keeps {wm : Nat} {s0 s : State} (b : Fin 2) (k : Fin 48) (h : Keeps wm s0 s) (hw : Within 0x17bb00c0 wm) :
    Keeps wm s0 (State.spateSaved s b k) := by
  unfold State.spateSaved
  repeat' first
    | (with_reducible first | assumption | exact hw | exact hw.mono (by decide)) | intro _
    | ((fail_if_no_progress extract_lets +onlyGivenNames x); refine Keeps.cut (w := wm) (s := s0) (v := x) ?_ ?_)
    | ((fail_if_no_progress extract_lets +onlyGivenNames x); clear_value x) | fail_if_no_progress extract_lets +onlyGivenNames x
    | (with_reducible first | apply State.modBuf_keeps | apply State.siltDecide_keeps)

theorem execSpateBlockCopy_answers {wm : Nat} (s : State) (hw : Within 0x17fb00c4 wm) :
    Answers wm s (execSpateBlockCopy s) := by
  unfold execSpateBlockCopy
  repeat' first
    | (with_reducible first | assumption | exact Keeps.refl _ _ | exact hw | exact hw.mono (by decide)) | intro _
    | ((fail_if_no_progress extract_lets +onlyGivenNames x); refine Keeps.cut (w := wm) (s := s) (v := x) ?_ ?_)
    | ((fail_if_no_progress extract_lets +onlyGivenNames x); have _ : _ → State := x)
    | ((fail_if_no_progress extract_lets +onlyGivenNames x); clear_value x) | fail_if_no_progress extract_lets +onlyGivenNames x
    | (with_reducible first | apply Answers.next | apply Answers.ite | apply State.modBuf_keeps | apply State.modSilt_keeps)
    | (with_reducible first | apply State.modSpate_keeps | apply State.sluiceStall_keeps | apply State.sluiceUse_keeps)
    | (with_reducible first | apply State.spateRun_keeps | apply State.spateSaved_keeps | apply State.store_keeps)
    | with_reducible apply Keeps.ite | dsimp -zeta only [x] | split

theorem execSpateCtrlTrigger_answers (k : Fin 8) {wm : Nat} (s : State) (hw : Within 0x3000000 wm) :
    Answers wm s (execSpateCtrlTrigger k s) := by
  unfold execSpateCtrlTrigger
  repeat' first
    | (with_reducible first | assumption | exact Keeps.refl _ _ | exact hw | exact hw.mono (by decide)) | intro _
    | fail_if_no_progress extract_lets +onlyGivenNames x
    | (with_reducible first | apply Answers.next | apply Answers.ite | apply State.control_keeps | apply State.spateReq_keeps)

theorem State.slotLock_keeps {wm : Nat} {s0 s : State} (k : Fin 8) (n : Fin 48) (on : Bool) (h : Keeps wm s0 s) (hw : Within 0x400040 wm) :
    Keeps wm s0 (State.slotLock s k n on) := by
  unfold State.slotLock
  repeat' first
    | (with_reducible first | assumption | exact hw | exact hw.mono (by decide)) | intro _
    | fail_if_no_progress extract_lets +onlyGivenNames x | (with_reducible first | apply State.log_keeps | apply State.store_keeps)

theorem execSpateCtrlLock_answers (n : Fin 48) (k : Fin 8) {wm : Nat} (s : State) (hw : Within 0x2400040 wm) :
    Answers wm s (execSpateCtrlLock n k s) := by
  unfold execSpateCtrlLock
  repeat' first
    | (with_reducible first | assumption | exact Keeps.refl _ _ | exact hw | exact hw.mono (by decide)) | intro _
    | fail_if_no_progress extract_lets +onlyGivenNames x
    | (with_reducible first | apply Answers.next | apply Answers.ite | apply State.control_keeps | apply State.slotLock_keeps)

theorem execSpateCtrlUnlock_answers (n : Fin 48) (k : Fin 8) {wm : Nat} (s : State) (hw : Within 0x2400040 wm) :
    Answers wm s (execSpateCtrlUnlock n k s) := by
  unfold execSpateCtrlUnlock
  repeat' first
    | (with_reducible first | assumption | exact Keeps.refl _ _ | exact hw | exact hw.mono (by decide)) | intro _
    | fail_if_no_progress extract_lets +onlyGivenNames x
    | (with_reducible first | apply Answers.next | apply Answers.ite | apply State.control_keeps | apply State.slotLock_keeps)

theorem State.spateStart_keeps {wm : Nat} {s0 s : State} (h : Keeps wm s0 s) (hw : Within 0x1400040 wm) :
    Keeps wm s0 (State.spateStart s) := by
  unfold State.spateStart
  repeat' first
    | (with_reducible first | assumption | exact hw | exact hw.mono (by decide)) | intro _
    | fail_if_no_progress extract_lets +onlyGivenNames x
    | (with_reducible first | apply State.log_keeps | apply State.modSpate_keeps | apply State.store_keeps | apply Keeps.ite)
    | with_reducible apply Keeps.foldl

theorem State.mbrStep_keeps {wm : Nat} {s0 s : State} (m : Fin 64) (h : Keeps wm s0 s) (hw : Within 0x104040 wm) :
    Keeps wm s0 (State.mbrStep s m) := by
  unfold State.mbrStep
  repeat' first
    | (with_reducible first | assumption | exact hw | exact hw.mono (by decide)) | intro _
    | ((fail_if_no_progress extract_lets +onlyGivenNames x); refine Keeps.cut (w := wm) (s := s0) (v := x) ?_ ?_)
    | ((fail_if_no_progress extract_lets +onlyGivenNames x); clear_value x) | fail_if_no_progress extract_lets +onlyGivenNames x
    | (with_reducible first | apply State.mbrTo_keeps | apply State.modMbr_keeps | apply State.outScan_keeps | apply Keeps.ite)
    | dsimp -zeta only [x] | split

theorem State.setTrim_keeps {wm : Nat} {s0 s : State} (m : Fin 64) (v : Int) (h : Keeps wm s0 s) (hw : Within 0x4040 wm) :
    Keeps wm s0 (State.setTrim s m v) := by
  unfold State.setTrim
  repeat' first
    | (with_reducible first | assumption | exact hw | exact hw.mono (by decide)) | intro _
    | ((fail_if_no_progress extract_lets +onlyGivenNames x); refine Keeps.cut (w := wm) (s := s0) (v := x) ?_ ?_)
    | ((fail_if_no_progress extract_lets +onlyGivenNames x); clear_value x) | fail_if_no_progress extract_lets +onlyGivenNames x
    | (with_reducible first | apply State.log_keeps | apply State.modMbr_keeps | apply Keeps.ite)

theorem State.groupTrim_keeps {wm : Nat} {s0 s : State} (g : Fin 4) (h : Keeps wm s0 s) (hw : Within 0x4040 wm) :
    Keeps wm s0 (State.groupTrim s g) := by
  unfold State.groupTrim
  repeat' first
    | (with_reducible first | assumption | exact hw | exact hw.mono (by decide)) | intro _
    | ((fail_if_no_progress extract_lets +onlyGivenNames x); refine Keeps.cut (w := wm) (s := s0) (v := x) ?_ ?_)
    | ((fail_if_no_progress extract_lets +onlyGivenNames x); clear_value x) | fail_if_no_progress extract_lets +onlyGivenNames x
    | (with_reducible first | apply State.setTrim_keeps | apply Keeps.ite | apply Keeps.foldl | apply Keeps.foldlSnd)
    | with_reducible apply Keeps.foldlFst | dsimp -zeta only [x]
    | (fail_if_no_progress ((with_reducible apply Keeps.upd); on_goal 2 => exact fun p hp => by cases p <;> first | with_reducible exact rfl | exact hw.no rfl hp))

theorem execShareUpdate_answers {wm : Nat} (s : State) (hw : Within 0x800184040 wm) :
    Answers wm s (execShareUpdate s) := by
  unfold execShareUpdate
  repeat' first
    | (with_reducible first | assumption | exact Keeps.refl _ _ | exact hw | exact hw.mono (by decide)) | intro _
    | ((fail_if_no_progress extract_lets +onlyGivenNames x); refine Keeps.cut (w := wm) (s := s) (v := x) ?_ ?_)
    | ((fail_if_no_progress extract_lets +onlyGivenNames x); clear_value x) | fail_if_no_progress extract_lets +onlyGivenNames x
    | (with_reducible first | apply Answers.next | apply Answers.ite | apply State.groupTrim_keeps | apply State.mbrStep_keeps)
    | (with_reducible first | apply State.sendTrim_keeps | apply Keeps.ite | apply Keeps.foldl)

theorem State.peerAge_keeps {wm : Nat} {s0 s : State} (i : Fin 2) (h : Keeps wm s0 s) (hw : Within 0x4040 wm) :
    Keeps wm s0 (State.peerAge s i) := by
  unfold State.peerAge
  repeat' first
    | (with_reducible first | assumption | exact hw | exact hw.mono (by decide)) | intro _
    | ((fail_if_no_progress extract_lets +onlyGivenNames x); clear_value x) | fail_if_no_progress extract_lets +onlyGivenNames x
    | (with_reducible first | apply State.log_keeps | apply Keeps.ite) | dsimp -zeta only [x] | split | dsimp -zeta only
    | (fail_if_no_progress ((with_reducible apply Keeps.upd); on_goal 2 => exact fun p hp => by cases p <;> first | with_reducible exact rfl | exact hw.no rfl hp))

theorem State.tieStep_keeps {wm : Nat} {s0 s : State} (g : Fin 4) (h : Keeps wm s0 s) (hw : Within 0x4000 wm) :
    Keeps wm s0 (State.tieStep s g) := by
  unfold State.tieStep
  repeat' first
    | (with_reducible first | assumption | exact hw | exact hw.mono (by decide)) | intro _
    | ((fail_if_no_progress extract_lets +onlyGivenNames x); clear_value x) | fail_if_no_progress extract_lets +onlyGivenNames x
    | with_reducible apply Keeps.ite | dsimp -zeta only [x]
    | (fail_if_no_progress ((with_reducible apply Keeps.upd); on_goal 2 => exact fun p hp => by cases p <;> first | with_reducible exact rfl | exact hw.no rfl hp))

theorem execShareTieUpdate_answers {wm : Nat} (s : State) (hw : Within 0x4040 wm) :
    Answers wm s (execShareTieUpdate s) := by
  unfold execShareTieUpdate
  repeat' first
    | (with_reducible first | assumption | exact Keeps.refl _ _ | exact hw | exact hw.mono (by decide)) | intro _
    | fail_if_no_progress extract_lets +onlyGivenNames x
    | (with_reducible first | apply Answers.next | apply Answers.ite | apply State.peerAge_keeps | apply State.tieStep_keeps)
    | (with_reducible first | apply Keeps.ite | apply Keeps.foldl)

theorem State.peerSend_keeps {wm : Nat} {s0 s : State} (i : Fin 2) (typ : Nat) (payload : List Byte) (h : Keeps wm s0 s) (hw : Within 0x900000000 wm) :
    Keeps wm s0 (State.peerSend s i typ payload) := by
  unfold State.peerSend
  repeat' first
    | (with_reducible first | assumption | exact hw | exact hw.mono (by decide)) | intro _
    | ((fail_if_no_progress extract_lets +onlyGivenNames x); clear_value x) | fail_if_no_progress extract_lets +onlyGivenNames x
    | (with_reducible first | apply State.output_keeps | apply Keeps.ite) | dsimp -zeta only [x]
    | (fail_if_no_progress ((with_reducible apply Keeps.upd); on_goal 2 => exact fun p hp => by cases p <;> first | with_reducible exact rfl | exact hw.no rfl hp))

theorem execPeerShareSend_answers {wm : Nat} (s : State) (hw : Within 0x900004000 wm) :
    Answers wm s (execPeerShareSend s) := by
  unfold execPeerShareSend
  repeat' first
    | (with_reducible first | assumption | exact Keeps.refl _ _ | exact hw | exact hw.mono (by decide)) | intro _
    | ((fail_if_no_progress extract_lets +onlyGivenNames x); refine Keeps.cut (w := wm) (s := s) (v := x) ?_ ?_)
    | ((fail_if_no_progress extract_lets +onlyGivenNames x); clear_value x) | fail_if_no_progress extract_lets +onlyGivenNames x
    | (with_reducible first | apply Answers.next | apply Answers.ite | apply State.peerSend_keeps | apply Keeps.ite)
    | dsimp -zeta only [x]
    | (fail_if_no_progress ((with_reducible apply Keeps.upd); on_goal 2 => exact fun p hp => by cases p <;> first | with_reducible exact rfl | exact hw.no rfl hp))

theorem State.modBank_keeps {wm : Nat} {s0 s : State} (f : Bank → Bank) (h : Keeps wm s0 s) (hw : Within 0x10000 wm) :
    Keeps wm s0 (State.modBank s f) := by
  unfold State.modBank
  repeat' first
    | (with_reducible first | assumption | exact hw | exact hw.mono (by decide)) | intro _
    | fail_if_no_progress extract_lets +onlyGivenNames x | with_reducible apply Keeps.ite | dsimp -zeta only [x]
    | (fail_if_no_progress ((with_reducible apply Keeps.upd); on_goal 2 => exact fun p hp => by cases p <;> first | with_reducible exact rfl | exact hw.no rfl hp))

theorem State.modFeed_keeps {wm : Nat} {s0 s : State} (f : Fin 2) (g : Feed → Feed) (h : Keeps wm s0 s) (hw : Within 0x10000 wm) :
    Keeps wm s0 (State.modFeed s f g) := by
  unfold State.modFeed
  repeat' first
    | (with_reducible first | assumption | exact hw | exact hw.mono (by decide)) | intro _
    | fail_if_no_progress extract_lets +onlyGivenNames x | with_reducible apply State.modBank_keeps

theorem State.bankSend_keeps {wm : Nat} {s0 s : State} (step : Bool) (h : Keeps wm s0 s) (hw : Within 0x10000 wm) :
    Keeps wm s0 (State.bankSend s step) := by
  unfold State.bankSend
  repeat' first
    | (with_reducible first | assumption | exact hw | exact hw.mono (by decide)) | intro _
    | fail_if_no_progress extract_lets +onlyGivenNames x | with_reducible apply State.modBank_keeps

theorem State.bankCmd_keeps {wm : Nat} {s0 s : State} (c : FeedCmd) (h : Keeps wm s0 s) (hw : Within 0x800010000 wm) :
    Keeps wm s0 (State.bankCmd s c) := by
  unfold State.bankCmd
  repeat' first
    | (with_reducible first | assumption | exact hw | exact hw.mono (by decide)) | intro _
    | fail_if_no_progress extract_lets +onlyGivenNames x
    | (with_reducible first | apply State.modBank_keeps | apply State.output_keeps | apply Keeps.ite)

theorem State.lineScan_keeps {wm : Nat} {s0 s : State} (f : Fin 2) (cause : Nat) (h : Keeps wm s0 s) (hw : Within 0x10040 wm) :
    Keeps wm s0 (State.lineScan s f cause) := by
  unfold State.lineScan
  repeat' first
    | (with_reducible first | assumption | exact hw | exact hw.mono (by decide)) | intro _
    | ((fail_if_no_progress extract_lets +onlyGivenNames x); refine Keeps.cut (w := wm) (s := s0) (v := x) ?_ ?_)
    | ((fail_if_no_progress extract_lets +onlyGivenNames x); clear_value x) | fail_if_no_progress extract_lets +onlyGivenNames x
    | (with_reducible first | apply State.bankSend_keeps | apply State.log_keeps | apply State.modBank_keeps | apply Keeps.ite)

theorem State.revRecord_keeps {wm : Nat} {s0 s : State} (f : Fin 2) (h : Keeps wm s0 s) (hw : Within 0x40 wm) :
    Keeps wm s0 (State.revRecord s f) := by
  unfold State.revRecord
  repeat' first
    | (with_reducible first | assumption | exact hw | exact hw.mono (by decide)) | intro _
    | ((fail_if_no_progress extract_lets +onlyGivenNames x); clear_value x) | fail_if_no_progress extract_lets +onlyGivenNames x
    | (with_reducible first | apply State.log_keeps | apply Keeps.ite)

theorem State.feedOpen_keeps {wm : Nat} {s0 s : State} (f : Fin 2) (st : FeedState) (h : Keeps wm s0 s) (hw : Within 0x10040 wm) :
    Keeps wm s0 (State.feedOpen s f st) := by
  unfold State.feedOpen
  repeat' first
    | (with_reducible first | assumption | exact hw | exact hw.mono (by decide)) | intro _
    | fail_if_no_progress extract_lets +onlyGivenNames x
    | (with_reducible first | apply State.modFeed_keeps | apply State.revRecord_keeps)

theorem State.feedTrip_keeps {wm : Nat} {s0 s : State} (f : Fin 2) (h : Keeps wm s0 s) (hw : Within 0x10040 wm) :
    Keeps wm s0 (State.feedTrip s f) := by
  unfold State.feedTrip
  repeat' first
    | (with_reducible first | assumption | exact hw | exact hw.mono (by decide)) | intro _
    | fail_if_no_progress extract_lets +onlyGivenNames x
    | (with_reducible first | apply State.modFeed_keeps | apply State.revRecord_keeps)

theorem State.feedLock_keeps {wm : Nat} {s0 s : State} (f : Fin 2) (cause : Nat) (h : Keeps wm s0 s) (hw : Within 0x10040 wm) :
    Keeps wm s0 (State.feedLock s f cause) := by
  unfold State.feedLock
  repeat' first
    | (with_reducible first | assumption | exact hw | exact hw.mono (by decide)) | intro _
    | fail_if_no_progress extract_lets +onlyGivenNames x
    | (with_reducible first | apply State.feedOpen_keeps | apply State.lineScan_keeps | apply State.log_keeps)

theorem State.feedConnect_keeps {wm : Nat} {s0 s : State} (f : Fin 2) (how : Nat) (h : Keeps wm s0 s) (hw : Within 0x10040 wm) :
    Keeps wm s0 (State.feedConnect s f how) := by
  unfold State.feedConnect
  repeat' first
    | (with_reducible first | assumption | exact hw | exact hw.mono (by decide)) | intro _
    | ((fail_if_no_progress extract_lets +onlyGivenNames x); refine Keeps.cut (w := wm) (s := s0) (v := x) ?_ ?_)
    | ((fail_if_no_progress extract_lets +onlyGivenNames x); clear_value x) | fail_if_no_progress extract_lets +onlyGivenNames x
    | (with_reducible first | apply State.lineScan_keeps | apply State.log_keeps | apply State.modFeed_keeps)

theorem State.feedLeaveInsert_keeps {wm : Nat} {s0 s : State} (f : Fin 2) (h : Keeps wm s0 s) (hw : Within 0x10040 wm) :
    Keeps wm s0 (State.feedLeaveInsert s f) := by
  unfold State.feedLeaveInsert
  repeat' first
    | (with_reducible first | assumption | exact hw | exact hw.mono (by decide)) | intro _
    | ((fail_if_no_progress extract_lets +onlyGivenNames x); clear_value x) | fail_if_no_progress extract_lets +onlyGivenNames x
    | (with_reducible first | apply State.bankSend_keeps | apply State.feedConnect_keeps | apply State.modFeed_keeps)
    | with_reducible apply Keeps.ite

theorem State.feedEnable_keeps {wm : Nat} {s0 s : State} (f : Fin 2) (h : Keeps wm s0 s) (hw : Within 0x10000 wm) :
    Keeps wm s0 (State.feedEnable s f) := by
  unfold State.feedEnable
  repeat' first
    | (with_reducible first | assumption | exact hw | exact hw.mono (by decide)) | intro _
    | fail_if_no_progress extract_lets +onlyGivenNames x
    | (with_reducible first | apply State.bankSend_keeps | apply State.modFeed_keeps | apply Keeps.ite)

theorem State.feedDisable_keeps {wm : Nat} {s0 s : State} (f : Fin 2) (h : Keeps wm s0 s) (hw : Within 0x10040 wm) :
    Keeps wm s0 (State.feedDisable s f) := by
  unfold State.feedDisable
  repeat' first
    | (with_reducible first | assumption | exact hw | exact hw.mono (by decide)) | intro _
    | fail_if_no_progress extract_lets +onlyGivenNames x
    | (with_reducible first | apply State.feedOpen_keeps | apply State.lineScan_keeps | apply State.log_keeps)
    | with_reducible apply Keeps.ite

theorem State.feedTripped_keeps {wm : Nat} {s0 s : State} (f : Fin 2) (h : Keeps wm s0 s) (hw : Within 0x10000 wm) :
    Keeps wm s0 (State.feedTripped s f) := by
  unfold State.feedTripped
  repeat' first
    | (with_reducible first | assumption | exact hw | exact hw.mono (by decide)) | intro _
    | fail_if_no_progress extract_lets +onlyGivenNames x | with_reducible apply State.modBank_keeps

theorem State.autoEnable_keeps {wm : Nat} {s0 s : State} (h : Keeps wm s0 s) (hw : Within 0x800010000 wm) :
    Keeps wm s0 (State.autoEnable s) := by
  unfold State.autoEnable
  repeat' first
    | (with_reducible first | assumption | exact hw | exact hw.mono (by decide)) | intro _
    | fail_if_no_progress extract_lets +onlyGivenNames x
    | (with_reducible first | apply State.bankCmd_keeps | apply Keeps.ite | apply Keeps.foldl)

theorem State.feedClear_keeps {wm : Nat} {s0 s : State} (f : Fin 2) (h : Keeps wm s0 s) (hw : Within 0x800010000 wm) :
    Keeps wm s0 (State.feedClear s f) := by
  unfold State.feedClear
  repeat' first
    | (with_reducible first | assumption | exact hw | exact hw.mono (by decide)) | intro _
    | ((fail_if_no_progress extract_lets +onlyGivenNames x); refine Keeps.cut (w := wm) (s := s0) (v := x) ?_ ?_)
    | fail_if_no_progress extract_lets +onlyGivenNames x
    | (with_reducible first | apply State.bankCmd_keeps | apply State.bankSend_keeps | apply State.modFeed_keeps)
    | with_reducible apply Keeps.ite

theorem State.feedTest_keeps {wm : Nat} {s0 s : State} (f : Fin 2) (h : Keeps wm s0 s) (hw : Within 0x10000 wm) :
    Keeps wm s0 (State.feedTest s f) := by
  unfold State.feedTest
  repeat' first
    | (with_reducible first | assumption | exact hw | exact hw.mono (by decide)) | intro _
    | fail_if_no_progress extract_lets +onlyGivenNames x
    | (with_reducible first | apply State.bankSend_keeps | apply State.modFeed_keeps | apply Keeps.ite)

theorem State.feedResetEnergy_keeps {wm : Nat} {s0 s : State} (f : Fin 2) (h : Keeps wm s0 s) (hw : Within 0x10040 wm) :
    Keeps wm s0 (State.feedResetEnergy s f) := by
  unfold State.feedResetEnergy
  repeat' first
    | (with_reducible first | assumption | exact hw | exact hw.mono (by decide)) | intro _
    | ((fail_if_no_progress extract_lets +onlyGivenNames x); clear_value x) | fail_if_no_progress extract_lets +onlyGivenNames x
    | (with_reducible first | apply State.log_keeps | apply State.modFeed_keeps)

theorem State.feedStatusClear_keeps {wm : Nat} {s0 s : State} (f : Fin 2) (v : Nat) (h : Keeps wm s0 s) (hw : Within 0x10000 wm) :
    Keeps wm s0 (State.feedStatusClear s f v) := by
  unfold State.feedStatusClear
  repeat' first
    | (with_reducible first | assumption | exact hw | exact hw.mono (by decide)) | intro _
    | fail_if_no_progress extract_lets +onlyGivenNames x | (with_reducible first | apply State.bankSend_keeps | apply State.modFeed_keeps)

theorem State.bankStatusClear_keeps {wm : Nat} {s0 s : State} (v : Nat) (h : Keeps wm s0 s) (hw : Within 0x10000 wm) :
    Keeps wm s0 (State.bankStatusClear s v) := by
  unfold State.bankStatusClear
  repeat' first
    | (with_reducible first | assumption | exact hw | exact hw.mono (by decide)) | intro _
    | fail_if_no_progress extract_lets +onlyGivenNames x | (with_reducible first | apply State.bankSend_keeps | apply State.modBank_keeps)

theorem State.bankSendSet_keeps {wm : Nat} {s0 s : State} (h : Keeps wm s0 s) (hw : Within 0x800010000 wm) :
    Keeps wm s0 (State.bankSendSet s) := by
  unfold State.bankSendSet
  repeat' first
    | (with_reducible first | assumption | exact hw | exact hw.mono (by decide)) | intro _
    | ((fail_if_no_progress extract_lets +onlyGivenNames x); clear_value x) | fail_if_no_progress extract_lets +onlyGivenNames x
    | (with_reducible first | apply State.modBank_keeps | apply State.output_keeps)

theorem State.bankResend_keeps {wm : Nat} {s0 s : State} (h : Keeps wm s0 s) (hw : Within 0x800010000 wm) :
    Keeps wm s0 (State.bankResend s) := by
  unfold State.bankResend
  repeat' first
    | (with_reducible first | assumption | exact hw | exact hw.mono (by decide)) | intro _
    | fail_if_no_progress extract_lets +onlyGivenNames x | (with_reducible first | apply State.modBank_keeps | apply State.output_keeps)

theorem State.bankAllOff_keeps {wm : Nat} {s0 s : State} (cause : Nat) (h : Keeps wm s0 s) (hw : Within 0x10040 wm) :
    Keeps wm s0 (State.bankAllOff s cause) := by
  unfold State.bankAllOff
  repeat' first
    | (with_reducible first | assumption | exact hw | exact hw.mono (by decide)) | intro _
    | fail_if_no_progress extract_lets +onlyGivenNames x
    | (with_reducible first | apply State.feedOpen_keeps | apply State.lineScan_keeps | apply Keeps.ite | apply Keeps.foldl)

theorem State.modWeir_keeps {wm : Nat} {s0 s : State} (f : Weir → Weir) (h : Keeps wm s0 s) (hw : Within 0x20000 wm) :
    Keeps wm s0 (State.modWeir s f) := by
  unfold State.modWeir
  repeat' first
    | (with_reducible first | assumption | exact hw | exact hw.mono (by decide)) | intro _
    | fail_if_no_progress extract_lets +onlyGivenNames x | with_reducible apply Keeps.ite | dsimp -zeta only [x]
    | (fail_if_no_progress ((with_reducible apply Keeps.upd); on_goal 2 => exact fun p hp => by cases p <;> first | with_reducible exact rfl | exact hw.no rfl hp))

theorem State.modScope_keeps {wm : Nat} {s0 s : State} (k : Fin 36) (f : Scope → Scope) (h : Keeps wm s0 s) (hw : Within 0x20000 wm) :
    Keeps wm s0 (State.modScope s k f) := by
  unfold State.modScope
  repeat' first
    | (with_reducible first | assumption | exact hw | exact hw.mono (by decide)) | intro _
    | fail_if_no_progress extract_lets +onlyGivenNames x | with_reducible apply State.modWeir_keeps

theorem State.modWeirNode_keeps {wm : Nat} {s0 s : State} (a : Nat) (f : WeirNode → WeirNode) (h : Keeps wm s0 s) (hw : Within 0x20000 wm) :
    Keeps wm s0 (State.modWeirNode s a f) := by
  unfold State.modWeirNode
  repeat' first
    | (with_reducible first | assumption | exact hw | exact hw.mono (by decide)) | intro _
    | fail_if_no_progress extract_lets +onlyGivenNames x | with_reducible apply State.modWeir_keeps

theorem State.weirSetCap_keeps {wm : Nat} {s0 s : State} (k : Fin 36) (v : Nat) (h : Keeps wm s0 s) (hw : Within 0x20040 wm) :
    Keeps wm s0 (State.weirSetCap s k v) := by
  unfold State.weirSetCap
  repeat' first
    | (with_reducible first | assumption | exact hw | exact hw.mono (by decide)) | intro _
    | fail_if_no_progress extract_lets +onlyGivenNames x | (with_reducible first | apply State.log_keeps | apply State.modScope_keeps)

theorem State.weirLapse_keeps {wm : Nat} {s0 s : State} (h : Keeps wm s0 s) (hw : Within 0x20040 wm) :
    Keeps wm s0 (State.weirLapse s) := by
  unfold State.weirLapse
  repeat' first
    | (with_reducible first | assumption | exact hw | exact hw.mono (by decide)) | intro _
    | ((fail_if_no_progress extract_lets +onlyGivenNames x); clear_value x) | fail_if_no_progress extract_lets +onlyGivenNames x
    | (with_reducible first | apply State.log_keeps | apply State.modWeir_keeps | apply Keeps.ite)

theorem State.setLimit_keeps {wm : Nat} {s0 s : State} (a : Nat) (lim : Option Nat) (h : Keeps wm s0 s) (hw : Within 0x8001a0000 wm) :
    Keeps wm s0 (State.setLimit s a lim) := by
  unfold State.setLimit
  repeat' first
    | (with_reducible first | assumption | exact hw | exact hw.mono (by decide)) | intro _
    | ((fail_if_no_progress extract_lets +onlyGivenNames x); refine Keeps.cut (w := wm) (s := s0) (v := x) ?_ ?_)
    | ((fail_if_no_progress extract_lets +onlyGivenNames x); clear_value x) | fail_if_no_progress extract_lets +onlyGivenNames x
    | (with_reducible first | apply State.modWeirNode_keeps | apply State.sendThrottle_keeps | apply Keeps.ite)

theorem State.shaveStop_keeps {wm : Nat} {s0 s : State} (l : Fin 16) (cause : Nat) (h : Keeps wm s0 s) (hw : Within 0x20040 wm) :
    Keeps wm s0 (State.shaveStop s l cause) := by
  unfold State.shaveStop
  repeat' first
    | (with_reducible first | assumption | exact hw | exact hw.mono (by decide)) | intro _
    | ((fail_if_no_progress extract_lets +onlyGivenNames x); clear_value x) | fail_if_no_progress extract_lets +onlyGivenNames x
    | (with_reducible first | apply State.log_keeps | apply State.modWeir_keeps | apply Keeps.ite)

theorem State.weirAllocate_keeps {wm : Nat} {s0 s : State} (h : Keeps wm s0 s) (hw : Within 0x8001a0000 wm) :
    Keeps wm s0 (State.weirAllocate s) := by
  unfold State.weirAllocate
  repeat' first
    | (with_reducible first | assumption | exact hw | exact hw.mono (by decide)) | intro _
    | ((fail_if_no_progress extract_lets +onlyGivenNames x); refine Keeps.cut (w := wm) (s := s0) (v := x) ?_ ?_)
    | ((fail_if_no_progress extract_lets +onlyGivenNames x); clear_value x) | fail_if_no_progress extract_lets +onlyGivenNames x
    | (with_reducible first | apply State.modWeir_keeps | apply State.setLimit_keeps | apply Keeps.ite | apply Keeps.foldl)

theorem State.hardLog_keeps {wm : Nat} {s0 s : State} (x : State) (armed : Nat) (h : Keeps wm s0 s) (hw : Within 0x40 wm) :
    Keeps wm s0 (State.hardLog s x armed) := by
  unfold State.hardLog
  repeat' first
    | (with_reducible first | assumption | exact hw | exact hw.mono (by decide)) | intro _
    | fail_if_no_progress extract_lets +onlyGivenNames x
    | (with_reducible first | apply State.log_keeps | apply Keeps.ite | apply Keeps.foldl | apply Keeps.foldlSnd)
    | with_reducible apply Keeps.foldlFst | dsimp -zeta only [x] | split

theorem State.hardRemove_keeps {wm : Nat} {s0 s : State} (h : Keeps wm s0 s) (hw : Within 0x800030040 wm) :
    Keeps wm s0 (State.hardRemove s) := by
  unfold State.hardRemove
  repeat' first
    | (with_reducible first | assumption | exact hw | exact hw.mono (by decide)) | intro _
    | ((fail_if_no_progress extract_lets +onlyGivenNames x); refine Keeps.cut (w := wm) (s := s0) (v := x) ?_ ?_)
    | fail_if_no_progress extract_lets +onlyGivenNames x
    | (with_reducible first | apply State.bankSendSet_keeps | apply State.hardLog_keeps | apply State.modWeir_keeps)
    | with_reducible apply Keeps.ite

theorem State.hardSet_keeps {wm : Nat} {s0 s : State} (cap : Nat) (h : Keeps wm s0 s) (hw : Within 0x800030000 wm) :
    Keeps wm s0 (State.hardSet s cap) := by
  unfold State.hardSet
  repeat' first
    | (with_reducible first | assumption | exact hw | exact hw.mono (by decide)) | intro _
    | ((fail_if_no_progress extract_lets +onlyGivenNames x); clear_value x) | fail_if_no_progress extract_lets +onlyGivenNames x
    | (with_reducible first | apply State.bankSendSet_keeps | apply State.modWeir_keeps)

theorem State.hardTest_keeps {wm : Nat} {s0 s : State} (cap : Nat) (full : Bool) (h : Keeps wm s0 s) (hw : Within 0x800030040 wm) :
    Keeps wm s0 (State.hardTest s cap full) := by
  unfold State.hardTest
  repeat' first
    | (with_reducible first | assumption | exact hw | exact hw.mono (by decide)) | intro _
    | ((fail_if_no_progress extract_lets +onlyGivenNames x); refine Keeps.cut (w := wm) (s := s0) (v := x) ?_ ?_)
    | ((fail_if_no_progress extract_lets +onlyGivenNames x); clear_value x) | fail_if_no_progress extract_lets +onlyGivenNames x
    | (with_reducible first | apply State.hardLog_keeps | apply State.hardRemove_keeps | apply State.hardSet_keeps)
    | (with_reducible first | apply State.log_keeps | apply State.modScope_keeps | apply State.modWeir_keeps | apply Keeps.ite)
    | dsimp -zeta only [x] | split

theorem State.setReduce_keeps {wm : Nat} {s0 s : State} (k : Fin 36) (d : Nat) (h : Keeps wm s0 s) (hw : Within 0x20040 wm) :
    Keeps wm s0 (State.setReduce s k d) := by
  unfold State.setReduce
  repeat' first
    | (with_reducible first | assumption | exact hw | exact hw.mono (by decide)) | intro _
    | ((fail_if_no_progress extract_lets +onlyGivenNames x); refine Keeps.cut (w := wm) (s := s0) (v := x) ?_ ?_)
    | ((fail_if_no_progress extract_lets +onlyGivenNames x); clear_value x) | fail_if_no_progress extract_lets +onlyGivenNames x
    | (with_reducible first | apply State.log_keeps | apply State.modScope_keeps | apply Keeps.ite)

theorem State.scopeLayers_keeps {wm : Nat} {s0 s : State} (k : Fin 36) (a1 : Nat) (a2 : Nat) (h : Keeps wm s0 s) (hw : Within 0x20040 wm) :
    Keeps wm s0 (State.scopeLayers s k a1 a2) := by
  unfold State.scopeLayers
  repeat' first
    | (with_reducible first | assumption | exact hw | exact hw.mono (by decide)) | intro _
    | ((fail_if_no_progress extract_lets +onlyGivenNames x); have _ : _ → _ → _ → State := x)
    | ((fail_if_no_progress extract_lets +onlyGivenNames x); clear_value x) | fail_if_no_progress extract_lets +onlyGivenNames x
    | (with_reducible first | apply State.log_keeps | apply State.modScope_keeps | apply Keeps.ite)

theorem State.scopeMeasure_keeps {wm : Nat} {s0 s : State} (k : Fin 36) (on : Bool) (h : Keeps wm s0 s) (hw : Within 0x20000 wm) :
    Keeps wm s0 (State.scopeMeasure s k on) := by
  unfold State.scopeMeasure
  repeat' first
    | (with_reducible first | assumption | exact hw | exact hw.mono (by decide)) | intro _
    | ((fail_if_no_progress extract_lets +onlyGivenNames x); clear_value x) | fail_if_no_progress extract_lets +onlyGivenNames x
    | with_reducible apply State.modScope_keeps

theorem State.nodeMeasure_keeps {wm : Nat} {s0 s : State} (a : Nat) (h : Keeps wm s0 s) (hw : Within 0x20040 wm) :
    Keeps wm s0 (State.nodeMeasure s a) := by
  unfold State.nodeMeasure
  repeat' first
    | (with_reducible first | assumption | exact hw | exact hw.mono (by decide)) | intro _
    | ((fail_if_no_progress extract_lets +onlyGivenNames x); refine Keeps.cut (w := wm) (s := s0) (v := x) ?_ ?_)
    | ((fail_if_no_progress extract_lets +onlyGivenNames x); clear_value x) | fail_if_no_progress extract_lets +onlyGivenNames x
    | (with_reducible first | apply State.log_keeps | apply State.modWeirNode_keeps | apply Keeps.ite) | dsimp -zeta only [x] | split

theorem State.scopeExceed_keeps {wm : Nat} {s0 s : State} (k : Fin 36) (cap : Nat) (full : Bool) (h : Keeps wm s0 s) (hw : Within 0x20040 wm) :
    Keeps wm s0 (State.scopeExceed s k cap full) := by
  unfold State.scopeExceed
  repeat' first
    | (with_reducible first | assumption | exact hw | exact hw.mono (by decide)) | intro _
    | ((fail_if_no_progress extract_lets +onlyGivenNames x); refine Keeps.cut (w := wm) (s := s0) (v := x) ?_ ?_)
    | ((fail_if_no_progress extract_lets +onlyGivenNames x); clear_value x) | fail_if_no_progress extract_lets +onlyGivenNames x
    | (with_reducible first | apply State.log_keeps | apply State.modScope_keeps | apply Keeps.ite)

theorem State.scopeEval_keeps {wm : Nat} {s0 s : State} (k : Fin 36) (h : Keeps wm s0 s) (hw : Within 0x800030040 wm) :
    Keeps wm s0 (State.scopeEval s k) := by
  unfold State.scopeEval
  repeat' first
    | (with_reducible first | assumption | exact hw | exact hw.mono (by decide)) | intro _
    | ((fail_if_no_progress extract_lets +onlyGivenNames x); refine Keeps.cut (w := wm) (s := s0) (v := x) ?_ ?_)
    | ((fail_if_no_progress extract_lets +onlyGivenNames x); clear_value x) | fail_if_no_progress extract_lets +onlyGivenNames x
    | (with_reducible first | apply State.hardRemove_keeps | apply State.hardTest_keeps | apply State.modScope_keeps)
    | (with_reducible first | apply State.scopeExceed_keeps | apply State.scopeLayers_keeps | apply State.scopeMeasure_keeps)
    | (with_reducible first | apply State.setReduce_keeps | apply Keeps.ite) | dsimp -zeta only [x] | split

theorem State.shaveCheck_keeps {wm : Nat} {s0 s : State} (l : Fin 16) (h : Keeps wm s0 s) (hw : Within 0x20040 wm) :
    Keeps wm s0 (State.shaveCheck s l) := by
  unfold State.shaveCheck
  repeat' first
    | (with_reducible first | assumption | exact hw | exact hw.mono (by decide)) | intro _
    | fail_if_no_progress extract_lets +onlyGivenNames x | (with_reducible first | apply State.shaveStop_keeps | apply Keeps.ite)

theorem State.weirOff_keeps {wm : Nat} {s0 s : State} (h : Keeps wm s0 s) (hw : Within 0x8001b0040 wm) :
    Keeps wm s0 (State.weirOff s) := by
  unfold State.weirOff
  repeat' first
    | (with_reducible first | assumption | exact hw | exact hw.mono (by decide)) | intro _
    | ((fail_if_no_progress extract_lets +onlyGivenNames x); refine Keeps.cut (w := wm) (s := s0) (v := x) ?_ ?_)
    | fail_if_no_progress extract_lets +onlyGivenNames x
    | (with_reducible first | apply State.hardRemove_keeps | apply State.modWeir_keeps | apply State.setLimit_keeps)
    | (with_reducible first | apply State.setReduce_keeps | apply Keeps.ite | apply Keeps.foldl)

theorem State.weirOverrun_keeps {wm : Nat} {s0 s : State} (skipped : Nat) (took : Nat) (h : Keeps wm s0 s) (hw : Within 0x20040 wm) :
    Keeps wm s0 (State.weirOverrun s skipped took) := by
  unfold State.weirOverrun
  repeat' first
    | (with_reducible first | assumption | exact hw | exact hw.mono (by decide)) | intro _
    | ((fail_if_no_progress extract_lets +onlyGivenNames x); clear_value x) | fail_if_no_progress extract_lets +onlyGivenNames x
    | (with_reducible first | apply State.log_keeps | apply State.modWeir_keeps)

theorem execWeirEvaluation_answers (skipped : Nat) (took : Nat) {wm : Nat} (s : State) (hw : Within 0x8001b0040 wm) :
    Answers wm s (execWeirEvaluation skipped took s) := by
  unfold execWeirEvaluation
  repeat' first
    | (with_reducible first | assumption | exact Keeps.refl _ _ | exact hw | exact hw.mono (by decide)) | intro _
    | ((fail_if_no_progress extract_lets +onlyGivenNames x); refine Keeps.cut (w := wm) (s := s) (v := x) ?_ ?_)
    | fail_if_no_progress extract_lets +onlyGivenNames x
    | (with_reducible first | apply Answers.next | apply Answers.ite | apply State.nodeMeasure_keeps)
    | (with_reducible first | apply State.scopeEval_keeps | apply State.shaveCheck_keeps | apply State.weirAllocate_keeps)
    | (with_reducible first | apply State.weirOverrun_keeps | apply Keeps.ite | apply Keeps.foldl)

theorem State.weirHoldup_keeps {wm : Nat} {s0 s : State} (h : Keeps wm s0 s) (hw : Within 0x8001b0040 wm) :
    Keeps wm s0 (State.weirHoldup s) := by
  unfold State.weirHoldup
  repeat' first
    | (with_reducible first | assumption | exact hw | exact hw.mono (by decide)) | intro _
    | ((fail_if_no_progress extract_lets +onlyGivenNames x); refine Keeps.cut (w := wm) (s := s0) (v := x) ?_ ?_)
    | ((fail_if_no_progress extract_lets +onlyGivenNames x); clear_value x) | fail_if_no_progress extract_lets +onlyGivenNames x
    | (with_reducible first | apply State.hardRemove_keeps | apply State.modScope_keeps | apply State.nodeMeasure_keeps)
    | (with_reducible first | apply State.scopeLayers_keeps | apply State.scopeMeasure_keeps | apply State.setReduce_keeps)
    | (with_reducible first | apply State.shaveStop_keeps | apply State.weirAllocate_keeps | apply Keeps.ite)
    | (with_reducible first | apply Keeps.foldl | apply Keeps.foldlSnd | apply Keeps.foldlFst) | dsimp -zeta only [x] | split

theorem execThrottleResend_answers {wm : Nat} (s : State) (hw : Within 0x800180000 wm) :
    Answers wm s (execThrottleResend s) := by
  unfold execThrottleResend
  repeat' first
    | (with_reducible first | assumption | exact Keeps.refl _ _ | exact hw | exact hw.mono (by decide)) | intro _
    | fail_if_no_progress extract_lets +onlyGivenNames x
    | (with_reducible first | apply Answers.next | apply Answers.ite | apply State.sendThrottle_keeps | apply Keeps.ite)
    | (with_reducible first | apply Keeps.foldl | apply Keeps.foldlSnd | apply Keeps.foldlFst) | dsimp -zeta only [x] | split

theorem State.modTimer_keeps {wm : Nat} {s0 s : State} (t : Fin 32) (f : Timer → Timer) (h : Keeps wm s0 s) (hw : Within 0x10000000 wm) :
    Keeps wm s0 (State.modTimer s t f) := by
  unfold State.modTimer
  repeat' first
    | (with_reducible first | assumption | exact hw | exact hw.mono (by decide)) | intro _
    | fail_if_no_progress extract_lets +onlyGivenNames x | with_reducible apply Keeps.ite | dsimp -zeta only [x]
    | (fail_if_no_progress ((with_reducible apply Keeps.upd); on_goal 2 => exact fun p hp => by cases p <;> first | with_reducible exact rfl | exact hw.no rfl hp))

theorem State.recognise_keeps {wm : Nat} {s0 s : State} (src : Nat) (ago : Nat) (sel : Timer → Bool) (h : Keeps wm s0 s) (hw : Within 0x10000000 wm) :
    Keeps wm s0 (State.recognise s src ago sel) := by
  unfold State.recognise
  repeat' first
    | (with_reducible first | assumption | exact hw | exact hw.mono (by decide)) | intro _
    | fail_if_no_progress extract_lets +onlyGivenNames x | with_reducible apply Keeps.ite | dsimp -zeta only [x]
    | (fail_if_no_progress ((with_reducible apply Keeps.upd); on_goal 2 => exact fun p hp => by cases p <;> first | with_reducible exact rfl | exact hw.no rfl hp))

theorem State.captureEvent_keeps {wm : Nat} {s0 s : State} (src : Nat) (h : Keeps wm s0 s) (hw : Within 0x10000000 wm) :
    Keeps wm s0 (State.captureEvent s src) := by
  unfold State.captureEvent
  repeat' first
    | (with_reducible first | assumption | exact hw | exact hw.mono (by decide)) | intro _
    | fail_if_no_progress extract_lets +onlyGivenNames x | with_reducible apply State.recognise_keeps

theorem State.deliver_keeps {wm : Nat} {s0 s : State} (t : Fin 32) (c : Capture) (h : Keeps wm s0 s) (hw : Within 0x10200050 wm) :
    Keeps wm s0 (State.deliver s t c) := by
  unfold State.deliver
  repeat' first
    | (with_reducible first | assumption | exact hw | exact hw.mono (by decide)) | intro _
    | ((fail_if_no_progress extract_lets +onlyGivenNames x); refine Keeps.cut (w := wm) (s := s0) (v := x) ?_ ?_)
    | fail_if_no_progress extract_lets +onlyGivenNames x
    | (with_reducible first | apply State.log_keeps | apply State.modTimer_keeps | apply State.srcPush_keeps)
    | (with_reducible first | apply State.stamp_keeps | apply Keeps.ite)

theorem State.timerTick_keeps {wm : Nat} {s0 s : State} (t : Fin 32) (h : Keeps wm s0 s) (hw : Within 0x10000000 wm) :
    Keeps wm s0 (State.timerTick s t) := by
  unfold State.timerTick
  repeat' first
    | (with_reducible first | assumption | exact hw | exact hw.mono (by decide)) | intro _
    | ((fail_if_no_progress extract_lets +onlyGivenNames x); refine Keeps.cut (w := wm) (s := s0) (v := x) ?_ ?_)
    | ((fail_if_no_progress extract_lets +onlyGivenNames x); clear_value x) | fail_if_no_progress extract_lets +onlyGivenNames x
    | (with_reducible first | apply State.captureEvent_keeps | apply State.modTimer_keeps | apply Keeps.ite)

theorem State.timerWrite_keeps {wm : Nat} {s0 s : State} (t : Fin 32) (w : TimerWrite) (h : Keeps wm s0 s) (hw : Within 0x10000000 wm) :
    Keeps wm s0 (State.timerWrite s t w) := by
  unfold State.timerWrite
  repeat' first
    | (with_reducible first | assumption | exact hw | exact hw.mono (by decide)) | intro _
    | fail_if_no_progress extract_lets +onlyGivenNames x | with_reducible apply State.modTimer_keeps

theorem execHoldPreloadCompute_answers {wm : Nat} (s : State) (hw : Within 0x8840 wm) :
    Answers wm s (execHoldPreloadCompute s) := by
  unfold execHoldPreloadCompute
  repeat' first
    | (with_reducible first | assumption | exact Keeps.refl _ _ | exact hw | exact hw.mono (by decide)) | intro _
    | ((fail_if_no_progress extract_lets +onlyGivenNames x); refine Keeps.cut (w := wm) (s := s) (v := x) ?_ ?_)
    | ((fail_if_no_progress extract_lets +onlyGivenNames x); clear_value x) | fail_if_no_progress extract_lets +onlyGivenNames x
    | (with_reducible first | apply Answers.next | apply Answers.ite | apply State.modCt_keeps | apply State.modHold_keeps)
    | (with_reducible first | apply State.preStale_keeps | apply Keeps.ite | apply Keeps.foldl)

theorem State.suspendMember_keeps {wm : Nat} {s0 s : State} (m : Fin 64) (h : Keeps wm s0 s) (hw : Within 0x800184040 wm) :
    Keeps wm s0 (State.suspendMember s m) := by
  unfold State.suspendMember
  repeat' first
    | (with_reducible first | assumption | exact hw | exact hw.mono (by decide)) | intro _
    | ((fail_if_no_progress extract_lets +onlyGivenNames x); clear_value x) | fail_if_no_progress extract_lets +onlyGivenNames x
    | (with_reducible first | apply State.mbrTo_keeps | apply State.sendHoldup_keeps | apply Keeps.ite)

theorem State.holdEnter_keeps {wm : Nat} {s0 s : State} (h : Keeps wm s0 s) (hw : Within 0x8031bc040 wm) :
    Keeps wm s0 (State.holdEnter s) := by
  unfold State.holdEnter
  repeat' first
    | (with_reducible first | assumption | exact hw | exact hw.mono (by decide)) | intro _
    | ((fail_if_no_progress extract_lets +onlyGivenNames x); refine Keeps.cut (w := wm) (s := s0) (v := x) ?_ ?_)
    | ((fail_if_no_progress extract_lets +onlyGivenNames x); clear_value x) | fail_if_no_progress extract_lets +onlyGivenNames x
    | (with_reducible first | apply State.holdTo_keeps | apply State.log_keeps | apply State.modHold_keeps)
    | (with_reducible first | apply State.spateReq_keeps | apply State.suspendMember_keeps | apply State.weirHoldup_keeps)
    | (with_reducible first | apply Keeps.ite | apply Keeps.foldl)

theorem execFeedLossInput_answers {wm : Nat} (s : State) (hw : Within 0xc131bd850 wm) :
    Answers wm s (execFeedLossInput s) := by
  unfold execFeedLossInput
  repeat' first
    | (with_reducible first | assumption | exact Keeps.refl _ _ | exact hw | exact hw.mono (by decide)) | intro _
    | ((fail_if_no_progress extract_lets +onlyGivenNames x); refine Keeps.cut (w := wm) (s := s) (v := x) ?_ ?_)
    | fail_if_no_progress extract_lets +onlyGivenNames x
    | (with_reducible first | apply Answers.next | apply Answers.ite | apply State.captureEvent_keeps)
    | (with_reducible first | apply State.faultScan_keeps | apply State.handback_keeps | apply State.holdEnter_keeps)
    | (with_reducible first | apply State.holdTo_keeps | apply State.log_keeps | apply State.loopFeedLoss_keeps)
    | (with_reducible first | apply State.modBank_keeps | apply State.modHold_keeps | apply State.preStale_keeps)
    | (with_reducible first | apply State.stamp_keeps | apply Keeps.ite | apply Keeps.foldl | apply Keeps.foldlSnd)
    | with_reducible apply Keeps.foldlFst | dsimp -zeta only [x] | split

theorem execFeedLossReleaseInput_answers {wm : Nat} (s : State) (hw : Within 0x802019050 wm) :
    Answers wm s (execFeedLossReleaseInput s) := by
  unfold execFeedLossReleaseInput
  repeat' first
    | (with_reducible first | assumption | exact Keeps.refl _ _ | exact hw | exact hw.mono (by decide)) | intro _
    | fail_if_no_progress extract_lets +onlyGivenNames x
    | (with_reducible first | apply Answers.next | apply Answers.ite | apply State.faultScan_keeps)
    | (with_reducible first | apply State.lineReleased_keeps | apply State.modBank_keeps | apply State.stamp_keeps)
    | with_reducible apply Keeps.ite

theorem State.releaseMember_keeps {wm : Nat} {s0 s : State} (m : Fin 64) (h : Keeps wm s0 s) (hw : Within 0x800184040 wm) :
    Keeps wm s0 (State.releaseMember s m) := by
  unfold State.releaseMember
  repeat' first
    | (with_reducible first | assumption | exact hw | exact hw.mono (by decide)) | intro _
    | ((fail_if_no_progress extract_lets +onlyGivenNames x); refine Keeps.cut (w := wm) (s := s0) (v := x) ?_ ?_)
    | ((fail_if_no_progress extract_lets +onlyGivenNames x); clear_value x) | fail_if_no_progress extract_lets +onlyGivenNames x
    | (with_reducible first | apply State.mbrTo_keeps | apply State.modMbr_keeps | apply State.sendHoldup_keeps)
    | with_reducible apply Keeps.ite

theorem State.handback_keeps {wm : Nat} {s0 s : State} (cause : Nat) (h : Keeps wm s0 s) (hw : Within 0xc0218d850 wm) :
    Keeps wm s0 (State.handback s cause) := by
  unfold State.handback
  repeat' first
    | (with_reducible first | assumption | exact hw | exact hw.mono (by decide)) | intro _
    | ((fail_if_no_progress extract_lets +onlyGivenNames x); refine Keeps.cut (w := wm) (s := s0) (v := x) ?_ ?_)
    | fail_if_no_progress extract_lets +onlyGivenNames x
    | (with_reducible first | apply State.holdExitScan_keeps | apply State.holdTo_keeps | apply State.log_keeps)
    | (with_reducible first | apply State.loopHandback_keeps | apply State.releaseMember_keeps | apply State.stamp_keeps)
    | (with_reducible first | apply Keeps.ite | apply Keeps.foldl)

theorem State.tryHandback_keeps {wm : Nat} {s0 s : State} (h : Keeps wm s0 s) (hw : Within 0xc0218d850 wm) :
    Keeps wm s0 (State.tryHandback s) := by
  unfold State.tryHandback
  repeat' first
    | (with_reducible first | assumption | exact hw | exact hw.mono (by decide)) | intro _
    | fail_if_no_progress extract_lets +onlyGivenNames x
    | (with_reducible first | apply State.handback_keeps | apply State.modHold_keeps | apply Keeps.ite)

theorem execHoldReturnTimer_answers {wm : Nat} (s : State) (hw : Within 0xc0218d850 wm) :
    Answers wm s (execHoldReturnTimer s) := by
  unfold execHoldReturnTimer
  repeat' first
    | (with_reducible first | assumption | exact Keeps.refl _ _ | exact hw | exact hw.mono (by decide)) | intro _
    | fail_if_no_progress extract_lets +onlyGivenNames x
    | (with_reducible first | apply Answers.next | apply Answers.ite | apply State.modHold_keeps)
    | (with_reducible first | apply State.tryHandback_keeps | apply Keeps.ite)

theorem State.memberScan_keeps {wm : Nat} {s0 s : State} (h : Keeps wm s0 s) (hw : Within 0x100040 wm) :
    Keeps wm s0 (State.memberScan s) := by
  unfold State.memberScan
  repeat' first
    | (with_reducible first | assumption | exact hw | exact hw.mono (by decide)) | intro _
    | fail_if_no_progress extract_lets +onlyGivenNames x
    | (with_reducible first | apply State.outScan_keeps | apply Keeps.ite | apply Keeps.foldl)

theorem execHoldQuorumMet_answers {wm : Nat} (s : State) (hw : Within 0xc0218d850 wm) :
    Answers wm s (execHoldQuorumMet s) := by
  unfold execHoldQuorumMet
  repeat' first
    | (with_reducible first | assumption | exact Keeps.refl _ _ | exact hw | exact hw.mono (by decide)) | intro _
    | fail_if_no_progress extract_lets +onlyGivenNames x
    | (with_reducible first | apply Answers.next | apply Answers.ite | apply State.memberScan_keeps)
    | (with_reducible first | apply State.tryHandback_keeps | apply Keeps.ite)

theorem State.holdHandback_keeps {wm : Nat} {s0 s : State} (h : Keeps wm s0 s) (hw : Within 0xc0218d850 wm) :
    Keeps wm s0 (State.holdHandback s).1 := by
  unfold State.holdHandback
  repeat' first
    | (with_reducible first | assumption | exact hw | exact hw.mono (by decide)) | intro _
    | fail_if_no_progress extract_lets +onlyGivenNames x | (with_reducible first | apply State.handback_keeps | apply Keeps.ite)
    | dsimp -zeta only [x] | split

theorem execHoldCtrlHandback_answers (k : Fin 8) {wm : Nat} (s : State) (hw : Within 0xc0218d850 wm) :
    Answers wm s (execHoldCtrlHandback k s) := by
  unfold execHoldCtrlHandback
  repeat' first
    | (with_reducible first | assumption | exact Keeps.refl _ _ | exact hw | exact hw.mono (by decide)) | intro _
    | fail_if_no_progress extract_lets +onlyGivenNames x
    | (with_reducible first | apply Answers.next | apply Answers.ite | apply State.control_keeps)
    | with_reducible apply State.holdHandback_keeps

theorem State.modSpring_keeps {wm : Nat} {s0 s : State} (f : Spring → Spring) (h : Keeps wm s0 s) (hw : Within 0x40000000 wm) :
    Keeps wm s0 (State.modSpring s f) := by
  unfold State.modSpring
  repeat' first
    | (with_reducible first | assumption | exact hw | exact hw.mono (by decide)) | intro _
    | fail_if_no_progress extract_lets +onlyGivenNames x | with_reducible apply Keeps.ite | dsimp -zeta only [x]
    | (fail_if_no_progress ((with_reducible apply Keeps.upd); on_goal 2 => exact fun p hp => by cases p <;> first | with_reducible exact rfl | exact hw.no rfl hp))

theorem State.modFirm_keeps {wm : Nat} {s0 s : State} (f : Firm → Firm) (h : Keeps wm s0 s) (hw : Within 0x80000000 wm) (hf : s.firm.rollback ≤ (f s.firm).rollback) :
    Keeps wm s0 (State.modFirm s f) := by
  exact ⟨h.queue, h.tick, h.store, h.rollback.trans hf, h.drive, fun p hp => sameTrans (h.frame p hp) (by
    cases p <;> first | exact hw.no rfl hp | exact rfl)⟩

theorem State.modDev_keeps {wm : Nat} {s0 s : State} (f : Dev → Dev) (h : Keeps wm s0 s) (hw : Within 0x200000000 wm) :
    Keeps wm s0 (State.modDev s f) := by
  unfold State.modDev
  repeat' first
    | (with_reducible first | assumption | exact hw | exact hw.mono (by decide)) | intro _
    | fail_if_no_progress extract_lets +onlyGivenNames x | with_reducible apply Keeps.ite | dsimp -zeta only [x]
    | (fail_if_no_progress ((with_reducible apply Keeps.upd); on_goal 2 => exact fun p hp => by cases p <;> first | with_reducible exact rfl | exact hw.no rfl hp))

theorem State.modStems_keeps {wm : Nat} {s0 s : State} (f : Stems → Stems) (h : Keeps wm s0 s) (hw : Within 0x4000000 wm) :
    Keeps wm s0 (State.modStems s f) := by
  unfold State.modStems
  repeat' first
    | (with_reducible first | assumption | exact hw | exact hw.mono (by decide)) | intro _
    | fail_if_no_progress extract_lets +onlyGivenNames x | with_reducible apply Keeps.ite | dsimp -zeta only [x]
    | (fail_if_no_progress ((with_reducible apply Keeps.upd); on_goal 2 => exact fun p hp => by cases p <;> first | with_reducible exact rfl | exact hw.no rfl hp))

theorem State.modStem_keeps {wm : Nat} {s0 s : State} (k : Fin 2) (f : Stem → Stem) (h : Keeps wm s0 s) (hw : Within 0x4000000 wm) :
    Keeps wm s0 (State.modStem s k f) := by
  unfold State.modStem
  repeat' first
    | (with_reducible first | assumption | exact hw | exact hw.mono (by decide)) | intro _
    | fail_if_no_progress extract_lets +onlyGivenNames x | with_reducible apply State.modStems_keeps

theorem State.stemLost_keeps {wm : Nat} {s0 s : State} (core : Bool) (h : Keeps wm s0 s) (hw : Within 0xf9fb7fa5c wm) :
    Keeps wm s0 (State.stemLost s core) := by
  exact ⟨h.queue, h.tick, h.store, h.rollback, h.drive, fun p hp => sameTrans (h.frame p hp) (by
    cases p <;> first | exact hw.no rfl hp | exact rfl)⟩

theorem State.sourceDrop_keeps {wm : Nat} {s0 s : State} (h : Keeps wm s0 s) (hw : Within 0x4000101c0 wm) :
    Keeps wm s0 (State.sourceDrop s) := by
  unfold State.sourceDrop
  repeat' first
    | (with_reducible first | assumption | exact hw | exact hw.mono (by decide)) | exact fun _ h => h | exact fun _ h => armed_not_safe h
    | exact fun _ h => run_not_safe h | intro _ | fail_if_no_progress extract_lets +onlyGivenNames x
    | (with_reducible first | apply State.enterSafe_keeps | apply State.modBank_keeps | apply State.modDie_keeps)
    | (with_reducible first | apply Keeps.ite | apply Keeps.foldl)

theorem State.retPut_keeps {wm : Nat} {s0 s : State} (r : Ret) (h : Keeps wm s0 s) (hw : Within 0x40000000 wm) :
    Keeps wm s0 (State.retPut s r) := by
  unfold State.retPut
  repeat' first
    | (with_reducible first | assumption | exact hw | exact hw.mono (by decide)) | intro _
    | fail_if_no_progress extract_lets +onlyGivenNames x | with_reducible apply State.modSpring_keeps

theorem State.retWrite_keeps {wm : Nat} {s0 s : State} (h : Keeps wm s0 s) (hw : Within 0x40000000 wm) :
    Keeps wm s0 (State.retWrite s) := by
  unfold State.retWrite
  repeat' first
    | (with_reducible first | assumption | exact hw | exact hw.mono (by decide)) | intro _
    | fail_if_no_progress extract_lets +onlyGivenNames x | (with_reducible first | apply State.retPut_keeps | apply Keeps.ite)
    | dsimp -zeta only [x] | split

theorem State.resetTaken_keeps {wm : Nat} {s0 s : State} (kind : Nat) (cause : Nat) (record : Bool) (h : Keeps wm s0 s) (hw : Within 0x40000000 wm) :
    Keeps wm s0 (State.resetTaken s kind cause record) := by
  unfold State.resetTaken
  repeat' first
    | (with_reducible first | assumption | exact hw | exact hw.mono (by decide)) | intro _
    | fail_if_no_progress extract_lets +onlyGivenNames x | with_reducible apply State.modSpring_keeps

theorem State.bootOrder_keeps {wm : Nat} {s0 s : State} (h : Keeps wm s0 s) (hw : Within 0x80800000 wm) :
    Keeps wm s0 (State.bootOrder s).2 := by
  unfold State.bootOrder
  repeat' first
    | (with_reducible first | assumption | exact hw | exact hw.mono (by decide)) | intro _
    | ((fail_if_no_progress extract_lets +onlyGivenNames x); clear_value x) | fail_if_no_progress extract_lets +onlyGivenNames x
    | (with_reducible first | apply State.ledgerNeed_keeps | apply State.modFirm_keeps | apply Keeps.ite) | exact Nat.le_refl _
    | exact Nat.le_max_left _ _ | dsimp -zeta only [x] | split

theorem State.bootChoose_keeps {wm : Nat} {s0 s : State} (h : Keeps wm s0 s) (hw : Within 0x84800040 wm) :
    Keeps wm s0 (State.bootChoose s) := by
  unfold State.bootChoose
  repeat' first
    | (with_reducible first | assumption | exact hw | exact hw.mono (by decide)) | intro _
    | ((fail_if_no_progress extract_lets +onlyGivenNames x); refine Keeps.cut (w := wm) (s := s0) (v := x) ?_ ?_)
    | ((fail_if_no_progress extract_lets +onlyGivenNames x); refine Keeps.cut (w := wm) (s := s0) (v := x.2) ?_ ?_)
    | ((fail_if_no_progress extract_lets +onlyGivenNames x); clear_value x) | fail_if_no_progress extract_lets +onlyGivenNames x
    | (with_reducible first | apply State.bootOrder_keeps | apply State.log_keeps | apply State.modFirm_keeps)
    | (with_reducible first | apply State.modStems_keeps | apply Keeps.ite | apply Keeps.foldl | apply Keeps.foldlSnd)
    | with_reducible apply Keeps.foldlFst | exact Nat.le_refl _ | exact Nat.le_max_left _ _ | dsimp -zeta only [x] | split

theorem State.shutRecord_keeps {wm : Nat} {s0 s : State} (d : Fin 8) (h : Keeps wm s0 s) (hw : Within 0x8800040 wm) :
    Keeps wm s0 (State.shutRecord s d) := by
  unfold State.shutRecord
  repeat' first
    | (with_reducible first | assumption | exact hw | exact hw.mono (by decide)) | intro _
    | ((fail_if_no_progress extract_lets +onlyGivenNames x); refine Keeps.cut (w := wm) (s := s0) (v := x) ?_ ?_)
    | ((fail_if_no_progress extract_lets +onlyGivenNames x); clear_value x) | fail_if_no_progress extract_lets +onlyGivenNames x
    | (with_reducible first | apply State.ledgerNeed_keeps | apply State.logAt_keeps | apply Keeps.ite) | dsimp -zeta only [x]
    | (fail_if_no_progress ((with_reducible apply Keeps.upd); on_goal 2 => exact fun p hp => by cases p <;> first | with_reducible exact rfl | exact hw.no rfl hp))

theorem State.bootGenUp_keeps {wm : Nat} {s0 s : State} (h : Keeps wm s0 s) (hw : Within 0x100000 wm) :
    Keeps wm s0 (State.bootGenUp s) := by
  exact h.upd _ _ _ _ _ _ _ _ _ _ _ _ _ _ _ _ _ _ _ _ _ _ _ _ _ _ _ _ _ _ _ (fun p hp => by cases p <;> first | exact hw.no rfl hp | exact rfl)

theorem State.lowRecord_keeps {wm : Nat} {s0 s : State} (d : Fin 4) (h : Keeps wm s0 s) (hw : Within 0xc0 wm) :
    Keeps wm s0 (State.lowRecord s d) := by
  unfold State.lowRecord
  repeat' first
    | (with_reducible first | assumption | exact hw | exact hw.mono (by decide)) | exact fun _ h => h | exact fun _ h => armed_not_safe h
    | exact fun _ h => run_not_safe h | intro _ | fail_if_no_progress extract_lets +onlyGivenNames x
    | (with_reducible first | apply State.log_keeps | apply State.modDie_keeps | apply Keeps.ite)

theorem State.startStems_keeps {wm : Nat} {s0 s : State} (h : Keeps wm s0 s) (hw : Within 0x2cdd000c0 wm) :
    Keeps wm s0 (State.startStems s) := by
  unfold State.startStems
  repeat' first
    | (with_reducible first | assumption | exact hw | exact hw.mono (by decide)) | intro _
    | ((fail_if_no_progress extract_lets +onlyGivenNames x); refine Keeps.cut (w := wm) (s := s0) (v := x) ?_ ?_)
    | ((fail_if_no_progress extract_lets +onlyGivenNames x); clear_value x) | fail_if_no_progress extract_lets +onlyGivenNames x
    | (with_reducible first | apply State.bootChoose_keeps | apply State.bootGenUp_keeps | apply State.ledgerNeed_keeps)
    | (with_reducible first | apply State.logAt_keeps | apply State.log_keeps | apply State.lowRecord_keeps)
    | (with_reducible first | apply State.modDev_keeps | apply State.modSpring_keeps | apply State.retWrite_keeps)
    | (with_reducible first | apply State.shutRecord_keeps | apply State.spateStart_keeps | apply Keeps.ite)
    | (with_reducible first | apply Keeps.foldl | apply Keeps.foldlSnd | apply Keeps.foldlFst) | dsimp -zeta only [x] | split

theorem State.fwRestart_keeps {wm : Nat} {s0 s : State} (cause : Nat) (h : Keeps wm s0 s) (hw : Within 0xfdff7fbdc wm) :
    Keeps wm s0 (State.fwRestart s cause) := by
  unfold State.fwRestart
  repeat' first
    | (with_reducible first | assumption | exact hw | exact hw.mono (by decide)) | intro _
    | fail_if_no_progress extract_lets +onlyGivenNames x
    | (with_reducible first | apply State.resetTaken_keeps | apply State.sourceDrop_keeps | apply State.startStems_keeps)
    | with_reducible apply State.stemLost_keeps

theorem State.tearHead_keeps {wm : Nat} {s0 s : State} (h : Keeps wm s0 s) (hw : Within 0x400020 wm) :
    Keeps wm s0 (State.tearHead s) := by
  unfold State.tearHead
  repeat' first
    | (with_reducible first | assumption | exact hw | exact hw.mono (by decide)) | intro _
    | ((fail_if_no_progress extract_lets +onlyGivenNames x); refine Keeps.cut (w := wm) (s := s0) (v := x) ?_ ?_)
    | ((fail_if_no_progress extract_lets +onlyGivenNames x); clear_value x) | fail_if_no_progress extract_lets +onlyGivenNames x
    | (with_reducible first | apply State.store_keeps | apply Keeps.ite | apply Keeps.foldl | apply Keeps.foldlSnd)
    | with_reducible apply Keeps.foldlFst | dsimp -zeta only [x] | split | dsimp -zeta only
    | (fail_if_no_progress ((with_reducible apply Keeps.upd); on_goal 2 => exact fun p hp => by cases p <;> first | with_reducible exact rfl | exact hw.no rfl hp))

theorem State.resetFrom_low (s s1 : State) (ref : Bool) (q : Fin 48) : (s.resetFrom s1 ref).ph[q].pl = Phase.reset.pl := by
  simp [State.resetFrom]

theorem State.fullReset_keeps {wm : Nat} {s0 s : State} (kind : Nat) (ref : Bool) (h : Keeps wm s0 s) (hw : Within 0xfffffffff wm) :
    Keeps wm s0 (State.fullReset s kind ref) := by
  have h1 := State.stemLost_keeps false (State.sourceDrop_keeps (State.resetTaken_keeps kind 0 true (State.tearHead_keeps h (hw.mono (by decide)))
    (hw.mono (by decide))) (hw.mono (by decide))) (hw.mono (by decide))
  have key : ∀ s1 : State, Keeps wm s0 s1 → Keeps wm s0 (s.resetFrom s1 ref) := fun s1 h1 => by
    have e1 : (s.resetFrom s1 ref).pending = s1.pending := rfl
    have e2 : (s.resetFrom s1 ref).clk.tick = s.clk.tick := rfl
    have e3 : (s.resetFrom s1 ref).mram = s1.mram := rfl
    have e4 : (s.resetFrom s1 ref).firm = s1.firm := rfl
    refine ⟨e1.trans h1.queue, e2.trans h.tick, fun g => by rw [e3]; exact h1.store g, by rw [e4]; exact h1.rollback,
      fun _ => ⟨fun q => ?_, fun q _ => ?_⟩, fun p hp => sameTrans (h1.frame p hp) ?_⟩
    · rw [State.resetFrom_low]
      exact fun e => Bool.false_ne_true e.1
    · rw [State.resetFrom_low]
      exact ⟨rfl, rfl⟩
    · cases p <;> first | exact hw.no rfl hp | exact rfl
  exact Keeps.ite (key _ h1) (State.modBank_keeps _ (key _ h1) (hw.mono (by decide)))

end Sys2Proof.Machine
end

