-- ==== Sys2Proof/Laws/KeepsD.lean ====
section
/-! SUPPORT. What the operations keep (see Keeps.lean), one lemma each: those of StemOps.lean, Stems.lean, ThermOps.lean, TimeBase.lean, Eddy.lean. -/

set_option linter.tactic.unusedName false
set_option linter.unreachableTactic false
set_option linter.unusedTactic false

namespace Sys2Proof.Machine

theorem State.stemNotice_keeps {wm : Nat} {s0 s : State} (event : Nat) (h : Keeps wm s0 s) (hw : Within 0x802000000 wm) :
    Keeps wm s0 (State.stemNotice s event) := by
  unfold State.stemNotice
  repeat' first
    | (with_reducible first | assumption | exact hw | exact hw.mono (by decide)) | intro _
    | fail_if_no_progress extract_lets +onlyGivenNames x | with_reducible apply State.noticeAll_keeps

theorem State.releaseWaiting_keeps {wm : Nat} {s0 s : State} (k : Fin 2) (h : Keeps wm s0 s) (hw : Within 0x804000000 wm) :
    Keeps wm s0 (State.releaseWaiting s k) := by
  unfold State.releaseWaiting
  repeat' first
    | (with_reducible first | assumption | exact hw | exact hw.mono (by decide)) | intro _
    | ((fail_if_no_progress extract_lets +onlyGivenNames x); clear_value x) | fail_if_no_progress extract_lets +onlyGivenNames x
    | (with_reducible first | apply State.modStems_keeps | apply Keeps.ite | apply Keeps.foldl | apply Keeps.foldlSnd)
    | with_reducible apply Keeps.foldlFst | dsimp -zeta only [x]
    | (fail_if_no_progress ((with_reducible apply Keeps.upd); on_goal 2 => exact fun p hp => by cases p <;> first | with_reducible exact rfl | exact hw.no rfl hp))

theorem State.switchTo_keeps {wm : Nat} {s0 s : State} (k : Fin 2) (cause : Nat) (kind : Nat) (old : StemState) (h : Keeps wm s0 s) (hw : Within 0x804001040 wm) :
    Keeps wm s0 (State.switchTo s k cause kind old) := by
  unfold State.switchTo
  repeat' first
    | (with_reducible first | assumption | exact hw | exact hw.mono (by decide)) | intro _
    | ((fail_if_no_progress extract_lets +onlyGivenNames x); refine Keeps.cut (w := wm) (s := s0) (v := x) ?_ ?_)
    | fail_if_no_progress extract_lets +onlyGivenNames x
    | (with_reducible first | apply State.faultScan_keeps | apply State.modStem_keeps | apply State.modStems_keeps)
    | with_reducible apply State.releaseWaiting_keeps

theorem State.stemRestart_keeps {wm : Nat} {s0 s : State} (k : Fin 2) (watchdog : Bool) (h : Keeps wm s0 s) (hw : Within 0xc4000000 wm) :
    Keeps wm s0 (State.stemRestart s k watchdog) := by
  unfold State.stemRestart
  repeat' first
    | (with_reducible first | assumption | exact hw | exact hw.mono (by decide)) | intro _
    | ((fail_if_no_progress extract_lets +onlyGivenNames x); refine Keeps.cut (w := wm) (s := s0) (v := x) ?_ ?_)
    | fail_if_no_progress extract_lets +onlyGivenNames x
    | (with_reducible first | apply State.modFirm_keeps | apply State.modStem_keeps | apply State.resetTaken_keeps)
    | with_reducible apply Keeps.ite | exact Nat.le_refl _

theorem State.eddyReload_keeps {wm : Nat} {s0 s : State} (l : Fin 16) (h : Keeps wm s0 s) (hw : Within 0x800 wm) :
    Keeps wm s0 (State.eddyReload s l) := by
  unfold State.eddyReload
  repeat' first
    | (with_reducible first | assumption | exact hw | exact hw.mono (by decide)) | intro _
    | fail_if_no_progress extract_lets +onlyGivenNames x | with_reducible apply State.modCt_keeps

theorem State.stemFail_keeps {wm : Nat} {s0 s : State} (k : Fin 2) (cause : Nat) (kind : Nat) (loop : Fin 16) (h : Keeps wm s0 s) (hw : Within 0xfdff7fbdc wm) :
    Keeps wm s0 (State.stemFail s k cause kind loop) := by
  unfold State.stemFail
  repeat' first
    | (with_reducible first | assumption | exact hw | exact hw.mono (by decide)) | intro _
    | ((fail_if_no_progress extract_lets +onlyGivenNames x); refine Keeps.cut (w := wm) (s := s0) (v := x) ?_ ?_)
    | ((fail_if_no_progress extract_lets +onlyGivenNames x); have _ : _ → _ → State := x)
    | ((fail_if_no_progress extract_lets +onlyGivenNames x); clear_value x) | fail_if_no_progress extract_lets +onlyGivenNames x
    | (with_reducible first | apply State.eddyReload_keeps | apply State.fwRestart_keeps | apply State.log_keeps)
    | (with_reducible first | apply State.modStem_keeps | apply State.modStems_keeps | apply State.stemNotice_keeps)
    | (with_reducible first | apply State.stemRestart_keeps | apply State.switchTo_keeps | apply Keeps.ite) | dsimp -zeta only [x] | split

theorem State.toSync_keeps {wm : Nat} {s0 s : State} (k : Fin 2) (h : Keeps wm s0 s) (hw : Within 0x4000000 wm) :
    Keeps wm s0 (State.toSync s k) := by
  unfold State.toSync
  repeat' first
    | (with_reducible first | assumption | exact hw | exact hw.mono (by decide)) | intro _
    | fail_if_no_progress extract_lets +onlyGivenNames x | (with_reducible first | apply State.modStem_keeps | apply State.modStems_keeps)

theorem State.diverge_keeps {wm : Nat} {s0 s : State} (g : Nat) (kind : Nat) (oseq : Nat) (h : Keeps wm s0 s) (hw : Within 0x806000040 wm) :
    Keeps wm s0 (State.diverge s g kind oseq) := by
  unfold State.diverge
  repeat' first
    | (with_reducible first | assumption | exact hw | exact hw.mono (by decide)) | intro _
    | fail_if_no_progress extract_lets +onlyGivenNames x
    | (with_reducible first | apply State.log_keeps | apply State.modStems_keeps | apply State.stemNotice_keeps)
    | (with_reducible first | apply State.toSync_keeps | apply Keeps.ite) | dsimp -zeta only [x] | split

theorem State.doubtful_keeps {wm : Nat} {s0 s : State} (g : Nat) (kind : Nat) (oseq : Nat) (h : Keeps wm s0 s) (hw : Within 0x4000000 wm) :
    Keeps wm s0 (State.doubtful s g kind oseq) := by
  unfold State.doubtful
  repeat' first
    | (with_reducible first | assumption | exact hw | exact hw.mono (by decide)) | intro _
    | fail_if_no_progress extract_lets +onlyGivenNames x | with_reducible apply State.modStems_keeps

theorem State.doubtEnd_keeps {wm : Nat} {s0 s : State} (h : Keeps wm s0 s) (hw : Within 0x806001040 wm) :
    Keeps wm s0 (State.doubtEnd s) := by
  unfold State.doubtEnd
  repeat' first
    | (with_reducible first | assumption | exact hw | exact hw.mono (by decide)) | intro _
    | fail_if_no_progress extract_lets +onlyGivenNames x
    | (with_reducible first | apply State.diverge_keeps | apply State.faultScan_keeps | apply State.modStems_keeps)
    | with_reducible apply Keeps.ite | dsimp -zeta only [x] | split

theorem State.syncFail_keeps {wm : Nat} {s0 s : State} (cause : Nat) (blocks : Nat) (h : Keeps wm s0 s) (hw : Within 0x8c6001040 wm) :
    Keeps wm s0 (State.syncFail s cause blocks) := by
  unfold State.syncFail
  repeat' first
    | (with_reducible first | assumption | exact hw | exact hw.mono (by decide)) | intro _
    | fail_if_no_progress extract_lets +onlyGivenNames x
    | (with_reducible first | apply State.faultScan_keeps | apply State.log_keeps | apply State.modStems_keeps)
    | (with_reducible first | apply State.stemNotice_keeps | apply State.stemRestart_keeps | apply Keeps.ite) | dsimp -zeta only [x]
    | split

theorem State.stemSwitch_keeps {wm : Nat} {s0 s : State} (h : Keeps wm s0 s) (hw : Within 0x804001040 wm) :
    Keeps wm s0 (State.stemSwitch s).1 := by
  unfold State.stemSwitch
  repeat' first
    | (with_reducible first | assumption | exact hw | exact hw.mono (by decide)) | intro _
    | fail_if_no_progress extract_lets +onlyGivenNames x | (with_reducible first | apply State.switchTo_keeps | apply Keeps.ite)
    | dsimp -zeta only [x] | split

theorem State.stemResync_keeps {wm : Nat} {s0 s : State} (h : Keeps wm s0 s) (hw : Within 0x4001040 wm) :
    Keeps wm s0 (State.stemResync s).1 := by
  unfold State.stemResync
  repeat' first
    | (with_reducible first | assumption | exact hw | exact hw.mono (by decide)) | intro _
    | fail_if_no_progress extract_lets +onlyGivenNames x
    | (with_reducible first | apply State.faultScan_keeps | apply State.log_keeps | apply State.toSync_keeps | apply Keeps.ite)
    | dsimp -zeta only [x] | split

theorem State.stemRestartCtl_keeps {wm : Nat} {s0 s : State} (h : Keeps wm s0 s) (hw : Within 0x4001040 wm) :
    Keeps wm s0 (State.stemRestartCtl s).1 := by
  unfold State.stemRestartCtl
  repeat' first
    | (with_reducible first | assumption | exact hw | exact hw.mono (by decide)) | intro _
    | fail_if_no_progress extract_lets +onlyGivenNames x
    | (with_reducible first | apply State.faultScan_keeps | apply State.modStem_keeps | apply Keeps.ite | apply Keeps.iteFst)
    | dsimp -zeta only [x] | split

theorem execStemHeartbeat_answers (k : Fin 2) (count : Nat) {wm : Nat} (s : State) (hw : Within 0x4000000 wm) :
    Answers wm s (execStemHeartbeat k count s) := by
  unfold execStemHeartbeat
  repeat' first
    | (with_reducible first | assumption | exact Keeps.refl _ _ | exact hw | exact hw.mono (by decide)) | intro _
    | fail_if_no_progress extract_lets +onlyGivenNames x
    | (with_reducible first | apply Answers.next | apply Answers.ite | apply State.modStem_keeps | apply Keeps.ite)

theorem execStemSilence_answers (k : Fin 2) {wm : Nat} (s : State) (hw : Within 0xfdff7fbdc wm) :
    Answers wm s (execStemSilence k s) := by
  unfold execStemSilence
  repeat' first
    | (with_reducible first | assumption | exact Keeps.refl _ _ | exact hw | exact hw.mono (by decide)) | intro _
    | fail_if_no_progress extract_lets +onlyGivenNames x
    | (with_reducible first | apply Answers.next | apply Answers.ite | apply State.faultScan_keeps)
    | (with_reducible first | apply State.stemFail_keeps | apply Keeps.ite)

theorem State.passCopy_keeps {wm : Nat} {s0 s : State} (g : Fin 5) (oseq : Nat) (h : Keeps wm s0 s) (hw : Within 0x800000000 wm) :
    Keeps wm s0 (State.passCopy s g oseq) := by
  unfold State.passCopy
  repeat' first
    | (with_reducible first | assumption | exact hw | exact hw.mono (by decide)) | intro _
    | fail_if_no_progress extract_lets +onlyGivenNames x | with_reducible apply Keeps.ite | dsimp -zeta only [x]
    | (fail_if_no_progress ((with_reducible apply Keeps.upd); on_goal 2 => exact fun p hp => by cases p <;> first | with_reducible exact rfl | exact hw.no rfl hp))

theorem State.disagree_keeps {wm : Nat} {s0 s : State} (h : Keeps wm s0 s) (hw : Within 0x4000000 wm) :
    Keeps wm s0 (State.disagree s) := by
  unfold State.disagree
  repeat' first
    | (with_reducible first | assumption | exact hw | exact hw.mono (by decide)) | intro _
    | fail_if_no_progress extract_lets +onlyGivenNames x | with_reducible apply State.modStems_keeps

theorem execStemOutputCopy_answers (k : Fin 2) (g : Fin 5) (oseq : Nat) (bits : List Byte) {wm : Nat} (s : State) (hw : Within 0x804000000 wm) :
    Answers wm s (execStemOutputCopy k g oseq bits s) := by
  unfold execStemOutputCopy
  repeat' first
    | (with_reducible first | assumption | exact Keeps.refl _ _ | exact hw | exact hw.mono (by decide)) | intro _
    | ((fail_if_no_progress extract_lets +onlyGivenNames x); refine Keeps.cut (w := wm) (s := s) (v := x) ?_ ?_)
    | fail_if_no_progress extract_lets +onlyGivenNames x
    | (with_reducible first | apply Answers.next | apply Answers.ite | apply State.disagree_keeps | apply State.doubtful_keeps)
    | (with_reducible first | apply State.modStems_keeps | apply State.passCopy_keeps | apply Keeps.ite) | dsimp -zeta only [x] | split

theorem execStemOutputLate_answers {wm : Nat} (s : State) (hw : Within 0xfdff7fbdc wm) :
    Answers wm s (execStemOutputLate s) := by
  unfold execStemOutputLate
  repeat' first
    | (with_reducible first | assumption | exact Keeps.refl _ _ | exact hw | exact hw.mono (by decide)) | intro _
    | fail_if_no_progress extract_lets +onlyGivenNames x
    | (with_reducible first | apply Answers.next | apply Answers.ite | apply State.disagree_keeps | apply State.doubtful_keeps)
    | (with_reducible first | apply State.faultScan_keeps | apply State.modStems_keeps | apply State.stemFail_keeps)
    | with_reducible apply Keeps.ite | dsimp -zeta only [x] | split

theorem execStemFaultReport_answers (k : Fin 2) (kind : Nat) (l : Fin 16) {wm : Nat} (s : State) (hw : Within 0xfdff7fbdc wm) :
    Answers wm s (execStemFaultReport k kind l s) := by
  unfold execStemFaultReport
  repeat' first
    | (with_reducible first | assumption | exact Keeps.refl _ _ | exact hw | exact hw.mono (by decide)) | intro _
    | ((fail_if_no_progress extract_lets +onlyGivenNames x); refine Keeps.cut (w := wm) (s := s) (v := x) ?_ ?_)
    | fail_if_no_progress extract_lets +onlyGivenNames x
    | (with_reducible first | apply Answers.next | apply Answers.ite | apply State.faultScan_keeps | apply State.modStem_keeps)
    | (with_reducible first | apply State.stemFail_keeps | apply Keeps.ite) | dsimp -zeta only [x]
    | (fail_if_no_progress ((with_reducible apply Keeps.upd); on_goal 2 => exact fun p hp => by cases p <;> first | with_reducible exact rfl | exact hw.no rfl hp))

theorem execStemSwitchoverInput_answers {wm : Nat} (s : State) (hw : Within 0x817000050 wm) :
    Answers wm s (execStemSwitchoverInput s) := by
  unfold execStemSwitchoverInput
  repeat' first
    | (with_reducible first | assumption | exact Keeps.refl _ _ | exact hw | exact hw.mono (by decide)) | intro _
    | ((fail_if_no_progress extract_lets +onlyGivenNames x); refine Keeps.cut (w := wm) (s := s) (v := x) ?_ ?_)
    | fail_if_no_progress extract_lets +onlyGivenNames x
    | (with_reducible first | apply Answers.next | apply Answers.ite | apply State.captureEvent_keeps | apply State.log_keeps)
    | (with_reducible first | apply State.modHost_keeps | apply State.modStems_keeps | apply State.spateReq_keeps)
    | (with_reducible first | apply State.stamp_keeps | apply State.stemNotice_keeps | apply Keeps.ite) | dsimp -zeta only [x] | split

theorem execStemWatchdogExpire_answers (k : Fin 2) {wm : Nat} (s : State) (hw : Within 0xfdff7fbdc wm) :
    Answers wm s (execStemWatchdogExpire k s) := by
  unfold execStemWatchdogExpire
  repeat' first
    | (with_reducible first | assumption | exact Keeps.refl _ _ | exact hw | exact hw.mono (by decide)) | intro _
    | fail_if_no_progress extract_lets +onlyGivenNames x
    | (with_reducible first | apply Answers.next | apply Answers.ite | apply State.faultScan_keeps)
    | (with_reducible first | apply State.fwRestart_keeps | apply State.stemFail_keeps | apply Keeps.ite)

theorem execBridgeFlitCrcFail_answers (link : Fin 6) (resent : Fin 4) {wm : Nat} (s : State) (hw : Within 0x4002040 wm) :
    Answers wm s (execBridgeFlitCrcFail link resent s) := by
  unfold execBridgeFlitCrcFail
  repeat' first
    | (with_reducible first | assumption | exact Keeps.refl _ _ | exact hw | exact hw.mono (by decide)) | intro _
    | fail_if_no_progress extract_lets +onlyGivenNames x
    | (with_reducible first | apply Answers.next | apply Answers.ite | apply State.log_keeps | apply State.modStems_keeps)
    | with_reducible apply Keeps.ite | dsimp -zeta only [x]
    | (fail_if_no_progress ((with_reducible apply Keeps.upd); on_goal 2 => exact fun p hp => by cases p <;> first | with_reducible exact rfl | exact hw.no rfl hp))

theorem State.beats_keeps {wm : Nat} {s0 s : State} (k : Fin 2) (h : Keeps wm s0 s) (hw : Within 0x4000000 wm) :
    Keeps wm s0 (State.beats s k) := by
  unfold State.beats
  repeat' first
    | (with_reducible first | assumption | exact hw | exact hw.mono (by decide)) | intro _
    | fail_if_no_progress extract_lets +onlyGivenNames x | with_reducible apply State.modStem_keeps

theorem execStemBootComplete_answers (k : Fin 2) {wm : Nat} (s : State) (hw : Within 0x4001050 wm) :
    Answers wm s (execStemBootComplete k s) := by
  unfold execStemBootComplete
  repeat' first
    | (with_reducible first | assumption | exact Keeps.refl _ _ | exact hw | exact hw.mono (by decide)) | intro _
    | ((fail_if_no_progress extract_lets +onlyGivenNames x); refine Keeps.cut (w := wm) (s := s) (v := x) ?_ ?_)
    | ((fail_if_no_progress extract_lets +onlyGivenNames x); clear_value x) | fail_if_no_progress extract_lets +onlyGivenNames x
    | (with_reducible first | apply Answers.next | apply Answers.ite | apply State.beats_keeps | apply State.faultScan_keeps)
    | (with_reducible first | apply State.log_keeps | apply State.modStem_keeps | apply State.toSync_keeps | apply Keeps.ite)
    | dsimp -zeta only [x] | split | dsimp -zeta only
    | (fail_if_no_progress ((with_reducible apply Keeps.upd); on_goal 2 => exact fun p hp => by cases p <;> first | with_reducible exact rfl | exact hw.no rfl hp))

theorem execStemRestartComplete_answers (k : Fin 2) {wm : Nat} (s : State) (hw : Within 0x806001040 wm) :
    Answers wm s (execStemRestartComplete k s) := by
  unfold execStemRestartComplete
  repeat' first
    | (with_reducible first | assumption | exact Keeps.refl _ _ | exact hw | exact hw.mono (by decide)) | intro _
    | ((fail_if_no_progress extract_lets +onlyGivenNames x); clear_value x) | fail_if_no_progress extract_lets +onlyGivenNames x
    | (with_reducible first | apply Answers.next | apply Answers.ite | apply State.faultScan_keeps | apply State.log_keeps)
    | (with_reducible first | apply State.modStem_keeps | apply State.stemNotice_keeps | apply Keeps.ite)

theorem execStemResyncPass_answers (dirty : Bool) {wm : Nat} (s : State) (hw : Within 0x6000024 wm) :
    Answers wm s (execStemResyncPass dirty s) := by
  unfold execStemResyncPass
  repeat' first
    | (with_reducible first | assumption | exact Keeps.refl _ _ | exact hw | exact hw.mono (by decide)) | intro _
    | ((fail_if_no_progress extract_lets +onlyGivenNames x); clear_value x) | fail_if_no_progress extract_lets +onlyGivenNames x
    | (with_reducible first | apply Answers.next | apply Answers.ite | apply State.modStems_keeps)
    | (with_reducible first | apply State.sluiceStall_keeps | apply State.sluiceWork_keeps | apply State.stage_keeps)
    | with_reducible apply Keeps.ite | dsimp -zeta only [x] | split

theorem execStemDigestRound_answers (mismatched : Nat) {wm : Nat} (s : State) (hw : Within 0x8c6001044 wm) :
    Answers wm s (execStemDigestRound mismatched s) := by
  unfold execStemDigestRound
  repeat' first
    | (with_reducible first | assumption | exact Keeps.refl _ _ | exact hw | exact hw.mono (by decide)) | intro _
    | fail_if_no_progress extract_lets +onlyGivenNames x
    | (with_reducible first | apply Answers.next | apply Answers.ite | apply State.modStems_keeps)
    | (with_reducible first | apply State.sluiceStall_keeps | apply State.stage_keeps | apply State.syncFail_keeps)
    | with_reducible apply Keeps.ite | dsimp -zeta only [x] | split

theorem execStemSyncAgreement_answers {wm : Nat} (s : State) (hw : Within 0x806001040 wm) :
    Answers wm s (execStemSyncAgreement s) := by
  unfold execStemSyncAgreement
  repeat' first
    | (with_reducible first | assumption | exact Keeps.refl _ _ | exact hw | exact hw.mono (by decide)) | intro _
    | ((fail_if_no_progress extract_lets +onlyGivenNames x); clear_value x) | fail_if_no_progress extract_lets +onlyGivenNames x
    | (with_reducible first | apply Answers.next | apply Answers.ite | apply State.faultScan_keeps | apply State.log_keeps)
    | (with_reducible first | apply State.modStem_keeps | apply State.modStems_keeps | apply State.stage_keeps)
    | (with_reducible first | apply State.stemNotice_keeps | apply Keeps.ite) | dsimp -zeta only [x] | split

theorem execStemResyncTimeout_answers {wm : Nat} (s : State) (hw : Within 0x8c6001040 wm) :
    Answers wm s (execStemResyncTimeout s) := by
  unfold execStemResyncTimeout
  repeat' first
    | (with_reducible first | assumption | exact Keeps.refl _ _ | exact hw | exact hw.mono (by decide)) | intro _
    | fail_if_no_progress extract_lets +onlyGivenNames x
    | (with_reducible first | apply Answers.next | apply Answers.ite | apply State.syncFail_keeps | apply Keeps.ite)
    | dsimp -zeta only [x] | split

theorem execStemCtrlSwitchover_answers (k : Fin 8) {wm : Nat} (s : State) (hw : Within 0x806001040 wm) :
    Answers wm s (execStemCtrlSwitchover k s) := by
  unfold execStemCtrlSwitchover
  repeat' first
    | (with_reducible first | assumption | exact Keeps.refl _ _ | exact hw | exact hw.mono (by decide)) | intro _
    | fail_if_no_progress extract_lets +onlyGivenNames x
    | (with_reducible first | apply Answers.next | apply Answers.ite | apply State.control_keeps)
    | with_reducible apply State.stemSwitch_keeps

theorem execStemCtrlResync_answers (k : Fin 8) {wm : Nat} (s : State) (hw : Within 0x6001040 wm) :
    Answers wm s (execStemCtrlResync k s) := by
  unfold execStemCtrlResync
  repeat' first
    | (with_reducible first | assumption | exact Keeps.refl _ _ | exact hw | exact hw.mono (by decide)) | intro _
    | fail_if_no_progress extract_lets +onlyGivenNames x
    | (with_reducible first | apply Answers.next | apply Answers.ite | apply State.control_keeps)
    | with_reducible apply State.stemResync_keeps

theorem execStemCtrlRestartStandby_answers (k : Fin 8) {wm : Nat} (s : State) (hw : Within 0x6001040 wm) :
    Answers wm s (execStemCtrlRestartStandby k s) := by
  unfold execStemCtrlRestartStandby
  repeat' first
    | (with_reducible first | assumption | exact Keeps.refl _ _ | exact hw | exact hw.mono (by decide)) | intro _
    | fail_if_no_progress extract_lets +onlyGivenNames x
    | (with_reducible first | apply Answers.next | apply Answers.ite | apply State.control_keeps)
    | with_reducible apply State.stemRestartCtl_keeps

theorem State.modTherm_keeps {wm : Nat} {s0 s : State} (f : Therm → Therm) (h : Keeps wm s0 s) (hw : Within 0x8000000 wm) :
    Keeps wm s0 (State.modTherm s f) := by
  unfold State.modTherm
  repeat' first
    | (with_reducible first | assumption | exact hw | exact hw.mono (by decide)) | intro _
    | fail_if_no_progress extract_lets +onlyGivenNames x | with_reducible apply Keeps.ite | dsimp -zeta only [x]
    | (fail_if_no_progress ((with_reducible apply Keeps.upd); on_goal 2 => exact fun p hp => by cases p <;> first | with_reducible exact rfl | exact hw.no rfl hp))

theorem State.modTd_keeps {wm : Nat} {s0 s : State} (d : Fin 8) (f : ThDie → ThDie) (h : Keeps wm s0 s) (hw : Within 0x8000000 wm) :
    Keeps wm s0 (State.modTd s d f) := by
  unfold State.modTd
  repeat' first
    | (with_reducible first | assumption | exact hw | exact hw.mono (by decide)) | intro _
    | fail_if_no_progress extract_lets +onlyGivenNames x | with_reducible apply State.modTherm_keeps

theorem State.scanRead_keeps {wm : Nat} {s0 s : State} (raw : Vector Int 44) (xt : Vector Nat 16) (h : Keeps wm s0 s) (hw : Within 0x8000000 wm) :
    Keeps wm s0 (State.scanRead s raw xt) := by
  unfold State.scanRead
  repeat' first
    | (with_reducible first | assumption | exact hw | exact hw.mono (by decide)) | intro _
    | ((fail_if_no_progress extract_lets +onlyGivenNames x); refine Keeps.cut (w := wm) (s := s0) (v := x) ?_ ?_)
    | ((fail_if_no_progress extract_lets +onlyGivenNames x); clear_value x) | fail_if_no_progress extract_lets +onlyGivenNames x
    | with_reducible apply State.modTherm_keeps

theorem State.sensorLog_keeps {wm : Nat} {s0 s : State} (old : State) (n : Fin 64) (ofs : Option Int) (h : Keeps wm s0 s) (hw : Within 0x40 wm) :
    Keeps wm s0 (State.sensorLog s old n ofs) := by
  unfold State.sensorLog
  repeat' first
    | (with_reducible first | assumption | exact hw | exact hw.mono (by decide)) | intro _
    | ((fail_if_no_progress extract_lets +onlyGivenNames x); refine Keeps.cut (w := wm) (s := s0) (v := x) ?_ ?_)
    | ((fail_if_no_progress extract_lets +onlyGivenNames x); clear_value x) | fail_if_no_progress extract_lets +onlyGivenNames x
    | (with_reducible first | apply State.log_keeps | apply Keeps.ite) | dsimp -zeta only [x] | split

theorem State.hotScan_keeps {wm : Nat} {s0 s : State} (h : Keeps wm s0 s) (hw : Within 0x4000000 wm) :
    Keeps wm s0 (State.hotScan s) := by
  unfold State.hotScan
  repeat' first
    | (with_reducible first | assumption | exact hw | exact hw.mono (by decide)) | intro _
    | ((fail_if_no_progress extract_lets +onlyGivenNames x); clear_value x) | fail_if_no_progress extract_lets +onlyGivenNames x
    | with_reducible apply State.modStem_keeps

theorem State.hotHold_keeps {wm : Nat} {s0 s : State} (h : Keeps wm s0 s) (hw : Within 0x204000080 wm) :
    Keeps wm s0 (State.hotHold s) := by
  unfold State.hotHold
  repeat' first
    | (with_reducible first | assumption | exact hw | exact hw.mono (by decide)) | exact fun _ h => h | exact fun _ h => armed_not_safe h
    | exact fun _ h => run_not_safe h | intro _
    | ((fail_if_no_progress extract_lets +onlyGivenNames x); refine Keeps.cut (w := wm) (s := s0) (v := x) ?_ ?_)
    | fail_if_no_progress extract_lets +onlyGivenNames x
    | (with_reducible first | apply State.hotScan_keeps | apply State.modDev_keeps | apply State.modDie_keeps)
    | (with_reducible first | apply Keeps.ite | apply Keeps.foldl)

theorem State.thermStop_keeps {wm : Nat} {s0 s : State} (k : Fin 4) (h : Keeps wm s0 s) (hw : Within 0xc09001bd0 wm) :
    Keeps wm s0 (State.thermStop s k) := by
  unfold State.thermStop
  repeat' first
    | (with_reducible first | assumption | exact hw | exact hw.mono (by decide)) | intro _
    | ((fail_if_no_progress extract_lets +onlyGivenNames x); clear_value x) | fail_if_no_progress extract_lets +onlyGivenNames x
    | (with_reducible first | apply State.modTherm_keeps | apply State.spateReq_keeps | apply State.stamp_keeps)
    | (with_reducible first | apply State.stopLoop_keeps | apply Keeps.ite | apply Keeps.foldl)

theorem State.dieHold_keeps {wm : Nat} {s0 s : State} (k : Fin 4) (h : Keeps wm s0 s) (hw : Within 0x400000180 wm) :
    Keeps wm s0 (State.dieHold s k) := by
  unfold State.dieHold
  repeat' first
    | (with_reducible first | assumption | exact hw | exact hw.mono (by decide)) | exact fun _ h => h | exact fun _ h => armed_not_safe h
    | exact fun _ h => run_not_safe h | intro _ | ((fail_if_no_progress extract_lets +onlyGivenNames x); clear_value x)
    | fail_if_no_progress extract_lets +onlyGivenNames x | (with_reducible first | apply State.dieDown_keeps | apply State.modDie_keeps)

theorem State.deltaDown_keeps {wm : Nat} {s0 s : State} (h : Keeps wm s0 s) (hw : Within 0xf9fbffbdc wm) :
    Keeps wm s0 (State.deltaDown s) := by
  unfold State.deltaDown
  repeat' first
    | (with_reducible first | assumption | exact hw | exact hw.mono (by decide)) | intro _
    | ((fail_if_no_progress extract_lets +onlyGivenNames x); refine Keeps.cut (w := wm) (s := s0) (v := x) ?_ ?_)
    | ((fail_if_no_progress extract_lets +onlyGivenNames x); clear_value x) | fail_if_no_progress extract_lets +onlyGivenNames x
    | (with_reducible first | apply State.hotScan_keeps | apply State.modDev_keeps | apply State.sourceDrop_keeps)
    | (with_reducible first | apply State.stemLost_keeps | apply Keeps.ite) | dsimp -zeta only [x]
    | (fail_if_no_progress ((with_reducible apply Keeps.upd); on_goal 2 => exact fun p hp => by cases p <;> first | with_reducible exact rfl | exact hw.no rfl hp))

theorem State.dieShut_keeps {wm : Nat} {s0 s : State} (d : Fin 8) (h : Keeps wm s0 s) (hw : Within 0xfdffffbdc wm) :
    Keeps wm s0 (State.dieShut s d) := by
  unfold State.dieShut
  repeat' first
    | (with_reducible first | assumption | exact hw | exact hw.mono (by decide)) | intro _
    | fail_if_no_progress extract_lets +onlyGivenNames x
    | (with_reducible first | apply State.bankAllOff_keeps | apply State.deltaDown_keeps | apply State.dieHold_keeps)
    | (with_reducible first | apply State.hotScan_keeps | apply State.modBank_keeps | apply State.stemFail_keeps)
    | (with_reducible first | apply State.thermStop_keeps | apply Keeps.ite) | dsimp -zeta only [x] | split

theorem State.thermShutdown_keeps {wm : Nat} {s0 s : State} (d : Fin 8) (temp : Int) (hottest : Nat) (h : Keeps wm s0 s) (hw : Within 0xfdffffbdc wm) :
    Keeps wm s0 (State.thermShutdown s d temp hottest) := by
  unfold State.thermShutdown
  repeat' first
    | (with_reducible first | assumption | exact hw | exact hw.mono (by decide)) | intro _
    | ((fail_if_no_progress extract_lets +onlyGivenNames x); refine Keeps.cut (w := wm) (s := s0) (v := x) ?_ ?_)
    | ((fail_if_no_progress extract_lets +onlyGivenNames x); clear_value x) | fail_if_no_progress extract_lets +onlyGivenNames x
    | (with_reducible first | apply State.dieShut_keeps | apply State.faultScan_keeps | apply State.ledgerNeed_keeps)
    | (with_reducible first | apply State.modTd_keeps | apply State.shutRecord_keeps | apply Keeps.ite)

theorem State.deltaBack_keeps {wm : Nat} {s0 s : State} (h : Keeps wm s0 s) (hw : Within 0xfdff7fbdc wm) :
    Keeps wm s0 (State.deltaBack s) := by
  unfold State.deltaBack
  repeat' first
    | (with_reducible first | assumption | exact hw | exact hw.mono (by decide)) | intro _
    | fail_if_no_progress extract_lets +onlyGivenNames x
    | (with_reducible first | apply State.fwRestart_keeps | apply State.hotScan_keeps | apply State.modDev_keeps)

theorem State.stemRelease_keeps {wm : Nat} {s0 s : State} (k : Fin 2) (h : Keeps wm s0 s) (hw : Within 0x4000000 wm) :
    Keeps wm s0 (State.stemRelease s k) := by
  unfold State.stemRelease
  repeat' first
    | (with_reducible first | assumption | exact hw | exact hw.mono (by decide)) | intro _
    | fail_if_no_progress extract_lets +onlyGivenNames x | with_reducible apply State.modStem_keeps

theorem State.thermRelease_keeps {wm : Nat} {s0 s : State} (d : Fin 8) (h : Keeps wm s0 s) (hw : Within 0xfdff7fbdc wm) :
    Keeps wm s0 (State.thermRelease s d) := by
  unfold State.thermRelease
  repeat' first
    | (with_reducible first | assumption | exact hw | exact hw.mono (by decide)) | exact fun _ h => h | exact fun _ h => armed_not_safe h
    | exact fun _ h => run_not_safe h | intro _
    | ((fail_if_no_progress extract_lets +onlyGivenNames x); refine Keeps.cut (w := wm) (s := s0) (v := x) ?_ ?_)
    | fail_if_no_progress extract_lets +onlyGivenNames x
    | (with_reducible first | apply State.bankSendSet_keeps | apply State.deltaBack_keeps | apply State.faultScan_keeps)
    | (with_reducible first | apply State.hotScan_keeps | apply State.ledgerNeed_keeps | apply State.log_keeps)
    | (with_reducible first | apply State.modDie_keeps | apply State.modTd_keeps | apply State.stemRelease_keeps)
    | with_reducible apply Keeps.ite | dsimp -zeta only [x] | split

theorem State.dieMachine_keeps {wm : Nat} {s0 s : State} (d : Fin 8) (temp : Int) (hot : Bool) (hottest : Nat) (h : Keeps wm s0 s) (hw : Within 0xfdffffbdc wm) :
    Keeps wm s0 (State.dieMachine s d temp hot hottest) := by
  unfold State.dieMachine
  repeat' first
    | (with_reducible first | assumption | exact hw | exact hw.mono (by decide)) | intro _
    | ((fail_if_no_progress extract_lets +onlyGivenNames x); clear_value x) | fail_if_no_progress extract_lets +onlyGivenNames x
    | (with_reducible first | apply State.modTd_keeps | apply State.thermRelease_keeps | apply State.thermShutdown_keeps)
    | with_reducible apply Keeps.ite | dsimp -zeta only [x] | split

theorem State.dieScan_keeps {wm : Nat} {s0 s : State} (d : Fin 8) (h : Keeps wm s0 s) (hw : Within 0xfdffffbdc wm) :
    Keeps wm s0 (State.dieScan s d) := by
  unfold State.dieScan
  repeat' first
    | (with_reducible first | assumption | exact hw | exact hw.mono (by decide)) | intro _
    | ((fail_if_no_progress extract_lets +onlyGivenNames x); refine Keeps.cut (w := wm) (s := s0) (v := x) ?_ ?_)
    | ((fail_if_no_progress extract_lets +onlyGivenNames x); clear_value x) | fail_if_no_progress extract_lets +onlyGivenNames x
    | (with_reducible first | apply State.dieMachine_keeps | apply State.log_keeps | apply State.modTd_keeps | apply Keeps.ite)
    | dsimp -zeta only [x] | split

theorem State.groupScan_keeps {wm : Nat} {s0 s : State} (g : Fin 16) (h : Keeps wm s0 s) (hw : Within 0xe08001bd0 wm) :
    Keeps wm s0 (State.groupScan s g) := by
  unfold State.groupScan
  repeat' first
    | (with_reducible first | assumption | exact hw | exact hw.mono (by decide)) | intro _
    | ((fail_if_no_progress extract_lets +onlyGivenNames x); refine Keeps.cut (w := wm) (s := s0) (v := x) ?_ ?_)
    | ((fail_if_no_progress extract_lets +onlyGivenNames x); clear_value x) | fail_if_no_progress extract_lets +onlyGivenNames x
    | (with_reducible first | apply State.log_keeps | apply State.loopStop_keeps | apply State.modTherm_keeps)
    | (with_reducible first | apply State.stamp_keeps | apply Keeps.ite)

theorem State.thermPublish_keeps {wm : Nat} {s0 s : State} (old : State) (h : Keeps wm s0 s) (hw : Within 0x200000 wm) :
    Keeps wm s0 (State.thermPublish s old) := by
  unfold State.thermPublish
  repeat' first
    | (with_reducible first | assumption | exact hw | exact hw.mono (by decide)) | intro _
    | ((fail_if_no_progress extract_lets +onlyGivenNames x); clear_value x) | fail_if_no_progress extract_lets +onlyGivenNames x
    | (with_reducible first | apply State.srcPush_keeps | apply Keeps.ite)

theorem State.compensateTemp_keeps {wm : Nat} {s0 s : State} (h : Keeps wm s0 s) (hw : Within 0x8000002 wm) :
    Keeps wm s0 (State.compensateTemp s) := by
  unfold State.compensateTemp
  repeat' first
    | (with_reducible first | assumption | exact hw | exact hw.mono (by decide)) | intro _
    | ((fail_if_no_progress extract_lets +onlyGivenNames x); clear_value x) | fail_if_no_progress extract_lets +onlyGivenNames x
    | (with_reducible first | apply State.modTb_keeps | apply State.modTherm_keeps)

theorem State.thermClearLatch_keeps {wm : Nat} {s0 s : State} (d : Fin 8) (k : Fin 8) (h : Keeps wm s0 s) (hw : Within 0x8800040 wm) :
    Keeps wm s0 (State.thermClearLatch s d k).1 := by
  unfold State.thermClearLatch
  repeat' first
    | (with_reducible first | assumption | exact hw | exact hw.mono (by decide)) | intro _
    | fail_if_no_progress extract_lets +onlyGivenNames x
    | (with_reducible first | apply State.ledgerNeed_keeps | apply State.log_keeps | apply State.modTd_keeps | apply Keeps.ite)
    | dsimp -zeta only [x] | split

theorem State.sensorRelearn_keeps {wm : Nat} {s0 s : State} (n : Fin 64) (h : Keeps wm s0 s) (hw : Within 0x8000000 wm) :
    Keeps wm s0 (State.sensorRelearn s n) := by
  unfold State.sensorRelearn
  repeat' first
    | (with_reducible first | assumption | exact hw | exact hw.mono (by decide)) | intro _
    | fail_if_no_progress extract_lets +onlyGivenNames x | with_reducible apply State.modTherm_keeps

theorem State.tbMeasure_keeps {wm : Nat} {s0 s : State} (h : Keeps wm s0 s) (hw : Within 0x2 wm) :
    Keeps wm s0 (State.tbMeasure s) := by
  unfold State.tbMeasure
  repeat' first
    | (with_reducible first | assumption | exact hw | exact hw.mono (by decide)) | intro _
    | fail_if_no_progress extract_lets +onlyGivenNames x | (with_reducible first | apply State.modTb_keeps | apply Keeps.ite)

theorem State.steerBy_keeps {wm : Nat} {s0 s : State} (err : Int) (h : Keeps wm s0 s) (hw : Within 0x2 wm) :
    Keeps wm s0 (State.steerBy s err) := by
  unfold State.steerBy
  repeat' first
    | (with_reducible first | assumption | exact hw | exact hw.mono (by decide)) | intro _
    | ((fail_if_no_progress extract_lets +onlyGivenNames x); clear_value x) | fail_if_no_progress extract_lets +onlyGivenNames x
    | (with_reducible first | apply State.modTb_keeps | apply Keeps.ite)

theorem State.tbRestart_keeps {wm : Nat} {s0 s : State} (h : Keeps wm s0 s) (hw : Within 0x2 wm) :
    Keeps wm s0 (State.tbRestart s) := by
  unfold State.tbRestart
  repeat' first
    | (with_reducible first | assumption | exact hw | exact hw.mono (by decide)) | intro _
    | fail_if_no_progress extract_lets +onlyGivenNames x | with_reducible apply State.modTb_keeps

theorem State.tbHoldover_keeps {wm : Nat} {s0 s : State} (cause : Nat) (h : Keeps wm s0 s) (hw : Within 0x42 wm) :
    Keeps wm s0 (State.tbHoldover s cause) := by
  unfold State.tbHoldover
  repeat' first
    | (with_reducible first | assumption | exact hw | exact hw.mono (by decide)) | intro _
    | fail_if_no_progress extract_lets +onlyGivenNames x | (with_reducible first | apply State.log_keeps | apply State.modTb_keeps)

theorem State.slewEnd_keeps {wm : Nat} {s0 s : State} (h : Keeps wm s0 s) (hw : Within 0x12 wm) :
    Keeps wm s0 (State.slewEnd s) := by
  unfold State.slewEnd
  repeat' first
    | (with_reducible first | assumption | exact hw | exact hw.mono (by decide)) | intro _
    | fail_if_no_progress extract_lets +onlyGivenNames x
    | (with_reducible first | apply State.modTb_keeps | apply State.stamp_keeps | apply Keeps.ite)

theorem State.correctOffset_keeps {wm : Nat} {s0 s : State} (off : Int) (h : Keeps wm s0 s) (hw : Within 0x53 wm) :
    Keeps wm s0 (State.correctOffset s off) := by
  unfold State.correctOffset
  repeat' first
    | (with_reducible first | assumption | exact hw | exact hw.mono (by decide))
    | (exact fun p hp => by cases p <;> first | with_reducible exact rfl | exact hw.no rfl hp) | intro _
    | ((fail_if_no_progress extract_lets +onlyGivenNames x); refine Keeps.cut (w := wm) (s := s0) (v := x) ?_ ?_)
    | fail_if_no_progress extract_lets +onlyGivenNames x
    | (with_reducible first | apply State.log_keeps | apply State.modTb_keeps | apply State.slewEnd_keeps)
    | (with_reducible first | apply State.stamp_keeps | apply Keeps.ite | apply Keeps.updClk) | rfl | exact h.tick

theorem execTbLocked_answers (ref : TbRef) (err : Int) {wm : Nat} (s : State) (hw : Within 0x42 wm) :
    Answers wm s (execTbLocked ref err s) := by
  unfold execTbLocked
  repeat' first
    | (with_reducible first | assumption | exact Keeps.refl _ _ | exact hw | exact hw.mono (by decide)) | intro _
    | ((fail_if_no_progress extract_lets +onlyGivenNames x); refine Keeps.cut (w := wm) (s := s) (v := x) ?_ ?_)
    | fail_if_no_progress extract_lets +onlyGivenNames x
    | (with_reducible first | apply Answers.next | apply Answers.ite | apply State.log_keeps | apply State.modTb_keeps)
    | (with_reducible first | apply State.steerBy_keeps | apply State.tbMeasure_keeps | apply Keeps.ite) | dsimp -zeta only [x] | split

theorem execTbRefclkLoss_answers {wm : Nat} (s : State) (hw : Within 0x42 wm) :
    Answers wm s (execTbRefclkLoss s) := by
  unfold execTbRefclkLoss
  repeat' first
    | (with_reducible first | assumption | exact Keeps.refl _ _ | exact hw | exact hw.mono (by decide)) | intro _
    | fail_if_no_progress extract_lets +onlyGivenNames x
    | (with_reducible first | apply Answers.next | apply Answers.ite | apply State.tbHoldover_keeps | apply Keeps.ite)

theorem execTbSyncLoss_answers {wm : Nat} (s : State) (hw : Within 0x42 wm) :
    Answers wm s (execTbSyncLoss s) := by
  unfold execTbSyncLoss
  repeat' first
    | (with_reducible first | assumption | exact Keeps.refl _ _ | exact hw | exact hw.mono (by decide)) | intro _
    | fail_if_no_progress extract_lets +onlyGivenNames x
    | (with_reducible first | apply Answers.next | apply Answers.ite | apply State.tbHoldover_keeps | apply Keeps.ite)

theorem execTbAnnounceTimeout_answers {wm : Nat} (s : State) (hw : Within 0x42 wm) :
    Answers wm s (execTbAnnounceTimeout s) := by
  unfold execTbAnnounceTimeout
  repeat' first
    | (with_reducible first | assumption | exact Keeps.refl _ _ | exact hw | exact hw.mono (by decide)) | intro _
    | fail_if_no_progress extract_lets +onlyGivenNames x
    | (with_reducible first | apply Answers.next | apply Answers.ite | apply State.modTb_keeps | apply State.tbHoldover_keeps)
    | with_reducible apply Keeps.ite

theorem execTbReferenceReturn_answers {wm : Nat} (s : State) (hw : Within 0x2 wm) :
    Answers wm s (execTbReferenceReturn s) := by
  unfold execTbReferenceReturn
  repeat' first
    | (with_reducible first | assumption | exact Keeps.refl _ _ | exact hw | exact hw.mono (by decide)) | intro _
    | fail_if_no_progress extract_lets +onlyGivenNames x
    | (with_reducible first | apply Answers.next | apply Answers.ite | apply State.modTb_keeps | apply Keeps.ite)

theorem execTbHoldoverExpiry_answers {wm : Nat} (s : State) (hw : Within 0x2 wm) :
    Answers wm s (execTbHoldoverExpiry s) := by
  unfold execTbHoldoverExpiry
  repeat' first
    | (with_reducible first | assumption | exact Keeps.refl _ _ | exact hw | exact hw.mono (by decide)) | intro _
    | fail_if_no_progress extract_lets +onlyGivenNames x
    | (with_reducible first | apply Answers.next | apply Answers.ite | apply State.modTb_keeps | apply Keeps.ite)

theorem State.ptpMeasured_keeps {wm : Nat} {s0 s : State} (off : Int) (h : Keeps wm s0 s) (hw : Within 0x53 wm) :
    Keeps wm s0 (State.ptpMeasured s off) := by
  unfold State.ptpMeasured
  repeat' first
    | (with_reducible first | assumption | exact hw | exact hw.mono (by decide)) | intro _
    | ((fail_if_no_progress extract_lets +onlyGivenNames x); refine Keeps.cut (w := wm) (s := s0) (v := x) ?_ ?_)
    | fail_if_no_progress extract_lets +onlyGivenNames x
    | (with_reducible first | apply State.correctOffset_keeps | apply State.modTb_keeps | apply State.steerBy_keeps)
    | with_reducible apply Keeps.ite

theorem State.ptpSync_keeps {wm : Nat} {s0 s : State} (port : Fin 2) (t1 : Int) (t2 : Int) (h : Keeps wm s0 s) (hw : Within 0x53 wm) :
    Keeps wm s0 (State.ptpSync s port t1 t2) := by
  unfold State.ptpSync
  repeat' first
    | (with_reducible first | assumption | exact hw | exact hw.mono (by decide)) | intro _
    | fail_if_no_progress extract_lets +onlyGivenNames x
    | (with_reducible first | apply State.modTb_keeps | apply State.ptpMeasured_keeps)

theorem execPtpEventMessage_answers (port : Fin 2) (domain : Nat) (m : PtpMsg) {wm : Nat} (s : State) (hw : Within 0x53 wm) :
    Answers wm s (execPtpEventMessage port domain m s) := by
  unfold execPtpEventMessage
  repeat' first
    | (with_reducible first | assumption | exact Keeps.refl _ _ | exact hw | exact hw.mono (by decide)) | intro _
    | ((fail_if_no_progress extract_lets +onlyGivenNames x); refine Keeps.cut (w := wm) (s := s) (v := x) ?_ ?_)
    | ((fail_if_no_progress extract_lets +onlyGivenNames x); clear_value x) | fail_if_no_progress extract_lets +onlyGivenNames x
    | (with_reducible first | apply Answers.next | apply Answers.ite | apply State.modTb_keeps | apply State.ptpSync_keeps)
    | (with_reducible first | apply State.tbMeasure_keeps | apply Keeps.ite) | dsimp -zeta only [x] | split

theorem execTimeSlewComplete_answers {wm : Nat} (s : State) (hw : Within 0x12 wm) :
    Answers wm s (execTimeSlewComplete s) := by
  unfold execTimeSlewComplete
  repeat' first
    | (with_reducible first | assumption | exact Keeps.refl _ _ | exact hw | exact hw.mono (by decide)) | intro _
    | fail_if_no_progress extract_lets +onlyGivenNames x
    | (with_reducible first | apply Answers.next | apply Answers.ite | apply State.slewEnd_keeps | apply Keeps.ite)

theorem State.sluiceClose_keeps {wm : Nat} {s0 s : State} (a : Fin 6) (h : Keeps wm s0 s) (hw : Within 0x44 wm) :
    Keeps wm s0 (State.sluiceClose s a) := by
  unfold State.sluiceClose
  repeat' first
    | (with_reducible first | assumption | exact hw | exact hw.mono (by decide)) | intro _
    | ((fail_if_no_progress extract_lets +onlyGivenNames x); refine Keeps.cut (w := wm) (s := s0) (v := x) ?_ ?_)
    | ((fail_if_no_progress extract_lets +onlyGivenNames x); clear_value x) | fail_if_no_progress extract_lets +onlyGivenNames x
    | (with_reducible first | apply State.log_keeps | apply Keeps.ite) | dsimp -zeta only [x]
    | (fail_if_no_progress ((with_reducible apply Keeps.upd); on_goal 2 => exact fun p hp => by cases p <;> first | with_reducible exact rfl | exact hw.no rfl hp))

theorem execSluicePeriodBoundary_answers {wm : Nat} (s : State) (hw : Within 0x2054 wm) :
    Answers wm s (execSluicePeriodBoundary s) := by
  unfold execSluicePeriodBoundary
  repeat' first
    | (with_reducible first | assumption | exact Keeps.refl _ _ | exact hw | exact hw.mono (by decide)) | intro _
    | ((fail_if_no_progress extract_lets +onlyGivenNames x); refine Keeps.cut (w := wm) (s := s) (v := x) ?_ ?_)
    | ((fail_if_no_progress extract_lets +onlyGivenNames x); clear_value x) | fail_if_no_progress extract_lets +onlyGivenNames x
    | (with_reducible first | apply Answers.next | apply Answers.ite | apply State.log_keeps | apply State.sluiceClose_keeps)
    | (with_reducible first | apply State.stamp_keeps | apply State.stemFault_keeps | apply Keeps.ite | apply Keeps.foldl)
    | (with_reducible first | apply Keeps.foldlSnd | apply Keeps.foldlFst) | dsimp -zeta only [x]
    | (fail_if_no_progress ((with_reducible apply Keeps.upd); on_goal 2 => exact fun p hp => by cases p <;> first | with_reducible exact rfl | exact hw.no rfl hp))

theorem State.prepare_keeps {wm : Nat} {s0 s : State} (l : Fin 16) (q : Sample) (h : Keeps wm s0 s) (hw : Within 0x840 wm) :
    Keeps wm s0 (State.prepare s l q).1 := by
  unfold State.prepare
  repeat' first
    | (with_reducible first | assumption | exact hw | exact hw.mono (by decide)) | intro _
    | ((fail_if_no_progress extract_lets +onlyGivenNames x); refine Keeps.cut (w := wm) (s := s0) (v := x) ?_ ?_)
    | ((fail_if_no_progress extract_lets +onlyGivenNames x); clear_value x) | fail_if_no_progress extract_lets +onlyGivenNames x
    | (with_reducible first | apply State.log_keeps | apply State.modCt_keeps | apply State.modFl_keeps)
    | (with_reducible first | apply State.modLoop_keeps | apply State.setRegion_keeps | apply Keeps.ite | apply Keeps.iteFst)
    | dsimp -zeta only [x] | split

theorem State.foldStep_keeps {wm : Nat} {s0 s : State} (l : Fin 16) (q : Sample) (h : Keeps wm s0 s) (hw : Within 0x840 wm) :
    Keeps wm s0 (State.foldStep s l q) := by
  unfold State.foldStep
  repeat' first
    | (with_reducible first | assumption | exact hw | exact hw.mono (by decide)) | intro _
    | ((fail_if_no_progress extract_lets +onlyGivenNames x); refine Keeps.cut (w := wm) (s := s0) (v := x) ?_ ?_)
    | ((fail_if_no_progress extract_lets +onlyGivenNames x); clear_value x) | fail_if_no_progress extract_lets +onlyGivenNames x
    | (with_reducible first | apply State.foldExit_keeps | apply State.log_keeps | apply State.modOc_keeps)
    | (with_reducible first | apply State.ocModeStep_keeps | apply Keeps.ite)

theorem State.compensate_keeps {wm : Nat} {s0 s : State} (l : Fin 16) (q : Sample) (level : Bool) (h : Keeps wm s0 s) (hw : Within 0x800 wm) :
    Keeps wm s0 (State.compensate s l q level) := by
  unfold State.compensate
  repeat' first
    | (with_reducible first | assumption | exact hw | exact hw.mono (by decide)) | intro _
    | ((fail_if_no_progress extract_lets +onlyGivenNames x); clear_value x) | fail_if_no_progress extract_lets +onlyGivenNames x
    | with_reducible apply State.modLoop_keeps

theorem State.faultTimers_keeps {wm : Nat} {s0 s : State} (l : Fin 16) (q : Sample) (h : Keeps wm s0 s) (hw : Within 0x800 wm) :
    Keeps wm s0 (State.faultTimers s l q) := by
  unfold State.faultTimers
  repeat' first
    | (with_reducible first | assumption | exact hw | exact hw.mono (by decide)) | intro _
    | ((fail_if_no_progress extract_lets +onlyGivenNames x); clear_value x) | fail_if_no_progress extract_lets +onlyGivenNames x
    | with_reducible apply State.modLoop_keeps

theorem State.slopeCheck_keeps {wm : Nat} {s0 s : State} (l : Fin 16) (old : Int) (h : Keeps wm s0 s) (hw : Within 0x840 wm) :
    Keeps wm s0 (State.slopeCheck s l old).1 := by
  unfold State.slopeCheck
  repeat' first
    | (with_reducible first | assumption | exact hw | exact hw.mono (by decide)) | intro _
    | ((fail_if_no_progress extract_lets +onlyGivenNames x); clear_value x) | fail_if_no_progress extract_lets +onlyGivenNames x
    | (with_reducible first | apply State.log_keeps | apply State.modFl_keeps | apply Keeps.ite | apply Keeps.iteFst)

theorem State.regionStep_keeps {wm : Nat} {s0 s : State} (l : Fin 16) (q : Sample) (h : Keeps wm s0 s) (hw : Within 0x840 wm) :
    Keeps wm s0 (State.regionStep s l q) := by
  unfold State.regionStep
  repeat' first
    | (with_reducible first | assumption | exact hw | exact hw.mono (by decide)) | intro _
    | ((fail_if_no_progress extract_lets +onlyGivenNames x); refine Keeps.cut (w := wm) (s := s0) (v := x) ?_ ?_)
    | ((fail_if_no_progress extract_lets +onlyGivenNames x); clear_value x) | fail_if_no_progress extract_lets +onlyGivenNames x
    | (with_reducible first | apply State.modCt_keeps | apply State.setRegion_keeps | apply Keeps.ite)

theorem State.ebbStep_keeps {wm : Nat} {s0 s : State} (l : Fin 16) (q : Sample) (running : Bool) (h : Keeps wm s0 s) (hw : Within 0x900 wm) :
    Keeps wm s0 (State.ebbStep s l q running) := by
  unfold State.ebbStep
  repeat' first
    | (with_reducible first | assumption | exact hw | exact hw.mono (by decide)) | exact (⟨fun a => a, fun a => a⟩ : Lower _ _)
    | with_reducible exact fun _ => ⟨fun a => a, fun a => a⟩ | exact fun _ => ⟨fun a => a, fun a => a⟩
    | exact fun _ => ⟨fun h => absurd h Bool.false_ne_true, fun h => absurd h Bool.false_ne_true⟩ | intro _
    | ((fail_if_no_progress extract_lets +onlyGivenNames x); refine Keeps.cut (w := wm) (s := s0) (v := x) ?_ ?_)
    | ((fail_if_no_progress extract_lets +onlyGivenNames x); clear_value x) | fail_if_no_progress extract_lets +onlyGivenNames x
    | (with_reducible first | apply State.modEb_keeps | apply State.modPh_keeps | apply Keeps.ite) | dsimp -zeta only [x] | split

theorem State.pgStep_keeps {wm : Nat} {s0 s : State} (l : Fin 16) (q : Sample) (h : Keeps wm s0 s) (hw : Within 0x840 wm) :
    Keeps wm s0 (State.pgStep s l q) := by
  unfold State.pgStep
  repeat' first
    | (with_reducible first | assumption | exact hw | exact hw.mono (by decide)) | intro _
    | ((fail_if_no_progress extract_lets +onlyGivenNames x); refine Keeps.cut (w := wm) (s := s0) (v := x) ?_ ?_)
    | ((fail_if_no_progress extract_lets +onlyGivenNames x); have _ : _ → State := x)
    | ((fail_if_no_progress extract_lets +onlyGivenNames x); clear_value x) | fail_if_no_progress extract_lets +onlyGivenNames x
    | (with_reducible first | apply State.log_keeps | apply State.modEb_keeps | apply Keeps.ite)

theorem State.evaluate_keeps {wm : Nat} {s0 s : State} (l : Fin 16) (q : Sample) (h : Keeps wm s0 s) (hw : Within 0xc0218d9d4 wm) :
    Keeps wm s0 (State.evaluate s l q) := by
  unfold State.evaluate
  repeat' first
    | (with_reducible first | assumption | exact hw | exact hw.mono (by decide)) | intro _
    | ((fail_if_no_progress extract_lets +onlyGivenNames x); refine Keeps.cut (w := wm) (s := s0) (v := x) ?_ ?_)
    | ((fail_if_no_progress extract_lets +onlyGivenNames x); refine Keeps.cut (w := wm) (s := s0) (v := x.1) ?_ ?_)
    | ((fail_if_no_progress extract_lets +onlyGivenNames x); clear_value x) | fail_if_no_progress extract_lets +onlyGivenNames x
    | (with_reducible first | apply State.compensate_keeps | apply State.ebbStep_keeps | apply State.faultScan_keeps)
    | (with_reducible first | apply State.faultTimers_keeps | apply State.foldStep_keeps | apply State.holdExitScan_keeps)
    | (with_reducible first | apply State.lossTake_keeps | apply State.pgStep_keeps | apply State.preStale_keeps)
    | (with_reducible first | apply State.prepare_keeps | apply State.regionStep_keeps | apply State.sendFrame_keeps)
    | (with_reducible first | apply State.slopeCheck_keeps | apply State.sluiceUse_keeps | apply Keeps.ite)

theorem State.discardLate_keeps {wm : Nat} {s0 s : State} (l : Fin 16) (q : Sample) (h : Keeps wm s0 s) (hw : Within 0x2840 wm) :
    Keeps wm s0 (State.discardLate s l q) := by
  unfold State.discardLate
  repeat' first
    | (with_reducible first | assumption | exact hw | exact hw.mono (by decide)) | intro _
    | fail_if_no_progress extract_lets +onlyGivenNames x
    | (with_reducible first | apply State.log_keeps | apply State.modFl_keeps | apply State.stemFault_keeps)

theorem execLoopEvaluation_answers {wm : Nat} (s : State) (hw : Within 0xc0218f9d4 wm) :
    Answers wm s (execLoopEvaluation s) := by
  unfold execLoopEvaluation
  repeat' first
    | (with_reducible first | assumption | exact Keeps.refl _ _ | exact hw | exact hw.mono (by decide)) | intro _
    | ((fail_if_no_progress extract_lets +onlyGivenNames x); clear_value x) | fail_if_no_progress extract_lets +onlyGivenNames x
    | (with_reducible first | apply Answers.next | apply Answers.ite | apply State.discardLate_keeps)
    | (with_reducible first | apply State.evaluate_keeps | apply State.modLoop_keeps | apply Keeps.ite | apply Keeps.foldl)
    | (with_reducible first | apply Keeps.foldlSnd | apply Keeps.foldlFst) | dsimp -zeta only [x] | split

theorem execFollowErrExpire_answers (l : Fin 16) {wm : Nat} (s : State) (hw : Within 0xc01001bc0 wm) :
    Answers wm s (execFollowErrExpire l s) := by
  unfold execFollowErrExpire
  repeat' first
    | (with_reducible first | assumption | exact Keeps.refl _ _ | exact hw | exact hw.mono (by decide)) | intro _
    | ((fail_if_no_progress extract_lets +onlyGivenNames x); refine Keeps.cut (w := wm) (s := s) (v := x) ?_ ?_)
    | ((fail_if_no_progress extract_lets +onlyGivenNames x); clear_value x) | fail_if_no_progress extract_lets +onlyGivenNames x
    | (with_reducible first | apply Answers.next | apply Answers.ite | apply State.faultLoopAt_keeps | apply State.log_keeps)
    | (with_reducible first | apply State.modLoop_keeps | apply State.stopLoop_keeps | apply Keeps.ite)

end Sys2Proof.Machine
end

