-- ==== Sys2Proof/Laws/KeepsE.lean ====
section
/-! SUPPORT. What the operations keep (see Keeps.lean), one lemma each: those of Pool.lean, Feed.lean, Flags.lean, Port.lean, Node.lean. -/

set_option linter.tactic.unusedName false
set_option linter.unreachableTactic false
set_option linter.unusedTactic false

namespace Sys2Proof.Machine

theorem State.pointIn_keeps {wm : Nat} {s0 s : State} (p : Fin 64) (a : Nat) (time : Nat) (e : List Byte) (h : Keeps wm s0 s) (hw : Within 0x1385040 wm) :
    Keeps wm s0 (State.pointIn s p a time e) := by
  unfold State.pointIn
  repeat' first
    | (with_reducible first | assumption | exact hw | exact hw.mono (by decide)) | intro _
    | ((fail_if_no_progress extract_lets +onlyGivenNames x); refine Keeps.cut (w := wm) (s := s0) (v := x) ?_ ?_)
    | ((fail_if_no_progress extract_lets +onlyGivenNames x); clear_value x) | fail_if_no_progress extract_lets +onlyGivenNames x
    | (with_reducible first | apply State.modCnt_keeps | apply State.outTake_keeps | apply State.poolUpdate_keeps)
    | with_reducible apply Keeps.ite | dsimp -zeta only [x] | split

theorem State.admitPort_keeps {wm : Nat} {s0 s : State} (p : Fin 64) (q : RxItem) (h : Keeps wm s0 s) (hw : Within 0x801385054 wm) :
    Keeps wm s0 (State.admitPort s p q) := by
  unfold State.admitPort
  repeat' first
    | (with_reducible first | assumption | exact hw | exact hw.mono (by decide)) | intro _
    | ((fail_if_no_progress extract_lets +onlyGivenNames x); refine Keeps.cut (w := wm) (s := s0) (v := x) ?_ ?_)
    | ((fail_if_no_progress extract_lets +onlyGivenNames x); refine Keeps.cut (w := wm) (s := s0) (v := x.1) ?_ ?_)
    | ((fail_if_no_progress extract_lets +onlyGivenNames x); clear_value x) | fail_if_no_progress extract_lets +onlyGivenNames x
    | (with_reducible first | apply State.modPort_keeps | apply State.nodeAccept_keeps | apply State.outScan_keeps)
    | (with_reducible first | apply State.pointIn_keeps | apply State.regrant_keeps | apply State.sluiceUse_keeps)
    | (with_reducible first | apply State.stamp_keeps | apply Keeps.ite | apply Keeps.foldl | apply Keeps.foldlSnd)
    | with_reducible apply Keeps.foldlFst | dsimp -zeta only [x] | split

theorem State.admitSrc_keeps {wm : Nat} {s0 s : State} (i : Fin 3) (h : Keeps wm s0 s) (hw : Within 0x1201054 wm) :
    Keeps wm s0 (State.admitSrc s i) := by
  unfold State.admitSrc
  repeat' first
    | (with_reducible first | assumption | exact hw | exact hw.mono (by decide)) | intro _
    | fail_if_no_progress extract_lets +onlyGivenNames x
    | (with_reducible first | apply State.modPool_keeps | apply State.poolUpdate_keeps | apply State.sluiceUse_keeps)
    | (with_reducible first | apply State.stamp_keeps | apply Keeps.ite | apply Keeps.foldl | apply Keeps.foldlSnd)
    | with_reducible apply Keeps.foldlFst | dsimp -zeta only [x] | split

theorem execPoolAdmitFrame_answers {wm : Nat} (s : State) (hw : Within 0x801385054 wm) :
    Answers wm s (execPoolAdmitFrame s) := by
  unfold execPoolAdmitFrame
  repeat' first
    | (with_reducible first | assumption | exact Keeps.refl _ _ | exact hw | exact hw.mono (by decide)) | intro _
    | ((fail_if_no_progress extract_lets +onlyGivenNames x); refine Keeps.cut (w := wm) (s := s) (v := x) ?_ ?_)
    | fail_if_no_progress extract_lets +onlyGivenNames x
    | (with_reducible first | apply Answers.next | apply Answers.ite | apply State.admitPort_keeps)
    | (with_reducible first | apply State.admitSrc_keeps | apply State.modPool_keeps | apply State.sluiceStall_keeps)
    | with_reducible apply Keeps.ite | dsimp -zeta only [x] | split

theorem execPhaseTlmPublish_answers (fast : Bool) {wm : Nat} (s : State) (hw : Within 0x200000 wm) :
    Answers wm s (execPhaseTlmPublish fast s) := by
  unfold execPhaseTlmPublish
  repeat' first
    | (with_reducible first | assumption | exact Keeps.refl _ _ | exact hw | exact hw.mono (by decide)) | intro _
    | fail_if_no_progress extract_lets +onlyGivenNames x
    | (with_reducible first | apply Answers.next | apply Answers.ite | apply State.srcPush_keeps | apply Keeps.ite)
    | (with_reducible first | apply Keeps.foldl | apply Keeps.foldlSnd | apply Keeps.foldlFst) | dsimp -zeta only [x] | split

theorem execBankTelemetry_answers {wm : Nat} (s : State) (hw : Within 0x803219050 wm) :
    Answers wm s (execBankTelemetry s) := by
  unfold execBankTelemetry
  repeat' first
    | (with_reducible first | assumption | exact Keeps.refl _ _ | exact hw | exact hw.mono (by decide)) | intro _
    | ((fail_if_no_progress extract_lets +onlyGivenNames x); refine Keeps.cut (w := wm) (s := s) (v := x) ?_ ?_)
    | ((fail_if_no_progress extract_lets +onlyGivenNames x); clear_value x) | fail_if_no_progress extract_lets +onlyGivenNames x
    | (with_reducible first | apply Answers.next | apply Answers.ite | apply State.faultScan_keeps)
    | (with_reducible first | apply State.lineReleased_keeps | apply State.modBank_keeps | apply State.modHold_keeps)
    | (with_reducible first | apply State.spateReq_keeps | apply State.srcPush_keeps | apply State.stamp_keeps)
    | (with_reducible first | apply Keeps.ite | apply Keeps.foldl | apply Keeps.foldlSnd | apply Keeps.foldlFst) | dsimp -zeta only [x]
    | split

theorem State.popAct_keeps {wm : Nat} {s : State} {code : Nat} {a : PoolAct} {t : State} (hw : Within 0x200000 wm)
    (e : s.popAct code = some (a, t)) : Keeps wm s t := by
  simp only [State.popAct, Option.map_eq_some_iff, Prod.mk.injEq] at e
  obtain ⟨_, _, _, rfl⟩ := e
  exact State.modPool_keeps _ (Keeps.refl _ _) hw

theorem execPoolActionLoopStop_answers {wm : Nat} (s : State) (hw : Within 0xe08201bd0 wm) :
    Answers wm s (execPoolActionLoopStop s) := by
  unfold execPoolActionLoopStop
  have hp : ∀ a t, s.popAct 2 = some (a, t) → Keeps wm s t := fun a t e => State.popAct_keeps (hw.mono (by decide)) e
  repeat' first
    | (with_reducible first | assumption | exact Keeps.refl _ _ | exact hw | exact hw.mono (by decide)) | intro _
    | fail_if_no_progress extract_lets +onlyGivenNames x
    | (with_reducible first | apply Answers.next | apply Answers.ite | apply State.loopStop_keeps | apply State.stamp_keeps)
    | (with_reducible first | exact hp _ _ (by assumption) | apply Keeps.ite) | dsimp -zeta only [x] | split

theorem execPoolActionNodeOff_answers {wm : Nat} (s : State) (hw : Within 0x800380000 wm) :
    Answers wm s (execPoolActionNodeOff s) := by
  unfold execPoolActionNodeOff
  have hp : ∀ a t, s.popAct 3 = some (a, t) → Keeps wm s t := fun a t e => State.popAct_keeps (hw.mono (by decide)) e
  repeat' first
    | (with_reducible first | assumption | exact Keeps.refl _ _ | exact hw | exact hw.mono (by decide)) | intro _
    | fail_if_no_progress extract_lets +onlyGivenNames x
    | (with_reducible first | apply Answers.next | apply Answers.ite | apply State.nodeRequest_keeps)
    | (with_reducible first | exact hp _ _ (by assumption) | apply Keeps.ite) | dsimp -zeta only [x] | split

theorem State.subNotice_keeps {wm : Nat} {s0 s : State} (u : Sub) (op : Nat) (body : List Byte) (h : Keeps wm s0 s) (hw : Within 0x802200040 wm) :
    Keeps wm s0 (State.subNotice s u op body) := by
  unfold State.subNotice
  repeat' first
    | (with_reducible first | assumption | exact hw | exact hw.mono (by decide)) | intro _
    | ((fail_if_no_progress extract_lets +onlyGivenNames x); refine Keeps.cut (w := wm) (s := s0) (v := x.1) ?_ ?_)
    | ((fail_if_no_progress extract_lets +onlyGivenNames x); clear_value x) | fail_if_no_progress extract_lets +onlyGivenNames x
    | (with_reducible first | apply State.log_keeps | apply State.modPool_keeps | apply State.notice_keeps | apply Keeps.ite)

theorem State.postValues_keeps {wm : Nat} {s0 s : State} (u : Sub) (ks : List Nat) (h : Keeps wm s0 s) (hw : Within 0x802200040 wm) :
    Keeps wm s0 (State.postValues s u ks) := by
  unfold State.postValues
  repeat' first
    | (with_reducible first | assumption | exact hw | exact hw.mono (by decide)) | intro _
    | ((fail_if_no_progress extract_lets +onlyGivenNames x); refine Keeps.cut (w := wm) (s := s0) (v := x) ?_ ?_)
    | fail_if_no_progress extract_lets +onlyGivenNames x
    | (with_reducible first | apply State.modPool_keeps | apply State.subNotice_keeps)

theorem execSubNoticePost_answers {wm : Nat} (s : State) (hw : Within 0x802200044 wm) :
    Answers wm s (execSubNoticePost s) := by
  unfold execSubNoticePost
  repeat' first
    | (with_reducible first | assumption | exact Keeps.refl _ _ | exact hw | exact hw.mono (by decide)) | intro _
    | ((fail_if_no_progress extract_lets +onlyGivenNames x); refine Keeps.cut (w := wm) (s := s) (v := x) ?_ ?_)
    | ((fail_if_no_progress extract_lets +onlyGivenNames x); clear_value x) | fail_if_no_progress extract_lets +onlyGivenNames x
    | (with_reducible first | apply Answers.next | apply Answers.ite | apply State.modPool_keeps)
    | (with_reducible first | apply State.postValues_keeps | apply State.sluiceStall_keeps | apply State.subNotice_keeps)
    | (with_reducible first | apply Keeps.ite | apply Keeps.foldl)

theorem State.slotClear_keeps {wm : Nat} {s0 s : State} (k : Nat) (h : Keeps wm s0 s) (hw : Within 0x201040 wm) :
    Keeps wm s0 (State.slotClear s k) := by
  unfold State.slotClear
  repeat' first
    | (with_reducible first | assumption | exact hw | exact hw.mono (by decide)) | intro _
    | fail_if_no_progress extract_lets +onlyGivenNames x
    | (with_reducible first | apply State.faultScan_keeps | apply State.setSlot_keeps)

theorem State.poolLose_keeps {wm : Nat} {s0 s : State} (w : Nat) (subs : List Nat) (hand : Bool) (h : Keeps wm s0 s) (hw : Within 0x802201040 wm) :
    Keeps wm s0 (State.poolLose s w subs hand) := by
  unfold State.poolLose
  repeat' first
    | (with_reducible first | assumption | exact hw | exact hw.mono (by decide)) | intro _
    | ((fail_if_no_progress extract_lets +onlyGivenNames x); clear_value x) | fail_if_no_progress extract_lets +onlyGivenNames x
    | (with_reducible first | apply State.modPool_keeps | apply State.slotClear_keeps | apply State.slotRearm_keeps)
    | (with_reducible first | apply State.subNotice_keeps | apply Keeps.ite | apply Keeps.foldl | apply Keeps.foldlSnd)
    | with_reducible apply Keeps.foldlFst | dsimp -zeta only [x] | split

theorem execPoolScrub_answers (e : PoolEcc) {wm : Nat} (s : State) (hw : Within 0x802203040 wm) :
    Answers wm s (execPoolScrub e s) := by
  unfold execPoolScrub
  repeat' first
    | (with_reducible first | assumption | exact Keeps.refl _ _ | exact hw | exact hw.mono (by decide)) | intro _
    | ((fail_if_no_progress extract_lets +onlyGivenNames x); refine Keeps.cut (w := wm) (s := s) (v := x) ?_ ?_)
    | fail_if_no_progress extract_lets +onlyGivenNames x
    | (with_reducible first | apply Answers.next | apply Answers.ite | apply State.log_keeps | apply State.modPool_keeps)
    | (with_reducible first | apply State.poolLose_keeps | apply Keeps.ite) | dsimp -zeta only [x] | split | dsimp -zeta only
    | (fail_if_no_progress ((with_reducible apply Keeps.upd); on_goal 2 => exact fun p hp => by cases p <;> first | with_reducible exact rfl | exact hw.no rfl hp))

theorem State.feedMeasure_keeps {wm : Nat} {s0 s : State} (raw : Vector Int 7) (f : Fin 2) (h : Keeps wm s0 s) (hw : Within 0x10020 wm) :
    Keeps wm s0 (State.feedMeasure s raw f) := by
  unfold State.feedMeasure
  repeat' first
    | (with_reducible first | assumption | exact hw | exact hw.mono (by decide)) | intro _
    | ((fail_if_no_progress extract_lets +onlyGivenNames x); refine Keeps.cut (w := wm) (s := s0) (v := x) ?_ ?_)
    | ((fail_if_no_progress extract_lets +onlyGivenNames x); clear_value x) | fail_if_no_progress extract_lets +onlyGivenNames x
    | (with_reducible first | apply State.modFeed_keeps | apply Keeps.ite) | dsimp -zeta only [x]
    | (fail_if_no_progress ((with_reducible apply Keeps.upd); on_goal 2 => exact fun p hp => by cases p <;> first | with_reducible exact rfl | exact hw.no rfl hp))

theorem State.feedRetry_keeps {wm : Nat} {s0 s : State} (f : Fin 2) (h : Keeps wm s0 s) (hw : Within 0x10040 wm) :
    Keeps wm s0 (State.feedRetry s f) := by
  unfold State.feedRetry
  repeat' first
    | (with_reducible first | assumption | exact hw | exact hw.mono (by decide)) | intro _
    | ((fail_if_no_progress extract_lets +onlyGivenNames x); clear_value x) | fail_if_no_progress extract_lets +onlyGivenNames x
    | (with_reducible first | apply State.feedOpen_keeps | apply State.lineScan_keeps | apply State.log_keeps)
    | (with_reducible first | apply State.modFeed_keeps | apply Keeps.ite)

theorem State.feedEvents_keeps {wm : Nat} {s0 s : State} (f : Fin 2) (h : Keeps wm s0 s) (hw : Within 0x10040 wm) :
    Keeps wm s0 (State.feedEvents s f) := by
  unfold State.feedEvents
  repeat' first
    | (with_reducible first | assumption | exact hw | exact hw.mono (by decide)) | intro _
    | ((fail_if_no_progress extract_lets +onlyGivenNames x); clear_value x) | fail_if_no_progress extract_lets +onlyGivenNames x
    | (with_reducible first | apply State.bankSend_keeps | apply State.feedConnect_keeps | apply State.feedLeaveInsert_keeps)
    | (with_reducible first | apply State.feedOpen_keeps | apply State.feedRetry_keeps | apply State.feedTrip_keeps)
    | (with_reducible first | apply State.feedTripped_keeps | apply State.lineScan_keeps | apply State.log_keeps)
    | (with_reducible first | apply State.modFeed_keeps | apply Keeps.ite) | dsimp -zeta only [x] | split

theorem execBankMeteringStep_answers (raw : Vector Int 7) {wm : Nat} (s : State) (hw : Within 0x10060 wm) :
    Answers wm s (execBankMeteringStep raw s) := by
  unfold execBankMeteringStep
  repeat' first
    | (with_reducible first | assumption | exact Keeps.refl _ _ | exact hw | exact hw.mono (by decide)) | intro _
    | ((fail_if_no_progress extract_lets +onlyGivenNames x); refine Keeps.cut (w := wm) (s := s) (v := x) ?_ ?_)
    | fail_if_no_progress extract_lets +onlyGivenNames x
    | (with_reducible first | apply Answers.next | apply Answers.ite | apply State.bankSend_keeps)
    | (with_reducible first | apply State.feedEvents_keeps | apply State.feedMeasure_keeps | apply State.modBank_keeps)
    | (with_reducible first | apply Keeps.ite | apply Keeps.foldl)

theorem execFeedFastTrip_answers (f : Fin 2) (i : Int) {wm : Nat} (s : State) (hw : Within 0x10040 wm) :
    Answers wm s (execFeedFastTrip f i s) := by
  unfold execFeedFastTrip
  repeat' first
    | (with_reducible first | assumption | exact Keeps.refl _ _ | exact hw | exact hw.mono (by decide)) | intro _
    | ((fail_if_no_progress extract_lets +onlyGivenNames x); clear_value x) | fail_if_no_progress extract_lets +onlyGivenNames x
    | (with_reducible first | apply Answers.next | apply Answers.ite | apply State.feedTrip_keeps)
    | (with_reducible first | apply State.feedTripped_keeps | apply State.lineScan_keeps | apply State.log_keeps)
    | (with_reducible first | apply State.modFeed_keeps | apply Keeps.ite)

theorem execFeedReverseTrip_answers (f : Fin 2) (i : Int) (v : Int) {wm : Nat} (s : State) (hw : Within 0x10040 wm) :
    Answers wm s (execFeedReverseTrip f i v s) := by
  unfold execFeedReverseTrip
  repeat' first
    | (with_reducible first | assumption | exact Keeps.refl _ _ | exact hw | exact hw.mono (by decide)) | intro _
    | ((fail_if_no_progress extract_lets +onlyGivenNames x); refine Keeps.cut (w := wm) (s := s) (v := x) ?_ ?_)
    | ((fail_if_no_progress extract_lets +onlyGivenNames x); clear_value x) | fail_if_no_progress extract_lets +onlyGivenNames x
    | (with_reducible first | apply Answers.next | apply Answers.ite | apply State.bankSend_keeps | apply State.lineScan_keeps)
    | (with_reducible first | apply State.modFeed_keeps | apply Keeps.ite)

theorem execFeedOrOnDelayEnd_answers (c : FeedSensed) {wm : Nat} (s : State) (hw : Within 0x10040 wm) :
    Answers wm s (execFeedOrOnDelayEnd c s) := by
  unfold execFeedOrOnDelayEnd
  repeat' first
    | (with_reducible first | assumption | exact Keeps.refl _ _ | exact hw | exact hw.mono (by decide)) | intro _
    | ((fail_if_no_progress extract_lets +onlyGivenNames x); clear_value x) | fail_if_no_progress extract_lets +onlyGivenNames x
    | (with_reducible first | apply Answers.next | apply Answers.ite | apply State.bankSend_keeps | apply State.modFeed_keeps)
    | (with_reducible first | apply State.revRecord_keeps | apply Keeps.ite)

theorem execFeedInsertTimer_answers (f : Fin 2) {wm : Nat} (s : State) (hw : Within 0x10040 wm) :
    Answers wm s (execFeedInsertTimer f s) := by
  unfold execFeedInsertTimer
  repeat' first
    | (with_reducible first | assumption | exact Keeps.refl _ _ | exact hw | exact hw.mono (by decide)) | intro _
    | ((fail_if_no_progress extract_lets +onlyGivenNames x); refine Keeps.cut (w := wm) (s := s) (v := x) ?_ ?_)
    | ((fail_if_no_progress extract_lets +onlyGivenNames x); clear_value x) | fail_if_no_progress extract_lets +onlyGivenNames x
    | (with_reducible first | apply Answers.next | apply Answers.ite | apply State.feedLeaveInsert_keeps)
    | (with_reducible first | apply State.modFeed_keeps | apply Keeps.ite)

theorem State.inrushFail_keeps {wm : Nat} {s0 s : State} (f : Fin 2) (cause : Nat) (h : Keeps wm s0 s) (hw : Within 0x10040 wm) :
    Keeps wm s0 (State.inrushFail s f cause) := by
  unfold State.inrushFail
  repeat' first
    | (with_reducible first | assumption | exact hw | exact hw.mono (by decide)) | intro _
    | fail_if_no_progress extract_lets +onlyGivenNames x
    | (with_reducible first | apply State.feedTrip_keeps | apply State.lineScan_keeps | apply State.log_keeps)
    | with_reducible apply State.modFeed_keeps

theorem execFeedPreTmaxExpire_answers (f : Fin 2) {wm : Nat} (s : State) (hw : Within 0x10040 wm) :
    Answers wm s (execFeedPreTmaxExpire f s) := by
  unfold execFeedPreTmaxExpire
  repeat' first
    | (with_reducible first | assumption | exact Keeps.refl _ _ | exact hw | exact hw.mono (by decide)) | intro _
    | ((fail_if_no_progress extract_lets +onlyGivenNames x); clear_value x) | fail_if_no_progress extract_lets +onlyGivenNames x
    | (with_reducible first | apply Answers.next | apply Answers.ite | apply State.inrushFail_keeps | apply Keeps.ite)

theorem execFeedSoaTimerExpire_answers (f : Fin 2) {wm : Nat} (s : State) (hw : Within 0x10040 wm) :
    Answers wm s (execFeedSoaTimerExpire f s) := by
  unfold execFeedSoaTimerExpire
  repeat' first
    | (with_reducible first | assumption | exact Keeps.refl _ _ | exact hw | exact hw.mono (by decide)) | intro _
    | ((fail_if_no_progress extract_lets +onlyGivenNames x); clear_value x) | fail_if_no_progress extract_lets +onlyGivenNames x
    | (with_reducible first | apply Answers.next | apply Answers.ite | apply State.inrushFail_keeps | apply Keeps.ite)

theorem execFeedPreOverlapEnd_answers (f : Fin 2) {wm : Nat} (s : State) (hw : Within 0x10000 wm) :
    Answers wm s (execFeedPreOverlapEnd f s) := by
  unfold execFeedPreOverlapEnd
  repeat' first
    | (with_reducible first | assumption | exact Keeps.refl _ _ | exact hw | exact hw.mono (by decide)) | intro _
    | ((fail_if_no_progress extract_lets +onlyGivenNames x); clear_value x) | fail_if_no_progress extract_lets +onlyGivenNames x
    | (with_reducible first | apply Answers.next | apply Answers.ite | apply State.bankSend_keeps | apply State.modFeed_keeps)
    | with_reducible apply Keeps.ite

theorem execFeedCleanTimeEnd_answers (f : Fin 2) {wm : Nat} (s : State) (hw : Within 0x10000 wm) :
    Answers wm s (execFeedCleanTimeEnd f s) := by
  unfold execFeedCleanTimeEnd
  repeat' first
    | (with_reducible first | assumption | exact Keeps.refl _ _ | exact hw | exact hw.mono (by decide)) | intro _
    | ((fail_if_no_progress extract_lets +onlyGivenNames x); clear_value x) | fail_if_no_progress extract_lets +onlyGivenNames x
    | (with_reducible first | apply Answers.next | apply Answers.ite | apply State.modFeed_keeps | apply Keeps.ite)

theorem execFeedRetryDelayEnd_answers (f : Fin 2) {wm : Nat} (s : State) (hw : Within 0x10040 wm) :
    Answers wm s (execFeedRetryDelayEnd f s) := by
  unfold execFeedRetryDelayEnd
  repeat' first
    | (with_reducible first | assumption | exact Keeps.refl _ _ | exact hw | exact hw.mono (by decide)) | intro _
    | ((fail_if_no_progress extract_lets +onlyGivenNames x); refine Keeps.cut (w := wm) (s := s) (v := x) ?_ ?_)
    | ((fail_if_no_progress extract_lets +onlyGivenNames x); clear_value x) | fail_if_no_progress extract_lets +onlyGivenNames x
    | (with_reducible first | apply Answers.next | apply Answers.ite | apply State.feedRetry_keeps | apply State.modFeed_keeps)
    | with_reducible apply Keeps.ite

theorem execFeedLossCompLow_answers (c : FeedSensed) {wm : Nat} (s : State) (hw : Within 0x10040 wm) :
    Answers wm s (execFeedLossCompLow c s) := by
  unfold execFeedLossCompLow
  repeat' first
    | (with_reducible first | assumption | exact Keeps.refl _ _ | exact hw | exact hw.mono (by decide)) | intro _
    | ((fail_if_no_progress extract_lets +onlyGivenNames x); clear_value x) | fail_if_no_progress extract_lets +onlyGivenNames x
    | (with_reducible first | apply Answers.next | apply Answers.ite | apply State.lineScan_keeps | apply State.modFeed_keeps)
    | with_reducible apply Keeps.ite

theorem execFeedLossCompHigh_answers (c : FeedSensed) {wm : Nat} (s : State) (hw : Within 0x10040 wm) :
    Answers wm s (execFeedLossCompHigh c s) := by
  unfold execFeedLossCompHigh
  repeat' first
    | (with_reducible first | assumption | exact Keeps.refl _ _ | exact hw | exact hw.mono (by decide)) | intro _
    | ((fail_if_no_progress extract_lets +onlyGivenNames x); clear_value x) | fail_if_no_progress extract_lets +onlyGivenNames x
    | (with_reducible first | apply Answers.next | apply Answers.ite | apply State.lineScan_keeps | apply State.modFeed_keeps)
    | with_reducible apply Keeps.ite

theorem execFeedFetShort_answers (f : Fin 2) (path : Fin 2) (ma : Int) (mv : Int) {wm : Nat} (s : State) (hw : Within 0x10040 wm) :
    Answers wm s (execFeedFetShort f path ma mv s) := by
  unfold execFeedFetShort
  repeat' first
    | (with_reducible first | assumption | exact Keeps.refl _ _ | exact hw | exact hw.mono (by decide)) | intro _
    | ((fail_if_no_progress extract_lets +onlyGivenNames x); refine Keeps.cut (w := wm) (s := s) (v := x) ?_ ?_)
    | ((fail_if_no_progress extract_lets +onlyGivenNames x); clear_value x) | fail_if_no_progress extract_lets +onlyGivenNames x
    | (with_reducible first | apply Answers.next | apply Answers.ite | apply State.bankSend_keeps | apply State.feedLock_keeps)
    | (with_reducible first | apply State.log_keeps | apply State.modFeed_keeps | apply Keeps.ite)

theorem execFeedGateFail_answers (f : Fin 2) (gate : Fin 3) (mv : Nat) {wm : Nat} (s : State) (hw : Within 0x10040 wm) :
    Answers wm s (execFeedGateFail f gate mv s) := by
  unfold execFeedGateFail
  repeat' first
    | (with_reducible first | assumption | exact Keeps.refl _ _ | exact hw | exact hw.mono (by decide)) | intro _
    | ((fail_if_no_progress extract_lets +onlyGivenNames x); clear_value x) | fail_if_no_progress extract_lets +onlyGivenNames x
    | (with_reducible first | apply Answers.next | apply Answers.ite | apply State.feedLock_keeps | apply State.log_keeps)
    | (with_reducible first | apply State.modFeed_keeps | apply Keeps.ite)

theorem execFeedTestEnd_answers (f : Fin 2) {wm : Nat} (s : State) (hw : Within 0x10000 wm) :
    Answers wm s (execFeedTestEnd f s) := by
  unfold execFeedTestEnd
  repeat' first
    | (with_reducible first | assumption | exact Keeps.refl _ _ | exact hw | exact hw.mono (by decide)) | intro _
    | ((fail_if_no_progress extract_lets +onlyGivenNames x); clear_value x) | fail_if_no_progress extract_lets +onlyGivenNames x
    | (with_reducible first | apply Answers.next | apply Answers.ite | apply State.bankSend_keeps | apply State.modFeed_keeps)
    | with_reducible apply Keeps.ite

theorem execBankHeartbeat_answers {wm : Nat} (s : State) (hw : Within 0x10040 wm) :
    Answers wm s (execBankHeartbeat s) := by
  unfold execBankHeartbeat
  repeat' first
    | (with_reducible first | assumption | exact Keeps.refl _ _ | exact hw | exact hw.mono (by decide)) | intro _
    | ((fail_if_no_progress extract_lets +onlyGivenNames x); refine Keeps.cut (w := wm) (s := s) (v := x) ?_ ?_)
    | ((fail_if_no_progress extract_lets +onlyGivenNames x); clear_value x) | fail_if_no_progress extract_lets +onlyGivenNames x
    | (with_reducible first | apply Answers.next | apply Answers.ite | apply State.bankSend_keeps)
    | (with_reducible first | apply State.feedLeaveInsert_keeps | apply State.feedRetry_keeps | apply State.modBank_keeps)
    | (with_reducible first | apply Keeps.ite | apply Keeps.foldl)

theorem execBankHbTimeout_answers {wm : Nat} (s : State) (hw : Within 0x10040 wm) :
    Answers wm s (execBankHbTimeout s) := by
  unfold execBankHbTimeout
  repeat' first
    | (with_reducible first | assumption | exact Keeps.refl _ _ | exact hw | exact hw.mono (by decide)) | intro _
    | fail_if_no_progress extract_lets +onlyGivenNames x
    | (with_reducible first | apply Answers.next | apply Answers.ite | apply State.bankAllOff_keeps)
    | (with_reducible first | apply State.bankSend_keeps | apply State.modBank_keeps | apply Keeps.ite)

theorem execBankHbReturn_answers {wm : Nat} (s : State) (hw : Within 0x800010040 wm) :
    Answers wm s (execBankHbReturn s) := by
  unfold execBankHbReturn
  repeat' first
    | (with_reducible first | assumption | exact Keeps.refl _ _ | exact hw | exact hw.mono (by decide)) | intro _
    | fail_if_no_progress extract_lets +onlyGivenNames x
    | (with_reducible first | apply Answers.next | apply Answers.ite | apply State.bankResend_keeps)
    | (with_reducible first | apply State.bankSend_keeps | apply State.log_keeps | apply State.modBank_keeps | apply Keeps.ite)
    | dsimp -zeta only [x] | split

theorem State.bankRefuse_keeps {wm : Nat} {s0 s : State} (h : Keeps wm s0 s) (hw : Within 0x800010040 wm) :
    Keeps wm s0 (State.bankRefuse s) := by
  unfold State.bankRefuse
  repeat' first
    | (with_reducible first | assumption | exact hw | exact hw.mono (by decide)) | intro _
    | fail_if_no_progress extract_lets +onlyGivenNames x | (with_reducible first | apply State.bankResend_keeps | apply State.log_keeps)

theorem execBankParamFrame_answers (crcOk : Bool) {wm : Nat} (s : State) (hw : Within 0x800010040 wm) :
    Answers wm s (execBankParamFrame crcOk s) := by
  unfold execBankParamFrame
  repeat' first
    | (with_reducible first | assumption | exact Keeps.refl _ _ | exact hw | exact hw.mono (by decide)) | intro _
    | fail_if_no_progress extract_lets +onlyGivenNames x
    | (with_reducible first | apply Answers.next | apply Answers.ite | apply State.bankRefuse_keeps)
    | (with_reducible first | apply State.modBank_keeps | apply Keeps.ite) | dsimp -zeta only [x] | split

theorem execBankParamCommit_answers {wm : Nat} (s : State) (hw : Within 0x800010040 wm) :
    Answers wm s (execBankParamCommit s) := by
  unfold execBankParamCommit
  repeat' first
    | (with_reducible first | assumption | exact Keeps.refl _ _ | exact hw | exact hw.mono (by decide)) | intro _
    | ((fail_if_no_progress extract_lets +onlyGivenNames x); refine Keeps.cut (w := wm) (s := s) (v := x) ?_ ?_)
    | ((fail_if_no_progress extract_lets +onlyGivenNames x); clear_value x) | fail_if_no_progress extract_lets +onlyGivenNames x
    | (with_reducible first | apply Answers.next | apply Answers.ite | apply State.autoEnable_keeps)
    | (with_reducible first | apply State.bankRefuse_keeps | apply State.bankSend_keeps | apply State.modBank_keeps)
    | with_reducible apply Keeps.ite

theorem execBankCommandFrame_answers {wm : Nat} (s : State) (hw : Within 0x800010040 wm) :
    Answers wm s (execBankCommandFrame s) := by
  unfold execBankCommandFrame
  repeat' first
    | (with_reducible first | assumption | exact Keeps.refl _ _ | exact hw | exact hw.mono (by decide)) | intro _
    | ((fail_if_no_progress extract_lets +onlyGivenNames x); refine Keeps.cut (w := wm) (s := s) (v := x) ?_ ?_)
    | fail_if_no_progress extract_lets +onlyGivenNames x
    | (with_reducible first | apply Answers.next | apply Answers.ite | apply State.bankStatusClear_keeps)
    | (with_reducible first | apply State.feedClear_keeps | apply State.feedDisable_keeps | apply State.feedEnable_keeps)
    | (with_reducible first | apply State.feedResetEnergy_keeps | apply State.feedStatusClear_keeps)
    | (with_reducible first | apply State.feedTest_keeps | apply State.modBank_keeps | apply Keeps.ite) | dsimp -zeta only [x] | split

theorem State.energyCopy_keeps {wm : Nat} {s0 s : State} (h : Keeps wm s0 s) (hw : Within 0x810000 wm) :
    Keeps wm s0 (State.energyCopy s) := by
  unfold State.energyCopy
  repeat' first
    | (with_reducible first | assumption | exact hw | exact hw.mono (by decide)) | intro _
    | fail_if_no_progress extract_lets +onlyGivenNames x
    | (with_reducible first | apply State.ledgerNeed_keeps | apply State.modBank_keeps | apply Keeps.ite)

theorem execEnergyCopy_answers {wm : Nat} (s : State) (hw : Within 0x810000 wm) :
    Answers wm s (execEnergyCopy s) := by
  unfold execEnergyCopy
  repeat' first
    | (with_reducible first | assumption | exact Keeps.refl _ _ | exact hw | exact hw.mono (by decide)) | intro _
    | fail_if_no_progress extract_lets +onlyGivenNames x
    | (with_reducible first | apply Answers.next | apply Answers.ite | apply State.energyCopy_keeps)

theorem State.bankOn_keeps {wm : Nat} {s0 s : State} (h : Keeps wm s0 s) (hw : Within 0x800010040 wm) :
    Keeps wm s0 (State.bankOn s) := by
  unfold State.bankOn
  repeat' first
    | (with_reducible first | assumption | exact hw | exact hw.mono (by decide)) | intro _
    | ((fail_if_no_progress extract_lets +onlyGivenNames x); refine Keeps.cut (w := wm) (s := s0) (v := x) ?_ ?_)
    | ((fail_if_no_progress extract_lets +onlyGivenNames x); clear_value x) | fail_if_no_progress extract_lets +onlyGivenNames x
    | (with_reducible first | apply State.bankSendSet_keeps | apply State.bankSend_keeps | apply State.log_keeps)
    | (with_reducible first | apply State.modBank_keeps | apply Keeps.ite)

theorem execBankPowerOn_answers {wm : Nat} (s : State) (hw : Within 0x820010040 wm) :
    Answers wm s (execBankPowerOn s) := by
  unfold execBankPowerOn
  repeat' first
    | (with_reducible first | assumption | exact Keeps.refl _ _ | exact hw | exact hw.mono (by decide)) | intro _
    | ((fail_if_no_progress extract_lets +onlyGivenNames x); refine Keeps.cut (w := wm) (s := s) (v := x) ?_ ?_)
    | ((fail_if_no_progress extract_lets +onlyGivenNames x); clear_value x) | fail_if_no_progress extract_lets +onlyGivenNames x
    | (with_reducible first | apply Answers.next | apply Answers.ite | apply State.bankOn_keeps | apply Keeps.ite) | dsimp -zeta only [x]
    | (fail_if_no_progress ((with_reducible apply Keeps.upd); on_goal 2 => exact fun p hp => by cases p <;> first | with_reducible exact rfl | exact hw.no rfl hp))

theorem State.bankOff_keeps {wm : Nat} {s0 s : State} (h : Keeps wm s0 s) (hw : Within 0x11040 wm) :
    Keeps wm s0 (State.bankOff s) := by
  unfold State.bankOff
  repeat' first
    | (with_reducible first | assumption | exact hw | exact hw.mono (by decide)) | intro _
    | ((fail_if_no_progress extract_lets +onlyGivenNames x); refine Keeps.cut (w := wm) (s := s0) (v := x) ?_ ?_)
    | ((fail_if_no_progress extract_lets +onlyGivenNames x); clear_value x) | fail_if_no_progress extract_lets +onlyGivenNames x
    | (with_reducible first | apply State.faultScan_keeps | apply State.log_keeps | apply State.modBank_keeps)
    | (with_reducible first | apply State.revRecord_keeps | apply Keeps.ite | apply Keeps.foldl)

theorem execBankPowerOff_answers {wm : Nat} (s : State) (hw : Within 0x20011040 wm) :
    Answers wm s (execBankPowerOff s) := by
  unfold execBankPowerOff
  repeat' first
    | (with_reducible first | assumption | exact Keeps.refl _ _ | exact hw | exact hw.mono (by decide)) | intro _
    | ((fail_if_no_progress extract_lets +onlyGivenNames x); clear_value x) | fail_if_no_progress extract_lets +onlyGivenNames x
    | (with_reducible first | apply Answers.next | apply Answers.ite | apply State.bankOff_keeps | apply Keeps.ite) | dsimp -zeta only [x]
    | (fail_if_no_progress ((with_reducible apply Keeps.upd); on_goal 2 => exact fun p hp => by cases p <;> first | with_reducible exact rfl | exact hw.no rfl hp))

theorem finS_keeps (n : Nat) (i : Nat) {wm : Nat} {s0 s : State} (f : Fin n → State) (h : Keeps wm s0 s) (hf : ∀ j, Keeps wm s0 (f j)) :
    Keeps wm s0 (finS n i s f) := by
  unfold finS
  repeat' first
    | with_reducible assumption | intro _ | fail_if_no_progress extract_lets +onlyGivenNames x
    | (with_reducible first | apply hf | apply Keeps.ite) | dsimp -zeta only [x] | split

theorem State.faultRelease_keeps {wm : Nat} {s0 s : State} (v : Nat) (h : Keeps wm s0 s) (hw : Within 0x1000 wm) :
    Keeps wm s0 (State.faultRelease s v) := by
  unfold State.faultRelease
  repeat' first
    | (with_reducible first | assumption | exact hw | exact hw.mono (by decide)) | intro _
    | ((fail_if_no_progress extract_lets +onlyGivenNames x); clear_value x) | fail_if_no_progress extract_lets +onlyGivenNames x
    | (with_reducible first | apply Keeps.ite | apply Keeps.foldl | apply Keeps.foldlSnd | apply Keeps.foldlFst) | dsimp -zeta only [x]
    | (fail_if_no_progress ((with_reducible apply Keeps.upd); on_goal 2 => exact fun p hp => by cases p <;> first | with_reducible exact rfl | exact hw.no rfl hp))

theorem State.w1cWrite_keeps {wm : Nat} {s0 s : State} (p : Prm) (i : Nat) (v : Nat) (h : Keeps wm s0 s) (hw : Within 0x9340f9902 wm) :
    Keeps wm s0 (State.w1cWrite s p i v) := by
  unfold State.w1cWrite
  repeat' first
    | (with_reducible first | assumption | exact hw | exact hw.mono (by decide)) | exact (⟨fun a => a, fun a => a⟩ : Lower _ _)
    | with_reducible exact fun _ => ⟨fun a => a, fun a => a⟩ | exact fun _ => ⟨fun a => a, fun a => a⟩
    | exact fun _ => ⟨fun h => absurd h Bool.false_ne_true, fun h => absurd h Bool.false_ne_true⟩ | intro _
    | ((fail_if_no_progress extract_lets +onlyGivenNames x); clear_value x) | fail_if_no_progress extract_lets +onlyGivenNames x
    | (with_reducible first | apply State.bankCmd_keeps | apply State.faultRelease_keeps | apply State.modBf_keeps)
    | (with_reducible first | apply State.modEb_keeps | apply State.modFl_keeps | apply State.modHold_keeps)
    | (with_reducible first | apply State.modOc_keeps | apply State.modPh_keeps | apply State.modPort_keeps)
    | (with_reducible first | apply State.modScope_keeps | apply State.modStems_keeps | apply State.modTb_keeps)
    | (with_reducible first | apply State.modTimer_keeps | apply finS_keeps | apply Keeps.ite) | dsimp -zeta only [x] | split
    | dsimp -zeta only
    | (fail_if_no_progress ((with_reducible apply Keeps.upd); on_goal 2 => exact fun p hp => by cases p <;> first | with_reducible exact rfl | exact hw.no rfl hp))

theorem execPortTrainComplete_answers (p : Fin 64) (cls : Nat) {wm : Nat} (s : State) (hw : Within 0x180040 wm) :
    Answers wm s (execPortTrainComplete p cls s) := by
  unfold execPortTrainComplete
  repeat' first
    | (with_reducible first | assumption | exact Keeps.refl _ _ | exact hw | exact hw.mono (by decide)) | intro _
    | ((fail_if_no_progress extract_lets +onlyGivenNames x); clear_value x) | fail_if_no_progress extract_lets +onlyGivenNames x
    | (with_reducible first | apply Answers.next | apply Answers.ite | apply State.linkScan_keeps | apply State.log_keeps)
    | (with_reducible first | apply State.modPort_keeps | apply Keeps.ite)

theorem execPortTrainDwellExpire_answers (p : Fin 64) {wm : Nat} (s : State) (hw : Within 0x80040 wm) :
    Answers wm s (execPortTrainDwellExpire p s) := by
  unfold execPortTrainDwellExpire
  repeat' first
    | (with_reducible first | assumption | exact Keeps.refl _ _ | exact hw | exact hw.mono (by decide)) | intro _
    | ((fail_if_no_progress extract_lets +onlyGivenNames x); clear_value x) | fail_if_no_progress extract_lets +onlyGivenNames x
    | (with_reducible first | apply Answers.next | apply Answers.ite | apply State.log_keeps | apply State.modPort_keeps)
    | (with_reducible first | apply State.startTrain_keeps | apply Keeps.ite)

theorem execPortLossOfLock_answers (p : Fin 64) {wm : Nat} (s : State) (hw : Within 0x180040 wm) :
    Answers wm s (execPortLossOfLock p s) := by
  unfold execPortLossOfLock
  repeat' first
    | (with_reducible first | assumption | exact Keeps.refl _ _ | exact hw | exact hw.mono (by decide)) | intro _
    | fail_if_no_progress extract_lets +onlyGivenNames x
    | (with_reducible first | apply Answers.next | apply Answers.ite | apply State.leaveUp_keeps | apply Keeps.ite)

theorem execPortErrorRate_answers (p : Fin 64) (errs : Nat) {wm : Nat} (s : State) (hw : Within 0x180040 wm) :
    Answers wm s (execPortErrorRate p errs s) := by
  unfold execPortErrorRate
  repeat' first
    | (with_reducible first | assumption | exact Keeps.refl _ _ | exact hw | exact hw.mono (by decide)) | intro _
    | ((fail_if_no_progress extract_lets +onlyGivenNames x); refine Keeps.cut (w := wm) (s := s) (v := x) ?_ ?_)
    | fail_if_no_progress extract_lets +onlyGivenNames x
    | (with_reducible first | apply Answers.next | apply Answers.ite | apply State.leaveUp_keeps | apply State.modPort_keeps)
    | with_reducible apply Keeps.ite

theorem execPortUpshiftAttempt_answers (p : Fin 64) {wm : Nat} (s : State) (hw : Within 0x180040 wm) :
    Answers wm s (execPortUpshiftAttempt p s) := by
  unfold execPortUpshiftAttempt
  repeat' first
    | (with_reducible first | assumption | exact Keeps.refl _ _ | exact hw | exact hw.mono (by decide)) | intro _
    | ((fail_if_no_progress extract_lets +onlyGivenNames x); clear_value x) | fail_if_no_progress extract_lets +onlyGivenNames x
    | (with_reducible first | apply Answers.next | apply Answers.ite | apply State.leaveUp_keeps | apply Keeps.ite)

theorem execPortRetrainDelayEnd_answers (p : Fin 64) {wm : Nat} (s : State) (hw : Within 0x80000 wm) :
    Answers wm s (execPortRetrainDelayEnd p s) := by
  unfold execPortRetrainDelayEnd
  repeat' first
    | (with_reducible first | assumption | exact Keeps.refl _ _ | exact hw | exact hw.mono (by decide)) | intro _
    | ((fail_if_no_progress extract_lets +onlyGivenNames x); clear_value x) | fail_if_no_progress extract_lets +onlyGivenNames x
    | (with_reducible first | apply Answers.next | apply Answers.ite | apply State.startTrain_keeps | apply Keeps.ite)

theorem State.rxDiscard_keeps {wm : Nat} {s0 s : State} (p : Fin 64) (f : PortCount → PortCount) (h : Keeps wm s0 s) (hw : Within 0x80040 wm) :
    Keeps wm s0 (State.rxDiscard s p f) := by
  unfold State.rxDiscard
  repeat' first
    | (with_reducible first | assumption | exact hw | exact hw.mono (by decide)) | intro _
    | fail_if_no_progress extract_lets +onlyGivenNames x
    | (with_reducible first | apply State.modCnt_keeps | apply State.regrant_keeps | apply State.rxError_keeps)

theorem State.dualPass_keeps {wm : Nat} {s0 s : State} (p : Fin 64) (f : Frame) (h : Keeps wm s0 s) (hw : Within 0x80040 wm) :
    Keeps wm s0 (State.dualPass s p f).1 := by
  unfold State.dualPass
  repeat' first
    | (with_reducible first | assumption | exact hw | exact hw.mono (by decide)) | intro _
    | ((fail_if_no_progress extract_lets +onlyGivenNames x); refine Keeps.cut (w := wm) (s := s0) (v := x) ?_ ?_)
    | ((fail_if_no_progress extract_lets +onlyGivenNames x); clear_value x) | fail_if_no_progress extract_lets +onlyGivenNames x
    | (with_reducible first | apply State.log_keeps | apply State.modCnt_keeps | apply State.modPort_keeps | apply Keeps.ite)
    | dsimp -zeta only [x] | split

theorem State.rxComplete_keeps {wm : Nat} {s0 s : State} (p : Fin 64) (f : Frame) (time : Nat) (h : Keeps wm s0 s) (hw : Within 0x80040 wm) :
    Keeps wm s0 (State.rxComplete s p f time) := by
  unfold State.rxComplete
  repeat' first
    | (with_reducible first | assumption | exact hw | exact hw.mono (by decide)) | intro _
    | ((fail_if_no_progress extract_lets +onlyGivenNames x); refine Keeps.cut (w := wm) (s := s0) (v := x.1) ?_ ?_)
    | fail_if_no_progress extract_lets +onlyGivenNames x
    | (with_reducible first | apply State.dualPass_keeps | apply State.modCnt_keeps | apply State.modPort_keeps)
    | (with_reducible first | apply State.regrant_keeps | apply Keeps.ite)

theorem execRillFrameReceive_answers (p : Fin 64) (data : List Byte) (ending : RxEnd) (noise : Nat) (sofAge : Nat) {wm : Nat} (s : State) (hw : Within 0x80040 wm) :
    Answers wm s (execRillFrameReceive p data ending noise sofAge s) := by
  unfold execRillFrameReceive
  repeat' first
    | (with_reducible first | assumption | exact Keeps.refl _ _ | exact hw | exact hw.mono (by decide)) | intro _
    | ((fail_if_no_progress extract_lets +onlyGivenNames x); refine Keeps.cut (w := wm) (s := s) (v := x) ?_ ?_)
    | ((fail_if_no_progress extract_lets +onlyGivenNames x); clear_value x) | fail_if_no_progress extract_lets +onlyGivenNames x
    | (with_reducible first | apply Answers.next | apply Answers.ite | apply State.modCnt_keeps | apply State.modPort_keeps)
    | (with_reducible first | apply State.rxComplete_keeps | apply State.rxDiscard_keeps | apply Keeps.ite) | dsimp -zeta only [x] | split

theorem execRillRxTimeout_answers (p : Fin 64) {wm : Nat} (s : State) (hw : Within 0x80040 wm) :
    Answers wm s (execRillRxTimeout p s) := by
  unfold execRillRxTimeout
  repeat' first
    | (with_reducible first | assumption | exact Keeps.refl _ _ | exact hw | exact hw.mono (by decide)) | intro _
    | fail_if_no_progress extract_lets +onlyGivenNames x
    | (with_reducible first | apply Answers.next | apply Answers.ite | apply State.modPort_keeps | apply State.rxDiscard_keeps)
    | with_reducible apply Keeps.ite

theorem execRillCreditReceive_answers (p : Fin 64) (cnt : Fin 256) (notCnt : Fin 256) {wm : Nat} (s : State) (hw : Within 0x80000 wm) :
    Answers wm s (execRillCreditReceive p cnt notCnt s) := by
  unfold execRillCreditReceive
  repeat' first
    | (with_reducible first | assumption | exact Keeps.refl _ _ | exact hw | exact hw.mono (by decide)) | intro _
    | fail_if_no_progress extract_lets +onlyGivenNames x
    | (with_reducible first | apply Answers.next | apply Answers.ite | apply State.modPort_keeps | apply Keeps.ite)

theorem execRillFrameTransmit_answers (p : Fin 64) {wm : Nat} (s : State) (hw : Within 0x80000 wm) :
    Answers wm s (execRillFrameTransmit p s) := by
  unfold execRillFrameTransmit
  repeat' first
    | (with_reducible first | assumption | exact Keeps.refl _ _ | exact hw | exact hw.mono (by decide)) | intro _
    | fail_if_no_progress extract_lets +onlyGivenNames x
    | (with_reducible first | apply Answers.next | apply Answers.ite | apply State.modPort_keeps | apply Keeps.ite) | dsimp -zeta only [x]
    | split

theorem execPortTxStall_answers (p : Fin 64) {wm : Nat} (s : State) (hw : Within 0x80040 wm) :
    Answers wm s (execPortTxStall p s) := by
  unfold execPortTxStall
  repeat' first
    | (with_reducible first | assumption | exact Keeps.refl _ _ | exact hw | exact hw.mono (by decide)) | intro _
    | ((fail_if_no_progress extract_lets +onlyGivenNames x); clear_value x) | fail_if_no_progress extract_lets +onlyGivenNames x
    | (with_reducible first | apply Answers.next | apply Answers.ite | apply State.log_keeps | apply State.modPort_keeps)
    | with_reducible apply Keeps.ite

theorem execStampFieldFrame_answers (p : Fin 64) {wm : Nat} (s : State) (hw : Within 0x180050 wm) :
    Answers wm s (execStampFieldFrame p s) := by
  unfold execStampFieldFrame
  repeat' first
    | (with_reducible first | assumption | exact Keeps.refl _ _ | exact hw | exact hw.mono (by decide)) | intro _
    | ((fail_if_no_progress extract_lets +onlyGivenNames x); refine Keeps.cut (w := wm) (s := s) (v := x) ?_ ?_)
    | ((fail_if_no_progress extract_lets +onlyGivenNames x); clear_value x) | fail_if_no_progress extract_lets +onlyGivenNames x
    | (with_reducible first | apply Answers.next | apply Answers.ite | apply State.modPort_keeps | apply State.regrant_keeps)
    | (with_reducible first | apply State.rxDiscard_keeps | apply State.stamp_keeps | apply Keeps.ite) | dsimp -zeta only [x] | split
    | dsimp -zeta only
    | (fail_if_no_progress ((with_reducible apply Keeps.upd); on_goal 2 => exact fun p hp => by cases p <;> first | with_reducible exact rfl | exact hw.no rfl hp))

theorem execHubFrameReceive_answers {wm : Nat} (s : State) (hw : Within 0x180040 wm) :
    Answers wm s (execHubFrameReceive s) := by
  unfold execHubFrameReceive
  repeat' first
    | (with_reducible first | assumption | exact Keeps.refl _ _ | exact hw | exact hw.mono (by decide)) | intro _
    | ((fail_if_no_progress extract_lets +onlyGivenNames x); refine Keeps.cut (w := wm) (s := s) (v := x) ?_ ?_)
    | ((fail_if_no_progress extract_lets +onlyGivenNames x); clear_value x) | fail_if_no_progress extract_lets +onlyGivenNames x
    | (with_reducible first | apply Answers.next | apply Answers.ite | apply State.linkScan_keeps | apply State.modPort_keeps)
    | with_reducible apply Keeps.ite | dsimp -zeta only [x] | split | dsimp -zeta only
    | (fail_if_no_progress ((with_reducible apply Keeps.upd); on_goal 2 => exact fun p hp => by cases p <;> first | with_reducible exact rfl | exact hw.no rfl hp))

theorem execHubFrameTimeout_answers (p : Fin 64) {wm : Nat} (s : State) (hw : Within 0x180040 wm) :
    Answers wm s (execHubFrameTimeout p s) := by
  unfold execHubFrameTimeout
  repeat' first
    | (with_reducible first | assumption | exact Keeps.refl _ _ | exact hw | exact hw.mono (by decide)) | intro _
    | fail_if_no_progress extract_lets +onlyGivenNames x
    | (with_reducible first | apply Answers.next | apply Answers.ite | apply State.linkScan_keeps | apply State.modPort_keeps)
    | with_reducible apply Keeps.ite

theorem State.msgBad_keeps {wm : Nat} {s0 s : State} (m : InMsg) (h : Keeps wm s0 s) (hw : Within 0x80040 wm) :
    Keeps wm s0 (State.msgBad s m) := by
  unfold State.msgBad
  repeat' first
    | (with_reducible first | assumption | exact hw | exact hw.mono (by decide)) | intro _
    | fail_if_no_progress extract_lets +onlyGivenNames x | with_reducible apply State.rxDiscard_keeps

theorem State.inboxPop_keeps {wm : Nat} {s0 s : State} (h : Keeps wm s0 s) (hw : Within 0x100000 wm) :
    Keeps wm s0 (State.inboxPop s) := by
  unfold State.inboxPop
  repeat' first
    | (with_reducible first | assumption | exact hw | exact hw.mono (by decide)) | intro _
    | ((fail_if_no_progress extract_lets +onlyGivenNames x); clear_value x) | fail_if_no_progress extract_lets +onlyGivenNames x
    | with_reducible apply Keeps.ite | dsimp -zeta only [x]
    | (fail_if_no_progress ((with_reducible apply Keeps.upd); on_goal 2 => exact fun p hp => by cases p <;> first | with_reducible exact rfl | exact hw.no rfl hp))

theorem State.openReply_keeps {wm : Nat} {s0 s : State} (a : Nat) (retx : Bool) (h : Keeps wm s0 s) (hw : Within 0x800080000 wm) :
    Keeps wm s0 (State.openReply s a retx) := by
  unfold State.openReply
  repeat' first
    | (with_reducible first | assumption | exact hw | exact hw.mono (by decide)) | intro _
    | ((fail_if_no_progress extract_lets +onlyGivenNames x); clear_value x) | fail_if_no_progress extract_lets +onlyGivenNames x
    | with_reducible apply State.frameOut_keeps

theorem State.openGrant_keeps {wm : Nat} {s0 s : State} (a : Nat) (nonce : Nat) (body : List Byte) (h : Keeps wm s0 s) (hw : Within 0x802184040 wm) :
    Keeps wm s0 (State.openGrant s a nonce body) := by
  unfold State.openGrant
  repeat' first
    | (with_reducible first | assumption | exact hw | exact hw.mono (by decide)) | intro _
    | ((fail_if_no_progress extract_lets +onlyGivenNames x); refine Keeps.cut (w := wm) (s := s0) (v := x) ?_ ?_)
    | ((fail_if_no_progress extract_lets +onlyGivenNames x); clear_value x) | fail_if_no_progress extract_lets +onlyGivenNames x
    | (with_reducible first | apply State.endSess_keeps | apply State.log_keeps | apply State.modNode_keeps)
    | (with_reducible first | apply State.openReply_keeps | apply State.queueState_keeps | apply Keeps.ite)

theorem State.openRequest_keeps {wm : Nat} {s0 s : State} (a : Nat) (nonce : Nat) (body : List Byte) (h : Keeps wm s0 s) (hw : Within 0x802184040 wm) :
    Keeps wm s0 (State.openRequest s a nonce body) := by
  unfold State.openRequest
  repeat' first
    | (with_reducible first | assumption | exact hw | exact hw.mono (by decide)) | intro _
    | ((fail_if_no_progress extract_lets +onlyGivenNames x); clear_value x) | fail_if_no_progress extract_lets +onlyGivenNames x
    | (with_reducible first | apply State.endSess_keeps | apply State.log_keeps | apply State.nodeRaw_keeps)
    | (with_reducible first | apply State.openGrant_keeps | apply State.openReply_keeps | apply Keeps.ite)

theorem execNodeOpenRequest_answers {wm : Nat} (s : State) (hw : Within 0x802d84040 wm) :
    Answers wm s (execNodeOpenRequest s) := by
  unfold execNodeOpenRequest
  repeat' first
    | (with_reducible first | assumption | exact Keeps.refl _ _ | exact hw | exact hw.mono (by decide)) | intro _
    | fail_if_no_progress extract_lets +onlyGivenNames x
    | (with_reducible first | apply Answers.next | apply Answers.ite | apply State.inboxPop_keeps)
    | (with_reducible first | apply State.ledgerWrite_keeps | apply State.msgBad_keeps | apply State.openRequest_keeps)
    | with_reducible apply Keeps.ite | dsimp -zeta only [x] | split

theorem execNodeMsgReceive_answers {wm : Nat} (s : State) (hw : Within 0x800180040 wm) :
    Answers wm s (execNodeMsgReceive s) := by
  unfold execNodeMsgReceive
  repeat' first
    | (with_reducible first | assumption | exact Keeps.refl _ _ | exact hw | exact hw.mono (by decide)) | intro _
    | ((fail_if_no_progress extract_lets +onlyGivenNames x); refine Keeps.cut (w := wm) (s := s) (v := x) ?_ ?_)
    | ((fail_if_no_progress extract_lets +onlyGivenNames x); refine Keeps.cut (w := wm) (s := s) (v := x.1) ?_ ?_)
    | ((fail_if_no_progress extract_lets +onlyGivenNames x); clear_value x) | fail_if_no_progress extract_lets +onlyGivenNames x
    | (with_reducible first | apply Answers.next | apply Answers.ite | apply State.inboxPop_keeps | apply State.msgBad_keeps)
    | (with_reducible first | apply State.nodeAccept_keeps | apply Keeps.ite) | dsimp -zeta only [x] | split | dsimp -zeta only
    | (fail_if_no_progress ((with_reducible apply Keeps.upd); on_goal 2 => exact fun p hp => by cases p <;> first | with_reducible exact rfl | exact hw.no rfl hp))

theorem State.relayReply_keeps {wm : Nat} {s0 s : State} (a : Nat) (r : NodeReq) (sess : Nat) (seq : Nat) (status : Nat) (h : Keeps wm s0 s) (hw : Within 0x802100040 wm) :
    Keeps wm s0 (State.relayReply s a r sess seq status) := by
  unfold State.relayReply
  repeat' first
    | (with_reducible first | assumption | exact hw | exact hw.mono (by decide)) | intro _
    | ((fail_if_no_progress extract_lets +onlyGivenNames x); refine Keeps.cut (w := wm) (s := s0) (v := x) ?_ ?_)
    | ((fail_if_no_progress extract_lets +onlyGivenNames x); clear_value x) | fail_if_no_progress extract_lets +onlyGivenNames x
    | (with_reducible first | apply State.answer_keeps | apply State.log_keeps | apply State.setRelay_keeps | apply Keeps.ite)
    | dsimp -zeta only [x] | split

theorem execNodeReply_answers {wm : Nat} (s : State) (hw : Within 0x802180040 wm) :
    Answers wm s (execNodeReply s) := by
  unfold execNodeReply
  repeat' first
    | (with_reducible first | assumption | exact Keeps.refl _ _ | exact hw | exact hw.mono (by decide)) | intro _
    | ((fail_if_no_progress extract_lets +onlyGivenNames x); refine Keeps.cut (w := wm) (s := s) (v := x) ?_ ?_)
    | ((fail_if_no_progress extract_lets +onlyGivenNames x); clear_value x) | fail_if_no_progress extract_lets +onlyGivenNames x
    | (with_reducible first | apply Answers.next | apply Answers.ite | apply State.modNode_keeps | apply State.nextReq_keeps)
    | (with_reducible first | apply State.relayReply_keeps | apply Keeps.ite) | dsimp -zeta only [x] | split | dsimp -zeta only
    | (fail_if_no_progress ((with_reducible apply Keeps.upd); on_goal 2 => exact fun p hp => by cases p <;> first | with_reducible exact rfl | exact hw.no rfl hp))

theorem execNodeLeaseLapse_answers (a : Nat) {wm : Nat} (s : State) (hw : Within 0x802104040 wm) :
    Answers wm s (execNodeLeaseLapse a s) := by
  unfold execNodeLeaseLapse
  repeat' first
    | (with_reducible first | assumption | exact Keeps.refl _ _ | exact hw | exact hw.mono (by decide)) | intro _
    | ((fail_if_no_progress extract_lets +onlyGivenNames x); clear_value x) | fail_if_no_progress extract_lets +onlyGivenNames x
    | (with_reducible first | apply Answers.next | apply Answers.ite | apply State.endSess_keeps | apply State.log_keeps)
    | (with_reducible first | apply State.outScan_keeps | apply Keeps.ite)

theorem execNodeKeepaliveSend_answers (a : Nat) {wm : Nat} (s : State) (hw : Within 0x800180000 wm) :
    Answers wm s (execNodeKeepaliveSend a s) := by
  unfold execNodeKeepaliveSend
  repeat' first
    | (with_reducible first | assumption | exact Keeps.refl _ _ | exact hw | exact hw.mono (by decide)) | intro _
    | fail_if_no_progress extract_lets +onlyGivenNames x
    | (with_reducible first | apply Answers.next | apply Answers.ite | apply State.nodeSend_keeps | apply Keeps.ite)

theorem execNodeRetxTimeout_answers (a : Nat) {wm : Nat} (s : State) (hw : Within 0x802180040 wm) :
    Answers wm s (execNodeRetxTimeout a s) := by
  unfold execNodeRetxTimeout
  repeat' first
    | (with_reducible first | assumption | exact Keeps.refl _ _ | exact hw | exact hw.mono (by decide)) | intro _
    | fail_if_no_progress extract_lets +onlyGivenNames x
    | (with_reducible first | apply Answers.next | apply Answers.ite | apply State.failReq_keeps | apply State.frameOut_keeps)
    | (with_reducible first | apply State.modNode_keeps | apply State.nextReq_keeps | apply Keeps.ite) | dsimp -zeta only [x] | split

theorem execNodeCtrlClose_answers (a : Nat) (k : Fin 8) {wm : Nat} (s : State) (hw : Within 0x802184040 wm) :
    Answers wm s (execNodeCtrlClose a k s) := by
  unfold execNodeCtrlClose
  repeat' first
    | (with_reducible first | assumption | exact Keeps.refl _ _ | exact hw | exact hw.mono (by decide)) | intro _
    | fail_if_no_progress extract_lets +onlyGivenNames x
    | (with_reducible first | apply Answers.next | apply Answers.ite | apply State.closeSess_keeps | apply State.control_keeps)
    | (with_reducible first | apply State.modHost_keeps | apply Keeps.ite)

theorem execHoldupStateResend_answers {wm : Nat} (s : State) (hw : Within 0x800180000 wm) :
    Answers wm s (execHoldupStateResend s) := by
  unfold execHoldupStateResend
  repeat' first
    | (with_reducible first | assumption | exact Keeps.refl _ _ | exact hw | exact hw.mono (by decide)) | intro _
    | fail_if_no_progress extract_lets +onlyGivenNames x
    | (with_reducible first | apply Answers.next | apply Answers.ite | apply State.sendHoldup_keeps | apply Keeps.ite)
    | with_reducible apply Keeps.foldl

end Sys2Proof.Machine
end

