-- ==== Sys2Proof/Laws/KeepsF.lean ====
section
/-! SUPPORT. What the operations keep (see Keeps.lean), one lemma each: those of Silt.lean, Control.lean, HostSess.lean, ReadParam.lean, KenebOps.lean, HostReg.lean, Mailbox.lean, HostMsg.lean, ReqSess.lean, ReqParam.lean. -/

set_option linter.tactic.unusedName false
set_option linter.unreachableTactic false
set_option linter.unusedTactic false

namespace Sys2Proof.Machine

theorem execSiltEvent_answers {wm : Nat} (s : State) (hw : Within 0x16bb00c0 wm) :
    Answers wm s (execSiltEvent s) := by
  unfold execSiltEvent
  repeat' first
    | (with_reducible first | assumption | exact Keeps.refl _ _ | exact hw | exact hw.mono (by decide)) | intro _
    | fail_if_no_progress extract_lets +onlyGivenNames x
    | (with_reducible first | apply Answers.next | apply Answers.ite | apply State.modSilt_keeps)
    | (with_reducible first | apply State.siltDecide_keeps | apply Keeps.ite) | dsimp -zeta only [x] | split | dsimp -zeta only
    | (fail_if_no_progress ((with_reducible apply Keeps.upd); on_goal 2 => exact fun p hp => by cases p <;> first | with_reducible exact rfl | exact hw.no rfl hp))

theorem State.siltCommit_keeps {wm : Nat} {s0 s : State} (h : Keeps wm s0 s) (hw : Within 0x800c00000 wm) :
    Keeps wm s0 (State.siltCommit s) := by
  unfold State.siltCommit
  repeat' first
    | (with_reducible first | assumption | exact hw | exact hw.mono (by decide)) | intro _
    | ((fail_if_no_progress extract_lets +onlyGivenNames x); refine Keeps.cut (w := wm) (s := s0) (v := x) ?_ ?_)
    | fail_if_no_progress extract_lets +onlyGivenNames x
    | (with_reducible first | apply State.ledgerNeed_keeps | apply State.modSilt_keeps | apply State.output_keeps)
    | (with_reducible first | apply State.store_keeps | apply Keeps.ite) | dsimp -zeta only [x] | split

theorem execSiltRecordCommit_answers {wm : Nat} (s : State) (hw : Within 0x800c00004 wm) :
    Answers wm s (execSiltRecordCommit s) := by
  unfold execSiltRecordCommit
  repeat' first
    | (with_reducible first | assumption | exact Keeps.refl _ _ | exact hw | exact hw.mono (by decide)) | intro _
    | fail_if_no_progress extract_lets +onlyGivenNames x
    | (with_reducible first | apply Answers.next | apply Answers.ite | apply State.siltCommit_keeps)
    | (with_reducible first | apply State.sluiceStall_keeps | apply State.sluiceUse_keeps | apply Keeps.ite)

theorem execSiltTallyWrite_answers {wm : Nat} (s : State) (hw : Within 0x800c00000 wm) :
    Answers wm s (execSiltTallyWrite s) := by
  unfold execSiltTallyWrite
  repeat' first
    | (with_reducible first | assumption | exact Keeps.refl _ _ | exact hw | exact hw.mono (by decide)) | intro _
    | fail_if_no_progress extract_lets +onlyGivenNames x
    | (with_reducible first | apply Answers.next | apply Answers.ite | apply State.modSilt_keeps | apply State.output_keeps)
    | (with_reducible first | apply State.store_keeps | apply Keeps.ite) | dsimp -zeta only [x] | split

theorem State.tallyDrain_keeps {wm : Nat} {s0 s : State} (h : Keeps wm s0 s) (hw : Within 0x800c00000 wm) :
    Keeps wm s0 (State.tallyDrain s) := by
  unfold State.tallyDrain
  repeat' first
    | (with_reducible first | assumption | exact hw | exact hw.mono (by decide)) | intro _
    | fail_if_no_progress extract_lets +onlyGivenNames x
    | (with_reducible first | apply State.modSilt_keeps | apply State.output_keeps | apply State.store_keeps | apply Keeps.ite)
    | with_reducible apply Keeps.foldl

theorem execLedgerWrite_answers {wm : Nat} (s : State) (hw : Within 0xc00000 wm) :
    Answers wm s (execLedgerWrite s) := by
  unfold execLedgerWrite
  repeat' first
    | (with_reducible first | assumption | exact Keeps.refl _ _ | exact hw | exact hw.mono (by decide)) | intro _
    | ((fail_if_no_progress extract_lets +onlyGivenNames x); refine Keeps.cut (w := wm) (s := s) (v := x) ?_ ?_)
    | fail_if_no_progress extract_lets +onlyGivenNames x
    | (with_reducible first | apply Answers.next | apply Answers.ite | apply State.ledgerNeed_keeps)
    | (with_reducible first | apply State.ledgerWrite_keeps | apply Keeps.ite)

theorem execSiltCursorWrite_answers (p : Fin 4) (v : Nat) {wm : Nat} (s : State) (hw : Within 0x2000000 wm) :
    Answers wm s (execSiltCursorWrite p v s) := by
  unfold execSiltCursorWrite
  repeat' first
    | (with_reducible first | assumption | exact Keeps.refl _ _ | exact hw | exact hw.mono (by decide)) | intro _
    | fail_if_no_progress extract_lets +onlyGivenNames x
    | (with_reducible first | apply Answers.next | apply Answers.ite | apply State.modHp_keeps | apply Keeps.ite)

theorem State.winLatch_keeps {wm : Nat} {s0 s : State} (p : Fin 4) (h : Keeps wm s0 s) (hw : Within 0x2000040 wm) :
    Keeps wm s0 (State.winLatch s p) := by
  unfold State.winLatch
  repeat' first
    | (with_reducible first | assumption | exact hw | exact hw.mono (by decide)) | intro _
    | ((fail_if_no_progress extract_lets +onlyGivenNames x); refine Keeps.cut (w := wm) (s := s0) (v := x) ?_ ?_)
    | ((fail_if_no_progress extract_lets +onlyGivenNames x); clear_value x) | fail_if_no_progress extract_lets +onlyGivenNames x
    | (with_reducible first | apply State.log_keeps | apply State.modHp_keeps | apply Keeps.ite)

theorem execSiltWinLatch_answers (p : Fin 4) {wm : Nat} (s : State) (hw : Within 0x2000040 wm) :
    Answers wm s (execSiltWinLatch p s) := by
  unfold execSiltWinLatch
  repeat' first
    | (with_reducible first | assumption | exact Keeps.refl _ _ | exact hw | exact hw.mono (by decide)) | intro _
    | fail_if_no_progress extract_lets +onlyGivenNames x
    | (with_reducible first | apply Answers.next | apply Answers.ite | apply State.winLatch_keeps | apply Keeps.ite)

theorem State.winLast_keeps {wm : Nat} {s0 s : State} (p : Fin 4) (h : Keeps wm s0 s) (hw : Within 0x2000000 wm) :
    Keeps wm s0 (State.winLast s p) := by
  unfold State.winLast
  repeat' first
    | (with_reducible first | assumption | exact hw | exact hw.mono (by decide)) | intro _
    | fail_if_no_progress extract_lets +onlyGivenNames x | with_reducible apply State.modHp_keeps

theorem execSiltWinAutoAdvance_answers (p : Fin 4) {wm : Nat} (s : State) (hw : Within 0x2000000 wm) :
    Answers wm s (execSiltWinAutoAdvance p s) := by
  unfold execSiltWinAutoAdvance
  repeat' first
    | (with_reducible first | assumption | exact Keeps.refl _ _ | exact hw | exact hw.mono (by decide)) | intro _
    | fail_if_no_progress extract_lets +onlyGivenNames x
    | (with_reducible first | apply Answers.next | apply Answers.ite | apply State.winLast_keeps | apply Keeps.ite)

theorem State.siltClear_keeps {wm : Nat} {s0 s : State} (k : Fin 8) (h : Keeps wm s0 s) (hw : Within 0x40 wm) :
    Keeps wm s0 (State.siltClear s k).1 := by
  unfold State.siltClear
  repeat' first
    | (with_reducible first | assumption | exact hw | exact hw.mono (by decide)) | intro _
    | fail_if_no_progress extract_lets +onlyGivenNames x | (with_reducible first | apply State.log_keeps | apply Keeps.ite)
    | dsimp -zeta only [x] | split

theorem execSiltCtrlClear_answers (k : Fin 8) {wm : Nat} (s : State) (hw : Within 0x2000040 wm) :
    Answers wm s (execSiltCtrlClear k s) := by
  unfold execSiltCtrlClear
  repeat' first
    | (with_reducible first | assumption | exact Keeps.refl _ _ | exact hw | exact hw.mono (by decide)) | intro _
    | fail_if_no_progress extract_lets +onlyGivenNames x
    | (with_reducible first | apply Answers.next | apply Answers.ite | apply State.control_keeps | apply State.siltClear_keeps)

theorem State.feedControl_keeps {wm : Nat} {s0 s : State} (f : Fin 2) (v : Nat) (h : Keeps wm s0 s) (hw : Within 0x800010000 wm) :
    Keeps wm s0 (State.feedControl s f v).1 := by
  unfold State.feedControl
  repeat' first
    | (with_reducible first | assumption | exact hw | exact hw.mono (by decide)) | intro _
    | fail_if_no_progress extract_lets +onlyGivenNames x
    | (with_reducible first | apply State.bankCmd_keeps | apply Keeps.ite | apply Keeps.iteFst)

theorem State.ctlAt_keeps {wm : Nat} {s0 s : State} (n : Nat) (i : Nat) (f : Fin n → State × Nat) (h : Keeps wm s0 s) (hf : ∀ j, Keeps wm s0 (f j).1) :
    Keeps wm s0 (State.ctlAt s n i f).1 := by
  unfold State.ctlAt
  repeat' first
    | with_reducible assumption | intro _ | fail_if_no_progress extract_lets +onlyGivenNames x
    | (with_reducible first | apply hf | apply Keeps.ite) | dsimp -zeta only [x] | split

theorem State.ctlEffect_keeps {wm : Nat} {s0 s : State} (k : Fin 8) (may : Bool) (p : Prm) (i : Nat) (v : Nat) (h : Keeps wm s0 s) (hw : Within 0xe1fdddbd0 wm) :
    Keeps wm s0 (State.ctlEffect s k may p i v).1 := by
  unfold State.ctlEffect
  repeat' first
    | (with_reducible first | assumption | exact hw | exact hw.mono (by decide)) | intro _
    | fail_if_no_progress extract_lets +onlyGivenNames x
    | (with_reducible first | apply State.battCancelLearn_keeps | apply State.battClearCutoff_keeps)
    | (with_reducible first | apply State.battReestimate_keeps | apply State.closeSess_keeps | apply State.ctlAt_keeps)
    | (with_reducible first | apply State.feedControl_keeps | apply State.holdHandback_keeps | apply State.loopClear_keeps)
    | (with_reducible first | apply State.loopStart_keeps | apply State.loopStop_keeps | apply State.sensorRelearn_keeps)
    | (with_reducible first | apply State.siltClear_keeps | apply State.slotLock_keeps | apply State.spateReq_keeps)
    | (with_reducible first | apply State.stemRestartCtl_keeps | apply State.stemResync_keeps | apply State.stemSwitch_keeps)
    | (with_reducible first | apply State.thermClearLatch_keeps | apply State.timerWrite_keeps | apply Keeps.ite)
    | with_reducible apply Keeps.iteFst

theorem execLoopCtrlStart_answers (l : Fin 16) (k : Fin 8) {wm : Nat} (s : State) (hw : Within 0xe0a0018c0 wm) :
    Answers wm s (execLoopCtrlStart l k s) := by
  unfold execLoopCtrlStart
  repeat' first
    | (with_reducible first | assumption | exact Keeps.refl _ _ | exact hw | exact hw.mono (by decide)) | intro _
    | fail_if_no_progress extract_lets +onlyGivenNames x
    | (with_reducible first | apply Answers.next | apply Answers.ite | apply State.control_keeps | apply State.loopStart_keeps)

theorem execLoopCtrlStop_answers (l : Fin 16) (k : Fin 8) {wm : Nat} (s : State) (hw : Within 0xe0a001bc0 wm) :
    Answers wm s (execLoopCtrlStop l k s) := by
  unfold execLoopCtrlStop
  repeat' first
    | (with_reducible first | assumption | exact Keeps.refl _ _ | exact hw | exact hw.mono (by decide)) | intro _
    | fail_if_no_progress extract_lets +onlyGivenNames x
    | (with_reducible first | apply Answers.next | apply Answers.ite | apply State.control_keeps | apply State.loopStop_keeps)

theorem execLoopCtrlClear_answers (l : Fin 16) (k : Fin 8) {wm : Nat} (s : State) (hw : Within 0x2001840 wm) :
    Answers wm s (execLoopCtrlClear l k s) := by
  unfold execLoopCtrlClear
  repeat' first
    | (with_reducible first | assumption | exact Keeps.refl _ _ | exact hw | exact hw.mono (by decide)) | intro _
    | fail_if_no_progress extract_lets +onlyGivenNames x
    | (with_reducible first | apply Answers.next | apply Answers.ite | apply State.control_keeps | apply State.loopClear_keeps)

theorem execFaultStatusRelease_answers (k : Fin 8) (v : Nat) {wm : Nat} (s : State) (hw : Within 0x2001000 wm) :
    Answers wm s (execFaultStatusRelease k v s) := by
  unfold execFaultStatusRelease
  repeat' first
    | (with_reducible first | assumption | exact Keeps.refl _ _ | exact hw | exact hw.mono (by decide)) | intro _
    | fail_if_no_progress extract_lets +onlyGivenNames x
    | (with_reducible first | apply Answers.next | apply Answers.ite | apply State.control_keeps)
    | with_reducible apply State.faultRelease_keeps

theorem execFeedCtrlEnable_answers (f : Fin 2) (k : Fin 8) {wm : Nat} (s : State) (hw : Within 0x802010000 wm) :
    Answers wm s (execFeedCtrlEnable f k s) := by
  unfold execFeedCtrlEnable
  repeat' first
    | (with_reducible first | assumption | exact Keeps.refl _ _ | exact hw | exact hw.mono (by decide)) | intro _
    | fail_if_no_progress extract_lets +onlyGivenNames x
    | (with_reducible first | apply Answers.next | apply Answers.ite | apply State.control_keeps)
    | with_reducible apply State.feedControl_keeps

theorem execFeedCtrlDisable_answers (f : Fin 2) (k : Fin 8) {wm : Nat} (s : State) (hw : Within 0x802010000 wm) :
    Answers wm s (execFeedCtrlDisable f k s) := by
  unfold execFeedCtrlDisable
  repeat' first
    | (with_reducible first | assumption | exact Keeps.refl _ _ | exact hw | exact hw.mono (by decide)) | intro _
    | fail_if_no_progress extract_lets +onlyGivenNames x
    | (with_reducible first | apply Answers.next | apply Answers.ite | apply State.control_keeps)
    | with_reducible apply State.feedControl_keeps

theorem execFeedCtrlClear_answers (f : Fin 2) (k : Fin 8) {wm : Nat} (s : State) (hw : Within 0x802010000 wm) :
    Answers wm s (execFeedCtrlClear f k s) := by
  unfold execFeedCtrlClear
  repeat' first
    | (with_reducible first | assumption | exact Keeps.refl _ _ | exact hw | exact hw.mono (by decide)) | intro _
    | fail_if_no_progress extract_lets +onlyGivenNames x
    | (with_reducible first | apply Answers.next | apply Answers.ite | apply State.control_keeps)
    | with_reducible apply State.feedControl_keeps

theorem execFeedCtrlTest_answers (f : Fin 2) (k : Fin 8) {wm : Nat} (s : State) (hw : Within 0x802010000 wm) :
    Answers wm s (execFeedCtrlTest f k s) := by
  unfold execFeedCtrlTest
  repeat' first
    | (with_reducible first | assumption | exact Keeps.refl _ _ | exact hw | exact hw.mono (by decide)) | intro _
    | fail_if_no_progress extract_lets +onlyGivenNames x
    | (with_reducible first | apply Answers.next | apply Answers.ite | apply State.control_keeps)
    | with_reducible apply State.feedControl_keeps

theorem execFeedCtrlResetEnergy_answers (f : Fin 2) (k : Fin 8) {wm : Nat} (s : State) (hw : Within 0x802010000 wm) :
    Answers wm s (execFeedCtrlResetEnergy f k s) := by
  unfold execFeedCtrlResetEnergy
  repeat' first
    | (with_reducible first | assumption | exact Keeps.refl _ _ | exact hw | exact hw.mono (by decide)) | intro _
    | fail_if_no_progress extract_lets +onlyGivenNames x
    | (with_reducible first | apply Answers.next | apply Answers.ite | apply State.control_keeps)
    | with_reducible apply State.feedControl_keeps

theorem State.grantPermit_keeps {wm : Nat} {s0 s : State} (k : Fin 8) (i : Nat) (lease : Nat) (h : Keeps wm s0 s) (hw : Within 0x2000040 wm) :
    Keeps wm s0 (State.grantPermit s k i lease) := by
  unfold State.grantPermit
  repeat' first
    | (with_reducible first | assumption | exact hw | exact hw.mono (by decide)) | intro _
    | ((fail_if_no_progress extract_lets +onlyGivenNames x); clear_value x) | fail_if_no_progress extract_lets +onlyGivenNames x
    | (with_reducible first | apply State.log_keeps | apply State.setPermit_keeps)

theorem State.stageDrop_keeps {wm : Nat} {s0 s : State} (k : Fin 8) (i : Nat) (h : Keeps wm s0 s) (hw : Within 0x2000000 wm) :
    Keeps wm s0 (State.stageDrop s k i) := by
  unfold State.stageDrop
  repeat' first
    | (with_reducible first | assumption | exact hw | exact hw.mono (by decide)) | intro _
    | fail_if_no_progress extract_lets +onlyGivenNames x | with_reducible apply State.modSess_keeps

theorem State.relayLapse_keeps {wm : Nat} {s0 s : State} (p : Nat) (h : Keeps wm s0 s) (hw : Within 0x802180040 wm) :
    Keeps wm s0 (State.relayLapse s p) := by
  unfold State.relayLapse
  repeat' first
    | (with_reducible first | assumption | exact hw | exact hw.mono (by decide)) | intro _
    | ((fail_if_no_progress extract_lets +onlyGivenNames x); refine Keeps.cut (w := wm) (s := s0) (v := x) ?_ ?_)
    | ((fail_if_no_progress extract_lets +onlyGivenNames x); clear_value x) | fail_if_no_progress extract_lets +onlyGivenNames x
    | (with_reducible first | apply State.failHost_keeps | apply State.modNode_keeps | apply State.nextReq_keeps)
    | (with_reducible first | apply State.relayAbandon_keeps | apply Keeps.ite | apply Keeps.foldl | apply Keeps.foldlSnd)
    | with_reducible apply Keeps.foldlFst | dsimp -zeta only [x] | split

theorem State.fwAbandon_keeps {wm : Nat} {s0 s : State} (h : Keeps wm s0 s) (hw : Within 0x882000000 wm) :
    Keeps wm s0 (State.fwAbandon s) := by
  unfold State.fwAbandon
  repeat' first
    | (with_reducible first | assumption | exact hw | exact hw.mono (by decide)) | intro _
    | ((fail_if_no_progress extract_lets +onlyGivenNames x); refine Keeps.cut (w := wm) (s := s0) (v := x) ?_ ?_)
    | fail_if_no_progress extract_lets +onlyGivenNames x
    | (with_reducible first | apply State.answer_keeps | apply State.modFirm_keeps | apply Keeps.ite) | exact Nat.le_refl _
    | exact Nat.le_max_left _ _ | dsimp -zeta only [x] | split

theorem State.standingOrder_keeps {wm : Nat} {s0 s : State} (k : Fin 8) (i : Nat) (h : Keeps wm s0 s) (hw : Within 0xc821ad850 wm) :
    Keeps wm s0 (State.standingOrder s k i) := by
  unfold State.standingOrder
  repeat' first
    | (with_reducible first | assumption | exact hw | exact hw.mono (by decide)) | intro _
    | ((fail_if_no_progress extract_lets +onlyGivenNames x); have _ : _ → State := x) | fail_if_no_progress extract_lets +onlyGivenNames x
    | (with_reducible first | apply State.fwAbandon_keeps | apply State.modHost_keeps | apply State.relayLapse_keeps)
    | (with_reducible first | apply State.tryHandback_keeps | apply State.weirLapse_keeps | apply Keeps.ite)

theorem State.permitEnd_keeps {wm : Nat} {s0 s : State} (i : Nat) (cause : Nat) (h : Keeps wm s0 s) (hw : Within 0xc821ad850 wm) :
    Keeps wm s0 (State.permitEnd s i cause) := by
  unfold State.permitEnd
  repeat' first
    | (with_reducible first | assumption | exact hw | exact hw.mono (by decide)) | intro _
    | ((fail_if_no_progress extract_lets +onlyGivenNames x); refine Keeps.cut (w := wm) (s := s0) (v := x) ?_ ?_)
    | ((fail_if_no_progress extract_lets +onlyGivenNames x); clear_value x) | fail_if_no_progress extract_lets +onlyGivenNames x
    | (with_reducible first | apply State.log_keeps | apply State.modHp_keeps | apply State.notice_keeps)
    | (with_reducible first | apply State.setPermit_keeps | apply State.stageDrop_keeps | apply State.standingOrder_keeps)
    | with_reducible apply Keeps.ite | dsimp -zeta only [x] | split

theorem State.unbind_keeps {wm : Nat} {s0 s : State} (k : Fin 8) (h : Keeps wm s0 s) (hw : Within 0x2000000 wm) :
    Keeps wm s0 (State.unbind s k) := by
  unfold State.unbind
  repeat' first
    | (with_reducible first | assumption | exact hw | exact hw.mono (by decide)) | intro _
    | ((fail_if_no_progress extract_lets +onlyGivenNames x); clear_value x) | fail_if_no_progress extract_lets +onlyGivenNames x
    | with_reducible apply State.modHost_keeps

theorem State.toClaimed_keeps {wm : Nat} {s0 s : State} (k : Fin 8) (h : Keeps wm s0 s) (hw : Within 0x2000000 wm) :
    Keeps wm s0 (State.toClaimed s k) := by
  unfold State.toClaimed
  repeat' first
    | (with_reducible first | assumption | exact hw | exact hw.mono (by decide)) | intro _
    | fail_if_no_progress extract_lets +onlyGivenNames x
    | (with_reducible first | apply State.modSess_keeps | apply State.unbind_keeps | apply Keeps.ite)

theorem State.sessOver_keeps {wm : Nat} {s0 s : State} (k : Fin 8) (cause : Nat) (h : Keeps wm s0 s) (hw : Within 0xc823ad850 wm) :
    Keeps wm s0 (State.sessOver s k cause) := by
  unfold State.sessOver
  repeat' first
    | (with_reducible first | assumption | exact hw | exact hw.mono (by decide)) | intro _
    | ((fail_if_no_progress extract_lets +onlyGivenNames x); refine Keeps.cut (w := wm) (s := s0) (v := x) ?_ ?_)
    | ((fail_if_no_progress extract_lets +onlyGivenNames x); clear_value x) | fail_if_no_progress extract_lets +onlyGivenNames x
    | (with_reducible first | apply State.log_keeps | apply State.modHost_keeps | apply State.modHp_keeps)
    | (with_reducible first | apply State.modPool_keeps | apply State.permitEnd_keeps | apply Keeps.ite | apply Keeps.foldl)

theorem State.sessEnd_keeps {wm : Nat} {s0 s : State} (k : Fin 8) (cause : Nat) (h : Keeps wm s0 s) (hw : Within 0xc823ad850 wm) :
    Keeps wm s0 (State.sessEnd s k cause) := by
  unfold State.sessEnd
  repeat' first
    | (with_reducible first | assumption | exact hw | exact hw.mono (by decide)) | intro _
    | fail_if_no_progress extract_lets +onlyGivenNames x
    | (with_reducible first | apply State.sessOver_keeps | apply State.toClaimed_keeps | apply Keeps.ite)

theorem State.sessRelease_keeps {wm : Nat} {s0 s : State} (k : Fin 8) (h : Keeps wm s0 s) (hw : Within 0xc823ad850 wm) :
    Keeps wm s0 (State.sessRelease s k) := by
  unfold State.sessRelease
  repeat' first
    | (with_reducible first | assumption | exact hw | exact hw.mono (by decide)) | intro _
    | fail_if_no_progress extract_lets +onlyGivenNames x
    | (with_reducible first | apply State.sessOver_keeps | apply State.unbind_keeps | apply Keeps.ite)

theorem State.bindPair_keeps {wm : Nat} {s0 s : State} (k : Fin 8) (port : Nat) (ep : Endpoint) (h : Keeps wm s0 s) (hw : Within 0x2000000 wm) :
    Keeps wm s0 (State.bindPair s k port ep) := by
  unfold State.bindPair
  repeat' first
    | (with_reducible first | assumption | exact hw | exact hw.mono (by decide)) | intro _
    | fail_if_no_progress extract_lets +onlyGivenNames x | (with_reducible first | apply State.modSess_keeps | apply State.unbind_keeps)

theorem execSessionClaimTimeout_answers (k : Fin 8) {wm : Nat} (s : State) (hw : Within 0x2000000 wm) :
    Answers wm s (execSessionClaimTimeout k s) := by
  unfold execSessionClaimTimeout
  repeat' first
    | (with_reducible first | assumption | exact Keeps.refl _ _ | exact hw | exact hw.mono (by decide)) | intro _
    | fail_if_no_progress extract_lets +onlyGivenNames x
    | (with_reducible first | apply Answers.next | apply Answers.ite | apply State.unbind_keeps | apply Keeps.ite)

theorem execSessionProveTimeout_answers (k : Fin 8) {wm : Nat} (s : State) (hw : Within 0x2000000 wm) :
    Answers wm s (execSessionProveTimeout k s) := by
  unfold execSessionProveTimeout
  repeat' first
    | (with_reducible first | assumption | exact Keeps.refl _ _ | exact hw | exact hw.mono (by decide)) | intro _
    | fail_if_no_progress extract_lets +onlyGivenNames x
    | (with_reducible first | apply Answers.next | apply Answers.ite | apply State.toClaimed_keeps | apply Keeps.ite)

theorem execSessionLeaseLapse_answers (k : Fin 8) {wm : Nat} (s : State) (hw : Within 0xc823ad850 wm) :
    Answers wm s (execSessionLeaseLapse k s) := by
  unfold execSessionLeaseLapse
  repeat' first
    | (with_reducible first | assumption | exact Keeps.refl _ _ | exact hw | exact hw.mono (by decide)) | intro _
    | fail_if_no_progress extract_lets +onlyGivenNames x
    | (with_reducible first | apply Answers.next | apply Answers.ite | apply State.sessEnd_keeps | apply Keeps.ite)

theorem execPermitLapse_answers (i : Nat) {wm : Nat} (s : State) (hw : Within 0xc821ad850 wm) :
    Answers wm s (execPermitLapse i s) := by
  unfold execPermitLapse
  repeat' first
    | (with_reducible first | assumption | exact Keeps.refl _ _ | exact hw | exact hw.mono (by decide)) | intro _
    | fail_if_no_progress extract_lets +onlyGivenNames x
    | (with_reducible first | apply Answers.next | apply Answers.ite | apply State.permitEnd_keeps | apply Keeps.ite)

theorem execKeyLockoutEnd_answers (k : Fin 8) {wm : Nat} (s : State) (hw : Within 0x2000000 wm) :
    Answers wm s (execKeyLockoutEnd k s) := by
  unfold execKeyLockoutEnd
  repeat' first
    | (with_reducible first | assumption | exact Keeps.refl _ _ | exact hw | exact hw.mono (by decide)) | intro _
    | fail_if_no_progress extract_lets +onlyGivenNames x
    | (with_reducible first | apply Answers.next | apply Answers.ite | apply State.modHost_keeps | apply Keeps.ite)

theorem State.readBy_keeps {wm : Nat} {s0 s : State} (k : Fin 8) (p : Prm) (i : Nat) (h : Keeps wm s0 s) (hw : Within 0x10000000 wm) :
    Keeps wm s0 (State.readBy s k p i).2 := by
  unfold State.readBy
  repeat' first
    | (with_reducible first | assumption | exact hw | exact hw.mono (by decide)) | intro _
    | ((fail_if_no_progress extract_lets +onlyGivenNames x); clear_value x) | fail_if_no_progress extract_lets +onlyGivenNames x
    | (with_reducible first | apply State.modTimer_keeps | apply Keeps.ite) | dsimp -zeta only [x] | split

theorem State.imgStore_keeps {wm : Nat} {s0 s : State} (k : Nat) (bs : List Byte) (h : Keeps wm s0 s) (hw : Within 0x400000 wm) :
    Keeps wm s0 (State.imgStore s k bs) := by
  unfold State.imgStore
  repeat' first
    | (with_reducible first | assumption | exact hw | exact hw.mono (by decide)) | intro _
    | fail_if_no_progress extract_lets +onlyGivenNames x | with_reducible apply State.store_keeps

theorem State.readTimeLo_keeps {wm : Nat} {s0 s : State} (p : Fin 4) (h : Keeps wm s0 s) (hw : Within 0x2000000 wm) :
    Keeps wm s0 (State.readTimeLo s p) := by
  unfold State.readTimeLo
  repeat' first
    | (with_reducible first | assumption | exact hw | exact hw.mono (by decide)) | intro _
    | fail_if_no_progress extract_lets +onlyGivenNames x | (with_reducible first | apply State.modHost_keeps | apply State.modHp_keeps)

theorem State.mbRead_keeps {wm : Nat} {s0 s : State} (p : Fin 4) (m : Fin 16) (h : Keeps wm s0 s) (hw : Within 0x2000000 wm) :
    Keeps wm s0 (State.mbRead s p m) := by
  unfold State.mbRead
  repeat' first
    | (with_reducible first | assumption | exact hw | exact hw.mono (by decide)) | intro _
    | fail_if_no_progress extract_lets +onlyGivenNames x
    | (with_reducible first | apply State.modHp_keeps | apply State.modMb_keeps | apply Keeps.ite)

theorem State.regRead_keeps {wm : Nat} {s0 s : State} (p : Fin 4) (off : Nat) (h : Keeps wm s0 s) (hw : Within 0x2000040 wm) :
    Keeps wm s0 (State.regRead s p off).2 := by
  unfold State.regRead
  repeat' first
    | (with_reducible first | assumption | exact hw | exact hw.mono (by decide)) | intro _
    | ((fail_if_no_progress extract_lets +onlyGivenNames x); refine Keeps.cut (w := wm) (s := s0) (v := x) ?_ ?_)
    | fail_if_no_progress extract_lets +onlyGivenNames x
    | (with_reducible first | apply State.mbRead_keeps | apply State.modHp_keeps | apply State.readTimeLo_keeps)
    | (with_reducible first | apply State.winLast_keeps | apply State.winLatch_keeps | apply Keeps.ite)

theorem State.regRun_keeps {wm : Nat} {s0 s : State} (p : Fin 4) (off : Nat) (m : Nat) (h : Keeps wm s0 s) (hw : Within 0x2000040 wm) :
    Keeps wm s0 (State.regRun s p off m).2 := by
  induction m generalizing s off with
  | zero => exact h
  | succ n ih => exact ih _ (State.regRead_keeps _ _ h hw)

theorem State.ethReg_keeps {wm : Nat} {s0 s : State} (e : Fin 2) (ep : Endpoint) (data : List Byte) (h : Keeps wm s0 s) (hw : Within 0x2000040 wm) :
    Keeps wm s0 (State.ethReg s e ep data) := by
  unfold State.ethReg
  repeat' first
    | (with_reducible first | assumption | exact hw | exact hw.mono (by decide)) | intro _
    | ((fail_if_no_progress extract_lets +onlyGivenNames x); refine Keeps.cut (w := wm) (s := s0) (v := x.2) ?_ ?_)
    | ((fail_if_no_progress extract_lets +onlyGivenNames x); have _ : _ → _ → State := x)
    | ((fail_if_no_progress extract_lets +onlyGivenNames x); clear_value x) | fail_if_no_progress extract_lets +onlyGivenNames x
    | (with_reducible first | apply State.modHp_keeps | apply State.regRun_keeps | apply State.sendTo_keeps | apply Keeps.ite)

theorem execHrTimeLoRead_answers (p : Fin 4) {wm : Nat} (s : State) (hw : Within 0x2000000 wm) :
    Answers wm s (execHrTimeLoRead p s) := by
  unfold execHrTimeLoRead
  repeat' first
    | (with_reducible first | assumption | exact Keeps.refl _ _ | exact hw | exact hw.mono (by decide)) | intro _
    | fail_if_no_progress extract_lets +onlyGivenNames x
    | (with_reducible first | apply Answers.next | apply Answers.ite | apply State.readTimeLo_keeps | apply Keeps.ite)

theorem execMbRxRead_answers (n : Fin 2) (m : Fin 16) {wm : Nat} (s : State) (hw : Within 0x2000000 wm) :
    Answers wm s (execMbRxRead n m s) := by
  unfold execMbRxRead
  repeat' first
    | (with_reducible first | assumption | exact Keeps.refl _ _ | exact hw | exact hw.mono (by decide)) | intro _
    | fail_if_no_progress extract_lets +onlyGivenNames x
    | (with_reducible first | apply Answers.next | apply Answers.ite | apply State.mbRead_keeps | apply Keeps.ite)

theorem execHostEthRegAccess_answers (e : Fin 2) (ep : Endpoint) (data : List Byte) {wm : Nat} (s : State) (hw : Within 0x2000040 wm) :
    Answers wm s (execHostEthRegAccess e ep data s) := by
  unfold execHostEthRegAccess
  repeat' first
    | (with_reducible first | assumption | exact Keeps.refl _ _ | exact hw | exact hw.mono (by decide)) | intro _
    | fail_if_no_progress extract_lets +onlyGivenNames x
    | (with_reducible first | apply Answers.next | apply Answers.ite | apply State.ethReg_keeps | apply Keeps.ite)

theorem State.ethLink_keeps {wm : Nat} {s0 s : State} (e : Fin 2) (up : Bool) (h : Keeps wm s0 s) (hw : Within 0x2000040 wm) :
    Keeps wm s0 (State.ethLink s e up) := by
  unfold State.ethLink
  repeat' first
    | (with_reducible first | assumption | exact hw | exact hw.mono (by decide)) | intro _
    | ((fail_if_no_progress extract_lets +onlyGivenNames x); clear_value x) | fail_if_no_progress extract_lets +onlyGivenNames x
    | (with_reducible first | apply State.log_keeps | apply State.modHp_keeps | apply Keeps.ite)

theorem execHostEthLink_answers (e : Fin 2) (up : Bool) {wm : Nat} (s : State) (hw : Within 0x2000040 wm) :
    Answers wm s (execHostEthLink e up s) := by
  unfold execHostEthLink
  repeat' first
    | (with_reducible first | assumption | exact Keeps.refl _ _ | exact hw | exact hw.mono (by decide)) | intro _
    | fail_if_no_progress extract_lets +onlyGivenNames x
    | (with_reducible first | apply Answers.next | apply Answers.ite | apply State.ethLink_keeps | apply Keeps.ite)

theorem State.mbPush_keeps {wm : Nat} {s0 s : State} (m : Fin 16) (w : Nat) (h : Keeps wm s0 s) (hw : Within 0x2000000 wm) :
    Keeps wm s0 (State.mbPush s m w) := by
  unfold State.mbPush
  repeat' first
    | (with_reducible first | assumption | exact hw | exact hw.mono (by decide)) | intro _
    | fail_if_no_progress extract_lets +onlyGivenNames x | (with_reducible first | apply State.modMb_keeps | apply Keeps.ite)

theorem State.doorbell_keeps {wm : Nat} {s0 s : State} (m : Fin 16) (h : Keeps wm s0 s) (hw : Within 0x2000040 wm) :
    Keeps wm s0 (State.doorbell s m) := by
  unfold State.doorbell
  repeat' first
    | (with_reducible first | assumption | exact hw | exact hw.mono (by decide)) | intro _
    | ((fail_if_no_progress extract_lets +onlyGivenNames x); refine Keeps.cut (w := wm) (s := s0) (v := x) ?_ ?_)
    | ((fail_if_no_progress extract_lets +onlyGivenNames x); clear_value x) | fail_if_no_progress extract_lets +onlyGivenNames x
    | (with_reducible first | apply State.log_keeps | apply State.modHost_keeps | apply State.modMb_keeps | apply Keeps.ite)

theorem State.mbClaim_keeps {wm : Nat} {s0 s : State} (p : Fin 4) (m : Fin 16) (h : Keeps wm s0 s) (hw : Within 0x2000000 wm) :
    Keeps wm s0 (State.mbClaim s p m) := by
  unfold State.mbClaim
  repeat' first
    | (with_reducible first | assumption | exact hw | exact hw.mono (by decide)) | intro _
    | fail_if_no_progress extract_lets +onlyGivenNames x | (with_reducible first | apply State.bindPair_keeps | apply Keeps.ite)

theorem State.mbDiscard_keeps {wm : Nat} {s0 s : State} (m : Fin 16) (h : Keeps wm s0 s) (hw : Within 0x2000000 wm) :
    Keeps wm s0 (State.mbDiscard s m) := by
  unfold State.mbDiscard
  repeat' first
    | (with_reducible first | assumption | exact hw | exact hw.mono (by decide)) | intro _
    | fail_if_no_progress extract_lets +onlyGivenNames x | with_reducible apply State.modMb_keeps

theorem State.mbSkip_keeps {wm : Nat} {s0 s : State} (m : Fin 16) (h : Keeps wm s0 s) (hw : Within 0x2000000 wm) :
    Keeps wm s0 (State.mbSkip s m) := by
  unfold State.mbSkip
  repeat' first
    | (with_reducible first | assumption | exact hw | exact hw.mono (by decide)) | intro _
    | fail_if_no_progress extract_lets +onlyGivenNames x | with_reducible apply State.modMb_keeps

theorem State.mbBit_keeps {wm : Nat} {s0 s : State} (p : Fin 4) (m : Fin 16) (i : Nat) (h : Keeps wm s0 s) (hw : Within 0xc823ad850 wm) :
    Keeps wm s0 (State.mbBit s p m i) := by
  unfold State.mbBit
  repeat' first
    | (with_reducible first | assumption | exact hw | exact hw.mono (by decide)) | intro _
    | fail_if_no_progress extract_lets +onlyGivenNames x
    | (with_reducible first | apply State.doorbell_keeps | apply State.mbClaim_keeps | apply State.mbDiscard_keeps)
    | (with_reducible first | apply State.mbSkip_keeps | apply State.sessRelease_keeps | apply Keeps.ite)

theorem State.mbCtl_keeps {wm : Nat} {s0 s : State} (p : Fin 4) (m : Fin 16) (v : Nat) (h : Keeps wm s0 s) (hw : Within 0xc823ad850 wm) :
    Keeps wm s0 (State.mbCtl s p m v) := by
  unfold State.mbCtl
  repeat' first
    | (with_reducible first | assumption | exact hw | exact hw.mono (by decide)) | intro _
    | fail_if_no_progress extract_lets +onlyGivenNames x
    | (with_reducible first | apply State.mbBit_keeps | apply Keeps.ite | apply Keeps.foldl)

theorem State.mbW1c_keeps {wm : Nat} {s0 s : State} (p : Fin 4) (m : Fin 16) (v : Nat) (h : Keeps wm s0 s) (hw : Within 0x2000000 wm) :
    Keeps wm s0 (State.mbW1c s p m v) := by
  unfold State.mbW1c
  repeat' first
    | (with_reducible first | assumption | exact hw | exact hw.mono (by decide)) | intro _
    | fail_if_no_progress extract_lets +onlyGivenNames x | (with_reducible first | apply State.modMb_keeps | apply Keeps.ite)

theorem State.regWrite_keeps {wm : Nat} {s0 s : State} (p : Fin 4) (off : Nat) (v : Nat) (h : Keeps wm s0 s) (hw : Within 0xc823ad850 wm) :
    Keeps wm s0 (State.regWrite s p off v) := by
  unfold State.regWrite
  repeat' first
    | (with_reducible first | assumption | exact hw | exact hw.mono (by decide)) | intro _
    | ((fail_if_no_progress extract_lets +onlyGivenNames x); clear_value x) | fail_if_no_progress extract_lets +onlyGivenNames x
    | (with_reducible first | apply State.mbCtl_keeps | apply State.mbPush_keeps | apply State.mbW1c_keeps)
    | (with_reducible first | apply State.modHp_keeps | apply Keeps.ite)

theorem State.modSpi_keeps {wm : Nat} {s0 s : State} (n : Fin 2) (f : SpiPort → SpiPort) (h : Keeps wm s0 s) (hw : Within 0x2000000 wm) :
    Keeps wm s0 (State.modSpi s n f) := by
  unfold State.modSpi
  repeat' first
    | (with_reducible first | assumption | exact hw | exact hw.mono (by decide)) | intro _
    | fail_if_no_progress extract_lets +onlyGivenNames x | with_reducible apply State.modHost_keeps

theorem State.spiWordAt_keeps {wm : Nat} {s0 s : State} (n : Fin 2) (w : Nat) (h : Keeps wm s0 s) (hw : Within 0xc823ad850 wm) :
    Keeps wm s0 (State.spiWordAt s n w) := by
  unfold State.spiWordAt
  repeat' first
    | (with_reducible first | assumption | exact hw | exact hw.mono (by decide)) | intro _
    | ((fail_if_no_progress extract_lets +onlyGivenNames x); refine Keeps.cut (w := wm) (s := s0) (v := x.2) ?_ ?_)
    | ((fail_if_no_progress extract_lets +onlyGivenNames x); clear_value x) | fail_if_no_progress extract_lets +onlyGivenNames x
    | (with_reducible first | apply State.modSpi_keeps | apply State.regRead_keeps | apply State.regWrite_keeps)
    | with_reducible apply Keeps.ite | dsimp -zeta only [x] | split

theorem State.spiWords_keeps {wm : Nat} {s0 s : State} (n : Fin 2) (bs : List Byte) (h : Keeps wm s0 s) (hw : Within 0xc823ad850 wm) :
    Keeps wm s0 (State.spiWords s n bs) := by
  unfold State.spiWords
  repeat' first
    | (with_reducible first | assumption | exact hw | exact hw.mono (by decide)) | intro _
    | ((fail_if_no_progress extract_lets +onlyGivenNames x); clear_value x) | fail_if_no_progress extract_lets +onlyGivenNames x
    | (with_reducible first | apply State.modSpi_keeps | apply State.spiWordAt_keeps | apply Keeps.ite | apply Keeps.foldl)

theorem execHostRegWrite_answers (n : Fin 2) (hd : List Byte) (data : List Byte) {wm : Nat} (s : State) (hw : Within 0xc823ad850 wm) :
    Answers wm s (execHostRegWrite n hd data s) := by
  unfold execHostRegWrite
  repeat' first
    | (with_reducible first | assumption | exact Keeps.refl _ _ | exact hw | exact hw.mono (by decide)) | intro _
    | ((fail_if_no_progress extract_lets +onlyGivenNames x); refine Keeps.cut (w := wm) (s := s) (v := x) ?_ ?_)
    | ((fail_if_no_progress extract_lets +onlyGivenNames x); clear_value x) | fail_if_no_progress extract_lets +onlyGivenNames x
    | (with_reducible first | apply Answers.next | apply Answers.ite | apply State.modSpi_keeps | apply State.spiWords_keeps)
    | with_reducible apply Keeps.ite | dsimp -zeta only [x] | split

theorem execMbTxWrite_answers (n : Fin 2) (m : Fin 16) (w : Nat) {wm : Nat} (s : State) (hw : Within 0x2000000 wm) :
    Answers wm s (execMbTxWrite n m w s) := by
  unfold execMbTxWrite
  repeat' first
    | (with_reducible first | assumption | exact Keeps.refl _ _ | exact hw | exact hw.mono (by decide)) | intro _
    | fail_if_no_progress extract_lets +onlyGivenNames x
    | (with_reducible first | apply Answers.next | apply Answers.ite | apply State.mbPush_keeps | apply Keeps.ite)

theorem execMbClaim_answers (n : Fin 2) (m : Fin 16) {wm : Nat} (s : State) (hw : Within 0xc823ad850 wm) :
    Answers wm s (execMbClaim n m s) := by
  unfold execMbClaim
  repeat' first
    | (with_reducible first | assumption | exact Keeps.refl _ _ | exact hw | exact hw.mono (by decide)) | intro _
    | fail_if_no_progress extract_lets +onlyGivenNames x
    | (with_reducible first | apply Answers.next | apply Answers.ite | apply State.mbBit_keeps | apply Keeps.ite)

theorem execMbRelease_answers (n : Fin 2) (m : Fin 16) {wm : Nat} (s : State) (hw : Within 0xc823ad850 wm) :
    Answers wm s (execMbRelease n m s) := by
  unfold execMbRelease
  repeat' first
    | (with_reducible first | assumption | exact Keeps.refl _ _ | exact hw | exact hw.mono (by decide)) | intro _
    | fail_if_no_progress extract_lets +onlyGivenNames x
    | (with_reducible first | apply Answers.next | apply Answers.ite | apply State.mbBit_keeps | apply Keeps.ite)

theorem execMbDoorbell_answers (n : Fin 2) (m : Fin 16) {wm : Nat} (s : State) (hw : Within 0xc823ad850 wm) :
    Answers wm s (execMbDoorbell n m s) := by
  unfold execMbDoorbell
  repeat' first
    | (with_reducible first | assumption | exact Keeps.refl _ _ | exact hw | exact hw.mono (by decide)) | intro _
    | fail_if_no_progress extract_lets +onlyGivenNames x
    | (with_reducible first | apply Answers.next | apply Answers.ite | apply State.mbBit_keeps | apply Keeps.ite)

theorem execMbTxDiscard_answers (n : Fin 2) (m : Fin 16) {wm : Nat} (s : State) (hw : Within 0xc823ad850 wm) :
    Answers wm s (execMbTxDiscard n m s) := by
  unfold execMbTxDiscard
  repeat' first
    | (with_reducible first | assumption | exact Keeps.refl _ _ | exact hw | exact hw.mono (by decide)) | intro _
    | fail_if_no_progress extract_lets +onlyGivenNames x
    | (with_reducible first | apply Answers.next | apply Answers.ite | apply State.mbBit_keeps | apply Keeps.ite)

theorem execMbRxSkip_answers (n : Fin 2) (m : Fin 16) {wm : Nat} (s : State) (hw : Within 0xc823ad850 wm) :
    Answers wm s (execMbRxSkip n m s) := by
  unfold execMbRxSkip
  repeat' first
    | (with_reducible first | assumption | exact Keeps.refl _ _ | exact hw | exact hw.mono (by decide)) | intro _
    | fail_if_no_progress extract_lets +onlyGivenNames x
    | (with_reducible first | apply Answers.next | apply Answers.ite | apply State.mbBit_keeps | apply Keeps.ite)

theorem execHostSpiAbandon_answers (n : Fin 2) (cut : SpiIdle) (tx : Option (Fin 16)) {wm : Nat} (s : State) (hw : Within 0x2000040 wm) :
    Answers wm s (execHostSpiAbandon n cut tx s) := by
  unfold execHostSpiAbandon
  repeat' first
    | (with_reducible first | assumption | exact Keeps.refl _ _ | exact hw | exact hw.mono (by decide)) | intro _
    | ((fail_if_no_progress extract_lets +onlyGivenNames x); refine Keeps.cut (w := wm) (s := s) (v := x) ?_ ?_)
    | ((fail_if_no_progress extract_lets +onlyGivenNames x); refine Keeps.cut (w := wm) (s := s) (v := x.1) ?_ ?_)
    | ((fail_if_no_progress extract_lets +onlyGivenNames x); clear_value x) | fail_if_no_progress extract_lets +onlyGivenNames x
    | (with_reducible first | apply Answers.next | apply Answers.ite | apply State.log_keeps | apply State.mbDiscard_keeps)
    | (with_reducible first | apply State.modHp_keeps | apply State.modMb_keeps | apply State.modSpi_keeps | apply Keeps.ite)
    | dsimp -zeta only [x] | split

theorem State.countRefused_keeps {wm : Nat} {s0 s : State} (port : Nat) (h : Keeps wm s0 s) (hw : Within 0x2000000 wm) :
    Keeps wm s0 (State.countRefused s port) := by
  unfold State.countRefused
  repeat' first
    | (with_reducible first | assumption | exact hw | exact hw.mono (by decide)) | intro _
    | fail_if_no_progress extract_lets +onlyGivenNames x | with_reducible apply State.modHp_keeps

theorem State.refusedAt_keeps {wm : Nat} {s0 s : State} (port : Nat) (st : Nat) (h : Keeps wm s0 s) (hw : Within 0x2000040 wm) :
    Keeps wm s0 (State.refusedAt s port st) := by
  unfold State.refusedAt
  repeat' first
    | (with_reducible first | assumption | exact hw | exact hw.mono (by decide)) | intro _
    | ((fail_if_no_progress extract_lets +onlyGivenNames x); clear_value x) | fail_if_no_progress extract_lets +onlyGivenNames x
    | (with_reducible first | apply State.countRefused_keeps | apply State.log_keeps | apply State.modHp_keeps)

theorem State.refuse_keeps {wm : Nat} {s0 s : State} (k : Fin 8) (op : Nat) (st : Nat) (q : Req) (h : Keeps wm s0 s) (hw : Within 0x802000040 wm) :
    Keeps wm s0 (State.refuse s k op st q) := by
  unfold State.refuse
  repeat' first
    | (with_reducible first | assumption | exact hw | exact hw.mono (by decide)) | intro _
    | ((fail_if_no_progress extract_lets +onlyGivenNames x); refine Keeps.cut (w := wm) (s := s0) (v := x) ?_ ?_)
    | ((fail_if_no_progress extract_lets +onlyGivenNames x); clear_value x) | fail_if_no_progress extract_lets +onlyGivenNames x
    | (with_reducible first | apply State.modSess_keeps | apply State.pairOut_keeps | apply State.refusedAt_keeps)
    | with_reducible apply Keeps.ite

theorem State.seqCheck_keeps {wm : Nat} {s0 s : State} (k : Fin 8) (seq : Nat) (h : Keeps wm s0 s) (hw : Within 0x802000000 wm) :
    Keeps wm s0 (State.seqCheck s k seq).1 := by
  unfold State.seqCheck
  repeat' first
    | (with_reducible first | assumption | exact hw | exact hw.mono (by decide)) | intro _
    | ((fail_if_no_progress extract_lets +onlyGivenNames x); clear_value x) | fail_if_no_progress extract_lets +onlyGivenNames x
    | (with_reducible first | apply State.modSess_keeps | apply State.pairOut_keeps | apply Keeps.ite | apply Keeps.iteFst)
    | dsimp -zeta only [x] | split

theorem State.owe_keeps {wm : Nat} {s0 s : State} (k : Fin 8) (op : Nat) (q : Req) (h : Keeps wm s0 s) (hw : Within 0x2000000 wm) :
    Keeps wm s0 (State.owe s k op q) := by
  unfold State.owe
  repeat' first
    | (with_reducible first | assumption | exact hw | exact hw.mono (by decide)) | intro _
    | fail_if_no_progress extract_lets +onlyGivenNames x | with_reducible apply State.modSess_keeps

theorem State.sessionOpen_keeps {wm : Nat} {s0 s : State} (k : Fin 8) (q : Req) (body : List Byte) (entropy : Nat) (h : Keeps wm s0 s) (hw : Within 0xc823ad850 wm) :
    Keeps wm s0 (State.sessionOpen s k q body entropy) := by
  unfold State.sessionOpen
  repeat' first
    | (with_reducible first | assumption | exact hw | exact hw.mono (by decide)) | intro _
    | ((fail_if_no_progress extract_lets +onlyGivenNames x); refine Keeps.cut (w := wm) (s := s0) (v := x) ?_ ?_)
    | ((fail_if_no_progress extract_lets +onlyGivenNames x); clear_value x) | fail_if_no_progress extract_lets +onlyGivenNames x
    | (with_reducible first | apply State.log_keeps | apply State.modHost_keeps | apply State.modSess_keeps)
    | (with_reducible first | apply State.pairOut_keeps | apply State.reply_keeps | apply State.sessOver_keeps)
    | (with_reducible first | apply State.unbind_keeps | apply Keeps.ite)

theorem State.proved_keeps {wm : Nat} {s0 s : State} (k : Fin 8) (q : Req) (h : Keeps wm s0 s) (hw : Within 0xc823ad850 wm) :
    Keeps wm s0 (State.proved s k q) := by
  unfold State.proved
  repeat' first
    | (with_reducible first | assumption | exact hw | exact hw.mono (by decide)) | intro _
    | ((fail_if_no_progress extract_lets +onlyGivenNames x); refine Keeps.cut (w := wm) (s := s0) (v := x) ?_ ?_)
    | ((fail_if_no_progress extract_lets +onlyGivenNames x); clear_value x) | fail_if_no_progress extract_lets +onlyGivenNames x
    | (with_reducible first | apply State.log_keeps | apply State.modSess_keeps | apply State.reply_keeps)
    | (with_reducible first | apply State.sessEnd_keeps | apply Keeps.ite | apply Keeps.foldl)

theorem State.unproved_keeps {wm : Nat} {s0 s : State} (k : Fin 8) (q : Req) (h : Keeps wm s0 s) (hw : Within 0x802000040 wm) :
    Keeps wm s0 (State.unproved s k q) := by
  unfold State.unproved
  repeat' first
    | (with_reducible first | assumption | exact hw | exact hw.mono (by decide)) | intro _
    | ((fail_if_no_progress extract_lets +onlyGivenNames x); refine Keeps.cut (w := wm) (s := s0) (v := x) ?_ ?_)
    | ((fail_if_no_progress extract_lets +onlyGivenNames x); clear_value x) | fail_if_no_progress extract_lets +onlyGivenNames x
    | (with_reducible first | apply State.log_keeps | apply State.modHost_keeps | apply State.reply_keeps)
    | with_reducible apply State.toClaimed_keeps

theorem State.sessionProve_keeps {wm : Nat} {s0 s : State} (k : Fin 8) (q : Req) (body : List Byte) (h : Keeps wm s0 s) (hw : Within 0xc823ad850 wm) :
    Keeps wm s0 (State.sessionProve s k q body) := by
  unfold State.sessionProve
  repeat' first
    | (with_reducible first | assumption | exact hw | exact hw.mono (by decide)) | intro _
    | ((fail_if_no_progress extract_lets +onlyGivenNames x); clear_value x) | fail_if_no_progress extract_lets +onlyGivenNames x
    | (with_reducible first | apply State.proved_keeps | apply State.unproved_keeps | apply Keeps.ite)

theorem State.noticeSet_keeps {wm : Nat} {s0 s : State} (k : Fin 8) (body : List Byte) (h : Keeps wm s0 s) (hw : Within 0x2000000 wm) :
    Keeps wm s0 (State.noticeSet s k body).1 := by
  unfold State.noticeSet
  repeat' first
    | (with_reducible first | assumption | exact hw | exact hw.mono (by decide)) | intro _
    | fail_if_no_progress extract_lets +onlyGivenNames x | with_reducible apply State.modSess_keeps

theorem State.permitAcquire_keeps {wm : Nat} {s0 s : State} (k : Fin 8) (body : List Byte) (h : Keeps wm s0 s) (hw : Within 0x2000040 wm) :
    Keeps wm s0 (State.permitAcquire s k body).1 := by
  unfold State.permitAcquire
  repeat' first
    | (with_reducible first | assumption | exact hw | exact hw.mono (by decide)) | intro _
    | ((fail_if_no_progress extract_lets +onlyGivenNames x); refine Keeps.cut (w := wm) (s := s0) (v := x) ?_ ?_)
    | ((fail_if_no_progress extract_lets +onlyGivenNames x); clear_value x) | fail_if_no_progress extract_lets +onlyGivenNames x
    | (with_reducible first | apply State.grantPermit_keeps | apply Keeps.ite | apply Keeps.iteFst | apply Keeps.foldl)
    | (with_reducible first | apply Keeps.foldlSnd | apply Keeps.foldlFst) | dsimp -zeta only [x] | split

theorem State.permitRenew_keeps {wm : Nat} {s0 s : State} (k : Fin 8) (body : List Byte) (h : Keeps wm s0 s) (hw : Within 0x2000000 wm) :
    Keeps wm s0 (State.permitRenew s k body).1 := by
  unfold State.permitRenew
  repeat' first
    | (with_reducible first | assumption | exact hw | exact hw.mono (by decide)) | intro _
    | ((fail_if_no_progress extract_lets +onlyGivenNames x); clear_value x) | fail_if_no_progress extract_lets +onlyGivenNames x
    | (with_reducible first | apply State.useRenew_keeps | apply Keeps.ite | apply Keeps.iteFst)

theorem State.permitRelease_keeps {wm : Nat} {s0 s : State} (k : Fin 8) (body : List Byte) (h : Keeps wm s0 s) (hw : Within 0xc821ad850 wm) :
    Keeps wm s0 (State.permitRelease s k body).1 := by
  unfold State.permitRelease
  repeat' first
    | (with_reducible first | assumption | exact hw | exact hw.mono (by decide)) | intro _
    | ((fail_if_no_progress extract_lets +onlyGivenNames x); clear_value x) | fail_if_no_progress extract_lets +onlyGivenNames x
    | (with_reducible first | apply State.permitEnd_keeps | apply Keeps.ite | apply Keeps.iteFst | apply Keeps.foldl)

theorem State.permitTake_keeps {wm : Nat} {s0 s : State} (k : Fin 8) (body : List Byte) (h : Keeps wm s0 s) (hw : Within 0xc821ad850 wm) :
    Keeps wm s0 (State.permitTake s k body).1 := by
  unfold State.permitTake
  repeat' first
    | (with_reducible first | assumption | exact hw | exact hw.mono (by decide)) | intro _
    | ((fail_if_no_progress extract_lets +onlyGivenNames x); refine Keeps.cut (w := wm) (s := s0) (v := x) ?_ ?_)
    | ((fail_if_no_progress extract_lets +onlyGivenNames x); clear_value x) | fail_if_no_progress extract_lets +onlyGivenNames x
    | (with_reducible first | apply State.grantPermit_keeps | apply State.permitEnd_keeps | apply Keeps.ite)
    | (with_reducible first | apply Keeps.iteFst | apply Keeps.foldl)

theorem State.paramRead_keeps {wm : Nat} {s0 s : State} (k : Fin 8) (body : List Byte) (h : Keeps wm s0 s) (hw : Within 0x10000000 wm) :
    Keeps wm s0 (State.paramRead s k body).1 := by
  unfold State.paramRead
  repeat' first
    | (with_reducible first | assumption | exact hw | exact hw.mono (by decide)) | intro _
    | ((fail_if_no_progress extract_lets +onlyGivenNames x); refine Keeps.cut (w := wm) (s := s0) (v := x.2) ?_ ?_)
    | ((fail_if_no_progress extract_lets +onlyGivenNames x); clear_value x) | fail_if_no_progress extract_lets +onlyGivenNames x
    | (with_reducible first | apply State.readBy_keeps | apply Keeps.ite | apply Keeps.iteFst | apply Keeps.foldl)
    | (with_reducible first | apply Keeps.foldlSnd | apply Keeps.foldlFst) | dsimp -zeta only [x] | split

theorem State.pushCommit_keeps {wm : Nat} {s0 s : State} (k : Fin 8) (op : Nat) (q : Req) (kind : CommitKind) (es : List Entry) (data : List Byte) (h : Keeps wm s0 s) (hw : Within 0x2000000 wm) :
    Keeps wm s0 (State.pushCommit s k op q kind es data) := by
  unfold State.pushCommit
  repeat' first
    | (with_reducible first | assumption | exact hw | exact hw.mono (by decide)) | intro _
    | ((fail_if_no_progress extract_lets +onlyGivenNames x); clear_value x) | fail_if_no_progress extract_lets +onlyGivenNames x
    | (with_reducible first | apply State.modHost_keeps | apply State.owe_keeps)

theorem State.paramWrite_keeps {wm : Nat} {s0 s : State} (k : Fin 8) (q : Req) (body : List Byte) (h : Keeps wm s0 s) (hw : Within 0x2000000 wm) :
    Keeps wm s0 (State.paramWrite s k q body).1 := by
  unfold State.paramWrite
  repeat' first
    | (with_reducible first | assumption | exact hw | exact hw.mono (by decide)) | intro _
    | ((fail_if_no_progress extract_lets +onlyGivenNames x); clear_value x) | fail_if_no_progress extract_lets +onlyGivenNames x
    | (with_reducible first | apply State.pushCommit_keeps | apply State.useRenew_keeps | apply Keeps.ite) | dsimp -zeta only [x] | split

theorem State.stage_keeps {wm : Nat} {s0 s : State} (k : Fin 8) (q : Req) (body : List Byte) (h : Keeps wm s0 s) (hw : Within 0x2000000 wm) :
    Keeps wm s0 (State.stage s k q body).1 := by
  unfold State.stage
  repeat' first
    | (with_reducible first | assumption | exact hw | exact hw.mono (by decide)) | intro _
    | ((fail_if_no_progress extract_lets +onlyGivenNames x); clear_value x) | fail_if_no_progress extract_lets +onlyGivenNames x
    | (with_reducible first | apply State.modSess_keeps | apply State.useRenew_keeps | apply Keeps.ite | apply Keeps.iteFst)
    | (with_reducible first | apply Keeps.foldl | apply Keeps.foldlSnd | apply Keeps.foldlFst) | dsimp -zeta only [x] | split

theorem State.discard_keeps {wm : Nat} {s0 s : State} (k : Fin 8) (h : Keeps wm s0 s) (hw : Within 0x2000000 wm) :
    Keeps wm s0 (State.discard s k).1 := by
  unfold State.discard
  repeat' first
    | (with_reducible first | assumption | exact hw | exact hw.mono (by decide)) | intro _
    | fail_if_no_progress extract_lets +onlyGivenNames x | with_reducible apply State.modSess_keeps

theorem State.commitStaged_keeps {wm : Nat} {s0 s : State} (k : Fin 8) (q : Req) (h : Keeps wm s0 s) (hw : Within 0x2000000 wm) :
    Keeps wm s0 (State.commitStaged s k q).1 := by
  unfold State.commitStaged
  repeat' first
    | (with_reducible first | assumption | exact hw | exact hw.mono (by decide)) | intro _
    | fail_if_no_progress extract_lets +onlyGivenNames x
    | (with_reducible first | apply State.pushCommit_keeps | apply State.useRenew_keeps | apply Keeps.ite) | dsimp -zeta only [x] | split

end Sys2Proof.Machine
end

