-- ==== Sys2Proof/Laws/KeepsG.lean ====
section
/-! SUPPORT. What the operations keep (see Keeps.lean), one lemma each: those of Pmb.lean, ReqData.lean, DevOps.lean, ReqDev.lean, Commit.lean, Requests.lean. -/

set_option linter.tactic.unusedName false
set_option linter.unreachableTactic false
set_option linter.unusedTactic false

namespace Sys2Proof.Machine

theorem State.modPmb_keeps {wm : Nat} {s0 s : State} (p : Fin 64) (f : Pmb → Pmb) (h : Keeps wm s0 s) (hw : Within 0x80000 wm) :
    Keeps wm s0 (State.modPmb s p f) := by
  unfold State.modPmb
  repeat' first
    | (with_reducible first | assumption | exact hw | exact hw.mono (by decide)) | intro _
    | fail_if_no_progress extract_lets +onlyGivenNames x | with_reducible apply State.modPort_keeps

theorem State.modTgt_keeps {wm : Nat} {s0 s : State} (p : Fin 64) (t : Fin 16) (f : PmbTarget → PmbTarget) (h : Keeps wm s0 s) (hw : Within 0x80000 wm) :
    Keeps wm s0 (State.modTgt s p t f) := by
  unfold State.modTgt
  repeat' first
    | (with_reducible first | assumption | exact hw | exact hw.mono (by decide)) | intro _
    | fail_if_no_progress extract_lets +onlyGivenNames x | with_reducible apply State.modPmb_keeps

theorem execPmbDiscovery_answers (p : Fin 64) (t : Fin 16) {wm : Nat} (s : State) (hw : Within 0x80000 wm) :
    Answers wm s (execPmbDiscovery p t s) := by
  unfold execPmbDiscovery
  repeat' first
    | (with_reducible first | assumption | exact Keeps.refl _ _ | exact hw | exact hw.mono (by decide)) | intro _
    | ((fail_if_no_progress extract_lets +onlyGivenNames x); clear_value x) | fail_if_no_progress extract_lets +onlyGivenNames x
    | (with_reducible first | apply Answers.next | apply Answers.ite | apply State.modPmb_keeps | apply State.modTgt_keeps)
    | with_reducible apply Keeps.ite

theorem State.startCycle_keeps {wm : Nat} {s0 s : State} (p : Fin 64) (h : Keeps wm s0 s) (hw : Within 0x80000 wm) :
    Keeps wm s0 (State.startCycle s p) := by
  unfold State.startCycle
  repeat' first
    | (with_reducible first | assumption | exact hw | exact hw.mono (by decide)) | intro _
    | ((fail_if_no_progress extract_lets +onlyGivenNames x); clear_value x) | fail_if_no_progress extract_lets +onlyGivenNames x
    | with_reducible apply State.modPmb_keeps

theorem execPmbPollCycle_answers (p : Fin 64) {wm : Nat} (s : State) (hw : Within 0x80000 wm) :
    Answers wm s (execPmbPollCycle p s) := by
  unfold execPmbPollCycle
  repeat' first
    | (with_reducible first | assumption | exact Keeps.refl _ _ | exact hw | exact hw.mono (by decide)) | intro _
    | ((fail_if_no_progress extract_lets +onlyGivenNames x); refine Keeps.cut (w := wm) (s := s) (v := x) ?_ ?_)
    | ((fail_if_no_progress extract_lets +onlyGivenNames x); clear_value x) | fail_if_no_progress extract_lets +onlyGivenNames x
    | (with_reducible first | apply Answers.next | apply Answers.ite | apply State.modPmb_keeps | apply State.modPort_keeps)
    | (with_reducible first | apply State.startCycle_keeps | apply Keeps.ite)

theorem State.pmbFrame_keeps {wm : Nat} {s0 s : State} (p : Fin 64) (t : Fin 16) (rs : List (Nat × Nat × Nat)) (h : Keeps wm s0 s) (hw : Within 0x80000 wm) :
    Keeps wm s0 (State.pmbFrame s p t rs) := by
  unfold State.pmbFrame
  repeat' first
    | (with_reducible first | assumption | exact hw | exact hw.mono (by decide)) | intro _
    | ((fail_if_no_progress extract_lets +onlyGivenNames x); clear_value x) | fail_if_no_progress extract_lets +onlyGivenNames x
    | (with_reducible first | apply State.modPort_keeps | apply Keeps.ite)

theorem State.pmbSettle_keeps {wm : Nat} {s0 s : State} (p : Fin 64) (t : Fin 16) (h : Keeps wm s0 s) (hw : Within 0x80040 wm) :
    Keeps wm s0 (State.pmbSettle s p t) := by
  unfold State.pmbSettle
  repeat' first
    | (with_reducible first | assumption | exact hw | exact hw.mono (by decide)) | intro _
    | ((fail_if_no_progress extract_lets +onlyGivenNames x); refine Keeps.cut (w := wm) (s := s0) (v := x) ?_ ?_)
    | ((fail_if_no_progress extract_lets +onlyGivenNames x); clear_value x) | fail_if_no_progress extract_lets +onlyGivenNames x
    | (with_reducible first | apply State.log_keeps | apply State.modPmb_keeps | apply State.pmbFrame_keeps)
    | (with_reducible first | apply State.startCycle_keeps | apply Keeps.ite)

theorem State.pmbFail_keeps {wm : Nat} {s0 s : State} (p : Fin 64) (t : Fin 16) (h : Keeps wm s0 s) (hw : Within 0x80040 wm) :
    Keeps wm s0 (State.pmbFail s p t) := by
  unfold State.pmbFail
  repeat' first
    | (with_reducible first | assumption | exact hw | exact hw.mono (by decide)) | intro _
    | ((fail_if_no_progress extract_lets +onlyGivenNames x); refine Keeps.cut (w := wm) (s := s0) (v := x) ?_ ?_)
    | ((fail_if_no_progress extract_lets +onlyGivenNames x); clear_value x) | fail_if_no_progress extract_lets +onlyGivenNames x
    | (with_reducible first | apply State.log_keeps | apply State.modCnt_keeps | apply State.modPmb_keeps)
    | (with_reducible first | apply State.modTgt_keeps | apply Keeps.ite)

theorem State.pmbDone_keeps {wm : Nat} {s0 s : State} (p : Fin 64) (e : PmbEnd) (data : List Byte) (stuck : Bool) (h : Keeps wm s0 s) (hw : Within 0x802080040 wm) :
    Keeps wm s0 (State.pmbDone s p e data stuck) := by
  unfold State.pmbDone
  repeat' first
    | (with_reducible first | assumption | exact hw | exact hw.mono (by decide)) | intro _
    | ((fail_if_no_progress extract_lets +onlyGivenNames x); refine Keeps.cut (w := wm) (s := s0) (v := x) ?_ ?_)
    | ((fail_if_no_progress extract_lets +onlyGivenNames x); clear_value x) | fail_if_no_progress extract_lets +onlyGivenNames x
    | (with_reducible first | apply State.answer_keeps | apply State.log_keeps | apply State.modPmb_keeps)
    | (with_reducible first | apply State.modTgt_keeps | apply State.pmbFail_keeps | apply State.pmbSettle_keeps)
    | with_reducible apply Keeps.ite | dsimp -zeta only [x] | split

theorem execPmbTransactionDone_answers (p : Fin 64) (ending : PmbEnd) (data : List Byte) {wm : Nat} (s : State) (hw : Within 0x802080040 wm) :
    Answers wm s (execPmbTransactionDone p ending data s) := by
  unfold execPmbTransactionDone
  repeat' first
    | (with_reducible first | assumption | exact Keeps.refl _ _ | exact hw | exact hw.mono (by decide)) | intro _
    | ((fail_if_no_progress extract_lets +onlyGivenNames x); clear_value x) | fail_if_no_progress extract_lets +onlyGivenNames x
    | (with_reducible first | apply Answers.next | apply Answers.ite | apply State.pmbDone_keeps | apply Keeps.ite)

theorem execPmbBusTimeout_answers (p : Fin 64) (cause : Nat) (recovered : Bool) {wm : Nat} (s : State) (hw : Within 0x802080040 wm) :
    Answers wm s (execPmbBusTimeout p cause recovered s) := by
  unfold execPmbBusTimeout
  repeat' first
    | (with_reducible first | assumption | exact Keeps.refl _ _ | exact hw | exact hw.mono (by decide)) | intro _
    | ((fail_if_no_progress extract_lets +onlyGivenNames x); refine Keeps.cut (w := wm) (s := s) (v := x) ?_ ?_)
    | fail_if_no_progress extract_lets +onlyGivenNames x
    | (with_reducible first | apply Answers.next | apply Answers.ite | apply State.log_keeps | apply State.modPort_keeps)
    | (with_reducible first | apply State.pmbDone_keeps | apply Keeps.ite)

theorem execPmbBusRecoveryRetry_answers (p : Fin 64) (recovered : Bool) {wm : Nat} (s : State) (hw : Within 0x80000 wm) :
    Answers wm s (execPmbBusRecoveryRetry p recovered s) := by
  unfold execPmbBusRecoveryRetry
  repeat' first
    | (with_reducible first | assumption | exact Keeps.refl _ _ | exact hw | exact hw.mono (by decide)) | intro _
    | fail_if_no_progress extract_lets +onlyGivenNames x
    | (with_reducible first | apply Answers.next | apply Answers.ite | apply State.modPort_keeps | apply Keeps.ite)

theorem execPmbAlert_answers (p : Fin 64) (addr : Nat) (status : Nat) (still : Bool) {wm : Nat} (s : State) (hw : Within 0x80040 wm) :
    Answers wm s (execPmbAlert p addr status still s) := by
  unfold execPmbAlert
  repeat' first
    | (with_reducible first | assumption | exact Keeps.refl _ _ | exact hw | exact hw.mono (by decide)) | intro _
    | ((fail_if_no_progress extract_lets +onlyGivenNames x); refine Keeps.cut (w := wm) (s := s) (v := x) ?_ ?_)
    | ((fail_if_no_progress extract_lets +onlyGivenNames x); clear_value x) | fail_if_no_progress extract_lets +onlyGivenNames x
    | (with_reducible first | apply Answers.next | apply Answers.ite | apply State.log_keeps | apply State.modPort_keeps)
    | (with_reducible first | apply State.modTgt_keeps | apply State.pmbFrame_keeps | apply Keeps.ite) | dsimp -zeta only [x] | split

theorem execPmbAlertUnmask_answers (p : Fin 64) {wm : Nat} (s : State) (hw : Within 0x80000 wm) :
    Answers wm s (execPmbAlertUnmask p s) := by
  unfold execPmbAlertUnmask
  repeat' first
    | (with_reducible first | assumption | exact Keeps.refl _ _ | exact hw | exact hw.mono (by decide)) | intro _
    | fail_if_no_progress extract_lets +onlyGivenNames x
    | (with_reducible first | apply Answers.next | apply Answers.ite | apply State.modPort_keeps | apply Keeps.ite)

theorem State.pointRead_keeps {wm : Nat} {s0 s : State} (body : List Byte) (h : Keeps wm s0 s) :
    Keeps wm s0 (State.pointRead s body).1 := by
  unfold State.pointRead
  repeat' first
    | with_reducible assumption | intro _ | ((fail_if_no_progress extract_lets +onlyGivenNames x); clear_value x)
    | fail_if_no_progress extract_lets +onlyGivenNames x | (with_reducible first | apply Keeps.ite | apply Keeps.iteFst)

theorem State.subscribe_keeps {wm : Nat} {s0 s : State} (k : Fin 8) (body : List Byte) (h : Keeps wm s0 s) (hw : Within 0x200000 wm) :
    Keeps wm s0 (State.subscribe s k body).1 := by
  unfold State.subscribe
  repeat' first
    | (with_reducible first | assumption | exact hw | exact hw.mono (by decide)) | intro _
    | ((fail_if_no_progress extract_lets +onlyGivenNames x); clear_value x) | fail_if_no_progress extract_lets +onlyGivenNames x
    | (with_reducible first | apply State.modPool_keeps | apply Keeps.ite | apply Keeps.iteFst) | dsimp -zeta only [x] | split

theorem State.postAll_keeps {wm : Nat} {s0 s : State} (u : Sub) (ks : List Nat) (m : Nat) (h : Keeps wm s0 s) (hw : Within 0x802200040 wm) :
    Keeps wm s0 (State.postAll s u ks m) := by
  induction m generalizing s ks with
  | zero => exact h
  | succ n ih =>
    unfold State.postAll
    split
    · exact h
    · exact ih _ (State.postValues_keeps _ _ h hw)

theorem State.postFirst_keeps {wm : Nat} {s0 s : State} (h : Keeps wm s0 s) (hw : Within 0x802200040 wm) :
    Keeps wm s0 (State.postFirst s) := by
  unfold State.postFirst
  repeat' first
    | (with_reducible first | assumption | exact hw | exact hw.mono (by decide)) | intro _
    | fail_if_no_progress extract_lets +onlyGivenNames x | (with_reducible first | apply State.postAll_keeps | apply Keeps.ite)
    | dsimp -zeta only [x] | split

theorem State.unsubscribe_keeps {wm : Nat} {s0 s : State} (k : Fin 8) (body : List Byte) (h : Keeps wm s0 s) (hw : Within 0x200000 wm) :
    Keeps wm s0 (State.unsubscribe s k body).1 := by
  unfold State.unsubscribe
  repeat' first
    | (with_reducible first | assumption | exact hw | exact hw.mono (by decide)) | intro _
    | ((fail_if_no_progress extract_lets +onlyGivenNames x); clear_value x) | fail_if_no_progress extract_lets +onlyGivenNames x
    | (with_reducible first | apply State.modPool_keeps | apply Keeps.ite | apply Keeps.iteFst)

theorem State.siltRead_keeps {wm : Nat} {s0 s : State} (k : Fin 8) (body : List Byte) (h : Keeps wm s0 s) (hw : Within 0x40 wm) :
    Keeps wm s0 (State.siltRead s k body).1 := by
  unfold State.siltRead
  repeat' first
    | (with_reducible first | assumption | exact hw | exact hw.mono (by decide)) | intro _
    | ((fail_if_no_progress extract_lets +onlyGivenNames x); refine Keeps.cut (w := wm) (s := s0) (v := x) ?_ ?_)
    | ((fail_if_no_progress extract_lets +onlyGivenNames x); clear_value x) | fail_if_no_progress extract_lets +onlyGivenNames x
    | (with_reducible first | apply State.log_keeps | apply Keeps.ite | apply Keeps.iteFst | apply Keeps.foldl)

theorem State.spateRead_keeps {wm : Nat} {s0 s : State} (body : List Byte) (h : Keeps wm s0 s) :
    Keeps wm s0 (State.spateRead s body).1 := by
  unfold State.spateRead
  repeat' first
    | with_reducible assumption | intro _ | ((fail_if_no_progress extract_lets +onlyGivenNames x); clear_value x)
    | fail_if_no_progress extract_lets +onlyGivenNames x | (with_reducible first | apply Keeps.ite | apply Keeps.iteFst)
    | dsimp -zeta only [x] | split

theorem State.battExport_keeps {wm : Nat} {s0 s : State} (body : List Byte) (h : Keeps wm s0 s) :
    Keeps wm s0 (State.battExport s body).1 := by
  unfold State.battExport
  repeat' first
    | with_reducible assumption | intro _ | ((fail_if_no_progress extract_lets +onlyGivenNames x); clear_value x)
    | fail_if_no_progress extract_lets +onlyGivenNames x | (with_reducible first | apply Keeps.ite | apply Keeps.iteFst)
    | dsimp -zeta only [x] | split

theorem State.battRestore_keeps {wm : Nat} {s0 s : State} (r : List Byte) (h : Keeps wm s0 s) (hw : Within 0x40040 wm) :
    Keeps wm s0 (State.battRestore s r).1 := by
  unfold State.battRestore
  repeat' first
    | (with_reducible first | assumption | exact hw | exact hw.mono (by decide)) | intro _
    | ((fail_if_no_progress extract_lets +onlyGivenNames x); refine Keeps.cut (w := wm) (s := s0) (v := x) ?_ ?_)
    | ((fail_if_no_progress extract_lets +onlyGivenNames x); clear_value x) | fail_if_no_progress extract_lets +onlyGivenNames x
    | (with_reducible first | apply State.battLearned_keeps | apply State.log_keeps | apply State.modBf_keeps)
    | (with_reducible first | apply Keeps.ite | apply Keeps.iteFst) | dsimp -zeta only [x] | split

theorem State.nodeRelay_keeps {wm : Nat} {s0 s : State} (k : Fin 8) (q : Req) (body : List Byte) (h : Keeps wm s0 s) (hw : Within 0x802180040 wm) :
    Keeps wm s0 (State.nodeRelay s k q body).1 := by
  unfold State.nodeRelay
  repeat' first
    | (with_reducible first | assumption | exact hw | exact hw.mono (by decide)) | intro _
    | ((fail_if_no_progress extract_lets +onlyGivenNames x); clear_value x) | fail_if_no_progress extract_lets +onlyGivenNames x
    | (with_reducible first | apply State.log_keeps | apply State.nodeRequest_keeps | apply State.owe_keeps)
    | (with_reducible first | apply State.setRelay_keeps | apply Keeps.ite | apply Keeps.iteFst) | dsimp -zeta only [x] | split

theorem State.pmbusXfer_keeps {wm : Nat} {s0 s : State} (k : Fin 8) (q : Req) (body : List Byte) (h : Keeps wm s0 s) (hw : Within 0x2080000 wm) :
    Keeps wm s0 (State.pmbusXfer s k q body).1 := by
  unfold State.pmbusXfer
  repeat' first
    | (with_reducible first | assumption | exact hw | exact hw.mono (by decide)) | intro _
    | ((fail_if_no_progress extract_lets +onlyGivenNames x); clear_value x) | fail_if_no_progress extract_lets +onlyGivenNames x
    | (with_reducible first | apply State.modPmb_keeps | apply State.owe_keeps | apply Keeps.ite | apply Keeps.iteFst)
    | dsimp -zeta only [x] | split

theorem State.timeSet_keeps {wm : Nat} {s0 s : State} (body : List Byte) (h : Keeps wm s0 s) (hw : Within 0x53 wm) :
    Keeps wm s0 (State.timeSet s body).1 := by
  unfold State.timeSet
  repeat' first
    | (with_reducible first | assumption | exact hw | exact hw.mono (by decide)) | intro _
    | fail_if_no_progress extract_lets +onlyGivenNames x
    | (with_reducible first | apply State.correctOffset_keeps | apply State.modTb_keeps | apply Keeps.ite) | dsimp -zeta only [x] | split

theorem State.allStop_keeps {wm : Nat} {s0 s : State} (h : Keeps wm s0 s) (hw : Within 0xe08001bc0 wm) :
    Keeps wm s0 (State.allStop s) := by
  unfold State.allStop
  repeat' first
    | (with_reducible first | assumption | exact hw | exact hw.mono (by decide)) | intro _
    | fail_if_no_progress extract_lets +onlyGivenNames x
    | (with_reducible first | apply State.loopStop_keeps | apply Keeps.ite | apply Keeps.foldl | apply Keeps.foldlSnd)
    | with_reducible apply Keeps.foldlFst | dsimp -zeta only [x] | split

theorem State.phasesLost_keeps {wm : Nat} {s0 s : State} (d : Fin 4) (h : Keeps wm s0 s) (hw : Within 0x700 wm) :
    Keeps wm s0 (State.phasesLost s d) := by
  unfold State.phasesLost
  repeat' first
    | (with_reducible first | assumption | exact hw | exact hw.mono (by decide)) | exact (⟨fun a => a, fun a => a⟩ : Lower _ _)
    | with_reducible exact fun _ => ⟨fun a => a, fun a => a⟩ | exact fun _ => ⟨fun a => a, fun a => a⟩
    | exact fun _ => ⟨fun h => absurd h Bool.false_ne_true, fun h => absurd h Bool.false_ne_true⟩ | intro _
    | ((fail_if_no_progress extract_lets +onlyGivenNames x); refine Keeps.cut (w := wm) (s := s0) (v := x) ?_ ?_)
    | fail_if_no_progress extract_lets +onlyGivenNames x
    | (with_reducible first | apply State.modPh_keeps | apply State.modPst_keeps | apply State.modVs_keeps | apply Keeps.ite)
    | with_reducible apply Keeps.foldl

theorem State.dieOff_keeps {wm : Nat} {s0 s : State} (d : Fin 4) (h : Keeps wm s0 s) (hw : Within 0x400000780 wm) :
    Keeps wm s0 (State.dieOff s d) := by
  unfold State.dieOff
  repeat' first
    | (with_reducible first | assumption | exact hw | exact hw.mono (by decide)) | exact fun _ h => h | exact fun _ h => armed_not_safe h
    | exact fun _ h => run_not_safe h | intro _ | ((fail_if_no_progress extract_lets +onlyGivenNames x); clear_value x)
    | fail_if_no_progress extract_lets +onlyGivenNames x
    | (with_reducible first | apply State.dieDown_keeps | apply State.modDie_keeps | apply State.phasesLost_keeps)

theorem State.dieUp_keeps {wm : Nat} {s0 s : State} (d : Fin 4) (h : Keeps wm s0 s) (hw : Within 0x80 wm) :
    Keeps wm s0 (State.dieUp s d) := by
  unfold State.dieUp
  repeat' first
    | (with_reducible first | assumption | exact hw | exact hw.mono (by decide)) | exact fun _ h => h | exact fun _ h => armed_not_safe h
    | exact fun _ h => run_not_safe h | intro _ | fail_if_no_progress extract_lets +onlyGivenNames x
    | with_reducible apply State.modDie_keeps

theorem State.portsApply_keeps {wm : Nat} {s0 s : State} (h : Keeps wm s0 s) (hw : Within 0x180040 wm) :
    Keeps wm s0 (State.portsApply s) := by
  unfold State.portsApply
  repeat' first
    | (with_reducible first | assumption | exact hw | exact hw.mono (by decide)) | intro _
    | fail_if_no_progress extract_lets +onlyGivenNames x
    | (with_reducible first | apply State.portApply_keeps | apply Keeps.ite | apply Keeps.foldl)

theorem State.stateTo_keeps {wm : Nat} {s0 s : State} (st : DevState) (src : Nat) (h : Keeps wm s0 s) (hw : Within 0x200000040 wm) :
    Keeps wm s0 (State.stateTo s st src) := by
  unfold State.stateTo
  repeat' first
    | (with_reducible first | assumption | exact hw | exact hw.mono (by decide)) | intro _
    | fail_if_no_progress extract_lets +onlyGivenNames x | (with_reducible first | apply State.log_keeps | apply State.modDev_keeps)

theorem State.quietDown_keeps {wm : Nat} {s0 s : State} (h : Keeps wm s0 s) (hw : Within 0xe09991fc0 wm) :
    Keeps wm s0 (State.quietDown s) := by
  unfold State.quietDown
  repeat' first
    | (with_reducible first | assumption | exact hw | exact hw.mono (by decide)) | intro _
    | ((fail_if_no_progress extract_lets +onlyGivenNames x); refine Keeps.cut (w := wm) (s := s0) (v := x) ?_ ?_)
    | fail_if_no_progress extract_lets +onlyGivenNames x
    | (with_reducible first | apply State.allStop_keeps | apply State.bankOff_keeps | apply State.dieOff_keeps)
    | (with_reducible first | apply State.energyCopy_keeps | apply State.faultScan_keeps | apply State.modDev_keeps)
    | (with_reducible first | apply State.portsApply_keeps | apply State.spateReq_keeps | apply Keeps.ite | apply Keeps.foldl)

theorem State.quietEntry_keeps {wm : Nat} {s0 s : State} (src : Nat) (h : Keeps wm s0 s) (hw : Within 0xe09991fc0 wm) :
    Keeps wm s0 (State.quietEntry s src) := by
  unfold State.quietEntry
  repeat' first
    | (with_reducible first | assumption | exact hw | exact hw.mono (by decide)) | intro _
    | fail_if_no_progress extract_lets +onlyGivenNames x
    | (with_reducible first | apply State.quietDown_keeps | apply State.stateTo_keeps)

theorem State.runUp_keeps {wm : Nat} {s0 s : State} (h : Keeps wm s0 s) (hw : Within 0xa001900c0 wm) :
    Keeps wm s0 (State.runUp s) := by
  unfold State.runUp
  repeat' first
    | (with_reducible first | assumption | exact hw | exact hw.mono (by decide)) | intro _
    | ((fail_if_no_progress extract_lets +onlyGivenNames x); refine Keeps.cut (w := wm) (s := s0) (v := x) ?_ ?_)
    | fail_if_no_progress extract_lets +onlyGivenNames x
    | (with_reducible first | apply State.bankOn_keeps | apply State.dieUp_keeps | apply State.modDev_keeps)
    | (with_reducible first | apply State.portsApply_keeps | apply Keeps.ite | apply Keeps.foldl)

theorem State.runEntry_keeps {wm : Nat} {s0 s : State} (src : Nat) (h : Keeps wm s0 s) (hw : Within 0xa001900c0 wm) :
    Keeps wm s0 (State.runEntry s src) := by
  unfold State.runEntry
  repeat' first
    | (with_reducible first | assumption | exact hw | exact hw.mono (by decide)) | intro _
    | fail_if_no_progress extract_lets +onlyGivenNames x | (with_reducible first | apply State.runUp_keeps | apply State.stateTo_keeps)

theorem State.siltDrain_keeps {wm : Nat} {s0 s : State} (m : Nat) (h : Keeps wm s0 s) (hw : Within 0x800c00000 wm) :
    Keeps wm s0 (State.siltDrain s m) := by
  induction m generalizing s with
  | zero => exact h
  | succ n ih => exact ih (State.siltCommit_keeps h hw)

theorem State.siltDecideAll_keeps {wm : Nat} {s0 s : State} (h : Keeps wm s0 s) (hw : Within 0x16bb00c0 wm) :
    Keeps wm s0 (State.siltDecideAll s) := by
  unfold State.siltDecideAll
  repeat' first
    | (with_reducible first | assumption | exact hw | exact hw.mono (by decide)) | intro _
    | fail_if_no_progress extract_lets +onlyGivenNames x
    | (with_reducible first | apply State.siltDecide_keeps | apply Keeps.ite | apply Keeps.foldl | apply Keeps.foldlSnd)
    | with_reducible apply Keeps.foldlFst | dsimp -zeta only [x]
    | (fail_if_no_progress ((with_reducible apply Keeps.upd); on_goal 2 => exact fun p hp => by cases p <;> first | with_reducible exact rfl | exact hw.no rfl hp))

theorem State.dormantEntry_keeps {wm : Nat} {s0 s : State} (src : Nat) (h : Keeps wm s0 s) (hw : Within 0xe5ffb1fc1 wm) :
    Keeps wm s0 (State.dormantEntry s src) := by
  unfold State.dormantEntry
  extract_lets prev s1 s2 s3 s4
  have h1 : Keeps wm s0 s1 := State.siltDecideAll_keeps (State.quietDown_keeps (State.stateTo_keeps .dormant src h (hw.mono (by decide)))
    (hw.mono (by decide))) (hw.mono (by decide))
  have h2 : Keeps wm s0 s2 := State.modSpring_keeps _ (State.ledgerWrite_keeps (State.siltDrain_keeps _ (State.tallyDrain_keeps h1 (hw.mono (by decide)))
    (hw.mono (by decide))) (hw.mono (by decide))) (hw.mono (by decide))
  have h3 : Keeps wm s0 s3 := State.retPut_keeps _ h2 (hw.mono (by decide))
  have h4 : Keeps wm s0 s4 := State.modStems_keeps _ h3 (hw.mono (by decide))
  clear_value s4
  have h5 := State.modSpring_keeps (fun x => { x with mainEn := false }) h4 (hw.mono (by decide))
  exact ⟨h5.queue, h4.tick, h5.store, h5.rollback, h5.drive, fun p hp => sameTrans (h5.frame p hp) (by
    cases p <;> first | exact hw.no rfl hp | exact rfl)⟩

theorem State.keyLoad_keeps {wm : Nat} {s0 s : State} (sess : Nat) (body : List Byte) (h : Keeps wm s0 s) (hw : Within 0xc823ad850 wm) :
    Keeps wm s0 (State.keyLoad s sess body) := by
  unfold State.keyLoad
  repeat' first
    | (with_reducible first | assumption | exact hw | exact hw.mono (by decide)) | intro _
    | ((fail_if_no_progress extract_lets +onlyGivenNames x); refine Keeps.cut (w := wm) (s := s0) (v := x) ?_ ?_)
    | ((fail_if_no_progress extract_lets +onlyGivenNames x); clear_value x) | fail_if_no_progress extract_lets +onlyGivenNames x
    | (with_reducible first | apply State.log_keeps | apply State.modHost_keeps | apply State.sessEnd_keeps | apply Keeps.ite)
    | with_reducible apply Keeps.foldl

theorem State.stateChange_keeps {wm : Nat} {s0 s : State} (k : Fin 8) (body : List Byte) (h : Keeps wm s0 s) (hw : Within 0xe5ffb1fc1 wm) :
    Keeps wm s0 (State.stateChange s k body) := by
  unfold State.stateChange
  repeat' first
    | (with_reducible first | assumption | exact hw | exact hw.mono (by decide)) | intro _
    | ((fail_if_no_progress extract_lets +onlyGivenNames x); clear_value x) | fail_if_no_progress extract_lets +onlyGivenNames x
    | (with_reducible first | apply State.dormantEntry_keeps | apply State.quietEntry_keeps | apply State.runEntry_keeps)
    | with_reducible apply Keeps.ite

theorem State.fwStore_keeps {wm : Nat} {s0 s : State} (k : Fin 2) (off : Nat) (bs : List Byte) (h : Keeps wm s0 s) (hw : Within 0x400000 wm) :
    Keeps wm s0 (State.fwStore s k off bs) := by
  unfold State.fwStore
  repeat' first
    | (with_reducible first | assumption | exact hw | exact hw.mono (by decide)) | intro _
    | ((fail_if_no_progress extract_lets +onlyGivenNames x); clear_value x) | fail_if_no_progress extract_lets +onlyGivenNames x
    | with_reducible apply State.store_keeps

theorem State.fwBegin_keeps {wm : Nat} {s0 s : State} (k : Fin 8) (body : List Byte) (h : Keeps wm s0 s) (hw : Within 0x80400000 wm) :
    Keeps wm s0 (State.fwBegin s k body).1 := by
  unfold State.fwBegin
  repeat' first
    | (with_reducible first | assumption | exact hw | exact hw.mono (by decide)) | intro _
    | ((fail_if_no_progress extract_lets +onlyGivenNames x); clear_value x) | fail_if_no_progress extract_lets +onlyGivenNames x
    | (with_reducible first | apply State.fwStore_keeps | apply State.modFirm_keeps | apply Keeps.ite | apply Keeps.iteFst)
    | exact Nat.le_refl _

theorem State.fwBlock_keeps {wm : Nat} {s0 s : State} (k : Fin 8) (q : Req) (body : List Byte) (h : Keeps wm s0 s) (hw : Within 0x82400000 wm) :
    Keeps wm s0 (State.fwBlock s k q body).1 := by
  unfold State.fwBlock
  repeat' first
    | (with_reducible first | assumption | exact hw | exact hw.mono (by decide)) | intro _
    | ((fail_if_no_progress extract_lets +onlyGivenNames x); have _ : _ → _ → State := x)
    | ((fail_if_no_progress extract_lets +onlyGivenNames x); clear_value x) | fail_if_no_progress extract_lets +onlyGivenNames x
    | (with_reducible first | apply State.fwStore_keeps | apply State.modFirm_keeps | apply State.owe_keeps | apply Keeps.ite)
    | with_reducible apply Keeps.iteFst | exact Nat.le_refl _ | exact Nat.le_max_left _ _ | dsimp -zeta only [x] | split

theorem State.fwEnd_keeps {wm : Nat} {s0 s : State} (k : Fin 8) (h : Keeps wm s0 s) (hw : Within 0x80400000 wm) :
    Keeps wm s0 (State.fwEnd s k).1 := by
  unfold State.fwEnd
  repeat' first
    | (with_reducible first | assumption | exact hw | exact hw.mono (by decide)) | intro _
    | ((fail_if_no_progress extract_lets +onlyGivenNames x); refine Keeps.cut (w := wm) (s := s0) (v := x) ?_ ?_)
    | ((fail_if_no_progress extract_lets +onlyGivenNames x); clear_value x) | fail_if_no_progress extract_lets +onlyGivenNames x
    | (with_reducible first | apply State.modFirm_keeps | apply State.store_keeps | apply Keeps.ite | apply Keeps.iteFst)
    | exact Nat.le_refl _ | exact Nat.le_max_left _ _ | dsimp -zeta only [x] | split

theorem State.fwActivate_keeps {wm : Nat} {s0 s : State} (body : List Byte) (h : Keeps wm s0 s) (hw : Within 0xfdffffbdc wm) :
    Keeps wm s0 (State.fwActivate s body) := by
  unfold State.fwActivate
  repeat' first
    | (with_reducible first | assumption | exact hw | exact hw.mono (by decide)) | intro _
    | ((fail_if_no_progress extract_lets +onlyGivenNames x); refine Keeps.cut (w := wm) (s := s0) (v := x) ?_ ?_)
    | ((fail_if_no_progress extract_lets +onlyGivenNames x); clear_value x) | fail_if_no_progress extract_lets +onlyGivenNames x
    | (with_reducible first | apply State.fwRestart_keeps | apply State.ledgerWrite_keeps | apply State.log_keeps)
    | (with_reducible first | apply State.modFirm_keeps | apply State.siltDecideAll_keeps | apply State.siltDrain_keeps)
    | with_reducible apply Keeps.ite | exact Nat.le_refl _ | exact Nat.le_max_left _ _ | dsimp -zeta only [x] | split

theorem State.kenebBegin_keeps {wm : Nat} {s0 s : State} (k : Fin 8) (body : List Byte) (h : Keeps wm s0 s) (hw : Within 0x2000000 wm) :
    Keeps wm s0 (State.kenebBegin s k body).1 := by
  unfold State.kenebBegin
  repeat' first
    | (with_reducible first | assumption | exact hw | exact hw.mono (by decide)) | intro _
    | ((fail_if_no_progress extract_lets +onlyGivenNames x); clear_value x) | fail_if_no_progress extract_lets +onlyGivenNames x
    | (with_reducible first | apply State.modHost_keeps | apply Keeps.ite | apply Keeps.iteFst)

theorem State.kenebBlock_keeps {wm : Nat} {s0 s : State} (k : Fin 8) (body : List Byte) (h : Keeps wm s0 s) (hw : Within 0x2000000 wm) :
    Keeps wm s0 (State.kenebBlock s k body).1 := by
  unfold State.kenebBlock
  repeat' first
    | (with_reducible first | assumption | exact hw | exact hw.mono (by decide)) | intro _
    | ((fail_if_no_progress extract_lets +onlyGivenNames x); clear_value x) | fail_if_no_progress extract_lets +onlyGivenNames x
    | (with_reducible first | apply State.modHost_keeps | apply Keeps.ite | apply Keeps.iteFst) | dsimp -zeta only [x] | split

theorem State.kenebRefused_keeps {wm : Nat} {s0 s : State} (k : Fin 8) (status : Nat) (entry : Nat) (id : Nat) (h : Keeps wm s0 s) (hw : Within 0x40 wm) :
    Keeps wm s0 (State.kenebRefused s k status entry id) := by
  unfold State.kenebRefused
  repeat' first
    | (with_reducible first | assumption | exact hw | exact hw.mono (by decide)) | intro _
    | fail_if_no_progress extract_lets +onlyGivenNames x | with_reducible apply State.log_keeps

theorem State.kenebEnd_keeps {wm : Nat} {s0 s : State} (k : Fin 8) (q : Req) (h : Keeps wm s0 s) (hw : Within 0x2000040 wm) :
    Keeps wm s0 (State.kenebEnd s k q).1 := by
  unfold State.kenebEnd
  repeat' first
    | (with_reducible first | assumption | exact hw | exact hw.mono (by decide)) | intro _
    | ((fail_if_no_progress extract_lets +onlyGivenNames x); clear_value x) | fail_if_no_progress extract_lets +onlyGivenNames x
    | (with_reducible first | apply State.kenebRefused_keeps | apply State.pushCommit_keeps | apply Keeps.ite)
    | with_reducible apply Keeps.iteFst | dsimp -zeta only [x] | split

theorem State.kenebRead_keeps {wm : Nat} {s0 s : State} (body : List Byte) (h : Keeps wm s0 s) :
    Keeps wm s0 (State.kenebRead s body).1 := by
  unfold State.kenebRead
  repeat' first
    | with_reducible assumption | intro _ | ((fail_if_no_progress extract_lets +onlyGivenNames x); clear_value x)
    | fail_if_no_progress extract_lets +onlyGivenNames x | (with_reducible first | apply Keeps.ite | apply Keeps.iteFst)
    | dsimp -zeta only [x] | split

theorem State.ctlEntry_keeps {wm : Nat} {s0 s : State} (k : Fin 8) (may : Bool) (e : Entry) (h : Keeps wm s0 s) (hw : Within 0xe1fdddbd0 wm) :
    Keeps wm s0 (State.ctlEntry s k may e).1 := by
  unfold State.ctlEntry
  repeat' first
    | (with_reducible first | assumption | exact hw | exact hw.mono (by decide)) | intro _
    | fail_if_no_progress extract_lets +onlyGivenNames x
    | (with_reducible first | apply State.ctlEffect_keeps | apply Keeps.ite | apply Keeps.iteFst) | dsimp -zeta only [x] | split

theorem State.headState_keeps {wm : Nat} {s0 s : State} (c : Commit) (h : Keeps wm s0 s) (hw : Within 0x2000000 wm) :
    Keeps wm s0 (State.headState s c) := by
  unfold State.headState
  repeat' first
    | (with_reducible first | assumption | exact hw | exact hw.mono (by decide)) | intro _
    | fail_if_no_progress extract_lets +onlyGivenNames x | (with_reducible first | apply State.modHost_keeps | apply Keeps.ite)

theorem State.commitPop_keeps {wm : Nat} {s0 s : State} (h : Keeps wm s0 s) (hw : Within 0x2000000 wm) :
    Keeps wm s0 (State.commitPop s) := by
  unfold State.commitPop
  repeat' first
    | (with_reducible first | assumption | exact hw | exact hw.mono (by decide)) | intro _
    | fail_if_no_progress extract_lets +onlyGivenNames x | with_reducible apply State.modHost_keeps

theorem State.commitTo_keeps {wm : Nat} {s0 s : State} (st : CommitStage) (h : Keeps wm s0 s) (hw : Within 0x2000000 wm) :
    Keeps wm s0 (State.commitTo s st) := by
  unfold State.commitTo
  repeat' first
    | (with_reducible first | assumption | exact hw | exact hw.mono (by decide)) | intro _
    | fail_if_no_progress extract_lets +onlyGivenNames x | with_reducible apply State.modHost_keeps

theorem State.lastCommit_keeps {wm : Nat} {s0 s : State} (c : Commit) (st : Nat) (h : Keeps wm s0 s) (hw : Within 0x2000000 wm) :
    Keeps wm s0 (State.lastCommit s c st) := by
  unfold State.lastCommit
  repeat' first
    | (with_reducible first | assumption | exact hw | exact hw.mono (by decide)) | intro _
    | fail_if_no_progress extract_lets +onlyGivenNames x | (with_reducible first | apply State.modHost_keeps | apply Keeps.ite)
    | dsimp -zeta only [x] | split

theorem State.commitReply_keeps {wm : Nat} {s0 s : State} (c : Commit) (st : Nat) (body : List Byte) (h : Keeps wm s0 s) (hw : Within 0x802000000 wm) :
    Keeps wm s0 (State.commitReply s c st body) := by
  unfold State.commitReply
  repeat' first
    | (with_reducible first | assumption | exact hw | exact hw.mono (by decide)) | intro _
    | fail_if_no_progress extract_lets +onlyGivenNames x | (with_reducible first | apply State.answer_keeps | apply Keeps.ite)

theorem State.commitRefuse_keeps {wm : Nat} {s0 s : State} (c : Commit) (f : ImgFail) (h : Keeps wm s0 s) (hw : Within 0x802000040 wm) :
    Keeps wm s0 (State.commitRefuse s c f) := by
  unfold State.commitRefuse
  repeat' first
    | (with_reducible first | assumption | exact hw | exact hw.mono (by decide)) | intro _
    | ((fail_if_no_progress extract_lets +onlyGivenNames x); refine Keeps.cut (w := wm) (s := s0) (v := x) ?_ ?_)
    | ((fail_if_no_progress extract_lets +onlyGivenNames x); clear_value x) | fail_if_no_progress extract_lets +onlyGivenNames x
    | (with_reducible first | apply State.commitPop_keeps | apply State.commitReply_keeps | apply State.kenebRefused_keeps)
    | (with_reducible first | apply State.lastCommit_keeps | apply State.log_keeps | apply Keeps.ite)

theorem execCommitPipelineHead_answers {wm : Nat} (s : State) (hw : Within 0x802000044 wm) :
    Answers wm s (execCommitPipelineHead s) := by
  unfold execCommitPipelineHead
  repeat' first
    | (with_reducible first | assumption | exact Keeps.refl _ _ | exact hw | exact hw.mono (by decide)) | intro _
    | ((fail_if_no_progress extract_lets +onlyGivenNames x); clear_value x) | fail_if_no_progress extract_lets +onlyGivenNames x
    | (with_reducible first | apply Answers.next | apply Answers.ite | apply State.commitRefuse_keeps)
    | (with_reducible first | apply State.commitTo_keeps | apply State.sluiceStall_keeps | apply State.stage_keeps)
    | with_reducible apply Keeps.ite | dsimp -zeta only [x] | split

theorem execKenebImageWritten_answers {wm : Nat} (s : State) (hw : Within 0x82c00004 wm) :
    Answers wm s (execKenebImageWritten s) := by
  unfold execKenebImageWritten
  repeat' first
    | (with_reducible first | assumption | exact Keeps.refl _ _ | exact hw | exact hw.mono (by decide)) | intro _
    | ((fail_if_no_progress extract_lets +onlyGivenNames x); refine Keeps.cut (w := wm) (s := s) (v := x) ?_ ?_)
    | ((fail_if_no_progress extract_lets +onlyGivenNames x); clear_value x) | fail_if_no_progress extract_lets +onlyGivenNames x
    | (with_reducible first | apply Answers.next | apply Answers.ite | apply State.commitTo_keeps | apply State.imgStore_keeps)
    | (with_reducible first | apply State.lastCommit_keeps | apply State.ledgerWrite_keeps | apply State.modFirm_keeps)
    | (with_reducible first | apply State.modHost_keeps | apply State.sluiceStall_keeps | apply State.stage_keeps)
    | with_reducible apply Keeps.ite | exact Nat.le_refl _ | exact Nat.le_max_left _ _ | dsimp -zeta only [x] | split

theorem State.slotsPrune_keeps {wm : Nat} {s0 s : State} (h : Keeps wm s0 s) (hw : Within 0x200000 wm) :
    Keeps wm s0 (State.slotsPrune s) := by
  unfold State.slotsPrune
  repeat' first
    | (with_reducible first | assumption | exact hw | exact hw.mono (by decide)) | intro _
    | ((fail_if_no_progress extract_lets +onlyGivenNames x); clear_value x) | fail_if_no_progress extract_lets +onlyGivenNames x
    | with_reducible apply State.modPool_keeps

theorem State.codeSettle_keeps {wm : Nat} {s0 s : State} (new : SMap Int) (ks : List Nat) (h : Keeps wm s0 s) (hw : Within 0x800000 wm) :
    Keeps wm s0 (State.codeSettle s new ks) := by
  unfold State.codeSettle
  repeat' first
    | (with_reducible first | assumption | exact hw | exact hw.mono (by decide)) | intro _
    | ((fail_if_no_progress extract_lets +onlyGivenNames x); clear_value x) | fail_if_no_progress extract_lets +onlyGivenNames x
    | (with_reducible first | apply State.setCode_keeps | apply Keeps.ite | apply Keeps.foldl)

theorem State.afterPar_keeps {wm : Nat} {s0 s : State} (id : Nat) (i : Nat) (h : Keeps wm s0 s) (hw : Within 0x8133f5942 wm) :
    Keeps wm s0 (State.afterPar s id i) := by
  unfold State.afterPar
  repeat' first
    | (with_reducible first | assumption | exact hw | exact hw.mono (by decide)) | exact (⟨fun a => a, fun a => a⟩ : Lower _ _)
    | with_reducible exact fun _ => ⟨fun a => a, fun a => a⟩ | exact fun _ => ⟨fun a => a, fun a => a⟩
    | exact fun _ => ⟨fun h => absurd h Bool.false_ne_true, fun h => absurd h Bool.false_ne_true⟩ | intro _
    | fail_if_no_progress extract_lets +onlyGivenNames x
    | (with_reducible first | apply State.battStart_keeps | apply State.closeSess_keeps | apply State.ethLink_keeps)
    | (with_reducible first | apply State.mbrTo_keeps | apply State.modMbr_keeps | apply State.modPh_keeps)
    | (with_reducible first | apply State.modPort_keeps | apply State.ocModeStep_keeps | apply State.outputsLow_keeps)
    | (with_reducible first | apply State.pgDrop_keeps | apply State.portApply_keeps | apply State.portOff_keeps)
    | (with_reducible first | apply State.slotRearm_keeps | apply State.slotsPrune_keeps | apply State.spateApply_keeps)
    | (with_reducible first | apply State.tbRestart_keeps | apply State.timerWrite_keeps | apply State.weirOff_keeps)
    | (with_reducible first | apply finS_keeps | apply Keeps.ite)

theorem State.rotCommit_keeps {wm : Nat} {s0 s : State} (c : Commit) (h : Keeps wm s0 s) (hw : Within 0x800 wm) :
    Keeps wm s0 (State.rotCommit s c) := by
  unfold State.rotCommit
  repeat' first
    | (with_reducible first | assumption | exact hw | exact hw.mono (by decide)) | intro _
    | ((fail_if_no_progress extract_lets +onlyGivenNames x); clear_value x) | fail_if_no_progress extract_lets +onlyGivenNames x
    | (with_reducible first | apply State.modTm_keeps | apply Keeps.ite | apply Keeps.foldl)

theorem State.applyCfg_keeps {wm : Nat} {s0 s : State} (new : SMap Int) (h : Keeps wm s0 s) (hw : Within 0xc13bf594a wm) :
    Keeps wm s0 (State.applyCfg s new) := by
  unfold State.applyCfg
  repeat' first
    | (with_reducible first | assumption | exact hw | exact hw.mono (by decide)) | intro _
    | ((fail_if_no_progress extract_lets +onlyGivenNames x); refine Keeps.cut (w := wm) (s := s0) (v := x) ?_ ?_)
    | ((fail_if_no_progress extract_lets +onlyGivenNames x); clear_value x) | fail_if_no_progress extract_lets +onlyGivenNames x
    | (with_reducible first | apply State.afterPar_keeps | apply State.bankSendSet_keeps | apply State.codeSettle_keeps)
    | (with_reducible first | apply State.faultScan_keeps | apply State.lagAdd_keeps | apply Keeps.ite | apply Keeps.foldl)
    | (with_reducible first | apply Keeps.foldlSnd | apply Keeps.foldlFst) | dsimp -zeta only [x]
    | (fail_if_no_progress ((with_reducible apply Keeps.upd); on_goal 2 => exact fun p hp => by cases p <;> first | with_reducible exact rfl | exact hw.no rfl hp))

theorem State.applyVal_keeps {wm : Nat} {s0 s : State} (e : Entry) (h : Keeps wm s0 s) (hw : Within 0x9740f9942 wm) :
    Keeps wm s0 (State.applyVal s e) := by
  unfold State.applyVal
  repeat' first
    | (with_reducible first | assumption | exact hw | exact hw.mono (by decide)) | intro _
    | ((fail_if_no_progress extract_lets +onlyGivenNames x); clear_value x) | fail_if_no_progress extract_lets +onlyGivenNames x
    | (with_reducible first | apply State.faultScan_keeps | apply State.modSpring_keeps | apply State.retWrite_keeps)
    | (with_reducible first | apply State.timerWrite_keeps | apply State.w1cWrite_keeps | apply State.weirSetCap_keeps)
    | (with_reducible first | apply finS_keeps | apply Keeps.ite) | dsimp -zeta only [x] | split

theorem State.applyParams_keeps {wm : Nat} {s0 s : State} (c : Commit) (h : Keeps wm s0 s) (hw : Within 0xf7fffdbda wm) :
    Keeps wm s0 (State.applyParams s c) := by
  unfold State.applyParams
  repeat' first
    | (with_reducible first | assumption | exact hw | exact hw.mono (by decide)) | intro _
    | ((fail_if_no_progress extract_lets +onlyGivenNames x); refine Keeps.cut (w := wm) (s := s0) (v := x) ?_ ?_)
    | ((fail_if_no_progress extract_lets +onlyGivenNames x); clear_value x) | fail_if_no_progress extract_lets +onlyGivenNames x
    | (with_reducible first | apply State.applyCfg_keeps | apply State.applyVal_keeps | apply State.commitReply_keeps)
    | (with_reducible first | apply State.ctlEntry_keeps | apply State.lastCommit_keeps | apply State.log_keeps)
    | (with_reducible first | apply State.modSess_keeps | apply State.rotCommit_keeps | apply Keeps.ite | apply Keeps.foldl)

theorem State.commitLog_keeps {wm : Nat} {s0 s : State} (c : Commit) (h : Keeps wm s0 s) (hw : Within 0x2000040 wm) :
    Keeps wm s0 (State.commitLog s c) := by
  unfold State.commitLog
  repeat' first
    | (with_reducible first | assumption | exact hw | exact hw.mono (by decide)) | intro _
    | fail_if_no_progress extract_lets +onlyGivenNames x | (with_reducible first | apply State.lastCommit_keeps | apply State.log_keeps)

theorem State.applyKey_keeps {wm : Nat} {s0 s : State} (c : Commit) (h : Keeps wm s0 s) (hw : Within 0xc823ad850 wm) :
    Keeps wm s0 (State.applyKey s c) := by
  unfold State.applyKey
  repeat' first
    | (with_reducible first | assumption | exact hw | exact hw.mono (by decide)) | intro _
    | fail_if_no_progress extract_lets +onlyGivenNames x
    | (with_reducible first | apply State.commitLog_keeps | apply State.commitReply_keeps | apply State.keyLoad_keeps)

theorem execCommitApply_answers {wm : Nat} (s : State) (hw : Within 0xfffffdbda wm) :
    Answers wm s (execCommitApply s) := by
  unfold execCommitApply
  repeat' first
    | (with_reducible first | assumption | exact Keeps.refl _ _ | exact hw | exact hw.mono (by decide)) | intro _
    | ((fail_if_no_progress extract_lets +onlyGivenNames x); refine Keeps.cut (w := wm) (s := s) (v := x) ?_ ?_)
    | ((fail_if_no_progress extract_lets +onlyGivenNames x); clear_value x) | fail_if_no_progress extract_lets +onlyGivenNames x
    | (with_reducible first | apply Answers.next | apply Answers.ite | apply State.applyKey_keeps)
    | (with_reducible first | apply State.applyParams_keeps | apply State.battRestore_keeps | apply State.commitLog_keeps)
    | (with_reducible first | apply State.commitPop_keeps | apply State.commitRefuse_keeps | apply State.commitReply_keeps)
    | (with_reducible first | apply State.stage_keeps | apply State.stamp_keeps | apply Keeps.ite) | dsimp -zeta only [x] | split

theorem State.handle_keeps {wm : Nat} {s0 s : State} (k : Fin 8) (op : Nat) (q : Req) (b : List Byte) (h : Keeps wm s0 s) (hw : Within 0xc927ad853 wm) :
    Keeps wm s0 (State.handle s k op q b).1 := by
  unfold State.handle
  repeat' first
    | (with_reducible first | assumption | exact hw | exact hw.mono (by decide)) | intro _
    | fail_if_no_progress extract_lets +onlyGivenNames x
    | (with_reducible first | apply State.battExport_keeps | apply State.commitStaged_keeps | apply State.discard_keeps)
    | (with_reducible first | apply State.fwBegin_keeps | apply State.fwBlock_keeps | apply State.fwEnd_keeps)
    | (with_reducible first | apply State.kenebBegin_keeps | apply State.kenebBlock_keeps | apply State.kenebEnd_keeps)
    | (with_reducible first | apply State.kenebRead_keeps | apply State.nodeRelay_keeps | apply State.noticeSet_keeps)
    | (with_reducible first | apply State.paramRead_keeps | apply State.paramWrite_keeps | apply State.permitAcquire_keeps)
    | (with_reducible first | apply State.permitRelease_keeps | apply State.permitRenew_keeps | apply State.permitTake_keeps)
    | (with_reducible first | apply State.pmbusXfer_keeps | apply State.pointRead_keeps | apply State.pushCommit_keeps)
    | (with_reducible first | apply State.siltRead_keeps | apply State.spateRead_keeps | apply State.stage_keeps)
    | (with_reducible first | apply State.subscribe_keeps | apply State.timeSet_keeps | apply State.unsubscribe_keeps)
    | with_reducible apply Keeps.ite | dsimp -zeta only [x] | split

theorem State.after_keeps {wm : Nat} {s0 s : State} (k : Fin 8) (op : Nat) (b : List Byte) (h : Keeps wm s0 s) (hw : Within 0xfdfffffdd wm) :
    Keeps wm s0 (State.after s k op b) := by
  unfold State.after
  repeat' first
    | (with_reducible first | assumption | exact hw | exact hw.mono (by decide)) | intro _
    | fail_if_no_progress extract_lets +onlyGivenNames x
    | (with_reducible first | apply State.fwActivate_keeps | apply State.postFirst_keeps | apply State.sessEnd_keeps)
    | (with_reducible first | apply State.stateChange_keeps | apply Keeps.ite) | dsimp -zeta only [x] | split

theorem State.perform_keeps {wm : Nat} {s0 s : State} (k : Fin 8) (op : Nat) (q : Req) (b : List Byte) (h : Keeps wm s0 s) (hw : Within 0x802000000 wm) (hh : ∀ t, Keeps wm s0 t → Keeps wm s0 (t.handle k op q b).1) (ha : ∀ t, Keeps wm s0 t → Keeps wm s0 (t.after k op b)) :
    Keeps wm s0 (State.perform s k op q b) := by
  unfold State.perform
  repeat' first
    | (with_reducible first | assumption | exact hw | exact hw.mono (by decide)) | intro _
    | ((fail_if_no_progress extract_lets +onlyGivenNames x); refine Keeps.cut (w := wm) (s := s0) (v := x) ?_ ?_)
    | ((fail_if_no_progress extract_lets +onlyGivenNames x); refine Keeps.cut (w := wm) (s := s0) (v := x.1) ?_ ?_)
    | ((fail_if_no_progress extract_lets +onlyGivenNames x); clear_value x) | fail_if_no_progress extract_lets +onlyGivenNames x
    | (with_reducible first | apply State.reply_keeps | apply State.useRenew_keeps | apply hh | apply ha | apply Keeps.ite)
    | dsimp -zeta only [x] | split

theorem State.serve_keeps {wm : Nat} {s0 s : State} (k : Fin 8) (op : Nat) (q : Req) (b : List Byte) (entropy : Nat) (h : Keeps wm s0 s) (hw : Within 0xc823ad850 wm) (hh : ∀ t, Keeps wm s0 t → Keeps wm s0 (t.handle k op q b).1) (ha : ∀ t, Keeps wm s0 t → Keeps wm s0 (t.after k op b)) :
    Keeps wm s0 (State.serve s k op q b entropy) := by
  delta State.serve
  have hr := State.seqCheck_keeps k q.seq h (hw.mono (by decide))
  revert hr
  generalize s.seqCheck k q.seq = z
  obtain ⟨t, ok⟩ := z
  intro hr
  have h5 : Keeps wm s0 t := hr
  clear hr
  have h6 := State.sessionProve_keeps k q b h5 (hw.mono (by decide))
  have h7 := State.perform_keeps k op q b h5 (hw.mono (by decide)) hh ha
  exact Keeps.ite h (Keeps.ite (State.countRefused_keeps _ h (hw.mono (by decide))) (Keeps.ite (State.refuse_keeps _ _ _ _ h
    (hw.mono (by decide))) (Keeps.ite (State.sessionOpen_keeps _ _ _ _ h (hw.mono (by decide))) (Keeps.ite h5 (Keeps.ite h6 h7)))))

theorem State.holdReq_keeps {wm : Nat} {s0 s : State} (k : Fin 8) (op : Nat) (q : Req) (b : List Byte) (h : Keeps wm s0 s) (hw : Within 0x2000044 wm) :
    Keeps wm s0 (State.holdReq s k op q b) := by
  unfold State.holdReq
  repeat' first
    | (with_reducible first | assumption | exact hw | exact hw.mono (by decide)) | intro _
    | ((fail_if_no_progress extract_lets +onlyGivenNames x); refine Keeps.cut (w := wm) (s := s0) (v := x) ?_ ?_)
    | ((fail_if_no_progress extract_lets +onlyGivenNames x); clear_value x) | fail_if_no_progress extract_lets +onlyGivenNames x
    | (with_reducible first | apply State.log_keeps | apply State.modHost_keeps | apply State.modMb_keeps)
    | (with_reducible first | apply State.sluiceStall_keeps | apply Keeps.ite)

theorem State.carry_keeps {wm : Nat} {s0 s : State} (k : Fin 8) (op : Nat) (q : Req) (b : List Byte) (entropy : Nat) (h : Keeps wm s0 s) (hw : Within 0xc823ad874 wm) (hh : ∀ t, Keeps wm s0 t → Keeps wm s0 (t.handle k op q b).1) (ha : ∀ t, Keeps wm s0 t → Keeps wm s0 (t.after k op b)) :
    Keeps wm s0 (State.carry s k op q b entropy) := by
  exact Keeps.ite (State.serve_keeps _ _ _ _ _ (State.stamp_keeps (State.sluiceWork_keeps _ h (hw.mono (by decide))) (hw.mono (by decide)))
    (hw.mono (by decide)) hh ha) (State.holdReq_keeps _ _ _ _ h (hw.mono (by decide)))

theorem State.request_keeps {wm : Nat} {s0 s : State} (op : Nat) (q : Req) (b : List Byte) (h : Keeps wm s0 s) (hw : Within 0xc823ad874 wm) (hh : ∀ t, Keeps wm s0 t → Keeps wm s0 (t.handle q.sess op q b).1) (ha : ∀ t, Keeps wm s0 t → Keeps wm s0 (t.after q.sess op b)) :
    Keeps wm s0 (State.request s op q b) := by
  exact Keeps.ite (State.carry_keeps _ _ _ _ _ h (hw.mono (by decide)) hh ha) h

theorem State.openNew_keeps {wm : Nat} {s0 s : State} (e : Fin 2) (ep : Endpoint) (seq : Nat) (bound : State → Fin 8 → State) (h : Keeps wm s0 s) (hw : Within 0x802000010 wm) (hb : ∀ u k, Keeps wm s0 u → Keeps wm s0 (bound u k)) :
    Keeps wm s0 (State.openNew s e ep seq bound) := by
  unfold State.openNew
  repeat' first
    | (with_reducible first | assumption | exact hw | exact hw.mono (by decide)) | intro _
    | fail_if_no_progress extract_lets +onlyGivenNames x
    | (with_reducible first | apply State.bindPair_keeps | apply State.output_keeps | apply State.sendTo_keeps)
    | (with_reducible first | apply State.stamp_keeps | apply hb | apply Keeps.ite) | dsimp -zeta only [x] | split

theorem State.refuseFrom_keeps {wm : Nat} {s0 s : State} (e : Fin 2) (ep : Endpoint) (op : Nat) (st : Nat) (q : Req) (h : Keeps wm s0 s) (hw : Within 0x802000050 wm) :
    Keeps wm s0 (State.refuseFrom s e ep op st q) := by
  unfold State.refuseFrom
  repeat' first
    | (with_reducible first | assumption | exact hw | exact hw.mono (by decide)) | intro _
    | ((fail_if_no_progress extract_lets +onlyGivenNames x); refine Keeps.cut (w := wm) (s := s0) (v := x) ?_ ?_)
    | ((fail_if_no_progress extract_lets +onlyGivenNames x); clear_value x) | fail_if_no_progress extract_lets +onlyGivenNames x
    | (with_reducible first | apply State.modHost_keeps | apply State.output_keeps | apply State.refusedAt_keeps)
    | (with_reducible first | apply State.sendTo_keeps | apply State.stamp_keeps | apply Keeps.ite)

theorem State.fromNew_keeps {wm : Nat} {s0 s : State} (e : Fin 2) (ep : Endpoint) (op : Nat) (q : Req) (b : List Byte) (bound : State → Fin 8 → State) (h : Keeps wm s0 s) (hw : Within 0x802000050 wm) (hb : ∀ u k, Keeps wm s0 u → Keeps wm s0 (bound u k)) :
    Keeps wm s0 (State.fromNew s e ep op q b bound) := by
  unfold State.fromNew
  repeat' first
    | (with_reducible first | assumption | exact hw | exact hw.mono (by decide)) | intro _
    | fail_if_no_progress extract_lets +onlyGivenNames x
    | (with_reducible first | apply State.countRefused_keeps | apply State.openNew_keeps | apply State.refuseFrom_keeps)
    | (with_reducible first | apply hb | apply Keeps.ite)

theorem execSessionOpen_answers (port : Fin 4) (ep : Endpoint) (q : Req) (body : List Byte) (entropy : Nat) {wm : Nat} (s : State) (hw : Within 0xc823ad874 wm) :
    Answers wm s (execSessionOpen port ep q body entropy s) := by
  unfold execSessionOpen
  repeat' first
    | (with_reducible first | assumption | exact Keeps.refl _ _ | exact hw | exact hw.mono (by decide)) | exact fun _ h => h | intro _
    | fail_if_no_progress extract_lets +onlyGivenNames x
    | (with_reducible first | apply Answers.next | apply Answers.ite | apply State.carry_keeps | apply State.fromNew_keeps)
    | with_reducible apply Keeps.ite | dsimp -zeta only [x] | split

theorem execSessionProve_answers (q : Req) (body : List Byte) {wm : Nat} (s : State) (hw : Within 0xc823ad874 wm) :
    Answers wm s (execSessionProve q body s) := by
  refine Answers.next (State.request_keeps _ q body (Keeps.refl _ _) (hw.mono (by decide)) (fun t h => h) (fun t h => h))

theorem execSessionClose_answers (q : Req) (body : List Byte) {wm : Nat} (s : State) (hw : Within 0xc823ad874 wm) :
    Answers wm s (execSessionClose q body s) := by
  refine Answers.next (State.request_keeps _ q body (Keeps.refl _ _) (hw.mono (by decide)) (fun t h => h) (fun t h => by
    apply State.sessEnd_keeps
    all_goals first | exact h | exact hw.mono (by decide)))

theorem execHostKeepalive_answers (q : Req) (body : List Byte) {wm : Nat} (s : State) (hw : Within 0xc823ad874 wm) :
    Answers wm s (execHostKeepalive q body s) := by
  refine Answers.next (State.request_keeps _ q body (Keeps.refl _ _) (hw.mono (by decide)) (fun t h => h) (fun t h => h))

theorem execNoticeSet_answers (q : Req) (body : List Byte) {wm : Nat} (s : State) (hw : Within 0xc823ad874 wm) :
    Answers wm s (execNoticeSet q body s) := by
  refine Answers.next (State.request_keeps _ q body (Keeps.refl _ _) (hw.mono (by decide)) (fun t h => by
    apply State.noticeSet_keeps
    all_goals first | exact h | exact hw.mono (by decide)) (fun t h => h))

theorem execPermitAcquire_answers (q : Req) (body : List Byte) {wm : Nat} (s : State) (hw : Within 0xc823ad874 wm) :
    Answers wm s (execPermitAcquire q body s) := by
  refine Answers.next (State.request_keeps _ q body (Keeps.refl _ _) (hw.mono (by decide)) (fun t h => by
    apply State.permitAcquire_keeps
    all_goals first | exact h | exact hw.mono (by decide)) (fun t h => h))

theorem execPermitRenew_answers (q : Req) (body : List Byte) {wm : Nat} (s : State) (hw : Within 0xc823ad874 wm) :
    Answers wm s (execPermitRenew q body s) := by
  refine Answers.next (State.request_keeps _ q body (Keeps.refl _ _) (hw.mono (by decide)) (fun t h => by
    apply State.permitRenew_keeps
    all_goals first | exact h | exact hw.mono (by decide)) (fun t h => h))

theorem execPermitRelease_answers (q : Req) (body : List Byte) {wm : Nat} (s : State) (hw : Within 0xc823ad874 wm) :
    Answers wm s (execPermitRelease q body s) := by
  refine Answers.next (State.request_keeps _ q body (Keeps.refl _ _) (hw.mono (by decide)) (fun t h => by
    apply State.permitRelease_keeps
    all_goals first | exact h | exact hw.mono (by decide)) (fun t h => h))

theorem execPermitTake_answers (q : Req) (body : List Byte) {wm : Nat} (s : State) (hw : Within 0xc823ad874 wm) :
    Answers wm s (execPermitTake q body s) := by
  refine Answers.next (State.request_keeps _ q body (Keeps.refl _ _) (hw.mono (by decide)) (fun t h => by
    apply State.permitTake_keeps
    all_goals first | exact h | exact hw.mono (by decide)) (fun t h => h))

theorem execParamRead_answers (q : Req) (body : List Byte) {wm : Nat} (s : State) (hw : Within 0xc923ad874 wm) :
    Answers wm s (execParamRead q body s) := by
  refine Answers.next (State.request_keeps _ q body (Keeps.refl _ _) (hw.mono (by decide)) (fun t h => by
    apply State.paramRead_keeps
    all_goals first | exact h | exact hw.mono (by decide)) (fun t h => h))

theorem execParamWrite_answers (q : Req) (body : List Byte) {wm : Nat} (s : State) (hw : Within 0xc823ad874 wm) :
    Answers wm s (execParamWrite q body s) := by
  refine Answers.next (State.request_keeps _ q body (Keeps.refl _ _) (hw.mono (by decide)) (fun t h => by
    apply State.paramWrite_keeps
    all_goals first | exact h | exact hw.mono (by decide)) (fun t h => h))

theorem execStage_answers (q : Req) (body : List Byte) {wm : Nat} (s : State) (hw : Within 0xc823ad874 wm) :
    Answers wm s (execStage q body s) := by
  refine Answers.next (State.request_keeps _ q body (Keeps.refl _ _) (hw.mono (by decide)) (fun t h => by
    apply State.stage_keeps
    all_goals first | exact h | exact hw.mono (by decide)) (fun t h => h))

theorem execDiscard_answers (q : Req) (body : List Byte) {wm : Nat} (s : State) (hw : Within 0xc823ad874 wm) :
    Answers wm s (execDiscard q body s) := by
  refine Answers.next (State.request_keeps _ q body (Keeps.refl _ _) (hw.mono (by decide)) (fun t h => by
    apply State.discard_keeps
    all_goals first | exact h | exact hw.mono (by decide)) (fun t h => h))

theorem execCommit_answers (q : Req) (body : List Byte) {wm : Nat} (s : State) (hw : Within 0xc823ad874 wm) :
    Answers wm s (execCommit q body s) := by
  refine Answers.next (State.request_keeps _ q body (Keeps.refl _ _) (hw.mono (by decide)) (fun t h => by
    apply State.commitStaged_keeps
    all_goals first | exact h | exact hw.mono (by decide)) (fun t h => h))

theorem execPointRead_answers (q : Req) (body : List Byte) {wm : Nat} (s : State) (hw : Within 0xc823ad874 wm) :
    Answers wm s (execPointRead q body s) := by
  refine Answers.next (State.request_keeps _ q body (Keeps.refl _ _) (hw.mono (by decide)) (fun t h => by
    apply State.pointRead_keeps
    all_goals first | exact h | exact hw.mono (by decide)) (fun t h => h))

theorem execSubscribe_answers (q : Req) (body : List Byte) {wm : Nat} (s : State) (hw : Within 0xc823ad874 wm) :
    Answers wm s (execSubscribe q body s) := by
  refine Answers.next (State.request_keeps _ q body (Keeps.refl _ _) (hw.mono (by decide)) (fun t h => by
    apply State.subscribe_keeps
    all_goals first | exact h | exact hw.mono (by decide)) (fun t h => by
    apply State.postFirst_keeps
    all_goals first | exact h | exact hw.mono (by decide)))

theorem execUnsubscribe_answers (q : Req) (body : List Byte) {wm : Nat} (s : State) (hw : Within 0xc823ad874 wm) :
    Answers wm s (execUnsubscribe q body s) := by
  refine Answers.next (State.request_keeps _ q body (Keeps.refl _ _) (hw.mono (by decide)) (fun t h => by
    apply State.unsubscribe_keeps
    all_goals first | exact h | exact hw.mono (by decide)) (fun t h => h))

theorem execSiltRead_answers (q : Req) (body : List Byte) {wm : Nat} (s : State) (hw : Within 0xc823ad874 wm) :
    Answers wm s (execSiltRead q body s) := by
  refine Answers.next (State.request_keeps _ q body (Keeps.refl _ _) (hw.mono (by decide)) (fun t h => by
    apply State.siltRead_keeps
    all_goals first | exact h | exact hw.mono (by decide)) (fun t h => h))

theorem execSpateRead_answers (q : Req) (body : List Byte) {wm : Nat} (s : State) (hw : Within 0xc823ad874 wm) :
    Answers wm s (execSpateRead q body s) := by
  refine Answers.next (State.request_keeps _ q body (Keeps.refl _ _) (hw.mono (by decide)) (fun t h => by
    apply State.spateRead_keeps
    all_goals first | exact h | exact hw.mono (by decide)) (fun t h => h))

theorem execBattExport_answers (q : Req) (body : List Byte) {wm : Nat} (s : State) (hw : Within 0xc823ad874 wm) :
    Answers wm s (execBattExport q body s) := by
  refine Answers.next (State.request_keeps _ q body (Keeps.refl _ _) (hw.mono (by decide)) (fun t h => by
    apply State.battExport_keeps
    all_goals first | exact h | exact hw.mono (by decide)) (fun t h => h))

theorem execBattRestore_answers (q : Req) (body : List Byte) {wm : Nat} (s : State) (hw : Within 0xc823ad874 wm) :
    Answers wm s (execBattRestore q body s) := by
  refine Answers.next (State.request_keeps _ q body (Keeps.refl _ _) (hw.mono (by decide)) (fun t h => by
    apply State.pushCommit_keeps
    all_goals first | exact h | exact hw.mono (by decide)) (fun t h => h))

theorem execNodeRelay_answers (q : Req) (body : List Byte) {wm : Nat} (s : State) (hw : Within 0xc823ad874 wm) :
    Answers wm s (execNodeRelay q body s) := by
  refine Answers.next (State.request_keeps _ q body (Keeps.refl _ _) (hw.mono (by decide)) (fun t h => by
    apply State.nodeRelay_keeps
    all_goals first | exact h | exact hw.mono (by decide)) (fun t h => h))

theorem execPmbusXfer_answers (q : Req) (body : List Byte) {wm : Nat} (s : State) (hw : Within 0xc823ad874 wm) :
    Answers wm s (execPmbusXfer q body s) := by
  refine Answers.next (State.request_keeps _ q body (Keeps.refl _ _) (hw.mono (by decide)) (fun t h => by
    apply State.pmbusXfer_keeps
    all_goals first | exact h | exact hw.mono (by decide)) (fun t h => h))

theorem execTimeSet_answers (q : Req) (body : List Byte) {wm : Nat} (s : State) (hw : Within 0xc823ad877 wm) :
    Answers wm s (execTimeSet q body s) := by
  refine Answers.next (State.request_keeps _ q body (Keeps.refl _ _) (hw.mono (by decide)) (fun t h => by
    apply State.timeSet_keeps
    all_goals first | exact h | exact hw.mono (by decide)) (fun t h => h))

theorem execKeyLoad_answers (q : Req) (body : List Byte) {wm : Nat} (s : State) (hw : Within 0xc823ad874 wm) :
    Answers wm s (execKeyLoad q body s) := by
  refine Answers.next (State.request_keeps _ q body (Keeps.refl _ _) (hw.mono (by decide)) (fun t h => by
    apply State.pushCommit_keeps
    all_goals first | exact h | exact hw.mono (by decide)) (fun t h => h))

theorem execStateReq_answers (q : Req) (body : List Byte) {wm : Nat} (s : State) (hw : Within 0xedffbdff5 wm) :
    Answers wm s (execStateReq q body s) := by
  refine Answers.next (State.request_keeps _ q body (Keeps.refl _ _) (hw.mono (by decide)) (fun t h => h) (fun t h => by
    apply State.stateChange_keeps
    all_goals first | exact h | exact hw.mono (by decide)))

theorem execFwBegin_answers (q : Req) (body : List Byte) {wm : Nat} (s : State) (hw : Within 0xc827ad874 wm) :
    Answers wm s (execFwBegin q body s) := by
  refine Answers.next (State.request_keeps _ q body (Keeps.refl _ _) (hw.mono (by decide)) (fun t h => by
    apply State.fwBegin_keeps
    all_goals first | exact h | exact hw.mono (by decide)) (fun t h => h))

theorem execFwBlock_answers (q : Req) (body : List Byte) {wm : Nat} (s : State) (hw : Within 0xc827ad874 wm) :
    Answers wm s (execFwBlock q body s) := by
  refine Answers.next (State.request_keeps _ q body (Keeps.refl _ _) (hw.mono (by decide)) (fun t h => by
    apply State.fwBlock_keeps
    all_goals first | exact h | exact hw.mono (by decide)) (fun t h => h))

theorem execFwEnd_answers (q : Req) (body : List Byte) {wm : Nat} (s : State) (hw : Within 0xc827ad874 wm) :
    Answers wm s (execFwEnd q body s) := by
  refine Answers.next (State.request_keeps _ q body (Keeps.refl _ _) (hw.mono (by decide)) (fun t h => by
    apply State.fwEnd_keeps
    all_goals first | exact h | exact hw.mono (by decide)) (fun t h => h))

theorem execFwActivate_answers (q : Req) (body : List Byte) {wm : Nat} (s : State) (hw : Within 0xfdffffbfc wm) :
    Answers wm s (execFwActivate q body s) := by
  refine Answers.next (State.request_keeps _ q body (Keeps.refl _ _) (hw.mono (by decide)) (fun t h => h) (fun t h => by
    apply State.fwActivate_keeps
    all_goals first | exact h | exact hw.mono (by decide)))

theorem execKenebBegin_answers (q : Req) (body : List Byte) {wm : Nat} (s : State) (hw : Within 0xc823ad874 wm) :
    Answers wm s (execKenebBegin q body s) := by
  refine Answers.next (State.request_keeps _ q body (Keeps.refl _ _) (hw.mono (by decide)) (fun t h => by
    apply State.kenebBegin_keeps
    all_goals first | exact h | exact hw.mono (by decide)) (fun t h => h))

theorem execKenebBlock_answers (q : Req) (body : List Byte) {wm : Nat} (s : State) (hw : Within 0xc823ad874 wm) :
    Answers wm s (execKenebBlock q body s) := by
  refine Answers.next (State.request_keeps _ q body (Keeps.refl _ _) (hw.mono (by decide)) (fun t h => by
    apply State.kenebBlock_keeps
    all_goals first | exact h | exact hw.mono (by decide)) (fun t h => h))

theorem execKenebEnd_answers (q : Req) (body : List Byte) {wm : Nat} (s : State) (hw : Within 0xc823ad874 wm) :
    Answers wm s (execKenebEnd q body s) := by
  refine Answers.next (State.request_keeps _ q body (Keeps.refl _ _) (hw.mono (by decide)) (fun t h => by
    apply State.kenebEnd_keeps
    all_goals first | exact h | exact hw.mono (by decide)) (fun t h => h))

theorem execKenebRead_answers (q : Req) (body : List Byte) {wm : Nat} (s : State) (hw : Within 0xc823ad874 wm) :
    Answers wm s (execKenebRead q body s) := by
  refine Answers.next (State.request_keeps _ q body (Keeps.refl _ _) (hw.mono (by decide)) (fun t h => by
    apply State.kenebRead_keeps
    all_goals first | exact h | exact hw.mono (by decide)) (fun t h => h))

theorem execHostRequestTake_answers (entropy : Nat) {wm : Nat} (s : State) (hw : Within 0xfdfffffff wm) :
    Answers wm s (execHostRequestTake entropy s) := by
  unfold execHostRequestTake
  repeat' first
    | (with_reducible first | assumption | exact Keeps.refl _ _ | exact hw | exact hw.mono (by decide))
    | exact fun t h => State.handle_keeps _ _ _ _ h (hw.mono (by decide))
    | exact fun t h => State.after_keeps _ _ _ h (hw.mono (by decide)) | intro _
    | ((fail_if_no_progress extract_lets +onlyGivenNames x); refine Keeps.cut (w := wm) (s := s) (v := x) ?_ ?_)
    | ((fail_if_no_progress extract_lets +onlyGivenNames x); clear_value x) | fail_if_no_progress extract_lets +onlyGivenNames x
    | (with_reducible first | apply Answers.next | apply Answers.ite | apply State.after_keeps | apply State.handle_keeps)
    | (with_reducible first | apply State.modHost_keeps | apply State.refuse_keeps | apply State.serve_keeps)
    | (with_reducible first | apply State.sluiceStall_keeps | apply State.sluiceWork_keeps | apply State.stamp_keeps)
    | with_reducible apply Keeps.ite | dsimp -zeta only [x] | split

theorem State.ethRequest_keeps {wm : Nat} {s0 s : State} (e : Fin 2) (ep : Endpoint) (data : List Byte) (h : Keeps wm s0 s) (hw : Within 0x802000050 wm) :
    Keeps wm s0 (State.ethRequest s e ep data) := by
  unfold State.ethRequest
  repeat' first
    | (with_reducible first | assumption | exact hw | exact hw.mono (by decide)) | intro _
    | ((fail_if_no_progress extract_lets +onlyGivenNames x); have _ : _ → _ → State := x)
    | ((fail_if_no_progress extract_lets +onlyGivenNames x); clear_value x) | fail_if_no_progress extract_lets +onlyGivenNames x
    | (with_reducible first | apply State.doorbell_keeps | apply State.fromNew_keeps | apply State.mbPush_keeps)
    | (with_reducible first | apply State.refuseFrom_keeps | apply Keeps.ite | apply Keeps.foldl | apply Keeps.foldlSnd)
    | with_reducible apply Keeps.foldlFst | dsimp -zeta only [x] | split

theorem execHostEthFrame_answers (e : Fin 2) (f : EthFrame) {wm : Nat} (s : State) (hw : Within 0x802000050 wm) :
    Answers wm s (execHostEthFrame e f s) := by
  unfold execHostEthFrame
  repeat' first
    | (with_reducible first | assumption | exact Keeps.refl _ _ | exact hw | exact hw.mono (by decide)) | intro _
    | fail_if_no_progress extract_lets +onlyGivenNames x
    | (with_reducible first | apply Answers.next | apply Answers.ite | apply State.countRefused_keeps)
    | (with_reducible first | apply State.ethAnswer_keeps | apply State.ethReg_keeps | apply State.ethRequest_keeps)
    | with_reducible apply Keeps.ite | dsimp -zeta only [x] | split

end Sys2Proof.Machine
end

