-- ==== Sys2Proof/Laws/KeepsH.lean ====
section
/-! SUPPORT. What the operations keep (see Keeps.lean), one lemma each: those of Supply.lean, Boot.lean, Peer.lean, Period.lean, Phase.lean. -/

set_option linter.tactic.unusedName false
set_option linter.unreachableTactic false
set_option linter.unusedTactic false

namespace Sys2Proof.Machine

theorem State.modPower_keeps {wm : Nat} {s0 s : State} (f : Power → Power) (h : Keeps wm s0 s) (hw : Within 0x20000000 wm) :
    Keeps wm s0 (State.modPower s f) := by
  unfold State.modPower
  repeat' first
    | (with_reducible first | assumption | exact hw | exact hw.mono (by decide)) | intro _
    | fail_if_no_progress extract_lets +onlyGivenNames x | with_reducible apply Keeps.ite | dsimp -zeta only [x]
    | (fail_if_no_progress ((with_reducible apply Keeps.upd); on_goal 2 => exact fun p hp => by cases p <;> first | with_reducible exact rfl | exact hw.no rfl hp))

theorem State.modSup_keeps {wm : Nat} {s0 s : State} (i : Fin 10) (f : Supply → Supply) (h : Keeps wm s0 s) (hw : Within 0x20000000 wm) :
    Keeps wm s0 (State.modSup s i f) := by
  unfold State.modSup
  repeat' first
    | (with_reducible first | assumption | exact hw | exact hw.mono (by decide)) | intro _
    | fail_if_no_progress extract_lets +onlyGivenNames x | with_reducible apply State.modPower_keeps

theorem State.supplyNotice_keeps {wm : Nat} {s0 s : State} (level : Nat) (h : Keeps wm s0 s) (hw : Within 0x802000000 wm) :
    Keeps wm s0 (State.supplyNotice s level) := by
  unfold State.supplyNotice
  repeat' first
    | (with_reducible first | assumption | exact hw | exact hw.mono (by decide)) | intro _
    | fail_if_no_progress extract_lets +onlyGivenNames x | with_reducible apply State.noticeAll_keeps

theorem State.brownBegin_keeps {wm : Nat} {s0 s : State} (i : Fin 10) (h : Keeps wm s0 s) (hw : Within 0x863811040 wm) :
    Keeps wm s0 (State.brownBegin s i) := by
  unfold State.brownBegin
  repeat' first
    | (with_reducible first | assumption | exact hw | exact hw.mono (by decide)) | intro _
    | ((fail_if_no_progress extract_lets +onlyGivenNames x); refine Keeps.cut (w := wm) (s := s0) (v := x) ?_ ?_)
    | ((fail_if_no_progress extract_lets +onlyGivenNames x); clear_value x) | fail_if_no_progress extract_lets +onlyGivenNames x
    | (with_reducible first | apply State.energyCopy_keeps | apply State.faultScan_keeps | apply State.headRecord_keeps)
    | (with_reducible first | apply State.ledgerNeed_keeps | apply State.modPower_keeps | apply State.modSilt_keeps)
    | (with_reducible first | apply State.modSpring_keeps | apply State.retWrite_keeps | apply State.supplyNotice_keeps)

theorem State.brownStart_keeps {wm : Nat} {s0 s : State} (h : Keeps wm s0 s) (hw : Within 0x863811040 wm) :
    Keeps wm s0 (State.brownStart s) := by
  unfold State.brownStart
  repeat' first
    | (with_reducible first | assumption | exact hw | exact hw.mono (by decide)) | intro _
    | ((fail_if_no_progress extract_lets +onlyGivenNames x); refine Keeps.cut (w := wm) (s := s0) (v := x) ?_ ?_)
    | ((fail_if_no_progress extract_lets +onlyGivenNames x); clear_value x) | fail_if_no_progress extract_lets +onlyGivenNames x
    | (with_reducible first | apply State.brownBegin_keeps | apply State.modPower_keeps | apply Keeps.ite | apply Keeps.foldl)
    | (with_reducible first | apply Keeps.foldlSnd | apply Keeps.foldlFst) | dsimp -zeta only [x] | split

theorem execBrownWarnAssert_answers (i : Fin 10) {wm : Nat} (s : State) (hw : Within 0x863811040 wm) :
    Answers wm s (execBrownWarnAssert i s) := by
  unfold execBrownWarnAssert
  repeat' first
    | (with_reducible first | assumption | exact Keeps.refl _ _ | exact hw | exact hw.mono (by decide)) | intro _
    | ((fail_if_no_progress extract_lets +onlyGivenNames x); refine Keeps.cut (w := wm) (s := s) (v := x) ?_ ?_)
    | ((fail_if_no_progress extract_lets +onlyGivenNames x); have _ : _ → State := x) | fail_if_no_progress extract_lets +onlyGivenNames x
    | (with_reducible first | apply Answers.next | apply Answers.ite | apply State.brownBegin_keeps)
    | (with_reducible first | apply State.modPower_keeps | apply State.modSup_keeps | apply Keeps.ite) | dsimp -zeta only [x] | split

theorem execBrownResumeStart_answers {wm : Nat} (s : State) (hw : Within 0x20000000 wm) :
    Answers wm s (execBrownResumeStart s) := by
  unfold execBrownResumeStart
  repeat' first
    | (with_reducible first | assumption | exact Keeps.refl _ _ | exact hw | exact hw.mono (by decide)) | intro _
    | fail_if_no_progress extract_lets +onlyGivenNames x
    | (with_reducible first | apply Answers.next | apply Answers.ite | apply State.modPower_keeps)

theorem State.brownRecord_keeps {wm : Nat} {s0 s : State} (us : Nat) (h : Keeps wm s0 s) (hw : Within 0x800000 wm) :
    Keeps wm s0 (State.brownRecord s us) := by
  unfold State.brownRecord
  repeat' first
    | (with_reducible first | assumption | exact hw | exact hw.mono (by decide)) | intro _
    | ((fail_if_no_progress extract_lets +onlyGivenNames x); clear_value x) | fail_if_no_progress extract_lets +onlyGivenNames x
    | with_reducible apply State.modSilt_keeps

theorem State.fwOwed_keeps {wm : Nat} {s0 s : State} (h : Keeps wm s0 s) (hw : Within 0x882400000 wm) :
    Keeps wm s0 (State.fwOwed s) := by
  unfold State.fwOwed
  repeat' first
    | (with_reducible first | assumption | exact hw | exact hw.mono (by decide)) | intro _
    | fail_if_no_progress extract_lets +onlyGivenNames x
    | (with_reducible first | apply State.answer_keeps | apply State.fwStore_keeps | apply State.modFirm_keeps)
    | with_reducible apply Keeps.ite | exact Nat.le_refl _ | exact Nat.le_max_left _ _ | dsimp -zeta only [x] | split

theorem execBrownWarnRelease_answers {wm : Nat} (s : State) (hw : Within 0x8e2c01040 wm) :
    Answers wm s (execBrownWarnRelease s) := by
  unfold execBrownWarnRelease
  repeat' first
    | (with_reducible first | assumption | exact Keeps.refl _ _ | exact hw | exact hw.mono (by decide)) | intro _
    | ((fail_if_no_progress extract_lets +onlyGivenNames x); refine Keeps.cut (w := wm) (s := s) (v := x) ?_ ?_)
    | ((fail_if_no_progress extract_lets +onlyGivenNames x); clear_value x) | fail_if_no_progress extract_lets +onlyGivenNames x
    | (with_reducible first | apply Answers.next | apply Answers.ite | apply State.brownRecord_keeps)
    | (with_reducible first | apply State.faultScan_keeps | apply State.fwOwed_keeps | apply State.modPower_keeps)
    | (with_reducible first | apply State.modSilt_keeps | apply State.modSpring_keeps | apply State.retWrite_keeps)
    | (with_reducible first | apply State.supplyNotice_keeps | apply Keeps.ite)

theorem State.minSample_keeps {wm : Nat} {s0 s : State} (v : Vector Int 10) (i : Fin 10) (h : Keeps wm s0 s) (hw : Within 0x20000000 wm) :
    Keeps wm s0 (State.minSample s v i) := by
  unfold State.minSample
  repeat' first
    | (with_reducible first | assumption | exact hw | exact hw.mono (by decide)) | intro _
    | ((fail_if_no_progress extract_lets +onlyGivenNames x); refine Keeps.cut (w := wm) (s := s0) (v := x) ?_ ?_)
    | ((fail_if_no_progress extract_lets +onlyGivenNames x); clear_value x) | fail_if_no_progress extract_lets +onlyGivenNames x
    | (with_reducible first | apply State.modPower_keeps | apply State.modSup_keeps | apply Keeps.ite)

theorem State.stemSupply_keeps {wm : Nat} {s0 s : State} (v : Vector Int 10) (k : Fin 2) (h : Keeps wm s0 s) (hw : Within 0x4000000 wm) :
    Keeps wm s0 (State.stemSupply s v k) := by
  unfold State.stemSupply
  repeat' first
    | (with_reducible first | assumption | exact hw | exact hw.mono (by decide)) | intro _
    | fail_if_no_progress extract_lets +onlyGivenNames x
    | (with_reducible first | apply State.modStem_keeps | apply State.stemRelease_keeps | apply Keeps.ite)

theorem execSupplyMinSample_answers (v : Vector Int 10) {wm : Nat} (s : State) (hw : Within 0x24000000 wm) :
    Answers wm s (execSupplyMinSample v s) := by
  unfold execSupplyMinSample
  repeat' first
    | (with_reducible first | assumption | exact Keeps.refl _ _ | exact hw | exact hw.mono (by decide)) | intro _
    | fail_if_no_progress extract_lets +onlyGivenNames x
    | (with_reducible first | apply Answers.next | apply Answers.ite | apply State.minSample_keeps)
    | (with_reducible first | apply State.stemSupply_keeps | apply Keeps.ite | apply Keeps.foldl)

theorem State.brownReset_keeps {wm : Nat} {s0 s : State} (i : Fin 10) (h : Keeps wm s0 s) (hw : Within 0xfffffffff wm) :
    Keeps wm s0 (State.brownReset s i) := by
  unfold State.brownReset
  repeat' first
    | (with_reducible first | assumption | exact hw | exact hw.mono (by decide)) | intro _
    | ((fail_if_no_progress extract_lets +onlyGivenNames x); refine Keeps.cut (w := wm) (s := s0) (v := x) ?_ ?_)
    | fail_if_no_progress extract_lets +onlyGivenNames x
    | (with_reducible first | apply State.dieDown_keeps | apply State.fullReset_keeps | apply State.modSpring_keeps)
    | (with_reducible first | apply Keeps.ite | apply Keeps.foldl)

theorem execBrownOut_answers (i : Fin 10) {wm : Nat} (s : State) (hw : Within 0xfffffffff wm) :
    Answers wm s (execBrownOut i s) := by
  unfold execBrownOut
  repeat' first
    | (with_reducible first | assumption | exact Keeps.refl _ _ | exact hw | exact hw.mono (by decide)) | intro _
    | fail_if_no_progress extract_lets +onlyGivenNames x
    | (with_reducible first | apply Answers.next | apply Answers.ite | apply State.brownReset_keeps | apply Keeps.ite)

theorem execStemSupplyLow_answers (k : Fin 2) {wm : Nat} (s : State) (hw : Within 0xfffffffff wm) :
    Answers wm s (execStemSupplyLow k s) := by
  unfold execStemSupplyLow
  repeat' first
    | (with_reducible first | assumption | exact Keeps.refl _ _ | exact hw | exact hw.mono (by decide)) | intro _
    | ((fail_if_no_progress extract_lets +onlyGivenNames x); refine Keeps.cut (w := wm) (s := s) (v := x) ?_ ?_)
    | fail_if_no_progress extract_lets +onlyGivenNames x
    | (with_reducible first | apply Answers.next | apply Answers.ite | apply State.brownReset_keeps)
    | (with_reducible first | apply State.faultScan_keeps | apply State.modStem_keeps | apply State.stemFail_keeps)
    | with_reducible apply Keeps.ite

theorem execVcorePLow_answers {wm : Nat} (s : State) (hw : Within 0x4000011c0 wm) :
    Answers wm s (execVcorePLow s) := by
  unfold execVcorePLow
  repeat' first
    | (with_reducible first | assumption | exact Keeps.refl _ _ | exact hw | exact hw.mono (by decide)) | exact fun _ h => h
    | exact fun _ h => armed_not_safe h | exact fun _ h => run_not_safe h | intro _ | fail_if_no_progress extract_lets +onlyGivenNames x
    | (with_reducible first | apply Answers.next | apply Answers.ite | apply State.dieDown_keeps | apply State.faultScan_keeps)
    | (with_reducible first | apply State.modDie_keeps | apply Keeps.ite | apply Keeps.foldl)

theorem State.dieRecover_keeps {wm : Nat} {s0 s : State} (d : Fin 4) (h : Keeps wm s0 s) (hw : Within 0xc0 wm) :
    Keeps wm s0 (State.dieRecover s d) := by
  unfold State.dieRecover
  repeat' first
    | (with_reducible first | assumption | exact hw | exact hw.mono (by decide)) | exact fun _ h => h | exact fun _ h => armed_not_safe h
    | exact fun _ h => run_not_safe h | intro _ | fail_if_no_progress extract_lets +onlyGivenNames x
    | (with_reducible first | apply State.lowRecord_keeps | apply State.modDie_keeps | apply Keeps.ite)

theorem execVcorePRecover_answers {wm : Nat} (s : State) (hw : Within 0xc0 wm) :
    Answers wm s (execVcorePRecover s) := by
  unfold execVcorePRecover
  repeat' first
    | (with_reducible first | assumption | exact Keeps.refl _ _ | exact hw | exact hw.mono (by decide)) | intro _
    | fail_if_no_progress extract_lets +onlyGivenNames x
    | (with_reducible first | apply Answers.next | apply Answers.ite | apply State.dieRecover_keeps | apply Keeps.ite)
    | with_reducible apply Keeps.foldl

theorem execVbatLow_answers (mv : Nat) {wm : Nat} (s : State) (hw : Within 0x20000000 wm) :
    Answers wm s (execVbatLow mv s) := by
  unfold execVbatLow
  repeat' first
    | (with_reducible first | assumption | exact Keeps.refl _ _ | exact hw | exact hw.mono (by decide)) | intro _
    | ((fail_if_no_progress extract_lets +onlyGivenNames x); clear_value x) | fail_if_no_progress extract_lets +onlyGivenNames x
    | (with_reducible first | apply Answers.next | apply Answers.ite | apply State.modPower_keeps)

theorem execColdPor_answers {wm : Nat} (s : State) (hw : Within 0xfffffffff wm) :
    Answers wm s (execColdPor s) := by
  unfold execColdPor
  repeat' first
    | (with_reducible first | assumption | exact Keeps.refl _ _ | exact hw | exact hw.mono (by decide))
    | (exact fun p hp => by cases p <;> first | with_reducible exact rfl | exact hw.no rfl hp) | intro _
    | ((fail_if_no_progress extract_lets +onlyGivenNames x); refine Keeps.cut (w := wm) (s := s) (v := x) ?_ ?_)
    | fail_if_no_progress extract_lets +onlyGivenNames x
    | (with_reducible first | apply Answers.next | apply Answers.ite | apply State.fullReset_keeps | apply Keeps.ite)
    | with_reducible apply Keeps.updClk | rfl

theorem execMainPor_answers {wm : Nat} (s : State) (hw : Within 0xfffffffff wm) :
    Answers wm s (execMainPor s) := by
  unfold execMainPor
  repeat' first
    | (with_reducible first | assumption | exact Keeps.refl _ _ | exact hw | exact hw.mono (by decide)) | intro _
    | fail_if_no_progress extract_lets +onlyGivenNames x
    | (with_reducible first | apply Answers.next | apply Answers.ite | apply State.fullReset_keeps | apply Keeps.ite)

theorem State.latchClear_keeps {wm : Nat} {s0 s : State} (d : Fin 8) (h : Keeps wm s0 s) (hw : Within 0x8800040 wm) :
    Keeps wm s0 (State.latchClear s d) := by
  unfold State.latchClear
  repeat' first
    | (with_reducible first | assumption | exact hw | exact hw.mono (by decide)) | intro _
    | fail_if_no_progress extract_lets +onlyGivenNames x
    | (with_reducible first | apply State.ledgerNeed_keeps | apply State.log_keeps | apply State.modTd_keeps | apply Keeps.ite)

theorem execNrst_answers (long : Bool) {wm : Nat} (s : State) (hw : Within 0xfffffffff wm) :
    Answers wm s (execNrst long s) := by
  unfold execNrst
  repeat' first
    | (with_reducible first | assumption | exact Keeps.refl _ _ | exact hw | exact hw.mono (by decide)) | intro _
    | ((fail_if_no_progress extract_lets +onlyGivenNames x); refine Keeps.cut (w := wm) (s := s) (v := x) ?_ ?_)
    | fail_if_no_progress extract_lets +onlyGivenNames x
    | (with_reducible first | apply Answers.next | apply Answers.ite | apply State.fullReset_keeps)
    | (with_reducible first | apply State.latchClear_keeps | apply State.ledgerWrite_keeps | apply Keeps.ite)
    | with_reducible apply Keeps.foldl

theorem State.wake_keeps {wm : Nat} {s0 s : State} (cause : Nat) (h : Keeps wm s0 s) (hw : Within 0xfffffffff wm) :
    Keeps wm s0 (State.wake s cause) := by
  unfold State.wake
  repeat' first
    | (with_reducible first | assumption | exact hw | exact hw.mono (by decide)) | intro _
    | fail_if_no_progress extract_lets +onlyGivenNames x
    | (with_reducible first | apply State.fullReset_keeps | apply State.modSpring_keeps)

theorem execDormantWake_answers (cause : Nat) (early : Bool) {wm : Nat} (s : State) (hw : Within 0xfffffffff wm) :
    Answers wm s (execDormantWake cause early s) := by
  unfold execDormantWake
  repeat' first
    | (with_reducible first | assumption | exact Keeps.refl _ _ | exact hw | exact hw.mono (by decide)) | intro _
    | fail_if_no_progress extract_lets +onlyGivenNames x
    | (with_reducible first | apply Answers.next | apply Answers.ite | apply State.modSpring_keeps | apply State.wake_keeps)
    | with_reducible apply Keeps.ite

theorem execLatchedWakeMainEnHigh_answers {wm : Nat} (s : State) (hw : Within 0xfffffffff wm) :
    Answers wm s (execLatchedWakeMainEnHigh s) := by
  unfold execLatchedWakeMainEnHigh
  repeat' first
    | (with_reducible first | assumption | exact Keeps.refl _ _ | exact hw | exact hw.mono (by decide)) | intro _
    | fail_if_no_progress extract_lets +onlyGivenNames x
    | (with_reducible first | apply Answers.next | apply Answers.ite | apply State.wake_keeps | apply Keeps.ite) | dsimp -zeta only [x]
    | split

theorem execWakeTimeout_answers {wm : Nat} (s : State) (hw : Within 0x240000000 wm) :
    Answers wm s (execWakeTimeout s) := by
  unfold execWakeTimeout
  repeat' first
    | (with_reducible first | assumption | exact Keeps.refl _ _ | exact hw | exact hw.mono (by decide)) | intro _
    | fail_if_no_progress extract_lets +onlyGivenNames x
    | (with_reducible first | apply Answers.next | apply Answers.ite | apply State.modDev_keeps | apply State.modSpring_keeps)
    | with_reducible apply Keeps.ite

theorem State.resumeTime_keeps {wm : Nat} {s0 s : State} (h : Keeps wm s0 s) (hw : Within 0x43 wm) :
    Keeps wm s0 (State.resumeTime s) := by
  unfold State.resumeTime
  repeat' first
    | (with_reducible first | assumption | exact hw | exact hw.mono (by decide))
    | (exact fun p hp => by cases p <;> first | with_reducible exact rfl | exact hw.no rfl hp) | intro _
    | fail_if_no_progress extract_lets +onlyGivenNames x
    | (with_reducible first | apply State.log_keeps | apply Keeps.ite | apply Keeps.updClk) | rfl | exact h.tick

theorem State.siltFound_keeps {wm : Nat} {s0 s : State} (oldest : Nat) (next : Nat) (h : Keeps wm s0 s) (hw : Within 0x800000 wm) :
    Keeps wm s0 (State.siltFound s oldest next) := by
  unfold State.siltFound
  repeat' first
    | (with_reducible first | assumption | exact hw | exact hw.mono (by decide)) | intro _
    | ((fail_if_no_progress extract_lets +onlyGivenNames x); clear_value x) | fail_if_no_progress extract_lets +onlyGivenNames x
    | with_reducible apply State.modSilt_keeps

theorem State.ledgerFrom_keeps {wm : Nat} {s0 s : State} (b : Bool) (bs : List Byte) (h : Keeps wm s0 s) (hw : Within 0x8a910000 wm) :
    Keeps wm s0 (State.ledgerFrom s b bs) := by
  unfold State.ledgerFrom
  repeat' first
    | (with_reducible first | assumption | exact hw | exact hw.mono (by decide)) | intro _
    | ((fail_if_no_progress extract_lets +onlyGivenNames x); refine Keeps.cut (w := wm) (s := s0) (v := x) ?_ ?_)
    | ((fail_if_no_progress extract_lets +onlyGivenNames x); clear_value x) | fail_if_no_progress extract_lets +onlyGivenNames x
    | (with_reducible first | apply State.modFirm_keeps | apply State.modSilt_keeps | apply State.siltFound_keeps)
    | with_reducible apply Keeps.ite | exact Nat.le_refl _ | exact Nat.le_max_left _ _ | dsimp -zeta only [x] | split | dsimp -zeta only
    | (fail_if_no_progress ((with_reducible apply Keeps.upd); on_goal 2 => exact fun p hp => by cases p <;> first | with_reducible exact rfl | exact hw.no rfl hp))

theorem State.ledgerRebuild_keeps {wm : Nat} {s0 s : State} (h : Keeps wm s0 s) (hw : Within 0x910000 wm) :
    Keeps wm s0 (State.ledgerRebuild s) := by
  unfold State.ledgerRebuild
  repeat' first
    | (with_reducible first | assumption | exact hw | exact hw.mono (by decide)) | intro _
    | ((fail_if_no_progress extract_lets +onlyGivenNames x); refine Keeps.cut (w := wm) (s := s0) (v := x) ?_ ?_)
    | ((fail_if_no_progress extract_lets +onlyGivenNames x); clear_value x) | fail_if_no_progress extract_lets +onlyGivenNames x
    | (with_reducible first | apply State.modSilt_keeps | apply Keeps.ite) | dsimp -zeta only [x] | split | dsimp -zeta only
    | (fail_if_no_progress ((with_reducible apply Keeps.upd); on_goal 2 => exact fun p hp => by cases p <;> first | with_reducible exact rfl | exact hw.no rfl hp))

theorem State.ledgerLoad_keeps {wm : Nat} {s0 s : State} (h : Keeps wm s0 s) (hw : Within 0x8a910000 wm) :
    Keeps wm s0 (State.ledgerLoad s) := by
  unfold State.ledgerLoad
  repeat' first
    | (with_reducible first | assumption | exact hw | exact hw.mono (by decide)) | intro _
    | fail_if_no_progress extract_lets +onlyGivenNames x
    | (with_reducible first | apply State.ledgerFrom_keeps | apply State.ledgerRebuild_keeps | apply State.modSilt_keeps)
    | with_reducible apply Keeps.ite | dsimp -zeta only [x] | split

theorem State.ledgerStart_keeps {wm : Nat} {s0 s : State} (h : Keeps wm s0 s) (hw : Within 0x40 wm) :
    Keeps wm s0 (State.ledgerStart s) := by
  unfold State.ledgerStart
  repeat' first
    | (with_reducible first | assumption | exact hw | exact hw.mono (by decide)) | intro _
    | ((fail_if_no_progress extract_lets +onlyGivenNames x); refine Keeps.cut (w := wm) (s := s0) (v := x) ?_ ?_)
    | ((fail_if_no_progress extract_lets +onlyGivenNames x); clear_value x) | fail_if_no_progress extract_lets +onlyGivenNames x
    | (with_reducible first | apply State.log_keeps | apply Keeps.ite) | dsimp -zeta only [x] | split

theorem State.retentionStart_keeps {wm : Nat} {s0 s : State} (h : Keeps wm s0 s) (hw : Within 0x60000060 wm) :
    Keeps wm s0 (State.retentionStart s) := by
  unfold State.retentionStart
  repeat' first
    | (with_reducible first | assumption | exact hw | exact hw.mono (by decide)) | intro _
    | ((fail_if_no_progress extract_lets +onlyGivenNames x); refine Keeps.cut (w := wm) (s := s0) (v := x) ?_ ?_)
    | fail_if_no_progress extract_lets +onlyGivenNames x
    | (with_reducible first | apply State.log_keeps | apply State.modPower_keeps | apply State.modSpring_keeps)
    | with_reducible apply Keeps.ite | dsimp -zeta only [x] | split | dsimp -zeta only
    | (fail_if_no_progress ((with_reducible apply Keeps.upd); on_goal 2 => exact fun p hp => by cases p <;> first | with_reducible exact rfl | exact hw.no rfl hp))

theorem State.cursorsStart_keeps {wm : Nat} {s0 s : State} (h : Keeps wm s0 s) (hw : Within 0x2000000 wm) :
    Keeps wm s0 (State.cursorsStart s) := by
  unfold State.cursorsStart
  repeat' first
    | (with_reducible first | assumption | exact hw | exact hw.mono (by decide)) | intro _
    | fail_if_no_progress extract_lets +onlyGivenNames x | with_reducible apply State.modHost_keeps

theorem execDevResetRelease_answers {wm : Nat} (s : State) (hw : Within 0xaefd110e3 wm) :
    Answers wm s (execDevResetRelease s) := by
  unfold execDevResetRelease
  repeat' first
    | (with_reducible first | assumption | exact Keeps.refl _ _ | exact hw | exact hw.mono (by decide)) | intro _
    | ((fail_if_no_progress extract_lets +onlyGivenNames x); refine Keeps.cut (w := wm) (s := s) (v := x) ?_ ?_)
    | fail_if_no_progress extract_lets +onlyGivenNames x
    | (with_reducible first | apply Answers.next | apply Answers.ite | apply State.brownStart_keeps)
    | (with_reducible first | apply State.cursorsStart_keeps | apply State.hotHold_keeps | apply State.ledgerLoad_keeps)
    | (with_reducible first | apply State.ledgerStart_keeps | apply State.modDev_keeps | apply State.resumeTime_keeps)
    | (with_reducible first | apply State.retentionStart_keeps | apply State.startStems_keeps | apply Keeps.ite)

theorem State.imgLoad_keeps {wm : Nat} {s0 s : State} (h : Keeps wm s0 s) (hw : Within 0x82800048 wm) :
    Keeps wm s0 (State.imgLoad s) := by
  unfold State.imgLoad
  repeat' first
    | (with_reducible first | assumption | exact hw | exact hw.mono (by decide)) | intro _
    | ((fail_if_no_progress extract_lets +onlyGivenNames x); refine Keeps.cut (w := wm) (s := s0) (v := x) ?_ ?_)
    | ((fail_if_no_progress extract_lets +onlyGivenNames x); clear_value x) | fail_if_no_progress extract_lets +onlyGivenNames x
    | (with_reducible first | apply State.ledgerNeed_keeps | apply State.log_keeps | apply State.modFirm_keeps)
    | (with_reducible first | apply State.modHost_keeps | apply Keeps.ite) | exact Nat.le_refl _ | exact Nat.le_max_left _ _
    | dsimp -zeta only [x] | split | dsimp -zeta only
    | (fail_if_no_progress ((with_reducible apply Keeps.upd); on_goal 2 => exact fun p hp => by cases p <;> first | with_reducible exact rfl | exact hw.no rfl hp))

theorem State.timerBoot_keeps {wm : Nat} {s0 s : State} (t : Fin 32) (h : Keeps wm s0 s) (hw : Within 0x10000000 wm) :
    Keeps wm s0 (State.timerBoot s t) := by
  unfold State.timerBoot
  repeat' first
    | (with_reducible first | assumption | exact hw | exact hw.mono (by decide)) | intro _
    | ((fail_if_no_progress extract_lets +onlyGivenNames x); refine Keeps.cut (w := wm) (s := s0) (v := x) ?_ ?_)
    | ((fail_if_no_progress extract_lets +onlyGivenNames x); clear_value x) | fail_if_no_progress extract_lets +onlyGivenNames x
    | (with_reducible first | apply State.timerWrite_keeps | apply Keeps.ite | apply Keeps.foldl)

theorem State.battBoot_keeps {wm : Nat} {s0 s : State} (b : Fin 8) (h : Keeps wm s0 s) (hw : Within 0x40000 wm) :
    Keeps wm s0 (State.battBoot s b) := by
  unfold State.battBoot
  repeat' first
    | (with_reducible first | assumption | exact hw | exact hw.mono (by decide)) | intro _
    | ((fail_if_no_progress extract_lets +onlyGivenNames x); clear_value x) | fail_if_no_progress extract_lets +onlyGivenNames x
    | (with_reducible first | apply State.battStart_keeps | apply Keeps.ite) | dsimp -zeta only [x]
    | (fail_if_no_progress ((with_reducible apply Keeps.upd); on_goal 2 => exact fun p hp => by cases p <;> first | with_reducible exact rfl | exact hw.no rfl hp))

theorem State.offsetsBoot_keeps {wm : Nat} {s0 s : State} (h : Keeps wm s0 s) (hw : Within 0x8000000 wm) :
    Keeps wm s0 (State.offsetsBoot s) := by
  unfold State.offsetsBoot
  repeat' first
    | (with_reducible first | assumption | exact hw | exact hw.mono (by decide)) | intro _
    | fail_if_no_progress extract_lets +onlyGivenNames x | (with_reducible first | apply State.modTherm_keeps | apply Keeps.ite)

theorem State.trialBegin_keeps {wm : Nat} {s0 s : State} (h : Keeps wm s0 s) (hw : Within 0x80800000 wm) :
    Keeps wm s0 (State.trialBegin s) := by
  unfold State.trialBegin
  repeat' first
    | (with_reducible first | assumption | exact hw | exact hw.mono (by decide)) | intro _
    | fail_if_no_progress extract_lets +onlyGivenNames x
    | (with_reducible first | apply State.ledgerNeed_keeps | apply State.modFirm_keeps | apply Keeps.ite) | exact Nat.le_refl _

theorem State.faultFree_keeps {wm : Nat} {s0 s : State} (h : Keeps wm s0 s) (hw : Within 0x1040 wm) :
    Keeps wm s0 (State.faultFree s) := by
  unfold State.faultFree
  repeat' first
    | (with_reducible first | assumption | exact hw | exact hw.mono (by decide)) | intro _
    | ((fail_if_no_progress extract_lets +onlyGivenNames x); clear_value x) | fail_if_no_progress extract_lets +onlyGivenNames x
    | (with_reducible first | apply State.faultScan_keeps | apply Keeps.ite) | dsimp -zeta only [x]
    | (fail_if_no_progress ((with_reducible apply Keeps.upd); on_goal 2 => exact fun p hp => by cases p <;> first | with_reducible exact rfl | exact hw.no rfl hp))

theorem State.chainBoot_keeps {wm : Nat} {s0 s : State} (head : Bool) (h : Keeps wm s0 s) (hw : Within 0x100000040 wm) :
    Keeps wm s0 (State.chainBoot s head) := by
  unfold State.chainBoot
  repeat' first
    | (with_reducible first | assumption | exact hw | exact hw.mono (by decide)) | intro _
    | ((fail_if_no_progress extract_lets +onlyGivenNames x); refine Keeps.cut (w := wm) (s := s0) (v := x) ?_ ?_)
    | ((fail_if_no_progress extract_lets +onlyGivenNames x); clear_value x) | fail_if_no_progress extract_lets +onlyGivenNames x
    | (with_reducible first | apply State.log_keeps | apply Keeps.ite) | dsimp -zeta only [x]
    | (fail_if_no_progress ((with_reducible apply Keeps.upd); on_goal 2 => exact fun p hp => by cases p <;> first | with_reducible exact rfl | exact hw.no rfl hp))

theorem State.stateBoot_keeps {wm : Nat} {s0 s : State} (h : Keeps wm s0 s) (hw : Within 0xe09991fc0 wm) :
    Keeps wm s0 (State.stateBoot s) := by
  unfold State.stateBoot
  repeat' first
    | (with_reducible first | assumption | exact hw | exact hw.mono (by decide)) | intro _
    | fail_if_no_progress extract_lets +onlyGivenNames x
    | (with_reducible first | apply State.modDev_keeps | apply State.quietDown_keeps | apply State.runEntry_keeps)
    | (with_reducible first | apply State.stateTo_keeps | apply Keeps.ite)

theorem execKenebImageApply_answers (head : Bool) {wm : Nat} (s : State) (hw : Within 0xf9b9d1fd8 wm) :
    Answers wm s (execKenebImageApply head s) := by
  unfold execKenebImageApply
  repeat' first
    | (with_reducible first | assumption | exact Keeps.refl _ _ | exact hw | exact hw.mono (by decide)) | exact fun _ h => h
    | exact fun _ h => armed_not_safe h | exact fun _ h => run_not_safe h | intro _
    | ((fail_if_no_progress extract_lets +onlyGivenNames x); refine Keeps.cut (w := wm) (s := s) (v := x) ?_ ?_)
    | fail_if_no_progress extract_lets +onlyGivenNames x
    | (with_reducible first | apply Answers.next | apply Answers.ite | apply State.bankSendSet_keeps)
    | (with_reducible first | apply State.battBoot_keeps | apply State.chainBoot_keeps | apply State.faultFree_keeps)
    | (with_reducible first | apply State.imgLoad_keeps | apply State.modDev_keeps | apply State.modDie_keeps)
    | (with_reducible first | apply State.offsetsBoot_keeps | apply State.spateApply_keeps | apply State.stamp_keeps)
    | (with_reducible first | apply State.stateBoot_keeps | apply State.timerBoot_keeps | apply State.trialBegin_keeps)
    | (with_reducible first | apply Keeps.ite | apply Keeps.foldl)

theorem execLoopAutostart_answers (l : Fin 16) {wm : Nat} (s : State) (hw : Within 0xe080018d0 wm) :
    Answers wm s (execLoopAutostart l s) := by
  unfold execLoopAutostart
  repeat' first
    | (with_reducible first | assumption | exact Keeps.refl _ _ | exact hw | exact hw.mono (by decide)) | intro _
    | fail_if_no_progress extract_lets +onlyGivenNames x
    | (with_reducible first | apply Answers.next | apply Answers.ite | apply State.loopStart_keeps | apply State.stamp_keeps)
    | with_reducible apply Keeps.ite

theorem execRetentionWrite_answers {wm : Nat} (s : State) (hw : Within 0x40000000 wm) :
    Answers wm s (execRetentionWrite s) := by
  unfold execRetentionWrite
  repeat' first
    | (with_reducible first | assumption | exact Keeps.refl _ _ | exact hw | exact hw.mono (by decide)) | intro _
    | fail_if_no_progress extract_lets +onlyGivenNames x
    | (with_reducible first | apply Answers.next | apply Answers.ite | apply State.retWrite_keeps | apply Keeps.ite)

theorem execFwTrialConfirm_answers {wm : Nat} (s : State) (hw : Within 0x80800040 wm) :
    Answers wm s (execFwTrialConfirm s) := by
  unfold execFwTrialConfirm
  repeat' first
    | (with_reducible first | assumption | exact Keeps.refl _ _ | exact hw | exact hw.mono (by decide)) | intro _
    | fail_if_no_progress extract_lets +onlyGivenNames x
    | (with_reducible first | apply Answers.next | apply Answers.ite | apply State.ledgerNeed_keeps | apply State.log_keeps)
    | (with_reducible first | apply State.modFirm_keeps | apply Keeps.ite) | exact Nat.le_refl _ | exact Nat.le_max_left _ _
    | dsimp -zeta only [x] | split

theorem State.modChain_keeps {wm : Nat} {s0 s : State} (f : Chain → Chain) (h : Keeps wm s0 s) (hw : Within 0x100000000 wm) :
    Keeps wm s0 (State.modChain s f) := by
  unfold State.modChain
  repeat' first
    | (with_reducible first | assumption | exact hw | exact hw.mono (by decide)) | intro _
    | fail_if_no_progress extract_lets +onlyGivenNames x | with_reducible apply Keeps.ite | dsimp -zeta only [x]
    | (fail_if_no_progress ((with_reducible apply Keeps.upd); on_goal 2 => exact fun p hp => by cases p <;> first | with_reducible exact rfl | exact hw.no rfl hp))

theorem State.modPeer_keeps {wm : Nat} {s0 s : State} (n : Fin 2) (f : Peer → Peer) (h : Keeps wm s0 s) (hw : Within 0x100000000 wm) :
    Keeps wm s0 (State.modPeer s n f) := by
  unfold State.modPeer
  repeat' first
    | (with_reducible first | assumption | exact hw | exact hw.mono (by decide)) | intro _
    | fail_if_no_progress extract_lets +onlyGivenNames x | with_reducible apply State.modChain_keeps

theorem execPeerHelloSend_answers (n : Fin 2) {wm : Nat} (s : State) (hw : Within 0x900000000 wm) :
    Answers wm s (execPeerHelloSend n s) := by
  unfold execPeerHelloSend
  repeat' first
    | (with_reducible first | assumption | exact Keeps.refl _ _ | exact hw | exact hw.mono (by decide)) | intro _
    | fail_if_no_progress extract_lets +onlyGivenNames x
    | (with_reducible first | apply Answers.next | apply Answers.ite | apply State.peerSend_keeps | apply Keeps.ite)

theorem State.takeAddr_keeps {wm : Nat} {s0 s : State} (up : Nat) (h : Keeps wm s0 s) (hw : Within 0x100000040 wm) :
    Keeps wm s0 (State.takeAddr s up) := by
  unfold State.takeAddr
  repeat' first
    | (with_reducible first | assumption | exact hw | exact hw.mono (by decide)) | intro _
    | ((fail_if_no_progress extract_lets +onlyGivenNames x); refine Keeps.cut (w := wm) (s := s0) (v := x) ?_ ?_)
    | ((fail_if_no_progress extract_lets +onlyGivenNames x); clear_value x) | fail_if_no_progress extract_lets +onlyGivenNames x
    | (with_reducible first | apply State.log_keeps | apply State.modChain_keeps | apply Keeps.ite)

theorem State.helloIn_keeps {wm : Nat} {s0 s : State} (n : Fin 2) (a : Nat) (h : Keeps wm s0 s) (hw : Within 0x100000040 wm) :
    Keeps wm s0 (State.helloIn s n a) := by
  unfold State.helloIn
  repeat' first
    | (with_reducible first | assumption | exact hw | exact hw.mono (by decide)) | intro _
    | ((fail_if_no_progress extract_lets +onlyGivenNames x); refine Keeps.cut (w := wm) (s := s0) (v := x) ?_ ?_)
    | fail_if_no_progress extract_lets +onlyGivenNames x
    | (with_reducible first | apply State.log_keeps | apply State.modChain_keeps | apply State.modPeer_keeps)
    | (with_reducible first | apply State.takeAddr_keeps | apply Keeps.ite)

theorem State.shareIn_keeps {wm : Nat} {s0 s : State} (n : Fin 2) (b : List Byte) (h : Keeps wm s0 s) (hw : Within 0x4040 wm) :
    Keeps wm s0 (State.shareIn s n b) := by
  unfold State.shareIn
  repeat' first
    | (with_reducible first | assumption | exact hw | exact hw.mono (by decide)) | intro _
    | ((fail_if_no_progress extract_lets +onlyGivenNames x); refine Keeps.cut (w := wm) (s := s0) (v := x) ?_ ?_)
    | ((fail_if_no_progress extract_lets +onlyGivenNames x); clear_value x) | fail_if_no_progress extract_lets +onlyGivenNames x
    | (with_reducible first | apply State.log_keeps | apply State.peerAge_keeps | apply Keeps.ite) | dsimp -zeta only [x]
    | (fail_if_no_progress ((with_reducible apply Keeps.upd); on_goal 2 => exact fun p hp => by cases p <;> first | with_reducible exact rfl | exact hw.no rfl hp))

theorem execPeerFrameReceive_answers (n : Fin 2) (data : List Byte) {wm : Nat} (s : State) (hw : Within 0x100004050 wm) :
    Answers wm s (execPeerFrameReceive n data s) := by
  unfold execPeerFrameReceive
  repeat' first
    | (with_reducible first | assumption | exact Keeps.refl _ _ | exact hw | exact hw.mono (by decide)) | intro _
    | ((fail_if_no_progress extract_lets +onlyGivenNames x); clear_value x) | fail_if_no_progress extract_lets +onlyGivenNames x
    | (with_reducible first | apply Answers.next | apply Answers.ite | apply State.helloIn_keeps | apply State.shareIn_keeps)
    | (with_reducible first | apply State.stamp_keeps | apply Keeps.ite)

theorem execPeerLinkUp_answers (n : Fin 2) {wm : Nat} (s : State) (hw : Within 0x100000000 wm) :
    Answers wm s (execPeerLinkUp n s) := by
  unfold execPeerLinkUp
  repeat' first
    | (with_reducible first | assumption | exact Keeps.refl _ _ | exact hw | exact hw.mono (by decide)) | intro _
    | fail_if_no_progress extract_lets +onlyGivenNames x
    | (with_reducible first | apply Answers.next | apply Answers.ite | apply State.modPeer_keeps | apply Keeps.ite)

theorem execPeerLinkDown_answers (n : Fin 2) {wm : Nat} (s : State) (hw : Within 0x100000000 wm) :
    Answers wm s (execPeerLinkDown n s) := by
  unfold execPeerLinkDown
  repeat' first
    | (with_reducible first | assumption | exact Keeps.refl _ _ | exact hw | exact hw.mono (by decide)) | intro _
    | fail_if_no_progress extract_lets +onlyGivenNames x
    | (with_reducible first | apply Answers.next | apply Answers.ite | apply State.modPeer_keeps)

theorem State.closePhase_keeps {wm : Nat} {s0 s : State} (p : Fin 48) (h : Keeps wm s0 s) (hw : Within 0x200 wm) :
    Keeps wm s0 (State.closePhase s p) := by
  unfold State.closePhase
  repeat' first
    | (with_reducible first | assumption | exact hw | exact hw.mono (by decide)) | intro _
    | fail_if_no_progress extract_lets +onlyGivenNames x | with_reducible apply State.modPst_keeps

theorem State.reportPeriod_keeps {wm : Nat} {s0 s : State} (l : Fin 16) (h : Keeps wm s0 s) (hw : Within 0x900 wm) :
    Keeps wm s0 (State.reportPeriod s l) := by
  unfold State.reportPeriod
  repeat' first
    | (with_reducible first | assumption | exact hw | exact hw.mono (by decide)) | exact (⟨fun a => a, fun a => a⟩ : Lower _ _)
    | with_reducible exact fun _ => ⟨fun a => a, fun a => a⟩ | exact fun _ => ⟨fun a => a, fun a => a⟩
    | exact fun _ => ⟨fun h => absurd h Bool.false_ne_true, fun h => absurd h Bool.false_ne_true⟩ | intro _
    | ((fail_if_no_progress extract_lets +onlyGivenNames x); refine Keeps.cut (w := wm) (s := s0) (v := x) ?_ ?_)
    | ((fail_if_no_progress extract_lets +onlyGivenNames x); clear_value x) | fail_if_no_progress extract_lets +onlyGivenNames x
    | (with_reducible first | apply State.modOc_keeps | apply State.modPh_keeps | apply Keeps.ite | apply Keeps.foldl)

theorem State.applyAtDie_keeps {wm : Nat} {s0 s : State} (l : Fin 16) (d : Fin 4) (h : Keeps wm s0 s) (hw : Within 0x400000180 wm) :
    Keeps wm s0 (State.applyAtDie s l d) := by
  unfold State.applyAtDie
  repeat' first
    | (with_reducible first | assumption | exact hw | exact hw.mono (by decide)) | exact (⟨fun a => a, fun a => a⟩ : Lower _ _)
    | with_reducible exact fun _ => ⟨fun a => a, fun a => a⟩ | exact fun _ => ⟨fun a => a, fun a => a⟩
    | exact fun _ => ⟨fun h => absurd h Bool.false_ne_true, fun h => absurd h Bool.false_ne_true⟩ | intro _
    | ((fail_if_no_progress extract_lets +onlyGivenNames x); refine Keeps.cut (w := wm) (s := s0) (v := x) ?_ ?_)
    | ((fail_if_no_progress extract_lets +onlyGivenNames x); clear_value x) | fail_if_no_progress extract_lets +onlyGivenNames x
    | (with_reducible first | apply State.dieSettle_keeps | apply State.modLp_keeps | apply State.modPh_keeps)
    | (with_reducible first | apply State.outputsLow_keeps | apply Keeps.ite | apply Keeps.foldl | apply Keeps.foldlSnd)
    | with_reducible apply Keeps.foldlFst | dsimp -zeta only [x] | split

theorem State.assignSlots_keeps {wm : Nat} {s0 s : State} (prev : State) (l : Fin 16) (h : Keeps wm s0 s) (hw : Within 0x940 wm) :
    Keeps wm s0 (State.assignSlots s prev l) := by
  unfold State.assignSlots
  repeat' first
    | (with_reducible first | assumption | exact hw | exact hw.mono (by decide)) | exact (⟨fun a => a, fun a => a⟩ : Lower _ _)
    | with_reducible exact fun _ => ⟨fun a => a, fun a => a⟩ | exact fun _ => ⟨fun a => a, fun a => a⟩
    | exact fun _ => ⟨fun h => absurd h Bool.false_ne_true, fun h => absurd h Bool.false_ne_true⟩ | intro _
    | ((fail_if_no_progress extract_lets +onlyGivenNames x); refine Keeps.cut (w := wm) (s := s0) (v := x) ?_ ?_)
    | ((fail_if_no_progress extract_lets +onlyGivenNames x); clear_value x) | fail_if_no_progress extract_lets +onlyGivenNames x
    | (with_reducible first | apply State.log_keeps | apply State.modEb_keeps | apply State.modPh_keeps | apply Keeps.ite)
    | with_reducible apply Keeps.foldl

theorem State.spread_keeps {wm : Nat} {s0 s : State} (l : Fin 16) (h : Keeps wm s0 s) (hw : Within 0x800 wm) :
    Keeps wm s0 (State.spread s l) := by
  unfold State.spread
  repeat' first
    | (with_reducible first | assumption | exact hw | exact hw.mono (by decide)) | intro _
    | ((fail_if_no_progress extract_lets +onlyGivenNames x); refine Keeps.cut (w := wm) (s := s0) (v := x) ?_ ?_)
    | ((fail_if_no_progress extract_lets +onlyGivenNames x); clear_value x) | fail_if_no_progress extract_lets +onlyGivenNames x
    | (with_reducible first | apply State.modTm_keeps | apply Keeps.ite)

theorem State.takeSample_keeps {wm : Nat} {s0 s : State} (l : Fin 16) (per : Nat) (cur : Int) (h : Keeps wm s0 s) (hw : Within 0x800 wm) :
    Keeps wm s0 (State.takeSample s l per cur) := by
  unfold State.takeSample
  repeat' first
    | (with_reducible first | assumption | exact hw | exact hw.mono (by decide)) | intro _
    | ((fail_if_no_progress extract_lets +onlyGivenNames x); clear_value x) | fail_if_no_progress extract_lets +onlyGivenNames x
    | with_reducible apply State.modLoop_keeps

theorem State.clearConvs_keeps {wm : Nat} {s0 s : State} (l : Fin 16) (h : Keeps wm s0 s) (hw : Within 0x400 wm) :
    Keeps wm s0 (State.clearConvs s l) := by
  unfold State.clearConvs
  repeat' first
    | (with_reducible first | assumption | exact hw | exact hw.mono (by decide)) | intro _
    | ((fail_if_no_progress extract_lets +onlyGivenNames x); clear_value x) | fail_if_no_progress extract_lets +onlyGivenNames x
    | (with_reducible first | apply State.modVs_keeps | apply Keeps.ite) | dsimp -zeta only [x] | split

theorem State.dieSums_keeps {wm : Nat} {s0 s : State} (l : Fin 16) (per : Nat) (d : Fin 4) (h : Keeps wm s0 s) (hw : Within 0x80 wm) :
    Keeps wm s0 (State.dieSums s l per d) := by
  unfold State.dieSums
  repeat' first
    | (with_reducible first | assumption | exact hw | exact hw.mono (by decide)) | exact fun _ h => h | exact fun _ h => armed_not_safe h
    | exact fun _ h => run_not_safe h | intro _
    | ((fail_if_no_progress extract_lets +onlyGivenNames x); refine Keeps.cut (w := wm) (s := s0) (v := x) ?_ ?_)
    | ((fail_if_no_progress extract_lets +onlyGivenNames x); clear_value x) | fail_if_no_progress extract_lets +onlyGivenNames x
    | (with_reducible first | apply State.modDie_keeps | apply Keeps.ite)

theorem State.shortFind_keeps {wm : Nat} {s0 s : State} (l : Fin 16) (h : Keeps wm s0 s) (hw : Within 0x800 wm) :
    Keeps wm s0 (State.shortFind s l) := by
  unfold State.shortFind
  repeat' first
    | (with_reducible first | assumption | exact hw | exact hw.mono (by decide)) | intro _
    | fail_if_no_progress extract_lets +onlyGivenNames x | (with_reducible first | apply State.modOc_keeps | apply Keeps.ite)
    | dsimp -zeta only [x] | split

theorem State.idlePhases_keeps {wm : Nat} {s0 s : State} (l : Fin 16) (h : Keeps wm s0 s) (hw : Within 0x400000200 wm) :
    Keeps wm s0 (State.idlePhases s l) := by
  unfold State.idlePhases
  repeat' first
    | (with_reducible first | assumption | exact hw | exact hw.mono (by decide)) | intro _
    | fail_if_no_progress extract_lets +onlyGivenNames x
    | (with_reducible first | apply State.lagTake_keeps | apply State.modPst_keeps | apply Keeps.ite | apply Keeps.foldl)

theorem State.periodStart_keeps {wm : Nat} {s0 s : State} (l : Fin 16) (h : Keeps wm s0 s) (hw : Within 0x400000fd0 wm) :
    Keeps wm s0 (State.periodStart s l) := by
  unfold State.periodStart
  repeat' first
    | (with_reducible first | assumption | exact hw | exact hw.mono (by decide)) | intro _
    | ((fail_if_no_progress extract_lets +onlyGivenNames x); refine Keeps.cut (w := wm) (s := s0) (v := x) ?_ ?_)
    | ((fail_if_no_progress extract_lets +onlyGivenNames x); clear_value x) | fail_if_no_progress extract_lets +onlyGivenNames x
    | (with_reducible first | apply State.applyAtDie_keeps | apply State.assignSlots_keeps | apply State.clearConvs_keeps)
    | (with_reducible first | apply State.closePhase_keeps | apply State.dieSums_keeps | apply State.idlePhases_keeps)
    | (with_reducible first | apply State.lagTake_keeps | apply State.modLoop_keeps | apply State.ocModeStep_keeps)
    | (with_reducible first | apply State.reportPeriod_keeps | apply State.shortFind_keeps | apply State.spread_keeps)
    | (with_reducible first | apply State.stamp_keeps | apply State.takeSample_keeps | apply Keeps.ite | apply Keeps.foldl)

theorem execLoopPeriodStart_answers (l : Fin 16) {wm : Nat} (s : State) (hw : Within 0x400000fd0 wm) :
    Answers wm s (execLoopPeriodStart l s) := by
  unfold execLoopPeriodStart
  repeat' first
    | (with_reducible first | assumption | exact Keeps.refl _ _ | exact hw | exact hw.mono (by decide)) | intro _
    | fail_if_no_progress extract_lets +onlyGivenNames x
    | (with_reducible first | apply Answers.next | apply Answers.ite | apply State.periodStart_keeps | apply Keeps.ite)

theorem execSsFrequencyDraw_answers (l : Fin 16) {wm : Nat} (s : State) (hw : Within 0x800 wm) :
    Answers wm s (execSsFrequencyDraw l s) := by
  unfold execSsFrequencyDraw
  repeat' first
    | (with_reducible first | assumption | exact Keeps.refl _ _ | exact hw | exact hw.mono (by decide)) | intro _
    | fail_if_no_progress extract_lets +onlyGivenNames x
    | (with_reducible first | apply Answers.next | apply Answers.ite | apply State.modTm_keeps | apply Keeps.ite)

theorem execSlotRotation_answers (l : Fin 16) {wm : Nat} (s : State) (hw : Within 0x800 wm) :
    Answers wm s (execSlotRotation l s) := by
  unfold execSlotRotation
  repeat' first
    | (with_reducible first | assumption | exact Keeps.refl _ _ | exact hw | exact hw.mono (by decide)) | intro _
    | fail_if_no_progress extract_lets +onlyGivenNames x
    | (with_reducible first | apply Answers.next | apply Answers.ite | apply State.modTm_keeps | apply Keeps.ite)

theorem execPulseStart_answers (p : Fin 48) {wm : Nat} (s : State) (hw : Within 0x400000940 wm) :
    Answers wm s (execPulseStart p s) := by
  unfold execPulseStart
  repeat' first
    | (with_reducible first | assumption | exact Keeps.refl _ _ | exact hw | exact hw.mono (by decide)) | intro _
    | fail_if_no_progress extract_lets +onlyGivenNames x
    | (with_reducible first | apply Answers.next | apply Answers.ite | apply State.slotStartOf_keeps)

theorem State.regTrip_keeps {wm : Nat} {s0 s : State} (p : Fin 48) (t : Nat) (h : Keeps wm s0 s) (hw : Within 0x900 wm) :
    Keeps wm s0 (State.regTrip s p t) := by
  unfold State.regTrip
  repeat' first
    | (with_reducible first | assumption | exact hw | exact hw.mono (by decide)) | exact (⟨fun a => a, fun a => a⟩ : Lower _ _)
    | with_reducible exact fun _ => ⟨fun a => a, fun a => a⟩ | exact fun _ => ⟨fun a => a, fun a => a⟩
    | exact fun _ => ⟨fun h => absurd h Bool.false_ne_true, fun h => absurd h Bool.false_ne_true⟩ | intro _
    | fail_if_no_progress extract_lets +onlyGivenNames x
    | (with_reducible first | apply State.endPulse_keeps | apply State.modPl_keeps | apply Keeps.ite)

theorem State.limTrip_keeps {wm : Nat} {s0 s : State} (p : Fin 48) (t : Nat) (h : Keeps wm s0 s) (hw : Within 0x900 wm) :
    Keeps wm s0 (State.limTrip s p t) := by
  unfold State.limTrip
  repeat' first
    | (with_reducible first | assumption | exact hw | exact hw.mono (by decide)) | exact (⟨fun a => a, fun a => a⟩ : Lower _ _)
    | with_reducible exact fun _ => ⟨fun a => a, fun a => a⟩ | exact fun _ => ⟨fun a => a, fun a => a⟩
    | exact fun _ => ⟨fun h => absurd h Bool.false_ne_true, fun h => absurd h Bool.false_ne_true⟩ | intro _
    | fail_if_no_progress extract_lets +onlyGivenNames x
    | (with_reducible first | apply State.endPulse_keeps | apply State.holdSeen_keeps | apply State.modPh_keeps)
    | with_reducible apply Keeps.ite | dsimp -zeta only [x] | split

theorem execPhaseBlankEnd_answers (p : Fin 48) (which : Comp) (sensed : Int) {wm : Nat} (s : State) (hw : Within 0x900 wm) :
    Answers wm s (execPhaseBlankEnd p which sensed s) := by
  unfold execPhaseBlankEnd
  repeat' first
    | (with_reducible first | assumption | exact Keeps.refl _ _ | exact hw | exact hw.mono (by decide))
    | exact (⟨fun a => a, fun a => a⟩ : Lower _ _) | with_reducible exact fun _ => ⟨fun a => a, fun a => a⟩
    | exact fun _ => ⟨fun a => a, fun a => a⟩
    | exact fun _ => ⟨fun h => absurd h Bool.false_ne_true, fun h => absurd h Bool.false_ne_true⟩ | intro _
    | ((fail_if_no_progress extract_lets +onlyGivenNames x); refine Keeps.cut (w := wm) (s := s) (v := x) ?_ ?_)
    | fail_if_no_progress extract_lets +onlyGivenNames x
    | (with_reducible first | apply Answers.next | apply Answers.ite | apply State.limTrip_keeps | apply State.modPl_keeps)
    | (with_reducible first | apply State.regTrip_keeps | apply Keeps.ite) | dsimp -zeta only [x] | split

theorem execRegulationTrip_answers (p : Fin 48) (t : Nat) {wm : Nat} (s : State) (hw : Within 0x900 wm) :
    Answers wm s (execRegulationTrip p t s) := by
  unfold execRegulationTrip
  repeat' first
    | (with_reducible first | assumption | exact Keeps.refl _ _ | exact hw | exact hw.mono (by decide)) | intro _
    | fail_if_no_progress extract_lets +onlyGivenNames x
    | (with_reducible first | apply Answers.next | apply Answers.ite | apply State.regTrip_keeps | apply Keeps.ite)

theorem execLimitComparatorTrip_answers (p : Fin 48) (t : Nat) {wm : Nat} (s : State) (hw : Within 0x900 wm) :
    Answers wm s (execLimitComparatorTrip p t s) := by
  unfold execLimitComparatorTrip
  repeat' first
    | (with_reducible first | assumption | exact Keeps.refl _ _ | exact hw | exact hw.mono (by decide)) | intro _
    | fail_if_no_progress extract_lets +onlyGivenNames x
    | (with_reducible first | apply Answers.next | apply Answers.ite | apply State.limTrip_keeps | apply Keeps.ite)

theorem execMaxdutyReached_answers (p : Fin 48) {wm : Nat} (s : State) (hw : Within 0x900 wm) :
    Answers wm s (execMaxdutyReached p s) := by
  unfold execMaxdutyReached
  repeat' first
    | (with_reducible first | assumption | exact Keeps.refl _ _ | exact hw | exact hw.mono (by decide))
    | exact (⟨fun a => a, fun a => a⟩ : Lower _ _) | with_reducible exact fun _ => ⟨fun a => a, fun a => a⟩
    | exact fun _ => ⟨fun a => a, fun a => a⟩
    | exact fun _ => ⟨fun h => absurd h Bool.false_ne_true, fun h => absurd h Bool.false_ne_true⟩ | intro _
    | fail_if_no_progress extract_lets +onlyGivenNames x
    | (with_reducible first | apply Answers.next | apply Answers.ite | apply State.endPulse_keeps | apply State.holdSeen_keeps)
    | (with_reducible first | apply State.modPh_keeps | apply Keeps.ite) | dsimp -zeta only [x] | split

theorem execPhaseTonMinEnd_answers (p : Fin 48) {wm : Nat} (s : State) (hw : Within 0x900 wm) :
    Answers wm s (execPhaseTonMinEnd p s) := by
  unfold execPhaseTonMinEnd
  repeat' first
    | (with_reducible first | assumption | exact Keeps.refl _ _ | exact hw | exact hw.mono (by decide))
    | exact (⟨fun a => a, fun a => a⟩ : Lower _ _) | with_reducible exact fun _ => ⟨fun a => a, fun a => a⟩
    | exact fun _ => ⟨fun a => a, fun a => a⟩
    | exact fun _ => ⟨fun h => absurd h Bool.false_ne_true, fun h => absurd h Bool.false_ne_true⟩ | intro _
    | ((fail_if_no_progress extract_lets +onlyGivenNames x); refine Keeps.cut (w := wm) (s := s) (v := x) ?_ ?_)
    | fail_if_no_progress extract_lets +onlyGivenNames x
    | (with_reducible first | apply Answers.next | apply Answers.ite | apply State.endPulse_keeps | apply State.modPl_keeps)
    | with_reducible apply Keeps.ite

theorem execForcedPulseMax_answers (p : Fin 48) {wm : Nat} (s : State) (hw : Within 0x900 wm) :
    Answers wm s (execForcedPulseMax p s) := by
  unfold execForcedPulseMax
  repeat' first
    | (with_reducible first | assumption | exact Keeps.refl _ _ | exact hw | exact hw.mono (by decide)) | intro _
    | fail_if_no_progress extract_lets +onlyGivenNames x
    | (with_reducible first | apply Answers.next | apply Answers.ite | apply State.endPulse_keeps | apply Keeps.ite)

theorem execDeadTimeEnd_answers (p : Fin 48) {wm : Nat} (s : State) (hw : Within 0x940 wm) :
    Answers wm s (execDeadTimeEnd p s) := by
  unfold execDeadTimeEnd
  repeat' first
    | (with_reducible first | assumption | exact Keeps.refl _ _ | exact hw | exact hw.mono (by decide))
    | exact (⟨fun a => a, fun a => a⟩ : Lower _ _) | with_reducible exact fun _ => ⟨fun a => a, fun a => a⟩
    | exact fun _ => ⟨fun a => a, fun a => a⟩
    | exact fun _ => ⟨fun h => absurd h Bool.false_ne_true, fun h => absurd h Bool.false_ne_true⟩ | intro _
    | ((fail_if_no_progress extract_lets +onlyGivenNames x); refine Keeps.cut (w := wm) (s := s) (v := x) ?_ ?_)
    | ((fail_if_no_progress extract_lets +onlyGivenNames x); clear_value x) | fail_if_no_progress extract_lets +onlyGivenNames x
    | (with_reducible first | apply Answers.next | apply Answers.ite | apply State.modPl_keeps | apply State.setSync_keeps)
    | (with_reducible first | apply State.startPulse_keeps | apply Keeps.ite) | dsimp -zeta only [x] | split

theorem execToffMinEnd_answers (p : Fin 48) {wm : Nat} (s : State) (hw : Within 0x400000940 wm) :
    Answers wm s (execToffMinEnd p s) := by
  unfold execToffMinEnd
  repeat' first
    | (with_reducible first | assumption | exact Keeps.refl _ _ | exact hw | exact hw.mono (by decide))
    | exact (⟨fun a => a, fun a => a⟩ : Lower _ _) | with_reducible exact fun _ => ⟨fun a => a, fun a => a⟩
    | exact fun _ => ⟨fun a => a, fun a => a⟩
    | exact fun _ => ⟨fun h => absurd h Bool.false_ne_true, fun h => absurd h Bool.false_ne_true⟩ | intro _
    | ((fail_if_no_progress extract_lets +onlyGivenNames x); refine Keeps.cut (w := wm) (s := s) (v := x) ?_ ?_)
    | ((fail_if_no_progress extract_lets +onlyGivenNames x); clear_value x) | fail_if_no_progress extract_lets +onlyGivenNames x
    | (with_reducible first | apply Answers.next | apply Answers.ite | apply State.forcePulse_keeps | apply State.modPl_keeps)
    | (with_reducible first | apply State.slotStartOf_keeps | apply Keeps.ite)

theorem execPhaseAdcSample_answers (p : Fin 48) (code : Int) (t : Nat) {wm : Nat} (s : State) (hw : Within 0x300 wm) :
    Answers wm s (execPhaseAdcSample p code t s) := by
  unfold execPhaseAdcSample
  repeat' first
    | (with_reducible first | assumption | exact Keeps.refl _ _ | exact hw | exact hw.mono (by decide))
    | exact (⟨fun a => a, fun a => a⟩ : Lower _ _) | with_reducible exact fun _ => ⟨fun a => a, fun a => a⟩
    | exact fun _ => ⟨fun a => a, fun a => a⟩
    | exact fun _ => ⟨fun h => absurd h Bool.false_ne_true, fun h => absurd h Bool.false_ne_true⟩ | intro _
    | ((fail_if_no_progress extract_lets +onlyGivenNames x); refine Keeps.cut (w := wm) (s := s) (v := x) ?_ ?_)
    | ((fail_if_no_progress extract_lets +onlyGivenNames x); clear_value x) | fail_if_no_progress extract_lets +onlyGivenNames x
    | (with_reducible first | apply Answers.next | apply Answers.ite | apply State.modPh_keeps | apply State.modPst_keeps)
    | (with_reducible first | apply State.setSync_keeps | apply Keeps.ite) | dsimp -zeta only [x] | split

theorem execPhaseCmdFrame_answers (d : Fin 4) (parityOk : Bool) {wm : Nat} (s : State) (hw : Within 0x4000019c0 wm) :
    Answers wm s (execPhaseCmdFrame d parityOk s) := by
  unfold execPhaseCmdFrame
  repeat' first
    | (with_reducible first | assumption | exact Keeps.refl _ _ | exact hw | exact hw.mono (by decide)) | exact fun _ h => h
    | exact fun _ h => armed_not_safe h | exact fun _ h => run_not_safe h | intro _ | fail_if_no_progress extract_lets +onlyGivenNames x
    | (with_reducible first | apply Answers.next | apply Answers.ite | apply State.dieReceive_keeps)
    | (with_reducible first | apply State.faultScan_keeps | apply State.modDie_keeps | apply Keeps.ite) | dsimp -zeta only [x] | split

theorem execPhaseRefreshFrame_answers (d : Fin 4) (parityOk : Bool) {wm : Nat} (s : State) (hw : Within 0x4000099c0 wm) :
    Answers wm s (execPhaseRefreshFrame d parityOk s) := by
  unfold execPhaseRefreshFrame
  repeat' first
    | (with_reducible first | assumption | exact Keeps.refl _ _ | exact hw | exact hw.mono (by decide)) | intro _
    | ((fail_if_no_progress extract_lets +onlyGivenNames x); refine Keeps.cut (w := wm) (s := s) (v := x) ?_ ?_)
    | ((fail_if_no_progress extract_lets +onlyGivenNames x); clear_value x) | fail_if_no_progress extract_lets +onlyGivenNames x
    | (with_reducible first | apply Answers.next | apply Answers.ite | apply State.dieReceive_keeps)
    | (with_reducible first | apply State.faultScan_keeps | apply State.modCt_keeps | apply State.preStale_keeps)
    | (with_reducible first | apply Keeps.ite | apply Keeps.foldl | apply Keeps.foldlSnd | apply Keeps.foldlFst) | dsimp -zeta only [x]
    | split

theorem execPhaseCalDone_answers (p : Fin 48) (sum : Int) {wm : Nat} (s : State) (hw : Within 0x140 wm) :
    Answers wm s (execPhaseCalDone p sum s) := by
  unfold execPhaseCalDone
  repeat' first
    | (with_reducible first | assumption | exact Keeps.refl _ _ | exact hw | exact hw.mono (by decide))
    | exact (⟨fun a => a, fun a => a⟩ : Lower _ _) | with_reducible exact fun _ => ⟨fun a => a, fun a => a⟩
    | exact fun _ => ⟨fun a => a, fun a => a⟩
    | exact fun _ => ⟨fun h => absurd h Bool.false_ne_true, fun h => absurd h Bool.false_ne_true⟩ | intro _
    | ((fail_if_no_progress extract_lets +onlyGivenNames x); refine Keeps.cut (w := wm) (s := s) (v := x) ?_ ?_)
    | ((fail_if_no_progress extract_lets +onlyGivenNames x); clear_value x) | fail_if_no_progress extract_lets +onlyGivenNames x
    | (with_reducible first | apply Answers.next | apply Answers.ite | apply State.log_keeps | apply State.modPh_keeps)
    | with_reducible apply Keeps.ite | dsimp -zeta only [x] | split

theorem execPhaseDieArmed_answers (d : Fin 4) {wm : Nat} (s : State) (hw : Within 0x11c0 wm) :
    Answers wm s (execPhaseDieArmed d s) := by
  unfold execPhaseDieArmed
  repeat' first
    | (with_reducible first | assumption | exact Keeps.refl _ _ | exact hw | exact hw.mono (by decide))
    | exact (⟨fun a => a, fun a => a⟩ : Lower _ _) | with_reducible exact fun _ => ⟨fun a => a, fun a => a⟩
    | exact fun _ => ⟨fun a => a, fun a => a⟩
    | exact fun _ => ⟨fun h => absurd h Bool.false_ne_true, fun h => absurd h Bool.false_ne_true⟩ | exact fun _ h => h
    | exact fun _ h => armed_not_safe h | exact fun _ h => run_not_safe h | intro _
    | ((fail_if_no_progress extract_lets +onlyGivenNames x); refine Keeps.cut (w := wm) (s := s) (v := x) ?_ ?_)
    | ((fail_if_no_progress extract_lets +onlyGivenNames x); clear_value x) | fail_if_no_progress extract_lets +onlyGivenNames x
    | (with_reducible first | apply Answers.next | apply Answers.ite | apply State.faultScan_keeps | apply State.log_keeps)
    | (with_reducible first | apply State.modDie_keeps | apply State.modPh_keeps | apply Keeps.ite | apply Keeps.foldl)

theorem execPhaseCmdWdogExpire_answers (d : Fin 4) {wm : Nat} (s : State) (hw : Within 0x4000011c0 wm) :
    Answers wm s (execPhaseCmdWdogExpire d s) := by
  unfold execPhaseCmdWdogExpire
  repeat' first
    | (with_reducible first | assumption | exact Keeps.refl _ _ | exact hw | exact hw.mono (by decide)) | intro _
    | fail_if_no_progress extract_lets +onlyGivenNames x
    | (with_reducible first | apply Answers.next | apply Answers.ite | apply State.enterSafe_keeps)
    | (with_reducible first | apply State.faultScan_keeps | apply Keeps.ite)

theorem execPhaseSrcSignalLow_answers (d : Fin 4) {wm : Nat} (s : State) (hw : Within 0x4000011c0 wm) :
    Answers wm s (execPhaseSrcSignalLow d s) := by
  unfold execPhaseSrcSignalLow
  repeat' first
    | (with_reducible first | assumption | exact Keeps.refl _ _ | exact hw | exact hw.mono (by decide)) | exact fun _ h => h
    | exact fun _ h => armed_not_safe h | exact fun _ h => run_not_safe h | intro _ | fail_if_no_progress extract_lets +onlyGivenNames x
    | (with_reducible first | apply Answers.next | apply Answers.ite | apply State.enterSafe_keeps)
    | (with_reducible first | apply State.faultScan_keeps | apply State.modDie_keeps)

theorem execDelayLineCalLost_answers (d : Fin 4) {wm : Nat} (s : State) (hw : Within 0x4000011c0 wm) :
    Answers wm s (execDelayLineCalLost d s) := by
  unfold execDelayLineCalLost
  repeat' first
    | (with_reducible first | assumption | exact Keeps.refl _ _ | exact hw | exact hw.mono (by decide)) | exact fun _ h => h
    | exact fun _ h => armed_not_safe h | exact fun _ h => run_not_safe h | intro _ | fail_if_no_progress extract_lets +onlyGivenNames x
    | (with_reducible first | apply Answers.next | apply Answers.ite | apply State.enterSafe_keeps)
    | (with_reducible first | apply State.faultScan_keeps | apply State.modDie_keeps)

theorem execVsConversion_answers (v : Fin 16) (pin : Int) (off : Nat) {wm : Nat} (s : State) (hw : Within 0x400 wm) :
    Answers wm s (execVsConversion v pin off s) := by
  unfold execVsConversion
  repeat' first
    | (with_reducible first | assumption | exact Keeps.refl _ _ | exact hw | exact hw.mono (by decide)) | intro _
    | ((fail_if_no_progress extract_lets +onlyGivenNames x); clear_value x) | fail_if_no_progress extract_lets +onlyGivenNames x
    | (with_reducible first | apply Answers.next | apply Answers.ite | apply State.modVs_keeps | apply Keeps.ite)

theorem State.windowOpen_keeps {wm : Nat} {s0 s : State} (v : Fin 16) (above : Bool) (pin : Int) (h : Keeps wm s0 s) (hw : Within 0x400 wm) :
    Keeps wm s0 (State.windowOpen s v above pin) := by
  unfold State.windowOpen
  repeat' first
    | (with_reducible first | assumption | exact hw | exact hw.mono (by decide)) | intro _
    | fail_if_no_progress extract_lets +onlyGivenNames x | with_reducible apply State.modVs_keeps

theorem State.windowClose_keeps {wm : Nat} {s0 s : State} (v : Fin 16) (above : Bool) (h : Keeps wm s0 s) (hw : Within 0x440 wm) :
    Keeps wm s0 (State.windowClose s v above) := by
  unfold State.windowClose
  repeat' first
    | (with_reducible first | assumption | exact hw | exact hw.mono (by decide)) | intro _
    | fail_if_no_progress extract_lets +onlyGivenNames x | (with_reducible first | apply State.log_keeps | apply State.modVs_keeps)

theorem State.overshootPhase_keeps {wm : Nat} {s0 s : State} (p : Fin 48) (h : Keeps wm s0 s) (hw : Within 0x900 wm) :
    Keeps wm s0 (State.overshootPhase s p) := by
  unfold State.overshootPhase
  repeat' first
    | (with_reducible first | assumption | exact hw | exact hw.mono (by decide)) | exact (⟨fun a => a, fun a => a⟩ : Lower _ _)
    | with_reducible exact fun _ => ⟨fun a => a, fun a => a⟩ | exact fun _ => ⟨fun a => a, fun a => a⟩
    | exact fun _ => ⟨fun h => absurd h Bool.false_ne_true, fun h => absurd h Bool.false_ne_true⟩ | intro _
    | fail_if_no_progress extract_lets +onlyGivenNames x
    | (with_reducible first | apply State.endPulse_keeps | apply State.modPl_keeps | apply Keeps.ite)

theorem execVsOvershootEnter_answers (v : Fin 16) (pin : Int) {wm : Nat} (s : State) (hw : Within 0xd00 wm) :
    Answers wm s (execVsOvershootEnter v pin s) := by
  unfold execVsOvershootEnter
  repeat' first
    | (with_reducible first | assumption | exact Keeps.refl _ _ | exact hw | exact hw.mono (by decide)) | intro _
    | fail_if_no_progress extract_lets +onlyGivenNames x
    | (with_reducible first | apply Answers.next | apply Answers.ite | apply State.overshootPhase_keeps)
    | (with_reducible first | apply State.windowOpen_keeps | apply Keeps.ite | apply Keeps.foldl | apply Keeps.foldlSnd)
    | with_reducible apply Keeps.foldlFst | dsimp -zeta only [x] | split

theorem execVsOvershootRelease_answers (v : Fin 16) (pin : Int) {wm : Nat} (s : State) (hw : Within 0x440 wm) :
    Answers wm s (execVsOvershootRelease v pin s) := by
  unfold execVsOvershootRelease
  repeat' first
    | (with_reducible first | assumption | exact Keeps.refl _ _ | exact hw | exact hw.mono (by decide)) | intro _
    | fail_if_no_progress extract_lets +onlyGivenNames x
    | (with_reducible first | apply Answers.next | apply Answers.ite | apply State.windowClose_keeps | apply Keeps.ite)

theorem execVsUndershootEnter_answers (v : Fin 16) (pin : Int) {wm : Nat} (s : State) (hw : Within 0xd40 wm) :
    Answers wm s (execVsUndershootEnter v pin s) := by
  unfold execVsUndershootEnter
  repeat' first
    | (with_reducible first | assumption | exact Keeps.refl _ _ | exact hw | exact hw.mono (by decide)) | intro _
    | fail_if_no_progress extract_lets +onlyGivenNames x
    | (with_reducible first | apply Answers.next | apply Answers.ite | apply State.forcePulse_keeps)
    | (with_reducible first | apply State.windowOpen_keeps | apply Keeps.ite | apply Keeps.foldl | apply Keeps.foldlSnd)
    | with_reducible apply Keeps.foldlFst | dsimp -zeta only [x] | split

theorem execVsUndershootRelease_answers (v : Fin 16) (pin : Int) {wm : Nat} (s : State) (hw : Within 0x440 wm) :
    Answers wm s (execVsUndershootRelease v pin s) := by
  unfold execVsUndershootRelease
  repeat' first
    | (with_reducible first | assumption | exact Keeps.refl _ _ | exact hw | exact hw.mono (by decide)) | intro _
    | fail_if_no_progress extract_lets +onlyGivenNames x
    | (with_reducible first | apply Answers.next | apply Answers.ite | apply State.windowClose_keeps | apply Keeps.ite)

theorem State.latchPreload_keeps {wm : Nat} {s0 s : State} (d : Fin 4) (l : Fin 16) (h : Keeps wm s0 s) (hw : Within 0x980 wm) :
    Keeps wm s0 (State.latchPreload s d l) := by
  unfold State.latchPreload
  repeat' first
    | (with_reducible first | assumption | exact hw | exact hw.mono (by decide)) | exact (⟨fun a => a, fun a => a⟩ : Lower _ _)
    | with_reducible exact fun _ => ⟨fun a => a, fun a => a⟩ | exact fun _ => ⟨fun a => a, fun a => a⟩
    | exact fun _ => ⟨fun h => absurd h Bool.false_ne_true, fun h => absurd h Bool.false_ne_true⟩ | exact fun _ h => h
    | exact fun _ h => armed_not_safe h | exact fun _ h => run_not_safe h | intro _
    | ((fail_if_no_progress extract_lets +onlyGivenNames x); refine Keeps.cut (w := wm) (s := s0) (v := x) ?_ ?_)
    | ((fail_if_no_progress extract_lets +onlyGivenNames x); clear_value x) | fail_if_no_progress extract_lets +onlyGivenNames x
    | (with_reducible first | apply State.formIph_keeps | apply State.limSet_keeps | apply State.modDie_keeps)
    | (with_reducible first | apply State.modLp_keeps | apply State.modPl_keeps | apply Keeps.ite | apply Keeps.foldl)

theorem execPhaseFeedLossLatch_answers (d : Fin 4) {wm : Nat} (s : State) (hw : Within 0x10980 wm) :
    Answers wm s (execPhaseFeedLossLatch d s) := by
  unfold execPhaseFeedLossLatch
  repeat' first
    | (with_reducible first | assumption | exact Keeps.refl _ _ | exact hw | exact hw.mono (by decide)) | intro _
    | ((fail_if_no_progress extract_lets +onlyGivenNames x); clear_value x) | fail_if_no_progress extract_lets +onlyGivenNames x
    | (with_reducible first | apply Answers.next | apply Answers.ite | apply State.latchPreload_keeps | apply Keeps.ite)
    | (with_reducible first | apply Keeps.foldl | apply Keeps.foldlSnd | apply Keeps.foldlFst) | dsimp -zeta only [x]
    | (fail_if_no_progress ((with_reducible apply Keeps.upd); on_goal 2 => exact fun p hp => by cases p <;> first | with_reducible exact rfl | exact hw.no rfl hp))

end Sys2Proof.Machine
end

