-- ==== Sys2Proof/Laws/KeepsI.lean ====
section
/-! SUPPORT. What the operations keep (see Keeps.lean), one lemma each: those of Protect.lean, Therm.lean, Timers.lean. -/

set_option linter.tactic.unusedName false
set_option linter.unreachableTactic false
set_option linter.unusedTactic false

namespace Sys2Proof.Machine

theorem execLimitReport_answers (l : Fin 16) {wm : Nat} (s : State) (hw : Within 0xc01001bd0 wm) :
    Answers wm s (execLimitReport l s) := by
  unfold execLimitReport
  repeat' first
    | (with_reducible first | assumption | exact Keeps.refl _ _ | exact hw | exact hw.mono (by decide)) | intro _
    | ((fail_if_no_progress extract_lets +onlyGivenNames x); refine Keeps.cut (w := wm) (s := s) (v := x) ?_ ?_)
    | fail_if_no_progress extract_lets +onlyGivenNames x
    | (with_reducible first | apply Answers.next | apply Answers.ite | apply State.absorb_keeps | apply State.modOc_keeps)
    | (with_reducible first | apply State.ocTrip_keeps | apply State.shortExpire_keeps | apply State.stamp_keeps)
    | with_reducible apply Keeps.ite | dsimp -zeta only [x] | split

theorem execHiccupOffEnd_answers (l : Fin 16) {wm : Nat} (s : State) (hw : Within 0xc01001bc0 wm) :
    Answers wm s (execHiccupOffEnd l s) := by
  unfold execHiccupOffEnd
  repeat' first
    | (with_reducible first | assumption | exact Keeps.refl _ _ | exact hw | exact hw.mono (by decide)) | intro _
    | ((fail_if_no_progress extract_lets +onlyGivenNames x); refine Keeps.cut (w := wm) (s := s) (v := x) ?_ ?_)
    | ((fail_if_no_progress extract_lets +onlyGivenNames x); clear_value x) | fail_if_no_progress extract_lets +onlyGivenNames x
    | (with_reducible first | apply Answers.next | apply Answers.ite | apply State.faultLoopAt_keeps | apply State.log_keeps)
    | (with_reducible first | apply State.modOc_keeps | apply State.startLoop_keeps | apply State.stopLoop_keeps)

theorem execStartShortExpire_answers (l : Fin 16) {wm : Nat} (s : State) (hw : Within 0xc01001bd0 wm) :
    Answers wm s (execStartShortExpire l s) := by
  unfold execStartShortExpire
  repeat' first
    | (with_reducible first | assumption | exact Keeps.refl _ _ | exact hw | exact hw.mono (by decide)) | intro _
    | ((fail_if_no_progress extract_lets +onlyGivenNames x); refine Keeps.cut (w := wm) (s := s) (v := x) ?_ ?_)
    | ((fail_if_no_progress extract_lets +onlyGivenNames x); clear_value x) | fail_if_no_progress extract_lets +onlyGivenNames x
    | (with_reducible first | apply Answers.next | apply Answers.ite | apply State.absorb_keeps | apply State.modOc_keeps)
    | (with_reducible first | apply State.ocTrip_keeps | apply State.shortExpire_keeps | apply State.stamp_keeps)
    | (with_reducible first | apply Keeps.ite | apply Keeps.foldl | apply Keeps.foldlSnd | apply Keeps.foldlFst) | dsimp -zeta only [x]
    | split

theorem execOcCleanTimeEnd_answers (l : Fin 16) {wm : Nat} (s : State) (hw : Within 0x800 wm) :
    Answers wm s (execOcCleanTimeEnd l s) := by
  unfold execOcCleanTimeEnd
  repeat' first
    | (with_reducible first | assumption | exact Keeps.refl _ _ | exact hw | exact hw.mono (by decide)) | intro _
    | fail_if_no_progress extract_lets +onlyGivenNames x
    | (with_reducible first | apply Answers.next | apply Answers.ite | apply State.modOc_keeps | apply Keeps.ite)

theorem execShedComplete_answers (p : Fin 48) {wm : Nat} (s : State) (hw : Within 0x940 wm) :
    Answers wm s (execShedComplete p s) := by
  unfold execShedComplete
  repeat' first
    | (with_reducible first | assumption | exact Keeps.refl _ _ | exact hw | exact hw.mono (by decide))
    | exact (⟨fun a => a, fun a => a⟩ : Lower _ _) | with_reducible exact fun _ => ⟨fun a => a, fun a => a⟩
    | exact fun _ => ⟨fun a => a, fun a => a⟩
    | exact fun _ => ⟨fun h => absurd h Bool.false_ne_true, fun h => absurd h Bool.false_ne_true⟩ | intro _
    | ((fail_if_no_progress extract_lets +onlyGivenNames x); refine Keeps.cut (w := wm) (s := s) (v := x) ?_ ?_)
    | fail_if_no_progress extract_lets +onlyGivenNames x
    | (with_reducible first | apply Answers.next | apply Answers.ite | apply State.log_keeps | apply State.modEb_keeps)
    | (with_reducible first | apply State.modPh_keeps | apply State.outputsLow_keeps | apply Keeps.ite) | dsimp -zeta only [x] | split

theorem execShedAbort_answers (d : Fin 4) (l : Fin 16) (cause : Nat) {wm : Nat} (s : State) (hw : Within 0x180 wm) :
    Answers wm s (execShedAbort d l cause s) := by
  unfold execShedAbort
  repeat' first
    | (with_reducible first | assumption | exact Keeps.refl _ _ | exact hw | exact hw.mono (by decide))
    | exact (⟨fun a => a, fun a => a⟩ : Lower _ _) | with_reducible exact fun _ => ⟨fun a => a, fun a => a⟩
    | exact fun _ => ⟨fun a => a, fun a => a⟩
    | exact fun _ => ⟨fun h => absurd h Bool.false_ne_true, fun h => absurd h Bool.false_ne_true⟩ | exact fun _ h => h
    | exact fun _ h => armed_not_safe h | exact fun _ h => run_not_safe h | intro _
    | ((fail_if_no_progress extract_lets +onlyGivenNames x); refine Keeps.cut (w := wm) (s := s) (v := x) ?_ ?_)
    | ((fail_if_no_progress extract_lets +onlyGivenNames x); clear_value x) | fail_if_no_progress extract_lets +onlyGivenNames x
    | (with_reducible first | apply Answers.next | apply Answers.ite | apply State.modDie_keeps | apply State.modLp_keeps)
    | (with_reducible first | apply State.modPh_keeps | apply Keeps.ite | apply Keeps.foldl | apply Keeps.foldlSnd)
    | with_reducible apply Keeps.foldlFst | dsimp -zeta only [x] | split

theorem execEbbHoldoffEnd_answers (l : Fin 16) {wm : Nat} (s : State) (hw : Within 0x800 wm) :
    Answers wm s (execEbbHoldoffEnd l s) := by
  unfold execEbbHoldoffEnd
  repeat' first
    | (with_reducible first | assumption | exact Keeps.refl _ _ | exact hw | exact hw.mono (by decide)) | intro _
    | fail_if_no_progress extract_lets +onlyGivenNames x
    | (with_reducible first | apply Answers.next | apply Answers.ite | apply State.modEb_keeps | apply Keeps.ite)

theorem State.abortHeard_keeps {wm : Nat} {s0 s : State} (l : Fin 16) (cause : Nat) (mask : Nat) (h : Keeps wm s0 s) (hw : Within 0x840 wm) :
    Keeps wm s0 (State.abortHeard s l cause mask) := by
  unfold State.abortHeard
  repeat' first
    | (with_reducible first | assumption | exact hw | exact hw.mono (by decide)) | intro _
    | fail_if_no_progress extract_lets +onlyGivenNames x | (with_reducible first | apply State.log_keeps | apply State.modEb_keeps)

theorem State.safeHeard_keeps {wm : Nat} {s0 s : State} (d : Fin 4) (h : Keeps wm s0 s) (hw : Within 0xc01001bc0 wm) :
    Keeps wm s0 (State.safeHeard s d) := by
  unfold State.safeHeard
  repeat' first
    | (with_reducible first | assumption | exact hw | exact hw.mono (by decide)) | intro _
    | fail_if_no_progress extract_lets +onlyGivenNames x
    | (with_reducible first | apply State.spateReq_keeps | apply State.stopLoop_keeps | apply Keeps.ite | apply Keeps.foldl)

theorem execPhaseDieReport_answers (d : Fin 4) {wm : Nat} (s : State) (hw : Within 0xc01041bd0 wm) :
    Answers wm s (execPhaseDieReport d s) := by
  unfold execPhaseDieReport
  repeat' first
    | (with_reducible first | assumption | exact Keeps.refl _ _ | exact hw | exact hw.mono (by decide)) | exact fun _ h => h
    | exact fun _ h => armed_not_safe h | exact fun _ h => run_not_safe h | intro _
    | ((fail_if_no_progress extract_lets +onlyGivenNames x); refine Keeps.cut (w := wm) (s := s) (v := x) ?_ ?_)
    | fail_if_no_progress extract_lets +onlyGivenNames x
    | (with_reducible first | apply Answers.next | apply Answers.ite | apply State.abortHeard_keeps)
    | (with_reducible first | apply State.currentHeard_keeps | apply State.faultScan_keeps | apply State.modDie_keeps)
    | (with_reducible first | apply State.safeHeard_keeps | apply State.stamp_keeps | apply Keeps.ite) | dsimp -zeta only [x] | split

theorem State.closeWindow_keeps {wm : Nat} {s0 s : State} (p : Fin 48) (h : Keeps wm s0 s) (hw : Within 0x340 wm) :
    Keeps wm s0 (State.closeWindow s p) := by
  unfold State.closeWindow
  repeat' first
    | (with_reducible first | assumption | exact hw | exact hw.mono (by decide)) | exact (⟨fun a => a, fun a => a⟩ : Lower _ _)
    | with_reducible exact fun _ => ⟨fun a => a, fun a => a⟩ | exact fun _ => ⟨fun a => a, fun a => a⟩
    | exact fun _ => ⟨fun h => absurd h Bool.false_ne_true, fun h => absurd h Bool.false_ne_true⟩ | intro _
    | ((fail_if_no_progress extract_lets +onlyGivenNames x); refine Keeps.cut (w := wm) (s := s0) (v := x) ?_ ?_)
    | ((fail_if_no_progress extract_lets +onlyGivenNames x); clear_value x) | fail_if_no_progress extract_lets +onlyGivenNames x
    | (with_reducible first | apply State.log_keeps | apply State.modPh_keeps | apply State.modPst_keeps | apply Keeps.ite)

theorem State.imbalanceStep_keeps {wm : Nat} {s0 s : State} (entropy : Nat) (whole : Fin 48 → Bool) (l : Fin 16) (h : Keeps wm s0 s) (hw : Within 0x840 wm) :
    Keeps wm s0 (State.imbalanceStep s entropy whole l) := by
  unfold State.imbalanceStep
  repeat' first
    | (with_reducible first | assumption | exact hw | exact hw.mono (by decide)) | intro _
    | ((fail_if_no_progress extract_lets +onlyGivenNames x); refine Keeps.cut (w := wm) (s := s0) (v := x) ?_ ?_)
    | ((fail_if_no_progress extract_lets +onlyGivenNames x); clear_value x) | fail_if_no_progress extract_lets +onlyGivenNames x
    | (with_reducible first | apply State.log_keeps | apply State.modEb_keeps | apply State.modLoop_keeps | apply Keeps.ite)
    | (with_reducible first | apply Keeps.foldl | apply Keeps.foldlSnd | apply Keeps.foldlFst) | dsimp -zeta only [x] | split

theorem State.hotStep_keeps {wm : Nat} {s0 s : State} (l : Fin 16) (h : Keeps wm s0 s) (hw : Within 0x940 wm) :
    Keeps wm s0 (State.hotStep s l) := by
  unfold State.hotStep
  repeat' first
    | (with_reducible first | assumption | exact hw | exact hw.mono (by decide)) | exact (⟨fun a => a, fun a => a⟩ : Lower _ _)
    | with_reducible exact fun _ => ⟨fun a => a, fun a => a⟩ | exact fun _ => ⟨fun a => a, fun a => a⟩
    | exact fun _ => ⟨fun h => absurd h Bool.false_ne_true, fun h => absurd h Bool.false_ne_true⟩ | intro _
    | ((fail_if_no_progress extract_lets +onlyGivenNames x); refine Keeps.cut (w := wm) (s := s0) (v := x) ?_ ?_)
    | ((fail_if_no_progress extract_lets +onlyGivenNames x); clear_value x) | fail_if_no_progress extract_lets +onlyGivenNames x
    | (with_reducible first | apply State.log_keeps | apply State.modEb_keeps | apply State.modPh_keeps | apply Keeps.ite)
    | with_reducible apply Keeps.foldl

theorem execEbbWindowEnd_answers (entropy : Nat) {wm : Nat} (s : State) (hw : Within 0x1b50 wm) :
    Answers wm s (execEbbWindowEnd entropy s) := by
  unfold execEbbWindowEnd
  repeat' first
    | (with_reducible first | assumption | exact Keeps.refl _ _ | exact hw | exact hw.mono (by decide)) | intro _
    | ((fail_if_no_progress extract_lets +onlyGivenNames x); refine Keeps.cut (w := wm) (s := s) (v := x) ?_ ?_)
    | fail_if_no_progress extract_lets +onlyGivenNames x
    | (with_reducible first | apply Answers.next | apply Answers.ite | apply State.closeWindow_keeps)
    | (with_reducible first | apply State.faultScan_keeps | apply State.hotStep_keeps | apply State.imbalanceStep_keeps)
    | (with_reducible first | apply State.stamp_keeps | apply Keeps.ite | apply Keeps.foldl)

theorem State.supplyScan_keeps {wm : Nat} {s0 s : State} (v : Vector Int 10) (h : Keeps wm s0 s) (hw : Within 0x20000040 wm) :
    Keeps wm s0 (State.supplyScan s v) := by
  unfold State.supplyScan
  repeat' first
    | (with_reducible first | assumption | exact hw | exact hw.mono (by decide)) | intro _
    | ((fail_if_no_progress extract_lets +onlyGivenNames x); refine Keeps.cut (w := wm) (s := s0) (v := x) ?_ ?_)
    | ((fail_if_no_progress extract_lets +onlyGivenNames x); clear_value x) | fail_if_no_progress extract_lets +onlyGivenNames x
    | (with_reducible first | apply State.log_keeps | apply Keeps.ite) | dsimp -zeta only [x] | split | dsimp -zeta only
    | (fail_if_no_progress ((with_reducible apply Keeps.upd); on_goal 2 => exact fun p hp => by cases p <;> first | with_reducible exact rfl | exact hw.no rfl hp))

theorem execThermScan_answers (raw : Vector Int 44) (xt : Vector Nat 16) (sup : Vector Int 10) {wm : Nat} (s : State) (hw : Within 0xffffffbde wm) :
    Answers wm s (execThermScan raw xt sup s) := by
  unfold execThermScan
  repeat' first
    | (with_reducible first | assumption | exact Keeps.refl _ _ | exact hw | exact hw.mono (by decide)) | intro _
    | ((fail_if_no_progress extract_lets +onlyGivenNames x); refine Keeps.cut (w := wm) (s := s) (v := x) ?_ ?_)
    | ((fail_if_no_progress extract_lets +onlyGivenNames x); clear_value x) | fail_if_no_progress extract_lets +onlyGivenNames x
    | (with_reducible first | apply Answers.next | apply Answers.ite | apply State.compensateTemp_keeps)
    | (with_reducible first | apply State.dieScan_keeps | apply State.groupScan_keeps | apply State.modTherm_keeps)
    | (with_reducible first | apply State.scanRead_keeps | apply State.sensorLog_keeps | apply State.supplyScan_keeps)
    | (with_reducible first | apply State.thermPublish_keeps | apply Keeps.ite | apply Keeps.foldl)

theorem execBankThermalScan_answers (raw : Vector Int 4) {wm : Nat} (s : State) (hw : Within 0xfdffffbdc wm) :
    Answers wm s (execBankThermalScan raw s) := by
  unfold execBankThermalScan
  repeat' first
    | (with_reducible first | assumption | exact Keeps.refl _ _ | exact hw | exact hw.mono (by decide)) | intro _
    | ((fail_if_no_progress extract_lets +onlyGivenNames x); refine Keeps.cut (w := wm) (s := s) (v := x) ?_ ?_)
    | ((fail_if_no_progress extract_lets +onlyGivenNames x); clear_value x) | fail_if_no_progress extract_lets +onlyGivenNames x
    | (with_reducible first | apply Answers.next | apply Answers.ite | apply State.dieMachine_keeps)
    | (with_reducible first | apply State.modTherm_keeps | apply Keeps.ite | apply Keeps.foldl | apply Keeps.foldlSnd)
    | with_reducible apply Keeps.foldlFst | dsimp -zeta only [x] | split

theorem execThermAutoStart_answers (l : Fin 16) {wm : Nat} (s : State) (hw : Within 0xe080018d0 wm) :
    Answers wm s (execThermAutoStart l s) := by
  unfold execThermAutoStart
  repeat' first
    | (with_reducible first | assumption | exact Keeps.refl _ _ | exact hw | exact hw.mono (by decide)) | intro _
    | fail_if_no_progress extract_lets +onlyGivenNames x
    | (with_reducible first | apply Answers.next | apply Answers.ite | apply State.loopStart_keeps | apply State.stamp_keeps)
    | with_reducible apply Keeps.ite

theorem execThermCtrlClearLatch_answers (d : Fin 8) (k : Fin 8) {wm : Nat} (s : State) (hw : Within 0xa800040 wm) :
    Answers wm s (execThermCtrlClearLatch d k s) := by
  unfold execThermCtrlClearLatch
  repeat' first
    | (with_reducible first | assumption | exact Keeps.refl _ _ | exact hw | exact hw.mono (by decide)) | intro _
    | fail_if_no_progress extract_lets +onlyGivenNames x
    | (with_reducible first | apply Answers.next | apply Answers.ite | apply State.control_keeps)
    | with_reducible apply State.thermClearLatch_keeps

theorem execThermSensorRelearn_answers (n : Fin 64) (k : Fin 8) {wm : Nat} (s : State) (hw : Within 0xa000000 wm) :
    Answers wm s (execThermSensorRelearn n k s) := by
  unfold execThermSensorRelearn
  repeat' first
    | (with_reducible first | assumption | exact Keeps.refl _ _ | exact hw | exact hw.mono (by decide)) | intro _
    | fail_if_no_progress extract_lets +onlyGivenNames x
    | (with_reducible first | apply Answers.next | apply Answers.ite | apply State.control_keeps)
    | with_reducible apply State.sensorRelearn_keeps

theorem execTimerAdvance_answers (t : Fin 32) {wm : Nat} (s : State) (hw : Within 0x10000000 wm) :
    Answers wm s (execTimerAdvance t s) := by
  unfold execTimerAdvance
  repeat' first
    | (with_reducible first | assumption | exact Keeps.refl _ _ | exact hw | exact hw.mono (by decide)) | intro _
    | fail_if_no_progress extract_lets +onlyGivenNames x
    | (with_reducible first | apply Answers.next | apply Answers.ite | apply State.timerTick_keeps | apply Keeps.ite)

theorem execTimerWriteApply_answers (t : Fin 32) {wm : Nat} (s : State) (hw : Within 0x10000000 wm) :
    Answers wm s (execTimerWriteApply t s) := by
  unfold execTimerWriteApply
  repeat' first
    | (with_reducible first | assumption | exact Keeps.refl _ _ | exact hw | exact hw.mono (by decide)) | intro _
    | fail_if_no_progress extract_lets +onlyGivenNames x
    | (with_reducible first | apply Answers.next | apply Answers.ite | apply State.modTimer_keeps)
    | (with_reducible first | apply State.timerTick_keeps | apply Keeps.ite)

theorem execTimerCtrlStart_answers (t : Fin 32) (k : Fin 8) {wm : Nat} (s : State) (hw : Within 0x12000000 wm) :
    Answers wm s (execTimerCtrlStart t k s) := by
  unfold execTimerCtrlStart
  repeat' first
    | (with_reducible first | assumption | exact Keeps.refl _ _ | exact hw | exact hw.mono (by decide)) | intro _
    | fail_if_no_progress extract_lets +onlyGivenNames x
    | (with_reducible first | apply Answers.next | apply Answers.ite | apply State.control_keeps)
    | with_reducible apply State.timerWrite_keeps

theorem execTimerCtrlStop_answers (t : Fin 32) (k : Fin 8) {wm : Nat} (s : State) (hw : Within 0x12000000 wm) :
    Answers wm s (execTimerCtrlStop t k s) := by
  unfold execTimerCtrlStop
  repeat' first
    | (with_reducible first | assumption | exact Keeps.refl _ _ | exact hw | exact hw.mono (by decide)) | intro _
    | fail_if_no_progress extract_lets +onlyGivenNames x
    | (with_reducible first | apply Answers.next | apply Answers.ite | apply State.control_keeps)
    | with_reducible apply State.timerWrite_keeps

theorem execTimerCtrlClear_answers (t : Fin 32) (k : Fin 8) {wm : Nat} (s : State) (hw : Within 0x12000000 wm) :
    Answers wm s (execTimerCtrlClear t k s) := by
  unfold execTimerCtrlClear
  repeat' first
    | (with_reducible first | assumption | exact Keeps.refl _ _ | exact hw | exact hw.mono (by decide)) | intro _
    | fail_if_no_progress extract_lets +onlyGivenNames x
    | (with_reducible first | apply Answers.next | apply Answers.ite | apply State.control_keeps)
    | with_reducible apply State.timerWrite_keeps

theorem execTimerCapture_answers (src : Fin 51) (falling : Bool) (held : Nat) {wm : Nat} (s : State) (hw : Within 0x10200050 wm) :
    Answers wm s (execTimerCapture src falling held s) := by
  unfold execTimerCapture
  repeat' first
    | (with_reducible first | assumption | exact Keeps.refl _ _ | exact hw | exact hw.mono (by decide)) | intro _
    | ((fail_if_no_progress extract_lets +onlyGivenNames x); refine Keeps.cut (w := wm) (s := s) (v := x) ?_ ?_)
    | fail_if_no_progress extract_lets +onlyGivenNames x
    | (with_reducible first | apply Answers.next | apply Answers.ite | apply State.deliver_keeps | apply State.recognise_keeps)
    | (with_reducible first | apply Keeps.ite | apply Keeps.foldl)

end Sys2Proof.Machine
end

