-- ==== Sys2Proof/Laws/State.lean ====
section
/-! SUPPORT. One pair of lemmas per update of the state: the part it writes, and every other part as it was; a place of a table after an
update; the narrower updates in terms of the wider. -/

namespace Sys2Proof

/-- The place updated. -/
@[simp] theorem upd_at {α : Type} {n : Nat} (v : Vector α n) (i : Fin n) (f : α → α) : (upd v i f)[i.val] = f v[i.val] := by
  simp [upd]

/-- A place not updated. -/
theorem upd_ne {α : Type} {n : Nat} (v : Vector α n) {i j : Fin n} (f : α → α) (h : j ≠ i) : (upd v i f)[j.val] = v[j.val] := by
  simp only [upd]
  exact Vector.getElem_set_ne _ _ (fun e => h (Fin.ext e.symm))

/-- A table built from a rule. -/
@[simp] theorem tab_at {α : Type} {n : Nat} (f : Fin n → α) (i : Fin n) : (tab n f)[i.val] = f i := by
  simp [tab]

end Sys2Proof

namespace Sys2Proof.Machine

@[simp] theorem State.setPar_cfg (s : State) (p : Prm) (i : Nat) (v : Int) :
    (State.setPar s p i v).cfg = cfgSet s.cfg p i v := rfl

@[simp] theorem State.setPar_rest (s : State) (p : Prm) (i : Nat) (v : Int) :
    (State.setPar s p i v).pending = s.pending ∧ (State.setPar s p i v).clk = s.clk ∧ (State.setPar s p i v).tb = s.tb
    ∧ (State.setPar s p i v).slu = s.slu ∧ (State.setPar s p i v).lag = s.lag ∧ (State.setPar s p i v).ord = s.ord
    ∧ (State.setPar s p i v).free = s.free ∧ (State.setPar s p i v).evq = s.evq ∧ (State.setPar s p i v).die = s.die
    ∧ (State.setPar s p i v).ph = s.ph ∧ (State.setPar s p i v).pst = s.pst ∧ (State.setPar s p i v).vs = s.vs
    ∧ (State.setPar s p i v).loop = s.loop ∧ (State.setPar s p i v).fault = s.fault ∧ (State.setPar s p i v).stemRep = s.stemRep
    ∧ (State.setPar s p i v).share = s.share ∧ (State.setPar s p i v).hold = s.hold ∧ (State.setPar s p i v).bank = s.bank
    ∧ (State.setPar s p i v).weir = s.weir ∧ (State.setPar s p i v).batt = s.batt ∧ (State.setPar s p i v).port = s.port
    ∧ (State.setPar s p i v).nodes = s.nodes ∧ (State.setPar s p i v).pool = s.pool ∧ (State.setPar s p i v).mram = s.mram
    ∧ (State.setPar s p i v).silt = s.silt ∧ (State.setPar s p i v).spate = s.spate ∧ (State.setPar s p i v).host = s.host
    ∧ (State.setPar s p i v).stems = s.stems ∧ (State.setPar s p i v).passed = s.passed ∧ (State.setPar s p i v).therm = s.therm
    ∧ (State.setPar s p i v).timer = s.timer ∧ (State.setPar s p i v).power = s.power ∧ (State.setPar s p i v).spring = s.spring
    ∧ (State.setPar s p i v).firm = s.firm ∧ (State.setPar s p i v).chain = s.chain ∧ (State.setPar s p i v).dev = s.dev :=
    ⟨rfl, rfl, rfl, rfl, rfl, rfl, rfl, rfl, rfl, rfl, rfl, rfl, rfl, rfl, rfl, rfl, rfl, rfl, rfl, rfl, rfl, rfl, rfl, rfl, rfl, rfl, rfl, rfl, rfl, rfl, rfl, rfl, rfl, rfl, rfl, rfl⟩

@[simp] theorem State.log_evq (s : State) (code src : Nat) (data : Int) :
    (State.log s code src data).evq = s.evq ++ [⟨code, src, toWord 64 data, s.clk.shelf⟩] := rfl

@[simp] theorem State.log_rest (s : State) (code src : Nat) (data : Int) :
    (State.log s code src data).pending = s.pending ∧ (State.log s code src data).clk = s.clk ∧ (State.log s code src data).tb = s.tb
    ∧ (State.log s code src data).slu = s.slu ∧ (State.log s code src data).cfg = s.cfg ∧ (State.log s code src data).lag = s.lag
    ∧ (State.log s code src data).ord = s.ord ∧ (State.log s code src data).free = s.free ∧ (State.log s code src data).die = s.die
    ∧ (State.log s code src data).ph = s.ph ∧ (State.log s code src data).pst = s.pst ∧ (State.log s code src data).vs = s.vs
    ∧ (State.log s code src data).loop = s.loop ∧ (State.log s code src data).fault = s.fault
    ∧ (State.log s code src data).stemRep = s.stemRep ∧ (State.log s code src data).share = s.share
    ∧ (State.log s code src data).hold = s.hold ∧ (State.log s code src data).bank = s.bank ∧ (State.log s code src data).weir = s.weir
    ∧ (State.log s code src data).batt = s.batt ∧ (State.log s code src data).port = s.port ∧ (State.log s code src data).nodes = s.nodes
    ∧ (State.log s code src data).pool = s.pool ∧ (State.log s code src data).mram = s.mram ∧ (State.log s code src data).silt = s.silt
    ∧ (State.log s code src data).spate = s.spate ∧ (State.log s code src data).host = s.host
    ∧ (State.log s code src data).stems = s.stems ∧ (State.log s code src data).passed = s.passed
    ∧ (State.log s code src data).therm = s.therm ∧ (State.log s code src data).timer = s.timer
    ∧ (State.log s code src data).power = s.power ∧ (State.log s code src data).spring = s.spring
    ∧ (State.log s code src data).firm = s.firm ∧ (State.log s code src data).chain = s.chain ∧ (State.log s code src data).dev = s.dev :=
    ⟨rfl, rfl, rfl, rfl, rfl, rfl, rfl, rfl, rfl, rfl, rfl, rfl, rfl, rfl, rfl, rfl, rfl, rfl, rfl, rfl, rfl, rfl, rfl, rfl, rfl, rfl, rfl, rfl, rfl, rfl, rfl, rfl, rfl, rfl, rfl, rfl⟩

@[simp] theorem State.logAt_evq (s : State) (code src : Nat) (data : Int) (time : Nat) :
    (State.logAt s code src data time).evq = s.evq ++ [⟨code, src, toWord 64 data, time⟩] := rfl

@[simp] theorem State.logAt_rest (s : State) (code src : Nat) (data : Int) (time : Nat) :
    (State.logAt s code src data time).pending = s.pending ∧ (State.logAt s code src data time).clk = s.clk
    ∧ (State.logAt s code src data time).tb = s.tb ∧ (State.logAt s code src data time).slu = s.slu
    ∧ (State.logAt s code src data time).cfg = s.cfg ∧ (State.logAt s code src data time).lag = s.lag
    ∧ (State.logAt s code src data time).ord = s.ord ∧ (State.logAt s code src data time).free = s.free
    ∧ (State.logAt s code src data time).die = s.die ∧ (State.logAt s code src data time).ph = s.ph
    ∧ (State.logAt s code src data time).pst = s.pst ∧ (State.logAt s code src data time).vs = s.vs
    ∧ (State.logAt s code src data time).loop = s.loop ∧ (State.logAt s code src data time).fault = s.fault
    ∧ (State.logAt s code src data time).stemRep = s.stemRep ∧ (State.logAt s code src data time).share = s.share
    ∧ (State.logAt s code src data time).hold = s.hold ∧ (State.logAt s code src data time).bank = s.bank
    ∧ (State.logAt s code src data time).weir = s.weir ∧ (State.logAt s code src data time).batt = s.batt
    ∧ (State.logAt s code src data time).port = s.port ∧ (State.logAt s code src data time).nodes = s.nodes
    ∧ (State.logAt s code src data time).pool = s.pool ∧ (State.logAt s code src data time).mram = s.mram
    ∧ (State.logAt s code src data time).silt = s.silt ∧ (State.logAt s code src data time).spate = s.spate
    ∧ (State.logAt s code src data time).host = s.host ∧ (State.logAt s code src data time).stems = s.stems
    ∧ (State.logAt s code src data time).passed = s.passed ∧ (State.logAt s code src data time).therm = s.therm
    ∧ (State.logAt s code src data time).timer = s.timer ∧ (State.logAt s code src data time).power = s.power
    ∧ (State.logAt s code src data time).spring = s.spring ∧ (State.logAt s code src data time).firm = s.firm
    ∧ (State.logAt s code src data time).chain = s.chain ∧ (State.logAt s code src data time).dev = s.dev :=
    ⟨rfl, rfl, rfl, rfl, rfl, rfl, rfl, rfl, rfl, rfl, rfl, rfl, rfl, rfl, rfl, rfl, rfl, rfl, rfl, rfl, rfl, rfl, rfl, rfl, rfl, rfl, rfl, rfl, rfl, rfl, rfl, rfl, rfl, rfl, rfl, rfl⟩

@[simp] theorem State.stamp_ord (s : State) :
    (State.stamp s).ord = s.ord + 1 := rfl

@[simp] theorem State.stamp_rest (s : State) :
    (State.stamp s).pending = s.pending ∧ (State.stamp s).clk = s.clk ∧ (State.stamp s).tb = s.tb ∧ (State.stamp s).slu = s.slu
    ∧ (State.stamp s).cfg = s.cfg ∧ (State.stamp s).lag = s.lag ∧ (State.stamp s).free = s.free ∧ (State.stamp s).evq = s.evq
    ∧ (State.stamp s).die = s.die ∧ (State.stamp s).ph = s.ph ∧ (State.stamp s).pst = s.pst ∧ (State.stamp s).vs = s.vs
    ∧ (State.stamp s).loop = s.loop ∧ (State.stamp s).fault = s.fault ∧ (State.stamp s).stemRep = s.stemRep
    ∧ (State.stamp s).share = s.share ∧ (State.stamp s).hold = s.hold ∧ (State.stamp s).bank = s.bank ∧ (State.stamp s).weir = s.weir
    ∧ (State.stamp s).batt = s.batt ∧ (State.stamp s).port = s.port ∧ (State.stamp s).nodes = s.nodes ∧ (State.stamp s).pool = s.pool
    ∧ (State.stamp s).mram = s.mram ∧ (State.stamp s).silt = s.silt ∧ (State.stamp s).spate = s.spate ∧ (State.stamp s).host = s.host
    ∧ (State.stamp s).stems = s.stems ∧ (State.stamp s).passed = s.passed ∧ (State.stamp s).therm = s.therm
    ∧ (State.stamp s).timer = s.timer ∧ (State.stamp s).power = s.power ∧ (State.stamp s).spring = s.spring
    ∧ (State.stamp s).firm = s.firm ∧ (State.stamp s).chain = s.chain ∧ (State.stamp s).dev = s.dev :=
    ⟨rfl, rfl, rfl, rfl, rfl, rfl, rfl, rfl, rfl, rfl, rfl, rfl, rfl, rfl, rfl, rfl, rfl, rfl, rfl, rfl, rfl, rfl, rfl, rfl, rfl, rfl, rfl, rfl, rfl, rfl, rfl, rfl, rfl, rfl, rfl, rfl⟩

@[simp] theorem State.stemFault_stemRep (s : State) (kind : Nat) :
    (State.stemFault s kind).stemRep = s.stemRep ++ [(s.activeStem, kind)] := rfl

@[simp] theorem State.stemFault_rest (s : State) (kind : Nat) :
    (State.stemFault s kind).pending = s.pending ∧ (State.stemFault s kind).clk = s.clk ∧ (State.stemFault s kind).tb = s.tb
    ∧ (State.stemFault s kind).slu = s.slu ∧ (State.stemFault s kind).cfg = s.cfg ∧ (State.stemFault s kind).lag = s.lag
    ∧ (State.stemFault s kind).ord = s.ord ∧ (State.stemFault s kind).free = s.free ∧ (State.stemFault s kind).evq = s.evq
    ∧ (State.stemFault s kind).die = s.die ∧ (State.stemFault s kind).ph = s.ph ∧ (State.stemFault s kind).pst = s.pst
    ∧ (State.stemFault s kind).vs = s.vs ∧ (State.stemFault s kind).loop = s.loop ∧ (State.stemFault s kind).fault = s.fault
    ∧ (State.stemFault s kind).share = s.share ∧ (State.stemFault s kind).hold = s.hold ∧ (State.stemFault s kind).bank = s.bank
    ∧ (State.stemFault s kind).weir = s.weir ∧ (State.stemFault s kind).batt = s.batt ∧ (State.stemFault s kind).port = s.port
    ∧ (State.stemFault s kind).nodes = s.nodes ∧ (State.stemFault s kind).pool = s.pool ∧ (State.stemFault s kind).mram = s.mram
    ∧ (State.stemFault s kind).silt = s.silt ∧ (State.stemFault s kind).spate = s.spate ∧ (State.stemFault s kind).host = s.host
    ∧ (State.stemFault s kind).stems = s.stems ∧ (State.stemFault s kind).passed = s.passed ∧ (State.stemFault s kind).therm = s.therm
    ∧ (State.stemFault s kind).timer = s.timer ∧ (State.stemFault s kind).power = s.power ∧ (State.stemFault s kind).spring = s.spring
    ∧ (State.stemFault s kind).firm = s.firm ∧ (State.stemFault s kind).chain = s.chain ∧ (State.stemFault s kind).dev = s.dev :=
    ⟨rfl, rfl, rfl, rfl, rfl, rfl, rfl, rfl, rfl, rfl, rfl, rfl, rfl, rfl, rfl, rfl, rfl, rfl, rfl, rfl, rfl, rfl, rfl, rfl, rfl, rfl, rfl, rfl, rfl, rfl, rfl, rfl, rfl, rfl, rfl, rfl⟩

@[simp] theorem State.spateReq_spate (s : State) (code arg : Nat) :
    (State.spateReq s code arg).spate = { s.spate with trigs := s.spate.trigs ++ [⟨code, arg, s.clk.shelf, s.ord⟩] } := rfl

@[simp] theorem State.spateReq_rest (s : State) (code arg : Nat) :
    (State.spateReq s code arg).pending = s.pending ∧ (State.spateReq s code arg).clk = s.clk ∧ (State.spateReq s code arg).tb = s.tb
    ∧ (State.spateReq s code arg).slu = s.slu ∧ (State.spateReq s code arg).cfg = s.cfg ∧ (State.spateReq s code arg).lag = s.lag
    ∧ (State.spateReq s code arg).ord = s.ord ∧ (State.spateReq s code arg).free = s.free ∧ (State.spateReq s code arg).evq = s.evq
    ∧ (State.spateReq s code arg).die = s.die ∧ (State.spateReq s code arg).ph = s.ph ∧ (State.spateReq s code arg).pst = s.pst
    ∧ (State.spateReq s code arg).vs = s.vs ∧ (State.spateReq s code arg).loop = s.loop ∧ (State.spateReq s code arg).fault = s.fault
    ∧ (State.spateReq s code arg).stemRep = s.stemRep ∧ (State.spateReq s code arg).share = s.share
    ∧ (State.spateReq s code arg).hold = s.hold ∧ (State.spateReq s code arg).bank = s.bank ∧ (State.spateReq s code arg).weir = s.weir
    ∧ (State.spateReq s code arg).batt = s.batt ∧ (State.spateReq s code arg).port = s.port ∧ (State.spateReq s code arg).nodes = s.nodes
    ∧ (State.spateReq s code arg).pool = s.pool ∧ (State.spateReq s code arg).mram = s.mram ∧ (State.spateReq s code arg).silt = s.silt
    ∧ (State.spateReq s code arg).host = s.host ∧ (State.spateReq s code arg).stems = s.stems
    ∧ (State.spateReq s code arg).passed = s.passed ∧ (State.spateReq s code arg).therm = s.therm
    ∧ (State.spateReq s code arg).timer = s.timer ∧ (State.spateReq s code arg).power = s.power
    ∧ (State.spateReq s code arg).spring = s.spring ∧ (State.spateReq s code arg).firm = s.firm
    ∧ (State.spateReq s code arg).chain = s.chain ∧ (State.spateReq s code arg).dev = s.dev :=
    ⟨rfl, rfl, rfl, rfl, rfl, rfl, rfl, rfl, rfl, rfl, rfl, rfl, rfl, rfl, rfl, rfl, rfl, rfl, rfl, rfl, rfl, rfl, rfl, rfl, rfl, rfl, rfl, rfl, rfl, rfl, rfl, rfl, rfl, rfl, rfl, rfl⟩

@[simp] theorem State.output_passed (s : State) (g : Fin 5) :
    (State.output s g).passed = upd s.passed g (· + 1) := rfl

@[simp] theorem State.output_rest (s : State) (g : Fin 5) :
    (State.output s g).pending = s.pending ∧ (State.output s g).clk = s.clk ∧ (State.output s g).tb = s.tb
    ∧ (State.output s g).slu = s.slu ∧ (State.output s g).cfg = s.cfg ∧ (State.output s g).lag = s.lag ∧ (State.output s g).ord = s.ord
    ∧ (State.output s g).free = s.free ∧ (State.output s g).evq = s.evq ∧ (State.output s g).die = s.die ∧ (State.output s g).ph = s.ph
    ∧ (State.output s g).pst = s.pst ∧ (State.output s g).vs = s.vs ∧ (State.output s g).loop = s.loop
    ∧ (State.output s g).fault = s.fault ∧ (State.output s g).stemRep = s.stemRep ∧ (State.output s g).share = s.share
    ∧ (State.output s g).hold = s.hold ∧ (State.output s g).bank = s.bank ∧ (State.output s g).weir = s.weir
    ∧ (State.output s g).batt = s.batt ∧ (State.output s g).port = s.port ∧ (State.output s g).nodes = s.nodes
    ∧ (State.output s g).pool = s.pool ∧ (State.output s g).mram = s.mram ∧ (State.output s g).silt = s.silt
    ∧ (State.output s g).spate = s.spate ∧ (State.output s g).host = s.host ∧ (State.output s g).stems = s.stems
    ∧ (State.output s g).therm = s.therm ∧ (State.output s g).timer = s.timer ∧ (State.output s g).power = s.power
    ∧ (State.output s g).spring = s.spring ∧ (State.output s g).firm = s.firm ∧ (State.output s g).chain = s.chain
    ∧ (State.output s g).dev = s.dev :=
    ⟨rfl, rfl, rfl, rfl, rfl, rfl, rfl, rfl, rfl, rfl, rfl, rfl, rfl, rfl, rfl, rfl, rfl, rfl, rfl, rfl, rfl, rfl, rfl, rfl, rfl, rfl, rfl, rfl, rfl, rfl, rfl, rfl, rfl, rfl, rfl, rfl⟩

@[simp] theorem State.modTb_tb (s : State) (f : TimeBase → TimeBase) :
    (State.modTb s f).tb = f s.tb := rfl

@[simp] theorem State.modTb_rest (s : State) (f : TimeBase → TimeBase) :
    (State.modTb s f).pending = s.pending ∧ (State.modTb s f).clk = s.clk ∧ (State.modTb s f).slu = s.slu ∧ (State.modTb s f).cfg = s.cfg
    ∧ (State.modTb s f).lag = s.lag ∧ (State.modTb s f).ord = s.ord ∧ (State.modTb s f).free = s.free ∧ (State.modTb s f).evq = s.evq
    ∧ (State.modTb s f).die = s.die ∧ (State.modTb s f).ph = s.ph ∧ (State.modTb s f).pst = s.pst ∧ (State.modTb s f).vs = s.vs
    ∧ (State.modTb s f).loop = s.loop ∧ (State.modTb s f).fault = s.fault ∧ (State.modTb s f).stemRep = s.stemRep
    ∧ (State.modTb s f).share = s.share ∧ (State.modTb s f).hold = s.hold ∧ (State.modTb s f).bank = s.bank
    ∧ (State.modTb s f).weir = s.weir ∧ (State.modTb s f).batt = s.batt ∧ (State.modTb s f).port = s.port
    ∧ (State.modTb s f).nodes = s.nodes ∧ (State.modTb s f).pool = s.pool ∧ (State.modTb s f).mram = s.mram
    ∧ (State.modTb s f).silt = s.silt ∧ (State.modTb s f).spate = s.spate ∧ (State.modTb s f).host = s.host
    ∧ (State.modTb s f).stems = s.stems ∧ (State.modTb s f).passed = s.passed ∧ (State.modTb s f).therm = s.therm
    ∧ (State.modTb s f).timer = s.timer ∧ (State.modTb s f).power = s.power ∧ (State.modTb s f).spring = s.spring
    ∧ (State.modTb s f).firm = s.firm ∧ (State.modTb s f).chain = s.chain ∧ (State.modTb s f).dev = s.dev :=
    ⟨rfl, rfl, rfl, rfl, rfl, rfl, rfl, rfl, rfl, rfl, rfl, rfl, rfl, rfl, rfl, rfl, rfl, rfl, rfl, rfl, rfl, rfl, rfl, rfl, rfl, rfl, rfl, rfl, rfl, rfl, rfl, rfl, rfl, rfl, rfl, rfl⟩

@[simp] theorem State.modPh_ph (s : State) (p : Fin 48) (f : Phase → Phase) :
    (State.modPh s p f).ph = upd s.ph p f := rfl

@[simp] theorem State.modPh_rest (s : State) (p : Fin 48) (f : Phase → Phase) :
    (State.modPh s p f).pending = s.pending ∧ (State.modPh s p f).clk = s.clk ∧ (State.modPh s p f).tb = s.tb
    ∧ (State.modPh s p f).slu = s.slu ∧ (State.modPh s p f).cfg = s.cfg ∧ (State.modPh s p f).lag = s.lag
    ∧ (State.modPh s p f).ord = s.ord ∧ (State.modPh s p f).free = s.free ∧ (State.modPh s p f).evq = s.evq
    ∧ (State.modPh s p f).die = s.die ∧ (State.modPh s p f).pst = s.pst ∧ (State.modPh s p f).vs = s.vs
    ∧ (State.modPh s p f).loop = s.loop ∧ (State.modPh s p f).fault = s.fault ∧ (State.modPh s p f).stemRep = s.stemRep
    ∧ (State.modPh s p f).share = s.share ∧ (State.modPh s p f).hold = s.hold ∧ (State.modPh s p f).bank = s.bank
    ∧ (State.modPh s p f).weir = s.weir ∧ (State.modPh s p f).batt = s.batt ∧ (State.modPh s p f).port = s.port
    ∧ (State.modPh s p f).nodes = s.nodes ∧ (State.modPh s p f).pool = s.pool ∧ (State.modPh s p f).mram = s.mram
    ∧ (State.modPh s p f).silt = s.silt ∧ (State.modPh s p f).spate = s.spate ∧ (State.modPh s p f).host = s.host
    ∧ (State.modPh s p f).stems = s.stems ∧ (State.modPh s p f).passed = s.passed ∧ (State.modPh s p f).therm = s.therm
    ∧ (State.modPh s p f).timer = s.timer ∧ (State.modPh s p f).power = s.power ∧ (State.modPh s p f).spring = s.spring
    ∧ (State.modPh s p f).firm = s.firm ∧ (State.modPh s p f).chain = s.chain ∧ (State.modPh s p f).dev = s.dev :=
    ⟨rfl, rfl, rfl, rfl, rfl, rfl, rfl, rfl, rfl, rfl, rfl, rfl, rfl, rfl, rfl, rfl, rfl, rfl, rfl, rfl, rfl, rfl, rfl, rfl, rfl, rfl, rfl, rfl, rfl, rfl, rfl, rfl, rfl, rfl, rfl, rfl⟩

@[simp] theorem State.modPst_pst (s : State) (p : Fin 48) (f : PhaseStat → PhaseStat) :
    (State.modPst s p f).pst = upd s.pst p f := rfl

@[simp] theorem State.modPst_rest (s : State) (p : Fin 48) (f : PhaseStat → PhaseStat) :
    (State.modPst s p f).pending = s.pending ∧ (State.modPst s p f).clk = s.clk ∧ (State.modPst s p f).tb = s.tb
    ∧ (State.modPst s p f).slu = s.slu ∧ (State.modPst s p f).cfg = s.cfg ∧ (State.modPst s p f).lag = s.lag
    ∧ (State.modPst s p f).ord = s.ord ∧ (State.modPst s p f).free = s.free ∧ (State.modPst s p f).evq = s.evq
    ∧ (State.modPst s p f).die = s.die ∧ (State.modPst s p f).ph = s.ph ∧ (State.modPst s p f).vs = s.vs
    ∧ (State.modPst s p f).loop = s.loop ∧ (State.modPst s p f).fault = s.fault ∧ (State.modPst s p f).stemRep = s.stemRep
    ∧ (State.modPst s p f).share = s.share ∧ (State.modPst s p f).hold = s.hold ∧ (State.modPst s p f).bank = s.bank
    ∧ (State.modPst s p f).weir = s.weir ∧ (State.modPst s p f).batt = s.batt ∧ (State.modPst s p f).port = s.port
    ∧ (State.modPst s p f).nodes = s.nodes ∧ (State.modPst s p f).pool = s.pool ∧ (State.modPst s p f).mram = s.mram
    ∧ (State.modPst s p f).silt = s.silt ∧ (State.modPst s p f).spate = s.spate ∧ (State.modPst s p f).host = s.host
    ∧ (State.modPst s p f).stems = s.stems ∧ (State.modPst s p f).passed = s.passed ∧ (State.modPst s p f).therm = s.therm
    ∧ (State.modPst s p f).timer = s.timer ∧ (State.modPst s p f).power = s.power ∧ (State.modPst s p f).spring = s.spring
    ∧ (State.modPst s p f).firm = s.firm ∧ (State.modPst s p f).chain = s.chain ∧ (State.modPst s p f).dev = s.dev :=
    ⟨rfl, rfl, rfl, rfl, rfl, rfl, rfl, rfl, rfl, rfl, rfl, rfl, rfl, rfl, rfl, rfl, rfl, rfl, rfl, rfl, rfl, rfl, rfl, rfl, rfl, rfl, rfl, rfl, rfl, rfl, rfl, rfl, rfl, rfl, rfl, rfl⟩

@[simp] theorem State.modDie_die (s : State) (d : Fin 4) (f : Die → Die) :
    (State.modDie s d f).die = upd s.die d f := rfl

@[simp] theorem State.modDie_rest (s : State) (d : Fin 4) (f : Die → Die) :
    (State.modDie s d f).pending = s.pending ∧ (State.modDie s d f).clk = s.clk ∧ (State.modDie s d f).tb = s.tb
    ∧ (State.modDie s d f).slu = s.slu ∧ (State.modDie s d f).cfg = s.cfg ∧ (State.modDie s d f).lag = s.lag
    ∧ (State.modDie s d f).ord = s.ord ∧ (State.modDie s d f).free = s.free ∧ (State.modDie s d f).evq = s.evq
    ∧ (State.modDie s d f).ph = s.ph ∧ (State.modDie s d f).pst = s.pst ∧ (State.modDie s d f).vs = s.vs
    ∧ (State.modDie s d f).loop = s.loop ∧ (State.modDie s d f).fault = s.fault ∧ (State.modDie s d f).stemRep = s.stemRep
    ∧ (State.modDie s d f).share = s.share ∧ (State.modDie s d f).hold = s.hold ∧ (State.modDie s d f).bank = s.bank
    ∧ (State.modDie s d f).weir = s.weir ∧ (State.modDie s d f).batt = s.batt ∧ (State.modDie s d f).port = s.port
    ∧ (State.modDie s d f).nodes = s.nodes ∧ (State.modDie s d f).pool = s.pool ∧ (State.modDie s d f).mram = s.mram
    ∧ (State.modDie s d f).silt = s.silt ∧ (State.modDie s d f).spate = s.spate ∧ (State.modDie s d f).host = s.host
    ∧ (State.modDie s d f).stems = s.stems ∧ (State.modDie s d f).passed = s.passed ∧ (State.modDie s d f).therm = s.therm
    ∧ (State.modDie s d f).timer = s.timer ∧ (State.modDie s d f).power = s.power ∧ (State.modDie s d f).spring = s.spring
    ∧ (State.modDie s d f).firm = s.firm ∧ (State.modDie s d f).chain = s.chain ∧ (State.modDie s d f).dev = s.dev :=
    ⟨rfl, rfl, rfl, rfl, rfl, rfl, rfl, rfl, rfl, rfl, rfl, rfl, rfl, rfl, rfl, rfl, rfl, rfl, rfl, rfl, rfl, rfl, rfl, rfl, rfl, rfl, rfl, rfl, rfl, rfl, rfl, rfl, rfl, rfl, rfl, rfl⟩

@[simp] theorem State.modVs_vs (s : State) (v : Fin 16) (f : VSense → VSense) :
    (State.modVs s v f).vs = upd s.vs v f := rfl

@[simp] theorem State.modVs_rest (s : State) (v : Fin 16) (f : VSense → VSense) :
    (State.modVs s v f).pending = s.pending ∧ (State.modVs s v f).clk = s.clk ∧ (State.modVs s v f).tb = s.tb
    ∧ (State.modVs s v f).slu = s.slu ∧ (State.modVs s v f).cfg = s.cfg ∧ (State.modVs s v f).lag = s.lag
    ∧ (State.modVs s v f).ord = s.ord ∧ (State.modVs s v f).free = s.free ∧ (State.modVs s v f).evq = s.evq
    ∧ (State.modVs s v f).die = s.die ∧ (State.modVs s v f).ph = s.ph ∧ (State.modVs s v f).pst = s.pst
    ∧ (State.modVs s v f).loop = s.loop ∧ (State.modVs s v f).fault = s.fault ∧ (State.modVs s v f).stemRep = s.stemRep
    ∧ (State.modVs s v f).share = s.share ∧ (State.modVs s v f).hold = s.hold ∧ (State.modVs s v f).bank = s.bank
    ∧ (State.modVs s v f).weir = s.weir ∧ (State.modVs s v f).batt = s.batt ∧ (State.modVs s v f).port = s.port
    ∧ (State.modVs s v f).nodes = s.nodes ∧ (State.modVs s v f).pool = s.pool ∧ (State.modVs s v f).mram = s.mram
    ∧ (State.modVs s v f).silt = s.silt ∧ (State.modVs s v f).spate = s.spate ∧ (State.modVs s v f).host = s.host
    ∧ (State.modVs s v f).stems = s.stems ∧ (State.modVs s v f).passed = s.passed ∧ (State.modVs s v f).therm = s.therm
    ∧ (State.modVs s v f).timer = s.timer ∧ (State.modVs s v f).power = s.power ∧ (State.modVs s v f).spring = s.spring
    ∧ (State.modVs s v f).firm = s.firm ∧ (State.modVs s v f).chain = s.chain ∧ (State.modVs s v f).dev = s.dev :=
    ⟨rfl, rfl, rfl, rfl, rfl, rfl, rfl, rfl, rfl, rfl, rfl, rfl, rfl, rfl, rfl, rfl, rfl, rfl, rfl, rfl, rfl, rfl, rfl, rfl, rfl, rfl, rfl, rfl, rfl, rfl, rfl, rfl, rfl, rfl, rfl, rfl⟩

@[simp] theorem State.modLoop_loop (s : State) (l : Fin 16) (f : Loop → Loop) :
    (State.modLoop s l f).loop = upd s.loop l f := rfl

@[simp] theorem State.modLoop_rest (s : State) (l : Fin 16) (f : Loop → Loop) :
    (State.modLoop s l f).pending = s.pending ∧ (State.modLoop s l f).clk = s.clk ∧ (State.modLoop s l f).tb = s.tb
    ∧ (State.modLoop s l f).slu = s.slu ∧ (State.modLoop s l f).cfg = s.cfg ∧ (State.modLoop s l f).lag = s.lag
    ∧ (State.modLoop s l f).ord = s.ord ∧ (State.modLoop s l f).free = s.free ∧ (State.modLoop s l f).evq = s.evq
    ∧ (State.modLoop s l f).die = s.die ∧ (State.modLoop s l f).ph = s.ph ∧ (State.modLoop s l f).pst = s.pst
    ∧ (State.modLoop s l f).vs = s.vs ∧ (State.modLoop s l f).fault = s.fault ∧ (State.modLoop s l f).stemRep = s.stemRep
    ∧ (State.modLoop s l f).share = s.share ∧ (State.modLoop s l f).hold = s.hold ∧ (State.modLoop s l f).bank = s.bank
    ∧ (State.modLoop s l f).weir = s.weir ∧ (State.modLoop s l f).batt = s.batt ∧ (State.modLoop s l f).port = s.port
    ∧ (State.modLoop s l f).nodes = s.nodes ∧ (State.modLoop s l f).pool = s.pool ∧ (State.modLoop s l f).mram = s.mram
    ∧ (State.modLoop s l f).silt = s.silt ∧ (State.modLoop s l f).spate = s.spate ∧ (State.modLoop s l f).host = s.host
    ∧ (State.modLoop s l f).stems = s.stems ∧ (State.modLoop s l f).passed = s.passed ∧ (State.modLoop s l f).therm = s.therm
    ∧ (State.modLoop s l f).timer = s.timer ∧ (State.modLoop s l f).power = s.power ∧ (State.modLoop s l f).spring = s.spring
    ∧ (State.modLoop s l f).firm = s.firm ∧ (State.modLoop s l f).chain = s.chain ∧ (State.modLoop s l f).dev = s.dev :=
    ⟨rfl, rfl, rfl, rfl, rfl, rfl, rfl, rfl, rfl, rfl, rfl, rfl, rfl, rfl, rfl, rfl, rfl, rfl, rfl, rfl, rfl, rfl, rfl, rfl, rfl, rfl, rfl, rfl, rfl, rfl, rfl, rfl, rfl, rfl, rfl, rfl⟩

@[simp] theorem State.sluiceUse_slu (s : State) (a : Fin 6) (n : Nat) :
    (State.sluiceUse s a n).slu = { s.slu with used := upd s.slu.used a (· + n) } := rfl

@[simp] theorem State.sluiceUse_rest (s : State) (a : Fin 6) (n : Nat) :
    (State.sluiceUse s a n).pending = s.pending ∧ (State.sluiceUse s a n).clk = s.clk ∧ (State.sluiceUse s a n).tb = s.tb
    ∧ (State.sluiceUse s a n).cfg = s.cfg ∧ (State.sluiceUse s a n).lag = s.lag ∧ (State.sluiceUse s a n).ord = s.ord
    ∧ (State.sluiceUse s a n).free = s.free ∧ (State.sluiceUse s a n).evq = s.evq ∧ (State.sluiceUse s a n).die = s.die
    ∧ (State.sluiceUse s a n).ph = s.ph ∧ (State.sluiceUse s a n).pst = s.pst ∧ (State.sluiceUse s a n).vs = s.vs
    ∧ (State.sluiceUse s a n).loop = s.loop ∧ (State.sluiceUse s a n).fault = s.fault ∧ (State.sluiceUse s a n).stemRep = s.stemRep
    ∧ (State.sluiceUse s a n).share = s.share ∧ (State.sluiceUse s a n).hold = s.hold ∧ (State.sluiceUse s a n).bank = s.bank
    ∧ (State.sluiceUse s a n).weir = s.weir ∧ (State.sluiceUse s a n).batt = s.batt ∧ (State.sluiceUse s a n).port = s.port
    ∧ (State.sluiceUse s a n).nodes = s.nodes ∧ (State.sluiceUse s a n).pool = s.pool ∧ (State.sluiceUse s a n).mram = s.mram
    ∧ (State.sluiceUse s a n).silt = s.silt ∧ (State.sluiceUse s a n).spate = s.spate ∧ (State.sluiceUse s a n).host = s.host
    ∧ (State.sluiceUse s a n).stems = s.stems ∧ (State.sluiceUse s a n).passed = s.passed ∧ (State.sluiceUse s a n).therm = s.therm
    ∧ (State.sluiceUse s a n).timer = s.timer ∧ (State.sluiceUse s a n).power = s.power ∧ (State.sluiceUse s a n).spring = s.spring
    ∧ (State.sluiceUse s a n).firm = s.firm ∧ (State.sluiceUse s a n).chain = s.chain ∧ (State.sluiceUse s a n).dev = s.dev :=
    ⟨rfl, rfl, rfl, rfl, rfl, rfl, rfl, rfl, rfl, rfl, rfl, rfl, rfl, rfl, rfl, rfl, rfl, rfl, rfl, rfl, rfl, rfl, rfl, rfl, rfl, rfl, rfl, rfl, rfl, rfl, rfl, rfl, rfl, rfl, rfl, rfl⟩

@[simp] theorem State.sluiceStall_slu (s : State) (a : Fin 6) :
    (State.sluiceStall s a).slu = { s.slu with stalled := s.slu.stalled.set a.val true a.isLt } := rfl

@[simp] theorem State.sluiceStall_rest (s : State) (a : Fin 6) :
    (State.sluiceStall s a).pending = s.pending ∧ (State.sluiceStall s a).clk = s.clk ∧ (State.sluiceStall s a).tb = s.tb
    ∧ (State.sluiceStall s a).cfg = s.cfg ∧ (State.sluiceStall s a).lag = s.lag ∧ (State.sluiceStall s a).ord = s.ord
    ∧ (State.sluiceStall s a).free = s.free ∧ (State.sluiceStall s a).evq = s.evq ∧ (State.sluiceStall s a).die = s.die
    ∧ (State.sluiceStall s a).ph = s.ph ∧ (State.sluiceStall s a).pst = s.pst ∧ (State.sluiceStall s a).vs = s.vs
    ∧ (State.sluiceStall s a).loop = s.loop ∧ (State.sluiceStall s a).fault = s.fault ∧ (State.sluiceStall s a).stemRep = s.stemRep
    ∧ (State.sluiceStall s a).share = s.share ∧ (State.sluiceStall s a).hold = s.hold ∧ (State.sluiceStall s a).bank = s.bank
    ∧ (State.sluiceStall s a).weir = s.weir ∧ (State.sluiceStall s a).batt = s.batt ∧ (State.sluiceStall s a).port = s.port
    ∧ (State.sluiceStall s a).nodes = s.nodes ∧ (State.sluiceStall s a).pool = s.pool ∧ (State.sluiceStall s a).mram = s.mram
    ∧ (State.sluiceStall s a).silt = s.silt ∧ (State.sluiceStall s a).spate = s.spate ∧ (State.sluiceStall s a).host = s.host
    ∧ (State.sluiceStall s a).stems = s.stems ∧ (State.sluiceStall s a).passed = s.passed ∧ (State.sluiceStall s a).therm = s.therm
    ∧ (State.sluiceStall s a).timer = s.timer ∧ (State.sluiceStall s a).power = s.power ∧ (State.sluiceStall s a).spring = s.spring
    ∧ (State.sluiceStall s a).firm = s.firm ∧ (State.sluiceStall s a).chain = s.chain ∧ (State.sluiceStall s a).dev = s.dev :=
    ⟨rfl, rfl, rfl, rfl, rfl, rfl, rfl, rfl, rfl, rfl, rfl, rfl, rfl, rfl, rfl, rfl, rfl, rfl, rfl, rfl, rfl, rfl, rfl, rfl, rfl, rfl, rfl, rfl, rfl, rfl, rfl, rfl, rfl, rfl, rfl, rfl⟩

@[simp] theorem State.modSilt_silt (s : State) (f : Silt → Silt) :
    (State.modSilt s f).silt = f s.silt := rfl

@[simp] theorem State.modSilt_rest (s : State) (f : Silt → Silt) :
    (State.modSilt s f).pending = s.pending ∧ (State.modSilt s f).clk = s.clk ∧ (State.modSilt s f).tb = s.tb
    ∧ (State.modSilt s f).slu = s.slu ∧ (State.modSilt s f).cfg = s.cfg ∧ (State.modSilt s f).lag = s.lag
    ∧ (State.modSilt s f).ord = s.ord ∧ (State.modSilt s f).free = s.free ∧ (State.modSilt s f).evq = s.evq
    ∧ (State.modSilt s f).die = s.die ∧ (State.modSilt s f).ph = s.ph ∧ (State.modSilt s f).pst = s.pst ∧ (State.modSilt s f).vs = s.vs
    ∧ (State.modSilt s f).loop = s.loop ∧ (State.modSilt s f).fault = s.fault ∧ (State.modSilt s f).stemRep = s.stemRep
    ∧ (State.modSilt s f).share = s.share ∧ (State.modSilt s f).hold = s.hold ∧ (State.modSilt s f).bank = s.bank
    ∧ (State.modSilt s f).weir = s.weir ∧ (State.modSilt s f).batt = s.batt ∧ (State.modSilt s f).port = s.port
    ∧ (State.modSilt s f).nodes = s.nodes ∧ (State.modSilt s f).pool = s.pool ∧ (State.modSilt s f).mram = s.mram
    ∧ (State.modSilt s f).spate = s.spate ∧ (State.modSilt s f).host = s.host ∧ (State.modSilt s f).stems = s.stems
    ∧ (State.modSilt s f).passed = s.passed ∧ (State.modSilt s f).therm = s.therm ∧ (State.modSilt s f).timer = s.timer
    ∧ (State.modSilt s f).power = s.power ∧ (State.modSilt s f).spring = s.spring ∧ (State.modSilt s f).firm = s.firm
    ∧ (State.modSilt s f).chain = s.chain ∧ (State.modSilt s f).dev = s.dev :=
    ⟨rfl, rfl, rfl, rfl, rfl, rfl, rfl, rfl, rfl, rfl, rfl, rfl, rfl, rfl, rfl, rfl, rfl, rfl, rfl, rfl, rfl, rfl, rfl, rfl, rfl, rfl, rfl, rfl, rfl, rfl, rfl, rfl, rfl, rfl, rfl, rfl⟩

@[simp] theorem State.lagTake_lag (s : State) (f : Nat → Bool) :
    (State.lagTake s f).lag = s.lag.filter (fun q => !f q.1) := rfl

@[simp] theorem State.lagTake_rest (s : State) (f : Nat → Bool) :
    (State.lagTake s f).pending = s.pending ∧ (State.lagTake s f).clk = s.clk ∧ (State.lagTake s f).tb = s.tb
    ∧ (State.lagTake s f).slu = s.slu ∧ (State.lagTake s f).cfg = s.cfg ∧ (State.lagTake s f).ord = s.ord
    ∧ (State.lagTake s f).free = s.free ∧ (State.lagTake s f).evq = s.evq ∧ (State.lagTake s f).die = s.die
    ∧ (State.lagTake s f).ph = s.ph ∧ (State.lagTake s f).pst = s.pst ∧ (State.lagTake s f).vs = s.vs ∧ (State.lagTake s f).loop = s.loop
    ∧ (State.lagTake s f).fault = s.fault ∧ (State.lagTake s f).stemRep = s.stemRep ∧ (State.lagTake s f).share = s.share
    ∧ (State.lagTake s f).hold = s.hold ∧ (State.lagTake s f).bank = s.bank ∧ (State.lagTake s f).weir = s.weir
    ∧ (State.lagTake s f).batt = s.batt ∧ (State.lagTake s f).port = s.port ∧ (State.lagTake s f).nodes = s.nodes
    ∧ (State.lagTake s f).pool = s.pool ∧ (State.lagTake s f).mram = s.mram ∧ (State.lagTake s f).silt = s.silt
    ∧ (State.lagTake s f).spate = s.spate ∧ (State.lagTake s f).host = s.host ∧ (State.lagTake s f).stems = s.stems
    ∧ (State.lagTake s f).passed = s.passed ∧ (State.lagTake s f).therm = s.therm ∧ (State.lagTake s f).timer = s.timer
    ∧ (State.lagTake s f).power = s.power ∧ (State.lagTake s f).spring = s.spring ∧ (State.lagTake s f).firm = s.firm
    ∧ (State.lagTake s f).chain = s.chain ∧ (State.lagTake s f).dev = s.dev :=
    ⟨rfl, rfl, rfl, rfl, rfl, rfl, rfl, rfl, rfl, rfl, rfl, rfl, rfl, rfl, rfl, rfl, rfl, rfl, rfl, rfl, rfl, rfl, rfl, rfl, rfl, rfl, rfl, rfl, rfl, rfl, rfl, rfl, rfl, rfl, rfl, rfl⟩

@[simp] theorem State.modHost_host (s : State) (f : Hosts → Hosts) :
    (State.modHost s f).host = f s.host := rfl

@[simp] theorem State.modHost_rest (s : State) (f : Hosts → Hosts) :
    (State.modHost s f).pending = s.pending ∧ (State.modHost s f).clk = s.clk ∧ (State.modHost s f).tb = s.tb
    ∧ (State.modHost s f).slu = s.slu ∧ (State.modHost s f).cfg = s.cfg ∧ (State.modHost s f).lag = s.lag
    ∧ (State.modHost s f).ord = s.ord ∧ (State.modHost s f).free = s.free ∧ (State.modHost s f).evq = s.evq
    ∧ (State.modHost s f).die = s.die ∧ (State.modHost s f).ph = s.ph ∧ (State.modHost s f).pst = s.pst ∧ (State.modHost s f).vs = s.vs
    ∧ (State.modHost s f).loop = s.loop ∧ (State.modHost s f).fault = s.fault ∧ (State.modHost s f).stemRep = s.stemRep
    ∧ (State.modHost s f).share = s.share ∧ (State.modHost s f).hold = s.hold ∧ (State.modHost s f).bank = s.bank
    ∧ (State.modHost s f).weir = s.weir ∧ (State.modHost s f).batt = s.batt ∧ (State.modHost s f).port = s.port
    ∧ (State.modHost s f).nodes = s.nodes ∧ (State.modHost s f).pool = s.pool ∧ (State.modHost s f).mram = s.mram
    ∧ (State.modHost s f).silt = s.silt ∧ (State.modHost s f).spate = s.spate ∧ (State.modHost s f).stems = s.stems
    ∧ (State.modHost s f).passed = s.passed ∧ (State.modHost s f).therm = s.therm ∧ (State.modHost s f).timer = s.timer
    ∧ (State.modHost s f).power = s.power ∧ (State.modHost s f).spring = s.spring ∧ (State.modHost s f).firm = s.firm
    ∧ (State.modHost s f).chain = s.chain ∧ (State.modHost s f).dev = s.dev :=
    ⟨rfl, rfl, rfl, rfl, rfl, rfl, rfl, rfl, rfl, rfl, rfl, rfl, rfl, rfl, rfl, rfl, rfl, rfl, rfl, rfl, rfl, rfl, rfl, rfl, rfl, rfl, rfl, rfl, rfl, rfl, rfl, rfl, rfl, rfl, rfl, rfl⟩

@[simp] theorem State.modBatt_batt (s : State) (b : Fin 8) (f : Batt → Batt) :
    (State.modBatt s b f).batt = upd s.batt b f := rfl

@[simp] theorem State.modBatt_rest (s : State) (b : Fin 8) (f : Batt → Batt) :
    (State.modBatt s b f).pending = s.pending ∧ (State.modBatt s b f).clk = s.clk ∧ (State.modBatt s b f).tb = s.tb
    ∧ (State.modBatt s b f).slu = s.slu ∧ (State.modBatt s b f).cfg = s.cfg ∧ (State.modBatt s b f).lag = s.lag
    ∧ (State.modBatt s b f).ord = s.ord ∧ (State.modBatt s b f).free = s.free ∧ (State.modBatt s b f).evq = s.evq
    ∧ (State.modBatt s b f).die = s.die ∧ (State.modBatt s b f).ph = s.ph ∧ (State.modBatt s b f).pst = s.pst
    ∧ (State.modBatt s b f).vs = s.vs ∧ (State.modBatt s b f).loop = s.loop ∧ (State.modBatt s b f).fault = s.fault
    ∧ (State.modBatt s b f).stemRep = s.stemRep ∧ (State.modBatt s b f).share = s.share ∧ (State.modBatt s b f).hold = s.hold
    ∧ (State.modBatt s b f).bank = s.bank ∧ (State.modBatt s b f).weir = s.weir ∧ (State.modBatt s b f).port = s.port
    ∧ (State.modBatt s b f).nodes = s.nodes ∧ (State.modBatt s b f).pool = s.pool ∧ (State.modBatt s b f).mram = s.mram
    ∧ (State.modBatt s b f).silt = s.silt ∧ (State.modBatt s b f).spate = s.spate ∧ (State.modBatt s b f).host = s.host
    ∧ (State.modBatt s b f).stems = s.stems ∧ (State.modBatt s b f).passed = s.passed ∧ (State.modBatt s b f).therm = s.therm
    ∧ (State.modBatt s b f).timer = s.timer ∧ (State.modBatt s b f).power = s.power ∧ (State.modBatt s b f).spring = s.spring
    ∧ (State.modBatt s b f).firm = s.firm ∧ (State.modBatt s b f).chain = s.chain ∧ (State.modBatt s b f).dev = s.dev :=
    ⟨rfl, rfl, rfl, rfl, rfl, rfl, rfl, rfl, rfl, rfl, rfl, rfl, rfl, rfl, rfl, rfl, rfl, rfl, rfl, rfl, rfl, rfl, rfl, rfl, rfl, rfl, rfl, rfl, rfl, rfl, rfl, rfl, rfl, rfl, rfl, rfl⟩

@[simp] theorem State.modHold_hold (s : State) (f : Hold → Hold) :
    (State.modHold s f).hold = f s.hold := rfl

@[simp] theorem State.modHold_rest (s : State) (f : Hold → Hold) :
    (State.modHold s f).pending = s.pending ∧ (State.modHold s f).clk = s.clk ∧ (State.modHold s f).tb = s.tb
    ∧ (State.modHold s f).slu = s.slu ∧ (State.modHold s f).cfg = s.cfg ∧ (State.modHold s f).lag = s.lag
    ∧ (State.modHold s f).ord = s.ord ∧ (State.modHold s f).free = s.free ∧ (State.modHold s f).evq = s.evq
    ∧ (State.modHold s f).die = s.die ∧ (State.modHold s f).ph = s.ph ∧ (State.modHold s f).pst = s.pst ∧ (State.modHold s f).vs = s.vs
    ∧ (State.modHold s f).loop = s.loop ∧ (State.modHold s f).fault = s.fault ∧ (State.modHold s f).stemRep = s.stemRep
    ∧ (State.modHold s f).share = s.share ∧ (State.modHold s f).bank = s.bank ∧ (State.modHold s f).weir = s.weir
    ∧ (State.modHold s f).batt = s.batt ∧ (State.modHold s f).port = s.port ∧ (State.modHold s f).nodes = s.nodes
    ∧ (State.modHold s f).pool = s.pool ∧ (State.modHold s f).mram = s.mram ∧ (State.modHold s f).silt = s.silt
    ∧ (State.modHold s f).spate = s.spate ∧ (State.modHold s f).host = s.host ∧ (State.modHold s f).stems = s.stems
    ∧ (State.modHold s f).passed = s.passed ∧ (State.modHold s f).therm = s.therm ∧ (State.modHold s f).timer = s.timer
    ∧ (State.modHold s f).power = s.power ∧ (State.modHold s f).spring = s.spring ∧ (State.modHold s f).firm = s.firm
    ∧ (State.modHold s f).chain = s.chain ∧ (State.modHold s f).dev = s.dev :=
    ⟨rfl, rfl, rfl, rfl, rfl, rfl, rfl, rfl, rfl, rfl, rfl, rfl, rfl, rfl, rfl, rfl, rfl, rfl, rfl, rfl, rfl, rfl, rfl, rfl, rfl, rfl, rfl, rfl, rfl, rfl, rfl, rfl, rfl, rfl, rfl, rfl⟩

@[simp] theorem State.modPort_port (s : State) (p : Fin 64) (f : Port → Port) :
    (State.modPort s p f).port = upd s.port p f := rfl

@[simp] theorem State.modPort_rest (s : State) (p : Fin 64) (f : Port → Port) :
    (State.modPort s p f).pending = s.pending ∧ (State.modPort s p f).clk = s.clk ∧ (State.modPort s p f).tb = s.tb
    ∧ (State.modPort s p f).slu = s.slu ∧ (State.modPort s p f).cfg = s.cfg ∧ (State.modPort s p f).lag = s.lag
    ∧ (State.modPort s p f).ord = s.ord ∧ (State.modPort s p f).free = s.free ∧ (State.modPort s p f).evq = s.evq
    ∧ (State.modPort s p f).die = s.die ∧ (State.modPort s p f).ph = s.ph ∧ (State.modPort s p f).pst = s.pst
    ∧ (State.modPort s p f).vs = s.vs ∧ (State.modPort s p f).loop = s.loop ∧ (State.modPort s p f).fault = s.fault
    ∧ (State.modPort s p f).stemRep = s.stemRep ∧ (State.modPort s p f).share = s.share ∧ (State.modPort s p f).hold = s.hold
    ∧ (State.modPort s p f).bank = s.bank ∧ (State.modPort s p f).weir = s.weir ∧ (State.modPort s p f).batt = s.batt
    ∧ (State.modPort s p f).nodes = s.nodes ∧ (State.modPort s p f).pool = s.pool ∧ (State.modPort s p f).mram = s.mram
    ∧ (State.modPort s p f).silt = s.silt ∧ (State.modPort s p f).spate = s.spate ∧ (State.modPort s p f).host = s.host
    ∧ (State.modPort s p f).stems = s.stems ∧ (State.modPort s p f).passed = s.passed ∧ (State.modPort s p f).therm = s.therm
    ∧ (State.modPort s p f).timer = s.timer ∧ (State.modPort s p f).power = s.power ∧ (State.modPort s p f).spring = s.spring
    ∧ (State.modPort s p f).firm = s.firm ∧ (State.modPort s p f).chain = s.chain ∧ (State.modPort s p f).dev = s.dev :=
    ⟨rfl, rfl, rfl, rfl, rfl, rfl, rfl, rfl, rfl, rfl, rfl, rfl, rfl, rfl, rfl, rfl, rfl, rfl, rfl, rfl, rfl, rfl, rfl, rfl, rfl, rfl, rfl, rfl, rfl, rfl, rfl, rfl, rfl, rfl, rfl, rfl⟩

@[simp] theorem State.modNode_nodes (s : State) (a : Nat) (f : NodeSess → NodeSess) :
    (State.modNode s a f).nodes = { s.nodes with sess := SMap.set NodeSess.none a (f (s.node a)) s.nodes.sess } := rfl

@[simp] theorem State.modNode_rest (s : State) (a : Nat) (f : NodeSess → NodeSess) :
    (State.modNode s a f).pending = s.pending ∧ (State.modNode s a f).clk = s.clk ∧ (State.modNode s a f).tb = s.tb
    ∧ (State.modNode s a f).slu = s.slu ∧ (State.modNode s a f).cfg = s.cfg ∧ (State.modNode s a f).lag = s.lag
    ∧ (State.modNode s a f).ord = s.ord ∧ (State.modNode s a f).free = s.free ∧ (State.modNode s a f).evq = s.evq
    ∧ (State.modNode s a f).die = s.die ∧ (State.modNode s a f).ph = s.ph ∧ (State.modNode s a f).pst = s.pst
    ∧ (State.modNode s a f).vs = s.vs ∧ (State.modNode s a f).loop = s.loop ∧ (State.modNode s a f).fault = s.fault
    ∧ (State.modNode s a f).stemRep = s.stemRep ∧ (State.modNode s a f).share = s.share ∧ (State.modNode s a f).hold = s.hold
    ∧ (State.modNode s a f).bank = s.bank ∧ (State.modNode s a f).weir = s.weir ∧ (State.modNode s a f).batt = s.batt
    ∧ (State.modNode s a f).port = s.port ∧ (State.modNode s a f).pool = s.pool ∧ (State.modNode s a f).mram = s.mram
    ∧ (State.modNode s a f).silt = s.silt ∧ (State.modNode s a f).spate = s.spate ∧ (State.modNode s a f).host = s.host
    ∧ (State.modNode s a f).stems = s.stems ∧ (State.modNode s a f).passed = s.passed ∧ (State.modNode s a f).therm = s.therm
    ∧ (State.modNode s a f).timer = s.timer ∧ (State.modNode s a f).power = s.power ∧ (State.modNode s a f).spring = s.spring
    ∧ (State.modNode s a f).firm = s.firm ∧ (State.modNode s a f).chain = s.chain ∧ (State.modNode s a f).dev = s.dev :=
    ⟨rfl, rfl, rfl, rfl, rfl, rfl, rfl, rfl, rfl, rfl, rfl, rfl, rfl, rfl, rfl, rfl, rfl, rfl, rfl, rfl, rfl, rfl, rfl, rfl, rfl, rfl, rfl, rfl, rfl, rfl, rfl, rfl, rfl, rfl, rfl, rfl⟩

@[simp] theorem State.modMbr_share (s : State) (m : Fin 64) (f : Member → Member) :
    (State.modMbr s m f).share = { s.share with mbr := upd s.share.mbr m f } := rfl

@[simp] theorem State.modMbr_rest (s : State) (m : Fin 64) (f : Member → Member) :
    (State.modMbr s m f).pending = s.pending ∧ (State.modMbr s m f).clk = s.clk ∧ (State.modMbr s m f).tb = s.tb
    ∧ (State.modMbr s m f).slu = s.slu ∧ (State.modMbr s m f).cfg = s.cfg ∧ (State.modMbr s m f).lag = s.lag
    ∧ (State.modMbr s m f).ord = s.ord ∧ (State.modMbr s m f).free = s.free ∧ (State.modMbr s m f).evq = s.evq
    ∧ (State.modMbr s m f).die = s.die ∧ (State.modMbr s m f).ph = s.ph ∧ (State.modMbr s m f).pst = s.pst
    ∧ (State.modMbr s m f).vs = s.vs ∧ (State.modMbr s m f).loop = s.loop ∧ (State.modMbr s m f).fault = s.fault
    ∧ (State.modMbr s m f).stemRep = s.stemRep ∧ (State.modMbr s m f).hold = s.hold ∧ (State.modMbr s m f).bank = s.bank
    ∧ (State.modMbr s m f).weir = s.weir ∧ (State.modMbr s m f).batt = s.batt ∧ (State.modMbr s m f).port = s.port
    ∧ (State.modMbr s m f).nodes = s.nodes ∧ (State.modMbr s m f).pool = s.pool ∧ (State.modMbr s m f).mram = s.mram
    ∧ (State.modMbr s m f).silt = s.silt ∧ (State.modMbr s m f).spate = s.spate ∧ (State.modMbr s m f).host = s.host
    ∧ (State.modMbr s m f).stems = s.stems ∧ (State.modMbr s m f).passed = s.passed ∧ (State.modMbr s m f).therm = s.therm
    ∧ (State.modMbr s m f).timer = s.timer ∧ (State.modMbr s m f).power = s.power ∧ (State.modMbr s m f).spring = s.spring
    ∧ (State.modMbr s m f).firm = s.firm ∧ (State.modMbr s m f).chain = s.chain ∧ (State.modMbr s m f).dev = s.dev :=
    ⟨rfl, rfl, rfl, rfl, rfl, rfl, rfl, rfl, rfl, rfl, rfl, rfl, rfl, rfl, rfl, rfl, rfl, rfl, rfl, rfl, rfl, rfl, rfl, rfl, rfl, rfl, rfl, rfl, rfl, rfl, rfl, rfl, rfl, rfl, rfl, rfl⟩

@[simp] theorem State.setRelay_nodes (s : State) (p : Nat) (r : Option Relay) :
    (State.setRelay s p r).nodes = { s.nodes with relay := SMap.set none p r s.nodes.relay } := rfl

@[simp] theorem State.setRelay_rest (s : State) (p : Nat) (r : Option Relay) :
    (State.setRelay s p r).pending = s.pending ∧ (State.setRelay s p r).clk = s.clk ∧ (State.setRelay s p r).tb = s.tb
    ∧ (State.setRelay s p r).slu = s.slu ∧ (State.setRelay s p r).cfg = s.cfg ∧ (State.setRelay s p r).lag = s.lag
    ∧ (State.setRelay s p r).ord = s.ord ∧ (State.setRelay s p r).free = s.free ∧ (State.setRelay s p r).evq = s.evq
    ∧ (State.setRelay s p r).die = s.die ∧ (State.setRelay s p r).ph = s.ph ∧ (State.setRelay s p r).pst = s.pst
    ∧ (State.setRelay s p r).vs = s.vs ∧ (State.setRelay s p r).loop = s.loop ∧ (State.setRelay s p r).fault = s.fault
    ∧ (State.setRelay s p r).stemRep = s.stemRep ∧ (State.setRelay s p r).share = s.share ∧ (State.setRelay s p r).hold = s.hold
    ∧ (State.setRelay s p r).bank = s.bank ∧ (State.setRelay s p r).weir = s.weir ∧ (State.setRelay s p r).batt = s.batt
    ∧ (State.setRelay s p r).port = s.port ∧ (State.setRelay s p r).pool = s.pool ∧ (State.setRelay s p r).mram = s.mram
    ∧ (State.setRelay s p r).silt = s.silt ∧ (State.setRelay s p r).spate = s.spate ∧ (State.setRelay s p r).host = s.host
    ∧ (State.setRelay s p r).stems = s.stems ∧ (State.setRelay s p r).passed = s.passed ∧ (State.setRelay s p r).therm = s.therm
    ∧ (State.setRelay s p r).timer = s.timer ∧ (State.setRelay s p r).power = s.power ∧ (State.setRelay s p r).spring = s.spring
    ∧ (State.setRelay s p r).firm = s.firm ∧ (State.setRelay s p r).chain = s.chain ∧ (State.setRelay s p r).dev = s.dev :=
    ⟨rfl, rfl, rfl, rfl, rfl, rfl, rfl, rfl, rfl, rfl, rfl, rfl, rfl, rfl, rfl, rfl, rfl, rfl, rfl, rfl, rfl, rfl, rfl, rfl, rfl, rfl, rfl, rfl, rfl, rfl, rfl, rfl, rfl, rfl, rfl, rfl⟩

@[simp] theorem State.modPool_pool (s : State) (f : Pool → Pool) :
    (State.modPool s f).pool = f s.pool := rfl

@[simp] theorem State.modPool_rest (s : State) (f : Pool → Pool) :
    (State.modPool s f).pending = s.pending ∧ (State.modPool s f).clk = s.clk ∧ (State.modPool s f).tb = s.tb
    ∧ (State.modPool s f).slu = s.slu ∧ (State.modPool s f).cfg = s.cfg ∧ (State.modPool s f).lag = s.lag
    ∧ (State.modPool s f).ord = s.ord ∧ (State.modPool s f).free = s.free ∧ (State.modPool s f).evq = s.evq
    ∧ (State.modPool s f).die = s.die ∧ (State.modPool s f).ph = s.ph ∧ (State.modPool s f).pst = s.pst ∧ (State.modPool s f).vs = s.vs
    ∧ (State.modPool s f).loop = s.loop ∧ (State.modPool s f).fault = s.fault ∧ (State.modPool s f).stemRep = s.stemRep
    ∧ (State.modPool s f).share = s.share ∧ (State.modPool s f).hold = s.hold ∧ (State.modPool s f).bank = s.bank
    ∧ (State.modPool s f).weir = s.weir ∧ (State.modPool s f).batt = s.batt ∧ (State.modPool s f).port = s.port
    ∧ (State.modPool s f).nodes = s.nodes ∧ (State.modPool s f).mram = s.mram ∧ (State.modPool s f).silt = s.silt
    ∧ (State.modPool s f).spate = s.spate ∧ (State.modPool s f).host = s.host ∧ (State.modPool s f).stems = s.stems
    ∧ (State.modPool s f).passed = s.passed ∧ (State.modPool s f).therm = s.therm ∧ (State.modPool s f).timer = s.timer
    ∧ (State.modPool s f).power = s.power ∧ (State.modPool s f).spring = s.spring ∧ (State.modPool s f).firm = s.firm
    ∧ (State.modPool s f).chain = s.chain ∧ (State.modPool s f).dev = s.dev :=
    ⟨rfl, rfl, rfl, rfl, rfl, rfl, rfl, rfl, rfl, rfl, rfl, rfl, rfl, rfl, rfl, rfl, rfl, rfl, rfl, rfl, rfl, rfl, rfl, rfl, rfl, rfl, rfl, rfl, rfl, rfl, rfl, rfl, rfl, rfl, rfl, rfl⟩

@[simp] theorem State.store_mram (s : State) (a : Nat) (bs : List Byte) :
    (State.store s a bs).mram = mramPut s.mram a bs := rfl

@[simp] theorem State.store_rest (s : State) (a : Nat) (bs : List Byte) :
    (State.store s a bs).pending = s.pending ∧ (State.store s a bs).clk = s.clk ∧ (State.store s a bs).tb = s.tb
    ∧ (State.store s a bs).slu = s.slu ∧ (State.store s a bs).cfg = s.cfg ∧ (State.store s a bs).lag = s.lag
    ∧ (State.store s a bs).ord = s.ord ∧ (State.store s a bs).free = s.free ∧ (State.store s a bs).evq = s.evq
    ∧ (State.store s a bs).die = s.die ∧ (State.store s a bs).ph = s.ph ∧ (State.store s a bs).pst = s.pst
    ∧ (State.store s a bs).vs = s.vs ∧ (State.store s a bs).loop = s.loop ∧ (State.store s a bs).fault = s.fault
    ∧ (State.store s a bs).stemRep = s.stemRep ∧ (State.store s a bs).share = s.share ∧ (State.store s a bs).hold = s.hold
    ∧ (State.store s a bs).bank = s.bank ∧ (State.store s a bs).weir = s.weir ∧ (State.store s a bs).batt = s.batt
    ∧ (State.store s a bs).port = s.port ∧ (State.store s a bs).nodes = s.nodes ∧ (State.store s a bs).pool = s.pool
    ∧ (State.store s a bs).silt = s.silt ∧ (State.store s a bs).spate = s.spate ∧ (State.store s a bs).host = s.host
    ∧ (State.store s a bs).stems = s.stems ∧ (State.store s a bs).passed = s.passed ∧ (State.store s a bs).therm = s.therm
    ∧ (State.store s a bs).timer = s.timer ∧ (State.store s a bs).power = s.power ∧ (State.store s a bs).spring = s.spring
    ∧ (State.store s a bs).firm = s.firm ∧ (State.store s a bs).chain = s.chain ∧ (State.store s a bs).dev = s.dev :=
    ⟨rfl, rfl, rfl, rfl, rfl, rfl, rfl, rfl, rfl, rfl, rfl, rfl, rfl, rfl, rfl, rfl, rfl, rfl, rfl, rfl, rfl, rfl, rfl, rfl, rfl, rfl, rfl, rfl, rfl, rfl, rfl, rfl, rfl, rfl, rfl, rfl⟩

@[simp] theorem State.modSpate_spate (s : State) (f : Spate → Spate) :
    (State.modSpate s f).spate = f s.spate := rfl

@[simp] theorem State.modSpate_rest (s : State) (f : Spate → Spate) :
    (State.modSpate s f).pending = s.pending ∧ (State.modSpate s f).clk = s.clk ∧ (State.modSpate s f).tb = s.tb
    ∧ (State.modSpate s f).slu = s.slu ∧ (State.modSpate s f).cfg = s.cfg ∧ (State.modSpate s f).lag = s.lag
    ∧ (State.modSpate s f).ord = s.ord ∧ (State.modSpate s f).free = s.free ∧ (State.modSpate s f).evq = s.evq
    ∧ (State.modSpate s f).die = s.die ∧ (State.modSpate s f).ph = s.ph ∧ (State.modSpate s f).pst = s.pst
    ∧ (State.modSpate s f).vs = s.vs ∧ (State.modSpate s f).loop = s.loop ∧ (State.modSpate s f).fault = s.fault
    ∧ (State.modSpate s f).stemRep = s.stemRep ∧ (State.modSpate s f).share = s.share ∧ (State.modSpate s f).hold = s.hold
    ∧ (State.modSpate s f).bank = s.bank ∧ (State.modSpate s f).weir = s.weir ∧ (State.modSpate s f).batt = s.batt
    ∧ (State.modSpate s f).port = s.port ∧ (State.modSpate s f).nodes = s.nodes ∧ (State.modSpate s f).pool = s.pool
    ∧ (State.modSpate s f).mram = s.mram ∧ (State.modSpate s f).silt = s.silt ∧ (State.modSpate s f).host = s.host
    ∧ (State.modSpate s f).stems = s.stems ∧ (State.modSpate s f).passed = s.passed ∧ (State.modSpate s f).therm = s.therm
    ∧ (State.modSpate s f).timer = s.timer ∧ (State.modSpate s f).power = s.power ∧ (State.modSpate s f).spring = s.spring
    ∧ (State.modSpate s f).firm = s.firm ∧ (State.modSpate s f).chain = s.chain ∧ (State.modSpate s f).dev = s.dev :=
    ⟨rfl, rfl, rfl, rfl, rfl, rfl, rfl, rfl, rfl, rfl, rfl, rfl, rfl, rfl, rfl, rfl, rfl, rfl, rfl, rfl, rfl, rfl, rfl, rfl, rfl, rfl, rfl, rfl, rfl, rfl, rfl, rfl, rfl, rfl, rfl, rfl⟩

@[simp] theorem State.modBank_bank (s : State) (f : Bank → Bank) :
    (State.modBank s f).bank = f s.bank := rfl

@[simp] theorem State.modBank_rest (s : State) (f : Bank → Bank) :
    (State.modBank s f).pending = s.pending ∧ (State.modBank s f).clk = s.clk ∧ (State.modBank s f).tb = s.tb
    ∧ (State.modBank s f).slu = s.slu ∧ (State.modBank s f).cfg = s.cfg ∧ (State.modBank s f).lag = s.lag
    ∧ (State.modBank s f).ord = s.ord ∧ (State.modBank s f).free = s.free ∧ (State.modBank s f).evq = s.evq
    ∧ (State.modBank s f).die = s.die ∧ (State.modBank s f).ph = s.ph ∧ (State.modBank s f).pst = s.pst ∧ (State.modBank s f).vs = s.vs
    ∧ (State.modBank s f).loop = s.loop ∧ (State.modBank s f).fault = s.fault ∧ (State.modBank s f).stemRep = s.stemRep
    ∧ (State.modBank s f).share = s.share ∧ (State.modBank s f).hold = s.hold ∧ (State.modBank s f).weir = s.weir
    ∧ (State.modBank s f).batt = s.batt ∧ (State.modBank s f).port = s.port ∧ (State.modBank s f).nodes = s.nodes
    ∧ (State.modBank s f).pool = s.pool ∧ (State.modBank s f).mram = s.mram ∧ (State.modBank s f).silt = s.silt
    ∧ (State.modBank s f).spate = s.spate ∧ (State.modBank s f).host = s.host ∧ (State.modBank s f).stems = s.stems
    ∧ (State.modBank s f).passed = s.passed ∧ (State.modBank s f).therm = s.therm ∧ (State.modBank s f).timer = s.timer
    ∧ (State.modBank s f).power = s.power ∧ (State.modBank s f).spring = s.spring ∧ (State.modBank s f).firm = s.firm
    ∧ (State.modBank s f).chain = s.chain ∧ (State.modBank s f).dev = s.dev :=
    ⟨rfl, rfl, rfl, rfl, rfl, rfl, rfl, rfl, rfl, rfl, rfl, rfl, rfl, rfl, rfl, rfl, rfl, rfl, rfl, rfl, rfl, rfl, rfl, rfl, rfl, rfl, rfl, rfl, rfl, rfl, rfl, rfl, rfl, rfl, rfl, rfl⟩

@[simp] theorem State.modWeir_weir (s : State) (f : Weir → Weir) :
    (State.modWeir s f).weir = f s.weir := rfl

@[simp] theorem State.modWeir_rest (s : State) (f : Weir → Weir) :
    (State.modWeir s f).pending = s.pending ∧ (State.modWeir s f).clk = s.clk ∧ (State.modWeir s f).tb = s.tb
    ∧ (State.modWeir s f).slu = s.slu ∧ (State.modWeir s f).cfg = s.cfg ∧ (State.modWeir s f).lag = s.lag
    ∧ (State.modWeir s f).ord = s.ord ∧ (State.modWeir s f).free = s.free ∧ (State.modWeir s f).evq = s.evq
    ∧ (State.modWeir s f).die = s.die ∧ (State.modWeir s f).ph = s.ph ∧ (State.modWeir s f).pst = s.pst ∧ (State.modWeir s f).vs = s.vs
    ∧ (State.modWeir s f).loop = s.loop ∧ (State.modWeir s f).fault = s.fault ∧ (State.modWeir s f).stemRep = s.stemRep
    ∧ (State.modWeir s f).share = s.share ∧ (State.modWeir s f).hold = s.hold ∧ (State.modWeir s f).bank = s.bank
    ∧ (State.modWeir s f).batt = s.batt ∧ (State.modWeir s f).port = s.port ∧ (State.modWeir s f).nodes = s.nodes
    ∧ (State.modWeir s f).pool = s.pool ∧ (State.modWeir s f).mram = s.mram ∧ (State.modWeir s f).silt = s.silt
    ∧ (State.modWeir s f).spate = s.spate ∧ (State.modWeir s f).host = s.host ∧ (State.modWeir s f).stems = s.stems
    ∧ (State.modWeir s f).passed = s.passed ∧ (State.modWeir s f).therm = s.therm ∧ (State.modWeir s f).timer = s.timer
    ∧ (State.modWeir s f).power = s.power ∧ (State.modWeir s f).spring = s.spring ∧ (State.modWeir s f).firm = s.firm
    ∧ (State.modWeir s f).chain = s.chain ∧ (State.modWeir s f).dev = s.dev :=
    ⟨rfl, rfl, rfl, rfl, rfl, rfl, rfl, rfl, rfl, rfl, rfl, rfl, rfl, rfl, rfl, rfl, rfl, rfl, rfl, rfl, rfl, rfl, rfl, rfl, rfl, rfl, rfl, rfl, rfl, rfl, rfl, rfl, rfl, rfl, rfl, rfl⟩

@[simp] theorem State.modTimer_timer (s : State) (t : Fin 32) (f : Timer → Timer) :
    (State.modTimer s t f).timer = upd s.timer t f := rfl

@[simp] theorem State.modTimer_rest (s : State) (t : Fin 32) (f : Timer → Timer) :
    (State.modTimer s t f).pending = s.pending ∧ (State.modTimer s t f).clk = s.clk ∧ (State.modTimer s t f).tb = s.tb
    ∧ (State.modTimer s t f).slu = s.slu ∧ (State.modTimer s t f).cfg = s.cfg ∧ (State.modTimer s t f).lag = s.lag
    ∧ (State.modTimer s t f).ord = s.ord ∧ (State.modTimer s t f).free = s.free ∧ (State.modTimer s t f).evq = s.evq
    ∧ (State.modTimer s t f).die = s.die ∧ (State.modTimer s t f).ph = s.ph ∧ (State.modTimer s t f).pst = s.pst
    ∧ (State.modTimer s t f).vs = s.vs ∧ (State.modTimer s t f).loop = s.loop ∧ (State.modTimer s t f).fault = s.fault
    ∧ (State.modTimer s t f).stemRep = s.stemRep ∧ (State.modTimer s t f).share = s.share ∧ (State.modTimer s t f).hold = s.hold
    ∧ (State.modTimer s t f).bank = s.bank ∧ (State.modTimer s t f).weir = s.weir ∧ (State.modTimer s t f).batt = s.batt
    ∧ (State.modTimer s t f).port = s.port ∧ (State.modTimer s t f).nodes = s.nodes ∧ (State.modTimer s t f).pool = s.pool
    ∧ (State.modTimer s t f).mram = s.mram ∧ (State.modTimer s t f).silt = s.silt ∧ (State.modTimer s t f).spate = s.spate
    ∧ (State.modTimer s t f).host = s.host ∧ (State.modTimer s t f).stems = s.stems ∧ (State.modTimer s t f).passed = s.passed
    ∧ (State.modTimer s t f).therm = s.therm ∧ (State.modTimer s t f).power = s.power ∧ (State.modTimer s t f).spring = s.spring
    ∧ (State.modTimer s t f).firm = s.firm ∧ (State.modTimer s t f).chain = s.chain ∧ (State.modTimer s t f).dev = s.dev :=
    ⟨rfl, rfl, rfl, rfl, rfl, rfl, rfl, rfl, rfl, rfl, rfl, rfl, rfl, rfl, rfl, rfl, rfl, rfl, rfl, rfl, rfl, rfl, rfl, rfl, rfl, rfl, rfl, rfl, rfl, rfl, rfl, rfl, rfl, rfl, rfl, rfl⟩

@[simp] theorem State.modSpring_spring (s : State) (f : Spring → Spring) :
    (State.modSpring s f).spring = f s.spring := rfl

@[simp] theorem State.modSpring_rest (s : State) (f : Spring → Spring) :
    (State.modSpring s f).pending = s.pending ∧ (State.modSpring s f).clk = s.clk ∧ (State.modSpring s f).tb = s.tb
    ∧ (State.modSpring s f).slu = s.slu ∧ (State.modSpring s f).cfg = s.cfg ∧ (State.modSpring s f).lag = s.lag
    ∧ (State.modSpring s f).ord = s.ord ∧ (State.modSpring s f).free = s.free ∧ (State.modSpring s f).evq = s.evq
    ∧ (State.modSpring s f).die = s.die ∧ (State.modSpring s f).ph = s.ph ∧ (State.modSpring s f).pst = s.pst
    ∧ (State.modSpring s f).vs = s.vs ∧ (State.modSpring s f).loop = s.loop ∧ (State.modSpring s f).fault = s.fault
    ∧ (State.modSpring s f).stemRep = s.stemRep ∧ (State.modSpring s f).share = s.share ∧ (State.modSpring s f).hold = s.hold
    ∧ (State.modSpring s f).bank = s.bank ∧ (State.modSpring s f).weir = s.weir ∧ (State.modSpring s f).batt = s.batt
    ∧ (State.modSpring s f).port = s.port ∧ (State.modSpring s f).nodes = s.nodes ∧ (State.modSpring s f).pool = s.pool
    ∧ (State.modSpring s f).mram = s.mram ∧ (State.modSpring s f).silt = s.silt ∧ (State.modSpring s f).spate = s.spate
    ∧ (State.modSpring s f).host = s.host ∧ (State.modSpring s f).stems = s.stems ∧ (State.modSpring s f).passed = s.passed
    ∧ (State.modSpring s f).therm = s.therm ∧ (State.modSpring s f).timer = s.timer ∧ (State.modSpring s f).power = s.power
    ∧ (State.modSpring s f).firm = s.firm ∧ (State.modSpring s f).chain = s.chain ∧ (State.modSpring s f).dev = s.dev :=
    ⟨rfl, rfl, rfl, rfl, rfl, rfl, rfl, rfl, rfl, rfl, rfl, rfl, rfl, rfl, rfl, rfl, rfl, rfl, rfl, rfl, rfl, rfl, rfl, rfl, rfl, rfl, rfl, rfl, rfl, rfl, rfl, rfl, rfl, rfl, rfl, rfl⟩

@[simp] theorem State.modFirm_firm (s : State) (f : Firm → Firm) :
    (State.modFirm s f).firm = f s.firm := rfl

@[simp] theorem State.modFirm_rest (s : State) (f : Firm → Firm) :
    (State.modFirm s f).pending = s.pending ∧ (State.modFirm s f).clk = s.clk ∧ (State.modFirm s f).tb = s.tb
    ∧ (State.modFirm s f).slu = s.slu ∧ (State.modFirm s f).cfg = s.cfg ∧ (State.modFirm s f).lag = s.lag
    ∧ (State.modFirm s f).ord = s.ord ∧ (State.modFirm s f).free = s.free ∧ (State.modFirm s f).evq = s.evq
    ∧ (State.modFirm s f).die = s.die ∧ (State.modFirm s f).ph = s.ph ∧ (State.modFirm s f).pst = s.pst ∧ (State.modFirm s f).vs = s.vs
    ∧ (State.modFirm s f).loop = s.loop ∧ (State.modFirm s f).fault = s.fault ∧ (State.modFirm s f).stemRep = s.stemRep
    ∧ (State.modFirm s f).share = s.share ∧ (State.modFirm s f).hold = s.hold ∧ (State.modFirm s f).bank = s.bank
    ∧ (State.modFirm s f).weir = s.weir ∧ (State.modFirm s f).batt = s.batt ∧ (State.modFirm s f).port = s.port
    ∧ (State.modFirm s f).nodes = s.nodes ∧ (State.modFirm s f).pool = s.pool ∧ (State.modFirm s f).mram = s.mram
    ∧ (State.modFirm s f).silt = s.silt ∧ (State.modFirm s f).spate = s.spate ∧ (State.modFirm s f).host = s.host
    ∧ (State.modFirm s f).stems = s.stems ∧ (State.modFirm s f).passed = s.passed ∧ (State.modFirm s f).therm = s.therm
    ∧ (State.modFirm s f).timer = s.timer ∧ (State.modFirm s f).power = s.power ∧ (State.modFirm s f).spring = s.spring
    ∧ (State.modFirm s f).chain = s.chain ∧ (State.modFirm s f).dev = s.dev :=
    ⟨rfl, rfl, rfl, rfl, rfl, rfl, rfl, rfl, rfl, rfl, rfl, rfl, rfl, rfl, rfl, rfl, rfl, rfl, rfl, rfl, rfl, rfl, rfl, rfl, rfl, rfl, rfl, rfl, rfl, rfl, rfl, rfl, rfl, rfl, rfl, rfl⟩

@[simp] theorem State.modDev_dev (s : State) (f : Dev → Dev) :
    (State.modDev s f).dev = f s.dev := rfl

@[simp] theorem State.modDev_rest (s : State) (f : Dev → Dev) :
    (State.modDev s f).pending = s.pending ∧ (State.modDev s f).clk = s.clk ∧ (State.modDev s f).tb = s.tb
    ∧ (State.modDev s f).slu = s.slu ∧ (State.modDev s f).cfg = s.cfg ∧ (State.modDev s f).lag = s.lag ∧ (State.modDev s f).ord = s.ord
    ∧ (State.modDev s f).free = s.free ∧ (State.modDev s f).evq = s.evq ∧ (State.modDev s f).die = s.die ∧ (State.modDev s f).ph = s.ph
    ∧ (State.modDev s f).pst = s.pst ∧ (State.modDev s f).vs = s.vs ∧ (State.modDev s f).loop = s.loop
    ∧ (State.modDev s f).fault = s.fault ∧ (State.modDev s f).stemRep = s.stemRep ∧ (State.modDev s f).share = s.share
    ∧ (State.modDev s f).hold = s.hold ∧ (State.modDev s f).bank = s.bank ∧ (State.modDev s f).weir = s.weir
    ∧ (State.modDev s f).batt = s.batt ∧ (State.modDev s f).port = s.port ∧ (State.modDev s f).nodes = s.nodes
    ∧ (State.modDev s f).pool = s.pool ∧ (State.modDev s f).mram = s.mram ∧ (State.modDev s f).silt = s.silt
    ∧ (State.modDev s f).spate = s.spate ∧ (State.modDev s f).host = s.host ∧ (State.modDev s f).stems = s.stems
    ∧ (State.modDev s f).passed = s.passed ∧ (State.modDev s f).therm = s.therm ∧ (State.modDev s f).timer = s.timer
    ∧ (State.modDev s f).power = s.power ∧ (State.modDev s f).spring = s.spring ∧ (State.modDev s f).firm = s.firm
    ∧ (State.modDev s f).chain = s.chain :=
    ⟨rfl, rfl, rfl, rfl, rfl, rfl, rfl, rfl, rfl, rfl, rfl, rfl, rfl, rfl, rfl, rfl, rfl, rfl, rfl, rfl, rfl, rfl, rfl, rfl, rfl, rfl, rfl, rfl, rfl, rfl, rfl, rfl, rfl, rfl, rfl, rfl⟩

@[simp] theorem State.modStems_stems (s : State) (f : Stems → Stems) :
    (State.modStems s f).stems = f s.stems := rfl

@[simp] theorem State.modStems_rest (s : State) (f : Stems → Stems) :
    (State.modStems s f).pending = s.pending ∧ (State.modStems s f).clk = s.clk ∧ (State.modStems s f).tb = s.tb
    ∧ (State.modStems s f).slu = s.slu ∧ (State.modStems s f).cfg = s.cfg ∧ (State.modStems s f).lag = s.lag
    ∧ (State.modStems s f).ord = s.ord ∧ (State.modStems s f).free = s.free ∧ (State.modStems s f).evq = s.evq
    ∧ (State.modStems s f).die = s.die ∧ (State.modStems s f).ph = s.ph ∧ (State.modStems s f).pst = s.pst
    ∧ (State.modStems s f).vs = s.vs ∧ (State.modStems s f).loop = s.loop ∧ (State.modStems s f).fault = s.fault
    ∧ (State.modStems s f).stemRep = s.stemRep ∧ (State.modStems s f).share = s.share ∧ (State.modStems s f).hold = s.hold
    ∧ (State.modStems s f).bank = s.bank ∧ (State.modStems s f).weir = s.weir ∧ (State.modStems s f).batt = s.batt
    ∧ (State.modStems s f).port = s.port ∧ (State.modStems s f).nodes = s.nodes ∧ (State.modStems s f).pool = s.pool
    ∧ (State.modStems s f).mram = s.mram ∧ (State.modStems s f).silt = s.silt ∧ (State.modStems s f).spate = s.spate
    ∧ (State.modStems s f).host = s.host ∧ (State.modStems s f).passed = s.passed ∧ (State.modStems s f).therm = s.therm
    ∧ (State.modStems s f).timer = s.timer ∧ (State.modStems s f).power = s.power ∧ (State.modStems s f).spring = s.spring
    ∧ (State.modStems s f).firm = s.firm ∧ (State.modStems s f).chain = s.chain ∧ (State.modStems s f).dev = s.dev :=
    ⟨rfl, rfl, rfl, rfl, rfl, rfl, rfl, rfl, rfl, rfl, rfl, rfl, rfl, rfl, rfl, rfl, rfl, rfl, rfl, rfl, rfl, rfl, rfl, rfl, rfl, rfl, rfl, rfl, rfl, rfl, rfl, rfl, rfl, rfl, rfl, rfl⟩

@[simp] theorem State.passCopy_passed (s : State) (g : Fin 5) (oseq : Nat) :
    (State.passCopy s g oseq).passed = upd s.passed g (fun p => max p oseq) := rfl

@[simp] theorem State.passCopy_rest (s : State) (g : Fin 5) (oseq : Nat) :
    (State.passCopy s g oseq).pending = s.pending ∧ (State.passCopy s g oseq).clk = s.clk ∧ (State.passCopy s g oseq).tb = s.tb
    ∧ (State.passCopy s g oseq).slu = s.slu ∧ (State.passCopy s g oseq).cfg = s.cfg ∧ (State.passCopy s g oseq).lag = s.lag
    ∧ (State.passCopy s g oseq).ord = s.ord ∧ (State.passCopy s g oseq).free = s.free ∧ (State.passCopy s g oseq).evq = s.evq
    ∧ (State.passCopy s g oseq).die = s.die ∧ (State.passCopy s g oseq).ph = s.ph ∧ (State.passCopy s g oseq).pst = s.pst
    ∧ (State.passCopy s g oseq).vs = s.vs ∧ (State.passCopy s g oseq).loop = s.loop ∧ (State.passCopy s g oseq).fault = s.fault
    ∧ (State.passCopy s g oseq).stemRep = s.stemRep ∧ (State.passCopy s g oseq).share = s.share ∧ (State.passCopy s g oseq).hold = s.hold
    ∧ (State.passCopy s g oseq).bank = s.bank ∧ (State.passCopy s g oseq).weir = s.weir ∧ (State.passCopy s g oseq).batt = s.batt
    ∧ (State.passCopy s g oseq).port = s.port ∧ (State.passCopy s g oseq).nodes = s.nodes ∧ (State.passCopy s g oseq).pool = s.pool
    ∧ (State.passCopy s g oseq).mram = s.mram ∧ (State.passCopy s g oseq).silt = s.silt ∧ (State.passCopy s g oseq).spate = s.spate
    ∧ (State.passCopy s g oseq).host = s.host ∧ (State.passCopy s g oseq).stems = s.stems ∧ (State.passCopy s g oseq).therm = s.therm
    ∧ (State.passCopy s g oseq).timer = s.timer ∧ (State.passCopy s g oseq).power = s.power ∧ (State.passCopy s g oseq).spring = s.spring
    ∧ (State.passCopy s g oseq).firm = s.firm ∧ (State.passCopy s g oseq).chain = s.chain ∧ (State.passCopy s g oseq).dev = s.dev :=
    ⟨rfl, rfl, rfl, rfl, rfl, rfl, rfl, rfl, rfl, rfl, rfl, rfl, rfl, rfl, rfl, rfl, rfl, rfl, rfl, rfl, rfl, rfl, rfl, rfl, rfl, rfl, rfl, rfl, rfl, rfl, rfl, rfl, rfl, rfl, rfl, rfl⟩

@[simp] theorem State.modTherm_therm (s : State) (f : Therm → Therm) :
    (State.modTherm s f).therm = f s.therm := rfl

@[simp] theorem State.modTherm_rest (s : State) (f : Therm → Therm) :
    (State.modTherm s f).pending = s.pending ∧ (State.modTherm s f).clk = s.clk ∧ (State.modTherm s f).tb = s.tb
    ∧ (State.modTherm s f).slu = s.slu ∧ (State.modTherm s f).cfg = s.cfg ∧ (State.modTherm s f).lag = s.lag
    ∧ (State.modTherm s f).ord = s.ord ∧ (State.modTherm s f).free = s.free ∧ (State.modTherm s f).evq = s.evq
    ∧ (State.modTherm s f).die = s.die ∧ (State.modTherm s f).ph = s.ph ∧ (State.modTherm s f).pst = s.pst
    ∧ (State.modTherm s f).vs = s.vs ∧ (State.modTherm s f).loop = s.loop ∧ (State.modTherm s f).fault = s.fault
    ∧ (State.modTherm s f).stemRep = s.stemRep ∧ (State.modTherm s f).share = s.share ∧ (State.modTherm s f).hold = s.hold
    ∧ (State.modTherm s f).bank = s.bank ∧ (State.modTherm s f).weir = s.weir ∧ (State.modTherm s f).batt = s.batt
    ∧ (State.modTherm s f).port = s.port ∧ (State.modTherm s f).nodes = s.nodes ∧ (State.modTherm s f).pool = s.pool
    ∧ (State.modTherm s f).mram = s.mram ∧ (State.modTherm s f).silt = s.silt ∧ (State.modTherm s f).spate = s.spate
    ∧ (State.modTherm s f).host = s.host ∧ (State.modTherm s f).stems = s.stems ∧ (State.modTherm s f).passed = s.passed
    ∧ (State.modTherm s f).timer = s.timer ∧ (State.modTherm s f).power = s.power ∧ (State.modTherm s f).spring = s.spring
    ∧ (State.modTherm s f).firm = s.firm ∧ (State.modTherm s f).chain = s.chain ∧ (State.modTherm s f).dev = s.dev :=
    ⟨rfl, rfl, rfl, rfl, rfl, rfl, rfl, rfl, rfl, rfl, rfl, rfl, rfl, rfl, rfl, rfl, rfl, rfl, rfl, rfl, rfl, rfl, rfl, rfl, rfl, rfl, rfl, rfl, rfl, rfl, rfl, rfl, rfl, rfl, rfl, rfl⟩

@[simp] theorem State.inboxPop_nodes (s : State) :
    (State.inboxPop s).nodes = { s.nodes with inbox := s.nodes.inbox.tail } := rfl

@[simp] theorem State.inboxPop_rest (s : State) :
    (State.inboxPop s).pending = s.pending ∧ (State.inboxPop s).clk = s.clk ∧ (State.inboxPop s).tb = s.tb
    ∧ (State.inboxPop s).slu = s.slu ∧ (State.inboxPop s).cfg = s.cfg ∧ (State.inboxPop s).lag = s.lag ∧ (State.inboxPop s).ord = s.ord
    ∧ (State.inboxPop s).free = s.free ∧ (State.inboxPop s).evq = s.evq ∧ (State.inboxPop s).die = s.die ∧ (State.inboxPop s).ph = s.ph
    ∧ (State.inboxPop s).pst = s.pst ∧ (State.inboxPop s).vs = s.vs ∧ (State.inboxPop s).loop = s.loop
    ∧ (State.inboxPop s).fault = s.fault ∧ (State.inboxPop s).stemRep = s.stemRep ∧ (State.inboxPop s).share = s.share
    ∧ (State.inboxPop s).hold = s.hold ∧ (State.inboxPop s).bank = s.bank ∧ (State.inboxPop s).weir = s.weir
    ∧ (State.inboxPop s).batt = s.batt ∧ (State.inboxPop s).port = s.port ∧ (State.inboxPop s).pool = s.pool
    ∧ (State.inboxPop s).mram = s.mram ∧ (State.inboxPop s).silt = s.silt ∧ (State.inboxPop s).spate = s.spate
    ∧ (State.inboxPop s).host = s.host ∧ (State.inboxPop s).stems = s.stems ∧ (State.inboxPop s).passed = s.passed
    ∧ (State.inboxPop s).therm = s.therm ∧ (State.inboxPop s).timer = s.timer ∧ (State.inboxPop s).power = s.power
    ∧ (State.inboxPop s).spring = s.spring ∧ (State.inboxPop s).firm = s.firm ∧ (State.inboxPop s).chain = s.chain
    ∧ (State.inboxPop s).dev = s.dev :=
    ⟨rfl, rfl, rfl, rfl, rfl, rfl, rfl, rfl, rfl, rfl, rfl, rfl, rfl, rfl, rfl, rfl, rfl, rfl, rfl, rfl, rfl, rfl, rfl, rfl, rfl, rfl, rfl, rfl, rfl, rfl, rfl, rfl, rfl, rfl, rfl, rfl⟩

@[simp] theorem State.modPower_power (s : State) (f : Power → Power) :
    (State.modPower s f).power = f s.power := rfl

@[simp] theorem State.modPower_rest (s : State) (f : Power → Power) :
    (State.modPower s f).pending = s.pending ∧ (State.modPower s f).clk = s.clk ∧ (State.modPower s f).tb = s.tb
    ∧ (State.modPower s f).slu = s.slu ∧ (State.modPower s f).cfg = s.cfg ∧ (State.modPower s f).lag = s.lag
    ∧ (State.modPower s f).ord = s.ord ∧ (State.modPower s f).free = s.free ∧ (State.modPower s f).evq = s.evq
    ∧ (State.modPower s f).die = s.die ∧ (State.modPower s f).ph = s.ph ∧ (State.modPower s f).pst = s.pst
    ∧ (State.modPower s f).vs = s.vs ∧ (State.modPower s f).loop = s.loop ∧ (State.modPower s f).fault = s.fault
    ∧ (State.modPower s f).stemRep = s.stemRep ∧ (State.modPower s f).share = s.share ∧ (State.modPower s f).hold = s.hold
    ∧ (State.modPower s f).bank = s.bank ∧ (State.modPower s f).weir = s.weir ∧ (State.modPower s f).batt = s.batt
    ∧ (State.modPower s f).port = s.port ∧ (State.modPower s f).nodes = s.nodes ∧ (State.modPower s f).pool = s.pool
    ∧ (State.modPower s f).mram = s.mram ∧ (State.modPower s f).silt = s.silt ∧ (State.modPower s f).spate = s.spate
    ∧ (State.modPower s f).host = s.host ∧ (State.modPower s f).stems = s.stems ∧ (State.modPower s f).passed = s.passed
    ∧ (State.modPower s f).therm = s.therm ∧ (State.modPower s f).timer = s.timer ∧ (State.modPower s f).spring = s.spring
    ∧ (State.modPower s f).firm = s.firm ∧ (State.modPower s f).chain = s.chain ∧ (State.modPower s f).dev = s.dev :=
    ⟨rfl, rfl, rfl, rfl, rfl, rfl, rfl, rfl, rfl, rfl, rfl, rfl, rfl, rfl, rfl, rfl, rfl, rfl, rfl, rfl, rfl, rfl, rfl, rfl, rfl, rfl, rfl, rfl, rfl, rfl, rfl, rfl, rfl, rfl, rfl, rfl⟩

@[simp] theorem State.modChain_chain (s : State) (f : Chain → Chain) :
    (State.modChain s f).chain = f s.chain := rfl

@[simp] theorem State.modChain_rest (s : State) (f : Chain → Chain) :
    (State.modChain s f).pending = s.pending ∧ (State.modChain s f).clk = s.clk ∧ (State.modChain s f).tb = s.tb
    ∧ (State.modChain s f).slu = s.slu ∧ (State.modChain s f).cfg = s.cfg ∧ (State.modChain s f).lag = s.lag
    ∧ (State.modChain s f).ord = s.ord ∧ (State.modChain s f).free = s.free ∧ (State.modChain s f).evq = s.evq
    ∧ (State.modChain s f).die = s.die ∧ (State.modChain s f).ph = s.ph ∧ (State.modChain s f).pst = s.pst
    ∧ (State.modChain s f).vs = s.vs ∧ (State.modChain s f).loop = s.loop ∧ (State.modChain s f).fault = s.fault
    ∧ (State.modChain s f).stemRep = s.stemRep ∧ (State.modChain s f).share = s.share ∧ (State.modChain s f).hold = s.hold
    ∧ (State.modChain s f).bank = s.bank ∧ (State.modChain s f).weir = s.weir ∧ (State.modChain s f).batt = s.batt
    ∧ (State.modChain s f).port = s.port ∧ (State.modChain s f).nodes = s.nodes ∧ (State.modChain s f).pool = s.pool
    ∧ (State.modChain s f).mram = s.mram ∧ (State.modChain s f).silt = s.silt ∧ (State.modChain s f).spate = s.spate
    ∧ (State.modChain s f).host = s.host ∧ (State.modChain s f).stems = s.stems ∧ (State.modChain s f).passed = s.passed
    ∧ (State.modChain s f).therm = s.therm ∧ (State.modChain s f).timer = s.timer ∧ (State.modChain s f).power = s.power
    ∧ (State.modChain s f).spring = s.spring ∧ (State.modChain s f).firm = s.firm ∧ (State.modChain s f).dev = s.dev :=
    ⟨rfl, rfl, rfl, rfl, rfl, rfl, rfl, rfl, rfl, rfl, rfl, rfl, rfl, rfl, rfl, rfl, rfl, rfl, rfl, rfl, rfl, rfl, rfl, rfl, rfl, rfl, rfl, rfl, rfl, rfl, rfl, rfl, rfl, rfl, rfl, rfl⟩

@[simp] theorem State.modPl_eq (s : State) (p : Fin 48) (f : Pulse → Pulse) :
    State.modPl s p f = s.modPh p (fun x => { x with pl := f x.pl }) := rfl

@[simp] theorem State.modLp_eq (s : State) (d : Fin 4) (l : Fin 16) (f : DieLoop → DieLoop) :
    State.modLp s d l f = s.modDie d (fun x => { x with lp := upd x.lp l f }) := rfl

@[simp] theorem State.modCt_eq (s : State) (l : Fin 16) (f : LoopCtl → LoopCtl) :
    State.modCt s l f = s.modLoop l (fun x => { x with ct := f x.ct }) := rfl

@[simp] theorem State.modTm_eq (s : State) (l : Fin 16) (f : LoopTime → LoopTime) :
    State.modTm s l f = s.modLoop l (fun x => { x with tm := f x.tm }) := rfl

@[simp] theorem State.modFl_eq (s : State) (l : Fin 16) (f : LoopFlags → LoopFlags) :
    State.modFl s l f = s.modLoop l (fun x => { x with fl := f x.fl }) := rfl

@[simp] theorem State.modOc_eq (s : State) (l : Fin 16) (f : OcSup → OcSup) :
    State.modOc s l f = s.modLoop l (fun x => { x with oc := f x.oc }) := rfl

@[simp] theorem State.modEb_eq (s : State) (l : Fin 16) (f : EbbPg → EbbPg) :
    State.modEb s l f = s.modLoop l (fun x => { x with eb := f x.eb }) := rfl

@[simp] theorem State.modSess_eq (s : State) (k : Fin 8) (f : Sess → Sess) :
    State.modSess s k f = s.modHost (fun h => { h with sess := upd h.sess k f }) := rfl

@[simp] theorem State.modMb_eq (s : State) (m : Fin 16) (f : Mbox → Mbox) :
    State.modMb s m f = s.modHost (fun h => { h with mb := upd h.mb m f }) := rfl

@[simp] theorem State.modHp_eq (s : State) (p : Fin 4) (f : HostPort → HostPort) :
    State.modHp s p f = s.modHost (fun h => { h with port := upd h.port p f }) := rfl

@[simp] theorem State.modCnt_eq (s : State) (p : Fin 64) (f : PortCount → PortCount) :
    State.modCnt s p f = s.modPort p (fun x => { x with cnt := f x.cnt }) := rfl

@[simp] theorem State.modBf_eq (s : State) (b : Fin 8) (f : BattFlags → BattFlags) :
    State.modBf s b f = s.modBatt b (fun x => { x with fl := f x.fl }) := rfl

@[simp] theorem State.modBuf_eq (s : State) (b : Fin 2) (f : SpBuf → SpBuf) :
    State.modBuf s b f = s.modSpate (fun x => { x with buf := upd x.buf b f }) := rfl

@[simp] theorem State.modFeed_eq (s : State) (f : Fin 2) (g : Feed → Feed) :
    State.modFeed s f g = s.modBank (fun b => { b with feed := upd b.feed f g }) := rfl

@[simp] theorem State.modScope_eq (s : State) (k : Fin 36) (f : Scope → Scope) :
    State.modScope s k f = s.modWeir (fun w => { w with scope := upd w.scope k f }) := rfl

@[simp] theorem State.modWeirNode_eq (s : State) (a : Nat) (f : WeirNode → WeirNode) :
    State.modWeirNode s a f = s.modWeir (fun w => { w with node := SMap.set WeirNode.none a (f (s.weirNode a)) w.node }) := rfl

@[simp] theorem State.modStem_eq (s : State) (k : Fin 2) (f : Stem → Stem) :
    State.modStem s k f = s.modStems (fun x => { x with stem := upd x.stem k f }) := rfl

@[simp] theorem State.modTd_eq (s : State) (d : Fin 8) (f : ThDie → ThDie) :
    State.modTd s d f = s.modTherm (fun x => { x with die := upd x.die d f }) := rfl

@[simp] theorem State.modSpi_eq (s : State) (n : Fin 2) (f : SpiPort → SpiPort) :
    State.modSpi s n f = s.modHost (fun h => { h with spi := upd h.spi n f }) := rfl

@[simp] theorem State.modPmb_eq (s : State) (p : Fin 64) (f : Pmb → Pmb) :
    State.modPmb s p f = s.modPort p (fun x => { x with pmb := f x.pmb }) := rfl

@[simp] theorem State.modTgt_eq (s : State) (p : Fin 64) (t : Fin 16) (f : PmbTarget → PmbTarget) :
    State.modTgt s p t f = s.modPmb p (fun x => { x with targets := upd x.targets t f }) := rfl

@[simp] theorem State.modSup_eq (s : State) (i : Fin 10) (f : Supply → Supply) :
    State.modSup s i f = s.modPower (fun p => { p with sup := upd p.sup i f }) := rfl

@[simp] theorem State.modPeer_eq (s : State) (n : Fin 2) (f : Peer → Peer) :
    State.modPeer s n f = s.modChain (fun c => { c with peer := upd c.peer n f }) := rfl

end Sys2Proof.Machine
end

