-- ==== Sys2Proof/Laws/Ops.lean ====
section
/-! SUPPORT. What the shared operations do, said once: sparse tables, the bytes of the store, a control, a request that is accepted. -/

namespace Sys2Proof

/-- What a table without a key gives at it. -/
theorem SMap.get_erase_same {α : Type} (d : α) (k : Nat) (m : SMap α) : SMap.get d k (SMap.erase k m) = d := by
  induction m with
  | nil => rfl
  | cons q m ih =>
    by_cases h : q.1 = k
    · simpa [SMap.erase, h] using ih
    · simpa [SMap.erase, h, SMap.get] using ih

/-- What a table without a key gives elsewhere. -/
theorem SMap.get_erase_ne {α : Type} (d : α) {j k : Nat} (h : j ≠ k) (m : SMap α) : SMap.get d j (SMap.erase k m) = SMap.get d j m := by
  induction m with
  | nil => rfl
  | cons q m ih =>
    by_cases hq : q.1 = k
    · have hj : q.1 ≠ j := fun e => h (e.symm.trans hq)
      have e : SMap.erase k (q :: m) = SMap.erase k m := by simp [SMap.erase, hq]
      rw [e, ih]; obtain ⟨a, b⟩ := q; simp only [SMap.get]; rw [if_neg hj]
    · have e : SMap.erase k (q :: m) = q :: SMap.erase k m := by simp [SMap.erase, hq]
      rw [e]; obtain ⟨a, b⟩ := q; simp only [SMap.get, ih]

/-- What an entry put into a table that has none at its key gives there. -/
theorem SMap.get_insert_same {α : Type} (d v : α) (k : Nat) (m : SMap α) (h : ∀ q ∈ m, q.1 ≠ k) : SMap.get d k (SMap.insert k v m) = v := by
  induction m with
  | nil => simp [SMap.insert, SMap.get]
  | cons q m ih =>
    obtain ⟨a, b⟩ := q
    by_cases hk : k < a
    · simp [SMap.insert, hk, SMap.get]
    · have ha : a ≠ k := h (a, b) (by simp)
      simp only [SMap.insert, hk, if_false, SMap.get, ha]
      exact ih (fun q hq => h q (by simp [hq]))

/-- An entry put into a table changes no other key. -/
theorem SMap.get_insert_ne {α : Type} (d v : α) {j k : Nat} (h : j ≠ k) (m : SMap α) : SMap.get d j (SMap.insert k v m) = SMap.get d j m := by
  induction m with
  | nil => simp [SMap.insert, SMap.get, Ne.symm h]
  | cons q m ih =>
    obtain ⟨a, b⟩ := q
    by_cases hk : k < a
    · simp [SMap.insert, hk, SMap.get, Ne.symm h]
    · simp only [SMap.insert, hk, if_false, SMap.get, ih]

/-- A key set reads as what was set. -/
@[simp] theorem SMap.get_set_same {α : Type} [DecidableEq α] (d v : α) (k : Nat) (m : SMap α) : SMap.get d k (SMap.set d k v m) = v := by
  unfold SMap.set
  split
  · rename_i h; rw [SMap.get_erase_same, h]
  · exact SMap.get_insert_same d v k _ (fun q hq => by simp [SMap.erase] at hq; exact hq.2)

/-- Every other key reads as before. -/
theorem SMap.get_set_ne {α : Type} [DecidableEq α] (d v : α) {j k : Nat} (h : j ≠ k) (m : SMap α) :
    SMap.get d j (SMap.set d k v m) = SMap.get d j m := by
  unfold SMap.set
  split
  · exact SMap.get_erase_ne d h m
  · rw [SMap.get_insert_ne d v h, SMap.get_erase_ne d h]

end Sys2Proof

namespace Sys2Proof.Machine

open Sys2Proof

/-- A byte of the store written reads as written. -/
theorem mramByte_set_same (m : List Host.Cell) {a : Nat} (b : Byte) (h : a < mramSize) : mramByte (mramSet m a b) a = b := by
  simp [mramByte, mramSet, h]

/-- A byte of the store written leaves every other byte. -/
theorem mramByte_set_ne (m : List Host.Cell) {a c : Nat} (b : Byte) (h : c ≠ a) : mramByte (mramSet m a b) c = mramByte m c := by
  simp only [mramByte, mramSet]
  split
  · exact SMap.get_set_ne _ _ h m
  · rfl

/-- Bytes written leave every byte outside them. -/
theorem mramByte_put_out (bs : List Byte) (m : List Host.Cell) {a c : Nat} (h : c < a ∨ a + bs.length ≤ c) :
    mramByte (mramPut m a bs) c = mramByte m c := by
  induction bs generalizing m a with
  | nil => rfl
  | cons b bs ih =>
    have h1 : c < a + 1 ∨ a + 1 + bs.length ≤ c := by simp at h; omega
    have h2 : c ≠ a := by simp at h; omega
    rw [mramPut, ih _ h1, mramByte_set_ne m b h2]

/-- Bytes written read as written. -/
theorem mramGet_put (bs : List Byte) (m : List Host.Cell) {a : Nat} (h : a + bs.length ≤ mramSize) :
    mramGet (mramPut m a bs) a bs.length = bs := by
  induction bs generalizing m a with
  | nil => rfl
  | cons b bs ih =>
    have h1 : a + 1 + bs.length ≤ mramSize := by simp at h; omega
    have h2 : a < mramSize := by simp at h; omega
    have e : mramByte (mramPut (mramSet m a b) (a + 1) bs) a = b := by
      rw [mramByte_put_out bs _ (by omega), mramByte_set_same m b h2]
    simp only [mramPut, List.length_cons, mramGet, e, ih _ h1]

/-- Bytes outside those written read as before. -/
theorem mramGet_put_out (bs : List Byte) (m : List Host.Cell) {a c n : Nat} (h : c + n ≤ a ∨ a + bs.length ≤ c) :
    mramGet (mramPut m a bs) c n = mramGet m c n := by
  induction n generalizing c with
  | zero => rfl
  | succ n ih =>
    simp only [mramGet]
    rw [mramByte_put_out bs m (by omega), ih (by omega)]

/-- A cell of the store after bytes are written stood there before or lies among them. -/
theorem mem_mramPut (bs : List Byte) (m : List Host.Cell) {a : Nat} {c : Host.Cell} (h : c ∈ mramPut m a bs) :
    c ∈ m ∨ (a ≤ c.1 ∧ c.1 < a + bs.length) := by
  induction bs generalizing m a with
  | nil => exact .inl h
  | cons b bs ih =>
    have key : ∀ (n : List Host.Cell) (q : Host.Cell), q ∈ SMap.insert a b n → q ∈ n ∨ q.1 = a := by
      intro n
      induction n with
      | nil => intro q hq; simp [SMap.insert] at hq; exact .inr (by rw [hq])
      | cons r n ihn =>
        intro q hq
        simp only [SMap.insert] at hq
        split at hq
        · rcases List.mem_cons.mp hq with e | e
          · exact .inr (by rw [e])
          · exact .inl e
        · rcases List.mem_cons.mp hq with e | e
          · exact .inl (by rw [e]; simp)
          · rcases ihn q e with e | e
            · exact .inl (List.mem_cons_of_mem _ e)
            · exact .inr e
    have set : ∀ q : Host.Cell, q ∈ mramSet m a b → q ∈ m ∨ q.1 = a := by
      intro q hq
      simp only [mramSet, SMap.set] at hq
      split at hq
      · split at hq
        · exact .inl (List.mem_of_mem_filter hq)
        · rcases key _ q hq with e | e
          · exact .inl (List.mem_of_mem_filter e)
          · exact .inr e
      · exact .inl hq
    rcases ih _ h with e | e
    · rcases set c e with e | e
      · exact .inl e
      · exact .inr (by simp; omega)
    · exact .inr (by simp; omega)

/-- A byte that is not 0 stands in a cell. -/
theorem mramByte_mem {m : List Host.Cell} {a : Nat} (h : mramByte m a ≠ 0#8) : ∃ c ∈ m, c.1 = a := by
  induction m with
  | nil => exact absurd rfl h
  | cons q m ih =>
    obtain ⟨k, v⟩ := q
    by_cases e : k = a
    · exact ⟨(k, v), by simp, e⟩
    · obtain ⟨c, hc, ha⟩ := ih (by simpa [mramByte, SMap.get, e] using h)
      exact ⟨c, List.mem_cons_of_mem _ hc, ha⟩

/-- The first byte of a longer read. -/
theorem mramGet_take (m : List Host.Cell) (a k n : Nat) : (mramGet m a (k + n)).take k = mramGet m a k := by
  induction k generalizing a with
  | zero => simp [mramGet]
  | succ k ih => rw [Nat.succ_add]; simp only [mramGet, List.take_succ_cons, ih]

/-- The rest of a longer read. -/
theorem mramGet_drop (m : List Host.Cell) (a k n : Nat) : (mramGet m a (k + n)).drop k = mramGet m (a + k) n := by
  induction k generalizing a with
  | zero => simp
  | succ k ih => rw [Nat.succ_add]; simp only [mramGet, List.drop_succ_cons, ih]; congr 1; omega

/-- `k` little-endian bytes. -/
@[simp] theorem leBytes_length (k n : Nat) : (leBytes k n).length = k := by
  induction k generalizing n with
  | zero => rfl
  | succ k ih => simp [leBytes, ih]

/-- Little-endian bytes spell their number. -/
theorem leNat_leBytes (k n : Nat) (h : n < 256 ^ k) : leNat (leBytes k n) = n := by
  induction k generalizing n with
  | zero => simp at h; simp [leBytes, leNat, h]
  | succ k ih =>
    have : n / 256 < 256 ^ k := Nat.div_lt_of_lt_mul (by rw [Nat.pow_succ] at h; omega)
    simp only [leBytes, leNat, ih _ this, BitVec.toNat_ofNat]
    omega

/-- A CRC-32C has 32 bits. -/
theorem crc32c_lt (bs : List Byte) : crc32c bs < 256 ^ 4 := by
  have sh : ∀ k c, c < 2 ^ 32 → crc32cShift k c < 2 ^ 32 := by
    intro k
    induction k with
    | zero => intro c h; exact h
    | succ k ih =>
      intro c h
      refine ih _ ?_
      split
      · exact Nat.xor_lt_two_pow (by omega) (by decide)
      · omega
  have fo : ∀ (l : List Byte) (c : Nat), c < 2 ^ 32 → l.foldl (fun c b => crc32cShift 8 (c ^^^ b.toNat)) c < 2 ^ 32 := by
    intro l
    induction l with
    | nil => intro c h; exact h
    | cons b l ih => intro c h; exact ih _ (sh 8 _ (Nat.xor_lt_two_pow h (by have := b.isLt; omega)))
  exact Nat.xor_lt_two_pow (n := 32) (fo bs _ (by decide)) (by decide)

/-- A ledger copy has 4,096 bytes (R341). -/
theorem State.ledgerBytes_length (s : State) (gen : Nat) : (s.ledgerBytes gen).length = 4096 := by
  simp only [State.ledgerBytes, State.bootItem, ThDie.item, List.length_append, leBytes_length, List.length_replicate, List.length_flatMap,
    List.map_const', List.sum_replicate]
  rfl

/-- A ledger that is written reads as written, and its CRC is good (R342). -/
theorem State.ledgerWrite_read (s : State) (gen : Nat) (m : List Host.Cell) (t : State) (b : Bool)
    (h : t.mram = mramPut m (ledgerAddr b) (s.ledgerBytes gen)) :
    t.load (ledgerAddr b) 4096 = s.ledgerBytes gen ∧ crc32c (t.load (ledgerAddr b) 4092) = t.loadNat (ledgerAddr b + 4092) 4 := by
  have hb : ledgerAddr b + (s.ledgerBytes gen).length ≤ mramSize := by rw [s.ledgerBytes_length]; cases b <;> decide
  have e : t.load (ledgerAddr b) 4096 = s.ledgerBytes gen := by
    rw [State.load, h]; conv => lhs; rw [← s.ledgerBytes_length gen]
    exact mramGet_put _ _ hb
  refine ⟨e, ?_⟩
  have e1 : t.load (ledgerAddr b) 4092 = (s.ledgerBytes gen).take 4092 := by
    rw [← e]; exact (mramGet_take t.mram _ 4092 4).symm
  have e2 : t.load (ledgerAddr b + 4092) 4 = (s.ledgerBytes gen).drop 4092 := by
    rw [← e]; exact (mramGet_drop t.mram _ 4092 4).symm
  obtain ⟨l, hl, hc⟩ : ∃ l : List Byte, l.length = 4092 ∧ s.ledgerBytes gen = l ++ leBytes 4 (crc32c l) := by
    refine ⟨_, ?_, rfl⟩
    have := s.ledgerBytes_length gen
    simp only [State.ledgerBytes, List.length_append, leBytes_length] at this ⊢
    omega
  rw [State.loadNat, e1, e2, hc, List.take_left' hl, List.drop_left' hl, leNat_leBytes _ _ (crc32c_lt l)]


/-- A part in reset whose store holds one ledger alone, copy A with a GEN of 1: that copy is the one in force (R342). -/
theorem State.ledgerPick_one (s t : State) (h : t.mram = mramPut [] (ledgerAddr false) (s.ledgerBytes 1)) : t.ledgerPick = some false := by
  obtain ⟨hr, hc⟩ := s.ledgerWrite_read 1 [] t false h
  have h0 : mramByte t.mram (ledgerAddr false) = 1#8 := by
    have e : [mramByte t.mram (ledgerAddr false)] = (s.ledgerBytes 1).take 1 :=
      (mramGet_take t.mram (ledgerAddr false) 1 4095).symm.trans (congrArg (List.take 1) hr)
    exact (List.cons.inj (e.trans (show _ = [1#8] from rfl))).1
  have wA : t.written (ledgerAddr false) 4096 = true := by
    obtain ⟨c, hm, he⟩ := mramByte_mem (m := t.mram) (a := ledgerAddr false) (by rw [h0]; decide)
    exact List.any_eq_true.mpr ⟨c, hm, by simp [he]⟩
  have wB : t.written (ledgerAddr true) 4096 = false := by
    rw [State.written, List.any_eq_false]
    intro c hm
    rcases mem_mramPut _ _ (h ▸ hm) with e | e
    · cases e
    · rw [s.ledgerBytes_length] at e; simp [ledgerAddr] at e ⊢; omega
  simp only [State.ledgerPick, State.ledgerOk, wA, wB, hc]; simp

/-- A control of a session that may write it has its own effect and status. -/
theorem State.control_may (s : State) (k : Fin 8) (permits : List Nat) (f : State → State × Nat) (h : s.mayControl k permits = true) :
    s.control k permits f = (f s).1.ctlDone k permits (f s).2 := by
  simp only [State.mayControl, Bool.and_eq_true, Bool.not_eq_true', beq_iff_eq] at h
  simp only [State.control, h.1.1.1, h.1.1.2, h.1.2, h.2, Bool.false_eq_true, Bool.true_eq_false, if_false, and_self, if_true]

/-- A control while BROWN_WARN is active changes nothing but its status. -/
theorem State.control_brown (s : State) (k : Fin 8) (permits : List Nat) (f : State → State × Nat) (ha : s.hasActive = true)
    (h : s.brownWarn = true) :
    s.control k permits f = s.modHost (fun x => { x with ctl := stBusySupply }) := by
  simp [State.control, ha, h]

/-- A control with no stem active changes nothing. -/
theorem State.control_off (s : State) (k : Fin 8) (permits : List Nat) (f : State → State × Nat) (h : s.hasActive = false) :
    s.control k permits f = s := by
  simp [State.control, h]

/-- A control without its permits changes nothing but its status. -/
theorem State.control_none (s : State) (k : Fin 8) (permits : List Nat) (f : State → State × Nat) (ha : s.hasActive = true)
    (hb : s.brownWarn = false) (h : permits.all (fun i => s.holds k i) = false) :
    s.control k permits f = s.modHost (fun x => { x with ctl := stNoPermit }) := by
  simp [State.control, ha, hb, h]

/-- The state after step 4 of R394, which takes the grants of the request, for a sequence number newer than every one before. -/
def State.taken (s : State) (q : Req) : State :=
  (s.sluiceWork 2).stamp.modSess q.sess (fun y => { y with
    rxSeq := q.seq
    win := if 64 ≤ (q.seq + 2 ^ 32 - (s.sess q.sess).rxSeq) % 2 ^ 32 then 1
      else (y.win * 2 ^ ((q.seq + 2 ^ 32 - (s.sess q.sess).rxSeq) % 2 ^ 32) + 1) % 2 ^ 64
    leaseAt := s.clk.tick })

/-- An accepted request is stamped, its sequence number kept, its lease started again, and served by its opcode. -/
theorem State.request_accepted (s : State) (op : Nat) (q : Req) (b : List Byte) (h : s.accepted op q b = true) (h1 : op ≠ 1) (h2 : op ≠ 2) :
    s.request op q b = (s.taken q).perform q.sess op q b := by
  simp only [State.accepted, Bool.and_eq_true] at h
  obtain ⟨⟨ht, hm⟩, hp⟩ := h
  simp only [State.passes, Bool.and_eq_true, Bool.not_eq_true', beq_iff_eq] at hp
  obtain ⟨⟨⟨⟨⟨hs, h0⟩, h01⟩, he⟩, hn⟩, -⟩ := hp
  have hfree : ((s.sluiceWork 2).stamp.sess q.sess).state ≠ .free := by
    show (s.sess q.sess).state ≠ .free
    rw [hs]; decide
  have hearly : (s.sluiceWork 2).stamp.earlyCheck q.sess op q b = stOk := he
  have hseq : (s.sluiceWork 2).stamp.seqCheck q.sess q.seq = (s.taken q, true) := by
    unfold State.seqCheck
    rw [if_pos (show seqNewer q.seq ((s.sluiceWork 2).stamp.sess q.sess).rxSeq = true from hn)]
    rfl
  simp only [State.request, State.carry, ht, hm, if_true, State.serve, hfree, if_false, h0, h01, Bool.false_eq_true, or_self, hearly, ne_eq, not_true_eq_false,
    h1, hseq, h2, Bool.true_eq_false]

/-- The checks before an opcode's own say the same of the session after step 4. -/
theorem State.opCheck_taken (s : State) (op : Nat) (q : Req) (b : List Byte) (h : s.accepted op q b = true) :
    (s.taken q).opCheck q.sess op q b = stOk := by
  simp only [State.accepted, State.passes, Bool.and_eq_true, beq_iff_eq] at h
  have e : (s.taken q).opCheck q.sess op q b = s.opCheck q.sess op q b := by
    have hs : ((s.taken q).sess q.sess).key = (s.sess q.sess).key ∧ ((s.taken q).sess q.sess).role = (s.sess q.sess).role ∧
        ((s.taken q).sess q.sess).port = (s.sess q.sess).port := by
      simp [State.taken, State.sess, State.modSess, State.modHost, State.stamp, State.sluiceWork]
    have hp : ∀ is, (s.taken q).permitsCheck q.sess q.pe is = s.permitsCheck q.sess q.pe is := by
      intro is
      induction is with
      | nil => rfl
      | cons i is ih =>
        cases is with
        | nil => rfl
        | cons j is => simp only [State.permitsCheck, ih]; rfl
    have ho : (s.taken q).opPermits q.sess op b = s.opPermits q.sess op b := by simp only [State.opPermits, hs.1]
    have hr : (s.taken q).opRole q.sess op = s.opRole q.sess op := by simp only [State.opRole, hs.1, hs.2.1, hs.2.2]
    simp only [State.opCheck, hp, ho, hr]; rfl
  rw [e, h.2.2]

end Sys2Proof.Machine
end

