-- ==== Sys2Proof/Laws/Pulse.lean ====
section
/-! SUPPORT. What the pulse operations do to the phases, said once (R56 to R61, R70 to R75). -/

namespace Sys2Proof.Machine

open Sys2Proof

/-- A period's report leaves the phases. -/
theorem State.settleReport_ph (s : State) (p : Fin 48) (n : Nat) (b : Bool) : (s.settleReport p n b).ph = s.ph := by
  simp only [State.settleReport]; split <;> simp

/-- A held direction that is seen leaves the phases. -/
theorem State.holdSeen_ph (s : State) (p : Fin 48) (d : Dir) : (s.holdSeen p d).ph = s.ph := by
  simp only [State.holdSeen]; split <;> [rfl; (cases d <;> simp)]

/-- The slopes of the direction changed. -/
theorem Phase.sl_modSl (x : Phase) (d : Dir) (f : Slopes → Slopes) : (x.modSl d f).sl d = f (x.sl d) := by cases d <;> rfl

/-- Slopes apart, a phase whose slopes change is as it was. -/
theorem Phase.modSl_rest (x : Phase) (d : Dir) (f : Slopes → Slopes) :
    (x.modSl d f).pl = x.pl ∧ (x.modSl d f).limit = x.limit ∧ (x.modSl d f).maxdutyCnt = x.maxdutyCnt ∧ (x.modSl d f).iPh = x.iPh := by
  cases d <;> exact ⟨rfl, rfl, rfl, rfl⟩

/-- A pulse that ends: no pulse in progress, the minimum off-time runs, its width is kept, its flags stay. -/
theorem State.endPulse_ph (s : State) (p : Fin 48) (w : Nat) (b : Bool) (d : Dir) (h : s.ph[p].pl.pulse = some d) :
    (s.endPulse p w b).ph[p].pl.pulse = none ∧ (s.endPulse p w b).ph[p].pl.toff = true ∧ ((s.endPulse p w b).ph[p].sl d).tOn = w ∧
      (s.endPulse p w b).ph[p].limit = s.ph[p].limit ∧ (s.endPulse p w b).ph[p].pl.tripWaits = false ∧
      (s.endPulse p w b).ph[p].maxdutyCnt = s.ph[p].maxdutyCnt := by
  simp only [State.endPulse, h, State.settleReport_ph]
  simp [State.setCtl, State.driveOut, State.modPl, Phase.modSl_rest]
  cases d <;> rfl

/-- The reference of a phase from its command, its correction and its DAC; every other phase as before. -/
theorem State.formRef_ph (s : State) (p : Fin 48) :
    (s.formRef p).ph = upd s.ph p (fun x => { x with
      refCode := if x.pl.zeroRef then 0 else (clampI 0 4095 (s.refCodeOf p)).toNat
      refClamp := x.refClamp || s.pastSpan p (x.iPh.natAbs + x.corr) }) := by
  simp only [State.formRef]; split <;> simp [State.holdSeen_ph, upd]

end Sys2Proof.Machine
end

