-- ==== Sys2Proof/WellFormed.lean ====
section
/-! DEFINITION. Which commands are well formed: operands that come as words, addresses or messages fit the layout the spec gives them.
A measured value has no bound here, and a meaning is total on ill-formed operands too. -/

namespace Sys2Proof

/-- A value of 8 bits. -/
def byteFits (n : Nat) : Bool := decide (n < 2 ^ 8)

/-- A value of 16 bits. -/
def halfFits (n : Nat) : Bool := decide (n < 2 ^ 16)

/-- A value of 32 bits. -/
def wordFits (n : Nat) : Bool := decide (n < 2 ^ 32)

/-- An IP address of version 6 or 4. -/
def ipFits (v6 : Bool) (ip : Nat) : Bool := decide (ip < (if v6 then 2 ^ 128 else 2 ^ 32))

/-- A nonce of 16 bytes (R391). -/
def nonceFits (n : Nat) : Bool := decide (n < 2 ^ 128)

/-- A node address (R257). -/
def nodeAddr (a : Nat) : Bool := decide (a ≤ 0x07FF) && a % 32 != 0

/-- An offset of the direct host space (R374, R377). -/
def regOffset (o : Nat) : Bool := decide (o < 0x200) && o % 4 == 0

/-- A body that a message may carry (R411). -/
def bodyFits (b : List Byte) : Bool := decide (b.length ≤ 1412)

/-- An endpoint's fields have the widths of an Ethernet frame (R370 to R372). -/
def Endpoint.wf (e : Endpoint) : Bool :=
  decide (e.mac < 2 ^ 48) && decide (e.vlan ≤ 4094) && ipFits e.v6 e.ip && halfFits e.udp

/-- The fields of a request's header have their widths, and a tag has 16 bytes where TAGGED is set (R411, R412). -/
def Req.wf (q : Req) : Bool :=
  wordFits q.epoch && wordFits q.seq && wordFits q.pe && byteFits q.flags && (q.flags / 4 % 2 == 0 || q.tag.length == 16)

/-- A frame's fields have the widths of an Ethernet frame (R370, R371). -/
def EthFrame.wf (f : EthFrame) : Bool :=
  f.ep.wf && decide (f.data.length ≤ 1500) && (match f.tag with
    | none => f.ep.vlan == 0
    | some v => decide (1 ≤ v ∧ v ≤ 4094) && v == f.ep.vlan) && (match f.dst with
    | .unicast mac => decide (mac < 2 ^ 48)
    | .broadcast => true
    | .solicited low => decide (low < 2 ^ 24)
    | .ptp transport => decide (transport ≤ 2)
    | .other => true) && (match f.kind with
    | .ether ty => decide (1536 ≤ ty) && halfFits ty
    | .udp dport ip _ _ => halfFits dport && ipFits f.ep.v6 ip
    | .ptp _ => true
    | .arp ip => ipFits false ip
    | .echo ip _ => ipFits f.ep.v6 ip
    | .solicit ip _ => ipFits true ip
    | .other => true)

/-- A command is well formed. -/
def Instr.wf (i : Instr) : Bool :=
  match i with
  | .sluicePeriodBoundary => true
  | .tbLocked _ _ => true
  | .tbRefclkLoss => true
  | .tbSyncLoss => true
  | .tbAnnounceTimeout => true
  | .tbReferenceReturn => true
  | .tbHoldoverExpiry => true
  | .ptpEventMessage _ domain m => decide (m.transport ≤ 2) && byteFits domain
  | .poolAdmitFrame => true
  | .loopPeriodStart _ => true
  | .ssFrequencyDraw _ => true
  | .pulseStart _ => true
  | .phaseBlankEnd _ _ _ => true
  | .regulationTrip _ _ => true
  | .limitComparatorTrip _ _ => true
  | .maxdutyReached _ => true
  | .deadTimeEnd _ => true
  | .toffMinEnd _ => true
  | .phaseAdcSample _ _ _ => true
  | .phaseCmdFrame _ _ => true
  | .phaseRefreshFrame _ _ => true
  | .phaseCalDone _ _ => true
  | .phaseDieArmed _ => true
  | .phaseCmdWdogExpire _ => true
  | .phaseSrcSignalLow _ => true
  | .delayLineCalLost _ => true
  | .phaseDieReport _ => true
  | .phaseTlmPublish _ => true
  | .vsConversion _ _ _ => true
  | .vsOvershootEnter _ _ => true
  | .vsOvershootRelease _ _ => true
  | .vsUndershootEnter _ _ => true
  | .vsUndershootRelease _ _ => true
  | .forcedPulseMax _ => true
  | .phaseFeedLossLatch _ => true
  | .loopEvaluation => true
  | .loopCtrlStart _ _ => true
  | .loopCtrlStop _ _ => true
  | .loopCtrlClear _ _ => true
  | .followErrExpire _ => true
  | .limitReport _ => true
  | .hiccupOffEnd _ => true
  | .startShortExpire _ => true
  | .ocCleanTimeEnd _ => true
  | .shedComplete _ => true
  | .shedAbort _ _ cause => byteFits cause
  | .ebbHoldoffEnd _ => true
  | .slotRotation _ => true
  | .ebbWindowEnd _ => true
  | .faultStatusRelease _ value => decide (value < 16)
  | .bankMeteringStep _ => true
  | .feedFastTrip _ _ => true
  | .feedReverseTrip _ _ _ => true
  | .feedOrOnDelayEnd _ => true
  | .feedInsertTimer _ => true
  | .feedPreTmaxExpire _ => true
  | .feedSoaTimerExpire _ => true
  | .feedPreOverlapEnd _ => true
  | .feedCleanTimeEnd _ => true
  | .feedRetryDelayEnd _ => true
  | .feedLossCompLow _ => true
  | .feedLossCompHigh _ => true
  | .feedFetShort _ _ _ _ => true
  | .feedGateFail _ _ _ => true
  | .feedTestEnd _ => true
  | .feedCtrlEnable _ _ => true
  | .feedCtrlDisable _ _ => true
  | .feedCtrlClear _ _ => true
  | .feedCtrlTest _ _ => true
  | .feedCtrlResetEnergy _ _ => true
  | .bankHeartbeat => true
  | .bankHbTimeout => true
  | .bankHbReturn => true
  | .bankParamFrame _ => true
  | .bankParamCommit => true
  | .bankCommandFrame => true
  | .bankTelemetry => true
  | .energyCopy => true
  | .bankPowerOn => true
  | .bankPowerOff => true
  | .shareUpdate => true
  | .shareTieUpdate => true
  | .peerShareSend => true
  | .holdPreloadCompute => true
  | .feedLossInput => true
  | .feedLossReleaseInput => true
  | .holdReturnTimer => true
  | .holdQuorumMet => true
  | .holdCtrlHandback _ => true
  | .weirEvaluation _ _ => true
  | .throttleResend => true
  | .battCountSample _ => true
  | .battRestAnchor _ => true
  | .battFullAnchor _ => true
  | .battVoltageEmpty _ => true
  | .battCutoff _ => true
  | .battAbsent _ => true
  | .battCtrlClearCutoff _ _ => true
  | .battCtrlCancelLearn _ _ => true
  | .battCtrlReestimate _ _ => true
  | .portTrainComplete _ cls => byteFits cls
  | .portTrainDwellExpire _ => true
  | .portLossOfLock _ => true
  | .portErrorRate _ _ => true
  | .portUpshiftAttempt _ => true
  | .portRetrainDelayEnd _ => true
  | .rillFrameReceive _ data _ _ _ => decide (data.length ≤ 592)
  | .rillRxTimeout _ => true
  | .rillCreditReceive _ _ _ => true
  | .rillFrameTransmit _ => true
  | .portTxStall _ => true
  | .stampFieldFrame _ => true
  | .hubFrameReceive => true
  | .hubFrameTimeout _ => true
  | .pmbDiscovery _ _ => true
  | .pmbPollCycle _ => true
  | .pmbTransactionDone _ _ _ => true
  | .pmbBusTimeout _ cause _ => byteFits cause
  | .pmbBusRecoveryRetry _ _ => true
  | .pmbAlert _ addr status _ => decide (addr < 128) && halfFits status
  | .pmbAlertUnmask _ => true
  | .nodeMsgReceive => true
  | .nodeOpenRequest => true
  | .nodeReply => true
  | .nodeLeaseLapse a => nodeAddr a
  | .nodeKeepaliveSend a => nodeAddr a
  | .nodeRetxTimeout a => nodeAddr a
  | .nodeCtrlClose a _ => nodeAddr a
  | .holdupStateResend => true
  | .poolActionLoopStop => true
  | .poolActionNodeOff => true
  | .subNoticePost => true
  | .poolScrub _ => true
  | .siltEvent => true
  | .siltRecordCommit => true
  | .siltTallyWrite => true
  | .ledgerWrite => true
  | .siltCursorWrite _ v => wordFits v
  | .siltWinLatch _ => true
  | .siltWinAutoAdvance _ => true
  | .siltCtrlClear _ => true
  | .spateFrame => true
  | .spateTrigger => true
  | .spateFreeze => true
  | .spateBlockCopy => true
  | .spateCtrlTrigger _ => true
  | .spateCtrlLock _ _ => true
  | .spateCtrlUnlock _ _ => true
  | .hostEthFrame _ f => f.wf
  | .hostEthRegAccess _ ep data => ep.wf && decide (data.length ≤ 1500)
  | .hostEthLink _ _ => true
  | .hostRegWrite _ hd _ => decide (hd.length ≤ 5)
  | .hrTimeLoRead _ => true
  | .mbTxWrite _ _ w => wordFits w
  | .mbRxRead _ _ => true
  | .hostSpiAbandon _ cut _ => regOffset cut.off
  | .mbClaim _ _ => true
  | .mbRelease _ _ => true
  | .mbDoorbell _ _ => true
  | .mbTxDiscard _ _ => true
  | .mbRxSkip _ _ => true
  | .hostRequestTake entropy => nonceFits entropy
  | .sessionClaimTimeout _ => true
  | .sessionProveTimeout _ => true
  | .sessionLeaseLapse _ => true
  | .permitLapse n => decide (n < 72 ∧ n ≠ 7)
  | .keyLockoutEnd _ => true
  | .commitPipelineHead => true
  | .kenebImageWritten => true
  | .commitApply => true
  | .sessionOpen _ ep q body entropy => ep.wf && q.wf && bodyFits body && nonceFits entropy
  | .sessionProve q body => q.wf && bodyFits body
  | .sessionClose q body => q.wf && bodyFits body
  | .hostKeepalive q body => q.wf && bodyFits body
  | .noticeSet q body => q.wf && bodyFits body
  | .permitAcquire q body => q.wf && bodyFits body
  | .permitRenew q body => q.wf && bodyFits body
  | .permitRelease q body => q.wf && bodyFits body
  | .permitTake q body => q.wf && bodyFits body
  | .paramRead q body => q.wf && bodyFits body
  | .paramWrite q body => q.wf && bodyFits body
  | .stage q body => q.wf && bodyFits body
  | .discard q body => q.wf && bodyFits body
  | .commit q body => q.wf && bodyFits body
  | .pointRead q body => q.wf && bodyFits body
  | .subscribe q body => q.wf && bodyFits body
  | .unsubscribe q body => q.wf && bodyFits body
  | .siltRead q body => q.wf && bodyFits body
  | .spateRead q body => q.wf && bodyFits body
  | .battExport q body => q.wf && bodyFits body
  | .battRestore q body => q.wf && bodyFits body
  | .nodeRelay q body => q.wf && bodyFits body
  | .pmbusXfer q body => q.wf && bodyFits body
  | .timeSet q body => q.wf && bodyFits body
  | .keyLoad q body => q.wf && bodyFits body
  | .stateReq q body => q.wf && bodyFits body
  | .fwBegin q body => q.wf && bodyFits body
  | .fwBlock q body => q.wf && bodyFits body
  | .fwEnd q body => q.wf && bodyFits body
  | .fwActivate q body => q.wf && bodyFits body
  | .kenebBegin q body => q.wf && bodyFits body
  | .kenebBlock q body => q.wf && bodyFits body
  | .kenebEnd q body => q.wf && bodyFits body
  | .kenebRead q body => q.wf && bodyFits body
  | .stemHeartbeat _ count => wordFits count
  | .stemSilence _ => true
  | .stemOutputCopy _ _ oseq _ => wordFits oseq
  | .stemOutputLate => true
  | .stemFaultReport _ kind _ => decide (1 ≤ kind ∧ kind ≤ 9)
  | .stemSwitchoverInput => true
  | .stemWatchdogExpire _ => true
  | .bridgeFlitCrcFail _ _ => true
  | .stemBootComplete _ => true
  | .stemRestartComplete _ => true
  | .stemResyncPass _ => true
  | .stemDigestRound _ => true
  | .stemSyncAgreement => true
  | .stemResyncTimeout => true
  | .stemCtrlSwitchover _ => true
  | .stemCtrlResync _ => true
  | .stemCtrlRestartStandby _ => true
  | .thermScan _ _ _ => true
  | .thermAutoStart _ => true
  | .thermCtrlClearLatch _ _ => true
  | .thermSensorRelearn _ _ => true
  | .timerAdvance _ => true
  | .timerWriteApply _ => true
  | .timerCtrlStart _ _ => true
  | .timerCtrlStop _ _ => true
  | .timerCtrlClear _ _ => true
  | .timerCapture _ _ _ => true
  | .brownWarnAssert _ => true
  | .brownResumeStart => true
  | .brownWarnRelease => true
  | .brownOut _ => true
  | .coldPor => true
  | .mainPor => true
  | .dormantWake cause _ => decide (1 ≤ cause ∧ cause ≤ 6)
  | .wakeTimeout => true
  | .nrst _ => true
  | .stemSupplyLow _ => true
  | .vcorePLow => true
  | .vcorePRecover => true
  | .supplyMinSample _ => true
  | .devResetRelease => true
  | .kenebImageApply _ => true
  | .loopAutostart _ => true
  | .retentionWrite => true
  | .fwTrialConfirm => true
  | .peerHelloSend _ => true
  | .peerFrameReceive _ data => decide (data.length ≤ 76)
  | .peerLinkUp _ => true
  | .peerLinkDown _ => true
  | .phaseTonMinEnd _ => true
  | .bankThermalScan _ => true
  | .vbatLow _ => true
  | .timeSlewComplete => true
  | .latchedWakeMainEnHigh => true

end Sys2Proof
end

