-- ==== Sys2Proof/Tests/Slice0.lean ====
section
/-! SUPPORT. Tests: the check of well-formedness refuses an ill-formed command of each kind; published check values; a few single
steps; and for every clause of a statement that has hypotheses a state and operands that meet all of them together. -/

set_option linter.unusedVariables false

namespace Sys2Proof.Tests

set_option Elab.async false

open Sys2Proof Sys2Proof.Machine

/-- Die 0 runs loop 0 with phase 0 at its slot and a command of 1 A. -/
def stSlot : State :=
  (((State.reset.setPar P.PHASE_LOOP 0 0).modPh 0 (fun x => { x with inService := true, slot := some 0, iPh := 1000000, shed := .active })).modDie 0
    (fun x => { x with state := .run, goodFrame := true, src := true, off := false })).modLp 0 0 (fun x => { x with run := true })

/-- The same with a forward pulse in progress. -/
def stPulse : State := stSlot.modPl 0 (fun x => { x with pulse := some .fwd, regBlank := true, limBlank := true, tonMin := true, pwmh := true })

/-- A state at a tick. -/
def onTick (n : Nat) (s : State) : State := { s with clk := { s.clk with tick := n } }

/-- Loop 0 enabled on voltage-sense input 0 with both windows enabled. -/
def stWin : State := (((stPulse.setPar P.LOOP_ENABLE 0 1).setPar P.LOOP_VS_SEL 0 0).setPar P.PHASE_VS_WIN_EN 0 3).setPar P.PHASE_VS_UVS 0 100000

/-- Loop 0 RUNNING. -/
def stLive : State := stWin.modCt 0 (fun c => { c with state := .running })

/-- Session 0 open with every permit from CONFIG to FIRMWARE. -/
def stSess (s : State) : State :=
  { s with host := { s.host with
      sess := upd s.host.sess 0 (fun x => { x with state := .isOpen })
      permit := (List.range 40).map (fun i => (i, { Permit.none with holder := some 0 })) } }

/-- Loop 0 enabled and stopped, its die ready, session 0 with its permits. -/
def stCtl : State :=
  { stSess stWin with stems := { State.reset.stems with stem := upd State.reset.stems.stem 0 (fun x => { x with st := .active }) } }

/-- A sample of 3 A at 11.9 V. -/
def qEval : Sample := ⟨3, 0, 2, 11900, 3000, 3000, false, 20000, false, false⟩

/-- Loop 0 RUNNING at 12 V with one sample. -/
def stEval : State :=
  ((((((stLive.setPar P.LOOP_SETPOINT 0 12000).setPar P.LOOP_ICMD_MAX 0 90000).setPar P.SCHED_B0 0 40000000).setPar P.SCHED_B1 0 (-39000000)).setPar
    P.SCHED_P0 0 16777216).modLoop 0 (fun x => { x with samples := [qEval], ct := { x.ct with region := 0, ref8 := 12000 * 8000000, x := 5000 * 2 ^ 24, e1 := 20, v1 := 7 } }))

/-- Loop 0 RUNNING, its supervisor in WATCH with one report of a limited period, die 0 reporting. -/
def stOc : State :=
  ((stLive.setPar P.LOOP_OC_COUNT 0 32).setPar P.LOOP_OC_RETRIES 0 3).modOc 0 (fun o => { o with st := .watch, reps := [⟨0, 9, true, false⟩], asm := [] })

/-- Loop 0 in HICCUP_OFF. -/
def stHiccup : State := (stOc.modCt 0 (fun c => { c with state := .hiccupOff })).modOc 0 (fun o => { o with st := .off, retries := 1 })

/-- The Bank die on, configured, with a valid source and stem A active; feed 0 in a state with both windows good. -/
def stFeed (st : FeedState) : State :=
  { State.reset with
    stems := { State.reset.stems with stem := upd State.reset.stems.stem 0 (fun x => { x with st := .active }) }
    dev := { State.reset.dev with isoOn := true }
    therm := { State.reset.therm with die := upd State.reset.therm.die 7 (fun x => { x with st := .run }) }
    bank := { State.reset.bank with
      on := true, configured := true, hbOk := true, srcValid := true
      feed := upd State.reset.bank.feed 0 (fun x => { x with
        state := st, uv := ⟨some false, 0, 9⟩, ov := ⟨some false, 0, 9⟩, gm := st == .connected, lossLow := false }) } }

/-- Battery string 0 enabled, with stem A active. -/
def stBatt : State := (stFeed .off).setPar P.BATT_ENABLE 0 1

/-- The temperature network converts. -/
def stTherm : State := { stFeed .off with dev := { (stFeed .off).dev with snsOn := true, held := false } }

/-- Member 63 of group 0 in use, in a state. -/
def stMbr (x : MemberState) : State :=
  let s := (((stFeed .off).setPar P.SHARE_MBR_GROUP 63 0).setPar P.SHARE_MBR_NODE 63 5).setPar P.SHARE_MBR_IPT 63 77
  { s with share := { s.share with mbr := upd s.share.mbr 63 (fun m => { m with state := x }) } }

/-- The feed-loss line at a level, its change on the way to an active stem A. -/
def stLine (b : Bool) : State := (stFeed .off).modBank (fun x => { x with line := b, lineQ := [b] })

/-- Stem A active and an open session of a node, epoch 9. -/
def stNode (a : Nat) : State :=
  { stFeed .off with nodes := { State.reset.nodes with sess := [(a, { NodeSess.none with isOpen := true, epoch := 9 })] } }

/-- A frame of a type from a node. -/
def frm (typ node : Nat) (payload : List Byte) : Frame := ⟨typ, node, false, false, 0, 0, payload⟩

/-- Port 63 in a state. -/
def stPort (x : PortState) : State := (stFeed .off).modPort 63 (fun p => { p with state := x })

/-- Internal source 2 holds a frame for slot 131,000. -/
def stPool : State :=
  let s := ((stFeed .off).setPar P.POOL_SRC_BASE 2 130991).setPar P.POOL_SRC_SLOTS 2 160
  { s with pool := { s.pool with ptr := 66, src := upd s.pool.src 2 (fun _ => [[(9, 4000000000, 77)], [(1, 2, 3)]]) } }

/-- Both stems in step. -/
def stBoth : State :=
  { State.reset with stems := { State.reset.stems with
      stem := upd (upd State.reset.stems.stem 0 (fun x => { x with st := .active })) 1 (fun x => { x with st := .standby }) } }

/-- Spate enabled with a first buffer. -/
def stSpate (b : SpBuf) : State := ((stFeed .off).setPar P.SPATE_ENABLE 0 1).modBuf 0 (fun _ => b)

/-- Requests are taken; session 0 is open at HS0 in the MAINTENANCE role, epoch 9, with its permits. -/
def stHost : State :=
  let s := stSess (stFeed .off)
  ({ s with dev := { s.dev with held := false, hostOn := true, mbReady := true, state := .run } }).modSess 0
    (fun x => { x with port := 2, epoch := 9, role := 1 })

/-- The host ports work, a stem is active and the silt store is on; session 0 is open with its permits. -/
def stPorts : State :=
  let s := stSess (stFeed .off)
  { s with dev := { s.dev with held := false, hostOn := true, nvOn := true, mbReady := true, state := .run } }

/-- The header of a request of session 0. -/
def rq : Req := ⟨0, 9, 5, 0, 0, [], []⟩

/-- A session in a state at HS0 that holds nothing. -/
def stSession (x : SessState) : State :=
  { stHost with host := { stHost.host with permit := [] } }.modSess 0 (fun y => { y with state := x })

/-- Key slot 1 is provisioned for both roles and every port. -/
def stKey (x : SessState) : State :=
  (stSession x).modHost (fun h => { h with key := upd h.key 1 (fun y => { y with prov := true, roles := 3, ports := 15, macReq := 0 }) })

/-- The time-base in a state under a source, with 16 good Sync messages. -/
def stTb (src : Int) (x : TbState) : State :=
  (State.reset.setPar P.DEV_TB_SOURCE 0 src).modTb (fun t => { t with state := x, syncGood := 16 })

/-- The data set of a master of priority `p`. -/
def ptpData (p : Nat) : PtpSet := ⟨p, 248, 0, 0, 128, 1, 0⟩

/-- PTP at port 1 with a selected master, a slew of 50 ns forward under way. -/
def stPtp : State := ((stTb 2 .acquire).setPar P.DEV_PTP_PORT 0 1).modTb (fun t => { t with master := some (7, ptpData 5), slew := .forward, slewOfs := 50 })

/-- A PTP message of the selected master, 20 ns old. -/
def ptpMsg (k : PtpKind) : PtpMsg := ⟨State.reset.parN P.DEV_PTP_TRANSPORT 0, 7, k, 20⟩
def ptpDom : Nat := State.reset.parN P.DEV_PTP_DOMAIN 0

/-- An assertion of the feed-loss line on its way to die `d`. -/
def onLatch (d : Fin 4) (s : State) : State := { s with bank := { s.bank with latch := s.bank.latch.set d.val true d.isLt } }

/-- A part in reset with firmware in slot 0 and one ledger in its store. -/
def stLedger : State := { State.reset with
  firm := { State.reset.firm with slot := #v[some ⟨1, 0, 1024⟩, none] }, mram := mramPut [] (ledgerAddr false) (stHost.ledgerBytes 1) }

/-- A request header whose FLAGS do not fit their byte. -/
def rqBad : Req := { rq with flags := 256 }

/-- Every request with an ill-formed header, or a body longer than a message carries, is refused by the check. -/
theorem test_wf_requests : [Instr.sessionProve, .sessionClose, .hostKeepalive, .noticeSet, .permitAcquire, .permitRenew, .permitRelease,
    .permitTake, .paramRead, .paramWrite, .stage, .discard, .commit, .pointRead, .subscribe, .unsubscribe, .siltRead, .spateRead, .battExport,
    .battRestore, .nodeRelay, .pmbusXfer, .timeSet, .keyLoad, .stateReq, .fwBegin, .fwBlock, .fwEnd, .fwActivate, .kenebBegin, .kenebBlock,
    .kenebEnd, .kenebRead].all (fun c => !(c rqBad []).wf && !(c rq (List.replicate 1413 0)).wf && (c rq []).wf) = true := by decide +kernel

/-- A header that does not fit: epoch, SEQ, PERMIT_EPOCH, and a tag that TAGGED promises and that is not 16 bytes long. -/
theorem test_wf_header : [{ rq with epoch := 2 ^ 32 }, { rq with seq := 2 ^ 32 }, { rq with pe := 2 ^ 32 }, { rq with flags := 4 }].all
    (fun q => !(Instr.hostKeepalive q []).wf) = true := by decide

/-- An open request with an ill-formed endpoint, header, body or nonce. -/
theorem test_wf_open : [Instr.sessionOpen 0 ⟨2 ^ 48, 0, false, 0, 0⟩ rq [] 0, .sessionOpen 0 ⟨0, 4095, false, 0, 0⟩ rq [] 0,
    .sessionOpen 0 ⟨0, 0, false, 2 ^ 32, 0⟩ rq [] 0, .sessionOpen 0 ⟨0, 0, true, 2 ^ 128, 0⟩ rq [] 0, .sessionOpen 0 ⟨0, 0, false, 0, 65536⟩ rq [] 0,
    .sessionOpen 0 Endpoint.none rqBad [] 0, .sessionOpen 0 Endpoint.none rq (List.replicate 1413 0) 0,
    .sessionOpen 0 Endpoint.none rq [] (2 ^ 128)].all (fun c => !c.wf) = true := by decide +kernel

/-- A frame with an ill-formed endpoint, length, tag, type or port. -/
theorem test_wf_frame : [Instr.hostEthFrame 0 ⟨.unicast 1, none, ⟨2 ^ 48, 0, false, 0, 0⟩, .arp 1, []⟩,
    .hostEthFrame 0 ⟨.unicast 1, none, Endpoint.none, .arp 1, List.replicate 1501 0⟩, .hostEthFrame 0 ⟨.unicast 1, some 0, Endpoint.none, .arp 1, []⟩,
    .hostEthFrame 0 ⟨.unicast 1, some 5, Endpoint.none, .arp 1, []⟩, .hostEthFrame 0 ⟨.unicast 1, none, Endpoint.none, .ether 1535, []⟩,
    .hostEthFrame 0 ⟨.unicast 1, none, Endpoint.none, .ether 65536, []⟩,
    .hostEthFrame 0 ⟨.unicast 1, none, Endpoint.none, .udp 65536 1 true true, []⟩].all (fun c => !c.wf) = true := by decide +kernel

/-- A word, register offset or access that does not fit. -/
theorem test_wf_registers : [Instr.hostRegWrite 0 (List.replicate 6 2) [], .mbTxWrite 0 0 (2 ^ 32),
    .hostSpiAbandon 0 ⟨0x200, 0⟩ none, .siltCursorWrite 0 (2 ^ 32), .hostRequestTake (2 ^ 128), .hostEthRegAccess 0 ⟨2 ^ 48, 0, false, 0, 0⟩ [],
    .hostEthRegAccess 0 Endpoint.none (List.replicate 1501 0)].all (fun c => !c.wf) = true := by decide +kernel

/-- A node, cause, class, fault kind, mask, number or frame that does not exist. -/
theorem test_wf_others : [Instr.nodeLeaseLapse 32, .nodeKeepaliveSend 0x800, .nodeRetxTimeout 0, .nodeCtrlClose 64 0, .permitLapse 7, .permitLapse 72,
    .ptpEventMessage 0 256 ⟨0, 0, .announce (ptpData 0), 0⟩, .shedAbort 0 0 256, .faultStatusRelease 0 16, .portTrainComplete 0 256, .pmbBusTimeout 0 256 true,
    .pmbAlert 0 128 0 true, .pmbAlert 0 0 65536 true, .rillFrameReceive 0 (List.replicate 593 0) .eof 0 0, .stemHeartbeat 0 (2 ^ 32),
    .stemOutputCopy 0 0 (2 ^ 32) [], .stemFaultReport 0 0 0, .stemFaultReport 0 10 0,
    .dormantWake 0 true, .dormantWake 7 true,
    .peerFrameReceive 0 (List.replicate 77 0)].all (fun c => !c.wf) = true := by decide +kernel

/-- CRC-32C of the digits 1 to 9: the published check value of the polynomial and settings of R265. -/
theorem test_crc32c : crc32c [0x31, 0x32, 0x33, 0x34, 0x35, 0x36, 0x37, 0x38, 0x39] = 0xE3069283 := by decide +kernel

/-- CRC-16 of the digits 1 to 9: the published check value of the polynomial and settings of R344. -/
theorem test_crc16 : crc16 [0x31, 0x32, 0x33, 0x34, 0x35, 0x36, 0x37, 0x38, 0x39] = 0x6F91 := by decide +kernel

/-- SHA-256 of the letters abc: the example of its published standard. -/
theorem test_sha256 : beNat (sha256 [0x61, 0x62, 0x63]) = 0xba7816bf8f01cfea414140de5dae2223b00361a396177a9cb410ff61f20015ad := by
  decide +kernel

/-- HMAC-SHA-256: the second example of the published test cases, key Jefe. -/
theorem test_hmac : beNat (hmac [0x4a, 0x65, 0x66, 0x65] [0x77, 0x68, 0x61, 0x74, 0x20, 0x64, 0x6f, 0x20, 0x79, 0x61, 0x20, 0x77, 0x61, 0x6e, 0x74,
    0x20, 0x66, 0x6f, 0x72, 0x20, 0x6e, 0x6f, 0x74, 0x68, 0x69, 0x6e, 0x67, 0x3f]) =
    0x5bdcc146bf60754e6a042426089575c75a003f089d2739839dec58b964ec3843 := by decide +kernel

/-- What a command leaves, looked at by a test. -/
def after (c : Instr) (s : State) (f : State → Bool) : Bool := match exec c s with
  | .next t => f t
  | .fault _ => false
  | .refused _ => false

/-- VANA below its warning level: the bit of SUPPLIES that NOTICE_SUPPLY gives it, and the first supply (R433, R491). -/
theorem test_brown_warn_vana : after (.brownWarnAssert 7) stHost (fun t => t.power.set == 8 && t.power.first == 7) = true := by decide +kernel

/-- The active stem falls silent: the other one is active, and the cause on its way is 2 (R449). -/
theorem test_switchover : after (.stemSilence 0) (onTick 375 stBoth) (fun t => t.stemSt 1 == .active && t.stemSt 0 == .failed) = true := by decide +kernel

/-- nRST for 10 ms: a LATCHED die is in SHUTDOWN; for 1 µs it stays LATCHED (R473). -/
theorem test_nrst_latch : (after (.nrst true) (stHost.modTd 3 (fun x => { x with st := .latched })) (fun t => t.therm.die[(3 : Fin 8)].st == .shutdown) &&
    after (.nrst false) (stHost.modTd 3 (fun x => { x with st := .latched })) (fun t => t.therm.die[(3 : Fin 8)].st == .latched)) = true := by
  decide +kernel

/-- HR_SCRATCH written at HS1 is not that of HS0 (R377). -/
theorem test_scratch : after (.hostRegWrite 1 [2, 0x94, 0] [7, 0, 0, 0]) stHost
    (fun t => t.host.port[(3 : Fin 4)].scratch == 7 && t.host.port[(2 : Fin 4)].scratch == 0) = true := by decide +kernel

/-- A control while BROWN_WARN is active answers BUSY_SUPPLY, one without its permit NO_PERMIT (R398, R405). -/
theorem test_control_refused : (after (.loopCtrlClear 0 0) { stHost with power := { stHost.power with brown := .warn } } (fun t => t.host.ctl == stBusySupply) &&
    after (.loopCtrlClear 0 1) stHost (fun t => t.host.ctl == stNoPermit)) = true := by decide +kernel

/-- No bits of the table spell a command. -/
theorem test_no_table_word : decodeTableWord 16 0 = none ∧ State.reset.withFetchWord 16 0 = State.reset := ⟨rfl, rfl⟩


/-- R466: 59,633 µV of a diode with n 1.008 and 10,000 Ω of a thermistor of 10,000 Ω at 25 °C are 25.0 °C; 28,705 Ω with beta 3,435 is
10,000 exp (3435 / 273.15 - 3435 / 298.15), 0.0 °C. -/
theorem test_xt_temperatures : diodeTemp 59633 10080 = 250 ∧ ntcTemp 10000 10000 3435 = some 250 ∧ ntcTemp 28705 10000 3435 = some 0 := by
  decide +kernel

/-- The first 64 primes. -/
def primes64 : List Nat := (List.range 312).filter (fun n => decide (2 ≤ n) && (List.range 18).all (fun d => d < 2 || n ≤ d || n % d != 0))

/-- The round constants are the first 32 bits of the fractional parts of the cube roots of the first 64 primes, as the standard has them. -/
theorem sha_rounds_are_cube_roots : primes64.length = 64 ∧ (primes64.zip shaRounds).all (fun q => decide (q.2 < 2 ^ 32) && (List.range 7).any (fun i =>
    decide ((i * 2 ^ 32 + q.2) ^ 3 ≤ q.1 * 2 ^ 96 ∧ q.1 * 2 ^ 96 < (i * 2 ^ 32 + q.2 + 1) ^ 3))) = true := by decide +kernel

/-- The initial hash value is the same of the square roots of the first 8 primes. -/
theorem sha_init_is_square_roots : (primes64.zip shaInit).all (fun q => decide (q.2 < 2 ^ 32) && (List.range 5).any (fun i =>
    decide ((i * 2 ^ 32 + q.2) ^ 2 ≤ q.1 * 2 ^ 64 ∧ q.1 * 2 ^ 64 < (i * 2 ^ 32 + q.2 + 1) ^ 2))) = true := by decide +kernel
/-- A state, a command, a next state and a part that meet the hypotheses of the frame. -/
theorem test_CommandsKeepTheRest_1 : ∃ (s : State) (c : Instr) (t : State) (p : Part), exec c s = .next t ∧ p ∉ c.parts :=
  ⟨stHost, .bankHbReturn, stHost, .ph, rfl, by decide⟩

/-- A state that meets the invariant of a safe part, with the command whose step it takes. -/
theorem test_SafePartIsKept_1 : ∃ (s t : State), (Safety.storeWf s ∧ Safety.noShootThrough s ∧ Safety.safeDieLow s) ∧ step s = .next t :=
  ⟨{ stHost with pending := [.brownWarnRelease] }, stHost, by decide, rfl⟩

/-- A state with one feed in PRECHARGE and a command waiting. -/
theorem test_PrechargeOnce_1 : ∃ (s t : State),
    (∀ a b : Fin 2, s.bank.feed[a].state = .precharge → s.bank.feed[b].state = .precharge → a = b) ∧ step s = .next t :=
  ⟨{ stFeed .precharge with pending := [.brownWarnRelease] }, stFeed .precharge, by decide, rfl⟩

/-- A part in reset whose ledger is in force. -/
theorem test_StartsAndChain_ledger : ∃ (s : State) (b : Bool) (k : Fin 2), s.dev.held = true ∧ s.dev.state ≠ .dormant ∧ s.ledgerPick = some b ∧
    leAt (s.load (ledgerAddr b) 4096) 64 1 % 2 = k.val ∧ 2 ≤ leAt (s.load (ledgerAddr b) 4096) 65 1 ∧ s.slotCause k = 0 ∧
    (∀ d : Fin 8, leAt (s.load (ledgerAddr b) 4096) (3978 + 12 * d.val) 1 % 4 = 0) ∧ ∀ j : Fin 2, s.stems.stem[j].low = false := by
  have hp : stLedger.ledgerPick = some false := State.ledgerPick_one stHost stLedger (by simp only [stLedger])
  have hr := (State.ledgerWrite_read stHost 1 [] stLedger false (by simp only [stLedger])).1
  refine ⟨stLedger, false, 0, rfl, by decide, hp, ?_, ?_, by decide, ?_, by decide⟩
  · rw [hr]; decide +kernel
  · rw [hr]; decide +kernel
  · rw [hr]; decide +kernel

theorem test_TimeBaseFollowsItsReference_1 : ∃ (s : State) (err : Int), s.usesRefclk = true ∧ s.tb.state = .acquire ∧ err.natAbs < 10 :=
  ⟨stTb 3 .acquire, -9, by decide⟩

theorem test_TimeBaseFollowsItsReference_2 : ∃ (s : State) (err : Int), s.usesRefclk = true ∧ s.tb.state = .locked :=
  ⟨stTb 1 .locked, 7, by decide⟩

theorem test_TimeBaseFollowsItsReference_3 : ∃ (s : State) (err : Int), s.usesRefclk = true ∧ s.tb.state = .acquire ∧ 20000 < err.natAbs :=
  ⟨stTb 1 .acquire, -20001, by decide⟩

theorem test_TimeBaseFollowsItsReference_4 : ∃ (s : State) (err : Int), s.tbSource = 2 ∧ s.tb.state = .acquire ∧ 16 ≤ s.tb.syncGood :=
  ⟨stTb 2 .acquire, 5, by decide⟩

theorem test_TimeBaseFollowsItsReference_5 : ∃ s : State, s.usesRefclk = true ∧ s.tb.state = .locked :=
  ⟨stTb 1 .locked, by decide⟩

theorem test_TimeBaseFollowsItsReference_6 : ∃ s : State, s.usesPtp = true ∧ s.tb.state = .locked :=
  ⟨stTb 2 .locked, by decide⟩

theorem test_TimeBaseFollowsItsReference_7 : ∃ s : State, s.usesPtp = true ∧ s.tb.state = .locked :=
  ⟨stTb 2 .locked, by decide⟩

theorem test_TimeBaseFollowsItsReference_8 : ∃ s : State, s.tb.state = .holdover :=
  ⟨stTb 1 .holdover, by decide⟩

theorem test_TimeBaseFollowsItsReference_9 : ∃ s : State, s.tb.state = .holdover :=
  ⟨stTb 1 .holdover, by decide⟩

theorem test_ShelfTimeIsCorrected_1 : ∃ (s : State) (port : Fin 2) (dom : Nat) (m : PtpMsg) (t1 off : Int), s.ptpHears port dom m = true ∧ s.tb.master.map (·.1) = some m.sender ∧ m.kind = .sync false t1 ∧ off = s.ptpOffset port t1 ((s.clk.shelf : Int) - m.age) ∧ off.natAbs < 100 :=
  ⟨stPtp, 1, ptpDom, ptpMsg (.sync false 30), 30, 50, by decide⟩

theorem test_ShelfTimeIsCorrected_2 : ∃ (s : State) (port : Fin 2) (dom : Nat) (m : PtpMsg) (t1 off : Int), s.ptpHears port dom m = true ∧ s.tb.master.map (·.1) = some m.sender ∧ m.kind = .sync false t1 ∧ off = s.ptpOffset port t1 ((s.clk.shelf : Int) - m.age) ∧ 100 ≤ off.natAbs ∧ s.par P.DEV_TIME_STEP_LIMIT 0 * 1000 < off :=
  ⟨stPtp, 1, ptpDom, ptpMsg (.sync false 4000000), 4000000, 4000020, by decide⟩

theorem test_ShelfTimeIsCorrected_3 : ∃ (s : State) (port : Fin 2) (dom : Nat) (m : PtpMsg) (t1 off : Int), s.ptpHears port dom m = true ∧ s.tb.master.map (·.1) = some m.sender ∧ m.kind = .sync false t1 ∧ off = s.ptpOffset port t1 ((s.clk.shelf : Int) - m.age) ∧ 100 ≤ off.natAbs ∧ off ≤ s.par P.DEV_TIME_STEP_LIMIT 0 * 1000 :=
  ⟨stPtp, 1, ptpDom, ptpMsg (.sync false (-4000)), -4000, -3980, by decide⟩

theorem test_ShelfTimeIsCorrected_4 : ∃ (s : State) (port : Fin 2) (dom : Nat) (m : PtpMsg) (t1 off : Int), s.ptpHears port dom m = true ∧ s.tb.master.map (·.1) = some m.sender ∧ m.kind = .sync false t1 ∧ off = s.ptpOffset port t1 ((s.clk.shelf : Int) - m.age) ∧ 100 ≤ off.natAbs ∧ off ≤ s.par P.DEV_TIME_STEP_LIMIT 0 * 1000 :=
  ⟨stPtp, 1, ptpDom, ptpMsg (.sync false 999980), 999980, 1000000, by decide⟩

theorem test_ShelfTimeIsCorrected_5 : ∃ (s : State) (port : Fin 2) (dom : Nat) (m : PtpMsg) (t1 : Int), s.ptpHears port dom m = true ∧ s.tb.master.map (·.1) = some m.sender ∧ m.kind = .sync true t1 :=
  ⟨stPtp, 1, ptpDom, ptpMsg (.sync true 4000), 4000, by decide⟩

theorem test_ShelfTimeIsCorrected_6 : ∃ (s : State) (port : Fin 2) (dom : Nat) (m : PtpMsg) (d : PtpSet), s.ptpHears port dom m = true ∧ m.kind = .announce d :=
  ⟨stPtp, 1, ptpDom, ptpMsg (.announce (ptpData 3)), ptpData 3, by decide⟩

theorem test_ShelfTimeIsCorrected_7 : ∃ s : State, s.tb.slew ≠ .none ∧ s.slewLeft < 500000 ∧ -500000 < s.slewLeft :=
  ⟨stPtp, by decide⟩

theorem test_SluicePeriodCloses_1 : ∃ s : State, s.hasActive = true :=
  ⟨stFeed .off, by decide⟩

theorem test_SlotStartBeginsAPulse_1 : ∃ (s : State) (p : Fin 48) (l : Fin 16), s.loopOf p = some l ∧ s.switches p l = true ∧ s.ph[p].pl.pulse = none ∧ s.ph[p].pl.toff = false ∧ s.ph[p].pl.dead ≠ .controlled ∧ s.ph[p].iPh ≠ 0 ∧ (¬ ((s.slotOpen p l).cmdDir p s.ph[p].iPh = .fwd ∧ (s.slotOpen p l).inOvs p = true)) :=
  ⟨stSlot, 0, 0, by decide⟩

theorem test_SlotStartBeginsAPulse_2 : ∃ (s : State) (p : Fin 48) (l : Fin 16), s.loopOf p = some l ∧ s.switches p l = true ∧ (s.ph[p].pl.pulse.isSome || s.ph[p].pl.toff) = true :=
  ⟨stSlot.modPl 0 (fun x => { x with toff := true }), 0, 0, by decide⟩

theorem test_SlotStartBeginsAPulse_3 : ∃ (s : State) (p : Fin 48) (l : Fin 16), s.loopOf p = some l ∧ s.switches p l = true ∧ (s.ph[p].pl.pulse.isSome || s.ph[p].pl.toff) = true :=
  ⟨stPulse, 0, 0, by decide⟩

theorem test_SlotStartBeginsAPulse_4 : ∃ (s : State) (p : Fin 48) (l : Fin 16), s.loopOf p = some l ∧ s.switches p l = true ∧ s.ph[p].pl.pulse = none ∧ s.ph[p].pl.toff = false ∧ s.ph[p].pl.dead = .none ∧ s.ph[p].iPh = 0 ∧ s.par P.PHASE_MODE p ≠ 2 ∧ (s.slotOpen p l).parNow P.PHASE_OUT_MODE p = 0 :=
  ⟨stSlot.modPh 0 (fun x => { x with iPh := 0 }), 0, 0, by decide⟩

theorem test_SlotStartBeginsAPulse_5 : ∃ (s : State) (p : Fin 48) (l : Fin 16), s.loopOf p = some l ∧ s.switches p l = true ∧ s.ph[p].pl.pulse = none ∧ s.ph[p].pl.toff = false ∧ s.ph[p].pl.dead ≠ .controlled ∧ s.ph[p].iPh = 0 ∧ s.par P.PHASE_MODE p = 2 :=
  ⟨(stSlot.setPar P.PHASE_MODE 0 2).modPh 0 (fun x => { x with iPh := 0 }), 0, 0, by decide⟩

theorem test_SlotStartBeginsAPulse_6 : ∃ (s : State) (p : Fin 48) (l : Fin 16), s.loopOf p = some l ∧ s.switches p l = true ∧ s.ph[p].pl.pulse = none ∧ s.ph[p].pl.toff = false ∧ s.ph[p].pl.dead = .controlled :=
  ⟨stSlot.modPl 0 (fun x => { x with dead := .controlled }), 0, 0, by decide⟩

theorem test_PulseEnds_1 : ∃ (s : State) (p : Fin 48) (w : Nat) (d : Dir), s.ph[p].pl.pulse = some d ∧ s.ph[p].pl.regBlank = false ∧ s.ph[p].pl.forced = false ∧ s.ph[p].pl.tonMin = false :=
  ⟨stPulse.modPl 0 (fun x => { x with regBlank := false, tonMin := false }), 0, 900, .fwd, by decide⟩

theorem test_PulseEnds_2 : ∃ (s : State) (p : Fin 48) (w : Nat), s.ph[p].pl.pulse ≠ none ∧ s.ph[p].pl.regBlank = false ∧ s.ph[p].pl.forced = false ∧ s.ph[p].pl.tonMin = true :=
  ⟨stPulse.modPl 0 (fun x => { x with regBlank := false }), 0, 900, by decide⟩

theorem test_PulseEnds_3 : ∃ (s : State) (p : Fin 48) (w : Nat) (d : Dir), s.ph[p].pl.pulse = some d ∧ s.ph[p].pl.limBlank = false :=
  ⟨stPulse.modPl 0 (fun x => { x with limBlank := false }), 0, 900, .fwd, by decide⟩

theorem test_PulseEnds_4 : ∃ (s : State) (p : Fin 48) (d : Dir) (l : Fin 16), s.ph[p].pl.pulse = some d ∧ s.loopOf p = some l ∧ s.ph[p].pl.forced = false :=
  ⟨stPulse, 0, .fwd, 0, by decide⟩

theorem test_PulseEnds_5 : ∃ (s : State) (p : Fin 48) (d : Dir), s.ph[p].pl.pulse = some d ∧ s.ph[p].pl.tripWaits = true ∧ (¬ (s.ph[p].pl.forced = true ∧ s.inUvs p = true)) :=
  ⟨stPulse.modPl 0 (fun x => { x with tripWaits := true }), 0, .fwd, by decide⟩

theorem test_PulseEnds_6 : ∃ (s : State) (p : Fin 48), s.ph[p].pl.tripWaits = false :=
  ⟨stPulse, 0, by decide⟩

theorem test_PulseEnds_7 : ∃ (s : State) (p : Fin 48) (d : Dir), s.ph[p].pl.pulse = some d ∧ s.ph[p].pl.forced = true :=
  ⟨stPulse.modPl 0 (fun x => { x with forced := true }), 0, .fwd, by decide⟩

theorem test_PulseEnds_8 : ∃ (s : State) (p : Fin 48) (sensed : Int) (d : Dir), s.ph[p].pl.pulse = some d ∧ s.ph[p].pl.limBlank = true ∧ s.pastAtBlank p d .limit sensed = true :=
  ⟨stPulse, 0, 100000, .fwd, by decide⟩

theorem test_PulseEnds_9 : ∃ (s : State) (p : Fin 48) (sensed : Int) (d : Dir), s.ph[p].pl.pulse = some d ∧ s.pastAtBlank p d .limit sensed = false :=
  ⟨stPulse.modPh 0 (fun x => { x with limCodeF := 500 }), 0, 0, .fwd, by decide⟩

theorem test_HeldSwitchesTurnOn_1 : ∃ (s : State) (p : Fin 48), s.ph[p].pl.dead = .sync ∧ s.past s.ph[p].pl.deadAt s.ph[p].pl.deadLen = true ∧ s.dieRuns p = true :=
  ⟨stPulse.modPl 0 (fun x => { x with pulse := none, pwmh := false, dead := .sync }), 0, by decide⟩

theorem test_HeldSwitchesTurnOn_2 : ∃ (s : State) (p : Fin 48), s.ph[p].pl.dead = .controlled ∧ s.past s.ph[p].pl.deadAt s.ph[p].pl.deadLen = true ∧ s.ph[p].inService = true ∧ s.dieRuns p = true ∧ s.inOvs p = false ∧ s.stops p = false :=
  ⟨stPulse.modPl 0 (fun x => { x with pulse := none, pwmh := false, dead := .controlled }), 0, by decide⟩

theorem test_HeldSwitchesTurnOn_3 : ∃ (s : State) (p : Fin 48), s.ph[p].pl.toff = true ∧ s.past s.ph[p].pl.toffAt s.ph[p].pl.toffLen = true ∧ s.ph[p].pl.held = false ∧ s.ph[p].pl.heldForced = false :=
  ⟨stSlot.modPl 0 (fun x => { x with toff := true }), 0, by decide⟩

theorem test_HeldSwitchesTurnOn_4 : ∃ (s : State) (p : Fin 48), s.ph[p].pl.toff = true ∧ s.past s.ph[p].pl.toffAt s.ph[p].pl.toffLen = true ∧ s.ph[p].pl.held = true ∧ s.ph[p].pl.heldForced = false :=
  ⟨stSlot.modPl 0 (fun x => { x with toff := true, held := true }), 0, by decide⟩

theorem test_HeldSwitchesTurnOn_5 : ∃ (s : State) (p : Fin 48), s.ph[p].pl.toff = true ∧ s.past s.ph[p].pl.toffAt s.ph[p].pl.toffLen = true ∧ s.ph[p].pl.heldForced = true ∧ s.inOvs p = false :=
  ⟨stSlot.modPl 0 (fun x => { x with toff := true, heldForced := true }), 0, by decide⟩

theorem test_DieFallsToSafe_1 : ∃ (s : State) (d : Fin 4), s.wdogDue d = true ∧ s.die[d].state ≠ .safe :=
  ⟨{ stPulse with clk := { stPulse.clk with tick := 250 * stPulse.parN P.PHASE_CMD_WDOG 0 } }, 0, by decide⟩

theorem test_DieFallsToSafe_2 : ∃ (s : State) (d : Fin 4), s.die[d].state ≠ .safe :=
  ⟨stPulse, 0, by decide⟩

theorem test_DieFallsToSafe_3 : ∃ (s : State) (d : Fin 4), s.die[d].state ≠ .safe :=
  ⟨stPulse, 0, by decide⟩

theorem test_DieFallsToSafe_4 : ∃ (s : State) (d : Fin 4), s.die[d].state = .safe ∧ s.die[d].src = true ∧ s.die[d].goodFrame = true ∧ s.dieOn d = true ∧ s.die[d].parityRun < 3 ∧ s.wdogDue d = false :=
  ⟨State.reset.modDie 2 (fun x => { x with src := true, goodFrame := true, off := false, parityRun := 2 }), 2, by decide⟩

theorem test_CommandFramesReachADie_1 : ∃ (s : State) (d : Fin 4) (f : CmdFrame) (fs : List CmdFrame), s.die[d].link = f :: fs ∧ s.die[d].off = false ∧ s.die[d].held = false ∧ s.die[d].supplyLow = false ∧ f.loop = none :=
  ⟨stPulse.modDie 0 (fun x => { x with parityRun := 2, link := [idleFrame] }), 0, idleFrame, [], by decide⟩

theorem test_CommandFramesReachADie_2 : ∃ (s : State) (d : Fin 4) (f : CmdFrame) (fs : List CmdFrame) (l : Fin 16), s.die[d].link = f :: fs ∧ s.die[d].off = false ∧ s.die[d].held = false ∧ s.die[d].supplyLow = false ∧ f.loop = some l ∧ s.die[d].state ≠ .safe ∧ s.die[d].lp[l].accept = false ∧ s.die[d].lp[l].ignoreShed = false ∧ f.stop = .none ∧ f.start = false ∧ f.exit = false :=
  ⟨stPulse.modDie 0 (fun x => { x with link := [{ idleFrame with loop := some 3, seq := 7, icmd := 5, preload := 9, arm := true, shedMask := 6 }] }), 0, { idleFrame with loop := some 3, seq := 7, icmd := 5, preload := 9, arm := true, shedMask := 6 }, [], 3, by decide⟩

theorem test_CommandFramesReachADie_3 : ∃ (s : State) (d : Fin 4) (f : CmdFrame) (fs : List CmdFrame), s.die[d].link = f :: fs ∧ s.die[d].off = false ∧ s.die[d].held = false ∧ s.die[d].supplyLow = false ∧ s.die[d].parityRun < 2 :=
  ⟨stPulse.modDie 0 (fun x => { x with parityRun := 1, link := [idleFrame] }), 0, idleFrame, [], by decide⟩

theorem test_CommandFramesReachADie_4 : ∃ (s : State) (d : Fin 4) (f : CmdFrame) (fs : List CmdFrame), s.die[d].link = f :: fs ∧ s.die[d].off = false ∧ s.die[d].held = false ∧ s.die[d].supplyLow = false ∧ 2 ≤ s.die[d].parityRun ∧ s.die[d].state ≠ .safe :=
  ⟨stPulse.modDie 0 (fun x => { x with parityRun := 2, link := [idleFrame] }), 0, idleFrame, [], by decide⟩

theorem test_CommandFramesReachADie_5 : ∃ (s : State) (d : Fin 4), s.die[d].src = true ∧ s.die[d].off = false ∧ s.die[d].held = false ∧ s.die[d].supplyLow = false ∧ s.refreshFrames d = [idleFrame] :=
  ⟨State.reset.modDie 1 (fun x => { x with src := true, off := false }), 1, by decide⟩

theorem test_PhaseMeasures_1 : ∃ (s : State) (p : Fin 48) (code : Int) (w : Nat), s.dieOn (dieOf p) = true ∧ s.ph[p].pl.pulse ≠ none :=
  ⟨stPulse, 0, 300, 4000, by decide⟩

theorem test_PhaseMeasures_2 : ∃ (s : State) (p : Fin 48) (code : Int) (w : Nat), s.dieOn (dieOf p) = true ∧ s.ph[p].pl.pulse = none ∧ s.par P.PHASE_SENSE p ≠ 1 ∧ s.parNow P.PHASE_OUT_MODE p ≠ 2 :=
  ⟨stSlot, 0, -300, 4000, by decide⟩

theorem test_PhaseMeasures_3 : ∃ (s : State) (p : Fin 48) (sum : Int), s.ph[p].calPending = some true ∧ (s.offsetUv p sum).natAbs ≤ 3000 :=
  ⟨stSlot.modPh 0 (fun x => { x with calPending := some true, inService := false }), 0, 64, by decide⟩

theorem test_PhaseMeasures_4 : ∃ (s : State) (p : Fin 48) (sum : Int), s.ph[p].calPending = some false ∧ (s.offsetUv p sum).natAbs ≤ 3000 :=
  ⟨stSlot.modPh 0 (fun x => { x with calPending := some false }), 0, 64, by decide⟩

theorem test_PhaseMeasures_5 : ∃ (s : State) (p : Fin 48) (sum : Int), s.ph[p].calPending ≠ none ∧ 3000 < (s.offsetUv p sum).natAbs :=
  ⟨stSlot.modPh 0 (fun x => { x with calPending := some false }), 0, 64000, by decide⟩

theorem test_VoltageWindows_1 : ∃ (s : State) (v : Fin 16) (pin : Int) (w : Nat) (l : Fin 16), s.dieOn (vsDie v) = true ∧ s.loopOfVs v = some l ∧ w % 1600 = 0 ∧ 0 < w ∧ w ≤ s.loop[l].tm.p :=
  ⟨stWin, 0, 600000, 1600, 0, by decide⟩

theorem test_VoltageWindows_2 : ∃ (s : State) (v : Fin 16) (pin : Int) (w : Nat) (l : Fin 16), s.dieOn (vsDie v) = true ∧ s.loopOfVs v = some l ∧ ((w % 1600 ≠ 0 ∨ w = 0 ∨ s.loop[l].tm.p < w)) :=
  ⟨stWin, 0, 600000, 1, 0, by decide⟩

theorem test_VoltageWindows_3 : ∃ (s : State) (v : Fin 16) (pin : Int) (l : Fin 16), s.dieOn (vsDie v) = true ∧ s.loopOfVs v = some l ∧ s.ovsEn v = true ∧ s.overOvs v pin = true ∧ s.vs[v].ovs = false :=
  ⟨stWin, 0, 1200000, 0, by decide⟩

theorem test_VoltageWindows_4 : ∃ (s : State) (v : Fin 16) (pin : Int), s.loopOfVs v = none :=
  ⟨stWin, 5, 1200000, by decide⟩

theorem test_VoltageWindows_5 : ∃ (s : State) (v : Fin 16) (pin : Int), s.dieOn (vsDie v) = true ∧ s.vs[v].ovs = true ∧ s.ovsOver v pin = true :=
  ⟨stWin.modVs 0 (fun x => { x with ovs := true, extreme := 1200001 }), 0, 0, by decide⟩

theorem test_VoltageWindows_6 : ∃ (s : State) (v : Fin 16) (pin : Int) (l : Fin 16), s.dieOn (vsDie v) = true ∧ s.loopOfVs v = some l ∧ s.uvsEn v = true ∧ s.underUvs v pin = true ∧ s.vs[v].uvs = false :=
  ⟨stWin, 0, 0, 0, by decide⟩

theorem test_VoltageWindows_7 : ∃ (s : State) (v : Fin 16) (pin : Int), s.dieOn (vsDie v) = true ∧ s.vs[v].uvs = true ∧ s.uvsOver v pin = true :=
  ⟨stWin.modVs 0 (fun x => { x with uvs := true, extreme := -7 }), 0, 1200000, by decide⟩

theorem test_FeedLossLatchesThePreload_1 : ∃ (s : State) (d : Fin 4) (l : Fin 16), s.bank.latch[d] = true ∧ s.die[d].state ≠ .safe ∧ s.die[d].lp[l].arm = true ∧ s.die[d].lp[l].accept = false ∧ s.die[d].lp[l].hu = false :=
  ⟨(stPulse.modLp 0 15 (fun x => { x with arm := true, preload := 77 })) |> onLatch 0, 0, 15, by decide⟩

theorem test_FeedLossLatchesThePreload_2 : ∃ (s : State) (d : Fin 4) (l : Fin 16), ((s.die[d].lp[l].arm = false ∨ s.die[d].lp[l].accept = true ∨ s.die[d].lp[l].hu = true)) :=
  ⟨(stPulse.modLp 0 15 (fun x => { x with arm := true, preload := 77 })) |> onLatch 0, 0, 0, by decide⟩

theorem test_FeedLossLatchesThePreload_3 : ∃ (s : State) (d : Fin 4) (l : Fin 16), ((s.die[d].lp[l].arm = false ∨ s.die[d].lp[l].accept = true ∨ s.die[d].lp[l].hu = true)) :=
  ⟨(stPulse.modLp 0 15 (fun x => { x with arm := true, accept := true, preload := 77 })) |> onLatch 0, 0, 15, by decide⟩

theorem test_FeedLossLatchesThePreload_4 : ∃ (s : State) (d : Fin 4), s.die[d].state = .safe :=
  ⟨(State.reset.modLp 1 15 (fun x => { x with arm := true, preload := 77 })) |> onLatch 1, 1, by decide⟩

theorem test_FeedLossLatchesThePreload_5 : ∃ (s : State) (d : Fin 4), s.bank.latch[d] = false :=
  ⟨stPulse, 1, by decide⟩

theorem test_DieReportsReachTheStems_1 : ∃ (s : State) (d : Fin 4) (l : Fin 16) (cause mask : Nat) (rs : List DieReport), s.hasActive = true ∧ s.die[d].reports = .shedAbort l cause mask :: rs :=
  ⟨(stFeed .off).modDie 3 (fun x => { x with reports := [.shedAbort 15 1 5, .armed] }), 3, 15, 1, 5, [.armed], by decide⟩

theorem test_DieReportsReachTheStems_2 : ∃ (s : State) (d : Fin 4) (l : Fin 16) (sum : Int) (rs : List DieReport), s.hasActive = true ∧ s.die[d].reports = .currentSum l sum :: rs :=
  ⟨(stFeed .off).modDie 3 (fun x => { x with reports := [.currentSum 15 (-9)] }), 3, 15, -9, [], by decide⟩

theorem test_DieReportsReachTheStems_3 : ∃ (s : State) (d : Fin 4) (cause : Nat) (rs : List DieReport), s.hasActive = true ∧ s.die[d].reports = .safeEntry cause :: rs :=
  ⟨{ stLive with stems := (stFeed .off).stems }.modDie 0 (fun x => { x with state := .safe, reports := [.safeEntry 0] }), 0, 0, [], by decide⟩

theorem test_DieReportsReachTheStems_4 : ∃ (s : State) (d : Fin 4) (rs : List DieReport), s.hasActive = true ∧ s.die[d].reports = .armed :: rs :=
  ⟨(stFeed .off).modDie 3 (fun x => { x with reports := [.armed] }), 3, [], by decide⟩

theorem test_DieReportsReachTheStems_5 : ∃ (s : State) (d : Fin 4), (s.die[d].reports = [] ∨ s.hasActive = false) :=
  ⟨State.reset, 3, by decide⟩

theorem test_LoopPeriodStarts_1 : ∃ (s : State) (l : Fin 16), s.anyDie = true ∧ s.live l = true ∧ s.loop[l].tm.fresh = true :=
  ⟨stLive.modTm 0 (fun x => { x with fresh := true }), 0, by decide⟩

theorem test_LoopPeriodStarts_2 : ∃ (s : State) (l : Fin 16), s.anyDie = true ∧ s.live l = true ∧ s.loop[l].tm.fresh = false ∧ (s.loop[l].tm.runPeriods + 1) % s.parNowN P.LOOP_SAMPLE_DIV l ≠ 0 :=
  ⟨stLive.setPar P.LOOP_SAMPLE_DIV 0 4, 0, by decide⟩

theorem test_LoopPeriodStarts_3 : ∃ (s : State) (l : Fin 16), s.anyDie = true ∧ s.live l = false :=
  ⟨stSlot, 15, by decide⟩

theorem test_LoopPeriodStarts_4 : ∃ (s : State) (l : Fin 16), s.anyDie = false :=
  ⟨State.reset, 15, by decide⟩

theorem test_LoopPeriodStarts_5 : ∃ (s : State) (l : Fin 16), s.parNow P.LOOP_SS_MODE l = 2 ∧ s.live l = true :=
  ⟨stLive.setPar P.LOOP_SS_MODE 0 2, 0, by decide⟩

theorem test_LoopPeriodStarts_6 : ∃ (s : State) (l : Fin 16), ((s.parNow P.EBB_ROT_EN l = 1 ∨ s.loop[l].tm.rotForce = true)) ∧ 2 ^ (if s.loop[l].tm.rotForce = true then 4 else s.parNowN P.EBB_ROT_EXP l) ≤ s.loop[l].tm.rotCount :=
  ⟨(stLive.setPar P.EBB_ROT_EN 0 1).modTm 0 (fun x => { x with rotCount := 2 ^ 20 }), 0, by decide⟩

theorem test_LoopPeriodStarts_7 : ∃ (s : State) (l : Fin 16), ((s.parNow P.EBB_ROT_EN l = 1 ∨ s.loop[l].tm.rotForce = true)) ∧ 2 ^ (if s.loop[l].tm.rotForce = true then 4 else s.parNowN P.EBB_ROT_EXP l) ≤ s.loop[l].tm.rotCount :=
  ⟨stLive.modTm 0 (fun x => { x with rotCount := 16, rotForce := true }), 0, by decide⟩

theorem test_LoopPeriodStarts_8 : ∃ (s : State) (l : Fin 16), (((s.parNow P.EBB_ROT_EN l ≠ 1 ∧ s.loop[l].tm.rotForce = false) ∨ s.loop[l].tm.rotCount < 2 ^ (if s.loop[l].tm.rotForce = true then 4 else s.parNowN P.EBB_ROT_EXP l))) :=
  ⟨stLive, 0, by decide⟩

theorem test_EvaluationComputesTheCommand_1 : ∃ s : State, s.nextLoop = none :=
  ⟨State.reset, by decide⟩

theorem test_EvaluationComputesTheCommand_2 : ∃ (s : State) (l : Fin 16) (q : Sample), s.nextLoop = some l ∧ s.loop[l].samples = [q] ∧ s.loop[l].ct.state = .running ∧ s.loop[l].ct.huEnter = none ∧ s.loop[l].ct.exitAt = none ∧ s.loop[l].ct.first = false ∧ s.loop[l].ct.region < s.regions l ∧ s.loop[l].ct.region < 4 ∧ s.ocModeOf l s.loop[l].ct.region ≠ 1 ∧ q.fwdHold = false ∧ q.revHold = false :=
  ⟨stEval, 0, qEval, by decide⟩

theorem test_LoopControls_1 : ∃ (s : State) (l : Fin 16) (k : Fin 8), s.mayControl k [0] = true ∧ s.par P.LOOP_ENABLE l ≠ 0 ∧ s.loop[l].ct.state = .stopped ∧ s.canStart l = true :=
  ⟨stCtl, 0, 0, by decide⟩

theorem test_LoopControls_2 : ∃ (s : State) (l : Fin 16) (k : Fin 8), s.mayControl k [0] = true ∧ s.par P.LOOP_ENABLE l ≠ 0 ∧ s.loop[l].ct.state = .stopped ∧ s.canStart l = false :=
  ⟨stCtl.modDie 0 (fun x => { x with state := .safe }), 0, 0, by decide⟩

theorem test_LoopControls_3 : ∃ (s : State) (l : Fin 16) (k : Fin 8), s.mayControl k [0] = true ∧ s.par P.LOOP_ENABLE l = 0 :=
  ⟨stCtl.setPar P.LOOP_ENABLE 0 0, 0, 0, by decide⟩

theorem test_LoopControls_4 : ∃ (s : State) (l : Fin 16) (k : Fin 8), s.mayControl k [0] = true ∧ s.loop[l].ct.state = .running ∧ s.loop[l].ct.region < 4 :=
  ⟨stCtl.modCt 0 (fun c => { c with state := .running, icmd := 900 }), 0, 0, by decide⟩

theorem test_LoopControls_5 : ∃ (s : State) (l : Fin 16) (k : Fin 8), s.mayControl k [0] = true ∧ s.loop[l].ct.state = .faulted :=
  ⟨stCtl.modCt 0 (fun c => { c with state := .faulted, cause := 3 }), 0, 0, by decide⟩

theorem test_FollowingErrorActs_1 : ∃ (s : State) (l : Fin 16), s.live l = true ∧ s.ferrDue l = true ∧ s.parNow P.LOOP_FERR_ACTION l = 0 :=
  ⟨(stLive.modCt 0 (fun c => { c with ferrT := some 8000000000 })).setPar P.LOOP_FERR_ACTION 0 0, 0, by decide⟩

theorem test_FollowingErrorActs_2 : ∃ (s : State) (l : Fin 16), s.live l = true ∧ s.ferrDue l = true ∧ s.parNow P.LOOP_FERR_ACTION l = 1 :=
  ⟨(stLive.modCt 0 (fun c => { c with ferrT := some 8000000000 })).setPar P.LOOP_FERR_ACTION 0 1, 0, by decide⟩

theorem test_FollowingErrorActs_3 : ∃ (s : State) (l : Fin 16), s.live l = true ∧ s.ferrDue l = true ∧ 2 ≤ s.parNow P.LOOP_FERR_ACTION l :=
  ⟨(stLive.modCt 0 (fun c => { c with ferrT := some 8000000000 })).setPar P.LOOP_FERR_ACTION 0 2, 0, by decide⟩

theorem test_FollowingErrorActs_4 : ∃ (s : State) (l : Fin 16), s.ferrDue l = false :=
  ⟨stLive, 0, by decide⟩

theorem test_FollowingErrorActs_5 : ∃ (s : State) (k : Fin 8) (v : Nat), s.mayControl k [0] = true ∧ s.fault.hold = false :=
  ⟨({ stCtl with fault := { stCtl.fault with hold := false } }).setPar P.DEV_FAULT_SRC 0 0, 0, 15, by decide⟩

theorem test_FollowingErrorActs_6 : ∃ (s : State) (k : Fin 8) (v : Nat), s.mayControl k [0] = true ∧ s.fault.hold = true :=
  ⟨stCtl, 0, 15, by decide⟩

theorem test_OvercurrentSupervision_1 : ∃ (s : State) (l : Fin 16) (r : LimRep), s.loop[l].oc.reps = [r] ∧ r.waits = false ∧ s.loop[l].oc.st = .watch ∧ s.loop[l].oc.asm = [] ∧ s.reporters l = [r.die] ∧ s.parNow P.LOOP_OC_WINDOW l = 0 ∧ s.loop[l].oc.count + 1 < s.parNowN P.LOOP_OC_COUNT l :=
  ⟨stOc, 0, ⟨0, 9, true, false⟩, by decide⟩

theorem test_OvercurrentSupervision_2 : ∃ (s : State) (l : Fin 16) (r : LimRep), s.loop[l].oc.reps = [r] ∧ r.waits = false ∧ r.limited = true ∧ s.loop[l].oc.st = .watch ∧ s.loop[l].oc.asm = [] ∧ s.reporters l = [r.die] ∧ s.parNow P.LOOP_OC_WINDOW l = 0 ∧ s.live l = true ∧ s.loop[l].oc.mode = 0 ∧ s.parNowN P.LOOP_OC_COUNT l ≤ s.loop[l].oc.count + 1 ∧ s.loop[l].oc.retries < s.parNowN P.LOOP_OC_RETRIES l ∧ s.loop[l].oc.shortAt ≠ some r.period :=
  ⟨(stOc.modOc 0 (fun o => { o with count := 31 })).setPar P.LOOP_OC_COUNT 0 32, 0, ⟨0, 9, true, false⟩, by decide⟩

theorem test_OvercurrentSupervision_3 : ∃ (s : State) (l : Fin 16) (r : LimRep), s.loop[l].oc.reps = [r] ∧ r.waits = false ∧ r.limited = true ∧ s.loop[l].oc.st = .watch ∧ s.loop[l].oc.asm = [] ∧ s.reporters l = [r.die] ∧ s.parNow P.LOOP_OC_WINDOW l = 0 ∧ s.live l = true ∧ s.loop[l].oc.mode = 0 ∧ s.parNowN P.LOOP_OC_COUNT l ≤ s.loop[l].oc.count + 1 ∧ s.loop[l].oc.retries < s.parNowN P.LOOP_OC_RETRIES l ∧ s.loop[l].oc.shortAt = some r.period :=
  ⟨(stOc.modOc 0 (fun o => { o with count := 31, shortAt := some 9 })).setPar P.LOOP_OC_COUNT 0 32, 0, ⟨0, 9, true, false⟩, by decide⟩

theorem test_OvercurrentSupervision_4 : ∃ (s : State) (l : Fin 16), s.loop[l].ct.state = .hiccupOff ∧ s.offDue l = true ∧ s.loop[l].oc.retries < s.parN P.LOOP_OC_RETRIES l ∧ s.canStart l = true :=
  ⟨onTick 250000000 <| stHiccup, 0, by decide⟩

theorem test_OvercurrentSupervision_5 : ∃ (s : State) (l : Fin 16), s.loop[l].ct.state = .hiccupOff ∧ s.offDue l = true ∧ s.par P.LOOP_OC_RETRIES l = 255 ∧ s.canStart l = true :=
  ⟨onTick 250000000 <| (stHiccup.setPar P.LOOP_OC_RETRIES 0 255).modOc 0 (fun o => { o with retries := 255 }), 0, by decide⟩

theorem test_OvercurrentSupervision_6 : ∃ (s : State) (l : Fin 16), s.loop[l].ct.state = .hiccupOff ∧ s.offDue l = true ∧ s.loop[l].oc.retries < s.parN P.LOOP_OC_RETRIES l ∧ s.canStart l = false :=
  ⟨onTick 250000000 <| stHiccup.modDie 0 (fun x => { x with state := .safe }), 0, by decide⟩

theorem test_OvercurrentSupervision_7 : ∃ (s : State) (l : Fin 16), s.loop[l].ct.state = .hiccupOff ∧ s.offDue l = true ∧ s.parN P.LOOP_OC_RETRIES l ≤ s.loop[l].oc.retries ∧ s.par P.LOOP_OC_RETRIES l ≠ 255 :=
  ⟨onTick 250000000 <| stHiccup.modOc 0 (fun o => { o with retries := 254 }), 0, by decide⟩

theorem test_OvercurrentSupervision_8 : ∃ (s : State) (l : Fin 16) (q : Sample), s.loop[l].oc.shortAt = some q.period ∧ s.loop[l].samples = [q] ∧ s.loop[l].oc.mode = 1 :=
  ⟨(stLive.modOc 0 (fun o => { o with shortT := some 0, shortAt := some 2, mode := 1 })).modLoop 0 (fun x => { x with samples := [qEval] }), 0, qEval, by decide⟩

theorem test_OvercurrentSupervision_9 : ∃ (s : State) (l : Fin 16), s.loop[l].oc.shortAt ≠ none ∧ s.loop[l].oc.mode = 0 ∧ (∀ r ∈ s.loop[l].oc.reps, some r.period ≠ s.loop[l].oc.shortAt) ∧ s.loop[l].oc.count < s.parNowN P.LOOP_OC_COUNT l :=
  ⟨stLive.modOc 0 (fun o => { o with shortT := some 0, shortAt := some 2, reps := [⟨0, 3, true, false⟩] }), 0, by decide⟩

theorem test_OvercurrentSupervision_10 : ∃ (s : State) (l : Fin 16), s.loop[l].oc.shortAt = none :=
  ⟨stLive, 0, by decide⟩

theorem test_OvercurrentSupervision_11 : ∃ (s : State) (l : Fin 16), s.loop[l].oc.st = .watch ∧ s.loop[l].ct.state = .running ∧ s.cleanDue l = true :=
  ⟨onTick (250000 * 70000) (stLive.modOc 0 (fun o => { o with st := .watch, retries := 3 })), 0, by decide⟩

theorem test_EbbSheds_1 : ∃ (s : State) (p : Fin 48) (l : Fin 16), s.loopOf p = some l ∧ s.shedDone p = true :=
  ⟨stLive.modPh 0 (fun x => { x with shed := .shedding, pl := { x.pl with pulse := none } }), 0, 0, by decide⟩

theorem test_EbbSheds_2 : ∃ (s : State) (d : Fin 4) (l : Fin 16) (cause : Nat), s.abortCause d l cause = true :=
  ⟨(stLive.modPh 0 (fun x => { x with shed := .shedding })).modLp 0 0 (fun x => { x with accept := true }), 0, 0, 2, by decide⟩

theorem test_EbbSheds_3 : ∃ (s : State) (l : Fin 16), s.holdoffDue l = true :=
  ⟨onTick 25000000 (stLive.modEb 0 (fun x => { x with holdOff := true })), 0, by decide⟩

theorem test_EbbSheds_4 : ∃ (s : State) (l : Fin 16), s.holdoffDue l = false :=
  ⟨stLive.modEb 0 (fun x => { x with holdOff := true, holdAt := 1 }), 0, by decide⟩

theorem test_EbbSheds_5 : ∃ (s : State) (entropy : Nat), s.hasActive = true :=
  ⟨(stCtl.modPst 0 (fun x => { x with winN := 3, winSum := 7, winSq := 20 })), 5, by decide⟩

theorem test_MeteringStep_1 : ∃ (s : State) (raw : Vector Int 7), s.bank.on = true :=
  ⟨{ State.reset with bank := { State.reset.bank with on := true, next := some [] } }, Vector.replicate 7 1000, by decide⟩

theorem test_MeteringStep_2 : ∃ (s : State) (raw : Vector Int 7), s.bank.on = false :=
  ⟨State.reset, Vector.replicate 7 1000, by decide⟩

theorem test_FeedConnects_1 : ∃ (s : State) (f : Fin 2), s.bank.feed[f].state = .insert ∧ s.since (s.bank.feed[f].insAt.getD s.clk.tick) s.bank.feed[f].insLen 250000 = true ∧ s.bank.feed[f].winOk = true ∧ s.bankGo = true ∧ s.bank.feed[f].dv.natAbs ≤ s.bparN P.FEED_PRE_DV f :=
  ⟨stFeed .insert, 0, by decide⟩

theorem test_FeedConnects_2 : ∃ (s : State) (f : Fin 2), s.bank.feed[f].state = .insert ∧ s.since (s.bank.feed[f].insAt.getD s.clk.tick) s.bank.feed[f].insLen 250000 = true ∧ s.bank.feed[f].winOk = true ∧ s.bankGo = true ∧ s.bparN P.FEED_PRE_DV f < s.bank.feed[f].dv.natAbs ∧ 0 ≤ s.bank.feed[f].dv ∧ (∀ g : Fin 2, s.bank.feed[g].state ≠ .precharge) :=
  ⟨(stFeed .insert).modFeed 0 (fun x => { x with dv := 40000 }), 0, by decide⟩

theorem test_FeedConnects_3 : ∃ (s : State) (f g : Fin 2), s.bank.feed[f].state = .insert ∧ s.since (s.bank.feed[f].insAt.getD s.clk.tick) s.bank.feed[f].insLen 250000 = true ∧ s.bank.feed[f].winOk = true ∧ s.bankGo = true ∧ s.bparN P.FEED_PRE_DV f < s.bank.feed[f].dv.natAbs ∧ 0 ≤ s.bank.feed[f].dv ∧ s.bank.feed[g].state = .precharge :=
  ⟨((stFeed .insert).modFeed 0 (fun x => { x with dv := 40000 })).modFeed 1 (fun x => { x with state := .precharge }), 0, 1, by decide⟩

theorem test_FeedConnects_4 : ∃ (s : State) (f : Fin 2), s.bank.feed[f].overlap = true ∧ s.since s.bank.feed[f].conAt (s.bparN P.FEED_PRE_OVERLAP f) 250 = true :=
  ⟨onTick 25000000 ((stFeed .connected).modFeed 0 (fun x => { x with overlap := true, gp := true })), 0, by decide⟩

theorem test_FeedConnects_5 : ∃ (s : State) (f : Fin 2), s.bank.feed[f].state = .connected ∧ s.since s.bank.feed[f].conAt (s.bparN P.FEED_CLEAN_TIME f) 250000000 = true :=
  ⟨onTick (250000000 * 4000000) ((stFeed .connected).modFeed 0 (fun x => { x with retries := 7 })), 0, by decide⟩

theorem test_FeedConnects_6 : ∃ (s : State) (f : Fin 2) (ma : Int) (held : Nat), s.bank.feed[f].ideal = true ∧ ((s.bank.feed[f].go = false ∨ s.bank.feed[f].rev = true)) ∧ s.bpar P.FEED_OR_ON f < ma ∧ s.bparN P.FEED_OR_ON_DLY f * 1000 ≤ held :=
  ⟨(stFeed .connected).modFeed 0 (fun x => { x with ideal := true, rev := true }), 0, 900000, 2000000000, by decide⟩

theorem test_FeedConnects_7 : ∃ (s : State) (f : Fin 2) (ma : Int) (held : Nat), s.bank.feed[f].ideal = true ∧ ((s.bank.feed[f].go = false ∨ s.bank.feed[f].rev = true)) ∧ s.bpar P.FEED_OR_ON f < ma ∧ s.bparN P.FEED_OR_ON_DLY f * 1000 ≤ held :=
  ⟨(stFeed .connected).modFeed 0 (fun x => { x with ideal := true, rev := true, go := true, test := true }), 0, 900000, 2000000000, by decide⟩

theorem test_FeedConnects_8 : ∃ (s : State) (f : Fin 2) (ma : Int) (held : Nat), ((ma ≤ s.bpar P.FEED_OR_ON f ∨ held < s.bparN P.FEED_OR_ON_DLY f * 1000)) :=
  ⟨stFeed .connected, 0, 0, 0, by decide⟩

theorem test_FeedConnects_9 : ∃ (s : State) (f : Fin 2), s.bank.feed[f].test = true ∧ s.since s.bank.feed[f].goAt (s.bparN P.FEED_T_GATE f) 250 = true :=
  ⟨onTick 25000000 ((stFeed .connected).modFeed 0 (fun x => { x with test := true, go := true, rev := true })), 0, by decide⟩

theorem test_FeedTrips_1 : ∃ (s : State) (f : Fin 2) (i : Int), s.bank.on = true ∧ ((s.bank.feed[f].state = .precharge ∨ s.bank.feed[f].state = .connected)) ∧ min 1023 (s.bpar P.FEED_FAST_TRIP f * s.bpar P.FEED_RSHUNT f * 1024 / 200000000) * 200000000 < i * s.bpar P.FEED_RSHUNT f * 1024 :=
  ⟨stFeed .connected, 0, 10000000, by decide⟩

theorem test_FeedTrips_2 : ∃ (s : State) (f : Fin 2) (i : Int), s.bank.on = true ∧ ((s.bank.feed[f].state = .precharge ∨ s.bank.feed[f].state = .connected)) ∧ min 1023 (s.bpar P.FEED_FAST_TRIP f * s.bpar P.FEED_RSHUNT f * 1024 / 200000000) * 200000000 < i * s.bpar P.FEED_RSHUNT f * 1024 :=
  ⟨stFeed .precharge, 0, 10000000, by decide⟩

theorem test_FeedTrips_3 : ∃ (s : State) (f : Fin 2) (i : Int), ((s.bank.on = false ∨ (s.bank.feed[f].state ≠ .precharge ∧ s.bank.feed[f].state ≠ .connected) ∨ i * s.bpar P.FEED_RSHUNT f * 1024 ≤ min 1023 (s.bpar P.FEED_FAST_TRIP f * s.bpar P.FEED_RSHUNT f * 1024 / 200000000) * 200000000)) :=
  ⟨stFeed .connected, 0, 1, by decide⟩

theorem test_FeedTrips_4 : ∃ (s : State) (f : Fin 2) (i : Int), ((s.bank.on = false ∨ (s.bank.feed[f].state ≠ .precharge ∧ s.bank.feed[f].state ≠ .connected) ∨ i * s.bpar P.FEED_RSHUNT f * 1024 ≤ min 1023 (s.bpar P.FEED_FAST_TRIP f * s.bpar P.FEED_RSHUNT f * 1024 / 200000000) * 200000000)) :=
  ⟨stFeed .lockout, 0, 10000000, by decide⟩

theorem test_FeedTrips_5 : ∃ (s : State) (f : Fin 2), s.bank.feed[f].state = .precharge ∧ s.since s.bank.feed[f].preAt s.bank.feed[f].preLen 250000 = true :=
  ⟨stFeed .precharge, 0, by decide⟩

theorem test_FeedTrips_6 : ∃ (s : State) (f : Fin 2), ((s.bank.feed[f].state ≠ .precharge ∨ s.since s.bank.feed[f].preAt s.bank.feed[f].preLen 250000 = false)) :=
  ⟨stFeed .insert, 0, by decide⟩

theorem test_FeedTrips_7 : ∃ (s : State) (f : Fin 2), s.bank.feed[f].state = .precharge ∧ s.bank.feed[f].soaLen * 1000 ≤ s.bank.feed[f].soaSteps * 32 :=
  ⟨(stFeed .precharge).modFeed 0 (fun x => { x with soaLen := 4, soaSteps := 125 }), 0, by decide⟩

theorem test_FeedTrips_8 : ∃ (s : State) (f : Fin 2), ((s.bank.feed[f].state ≠ .precharge ∨ s.bank.feed[f].soaSteps * 32 < s.bank.feed[f].soaLen * 1000)) :=
  ⟨(stFeed .precharge).modFeed 0 (fun x => { x with soaLen := 4, soaSteps := 124 }), 0, by decide⟩

theorem test_FeedTrips_9 : ∃ (s : State) (f : Fin 2), s.bank.feed[f].state = .tripped ∧ s.bank.feed[f].retryRun = true ∧ s.since s.bank.feed[f].tripAt s.bank.feed[f].retryLen 250000 = true ∧ s.bankActs = true ∧ ((s.bank.feed[f].retries < s.bparN P.FEED_RETRIES f ∨ s.bpar P.FEED_RETRIES f = 255)) :=
  ⟨(stFeed .tripped).modFeed 0 (fun x => { x with retryRun := true }), 0, by decide⟩

theorem test_FeedTrips_10 : ∃ (s : State) (f : Fin 2), s.bank.feed[f].state = .tripped ∧ s.bank.feed[f].retryRun = true ∧ s.since s.bank.feed[f].tripAt s.bank.feed[f].retryLen 250000 = true ∧ s.bankActs = true ∧ s.bparN P.FEED_RETRIES f ≤ s.bank.feed[f].retries ∧ s.bpar P.FEED_RETRIES f ≠ 255 :=
  ⟨(stFeed .tripped).modFeed 0 (fun x => { x with retryRun := true, retries := 254 }), 0, by decide⟩

theorem test_FeedTrips_11 : ∃ (s : State) (f : Fin 2), s.bank.feed[f].state = .tripped ∧ s.bank.feed[f].retryRun = true ∧ s.since s.bank.feed[f].tripAt s.bank.feed[f].retryLen 250000 = true ∧ s.bankActs = false :=
  ⟨((stFeed .tripped).modFeed 0 (fun x => { x with retryRun := true })).modBank (fun b => { b with srcValid := false }), 0, by decide⟩

theorem test_FeedTrips_12 : ∃ (s : State) (f path : Fin 2), s.bank.on = true ∧ s.bank.feed[f].state ≠ .off ∧ s.bank.feed[f].fetShort = false ∧ s.fetFound f path = true :=
  ⟨onTick 250000 ((stFeed .qualify).modFeed 0 (fun x => { x with v := 400000, dv := 100000, i := 10000000 })), 0, 0, by decide⟩

theorem test_FeedTrips_13 : ∃ (s : State) (f path : Fin 2), s.bank.on = true ∧ s.bank.feed[f].state ≠ .off ∧ s.bank.feed[f].fetShort = false ∧ s.fetFound f path = true :=
  ⟨onTick 250000 ((stFeed .connected).modFeed 0 (fun x => { x with ideal := true, i := -10000000 })), 0, 1, by decide⟩

theorem test_FeedTrips_14 : ∃ (s : State) (f path : Fin 2) (ma mv : Int), ((s.bank.on = false ∨ s.fetFound f path = false ∨ ma ≠ s.bank.feed[f].i ∨ mv ≠ s.fetVolt f path)) :=
  ⟨stFeed .connected, 0, 1, 0, 0, by decide⟩

theorem test_FeedTrips_15 : ∃ (s : State) (f : Fin 2) (mv : Nat), s.bank.feed[f].state ≠ .off ∧ s.bank.feed[f].gm = true ∧ s.since s.bank.feed[f].gmAt (s.bparN P.FEED_T_GATE f) 250 = true ∧ mv < s.bparN P.FEED_GATE_OK f :=
  ⟨onTick 25000000 (stFeed .connected), 0, 1, by decide⟩

theorem test_FeedTrips_16 : ∃ (s : State) (f : Fin 2) (gate : Fin 3) (mv : Nat), ((s.bank.feed[f].state = .off ∨ s.bparN P.FEED_GATE_OK f ≤ mv)) :=
  ⟨onTick 25000000 (stFeed .connected), 0, 1, 60000, by decide⟩

theorem test_FeedLossLine_1 : ∃ (s : State) (f : Fin 2) (i v : Int), s.bank.on = true ∧ s.bank.feed[f].ideal = true ∧ i < -s.bpar P.FEED_REV_TRIP f ∧ s.bpar P.FEED_LOSS_LEVEL f ≤ v :=
  ⟨(stFeed .connected).modFeed 0 (fun x => { x with ideal := true, go := true }), 0, -1000000, 1000000, by decide⟩

theorem test_FeedLossLine_2 : ∃ (s : State) (f : Fin 2) (mv : Int) (held : Nat), s.bank.on = true ∧ mv < s.bpar P.FEED_LOSS_LEVEL f ∧ s.bparN P.FEED_LOSS_FILT f ≤ held ∧ s.bank.armed = true ∧ s.bank.line = false ∧ ((∀ g : Fin 2, g ≠ f → s.bank.feed[g].avail = false)) :=
  ⟨(stFeed .connected).modBank (fun b => { b with armed := true }), 0, 0, 10000000, by decide⟩

theorem test_FeedLossLine_3 : ∃ (s : State) (f : Fin 2) (mv : Int) (held : Nat), s.bank.on = true ∧ s.bpar P.FEED_LOSS_LEVEL f + s.bpar P.FEED_LOSS_HYST f ≤ mv ∧ s.bparN P.FEED_LOSS_RET f * 1000 ≤ held ∧ s.bank.armed = true ∧ s.bank.line = true ∧ s.bank.feed[f].state = .connected :=
  ⟨(stFeed .connected).modBank (fun b => { b with armed := true, line := true }), 0, 900000000, 10000000000, by decide⟩

theorem test_FeedLossLine_4 : ∃ (s : State) (f : Fin 2) (mv : Int) (held : Nat), s.bank.on = false :=
  ⟨State.reset, 0, 5, 5, by decide⟩

theorem test_FeedControls_1 : ∃ (s : State) (f : Fin 2) (k : Fin 8), s.mayControl k [0] = true ∧ s.bank.on = true :=
  ⟨stSess (stFeed .off), 0, 0, by decide⟩

theorem test_FeedControls_2 : ∃ (s : State) (f : Fin 2) (k : Fin 8), s.mayControl k [0, 5] = true ∧ s.bank.on = true :=
  ⟨stSess (stFeed .connected), 0, 0, by decide⟩

theorem test_FeedControls_3 : ∃ (s : State) (f : Fin 2) (k : Fin 8), s.hasActive = true ∧ s.brownWarn = false ∧ s.lastFeed f = true ∧ s.holds k 5 = false :=
  ⟨((stSess (stFeed .connected)).setPermit 5 Permit.none).modBank (fun b => { b with seen := ((stFeed .connected).bank.frame false 0) }), 0, 0, by decide⟩

theorem test_FeedControls_4 : ∃ (s : State) (f : Fin 2) (k : Fin 8), s.mayControl k [0] = true ∧ s.bank.on = true :=
  ⟨stSess (stFeed .lockout), 0, 0, by decide⟩

theorem test_FeedControls_5 : ∃ (s : State) (f : Fin 2) (k : Fin 8), s.mayControl k [0] = true ∧ s.bank.on = true ∧ s.bank.seen.feed[f].state = .connected ∧ s.seenBit f 4 = true :=
  ⟨(stSess (stFeed .connected)).modBank (fun b => { b with seen := (((stFeed .connected).modFeed 0 (fun x => { x with rev := true })).bank.frame false 0) }), 0, 0, by decide⟩

theorem test_FeedControls_6 : ∃ (s : State) (f : Fin 2) (k : Fin 8), s.mayControl k [0] = true ∧ ((s.bank.seen.feed[f].state ≠ .connected ∨ s.seenBit f 4 = false)) :=
  ⟨stSess (stFeed .precharge), 0, 0, by decide⟩

theorem test_FeedControls_7 : ∃ (s : State) (f : Fin 2) (k : Fin 8), s.mayControl k [0, 5] = true ∧ s.bank.on = true :=
  ⟨stSess (stFeed .connected), 0, 0, by decide⟩

theorem test_FeedControls_8 : ∃ (s : State) (f : Fin 2) (k : Fin 8), s.hasActive = true ∧ s.brownWarn = false ∧ s.holds k 5 = false :=
  ⟨(stSess (stFeed .connected)).setPermit 5 Permit.none, 0, 0, by decide⟩

theorem test_FeedControls_9 : ∃ (s : State) (f : Fin 2) (cs : List FeedCmd), s.bank.cmds = .enable f :: cs ∧ s.bankActs = true ∧ s.bank.feed[f].state = .off :=
  ⟨(stFeed .off).modBank (fun b => { b with cmds := [.enable 0] }), 0, [], by decide⟩

theorem test_FeedControls_10 : ∃ (s : State) (f : Fin 2) (cs : List FeedCmd), s.bank.cmds = .disable f :: cs ∧ s.bankActs = true ∧ s.bank.feed[f].state ≠ .off :=
  ⟨(stFeed .connected).modBank (fun b => { b with cmds := [.disable 0] }), 0, [], by decide⟩

theorem test_FeedControls_11 : ∃ (s : State) (f : Fin 2) (cs : List FeedCmd), s.bank.cmds = .clear f :: cs ∧ s.bankActs = true ∧ s.bank.feed[f].state = .lockout ∧ s.par P.FEED_AUTO_EN f = 0 :=
  ⟨(stFeed .lockout).modBank (fun b => { b with cmds := [.clear 0] }), 0, [], by decide⟩

theorem test_FeedControls_12 : ∃ (s : State) (f : Fin 2) (cs : List FeedCmd), s.bank.cmds = .test f :: cs ∧ s.bankActs = true ∧ s.bank.feed[f].state = .connected ∧ s.bank.feed[f].rev = true :=
  ⟨((stFeed .connected).modFeed 0 (fun x => { x with rev := true })).modBank (fun b => { b with cmds := [.test 0] }), 0, [], by decide⟩

theorem test_FeedControls_13 : ∃ (s : State) (f : Fin 2) (cs : List FeedCmd), s.bank.cmds = .resetEnergy f :: cs ∧ s.bankActs = true :=
  ⟨((stFeed .connected).modFeed 0 (fun x => { x with eImp := 77, eExp := 99 })).modBank (fun b => { b with cmds := [.resetEnergy 0] }), 0, [], by decide⟩

theorem test_FeedControls_14 : ∃ (s : State) (c : FeedCmd) (cs : List FeedCmd), s.bank.cmds = c :: cs ∧ s.bankActs = false :=
  ⟨((stFeed .connected).modBank (fun b => { b with cmds := [.disable 0], srcValid := false })), .disable 0, [], by decide⟩

theorem test_BarrierChannel_1 : ∃ (s : State) (q : Nat × Nat) (qs : List (Nat × Nat)), s.bank.sending = q :: qs :=
  ⟨(stFeed .off).modBank (fun b => { b with sending := [(5, 6), (7, 8)] }), (5, 6), [(7, 8)], by decide⟩

theorem test_BarrierChannel_2 : ∃ (s : State) (q : Nat × Nat) (qs : List (Nat × Nat)), s.bank.sending = q :: qs :=
  ⟨(stFeed .off).modBank (fun b => { b with sending := [(5, 6), (7, 8)] }), (5, 6), [(7, 8)], by decide⟩

theorem test_BarrierChannel_3 : ∃ s : State, s.bank.commitDue = true ∧ s.bank.on = true ∧ s.bank.sending = [] ∧ s.bank.bad = false ∧ s.bank.configured = false :=
  ⟨(stFeed .off).modBank (fun b => { b with configured := false, commitDue := true, got := [(pkey P.FEED_UV 0, 345678)] }), by decide⟩

theorem test_BarrierChannel_4 : ∃ s : State, s.bank.commitDue = true ∧ s.bank.on = true ∧ s.bank.sending = [] ∧ s.bank.bad = false ∧ s.bank.configured = true :=
  ⟨(stFeed .off).modBank (fun b => { b with commitDue := true, got := [(pkey P.FEED_UV 0, 345678)] }), by decide⟩

theorem test_BarrierChannel_5 : ∃ s : State, s.bank.commitDue = true ∧ s.bank.on = true ∧ s.bank.bad = true :=
  ⟨(stFeed .off).modBank (fun b => { b with commitDue := true, bad := true, errs := 2, sent := [(1, 2)] }), by decide⟩

theorem test_BarrierChannel_6 : ∃ s : State, s.bank.on = true ∧ s.dev.isoOn = true ∧ s.bank.srcValid = true :=
  ⟨stFeed .connected, by decide⟩

theorem test_BarrierChannel_7 : ∃ s : State, s.bank.on = true ∧ s.bank.hbOk = true ∧ s.hbDue = true :=
  ⟨onTick 250000000 (stFeed .connected), by decide⟩

theorem test_BarrierChannel_8 : ∃ (s : State) (at_ : Nat), s.bank.hbLostAt = some at_ ∧ s.dev.isoOn = true :=
  ⟨(stFeed .off).modBank (fun b => { b with hbLostAt := some 0, sent := [(1, 2)] }), 0, by decide⟩

theorem test_BarrierChannel_9 : ∃ (s : State) (q : BankTlm) (qs : List BankTlm), s.bank.tlm = q :: qs ∧ s.hasActive = true :=
  ⟨(stFeed .connected).modBank (fun b => { b with tlm := [b.frame false 0] }), (stFeed .connected).bank.frame false 0, [], by decide⟩

theorem test_BarrierChannel_10 : ∃ s : State, s.bank.on = true :=
  ⟨stFeed .connected, by decide⟩

theorem test_BankPower_1 : ∃ (s : State) (c : EnergyCopy), s.bank.on = false ∧ s.dev.isoOn = true ∧ s.bank.copy = some c :=
  ⟨{ (stFeed .connected) with bank := { (stFeed .connected).bank with on := false, copy := some ⟨5, #v[6, 7], #v[8, 9]⟩ } }, ⟨5, #v[6, 7], #v[8, 9]⟩, by decide⟩

theorem test_BankPower_2 : ∃ s : State, s.bank.on = true :=
  ⟨stFeed .connected, by decide⟩

theorem test_BatteryCounts_1 : ∃ (s : State) (b : Fin 8), s.par P.BATT_ENABLE b ≠ 0 ∧ s.hasActive = true :=
  ⟨stBatt.modBatt 0 (fun x => { x with acc := 999, fl := { x.fl with lowRate := true } }), 0, by decide⟩

theorem test_BatteryCounts_2 : ∃ (s : State) (b : Fin 8), s.par P.BATT_ENABLE b = 0 ∧ s.hasActive = true :=
  ⟨stFeed .off, 0, by decide⟩

theorem test_BatteryCounts_3 : ∃ (s : State) (b : Fin 8), s.hasActive = false :=
  ⟨State.reset, 0, by decide⟩

theorem test_BatteryCounts_4 : ∃ (s : State) (b : Fin 8), s.par P.BATT_ENABLE b ≠ 0 ∧ s.held s.batt[b].restFrom (s.parN P.BATT_T_REST b * 250000000) = true ∧ (s.ocvLookup b).2 = true :=
  ⟨onTick (2 ^ 60) ((stBatt.modBatt 0 (fun x => { x with restFrom := some 0, vcorr := 1000000 })).setPar P.BATT_OCV_MIN_SLOPE 0 0), 0, by decide⟩

theorem test_BatteryCounts_5 : ∃ (s : State) (b : Fin 8), s.par P.BATT_ENABLE b ≠ 0 ∧ s.held s.batt[b].restFrom (s.parN P.BATT_T_REST b * 250000000) = true ∧ (s.ocvLookup b).2 = false ∧ s.batt[b].fl.unrested = false :=
  ⟨onTick (2 ^ 60) ((stBatt.modBatt 0 (fun x => { x with restFrom := some 0, vcorr := 1000000, fl := { x.fl with unrested := false } })).setPar P.BATT_OCV_MIN_SLOPE 0 1), 0, by decide⟩

theorem test_BatteryCounts_6 : ∃ (s : State) (b : Fin 8), ((s.par P.BATT_ENABLE b = 0 ∨ s.held s.batt[b].restFrom (s.parN P.BATT_T_REST b * 250000000) = false)) :=
  ⟨stBatt, 0, by decide⟩

theorem test_BatteryCounts_7 : ∃ (s : State) (b : Fin 8), s.par P.BATT_ENABLE b ≠ 0 ∧ s.batt[b].fl.full = false ∧ s.held s.batt[b].fullAt (s.parN P.BATT_T_FULL b * 250000000) = true ∧ s.par P.BATT_LEARN_TMIN b ≤ s.batt[b].t ∧ s.batt[b].t ≤ s.par P.BATT_LEARN_TMAX b :=
  ⟨onTick (2 ^ 60) (stBatt.modBatt 0 (fun x => { x with fullAt := some 0, t := 250 }) |>.setPar P.BATT_LEARN_TMIN 0 0 |>.setPar P.BATT_LEARN_TMAX 0 400), 0, by decide⟩

theorem test_BatteryCounts_8 : ∃ (s : State) (b : Fin 8), ((s.par P.BATT_ENABLE b = 0 ∨ s.batt[b].fl.full = true ∨ s.held s.batt[b].fullAt (s.parN P.BATT_T_FULL b * 250000000) = false)) :=
  ⟨stBatt, 0, by decide⟩

theorem test_BatteryEmptyCutAbsent_1 : ∃ (s : State) (b : Fin 8), s.par P.BATT_ENABLE b = 1 ∧ s.batt[b].fl.empty = false ∧ s.held s.batt[b].emptyAt (s.parN P.BATT_EMPTY_FILT b * 250000) = true ∧ s.batt[b].fl.learning = false :=
  ⟨onTick (2 ^ 60) ((stBatt.modBatt 0 (fun x => { x with emptyAt := some 0 })).setPar P.BATT_EMPTY_ACTION 0 1), 0, by decide⟩

theorem test_BatteryEmptyCutAbsent_2 : ∃ (s : State) (b : Fin 8), s.par P.BATT_ENABLE b = 1 ∧ s.batt[b].fl.cutoff = false ∧ s.held s.batt[b].cutAt (s.parN P.BATT_CUT_FILT b * 250000) = true :=
  ⟨onTick (2 ^ 60) (stBatt.modBatt 7 (fun x => { x with cutAt := some 0 }) |>.setPar P.BATT_ENABLE 7 1), 7, by decide⟩

theorem test_BatteryEmptyCutAbsent_3 : ∃ (s : State) (b : Fin 8), s.par P.BATT_ENABLE b = 1 ∧ s.batt[b].fl.present = true ∧ s.held s.batt[b].badAt (s.parN P.BATT_V_STALE b * 250000) = true :=
  ⟨onTick (2 ^ 60) (stBatt.modBatt 0 (fun x => { x with badAt := some 0, fl := { x.fl with present := true } })), 0, by decide⟩

theorem test_BatteryEmptyCutAbsent_4 : ∃ (s : State) (b : Fin 8), s.batt[b].cutAt = none :=
  ⟨stBatt, 7, by decide⟩

theorem test_BatteryEmptyCutAbsent_5 : ∃ (s : State) (b : Fin 8), s.batt[b].emptyAt = none :=
  ⟨stBatt, 7, by decide⟩

theorem test_BatteryEmptyCutAbsent_6 : ∃ (s : State) (b k : Fin 8), s.mayControl k [3] = true ∧ s.batt[b].fl.cutoff = true :=
  ⟨stSess (stBatt.modBf 0 (fun x => { x with cutoff := true })), 0, 0, by decide⟩

theorem test_BatteryEmptyCutAbsent_7 : ∃ (s : State) (b k : Fin 8), s.mayControl k [3] = true ∧ s.batt[b].fl.learning = true :=
  ⟨stSess (stBatt.modBf 0 (fun x => { x with learning := true })), 0, 0, by decide⟩

theorem test_BatteryEmptyCutAbsent_8 : ∃ (s : State) (b k : Fin 8), s.mayControl k [3] = true :=
  ⟨stSess stBatt, 0, 0, by decide⟩

theorem test_ConfluenceUpdates_1 : ∃ (s : State) (m : Fin 64), s.hasActive = true ∧ s.memberUsed m = false :=
  ⟨stFeed .off, 0, by decide⟩

theorem test_ConfluenceUpdates_2 : ∃ (s : State) (m : Fin 64), s.hasActive = true ∧ s.memberUsed m = true ∧ s.mbrFresh 63 = false :=
  ⟨(stMbr .trimmed), 63, by decide⟩

theorem test_ConfluenceUpdates_3 : ∃ (s : State) (m : Fin 64), s.hasActive = true ∧ s.memberUsed m = true :=
  ⟨(stMbr .suspended), 63, by decide⟩

theorem test_ConfluenceUpdates_4 : ∃ (s : State) (m : Fin 64), s.hasActive = true ∧ s.memberUsed m = true :=
  ⟨(stMbr .held), 63, by decide⟩

theorem test_ConfluenceUpdates_5 : ∃ s : State, s.hasActive = true ∧ s.hold.state ≠ .normal :=
  ⟨{ (stFeed .off) with hold := { State.reset.hold with state := .holdup } }, by decide⟩

theorem test_ConfluenceUpdates_6 : ∃ s : State, s.hasActive = true ∧ s.chain.addr ≠ 0 :=
  ⟨{ (stFeed .off) with chain := { State.reset.chain with addr := 7 } }, by decide⟩

theorem test_ConfluenceUpdates_7 : ∃ s : State, s.hasActive = false :=
  ⟨State.reset, by decide⟩

theorem test_ConfluenceUpdates_8 : ∃ s : State, s.hasActive = false :=
  ⟨State.reset, by decide⟩

theorem test_ConfluenceUpdates_9 : ∃ s : State, s.hasActive = false :=
  ⟨State.reset, by decide⟩

theorem test_HoldUpEntersAndReturns_1 : ∃ (s : State) (l : Fin 16), s.hasActive = true ∧ s.hold.state = .normal :=
  ⟨(stFeed .off).setPar P.LOOP_HOLDUP_EN 0 1, 0, by decide⟩

theorem test_HoldUpEntersAndReturns_2 : ∃ s : State, s.lineEvent true = true ∧ s.hold.state = .normal :=
  ⟨stLine true, by decide⟩

theorem test_HoldUpEntersAndReturns_3 : ∃ s : State, s.lineEvent false = true ∧ s.hold.state = .holdup :=
  ⟨{ stLine false with hold := { State.reset.hold with line := true, state := .holdup } }, by decide⟩

theorem test_HoldUpEntersAndReturns_4 : ∃ s : State, s.lineEvent true = false :=
  ⟨stFeed .off, by decide⟩

theorem test_HoldUpEntersAndReturns_5 : ∃ s : State, s.lineEvent false = false :=
  ⟨stFeed .off, by decide⟩

theorem test_HoldUpEntersAndReturns_6 : ∃ (s : State) (k : Fin 8), s.mayControl k [2] = true ∧ s.hold.state = .returnWait :=
  ⟨stSess { stLine false with hold := { State.reset.hold with state := .returnWait } }, 0, by decide⟩

theorem test_HoldUpEntersAndReturns_7 : ∃ (s : State) (k : Fin 8), s.mayControl k [2] = true ∧ s.hold.state = .holdup :=
  ⟨stSess { stLine true with hold := { State.reset.hold with state := .holdup } }, 0, by decide⟩

theorem test_HoldUpEntersAndReturns_8 : ∃ s : State, s.hasActive = true ∧ s.hold.state = .returnWait ∧ s.hold.stateAt + 250000 * s.parN P.HOLD_RETURN_DELAY 0 ≤ s.clk.tick ∧ s.quorum = false :=
  ⟨onTick (2 ^ 60) { (stLine false).setPar P.HOLD_MIN_MODULES 0 1 with hold := { State.reset.hold with state := .returnWait } }, by decide⟩

theorem test_HoldUpEntersAndReturns_9 : ∃ s : State, s.clk.tick < s.hold.stateAt + 250000 * s.parN P.HOLD_RETURN_DELAY 0 :=
  ⟨{ stLine false with hold := { State.reset.hold with state := .returnWait } }, by decide⟩

theorem test_HoldUpEntersAndReturns_10 : ∃ s : State, s.hasActive = true ∧ s.hold.state = .returnWait ∧ s.hold.timerDone = true ∧ s.quorum = true ∧ s.par P.HOLD_HANDBACK 0 = 0 :=
  ⟨{ (stLine false).setPar P.HOLD_MIN_MODULES 0 0 with hold := { State.reset.hold with state := .returnWait, timerDone := true } }, by decide⟩

theorem test_HoldUpEntersAndReturns_11 : ∃ s : State, s.hold.state ≠ .returnWait :=
  ⟨State.reset, by decide⟩

theorem test_WeirEvaluates_1 : ∃ (s : State) (skipped took : Nat), s.hasActive = true ∧ s.par P.WEIR_ENABLE 0 ≠ 0 :=
  ⟨((stFeed .connected).modScope 35 (fun x => { x with grant := some 5000, d := 900000000 })).setPar P.WEIR_ENABLE 0 1, 2, 300, by decide⟩

theorem test_WeirEvaluates_2 : ∃ (s : State) (skipped took : Nat), s.hasActive = true ∧ s.par P.WEIR_ENABLE 0 = 0 :=
  ⟨((stFeed .connected).modScope 35 (fun x => { x with d := 900000000 })).setPar P.WEIR_ENABLE 0 0, 0, 0, by decide⟩

theorem test_WeirEvaluates_3 : ∃ (s : State) (a lim : Nat), s.hasActive = true ∧ s.limitedNodes = [a] ∧ (s.weirNode a).limit = some lim ∧ (s.node a).isOpen = true :=
  ⟨(stNode 5).setPar P.WEIR_NODE_GROUP 5 2 |>.modWeirNode 5 (fun x => { x with limit := some 400 }), 5, 400, by decide⟩

theorem test_WeirEvaluates_4 : ∃ (s : State) (m : Fin 64) (a : Nat), s.hasActive = true ∧ (∀ j : Fin 64, s.memberUsed j = decide (j = m)) ∧ s.parN P.SHARE_MBR_NODE m = a ∧ s.membersOf a = [m] ∧ (s.node a).isOpen = true :=
  ⟨{ stMbr .suspended with nodes := (stNode 5).nodes }, 63, 5, by decide⟩

theorem test_PortTrains_1 : ∃ (s : State) (p : Fin 64) (cls : Nat), s.port[p].state = .train ∧ cls = (if s.par P.PORT_TOPOLOGY p = 1 then 2 else 1) :=
  ⟨stPort .train, 63, 1, by decide⟩

theorem test_PortTrains_2 : ∃ (s : State) (p : Fin 64) (cls : Nat), s.port[p].state = .train ∧ cls ≠ (if s.par P.PORT_TOPOLOGY p = 1 then 2 else 1) :=
  ⟨stPort .train, 63, 2, by decide⟩

theorem test_PortTrains_3 : ∃ (s : State) (p : Fin 64), s.port[p].state = .train ∧ s.held (some s.port[p].trainAt) (s.parN P.PORT_TRAIN_DWELL p * 250000) = true ∧ s.port[p].rate < s.parN P.PORT_RATE_MIN p :=
  ⟨onTick (2 ^ 60) ((stPort .train).setPar P.PORT_RATE_MIN 63 3), 63, by decide⟩

theorem test_PortTrains_4 : ∃ (s : State) (p : Fin 64), s.port[p].state = .train ∧ s.held (some s.port[p].trainAt) (s.parN P.PORT_TRAIN_DWELL p * 250000) = true ∧ s.parN P.PORT_RATE_MIN p ≤ s.port[p].rate :=
  ⟨onTick (2 ^ 60) ((stPort .train).setPar P.PORT_RATE_MIN 63 0), 63, by decide⟩

theorem test_PortTrains_5 : ∃ (s : State) (p : Fin 64), s.held (some s.port[p].trainAt) (s.parN P.PORT_TRAIN_DWELL p * 250000) = false :=
  ⟨stPort .train, 63, by decide⟩

theorem test_PortTrains_6 : ∃ (s : State) (p : Fin 64), s.port[p].state = .up :=
  ⟨stPort .up, 63, by decide⟩

theorem test_PortTrains_7 : ∃ (s : State) (p : Fin 64) (errs : Nat), s.port[p].state = .up ∧ s.parN P.PORT_ERR_LIMIT p < errs :=
  ⟨stPort .up, 63, 100000, by decide⟩

theorem test_PortTrains_8 : ∃ (s : State) (p : Fin 64) (errs : Nat), s.port[p].state = .up ∧ errs ≤ s.parN P.PORT_ERR_LIMIT p :=
  ⟨(stPort .up).setPar P.PORT_ERR_LIMIT 63 5, 63, 5, by decide⟩

theorem test_PortTrains_9 : ∃ (s : State) (p : Fin 64), s.port[p].state = .up ∧ s.par P.PORT_UPSHIFT p = 1 ∧ s.parN P.PORT_RATE_MAX p < s.port[p].rate ∧ s.held (some s.port[p].cleanAt) (s.parN P.PORT_UPSHIFT_TIME p * 250000000) = true :=
  ⟨onTick (2 ^ 60) ((((stPort .up).setPar P.PORT_UPSHIFT 63 1).setPar P.PORT_RATE_MAX 63 0).modPort 63 (fun x => { x with rate := 2 })), 63, by decide⟩

theorem test_PortTrains_10 : ∃ (s : State) (p : Fin 64), s.held (some s.port[p].cleanAt) (s.parN P.PORT_UPSHIFT_TIME p * 250000000) = false :=
  ⟨stPort .up, 63, by decide⟩

theorem test_PortTrains_11 : ∃ (s : State) (p : Fin 64), ((s.port[p].state = .down ∨ s.port[p].state = .fault)) ∧ s.held (some s.port[p].downAt) (s.parN P.PORT_RETRAIN_DELAY p * 250000) = true :=
  ⟨onTick (2 ^ 60) (stPort .fault), 63, by decide⟩

theorem test_PortTrains_12 : ∃ (s : State) (p : Fin 64), ((s.port[p].state = .down ∨ s.port[p].state = .fault)) ∧ s.held (some s.port[p].downAt) (s.parN P.PORT_RETRAIN_DELAY p * 250000) = true :=
  ⟨onTick (2 ^ 60) (stPort .down), 63, by decide⟩

theorem test_PortTrains_13 : ∃ (s : State) (p : Fin 64), s.held (some s.port[p].downAt) (s.parN P.PORT_RETRAIN_DELAY p * 250000) = false :=
  ⟨stPort .down, 63, by decide⟩

theorem test_PortTrains_14 : ∃ (s : State) (p : Fin 64), s.port[p].state = .up ∧ s.held s.port[p].stallAt (s.parN P.PORT_TX_STALL p * 250) = true :=
  ⟨onTick (2 ^ 60) ((stPort .up).modPort 63 (fun x => { x with tx := [frm 1 5 [1, 2]], stallAt := some 0 })), 63, by decide⟩

theorem test_PortTrains_15 : ∃ (s : State) (p : Fin 64), s.held s.port[p].stallAt (s.parN P.PORT_TX_STALL p * 250) = false :=
  ⟨stPort .up, 63, by decide⟩

theorem test_RillFrames_1 : ∃ (s : State) (p : Fin 64) (data : List Byte) (noise age : Nat), s.port[p].state = .up ∧ s.port[p].credit ≠ 0 ∧ s.dual p = false ∧ data.length = 16 + leAt data 2 2 ∧ leAt data 2 2 ≤ 576 ∧ crc32c (data.take (12 + leAt data 2 2)) = leAt data (12 + leAt data 2 2) 4 ∧ ((leAt data 0 1 % 16 = 1 ∨ leAt data 0 1 % 16 = 2)) :=
  ⟨(stPort .up).modPort 63 (fun x => { x with grantTo := 13 }), 63, (frm 1 5 [1, 2, 3, 4, 5, 6, 7, 8]).bytes, 3, 400, by decide +kernel⟩

theorem test_RillFrames_2 : ∃ (s : State) (p : Fin 64) (data : List Byte) (noise age : Nat), s.port[p].state = .up ∧ s.port[p].credit ≠ 0 ∧ data.length = 16 + leAt data 2 2 ∧ leAt data 2 2 ≤ 576 ∧ crc32c (data.take (12 + leAt data 2 2)) ≠ leAt data (12 + leAt data 2 2) 4 :=
  ⟨(stPort .up).modPort 63 (fun x => { x with grantTo := 13 }), 63, (frm 1 5 [1, 2, 3, 4, 5, 6, 7]).bytes.dropLast ++ [255], 3, 400, by decide +kernel⟩

theorem test_RillFrames_3 : ∃ (s : State) (p : Fin 64) (data : List Byte) (e : RxEnd) (noise age : Nat), s.port[p].state = .up ∧ s.port[p].credit = 0 :=
  ⟨stPort .up, 63, [], .abort, 0, 0, by decide⟩

theorem test_RillFrames_4 : ∃ (s : State) (p : Fin 64), s.port[p].state = .up ∧ s.port[p].credit ≠ 0 :=
  ⟨(stPort .up).modPort 63 (fun x => { x with grantTo := 13 }), 63, by decide⟩

theorem test_RillFrames_5 : ∃ (s : State) (p : Fin 64) (cnt notCnt : Fin 256), s.port[p].state = .up ∧ cnt.val + notCnt.val = 255 :=
  ⟨stPort .up, 63, 255, 0, by decide⟩

theorem test_RillFrames_6 : ∃ (s : State) (p : Fin 64) (cnt notCnt : Fin 256), cnt.val + notCnt.val ≠ 255 :=
  ⟨stPort .up, 63, 255, 1, by decide⟩

theorem test_RillFrames_7 : ∃ (s : State) (p : Fin 64) (f : Frame) (fs : List Frame), s.port[p].tx = f :: fs ∧ s.port[p].state = .up ∧ s.port[p].txCredit ≠ 0 :=
  ⟨(stPort .up).modPort 63 (fun x => { x with tx := [frm 1 5 [1, 2]], grantBy := 1 }), 63, frm 1 5 [1, 2], [], by decide⟩

theorem test_RillFrames_8 : ∃ (s : State) (p : Fin 64) (q : RxItem) (qs : List RxItem), s.port[p].rx = q :: qs ∧ q.frame.typ = 0 ∧ q.stamped = false :=
  ⟨(stPort .up).modPort 63 (fun x => { x with rx := [⟨frm 0 5 [], 9, false, false⟩] }), 63, ⟨frm 0 5 [], 9, false, false⟩, [], by decide⟩

theorem test_RillFrames_9 : ∃ (s : State) (p : Fin 64) (q : RxItem) (qs : List RxItem), s.port[p].rx = q :: qs ∧ q.frame.typ = 2 :=
  ⟨(stPort .up).modPort 63 (fun x => { x with rx := [⟨frm 2 5 [], 9, false, false⟩] }), 63, ⟨frm 2 5 [], 9, false, false⟩, [], by decide⟩

theorem test_RillFrames_10 : ∃ (s : State) (m : InMsg) (ms : List InMsg) (p : Fin 64), s.nodes.inbox = m :: ms ∧ m.frame.typ = 2 ∧ m.port = p.val ∧ m.frame.payload.length = 16 ∧ leAt m.frame.payload 0 1 = 1 ∧ s.par P.PORT_TOPOLOGY p = 1 ∧ s.port[p].state = .up :=
  ⟨{ (stPort .up).setPar P.PORT_TOPOLOGY 63 1 with nodes := { State.reset.nodes with inbox := [⟨1, 63, frm 2 0 [1, 0, 7, 0, 0, 0, 0, 0, 0, 0, 0, 0, 0, 0, 0, 0], 0, 1⟩] } }, ⟨1, 63, frm 2 0 [1, 0, 7, 0, 0, 0, 0, 0, 0, 0, 0, 0, 0, 0, 0, 0], 0, 1⟩, [], 63, by decide⟩

theorem test_RillFrames_11 : ∃ (s : State) (p : Fin 64), s.held s.port[p].hubAt 75000000 = true :=
  ⟨onTick (2 ^ 60) ((stPort .up).modPort 63 (fun x => { x with hubAt := some 0 })), 63, by decide⟩

theorem test_RillFrames_12 : ∃ (s : State) (p : Fin 64), s.held s.port[p].hubAt 75000000 = false :=
  ⟨(stPort .up).modPort 63 (fun x => { x with hubAt := some 0 }), 63, by decide⟩

theorem test_PmbusPort_1 : ∃ (s : State) (p : Fin 64) (g : Fin 16), s.port[p].state = .pmbus ∧ s.parN P.PORT_PMB_ADDR (p.val * 16 + g.val) ≠ 0xFF ∧ s.port[p].pmb.targets[g].present = false ∧ s.port[p].pmb.jobs = [] ∧ ((s.port[p].pmb.targets[g].tryAt = none ∨ s.held s.port[p].pmb.targets[g].tryAt 250000000 = true)) :=
  ⟨(stPort .pmbus).setPar P.PORT_PMB_ADDR (63 * 16 + 15) 0x40, 63, 15, by decide⟩

theorem test_PmbusPort_2 : ∃ (s : State) (p : Fin 64), s.port[p].state = .pmbus ∧ s.port[p].pmb.running = true ∧ ((s.port[p].pmb.dueAt = none ∨ s.held s.port[p].pmb.dueAt (s.parN P.PORT_PMB_PERIOD p * 250) = true)) :=
  ⟨(stPort .pmbus).modPmb 63 (fun x => { x with running := true, cycleAt := 0 }), 63, by decide⟩

theorem test_PmbusPort_3 : ∃ (s : State) (p : Fin 64) (data : List Byte) (j : PmbJob) (e : Nat), s.port[p].state = .pmbus ∧ 150 ≤ s.port[p].free ∧ s.port[p].stuck = false ∧ s.port[p].pmb.jobs = [j] ∧ j.why = .poll e ∧ s.port[p].pmb.running = true ∧ s.port[p].pmb.due = true :=
  ⟨(stPort .pmbus).modPmb 63 (fun x => { x with running := true, due := true, cycleAt := 0, jobs := [pmbRead 15 0x8B (.poll 3)] }), 63, [1], pmbRead 15 0x8B (.poll 3), 3, by decide⟩

theorem test_PmbusPort_4 : ∃ (s : State) (p : Fin 64), s.port[p].state = .pmbus ∧ s.port[p].pmb.running = false ∧ ((s.port[p].pmb.dueAt = none ∨ s.held s.port[p].pmb.dueAt (s.parN P.PORT_PMB_PERIOD p * 250) = true)) :=
  ⟨stPort .pmbus, 63, by decide⟩

theorem test_PmbusPort_5 : ∃ (s : State) (p : Fin 64) (data : List Byte) (j : PmbJob) (js : List PmbJob), s.port[p].state = .pmbus ∧ 150 ≤ s.port[p].free ∧ s.port[p].stuck = false ∧ s.port[p].pmb.jobs = j :: js ∧ j.why = .discover 4 :=
  ⟨(stPort .pmbus).modPmb 63 (fun x => { x with jobs := [pmbRead 15 0x9A (.discover 4)] }), 63, [1], pmbRead 15 0x9A (.discover 4), [], by decide⟩

theorem test_PmbusPort_6 : ∃ (s : State) (p : Fin 64) (data : List Byte) (e : PmbEnd) (j : PmbJob) (js : List PmbJob), s.port[p].state = .pmbus ∧ 150 ≤ s.port[p].free ∧ s.port[p].stuck = false ∧ s.port[p].pmb.jobs = j :: js ∧ j.why = .discover 4 ∧ e ≠ .ok ∧ ((e = .pec → s.par P.PORT_PMB_PEC (p.val * 16 + j.target.val) = 1)) :=
  ⟨((stPort .pmbus).modPmb 63 (fun x => { x with jobs := [pmbRead 15 0x9A (.discover 4)] })).setPar P.PORT_PMB_PEC 1023 1, 63, [1], .pec, pmbRead 15 0x9A (.discover 4), [], by decide⟩

theorem test_PmbusPort_7 : ∃ (s : State) (p : Fin 64) (cause : Nat) (rec_ : Bool), s.port[p].state = .pmbus :=
  ⟨stPort .pmbus, 63, 3, false, by decide⟩

theorem test_PmbusPort_8 : ∃ (s : State) (p : Fin 64) (rec_ : Bool), s.port[p].state = .pmbus ∧ s.port[p].stuck = true ∧ s.held (some s.port[p].downAt) (s.parN P.PORT_RETRAIN_DELAY p * 250000) = true :=
  ⟨onTick (2 ^ 60) ((stPort .pmbus).modPort 63 (fun x => { x with stuck := true })), 63, true, by decide⟩

theorem test_PmbusPort_9 : ∃ (s : State) (p : Fin 64) (addr status : Nat) (still : Bool), s.port[p].state = .pmbus ∧ s.port[p].maskAt = none ∧ 150 ≤ s.port[p].free ∧ s.port[p].stuck = false ∧ (∀ g : Fin 16, s.parN P.PORT_PMB_ADDR (p.val * 16 + g.val) ≠ addr) :=
  ⟨stPort .pmbus, 63, 0x10, 65535, true, by decide⟩

theorem test_PmbusPort_10 : ∃ (s : State) (p : Fin 64), s.held s.port[p].maskAt 250000000 = true :=
  ⟨onTick (2 ^ 60) ((stPort .pmbus).modPort 63 (fun x => { x with maskAt := some 0 })), 63, by decide⟩

theorem test_PmbusPort_11 : ∃ (s : State) (p : Fin 64), s.held s.port[p].maskAt 250000000 = false :=
  ⟨(stPort .pmbus).modPort 63 (fun x => { x with maskAt := some 0 }), 63, by decide⟩

theorem test_NodeConversations_1 : ∃ (s : State) (m : InMsg) (ms : List InMsg), s.hasActive = true ∧ s.nodes.inbox = m :: ms ∧ m.frame.typ = 1 ∧ m.isOpenReq = true ∧ m.flags = 2 ∧ m.body.length = 16 ∧ (s.node m.addr).isOpen = false ∧ s.openRefusal m.addr m.body = 0 :=
  ⟨{ stNode 5 with nodes := { (stNode 5).nodes with sess := [], bootGen := 3, inbox := [⟨5, 0, { frm 1 5 ([1, 2] ++ leBytes 6 0 ++ [255, 1] ++ leBytes 2 0 ++ leBytes 12 7) with seq := 99 }, 0, 1⟩] } }.setPar P.NODE_CLASS 5 255, ⟨5, 0, { frm 1 5 ([1, 2] ++ leBytes 6 0 ++ [255, 1] ++ leBytes 2 0 ++ leBytes 12 7) with seq := 99 }, 0, 1⟩, [], by decide⟩

theorem test_NodeConversations_2 : ∃ (s : State) (m : InMsg) (ms : List InMsg), s.hasActive = true ∧ s.nodes.inbox = m :: ms ∧ m.frame.typ = 1 ∧ m.isOpenReq = false ∧ (s.node m.addr).isOpen = true ∧ m.frame.epoch = (s.node m.addr).epoch ∧ seqNewer m.frame.seq (s.node m.addr).rxSeq = true ∧ m.flags = 1 ∧ [1, 3, 4, 0x10, 0x11, 0x12, 0x20, 0x21, 0x22, 0x23].contains m.op = true :=
  ⟨{ stNode 5 with nodes := { (stNode 5).nodes with inbox := [⟨5, 0, { frm 1 5 ([3, 1] ++ leBytes 6 0) with seq := 4294967295, epoch := 9 }, 0, 1⟩], sess := [(5, { NodeSess.none with isOpen := true, epoch := 9, rxSeq := 4294967294, win := 1 })] } }, ⟨5, 0, { frm 1 5 ([3, 1] ++ leBytes 6 0) with seq := 4294967295, epoch := 9 }, 0, 1⟩, [], by decide⟩

theorem test_NodeConversations_3 : ∃ (s : State) (m : InMsg) (ms : List InMsg), s.hasActive = true ∧ s.nodes.inbox = m :: ms ∧ m.frame.typ = 1 ∧ m.isOpenReq = false ∧ m.frame.epoch ≠ (s.node m.addr).epoch :=
  ⟨{ stNode 5 with nodes := { (stNode 5).nodes with inbox := [⟨5, 0, { frm 1 5 ([3, 1] ++ leBytes 6 0) with seq := 1, epoch := 8 }, 0, 1⟩] } }, ⟨5, 0, { frm 1 5 ([3, 1] ++ leBytes 6 0) with seq := 1, epoch := 8 }, 0, 1⟩, [], by decide⟩

theorem test_NodeConversations_4 : ∃ (s : State) (m : InMsg) (ms : List InMsg) (r : NodeReq), s.hasActive = true ∧ s.nodes.replies = m :: ms ∧ (s.node m.addr).req = some r ∧ r.seq = leAt m.frame.payload 4 4 ∧ m.frame.epoch = (s.node m.addr).epoch ∧ r.who = .action ∧ (s.node m.addr).waiting = [] :=
  ⟨{ stNode 5 with nodes := { (stNode 5).nodes with replies := [⟨5, 0, { frm 1 5 ([0x20, 1] ++ leBytes 2 0 ++ leBytes 4 7) with epoch := 9 }, 0, 1⟩], sess := [(5, { NodeSess.none with isOpen := true, epoch := 9, req := some ⟨0x20, 7, 1, [], .action, 0⟩ })] } }, ⟨5, 0, { frm 1 5 ([0x20, 1] ++ leBytes 2 0 ++ leBytes 4 7) with epoch := 9 }, 0, 1⟩, [], ⟨0x20, 7, 1, [], .action, 0⟩, by decide⟩

theorem test_NodeConversations_5 : ∃ (s : State) (a : Nat) (r : NodeReq), s.hasActive = true ∧ (s.node a).req = some r ∧ s.held (some r.sentAt) (s.parN P.NODE_RETX_TIME 0 * 250) = true ∧ r.resends < s.parN P.NODE_RETX_MAX 0 :=
  ⟨onTick (2 ^ 60) <| { stNode 5 with nodes := { (stNode 5).nodes with sess := [(5, { NodeSess.none with isOpen := true, epoch := 9, req := some ⟨0x20, 7, 0, [], .action, 0⟩ })] } }.setPar P.NODE_RETX_MAX 0 3, 5, ⟨0x20, 7, 0, [], .action, 0⟩, by decide⟩

theorem test_NodeConversations_6 : ∃ (s : State) (a : Nat), s.hasActive = true ∧ (s.node a).isOpen = true ∧ s.held (some (s.node a).lastRx) (s.parN P.NODE_LEASE a * 250000) = true :=
  ⟨onTick (2 ^ 60) (stNode 5), 5, by decide⟩

theorem test_NodeConversations_7 : ∃ (s : State) (a : Nat) (k : Fin 8), isNode a = true ∧ s.mayControl k [8 + a / 32] = true ∧ (s.node a).isOpen = true :=
  ⟨stSess (stNode 5), 5, 0, by decide⟩

theorem test_NodeConversations_8 : ∃ (s : State) (a : Nat), s.held (some (s.node a).lastRx) (s.parN P.NODE_LEASE a * 250000) = false :=
  ⟨stNode 5, 5, by decide⟩

theorem test_NodeConversations_9 : ∃ (s : State) (a : Nat), s.hasActive = true ∧ (s.node a).isOpen = true ∧ s.held (some (s.node a).lastTx) (s.parN P.NODE_LEASE a * 62500) = true :=
  ⟨onTick (2 ^ 60) (stNode 5), 5, by decide⟩

theorem test_PoolAdmits_1 : ∃ (s : State) (i : Fin 3) (pt v time : Nat) (fs : List (List (Nat × Nat × Nat))) (k : Nat), s.hasActive = true ∧ s.slu.stalled[(1 : Fin 6)] = false ∧ s.silt.full = false ∧ s.pool.events.length < 4096 ∧ s.pool.ptr = 64 + i.val ∧ s.pool.src[i] = [(pt, v, time)] :: fs ∧ s.srcSlot i.val pt = some k ∧ s.sluiceRoom 1 1 = true :=
  ⟨stPool, 2, 9, 4000000000, 77, [[(1, 2, 3)]], 131000, by decide⟩

theorem test_PoolAdmits_2 : ∃ (s : State) (i : Fin 3) (f : List (Nat × Nat × Nat)) (fs : List (List (Nat × Nat × Nat))), s.hasActive = true ∧ s.slu.stalled[(1 : Fin 6)] = false ∧ s.silt.full = false ∧ s.pool.events.length + f.length ≤ 4096 ∧ s.pool.ptr = 64 + i.val ∧ s.pool.src[i] = f :: fs ∧ s.sluiceRoom 1 f.length = false :=
  ⟨{ stPool with slu := { stPool.slu with used := stPool.slu.used.set 1 1000000 } }, 2, [(9, 4000000000, 77)], [[(1, 2, 3)]], by decide⟩

theorem test_PoolAdmits_3 : ∃ s : State, s.hasActive = false :=
  ⟨State.reset, by decide⟩

theorem test_PoolActsAndScrubs_1 : ∃ (s : State) (a : PoolAct) (as : List PoolAct) (l : Fin 16), s.hasActive = true ∧ s.pool.acts = a :: as ∧ a.code = 2 ∧ a.arg % 16 = l.val ∧ s.loop[l].ct.state = .running :=
  ⟨{ (stFeed .off).modCt 15 (fun c => { c with state := .running }) with pool := { State.reset.pool with acts := [⟨2, 15, 8⟩] } }, ⟨2, 15, 8⟩, [], 15, by decide⟩

theorem test_PoolActsAndScrubs_2 : ∃ (s : State) (a : PoolAct) (as : List PoolAct) (n : Nat), s.hasActive = true ∧ s.pool.acts = a :: as ∧ a.code = 3 ∧ a.arg % 65536 = n ∧ (s.node n).isOpen = true ∧ (s.node n).req = none :=
  ⟨{ stNode 5 with pool := { State.reset.pool with acts := [⟨3, 5, 8⟩] } }, ⟨3, 5, 8⟩, [], 5, by decide⟩

theorem test_PoolActsAndScrubs_3 : ∃ s : State, s.hasActive = true ∧ s.sluiceSpent 2 = false :=
  ⟨{ stFeed .off with pool := { State.reset.pool with events := [⟨1, 2, 0, 1, 3, 4, [7]⟩] } }, by decide⟩

theorem test_PoolActsAndScrubs_4 : ∃ s : State, True :=
  ⟨State.reset, by decide⟩

theorem test_PoolActsAndScrubs_5 : ∃ (s : State) (k : Fin 2) (w : Nat), s.stemOk k = true :=
  ⟨stFeed .off, 0, 12345, by decide⟩

theorem test_PoolActsAndScrubs_6 : ∃ (s : State) (k : Fin 2) (w : Nat) (subs : List Nat) (hand : Bool), s.stemOk k = true ∧ s.stemOk (1 - k) = true :=
  ⟨stBoth, 1, 12345, [], true, by decide⟩

theorem test_RecordSequences_1 : ∃ (s : State) (e : LogEv) (es : List LogEv), s.evq = e :: es ∧ s.hasActive = true ∧ s.silt.full = false ∧ s.silt.next ≤ 4294705151 :=
  ⟨{ stFeed .off with evq := [⟨0x0D01, 1, 2, 3⟩], silt := { State.reset.silt with next := 4294705151 } }, ⟨0x0D01, 1, 2, 3⟩, [], by decide⟩

theorem test_RecordSequences_2 : ∃ (s : State) (r : SRec) (rs : List SRec), s.silt.queue = r :: rs ∧ s.hasActive = true ∧ s.brownWarn = false ∧ s.slu.stalled[(3 : Fin 6)] = false ∧ s.sluiceRoom 3 1 = true ∧ s.storeOwes = false ∧ s.savedHeld = false :=
  ⟨{ stFeed .off with silt := { State.reset.silt with queue := [⟨0, 0x401, 3, 786433, 5, 6, 0⟩] } }, ⟨0, 0x401, 3, 786433, 5, 6, 0⟩, [], by decide⟩

theorem test_RecordSequences_3 : ∃ (s : State) (q : Nat × Nat) (qs : List (Nat × Nat)), s.silt.tallyDue = q :: qs ∧ s.hasActive = true ∧ s.brownWarn = false ∧ ((s.silt.ledgerDue = false ∨ s.silt.ledgerAfter ≠ 0)) :=
  ⟨{ stFeed .off with silt := { State.reset.silt with tallyDue := [(786433, 65535)] } }, (786433, 65535), [], by decide⟩

theorem test_LedgerAndLogReads_1 : ∃ s : State, s.dev.held = false ∧ s.dev.state ≠ .dormant ∧ (((s.brownWarn = false ∧ (s.silt.ledgerDue = true ∨ s.ledgerOld = true) ∧ s.ledgerNeed.silt.ledgerAfter = 0) ∨ (s.brownWarn = true ∧ s.silt.ledgerWarn = true))) :=
  ⟨onTick 2500000000 { stFeed .off with dev := { (stFeed .off).dev with held := false, state := .run } }, by decide⟩

theorem test_LedgerAndLogReads_2 : ∃ s : State, s.dev.held = false ∧ s.dev.state ≠ .dormant ∧ (((s.brownWarn = false ∧ (s.silt.ledgerDue = true ∨ s.ledgerOld = true) ∧ s.ledgerNeed.silt.ledgerAfter = 0) ∨ (s.brownWarn = true ∧ s.silt.ledgerWarn = true))) :=
  ⟨{ stFeed .off with dev := { (stFeed .off).dev with held := false, state := .run }, power := { (stFeed .off).power with brown := .warn }, silt := { State.reset.silt with ledgerWarn := true } }, by decide⟩

theorem test_LedgerAndLogReads_3 : ∃ s : State, (((s.brownWarn = false ∧ s.silt.ledgerDue = false ∧ s.ledgerOld = false) ∨ (s.brownWarn = true ∧ s.silt.ledgerWarn = false))) :=
  ⟨stFeed .off, by decide⟩

theorem test_LedgerAndLogReads_4 : ∃ (s : State) (p : Fin 4) (v : Nat), s.hostUp = true ∧ v ≤ 4294705151 :=
  ⟨stPorts, 3, 4294705151, by decide⟩

theorem test_LedgerAndLogReads_5 : ∃ (s : State) (p : Fin 4) (v : Nat), ((s.hostUp = false ∨ 4294705151 < v)) :=
  ⟨State.reset, 3, 4294705152, by decide⟩

theorem test_LedgerAndLogReads_6 : ∃ (s : State) (p : Fin 4), s.hostUp = true ∧ s.dev.nvOn = true :=
  ⟨stPorts, 3, by decide⟩

theorem test_LedgerAndLogReads_7 : ∃ (s : State) (p : Fin 4), s.hostUp = true ∧ s.dev.nvOn = true :=
  ⟨stPorts.modHp 3 (fun x => { x with auto := true, latched := true, latch := 0, cursor := 4294705151 }), 3, by decide⟩

theorem test_LedgerAndLogReads_8 : ∃ (s : State) (k : Fin 8), s.mayControl k [4] = true ∧ (s.sess k).role = 1 :=
  ⟨stSess (stFeed .off) |>.modSess 0 (fun x => { x with role := 1 }), 0, by decide⟩

theorem test_LedgerAndLogReads_9 : ∃ (s : State) (k : Fin 8), s.hasActive = true ∧ (s.sess k).role ≠ 1 ∧ s.brownWarn = false :=
  ⟨stSess (stFeed .off), 0, by decide⟩

theorem test_SpateCaptures_1 : ∃ s : State, s.hasActive = true ∧ s.par P.SPATE_ENABLE 0 ≠ 0 ∧ s.spate.buf[(0 : Fin 2)].st = .running ∧ s.clk.tick % s.spate.buf[(0 : Fin 2)].every = 0 ∧ s.spate.buf[(0 : Fin 2)].frames.length < s.spate.buf[(0 : Fin 2)].depth :=
  ⟨stSpate { SpBuf.reset with st := .running, sig := [0x07000000] }, by decide⟩

theorem test_SpateCaptures_2 : ∃ s : State, s.spate.buf[(0 : Fin 2)].st = .running ∧ s.clk.tick % s.spate.buf[(0 : Fin 2)].every ≠ 0 :=
  ⟨onTick 1 (stSpate { SpBuf.reset with st := .running, sig := [0x07000000] }), by decide⟩

theorem test_SpateCaptures_3 : ∃ (s : State) (q : SpTrig), s.hasActive = true ∧ s.par P.SPATE_ENABLE 0 ≠ 0 ∧ s.spate.trigs = [q] ∧ q.code < 7 ∧ s.trigTaken q = true ∧ s.spate.buf[(0 : Fin 2)].st = .running :=
  ⟨{ stSpate { SpBuf.reset with st := .running, sig := [0x07000000] } with spate := { (stSpate { SpBuf.reset with st := .running, sig := [0x07000000] }).spate with trigs := [⟨0, 0, 5, 6⟩] } }, ⟨0, 0, 5, 6⟩, by decide⟩

theorem test_SpateCaptures_4 : ∃ s : State, s.hasActive = true ∧ s.spate.buf[(0 : Fin 2)].st = .post ∧ s.slotLocked s.spate.next = false ∧ s.spate.buf[(0 : Fin 2)].complete = true :=
  ⟨stSpate { SpBuf.reset with st := .post, sig := List.replicate 16 0x07000000, frames := List.replicate 4032 (0, []) }, by decide +kernel⟩

theorem test_SpateCaptures_5 : ∃ (s : State) (b : Fin 2) (rest : List (Fin 2)) (k : Fin 48), s.hasActive = true ∧ s.brownWarn = false ∧ s.slu.stalled[(4 : Fin 6)] = false ∧ s.sluiceRoom 4 1 = true ∧ s.storeOwes = false ∧ s.spate.order = b :: rest ∧ s.spate.buf[b].slot = some k ∧ 0 < s.spate.buf[b].blk ∧ s.spate.buf[b].blk < 8064 :=
  ⟨{ stSpate { SpBuf.reset with st := .frozen, sig := [0x07000000], slot := some 47, blk := 3 } with spate := { (stSpate { SpBuf.reset with st := .frozen, sig := [0x07000000], slot := some 47, blk := 3 }).spate with order := [0] } }, 0, [], 47, by decide⟩

theorem test_SpateCaptures_6 : ∃ (s : State) (k : Fin 8), s.mayControl k [0] = true :=
  ⟨stSess (stFeed .off), 0, by decide⟩

theorem test_SpateCaptures_7 : ∃ (s : State) (n : Fin 48) (k : Fin 8), s.mayControl k [4] = true :=
  ⟨stSess (stFeed .off), 47, 0, by decide⟩

theorem test_SpateCaptures_8 : ∃ (s : State) (n : Fin 48) (k : Fin 8), s.mayControl k [4] = true :=
  ⟨stSess (stFeed .off), 47, 0, by decide⟩

theorem test_TimersCount_1 : ∃ (s : State) (n : Fin 32), s.dev.held = false ∧ s.timer[n].running = true ∧ s.timer[n].phase + s.timer[n].prescale ≤ s.clk.tick ∧ s.timer[n].cmpEn = false :=
  ⟨onTick 2500 (stPorts.modTimer 31 (fun x => { x with running := true, count := 9, reload := 9, prescale := 2500 })), 31, by decide⟩

theorem test_TimersCount_2 : ∃ (s : State) (n : Fin 32), s.dev.held = false ∧ s.timer[n].running = true ∧ s.timer[n].phase + s.timer[n].prescale ≤ s.clk.tick ∧ s.timer[n].cmpEn = true ∧ s.timer[n].count < s.timer[n].reload ∧ s.timer[n].cmp = s.timer[n].count + 1 :=
  ⟨onTick 2500 (stPorts.modTimer 31 (fun x => { x with running := true, count := 7, reload := 9, prescale := 2500, cmpEn := true, cmp := 8, interval := 5 })), 31, by decide⟩

theorem test_TimersCount_3 : ∃ (s : State) (n : Fin 32), ((s.dev.held = true ∨ s.timer[n].running = false ∨ s.clk.tick < s.timer[n].phase + s.timer[n].prescale)) :=
  ⟨stPorts, 31, by decide⟩

theorem test_TimersCount_4 : ∃ (s : State) (n : Fin 32), ((s.dev.held = true ∨ s.timer[n].running = false ∨ s.clk.tick < s.timer[n].phase + s.timer[n].prescale)) :=
  ⟨onTick 2499 (stPorts.modTimer 31 (fun x => { x with running := true, prescale := 2500 })), 31, by decide⟩

theorem test_TimersCount_5 : ∃ (s : State) (n : Fin 32) (k : Fin 8), s.mayControl k [0] = true :=
  ⟨stPorts, 31, 0, by decide⟩

theorem test_TimersCount_6 : ∃ (s : State) (n : Fin 32) (k : Fin 8), s.mayControl k [0] = true :=
  ⟨stPorts, 31, 0, by decide⟩

theorem test_TimersCount_7 : ∃ (s : State) (n : Fin 32) (k : Fin 8), s.mayControl k [0] = true :=
  ⟨stPorts, 31, 0, by decide⟩

theorem test_TimersCount_8 : ∃ (s : State) (n : Fin 32) (at_ : Nat) (w : TimerWrite) (ws : List (Nat × TimerWrite)), s.dev.held = false ∧ s.timer[n].writes = (at_, w) :: ws ∧ at_ ≤ s.clk.tick ∧ (∀ q ∈ ws, s.clk.tick < q.1) ∧ ((s.timer[n].running = false ∨ s.clk.tick < s.timer[n].phase + s.timer[n].prescale)) :=
  ⟨onTick 250 (stPorts.modTimer 31 (fun x => { x with count := 9, writes := [(250, .clear), (251, .start)] })), 31, 250, .clear, [(251, .start)], by decide⟩

theorem test_TimersCount_9 : ∃ (s : State) (n : Fin 32) (at_ : Nat) (w : TimerWrite) (ws : List (Nat × TimerWrite)), s.dev.held = false ∧ s.timer[n].writes = (at_, w) :: ws ∧ at_ ≤ s.clk.tick ∧ (∀ q ∈ ws, s.clk.tick < q.1) ∧ ((s.timer[n].running = false ∨ s.clk.tick < s.timer[n].phase + s.timer[n].prescale)) :=
  ⟨onTick 250 (stPorts.modTimer 31 (fun x => { x with running := true, prescale := 2500, writes := [(250, .stop)] })), 31, 250, .stop, [], by decide⟩

theorem test_TimersCount_10 : ∃ (s : State) (n : Fin 32), (∀ q ∈ s.timer[n].writes, s.clk.tick < q.1) ∧ ((s.timer[n].running = false ∨ s.clk.tick < s.timer[n].phase + s.timer[n].prescale)) :=
  ⟨onTick 249 (stPorts.modTimer 31 (fun x => { x with count := 9, writes := [(250, .clear), (251, .start)] })), 31, by decide⟩

theorem test_TimersCount_11 : ∃ (s : State) (n : Fin 32) (src : Fin 51) (falling : Bool) (held : Nat), s.dev.held = false ∧ 1 ≤ src.val ∧ src.val ≤ 16 ∧ s.timer[n].src = src.val ∧ ((s.timer[n].edge = 2 ∨ s.timer[n].edge = b2n falling)) ∧ s.timer[n].filt ≤ held ∧ s.timer[n].recog = [] ∧ s.timer[n].queue.length < 4 :=
  ⟨stPorts.modTimer 31 (fun x => { x with src := 16, edge := 1, filt := 10, count := 6 }), 31, 16, true, 10, by decide⟩

theorem test_TimersCount_12 : ∃ (s : State) (n : Fin 32) (src : Fin 51) (falling : Bool) (held : Nat), s.dev.held = false ∧ 1 ≤ src.val ∧ src.val ≤ 16 ∧ s.timer[n].src = src.val ∧ ((s.timer[n].edge = 2 ∨ s.timer[n].edge = b2n falling)) ∧ s.timer[n].filt ≤ held ∧ s.timer[n].recog = [] ∧ 4 ≤ s.timer[n].queue.length :=
  ⟨stPorts.modTimer 31 (fun x => { x with src := 16, edge := 1, filt := 10, count := 6, queue := List.replicate 4 ⟨0, 0, 16⟩ }), 31, 16, true, 10, by decide⟩

theorem test_StemsFail_1 : ∃ (s : State) (k : Fin 2) (count : Nat), s.stemSt k ≠ .off ∧ s.stemSt k ≠ .failed :=
  ⟨stBoth, 1, 7, by decide⟩

theorem test_StemsFail_2 : ∃ (s : State) (k : Fin 2), s.stemSt k = .standby ∧ (s.stems.stem[k]).silent s.clk.tick = true ∧ s.stemSt (1 - k) = .active :=
  ⟨onTick 375 stBoth, 1, by decide⟩

theorem test_StemsFail_3 : ∃ (s : State) (k : Fin 2), (s.stems.stem[k]).silent s.clk.tick = false :=
  ⟨stBoth, 1, by decide⟩

theorem test_StemsFail_4 : ∃ (s : State) (k : Fin 2), s.stemSt k = .active ∧ (s.stems.stem[k]).silent s.clk.tick = true ∧ s.stemSt (1 - k) = .standby :=
  ⟨onTick 375 stBoth, 0, by decide⟩

theorem test_StemsFail_5 : ∃ (s : State) (k : Fin 2), s.stemSt k = .active ∧ (s.stems.stem[k]).silent s.clk.tick = true ∧ s.stemSt (1 - k) ≠ .standby :=
  ⟨onTick 375 (stFeed .off), 0, by decide⟩

theorem test_StemsFail_6 : ∃ (s : State) (k : Fin 2) (kind : Nat) (l : Fin 16), s.stemSt k = .standby ∧ s.stemSt (1 - k) = .active ∧ 0 < kind ∧ kind ≤ 9 :=
  ⟨stBoth, 1, 9, 15, by decide⟩

theorem test_StemsFail_7 : ∃ (s : State) (k : Fin 2) (l : Fin 16), s.stemSt k = .active ∧ s.stemSt (1 - k) ≠ .standby :=
  ⟨stFeed .off, 0, 15, by decide⟩

theorem test_StemsFail_8 : ∃ (s : State) (k : Fin 2), s.stemSt k = .standby ∧ s.stemSt (1 - k) = .active ∧ s.firm.trialSlot = none :=
  ⟨stBoth, 1, by decide⟩

theorem test_StemsFail_9 : ∃ (s : State) (k : Fin 2), s.stemOk k = true ∧ s.firm.trialSlot.isSome = true :=
  ⟨{ stFeed .off with firm := { State.reset.firm with trialSlot := some 1 } }, 0, by decide⟩

theorem test_StemsFail_10 : ∃ (s : State) (k : Fin 2) (g : Fin 5) (n : Nat) (bits : List Byte), s.stemSt k = .active ∧ s.redundant = false ∧ s.agreeing = false :=
  ⟨stFeed .off, 0, 4, 12, [7], by decide⟩

theorem test_StemsFail_11 : ∃ (s : State) (k : Fin 2) (g : Fin 5) (n : Nat) (bits : List Byte), s.redundant = true ∧ s.stems.waiting = [] :=
  ⟨stBoth, 1, 4, 12, [7], by decide⟩

theorem test_StemsFail_12 : ∃ (s : State) (k : Fin 2) (g : Fin 5) (n : Nat) (bits : List Byte) (o : OutCopy) (os : List OutCopy), s.redundant = true ∧ s.stems.waiting = o :: os ∧ o.stem = 1 - k ∧ o.group = g ∧ o.oseq = n ∧ o.bits = bits :=
  ⟨{ stBoth with stems := { stBoth.stems with waiting := [⟨0, 3, 12, [7], 0⟩] } }, 1, 3, 12, [7], ⟨0, 3, 12, [7], 0⟩, [], by decide⟩

theorem test_StemsFail_13 : ∃ (s : State) (k : Fin 2) (g : Fin 5) (n : Nat) (bits : List Byte) (o : OutCopy) (os : List OutCopy), s.redundant = true ∧ s.stems.waiting = o :: os ∧ o.stem = 1 - k ∧ o.group = g ∧ o.oseq = n ∧ o.bits ≠ bits ∧ s.stems.doubt = none :=
  ⟨{ stBoth with stems := { stBoth.stems with waiting := [⟨0, 3, 12, [7], 0⟩] } }, 1, 3, 12, [8], ⟨0, 3, 12, [7], 0⟩, [], by decide⟩

theorem test_StemsFail_14 : ∃ (s : State) (o : OutCopy) (os : List OutCopy), s.redundant = true ∧ s.stems.waiting = o :: os ∧ s.stemSt o.stem = .active ∧ o.at_ + 375 ≤ s.clk.tick ∧ s.stems.doubt = none :=
  ⟨onTick 375 { stBoth with stems := { stBoth.stems with waiting := [⟨0, 3, 12, [7], 0⟩] } }, ⟨0, 3, 12, [7], 0⟩, [], by decide⟩

theorem test_StemsFail_15 : ∃ (s : State) (g kind n at_ : Nat) (j : Fin 2), s.pending = [] ∧ s.clk.dlRef = true ∧ s.stems.doubt = some (g, kind, n, at_) ∧ at_ + 500 ≤ s.clk.tick + 1 ∧ s.stemSt j = .standby ∧ s.stemSt (1 - j) = .active :=
  ⟨{ onTick 499 stBoth with clk := { (onTick 499 stBoth).clk with dlRef := true }, stems := { stBoth.stems with doubt := some (3, 1, 12, 0) } }, 3, 1, 12, 0, 1, by decide⟩

theorem test_StemsFail_16 : ∃ (s : State) (o : OutCopy) (os : List OutCopy), s.stems.waiting = o :: os ∧ s.clk.tick < o.at_ + 375 :=
  ⟨{ stBoth with stems := { stBoth.stems with waiting := [⟨0, 3, 12, [7], 0⟩] } }, ⟨0, 3, 12, [7], 0⟩, [], by decide⟩

theorem test_StemsFail_17 : ∃ (s : State) (o : OutCopy) (os : List OutCopy), s.redundant = true ∧ s.stems.waiting = o :: os ∧ s.stemSt o.stem = .standby ∧ o.at_ + 375 ≤ s.clk.tick :=
  ⟨onTick 375 { stBoth with stems := { stBoth.stems with waiting := [⟨1, 3, 12, [7], 0⟩] } }, ⟨1, 3, 12, [7], 0⟩, [], by decide⟩

theorem test_StemsFail_18 : ∃ (s : State) (link : Fin 6) (n : Fin 4), s.hasActive = true ∧ n ≠ 3 :=
  ⟨stBoth, 5, 2, by decide⟩

theorem test_StemsFail_19 : ∃ (s : State) (link : Fin 6), s.hasActive = true :=
  ⟨stBoth, 5, by decide⟩

theorem test_StemsResynchronise_1 : ∃ (s : State) (k : Fin 2), s.stemSt k = .boot ∧ s.stemSt (1 - k) = .boot :=
  ⟨{ State.reset with stems := { State.reset.stems with stem := upd (upd State.reset.stems.stem 0 (fun x => { x with st := .boot })) 1 (fun x => { x with st := .boot }) } }, 1, by decide⟩

theorem test_StemsResynchronise_2 : ∃ (s : State) (k : Fin 2), s.stemSt k = .boot ∧ s.stemSt (1 - k) = .active :=
  ⟨stBoth.modStem 1 (fun x => { x with st := .boot }), 1, by decide⟩

theorem test_StemsResynchronise_3 : ∃ (s : State) (k : Fin 2), s.stemSt k = .boot ∧ (s.stemSt (1 - k) = .off ∨ s.stemSt (1 - k) = .failed) :=
  ⟨State.reset.modStem 1 (fun x => { x with st := .boot }), 1, by decide⟩

theorem test_StemsResynchronise_4 : ∃ (s : State) (k : Fin 2), s.stemSt k = .failed ∧ s.stems.stem[k].hot = false ∧ s.stems.stem[k].low = false ∧ s.stems.stem[k].restarts.length < s.parN P.STEM_RESTART_MAX 0 :=
  ⟨(stBoth.modStem 1 (fun x => { x with st := .failed, restarts := [0] })).setPar P.STEM_RESTART_MAX 0 2, 1, by decide⟩

theorem test_StemsResynchronise_5 : ∃ (s : State) (k : Fin 2), s.stemSt k = .failed ∧ s.stems.stem[k].hot = false ∧ s.stems.stem[k].low = false ∧ (∀ q ∈ s.stems.stem[k].restarts, s.clk.tick < q + 900000000000) ∧ s.parN P.STEM_RESTART_MAX 0 ≤ s.stems.stem[k].restarts.length :=
  ⟨(stBoth.modStem 1 (fun x => { x with st := .failed, restarts := [0] })).setPar P.STEM_RESTART_MAX 0 1, 1, by decide⟩

theorem test_StemsResynchronise_6 : ∃ (s : State) (r : SyncRun), s.stems.sync = some r ∧ r.stage < 3 ∧ s.sluiceSpent 5 = false :=
  ⟨{ stBoth with stems := { stBoth.stems with sync := some ⟨0, 2, 2, 0, 0⟩ } }, ⟨0, 2, 2, 0, 0⟩, by decide⟩

theorem test_StemsResynchronise_7 : ∃ (s : State) (r : SyncRun) (dirty : Bool), s.stems.sync = some r ∧ s.sluiceSpent 5 = false ∧ r.stage < 4 ∧ ((dirty = false ∨ r.stage = 3)) :=
  ⟨{ stBoth with stems := { stBoth.stems with sync := some ⟨0, 3, 3, 0, 0⟩ } }, ⟨0, 3, 3, 0, 0⟩, false, by decide⟩

theorem test_StemsResynchronise_8 : ∃ (s : State) (r : SyncRun) (dirty : Bool), s.stems.sync = some r ∧ s.sluiceSpent 5 = true :=
  ⟨{ stBoth with stems := { stBoth.stems with sync := some ⟨0, 3, 3, 0, 0⟩ }, slu := { stBoth.slu with used := stBoth.slu.used.set 5 1000000 } }, ⟨0, 3, 3, 0, 0⟩, false, by decide⟩

theorem test_StemsResynchronise_9 : ∃ (s : State) (r : SyncRun), s.stems.sync = some r ∧ s.sluiceSpent 5 = false ∧ r.stage = 5 :=
  ⟨{ stBoth with stems := { stBoth.stems with sync := some ⟨0, 5, 3, 2, 0⟩ } }, ⟨0, 5, 3, 2, 0⟩, by decide⟩

theorem test_StemsResynchronise_10 : ∃ (s : State) (r : SyncRun) (k : Fin 2) (m : Nat), s.stems.sync = some r ∧ s.sluiceSpent 5 = false ∧ r.stage = 5 ∧ 2 ≤ r.rounds ∧ 0 < m ∧ s.stemOf .sync = some k :=
  ⟨{ stBoth.modStem 1 (fun x => { x with st := .sync }) with stems := { (stBoth.modStem 1 (fun x => { x with st := .sync })).stems with sync := some ⟨0, 5, 3, 2, 0⟩ } }, ⟨0, 5, 3, 2, 0⟩, 1, 4, by decide⟩

theorem test_StemsResynchronise_11 : ∃ (s : State) (r : SyncRun) (k : Fin 2), s.stems.sync = some r ∧ r.stage = 6 ∧ r.agreeAt + 250000 ≤ s.clk.tick ∧ s.stemOf .sync = some k :=
  ⟨onTick 250000 { stBoth.modStem 1 (fun x => { x with st := .sync }) with stems := { (stBoth.modStem 1 (fun x => { x with st := .sync })).stems with sync := some ⟨0, 6, 3, 1, 0⟩ } }, ⟨0, 6, 3, 1, 0⟩, 1, by decide⟩

theorem test_StemsResynchronise_12 : ∃ (s : State) (r : SyncRun), s.stems.sync = some r ∧ ((r.stage ≠ 6 ∨ s.clk.tick < r.agreeAt + 250000)) :=
  ⟨onTick 249999 { stBoth.modStem 1 (fun x => { x with st := .sync }) with stems := { (stBoth.modStem 1 (fun x => { x with st := .sync })).stems with sync := some ⟨0, 6, 3, 1, 0⟩ } }, ⟨0, 6, 3, 1, 0⟩, by decide⟩

theorem test_StemsResynchronise_13 : ∃ (s : State) (r : SyncRun), s.stems.sync = some r ∧ s.clk.tick < r.startAt + 10000000 :=
  ⟨onTick 9999999 { stBoth.modStem 1 (fun x => { x with st := .sync }) with stems := { (stBoth.modStem 1 (fun x => { x with st := .sync })).stems with sync := some ⟨0, 6, 3, 1, 0⟩ } }, ⟨0, 6, 3, 1, 0⟩, by decide⟩

theorem test_StemsResynchronise_14 : ∃ (s : State) (r : SyncRun) (k : Fin 2), s.stems.sync = some r ∧ r.startAt + 10000000 ≤ s.clk.tick ∧ s.stemOf .sync = some k :=
  ⟨onTick 10000000 { stBoth.modStem 1 (fun x => { x with st := .sync }) with stems := { (stBoth.modStem 1 (fun x => { x with st := .sync })).stems with sync := some ⟨0, 6, 3, 1, 0⟩ } }, ⟨0, 6, 3, 1, 0⟩, 1, by decide⟩

theorem test_StemsResynchronise_15 : ∃ (s : State) (cause kind n : Nat), s.stems.input = some (cause, kind, n) :=
  ⟨{ stFeed .off with stems := { (stFeed .off).stems with input := some (2, 0, 77) } }, 2, 0, 77, by decide⟩

theorem test_StemsResynchronise_16 : ∃ (s : State) (k : Fin 8) (j : Fin 2), s.mayControl k [5] = true ∧ s.stemSt j = .standby ∧ s.stemSt (1 - j) = .active :=
  ⟨stSess stBoth, 0, 1, by decide⟩

theorem test_StemsResynchronise_17 : ∃ (s : State) (k : Fin 8) (j : Fin 2), s.mayControl k [5] = true ∧ s.stemSt j = .standby ∧ s.stemSt (1 - j) = .active :=
  ⟨stSess stBoth, 0, 1, by decide⟩

theorem test_StemsResynchronise_18 : ∃ (s : State) (k : Fin 8), s.mayControl k [5] = true ∧ s.redundant = false :=
  ⟨stSess (stFeed .off), 0, by decide⟩

theorem test_StemsResynchronise_19 : ∃ (s : State) (k : Fin 8), s.mayControl k [5] = true ∧ s.stems.stem[(0 : Fin 2)].limited = false ∧ s.stems.stem[(1 : Fin 2)].limited = true ∧ s.stems.stem[(1 : Fin 2)].hot = false ∧ s.stems.stem[(1 : Fin 2)].low = false :=
  ⟨stSess ((stFeed .off).modStem 1 (fun x => { x with limited := true })), 0, by decide⟩

theorem test_TemperatureNetwork_1 : ∃ (s : State) (raw : Vector Int 44) (xt : Vector Nat 16) (sup : Vector Int 10) (n : Fin 44), s.dev.snsOn = true ∧ s.dev.held = false ∧ s.sensorOn ⟨n.val, by omega⟩ = true ∧ s.parN P.THERM_NBR n = 0 :=
  ⟨stTherm.setPar P.THERM_NBR 12 0, Vector.replicate 44 300, Vector.replicate 16 0, Vector.replicate 10 1000, 12, by decide⟩

theorem test_TemperatureNetwork_2 : ∃ (s : State) (raw : Vector Int 44) (xt : Vector Nat 16) (sup : Vector Int 10) (k : Fin 16), s.dev.snsOn = true ∧ s.dev.held = false ∧ s.par P.THERM_XT_MODE k = 2 ∧ 20000 ≤ xt[k] ∧ xt[k] ≤ 150000 :=
  ⟨stTherm.setPar P.THERM_XT_MODE 3 2, Vector.replicate 44 300, Vector.replicate 16 59633, Vector.replicate 10 1000, 3, by decide⟩

theorem test_TemperatureNetwork_3 : ∃ (s : State) (raw : Vector Int 44) (xt : Vector Nat 16) (sup : Vector Int 10) (k : Fin 16) (y : Int), s.dev.snsOn = true ∧ s.dev.held = false ∧ s.par P.THERM_XT_MODE k = 1 ∧ 10 ≤ xt[k] ∧ xt[k] ≤ 2000000 ∧ ntcTemp xt[k] (s.parN P.THERM_XT_R25 k) (s.parN P.THERM_XT_BETA k) = some y :=
  ⟨stTherm.setPar P.THERM_XT_MODE 3 1, Vector.replicate 44 300, Vector.replicate 16 10000, Vector.replicate 10 1000, 3, 250, by decide⟩

theorem test_TemperatureNetwork_4 : ∃ (s : State) (raw : Vector Int 44) (xt : Vector Nat 16) (sup : Vector Int 10) (k : Fin 16), s.dev.snsOn = true ∧ s.dev.held = false ∧ (((s.par P.THERM_XT_MODE k = 1 ∧ (xt[k] < 10 ∨ 2000000 < xt[k])) ∨ (s.par P.THERM_XT_MODE k = 2 ∧ (xt[k] < 20000 ∨ 150000 < xt[k])))) :=
  ⟨stTherm.setPar P.THERM_XT_MODE 3 1, Vector.replicate 44 300, Vector.replicate 16 9, Vector.replicate 10 1000, 3, by decide⟩

theorem test_TemperatureNetwork_5 : ∃ (s : State) (raw : Vector Int 44) (xt : Vector Nat 16) (sup : Vector Int 10), ((s.dev.snsOn = false ∨ s.dev.held = true)) :=
  ⟨State.reset, Vector.replicate 44 300, Vector.replicate 16 9, Vector.replicate 10 1000, by decide⟩

theorem test_TemperatureNetwork_6 : ∃ (s : State) (raw : Vector Int 4), s.bank.on = true ∧ s.therm.die[(7 : Fin 8)].st = .run ∧ ((∀ n : Fin 64, 44 ≤ n.val → n.val < 48 → s.therm.sen[n].ofs = 0 ∧ s.therm.sen[n].suspect = false)) ∧ (∃ j : Fin 4, 1350 ≤ raw[j]) :=
  ⟨stFeed .off, #v[300, 300, 1350, 300], by decide⟩

theorem test_TemperatureNetwork_7 : ∃ (s : State) (raw : Vector Int 4), s.bank.on = true ∧ s.therm.die[(7 : Fin 8)].st = .run ∧ ((∀ n : Fin 64, 44 ≤ n.val → n.val < 48 → s.therm.sen[n].ofs = 0)) ∧ (∀ j : Fin 4, raw[j] < 1350) :=
  ⟨stFeed .off, #v[300, 300, 1349, 300], by decide⟩

theorem test_TemperatureNetwork_8 : ∃ (s : State) (raw : Vector Int 4), s.bank.on = false :=
  ⟨State.reset, #v[300, 300, 1350, 300], by decide⟩

theorem test_TemperatureNetwork_9 : ∃ (s : State) (l : Fin 16), (s.therm.auto[l] = false ∨ s.canStart l = false) :=
  ⟨stFeed .off, 3, by decide⟩

theorem test_TemperatureNetwork_10 : ∃ (s : State) (l : Fin 16), s.hasActive = true ∧ s.therm.auto[l] = true ∧ s.par P.THERM_AUTO_START l = 1 ∧ s.par P.LOOP_ENABLE l ≠ 0 ∧ s.loop[l].ct.state = .stopped ∧ s.canStart l = true :=
  ⟨{ (stCtl.modStem 0 (fun x => { x with st := .active })).setPar P.THERM_AUTO_START 0 1 with therm := { stCtl.therm with auto := stCtl.therm.auto.set 0 true } }, 0, by decide⟩

theorem test_TemperatureNetwork_11 : ∃ (s : State) (d k : Fin 8), s.mayControl k [5] = true ∧ s.therm.die[d].st = .latched :=
  ⟨stSess ((stFeed .off).modTd 6 (fun x => { x with st := .latched })), 6, 0, by decide⟩

theorem test_TemperatureNetwork_12 : ∃ (s : State) (d k : Fin 8), s.mayControl k [5] = true ∧ s.therm.die[d].st ≠ .latched :=
  ⟨stSess ((stFeed .off).modTd 6 (fun x => { x with st := .run })), 6, 0, by decide⟩

theorem test_TemperatureNetwork_13 : ∃ (s : State) (n : Fin 64) (k : Fin 8), s.mayControl k [0] = true :=
  ⟨stSess (stFeed .off), 63, 0, by decide⟩

theorem test_SessionsTimeOut_1 : ∃ (s : State) (k : Fin 8), s.clk.tick < (s.sess k).since + 2500000000 :=
  ⟨stSession .claimed, 0, by decide⟩

theorem test_SessionsTimeOut_2 : ∃ (s : State) (k : Fin 8), s.clk.tick < (s.sess k).since + 250000000 :=
  ⟨stSession .proving, 0, by decide⟩

theorem test_SessionsTimeOut_3 : ∃ (s : State) (k : Fin 8), s.clk.tick < (s.sess k).leaseAt + s.parN P.HOST_SESSION_LEASE 0 * 250000 :=
  ⟨stHost.modSess 0 (fun x => { x with leaseAt := 7 }), 0, by decide⟩

theorem test_SessionsTimeOut_4 : ∃ (s : State) (i : Nat), s.clk.tick < (s.permit i).at_ + (s.permit i).lease * 250000 :=
  ⟨stHost.setPermit 39 { stHost.permit 39 with lease := 10 }, 39, by decide⟩

theorem test_SessionsTimeOut_5 : ∃ (s : State) (k : Fin 8), (s.host.key[k]).locked s.clk.tick = true :=
  ⟨(stKey .claimed).modHost (fun h => { h with key := upd h.key 1 (fun y => { y with lockAt := some 0 }) }), 1, by decide⟩

theorem test_SessionsTimeOut_6 : ∃ (s : State) (k : Fin 8), s.hasActive = true ∧ (s.sess k).state = .claimed ∧ (s.sess k).since + 2500000000 ≤ s.clk.tick :=
  ⟨onTick 2500000000 (stSession .claimed), 0, by decide⟩

theorem test_SessionsTimeOut_7 : ∃ (s : State) (k : Fin 8), s.hasActive = true ∧ (s.sess k).state = .proving ∧ (s.sess k).since + 250000000 ≤ s.clk.tick :=
  ⟨onTick 250000000 (stSession .proving), 0, by decide⟩

theorem test_SessionsTimeOut_8 : ∃ (s : State) (k : Fin 8) (p : Fin 4), s.hasActive = true ∧ (s.sess k).state = .isOpen ∧ (s.sess k).port = p.val ∧ 2 ≤ p.val ∧ (s.sess k).leaseAt + s.parN P.HOST_SESSION_LEASE 0 * 250000 ≤ s.clk.tick :=
  ⟨onTick 2500000000 stHost, 0, 2, by decide⟩

theorem test_SessionsTimeOut_9 : ∃ (s : State) (k : Fin 8), (s.sess k).state ≠ .isOpen :=
  ⟨stSession .claimed, 0, by decide⟩

theorem test_SessionsTimeOut_10 : ∃ (s : State) (i : Nat) (k : Fin 8), s.hasActive = true ∧ (s.permit i).holder = some k ∧ (s.permit i).at_ + (s.permit i).lease * 250000 ≤ s.clk.tick :=
  ⟨onTick 150000000 stHost, 39, 0, by decide⟩

theorem test_SessionsTimeOut_11 : ∃ (s : State) (i : Nat), (s.permit i).holder = none :=
  ⟨stSession .isOpen, 39, by decide⟩

theorem test_SessionsTimeOut_12 : ∃ (s : State) (k : Fin 8), s.hasActive = true ∧ (s.host.key[k]).locked s.clk.tick = false :=
  ⟨onTick 15000000000 ((stKey .claimed).modHost (fun h => { h with key := upd h.key 1 (fun y => { y with lockAt := some 0 }) })), 1, by decide⟩

theorem test_SessionsTimeOut_13 : ∃ (s : State) (e : Fin 2) (up : Bool), s.hostUp = true ∧ s.par P.HOST_ETH_MODE e ≠ 0 :=
  ⟨stHost.setPar P.HOST_ETH_MODE 1 3, 1, true, by decide⟩

theorem test_HostRegisters_1 : ∃ (s : State) (p : Fin 4), s.hostUp = true :=
  ⟨stHost, 3, by decide⟩

theorem test_HostRegisters_2 : ∃ (s : State) (n : Fin 2) (m : Fin 16) (w : List Nat) (ws : List (List Nat)), s.hostUp = true ∧ s.mbBound (spiPort n) m = true ∧ s.host.mb[m].rx = w :: ws ∧ s.host.mb[m].part + 1 < w.length :=
  ⟨stHost.modMb 1 (fun x => { x with rx := [[5, 6]], part := 0 }), 0, 1, [5, 6], [], by decide⟩

theorem test_HostRegisters_3 : ∃ (s : State) (n : Fin 2) (m : Fin 16) (w : List Nat) (ws : List (List Nat)), s.hostUp = true ∧ s.mbBound (spiPort n) m = true ∧ s.host.mb[m].rx = w :: ws ∧ s.host.mb[m].part + 1 = w.length :=
  ⟨stHost.modMb 1 (fun x => { x with rx := [[5, 6]], part := 1 }), 0, 1, [5, 6], [], by decide⟩

theorem test_HostRegisters_4 : ∃ (s : State) (n : Fin 2) (m : Fin 16), s.hostUp = true ∧ s.mbBound (spiPort n) m = false :=
  ⟨stHost, 1, 0, by decide⟩

theorem test_HostRegisters_5 : ∃ (s : State) (n : Fin 2) (data : List Byte), s.hostUp = true ∧ data.length = 4 :=
  ⟨stHost, 1, [0xFF#8, 0#8, 2#8, 0x81#8], by decide⟩

theorem test_HostRegisters_6 : ∃ (s : State) (n : Fin 2) (data : List Byte), s.hostUp = true ∧ data.length = 4 :=
  ⟨stHost, 1, [0xFF#8, 0#8, 2#8, 0x81#8], by decide⟩

theorem test_HostRegisters_7 : ∃ (s : State) (n : Fin 2), s.hostUp = true :=
  ⟨stHost.modHp 2 (fun x => { x with ended := true, switched := true }), 0, by decide⟩

theorem test_HostRegisters_8 : ∃ (s : State) (n : Fin 2) (data : List Byte), s.hostUp = true ∧ data.length = 4 :=
  ⟨stHost.modHp 3 (fun x => { x with scratch := 0x81020304 }), 1, [0#8, 0#8, 0#8, 0#8], by decide⟩

theorem test_HostRegisters_9 : ∃ (s : State) (n : Fin 2) (data : List Byte) (off : Nat), s.hostUp = true ∧ data.length = 4 ∧ s.host.spi[n].run = .write off ∧ s.host.spi[n].part = [] :=
  ⟨stHost.modHost (fun h => { h with spi := upd h.spi 1 (fun _ => ⟨.write 0x1FC, [], none, []⟩) }), 1, [1#8, 2#8, 3#8, 4#8], 0x1FC, by decide⟩

theorem test_HostRegisters_10 : ∃ (s : State) (n : Fin 2) (data : List Byte) (off : Nat), s.hostUp = true ∧ data.length = 4 ∧ s.host.spi[n].run = .write off ∧ s.host.spi[n].part = [] :=
  ⟨stHost.modHost (fun h => { h with spi := upd h.spi 1 (fun _ => ⟨.write 0x108, [], none, []⟩) }), 1, [1#8, 2#8, 3#8, 4#8], 0x108, by decide⟩

theorem test_HostRegisters_11 : ∃ (s : State) (n : Fin 2) (hd data : List Byte), s.hostUp = true ∧ hd ≠ [] ∧ data.length < 4 :=
  ⟨stHost, 1, [2#8, 0x94#8, 0#8], [1#8, 2#8, 3#8], by decide⟩

theorem test_HostRegisters_12 : ∃ (s : State) (n : Fin 2) (hd data : List Byte), s.hostUp = true ∧ 3 ≤ hd.length ∧ (((leAt hd 0 1 ≠ 2 ∧ leAt hd 0 1 ≠ 3) ∨ leAt hd 1 2 % 4 ≠ 0 ∨ 0x200 ≤ leAt hd 1 2)) :=
  ⟨stHost, 1, [9#8, 0x94#8, 0#8], [1#8, 2#8, 3#8, 4#8], by decide⟩

theorem test_HostRegisters_13 : ∃ (s : State) (n : Fin 2) (hd data : List Byte), s.hostUp = true ∧ 3 ≤ hd.length ∧ (((leAt hd 0 1 ≠ 2 ∧ leAt hd 0 1 ≠ 3) ∨ leAt hd 1 2 % 4 ≠ 0 ∨ 0x200 ≤ leAt hd 1 2)) :=
  ⟨stHost, 1, [2#8, 0x95#8, 0#8], [1#8, 2#8, 3#8, 4#8], by decide⟩

theorem test_HostRegisters_14 : ∃ (s : State) (n : Fin 2) (hd data : List Byte), s.hostUp = true ∧ 3 ≤ hd.length ∧ (((leAt hd 0 1 ≠ 2 ∧ leAt hd 0 1 ≠ 3) ∨ leAt hd 1 2 % 4 ≠ 0 ∨ 0x200 ≤ leAt hd 1 2)) :=
  ⟨stHost, 1, [2#8, 0x00#8, 2#8], [1#8, 2#8, 3#8, 4#8], by decide⟩

theorem test_HostRegisters_15 : ∃ (s : State) (e : Fin 2) (ep : Endpoint) (data : List Byte) (a : Nat), s.hostUp = true ∧ 8 ≤ data.length ∧ leAt data 0 4 = 0xFFFF0001 ∧ leAt data 4 2 = a ∧ leAt data 6 1 = 1 ∧ a % 4 = 0 ∧ a ≤ 0x038 ∧ a ≠ 0x020 :=
  ⟨stHost, 1, Endpoint.none, [1#8, 0#8, 0xFF#8, 0xFF#8, 0x38#8, 0#8, 1#8, 0#8], 0x038, by decide⟩

theorem test_HostRegisters_16 : ∃ (s : State) (e : Fin 2) (ep : Endpoint) (data : List Byte) (a : Nat), s.hostUp = true ∧ 8 ≤ data.length ∧ leAt data 0 4 = 0xFFFF0001 ∧ leAt data 4 2 = a ∧ leAt data 6 1 = 1 ∧ a % 4 = 0 ∧ 0x038 < a ∧ a < 0x200 ∧ s.openAt e ep = false :=
  ⟨stHost, 1, Endpoint.none, [1#8, 0#8, 0xFF#8, 0xFF#8, 0x3C#8, 0#8, 1#8, 0#8], 0x03C, by decide⟩

theorem test_HostRegisters_17 : ∃ (s : State) (n : Fin 2) (hd data : List Byte), s.hostUp = false :=
  ⟨State.reset, 1, [2#8, 0x94#8, 0#8], [7#8, 0#8, 0#8, 0#8], by decide⟩

theorem test_MailboxesAndFrames_1 : ∃ (s : State) (n : Fin 2) (m : Fin 16) (w : Nat), s.hostUp = true ∧ s.mbBound (spiPort n) m = true ∧ m.val % 2 = 0 ∧ 0 < s.txFree m :=
  ⟨stHost, 0, 0, 4294967297, by decide⟩

theorem test_MailboxesAndFrames_2 : ∃ (s : State) (n : Fin 2) (m : Fin 16) (w : Nat), s.hostUp = true ∧ s.mbBound (spiPort n) m = true ∧ m.val % 2 = 0 ∧ s.txFree m = 0 :=
  ⟨stHost.modMb 0 (fun x => { x with tx := List.replicate 1024 7 }), 0, 0, 1, by decide +kernel⟩

theorem test_MailboxesAndFrames_3 : ∃ (s : State) (n : Fin 2) (m : Fin 16), s.hostUp = true ∧ m.val % 2 = 0 ∧ (s.sess (pairOf m)).state = .free :=
  ⟨stHost, 1, 14, by decide⟩

theorem test_MailboxesAndFrames_4 : ∃ (s : State) (n : Fin 2) (m : Fin 16), s.hostUp = true ∧ s.mbBound (spiPort n) m = true :=
  ⟨stHost, 0, 1, by decide⟩

theorem test_MailboxesAndFrames_5 : ∃ (s : State) (n : Fin 2) (m : Fin 16), s.hostUp = true ∧ s.mbBound (spiPort n) m = true ∧ s.host.mb[m].tx ≠ [] ∧ s.bellCause m = 0 :=
  ⟨stHost.modMb 0 (fun x => { x with tx := [0x000C0001, 2, 3] }), 0, 0, by decide⟩

theorem test_MailboxesAndFrames_6 : ∃ (s : State) (n : Fin 2) (m : Fin 16), s.hostUp = true ∧ s.mbBound (spiPort n) m = true ∧ s.host.mb[m].tx ≠ [] ∧ s.bellCause m ≠ 0 :=
  ⟨stHost.modMb 0 (fun x => { x with tx := [0x000D0001, 2, 3] }), 0, 0, by decide⟩

theorem test_MailboxesAndFrames_7 : ∃ (s : State) (n : Fin 2) (m : Fin 16), s.hostUp = true ∧ s.mbBound (spiPort n) m = true :=
  ⟨stHost.modMb 0 (fun x => { x with tx := [0x000D0001, 2, 3] }), 0, 0, by decide⟩

theorem test_MailboxesAndFrames_8 : ∃ (s : State) (n : Fin 2) (m : Fin 16), s.hostUp = true ∧ s.mbBound (spiPort n) m = true :=
  ⟨stHost.modMb 1 (fun x => { x with rx := [[1, 2], [3]], part := 1 }), 0, 1, by decide⟩

theorem test_MailboxesAndFrames_9 : ∃ (s : State) (n : Fin 2) (off : Nat) (m : Fin 16) (idle : Nat), s.hostUp = true ∧ s.mbBound (spiPort n) m = true ∧ m.val % 2 = 0 ∧ s.parN P.HOST_SPI_ABANDON n ≤ idle :=
  ⟨stHost.modMb 0 (fun x => { x with tx := [0x000D0001, 2, 3] }), 0, 0x108, 0, 1000, by decide⟩

theorem test_MailboxesAndFrames_10 : ∃ (s : State) (n : Fin 2) (off : Nat) (tx : Option (Fin 16)) (idle : Nat), idle < s.parN P.HOST_SPI_ABANDON n :=
  ⟨stHost, 1, 0x108, some 2, 999, by decide⟩

theorem test_MailboxesAndFrames_11 : ∃ (s : State) (e : Fin 2) (f : EthFrame), s.hostUp = true ∧ s.ethAccepts e f = false :=
  ⟨stHost, 1, ⟨.other, none, Endpoint.none, .other, []⟩, by decide⟩

theorem test_MailboxesAndFrames_12 : ∃ (s : State) (e : Fin 2) (f : EthFrame) (k : Fin 8), s.hostUp = true ∧ s.ethAccepts e f = true ∧ s.ethMsg e f = true ∧ leAt f.data 0 4 < 0xFFFF0000 ∧ s.pairAt e.val f.ep = some k ∧ s.host.mb[mbReq k].tx = [] ∧ s.host.mb[mbReq k].lost = false ∧ (s.rungOf (mbReq k)).length < 4 ∧ 12 ≤ msgLen f.data ∧ msgLen f.data ≤ 1440 ∧ msgLen f.data ≤ f.data.length ∧ ceilDiv (msgLen f.data) 4 ≤ s.txFree (mbReq k) :=
  ⟨(((stHost.modSess 0 (fun x => { x with port := 0 })).setPar P.HOST_ETH_MODE 0 3).setPar P.HOST_ENCAP 0 1 |>.setPar P.HOST_ETHERTYPE 0 0x88B5 |>.setPar P.HOST_VLAN 0 0).modHp 0 (fun x => { x with link := true }), 0, ⟨.unicast (State.reset.parN P.HOST_ETH_MAC 0), none, Endpoint.none, .ether 0x88B5, [1#8, 0#8, 12#8, 0#8, 4#8, 0#8, 0#8, 0#8, 0#8, 0#8, 0#8, 0#8]⟩, 0, by decide⟩

theorem test_MailboxesAndFrames_13 : ∃ (s : State) (entropy : Nat), s.host.rung = [] :=
  ⟨stHost, 7, by decide⟩

theorem test_MailboxesAndFrames_14 : ∃ (s : State) (entropy : Nat) (r : Fin 16 × List Nat), s.takes = true ∧ s.sluiceSpent 2 = false ∧ s.nextRung = some r ∧ msgSound ((r.2.flatMap (leBytes 4)).take (msgLen (r.2.flatMap (leBytes 4)))) = false :=
  ⟨{ stHost with host := { stHost.host with rung := [(0, [0x000C0001, 2, 3])] } }, 7, (0, [0x000C0001, 2, 3]), by decide⟩

theorem test_MailboxesAndFrames_15 : ∃ (s : State) (entropy : Nat) (r : Fin 16 × List Nat) (bs : List Byte) (q : Req), s.takes = true ∧ s.sluiceSpent 2 = false ∧ s.nextRung = some r ∧ bs = (r.2.flatMap (leBytes 4)).take (msgLen (r.2.flatMap (leBytes 4))) ∧ q = msgReq (pairOf r.1) bs ∧ msgSound bs = true ∧ msgOp bs = 0x0004 ∧ s.passes 0x0004 q (msgBody bs) = true :=
  ⟨{ stHost with host := { stHost.host with rung := [(0, msgWords 7 (reqBytes 4 rq []))] } }, 7, (0, msgWords 7 (reqBytes 4 rq [])), reqBytes 4 rq [], msgReq 0 (reqBytes 4 rq []), by decide +kernel⟩

theorem test_SessionRequests_1 : ∃ (s : State) (port : Fin 4) (ep : Endpoint) (q : Req) (b : List Byte) (entropy : Nat), s.takes = true ∧ s.mayTake q.sess = true ∧ 2 ≤ port.val ∧ (s.sess q.sess).state = .claimed ∧ bit q.flags 0 = false ∧ bit q.flags 1 = false ∧ b.length = 20 ∧ q.epoch = 0 ∧ leAt b 0 1 < 8 ∧ s.openStatus (s.sess q.sess).port b = stOk :=
  ⟨stKey .claimed, 2, Endpoint.none, { rq with epoch := 0 }, [1#8, 1#8, 0#8, 0#8] ++ List.replicate 16 7#8, 99, by decide⟩

theorem test_SessionRequests_2 : ∃ (s : State) (port : Fin 4) (ep : Endpoint) (q : Req) (b : List Byte) (entropy : Nat), s.takes = true ∧ s.mayTake q.sess = true ∧ 2 ≤ port.val ∧ (s.sess q.sess).state ≠ .free ∧ 2 ≤ (s.sess q.sess).port ∧ bit q.flags 0 = false ∧ bit q.flags 1 = false ∧ b.length = 20 ∧ q.epoch = 0 ∧ s.openStatus (s.sess q.sess).port b ≠ stOk :=
  ⟨stKey .claimed, 2, Endpoint.none, { rq with epoch := 0 }, [2#8, 1#8, 0#8, 0#8] ++ List.replicate 16 7#8, 99, by decide⟩

theorem test_SessionRequests_3 : ∃ (s : State) (port : Fin 4) (ep : Endpoint) (q : Req) (b : List Byte) (entropy : Nat) (k : Fin 8), s.takes = true ∧ port.val < 2 ∧ s.nextRung = none ∧ (∀ r ∈ s.host.rung, pairOf r.1 ≠ k) ∧ s.sluiceSpent 2 = false ∧ s.pairAt port.val ep = none ∧ s.freePair = some k ∧ bit q.flags 0 = false ∧ bit q.flags 1 = false ∧ b.length = 20 ∧ q.epoch = 0 ∧ leAt b 0 1 < 8 ∧ s.openStatus port.val b = stOk :=
  ⟨stKey .claimed, 1, ⟨5, 0, false, 0, 0⟩, { rq with epoch := 0 }, [1#8, 1#8, 0#8, 0#8] ++ List.replicate 16 7#8, 99, 1, by decide⟩

theorem test_SessionRequests_4 : ∃ (s : State) (q : Req) (b : List Byte), s.takes = true ∧ s.mayTake q.sess = true ∧ (s.sess q.sess).state = .proving ∧ bit q.flags 0 = false ∧ bit q.flags 1 = false ∧ b.length = 16 ∧ q.epoch = (s.sess q.sess).epoch ∧ seqNewer q.seq (s.sess q.sess).rxSeq = true ∧ (s.sess q.sess).key < 8 ∧ b = (s.sess q.sess).proof (s.host.key[(⟨(s.sess q.sess).key % 8, Nat.mod_lt _ (by omega)⟩ : Fin 8)]).key :=
  ⟨(stKey .proving).modSess 0 (fun x => { x with key := 1 }), rq, ((stKey .proving).modSess 0 (fun x => { x with key := 1 }) |>.sess 0).proof (List.replicate 32 0), by decide +kernel⟩

theorem test_SessionRequests_5 : ∃ (s : State) (q : Req) (b : List Byte), s.takes = true ∧ s.mayTake q.sess = true ∧ (s.sess q.sess).state = .proving ∧ 2 ≤ (s.sess q.sess).port ∧ bit q.flags 0 = false ∧ bit q.flags 1 = false ∧ b.length = 16 ∧ q.epoch = (s.sess q.sess).epoch ∧ seqNewer q.seq (s.sess q.sess).rxSeq = true ∧ (s.sess q.sess).key < 8 ∧ b ≠ (s.sess q.sess).proof (s.host.key[(⟨(s.sess q.sess).key % 8, Nat.mod_lt _ (by omega)⟩ : Fin 8)]).key :=
  ⟨(stKey .proving).modSess 0 (fun x => { x with key := 1 }), rq, List.replicate 16 0, by decide +kernel⟩

theorem test_SessionRequests_6 : ∃ (s : State) (q : Req) (b : List Byte), s.accepted 0x0003 q b = true ∧ 2 ≤ (s.sess q.sess).port :=
  ⟨stHost, rq, [], by decide⟩

theorem test_SessionRequests_7 : ∃ (s : State) (q : Req) (b : List Byte), s.accepted 0x0004 q b = true :=
  ⟨stHost, rq, [], by decide⟩

theorem test_SessionRequests_8 : ∃ (s : State) (q : Req) (b : List Byte), s.accepted 0x0005 q b = true :=
  ⟨stHost, rq, [13#8, 0#8, 0#8, 0#8], by decide⟩

theorem test_SessionRequests_9 : ∃ (s : State) (q : Req) (b : List Byte) (i : Nat), s.accepted 0x0101 q b = true ∧ maskPermits b = [i] ∧ (s.sess q.sess).mayHold i = true ∧ 0 < leAt b 16 2 ∧ leAt b 16 2 ≤ 600 ∧ (s.permit i).holder = none :=
  ⟨stHost, rq, List.replicate 8 0#8 ++ [128#8] ++ List.replicate 7 0#8 ++ [10#8, 0#8, 0#8, 0#8], 71, by decide⟩

theorem test_SessionRequests_10 : ∃ (s : State) (q : Req) (b : List Byte) (i : Nat) (j : Fin 8), s.accepted 0x0101 q b = true ∧ maskPermits b = [i] ∧ (s.sess q.sess).mayHold i = true ∧ 0 < leAt b 16 2 ∧ leAt b 16 2 ≤ 600 ∧ (s.permit i).holder = some j ∧ j ≠ q.sess :=
  ⟨stHost.setPermit 71 { Permit.none with holder := some 3 }, rq, List.replicate 8 0#8 ++ [128#8] ++ List.replicate 7 0#8 ++ [10#8, 0#8, 0#8, 0#8], 71, 3, by decide⟩

theorem test_SessionRequests_11 : ∃ (s : State) (q : Req) (b : List Byte) (i : Nat), s.accepted 0x0102 q b = true ∧ maskPermits b = [i] ∧ s.holds q.sess i = true :=
  ⟨stHost, rq, [1#8] ++ List.replicate 19 0#8, 0, by decide⟩

theorem test_SessionRequests_12 : ∃ (s : State) (q : Req) (b : List Byte) (i : Nat), s.accepted 0x0103 q b = true ∧ maskPermits b = [i] ∧ s.holds q.sess i = true :=
  ⟨stHost, rq, [1#8] ++ List.replicate 19 0#8, 0, by decide⟩

theorem test_SessionRequests_13 : ∃ (s : State) (q : Req) (b : List Byte) (i : Nat) (j : Fin 8), s.accepted 0x0104 q b = true ∧ maskPermits b = [i] ∧ i ≠ 5 ∧ i ≠ 6 ∧ s.par P.PERMIT_TAKE_EN i ≠ 0 ∧ 0 < leAt b 16 2 ∧ leAt b 16 2 ≤ 600 ∧ (s.permit i).holder = some j ∧ j ≠ q.sess :=
  ⟨(stHost.setPermit 4 { Permit.none with holder := some 3 }).setPar P.PERMIT_TAKE_EN 4 1, rq, [16#8] ++ List.replicate 15 0#8 ++ [10#8, 0#8, 0#8, 0#8], 4, 3, by decide⟩

theorem test_DataRequests_1 : ∃ (s : State) (q : Req) (b : List Byte) (p : Prm), s.accepted 0x0201 q b = true ∧ leAt b 0 2 = 1 ∧ findParam (leAt b 4 2) = some p ∧ p.instOk (leAt b 6 2) = true ∧ p.keeps = .K ∧ p.wo = false ∧ p.id ≠ 0x5843 :=
  ⟨stHost, rq, [1#8, 0#8, 0#8, 0#8] ++ leBytes 2 P.WEIR_ENABLE.id ++ [0#8, 0#8], P.WEIR_ENABLE, by decide +kernel⟩

theorem test_DataRequests_2 : ∃ (s : State) (q : Req) (b : List Byte) (e : RawEntry), s.accepted 0x0202 q b = true ∧ rawEntries 1 b = some [e] ∧ s.entryStatus q.sess q.pe e = stOk :=
  ⟨stHost, rq, entryBytes P.WEIR_ENABLE 0 1, ⟨P.WEIR_ENABLE.id, 0, P.WEIR_ENABLE.ty.write 1⟩, by decide +kernel⟩

theorem test_DataRequests_3 : ∃ (s : State) (q : Req) (b : List Byte) (e : RawEntry), s.accepted 0x0202 q b = true ∧ rawEntries 1 b = some [e] ∧ s.entryStatus q.sess q.pe e ≠ stOk :=
  ⟨stHost, rq, entryBytes P.WEIR_ENABLE 0 9, ⟨P.WEIR_ENABLE.id, 0, P.WEIR_ENABLE.ty.write 9⟩, by decide +kernel⟩

theorem test_DataRequests_4 : ∃ (s : State) (q : Req) (b : List Byte) (es : List RawEntry), s.accepted 0x0203 q b = true ∧ 0 < leAt b 0 2 ∧ leAt b 0 2 ≤ 64 ∧ rawEntries (leAt b 0 2) (b.drop 4) = some es ∧ s.firstFail q.sess q.pe 0 es = none ∧ stageOverflow (s.sess q.sess).staging 0 (es.map (fun e => e.entry q.pe)) = none :=
  ⟨stHost, rq, [1#8, 0#8, 0#8, 0#8] ++ entryBytes P.WEIR_ENABLE 0 1, [⟨P.WEIR_ENABLE.id, 0, P.WEIR_ENABLE.ty.write 1⟩], by decide +kernel⟩

theorem test_DataRequests_5 : ∃ (s : State) (q : Req) (b : List Byte), s.accepted 0x0204 q b = true :=
  ⟨stHost.modSess 0 (fun x => { x with staging := [⟨0x2800, 0, 1, 0⟩], stageLost := true }), rq, [], by decide⟩

theorem test_DataRequests_6 : ∃ (s : State) (q : Req) (b : List Byte) (e : Entry) (es : List Entry), s.accepted 0x0205 q b = true ∧ (s.sess q.sess).staging = e :: es :=
  ⟨stHost.modSess 0 (fun x => { x with staging := [⟨0x2800, 0, 1, 0⟩] }), rq, [], ⟨0x2800, 0, 1, 0⟩, [], by decide⟩

theorem test_DataRequests_7 : ∃ (s : State) (q : Req) (b : List Byte), s.accepted 0x0205 q b = true ∧ (s.sess q.sess).staging = [] :=
  ⟨stHost, rq, [], by decide⟩

theorem test_DataRequests_8 : ∃ (s : State) (q : Req) (b : List Byte) (first n : Nat), s.accepted 0x0301 q b = true ∧ leAt b 0 4 = first ∧ leAt b 4 2 = n ∧ 0 < n ∧ n ≤ 64 ∧ first + n ≤ 131072 :=
  ⟨stHost, rq, leBytes 4 131071 ++ leBytes 2 1 ++ [0#8, 0#8], 131071, 1, by decide⟩

theorem test_DataRequests_9 : ∃ (s : State) (q : Req) (b : List Byte) (i : Nat), s.accepted 0x0302 q b = true ∧ leAt b 0 1 = 0 ∧ 0 < leAt b 2 2 ∧ leAt b 2 2 ≤ 4096 ∧ leAt b 4 4 + leAt b 2 2 ≤ 131072 ∧ (s.pool.subs.filter (fun u => u.sess == q.sess.val)).length < 16 ∧ s.freeSub = some i :=
  ⟨stHost, rq, [0#8, 0#8] ++ leBytes 2 4096 ++ leBytes 4 126976 ++ leBytes 4 5 ++ leBytes 4 0, 0, by decide⟩

theorem test_DataRequests_10 : ∃ (s : State) (q : Req) (b : List Byte), s.accepted 0x0303 q b = true ∧ s.pool.subs.any (fun u => u.id == leAt b 0 1 && u.sess == q.sess.val) = true :=
  ⟨{ stHost with pool := { stHost.pool with subs := [⟨63, 0, 5, 6, false, 0, 0, []⟩] } }, rq, [63#8, 0#8, 0#8, 0#8], by decide⟩

theorem test_DataRequests_11 : ∃ (s : State) (q : Req) (b : List Byte), s.accepted 0x0401 q b = true ∧ 0 < leAt b 4 1 ∧ leAt b 4 1 ≤ 16 :=
  ⟨stHost, rq, leBytes 4 0 ++ [16#8, 0#8, 0#8, 0#8], by decide⟩

theorem test_DataRequests_12 : ∃ (s : State) (q : Req) (b : List Byte) (k : Fin 48), s.accepted 0x0402 q b = true ∧ leAt b 0 1 = k.val ∧ 4 ≤ leAt b 2 2 ∧ leAt b 2 2 ≤ 1024 ∧ leAt b 2 2 % 4 = 0 ∧ leAt b 4 4 % 4 = 0 ∧ leAt b 4 4 + leAt b 2 2 ≤ 262144 ∧ s.slotState k ≠ 3 ∧ s.slotState k ≠ 0 :=
  ⟨{ stHost with mram := mramPut stHost.mram (slotAddr 47) [0x5A#8] }, rq, [47#8, 0#8] ++ leBytes 2 4 ++ leBytes 4 262140, 47, by decide +kernel⟩

theorem test_DataRequests_13 : ∃ (s : State) (q : Req) (b : List Byte) (i : Fin 8), s.accepted 0x0501 q b = true ∧ leAt b 0 1 = i.val ∧ s.par P.BATT_ENABLE i = 1 :=
  ⟨stHost.setPar P.BATT_ENABLE 7 1, rq, [7#8, 0#8, 0#8, 0#8], 7, by decide⟩

theorem test_DataRequests_14 : ∃ (s : State) (q : Req) (b : List Byte), s.accepted 0x0502 q b = true :=
  ⟨stHost, rq, List.replicate 48 0#8, by decide⟩

theorem test_DeviceRequests_1 : ∃ (s : State) (q : Req) (b : List Byte) (a : Nat), s.accepted 0x0601 q b = true ∧ leAt b 0 2 = a ∧ isNode a = true ∧ leAt b 2 1 = 1 ∧ s.relayOf (a / 32) = none ∧ (s.node a).isOpen = true ∧ (s.node a).req = none :=
  ⟨{ stHost with nodes := (stNode 5).nodes }, rq, leBytes 2 5 ++ [1#8, 0#8] ++ List.replicate 12 3#8, 5, by decide⟩

theorem test_DeviceRequests_2 : ∃ (s : State) (q : Req) (b : List Byte) (p : Fin 64) (g : Fin 16), s.accepted 0x0602 q b = true ∧ leAt b 0 1 = p.val ∧ leAt b 1 1 = g.val ∧ s.par P.PORT_MODE p = 2 ∧ s.parN P.PORT_PMB_ADDR (p.val * 16 + g.val) ≠ 0xFF ∧ pmbLens (leAt b 2 1) (leAt b 4 1) (leAt b 5 1) = true ∧ s.port[p].stuck = false :=
  ⟨((stHost.setPar P.PORT_MODE 31 2).setPar P.PORT_PMB_ADDR 511 0x40), rq, [31#8, 15#8, 4#8, 0x8B#8, 0#8, 2#8, 0#8, 0#8], 31, 15, by decide⟩

theorem test_DeviceRequests_3 : ∃ (s : State) (q : Req) (b : List Byte), s.accepted 0x0701 q b = true ∧ s.tb.lockTime = false :=
  ⟨stHost, rq, List.replicate 8 9#8, by decide⟩

theorem test_DeviceRequests_4 : ∃ (s : State) (q : Req) (b : List Byte), s.accepted 0x0701 q b = true ∧ s.tb.lockTime = true :=
  ⟨{ stHost with tb := { stHost.tb with lockTime := true } }, rq, List.replicate 8 9#8, by decide⟩

theorem test_DeviceRequests_5 : ∃ (s : State) (q : Req) (b : List Byte), s.accepted 0x0702 q b = true :=
  ⟨stHost, rq, List.replicate 36 1#8, by decide⟩

theorem test_DeviceRequests_6 : ∃ (s : State) (q : Req) (b : List Byte), s.accepted 0x0703 q b = true ∧ leAt b 0 1 = 2 ∧ s.brownWarn = false ∧ s.hold.state = .normal ∧ s.dev.state = .run :=
  ⟨stHost, rq, [2#8, 0#8, 0#8, 0#8], by decide⟩

theorem test_DeviceRequests_7 : ∃ (s : State) (q : Req) (b : List Byte), s.accepted 0x0703 q b = true ∧ leAt b 0 1 = 3 ∧ s.brownWarn = false ∧ s.hold.state = .normal ∧ s.dev.state ≠ .dormant :=
  ⟨stHost, rq, [3#8, 0#8, 0#8, 0#8], by decide⟩

theorem test_DeviceRequests_8 : ∃ (s : State) (q : Req) (b : List Byte), s.accepted 0x0703 q b = true ∧ (leAt b 0 1 = 2 ∨ leAt b 0 1 = 3) ∧ s.brownWarn = false ∧ s.hold.state ≠ .normal :=
  ⟨{ stHost with hold := { stHost.hold with state := .holdup } }, rq, [2#8, 0#8, 0#8, 0#8], by decide⟩

theorem test_DeviceRequests_9 : ∃ (s : State) (q : Req) (b : List Byte), s.accepted 0x0710 q b = true ∧ s.firm.trialSlot = none ∧ s.firm.load = none ∧ 1024 ≤ leAt b 0 4 ∧ leAt b 0 4 ≤ 4194304 ∧ leAt b 0 4 % 4 = 0 :=
  ⟨stHost, rq, leBytes 4 1024 ++ leBytes 4 7, by decide⟩

theorem test_DeviceRequests_10 : ∃ (s : State) (q : Req) (b : List Byte) (x : FwLoad), s.accepted 0x0711 q b = true ∧ s.brownWarn = false ∧ s.firm.load = some x ∧ x.sess = q.sess ∧ leAt b 0 4 = x.data.length ∧ x.data.length + (b.drop 4).length ≤ x.len :=
  ⟨{ stHost with firm := { stHost.firm with load := some ⟨0, 1, 1024, 7, [1, 2, 3, 4], none⟩ } }, rq, leBytes 4 4 ++ List.replicate 4 9#8, ⟨0, 1, 1024, 7, [1, 2, 3, 4], none⟩, by decide⟩

theorem test_DeviceRequests_11 : ∃ (s : State) (q : Req) (b : List Byte) (x : FwLoad), s.accepted 0x0712 q b = true ∧ s.firm.load = some x ∧ x.sess = q.sess :=
  ⟨{ stHost with firm := { stHost.firm with load := some ⟨0, 1, 1024, 7, [1, 2, 3, 4], none⟩ } }, rq, [], ⟨0, 1, 1024, 7, [1, 2, 3, 4], none⟩, by decide⟩

theorem test_DeviceRequests_12 : ∃ (s : State) (q : Req) (b : List Byte) (k : Fin 2), s.accepted 0x0713 q b = true ∧ leAt b 0 1 = k.val ∧ s.activateStatus b = stOk :=
  ⟨{ stHost with firm := { stHost.firm with run := 0, slot := #v[some ⟨1, 0, 1024⟩, some ⟨2, 0, 2048⟩] } }, rq, [1#8, 0#8, 0#8, 0#8], 1, by decide⟩

theorem test_DeviceRequests_13 : ∃ (s : State) (q : Req) (b : List Byte), s.accepted 0x0720 q b = true ∧ 132 ≤ leAt b 0 4 ∧ leAt b 0 4 ≤ imgMax :=
  ⟨stHost, rq, leBytes 4 132, by decide⟩

theorem test_DeviceRequests_14 : ∃ (s : State) (q : Req) (b : List Byte) (x : KLoad), s.accepted 0x0721 q b = true ∧ s.host.load = some x ∧ x.sess = q.sess ∧ leAt b 0 4 % 4 = 0 ∧ leAt b 0 4 + (b.drop 4).length ≤ x.len :=
  ⟨stHost.modHost (fun h => { h with load := some ⟨0, 132, []⟩ }), rq, leBytes 4 128 ++ List.replicate 4 9#8, ⟨0, 132, []⟩, by decide⟩

theorem test_DeviceRequests_15 : ∃ (s : State) (q : Req) (b : List Byte) (x : KLoad), s.accepted 0x0722 q b = true ∧ s.host.load = some x ∧ x.sess = q.sess ∧ (s.loadFail (s.loaded x) x.len).status = stOk :=
  ⟨stHost.modHost (fun h => { h with load := some ⟨0, 132, [(0, imgBuild 0 7 1 h.key [])]⟩ }), rq, [], ⟨0, 132, [(0, imgBuild 0 7 1 stHost.host.key [])]⟩, by decide +kernel⟩

theorem test_DeviceRequests_16 : ∃ (s : State) (q : Req) (b : List Byte) (x : KLoad), s.accepted 0x0722 q b = true ∧ s.host.load = some x ∧ x.sess = q.sess ∧ (s.loadFail (s.loaded x) x.len).status ≠ stOk :=
  ⟨stHost.modHost (fun h => { h with load := some ⟨0, 132, []⟩ }), rq, [], ⟨0, 132, []⟩, by decide +kernel⟩

theorem test_DeviceRequests_17 : ∃ (s : State) (q : Req) (b : List Byte) (k : Fin 2), s.accepted 0x0723 q b = true ∧ s.firm.kenebSlot = some k ∧ 4 ≤ leAt b 4 2 ∧ leAt b 4 2 ≤ 1024 ∧ leAt b 4 2 % 4 = 0 ∧ leAt b 0 4 % 4 = 0 ∧ leAt b 0 4 + leAt b 4 2 ≤ s.loadNat (imgAddr k + 20) 4 :=
  ⟨{ stHost with firm := { stHost.firm with kenebSlot := some 1 }, mram := mramPut stHost.mram (imgAddr 1) (imgBuild 0 7 1 stHost.host.key []) }, rq, leBytes 4 128 ++ leBytes 2 4 ++ [0#8, 0#8], 1, by decide +kernel⟩

theorem test_CommitPipeline_1 : ∃ (s : State) (c : Commit) (cs : List Commit), s.hasActive = true ∧ s.host.commits = c :: cs ∧ c.stage = .waiting ∧ s.brownWarn = false ∧ s.sluiceSpent 2 = false ∧ (s.headCheck c).status ≠ stOk :=
  ⟨{ (stSession .isOpen) with host := { (stSession .isOpen).host with commits := [⟨0, 0, 9, 5, 0x202, false, .write, [⟨0x2800, 0, 1, 0⟩], [], .waiting⟩] } }, ⟨0, 0, 9, 5, 0x202, false, .write, [⟨0x2800, 0, 1, 0⟩], [], .waiting⟩, [], by decide⟩

theorem test_CommitPipeline_2 : ∃ (s : State) (c : Commit) (cs : List Commit), s.hasActive = true ∧ s.host.commits = c :: cs ∧ c.stage = .waiting ∧ s.brownWarn = false ∧ s.sluiceSpent 2 = false ∧ (s.headCheck c).status = stOk :=
  ⟨{ stHost with host := { stHost.host with commits := [⟨0, 0, 9, 5, 0x202, false, .write, [⟨0x2800, 0, 1, 0⟩], [], .waiting⟩] } }, ⟨0, 0, 9, 5, 0x202, false, .write, [⟨0x2800, 0, 1, 0⟩], [], .waiting⟩, [], by decide +kernel⟩

theorem test_CommitPipeline_3 : ∃ (s : State) (c : Commit) (cs : List Commit), s.host.commits = c :: cs ∧ s.brownWarn = true ∧ c.writes = true :=
  ⟨{ stHost with host := { stHost.host with commits := [⟨0, 0, 9, 5, 0x202, false, .write, [⟨0x2800, 0, 1, 0⟩], [], .waiting⟩] }, power := { stHost.power with brown := .warn } }, ⟨0, 0, 9, 5, 0x202, false, .write, [⟨0x2800, 0, 1, 0⟩], [], .waiting⟩, [], by decide⟩

theorem test_CommitPipeline_4 : ∃ (s : State) (c : Commit) (cs : List Commit), s.hasActive = true ∧ s.host.commits = c :: cs ∧ c.stage = .writing ∧ s.brownWarn = false ∧ s.sluiceSpent 2 = false :=
  ⟨{ stHost with host := { stHost.host with commits := [⟨0, 0, 9, 5, 0x202, false, .write, [⟨0x2800, 0, 1, 0⟩], [], .writing⟩] } }, ⟨0, 0, 9, 5, 0x202, false, .write, [⟨0x2800, 0, 1, 0⟩], [], .writing⟩, [], by decide⟩

theorem test_CommitPipeline_5 : ∃ (s : State) (c : Commit) (cs : List Commit) (e : Entry), s.hasActive = true ∧ s.host.commits = c :: cs ∧ c.stage = .committed ∧ c.kind = .write ∧ c.entries = [e] ∧ e.isK = true :=
  ⟨{ stHost with host := { stHost.host with commits := [⟨0, 0, 9, 5, 0x202, false, .write, [⟨0x2800, 0, 1, 0⟩], [], .committed⟩] } }, ⟨0, 0, 9, 5, 0x202, false, .write, [⟨0x2800, 0, 1, 0⟩], [], .committed⟩, [], ⟨0x2800, 0, 1, 0⟩, by decide⟩

theorem test_CommitPipeline_6 : ∃ (s : State) (c : Commit) (cs : List Commit) (k : Fin 8), s.hasActive = true ∧ s.host.commits = c :: cs ∧ c.stage = .committed ∧ c.kind = .key ∧ s.keyLoadBad (c.key == 15) c.data = false ∧ leAt c.data 0 1 = k.val ∧ c.key ≠ k.val :=
  ⟨{ stHost with host := { stHost.host with commits := [⟨0, 0, 9, 5, 0x702, false, .key, [], [7#8, 3#8, 15#8, 0#8] ++ List.replicate 32 9#8, .committed⟩] } }, ⟨0, 0, 9, 5, 0x702, false, .key, [], [7#8, 3#8, 15#8, 0#8] ++ List.replicate 32 9#8, .committed⟩, [], 7, by decide⟩

theorem test_StagingOrder_1 : ∃ (s : State) (q : Req) (b : List Byte) (e : RawEntry) (i : Nat) (x : Entry), s.accepted 0x0203 q b = true ∧ leAt b 0 2 = 1 ∧ rawEntries 1 (b.drop 4) = some [e] ∧ s.firstFail q.sess q.pe 0 [e] = none ∧ (s.sess q.sess).staging[i]? = some x ∧ x.id = e.id ∧ x.inst = e.inst ∧ (s.sess q.sess).staging.length ≤ 256 :=
  ⟨stHost.modSess 0 (fun x => { x with staging := [⟨P.WEIR_ENABLE.id, 0, 0, 0⟩, ⟨P.PHASE_LOOP.id, 3, 1, 0⟩] }), rq, [1#8, 0#8, 0#8, 0#8] ++ entryBytes P.WEIR_ENABLE 0 1, ⟨P.WEIR_ENABLE.id, 0, P.WEIR_ENABLE.ty.write 1⟩, 0, ⟨P.WEIR_ENABLE.id, 0, 0, 0⟩, by decide⟩

theorem test_StagingOrder_2 : ∃ (s : State) (q : Req) (b : List Byte) (e : RawEntry), s.accepted 0x0203 q b = true ∧ leAt b 0 2 = 1 ∧ rawEntries 1 (b.drop 4) = some [e] ∧ s.firstFail q.sess q.pe 0 [e] = none ∧ ((∀ x ∈ (s.sess q.sess).staging, x.id ≠ e.id ∨ x.inst ≠ e.inst)) ∧ (s.sess q.sess).staging.length < 256 :=
  ⟨stHost.modSess 0 (fun x => { x with staging := [⟨P.PHASE_LOOP.id, 3, 1, 0⟩] }), rq, [1#8, 0#8, 0#8, 0#8] ++ entryBytes P.WEIR_ENABLE 0 1, ⟨P.WEIR_ENABLE.id, 0, P.WEIR_ENABLE.ty.write 1⟩, by decide⟩

theorem test_StagingOrder_3 : ∃ (s : State) (q : Req) (b : List Byte), s.accepted 0x0205 q b = true ∧ (s.sess q.sess).staging ≠ [] :=
  ⟨stHost.modSess 0 (fun x => { x with staging := [⟨0x2800, 0, 1, 0⟩, ⟨0x2800, 0, 0, 0⟩] }), rq, [], by decide⟩

theorem test_StagingOrder_4 : ∃ (s : State) (c : Commit) (cs : List Commit), s.hasActive = true ∧ s.host.commits = c :: cs ∧ c.stage = .committed ∧ c.kind = .staged ∧ (∀ e ∈ c.entries, e.isK = true) :=
  ⟨{ stHost with host := { stHost.host with commits := [⟨0, 0, 9, 5, 0x205, false, .staged, [⟨0x2800, 0, 0, 0⟩, ⟨0x2800, 0, 1, 0⟩], [], .committed⟩] } }, ⟨0, 0, 9, 5, 0x205, false, .staged, [⟨0x2800, 0, 0, 0⟩, ⟨0x2800, 0, 1, 0⟩], [], .committed⟩, [], by decide +kernel⟩

theorem test_StagingOrder_5 : ∃ (s : State) (c : Commit) (cs : List Commit), s.hasActive = true ∧ s.host.commits = c :: cs ∧ c.stage = .committed ∧ c.kind = .staged ∧ ((∀ e ∈ c.entries, e.isCtl = true ∧ e.isK = false)) :=
  ⟨{ stHost with host := { stHost.host with commits := [⟨0, 0, 9, 5, 0x205, false, .staged, [⟨P.TIMER_CTRL.id, 0, 1, 0⟩, ⟨P.TIMER_CTRL.id, 0, 2, 0⟩], [], .committed⟩] } }, ⟨0, 0, 9, 5, 0x205, false, .staged, [⟨P.TIMER_CTRL.id, 0, 1, 0⟩, ⟨P.TIMER_CTRL.id, 0, 2, 0⟩], [], .committed⟩, [], by decide +kernel⟩

theorem test_SuppliesAndResets_1 : ∃ (s : State) (i : Fin 10), isMonitored i = true ∧ s.dev.state ≠ .dormant ∧ s.dev.held = false ∧ s.power.brown = .normal :=
  ⟨stHost, 7, by decide⟩

theorem test_SuppliesAndResets_2 : ∃ (s : State) (i : Fin 10), isMonitored i = true ∧ s.dev.state ≠ .dormant ∧ s.dev.held = false ∧ s.power.brown ≠ .normal :=
  ⟨{ stHost with power := { stHost.power with brown := .resume, set := 1 } }, 7, by decide⟩

theorem test_SuppliesAndResets_3 : ∃ (s : State) (i : Fin 10), isMonitored i = true ∧ s.dev.state ≠ .dormant ∧ s.dev.held = true :=
  ⟨State.reset, 7, by decide⟩

theorem test_SuppliesAndResets_4 : ∃ s : State, s.power.brown = .warn :=
  ⟨{ stHost with power := { stHost.power with brown := .warn, set := 1 } }, by decide⟩

theorem test_SuppliesAndResets_5 : ∃ s : State, s.power.brown = .resume ∧ s.clk.tick < s.power.resumeAt + 25000 :=
  ⟨{ stHost with power := { stHost.power with brown := .resume, set := 1 } }, by decide⟩

theorem test_SuppliesAndResets_6 : ∃ s : State, s.power.brown = .resume ∧ s.power.resumeAt + 25000 ≤ s.clk.tick :=
  ⟨onTick 25000 { stHost with power := { stHost.power with brown := .resume, set := 1 } }, by decide⟩

theorem test_SuppliesAndResets_7 : ∃ s : State, s.power.brown ≠ .resume :=
  ⟨stHost, by decide⟩

theorem test_SuppliesAndResets_8 : ∃ (s : State) (i : Fin 10), (i.val = 2 ∨ i.val = 5 ∨ i.val = 6 ∨ i.val = 7) ∧ s.dev.state ≠ .dormant :=
  ⟨stHost, 7, by decide⟩

theorem test_SuppliesAndResets_9 : ∃ (s : State) (i : Fin 10), i.val ≠ 2 ∧ i.val ≠ 5 ∧ i.val ≠ 6 ∧ i.val ≠ 7 :=
  ⟨stHost, 4, by decide⟩

theorem test_SuppliesAndResets_10 : ∃ s : State, True :=
  ⟨stHost, by decide⟩

theorem test_SuppliesAndResets_11 : ∃ s : State, s.dev.state ≠ .dormant :=
  ⟨stHost, by decide⟩

theorem test_SuppliesAndResets_12 : ∃ (s : State) (long : Bool), s.dev.state ≠ .dormant :=
  ⟨stHost.modTd 3 (fun x => { x with st := .latched }), true, by decide⟩

theorem test_SuppliesAndResets_13 : ∃ (s : State) (long : Bool), s.dev.state ≠ .dormant ∧ ((long = false ∨ ∀ d : Fin 8, s.therm.die[d].st ≠ .latched)) :=
  ⟨stHost.modTd 3 (fun x => { x with st := .latched }), false, by decide⟩

theorem test_SuppliesAndResets_14 : ∃ (s : State) (d : Fin 8), s.dev.state ≠ .dormant ∧ s.therm.die[d].st = .latched :=
  ⟨stHost.modTd 3 (fun x => { x with st := .latched }), 3, by decide⟩

theorem test_SuppliesAndResets_15 : ∃ (s : State) (c : Nat), s.dev.state = .dormant ∧ s.wakeOn c = true :=
  ⟨{ stHost with dev := { stHost.dev with state := .dormant, held := true } }, 6, by decide⟩

theorem test_SuppliesAndResets_16 : ∃ (s : State) (c : Nat), s.dev.state = .dormant ∧ s.wakeOn c = true :=
  ⟨{ stHost with dev := { stHost.dev with state := .dormant, held := true } }, 6, by decide⟩

theorem test_SuppliesAndResets_17 : ∃ (s : State) (c : Nat) (early : Bool), (s.dev.state ≠ .dormant ∨ s.wakeOn c = false) :=
  ⟨stHost, 6, false, by decide⟩

theorem test_SuppliesAndResets_18 : ∃ (s : State) (c : Nat), s.dev.state = .dormant ∧ s.spring.wakeLatch = some c :=
  ⟨{ stHost with dev := { stHost.dev with state := .dormant, held := true }, spring := { stHost.spring with wakeLatch := some 2 } }, 2, by decide⟩

theorem test_SuppliesAndResets_19 : ∃ s : State, s.dev.held = true ∧ s.dev.state = .boot ∧ s.spring.kind = 3 :=
  ⟨{ State.reset with spring := { State.reset.spring with kind := 3, wakeCause := 2 } }, by decide⟩

theorem test_SuppliesAndResets_20 : ∃ (s : State) (k : Fin 2), s.dev.held = false ∧ s.stems.stem[1 - k].low = false ∧ s.stemSt k = .standby ∧ s.stemSt (1 - k) = .active :=
  ⟨{ stBoth with dev := { stBoth.dev with held := false } }, 1, by decide⟩

theorem test_SuppliesAndResets_21 : ∃ (s : State) (k : Fin 2), s.dev.held = false ∧ s.stems.stem[1 - k].low = true :=
  ⟨{ stBoth.modStem 0 (fun x => { x with low := true }) with dev := { stBoth.dev with held := false } }, 1, by decide⟩

theorem test_SuppliesAndResets_22 : ∃ s : State, True :=
  ⟨stHost, by decide⟩

theorem test_SuppliesAndResets_23 : ∃ s : State, True :=
  ⟨stHost, by decide⟩

theorem test_SuppliesAndResets_24 : ∃ (s : State) (v : Vector Int 10) (i : Fin 10), s.dev.held = false ∧ isMonitored i = true :=
  ⟨stHost, #v[800, 800, 800, 800, 0, 1799, 3300, 3300, 0, 0], 5, by decide⟩

theorem test_SuppliesAndResets_25 : ∃ (s : State) (mv : Nat), True :=
  ⟨stHost, 2500, by decide⟩

theorem test_StartsAndChain_1 : ∃ s : State, s.dev.held = true ∧ s.dev.state ≠ .dormant ∧ s.ledgerPick = none ∧ s.firm.trialSlot = none ∧ s.slotCause s.firm.runSlot = 0 ∧ (∀ d : Fin 8, s.therm.die[d].st = .run) ∧ (∀ k : Fin 2, s.stems.stem[k].low = false) :=
  ⟨{ State.reset with firm := { State.reset.firm with slot := #v[some ⟨1, 0, 1024⟩, none] } }, by decide +kernel⟩

theorem test_StartsAndChain_2 : ∃ s : State, s.dev.held = false :=
  ⟨stHost, by decide⟩

theorem test_StartsAndChain_3 : ∃ (s : State) (head : Bool), s.hasActive = true ∧ s.dev.applied = false ∧ s.imgChoose.1 = none :=
  ⟨stFeed .off, true, by decide +kernel⟩

theorem test_StartsAndChain_4 : ∃ (s : State) (head : Bool) (x : Nat × SMap Int), s.hasActive = true ∧ s.dev.applied = false ∧ s.imgChoose.1 = some x :=
  ⟨{ stFeed .off with mram := mramPut [] (imgAddr 0) (imgBuild 0 7 1 State.reset.host.key (cfgSet [] P.DEV_BOOT_STATE 0 2)) }, false, (0, (({ stFeed .off with mram := mramPut [] (imgAddr 0) (imgBuild 0 7 1 State.reset.host.key (cfgSet [] P.DEV_BOOT_STATE 0 2)) } : State).imgCheck 0).2), by decide +kernel⟩

theorem test_StartsAndChain_5 : ∃ (s : State) (head : Bool), (s.hasActive = false ∨ s.dev.applied = true) :=
  ⟨stFeed .off |>.modStem 0 (fun x => { x with st := .boot }), true, by decide⟩

theorem test_StartsAndChain_6 : ∃ (s : State) (l : Fin 16), s.hasActive = true ∧ s.dev.state = .run ∧ s.dev.auto[l] = true ∧ s.canStart l = true ∧ s.par P.LOOP_ENABLE l ≠ 0 ∧ s.loop[l].ct.state = .stopped :=
  ⟨{ stCtl.modStem 0 (fun x => { x with st := .active }) with dev := { stCtl.dev with state := .run, auto := stCtl.dev.auto.set 0 true } }, 0, by decide⟩

theorem test_StartsAndChain_7 : ∃ (s : State) (l : Fin 16), s.dev.auto[l] = false :=
  ⟨stHost, 15, by decide⟩

theorem test_StartsAndChain_8 : ∃ s : State, s.dev.held = false ∧ s.dev.state ≠ .dormant :=
  ⟨stHost, by decide⟩

theorem test_StartsAndChain_9 : ∃ s : State, s.clk.tick < s.firm.trialTick + s.parN P.DEV_FW_TRIAL_TIME 0 * 250000000 :=
  ⟨{ stHost with firm := { stHost.firm with slot := #v[none, some ⟨9, 3, 1024⟩], trialSlot := some 1, trialStart := 8, trialBoots := 1 } }, by decide⟩

theorem test_StartsAndChain_10 : ∃ (s : State) (k : Fin 2) (x : FwImage), s.hasActive = true ∧ s.firm.trialSlot = some k ∧ s.firm.slot[k] = some x ∧ s.firm.trialStart ≠ 0 ∧ s.firm.trialTick + s.parN P.DEV_FW_TRIAL_TIME 0 * 250000000 ≤ s.clk.tick :=
  ⟨onTick 10000000000000 { stHost with firm := { stHost.firm with slot := #v[none, some ⟨9, 3, 1024⟩], trialSlot := some 1, trialStart := 8, trialBoots := 1 } }, 1, ⟨9, 3, 1024⟩, by decide⟩

theorem test_StartsAndChain_11 : ∃ (s : State) (n : Fin 2), s.hasActive = true :=
  ⟨stFeed .off, 1, by decide⟩

theorem test_StartsAndChain_12 : ∃ (s : State) (n : Fin 2), s.dev.held = false :=
  ⟨stHost, 1, by decide⟩

theorem test_StartsAndChain_13 : ∃ (s : State) (n : Fin 2), True :=
  ⟨stHost, 1, by decide⟩

theorem test_StartsAndChain_14 : ∃ (s : State) (n : Fin 2) (data : List Byte), crc32c (data.take (data.length - 4)) ≠ leAt data (data.length - 4) 4 :=
  ⟨stHost, 0, List.replicate 16 0, by decide +kernel⟩

theorem test_StartsAndChain_15 : ∃ (s : State) (n : Fin 2) (data : List Byte), s.hasActive = true ∧ s.chain.peer[n].up = true ∧ data.length = 16 ∧ leAt data 0 1 = 1 ∧ leAt data 2 2 = 4 ∧ crc32c (data.take 12) = leAt data 12 4 :=
  ⟨stHost.modPeer 0 (fun x => { x with up := true }), 0, ([1#8, 9#8] ++ leBytes 2 4 ++ List.replicate 8 0#8) ++ leBytes 4 (crc32c ([1#8, 9#8] ++ leBytes 2 4 ++ List.replicate 8 0#8)), by decide +kernel⟩

theorem test_StepRunsTheFront_1 : ∃ s : State, s.pending = [] ∧ s.clk.dlRef = true :=
  ⟨{ stHost with clk := { stHost.clk with dlRef := true } }, by decide⟩

theorem test_StepRunsTheFront_2 : ∃ s : State, s.pending = [] ∧ s.clk.dlRef = true ∧ s.stems.doubt = none :=
  ⟨{ stHost with clk := { stHost.clk with dlRef := true } }, by decide⟩

theorem test_StepRunsTheFront_3 : ∃ s : State, s.pending = [] ∧ s.clk.dlRef = false ∧ s.stems.doubt = none :=
  ⟨State.reset, by decide⟩

end Sys2Proof.Tests
end

/-! PROOFS. The step of the block: which of its two branches a queue selects, and what the idle tick does to the clock (R8, R35, R36, R448). -/

namespace Sys2Proof.Machine

theorem step_of_pending_cons {s : State} {c : Instr} {cs : List Instr} (h : s.pending = c :: cs) :
    step s = exec c { s with pending := cs } := by
  unfold step
  rw [h]

theorem step_of_pending_nil {s : State} (h : s.pending = []) : step s = .next s.tickOnce := by
  unfold step
  rw [h]

theorem State.clockOnce_of_dlRef {s : State} (h : s.clk.dlRef = true) :
    s.clockOnce = { s with clk := { s.clk with tick := s.clk.tick + 1, t5k := s.clk.t5k + s.tb.slew.rate } } :=
  if_pos h

theorem State.clockOnce_of_not_dlRef {s : State} (h : s.clk.dlRef = false) : s.clockOnce = s :=
  if_neg (by simp [h])

/-- The clock's tick leaves the stems, and so a mismatch of outputs that waits (R448), as they are. -/
@[simp] theorem State.clockOnce_stems (s : State) : s.clockOnce.stems = s.stems := by
  unfold State.clockOnce
  split
  · rfl
  · rfl

theorem State.doubtEnd_of_doubt_none {s : State} (h : s.stems.doubt = none) : s.doubtEnd = s := by
  unfold State.doubtEnd
  rw [h]

/-- With no mismatch of outputs waiting, a tick moves the clock alone. -/
theorem State.tickOnce_of_doubt_none {s : State} (h : s.stems.doubt = none) : s.tickOnce = s.clockOnce :=
  State.doubtEnd_of_doubt_none (by rw [State.clockOnce_stems, h])

/-- Settles O55: the queue selects the branch of `step`, and DL_REF the one of its tick. -/
theorem stepRunsTheFront : Obligations.StepRunsTheFront := by
  unfold Obligations.StepRunsTheFront
  refine ⟨?front, ?tick, ?tickAlone, ?stands⟩
  case front => exact fun _ _ _ => step_of_pending_cons rfl
  case tick =>
    intro s hq href
    exact ⟨s.tickOnce, step_of_pending_nil hq, congrArg State.doubtEnd (State.clockOnce_of_dlRef href)⟩
  case tickAlone =>
    intro s hq href hd
    exact ⟨s.tickOnce, step_of_pending_nil hq, (State.tickOnce_of_doubt_none hd).trans (State.clockOnce_of_dlRef href)⟩
  case stands =>
    intro s hq href hd
    exact ⟨s.tickOnce, step_of_pending_nil hq, (State.tickOnce_of_doubt_none hd).trans (State.clockOnce_of_not_dlRef href)⟩

end Sys2Proof.Machine

/-! PROOFS. What every command answers and what it leaves as it was: the mask of the parts a command names (Instr.parts), and its answer
within that mask, one arm for each command. -/

namespace Sys2Proof.Machine

/-- The mask of a list of parts: the bit of each. -/
def maskOf (ps : List Part) : Nat := ps.foldr (fun p m => 2 ^ p.idx ||| m) 0

theorem Part.idx_injective : Function.Injective Part.idx :=
  Function.LeftInverse.injective (g := Part.ofNat) fun p => by cases p <;> rfl

/-- The bits of the mask are those of the parts in the list. -/
theorem testBit_maskOf (ps : List Part) (p : Part) : (maskOf ps).testBit p.idx = true ↔ p ∈ ps := by
  induction ps with
  | nil => simp [maskOf]
  | cons q ps ih =>
    have hq : (2 ^ q.idx).testBit p.idx = true ↔ p = q := by
      rw [Nat.testBit_two_pow, decide_eq_true_iff, Part.idx_injective.eq_iff, eq_comm]
    rw [List.mem_cons, ← ih, ← hq, ← Bool.or_eq_true, ← Nat.testBit_or]
    rfl

/-- A mask lies within the parts of a command where the parts have all its bits, which their list shows. -/
theorem Within.ofParts {m : Nat} {ps : List Part} (h : m &&& maskOf ps = m := by dsimp only [Instr.parts]; decide) :
    Within m (maskOf ps) :=
  Within.mono h fun _ hi => hi

/-- Every command answers a next state that differs in the parts the command names alone: each law of an operation of the model, at the
mask of the parts of its command. -/
theorem exec_answers : ∀ (c : Instr) (s : State), Answers (maskOf c.parts) s (exec c s)
  | .sluicePeriodBoundary, s => execSluicePeriodBoundary_answers s .ofParts
  | .tbLocked _ _, s => execTbLocked_answers _ _ s .ofParts
  | .tbRefclkLoss, s => execTbRefclkLoss_answers s .ofParts
  | .tbSyncLoss, s => execTbSyncLoss_answers s .ofParts
  | .tbAnnounceTimeout, s => execTbAnnounceTimeout_answers s .ofParts
  | .tbReferenceReturn, s => execTbReferenceReturn_answers s .ofParts
  | .tbHoldoverExpiry, s => execTbHoldoverExpiry_answers s .ofParts
  | .ptpEventMessage _ _ _, s => execPtpEventMessage_answers _ _ _ s .ofParts
  | .poolAdmitFrame, s => execPoolAdmitFrame_answers s .ofParts
  | .loopPeriodStart _, s => execLoopPeriodStart_answers _ s .ofParts
  | .ssFrequencyDraw _, s => execSsFrequencyDraw_answers _ s .ofParts
  | .pulseStart _, s => execPulseStart_answers _ s .ofParts
  | .phaseBlankEnd _ _ _, s => execPhaseBlankEnd_answers _ _ _ s .ofParts
  | .regulationTrip _ _, s => execRegulationTrip_answers _ _ s .ofParts
  | .limitComparatorTrip _ _, s => execLimitComparatorTrip_answers _ _ s .ofParts
  | .maxdutyReached _, s => execMaxdutyReached_answers _ s .ofParts
  | .deadTimeEnd _, s => execDeadTimeEnd_answers _ s .ofParts
  | .toffMinEnd _, s => execToffMinEnd_answers _ s .ofParts
  | .phaseAdcSample _ _ _, s => execPhaseAdcSample_answers _ _ _ s .ofParts
  | .phaseCmdFrame _ _, s => execPhaseCmdFrame_answers _ _ s .ofParts
  | .phaseRefreshFrame _ _, s => execPhaseRefreshFrame_answers _ _ s .ofParts
  | .phaseCalDone _ _, s => execPhaseCalDone_answers _ _ s .ofParts
  | .phaseDieArmed _, s => execPhaseDieArmed_answers _ s .ofParts
  | .phaseCmdWdogExpire _, s => execPhaseCmdWdogExpire_answers _ s .ofParts
  | .phaseSrcSignalLow _, s => execPhaseSrcSignalLow_answers _ s .ofParts
  | .delayLineCalLost _, s => execDelayLineCalLost_answers _ s .ofParts
  | .phaseDieReport _, s => execPhaseDieReport_answers _ s .ofParts
  | .phaseTlmPublish _, s => execPhaseTlmPublish_answers _ s .ofParts
  | .vsConversion _ _ _, s => execVsConversion_answers _ _ _ s .ofParts
  | .vsOvershootEnter _ _, s => execVsOvershootEnter_answers _ _ s .ofParts
  | .vsOvershootRelease _ _, s => execVsOvershootRelease_answers _ _ s .ofParts
  | .vsUndershootEnter _ _, s => execVsUndershootEnter_answers _ _ s .ofParts
  | .vsUndershootRelease _ _, s => execVsUndershootRelease_answers _ _ s .ofParts
  | .forcedPulseMax _, s => execForcedPulseMax_answers _ s .ofParts
  | .phaseFeedLossLatch _, s => execPhaseFeedLossLatch_answers _ s .ofParts
  | .loopEvaluation, s => execLoopEvaluation_answers s .ofParts
  | .loopCtrlStart _ _, s => execLoopCtrlStart_answers _ _ s .ofParts
  | .loopCtrlStop _ _, s => execLoopCtrlStop_answers _ _ s .ofParts
  | .loopCtrlClear _ _, s => execLoopCtrlClear_answers _ _ s .ofParts
  | .followErrExpire _, s => execFollowErrExpire_answers _ s .ofParts
  | .limitReport _, s => execLimitReport_answers _ s .ofParts
  | .hiccupOffEnd _, s => execHiccupOffEnd_answers _ s .ofParts
  | .startShortExpire _, s => execStartShortExpire_answers _ s .ofParts
  | .ocCleanTimeEnd _, s => execOcCleanTimeEnd_answers _ s .ofParts
  | .shedComplete _, s => execShedComplete_answers _ s .ofParts
  | .shedAbort _ _ _, s => execShedAbort_answers _ _ _ s .ofParts
  | .ebbHoldoffEnd _, s => execEbbHoldoffEnd_answers _ s .ofParts
  | .slotRotation _, s => execSlotRotation_answers _ s .ofParts
  | .ebbWindowEnd _, s => execEbbWindowEnd_answers _ s .ofParts
  | .faultStatusRelease _ _, s => execFaultStatusRelease_answers _ _ s .ofParts
  | .bankMeteringStep _, s => execBankMeteringStep_answers _ s .ofParts
  | .feedFastTrip _ _, s => execFeedFastTrip_answers _ _ s .ofParts
  | .feedReverseTrip _ _ _, s => execFeedReverseTrip_answers _ _ _ s .ofParts
  | .feedOrOnDelayEnd _, s => execFeedOrOnDelayEnd_answers _ s .ofParts
  | .feedInsertTimer _, s => execFeedInsertTimer_answers _ s .ofParts
  | .feedPreTmaxExpire _, s => execFeedPreTmaxExpire_answers _ s .ofParts
  | .feedSoaTimerExpire _, s => execFeedSoaTimerExpire_answers _ s .ofParts
  | .feedPreOverlapEnd _, s => execFeedPreOverlapEnd_answers _ s .ofParts
  | .feedCleanTimeEnd _, s => execFeedCleanTimeEnd_answers _ s .ofParts
  | .feedRetryDelayEnd _, s => execFeedRetryDelayEnd_answers _ s .ofParts
  | .feedLossCompLow _, s => execFeedLossCompLow_answers _ s .ofParts
  | .feedLossCompHigh _, s => execFeedLossCompHigh_answers _ s .ofParts
  | .feedFetShort _ _ _ _, s => execFeedFetShort_answers _ _ _ _ s .ofParts
  | .feedGateFail _ _ _, s => execFeedGateFail_answers _ _ _ s .ofParts
  | .feedTestEnd _, s => execFeedTestEnd_answers _ s .ofParts
  | .feedCtrlEnable _ _, s => execFeedCtrlEnable_answers _ _ s .ofParts
  | .feedCtrlDisable _ _, s => execFeedCtrlDisable_answers _ _ s .ofParts
  | .feedCtrlClear _ _, s => execFeedCtrlClear_answers _ _ s .ofParts
  | .feedCtrlTest _ _, s => execFeedCtrlTest_answers _ _ s .ofParts
  | .feedCtrlResetEnergy _ _, s => execFeedCtrlResetEnergy_answers _ _ s .ofParts
  | .bankHeartbeat, s => execBankHeartbeat_answers s .ofParts
  | .bankHbTimeout, s => execBankHbTimeout_answers s .ofParts
  | .bankHbReturn, s => execBankHbReturn_answers s .ofParts
  | .bankParamFrame _, s => execBankParamFrame_answers _ s .ofParts
  | .bankParamCommit, s => execBankParamCommit_answers s .ofParts
  | .bankCommandFrame, s => execBankCommandFrame_answers s .ofParts
  | .bankTelemetry, s => execBankTelemetry_answers s .ofParts
  | .energyCopy, s => execEnergyCopy_answers s .ofParts
  | .bankPowerOn, s => execBankPowerOn_answers s .ofParts
  | .bankPowerOff, s => execBankPowerOff_answers s .ofParts
  | .shareUpdate, s => execShareUpdate_answers s .ofParts
  | .shareTieUpdate, s => execShareTieUpdate_answers s .ofParts
  | .peerShareSend, s => execPeerShareSend_answers s .ofParts
  | .holdPreloadCompute, s => execHoldPreloadCompute_answers s .ofParts
  | .feedLossInput, s => execFeedLossInput_answers s .ofParts
  | .feedLossReleaseInput, s => execFeedLossReleaseInput_answers s .ofParts
  | .holdReturnTimer, s => execHoldReturnTimer_answers s .ofParts
  | .holdQuorumMet, s => execHoldQuorumMet_answers s .ofParts
  | .holdCtrlHandback _, s => execHoldCtrlHandback_answers _ s .ofParts
  | .weirEvaluation _ _, s => execWeirEvaluation_answers _ _ s .ofParts
  | .throttleResend, s => execThrottleResend_answers s .ofParts
  | .battCountSample _, s => execBattCountSample_answers _ s .ofParts
  | .battRestAnchor _, s => execBattRestAnchor_answers _ s .ofParts
  | .battFullAnchor _, s => execBattFullAnchor_answers _ s .ofParts
  | .battVoltageEmpty _, s => execBattVoltageEmpty_answers _ s .ofParts
  | .battCutoff _, s => execBattCutoff_answers _ s .ofParts
  | .battAbsent _, s => execBattAbsent_answers _ s .ofParts
  | .battCtrlClearCutoff _ _, s => execBattCtrlClearCutoff_answers _ _ s .ofParts
  | .battCtrlCancelLearn _ _, s => execBattCtrlCancelLearn_answers _ _ s .ofParts
  | .battCtrlReestimate _ _, s => execBattCtrlReestimate_answers _ _ s .ofParts
  | .portTrainComplete _ _, s => execPortTrainComplete_answers _ _ s .ofParts
  | .portTrainDwellExpire _, s => execPortTrainDwellExpire_answers _ s .ofParts
  | .portLossOfLock _, s => execPortLossOfLock_answers _ s .ofParts
  | .portErrorRate _ _, s => execPortErrorRate_answers _ _ s .ofParts
  | .portUpshiftAttempt _, s => execPortUpshiftAttempt_answers _ s .ofParts
  | .portRetrainDelayEnd _, s => execPortRetrainDelayEnd_answers _ s .ofParts
  | .rillFrameReceive _ _ _ _ _, s => execRillFrameReceive_answers _ _ _ _ _ s .ofParts
  | .rillRxTimeout _, s => execRillRxTimeout_answers _ s .ofParts
  | .rillCreditReceive _ _ _, s => execRillCreditReceive_answers _ _ _ s .ofParts
  | .rillFrameTransmit _, s => execRillFrameTransmit_answers _ s .ofParts
  | .portTxStall _, s => execPortTxStall_answers _ s .ofParts
  | .stampFieldFrame _, s => execStampFieldFrame_answers _ s .ofParts
  | .hubFrameReceive, s => execHubFrameReceive_answers s .ofParts
  | .hubFrameTimeout _, s => execHubFrameTimeout_answers _ s .ofParts
  | .pmbDiscovery _ _, s => execPmbDiscovery_answers _ _ s .ofParts
  | .pmbPollCycle _, s => execPmbPollCycle_answers _ s .ofParts
  | .pmbTransactionDone _ _ _, s => execPmbTransactionDone_answers _ _ _ s .ofParts
  | .pmbBusTimeout _ _ _, s => execPmbBusTimeout_answers _ _ _ s .ofParts
  | .pmbBusRecoveryRetry _ _, s => execPmbBusRecoveryRetry_answers _ _ s .ofParts
  | .pmbAlert _ _ _ _, s => execPmbAlert_answers _ _ _ _ s .ofParts
  | .pmbAlertUnmask _, s => execPmbAlertUnmask_answers _ s .ofParts
  | .nodeMsgReceive, s => execNodeMsgReceive_answers s .ofParts
  | .nodeOpenRequest, s => execNodeOpenRequest_answers s .ofParts
  | .nodeReply, s => execNodeReply_answers s .ofParts
  | .nodeLeaseLapse _, s => execNodeLeaseLapse_answers _ s .ofParts
  | .nodeKeepaliveSend _, s => execNodeKeepaliveSend_answers _ s .ofParts
  | .nodeRetxTimeout _, s => execNodeRetxTimeout_answers _ s .ofParts
  | .nodeCtrlClose _ _, s => execNodeCtrlClose_answers _ _ s .ofParts
  | .holdupStateResend, s => execHoldupStateResend_answers s .ofParts
  | .poolActionLoopStop, s => execPoolActionLoopStop_answers s .ofParts
  | .poolActionNodeOff, s => execPoolActionNodeOff_answers s .ofParts
  | .subNoticePost, s => execSubNoticePost_answers s .ofParts
  | .poolScrub _, s => execPoolScrub_answers _ s .ofParts
  | .siltEvent, s => execSiltEvent_answers s .ofParts
  | .siltRecordCommit, s => execSiltRecordCommit_answers s .ofParts
  | .siltTallyWrite, s => execSiltTallyWrite_answers s .ofParts
  | .ledgerWrite, s => execLedgerWrite_answers s .ofParts
  | .siltCursorWrite _ _, s => execSiltCursorWrite_answers _ _ s .ofParts
  | .siltWinLatch _, s => execSiltWinLatch_answers _ s .ofParts
  | .siltWinAutoAdvance _, s => execSiltWinAutoAdvance_answers _ s .ofParts
  | .siltCtrlClear _, s => execSiltCtrlClear_answers _ s .ofParts
  | .spateFrame, s => execSpateFrame_answers s .ofParts
  | .spateTrigger, s => execSpateTrigger_answers s .ofParts
  | .spateFreeze, s => execSpateFreeze_answers s .ofParts
  | .spateBlockCopy, s => execSpateBlockCopy_answers s .ofParts
  | .spateCtrlTrigger _, s => execSpateCtrlTrigger_answers _ s .ofParts
  | .spateCtrlLock _ _, s => execSpateCtrlLock_answers _ _ s .ofParts
  | .spateCtrlUnlock _ _, s => execSpateCtrlUnlock_answers _ _ s .ofParts
  | .hostEthFrame _ _, s => execHostEthFrame_answers _ _ s .ofParts
  | .hostEthRegAccess _ _ _, s => execHostEthRegAccess_answers _ _ _ s .ofParts
  | .hostEthLink _ _, s => execHostEthLink_answers _ _ s .ofParts
  | .hostRegWrite _ _ _, s => execHostRegWrite_answers _ _ _ s .ofParts
  | .hrTimeLoRead _, s => execHrTimeLoRead_answers _ s .ofParts
  | .mbTxWrite _ _ _, s => execMbTxWrite_answers _ _ _ s .ofParts
  | .mbRxRead _ _, s => execMbRxRead_answers _ _ s .ofParts
  | .hostSpiAbandon _ _ _, s => execHostSpiAbandon_answers _ _ _ s .ofParts
  | .mbClaim _ _, s => execMbClaim_answers _ _ s .ofParts
  | .mbRelease _ _, s => execMbRelease_answers _ _ s .ofParts
  | .mbDoorbell _ _, s => execMbDoorbell_answers _ _ s .ofParts
  | .mbTxDiscard _ _, s => execMbTxDiscard_answers _ _ s .ofParts
  | .mbRxSkip _ _, s => execMbRxSkip_answers _ _ s .ofParts
  | .hostRequestTake _, s => execHostRequestTake_answers _ s .ofParts
  | .sessionClaimTimeout _, s => execSessionClaimTimeout_answers _ s .ofParts
  | .sessionProveTimeout _, s => execSessionProveTimeout_answers _ s .ofParts
  | .sessionLeaseLapse _, s => execSessionLeaseLapse_answers _ s .ofParts
  | .permitLapse _, s => execPermitLapse_answers _ s .ofParts
  | .keyLockoutEnd _, s => execKeyLockoutEnd_answers _ s .ofParts
  | .commitPipelineHead, s => execCommitPipelineHead_answers s .ofParts
  | .kenebImageWritten, s => execKenebImageWritten_answers s .ofParts
  | .commitApply, s => execCommitApply_answers s .ofParts
  | .sessionOpen _ _ _ _ _, s => execSessionOpen_answers _ _ _ _ _ s .ofParts
  | .sessionProve _ _, s => execSessionProve_answers _ _ s .ofParts
  | .sessionClose _ _, s => execSessionClose_answers _ _ s .ofParts
  | .hostKeepalive _ _, s => execHostKeepalive_answers _ _ s .ofParts
  | .noticeSet _ _, s => execNoticeSet_answers _ _ s .ofParts
  | .permitAcquire _ _, s => execPermitAcquire_answers _ _ s .ofParts
  | .permitRenew _ _, s => execPermitRenew_answers _ _ s .ofParts
  | .permitRelease _ _, s => execPermitRelease_answers _ _ s .ofParts
  | .permitTake _ _, s => execPermitTake_answers _ _ s .ofParts
  | .paramRead _ _, s => execParamRead_answers _ _ s .ofParts
  | .paramWrite _ _, s => execParamWrite_answers _ _ s .ofParts
  | .stage _ _, s => execStage_answers _ _ s .ofParts
  | .discard _ _, s => execDiscard_answers _ _ s .ofParts
  | .commit _ _, s => execCommit_answers _ _ s .ofParts
  | .pointRead _ _, s => execPointRead_answers _ _ s .ofParts
  | .subscribe _ _, s => execSubscribe_answers _ _ s .ofParts
  | .unsubscribe _ _, s => execUnsubscribe_answers _ _ s .ofParts
  | .siltRead _ _, s => execSiltRead_answers _ _ s .ofParts
  | .spateRead _ _, s => execSpateRead_answers _ _ s .ofParts
  | .battExport _ _, s => execBattExport_answers _ _ s .ofParts
  | .battRestore _ _, s => execBattRestore_answers _ _ s .ofParts
  | .nodeRelay _ _, s => execNodeRelay_answers _ _ s .ofParts
  | .pmbusXfer _ _, s => execPmbusXfer_answers _ _ s .ofParts
  | .timeSet _ _, s => execTimeSet_answers _ _ s .ofParts
  | .keyLoad _ _, s => execKeyLoad_answers _ _ s .ofParts
  | .stateReq _ _, s => execStateReq_answers _ _ s .ofParts
  | .fwBegin _ _, s => execFwBegin_answers _ _ s .ofParts
  | .fwBlock _ _, s => execFwBlock_answers _ _ s .ofParts
  | .fwEnd _ _, s => execFwEnd_answers _ _ s .ofParts
  | .fwActivate _ _, s => execFwActivate_answers _ _ s .ofParts
  | .kenebBegin _ _, s => execKenebBegin_answers _ _ s .ofParts
  | .kenebBlock _ _, s => execKenebBlock_answers _ _ s .ofParts
  | .kenebEnd _ _, s => execKenebEnd_answers _ _ s .ofParts
  | .kenebRead _ _, s => execKenebRead_answers _ _ s .ofParts
  | .stemHeartbeat _ _, s => execStemHeartbeat_answers _ _ s .ofParts
  | .stemSilence _, s => execStemSilence_answers _ s .ofParts
  | .stemOutputCopy _ _ _ _, s => execStemOutputCopy_answers _ _ _ _ s .ofParts
  | .stemOutputLate, s => execStemOutputLate_answers s .ofParts
  | .stemFaultReport _ _ _, s => execStemFaultReport_answers _ _ _ s .ofParts
  | .stemSwitchoverInput, s => execStemSwitchoverInput_answers s .ofParts
  | .stemWatchdogExpire _, s => execStemWatchdogExpire_answers _ s .ofParts
  | .bridgeFlitCrcFail _ _, s => execBridgeFlitCrcFail_answers _ _ s .ofParts
  | .stemBootComplete _, s => execStemBootComplete_answers _ s .ofParts
  | .stemRestartComplete _, s => execStemRestartComplete_answers _ s .ofParts
  | .stemResyncPass _, s => execStemResyncPass_answers _ s .ofParts
  | .stemDigestRound _, s => execStemDigestRound_answers _ s .ofParts
  | .stemSyncAgreement, s => execStemSyncAgreement_answers s .ofParts
  | .stemResyncTimeout, s => execStemResyncTimeout_answers s .ofParts
  | .stemCtrlSwitchover _, s => execStemCtrlSwitchover_answers _ s .ofParts
  | .stemCtrlResync _, s => execStemCtrlResync_answers _ s .ofParts
  | .stemCtrlRestartStandby _, s => execStemCtrlRestartStandby_answers _ s .ofParts
  | .thermScan _ _ _, s => execThermScan_answers _ _ _ s .ofParts
  | .thermAutoStart _, s => execThermAutoStart_answers _ s .ofParts
  | .thermCtrlClearLatch _ _, s => execThermCtrlClearLatch_answers _ _ s .ofParts
  | .thermSensorRelearn _ _, s => execThermSensorRelearn_answers _ _ s .ofParts
  | .timerAdvance _, s => execTimerAdvance_answers _ s .ofParts
  | .timerWriteApply _, s => execTimerWriteApply_answers _ s .ofParts
  | .timerCtrlStart _ _, s => execTimerCtrlStart_answers _ _ s .ofParts
  | .timerCtrlStop _ _, s => execTimerCtrlStop_answers _ _ s .ofParts
  | .timerCtrlClear _ _, s => execTimerCtrlClear_answers _ _ s .ofParts
  | .timerCapture _ _ _, s => execTimerCapture_answers _ _ _ s .ofParts
  | .brownWarnAssert _, s => execBrownWarnAssert_answers _ s .ofParts
  | .brownResumeStart, s => execBrownResumeStart_answers s .ofParts
  | .brownWarnRelease, s => execBrownWarnRelease_answers s .ofParts
  | .brownOut _, s => execBrownOut_answers _ s .ofParts
  | .coldPor, s => execColdPor_answers s .ofParts
  | .mainPor, s => execMainPor_answers s .ofParts
  | .dormantWake _ _, s => execDormantWake_answers _ _ s .ofParts
  | .wakeTimeout, s => execWakeTimeout_answers s .ofParts
  | .nrst _, s => execNrst_answers _ s .ofParts
  | .stemSupplyLow _, s => execStemSupplyLow_answers _ s .ofParts
  | .vcorePLow, s => execVcorePLow_answers s .ofParts
  | .vcorePRecover, s => execVcorePRecover_answers s .ofParts
  | .supplyMinSample _, s => execSupplyMinSample_answers _ s .ofParts
  | .devResetRelease, s => execDevResetRelease_answers s .ofParts
  | .kenebImageApply _, s => execKenebImageApply_answers _ s .ofParts
  | .loopAutostart _, s => execLoopAutostart_answers _ s .ofParts
  | .retentionWrite, s => execRetentionWrite_answers s .ofParts
  | .fwTrialConfirm, s => execFwTrialConfirm_answers s .ofParts
  | .peerHelloSend _, s => execPeerHelloSend_answers _ s .ofParts
  | .peerFrameReceive _ _, s => execPeerFrameReceive_answers _ _ s .ofParts
  | .peerLinkUp _, s => execPeerLinkUp_answers _ s .ofParts
  | .peerLinkDown _, s => execPeerLinkDown_answers _ s .ofParts
  | .phaseTonMinEnd _, s => execPhaseTonMinEnd_answers _ s .ofParts
  | .bankThermalScan _, s => execBankThermalScan_answers _ s .ofParts
  | .vbatLow _, s => execVbatLow_answers _ s .ofParts
  | .timeSlewComplete, s => execTimeSlewComplete_answers s .ofParts
  | .latchedWakeMainEnHigh, s => execLatchedWakeMainEnHigh_answers s .ofParts

/-- Settles O56: the answer of `exec_answers` keeps the queue. -/
theorem everyCommandAnswers : Obligations.EveryCommandAnswers := by
  unfold Obligations.EveryCommandAnswers
  intro s c
  obtain ⟨t, ht, hk⟩ := exec_answers c s
  exact ⟨t, ht, hk.queue⟩

/-- Settles O57: a part the command does not name is outside the mask of `exec_answers`. -/
theorem commandsKeepTheRest : Obligations.CommandsKeepTheRest := by
  unfold Obligations.CommandsKeepTheRest
  intro s c t p hnext hp
  obtain ⟨u, hu, hk⟩ := exec_answers c s
  obtain rfl : u = t := Host.Outcome.next.inj (hu.symm.trans hnext)
  exact hk.frame p (Bool.eq_false_iff.2 fun hb => hp ((testBit_maskOf _ p).1 hb))

end Sys2Proof.Machine

/-! PROOFS. The feed-loss latch at a phase die (R24, R106, R195, R201): the preload of one loop as an update of the die, and of every loop. -/

namespace Sys2Proof.Machine

/-- A loop that the feed-loss line switches: armed, not yet in accept mode, no frame of its in set 4 (R106, R108). -/
def DieLoop.latches (x : DieLoop) : Bool := x.arm && !x.accept && !x.hu

theorem DieLoop.latches_iff (x : DieLoop) : x.latches = true ↔ x.arm = true ∧ x.accept = false ∧ x.hu = false := by
  simp [DieLoop.latches, and_assoc]

/-- What the line makes of such a loop (R106). -/
def DieLoop.latched (x : DieLoop) : DieLoop :=
  { x with icmd := x.preload, accept := true, run := true, stopping := false, shareAll := true }

theorem DieLoop.latches_latched (x : DieLoop) : x.latched.latches = false := by
  simp [DieLoop.latches, DieLoop.latched]

/-- What the line makes of a die for one of its loops. -/
def Die.latch (x : Die) (l : Fin 16) : Die :=
  if x.lp[l].latches = true ∧ x.state ≠ .safe then { x with state := .run, lp := upd x.lp l DieLoop.latched } else x

theorem Die.latch_of_latches {x : Die} {l : Fin 16} (h : x.lp[l].latches = true) (hs : x.state ≠ .safe) :
    x.latch l = { x with state := .run, lp := upd x.lp l DieLoop.latched } := if_pos ⟨h, hs⟩

theorem Die.latch_of_not_latches {x : Die} {l : Fin 16} (h : x.lp[l].latches = false) : x.latch l = x :=
  if_neg fun hl => Bool.noConfusion (h.symm.trans hl.1)

/-- The latch of one loop changes a die, or leaves it as it is. -/
theorem Die.latch_cases (x : Die) (l : Fin 16) :
    x.latch l = x ∨ (x.latch l).state = .run ∧ (x.latch l).lp = upd x.lp l DieLoop.latched := by
  by_cases h : x.lp[l].latches = true ∧ x.state ≠ .safe
  · rw [Die.latch_of_latches h.1 h.2]
    exact .inr ⟨rfl, rfl⟩
  · exact .inl (if_neg h)

/-- The latch of another loop keeps a loop. -/
theorem Die.latch_lp_ne (x : Die) {l m : Fin 16} (h : l ≠ m) : (x.latch m).lp[l] = x.lp[l] := by
  rcases x.latch_cases m with e | ⟨-, e⟩
  · rw [e]
  · rw [e]
    exact upd_ne _ _ h

theorem Die.latch_lp_of_not_latches {x : Die} {l : Fin 16} (h : x.lp[l].latches = false) (m : Fin 16) : (x.latch m).lp[l] = x.lp[l] := by
  by_cases hm : l = m
  · rw [← hm, Die.latch_of_not_latches h]
  · exact x.latch_lp_ne hm

theorem Die.latch_state_run {x : Die} (h : x.state = .run) (m : Fin 16) : (x.latch m).state = .run := by
  rcases x.latch_cases m with e | ⟨e, -⟩
  · rw [e, h]
  · exact e

theorem Die.latch_state_ne_safe {x : Die} (h : x.state ≠ .safe) (m : Fin 16) : (x.latch m).state ≠ .safe := by
  rcases x.latch_cases m with e | ⟨e, -⟩
  · rwa [e]
  · rw [e]
    decide

/-- Latches of any loops keep a loop that the line does not switch, and a die in RUN. -/
theorem Die.foldl_latch_of_not_latches (ls : List (Fin 16)) {x : Die} {l : Fin 16} (h : x.lp[l].latches = false) :
    (ls.foldl Die.latch x).lp[l] = x.lp[l] ∧ (x.state = .run → (ls.foldl Die.latch x).state = .run) := by
  induction ls generalizing x with
  | nil => exact ⟨rfl, id⟩
  | cons m ls ih =>
    have hm := Die.latch_lp_of_not_latches h m
    obtain ⟨hlp, hrun⟩ := ih (x := x.latch m) (by rwa [hm])
    exact ⟨hlp.trans hm, fun hx => hrun (Die.latch_state_run hx m)⟩

/-- Latches of loops among which is one that the line switches: it is switched once, and the die is in RUN. -/
theorem Die.foldl_latch_of_latches (ls : List (Fin 16)) {x : Die} {l : Fin 16} (h : x.lp[l].latches = true) (hs : x.state ≠ .safe)
    (hl : l ∈ ls) : (ls.foldl Die.latch x).lp[l] = x.lp[l].latched ∧ (ls.foldl Die.latch x).state = .run := by
  induction ls generalizing x with
  | nil => simp at hl
  | cons m ls ih =>
    by_cases hm : l = m
    · subst hm
      have hat : (x.latch l).lp[l] = x.lp[l].latched := by
        rw [Die.latch_of_latches h hs]
        exact upd_at _ _ _
      obtain ⟨hlp, hrun⟩ := Die.foldl_latch_of_not_latches ls (x := x.latch l) (l := l) (by rw [hat, DieLoop.latches_latched])
      exact ⟨hlp.trans hat, hrun (by rw [Die.latch_of_latches h hs])⟩
    · have hne := x.latch_lp_ne hm
      rw [← hne]
      exact ih (by rwa [hne]) (Die.latch_state_ne_safe hs m) (List.mem_of_ne_of_mem hm hl)

theorem State.latchPreload_of_safe {s : State} {d : Fin 4} (h : s.die[d].state = .safe) (l : Fin 16) : s.latchPreload d l = s :=
  if_neg fun hl => hl.2.2.2 h

/-- The preload of one loop at a die is the latch of the die. -/
theorem State.latchPreload_die (s : State) (d : Fin 4) (l : Fin 16) : (s.latchPreload d l).die[d] = s.die[d].latch l := by
  have hc : (s.die[d].lp[l].arm = true ∧ ¬ s.die[d].lp[l].accept = true ∧ ¬ s.die[d].lp[l].hu = true ∧ s.die[d].state ≠ .safe) ↔
      s.die[d].lp[l].latches = true ∧ s.die[d].state ≠ .safe := by
    rw [DieLoop.latches_iff, Bool.not_eq_true, Bool.not_eq_true, and_assoc, and_assoc]
  by_cases h : s.die[d].lp[l].latches = true ∧ s.die[d].state ≠ .safe
  · rw [Die.latch_of_latches h.1 h.2]
    unfold State.latchPreload
    rw [if_pos (hc.2 h)]
    extract_lets n s1
    have hs1 : s1.die[d] = { s.die[d] with state := .run, lp := upd s.die[d].lp l DieLoop.latched } := by
      simp [s1]
      rfl
    rw [← hs1]
    refine congrArg (·[d]) ((Keeps.foldl (w := maskOf [.ph, .loop]) _ (Keeps.refl _ s1) fun u p hu => ?_).frame .die (by decide))
    have hlim := Keeps.ite (c := s.die[d].lp[l].run = true) hu (State.limSet_keeps p l hu (.ofParts (by decide)))
    exact State.formIph_keeps p _ _ (Keeps.ite (State.modPl_keeps p _ hlim (.ofParts (by decide)) fun _ => ⟨fun h => h, fun h => h⟩) hlim)
      (.ofParts (by decide))
  · rw [Die.latch, if_neg h, State.latchPreload, if_neg (mt hc.1 h)]

theorem State.foldl_latchPreload_die (ls : List (Fin 16)) (s : State) (d : Fin 4) :
    (ls.foldl (fun t l => t.latchPreload d l) s).die[d] = ls.foldl Die.latch s.die[d] := by
  induction ls generalizing s with
  | nil => rfl
  | cons l ls ih => rw [List.foldl_cons, ih, s.latchPreload_die, List.foldl_cons]

theorem State.foldl_latchPreload_of_safe (ls : List (Fin 16)) {s : State} {d : Fin 4} (h : s.die[d].state = .safe) :
    ls.foldl (fun t l => t.latchPreload d l) s = s := by
  induction ls with
  | nil => rfl
  | cons l ls ih => rw [List.foldl_cons, State.latchPreload_of_safe h, ih]

/-- The state with the assertion on its way to a die taken. -/
def State.latchTaken (s : State) (d : Fin 4) : State :=
  { s with bank := { s.bank with latch := s.bank.latch.set d.val false d.isLt } }

/-- What PHASE_FEED_LOSS_LATCH answers while an assertion is on its way. -/
def State.latchAll (s : State) (d : Fin 4) : State := (fins 16).foldl (fun t l => t.latchPreload d l) (s.latchTaken d)

theorem exec_phaseFeedLossLatch_of_latch {s : State} {d : Fin 4} (h : s.bank.latch[d] = true) :
    exec (.phaseFeedLossLatch d) s = .next (s.latchAll d) := congrArg Host.Outcome.next (if_pos h)

theorem exec_phaseFeedLossLatch_of_not_latch {s : State} {d : Fin 4} (h : s.bank.latch[d] = false) :
    exec (.phaseFeedLossLatch d) s = .next s := congrArg Host.Outcome.next (if_neg (by simp [h]))

/-- The loops' preloads write the dies, the phases and the loops alone. -/
theorem State.latchAll_keeps (s : State) (d : Fin 4) : Keeps (maskOf [.die, .ph, .loop]) (s.latchTaken d) (s.latchAll d) :=
  Keeps.foldl _ (Keeps.refl _ _) fun _ l h => State.latchPreload_keeps d l h (.ofParts (by decide))

theorem State.latchAll_bank (s : State) (d : Fin 4) : (s.latchAll d).bank = (s.latchTaken d).bank :=
  (s.latchAll_keeps d).frame .bank (by decide)

theorem State.latchAll_evq (s : State) (d : Fin 4) : (s.latchAll d).evq = s.evq := (s.latchAll_keeps d).frame .evq (by decide)

theorem State.latchAll_die (s : State) (d : Fin 4) : (s.latchAll d).die[d] = (fins 16).foldl Die.latch s.die[d] :=
  State.foldl_latchPreload_die (fins 16) (s.latchTaken d) d

theorem State.latchAll_of_safe {s : State} {d : Fin 4} (h : s.die[d].state = .safe) : s.latchAll d = s.latchTaken d :=
  State.foldl_latchPreload_of_safe (fins 16) h

/-- Settles O11, by the latches of the die's loops in turn. -/
theorem feedLossLatchesThePreload : Obligations.FeedLossLatchesThePreload := by
  unfold Obligations.FeedLossLatchesThePreload
  refine ⟨?armed, ?untouched, ?safe, ?none⟩
  case armed =>
    intro s d l hlatch hsafe harm haccept hhu
    have hl := (DieLoop.latches_iff _).2 ⟨harm, haccept, hhu⟩
    obtain ⟨hlp, hrun⟩ := Die.foldl_latch_of_latches (fins 16) hl hsafe (List.mem_finRange l)
    rw [← s.latchAll_die d] at hlp hrun
    refine ⟨_, exec_phaseFeedLossLatch_of_latch hlatch, hrun, ?_, ?_, ?_, ?_, s.latchAll_evq d, ?_⟩
    case refine_5 =>
      rw [s.latchAll_bank]
      exact Vector.getElem_set_self _
    all_goals
      rw [hlp]
      rfl
  case untouched =>
    intro s d l hnot
    cases hlatch : s.bank.latch[d] with
    | false => exact ⟨s, exec_phaseFeedLossLatch_of_not_latch hlatch, rfl, rfl⟩
    | true =>
      have hl : s.die[d].lp[l].latches = false := by
        rw [← Bool.not_eq_true, DieLoop.latches_iff]
        rintro ⟨harm, haccept, hhu⟩
        rw [harm, haccept, hhu] at hnot
        simp at hnot
      refine ⟨_, exec_phaseFeedLossLatch_of_latch hlatch, ?_, s.latchAll_evq d⟩
      rw [s.latchAll_die]
      exact (Die.foldl_latch_of_not_latches (fins 16) hl).1
  case safe =>
    intro s d hsafe
    cases hlatch : s.bank.latch[d] with
    | false => exact ⟨s, exec_phaseFeedLossLatch_of_not_latch hlatch, rfl, rfl, rfl⟩
    | true =>
      have ht := exec_phaseFeedLossLatch_of_latch hlatch
      rw [State.latchAll_of_safe hsafe] at ht
      exact ⟨_, ht, rfl, rfl, rfl⟩
  case none => exact fun s d hlatch => ⟨s, exec_phaseFeedLossLatch_of_not_latch hlatch, rfl⟩

end Sys2Proof.Machine

/-! PROOFS. The feed controls (R157, R160, R168, R173, R177): what a control that was taken keeps, a command sent to the Bank die, and the
command at the front at the die. -/

namespace Sys2Proof.Machine

theorem State.mayControl_mono {s : State} {k : Fin 8} {ps qs : List Nat} (h : s.mayControl k ps = true) (hq : qs ⊆ ps) :
    s.mayControl k qs = true := by
  simp only [State.mayControl, Bool.and_eq_true, List.all_eq_true] at h ⊢
  exact ⟨h.1, fun i hi => h.2 i (hq hi)⟩

/-- What a control that was taken leaves behind its effect, in the hosts alone. -/
theorem State.ctlDone_keeps_rest (s : State) (k : Fin 8) (permits : List Nat) (st : Nat) :
    Keeps (maskOf [.host]) s (s.ctlDone k permits st) :=
  State.ctlDone_keeps k permits st (Keeps.refl _ s) (.ofParts (by decide))

@[simp] theorem State.ctlDone_bank (s : State) (k : Fin 8) (permits : List Nat) (st : Nat) : (s.ctlDone k permits st).bank = s.bank :=
  (s.ctlDone_keeps_rest k permits st).frame .bank (by decide)

@[simp] theorem State.ctlDone_passed (s : State) (k : Fin 8) (permits : List Nat) (st : Nat) :
    (s.ctlDone k permits st).passed = s.passed :=
  (s.ctlDone_keeps_rest k permits st).frame .passed (by decide)

/-- A command sent while BK_HV is on stands behind those on their way, and the comparer of the group has passed it (R18, R23). -/
theorem State.bankCmd_of_on {s : State} (h : s.bank.on = true) (c : FeedCmd) :
    (s.bankCmd c).bank = { s.bank with cmds := s.bank.cmds ++ [c] } ∧ (s.bankCmd c).passed[(3 : Fin 5)] = s.passed[(3 : Fin 5)] + 1 := by
  rw [State.bankCmd, if_pos h]
  exact ⟨rfl, upd_at _ _ _⟩

/-- A feed control that is taken and sends a command. -/
theorem State.control_feed_sends {s : State} {k : Fin 8} {ps : List Nat} {f : Fin 2} {v : Nat} {c : FeedCmd}
    (hmay : s.mayControl k ps = true) (hon : s.bank.on = true) (hc : s.feedControl f v = (s.bankCmd c, stOk)) :
    (s.control k ps (fun t => t.feedControl f v)).host.ctl = stOk ∧
      (s.control k ps (fun t => t.feedControl f v)).bank = { s.bank with cmds := s.bank.cmds ++ [c] } ∧
      (s.control k ps (fun t => t.feedControl f v)).passed[(3 : Fin 5)] = s.passed[(3 : Fin 5)] + 1 := by
  rw [State.control_may s k ps _ hmay, hc, State.ctlDone_bank, State.ctlDone_passed]
  exact ⟨rfl, State.bankCmd_of_on hon c⟩

/-- TEST asks for a feed reported CONNECTED with REV set (R173). -/
theorem State.feedControl_test (s : State) (f : Fin 2) :
    s.feedControl f 4 = if s.bank.seen.feed[f].state = .connected ∧ s.seenBit f 4 = true then (s.bankCmd (.test f), stOk) else (s, stBusy) :=
  rfl

/-- The permits of DISABLE are among CONFIG and MAINT (R177). -/
theorem State.feedPermits_disable_subset (s : State) (f : Fin 2) : s.feedPermits f 2 ⊆ [0, 5] := by
  unfold State.feedPermits
  split
  · exact List.Subset.refl _
  · exact List.cons_subset_cons 0 (List.nil_subset _)

theorem State.feedPermits_disable_last {s : State} {f : Fin 2} (h : s.lastFeed f = true) : s.feedPermits f 2 = [0, 5] :=
  if_pos (.inr ⟨rfl, h⟩)

/-- A control that asks for MAINT is refused to a session without it (R398). -/
theorem State.control_without_maint {s : State} {k : Fin 8} (ha : s.hasActive = true) (hb : s.brownWarn = false)
    (h : s.holds k 5 = false) (e : State → State × Nat) :
    s.control k [0, 5] e = { s with host := { s.host with ctl := stNoPermit } } :=
  s.control_none k [0, 5] e ha hb (by simp [h])

/-- The state with the commands behind the front one left (R176). -/
def State.cmdTaken (s : State) (cs : List FeedCmd) : State := s.modBank (fun b => { b with cmds := cs })

/-- The record of a reverse turn-off is made in the log alone. -/
theorem State.revRecord_bank (s : State) (f : Fin 2) : (s.revRecord f).bank = s.bank := by
  unfold State.revRecord
  extract_lets x
  split
  · rfl
  · rfl

/-- The records before the feed-loss line is looked at stay. -/
theorem State.mem_evq_lineScan {s : State} {e : LogEv} (h : e ∈ s.evq) (f : Fin 2) (cause : Nat) : e ∈ (s.lineScan f cause).evq := by
  unfold State.lineScan
  extract_lets av s1 s2
  have h1 : e ∈ s1.evq := by
    unfold s1
    split
    · exact h
    · exact h
  show e ∈ s2.evq
  unfold s2
  split
  · exact List.mem_append_left _ h1
  · split
    · exact List.mem_append_left _ h1
    · exact h1

/-- The feed-loss line changes no feed and takes no command. -/
theorem State.lineScan_bank (s : State) (f : Fin 2) (cause : Nat) :
    (s.lineScan f cause).bank.feed = s.bank.feed ∧ (s.lineScan f cause).bank.cmds = s.bank.cmds := by
  unfold State.lineScan
  extract_lets av s1 s2
  have h1 : s1.bank.feed = s.bank.feed ∧ s1.bank.cmds = s.bank.cmds := by
    unfold s1
    split
    · exact ⟨rfl, rfl⟩
    · exact ⟨rfl, rfl⟩
  show s2.bank.feed = s.bank.feed ∧ s2.bank.cmds = s.bank.cmds
  unfold s2
  split
  · exact h1
  · split
    · exact h1
    · exact h1

/-- A feed that leaves for a state has every gate low; no command is taken. -/
theorem State.feedOpen_bank (s : State) (f : Fin 2) (st : FeedState) :
    (s.feedOpen f st).bank.feed[f].state = st ∧ (s.feedOpen f st).bank.feed[f].go = false ∧
      (s.feedOpen f st).bank.feed[f].gm = false ∧ (s.feedOpen f st).bank.feed[f].gp = false ∧
      (s.feedOpen f st).bank.cmds = s.bank.cmds := by
  simp [State.feedOpen, State.revRecord_bank, Feed.drive]

theorem State.feedOpen_clk (s : State) (f : Fin 2) (st : FeedState) : (s.feedOpen f st).clk = s.clk :=
  (State.feedOpen_keeps (wm := maskOf [.evq, .bank]) f st (Keeps.refl _ s) (.ofParts (by decide))).frame .clk (by decide)

/-- DISABLE of a feed that is not OFF (R160): OFF with every gate low, and its record. -/
theorem State.feedDisable_of_not_off {s : State} {f : Fin 2} (h : s.bank.feed[f].state ≠ .off) :
    (s.feedDisable f).bank.cmds = s.bank.cmds ∧ (s.feedDisable f).bank.feed[f].state = .off ∧
      (s.feedDisable f).bank.feed[f].go = false ∧ (s.feedDisable f).bank.feed[f].gm = false ∧
      (s.feedDisable f).bank.feed[f].gp = false ∧
      ⟨0x0602, f.val, toWord 64 (lohi 3 s.bank.feed[f].v), s.clk.shelf⟩ ∈ (s.feedDisable f).evq := by
  rw [State.feedDisable, if_neg h]
  obtain ⟨hfeed, hcmds⟩ := State.lineScan_bank ((s.feedOpen f .off).log 0x0602 f.val (lohi 3 s.bank.feed[f].v)) f 4
  obtain ⟨hst, hgo, hgm, hgp, hopen⟩ := s.feedOpen_bank f .off
  rw [hfeed]
  refine ⟨hcmds.trans hopen, hst, hgo, hgm, hgp, State.mem_evq_lineScan ?_ f 4⟩
  rw [State.log_evq, s.feedOpen_clk f .off]
  exact List.mem_append_right _ (List.mem_singleton_self _)

/-- ENABLE of an OFF feed (R160). -/
theorem State.feedEnable_of_off {s : State} {f : Fin 2} (h : s.bank.feed[f].state = .off) :
    (s.feedEnable f).bank.cmds = s.bank.cmds ∧
      (s.feedEnable f).bank.feed = upd s.bank.feed f (fun x => { x with state := .qualify, retries := 0 }) := by
  rw [State.feedEnable, if_pos h]
  exact ⟨rfl, rfl⟩

/-- CLEAR of a LOCKOUT feed that the device does not enable by itself (R160, R168). -/
theorem State.feedClear_of_lockout {s : State} {f : Fin 2} (h : s.bank.feed[f].state = .lockout) (ha : s.par P.FEED_AUTO_EN f = 0) :
    (s.feedClear f).bank.cmds = s.bank.cmds ∧
      (s.feedClear f).bank.feed = upd s.bank.feed f (fun x => { x with state := .off, gateFail := false, fetShort := false }) := by
  rw [State.feedClear, if_pos h, ha]
  exact ⟨rfl, rfl⟩

/-- TEST of a CONNECTED feed with REV set (R173). -/
theorem State.feedTest_of_ok {s : State} {f : Fin 2} (h : s.bank.feed[f].state = .connected) (hr : s.bank.feed[f].rev = true) :
    (s.feedTest f).bank.cmds = s.bank.cmds ∧
      (s.feedTest f).bank.feed = upd s.bank.feed f (fun x => { x with go := true, goAt := s.clk.tick, test := true }) := by
  rw [State.feedTest, if_pos (by rw [State.feedTestOk, h, hr]; rfl)]
  exact ⟨rfl, rfl⟩

/-- What the die does on a command (R157, R160, R168, R173). -/
def State.obey (s : State) : FeedCmd → State
  | .enable f => s.feedEnable f
  | .disable f => s.feedDisable f
  | .clear f => s.feedClear f
  | .test f => s.feedTest f
  | .resetEnergy f => s.feedResetEnergy f
  | .clearStatus f v => s.feedStatusClear f v
  | .clearBank v => s.bankStatusClear v

/-- A command at the front while the die acts (R176). -/
theorem exec_bankCommandFrame_of_acts {s : State} {c : FeedCmd} {cs : List FeedCmd} (h : s.bank.cmds = c :: cs)
    (ha : s.bankActs = true) : exec .bankCommandFrame s = .next ((s.cmdTaken cs).obey c) := by
  show execBankCommandFrame s = _
  unfold execBankCommandFrame
  rw [h]
  exact congrArg Host.Outcome.next (if_pos ha)

theorem exec_bankCommandFrame_of_not_acts {s : State} {c : FeedCmd} {cs : List FeedCmd} (h : s.bank.cmds = c :: cs)
    (ha : s.bankActs = false) : exec .bankCommandFrame s = .next (s.cmdTaken cs) := by
  show execBankCommandFrame s = _
  unfold execBankCommandFrame
  rw [h]
  exact congrArg Host.Outcome.next (if_neg (by simp [ha]))

/-- Settles O24: the controls by `State.control_feed_sends`, the refusals by the permits, the frames by the command's own lemma. -/
theorem feedControls : Obligations.FeedControls := by
  unfold Obligations.FeedControls
  refine ⟨?enable, ?disable, ?disableLast, ?clear, ?test, ?testBusy, ?resetEnergy, ?resetEnergyRefused, ?dieEnable, ?dieDisable,
    ?dieClear, ?dieTest, ?dieResetEnergy, ?dieDeaf⟩
  case enable => exact fun s f k hmay hon => ⟨_, rfl, State.control_feed_sends hmay hon rfl⟩
  case disable =>
    exact fun s f k hmay hon => ⟨_, rfl, State.control_feed_sends (State.mayControl_mono hmay (s.feedPermits_disable_subset f)) hon rfl⟩
  case disableLast =>
    intro s f k hact hbrown hlast hmaint
    refine ⟨_, rfl, ?_⟩
    rw [State.feedPermits_disable_last hlast, State.control_without_maint hact hbrown hmaint]
  case clear => exact fun s f k hmay hon => ⟨_, rfl, State.control_feed_sends hmay hon rfl⟩
  case test =>
    intro s f k hmay hon hcon hrev
    obtain ⟨hctl, hbank, -⟩ := State.control_feed_sends hmay hon ((s.feedControl_test f).trans (if_pos ⟨hcon, hrev⟩))
    exact ⟨_, rfl, hctl, hbank⟩
  case testBusy =>
    intro s f k hmay hnot
    have hc : s.feedControl f 4 = (s, stBusy) := (s.feedControl_test f).trans
      (if_neg fun h => hnot.elim (fun hn => hn h.1) fun hn => Bool.noConfusion (hn.symm.trans h.2))
    refine ⟨_, congrArg Host.Outcome.next (s.control_may k [0] _ hmay), ?_⟩
    rw [hc]
    exact ⟨rfl, State.ctlDone_bank s k [0] stBusy⟩
  case resetEnergy =>
    intro s f k hmay hon
    obtain ⟨hctl, hbank, -⟩ := State.control_feed_sends (f := f) (v := 5) hmay hon rfl
    exact ⟨_, rfl, hctl, hbank⟩
  case resetEnergyRefused =>
    exact fun s f k hact hbrown hmaint => ⟨_, rfl, State.control_without_maint hact hbrown hmaint _⟩
  case dieEnable =>
    intro s f cs hcs hacts hoff
    obtain ⟨hcmds, hfeed⟩ := State.feedEnable_of_off (s := s.cmdTaken cs) hoff
    refine ⟨_, exec_bankCommandFrame_of_acts hcs hacts, hcmds, (congrArg (·[f]) hfeed).trans (upd_at _ _ _), fun g hg => ?_⟩
    exact (congrArg (·[g]) hfeed).trans (upd_ne _ _ hg)
  case dieDisable =>
    intro s f cs hcs hacts hoff
    exact ⟨_, exec_bankCommandFrame_of_acts hcs hacts, State.feedDisable_of_not_off (s := s.cmdTaken cs) hoff⟩
  case dieClear =>
    intro s f cs hcs hacts hlock hauto
    obtain ⟨hcmds, hfeed⟩ := State.feedClear_of_lockout (s := s.cmdTaken cs) hlock hauto
    exact ⟨_, exec_bankCommandFrame_of_acts hcs hacts, hcmds, (congrArg (·[f]) hfeed).trans (upd_at _ _ _)⟩
  case dieTest =>
    intro s f cs hcs hacts hcon hrev
    obtain ⟨hcmds, hfeed⟩ := State.feedTest_of_ok (s := s.cmdTaken cs) hcon hrev
    exact ⟨_, exec_bankCommandFrame_of_acts hcs hacts, hcmds, (congrArg (·[f]) hfeed).trans (upd_at _ _ _)⟩
  case dieResetEnergy =>
    intro s f cs hcs hacts
    refine ⟨_, exec_bankCommandFrame_of_acts hcs hacts, rfl, upd_at _ _ _, ?_⟩
    simp [State.obey, State.feedResetEnergy, State.cmdTaken]
  case dieDeaf => exact fun s c cs hcs hacts => ⟨_, exec_bankCommandFrame_of_not_acts hcs hacts, rfl, rfl⟩

end Sys2Proof.Machine

/-! PROOFS. Stems that boot, restart and resynchronise (R443, R449 to R454, R462): the stems after a change of one, what the pins, the
notices and the bridge leave of them, and each command by its own equation. -/

namespace Sys2Proof.Machine

/-- The FAULT pins are set in the log and at the pins alone. -/
theorem State.faultScan_keeps_rest (s : State) : Keeps (maskOf [.evq, .fault]) s s.faultScan :=
  State.faultScan_keeps (Keeps.refl _ s) (.ofParts (by decide))

@[simp] theorem State.faultScan_stems (s : State) : s.faultScan.stems = s.stems := s.faultScan_keeps_rest.frame .stems (by decide)

@[simp] theorem State.faultScan_ord (s : State) : s.faultScan.ord = s.ord := s.faultScan_keeps_rest.frame .ord (by decide)

@[simp] theorem State.faultScan_passed (s : State) : s.faultScan.passed = s.passed := s.faultScan_keeps_rest.frame .passed (by decide)

/-- A notice reaches the hosts alone. -/
theorem State.stemNotice_keeps_rest (s : State) (event : Nat) : Keeps (maskOf [.host, .passed]) s (s.stemNotice event) :=
  State.stemNotice_keeps event (Keeps.refl _ s) (.ofParts (by decide))

@[simp] theorem State.stemNotice_stems (s : State) (event : Nat) : (s.stemNotice event).stems = s.stems :=
  (s.stemNotice_keeps_rest event).frame .stems (by decide)

@[simp] theorem State.stemNotice_ord (s : State) (event : Nat) : (s.stemNotice event).ord = s.ord :=
  (s.stemNotice_keeps_rest event).frame .ord (by decide)

@[simp] theorem State.stemNotice_evq (s : State) (event : Nat) : (s.stemNotice event).evq = s.evq :=
  (s.stemNotice_keeps_rest event).frame .evq (by decide)

@[simp] theorem State.ctlDone_stems (s : State) (k : Fin 8) (permits : List Nat) (st : Nat) : (s.ctlDone k permits st).stems = s.stems :=
  (s.ctlDone_keeps_rest k permits st).frame .stems (by decide)

/-- A pin that changes only adds to the log. -/
theorem State.evq_prefix_faultPinStep (s : State) (m : Fin 4) : s.evq <+: (s.faultPinStep m).evq := by
  unfold State.faultPinStep
  extract_lets act was now s1
  split
  · exact List.prefix_append _ _
  · exact List.prefix_refl _

theorem State.evq_prefix_faultScan (s : State) : s.evq <+: s.faultScan.evq := by
  have hfold : ∀ (ms : List (Fin 4)) (t : State), t.evq <+: (ms.foldl State.faultPinStep t).evq := by
    intro ms
    induction ms with
    | nil => exact fun t => List.prefix_refl _
    | cons m ms ih => exact fun t => (t.evq_prefix_faultPinStep m).trans (ih _)
  unfold State.faultScan
  split
  · exact List.prefix_refl _
  · exact hfold _ s

/-- The other stem. -/
theorem stem_other_ne (k : Fin 2) : 1 - k ≠ k := by
  revert k
  decide

theorem stem_eq_or_other (j k : Fin 2) : k = j ∨ k = 1 - j := by
  revert j k
  decide

/-- The stem changed, and the other one. -/
@[simp] theorem State.modStem_stem_same (s : State) (k : Fin 2) (f : Stem → Stem) : (s.modStem k f).stems.stem[k] = f s.stems.stem[k] :=
  upd_at _ _ _

theorem State.modStem_stem_ne (s : State) {j k : Fin 2} (h : j ≠ k) (f : Stem → Stem) :
    (s.modStem k f).stems.stem[j] = s.stems.stem[j] :=
  upd_ne _ _ h

@[simp] theorem State.modStem_stem_other (s : State) (k : Fin 2) (f : Stem → Stem) :
    (s.modStem k f).stems.stem[1 - k] = s.stems.stem[1 - k] :=
  s.modStem_stem_ne (stem_other_ne k) f

/-- The one stem of the two that has a property is the one found. -/
theorem find_stem {p : Fin 2 → Bool} {j : Fin 2} (h : p j = true) (ho : p (1 - j) = false) : (fins 2).find? p = some j := by
  cases hf : (fins 2).find? p with
  | none => exact absurd h (List.find?_eq_none.1 hf j (List.mem_finRange j))
  | some k =>
    have hk := List.find?_some hf
    rcases stem_eq_or_other j k with rfl | rfl
    · rfl
    · rw [ho] at hk
      exact Bool.noConfusion hk

theorem State.stemOf_standby {s : State} {j : Fin 2} (h : s.stemSt j = .standby) (ho : s.stemSt (1 - j) = .active) :
    s.stemOf .standby = some j :=
  find_stem (by rw [h]; rfl) (by rw [ho]; rfl)

/-- One stem ACTIVE and the other STANDBY are redundant (R443). -/
theorem State.redundant_of_standby {s : State} {j : Fin 2} (h : s.stemSt j = .standby) (ho : s.stemSt (1 - j) = .active) :
    s.redundant = true := by
  match j with
  | 0 => rw [State.redundant, h, show s.stemSt 1 = .active from ho]; rfl
  | 1 => rw [State.redundant, h, show s.stemSt 0 = .active from ho]; rfl

/-- What the end of a start makes of the stems that booted together: the order numbers at 0, and the roles (R443). -/
def State.roles (s : State) (p : Fin 2) : State :=
  ({ s with ord := 0 }.modStem p (fun x => { x with st := .active })).modStem (1 - p) (fun x => { x with st := .standby })

theorem State.roles_stemSt (s : State) (p : Fin 2) : (s.roles p).stemSt p = .active ∧ (s.roles p).stemSt (1 - p) = .standby := by
  unfold State.roles State.stemSt
  refine ⟨?_, ?_⟩
  · rw [State.modStem_stem_ne _ (stem_other_ne p).symm, State.modStem_stem_same]
  · rw [State.modStem_stem_same]

/-- A heartbeat clock that starts leaves the states of the stems. -/
theorem State.beats_stemSt (s : State) (k j : Fin 2) : (s.beats k).stemSt j = s.stemSt j := by
  have h : (s.beats k).stems.stem[j] = if j = k then { s.stems.stem[k] with hbAt := s.clk.tick, hbCount := 0, moveAt := s.clk.tick }
      else s.stems.stem[j] := upd_get _ _ _ _
  unfold State.stemSt
  rw [h]
  split
  · next hj => rw [hj]
  · rfl

theorem exec_stemBootComplete_together {s : State} {k : Fin 2} (h : s.stemSt k = .boot) (ho : s.stemSt (1 - k) = .boot) :
    exec (.stemBootComplete k) s =
      .next (((s.beats k).beats (1 - k)).roles (if s.par P.STEM_PREFERRED 0 = 1 then 1 else 0)).faultScan := by
  show execStemBootComplete k s = _
  unfold execStemBootComplete
  simp only [h, ho, ne_eq, not_true_eq_false, if_false, if_true, State.beats_stemSt]
  rfl

theorem exec_stemBootComplete_beside {s : State} {k : Fin 2} (h : s.stemSt k = .boot) (ho : s.stemSt (1 - k) = .active) :
    exec (.stemBootComplete k) s = .next (((s.beats k).toSync k).log 0x1005 k.val s.ord).faultScan := by
  show execStemBootComplete k s = _
  unfold execStemBootComplete
  simp only [h, ho, ne_eq, not_true_eq_false, if_false, reduceCtorEq, State.beats_stemSt]
  rfl

theorem exec_stemBootComplete_alone {s : State} {k : Fin 2} (h : s.stemSt k = .boot)
    (ho : s.stemSt (1 - k) = .off ∨ s.stemSt (1 - k) = .failed) :
    exec (.stemBootComplete k) s = .next ((s.beats k).modStem k (fun x => { x with st := .active })).faultScan := by
  show execStemBootComplete k s = _
  unfold execStemBootComplete
  rcases ho with ho | ho
  · simp only [h, ho, ne_eq, not_true_eq_false, if_false, reduceCtorEq, State.beats_stemSt]
  · simp only [h, ho, ne_eq, not_true_eq_false, if_false, reduceCtorEq, State.beats_stemSt]

/-- A stem that enters SYNC, and the other one (R443, R453). -/
theorem State.toSync_stems (s : State) (k : Fin 2) :
    (s.toSync k).stemSt k = .sync ∧ (s.toSync k).stemSt (1 - k) = s.stemSt (1 - k) ∧
      (s.toSync k).stems.sync = some ⟨s.clk.tick, 0, 0, 0, 0⟩ :=
  ⟨congrArg Stem.st (s.modStem_stem_same k _), congrArg Stem.st (s.modStem_stem_other k _), rfl⟩

/-- The restarts of a stem in the last hour (R443). -/
def State.recentRestarts (s : State) (k : Fin 2) : List Nat :=
  s.stems.stem[k].restarts.filter (fun t => decide (s.clk.tick < t + 900000000000))

theorem exec_stemRestartComplete_of_failed {s : State} {k : Fin 2} (h : s.stemSt k = .failed) (hhot : s.stems.stem[k].hot = false)
    (hlow : s.stems.stem[k].low = false) :
    exec (.stemRestartComplete k) s = .next (if (s.recentRestarts k).length < s.parN P.STEM_RESTART_MAX 0 then
        (s.modStem k (fun y => { y with st := .boot, restarts := s.recentRestarts k ++ [s.clk.tick] })).faultScan
      else (((s.modStem k (fun y => { y with st := .off, limited := true, restarts := s.recentRestarts k })).log 0x1004 k.val 3).stemNotice
        4).faultScan) := by
  refine congrArg Host.Outcome.next (if_neg ?_)
  rw [show s.stems.stem[k].st = .failed from h, hhot, hlow]
  simp

/-- A pass that is complete while the bridge has budget (R46, R453): the resynchronisation after it. -/
def SyncRun.pass (r : SyncRun) (dirty : Bool) : SyncRun :=
  if r.stage < 3 ∧ dirty then { r with stage := r.stage + 1, dirty := r.dirty + 1 }
  else if r.stage < 4 then { r with stage := 4 }
  else if r.stage = 4 then { r with stage := 5 }
  else r

theorem exec_stemResyncPass {s : State} {r : SyncRun} (h : s.stems.sync = some r) (dirty : Bool) :
    exec (.stemResyncPass dirty) s = .next (if s.sluiceSpent 5 then s.sluiceStall 5
      else (s.sluiceWork 5).modStems (fun x => { x with sync := some (r.pass dirty) })) := by
  show execStemResyncPass dirty s = _
  unfold execStemResyncPass
  rw [h]
  rfl

theorem exec_stemResyncPass_of_budget {s : State} {r : SyncRun} (h : s.stems.sync = some r) (hb : s.sluiceSpent 5 = false) (dirty : Bool) :
    ∃ t, exec (.stemResyncPass dirty) s = .next t ∧ t.stems = { s.stems with sync := some (r.pass dirty) } := by
  refine ⟨_, exec_stemResyncPass h dirty, ?_⟩
  rw [if_neg (by simp [hb])]
  rfl

/-- A round of digests that is compared while the bridge has budget (R453, R454). -/
theorem exec_stemDigestRound {s : State} {r : SyncRun} (h : s.stems.sync = some r) (hb : s.sluiceSpent 5 = false) (hr : r.stage = 5)
    (m : Nat) :
    exec (.stemDigestRound m) s = .next (if m = 0 then
        s.modStems (fun x => { x with sync := some { r with stage := 6, rounds := r.rounds + 1, agreeAt := s.clk.tick } })
      else if r.rounds + 1 < 3 then s.modStems (fun x => { x with sync := some { r with rounds := r.rounds + 1 } })
      else s.syncFail 2 m) := by
  show execStemDigestRound m s = _
  unfold execStemDigestRound
  rw [h]
  simp only [hr, hb, ne_eq, not_true_eq_false, if_false, Bool.false_eq_true]

/-- A resynchronisation that fails leaves its stem FAILED (R443, R454). -/
theorem State.syncFail_stems {s : State} {k : Fin 2} (h : s.stemOf .sync = some k) (cause blocks : Nat) :
    (s.syncFail cause blocks).stemSt k = .failed ∧ (s.syncFail cause blocks).stems.resyncFailed = true ∧
      (s.syncFail cause blocks).stems.sync = none := by
  unfold State.syncFail
  rw [h]
  simp [State.stemSt, State.stemRestart, State.resetTaken]

theorem exec_stemSyncAgreement_of_agreed {s : State} {r : SyncRun} {k : Fin 2} (h : s.stems.sync = some r) (hk : s.stemOf .sync = some k)
    (hr : r.stage = 6) (ht : r.agreeAt + 250000 ≤ s.clk.tick) :
    exec .stemSyncAgreement s = .next ((((s.modStem k (fun x => { x with st := .standby })).modStems (fun x => { x with
      sync := none, resyncTime := (s.clk.tick - r.startAt) / 250 })).log 0x1006 k.val
        ((s.clk.tick - r.startAt) / 250 + r.dirty * 2 ^ 32 + r.rounds * 2 ^ 40 : Nat)).stemNotice 3).faultScan := by
  show execStemSyncAgreement s = _
  unfold execStemSyncAgreement
  rw [h, hk]
  exact if_neg (by omega)

theorem exec_stemSyncAgreement_of_not_agreed {s : State} {r : SyncRun} (h : s.stems.sync = some r)
    (ht : r.stage ≠ 6 ∨ s.clk.tick < r.agreeAt + 250000) : exec .stemSyncAgreement s = .next s := by
  show execStemSyncAgreement s = _
  unfold execStemSyncAgreement
  rw [h]
  cases s.stemOf .sync with
  | none => rfl
  | some k => exact if_pos ht

theorem exec_stemResyncTimeout {s : State} {r : SyncRun} (h : s.stems.sync = some r) :
    exec .stemResyncTimeout s = .next (if r.startAt + 10000000 ≤ s.clk.tick then s.syncFail 1 0 else s) := by
  show execStemResyncTimeout s = _
  unfold execStemResyncTimeout
  rw [h]

theorem exec_stemSwitchoverInput {s : State} {cause kind n : Nat} (h : s.stems.input = some (cause, kind, n)) :
    ∃ t, exec .stemSwitchoverInput s = .next t ∧ t.stems = { s.stems with input := none } ∧ t.ord = s.ord + 1 ∧
      (⟨0x1001, s.activeStem, toWord 64 (cause + kind * 256 + n * 2 ^ 32 : Nat), s.clk.shelf⟩ : LogEv) ∈ t.evq := by
  show ∃ t, execStemSwitchoverInput s = .next t ∧ _
  unfold execStemSwitchoverInput
  rw [h]
  refine ⟨_, rfl, ?_, ?_, ?_⟩
  · rw [State.stemNotice_stems]
    rfl
  · rw [State.stemNotice_ord]
    rfl
  · rw [State.stemNotice_evq]
    exact List.mem_append_right _ (List.mem_singleton_self _)

/-- A switch-over to a stem (R449): the roles, the count, and the input on its way with the OSEQ the comparer has passed. -/
theorem State.switchTo_stems (s : State) (k : Fin 2) (cause kind : Nat) (old : StemState) :
    (s.switchTo k cause kind old).stemSt k = .active ∧ (s.switchTo k cause kind old).stemSt (1 - k) = old ∧
      (s.switchTo k cause kind old).stems.switchovers = bump s.stems.switchovers ∧
      (s.switchTo k cause kind old).stems.input = some (cause, kind, (s.switchTo k cause kind old).passed[(1 : Fin 5)]) := by
  have hstem : ∀ j : Fin 2, (s.switchTo k cause kind old).stems.stem[j] =
      ((s.modStem (1 - k) (fun x => { x with st := old })).modStem k (fun x => { x with st := .active })).stems.stem[j] := by
    intro j
    rw [State.switchTo, State.faultScan_stems]
    rfl
  refine ⟨?_, ?_, ?_, ?_⟩
  · rw [State.stemSt, hstem, State.modStem_stem_same]
  · rw [State.stemSt, hstem, State.modStem_stem_other, State.modStem_stem_same]
  · rw [State.switchTo, State.faultScan_stems]
    rfl
  · rw [State.switchTo, State.faultScan_stems, State.faultScan_passed]
    rfl

theorem State.stemSwitch_of_standby {s : State} {j : Fin 2} (h : s.stemSt j = .standby) (ho : s.stemSt (1 - j) = .active) :
    s.stemSwitch = (s.switchTo j 4 0 .standby, stOk) := by
  unfold State.stemSwitch
  rw [State.redundant_of_standby h ho, State.stemOf_standby h ho]

theorem State.stemSwitch_of_not_redundant {s : State} (h : s.redundant = false) : s.stemSwitch = (s, stBusy) := by
  unfold State.stemSwitch
  rw [h]

theorem State.stemResync_of_standby {s : State} {j : Fin 2} (h : s.stemSt j = .standby) (ho : s.stemSt (1 - j) = .active) :
    s.stemResync = (((s.toSync j).log 0x1005 j.val s.ord).faultScan, stOk) := by
  unfold State.stemResync
  rw [State.redundant_of_standby h ho, State.stemOf_standby h ho]

theorem State.stemRestartCtl_of_limited {s : State} {j : Fin 2} (h : s.stems.stem[j].limited = true)
    (ho : s.stems.stem[1 - j].limited = false) (hhot : s.stems.stem[j].hot = false) (hlow : s.stems.stem[j].low = false) :
    ((s.stemRestartCtl).1.stemSt j = .boot ∧ (s.stemRestartCtl).1.stems.stem[j].limited = false ∧
      (s.stemRestartCtl).1.stems.stem[1 - j] = s.stems.stem[1 - j]) ∧ (s.stemRestartCtl).2 = stOk := by
  unfold State.stemRestartCtl
  rw [find_stem (p := fun n => s.stems.stem[n].limited) h ho]
  refine ⟨⟨?_, ?_, ?_⟩, rfl⟩
  · rw [State.stemSt, State.faultScan_stems, State.modStem_stem_same, hhot, hlow]
    rfl
  · rw [State.faultScan_stems, State.modStem_stem_same]
  · rw [State.faultScan_stems, State.modStem_stem_other]

/-- Settles O43: each command by its equation, and the stems in the state it answers. -/
theorem stemsResynchronise : Obligations.StemsResynchronise := by
  unfold Obligations.StemsResynchronise
  refine ⟨?together, ?beside, ?alone, ?restart, ?limit, ?dirtyPass, ?lastPass, ?spent, ?digests, ?thirdRound, ?agreed, ?notAgreed, ?inTime,
    ?timeout, ?input, ?switchover, ?resync, ?switchoverBusy, ?restartStandby⟩
  case together =>
    intro s k h ho
    refine ⟨_, exec_stemBootComplete_together h ho, ?_, ?_⟩
    · rw [State.faultScan_ord]
      rfl
    simp only [State.stemSt, State.faultScan_stems]
    by_cases hp : s.par P.STEM_PREFERRED 0 = 1
    · obtain ⟨hact, hstb⟩ := ((s.beats k).beats (1 - k)).roles_stemSt 1
      simp only [hp, if_true]
      exact ⟨hstb, hact⟩
    · obtain ⟨hact, hstb⟩ := ((s.beats k).beats (1 - k)).roles_stemSt 0
      simp only [hp, if_false]
      exact ⟨hact, hstb⟩
  case beside =>
    intro s k h ho
    obtain ⟨hsync, hother, hrun⟩ := (s.beats k).toSync_stems k
    rw [State.beats_stemSt, ho] at hother
    refine ⟨_, exec_stemBootComplete_beside h ho, ?_, ?_, ?_, ?_⟩
    · rw [State.stemSt, State.faultScan_stems]
      exact hsync
    · rw [State.stemSt, State.faultScan_stems]
      exact hother
    · rw [State.faultScan_stems]
      exact hrun
    · simp [State.toSync, State.beats]
  case alone =>
    intro s k h ho
    refine ⟨_, exec_stemBootComplete_alone h ho, ?_, ?_⟩
    · rw [State.stemSt, State.faultScan_stems, State.modStem_stem_same]
    · rw [State.stemSt, State.faultScan_stems, State.modStem_stem_other]
      exact s.beats_stemSt k (1 - k)
  case restart =>
    intro s k h hhot hlow hmax
    have hrecent : (s.recentRestarts k).length < s.parN P.STEM_RESTART_MAX 0 := (List.length_filter_le _ _).trans_lt hmax
    refine ⟨_, (exec_stemRestartComplete_of_failed h hhot hlow).trans (congrArg _ (if_pos hrecent)), ?_, ?_, ?_⟩
    · rw [State.stemSt, State.faultScan_stems, State.modStem_stem_same]
    · rw [State.faultScan_stems, State.modStem_stem_same]
      exact List.mem_append_right _ (List.mem_singleton_self _)
    · rw [State.faultScan_stems, State.modStem_stem_other]
  case limit =>
    intro s k h hhot hlow hall hmax
    have hrecent : s.recentRestarts k = s.stems.stem[k].restarts := List.filter_eq_self.2 fun q hq => decide_eq_true (hall q hq)
    refine ⟨_, (exec_stemRestartComplete_of_failed h hhot hlow).trans (congrArg _ (if_neg (by rw [hrecent]; omega))), ?_, ?_, ?_⟩
    · rw [State.stemSt, State.faultScan_stems, State.stemNotice_stems]
      exact congrArg Stem.st (s.modStem_stem_same k _)
    · rw [State.faultScan_stems, State.stemNotice_stems]
      exact congrArg Stem.limited (s.modStem_stem_same k _)
    · have hpre := State.evq_prefix_faultScan
        (((s.modStem k (fun y => { y with st := .off, limited := true, restarts := s.recentRestarts k })).log 0x1004 k.val 3).stemNotice 4)
      rw [State.stemNotice_evq] at hpre
      have htake := List.prefix_iff_eq_take.1 hpre
      rw [State.log_evq, List.length_append, List.length_singleton] at htake
      exact htake.symm
  case dirtyPass =>
    intro s r h hstage hb
    obtain ⟨t, ht, hstems⟩ := exec_stemResyncPass_of_budget h hb true
    rw [SyncRun.pass, if_pos ⟨hstage, rfl⟩] at hstems
    exact ⟨t, ht, hstems⟩
  case lastPass =>
    intro s r dirty h hb hstage hlast
    obtain ⟨t, ht, hstems⟩ := exec_stemResyncPass_of_budget h hb dirty
    have hnot : ¬ (r.stage < 3 ∧ dirty = true) := by
      rintro ⟨hlt, hdirty⟩
      rcases hlast with hd | h3
      · exact Bool.noConfusion (hd.symm.trans hdirty)
      · omega
    rw [SyncRun.pass, if_neg hnot, if_pos hstage] at hstems
    exact ⟨t, ht, hstems⟩
  case spent =>
    intro s r dirty h hb
    refine ⟨_, (exec_stemResyncPass h dirty).trans (congrArg _ (if_pos hb)), rfl, ?_⟩
    exact Vector.getElem_set_self _
  case digests =>
    intro s r h hb hstage
    exact ⟨_, (exec_stemDigestRound h hb hstage 0).trans (congrArg _ (if_pos rfl)), rfl⟩
  case thirdRound =>
    intro s r k m h hb hstage hrounds hm hk
    have ht := exec_stemDigestRound h hb hstage m
    rw [if_neg (by omega), if_neg (by omega)] at ht
    exact ⟨_, ht, State.syncFail_stems hk 2 m⟩
  case agreed =>
    intro s r k h hstage hat hk
    refine ⟨_, exec_stemSyncAgreement_of_agreed h hk hstage hat, ?_⟩
    rw [State.stemSt, State.faultScan_stems, State.stemNotice_stems]
    exact ⟨congrArg Stem.st (s.modStem_stem_same k (fun x => { x with st := .standby })),
      s.modStem_stem_other k (fun x => { x with st := .standby }), rfl, rfl⟩
  case notAgreed => exact fun s r h hnot => ⟨s, exec_stemSyncAgreement_of_not_agreed h hnot, rfl⟩
  case inTime => exact fun s r h hlt => ⟨s, (exec_stemResyncTimeout h).trans (congrArg _ (if_neg (by omega))), rfl⟩
  case timeout =>
    intro s r k h hle hk
    exact ⟨_, (exec_stemResyncTimeout h).trans (congrArg _ (if_pos hle)), State.syncFail_stems hk 1 0⟩
  case input => exact fun s cause kind n h => exec_stemSwitchoverInput h
  case switchover =>
    intro s k j hmay h ho
    obtain ⟨hact, hstb, hcount, hinput⟩ := s.switchTo_stems j 4 0 .standby
    refine ⟨_, congrArg Host.Outcome.next (s.control_may k [5] _ hmay), ?_⟩
    rw [State.stemSwitch_of_standby h ho]
    simp only [State.stemSt, State.ctlDone_stems, State.ctlDone_passed]
    exact ⟨rfl, hact, hstb, hcount, hinput⟩
  case resync =>
    intro s k j hmay h ho
    obtain ⟨hsync, hother, hrun⟩ := s.toSync_stems j
    rw [ho] at hother
    refine ⟨_, congrArg Host.Outcome.next (s.control_may k [5] _ hmay), ?_⟩
    rw [State.stemResync_of_standby h ho]
    simp only [State.stemSt, State.ctlDone_stems, State.faultScan_stems]
    exact ⟨rfl, hsync, hother, hrun⟩
  case switchoverBusy =>
    intro s k hmay hnot
    refine ⟨_, congrArg Host.Outcome.next (s.control_may k [5] _ hmay), ?_⟩
    rw [State.stemSwitch_of_not_redundant hnot]
    exact ⟨rfl, State.ctlDone_stems s k [5] stBusy⟩
  case restartStandby =>
    intro s k hmay h0 h1 hhot hlow
    obtain ⟨⟨hboot, hlimited, hother⟩, hok⟩ := State.stemRestartCtl_of_limited (j := 1) h1 h0 hhot hlow
    refine ⟨_, congrArg Host.Outcome.next (s.control_may k [5] _ hmay), ?_⟩
    rw [hok]
    simp only [State.stemSt, State.ctlDone_stems]
    exact ⟨rfl, hboot, hlimited, hother⟩

end Sys2Proof.Machine

/-! PROOFS. The time-base (R29 to R31, R40): where it measures a reference, the steering, and the commands that lock it, lose its reference
and take it back. -/

namespace Sys2Proof.Machine

/-- A number that fits its word. -/
theorem toWord_natCast {w n : Nat} (h : n < 2 ^ w) : toWord w (n : Int) = n := by
  rw [toWord, Int.emod_eq_of_lt (Int.natCast_nonneg n) (by exact_mod_cast h), Int.toNat_natCast]

theorem clampI_bounds {lo hi : Int} (h : lo ≤ hi) (x : Int) : lo ≤ clampI lo hi x ∧ clampI lo hi x ≤ hi :=
  ⟨le_max_left lo _, max_le h (min_le_left hi x)⟩

/-- REFCLK is a source under 1 and 3 alone (R29), so the data of TB_LOCKED is the source itself. -/
theorem State.toWord_tbSource_of_usesRefclk {s : State} (h : s.usesRefclk = true) : toWord 64 (s.tbSource : Int) = s.tbSource := by
  refine toWord_natCast ?_
  have hsource : s.tbSource = 1 ∨ s.tbSource = 3 := by simpa [State.usesRefclk] using h
  omega

theorem State.usesPtp_of_tbSource {s : State} (h : s.tbSource = 2) : s.usesPtp = true := by
  rw [State.usesPtp, h]
  rfl

/-- Only in FREE does a measurement move the time-base (R31). -/
theorem State.tbMeasure_of_ne_free {s : State} (h : s.tb.state ≠ .free) : s.tbMeasure = s :=
  if_neg fun hm => h hm.1

/-- Steering writes the steering of the tick alone. -/
theorem State.steerBy_eq (s : State) (err : Int) : ∃ x, s.steerBy err = s.modTb (fun b => { b with steer := x }) := by
  unfold State.steerBy
  extract_lets mhz
  split
  · exact ⟨s.tb.steer, rfl⟩
  · exact ⟨_, rfl⟩

@[simp] theorem State.steerBy_tb_state (s : State) (err : Int) : (s.steerBy err).tb.state = s.tb.state := by
  obtain ⟨x, hx⟩ := s.steerBy_eq err
  rw [hx]
  rfl

/-- Steering that is not frozen keeps the tick within 100 ppm of nominal, the oscillator's correction included (R30). -/
theorem State.steerBy_bounds {s : State} (h : s.tb.frozen = false) (err : Int) :
    -10000 ≤ (s.steerBy err).tb.steer + s.therm.osc ∧ (s.steerBy err).tb.steer + s.therm.osc ≤ 10000 := by
  unfold State.steerBy
  extract_lets mhz
  rw [if_neg (by rw [h]; decide), State.modTb_tb]
  obtain ⟨hlo, hhi⟩ := clampI_bounds (lo := -10000 - s.therm.osc) (hi := 10000 - s.therm.osc) (by omega)
    (stepTo s.tb.steer (Config.servoStep (s.parN P.DEV_TIME_SERVO_BW 0) mhz s.tb.steer err))
  dsimp only
  omega

/-- REFCLK measured in ACQUIRE (R31): rejected beyond 200 ppm, the lock below 0.1 ppm, and steered towards it in between. -/
theorem exec_tbLocked_refclk_of_acquire {s : State} (hu : s.usesRefclk = true) (ha : s.tb.state = .acquire) (err : Int) :
    exec (.tbLocked .refclk err) s =
      if err.natAbs > 20000 then .next (s.log 0x0125 0 err)
      else if err.natAbs < 10 then
        .next (((s.steerBy err).modTb (fun t => { t with state := .locked, lockFreq := true })).log 0x0122 0 s.tbSource)
      else .next (s.steerBy err) := by
  show execTbLocked .refclk err s = _
  unfold execTbLocked
  rw [State.tbMeasure_of_ne_free (by rw [ha]; decide)]
  exact if_pos ⟨hu, ha⟩

/-- REFCLK measured in LOCKED steers the tick (R29). -/
theorem exec_tbLocked_refclk_of_locked {s : State} (hu : s.usesRefclk = true) (hl : s.tb.state = .locked) (err : Int) :
    exec (.tbLocked .refclk err) s = .next (s.steerBy err) := by
  have hnot : ¬ (s.usesRefclk = true ∧ s.tb.state = .acquire) := by simp [hl]
  show execTbLocked .refclk err s = _
  unfold execTbLocked
  rw [State.tbMeasure_of_ne_free (by rw [hl]; decide)]
  exact (if_neg hnot).trans (congrArg Host.Outcome.next (if_pos ⟨hu, hl⟩))

/-- Sixteen good Sync messages in ACQUIRE with PTP as the one source lock frequency and time (R31). -/
theorem exec_tbLocked_ptp_of_acquire {s : State} (hs : s.tbSource = 2) (ha : s.tb.state = .acquire) (hgood : 16 ≤ s.tb.syncGood)
    (err : Int) : exec (.tbLocked .ptp err) s =
      .next ((s.modTb (fun t => { t with state := .locked, lockFreq := true, lockTime := true })).log 0x0122 0 2) := by
  show execTbLocked .ptp err s = _
  unfold execTbLocked
  rw [State.tbMeasure_of_ne_free (by rw [ha]; decide)]
  exact if_pos ⟨State.usesPtp_of_tbSource hs, hgood, ha, hs⟩

theorem exec_tbRefclkLoss_of_locked {s : State} (hu : s.usesRefclk = true) (hl : s.tb.state = .locked) :
    exec .tbRefclkLoss s = .next (s.tbHoldover 0) := congrArg Host.Outcome.next (if_pos ⟨hu, hl⟩)

theorem exec_tbSyncLoss_of_locked {s : State} (hu : s.usesPtp = true) (hl : s.tb.state = .locked) :
    exec .tbSyncLoss s = .next (s.tbHoldover 1) := congrArg Host.Outcome.next (if_pos ⟨hu, hl⟩)

theorem exec_tbAnnounceTimeout_of_locked {s : State} (hu : s.usesPtp = true) (hl : s.tb.state = .locked) :
    exec .tbAnnounceTimeout s =
      .next ((s.tbHoldover 2).modTb (fun t => { t with master := none, syncAt := none, lastSync := none })) :=
  congrArg (fun u : State => Host.Outcome.next (u.modTb _)) (if_pos ⟨hu, hl⟩)

/-- A reference that returns in HOLDOVER is locked to at once (R31). -/
theorem exec_tbReferenceReturn_of_holdover {s : State} (h : s.tb.state = .holdover) :
    exec .tbReferenceReturn s = .next (s.modTb (fun t => { t with
      state := .locked, holdover := false, frozen := false, lockFreq := true, lockTime := s.tbSource == 2 })) :=
  congrArg Host.Outcome.next (if_pos h)

theorem exec_tbHoldoverExpiry_of_holdover {s : State} (h : s.tb.state = .holdover) :
    exec .tbHoldoverExpiry s = .next (s.modTb (fun t => { t with
      state := .free, holdover := false, frozen := false, lockFreq := false, lockTime := false })) :=
  congrArg Host.Outcome.next (if_pos h)

/-- Settles O1: each command by its equation, the lock by what steering writes and by its bounds. -/
theorem timeBaseFollowsItsReference : Obligations.TimeBaseFollowsItsReference := by
  unfold Obligations.TimeBaseFollowsItsReference
  refine ⟨?locks, ?steers, ?rejects, ?locksPtp, ?refclkLoss, ?syncLoss, ?announceTimeout, ?returns, ?expiry⟩
  case locks =>
    intro s err hu ha herr
    have ht := exec_tbLocked_refclk_of_acquire hu ha err
    rw [if_neg (by omega), if_pos herr] at ht
    refine ⟨_, ht, rfl, fun hfrozen => s.steerBy_bounds hfrozen err, ?_⟩
    obtain ⟨x, hx⟩ := s.steerBy_eq err
    rw [hx, State.log_evq, State.toWord_tbSource_of_usesRefclk hu]
    rfl
  case steers =>
    exact fun s err hu hl => ⟨_, exec_tbLocked_refclk_of_locked hu hl err, rfl, (s.steerBy_tb_state err).trans hl⟩
  case rejects =>
    exact fun s err hu ha herr => ⟨_, (exec_tbLocked_refclk_of_acquire hu ha err).trans (if_pos herr), rfl, rfl⟩
  case locksPtp => exact fun s err hs ha hgood => ⟨_, exec_tbLocked_ptp_of_acquire hs ha hgood err, rfl, rfl⟩
  case refclkLoss =>
    exact fun s hu hl => ⟨_, exec_tbRefclkLoss_of_locked hu hl, rfl, rfl, rfl, rfl, rfl, Bool.or_true _, rfl⟩
  case syncLoss =>
    exact fun s hu hl => ⟨_, exec_tbSyncLoss_of_locked hu hl, rfl, rfl, rfl, rfl, rfl, Bool.or_true _, rfl⟩
  case announceTimeout =>
    exact fun s hu hl => ⟨_, exec_tbAnnounceTimeout_of_locked hu hl, rfl, rfl, rfl, rfl, rfl, rfl, Bool.or_true _, rfl, rfl⟩
  case returns => exact fun s h => ⟨_, exec_tbReferenceReturn_of_holdover h, rfl, rfl, rfl, rfl, rfl⟩
  case expiry => exact fun s h => ⟨_, exec_tbHoldoverExpiry_of_holdover h, rfl, rfl, rfl, rfl, rfl⟩

end Sys2Proof.Machine

/-! PROOFS. The correction of shelf time (R33 to R36, R38): an offset left alone, stepped or slewed, and the PTP messages that bring it. -/

namespace Sys2Proof.Machine

/-- A slew ends: no slew stands, the clock and the log are as they were, and the end of one that stood is a stamped input. -/
theorem State.slewEnd_spec (s : State) :
    s.slewEnd.tb.slew = .none ∧ s.slewEnd.clk = s.clk ∧ s.slewEnd.evq = s.evq ∧
      s.slewEnd.ord = (if s.tb.slew = .none then s.ord else s.ord + 1) ∧
      s.slewEnd.tb.isSet = s.tb.isSet ∧ s.slewEnd.tb.timeGap = s.tb.timeGap ∧ s.slewEnd.tb.lastOffset = s.tb.lastOffset := by
  unfold State.slewEnd
  split
  · next h => exact ⟨h, rfl, rfl, rfl, rfl, rfl, rfl⟩
  · exact ⟨rfl, rfl, rfl, rfl, rfl, rfl, rfl⟩

theorem State.correctOffset_of_small {s : State} {off : Int} (h : off.natAbs < 100) : s.correctOffset off = s.slewEnd :=
  if_pos h

/-- An offset above the limit is stepped, in whole ticks of 4 ns (R36). -/
def State.stepShelf (s : State) (off : Int) : State :=
  { (s.modTb (fun t => { t with slew := .none, slewOfs := 0 })).stamp with
    clk := { s.clk with t5k := s.clk.t5k + off.toNat / 4 * 5000 } }.log 0x0120 0 (off.toNat / 4 * 4 : Nat)

theorem State.correctOffset_of_step {s : State} {off : Int} (h : 100 ≤ off.natAbs) (hstep : s.par P.DEV_TIME_STEP_LIMIT 0 * 1000 < off) :
    s.correctOffset off = s.stepShelf off := by
  unfold State.correctOffset
  rw [if_neg (by omega), if_pos hstep]
  extract_lets step s1
  rw [Nat.mul_div_cancel _ (by decide : 0 < 4)]
  rfl

/-- The direction in which a slew removes an offset. -/
def slewDir (off : Int) : Slew := if 0 < off then .forward else .backward

/-- The slew of an offset set up (R36). -/
def State.slewBy (s : State) (off : Int) : State :=
  s.modTb (fun t => { t with slew := slewDir off, slewOfs := off, slewTick := s.clk.tick })

/-- Any other offset is slewed, with shelf time as it was; a slew in a new direction is a stamped input and recorded (R36, R38). -/
theorem State.correctOffset_of_slew {s : State} {off : Int} (h : 100 ≤ off.natAbs) (hslew : off ≤ s.par P.DEV_TIME_STEP_LIMIT 0 * 1000) :
    (s.correctOffset off).tb = (s.slewBy off).tb ∧ (s.correctOffset off).clk = s.clk ∧
      (s.correctOffset off).ord = (if slewDir off = s.tb.slew then s.ord else s.ord + 1) ∧
      (s.correctOffset off).evq =
        s.evq ++ (if slewDir off = s.tb.slew then [] else [⟨0x0121, 0, toWord 64 off, s.clk.shelf⟩]) := by
  have hc : s.correctOffset off = if s.tb.slew = slewDir off then s.slewBy off else (s.slewBy off).stamp.log 0x0121 0 off := by
    unfold State.correctOffset
    rw [if_neg (by omega), if_neg (by omega)]
    rfl
  by_cases hsame : slewDir off = s.tb.slew
  · rw [hc, if_pos hsame.symm, if_pos hsame, if_pos hsame]
    exact ⟨rfl, rfl, rfl, (List.append_nil _).symm⟩
  · rw [hc, if_neg (Ne.symm hsame), if_neg hsame, if_neg hsame]
    exact ⟨rfl, rfl, rfl, rfl⟩

/-- What a measured offset leaves in the time-base before shelf time is corrected (R35, R40): shelf time set, no gap, the offset kept;
the slew as it was. -/
def TimeBase.Noted (b c : TimeBase) (off : Int) : Prop :=
  c.isSet = true ∧ c.timeGap = false ∧ c.lastOffset = off ∧ c.slew = b.slew

/-- A measured offset is noted in the time-base, and corrected. -/
theorem State.ptpSync_eq (s : State) (port : Fin 2) (t1 t2 : Int) :
    ∃ b : TimeBase, s.ptpSync port t1 t2 = { s with tb := b }.correctOffset (s.ptpOffset port t1 t2) ∧
      s.tb.Noted b (s.ptpOffset port t1 t2) := by
  unfold State.ptpSync State.ptpMeasured
  extract_lets s1
  split
  · obtain ⟨x, hx⟩ := s1.steerBy_eq (s.ptpOffset port t1 t2)
    rw [hx]
    exact ⟨_, rfl, rfl, rfl, rfl, rfl⟩
  · exact ⟨_, rfl, rfl, rfl, rfl, rfl⟩

/-- What a PTP message that is heard meets (R29, R31, R33). -/
theorem State.ptpHears_iff (s : State) (port : Fin 2) (dom : Nat) (m : PtpMsg) : s.ptpHears port dom m = true ↔
    s.tb.state ≠ .free ∧ s.usesPtp = true ∧ port.val = s.parN P.DEV_PTP_PORT 0 ∧ m.transport = s.parN P.DEV_PTP_TRANSPORT 0 ∧
      dom = s.parN P.DEV_PTP_DOMAIN 0 := by
  simp only [State.ptpHears, Bool.and_eq_true, bne_iff_ne, decide_eq_true_eq]
  tauto

section Heard

variable {s : State} {port : Fin 2} {dom : Nat} {m : PtpMsg}

/-- An Announce that is heard selects the better master (R33). -/
theorem exec_ptpEventMessage_announce {d : PtpSet} (h : s.ptpHears port dom m = true) (hk : m.kind = .announce d) :
    exec (.ptpEventMessage port dom m) s = .next (s.modTb (fun t => { t with master := t.heard m.sender d })) := by
  obtain ⟨hfree, hsel⟩ := (s.ptpHears_iff port dom m).1 h
  show execPtpEventMessage port dom m s = _
  unfold execPtpEventMessage
  rw [State.tbMeasure_of_ne_free hfree, hk]
  exact if_pos hsel

/-- A Sync of the selected master: kept for its follow-up, or measured at once (R33). -/
theorem exec_ptpEventMessage_sync {two : Bool} {t1 : Int} (h : s.ptpHears port dom m = true)
    (hm : s.tb.master.map (·.1) = some m.sender) (hk : m.kind = .sync two t1) :
    exec (.ptpEventMessage port dom m) s = .next (if two = true then
        s.modTb (fun t => { t with syncAt := some ((s.clk.shelf : Int) - m.age) })
      else s.ptpSync port t1 ((s.clk.shelf : Int) - m.age)) := by
  obtain ⟨hfree, hsel⟩ := (s.ptpHears_iff port dom m).1 h
  have hmine : ((s.tb.master.map (·.1)) == some m.sender) = true := by rw [hm, beq_self_eq_true]
  show execPtpEventMessage port dom m s = _
  unfold execPtpEventMessage
  rw [State.tbMeasure_of_ne_free hfree, hk, if_pos hsel]
  cases two with
  | true => exact congrArg Host.Outcome.next (if_pos hmine)
  | false => exact congrArg Host.Outcome.next (if_pos hmine)

/-- A one-step Sync of the selected master has its offset noted, and corrected. -/
theorem exec_ptpEventMessage_oneStep {t1 off : Int} (h : s.ptpHears port dom m = true) (hm : s.tb.master.map (·.1) = some m.sender)
    (hk : m.kind = .sync false t1) (ho : off = s.ptpOffset port t1 ((s.clk.shelf : Int) - m.age)) :
    ∃ b : TimeBase, exec (.ptpEventMessage port dom m) s = .next ({ s with tb := b }.correctOffset off) ∧ s.tb.Noted b off := by
  obtain ⟨b, hb, hnoted⟩ := s.ptpSync_eq port t1 ((s.clk.shelf : Int) - m.age)
  rw [← ho] at hb hnoted
  exact ⟨b, (exec_ptpEventMessage_sync h hm hk).trans (congrArg Host.Outcome.next hb), hnoted⟩

end Heard

/-- TIME_SLEW_COMPLETE with less than 100 ns left ends the slew (R36). -/
theorem exec_timeSlewComplete_of_small {s : State} (h : s.slewLeft < 500000) (h' : -500000 < s.slewLeft) :
    exec .timeSlewComplete s = .next s.slewEnd := congrArg Host.Outcome.next (if_pos ⟨h, h'⟩)

/-- Settles O2: a Sync by its noted offset and the three ways of `State.correctOffset`, the other messages and the end of a slew by their
equations. -/
theorem shelfTimeIsCorrected : Obligations.ShelfTimeIsCorrected := by
  unfold Obligations.ShelfTimeIsCorrected
  refine ⟨?leftAlone, ?stepped, ?slewed, ?twoStep, ?announce, ?slewEnds⟩
  case leftAlone =>
    intro s port dom m t1 off hears hmine hkind hoff hsmall
    obtain ⟨b, ht, hset, hgap, hlast, hslew⟩ := exec_ptpEventMessage_oneStep hears hmine hkind hoff
    rw [State.correctOffset_of_small hsmall] at ht
    obtain ⟨hnone, hclk, hevq, hord, heqSet, heqGap, heqLast⟩ := State.slewEnd_spec { s with tb := b }
    rw [hslew] at hord
    exact ⟨_, ht, heqSet.trans hset, heqGap.trans hgap, heqLast.trans hlast, congrArg Clock.tick hclk, hnone, hclk, hevq, hord⟩
  case stepped =>
    intro s port dom m t1 off hears hmine hkind hoff hlarge hstep
    obtain ⟨b, ht, hset, hgap, hlast, -⟩ := exec_ptpEventMessage_oneStep hears hmine hkind hoff
    exact ⟨_, ht.trans (congrArg Host.Outcome.next (State.correctOffset_of_step hlarge hstep)), hset, hgap, hlast, rfl,
      Nat.le_add_right _ _, rfl, rfl, rfl, rfl⟩
  case slewed =>
    intro s port dom m t1 off hears hmine hkind hoff hlarge hslew
    obtain ⟨b, ht, hset, hgap, hlast, hdir⟩ := exec_ptpEventMessage_oneStep hears hmine hkind hoff
    obtain ⟨htb, hclk, hord, hevq⟩ := State.correctOffset_of_slew (s := { s with tb := b }) hlarge hslew
    rw [hdir] at hord hevq
    refine ⟨_, ht, ?_⟩
    rw [htb]
    exact ⟨hset, hgap, hlast, congrArg Clock.tick hclk, hclk, rfl, rfl, rfl, hord, hevq⟩
  case twoStep => exact fun s port dom m t1 hears hmine hkind => ⟨_, exec_ptpEventMessage_sync hears hmine hkind, rfl⟩
  case announce => exact fun s port dom m d hears hkind => ⟨_, exec_ptpEventMessage_announce hears hkind, rfl⟩
  case slewEnds =>
    intro s hslew hhi hlo
    obtain ⟨hnone, hclk, -, hord, -, -, -⟩ := s.slewEnd_spec
    exact ⟨_, exec_timeSlewComplete_of_small hhi hlo, hnone, hclk, hord.trans (if_neg hslew)⟩

end Sys2Proof.Machine

/-! PROOFS. The Sluice period (R41, R43, R46, R47, R52): the close of one activity, of all six, and the boundary. -/

namespace Sys2Proof.Machine

/-- Updates of places outside a list keep a place. -/
theorem foldl_upd_of_not_mem {α : Type} {n : Nat} (g : Fin n → α → α) {js : List (Fin n)} {i : Fin n} (h : i ∉ js) (v : Vector α n) :
    (js.foldl (fun u j => upd u j (g j)) v)[i] = v[i] := by
  induction js generalizing v with
  | nil => rfl
  | cons j js ih =>
    obtain ⟨hj, hjs⟩ := not_or.1 (mt List.mem_cons.2 h)
    rw [List.foldl_cons, ih hjs, upd_get, if_neg hj]

/-- Updates of each place of a list, once each. -/
theorem foldl_upd_of_mem {α : Type} {n : Nat} (g : Fin n → α → α) {js : List (Fin n)} {i : Fin n} (hn : js.Nodup) (h : i ∈ js)
    (v : Vector α n) : (js.foldl (fun u j => upd u j (g j)) v)[i] = g i v[i] := by
  induction js generalizing v with
  | nil => simp at h
  | cons j js ih =>
    obtain ⟨hj, hjs⟩ := List.nodup_cons.1 hn
    rw [List.foldl_cons]
    rcases List.mem_cons.1 h with rfl | hi
    · rw [foldl_upd_of_not_mem g hj, upd_get, if_pos rfl]
    · rw [ih hjs hi, upd_get, if_neg (ne_of_mem_of_not_mem hi hj)]

/-- Updates of every place. -/
theorem foldl_upd_fins {α : Type} {n : Nat} (g : Fin n → α → α) (v : Vector α n) (i : Fin n) :
    ((fins n).foldl (fun u j => upd u j (g j)) v)[i] = g i v[i] :=
  foldl_upd_of_mem g (List.nodup_finRange n) (List.mem_finRange i) v

/-- What the close of a period makes of a count of stalled periods (R47). -/
def stallCount (stalled : Bool) (n : Nat) : Nat := if stalled = true then bump n else n

/-- The close of one activity's period, in the counts that a host reads. -/
theorem State.sluiceClose_slu (s : State) (a : Fin 6) :
    (s.sluiceClose a).slu.used = s.slu.used ∧ (s.sluiceClose a).slu.stalled = s.slu.stalled ∧
      (s.sluiceClose a).slu.peakUse = upd s.slu.peakUse a (max s.slu.used[a]) ∧
      (s.sluiceClose a).slu.stallPeriods = upd s.slu.stallPeriods a (stallCount s.slu.stalled[a]) := by
  unfold State.sluiceClose
  extract_lets used stalled heard s'
  split
  · exact ⟨rfl, rfl, rfl, rfl⟩
  · exact ⟨rfl, rfl, rfl, rfl⟩

/-- The close of several activities' periods, in the same counts: each is updated by what the period used and stalled. -/
theorem State.foldl_sluiceClose_slu (as : List (Fin 6)) (s : State) :
    (as.foldl State.sluiceClose s).slu.peakUse = as.foldl (fun v a => upd v a (max s.slu.used[a])) s.slu.peakUse ∧
      (as.foldl State.sluiceClose s).slu.stallPeriods =
        as.foldl (fun v a => upd v a (stallCount s.slu.stalled[a])) s.slu.stallPeriods := by
  induction as generalizing s with
  | nil => exact ⟨rfl, rfl⟩
  | cons a as ih =>
    obtain ⟨hused, hstalled, hpeak, hcount⟩ := s.sluiceClose_slu a
    obtain ⟨hpeaks, hcounts⟩ := ih (s.sluiceClose a)
    rw [hused, hpeak] at hpeaks
    rw [hstalled, hcount] at hcounts
    exact ⟨hpeaks, hcounts⟩

/-- Every activity's period closed (R46, R47). -/
def State.sluiceClosed (s : State) : State := (fins 6).foldl State.sluiceClose s

/-- The close of the periods writes the Sluice and the log alone. -/
theorem State.sluiceClosed_keeps (s : State) : Keeps (maskOf [.slu, .evq]) s s.sluiceClosed :=
  Keeps.foldl _ (Keeps.refl _ s) fun _ a h => State.sluiceClose_keeps a h (.ofParts (by decide))

theorem State.sluiceClosed_activeStem (s : State) : s.sluiceClosed.activeStem = s.activeStem := by
  unfold State.activeStem
  rw [show s.sluiceClosed.stems = s.stems from s.sluiceClosed_keeps.frame .stems (by decide)]

/-- The fault of the active stem where Eddy took more than its budget in the period of `s`, on the state `t` with that period closed
(R43, R47). -/
def State.judgeEddy (s t : State) : State :=
  if s.slu.used[(0 : Fin 6)] > s.sluiceBudget 0 then (t.log 0x0201 s.activeStem (s.slu.used[(0 : Fin 6)] : Nat)).stemFault 6 else t

theorem State.judgeEddy_rest (s t : State) : (s.judgeEddy t).slu = t.slu ∧ (s.judgeEddy t).ord = t.ord := by
  unfold State.judgeEddy
  split
  · exact ⟨rfl, rfl⟩
  · exact ⟨rfl, rfl⟩

theorem State.judgeEddy_stemRep (s t : State) : (s.judgeEddy t).stemRep =
    if s.slu.used[(0 : Fin 6)] > s.sluiceBudget 0 then t.stemRep ++ [(t.activeStem, 6)] else t.stemRep := by
  unfold State.judgeEddy
  split
  · rfl
  · rfl

/-- The reports of the stems behind the boundary: one more where Eddy took more than its budget. -/
theorem State.judgeEddy_sluiceClosed_stemRep (s : State) : (s.judgeEddy s.sluiceClosed).stemRep =
    if s.slu.used[(0 : Fin 6)] > s.sluiceBudget 0 then s.stemRep ++ [(s.activeStem, 6)] else s.stemRep := by
  rw [State.judgeEddy_stemRep, s.sluiceClosed_activeStem,
    show s.sluiceClosed.stemRep = s.stemRep from s.sluiceClosed_keeps.frame .stemRep (by decide)]

/-- The boundary while a stem is active (R41, R46). -/
theorem exec_sluicePeriodBoundary_of_active {s : State} (h : s.hasActive = true) :
    exec .sluicePeriodBoundary s = .next { s.judgeEddy s.sluiceClosed with
      slu := { (s.judgeEddy s.sluiceClosed).slu with used := Vector.replicate 6 0, stalled := Vector.replicate 6 false } }.stamp :=
  congrArg Host.Outcome.next (if_pos h)

/-- Settles O3: the counts by the close of the six periods, the fault by Eddy's grants of the period that closed. -/
theorem sluicePeriodCloses : Obligations.SluicePeriodCloses := by
  unfold Obligations.SluicePeriodCloses
  intro s hactive
  obtain ⟨hslu, hord⟩ := s.judgeEddy_rest s.sluiceClosed
  have hclosed : s.sluiceClosed.ord = s.ord := s.sluiceClosed_keeps.frame .ord (by decide)
  obtain ⟨hpeak, hcount⟩ := State.foldl_sluiceClose_slu (fins 6) s
  refine ⟨_, exec_sluicePeriodBoundary_of_active hactive, congrArg (· + 1) (hord.trans hclosed),
    fun a => ⟨?used, ?stalled, ?peak, ?count⟩, ?overrun, ?within⟩
  case used => exact Vector.getElem_replicate a.isLt
  case stalled => exact Vector.getElem_replicate a.isLt
  case peak =>
    show (s.judgeEddy s.sluiceClosed).slu.peakUse[a] = _
    rw [hslu, State.sluiceClosed, hpeak]
    exact foldl_upd_fins (fun j => max s.slu.used[j]) s.slu.peakUse a
  case count =>
    show (s.judgeEddy s.sluiceClosed).slu.stallPeriods[a] = _
    rw [hslu, State.sluiceClosed, hcount]
    exact foldl_upd_fins (fun j => stallCount s.slu.stalled[j]) s.slu.stallPeriods a
  case overrun => exact fun hover => s.judgeEddy_sluiceClosed_stemRep.trans (if_pos hover)
  case within => exact fun hwithin => s.judgeEddy_sluiceClosed_stemRep.trans (if_neg (Nat.not_lt.2 hwithin))

end Sys2Proof.Machine

/-! PROOFS. The safe part (R70, R82, R339): what a step of the block keeps of the store and of the outputs, and the part right after reset. -/

namespace Sys2Proof.Machine

/-- The tick of the clock writes the clock alone. -/
theorem State.clockOnce_rest (s : State) : s.clockOnce.mram = s.mram ∧ s.clockOnce.ph = s.ph ∧ s.clockOnce.die = s.die := by
  unfold State.clockOnce
  split
  · exact ⟨rfl, rfl, rfl⟩
  · exact ⟨rfl, rfl, rfl⟩

/-- A step keeps what every operation keeps, from a state with the store, the dies and the phases of the one before: the queue's rest, or the
clock's tick. -/
theorem step_keeps {s t : State} (h : step s = .next t) :
    ∃ (w : Nat) (u : State), (u.mram = s.mram ∧ u.ph = s.ph ∧ u.die = s.die) ∧ Keeps w u t := by
  cases hq : s.pending with
  | nil =>
    obtain rfl := Host.Outcome.next.inj ((step_of_pending_nil hq).symm.trans h)
    exact ⟨_, s.clockOnce, s.clockOnce_rest, State.doubtEnd_keeps (Keeps.refl _ _) (Within.mono (Nat.and_self _) fun _ => id)⟩
  | cons c cs =>
    obtain ⟨u, hu, hk⟩ := exec_answers c { s with pending := cs }
    obtain rfl := Host.Outcome.next.inj (hu.symm.trans ((step_of_pending_cons hq).symm.trans h))
    exact ⟨_, { s with pending := cs }, ⟨rfl, rfl, rfl⟩, hk⟩

/-- Settles O58: each of the three is among what `Keeps` says of every operation. -/
theorem safePartIsKept : Obligations.SafePartIsKept := by
  unfold Obligations.SafePartIsKept
  intro s t hwf hshoot hlow hstep
  obtain ⟨w, u, ⟨hmram, hph, hdie⟩, hk⟩ := step_keeps hstep
  have hdrive : Drive u := by
    unfold Drive Safety.noShootThrough Safety.safeDieLow
    rw [hph, hdie]
    exact ⟨hshoot, hlow⟩
  exact ⟨hk.store (by rwa [hmram]), hk.drive hdrive⟩

theorem State.reset_ph (p : Fin 48) : State.reset.ph[p] = Phase.reset := Vector.getElem_replicate p.isLt

theorem State.reset_die (d : Fin 4) : State.reset.die[d] = { Die.reset with off := true } := Vector.getElem_replicate d.isLt

theorem State.reset_feed (f : Fin 2) : State.reset.bank.feed[f].state = .off := by
  rw [show State.reset.bank.feed[f] = Feed.reset from Vector.getElem_replicate f.isLt]
  rfl

/-- The PWM pads of a phase whose die is off. -/
theorem State.pwmPads_of_off {s : State} {p : Fin 48} (h : s.die[dieOf p].off = true) : s.pwmPads p = (.low, .low) := if_pos (.inl h)

/-- The safe part is met at reset: the store is empty, and every output is low. -/
theorem State.reset_safe : Safety.storeWf State.reset ∧ Safety.noShootThrough State.reset ∧ Safety.safeDieLow State.reset := by
  have hlow : ∀ p : Fin 48, State.reset.ph[p].pl.pwmh = false ∧ State.reset.ph[p].pl.pwml = false := by
    intro p
    rw [State.reset_ph]
    exact ⟨rfl, rfl⟩
  refine ⟨⟨⟨List.Pairwise.nil, fun _ h => ?_⟩, fun _ h => ?_⟩, fun p h => ?_, fun p _ => hlow p⟩
  · exact absurd h List.not_mem_nil
  · exact absurd h List.not_mem_nil
  · exact Bool.noConfusion ((hlow p).1.symm.trans h.1)

/-- Settles O60: each part by its value in `State.reset`. -/
theorem resetIsSafe : Obligations.ResetIsSafe := by
  unfold Obligations.ResetIsSafe
  refine ⟨rfl, rfl, rfl, fun k => ?stems, fun d => ?dies, fun p => ?outputs, fun l => ?loops, State.reset_feed, fun p => ?ports,
    fun k => ?sessions, fun _ => rfl, rfl, fun p => State.pwmPads_of_off ?pads, fun _ => rfl, fun _ => rfl, fun _ => rfl, State.reset_safe⟩
  case stems => exact congrArg Stem.st (Vector.getElem_replicate k.isLt)
  case dies => rw [State.reset_die]; rfl
  case outputs => rw [State.reset_ph]; exact ⟨rfl, rfl⟩
  case loops => exact congrArg (fun x => x.ct.state) (Vector.getElem_replicate (a := Loop.reset) l.isLt)
  case ports => exact congrArg Port.state (Vector.getElem_replicate p.isLt)
  case sessions => exact congrArg Sess.state (Vector.getElem_replicate k.isLt)
  case pads => rw [State.reset_die]

end Sys2Proof.Machine

/-! PROOFS. The pulses of a phase channel (R53 to R77): what an operation on one phase leaves of the others, and what the start and the end
of a pulse make of the phase itself. -/

namespace Sys2Proof.Machine

theorem State.modPh_ph_same (s : State) (p : Fin 48) (f : Phase → Phase) : (s.modPh p f).ph[p] = f s.ph[p] := upd_at _ _ _

theorem State.modPh_ph_ne (s : State) {p q : Fin 48} (h : q ≠ p) (f : Phase → Phase) : (s.modPh p f).ph[q] = s.ph[q] := upd_ne _ _ h

/-- Every phase but one is as it was. -/
def OthersKept (p : Fin 48) (s t : State) : Prop := ∀ q : Fin 48, q ≠ p → t.ph[q] = s.ph[q]

theorem OthersKept.trans {p : Fin 48} {s t u : State} (h : OthersKept p s t) (g : OthersKept p t u) : OthersKept p s u :=
  fun q hq => (g q hq).trans (h q hq)

theorem OthersKept.of_ph_eq (p : Fin 48) {s t : State} (h : t.ph = s.ph) : OthersKept p s t := fun _ _ => by rw [h]

theorem OthersKept.refl (p : Fin 48) (s : State) : OthersKept p s s := .of_ph_eq p rfl

theorem State.modPh_othersKept (s : State) (p : Fin 48) (f : Phase → Phase) : OthersKept p s (s.modPh p f) :=
  fun _ hq => s.modPh_ph_ne hq f

theorem State.modPl_othersKept (s : State) (p : Fin 48) (f : Pulse → Pulse) : OthersKept p s (s.modPl p f) :=
  s.modPh_othersKept p _

theorem State.setCtl_othersKept (s : State) (p : Fin 48) (d : Dir) (on : Bool) : OthersKept p s (s.setCtl p d on) :=
  s.modPh_othersKept p _

theorem State.setSync_othersKept (s : State) (p : Fin 48) (d : Dir) (on : Bool) : OthersKept p s (s.setSync p d on) :=
  s.modPh_othersKept p _

theorem State.formRef_othersKept (s : State) (p : Fin 48) : OthersKept p s (s.formRef p) := by
  intro q hq
  rw [State.formRef_ph]
  exact upd_ne _ _ hq

theorem State.startPulse_othersKept (s : State) (p : Fin 48) (d : Dir) (forced : Bool) (n : Nat) :
    OthersKept p s (s.startPulse p d forced n) := by
  unfold State.startPulse
  extract_lets asked lo ramp clamped s1 s2 s3
  have h2 : OthersKept p s s2 := by
    refine (s.modPh_othersKept p _).trans (OthersKept.of_ph_eq p ?_ : OthersKept p s1 s2)
    unfold s2
    split
    · rfl
    · rfl
  have h3 : OthersKept p s s3 :=
    ((h2.trans (s2.setSync_othersKept p d false)).trans (State.setCtl_othersKept _ p d true)).trans (State.formRef_othersKept _ p)
  split
  · exact h3.trans (.of_ph_eq p (s3.holdSeen_ph p .fwd))
  · exact h3

theorem State.endPulse_othersKept (s : State) (p : Fin 48) (w : Nat) (byLimit : Bool) : OthersKept p s (s.endPulse p w byLimit) := by
  unfold State.endPulse
  split
  · exact .refl p s
  · exact ((s.setCtl_othersKept p _ false).trans (State.modPh_othersKept _ p _)).trans (.of_ph_eq p (State.settleReport_ph _ p _ byLimit))

/-- The pulse of a phase at its start (R56, R66, R70): the controlled output on where `high` says that it is PWMH, and the other off. -/
def Pulse.started (x : Pulse) (d : Dir) (forced : Bool) (tick number : Nat) (high : Bool) : Pulse :=
  { x with
    pulse := some d, forced := forced, regBlank := true, limBlank := true, tonMin := true, tripWaits := false
    held := false, heldForced := false, zeroRef := false, dead := .none, onTick := tick, period := number, lastDir := d
    pwmh := high, pwml := !high }

/-- The synchronous output driven off and the controlled one on. -/
theorem Pulse.driven_off_on (x : Pulse) (high : Bool) : (x.driven (!high) false).driven high true = { x with pwmh := high, pwml := !high } := by
  cases high
  · simp [Pulse.driven]
  · simp [Pulse.driven]

/-- A reference is formed of what its phase holds. -/
theorem State.formRef_ph_same (s : State) (p : Fin 48) : (s.formRef p).ph[p] = { s.ph[p] with
    refCode := if s.ph[p].pl.zeroRef then 0 else (clampI 0 4095 (s.refCodeOf p)).toNat
    refClamp := s.ph[p].refClamp || s.pastSpan p (s.ph[p].iPh.natAbs + s.ph[p].corr) } := by
  rw [State.formRef_ph]
  exact upd_at _ _ _

theorem State.driveOut_ph_same (s : State) (p : Fin 48) (high on : Bool) : (s.driveOut p high on).ph[p] =
    { s.ph[p] with pl := s.ph[p].pl.driven high (on && s.die[dieOf p].state != .safe) } := s.modPh_ph_same p _

/-- The switches at the start of a pulse, at a die out of SAFE. -/
theorem State.switchOver_ph_same {s : State} {p : Fin 48} (h : s.die[dieOf p].state ≠ .safe) (d : Dir) :
    ((s.setSync p d false).setCtl p d true).ph[p] =
      { s.ph[p] with pl := { s.ph[p].pl with pwmh := s.ctlIsHigh p d, pwml := !s.ctlIsHigh p d } } := by
  have hgo : (s.die[dieOf p].state != .safe) = true := bne_iff_ne.2 h
  show ((s.driveOut p (!s.ctlIsHigh p d) false).driveOut p (s.ctlIsHigh p d) true).ph[p] = _
  rw [State.driveOut_ph_same, State.driveOut_ph_same,
    show (s.driveOut p (!s.ctlIsHigh p d) false).die = s.die from rfl, hgo, ← Pulse.driven_off_on]
  rfl

theorem State.ctlIsHigh_congr {s t : State} (h : t.cfg = s.cfg) (p : Fin 48) (d : Dir) : t.ctlIsHigh p d = s.ctlIsHigh p d := by
  unfold State.ctlIsHigh State.par
  rw [h]

/-- The reference's code follows from the parameters in force and from the command, the correction, the pulse and the offset of the phase. -/
theorem State.refCodeOf_congr {s t : State} {p : Fin 48} (hcfg : t.cfg = s.cfg) (hi : t.ph[p].iPh = s.ph[p].iPh)
    (hc : t.ph[p].corr = s.ph[p].corr) (ho : t.ph[p].offset = s.ph[p].offset) (hp : t.ph[p].pl.pulse = s.ph[p].pl.pulse) :
    t.refCodeOf p = s.refCodeOf p := by
  unfold State.refCodeOf State.pastSpan State.dacCode State.cmdDir State.fsIn State.parN State.par
  dsimp only
  rw [hcfg, hi, hc, ho, hp]

/-- A reference just formed is the code within the DAC, unless the pulse keeps a zero reference (R64, R195). -/
theorem State.formRef_refCode {s : State} {p : Fin 48} (h : s.ph[p].pl.zeroRef = false) :
    ((s.formRef p).ph[p].refCode : Int) = clampI 0 4095 ((s.formRef p).refCodeOf p) := by
  have hcfg : (s.formRef p).cfg = s.cfg :=
    (State.formRef_keeps (wm := maskOf [.ph, .loop]) p (Keeps.refl _ s) (.ofParts (by decide))).frame .cfg (by decide)
  have hcode : (s.formRef p).refCodeOf p = s.refCodeOf p := by
    refine State.refCodeOf_congr hcfg ?_ ?_ ?_ ?_ <;> rw [State.formRef_ph_same]
  rw [hcode, State.formRef_ph_same]
  simp only [h, Bool.false_eq_true, if_false]
  exact Int.toNat_of_nonneg (clampI_bounds (by decide) _).1

/-- A pulse that starts at a die out of SAFE (R56, R63, R66, R70): what it makes of its phase. -/
theorem State.startPulse_ph_same {s : State} {p : Fin 48} (h : s.die[dieOf p].state ≠ .safe) (d : Dir) (forced : Bool) (n : Nat) :
    let t := s.startPulse p d forced n
    t.ph[p].pl = s.ph[p].pl.started d forced s.clk.tick n (s.ctlIsHigh p d) ∧ t.ph[p].iPh = s.ph[p].iPh ∧
      t.ph[p].corr = s.avgCorr p d t.ph[p].ramp ∧ (t.ph[p].refCode : Int) = clampI 0 4095 (t.refCodeOf p) := by
  unfold State.startPulse
  extract_lets asked lo ramp clamped s1 s2 s3 t
  have h1 : s1.ph[p] = { s.ph[p] with
      ramp := ramp, rampClamp := s.ph[p].rampClamp || clamped, corr := s.avgCorr p d ramp
      pl := { s.ph[p].pl with
        pulse := some d, forced := forced, regBlank := true, limBlank := true, tonMin := true, tripWaits := false
        held := false, heldForced := false, zeroRef := false, dead := .none, onTick := s.clk.tick, period := n, lastDir := d } } :=
    s.modPh_ph_same p _
  have h2 : s2.ph = s1.ph ∧ s2.die = s.die ∧ s2.cfg = s.cfg := by
    unfold s2
    split
    · exact ⟨rfl, rfl, rfl⟩
    · exact ⟨rfl, rfl, rfl⟩
  obtain ⟨hph, hdie, hcfg⟩ := h2
  have ht : t.ph = s3.ph ∧ t.cfg = s3.cfg := by
    unfold t
    split
    · exact ⟨s3.holdSeen_ph p .fwd,
        (State.holdSeen_keeps (wm := maskOf [.loop]) p .fwd (Keeps.refl _ s3) (.ofParts (by decide))).frame .cfg (by decide)⟩
    · exact ⟨rfl, rfl⟩
  have hhigh : s2.ctlIsHigh p d = s.ctlIsHigh p d := State.ctlIsHigh_congr hcfg p d
  have hsw := State.switchOver_ph_same (s := s2) (p := p) (by rwa [hdie]) d
  rw [hph, h1, hhigh] at hsw
  have hcode : t.refCodeOf p = s3.refCodeOf p := by
    refine State.refCodeOf_congr ht.2 ?_ ?_ ?_ ?_ <;> rw [ht.1]
  have hzero : ((s2.setSync p d false).setCtl p d true).ph[p].pl.zeroRef = false := by rw [hsw]
  refine ⟨?_, ?_, ?_, ?_⟩
  case refine_4 =>
    rw [hcode, ht.1]
    exact State.formRef_refCode hzero
  all_goals
    rw [ht.1, State.formRef_ph_same, hsw] <;> rfl

end Sys2Proof.Machine

/-! PROOFS. The slot start of a phase (R55 to R57, R63 to R70): its own period opened, and each way of a start. -/

namespace Sys2Proof.Machine

theorem State.dieRuns_iff (s : State) (p : Fin 48) : s.dieRuns p = true ↔
    ∃ l, s.loopOf p = some l ∧ s.die[dieOf p].state = .run ∧ s.die[dieOf p].lp[l].run = true := by
  unfold State.dieRuns
  cases s.loopOf p with
  | none => simp
  | some l => simp

/-- A die that runs a phase's loop is out of SAFE. -/
theorem State.not_safe_of_dieRuns {s : State} {p : Fin 48} (h : s.dieRuns p = true) : s.die[dieOf p].state ≠ .safe := by
  obtain ⟨l, -, hrun, -⟩ := (s.dieRuns_iff p).1 h
  rw [hrun]
  decide

theorem State.not_safe_of_switches {s : State} {p : Fin 48} {l : Fin 16} (h : s.switches p l = true) : s.die[dieOf p].state ≠ .safe := by
  simp only [State.switches, Bool.and_eq_true] at h
  obtain ⟨⟨⟨⟨⟨hruns, -⟩, -⟩, -⟩, -⟩, -⟩ := h
  exact State.not_safe_of_dieRuns hruns

theorem State.closeSlopes_ph (s : State) (p : Fin 48) (per : Nat) :
    OthersKept p s (s.closeSlopes p per) ∧ (s.closeSlopes p per).ph[p].pl = s.ph[p].pl ∧ (s.closeSlopes p per).ph[p].iPh = s.ph[p].iPh := by
  unfold State.closeSlopes
  extract_lets x d m adapt s1
  have h1 : OthersKept p s s1 ∧ s1.ph[p].pl = s.ph[p].pl ∧ s1.ph[p].iPh = s.ph[p].iPh := by
    refine ⟨s.modPh_othersKept p _, ?_⟩
    unfold s1
    rw [show ((s.modPh p _).lagTake _).ph[p] = (s.modPh p _).ph[p] from rfl, State.modPh_ph_same]
    obtain ⟨hpl, -, -, hi⟩ := s.ph[p].modSl_rest d (fun _ => m.1)
    split
    · exact ⟨hpl, hi⟩
    · exact ⟨rfl, rfl⟩
  split
  · exact h1
  · exact h1

/-- A phase's own period that opens keeps its pulse, its command and the other phases. -/
theorem State.slotOpen_ph (s : State) (p : Fin 48) (l : Fin 16) :
    OthersKept p s (s.slotOpen p l) ∧ (s.slotOpen p l).ph[p].pl = s.ph[p].pl ∧ (s.slotOpen p l).ph[p].iPh = s.ph[p].iPh := by
  obtain ⟨hothers, hpl, hi⟩ := s.closeSlopes_ph p s.loop[l].tm.pLast
  have hlim : (s.slotOpen p l).ph = ((s.closeSlopes p s.loop[l].tm.pLast).limSet p l).ph := rfl
  refine ⟨fun q hq => ?_, ?_, ?_⟩
  · rw [hlim]
    exact (State.modPh_ph_ne _ hq _).trans (hothers q hq)
  · rw [hlim, State.limSet, State.modPh_ph_same, hpl]
  · rw [hlim, State.limSet, State.modPh_ph_same, hi]

/-- It writes the phases, the log and the replaced values alone. -/
theorem State.slotOpen_keeps_rest (s : State) (p : Fin 48) (l : Fin 16) : Keeps (maskOf [.evq, .ph, .lag]) s (s.slotOpen p l) :=
  State.slotOpen_keeps p l (Keeps.refl _ s) (.ofParts (by decide))

/-- What a slot start that nothing delays makes of the phase, its own period open (R66, R67, R70, R76). -/
def State.slotRun (t : State) (p : Fin 48) (l : Fin 16) : State :=
  if t.ph[p].pl.dead = .controlled then t
  else if t.ph[p].iPh = 0 then t.zeroStart p
  else if t.cmdDir p t.ph[p].iPh = .fwd ∧ t.inOvs p = true then t
  else t.startPulse p (t.cmdDir p t.ph[p].iPh) false t.loop[l].tm.number

theorem State.slotStartOf_of_idle {s : State} {p : Fin 48} {l : Fin 16} (hl : s.loopOf p = some l) (hs : s.switches p l = true)
    (hp : s.ph[p].pl.pulse = none) (ht : s.ph[p].pl.toff = false) : s.slotStartOf p = (s.slotOpen p l).slotRun p l := by
  unfold State.slotStartOf
  simp only [hl, hs, hp, ht, Bool.true_eq_false, if_false, Option.isSome_none, Bool.or_self, Bool.false_eq_true]
  rfl

theorem State.slotStartOf_of_busy {s : State} {p : Fin 48} {l : Fin 16} (hl : s.loopOf p = some l) (hs : s.switches p l = true)
    (hb : (s.ph[p].pl.pulse.isSome || s.ph[p].pl.toff) = true) : s.slotStartOf p = s.modPl p (fun y => { y with held := true }) := by
  unfold State.slotStartOf
  simp only [hl, hs, hb, Bool.true_eq_false, if_false, if_true]

/-- The synchronous switch of a phase turned on at a die out of SAFE. -/
theorem State.setSync_on {s : State} {p : Fin 48} (h : s.die[dieOf p].state ≠ .safe) (d : Dir) :
    (s.setSync p d true).ph[p] = { s.ph[p] with pl := s.ph[p].pl.driven (!s.ctlIsHigh p d) true } := by
  have hgo : (s.die[dieOf p].state != .safe) = true := bne_iff_ne.2 h
  rw [State.setSync, State.driveOut_ph_same, hgo, Bool.and_self]

theorem State.setSync_syncOn {s : State} {p : Fin 48} (h : s.die[dieOf p].state ≠ .safe) (d : Dir) :
    (s.setSync p d true).syncOn p d = true := by
  unfold State.syncOn
  rw [show (s.setSync p d true).ctlIsHigh p d = s.ctlIsHigh p d from rfl, State.setSync_on h]
  cases s.ctlIsHigh p d
  · rfl
  · rfl

/-- A start at a zero command, with no dead time of a forced pulse (R67). -/
theorem State.slotRun_of_zero {t : State} {p : Fin 48} (hd : t.ph[p].pl.dead ≠ .controlled) (hi : t.ph[p].iPh = 0) (l : Fin 16) :
    t.slotRun p l = t.zeroStart p := by
  rw [State.slotRun, if_neg hd, if_pos hi]

theorem State.zeroStart_sync {t : State} {p : Fin 48} (hm : t.par P.PHASE_MODE p ≠ 2) (ho : t.parNow P.PHASE_OUT_MODE p = 0)
    (hd : t.ph[p].pl.dead = .none) : t.zeroStart p = t.setSync p .fwd true := by
  rw [State.zeroStart, if_neg hm, if_pos ho, hd, if_neg (by decide)]

theorem State.zeroStart_bidir {t : State} {p : Fin 48} (hm : t.par P.PHASE_MODE p = 2) :
    t.zeroStart p = t.modPl p (fun y => { y with pwmh := false, pwml := false, dead := .none }) := if_pos hm

/-- An output driven leaves the pulse and a dead time as they are. -/
theorem Pulse.driven_rest (x : Pulse) (high go : Bool) : (x.driven high go).pulse = x.pulse ∧ (x.driven high go).dead = x.dead := by
  unfold Pulse.driven
  split
  · exact ⟨rfl, rfl⟩
  · exact ⟨rfl, rfl⟩

/-- Settles O4: the start delayed, and the four ways of a start that is not, by the equations of `State.slotStartOf`. -/
theorem slotStartBeginsAPulse : Obligations.SlotStartBeginsAPulse := by
  unfold Obligations.SlotStartBeginsAPulse
  refine ⟨?starts, fun s p l hl hs hb => ⟨_, congrArg Host.Outcome.next (State.slotStartOf_of_busy hl hs hb), rfl⟩, ?zeroSync, ?zeroBidir,
    ?waits⟩
  case starts =>
    intro s p l hl hs hp ht hdead hi hovs
    obtain ⟨hothers, hpl, hiPh⟩ := s.slotOpen_ph p l
    have hk := s.slotOpen_keeps_rest p l
    have hcfg : (s.slotOpen p l).cfg = s.cfg := hk.frame .cfg (by decide)
    have hdie : (s.slotOpen p l).die = s.die := hk.frame .die (by decide)
    have hloop : (s.slotOpen p l).loop = s.loop := hk.frame .loop (by decide)
    have hrun : (s.slotOpen p l).slotRun p l = (s.slotOpen p l).startPulse p ((s.slotOpen p l).cmdDir p s.ph[p].iPh) false s.loop[l].tm.number := by
      unfold State.slotRun
      rw [hpl, hiPh, hloop, if_neg hdead, if_neg hi, if_neg hovs]
    obtain ⟨hstart, hi', hcorr, hcode⟩ := State.startPulse_ph_same (s := s.slotOpen p l) (p := p)
      (by rw [hdie]; exact State.not_safe_of_switches hs) ((s.slotOpen p l).cmdDir p s.ph[p].iPh) false s.loop[l].tm.number
    rw [State.ctlIsHigh_congr hcfg, hk.tick] at hstart
    refine ⟨_, congrArg Host.Outcome.next ((State.slotStartOf_of_idle hl hs hp ht).trans hrun), ?_⟩
    rw [hstart]
    exact ⟨rfl, rfl, rfl, rfl, rfl, rfl, rfl, rfl, rfl, hcorr, hi'.trans hiPh, hcode,
      hothers.trans (State.startPulse_othersKept _ p _ false _)⟩
  case zeroSync =>
    intro s p l hl hs hp ht hdead hi hmode hout
    obtain ⟨hothers, hpl, hiPh⟩ := s.slotOpen_ph p l
    have hk := s.slotOpen_keeps_rest p l
    have hsafe : (s.slotOpen p l).die[dieOf p].state ≠ .safe := by
      rw [show (s.slotOpen p l).die = s.die from hk.frame .die (by decide)]
      exact State.not_safe_of_switches hs
    have hmode' : (s.slotOpen p l).par P.PHASE_MODE p ≠ 2 := by
      rwa [State.par, show (s.slotOpen p l).cfg = s.cfg from hk.frame .cfg (by decide)]
    have hrun := (State.slotRun_of_zero (t := s.slotOpen p l) (p := p) (by rw [hpl, hdead]; decide) (hiPh.trans hi) l).trans
      (State.zeroStart_sync hmode' hout (by rw [hpl, hdead]))
    refine ⟨_, congrArg Host.Outcome.next ((State.slotStartOf_of_idle hl hs hp ht).trans hrun), State.setSync_syncOn hsafe .fwd, ?_,
      hothers.trans (State.setSync_othersKept _ p .fwd true)⟩
    rw [State.setSync_on hsafe, (Pulse.driven_rest _ _ true).1, hpl, hp]
  case zeroBidir =>
    intro s p l hl hs hp ht hdead hi hmode
    obtain ⟨hothers, hpl, hiPh⟩ := s.slotOpen_ph p l
    have hmode' : (s.slotOpen p l).par P.PHASE_MODE p = 2 := by
      rwa [State.par, show (s.slotOpen p l).cfg = s.cfg from (s.slotOpen_keeps_rest p l).frame .cfg (by decide)]
    have hrun := (State.slotRun_of_zero (t := s.slotOpen p l) (p := p) (by rwa [hpl]) (hiPh.trans hi) l).trans (State.zeroStart_bidir hmode')
    refine ⟨_, congrArg Host.Outcome.next ((State.slotStartOf_of_idle hl hs hp ht).trans hrun), ?_, ?_, ?_,
      hothers.trans (State.modPl_othersKept _ p _)⟩
    all_goals rw [State.modPl, State.modPh_ph_same]
    exact (congrArg Pulse.pulse hpl).trans hp
  case waits =>
    intro s p l hl hs hp ht hdead
    obtain ⟨-, hpl, -⟩ := s.slotOpen_ph p l
    refine ⟨_, congrArg Host.Outcome.next ((State.slotStartOf_of_idle hl hs hp ht).trans (if_pos ?_)), rfl, hpl⟩
    rw [hpl, hdead]

end Sys2Proof.Machine

/-! PROOFS. The ends of a pulse (R53, R64 to R66, R77): each cause by what `State.endPulse` leaves of the phase. -/

namespace Sys2Proof.Machine

/-- The limit comparator ends a pulse and sets LIMIT (R65). -/
theorem State.limTrip_ph {s : State} {p : Fin 48} {d : Dir} (h : s.ph[p].pl.pulse = some d) (w : Nat) :
    (s.limTrip p w).ph[p].pl.pulse = none ∧ (s.limTrip p w).ph[p].pl.toff = true ∧ ((s.limTrip p w).ph[p].sl d).tOn = w ∧
      (s.limTrip p w).ph[p].limit = true := by
  obtain ⟨hpulse, htoff, hon, -, -, -⟩ := (s.holdSeen p d).endPulse_ph p w true d (by rwa [s.holdSeen_ph p d])
  unfold State.limTrip
  rw [h]
  dsimp only
  rw [State.modPh_ph_same]
  refine ⟨hpulse, htoff, ?_, rfl⟩
  cases d with
  | fwd => exact hon
  | rev => exact hon

theorem exec_regulationTrip_of_past {s : State} {p : Fin 48} (hp : s.ph[p].pl.pulse ≠ none) (hb : s.ph[p].pl.regBlank = false)
    (hf : s.ph[p].pl.forced = false) (w : Nat) : exec (.regulationTrip p w) s = .next (s.regTrip p w) :=
  congrArg Host.Outcome.next (if_pos ⟨hp, hb, fun h => Bool.noConfusion (hf.symm.trans h.1)⟩)

theorem exec_limitComparatorTrip_of_past {s : State} {p : Fin 48} (hp : s.ph[p].pl.pulse ≠ none) (hb : s.ph[p].pl.limBlank = false)
    (w : Nat) : exec (.limitComparatorTrip p w) s = .next (s.limTrip p w) :=
  congrArg Host.Outcome.next (if_pos ⟨hp, hb⟩)

theorem exec_maxdutyReached_of_pulse {s : State} {p : Fin 48} {d : Dir} {l : Fin 16} (hp : s.ph[p].pl.pulse = some d)
    (hl : s.loopOf p = some l) (hf : s.ph[p].pl.forced = false) :
    exec (.maxdutyReached p) s = .next (((s.holdSeen p d).endPulse p (s.loop[l].tm.p * s.parNowN P.PHASE_DMAX p / 100) false).modPh p
      (fun x => { x with maxduty := true, maxdutyCnt := bump x.maxdutyCnt, maxdutyWin := x.maxdutyWin + 1 })) := by
  show execMaxdutyReached p s = _
  unfold execMaxdutyReached
  rw [hp, hl]
  exact if_neg (Bool.eq_false_iff.1 hf)

/-- The limit comparator's blanking ends during a pulse. -/
theorem exec_phaseBlankEnd_limit {s : State} {p : Fin 48} {d : Dir} (hp : s.ph[p].pl.pulse = some d) (sensed : Int) :
    exec (.phaseBlankEnd p .limit sensed) s = .next (if s.ph[p].pl.limBlank ∧ s.pastAtBlank p d .limit sensed then
        (s.modPl p (fun x => { x with limBlank := false })).limTrip p (s.parNowN P.PHASE_LIM_BLANK p)
      else s.modPl p (fun x => { x with limBlank := false })) := by
  show execPhaseBlankEnd p .limit sensed s = _
  unfold execPhaseBlankEnd
  rw [hp]

/-- Settles O5: each end by the equation of its command and by what an ended pulse leaves. -/
theorem pulseEnds : Obligations.PulseEnds := by
  unfold Obligations.PulseEnds
  refine ⟨?regulation, ?regulationWaits, ?limit, ?maxduty, ?tonMin, ?tonMinIdle, ?forcedMax, ?blankPast, ?blankOver⟩
  case regulation =>
    intro s p w d hp hblank hforced hton
    obtain ⟨hpulse, htoff, hon, hlimit, -, -⟩ := s.endPulse_ph p w false d hp
    have ht : s.regTrip p w = s.endPulse p w false := if_neg (Bool.eq_false_iff.1 hton)
    exact ⟨_, (exec_regulationTrip_of_past (Option.ne_none_iff_exists'.2 ⟨d, hp⟩) hblank hforced w).trans (congrArg Host.Outcome.next ht), hpulse, htoff, hon, hlimit⟩
  case regulationWaits =>
    intro s p w hp hblank hforced hton
    refine ⟨_, (exec_regulationTrip_of_past hp hblank hforced w).trans (congrArg Host.Outcome.next (if_pos hton)), ?_, ?_⟩
    all_goals rw [State.modPl, State.modPh_ph_same]
  case limit =>
    intro s p w d hp hblank
    obtain ⟨hpulse, htoff, hon, hlimit⟩ := State.limTrip_ph hp w
    exact ⟨_, exec_limitComparatorTrip_of_past (Option.ne_none_iff_exists'.2 ⟨d, hp⟩) hblank w, hpulse, htoff, hon, hlimit⟩
  case maxduty =>
    intro s p d l hp hl hforced
    obtain ⟨hpulse, htoff, hon, -, -, hcnt⟩ := (s.holdSeen p d).endPulse_ph p (s.loop[l].tm.p * s.parNowN P.PHASE_DMAX p / 100) false d
      (by rwa [s.holdSeen_ph p d])
    rw [s.holdSeen_ph p d] at hcnt
    refine ⟨_, exec_maxdutyReached_of_pulse hp hl hforced, ?_⟩
    rw [State.modPh_ph_same]
    refine ⟨hpulse, htoff, rfl, congrArg bump hcnt, ?_⟩
    cases d with
    | fwd => exact hon
    | rev => exact hon
  case tonMin =>
    intro s p d hp hwaits hforced
    obtain ⟨hpulse, htoff, hon, -, htrip, -⟩ := (s.modPh p (fun x => { x with pl := { x.pl with tonMin := false } })).endPulse_ph p
      (s.parNowN P.PHASE_TON_MIN p) false d (by rw [State.modPh_ph_same]; exact hp)
    exact ⟨_, congrArg Host.Outcome.next (if_pos ⟨Option.ne_none_iff_exists'.2 ⟨d, hp⟩, hwaits, hforced⟩), hpulse, htoff, htrip, hon⟩
  case tonMinIdle =>
    exact fun s p hwaits => ⟨_, congrArg Host.Outcome.next (if_neg fun h => Bool.noConfusion (hwaits.symm.trans h.2.1)), rfl⟩
  case forcedMax =>
    intro s p d hp hforced
    obtain ⟨hpulse, htoff, hon, -, -, -⟩ := s.endPulse_ph p (s.parNowN P.PHASE_TON_FORCE_MAX p) false d hp
    exact ⟨_, congrArg Host.Outcome.next (if_pos ⟨Option.ne_none_iff_exists'.2 ⟨d, hp⟩, hforced⟩), hpulse, htoff, hon⟩
  case blankPast =>
    intro s p sensed d hp hblank hpast
    obtain ⟨hpulse, -, hon, hlimit⟩ := State.limTrip_ph (s := s.modPl p (fun x => { x with limBlank := false })) (p := p) (d := d)
      (by rw [State.modPl, State.modPh_ph_same]; exact hp) (s.parNowN P.PHASE_LIM_BLANK p)
    exact ⟨_, (exec_phaseBlankEnd_limit hp sensed).trans (congrArg Host.Outcome.next (if_pos ⟨hblank, hpast⟩)), hpulse, hlimit, hon⟩
  case blankOver =>
    intro s p sensed d hp hpast
    exact ⟨_, (exec_phaseBlankEnd_limit hp sensed).trans (congrArg Host.Outcome.next (if_neg fun h => Bool.noConfusion (hpast.symm.trans h.2))),
      rfl⟩

end Sys2Proof.Machine

/-! PROOFS. Dead times and the minimum off-time (R57, R66, R70, R77): their ends once the length has passed. -/

namespace Sys2Proof.Machine

/-- An output driven on turns the other off (R70). -/
theorem Pulse.driven_on_apart (x : Pulse) (high : Bool) : (x.driven high true).pwmh = true → (x.driven high true).pwml = false := by
  cases high <;> simp [Pulse.driven]

/-- The end of a dead time before the synchronous switch, at a die that runs the phase's loop. -/
theorem exec_deadTimeEnd_sync {s : State} {p : Fin 48} (hd : s.ph[p].pl.dead = .sync)
    (hp : s.past s.ph[p].pl.deadAt s.ph[p].pl.deadLen = true) (hr : s.dieRuns p = true) :
    exec (.deadTimeEnd p) s = .next ((s.modPl p (fun x => { x with dead := .none })).setSync p s.ph[p].pl.lastDir true) := by
  show execDeadTimeEnd p s = _
  unfold execDeadTimeEnd
  simp only [hd, hp, hr, Bool.true_eq_false, if_false, if_true]

/-- The end of a dead time before a forced pulse, where the phase may still run one. -/
theorem exec_deadTimeEnd_controlled {s : State} {p : Fin 48} (hd : s.ph[p].pl.dead = .controlled)
    (hp : s.past s.ph[p].pl.deadAt s.ph[p].pl.deadLen = true) (hi : s.ph[p].inService = true) (hr : s.dieRuns p = true)
    (ho : s.inOvs p = false) (hs : s.stops p = false) :
    exec (.deadTimeEnd p) s = .next ((s.modPl p (fun x => { x with dead := .none })).startPulse p .fwd true (s.periodNo p)) := by
  show execDeadTimeEnd p s = _
  unfold execDeadTimeEnd
  simp only [hd, hp, hi, hr, ho, hs, Bool.true_eq_false, Bool.false_eq_true, not_false_eq_true, and_self, if_false, if_true]

/-- A phase with its minimum off-time over and nothing held back. -/
def State.offTimeOver (s : State) (p : Fin 48) : State :=
  s.modPl p (fun x => { x with toff := false, held := false, heldForced := false })

/-- The end of a minimum off-time: the forced pulse it held back before the slot start it held back. -/
theorem exec_toffMinEnd_of_past {s : State} {p : Fin 48} (ht : s.ph[p].pl.toff = true)
    (hp : s.past s.ph[p].pl.toffAt s.ph[p].pl.toffLen = true) :
    exec (.toffMinEnd p) s = .next (if s.ph[p].pl.heldForced ∧ ¬ s.inOvs p then (s.offTimeOver p).forcePulse p
      else if s.ph[p].pl.held then (s.offTimeOver p).slotStartOf p else s.offTimeOver p) :=
  congrArg Host.Outcome.next (if_neg (by rw [ht, hp]; decide))

/-- Settles O6: each end by the equation of its command. -/
theorem heldSwitchesTurnOn : Obligations.HeldSwitchesTurnOn := by
  unfold Obligations.HeldSwitchesTurnOn
  refine ⟨?sync, ?controlled, ?nothing, ?slot, ?forced⟩
  case sync =>
    intro s p hdead hpast hruns
    have hsafe : (s.modPl p (fun x => { x with dead := .none })).die[dieOf p].state ≠ .safe := State.not_safe_of_dieRuns hruns
    refine ⟨_, exec_deadTimeEnd_sync hdead hpast hruns, ?_, State.setSync_syncOn hsafe _, ?_⟩
    · rw [State.setSync_on hsafe, (Pulse.driven_rest _ _ true).2, State.modPl, State.modPh_ph_same]
    · rw [State.setSync_on hsafe]
      exact Pulse.driven_on_apart _ _
  case controlled =>
    intro s p hdead hpast hservice hruns hovs hstops
    have hsafe : (s.modPl p (fun x => { x with dead := .none })).die[dieOf p].state ≠ .safe := State.not_safe_of_dieRuns hruns
    refine ⟨_, exec_deadTimeEnd_controlled hdead hpast hservice hruns hovs hstops, ?_⟩
    rw [(State.startPulse_ph_same hsafe .fwd true (s.periodNo p)).1]
    exact ⟨rfl, rfl, rfl⟩
  case nothing =>
    intro s p htoff hpast hheld hforced
    refine ⟨_, exec_toffMinEnd_of_past htoff hpast, ?_⟩
    rw [hforced, hheld]
    rfl
  case slot =>
    intro s p htoff hpast hheld hforced
    refine ⟨_, exec_toffMinEnd_of_past htoff hpast, ?_⟩
    rw [hforced, hheld]
    rfl
  case forced =>
    intro s p htoff hpast hforced hovs
    refine ⟨_, exec_toffMinEnd_of_past htoff hpast, ?_⟩
    rw [hforced, hovs]
    rfl

end Sys2Proof.Machine

/-! PROOFS. A phase die that falls to SAFE and leaves it (R61, R81, R82): operations on the phases of a die in turn, what a die in SAFE has
discarded, and the commands that take a die there. -/

namespace Sys2Proof.Machine

theorem State.modDie_die_same (s : State) (d : Fin 4) (f : Die → Die) : (s.modDie d f).die[d] = f s.die[d] := upd_at _ _ _

theorem mem_phasesOfDie {d : Fin 4} {p : Fin 48} : p ∈ phasesOfDie d ↔ dieOf p = d := by
  simp [phasesOfDie, fins]

/-- Operations on each of several phases keep a phase that is none of them. -/
theorem foldl_ph_of_not_mem {f : State → Fin 48 → State} (hf : ∀ u p, OthersKept p u (f u p)) {ps : List (Fin 48)} {q : Fin 48}
    (h : q ∉ ps) (s : State) : (ps.foldl f s).ph[q] = s.ph[q] := by
  induction ps generalizing s with
  | nil => rfl
  | cons p ps ih =>
    obtain ⟨hp, hps⟩ := not_or.1 (mt List.mem_cons.2 h)
    exact (ih hps _).trans (hf s p q hp)

/-- Where each such operation leaves its own phase in a way, each phase of the list is left so. -/
theorem foldl_ph_of_mem {f : State → Fin 48 → State} {Q : Phase → Prop} (hf : ∀ u p, OthersKept p u (f u p))
    (hQ : ∀ u p, Q (f u p).ph[p]) {ps : List (Fin 48)} {q : Fin 48} (h : q ∈ ps) (s : State) : Q (ps.foldl f s).ph[q] := by
  induction ps generalizing s with
  | nil => simp at h
  | cons p ps ih =>
    by_cases hq : q ∈ ps
    · exact ih hq _
    · obtain rfl : q = p := (List.mem_cons.1 h).resolve_right hq
      rw [List.foldl_cons, foldl_ph_of_not_mem hf hq]
      exact hQ s q

/-- A phase that drives nothing: both outputs low, no pulse in progress, no command. -/
def Phase.Silent (x : Phase) : Prop := x.pl.pwmh = false ∧ x.pl.pwml = false ∧ x.pl.pulse = none ∧ x.iPh = 0

/-- A phase cleared by its die (R82). -/
def State.phaseClear (s : State) (p : Fin 48) : State :=
  (s.outputsLow p).modPh p (fun x => { x with
    iPh := 0, corr := 0, refCode := 0, shed := .active, hot := false, shedPeriods := 0, calPending := none })

theorem State.phaseClear_othersKept (s : State) (p : Fin 48) : OthersKept p s (s.phaseClear p) :=
  (s.modPl_othersKept p _).trans (State.modPh_othersKept _ p _)

theorem State.phaseClear_silent (s : State) (p : Fin 48) : (s.phaseClear p).ph[p].Silent := by
  rw [State.phaseClear, State.modPh_ph_same, State.outputsLow, State.modPl, State.modPh_ph_same]
  exact ⟨rfl, rfl, rfl, rfl⟩

/-- A die that holds nothing of the loops and has seen no frame (R82). -/
def Die.cleared (x : Die) : Die := { x with lp := Vector.replicate 16 DieLoop.reset, goodFrame := false, parityRun := 0 }

theorem State.dieClear_eq (s : State) (d : Fin 4) :
    s.dieClear d = (((phasesOfDie d).foldl State.phaseClear s).dieLag d).modDie d Die.cleared := rfl

/-- A die cleared: its phases silent, every other phase as it was. -/
theorem State.dieClear_ph (s : State) (d : Fin 4) :
    (∀ p : Fin 48, dieOf p = d → (s.dieClear d).ph[p].Silent) ∧ ∀ p : Fin 48, dieOf p ≠ d → (s.dieClear d).ph[p] = s.ph[p] := by
  have hph : (s.dieClear d).ph = ((phasesOfDie d).foldl State.phaseClear s).ph := rfl
  rw [hph]
  refine ⟨fun p hp => ?_, fun p hp => ?_⟩
  · exact foldl_ph_of_mem State.phaseClear_othersKept State.phaseClear_silent (mem_phasesOfDie.2 hp) s
  · exact foldl_ph_of_not_mem State.phaseClear_othersKept (mt mem_phasesOfDie.1 hp) s

/-- A die cleared: what it holds of the loops discarded (R82). -/
theorem State.dieClear_die (s : State) (d : Fin 4) : (s.dieClear d).die = upd s.die d Die.cleared := by
  have hph : Keeps (maskOf [.ph]) s ((phasesOfDie d).foldl State.phaseClear s) :=
    Keeps.foldl _ (Keeps.refl _ s) fun u p hu => State.modPh_keeps p _
      (State.outputsLow_keeps p hu (.ofParts (by decide))) (.ofParts (by decide)) fun _ => ⟨id, id⟩
  rw [State.dieClear_eq]
  exact congrArg (fun v => upd v d Die.cleared) (hph.frame .die (by decide))

/-- What the fall to SAFE makes of a die (R82, R537). -/
def Die.fallen (x : Die) (cause tick : Nat) : Die :=
  { x.cleared with state := .safe, ran := true, safeAt := tick, reports := x.reports ++ [.safeEntry cause] }

/-- A die falls to SAFE for a cause: the die, the record, its phases, and the other phases (R82, R90). -/
structure State.Falls (s t : State) (d : Fin 4) (cause : Nat) : Prop where
  die : t.die[d] = s.die[d].fallen cause s.clk.tick
  record : t.evq.take (s.evq.length + 1) = s.evq ++ [⟨0x0301, d.val, toWord 64 cause, s.clk.shelf⟩]
  silent : ∀ p : Fin 48, dieOf p = d → t.ph[p].Silent
  others : ∀ p : Fin 48, dieOf p ≠ d → t.ph[p] = s.ph[p]

/-- A die out of SAFE that enters it falls. -/
theorem State.enterSafe_falls {s : State} {d : Fin 4} (h : s.die[d].state ≠ .safe) (cause : Nat) : s.Falls (s.enterSafe d cause) d cause := by
  have hk : Keeps (maskOf [.die, .ph, .lag]) s (s.dieClear d) := State.dieClear_keeps d (Keeps.refl _ s) (.ofParts (by decide))
  have hclk : (s.dieClear d).clk = s.clk := hk.frame .clk (by decide)
  have hevq : (s.dieClear d).evq = s.evq := hk.frame .evq (by decide)
  obtain ⟨hsilent, hothers⟩ := s.dieClear_ph d
  rw [State.enterSafe, if_neg h]
  refine ⟨?die, ?record, hsilent, hothers⟩
  case die =>
    refine (State.modDie_die_same _ d _).trans ?_
    rw [s.dieClear_die d, show (upd s.die d Die.cleared)[d] = s.die[d].cleared from upd_at _ _ _]
    rfl
  case record =>
    show ((s.dieClear d).evq ++ [⟨0x0301, d.val, toWord 64 cause, (s.dieClear d).clk.shelf⟩] : List LogEv).take (s.evq.length + 1) = _
    rw [hevq, hclk]
    exact List.take_of_length_le (by rw [List.length_append, List.length_singleton])

/-- The FAULT pins after a fall. -/
theorem State.Falls.faultScan {s t : State} {d : Fin 4} {cause : Nat} (h : s.Falls t d cause) : s.Falls t.faultScan d cause := by
  have hk := t.faultScan_keeps_rest
  have hph : t.faultScan.ph = t.ph := hk.frame .ph (by decide)
  have hdie : t.faultScan.die = t.die := hk.frame .die (by decide)
  refine ⟨by rw [hdie]; exact h.die, ?_, fun p hp => by rw [hph]; exact h.silent p hp, fun p hp => by rw [hph]; exact h.others p hp⟩
  obtain ⟨rest, hrest⟩ := t.evq_prefix_faultScan
  have hlen := congrArg List.length h.record
  rw [List.length_take, List.length_append, List.length_singleton] at hlen
  rw [← hrest, List.take_append_of_le_length (by omega), h.record]

/-- A command that takes a die out of SAFE there, with its FAULT pins set behind it. -/
theorem State.enterSafe_faultScan_falls {s : State} {d : Fin 4} (h : s.die[d].state ≠ .safe) (cause : Nat) :
    s.Falls (s.enterSafe d cause).faultScan d cause := (State.enterSafe_falls h cause).faultScan

/-- An offset calibration pending on each phase of a die (R61). -/
def State.calAll (s : State) (d : Fin 4) : State :=
  (phasesOfDie d).foldl (fun t p => t.modPh p (fun y => { y with calPending := some true })) s

theorem State.calAll_ph (s : State) (d : Fin 4) :
    (∀ p : Fin 48, dieOf p = d → (s.calAll d).ph[p].calPending = some true) ∧ ∀ p : Fin 48, dieOf p ≠ d → (s.calAll d).ph[p] = s.ph[p] := by
  have hf : ∀ (u : State) (p : Fin 48), OthersKept p u (u.modPh p (fun y => { y with calPending := some true })) :=
    fun u p => u.modPh_othersKept p _
  refine ⟨fun p hp => ?_, fun p hp => foldl_ph_of_not_mem hf (mt mem_phasesOfDie.1 hp) s⟩
  refine foldl_ph_of_mem (Q := fun x => x.calPending = some true) hf (fun u q => ?_) (mem_phasesOfDie.2 hp) s
  rw [State.modPh_ph_same]

theorem State.calAll_die (s : State) (d : Fin 4) : (s.calAll d).die = s.die := by
  have hk : Keeps (maskOf [.ph]) s (s.calAll d) := Keeps.foldl _ (Keeps.refl _ s) fun u p hu =>
    State.modPh_keeps p _ hu (.ofParts (by decide)) fun _ => ⟨id, id⟩
  exact hk.frame .die (by decide)

/-- A die armed (R61, R82, R537). -/
def State.armDie (s : State) (d : Fin 4) : State :=
  (s.calAll d).modDie d (fun y => { y with state := .armed, delayCal := true, ran := false, reports := y.reports ++ [.armed] })

theorem exec_phaseDieArmed_of_ready {s : State} {d : Fin 4} (hs : s.die[d].state = .safe) (hsrc : s.die[d].src = true)
    (hg : s.die[d].goodFrame = true) (hon : s.dieOn d = true) (hp : s.die[d].parityRun < 3) (hw : s.wdogDue d = false) :
    exec (.phaseDieArmed d) s = .next (if s.die[d].ran then
      (s.armDie d).log 0x0302 d.val ((s.clk.tick - s.die[d].safeAt) * 4 : Nat) else s.armDie d).faultScan :=
  if_pos (⟨hs, hsrc, hg, hon, hp, hw⟩ : _ ∧ _)

/-- The record of an arming and the FAULT pins leave the dies and the phases. -/
theorem State.armDie_recorded (s : State) (d : Fin 4) (b : Bool) (data : Int) :
    (if b then (s.armDie d).log 0x0302 d.val data else s.armDie d).faultScan.die = (s.armDie d).die ∧
      (if b then (s.armDie d).log 0x0302 d.val data else s.armDie d).faultScan.ph = (s.armDie d).ph := by
  have hk := Keeps.ite (c := b = true) (State.log_keeps 0x0302 d.val data (Keeps.refl (maskOf [.evq, .fault]) (s.armDie d)) (.ofParts (by decide)))
    (Keeps.refl _ (s.armDie d))
  have hscan := hk.trans (State.faultScan_keeps_rest _)
  exact ⟨hscan.frame .die (by decide), hscan.frame .ph (by decide)⟩

/-- Settles O7: the three causes by `State.Falls`, the arming by `State.armDie`. -/
theorem dieFallsToSafe : Obligations.DieFallsToSafe := by
  unfold Obligations.DieFallsToSafe
  refine ⟨?wdog, ?source, ?delayLine, ?armed⟩
  case wdog =>
    intro s d hdue hsafe
    have h := State.enterSafe_faultScan_falls hsafe 0
    refine ⟨_, congrArg Host.Outcome.next (if_pos hdue), ?_⟩
    rw [h.die]
    exact ⟨rfl, rfl, rfl, rfl, h.record, h.silent, h.others⟩
  case source =>
    intro s d hsafe
    have hdie := s.modDie_die_same d (fun x => { x with src := false })
    have h := State.enterSafe_faultScan_falls (s := s.modDie d (fun x => { x with src := false })) (d := d) (by rwa [hdie]) 1
    refine ⟨_, rfl, ?_⟩
    rw [h.die, hdie]
    exact ⟨rfl, rfl, rfl, rfl, h.record, h.silent, h.others⟩
  case delayLine =>
    intro s d hsafe
    have hdie := s.modDie_die_same d (fun x => { x with delayCal := false })
    have h := State.enterSafe_faultScan_falls (s := s.modDie d (fun x => { x with delayCal := false })) (d := d) (by rwa [hdie]) 2
    refine ⟨_, rfl, ?_⟩
    rw [h.die, hdie]
    exact ⟨rfl, rfl, rfl, rfl, h.record, h.silent, h.others⟩
  case armed =>
    intro s d hs hsrc hgood hon hparity hwdog
    obtain ⟨hdie, hph⟩ := s.armDie_recorded d s.die[d].ran ((s.clk.tick - s.die[d].safeAt) * 4 : Nat)
    obtain ⟨hcal, hothers⟩ := s.calAll_ph d
    refine ⟨_, exec_phaseDieArmed_of_ready hs hsrc hgood hon hparity hwdog, ?_⟩
    rw [hdie, hph, State.armDie, State.modDie_die_same, s.calAll_die]
    exact ⟨rfl, rfl, rfl, hcal, hothers⟩

end Sys2Proof.Machine

/-! PROOFS. Command frames at a phase die (R81, R82, R106): a good frame with and without a loop, a bad one, and the frames sent again. -/

namespace Sys2Proof.Machine

/-- A powered die out of reset (R19, R82). -/
theorem State.dieOn_of {s : State} {d : Fin 4} (hoff : s.die[d].off = false) (hheld : s.die[d].held = false)
    (hlow : s.die[d].supplyLow = false) : s.dieOn d = true := by
  rw [State.dieOn, hoff, hheld, hlow]
  rfl

/-- A die that has seen a good frame (R82). -/
def Die.sawGood (x : Die) (tick : Nat) : Die := { x with goodFrame := true, goodAt := tick, parityRun := 0 }

theorem State.dieReceive_idle {s : State} {d : Fin 4} {f : CmdFrame} (hon : s.dieOn d = true) (hf : f.loop = none) :
    s.dieReceive d f true = s.modDie d (fun x => x.sawGood s.clk.tick) := by
  unfold State.dieReceive
  rw [if_neg (by rw [hon]; decide), if_pos rfl, hf]
  rfl

theorem State.dieReceive_loop {s : State} {d : Fin 4} {f : CmdFrame} {l : Fin 16} (hon : s.dieOn d = true) (hf : f.loop = some l) :
    s.dieReceive d f true = (s.modDie d (fun x => x.sawGood s.clk.tick)).frameIn d l f := by
  unfold State.dieReceive
  rw [if_neg (by rw [hon]; decide), if_pos rfl, hf]
  rfl

/-- A die that has counted a parity error (R82). -/
def Die.sawBad (x : Die) : Die :=
  { x with parityErr := bump x.parityErr, parityRun := x.parityRun + 1, paritySince := x.paritySince + 1 }

/-- A parity error at a die counted and recorded (R82, R90). -/
def State.parityBad (s : State) (d : Fin 4) : State := (s.modDie d Die.sawBad).log 0x0303 d.val (s.die[d].paritySince + 1 : Nat)

theorem State.parityBad_die (s : State) (d : Fin 4) : (s.parityBad d).die[d] = s.die[d].sawBad := s.modDie_die_same d _

theorem State.dieReceive_bad {s : State} {d : Fin 4} (hon : s.dieOn d = true) (f : CmdFrame) : s.dieReceive d f false =
    if 3 ≤ s.die[d].parityRun + 1 then (s.parityBad d).enterSafe d 3 else s.parityBad d := by
  have hrun : (s.parityBad d).die[d].parityRun = s.die[d].parityRun + 1 := by
    rw [s.parityBad_die]
    rfl
  unfold State.dieReceive
  rw [if_neg (by rw [hon]; decide), if_neg Bool.false_ne_true, ← hrun]
  rfl

/-- What a good frame of a loop writes at its die outside accept mode (R106, R108, R135). -/
def DieLoop.take (x : DieLoop) (f : CmdFrame) : DieLoop :=
  { x with
    icmd := f.icmd, seq := f.seq, preload := f.preload, arm := f.arm, factor := f.factor
    accept := x.accept && !f.exit
    hu := f.hu && !f.exit
    ignoreShed := x.ignoreShed && !f.abortSeen
    maskNext := if x.ignoreShed ∧ ¬ f.abortSeen then 0 else f.shedMask
    slopeSeen := x.slopeSeen || f.slope
    run := x.run || f.start
    stopping := (x.stopping && !f.start) || (f.stop == .boundary && x.run) }

/-- A frame that starts and stops nothing, at a die out of SAFE and not in accept mode: the loop's command and its phases' references. -/
theorem State.frameIn_of_plain {s : State} {d : Fin 4} {l : Fin 16} {f : CmdFrame} (hs : s.die[d].state ≠ .safe)
    (ha : s.die[d].lp[l].accept = false) (hstart : f.start = false) (hstop : f.stop = .none) :
    s.frameIn d l f = ((s.modLp d l (·.take f)).phasesOn d l).foldl
      (fun t p => t.formIph p f.icmd ((s.modLp d l (·.take f)).shareOf d l)) (s.modLp d l (·.take f)) := by
  unfold State.frameIn
  rw [if_neg hs, if_neg (by rw [ha]; simp)]
  extract_lets s1 s2 s3
  have h2 : s2 = s1 := if_neg (Bool.eq_false_iff.1 hstart)
  rw [if_neg (by rw [hstop]; decide)]
  unfold s3
  rw [h2]
  rfl

theorem State.frameIn_die {s : State} {d : Fin 4} {l : Fin 16} {f : CmdFrame} (hs : s.die[d].state ≠ .safe)
    (ha : s.die[d].lp[l].accept = false) (hstart : f.start = false) (hstop : f.stop = .none) :
    (s.frameIn d l f).die[d] = { s.die[d] with lp := upd s.die[d].lp l (·.take f) } := by
  have hk : Keeps (maskOf [.ph, .loop]) (s.modLp d l (·.take f)) (s.frameIn d l f) := by
    rw [State.frameIn_of_plain hs ha hstart hstop]
    exact Keeps.foldl _ (Keeps.refl _ _) fun u p hu => State.formIph_keeps p _ _ hu (.ofParts (by decide))
  rw [show (s.frameIn d l f).die = (s.modLp d l (·.take f)).die from hk.frame .die (by decide)]
  exact s.modDie_die_same d _

/-- A die out of SAFE with a frame of a loop received. -/
def Die.received (x : Die) (l : Fin 16) (f : CmdFrame) (tick : Nat) : Die := { x.sawGood tick with lp := upd x.lp l (·.take f) }

theorem Die.received_lp (x : Die) (l : Fin 16) (f : CmdFrame) (tick : Nat) :
    (x.received l f tick).lp[l] = x.lp[l].take f ∧ ∀ k : Fin 16, k ≠ l → (x.received l f tick).lp[k] = x.lp[k] :=
  ⟨upd_at _ _ _, fun _ hk => upd_ne _ _ hk⟩

theorem State.dieReceive_loop_die {s : State} {d : Fin 4} {l : Fin 16} {f : CmdFrame} (hon : s.dieOn d = true) (hf : f.loop = some l)
    (hs : s.die[d].state ≠ .safe) (ha : s.die[d].lp[l].accept = false) (hstart : f.start = false) (hstop : f.stop = .none) :
    (s.dieReceive d f true).die[d] = s.die[d].received l f s.clk.tick := by
  have hgood := s.modDie_die_same d (fun x => x.sawGood s.clk.tick)
  rw [State.dieReceive_loop hon hf, State.frameIn_die (by rw [hgood]; exact hs) (by rw [hgood]; exact ha) hstart hstop, hgood]
  rfl

/-- The state with the frame at the front of a die's link taken. -/
def State.linkTaken (s : State) (d : Fin 4) (fs : List CmdFrame) : State := s.modDie d (fun x => { x with link := fs })

theorem State.linkTaken_die (s : State) (d : Fin 4) (fs : List CmdFrame) : (s.linkTaken d fs).die[d] = { s.die[d] with link := fs } :=
  s.modDie_die_same d _

theorem State.linkTaken_dieOn {s : State} {d : Fin 4} (hoff : s.die[d].off = false) (hheld : s.die[d].held = false)
    (hlow : s.die[d].supplyLow = false) (fs : List CmdFrame) : (s.linkTaken d fs).dieOn d = true := by
  have hdie := s.linkTaken_die d fs
  exact State.dieOn_of (by rwa [hdie]) (by rwa [hdie]) (by rwa [hdie])

theorem exec_phaseCmdFrame_of_link {s : State} {d : Fin 4} {f : CmdFrame} {fs : List CmdFrame} (h : s.die[d].link = f :: fs) (ok : Bool) :
    exec (.phaseCmdFrame d ok) s = .next ((s.linkTaken d fs).dieReceive d f ok).faultScan := by
  show execPhaseCmdFrame d ok s = _
  unfold execPhaseCmdFrame
  rw [h]
  rfl

theorem exec_phaseRefreshFrame_of_idle {s : State} {d : Fin 4} (hsrc : s.die[d].src = true) (hoff : s.die[d].off = false)
    (h : s.refreshFrames d = [idleFrame]) (ok : Bool) : exec (.phaseRefreshFrame d ok) s = .next (s.dieReceive d idleFrame ok).faultScan := by
  show execPhaseRefreshFrame d ok s = _
  unfold execPhaseRefreshFrame
  rw [if_pos (by rw [hsrc, hoff]; decide), h]
  rfl

@[simp] theorem State.faultScan_die (s : State) : s.faultScan.die = s.die := s.faultScan_keeps_rest.frame .die (by decide)

@[simp] theorem State.faultScan_ph (s : State) : s.faultScan.ph = s.ph := s.faultScan_keeps_rest.frame .ph (by decide)

/-- Settles O8: each frame by what the die receives. -/
theorem commandFramesReachADie : Obligations.CommandFramesReachADie := by
  unfold Obligations.CommandFramesReachADie
  refine ⟨?idle, ?loop, ?bad, ?thirdBad, ?refresh⟩
  case idle =>
    intro s d f fs hlink hoff hheld hlow hf
    have hdie := s.linkTaken_die d fs
    have hon := State.linkTaken_dieOn hoff hheld hlow fs
    refine ⟨_, exec_phaseCmdFrame_of_link hlink true, ?_⟩
    rw [State.faultScan_die, State.faultScan_ph, State.dieReceive_idle hon hf, State.modDie_die_same, hdie]
    exact ⟨rfl, rfl, rfl, rfl, rfl, rfl⟩
  case loop =>
    intro s d f fs l hlink hoff hheld hlow hf hsafe haccept hignore hstop hstart hexit
    have hdie := s.linkTaken_die d fs
    have hon := State.linkTaken_dieOn hoff hheld hlow fs
    have hrec := State.dieReceive_loop_die (s := s.linkTaken d fs) (d := d) (f := f) hon hf (by rwa [hdie]) (by rwa [hdie]) hstart hstop
    rw [hdie] at hrec
    obtain ⟨hlp, hothers⟩ := Die.received_lp { s.die[d] with link := fs } l f (s.linkTaken d fs).clk.tick
    refine ⟨_, exec_phaseCmdFrame_of_link hlink true, ?_⟩
    rw [State.faultScan_die, hrec, hlp]
    refine ⟨rfl, rfl, rfl, rfl, rfl, rfl, ?_, rfl, ?_, hothers, rfl⟩
    · show (if s.die[d].lp[l].ignoreShed = true ∧ ¬ f.abortSeen = true then 0 else f.shedMask) = f.shedMask
      rw [if_neg fun h => Bool.noConfusion (hignore.symm.trans h.1)]
    · show (s.die[d].lp[l].run || f.start) = _
      rw [hstart, Bool.or_false]
  case bad =>
    intro s d f fs hlink hoff hheld hlow hrun
    have hdie := s.linkTaken_die d fs
    have hon := State.linkTaken_dieOn hoff hheld hlow fs
    refine ⟨_, exec_phaseCmdFrame_of_link hlink false, ?_⟩
    rw [State.faultScan_die, State.faultScan_ph, State.dieReceive_bad hon, if_neg (by rw [hdie]; show ¬ 3 ≤ s.die[d].parityRun + 1; omega), State.parityBad_die, hdie]
    exact ⟨rfl, rfl, rfl, rfl, rfl, rfl, rfl⟩
  case thirdBad =>
    intro s d f fs hlink hoff hheld hlow hrun hsafe
    have hdie := s.linkTaken_die d fs
    have hon := State.linkTaken_dieOn hoff hheld hlow fs
    have hbad := (s.linkTaken d fs).parityBad_die d
    rw [hdie] at hbad
    refine ⟨_, exec_phaseCmdFrame_of_link hlink false, ?_⟩
    rw [State.faultScan_die, State.dieReceive_bad hon, if_pos (by rw [hdie]; show 3 ≤ s.die[d].parityRun + 1; omega),
      (State.enterSafe_falls (by rw [hbad]; exact hsafe) 3).die, hbad]
    exact ⟨rfl, rfl, rfl⟩
  case refresh =>
    intro s d hsrc hoff hheld hlow hframes
    refine ⟨_, exec_phaseRefreshFrame_of_idle hsrc hoff hframes true, ?_⟩
    rw [State.faultScan_die, State.faultScan_ph, State.dieReceive_idle (State.dieOn_of hoff hheld hlow) rfl, State.modDie_die_same]
    exact ⟨rfl, rfl, rfl, rfl, rfl, rfl⟩

end Sys2Proof.Machine

/-! PROOFS. What a phase channel measures (R60 to R62, R71, R138): a sample taken, and an offset calibration done. -/

namespace Sys2Proof.Machine

/-- A current sample among those of the on or of the off interval of a phase. -/
def Phase.withSample (x : Phase) (on : Bool) (w : Nat) (i : Int) : Phase :=
  if on then { x with adc := i, onS := x.onS ++ [(w, i)] } else { x with adc := i, offS := x.offS ++ [(w, i)] }

/-- A current sample of a phase among the sums of its period and of the 1 s window. -/
def PhaseStat.withSample (y : PhaseStat) (x : Phase) (i : Int) : PhaseStat :=
  { y with
    perSum := y.perSum + i, perN := y.perN + 1, perMax := if y.perN = 0 then i else max y.perMax i
    winSum := y.winSum + i, winSq := y.winSq + i.natAbs ^ 2, winN := y.winN + 1
    winWhole := y.winWhole && x.slot.isSome && x.shed == .active }

/-- A sample of a phase taken (R60, R62, R71, R138). -/
def State.sampleTaken (s : State) (p : Fin 48) (code : Int) (w : Nat) : State :=
  (s.modPh p (fun y => y.withSample s.ph[p].pl.pulse.isSome w (s.senseMa p code))).modPst p (fun y =>
    y.withSample s.ph[p] (s.senseMa p code))

theorem State.sampleTaken_pst (s : State) (p : Fin 48) (code : Int) (w : Nat) :
    (s.sampleTaken p code w).pst[p] = s.pst[p].withSample s.ph[p] (s.senseMa p code) := upd_at _ _ _

theorem State.sampleTaken_ph (s : State) (p : Fin 48) (code : Int) (w : Nat) :
    (s.sampleTaken p code w).ph[p] = s.ph[p].withSample s.ph[p].pl.pulse.isSome w (s.senseMa p code) := s.modPh_ph_same p _

/-- A sample that is taken and ends no conduction of the synchronous switch. -/
theorem exec_phaseAdcSample_of_taken {s : State} {p : Fin 48} (hon : s.dieOn (dieOf p) = true)
    (h : s.ph[p].pl.pulse ≠ none ∨ s.par P.PHASE_SENSE p ≠ 1 ∧ s.parNow P.PHASE_OUT_MODE p ≠ 2) (code : Int) (w : Nat) :
    exec (.phaseAdcSample p code w) s = .next (s.sampleTaken p code w) := by
  have hpulse : s.ph[p].pl.pulse ≠ none → s.ph[p].pl.pulse.isSome = true := Option.isSome_iff_ne_none.2
  have htakes : ¬ (s.dieOn (dieOf p) = false ∨ s.par P.PHASE_SENSE p = 1 ∧ s.ph[p].pl.pulse.isSome = false) := by
    rintro (h0 | ⟨hsense, hnone⟩)
    · exact Bool.noConfusion (h0.symm.trans hon)
    · exact h.elim (fun hp => Bool.noConfusion (hnone.symm.trans (hpulse hp))) fun hq => hq.1 hsense
  have hkeeps : ∀ Q : Prop, ¬ (s.parNow P.PHASE_OUT_MODE p = 2 ∧ s.ph[p].pl.pulse.isSome = false ∧ Q) := by
    rintro Q ⟨hmode, hnone, -⟩
    exact h.elim (fun hp => Bool.noConfusion (hnone.symm.trans (hpulse hp))) fun hq => hq.2 hmode
  exact (if_neg htakes).trans (congrArg Host.Outcome.next (if_neg (hkeeps _)))

/-- An offset calibration of a phase that ends with a value (R61). -/
def State.calTaken (s : State) (p : Fin 48) (ofs : Int) : State := s.modPh p (fun x => { x with calPending := none, offset := ofs })

theorem State.calTaken_ph (s : State) (p : Fin 48) (ofs : Int) :
    (s.calTaken p ofs).ph[p] = { s.ph[p] with calPending := none, offset := ofs } := s.modPh_ph_same p _

theorem exec_phaseCalDone_of_pending {s : State} {p : Fin 48} {atArmed : Bool} (h : s.ph[p].calPending = some atArmed) (sum : Int) :
    exec (.phaseCalDone p sum) s = .next (if 3000 < (s.offsetUv p sum).natAbs then
        ((s.calTaken p (s.offsetUv p sum)).modPh p (fun x => { x with calFail := true, inService := false })).log 0x0304 p.val (s.offsetUv p sum)
      else if atArmed then (s.calTaken p (s.offsetUv p sum)).modPh p (fun x => { x with
        calFail := false, inService := true
        slF := if x.inService then x.slF else Slopes.reset, slR := if x.inService then x.slR else Slopes.reset })
      else s.calTaken p (s.offsetUv p sum)) := by
  show execPhaseCalDone p sum s = _
  unfold execPhaseCalDone
  rw [h]
  rfl

theorem State.log_ph (s : State) (code src : Nat) (data : Int) : (s.log code src data).ph = s.ph := rfl

/-- Settles O9: the samples by `State.sampleTaken`, the calibrations by the equation of PHASE_CAL_DONE. -/
theorem phaseMeasures : Obligations.PhaseMeasures := by
  unfold Obligations.PhaseMeasures
  refine ⟨?onSample, ?offSample, ?armed, ?loopStart, ?failed⟩
  case onSample =>
    intro s p code w hon hp
    refine ⟨_, exec_phaseAdcSample_of_taken hon (.inl hp) code w, ?_⟩
    rw [s.sampleTaken_ph, s.sampleTaken_pst, Option.isSome_iff_ne_none.2 hp]
    exact ⟨rfl, rfl, rfl, rfl, rfl, rfl, rfl⟩
  case offSample =>
    intro s p code w hon hp hsense hmode
    refine ⟨_, exec_phaseAdcSample_of_taken hon (.inr ⟨hsense, hmode⟩) code w, ?_⟩
    rw [s.sampleTaken_ph, hp]
    exact ⟨rfl, rfl, rfl, rfl⟩
  case armed =>
    intro s p sum hcal hofs
    refine ⟨_, (exec_phaseCalDone_of_pending hcal sum).trans (congrArg Host.Outcome.next ((if_neg (Nat.not_lt.2 hofs)).trans (if_pos rfl))), ?_⟩
    rw [State.modPh_ph_same, State.calTaken_ph]
    exact ⟨rfl, rfl, rfl, rfl, rfl⟩
  case loopStart =>
    intro s p sum hcal hofs
    refine ⟨_, (exec_phaseCalDone_of_pending hcal sum).trans (congrArg Host.Outcome.next ((if_neg (Nat.not_lt.2 hofs)).trans (if_neg Bool.false_ne_true))), ?_⟩
    rw [State.calTaken_ph]
    exact ⟨rfl, rfl, rfl, rfl, rfl⟩
  case failed =>
    intro s p sum hcal hofs
    obtain ⟨b, hb⟩ := Option.ne_none_iff_exists'.1 hcal
    refine ⟨_, (exec_phaseCalDone_of_pending hb sum).trans (congrArg Host.Outcome.next (if_pos hofs)), ?_⟩
    rw [State.log_ph, State.modPh_ph_same, State.calTaken_ph]
    exact ⟨rfl, rfl, rfl, rfl⟩

end Sys2Proof.Machine

/-! PROOFS. Voltage windows (R75 to R78, R109): an undershoot that begins when the stop of its loop has reached a phase's die. -/

namespace Sys2Proof.Machine

/-- A phase whose loop's stop has reached its die gets no forced pulse (R77, R109). -/
theorem State.forcePulse_of_stops {s : State} {p : Fin 48} (h : s.stops p = true) (hp : s.ph[p].pl.pulse ≠ some .rev) : s.forcePulse p = s := by
  unfold State.forcePulse
  rw [if_neg hp]
  split
  · exact if_pos (.inr h)
  · rfl

/-- Die 0 runs loop 0, whose one phase is phase 0, in service and idle; the loop regulates on voltage-sense input 0 with the undershoot
window enabled; and the stop of the loop has reached the die, which takes it at the next loop period start (R109). -/
def stopAtDie : State :=
  (((((State.reset.setPar P.PHASE_LOOP 0 0).setPar P.LOOP_ENABLE 0 1).setPar P.LOOP_VS_SEL 0 0).setPar P.PHASE_VS_WIN_EN 0 2).modPh 0
    (fun x => { x with inService := true, slot := some 0 })).modDie 0 (fun x => { x with
      state := .run, src := true, goodFrame := true, off := false, lp := upd x.lp 0 (fun q => { q with run := true, stopping := true }) })

/-- An undershoot at input 0 opens its window there and starts no pulse. -/
theorem exec_vsUndershootEnter_stopAtDie :
    exec (.vsUndershootEnter 0 0) stopAtDie = .next (stopAtDie.windowOpen 0 false 0) := by
  have hl : stopAtDie.loopOfVs 0 = some 0 := by decide
  have hc : stopAtDie.dieOn (vsDie 0) = true ∧ stopAtDie.uvsEn 0 = true ∧ stopAtDie.underUvs 0 0 = true ∧ stopAtDie.vs[(0 : Fin 16)].uvs = false := by
    decide
  have hp : stopAtDie.phasesOf 0 = [0] := by decide
  have hstops : (stopAtDie.windowOpen 0 false 0).stops 0 = true := by decide
  have hidle : (stopAtDie.windowOpen 0 false 0).ph[(0 : Fin 48)].pl.pulse ≠ some .rev := by decide
  show execVsUndershootEnter 0 0 stopAtDie = _
  unfold execVsUndershootEnter
  rw [hl]
  dsimp only
  rw [if_pos hc, hp, List.foldl_cons, List.foldl_nil, State.forcePulse_of_stops hstops hidle]

/-- Refutes O10: an undershoot starts no forced pulse at a phase whose loop's stop has reached its die (R109), which the clause on
VS_UNDERSHOOT_ENTER does not shut out. -/
theorem not_voltageWindows : ¬ Obligations.VoltageWindows := by
  unfold Obligations.VoltageWindows
  rintro ⟨-, -, -, -, -, henter, -⟩
  obtain ⟨t, ht, -, -, -, hforced⟩ := henter stopAtDie 0 0 0 (by decide) (by decide) (by decide) (by decide) (by decide)
  obtain rfl := Host.Outcome.next.inj (exec_vsUndershootEnter_stopAtDie.symm.trans ht)
  have hpulse := (hforced 0 (by decide) (by decide) (by decide) (by decide) (by decide) (by decide) (by decide) (by decide)).1
  exact absurd hpulse (by decide)

end Sys2Proof.Machine

/-! PROOFS. The loop period (R56, R57, R73, R91, R94, R136): replaced values taken at a boundary, what a period start counts, the sample it
takes, and the two draws. -/

namespace Sys2Proof

/-- A table with only the keys of a kind. -/
theorem SMap.find_filter {α : Type} (f : Nat → Bool) (k : Nat) (m : SMap α) :
    SMap.find k (m.filter (fun q => f q.1)) = if f k then SMap.find k m else none := by
  induction m with
  | nil => simp [SMap.find]
  | cons q m ih =>
    obtain ⟨j, v⟩ := q
    by_cases hj : j = k
    · subst hj
      cases hf : f j
      · simpa [hf] using ih
      · simp [hf, SMap.find]
    · cases hf : f j
      · simpa [hf, SMap.find, hj] using ih
      · simpa [hf, SMap.find, hj] using ih

end Sys2Proof

namespace Sys2Proof.Machine

/-! Replaced values. -/

theorem State.lagTake_find (s : State) (f : Nat → Bool) (k : Nat) :
    SMap.find k (s.lagTake f).lag = if f k then none else SMap.find k s.lag := by
  have h := SMap.find_filter (fun j => !f j) k s.lag
  cases hf : f k
  · simpa [State.lagTake, hf] using h
  · simpa [State.lagTake, hf] using h

theorem State.par_congr {s t : State} (h : t.cfg = s.cfg) (x : Prm) (i : Nat) : t.par x i = s.par x i := by
  rw [State.par, State.par, h]

/-- A parameter in force after a replaced value that is not one of its own. -/
theorem State.parNow_congr {s t : State} {x : Prm} {i : Nat} (hc : t.cfg = s.cfg)
    (hl : SMap.find (pkey x i) t.lag = SMap.find (pkey x i) s.lag) : t.parNow x i = s.parNow x i := by
  rw [State.parNow, State.parNow, State.par, State.par, hc, hl]

/-- A parameter with no replaced value is used as in force. -/
theorem State.parNow_of_find_none {s : State} {x : Prm} {i : Nat} (h : SMap.find (pkey x i) s.lag = none) : s.parNow x i = s.par x i := by
  rw [State.parNow, h]
  rfl

/-- The two numbers a key is made of. -/
theorem pkey_parts (x : Prm) (l : Fin 16) : pkey x l / 65536 = x.id ∧ pkey x l % 65536 = l.val := by
  unfold pkey
  omega

/-- A boundary of a die takes no parameter of a loop. -/
theorem lagOfDie_phases_of_ge {x : Prm} (hx : 0x1000 ≤ x.id) (d : Fin 4) (l : Fin 16) :
    (lagOfDie d (pkey x l) || (phasesOfDie d).any (fun p => lagOfPhase p (pkey x l))) = false := by
  obtain ⟨hid, -⟩ := pkey_parts x l
  have hd : lagOfDie d (pkey x l) = false := by
    rw [lagOfDie, beq_eq_false_iff_ne]
    unfold pkey
    omega
  have hp : ∀ p : Fin 48, lagOfPhase p (pkey x l) = false := by
    intro p
    rw [lagOfPhase, hid, decide_eq_false (by omega), Bool.false_and]
  simp [hd, hp]

theorem State.dieSettle_find {x : Prm} (hx : 0x1000 ≤ x.id) (s : State) (d : Fin 4) (l : Fin 16) :
    SMap.find (pkey x l) (s.dieSettle d).lag = SMap.find (pkey x l) s.lag := by
  unfold State.dieSettle
  split
  · exact (State.lagTake_find s (fun k => lagOfDie d k || (phasesOfDie d).any (fun p => lagOfPhase p k)) (pkey x l)).trans (if_neg (Bool.eq_false_iff.1 (lagOfDie_phases_of_ge hx d l)))
  · rfl

/-- The stop that a die applies at a loop period start (R109). -/
def State.stopApplied (s : State) (l : Fin 16) (d : Fin 4) : State :=
  (((s.phasesOn d l).foldl (fun t p => if t.ph[p].pl.pulse = none then t.outputsLow p else t) s).modLp d l
    (fun x => { x with run := false, stopping := false })).dieSettle d

theorem State.stopApplied_find {x : Prm} (hx : 0x1000 ≤ x.id) (s : State) (l m : Fin 16) (d : Fin 4) :
    SMap.find (pkey x m) (s.stopApplied l d).lag = SMap.find (pkey x m) s.lag := by
  have hk := Keeps.foldl (w := maskOf [.ph]) (f := fun t p => if t.ph[p].pl.pulse = none then t.outputsLow p else t) (s.phasesOn d l)
    (Keeps.refl _ s) fun u p hu => Keeps.ite (State.outputsLow_keeps p hu (.ofParts (by decide))) hu
  exact (State.dieSettle_find hx _ d m).trans (congrArg (SMap.find _) (hk.frame .lag (by decide)))

/-- The shed masks that a die applies to a loop's phases at its period start (R134). -/
def State.shedsApplied (s : State) (l : Fin 16) (d : Fin 4) (mask : Nat) : State :=
  (s.phasesOn d l).foldl (fun t p =>
    match t.ph[p].shed with
    | .active => if maskHas mask p then t.modPh p (fun x => { x with shed := .shedding, shedPeriods := 0 }) else t
    | .shedding =>
      if maskHas mask p then t.modPh p (fun x => { x with shedPeriods := x.shedPeriods + 1 })
      else t.modPh p (fun x => { x with shed := .active, hot := false })
    | .shed => if maskHas mask p then t else t.modPh p (fun x => { x with shed := .active, hot := false })) s

theorem State.shedsApplied_lag (s : State) (l : Fin 16) (d : Fin 4) (mask : Nat) : (s.shedsApplied l d mask).lag = s.lag := by
  have hmod : ∀ (u : State) (p : Fin 48) (f : Phase → Phase), (∀ x, (f x).pl = x.pl) → Keeps (maskOf [.ph]) s u →
      Keeps (maskOf [.ph]) s (u.modPh p f) := fun u p f hf hu =>
    State.modPh_keeps p f hu (.ofParts (by decide)) fun x => by rw [hf x]; exact ⟨id, id⟩
  have hk : Keeps (maskOf [.ph]) s (s.shedsApplied l d mask) := by
    refine Keeps.foldl _ (Keeps.refl _ s) fun u p hu => ?_
    split
    · exact Keeps.ite (hmod u p _ (fun _ => rfl) hu) hu
    · exact Keeps.ite (hmod u p _ (fun _ => rfl) hu) (hmod u p _ (fun _ => rfl) hu)
    · exact Keeps.ite hu (hmod u p _ (fun _ => rfl) hu)
  exact hk.frame .lag (by decide)

/-- What a die takes at a loop period start leaves the loops' replaced values. -/
theorem State.applyAtDie_find {x : Prm} (hx : 0x1000 ≤ x.id) (s : State) (l m : Fin 16) (d : Fin 4) :
    SMap.find (pkey x m) (s.applyAtDie l d).lag = SMap.find (pkey x m) s.lag := by
  have he : s.applyAtDie l d = (if s.die[d].lp[l].stopping then
      (s.modLp d l (fun x => { x with maskNow := x.maskNext, shareAll := false })).stopApplied l d
    else s.modLp d l (fun x => { x with maskNow := x.maskNext, shareAll := false })).shedsApplied l d s.die[d].lp[l].maskNext := rfl
  rw [he, State.shedsApplied_lag]
  split
  · exact State.stopApplied_find hx _ l m d
  · rfl

/-! The counts of a loop period. -/

/-- What a loop counts of its periods and its run, with its compensator and the samples that wait (R56, R73, R94). -/
structure PeriodCounts where
  p : Nat
  pLast : Nat
  number : Nat
  fresh : Bool
  runPeriods : Nat
  sinceSample : Nat
  ct : LoopCtl
  samples : List Sample

def Loop.counts (x : Loop) : PeriodCounts :=
  ⟨x.tm.p, x.tm.pLast, x.tm.number, x.tm.fresh, x.tm.runPeriods, x.tm.sinceSample, x.ct, x.samples⟩

theorem State.modLoop_loop_same (s : State) (l : Fin 16) (f : Loop → Loop) : (s.modLoop l f).loop[l] = f s.loop[l] := upd_at _ _ _

theorem State.modLoop_counts (s : State) {l : Fin 16} {f : Loop → Loop} (h : ∀ x, (f x).counts = x.counts) :
    (s.modLoop l f).loop[l].counts = s.loop[l].counts := by
  rw [State.modLoop_loop_same]
  exact h _

theorem Loop.of_counts {x : Loop} {c : PeriodCounts} (h : x.counts = c) :
    x.tm.p = c.p ∧ x.tm.pLast = c.pLast ∧ x.tm.number = c.number ∧ x.tm.fresh = c.fresh ∧ x.tm.runPeriods = c.runPeriods ∧
      x.tm.sinceSample = c.sinceSample ∧ x.ct = c.ct ∧ x.samples = c.samples := by
  subst h
  exact ⟨rfl, rfl, rfl, rfl, rfl, rfl, rfl, rfl⟩

theorem State.counts_congr {s t : State} (h : t.loop = s.loop) (l : Fin 16) : t.loop[l].counts = s.loop[l].counts := by rw [h]

/-- The counts after one of a new length starts (R56, R73, R94). -/
def PeriodCounts.next (c : PeriodCounts) (p : Nat) : PeriodCounts :=
  { c with
    p := p, pLast := c.p, number := c.number + 1, fresh := false
    runPeriods := if c.fresh then 0 else c.runPeriods + 1, sinceSample := if c.fresh then 0 else c.sinceSample + c.p }

/-- The counts with a sample taken (R94). -/
def PeriodCounts.sampled (c : PeriodCounts) (q : Sample) : PeriodCounts := { c with samples := c.samples ++ [q], sinceSample := 0 }

/-- A loop whose counts are those of another with a new period of length `p` started. -/
theorem Loop.of_counts_next {x y : Loop} {p : Nat} (h : x.counts = y.counts.next p) :
    x.tm.number = y.tm.number + 1 ∧ x.tm.runPeriods = (if y.tm.fresh then 0 else y.tm.runPeriods + 1) ∧
      x.tm.sinceSample = (if y.tm.fresh then 0 else y.tm.sinceSample + y.tm.p) ∧ x.ct = y.ct ∧ x.samples = y.samples := by
  obtain ⟨-, -, hnumber, -, hrun, hsince, hct, hsamples⟩ := Loop.of_counts h
  exact ⟨hnumber, hrun, hsince, hct, hsamples⟩

/-- The same with a sample taken. -/
theorem Loop.of_counts_sampled {x y : Loop} {p : Nat} {q : Sample} (h : x.counts = (y.counts.next p).sampled q) :
    x.tm.p = p ∧ x.tm.pLast = y.tm.p ∧ x.tm.number = y.tm.number + 1 ∧ x.tm.fresh = false ∧ x.ct = y.ct ∧
      x.samples = y.samples ++ [q] := by
  obtain ⟨hp, hlast, hnumber, hfresh, -, -, hct, hsamples⟩ := Loop.of_counts h
  exact ⟨hp, hlast, hnumber, hfresh, hct, hsamples⟩

/-- The period that ends closed at the phases and the dies (R87, R91, R227). -/
def State.periodSummed (s : State) (l : Fin 16) : State :=
  (((s.phasesOf l).foldl State.closePhase s).diesOf l).foldl (fun t d => t.dieSums l s.loop[l].tm.p d) ((s.phasesOf l).foldl State.closePhase s)

/-- The boundary at the loop: replaced values, limit reports, spread-spectrum entry (R55, R73, R121). -/
def State.periodEntered (s : State) (l : Fin 16) : State :=
  ((((s.periodSummed l).lagTake ((s.periodSummed l).lagOfPeriod l)).reportPeriod l).spread l)

/-- The boundary at the dies: stops and sheds (R109, R134). -/
def State.periodApplied (s : State) (l : Fin 16) : State :=
  ((s.periodEntered l).diesOf l).foldl (fun t d => t.applyAtDie l d) (s.periodEntered l)

/-- A period that starts counted, behind one of length `per`; `fresh` at the first of a run, `ss` at a spread-spectrum entry (R56, R73, R94). -/
def State.countPeriod (s : State) (l : Fin 16) (per : Nat) (fresh ss : Bool) : State :=
  s.modLoop l (fun x => { x with
    tm := { x.tm with
      p := s.periodNow l, pLast := per, number := x.tm.number + 1, fresh := false, ssFresh := false
      ssElapsed := if ss then s.periodNow l else x.tm.ssElapsed + s.periodNow l
      rotCount := x.tm.rotCount + 1, runPeriods := if fresh then 0 else x.tm.runPeriods + 1
      sinceSample := if fresh then 0 else x.tm.sinceSample + per } })

theorem State.countPeriod_counts {s : State} {l : Fin 16} {per : Nat} {fresh : Bool} (hp : s.loop[l].counts.p = per)
    (hf : s.loop[l].counts.fresh = fresh) (ss : Bool) :
    (s.countPeriod l per fresh ss).loop[l].counts = s.loop[l].counts.next (s.periodNow l) := by
  subst hp hf
  exact congrArg Loop.counts (s.modLoop_loop_same l _)

/-- The new period counted. -/
def State.periodCounted (s : State) (l : Fin 16) : State :=
  (s.periodApplied l).countPeriod l s.loop[l].tm.p s.loop[l].tm.fresh (s.loop[l].tm.fresh || s.loop[l].tm.ssFresh)

/-- A sample is due at the period start just counted. -/
def State.sampleDue (s : State) (l : Fin 16) : Bool := s.live l && s.loop[l].tm.runPeriods % s.parNowN P.LOOP_SAMPLE_DIV l == 0

/-- A sample taken, with the next order number (R91, R94, R126). -/
def State.sampled (s : State) (l : Fin 16) (per : Nat) (cur : Int) : State :=
  (((s.lagTake (lagOfSample l)).ocModeStep l).stamp.takeSample l per cur).shortFind l

/-- The slots of the new period given (R56, R93, R134, R138). -/
def State.periodSlots (s prev : State) (l : Fin 16) : State := ((s.clearConvs l).assignSlots prev l).idlePhases l

theorem State.periodStart_eq (s : State) (l : Fin 16) : s.periodStart l =
    (if (s.periodCounted l).sampleDue l then
      (s.periodCounted l).sampled l s.loop[l].tm.p (((s.phasesOf l).foldl State.closePhase s).loopCurrent l)
    else s.periodCounted l).periodSlots s l := by
  unfold State.periodStart
  extract_lets per fresh ss s0 s1 s2 s3 s4 due s5
  have h1 : s1 = s.periodSummed l := rfl
  have h2 : s2 = s.periodEntered l := by
    unfold s2
    rw [h1]
    rfl
  have h3 : s3 = s.periodApplied l := by
    unfold s3
    rw [h2]
    rfl
  have h4 : s4 = s.periodCounted l := by
    unfold s4
    rw [h3]
    rfl
  unfold s5 due
  rw [h4]
  unfold s0 per State.sampleDue State.sampled State.periodSlots
  congr 3

/-- The sums write the statistics and the dies alone. -/
theorem State.periodSummed_keeps (s : State) (l : Fin 16) : Keeps (maskOf [.die, .pst]) s (s.periodSummed l) :=
  Keeps.foldl _ (Keeps.foldl _ (Keeps.refl _ s) fun _ p h => State.closePhase_keeps p h (.ofParts (by decide)))
    fun _ d h => State.dieSums_keeps l _ d h (.ofParts (by decide))

/-- The boundary up to the new period's number writes dies, phases, statistics, the loop and the replaced values alone. -/
theorem State.periodApplied_keeps (s : State) (l : Fin 16) :
    Keeps (maskOf [.die, .ph, .pst, .loop, .lag]) s (s.periodApplied l) :=
  Keeps.foldl _ (State.spread_keeps l (State.reportPeriod_keeps l (State.lagTake_keeps _
    ((s.periodSummed_keeps l).mono (.ofParts (by decide))) (.ofParts (by decide))) (.ofParts (by decide))) (.ofParts (by decide)))
    fun _ d h => State.applyAtDie_keeps l d h (.ofParts (by decide))

theorem State.reportPeriod_counts (s : State) (l : Fin 16) : (s.reportPeriod l).loop[l].counts = s.loop[l].counts := by
  unfold State.reportPeriod
  extract_lets number reps s1
  have hk : Keeps (maskOf [.ph]) s1 ((s.phasesOf l).foldl (fun s p => s.modPh p (fun x => { x with limitedNow := false })) s1) :=
    Keeps.foldl _ (Keeps.refl _ s1) fun _ p h => State.modPh_keeps p _ h (.ofParts (by decide)) fun _ => ⟨id, id⟩
  exact (State.counts_congr (hk.frame .loop (by decide)) l).trans (s.modLoop_counts fun _ => rfl)

theorem State.spread_counts (s : State) (l : Fin 16) : (s.spread l).loop[l].counts = s.loop[l].counts := by
  unfold State.spread
  extract_lets s1
  have h1 : s1.loop[l].counts = s.loop[l].counts := by
    unfold s1
    split
    · exact s.modLoop_counts fun _ => rfl
    · rfl
  split
  · refine Eq.trans (s1.modLoop_counts ?_) h1
    exact fun _ => rfl
  · exact h1

theorem State.periodApplied_counts (s : State) (l : Fin 16) : (s.periodApplied l).loop[l].counts = s.loop[l].counts := by
  have hdies : Keeps (maskOf [.die, .ph, .lag]) (s.periodEntered l) (s.periodApplied l) :=
    Keeps.foldl _ (Keeps.refl _ _) fun _ d h => State.applyAtDie_keeps l d h (.ofParts (by decide))
  rw [show (s.periodApplied l).loop = (s.periodEntered l).loop from hdies.frame .loop (by decide), State.periodEntered,
    State.spread_counts, State.reportPeriod_counts]
  exact congrArg (fun v => v[l].counts) ((s.periodSummed_keeps l).frame .loop (by decide))

/-- The new period counted: its number, its length and the counts of the run. -/
theorem State.periodCounted_counts (s : State) (l : Fin 16) :
    (s.periodCounted l).loop[l].counts = s.loop[l].counts.next ((s.periodApplied l).periodNow l) := by
  have h := s.periodApplied_counts l
  have hc := State.countPeriod_counts (congrArg PeriodCounts.p h) (congrArg PeriodCounts.fresh h) (s.loop[l].tm.fresh || s.loop[l].tm.ssFresh)
  rw [h] at hc
  exact hc

theorem State.periodCounted_keeps (s : State) (l : Fin 16) :
    Keeps (maskOf [.die, .ph, .pst, .loop, .lag]) s (s.periodCounted l) := by
  unfold State.periodCounted State.countPeriod
  exact State.modLoop_keeps l _ (s.periodApplied_keeps l) (.ofParts (by decide))

/-- The slots of the new period leave the counts and the order number. -/
theorem State.periodSlots_keeps (s prev : State) (l : Fin 16) :
    Keeps (maskOf [.evq, .ph, .pst, .vs, .loop, .lag]) s (s.periodSlots prev l) :=
  State.idlePhases_keeps l (State.assignSlots_keeps prev l (State.clearConvs_keeps l (Keeps.refl _ s) (.ofParts (by decide)))
    (.ofParts (by decide))) (.ofParts (by decide))

theorem State.assignSlots_counts (s prev : State) (l : Fin 16) : (s.assignSlots prev l).loop[l].counts = s.loop[l].counts := by
  unfold State.assignSlots
  extract_lets act n o s1
  have hk : Keeps (maskOf [.evq, .ph]) s1 ((s.phasesOf l).foldl (fun t p =>
      let r := act.idxOf p
      let t1 := t.modPh p (fun x => { x with slot := if r < n then some ((r + o % n) % n) else none })
      if s.live l ∧ r < n ∧ prev.ph[p].shed = .shed then t1.log 0x0511 p.val n else t1) s1) := by
    refine Keeps.foldl _ (Keeps.refl _ s1) fun u p hu => ?_
    have h1 := State.modPh_keeps p (fun x => { x with slot := if act.idxOf p < n then some ((act.idxOf p + o % n) % n) else none }) hu
      (.ofParts (by decide)) fun _ => ⟨id, id⟩
    exact Keeps.ite (State.log_keeps _ _ _ h1 (.ofParts (by decide))) h1
  exact (State.counts_congr (hk.frame .loop (by decide)) l).trans (s.modLoop_counts fun _ => rfl)

theorem State.periodSlots_counts (s prev : State) (l : Fin 16) : (s.periodSlots prev l).loop[l].counts = s.loop[l].counts := by
  have hidle : Keeps (maskOf [.lag, .pst]) ((s.clearConvs l).assignSlots prev l) (s.periodSlots prev l) :=
    State.idlePhases_keeps l (Keeps.refl _ _) (.ofParts (by decide))
  have hconvs : Keeps (maskOf [.vs]) s (s.clearConvs l) := State.clearConvs_keeps l (Keeps.refl _ s) (.ofParts (by decide))
  rw [State.counts_congr (hidle.frame .loop (by decide)), State.assignSlots_counts, State.counts_congr (hconvs.frame .loop (by decide))]

/-! The sample. -/

/-- A sample in PERIOD_AVG mode is of the end of its period (R94). -/
theorem State.vsSample_time {s : State} {l : Fin 16} (h : s.parNow P.LOOP_SAMPLE_MODE l = 1) (per v : Nat) :
    (s.vsSample l per v).2.2 = per := by
  unfold State.vsSample
  rw [h]
  split
  · extract_lets x
    split
    · rfl
    · rfl
  · rfl

theorem State.ocModeStep_counts (s : State) (l : Fin 16) : (s.ocModeStep l).loop[l].counts = s.loop[l].counts := by
  unfold State.ocModeStep
  extract_lets m
  split
  · rfl
  · exact s.modLoop_counts fun _ => rfl

theorem State.shortFind_counts (s : State) (l : Fin 16) : (s.shortFind l).loop[l].counts = s.loop[l].counts := by
  unfold State.shortFind
  split
  · rfl
  · split
    · exact s.modLoop_counts fun _ => rfl
    · rfl

/-- What a sample taken adds to its loop (R91, R94). -/
theorem State.takeSample_counts (s : State) (l : Fin 16) (per : Nat) (cur : Int) :
    ∃ q : Sample, (s.takeSample l per cur).loop[l].counts =
        s.loop[l].counts.sampled q ∧
      q.ord = s.ord ∧ q.period = s.loop[l].counts.number - 1 ∧ (s.parNow P.LOOP_SAMPLE_MODE l = 1 → q.time = s.clk.shelf) := by
  unfold State.takeSample
  extract_lets x v smp
  refine ⟨smp, ?_, rfl, rfl, fun h => ?_⟩
  · rw [State.modLoop_loop_same]
    rfl
  · show s.clk.shelf - (per - v.2.2) / 32 * 4 = s.clk.shelf
    rw [show v.2.2 = per from State.vsSample_time h per _, Nat.sub_self]
    rfl

theorem lagOfSample_sampleMode (l : Fin 16) : lagOfSample l (pkey P.LOOP_SAMPLE_MODE l) = true := by
  revert l
  decide

/-- A sample taken: behind those that wait, with the next order number and the number of the period that ended. -/
theorem State.sampled_spec (s : State) (l : Fin 16) (per : Nat) (cur : Int) :
    (s.sampled l per cur).ord = s.ord + 1 ∧ ∃ q : Sample, (s.sampled l per cur).loop[l].counts =
        s.loop[l].counts.sampled q ∧
      q.ord = s.ord + 1 ∧ q.period = s.loop[l].counts.number - 1 ∧ (s.par P.LOOP_SAMPLE_MODE l = 1 → q.time = s.clk.shelf) := by
  have hmode : Keeps (maskOf [.loop]) (s.lagTake (lagOfSample l)) ((s.lagTake (lagOfSample l)).ocModeStep l) :=
    State.ocModeStep_keeps l (Keeps.refl _ _) (.ofParts (by decide))
  have hcounts : ((s.lagTake (lagOfSample l)).ocModeStep l).stamp.loop[l].counts = s.loop[l].counts :=
    (s.lagTake (lagOfSample l)).ocModeStep_counts l
  have hord : ((s.lagTake (lagOfSample l)).ocModeStep l).stamp.ord = s.ord + 1 := congrArg (· + 1) (hmode.frame .ord (by decide))
  have hclk : ((s.lagTake (lagOfSample l)).ocModeStep l).stamp.clk = s.clk := hmode.frame .clk (by decide)
  have hpar : ((s.lagTake (lagOfSample l)).ocModeStep l).stamp.parNow P.LOOP_SAMPLE_MODE l = s.par P.LOOP_SAMPLE_MODE l := by
    refine (State.parNow_of_find_none ?_).trans (State.par_congr (hmode.frame .cfg (by decide)) _ _)
    exact (congrArg (SMap.find _) (hmode.frame .lag (by decide))).trans ((s.lagTake_find _ _).trans (if_pos (lagOfSample_sampleMode l)))
  obtain ⟨q, hq, hqo, hqp, hqt⟩ := (((s.lagTake (lagOfSample l)).ocModeStep l).stamp).takeSample_counts l per cur
  have htake : Keeps (maskOf [.loop]) ((s.lagTake (lagOfSample l)).ocModeStep l).stamp (s.sampled l per cur) :=
    State.shortFind_keeps l (State.takeSample_keeps l per cur (Keeps.refl _ _) (.ofParts (by decide))) (.ofParts (by decide))
  refine ⟨(htake.frame .ord (by decide)).trans hord, q, ?_, hqo.trans hord, ?_, fun h => ?_⟩
  · rw [State.sampled, State.shortFind_counts, hq, hcounts]
  · rw [hqp, hcounts]
  · rw [hqt (hpar.trans h), hclk]

/-! The parameters of a period start. -/

/-- A loop takes its own switching parameters at its period start (R55, R89). -/
theorem State.lagOfPeriod_own {x : Prm} (hlo : 0x10C0 ≤ x.id) (hhi : x.id ≤ 0x10C4) (s : State) (l : Fin 16) :
    s.lagOfPeriod l (pkey x l) = true := by
  obtain ⟨hid, hidx⟩ := pkey_parts x l
  simp only [State.lagOfPeriod, hid, hidx, decide_eq_true (And.intro hlo hhi), beq_self_eq_true, Bool.and_self, Bool.true_or]

/-- It takes none of Eddy's there. -/
theorem State.lagOfPeriod_eddy {x : Prm} (hlo : 0x1000 ≤ x.id) (hhi : x.id < 0x10C0) (s : State) (l : Fin 16) :
    s.lagOfPeriod l (pkey x l) = false := by
  obtain ⟨hid, -⟩ := pkey_parts x l
  have hswitching : ¬ (0x10C0 ≤ x.id ∧ x.id ≤ 0x10C4) := by omega
  have hwindow : ¬ (0x0C80 ≤ x.id ∧ x.id ≤ 0x0C84) := by omega
  simp only [State.lagOfPeriod, hid, decide_eq_false hswitching, decide_eq_false hwindow, Bool.false_and, Bool.or_self]

/-- The replaced values of a loop's parameters after its boundary. -/
theorem State.periodApplied_find {x : Prm} (hx : 0x1000 ≤ x.id) (s : State) (l : Fin 16) :
    SMap.find (pkey x l) (s.periodApplied l).lag =
      if (s.periodSummed l).lagOfPeriod l (pkey x l) then none else SMap.find (pkey x l) s.lag := by
  have hdies : ∀ (ds : List (Fin 4)) (t : State),
      SMap.find (pkey x l) (ds.foldl (fun t d => t.applyAtDie l d) t).lag = SMap.find (pkey x l) t.lag := by
    intro ds
    induction ds with
    | nil => exact fun t => rfl
    | cons d ds ih => exact fun t => (ih _).trans (State.applyAtDie_find hx t l l d)
  have hentered : Keeps (maskOf [.ph, .loop]) ((s.periodSummed l).lagTake ((s.periodSummed l).lagOfPeriod l)) (s.periodEntered l) :=
    State.spread_keeps l (State.reportPeriod_keeps l (Keeps.refl _ _) (.ofParts (by decide))) (.ofParts (by decide))
  have hsummed : (s.periodSummed l).lag = s.lag := (s.periodSummed_keeps l).frame .lag (by decide)
  rw [State.periodApplied, hdies, show (s.periodEntered l).lag = _ from hentered.frame .lag (by decide), State.lagTake_find, hsummed]

/-- A switching parameter of a loop right after its boundary is the one in force. -/
theorem State.periodApplied_parNow {x : Prm} (hlo : 0x10C0 ≤ x.id) (hhi : x.id ≤ 0x10C4) (s : State) (l : Fin 16) :
    (s.periodApplied l).parNow x l = s.par x l := by
  refine (State.parNow_of_find_none ?_).trans (State.par_congr ((s.periodApplied_keeps l).frame .cfg (by decide)) x l)
  rw [s.periodApplied_find (by omega) l, if_pos (State.lagOfPeriod_own hlo hhi _ l)]

/-- Without spread spectrum the new period has the length of LOOP_FSW (R73). -/
theorem State.periodNow_of_fixed {s : State} {l : Fin 16} (h : s.parNow P.LOOP_SS_MODE l = 0) :
    s.periodNow l = (nearHalfDown 8000000000 (s.parNow P.LOOP_FSW l)).toNat := by
  unfold State.periodNow
  rw [h]
  rfl

theorem State.periodCounted_lag (s : State) (l : Fin 16) : (s.periodCounted l).lag = (s.periodApplied l).lag := by
  unfold State.periodCounted
  generalize s.periodApplied l = u
  rfl

/-- A parameter of Eddy's is used as before the boundary until the sample (R404). -/
theorem State.periodCounted_sampleDiv (s : State) (l : Fin 16) :
    (s.periodCounted l).parNowN P.LOOP_SAMPLE_DIV l = s.parNowN P.LOOP_SAMPLE_DIV l := by
  have hlag : SMap.find (pkey P.LOOP_SAMPLE_DIV l) (s.periodCounted l).lag = SMap.find (pkey P.LOOP_SAMPLE_DIV l) s.lag := by
    rw [s.periodCounted_lag l, s.periodApplied_find (by decide) l, if_neg (Bool.eq_false_iff.1 (State.lagOfPeriod_eddy (by decide) (by decide) _ l))]
  unfold State.parNowN
  rw [State.parNow_congr ((s.periodCounted_keeps l).frame .cfg (by decide)) hlag]

theorem State.live_congr {s t : State} {l : Fin 16} (h : t.loop[l].ct = s.loop[l].ct) : t.live l = s.live l := by
  rw [State.live, State.live, h]

/-- Whether a sample is due: at the first period of a live run, and each LOOP_SAMPLE_DIV periods after. -/
theorem State.periodCounted_sampleDue (s : State) (l : Fin 16) : (s.periodCounted l).sampleDue l =
    (s.live l && (if s.loop[l].tm.fresh then 0 else s.loop[l].tm.runPeriods + 1) % s.parNowN P.LOOP_SAMPLE_DIV l == 0) := by
  obtain ⟨-, hrun, -, hct, -⟩ := Loop.of_counts_next (s.periodCounted_counts l)
  rw [State.sampleDue, State.live_congr hct, s.periodCounted_sampleDiv l, hrun]

/-! LOOP_PERIOD_START. -/

theorem exec_loopPeriodStart_of_anyDie {s : State} (h : s.anyDie = true) (l : Fin 16) :
    exec (.loopPeriodStart l) s = .next (s.periodStart l) := congrArg Host.Outcome.next (if_pos h)

/-- A period start that takes no sample. -/
theorem State.periodStart_of_not_due {s : State} {l : Fin 16} (h : (s.periodCounted l).sampleDue l = false) :
    (s.periodStart l).ord = s.ord ∧
      (s.periodStart l).loop[l].counts = s.loop[l].counts.next ((s.periodApplied l).periodNow l) := by
  rw [s.periodStart_eq l, h, if_neg Bool.false_ne_true, State.periodSlots_counts, s.periodCounted_counts l]
  exact ⟨(((s.periodCounted l).periodSlots_keeps s l).frame .ord (by decide)).trans ((s.periodCounted_keeps l).frame .ord (by decide)), rfl⟩

/-- A period start that takes a sample (R91, R94). -/
theorem State.periodStart_of_due {s : State} {l : Fin 16} (h : (s.periodCounted l).sampleDue l = true) :
    (s.periodStart l).ord = s.ord + 1 ∧ ∃ q : Sample,
      (s.periodStart l).loop[l].counts = (s.loop[l].counts.next ((s.periodApplied l).periodNow l)).sampled q ∧
      q.ord = s.ord + 1 ∧ q.period = s.loop[l].tm.number ∧ (s.par P.LOOP_SAMPLE_MODE l = 1 → q.time = s.clk.shelf) := by
  obtain ⟨hord, q, hq, hqo, hqp, hqt⟩ := (s.periodCounted l).sampled_spec l s.loop[l].tm.p
    (((s.phasesOf l).foldl State.closePhase s).loopCurrent l)
  have hcord : (s.periodCounted l).ord = s.ord := (s.periodCounted_keeps l).frame .ord (by decide)
  have hcclk : (s.periodCounted l).clk = s.clk := (s.periodCounted_keeps l).frame .clk (by decide)
  have hccfg : (s.periodCounted l).cfg = s.cfg := (s.periodCounted_keeps l).frame .cfg (by decide)
  rw [hcord] at hord hqo
  rw [s.periodCounted_counts l] at hq hqp
  rw [State.par_congr hccfg, hcclk] at hqt
  rw [s.periodStart_eq l, h, if_pos rfl, State.periodSlots_counts]
  exact ⟨((State.periodSlots_keeps _ s l).frame .ord (by decide)).trans hord, q, hq, hqo, hqp, hqt⟩

/-- LOOP_PERIOD_START without a sample: the order number and the counts behind it. -/
theorem exec_loopPeriodStart_of_not_due {s : State} {l : Fin 16} (ha : s.anyDie = true) (hd : (s.periodCounted l).sampleDue l = false) :
    ∃ t, exec (.loopPeriodStart l) s = .next t ∧ t.ord = s.ord ∧
      t.loop[l].counts = s.loop[l].counts.next ((s.periodApplied l).periodNow l) :=
  ⟨_, exec_loopPeriodStart_of_anyDie ha l, State.periodStart_of_not_due hd⟩

/-- LOOP_PERIOD_START with a sample. -/
theorem exec_loopPeriodStart_of_due {s : State} {l : Fin 16} (ha : s.anyDie = true) (hd : (s.periodCounted l).sampleDue l = true) :
    ∃ t, exec (.loopPeriodStart l) s = .next t ∧ t.ord = s.ord + 1 ∧ ∃ q : Sample,
      t.loop[l].counts = (s.loop[l].counts.next ((s.periodApplied l).periodNow l)).sampled q ∧
      q.ord = s.ord + 1 ∧ q.period = s.loop[l].tm.number ∧ (s.par P.LOOP_SAMPLE_MODE l = 1 → q.time = s.clk.shelf) :=
  ⟨_, exec_loopPeriodStart_of_anyDie ha l, State.periodStart_of_due hd⟩

/-! The draws. -/

theorem State.modTm_loop (s : State) (l : Fin 16) (f : LoopTime → LoopTime) :
    (s.modTm l f).loop[l] = { s.loop[l] with tm := f s.loop[l].tm } ∧ ∀ k : Fin 16, k ≠ l → (s.modTm l f).loop[k] = s.loop[k] :=
  ⟨upd_at _ _ _, fun _ hk => upd_ne _ _ hk⟩

/-- Settles O13: the period start by its counts, the draws by `State.modTm_loop`. -/
theorem loopPeriodStarts : Obligations.LoopPeriodStarts := by
  unfold Obligations.LoopPeriodStarts
  refine ⟨?first, ?between, ?notLive, ?off, ?draw, ?rotation, ?noRotation⟩
  case first =>
    intro s l hdie hlive hfresh
    have hdue : (s.periodCounted l).sampleDue l = true := by
      rw [s.periodCounted_sampleDue l, hlive, hfresh, if_pos rfl, Nat.zero_mod]
      rfl
    obtain ⟨t, ht, hord, q, hq, hqo, hqp, hqt⟩ := exec_loopPeriodStart_of_due hdie hdue
    obtain ⟨hp, hlast, hnumber, hf, hct, hsamples⟩ := Loop.of_counts_sampled hq
    refine ⟨t, ht, hnumber, hf, hlast, fun hss => ?_, hord, ?_, fun hmode => ?_, hct⟩
    · rw [hp, ← s.periodApplied_parNow (x := P.LOOP_FSW) (by decide) (by decide) l]
      exact State.periodNow_of_fixed ((s.periodApplied_parNow (by decide) (by decide) l).trans hss)
    · rw [hsamples, List.map_append, List.map_singleton, hqo, hqp]
    · rw [hsamples, List.map_append, List.map_singleton, hqt hmode]
  case between =>
    intro s l hdie hlive hfresh hnot
    have hdue : (s.periodCounted l).sampleDue l = false := by
      rw [s.periodCounted_sampleDue l, hlive, hfresh, if_neg Bool.false_ne_true, Bool.true_and]
      exact beq_eq_false_iff_ne.2 hnot
    obtain ⟨t, ht, hord, hcounts⟩ := exec_loopPeriodStart_of_not_due hdie hdue
    obtain ⟨hnumber, hrun, hsince, -, hsamples⟩ := Loop.of_counts_next hcounts
    rw [hfresh, if_neg Bool.false_ne_true] at hrun hsince
    exact ⟨t, ht, hnumber, hrun, hord, hsamples, hsince⟩
  case notLive =>
    intro s l hdie hlive
    have hdue : (s.periodCounted l).sampleDue l = false := by rw [s.periodCounted_sampleDue l, hlive, Bool.false_and]
    obtain ⟨t, ht, hord, hcounts⟩ := exec_loopPeriodStart_of_not_due hdie hdue
    obtain ⟨hnumber, -, -, -, hsamples⟩ := Loop.of_counts_next hcounts
    exact ⟨t, ht, hnumber, hord, hsamples⟩
  case off => exact fun s l hoff => ⟨_, congrArg Host.Outcome.next (if_neg (Bool.eq_false_iff.1 hoff)), rfl⟩
  case draw =>
    intro s l hmode hlive
    obtain ⟨hat, hothers⟩ := s.modTm_loop l (fun t => { t with ssLfsr := lfsrStep t.ssLfsr, ssStep := lfsrStep t.ssLfsr % 256 })
    refine ⟨_, congrArg Host.Outcome.next (if_pos ⟨hmode, hlive⟩), ?_⟩
    rw [hat]
    exact ⟨rfl, rfl, rfl, hothers⟩
  case rotation =>
    intro s l hen hdue
    obtain ⟨hat, hothers⟩ := s.modTm_loop l (fun t => { t with rotLfsr := lfsrStep t.rotLfsr, rotNow := lfsrStep t.rotLfsr, rotCount := 0 })
    refine ⟨_, congrArg Host.Outcome.next (if_pos ⟨hen, decide_eq_true hdue⟩), ?_⟩
    rw [hat]
    exact ⟨rfl, rfl, rfl, rfl, hothers⟩
  case noRotation =>
    intro s l hnot
    refine ⟨_, congrArg Host.Outcome.next (if_neg ?_), rfl⟩
    rintro ⟨hen, hdue⟩
    rcases hnot with ⟨hoff, hforce⟩ | hearly
    · exact hen.elim hoff fun h => Bool.noConfusion (hforce.symm.trans h)
    · exact absurd (of_decide_eq_true hdue) (Nat.not_le.2 hearly)

end Sys2Proof.Machine

/-! PROOFS. A full reset (R340, R346, R493, R494): the record a reset may tear, and what a reset of every stem leaves. -/

namespace Sys2Proof.Machine

/-- Where every operation of a list establishes a property of its own index and keeps that of every other, each index of the list has it. -/
theorem foldl_establishes {ι : Type} {f : State → ι → State} {Q : ι → State → Prop} (hown : ∀ u i, Q i (f u i))
    (hother : ∀ u i j, i ≠ j → Q i u → Q i (f u j)) {is : List ι} {i : ι} (h : i ∈ is) (s : State) : Q i (is.foldl f s) := by
  have hkeep : ∀ (js : List ι) (u : State), Q i u → Q i (js.foldl f u) := by
    intro js
    induction js with
    | nil => exact fun u hu => hu
    | cons j js ih =>
      intro u hu
      refine ih _ ?_
      by_cases hj : i = j
      · exact hj ▸ hown u i
      · exact hother u i j hj hu
  induction is generalizing s with
  | nil => simp at h
  | cons j js ih =>
    rcases List.mem_cons.1 h with rfl | hi
    · exact hkeep js _ (hown s i)
    · exact ih hi _

/-- Operations that each update one place of a table of the state, in turn on every place. -/
theorem foldl_upd_of_state {α : Type} {n : Nat} {f : State → Fin n → State} {sel : State → Vector α n} {g : Fin n → α → α}
    (h : ∀ u i, sel (f u i) = upd (sel u) i (g i)) (s : State) (i : Fin n) : (sel ((fins n).foldl f s))[i] = g i (sel s)[i] := by
  have hfold : (fins n).foldl (fun v j => upd v j (g j)) (sel s) = sel ((fins n).foldl f s) := List.foldl_hom sel fun u j => (h u j).symm
  rw [← hfold]
  exact foldl_upd_fins g (sel s) i

/-! The record at the head of the writer's queue. -/

/-- Every byte of the store is kept but those of the slot of the record that is being committed. -/
def SlotsKept (s t : State) : Prop :=
  ∀ a : Nat, (∀ r ∈ s.silt.queue.head?, ¬ (0xC00000 + 32 * (r.seq % 786432) ≤ a ∧ a < 0xC00000 + 32 * (r.seq % 786432) + 32)) →
    mramByte t.mram a = mramByte s.mram a

/-- The words of a record lie within its 32 bytes. -/
theorem SRec.words_within (r : SRec) : ∀ w ∈ r.words, w.1 + w.2.length ≤ 32 := by
  intro w hw
  rw [SRec.words] at hw
  rcases List.mem_append.1 hw with h | h
  · rcases List.mem_cons.1 h with rfl | h
    · simp
    · obtain ⟨i, hi, rfl⟩ := List.mem_map.1 h
      have hlt := List.mem_range.1 hi
      have hlen := List.length_take_le 4 (r.bytes.drop (4 * (i + 1)))
      dsimp only
      omega
  · rw [List.mem_singleton.1 h]
    have hlen := List.length_take_le 4 r.bytes
    dsimp only
    omega

/-- Words stored within 32 bytes leave every byte outside them. -/
theorem foldl_store_out {ws : List (Nat × List Byte)} (hw : ∀ w ∈ ws, w.1 + w.2.length ≤ 32) {b a : Nat} (ha : a < b ∨ b + 32 ≤ a)
    (s : State) : mramByte (ws.foldl (fun (t : State) w => t.store (b + w.1) w.2) s).mram a = mramByte s.mram a := by
  induction ws generalizing s with
  | nil => rfl
  | cons w ws ih =>
    have hlen := hw w List.mem_cons_self
    rw [List.foldl_cons, ih fun v hv => hw v (List.mem_cons_of_mem w hv), State.store_mram]
    exact mramByte_put_out _ _ (by omega)

theorem State.tearHead_slotsKept (s : State) : SlotsKept s s.tearHead := by
  intro a ha
  unfold State.tearHead
  split
  case h_1 => rfl
  case h_2 r rs hq =>
    split
    · rfl
    · have hout : ¬ (siltAddr r.seq ≤ a ∧ a < siltAddr r.seq + 32) := ha r (by rw [hq]; rfl)
      exact foldl_store_out (fun w hw => (s.recSealed r).words_within w (List.mem_of_mem_take hw)) (by omega) s

/-- What a torn record changes. -/
theorem State.tearHead_keeps_rest (s : State) : Keeps (maskOf [.mram, .free]) s s.tearHead :=
  State.tearHead_keeps (Keeps.refl _ s) (.ofParts (by decide))

/-! A full reset. -/

/-- Lost stems leave the retention, the store and the ledger in force, and no stem acts. -/
theorem State.stemLost_rest (s : State) (core : Bool) :
    (s.stemLost core).spring = s.spring ∧ (s.stemLost core).mram = s.mram ∧ (s.stemLost core).silt.gen = s.silt.gen ∧
      (s.stemLost core).silt.copyB = s.silt.copyB := ⟨rfl, rfl, rfl, rfl⟩

theorem State.hasActive_of_off {s : State} (h : ∀ k : Fin 2, s.stems.stem[k].st = .off) : s.hasActive = false := by
  rw [State.hasActive, List.any_eq_false]
  intro k _
  rw [h k]
  decide

theorem State.stemLost_hasActive (s : State) (core : Bool) : (s.stemLost core).hasActive = false := by
  have hstems : (s.stemLost core).stems = { Stems.reset with stem := s.stems.stem.map (fun y => { Stem.reset with hot := y.hot, low := y.low }) } :=
    rfl
  refine State.hasActive_of_off fun k => ?_
  rw [hstems, Fin.getElem_fin, Vector.getElem_map]
  rfl

/-- The fall of the command source leaves the retention, the store and the writer. -/
theorem State.sourceDrop_keeps_rest (s : State) : Keeps (maskOf [.evq, .die, .ph, .bank, .lag]) s s.sourceDrop :=
  State.sourceDrop_keeps (Keeps.refl _ s) (.ofParts (by decide))

/-- A reset taken, with the command source down and the stems lost (R493, R494, R495). -/
def State.lostAfter (s : State) (kind : Nat) : State := ((s.resetTaken kind 0 true).sourceDrop).stemLost false

theorem State.fullReset_eq (s : State) (kind : Nat) (ref : Bool) :
    s.fullReset kind ref = if ref then s.resetFrom (s.tearHead.lostAfter kind) ref
      else (s.resetFrom (s.tearHead.lostAfter kind) ref).modBank (fun b => { b with srcValid := false }) := rfl

/-- Spring retention after the reset is what the taking of it made; the store and the ledger in force stay. -/
theorem State.lostAfter_rest (s : State) (kind : Nat) :
    (s.lostAfter kind).spring = (s.resetTaken kind 0 true).spring ∧ (s.lostAfter kind).mram = s.mram ∧
      (s.lostAfter kind).silt.gen = s.silt.gen ∧ (s.lostAfter kind).silt.copyB = s.silt.copyB := by
  obtain ⟨hspring, hmram, hgen, hcopy⟩ := (s.resetTaken kind 0 true).sourceDrop.stemLost_rest false
  have hk := (s.resetTaken kind 0 true).sourceDrop_keeps_rest
  have hdrop : (s.resetTaken kind 0 true).sourceDrop.silt = s.silt := hk.frame .silt (by decide)
  exact ⟨hspring.trans (hk.frame .spring (by decide)), hmram.trans (hk.frame .mram (by decide)), hgen.trans (congrArg Silt.gen hdrop),
    hcopy.trans (congrArg Silt.copyB hdrop)⟩

theorem State.lostAfter_hasActive (s : State) (kind : Nat) : (s.lostAfter kind).hasActive = false := State.stemLost_hasActive _ false

/-- `t` is what a reset of every stem and Delta domain made of `s`; `ref` says that DL_REF goes on (R493, R494). -/
structure State.IsReset (s t : State) (ref : Bool) : Prop where
  stopped : t.hasActive = false
  held : t.dev.held = true
  boot : t.dev.state = .boot
  dlRef : t.clk.dlRef = ref
  off : ∀ d : Fin 4, t.die[d].off = true
  therm : ∀ d : Fin 8, t.therm.die[d].st = s.therm.die[d].st
  gen : t.silt.gen = s.silt.gen
  copyB : t.silt.copyB = s.silt.copyB
  slots : SlotsKept s t

/-- The dies and the thermal states that a reset puts behind the rest of it. -/
theorem State.resetFrom_dies (s u : State) (ref : Bool) :
    (∀ d : Fin 4, (s.resetFrom u ref).die[d].off = true) ∧ ∀ d : Fin 8, (s.resetFrom u ref).therm.die[d].st = s.therm.die[d].st :=
  ⟨fun d => congrArg Die.off (tab_at _ d), fun d => (congrArg ThDie.st (tab_at _ d)).trans rfl⟩

/-- The rest of a reset that leaves no stem active, the ledger in force and the other slots is put behind by one. -/
theorem State.resetFrom_isReset {s u : State} (hact : u.hasActive = false) (hgen : u.silt.gen = s.silt.gen)
    (hcopy : u.silt.copyB = s.silt.copyB) (hslots : SlotsKept s u) (ref : Bool) : s.IsReset (s.resetFrom u ref) ref :=
  ⟨hact, rfl, rfl, rfl, (s.resetFrom_dies u ref).1, (s.resetFrom_dies u ref).2, hgen, hcopy, hslots⟩

/-- The Bank die's command source leaves a reset one. -/
theorem State.IsReset.modBank {s t : State} {ref : Bool} (h : s.IsReset t ref) (f : Bank → Bank) : s.IsReset (t.modBank f) ref :=
  ⟨h.stopped, h.held, h.boot, h.dlRef, h.off, h.therm, h.gen, h.copyB, h.slots⟩

theorem State.fullReset_isReset (s : State) (kind : Nat) (ref : Bool) : s.IsReset (s.fullReset kind ref) ref := by
  obtain ⟨-, hmram, hgen, hcopy⟩ := s.tearHead.lostAfter_rest kind
  have htear : s.tearHead.silt = s.silt := s.tearHead_keeps_rest.frame .silt (by decide)
  have hslots : SlotsKept s (s.tearHead.lostAfter kind) := fun a ha => by rw [hmram]; exact s.tearHead_slotsKept a ha
  have h := State.resetFrom_isReset (s.tearHead.lostAfter_hasActive kind) (hgen.trans (congrArg Silt.gen htear))
    (hcopy.trans (congrArg Silt.copyB htear)) hslots ref
  rw [State.fullReset_eq]
  split
  · exact h
  · exact h.modBank _

theorem State.modBank_spring (s : State) (f : Bank → Bank) : (s.modBank f).spring = s.spring := rfl

theorem State.resetFrom_spring (s u : State) (ref : Bool) : (s.resetFrom u ref).spring = u.spring := rfl

theorem State.fullReset_spring (s : State) (kind : Nat) (ref : Bool) : (s.fullReset kind ref).spring = (s.resetTaken kind 0 true).spring := by
  have htear : (s.tearHead.resetTaken kind 0 true).spring = (s.resetTaken kind 0 true).spring := by
    have hspring : s.tearHead.spring = s.spring := s.tearHead_keeps_rest.frame .spring (by decide)
    have hdev : s.tearHead.dev = s.dev := s.tearHead_keeps_rest.frame .dev (by decide)
    rw [State.resetTaken, State.resetTaken, State.modSpring_spring, State.modSpring_spring, hspring, hdev]
  have hlost := ((s.tearHead.lostAfter_rest kind).1).trans htear
  rw [State.fullReset_eq]
  split
  · rw [State.resetFrom_spring, hlost]
  · rw [State.modBank_spring, State.resetFrom_spring, hlost]

end Sys2Proof.Machine

/-! PROOFS. Supplies (R488 to R492): the brown-out warning, its end, and the minimum tracker. -/

namespace Sys2Proof.Machine

theorem bit_setBit (n i : Nat) : bit (setBit n i) i = true := by
  unfold setBit
  split
  case isTrue h => exact h
  case isFalse h =>
    unfold bit at h ⊢
    rw [Nat.add_div_right n (Nat.two_pow_pos i)]
    simp only [beq_iff_eq] at h ⊢
    omega

/-! The warning. -/

/-- A supply marked below its warning level. -/
def State.supWarned (s : State) (i : Fin 10) : State := s.modSup i (fun x => { x with warn := true })

theorem State.supWarned_sup (s : State) (i : Fin 10) : (s.supWarned i).power.sup[i].warn = true :=
  congrArg Supply.warn (upd_at s.power.sup i (fun x => { x with warn := true }))

theorem exec_brownWarnAssert_of_monitored {s : State} {i : Fin 10} (hm : isMonitored i = true) (hd : s.dev.state ≠ .dormant) :
    exec (.brownWarnAssert i) s = .next (if s.dev.held then s.supWarned i else match s.power.brown with
      | .normal => (s.supWarned i).brownBegin i
      | .warn => (s.supWarned i).modPower (fun p => { p with brown := .warn, set := setBit p.set (supBit i) })
      | .resume => (s.supWarned i).modPower (fun p => { p with brown := .warn, set := setBit p.set (supBit i) })) :=
  if_neg (by rw [hm]; simp [hd])

/-- The supplies where an episode begins (R491, R492). -/
def Power.begun (x : Power) (i : Fin 10) (tick now : Nat) : Power :=
  { x with brown := .warn, first := i.val, set := 2 ^ supBit i, time := now, at_ := tick, min := none, warnCnt := bump x.warnCnt, warnSeen := true }

/-- A write of spring retention leaves the warning that waits for its record. -/
theorem State.retWrite_pend (s : State) : s.retWrite.spring.pend = s.spring.pend := by
  unfold State.retWrite
  split
  · rfl
  · rfl

/-- The beginning of an episode up to its write of spring retention. -/
def State.brownNoted (s : State) (i : Fin 10) : State :=
  (((s.modPower (·.begun i s.clk.tick s.clk.shelf)).modSilt (fun x => { x with queue := x.queue.map SRec.hold })).energyCopy.ledgerNeed.modSilt
    (fun x => { x with ledgerWarn := true })).modSpring (fun x => { x with pend := some (2 ^ supBit i, s.clk.shelf) })

theorem State.brownNoted_keeps_rest (s : State) (i : Fin 10) :
    Keeps (maskOf [.silt, .bank, .spring]) (s.modPower (·.begun i s.clk.tick s.clk.shelf)) (s.brownNoted i) :=
  State.modSpring_keeps _ (State.modSilt_keeps _ (State.ledgerNeed_keeps (State.energyCopy_keeps (State.modSilt_keeps _ (Keeps.refl _ _)
    (.ofParts (by decide))) (.ofParts (by decide))) (.ofParts (by decide))) (.ofParts (by decide))) (.ofParts (by decide))

/-- After it the beginning writes the record, the notices and the pins. -/
theorem State.brownBegin_keeps_noted (s : State) (i : Fin 10) :
    Keeps (maskOf [.silt, .spate, .host, .passed, .evq, .fault]) (s.brownNoted i).retWrite (s.brownBegin i) := by
  unfold State.brownBegin
  exact State.faultScan_keeps (State.supplyNotice_keeps 1 (State.headRecord_keeps _ (Keeps.refl _ _) (.ofParts (by decide)))
    (.ofParts (by decide))) (.ofParts (by decide))

theorem State.retWrite_keeps_rest (s : State) : Keeps (maskOf [.spring]) s s.retWrite :=
  State.retWrite_keeps (Keeps.refl _ s) (.ofParts (by decide))

theorem State.brownBegin_rest (s : State) (i : Fin 10) :
    (s.brownBegin i).power = s.power.begun i s.clk.tick s.clk.shelf ∧
      (s.brownBegin i).spring.pend = some (2 ^ supBit i, s.clk.shelf) ∧ (s.brownBegin i).cfg = s.cfg ∧ (s.brownBegin i).mram = s.mram := by
  have hb := s.brownBegin_keeps_noted i
  have hw := (s.brownNoted i).retWrite_keeps_rest
  have hn := s.brownNoted_keeps_rest i
  have hspring : (s.brownBegin i).spring = (s.brownNoted i).retWrite.spring := hb.frame .spring (by decide)
  refine ⟨?power, ?pend, ?cfg, ?mram⟩
  case power =>
    calc (s.brownBegin i).power = (s.brownNoted i).retWrite.power := hb.frame .power (by decide)
      _ = (s.brownNoted i).power := hw.frame .power (by decide)
      _ = s.power.begun i s.clk.tick s.clk.shelf := hn.frame .power (by decide)
  case pend => rw [hspring, State.retWrite_pend, State.brownNoted, State.modSpring_spring]
  case cfg =>
    calc (s.brownBegin i).cfg = (s.brownNoted i).retWrite.cfg := hb.frame .cfg (by decide)
      _ = (s.brownNoted i).cfg := hw.frame .cfg (by decide)
      _ = s.cfg := hn.frame .cfg (by decide)
  case mram =>
    calc (s.brownBegin i).mram = (s.brownNoted i).retWrite.mram := hb.frame .mram (by decide)
      _ = (s.brownNoted i).mram := hw.frame .mram (by decide)
      _ = s.mram := hn.frame .mram (by decide)

/-! Its end. -/

/-- The end of an episode up to its write of spring retention (R491, R492). -/
def State.brownOver (s : State) (us : Nat) : State :=
  (((s.brownRecord us).modSilt (fun x => { x with ledgerWarn := false, heldN := s.evq.length })).modPower
    (fun p => { p with brown := .normal, warnLast := min us 0xFFFFFFFF })).modSpring (fun x => { x with pend := none })

/-- The end of an episode (R491, R492, R507). -/
def State.brownEnded (s : State) (us : Nat) : State := ((s.brownOver us).retWrite.supplyNotice 0).fwOwed.faultScan

theorem exec_brownWarnRelease (s : State) :
    exec .brownWarnRelease s = .next (if s.power.brown ≠ .resume ∨ s.clk.tick < s.power.resumeAt + 25000 then s
      else s.brownEnded ((s.clk.tick - s.power.at_) / 250)) := rfl

theorem State.brownOver_power (s : State) (us : Nat) :
    (s.brownOver us).power = { s.power with brown := .normal, warnLast := min us 0xFFFFFFFF } := rfl

theorem State.brownEnded_rest (s : State) (us : Nat) :
    (s.brownEnded us).power = { s.power with brown := .normal, warnLast := min us 0xFFFFFFFF } ∧ (s.brownEnded us).spring.pend = none := by
  have hk : Keeps (maskOf [.host, .passed, .firm, .mram, .evq, .fault]) (s.brownOver us).retWrite (s.brownEnded us) :=
    State.faultScan_keeps (State.fwOwed_keeps (State.supplyNotice_keeps 0 (Keeps.refl _ _) (.ofParts (by decide))) (.ofParts (by decide)))
      (.ofParts (by decide))
  have hpower : (s.brownEnded us).power = (s.brownOver us).retWrite.power := hk.frame .power (by decide)
  have hspring : (s.brownEnded us).spring = (s.brownOver us).retWrite.spring := hk.frame .spring (by decide)
  have hwrite : (s.brownOver us).retWrite.power = (s.brownOver us).power := (s.brownOver us).retWrite_keeps_rest.frame .power (by decide)
  refine ⟨hpower.trans (hwrite.trans (s.brownOver_power us)), ?_⟩
  rw [hspring, State.retWrite_pend, State.brownOver, State.modSpring_spring]

/-! The minimum tracker. -/

/-- The lower of a reading and the lowest before it. -/
def lowest (m : Int) : Option Int → Int
  | none => m
  | some a => min a m

/-- What the minimum tracker makes of a supply (R489). -/
def Supply.tracked (v : Vector Int 10) (i : Fin 10) (x : Supply) : Supply :=
  if isMonitored i then { x with min := some (lowest (floorDiv v[i] 10 * 10) x.min) } else x

theorem upd_id {α : Type} {n : Nat} {v : Vector α n} {i : Fin n} {f : α → α} (h : f v[i] = v[i]) : upd v i f = v :=
  (congrArg (fun x => v.set i.val x i.isLt) h).trans (Vector.set_getElem_self i.isLt)

theorem State.minSample_sup (s : State) (v : Vector Int 10) (i : Fin 10) :
    (s.minSample v i).power.sup = upd s.power.sup i (Supply.tracked v i) := by
  unfold State.minSample
  split
  case isTrue h => exact (upd_id (if_neg (Bool.eq_false_iff.1 h))).symm
  case isFalse h =>
    have htracked : Supply.tracked v i s.power.sup[i] = { s.power.sup[i] with min := some (lowest (floorDiv v[i] 10 * 10) s.power.sup[i].min) } :=
      if_pos (Bool.not_eq_false _ ▸ h)
    extract_lets m low s1
    have hlow : low s.power.sup[i].min = some (lowest m s.power.sup[i].min) := by
      show (match s.power.sup[i].min with | none => some m | some a => some (min a m)) = _
      cases s.power.sup[i].min with
      | none => rfl
      | some a => rfl
    have hs1 : s1.power.sup = upd s.power.sup i (Supply.tracked v i) := by
      show s.power.sup.set i.val { s.power.sup[i] with min := low s.power.sup[i].min } i.isLt = s.power.sup.set i.val _ i.isLt
      rw [hlow, ← htracked]
      rfl
    split
    · exact hs1
    · exact hs1

/-- One sample of every supply (R489). -/
def State.minSamples (s : State) (v : Vector Int 10) : State := (fins 10).foldl (fun (t : State) (i : Fin 10) => t.minSample v i) s

theorem State.minSamples_sup (s : State) (v : Vector Int 10) (i : Fin 10) :
    (s.minSamples v).power.sup[i] = Supply.tracked v i s.power.sup[i] := by
  have h := foldl_upd_of_state (f := fun t j => t.minSample v j) (sel := fun t => t.power.sup) (fun t j => t.minSample_sup v j) s i
  rw [State.minSamples]
  exact h

/-- The stems' core supplies in the same sample (R443). -/
def State.stemSupplies (s : State) (v : Vector Int 10) : State := (fins 2).foldl (fun (t : State) (k : Fin 2) => t.stemSupply v k) s

theorem State.stemSupplies_power (s : State) (v : Vector Int 10) : (s.stemSupplies v).power = s.power := by
  have hk : Keeps (maskOf [.stems]) s (s.stemSupplies v) :=
    Keeps.foldl _ (Keeps.refl _ s) fun u k hu => State.stemSupply_keeps v k hu (.ofParts (by decide))
  exact hk.frame .power (by decide)

theorem exec_supplyMinSample_of_on {s : State} (v : Vector Int 10) (h : s.dev.held = false) :
    exec (.supplyMinSample v) s = .next ((s.minSamples v).stemSupplies v) :=
  congrArg Host.Outcome.next (if_neg (Bool.eq_false_iff.1 h))

end Sys2Proof.Machine

/-! PROOFS. What a supply or nRST does beyond a reset (R84, R443, R473, R488): the phase dies without their core supply, a stem without its
own, the thermal latches that a long nRST clears, and the ledger written for them. -/

namespace Sys2Proof.Machine

/-! The phase dies and their core supply. -/

theorem State.dieForget_ph_other (s : State) {d : Fin 4} {p : Fin 48} (hp : dieOf p ≠ d) : (s.dieForget d).ph[p] = s.ph[p] :=
  foldl_ph_of_not_mem (fun u q => u.modPh_othersKept q _) (mt mem_phasesOfDie.1 hp) s

/-- A die that goes down has its phases low; the other phases stay (R82). -/
theorem State.dieDown_ph (s : State) (d : Fin 4) :
    (∀ p : Fin 48, dieOf p = d → (s.dieDown d).ph[p].pl.pwmh = false ∧ (s.dieDown d).ph[p].pl.pwml = false) ∧
      ∀ p : Fin 48, dieOf p ≠ d → (s.dieDown d).ph[p] = s.ph[p] := by
  obtain ⟨hsilent, hothers⟩ := s.dieClear_ph d
  refine ⟨fun p hp => ?_, fun p hp => ?_⟩
  · refine State.dieForget_low (fun q hq => ?_) p hp
    obtain ⟨hh, hl, -, -⟩ := hsilent q hq
    exact ⟨hh, hl⟩
  · exact ((s.dieClear d).dieForget_ph_other hp).trans (hothers p hp)

/-- A die that goes down changes no other die. -/
theorem State.dieDown_die_other (s : State) {d e : Fin 4} (h : e ≠ d) : (s.dieDown d).die[e] = s.die[e] := by
  have hforget : ((s.dieClear d).dieForget d).die = (s.dieClear d).die :=
    (State.dieForget_keeps d (Keeps.refl (maskOf [.ph]) _) (.ofParts (by decide))).frame .die (by decide)
  calc (s.dieDown d).die[e] = ((s.dieClear d).dieForget d).die[e] := upd_ne _ _ h
    _ = (upd s.die d Die.cleared)[e] := by rw [hforget, s.dieClear_die d]
    _ = s.die[e] := upd_ne _ _ h

theorem State.dieDown_die_state (s : State) (d : Fin 4) : (s.dieDown d).die[d].state = .safe :=
  congrArg Die.state (State.modDie_die_same _ d _)

/-- A die goes down with its core supply (R84). -/
def State.supplyDrop (s : State) (d : Fin 4) : State := (s.dieDown d).modDie d (fun x => { x with supplyLow := true })

/-- A die without its core supply, in SAFE with its outputs low. -/
structure State.Unpowered (s : State) (d : Fin 4) : Prop where
  safe : s.die[d].state = .safe
  supplyLow : s.die[d].supplyLow = true
  low : ∀ p : Fin 48, dieOf p = d → s.ph[p].pl.pwmh = false ∧ s.ph[p].pl.pwml = false

theorem State.supplyDrop_own (s : State) (d : Fin 4) : (s.supplyDrop d).Unpowered d := by
  have hdie : (s.supplyDrop d).die[d] = { (s.dieDown d).die[d] with supplyLow := true } := State.modDie_die_same _ d _
  exact ⟨(congrArg Die.state hdie).trans (s.dieDown_die_state d), congrArg Die.supplyLow hdie, (s.dieDown_ph d).1⟩

theorem State.supplyDrop_other (s : State) (d e : Fin 4) (h : d ≠ e) (hd : s.Unpowered d) : (s.supplyDrop e).Unpowered d := by
  have hdie : (s.supplyDrop e).die[d] = s.die[d] := (upd_ne _ _ h).trans (s.dieDown_die_other h)
  refine ⟨(congrArg Die.state hdie).trans hd.safe, (congrArg Die.supplyLow hdie).trans hd.supplyLow, fun p hp => ?_⟩
  have hph : (s.supplyDrop e).ph[p] = s.ph[p] := (s.dieDown_ph e).2 p (hp ▸ h)
  rw [hph]
  exact hd.low p hp

/-- Every phase die without its core supply. -/
def State.supplyDrops (s : State) : State := (fins 4).foldl State.supplyDrop s

theorem State.supplyDrops_unpowered (s : State) (d : Fin 4) : s.supplyDrops.Unpowered d :=
  foldl_establishes (Q := fun d s => s.Unpowered d) State.supplyDrop_own State.supplyDrop_other (List.mem_finRange d) s

theorem State.supplyDrops_keeps_rest (s : State) : Keeps (maskOf [.die, .ph, .lag]) s s.supplyDrops :=
  Keeps.foldl _ (Keeps.refl _ s) fun _ d hu =>
    State.modDie_keeps d _ (State.dieDown_keeps d hu (.ofParts (by decide))) (.ofParts (by decide)) fun _ h => h

theorem State.Unpowered.of_same {s t : State} {d : Fin 4} (h : s.Unpowered d) (hdie : t.die = s.die) (hph : t.ph = s.ph) : t.Unpowered d := by
  refine ⟨?_, ?_, fun p hp => ?_⟩
  · rw [hdie]; exact h.safe
  · rw [hdie]; exact h.supplyLow
  · rw [hph]; exact h.low p hp

theorem exec_vcorePLow (s : State) :
    ∃ t, exec .vcorePLow s = .next t ∧ t.spring = s.spring ∧ t.stems = s.stems ∧ ∀ d : Fin 4, t.Unpowered d := by
  have hscan := s.supplyDrops.faultScan_keeps_rest
  have hk : Keeps (maskOf [.die, .ph, .lag, .evq, .fault]) s s.supplyDrops.faultScan :=
    State.faultScan_keeps (s.supplyDrops_keeps_rest.mono (.ofParts (by decide))) (.ofParts (by decide))
  exact ⟨_, rfl, hk.frame .spring (by decide), hk.frame .stems (by decide), fun d =>
    (s.supplyDrops_unpowered d).of_same (hscan.frame .die (by decide)) (hscan.frame .ph (by decide))⟩

/-- What the record of a SAFE entry for the core supply makes of a die (R84, R90). -/
def Die.lowReported (x : Die) : Die :=
  if x.lowRan ∧ x.supplyLow = false then { x with lowRan := false, reports := x.reports ++ [.safeEntry 4] } else x

/-- What the return of the core supply makes of a die (R84). -/
def Die.recovered (x : Die) : Die := if x.supplyLow = false then x else ({ x with supplyLow := false } : Die).lowReported

theorem Die.lowReported_kept (x : Die) : x.lowReported.state = x.state ∧ x.lowReported.supplyLow = x.supplyLow := by
  unfold Die.lowReported
  split
  · exact ⟨rfl, rfl⟩
  · exact ⟨rfl, rfl⟩

theorem Die.recovered_rest (x : Die) : x.recovered.supplyLow = false ∧ x.recovered.state = x.state := by
  unfold Die.recovered
  split
  case isTrue h => exact ⟨h, rfl⟩
  case isFalse =>
    obtain ⟨hstate, hlow⟩ := Die.lowReported_kept { x with supplyLow := false }
    exact ⟨hlow, hstate⟩

theorem upd_upd {α : Type} {n : Nat} (v : Vector α n) (i : Fin n) (f g : α → α) : upd (upd v i f) i g = upd v i (fun x => g (f x)) := by
  unfold upd
  rw [Vector.set_set, Vector.getElem_set_self]

theorem State.lowRecord_die (s : State) (d : Fin 4) : (s.lowRecord d).die = upd s.die d Die.lowReported := by
  unfold State.lowRecord
  split
  case isTrue h => exact congrArg (fun x => s.die.set d.val x d.isLt) (if_pos h).symm
  case isFalse h => exact (upd_id (f := Die.lowReported) (if_neg h)).symm

theorem State.dieRecover_die (s : State) (d : Fin 4) : (s.dieRecover d).die = upd s.die d Die.recovered := by
  unfold State.dieRecover
  split
  case isTrue h => exact (upd_id (f := Die.recovered) (if_pos h)).symm
  case isFalse h =>
    rw [State.lowRecord_die, State.modDie_die]
    refine (upd_upd s.die d _ _).trans (congrArg (fun x => s.die.set d.val x d.isLt) ?_)
    exact (if_neg h).symm

/-- Every phase die with its core supply back. -/
def State.dieRecovers (s : State) : State := (fins 4).foldl State.dieRecover s

theorem exec_vcorePRecover (s : State) : exec .vcorePRecover s = .next s.dieRecovers := rfl

theorem State.dieRecovers_die (s : State) (d : Fin 4) : s.dieRecovers.die[d] = s.die[d].recovered :=
  foldl_upd_of_state (f := State.dieRecover) (sel := State.die) (g := fun _ => Die.recovered) State.dieRecover_die s d

/-! A stem without its core supply. -/

/-- The stems where stem `k` has failed with a fault of its own (R443). -/
def Stems.faulted (x : Stems) (k : Fin 2) (kind tick : Nat) : Stems :=
  { x with
    doubt := none, selfFault := true, lastFault := kind
    stem := upd x.stem k (fun y => { y with failAt := some tick, st := .failed }) }

/-- A stem that restarts alone is FAILED, and no other stem changes (R443, R493). -/
theorem State.stemRestart_stems (s : State) (k : Fin 2) (watchdog : Bool) :
    (s.stemRestart k watchdog).stems = { s.stems with stem := upd s.stems.stem k (fun x => { x with st := .failed }) } := rfl

/-- A fault of the standby stem restarts it alone (R443, R447). -/
theorem State.stemFail_standby_stems {s : State} {k : Fin 2} (h : s.stemSt k = .standby) (kind : Nat) (loop : Fin 16) :
    (s.stemFail k 1 kind loop).stems = s.stems.faulted k kind s.clk.tick := by
  unfold State.stemFail
  extract_lets st s0 record
  have hst : st = .standby := h
  have hs0 : s0.stems = { s.stems with
      doubt := none, selfFault := true, lastFault := kind, stem := upd s.stems.stem k (fun x => { x with failAt := some s.clk.tick }) } := by
    show ({ s.stems with
      doubt := none, selfFault := s.stems.selfFault || true, lastFault := kind
      stem := upd s.stems.stem k (fun x => { x with failAt := some s.clk.tick }) } : Stems) = _
    rw [Bool.or_true]
  have hrecord : (record s0 false).stems = s0.stems := rfl
  rw [hst]
  dsimp only
  rw [State.stemNotice_stems, State.stemRestart_stems, hrecord, hs0]
  unfold Stems.faulted
  rw [upd_upd]

/-- A stem with its core supply at the reset level (R488). -/
def State.stemLow (s : State) (k : Fin 2) : State := s.modStem k (fun x => { x with low := true })

theorem State.stemLow_other (s : State) (k : Fin 2) : (s.stemLow k).stems.stem[1 - k] = s.stems.stem[1 - k] := s.modStem_stem_other k _

theorem exec_stemSupplyLow_of_alone {s : State} {k : Fin 2} (hd : s.dev.held = false) (ho : s.stems.stem[1 - k].low = false) :
    exec (.stemSupplyLow k) s = .next ((s.stemLow k).stemFail k 1 8 0).faultScan := by
  have hlow : (s.stemLow k).stems.stem[1 - k].low = false := (congrArg Stem.low (s.stemLow_other k)).trans ho
  exact congrArg Host.Outcome.next ((if_neg (Bool.eq_false_iff.1 hd)).trans (if_neg (Bool.eq_false_iff.1 hlow)))

/-- The index of a stem's core supply (R488). -/
def stemSup (k : Fin 2) : Fin 10 := ⟨k.val, by omega⟩

theorem exec_stemSupplyLow_of_both {s : State} {k : Fin 2} (hd : s.dev.held = false) (ho : s.stems.stem[1 - k].low = true) :
    exec (.stemSupplyLow k) s = .next ((s.stemLow k).brownReset (stemSup k)) := by
  have hlow : (s.stemLow k).stems.stem[1 - k].low = true := (congrArg Stem.low (s.stemLow_other k)).trans ho
  exact congrArg Host.Outcome.next ((if_neg (Bool.eq_false_iff.1 hd)).trans (if_pos hlow))

/-! The resets of a supply at its reset level. -/

/-- The state a brown-out resets: the phase dies down first where it is their analogue supply (R82, R84). -/
def State.brownFrom (s : State) (i : Fin 10) : State := if i.val = 7 then (fins 4).foldl State.dieDown s else s

theorem State.brownReset_eq (s : State) (i : Fin 10) :
    s.brownReset i = ((s.brownFrom i).fullReset 5 false).modSpring (fun x => { x with resetSup := some (i.val, s.power.set) }) := rfl

theorem State.brownFrom_keeps_rest (s : State) (i : Fin 10) : Keeps (maskOf [.die, .ph, .lag]) s (s.brownFrom i) :=
  Keeps.ite (Keeps.foldl _ (Keeps.refl _ s) fun _ d hu => State.dieDown_keeps d hu (.ofParts (by decide))) (Keeps.refl _ s)

/-- A reset of a state that has the stores, the writer and the thermal states of another resets that. -/
theorem State.IsReset.of_rest {s u t : State} {ref : Bool} (h : u.IsReset t ref) (hsilt : u.silt = s.silt) (hmram : u.mram = s.mram)
    (htherm : u.therm = s.therm) : s.IsReset t ref := by
  refine { h with therm := ?_, gen := ?_, copyB := ?_, slots := ?_ }
  · rw [← htherm]; exact h.therm
  · rw [← hsilt]; exact h.gen
  · rw [← hsilt]; exact h.copyB
  · unfold SlotsKept
    rw [← hsilt, ← hmram]
    exact h.slots

/-- Spring retention leaves a reset one. -/
theorem State.IsReset.modSpring {s t : State} {ref : Bool} (h : s.IsReset t ref) (f : Spring → Spring) : s.IsReset (t.modSpring f) ref :=
  ⟨h.stopped, h.held, h.boot, h.dlRef, h.off, h.therm, h.gen, h.copyB, h.slots⟩

theorem State.brownReset_isReset (s : State) (i : Fin 10) : s.IsReset (s.brownReset i) false := by
  have hk := s.brownFrom_keeps_rest i
  rw [State.brownReset_eq]
  exact (((s.brownFrom i).fullReset_isReset 5 false).of_rest (hk.frame .silt (by decide)) (hk.frame .mram (by decide))
    (hk.frame .therm (by decide))).modSpring _

theorem State.brownReset_spring (s : State) (i : Fin 10) :
    (s.brownReset i).spring.kind = 5 ∧ (s.brownReset i).spring.resetSup = some (i.val, s.power.set) := by
  rw [State.brownReset_eq, State.modSpring_spring, State.fullReset_spring]
  exact ⟨rfl, rfl⟩

/-- A wake as the reset it is (R493, R500). -/
theorem State.wake_isReset (s : State) (cause : Nat) : s.IsReset (s.wake cause) false :=
  (State.fullReset_isReset _ 3 false).of_rest rfl rfl rfl

theorem State.wake_spring (s : State) (cause : Nat) :
    (s.wake cause).spring.kind = 3 ∧ (s.wake cause).spring.wakeCause = cause ∧ (s.wake cause).spring.mainEn = true ∧
      (s.wake cause).spring.wakeLatch = none := by
  rw [State.wake, State.fullReset_spring]
  exact ⟨rfl, rfl, rfl, rfl⟩

/-! A long nRST and the thermal latches. -/

/-- A thermal latch cleared (R473). -/
def ThDie.unlatched (x : ThDie) : ThDie := if x.st = .latched then { x with st := .shutdown } else x

theorem ThDie.unlatched_st (x : ThDie) : x.unlatched.st = if x.st = .latched then .shutdown else x.st := by
  unfold ThDie.unlatched
  split
  · rfl
  · rfl

theorem State.latchClear_die (s : State) (d : Fin 8) : (s.latchClear d).therm.die = upd s.therm.die d ThDie.unlatched := by
  unfold State.latchClear
  split
  case isTrue h => exact congrArg (fun x => s.therm.die.set d.val x d.isLt) (if_pos h).symm
  case isFalse h => exact (upd_id (f := ThDie.unlatched) (if_neg h)).symm

/-- Every latch cleared (R473). -/
def State.latchesClear (s : State) : State := (fins 8).foldl State.latchClear s

theorem State.latchesClear_die (s : State) (d : Fin 8) : s.latchesClear.therm.die[d] = s.therm.die[d].unlatched := by
  have h := foldl_upd_of_state (f := State.latchClear) (sel := fun t => t.therm.die) (g := fun _ => ThDie.unlatched) State.latchClear_die s d
  rw [State.latchesClear]
  exact h

/-- The writer's ledger in force is the same. -/
def SameLedger (s t : State) : Prop := t.silt.gen = s.silt.gen ∧ t.silt.copyB = s.silt.copyB

theorem State.latchClear_ledger (s : State) (d : Fin 8) : SameLedger s (s.latchClear d) := by
  unfold State.latchClear
  split
  · exact ⟨rfl, rfl⟩
  · exact ⟨rfl, rfl⟩

theorem State.latchesClear_ledger (s : State) : SameLedger s s.latchesClear := by
  have hfold : ∀ (ds : List (Fin 8)) (t : State), SameLedger s t → SameLedger s (ds.foldl State.latchClear t) := by
    intro ds
    induction ds with
    | nil => exact fun t ht => ht
    | cons d ds ih =>
      intro t ht
      obtain ⟨hgen, hcopy⟩ := ht
      obtain ⟨hg, hc⟩ := t.latchClear_ledger d
      exact ih _ ⟨hg.trans hgen, hc.trans hcopy⟩
  exact hfold _ s ⟨rfl, rfl⟩

/-- The latches leave the dies' states, the clock and the store. -/
theorem State.latchesClear_keeps_rest (s : State) : Keeps (maskOf [.therm, .silt, .evq]) s s.latchesClear :=
  Keeps.foldl _ (Keeps.refl _ s) fun _ d hu => State.latchClear_keeps d hu (.ofParts (by decide))

/-- The ledger copies lie below the records. -/
theorem ledgerAddr_below (b : Bool) : ledgerAddr b + 4096 ≤ 0xC00000 := by
  cases b <;> decide

/-- The first word of a ledger copy is its generation (R341). -/
theorem State.ledgerBytes_gen (s : State) {gen : Nat} (h : gen < 2 ^ 32) : leAt (s.ledgerBytes gen) 0 4 = gen := by
  have hhead : ∃ rest : List Byte, s.ledgerBytes gen = leBytes 4 gen ++ rest := by
    unfold State.ledgerBytes
    extract_lets c head b
    simp only [b, head, List.append_assoc]
    exact ⟨_, rfl⟩
  obtain ⟨rest, hrest⟩ := hhead
  rw [leAt, hrest, List.drop_zero, List.take_left' (leBytes_length 4 gen), leNat_leBytes 4 gen h]

/-- A ledger write: the other copy in force with the next generation, which it spells, and no byte of the records (R342). -/
theorem State.ledgerWrite_rest (s : State) :
    s.ledgerWrite.silt.copyB = !s.silt.copyB ∧ s.ledgerWrite.silt.gen = (s.silt.gen + 1) % 2 ^ 32 ∧
      leAt (s.ledgerWrite.load (ledgerAddr s.ledgerWrite.silt.copyB) 4096) 0 4 = s.ledgerWrite.silt.gen ∧
      ∀ a : Nat, 0xC00000 ≤ a → mramByte s.ledgerWrite.mram a = mramByte s.mram a := by
  have hmram : s.ledgerWrite.mram = mramPut s.mram (ledgerAddr (!s.silt.copyB)) (s.ledgerBytes ((s.silt.gen + 1) % 2 ^ 32)) := by
    simp only [State.ledgerWrite, State.modSilt_rest, State.store_mram]
  have hcopy : s.ledgerWrite.silt.copyB = !s.silt.copyB := rfl
  have hgen : s.ledgerWrite.silt.gen = (s.silt.gen + 1) % 2 ^ 32 := rfl
  obtain ⟨hread, -⟩ := s.ledgerWrite_read _ s.mram s.ledgerWrite _ hmram
  refine ⟨hcopy, hgen, ?_, fun a ha => ?_⟩
  · rw [hcopy, hread, s.ledgerBytes_gen (Nat.mod_lt _ (by decide)), hgen]
  · have hbelow := ledgerAddr_below (!s.silt.copyB)
    rw [hmram]
    exact mramByte_put_out _ _ (by rw [s.ledgerBytes_length]; omega)

/-- Some die stands LATCHED. -/
def State.anyLatched (s : State) : Bool := (fins 8).any (fun (d : Fin 8) => s.therm.die[d].st == .latched)

theorem State.anyLatched_iff (s : State) : s.anyLatched = true ↔ ∃ d : Fin 8, s.therm.die[d].st = .latched := by
  rw [State.anyLatched, List.any_eq_true]
  constructor
  · rintro ⟨d, -, hd⟩
    exact ⟨d, beq_iff_eq.1 hd⟩
  · rintro ⟨d, hd⟩
    exact ⟨d, List.mem_finRange d, beq_iff_eq.2 hd⟩

/-- The reset of nRST, which DL_REF does not take part in (R493, R494). -/
def State.nrstReset (s : State) : State := s.fullReset 4 s.clk.dlRef

theorem exec_nrst_of_awake {s : State} (hd : s.dev.state ≠ .dormant) (long : Bool) :
    exec (.nrst long) s = .next (if long ∧ s.nrstReset.anyLatched then s.nrstReset.latchesClear.ledgerWrite else s.nrstReset) :=
  congrArg Host.Outcome.next (if_neg hd)

theorem State.nrstReset_anyLatched (s : State) : s.nrstReset.anyLatched = true ↔ ∃ d : Fin 8, s.therm.die[d].st = .latched := by
  rw [State.anyLatched_iff]
  exact exists_congr fun d => by rw [State.nrstReset, (s.fullReset_isReset 4 s.clk.dlRef).therm d]

end Sys2Proof.Machine

/-! PROOFS. Supplies and resets (R84, R443, R473, R488 to R500, R511): each command by its reset, its episode or its die. -/

namespace Sys2Proof.Machine

theorem brownOut_resets {s : State} {i : Fin 10} (hi : i.val = 2 ∨ i.val = 5 ∨ i.val = 6 ∨ i.val = 7) (hd : s.dev.state ≠ .dormant) :
    exec (.brownOut i) s = .next (s.brownReset i) := congrArg Host.Outcome.next (if_pos (⟨hi, hd⟩ : _ ∧ _))

/-- The cold reset with the always-on domain at its reset values too (R493, R494). -/
def State.coldReset (s : State) : State :=
  { s.fullReset 1 false with spring := Spring.reset, power := Power.reset, tb := State.reset.tb, clk := { s.clk with dlRef := false } }

theorem State.IsReset.cold {s u t : State} (h : s.IsReset u false) (ht : t = { u with
    spring := Spring.reset, power := Power.reset, tb := State.reset.tb, clk := { s.clk with dlRef := false } }) : s.IsReset t false := by
  subst ht
  exact ⟨h.stopped, h.held, h.boot, rfl, h.off, h.therm, h.gen, h.copyB, h.slots⟩

theorem State.coldReset_isReset (s : State) : s.IsReset s.coldReset false := (s.fullReset_isReset 1 false).cold rfl

/-- An enabled wake event in Dormant goes past the two conditions that stop one (R500). -/
theorem exec_dormantWake_of_enabled {s : State} {c : Nat} (hd : s.dev.state = .dormant) (hw : s.wakeOn c = true) (early : Bool) :
    exec (.dormantWake c early) s = .next (if early then s.modSpring (fun x => { x with wakeLatch := some c }) else s.wake c) :=
  congrArg Host.Outcome.next (if_neg (by rw [hw]; simp [hd]))

theorem exec_dormantWake_of_late {s : State} {c : Nat} (hd : s.dev.state = .dormant) (hw : s.wakeOn c = true) :
    exec (.dormantWake c false) s = .next (s.wake c) := by
  rw [exec_dormantWake_of_enabled hd hw, if_neg Bool.false_ne_true]

theorem exec_dormantWake_of_early {s : State} {c : Nat} (hd : s.dev.state = .dormant) (hw : s.wakeOn c = true) :
    exec (.dormantWake c true) s = .next (s.modSpring (fun x => { x with wakeLatch := some c })) := by
  rw [exec_dormantWake_of_enabled hd hw, if_pos rfl]

theorem exec_latchedWakeMainEnHigh_of_latched {s : State} {c : Nat} (hd : s.dev.state = .dormant) (hc : s.spring.wakeLatch = some c) :
    exec .latchedWakeMainEnHigh s = .next (s.wake c) := by
  show execLatchedWakeMainEnHigh s = _
  rw [execLatchedWakeMainEnHigh, hc]
  exact congrArg Host.Outcome.next (if_pos hd)

theorem State.nrstReset_isReset (s : State) : s.IsReset s.nrstReset s.clk.dlRef := s.fullReset_isReset 4 s.clk.dlRef

theorem State.nrstReset_kind (s : State) : s.nrstReset.spring.kind = 4 := by
  rw [State.nrstReset, State.fullReset_spring]
  rfl

/-- The latches cleared and the ledger written leave the retention, the clock, the stems and the hold. -/
theorem State.latchesClear_written (s : State) : Keeps (maskOf [.therm, .silt, .evq, .mram]) s s.latchesClear.ledgerWrite :=
  State.ledgerWrite_keeps (s.latchesClear_keeps_rest.mono (Within.ofParts (by decide))) (.ofParts (by decide))

theorem State.ledgerWrite_therm (s : State) : s.ledgerWrite.therm = s.therm :=
  (State.ledgerWrite_keeps (Keeps.refl (maskOf [.silt, .mram]) s) (.ofParts (by decide))).frame .therm (by decide)

/-- A reset by nRST, with the latches cleared or not. -/
theorem nrst_resets {s : State} (hd : s.dev.state ≠ .dormant) (long : Bool) :
    ∃ t, exec (.nrst long) s = .next t ∧ t.spring.kind = 4 ∧ t.clk.dlRef = s.clk.dlRef ∧ t.hasActive = false ∧ t.dev.held = true ∧
      ∀ d : Fin 8, t.therm.die[d].st = (if long = true ∧ s.therm.die[d].st = .latched then .shutdown else s.therm.die[d].st) := by
  have h := s.nrstReset_isReset
  refine ⟨_, exec_nrst_of_awake hd long, ?_⟩
  by_cases hc : long = true ∧ s.nrstReset.anyLatched = true
  · have hk := s.nrstReset.latchesClear_written
    have hspring : s.nrstReset.latchesClear.ledgerWrite.spring = s.nrstReset.spring := hk.frame .spring (by decide)
    have hclk : s.nrstReset.latchesClear.ledgerWrite.clk = s.nrstReset.clk := hk.frame .clk (by decide)
    have hdev : s.nrstReset.latchesClear.ledgerWrite.dev = s.nrstReset.dev := hk.frame .dev (by decide)
    have hstems : s.nrstReset.latchesClear.ledgerWrite.stems = s.nrstReset.stems := hk.frame .stems (by decide)
    rw [if_pos hc, hspring, hclk, hdev]
    refine ⟨s.nrstReset_kind, h.dlRef, ?_, h.held, fun d => ?_⟩
    · rw [State.hasActive, hstems]
      exact h.stopped
    · rw [State.ledgerWrite_therm, State.latchesClear_die, ThDie.unlatched_st, h.therm d]
      simp [hc.1]
  · rw [if_neg hc]
    refine ⟨s.nrstReset_kind, h.dlRef, h.stopped, h.held, fun d => ?_⟩
    have hnot : ¬ (long = true ∧ s.therm.die[d].st = .latched) := fun hd => hc ⟨hd.1, s.nrstReset_anyLatched.2 ⟨d, hd.2⟩⟩
    rw [if_neg hnot, h.therm d]

/-- A long reset by nRST with a die LATCHED writes the ledger (R342, R474). -/
theorem nrst_writes_ledger {s : State} {d : Fin 8} (hd : s.dev.state ≠ .dormant) (hl : s.therm.die[d].st = .latched) :
    ∃ t, exec (.nrst true) s = .next t ∧ t.silt.copyB = !s.silt.copyB ∧ t.silt.gen = (s.silt.gen + 1) % 2 ^ 32 ∧
      leAt (t.load (ledgerAddr t.silt.copyB) 4096) 0 4 = t.silt.gen ∧
      ∀ a : Nat, 0xC00000 ≤ a →
        (∀ r ∈ s.silt.queue.head?, ¬ (0xC00000 + 32 * (r.seq % 786432) ≤ a ∧ a < 0xC00000 + 32 * (r.seq % 786432) + 32)) →
        mramByte t.mram a = mramByte s.mram a := by
  have h := s.nrstReset_isReset
  obtain ⟨hgen, hcopy⟩ := s.nrstReset.latchesClear_ledger
  obtain ⟨hcopyW, hgenW, hread, hbytes⟩ := s.nrstReset.latchesClear.ledgerWrite_rest
  have hmram : s.nrstReset.latchesClear.mram = s.nrstReset.mram := s.nrstReset.latchesClear_keeps_rest.frame .mram (by decide)
  refine ⟨_, (exec_nrst_of_awake hd true).trans (congrArg Host.Outcome.next
    (if_pos (⟨rfl, s.nrstReset_anyLatched.2 ⟨d, hl⟩⟩ : _ ∧ _))), ?_, ?_, hread, fun a ha hout => ?_⟩
  · rw [hcopyW, hcopy, h.copyB]
  · rw [hgenW, hgen, h.gen]
  · rw [hbytes a ha, hmram]
    exact h.slots a hout

/-- Settles O53: the resets by `State.IsReset`, an episode by `State.brownBegin_rest` and `State.brownEnded_rest`. -/
theorem suppliesAndResets : Obligations.SuppliesAndResets := by
  unfold Obligations.SuppliesAndResets
  refine ⟨?warnBegins, ?warnJoins, ?warnHeld, ?resumes, ?notYet, ?released, ?notResuming, ?brownOut, ?otherSupply, ?coldPor, ?mainPor, ?nrst,
    ?nrstLedgerKept, ?nrstLedgerWritten, ?wake, ?wakeEarly, ?wakeNone, ?latchedWake, ?wakeTimeout, ?stemAlone, ?stemBoth, ?coreLow,
    ?coreBack, ?minSample, ?vbat⟩
  case warnBegins =>
    intro s i hm hd hheld hbrown
    obtain ⟨hpower, hpend, hcfg, hmram⟩ := (s.supWarned i).brownBegin_rest i
    refine ⟨(s.supWarned i).brownBegin i, ?_, ?_⟩
    · rw [exec_brownWarnAssert_of_monitored hm hd, if_neg (Bool.eq_false_iff.1 hheld), hbrown]
    · rw [hpower, hpend, hcfg, hmram]
      exact ⟨rfl, rfl, rfl, rfl, rfl, s.supWarned_sup i, rfl, rfl, rfl, rfl⟩
  case warnJoins =>
    intro s i hm hd hheld hbrown
    refine ⟨(s.supWarned i).modPower (fun p => { p with brown := .warn, set := setBit p.set (supBit i) }), ?_, rfl, rfl, bit_setBit _ _, rfl⟩
    rw [exec_brownWarnAssert_of_monitored hm hd, if_neg (Bool.eq_false_iff.1 hheld)]
    cases hb : s.power.brown with
    | normal => exact absurd hb hbrown
    | warn => rfl
    | resume => rfl
  case warnHeld =>
    intro s i hm hd hheld
    refine ⟨s.supWarned i, ?_, rfl, s.supWarned_sup i, rfl⟩
    rw [exec_brownWarnAssert_of_monitored hm hd, if_pos hheld]
  case resumes =>
    intro s hbrown
    refine ⟨_, rfl, if_pos hbrown, fun i => ?_⟩
    exact congrArg Supply.warn (Vector.getElem_map _ i.isLt)
  case notYet => exact fun s hbrown hearly => ⟨s, (exec_brownWarnRelease s).trans (congrArg Host.Outcome.next (if_pos (.inr hearly))), rfl⟩
  case released =>
    intro s hbrown hlate
    obtain ⟨hpower, hpend⟩ := s.brownEnded_rest ((s.clk.tick - s.power.at_) / 250)
    refine ⟨_, (exec_brownWarnRelease s).trans (congrArg Host.Outcome.next (if_neg ?_)), ?_⟩
    · exact not_or.2 ⟨not_not.2 hbrown, Nat.not_lt.2 hlate⟩
    · rw [hpower]
      exact ⟨rfl, hpend, rfl⟩
  case notResuming => exact fun s hbrown => ⟨s, (exec_brownWarnRelease s).trans (congrArg Host.Outcome.next (if_pos (.inl hbrown))), rfl⟩
  case brownOut =>
    intro s i hi hd
    have h := s.brownReset_isReset i
    obtain ⟨hkind, hsup⟩ := s.brownReset_spring i
    exact ⟨_, brownOut_resets hi hd, hkind, hsup, h.stopped, h.held, h.dlRef, h.off, h.slots⟩
  case otherSupply =>
    intro s i h2 h5 h6 h7
    refine ⟨s, congrArg Host.Outcome.next (if_neg fun h => ?_), rfl⟩
    obtain ⟨h | h | h | h, -⟩ := h
    · exact h2 h
    · exact h5 h
    · exact h6 h
    · exact h7 h
  case coldPor =>
    intro s
    have h := s.coldReset_isReset
    exact ⟨s.coldReset, rfl, rfl, rfl, rfl, h.dlRef, h.stopped, h.held, h.slots⟩
  case mainPor =>
    intro s hd
    have h := s.fullReset_isReset 2 false
    refine ⟨s.fullReset 2 false, congrArg Host.Outcome.next (if_neg hd), ?_⟩
    rw [State.fullReset_spring]
    exact ⟨rfl, h.dlRef, h.stopped, h.held, rfl, h.slots⟩
  case nrst => exact fun s long hd => nrst_resets hd long
  case nrstLedgerKept =>
    intro s long hd hnone
    have h := s.nrstReset_isReset
    have hnot : ¬ (long = true ∧ s.nrstReset.anyLatched = true) := by
      rintro ⟨hlong, hany⟩
      obtain ⟨d, hl⟩ := s.nrstReset_anyLatched.1 hany
      rcases hnone with hshort | hnone
      · rw [hlong] at hshort
        exact Bool.noConfusion hshort
      · exact hnone d hl
    exact ⟨_, (exec_nrst_of_awake hd long).trans (congrArg Host.Outcome.next (if_neg hnot)), h.gen, h.slots⟩
  case nrstLedgerWritten => exact fun s d hd hl => nrst_writes_ledger hd hl
  case wake =>
    intro s c hd hw
    have h := s.wake_isReset c
    obtain ⟨hkind, hcause, hen, hlatch⟩ := s.wake_spring c
    exact ⟨_, exec_dormantWake_of_late hd hw, hkind, hcause, hen, hlatch, h.boot, h.stopped, h.slots⟩
  case wakeEarly => exact fun s c hd hw => ⟨_, exec_dormantWake_of_early hd hw, rfl⟩
  case wakeNone => exact fun s c early hnone => ⟨s, congrArg Host.Outcome.next (if_pos hnone), rfl⟩
  case latchedWake =>
    intro s c hd hc
    have h := s.wake_isReset c
    obtain ⟨hkind, hcause, hen, -⟩ := s.wake_spring c
    exact ⟨_, exec_latchedWakeMainEnHigh_of_latched hd hc, hkind, hcause, hen, h.boot, h.stopped⟩
  case wakeTimeout =>
    exact fun s hheld hd hkind => ⟨_, congrArg Host.Outcome.next (if_pos (⟨hheld, hd, hkind⟩ : _ ∧ _)), rfl, rfl, rfl⟩
  case stemAlone =>
    intro s k hheld hother hstandby hactive
    have hst : (s.stemLow k).stemSt k = .standby := (congrArg Stem.st (s.modStem_stem_same k _)).trans hstandby
    have hstems := (State.faultScan_stems _).trans (State.stemFail_standby_stems hst 8 0)
    refine ⟨_, exec_stemSupplyLow_of_alone hheld hother, ?_⟩
    rw [State.stemSt, hstems]
    have hown : ((s.stemLow k).stems.faulted k 8 (s.stemLow k).clk.tick).stem[k] =
        { (s.stemLow k).stems.stem[k] with failAt := some (s.stemLow k).clk.tick, st := .failed } := upd_at _ _ _
    refine ⟨congrArg Stem.st hown, ?_, ?_, rfl⟩
    · exact (congrArg Stem.low hown).trans (congrArg Stem.low (s.modStem_stem_same k _))
    · exact (upd_ne _ _ (stem_other_ne k)).trans (s.stemLow_other k)
  case stemBoth =>
    intro s k hheld hother
    obtain ⟨hkind, hsup⟩ := (s.stemLow k).brownReset_spring (stemSup k)
    have h := (s.stemLow k).brownReset_isReset (stemSup k)
    exact ⟨_, exec_stemSupplyLow_of_both hheld hother, hkind, hsup, h.stopped⟩
  case coreLow =>
    intro s
    obtain ⟨t, hexec, hspring, hstems, hdown⟩ := exec_vcorePLow s
    exact ⟨t, hexec, hspring, hstems, fun d => ⟨(hdown d).safe, (hdown d).supplyLow⟩, fun p => (hdown (dieOf p)).low p rfl⟩
  case coreBack =>
    intro s
    refine ⟨_, exec_vcorePRecover s, fun d => ?_⟩
    rw [s.dieRecovers_die d]
    exact s.die[d].recovered_rest
  case minSample =>
    intro s v i hheld hm
    refine ⟨_, exec_supplyMinSample_of_on v hheld, ?_⟩
    rw [State.stemSupplies_power, State.minSamples_sup, Supply.tracked, if_pos hm]
    cases s.power.sup[i].min with
    | none => rfl
    | some a => rfl
  case vbat => exact fun s mv => ⟨_, rfl, rfl⟩

end Sys2Proof.Machine

/-! PROOFS. What the operations at one loop leave (R105 to R109, R127, R134, R141): the clock, the log but for what they add, the reports
that wait at the dies, every other loop, and of the loop itself what an operation does not write. -/

namespace Sys2Proof.Machine

/-- Operations at loop `l`, which of that loop leave what `f` reads. -/
structure AtLoop {α : Type} (f : Loop → α) (l : Fin 16) (s t : State) : Prop where
  clk : t.clk = s.clk
  log : s.evq <+: t.evq
  reports : ∀ d : Fin 4, t.die[d].reports = s.die[d].reports
  others : ∀ j : Fin 16, j ≠ l → t.loop[j] = s.loop[j]
  own : f t.loop[l] = f s.loop[l]

section
variable {α : Type} {f : Loop → α} {l : Fin 16} {s t u : State}

theorem AtLoop.trans (h : AtLoop f l s t) (g : AtLoop f l t u) : AtLoop f l s u :=
  ⟨g.clk.trans h.clk, h.log.trans g.log, fun d => (g.reports d).trans (h.reports d), fun j hj => (g.others j hj).trans (h.others j hj),
    g.own.trans h.own⟩

/-- Operations that write neither the loops, nor the dies, nor the clock, and only add to the log. -/
theorem AtLoop.of_loop (hloop : t.loop = s.loop) (hclk : t.clk = s.clk) (hdie : t.die = s.die) (hlog : s.evq <+: t.evq) : AtLoop f l s t :=
  ⟨hclk, hlog, fun d => by rw [hdie], fun j _ => by rw [hloop], by rw [hloop]⟩

theorem AtLoop.refl : AtLoop f l s s := .of_loop rfl rfl rfl (List.prefix_refl _)

theorem AtLoop.of_id (h : AtLoop id l s t) (f : Loop → α) : AtLoop f l s t := { h with own := congrArg f h.own }

theorem AtLoop.ite {c : Prop} [Decidable c] {a b : State} (ha : AtLoop f l s a) (hb : AtLoop f l s b) :
    AtLoop f l s (if c then a else b) := by
  split
  · exact ha
  · exact hb

theorem AtLoop.modLoop {g : Loop → Loop} (hg : ∀ x, f (g x) = f x) (h : AtLoop f l s t) : AtLoop f l s (t.modLoop l g) :=
  h.trans ⟨rfl, List.prefix_refl _, fun _ => rfl, fun _ hj => upd_ne _ _ hj, (congrArg f (t.modLoop_loop_same l g)).trans (hg _)⟩

theorem AtLoop.record {code src : Nat} {data : Int} (h : AtLoop f l s t) : AtLoop f l s (t.log code src data) :=
  h.trans (.of_loop rfl rfl rfl (List.prefix_append _ _))

theorem AtLoop.recordAt {code src : Nat} {data : Int} {time : Nat} (h : AtLoop f l s t) : AtLoop f l s (t.logAt code src data time) :=
  h.trans (.of_loop rfl rfl rfl (List.prefix_append _ _))

theorem AtLoop.spateReq {code arg : Nat} (h : AtLoop f l s t) : AtLoop f l s (t.spateReq code arg) :=
  h.trans (.of_loop rfl rfl rfl (List.prefix_refl _))

theorem AtLoop.lagTake {g : Nat → Bool} (h : AtLoop f l s t) : AtLoop f l s (t.lagTake g) :=
  h.trans (.of_loop rfl rfl rfl (List.prefix_refl _))

theorem AtLoop.output {g : Fin 5} (h : AtLoop f l s t) : AtLoop f l s (t.output g) :=
  h.trans (.of_loop rfl rfl rfl (List.prefix_refl _))

theorem AtLoop.faultScan (h : AtLoop f l s t) : AtLoop f l s t.faultScan :=
  h.trans (.of_loop (t.faultScan_keeps_rest.frame .loop (by decide)) (t.faultScan_keeps_rest.frame .clk (by decide)) t.faultScan_die
    t.evq_prefix_faultScan)

/-- A frame on its way to a die stands beside the reports that wait there. -/
theorem AtLoop.links {fr : CmdFrame} {ds : List (Fin 4)} (h : AtLoop f l s t) :
    AtLoop f l s (ds.foldl (fun t d => t.modDie d (fun x => { x with link := x.link ++ [fr] })) t) := by
  refine List.foldlRecOn ds _ h fun u hu d _ => hu.trans ⟨rfl, List.prefix_refl _, fun e => ?_, fun _ _ => rfl, rfl⟩
  rw [State.modDie_die, upd_get]
  split
  next he => rw [he]
  next => rfl

/-- A frame sent (R81, R106) writes the sequence number and the ARM bit of the compensator, and Ebb. -/
theorem AtLoop.sendFrame (hf : ∀ (x : Loop) (n : Nat) (b : Bool) (e : EbbPg), f { x with ct := { x.ct with seq := n, arm := b }, eb := e } = f x)
    {g : CmdFrame → CmdFrame} (h : AtLoop f l s t) : AtLoop f l s (t.sendFrame l g) :=
  .output (.links (.modLoop (fun x => hf x _ _ _) h))

/-- PG that falls (R141) writes power-good alone. -/
theorem AtLoop.pgDrop (hf : ∀ (x : Loop) (e : EbbPg), f { x with eb := e } = f x) {why : Nat} (h : AtLoop f l s t) :
    AtLoop f l s (t.pgDrop l why) :=
  .ite (.record (.modLoop (fun x => hf x _) h)) (.modLoop (fun x => hf x _) h)

end

/-- What a loop counts of its errors and trips (R112, R123, R125). -/
structure LoopTally where
  ferrCnt : Nat
  trips : Nat
  cause : Nat
  startShort : Bool

def Loop.tally (x : Loop) : LoopTally := ⟨x.ct.ferrCnt, x.oc.trips, x.oc.cause, x.oc.startShort⟩

section
variable {l : Fin 16} {s t u : State}

theorem AtLoop.foldExit (h : AtLoop Loop.tally l s t) : AtLoop Loop.tally l s (t.foldExit l) :=
  .ite (.record (.modLoop (fun _ => rfl) h)) h

theorem AtLoop.setRegion {r : Nat} {v : Int} (h : AtLoop Loop.tally l s t) : AtLoop Loop.tally l s (t.setRegion l r v) :=
  .ite h (.record (.modLoop (fun _ => rfl) h))

/-- A feed-loss input that acts (R107, R109), in whichever state it meets the loop. -/
theorem AtLoop.lossEnter {q : LossIn} (h : AtLoop Loop.tally l s t) : AtLoop Loop.tally l s (t.lossEnter l q) := by
  unfold State.lossEnter
  extract_lets c enter
  have henter : ∀ (n : Nat) {v : State}, AtLoop Loop.tally l s v → AtLoop Loop.tally l s (enter n v) := fun n v hv =>
    .faultScan (.recordAt (.modLoop (fun _ => rfl) hv))
  clear_value enter
  split
  case h_1 => exact .ite (.modLoop (fun _ => rfl) (.lagTake (henter 0 h))) h
  case h_2 => exact henter 1 h
  case h_3 => exact .ite (henter 2 (.recordAt h)) (.ite (.modLoop (fun _ => rfl) h) (henter 2 h))
  case h_4 => exact h
  case h_5 => exact h

theorem AtLoop.lossTake (h : AtLoop Loop.tally l s t) : AtLoop Loop.tally l s (t.lossTake l) := by
  unfold State.lossTake
  split
  · exact h
  · exact .lossEnter h

end

end Sys2Proof.Machine

/-! PROOFS. A loop that leaves STARTING and RUNNING, one that enters STARTING, and one that trips over its current (R109, R112, R119, R122,
R123): its state, its counts and its record. -/

namespace Sys2Proof.Machine

section
variable {l : Fin 16} {s t u : State}

/-- What a loop has once it has left STARTING and RUNNING: its counts, its state, its command and its start-short timer. -/
def Loop.leaving (x : Loop) : LoopTally × LoopState × Int × Option Nat := (x.tally, x.ct.state, x.ct.icmd, x.oc.shortT)

/-- A loop leaves STARTING and RUNNING for `st`: its command is 0 and its start-short timer runs no more (R109, R112). -/
structure State.Leaves (s t : State) (l : Fin 16) (st : LoopState) : Prop where
  acts : AtLoop Loop.tally l s t
  state : t.loop[l].ct.state = st
  icmd : t.loop[l].ct.icmd = 0
  shortT : t.loop[l].oc.shortT = none

/-- As seen from a state before it. -/
theorem State.Leaves.after {st : LoopState} (h : t.Leaves u l st) (g : AtLoop Loop.tally l s t) : s.Leaves u l st :=
  { h with acts := g.trans h.acts }

/-- Operations behind that leave what the loop left STARTING and RUNNING with. -/
theorem State.Leaves.andThen {st : LoopState} (h : s.Leaves t l st) (g : AtLoop Loop.leaving l t u) : s.Leaves u l st := by
  obtain ⟨htally, hrest⟩ := Prod.mk.inj g.own
  obtain ⟨hstate, hrest⟩ := Prod.mk.inj hrest
  obtain ⟨hicmd, hshort⟩ := Prod.mk.inj hrest
  exact ⟨h.acts.trans { g with own := htally }, hstate.trans h.state, hicmd.trans h.icmd, hshort.trans h.shortT⟩

theorem State.not_live_of_state {st : LoopState} (h : t.loop[l].ct.state = st) (hs : st ≠ .starting) (hr : st ≠ .running) :
    t.live l = false := by
  rw [State.live, h, beq_eq_false_iff_ne.2 hs, beq_eq_false_iff_ne.2 hr]
  rfl

theorem State.leaveLive_leaves (s : State) (l : Fin 16) (st : LoopState) (mode : StopMode) : s.Leaves (s.leaveLive l st mode) l st := by
  unfold State.leaveLive
  extract_lets v c hu s1 s2 s3 s4
  have h1 : AtLoop Loop.tally l s s1 := .ite (.record (.lossTake .refl)) (.lossTake .refl)
  have h2 : AtLoop Loop.tally l s s2 := .foldExit (.ite (.setRegion h1) h1)
  have hown : s3.loop[l] = _ := s2.modLoop_loop_same l _
  have h3 : s.Leaves s3 l st :=
    ⟨.modLoop (fun _ => rfl) h2, congrArg (·.ct.state) hown, congrArg (·.ct.icmd) hown, congrArg (·.oc.shortT) hown⟩
  have hphases : Keeps (maskOf [.ph, .pst]) s3 s4 := Keeps.foldl _ (Keeps.refl _ _) fun w p hw =>
    State.modPst_keeps p _ (State.modPh_keeps p _ hw (.ofParts (by decide)) fun _ => ⟨id, id⟩) (.ofParts (by decide))
  have h4 : AtLoop Loop.leaving l s3 s4 := .of_loop (hphases.frame .loop (by decide)) (hphases.frame .clk (by decide))
    (hphases.frame .die (by decide)) (by rw [show s4.evq = s3.evq from hphases.frame .evq (by decide)])
  exact h3.andThen (.pgDrop (fun _ _ => rfl) (.sendFrame (fun _ _ _ _ => rfl) h4))

/-- A loop leaves STARTING and RUNNING for a cause, which it logs with its last command (R109, R119). -/
structure State.LeavesFor (s t : State) (l : Fin 16) (st : LoopState) (cause : Nat) : Prop extends State.Leaves s t l st where
  reason : t.loop[l].ct.cause = cause
  record : ⟨0x0403, l.val, toWord 64 (lohi cause s.loop[l].ct.icmd), s.clk.shelf⟩ ∈ t.evq

/-- The record, with operations behind that leave the loop. -/
theorem State.Leaves.recorded {st : LoopState} {cause : Nat} (h : s.Leaves t l st) (hc : t.loop[l].ct.cause = cause)
    (hlater : AtLoop id l (t.log 0x0403 l.val (lohi cause s.loop[l].ct.icmd)) u) : s.LeavesFor u l st cause := by
  refine ⟨h.andThen (.trans (.record .refl) (hlater.of_id _)), ?_, hlater.log.subset ?_⟩
  · exact (congrArg (·.ct.cause) hlater.own).trans hc
  · rw [State.log_evq, h.acts.clk]
    exact List.mem_append_right _ (List.mem_singleton_self _)

/-- A loop enters STOPPED for a cause, with no retries counted (R109, R122). -/
structure State.Stops (s t : State) (l : Fin 16) (cause : Nat) : Prop extends State.LeavesFor s t l .stopped cause where
  retries : t.loop[l].oc.retries = 0

theorem State.stopLoop_stops (s : State) (l : Fin 16) (cause : Nat) (mode : StopMode) : s.Stops (s.stopLoop l cause mode) l cause := by
  unfold State.stopLoop
  extract_lets i s1
  have h1 : s.Leaves s1 l .stopped := (s.leaveLive_leaves l .stopped mode).andThen (.modLoop (fun _ => rfl) .refl)
  have hown : s1.loop[l] = _ := State.modLoop_loop_same _ l _
  have hcause : s1.loop[l].ct.cause = cause := by rw [hown]
  have hretries : s1.loop[l].oc.retries = 0 := by rw [hown]
  clear_value s1
  have hlater : AtLoop (·.oc.retries) l s1 (s1.log 0x0403 l.val (lohi cause i)).faultScan := .faultScan (.record .refl)
  exact ⟨h1.recorded hcause (.faultScan .refl), hlater.own.trans hretries⟩

theorem State.faultLoopAt_leaves (s : State) (l : Fin 16) (cause : Nat) (mode : StopMode) :
    s.LeavesFor (s.faultLoopAt l cause mode) l .faulted cause := by
  unfold State.faultLoopAt
  extract_lets i s1
  have h1 : s.Leaves s1 l .faulted := (s.leaveLive_leaves l .faulted mode).andThen (.modLoop (fun _ => rfl) .refl)
  have hown : s1.loop[l] = _ := State.modLoop_loop_same _ l _
  exact h1.recorded (congrArg (·.ct.cause) hown) (.faultScan (.spateReq .refl))

/-- A loop that enters STARTING (R109, R122): its supervisor in WATCH, with the number of this retry. -/
theorem State.startLoop_starts (s : State) (l : Fin 16) (retries : Nat) :
    s.evq <+: (s.startLoop l retries).evq ∧ (s.startLoop l retries).loop[l].ct.state = .starting ∧
      (s.startLoop l retries).loop[l].oc.retries = retries ∧ (s.startLoop l retries).loop[l].oc.st = .watch := by
  unfold State.startLoop
  extract_lets s1
  have hown : s1.loop[l] = _ := State.modLoop_loop_same _ l _
  have hframe : AtLoop (fun x => (x.ct.state, x.oc)) l s1 (s1.sendFrame l (fun f => { f with start := true })).faultScan :=
    .faultScan (.sendFrame (fun _ _ _ _ => rfl) .refl)
  obtain ⟨hstate, hoc⟩ := Prod.mk.inj hframe.own
  exact ⟨hframe.log, hstate.trans (congrArg (·.ct.state) hown), (congrArg (·.retries) hoc).trans (congrArg (·.oc.retries) hown),
    (congrArg (·.st) hoc).trans (congrArg (·.oc.st) hown)⟩

/-! A trip. -/

/-- A trip counted, with its cause (R123, R125). -/
def LoopTally.tripped (x : LoopTally) (cause : Nat) : LoopTally := { x with trips := bump x.trips, cause := cause }

/-- A loop trips over its current: it leaves STARTING and RUNNING, with the trip counted. -/
structure State.Trips (s t : State) (l : Fin 16) (st : LoopState) (cause : Nat) : Prop where
  state : t.loop[l].ct.state = st
  icmd : t.loop[l].ct.icmd = 0
  shortT : t.loop[l].oc.shortT = none
  tally : t.loop[l].tally = s.loop[l].tally.tripped cause

theorem State.Trips.trips {st : LoopState} {cause : Nat} (h : s.Trips t l st cause) : t.loop[l].oc.trips = bump s.loop[l].oc.trips :=
  congrArg LoopTally.trips h.tally

theorem State.Trips.cause {st : LoopState} {cause : Nat} (h : s.Trips t l st cause) : t.loop[l].oc.cause = cause :=
  congrArg LoopTally.cause h.tally

theorem State.Trips.startShort {st : LoopState} {cause : Nat} (h : s.Trips t l st cause) :
    t.loop[l].oc.startShort = s.loop[l].oc.startShort :=
  congrArg LoopTally.startShort h.tally

/-- The trip as seen from a state with the same counts. -/
theorem State.Trips.after {st : LoopState} {cause : Nat} (htally : t.loop[l].tally = s.loop[l].tally) (h : t.Trips u l st cause) :
    s.Trips u l st cause :=
  { h with tally := by rw [h.tally, htally] }

theorem State.Leaves.trips {st : LoopState} {cause : Nat} {f : OcSup → OcSup}
    (hf : ∀ x : Loop, { x with oc := f x.oc }.tally = x.tally.tripped cause) (h : (s.modOc l f).Leaves t l st) :
    s.Trips t l st cause :=
  ⟨h.state, h.icmd, h.shortT, h.acts.own.trans ((congrArg Loop.tally (s.modLoop_loop_same l _)).trans (hf _))⟩

/-- A trip with a retry left (R123): HICCUP_OFF, with its record. -/
theorem State.ocTrip_of_retry (h : s.loop[l].oc.retries < s.parNowN P.LOOP_OC_RETRIES l ∨ s.parNow P.LOOP_OC_RETRIES l = 255) (cause : Nat) :
    s.Trips (s.ocTrip l cause) l .hiccupOff cause ∧ (s.ocTrip l cause).loop[l].oc.st = .off ∧
      ⟨0x0501, l.val, toWord 64 (lohi (s.loop[l].oc.retries + cause * 256 + s.loop[l].oc.count * 65536 : Nat) s.loop[l].ct.vNow),
        s.clk.shelf⟩ ∈ (s.ocTrip l cause).evq := by
  unfold State.ocTrip
  extract_lets o v s1 s2 s2'
  rw [if_pos h]
  have hleave := s2.leaveLive_leaves l .hiccupOff .atOnce
  generalize s2.leaveLive l .hiccupOff .atOnce = u at hleave ⊢
  have h2 : s2.Leaves ((u.modOc l (fun x => { x with st := .off, offAt := s.clk.tick })).spateReq 4 l.val).faultScan l .hiccupOff :=
    hleave.andThen (.faultScan (.spateReq (.modLoop (fun _ => rfl) .refl)))
  have h1 : s1.Leaves _ l .hiccupOff := h2.after (.record .refl)
  refine ⟨h1.trips fun _ => rfl, ?_, h2.acts.log.subset ?_⟩
  · exact (AtLoop.own (f := (·.oc.st)) (.faultScan (.spateReq .refl))).trans (congrArg (·.oc.st) (u.modLoop_loop_same l _))
  · exact List.mem_append_right _ (List.mem_singleton_self _)

/-- A trip with no retry left (R123): FAULTED. -/
theorem State.ocTrip_of_no_retry (h : ¬ (s.loop[l].oc.retries < s.parNowN P.LOOP_OC_RETRIES l ∨ s.parNow P.LOOP_OC_RETRIES l = 255))
    (cause : Nat) : s.Trips (s.ocTrip l cause) l .faulted cause := by
  unfold State.ocTrip
  extract_lets o v s1 s2 s2'
  rw [if_neg h]
  have hleave := (s2'.faultLoopAt_leaves l 3 .atOnce).toLeaves
  generalize s2'.faultLoopAt l 3 .atOnce = u at hleave ⊢
  have h2 : s2'.Leaves (u.modOc l (fun x => { x with st := .latched })) l .faulted := hleave.andThen (.modLoop (fun _ => rfl) .refl)
  have h1 : s1.Leaves _ l .faulted := h2.after (.record .refl)
  exact h1.trips fun _ => rfl

/-- A trip in either case. -/
theorem State.ocTrip_trips (s : State) (l : Fin 16) (cause : Nat) :
    ∃ st : LoopState, st ≠ .starting ∧ st ≠ .running ∧ s.Trips (s.ocTrip l cause) l st cause := by
  by_cases h : s.loop[l].oc.retries < s.parNowN P.LOOP_OC_RETRIES l ∨ s.parNow P.LOOP_OC_RETRIES l = 255
  · exact ⟨.hiccupOff, by decide, by decide, (State.ocTrip_of_retry h cause).1⟩
  · exact ⟨.faulted, by decide, by decide, State.ocTrip_of_no_retry h cause⟩

end

end Sys2Proof.Machine

/-! PROOFS. The following error and the FAULT pins (R109, R112, R144, R148): an error counted, and a latched pin released. -/

namespace Sys2Proof.Machine

/-- A following error counted, flagged and recorded, with its timer started again (R112). -/
def State.ferrCounted (s : State) (l : Fin 16) : State :=
  (s.modLoop l (fun x => { x with
    ct := { x.ct with ferrCnt := bump x.ct.ferrCnt, ferrT := some 0 }, fl := { x.fl with ferr := true } })).log 0x0404 l.val
    (nearEven s.loop[l].ct.ref8 8000000 - s.loop[l].ct.y).natAbs

theorem State.ferrCounted_loop (s : State) (l : Fin 16) : (s.ferrCounted l).loop[l] = { s.loop[l] with
    ct := { s.loop[l].ct with ferrCnt := bump s.loop[l].ct.ferrCnt, ferrT := some 0 }, fl := { s.loop[l].fl with ferr := true } } :=
  s.modLoop_loop_same l _

theorem exec_followErrExpire_of_due {s : State} {l : Fin 16} (hlive : s.live l = true) (hdue : s.ferrDue l = true) :
    exec (.followErrExpire l) s = .next (if s.parNow P.LOOP_FERR_ACTION l = 0 then s.ferrCounted l
      else if s.parNow P.LOOP_FERR_ACTION l = 1 then (s.ferrCounted l).stopLoop l 2 .boundary
      else (s.ferrCounted l).faultLoopAt l 2 .boundary) := if_pos (And.intro hlive hdue)

/-- Action REPORT. -/
theorem exec_followErrExpire_of_report {s : State} {l : Fin 16} (hlive : s.live l = true) (hdue : s.ferrDue l = true)
    (ha : s.parNow P.LOOP_FERR_ACTION l = 0) : exec (.followErrExpire l) s = .next (s.ferrCounted l) := by
  rw [exec_followErrExpire_of_due hlive hdue, if_pos ha]

/-- Action STOP. -/
theorem exec_followErrExpire_of_stop {s : State} {l : Fin 16} (hlive : s.live l = true) (hdue : s.ferrDue l = true)
    (ha : s.parNow P.LOOP_FERR_ACTION l = 1) : ∃ t, exec (.followErrExpire l) s = .next t ∧ (s.ferrCounted l).LeavesFor t l .stopped 2 := by
  rw [exec_followErrExpire_of_due hlive hdue, if_neg (by omega), if_pos ha]
  exact ⟨_, rfl, ((s.ferrCounted l).stopLoop_stops l 2 .boundary).toLeavesFor⟩

/-- Action FAULT. -/
theorem exec_followErrExpire_of_fault {s : State} {l : Fin 16} (hlive : s.live l = true) (hdue : s.ferrDue l = true)
    (ha : 2 ≤ s.parNow P.LOOP_FERR_ACTION l) : ∃ t, exec (.followErrExpire l) s = .next t ∧ (s.ferrCounted l).LeavesFor t l .faulted 2 := by
  rw [exec_followErrExpire_of_due hlive hdue, if_neg (by omega), if_neg (by omega)]
  exact ⟨_, rfl, (s.ferrCounted l).faultLoopAt_leaves l 2 .boundary⟩

/-- A loop that the error makes leave STARTING and RUNNING: its cause, its count and its record. -/
theorem State.LeavesFor.ferr {s t : State} {l : Fin 16} {st : LoopState} (h : (s.ferrCounted l).LeavesFor t l st 2) :
    t.loop[l].ct.state = st ∧ t.loop[l].ct.cause = 2 ∧ t.loop[l].ct.ferrCnt = bump s.loop[l].ct.ferrCnt ∧
      ⟨0x0403, l.val, toWord 64 (lohi 2 s.loop[l].ct.icmd), s.clk.shelf⟩ ∈ t.evq := by
  have hcount : t.loop[l].ct.ferrCnt = (s.ferrCounted l).loop[l].ct.ferrCnt := congrArg LoopTally.ferrCnt h.acts.own
  have hrecord := h.record
  rw [s.ferrCounted_loop l] at hcount hrecord
  exact ⟨h.state, h.reason, hcount, hrecord⟩

/-- What DEV_FAULT_STATUS makes of pin `m` (R144): an assertion goes where its bit is 1 and no selected source holds it. -/
def State.pinAfter (s : State) (v : Nat) (m : Fin 4) (on : Bool) : Bool := on && !(bit v m.val && decide (s.faultSources m = 0))

/-- The state with other pins. -/
def State.withPins (s : State) (p : Vector Bool 4) : State := { s with fault := { s.fault with pin := p } }

/-- The pins after a write of DEV_FAULT_STATUS, unless a reset holds them: no release moves a source of another pin. -/
theorem State.faultRelease_eq {s : State} (h : s.fault.hold = false) (v : Nat) :
    s.faultRelease v = s.withPins ((fins 4).foldl (fun u m => upd u m (s.pinAfter v m)) s.fault.pin) := by
  refine List.foldl_hom s.withPins fun p m => ?_
  show (if bit v m.val = true ∧ s.fault.hold = false ∧ p[m] = true ∧ s.faultSources m = 0 then s.withPins (p.set m.val false m.isLt)
    else s.withPins p) = s.withPins (upd p m (s.pinAfter v m))
  split
  case isTrue hc =>
    obtain ⟨hbit, -, -, hsrc⟩ := hc
    rw [upd, State.pinAfter, hbit, decide_eq_true hsrc, Bool.and_self, Bool.not_true, Bool.and_false]
  case isFalse hc =>
    refine congrArg s.withPins (upd_id ?_).symm
    have hkeep : p[m] = true → (bit v m.val && decide (s.faultSources m = 0)) = false := fun hp => by
      rw [Bool.eq_false_iff]
      intro hb
      obtain ⟨hbit, hsrc⟩ := Bool.and_eq_true_iff.1 hb
      exact hc ⟨hbit, h, hp, of_decide_eq_true hsrc⟩
    cases hp : p[m]
    · rfl
    · rw [State.pinAfter, hkeep hp]
      rfl

theorem State.faultRelease_of_hold {s : State} (h : s.fault.hold = true) (v : Nat) : s.faultRelease v = s := by
  refine List.foldlRecOn (motive := fun t => t = s) (fins 4) _ rfl fun t ht m _ => ?_
  subst ht
  exact if_neg fun ⟨_, hhold, _⟩ => Bool.noConfusion (h.symm.trans hhold)

theorem exec_faultStatusRelease_of_permit {s : State} {k : Fin 8} (h : s.mayControl k [0] = true) (v : Nat) :
    exec (.faultStatusRelease k v) s = .next ((s.faultRelease v).ctlDone k [0] stOk) :=
  congrArg Host.Outcome.next (s.control_may k [0] _ h)

/-- Settles O16: the action of an error by the state the loop leaves for, the pins by `State.pinAfter`. -/
theorem followingErrorActs : Obligations.FollowingErrorActs := by
  unfold Obligations.FollowingErrorActs
  refine ⟨?report, ?stop, ?fault, ?notDue, ?release, ?held⟩
  case report =>
    intro s l hlive hdue ha
    refine ⟨_, exec_followErrExpire_of_report hlive hdue ha, ?_⟩
    rw [s.ferrCounted_loop l]
    exact ⟨rfl, rfl, rfl, rfl, rfl, fun j hj => upd_ne _ _ hj⟩
  case stop =>
    intro s l hlive hdue ha
    obtain ⟨t, ht, hleaves⟩ := exec_followErrExpire_of_stop hlive hdue ha
    exact ⟨t, ht, hleaves.ferr⟩
  case fault =>
    intro s l hlive hdue ha
    obtain ⟨t, ht, hleaves⟩ := exec_followErrExpire_of_fault hlive hdue ha
    exact ⟨t, ht, hleaves.ferr⟩
  case notDue =>
    intro s l hdue
    have hnot : ¬ (s.live l = true ∧ s.ferrDue l = true) := fun ⟨_, h⟩ => Bool.eq_false_iff.1 hdue h
    exact ⟨s, if_neg hnot, rfl⟩
  case release =>
    intro s k v hmay hhold
    have hdone := (s.faultRelease v).ctlDone_keeps_rest k [0] stOk
    have hrelease : Keeps (maskOf [.fault]) s (s.faultRelease v) := State.faultRelease_keeps v (Keeps.refl _ s) (.ofParts (by decide))
    refine ⟨_, exec_faultStatusRelease_of_permit hmay v, rfl, (hdone.frame .evq (by decide)).trans (hrelease.frame .evq (by decide)),
      (hdone.frame .loop (by decide)).trans (hrelease.frame .loop (by decide)), fun m => ?_⟩
    rw [show ((s.faultRelease v).ctlDone k [0] stOk).fault = _ from hdone.frame .fault (by decide), State.faultRelease_eq hhold]
    exact foldl_upd_fins (s.pinAfter v) s.fault.pin m
  case held =>
    intro s k v hmay hhold
    refine ⟨_, exec_faultStatusRelease_of_permit hmay v, rfl, ?_⟩
    rw [State.faultRelease_of_hold hhold]
    exact (s.ctlDone_keeps_rest k [0] stOk).frame .fault (by decide)

end Sys2Proof.Machine

/-! PROOFS. Over-current supervision (R109, R121 to R125): a report that completes a period, the start-short timer, and the end of the off
time. -/

namespace Sys2Proof.Machine

theorem State.parNowN_congr {s t : State} (hcfg : t.cfg = s.cfg) (hlag : t.lag = s.lag) (x : Prm) (i : Nat) : t.parNowN x i = s.parNowN x i := by
  rw [State.parNowN, State.parNow_congr hcfg (by rw [hlag]), State.parNowN]

theorem State.countFull_iff (s : State) (l : Fin 16) : s.countFull l = true ↔
    s.loop[l].oc.mode = 0 ∧ (s.loop[l].oc.st = .watch ∨ s.loop[l].oc.st = .counting) ∧ s.parNowN P.LOOP_OC_COUNT l ≤ s.loop[l].oc.count := by
  simp only [State.countFull, Bool.and_eq_true, Bool.or_eq_true, beq_iff_eq, decide_eq_true_eq, and_assoc]

/-! A report that completes a period. -/

/-- The report `r`, alone on its way, completes a period of a loop in WATCH without a window (R121, R122). -/
structure State.Completes (s : State) (l : Fin 16) (r : LimRep) : Prop where
  reps : s.loop[l].oc.reps = [r]
  whole : r.waits = false
  watch : s.loop[l].oc.st = .watch
  asm : s.loop[l].oc.asm = []
  reporters : s.reporters l = [r.die]
  window : s.parNow P.LOOP_OC_WINDOW l = 0

/-- The supervisor after a whole period without a window: one more in the count where it was limited, else none (R122). -/
def OcSup.counted (o : OcSup) (limited : Bool) (tick : Nat) : OcSup :=
  { o with
    reps := [], asm := [], hist := [], count := if limited then o.count + 1 else 0, st := if limited then .counting else .watch
    cleanAt := if limited then tick else o.cleanAt }

/-- A report taken from its way, which stamps it (R126). -/
def State.reportTaken (s : State) (l : Fin 16) (r : LimRep) : State := s.stamp.modOc l (fun o => { o with reps := o.reps.erase r })

/-- The report given to the supervisor. -/
def State.limitTaken (s : State) (l : Fin 16) (r : LimRep) : State := (s.reportTaken l r).absorb l r

theorem State.limitTaken_keeps (s : State) (l : Fin 16) (r : LimRep) : Keeps (maskOf [.ord, .loop]) s (s.limitTaken l r) :=
  State.absorb_keeps l r (State.modOc_keeps l _ (State.stamp_keeps (Keeps.refl _ s) (.ofParts (by decide))) (.ofParts (by decide)))
    (.ofParts (by decide))

theorem State.absorb_ord (s : State) (l : Fin 16) (r : LimRep) : (s.absorb l r).ord = s.ord :=
  (State.absorb_keeps (wm := maskOf [.loop]) l r (Keeps.refl _ s) (.ofParts (by decide))).frame .ord (by decide)

/-- A report that alone completes a period in WATCH, at the supervisor. -/
theorem State.absorb_of_watch {s : State} {l : Fin 16} {r : LimRep} (hst : s.loop[l].oc.st = .watch) (hasm : s.loop[l].oc.asm = [])
    (hrep : s.reporters l = [r.die]) (hwin : s.parNow P.LOOP_OC_WINDOW l = 0) :
    (s.absorb l r).loop[l].ct = s.loop[l].ct ∧ (s.absorb l r).loop[l].oc = { s.loop[l].oc with
      asm := [], hist := [], count := if r.limited then s.loop[l].oc.count + 1 else 0, st := if r.limited then .counting else .watch
      cleanAt := if r.limited then s.clk.tick else s.loop[l].oc.cleanAt } := by
  have hsup : ¬ (s.loop[l].oc.st ≠ .watch ∧ s.loop[l].oc.st ≠ .counting) := fun ⟨hne, _⟩ => hne hst
  unfold State.absorb
  extract_lets o old new rest o1 o2
  have hold : old = (r.period, [], false) := congrArg (fun as => (List.find? (fun a => a.1 == r.period) as).getD (r.period, [], false)) hasm
  have hnew : new = (r.period, [r.die], r.limited) := by
    rw [show new = (r.period, r.die :: old.2.1, old.2.2 || r.limited) from rfl, hold, Bool.false_or]
  have hall : (s.reporters l).all (fun d => new.2.1.contains d) = true := by
    rw [hrep, hnew, List.all_cons, List.all_nil, List.contains_cons, beq_self_eq_true]
    rfl
  have ho1 : o1 = { o with asm := [], hist := [], count := if r.limited then o.count + 1 else 0 } := by
    have hrest : rest = [] := congrArg (List.filter (fun a => a.1 != r.period)) hasm
    rw [show o1 = ocCount (s.parNowN P.LOOP_OC_WINDOW l) { o with asm := rest } new.2.2 from rfl, State.parNowN, hwin, hrest, hnew]
    rfl
  rw [if_neg hsup, if_pos hall, State.modLoop_loop_same]
  refine ⟨rfl, ?_⟩
  show o2 = _
  rw [show o2 = { o1 with st := if o1.count = 0 then .watch else .counting, cleanAt := if new.2.2 then s.clk.tick else o1.cleanAt } from rfl,
    ho1, hnew]
  cases r.limited
  · rfl
  · rfl

theorem State.Completes.taken {s : State} {l : Fin 16} {r : LimRep} (h : s.Completes l r) :
    (s.limitTaken l r).loop[l].ct = s.loop[l].ct ∧
      (s.limitTaken l r).loop[l].oc = s.loop[l].oc.counted r.limited s.clk.tick := by
  have hloop : (s.reportTaken l r).loop[l] = _ := s.stamp.modLoop_loop_same l _
  have hreps : s.loop[l].oc.reps.erase r = [] := by rw [h.reps, List.erase_cons_head]
  have hst : (s.reportTaken l r).loop[l].oc.st = .watch := by rw [hloop]; exact h.watch
  have hasm : (s.reportTaken l r).loop[l].oc.asm = [] := by rw [hloop]; exact h.asm
  obtain ⟨hct, hoc⟩ := State.absorb_of_watch hst hasm h.reporters h.window
  refine ⟨hct.trans (by rw [hloop]; rfl), hoc.trans ?_⟩
  rw [hloop]
  dsimp only
  show ({ s.loop[l].oc with
    reps := s.loop[l].oc.reps.erase r, asm := [], hist := [], count := _, st := _, cleanAt := _ } : OcSup) = _
  rw [hreps]
  rfl

theorem exec_limitReport_of_find {s : State} {l : Fin 16} {r : LimRep} (h : s.loop[l].oc.reps.find? (fun r => !r.waits) = some r) :
    exec (.limitReport l) s = .next (if (s.limitTaken l r).countFull l ∧ (s.limitTaken l r).live l then
      if (s.limitTaken l r).loop[l].oc.shortAt = some r.period then ((s.limitTaken l r).shortExpire l).ocTrip l 3
      else (s.limitTaken l r).ocTrip l 1
    else s.limitTaken l r) := by
  show execLimitReport l s = _
  unfold execLimitReport
  rw [h]
  rfl

/-- LIMIT_REPORT of such a report, on the state with the report taken. -/
theorem exec_limitReport_of_completes {s : State} {l : Fin 16} {r : LimRep} (h : s.Completes l r) :
    ∃ u, Keeps (maskOf [.ord, .loop]) s u ∧ u.ord = s.ord + 1 ∧ u.loop[l].ct = s.loop[l].ct ∧
      u.loop[l].oc = s.loop[l].oc.counted r.limited s.clk.tick ∧
      exec (.limitReport l) s = .next (if u.countFull l ∧ u.live l then
        if u.loop[l].oc.shortAt = some r.period then (u.shortExpire l).ocTrip l 3 else u.ocTrip l 1
      else u) := by
  have hfind : s.loop[l].oc.reps.find? (fun r => !r.waits) = some r := by
    rw [h.reps, List.find?_cons_of_pos (by rw [h.whole]; rfl)]
  obtain ⟨hct, hoc⟩ := h.taken
  exact ⟨_, s.limitTaken_keeps l r, State.absorb_ord _ l r, hct, hoc, exec_limitReport_of_find hfind⟩

/-- A report that leaves the count below the trip level. -/
theorem exec_limitReport_of_below {s : State} {l : Fin 16} {r : LimRep} (h : s.Completes l r)
    (hbelow : s.loop[l].oc.count + 1 < s.parNowN P.LOOP_OC_COUNT l) :
    ∃ u, Keeps (maskOf [.ord, .loop]) s u ∧ u.ord = s.ord + 1 ∧ u.loop[l].ct = s.loop[l].ct ∧
      u.loop[l].oc = s.loop[l].oc.counted r.limited s.clk.tick ∧ exec (.limitReport l) s = .next u := by
  obtain ⟨u, hk, hord, hct, hoc, hexec⟩ := exec_limitReport_of_completes h
  have hlevel := State.parNowN_congr (hk.frame .cfg (by decide)) (hk.frame .lag (by decide)) P.LOOP_OC_COUNT l
  have hcount : (s.loop[l].oc.counted r.limited s.clk.tick).count ≤ s.loop[l].oc.count + 1 := by
    cases hlim : r.limited
    · exact Nat.zero_le _
    · exact Nat.le_refl _
  refine ⟨u, hk, hord, hct, hoc, hexec.trans (congrArg Host.Outcome.next (if_neg fun ⟨hfull, _⟩ => ?_))⟩
  obtain ⟨-, -, hle⟩ := (u.countFull_iff l).1 hfull
  rw [hlevel, hoc] at hle
  omega

/-- A limited one that brings the count of a live loop in HICCUP mode to the trip level (R122, R123). -/
theorem exec_limitReport_of_full {s : State} {l : Fin 16} {r : LimRep} (h : s.Completes l r) (hlim : r.limited = true)
    (hlive : s.live l = true) (hmode : s.loop[l].oc.mode = 0) (hfull : s.parNowN P.LOOP_OC_COUNT l ≤ s.loop[l].oc.count + 1) :
    ∃ u, Keeps (maskOf [.ord, .loop]) s u ∧ u.loop[l].ct = s.loop[l].ct ∧ u.loop[l].oc = s.loop[l].oc.counted true s.clk.tick ∧
      exec (.limitReport l) s = .next (if s.loop[l].oc.shortAt = some r.period then (u.shortExpire l).ocTrip l 3 else u.ocTrip l 1) := by
  obtain ⟨u, hk, -, hct, hoc, hexec⟩ := exec_limitReport_of_completes h
  rw [hlim] at hoc
  have hlevel := State.parNowN_congr (hk.frame .cfg (by decide)) (hk.frame .lag (by decide)) P.LOOP_OC_COUNT l
  have hu : u.countFull l = true := by
    rw [u.countFull_iff, hlevel, hoc]
    exact ⟨hmode, .inr rfl, hfull⟩
  refine ⟨u, hk, hct, hoc, hexec.trans ?_⟩
  rw [if_pos ⟨hu, (State.live_congr hct).trans hlive⟩, hoc]
  rfl

theorem Loop.tally_of_counted {x y : Loop} {limited : Bool} {tick : Nat} (hct : x.ct = y.ct) (hoc : x.oc = y.oc.counted limited tick) :
    x.tally = y.tally := by
  unfold Loop.tally
  rw [hct, hoc]
  rfl

/-! The start-short timer. -/

theorem State.shortExpire_loop (s : State) (l : Fin 16) : (s.shortExpire l).loop[l] =
    { s.loop[l] with oc := { s.loop[l].oc with shortT := none, shortAt := none, startShort := true } } := s.modLoop_loop_same l _

/-- The record of a start short, with the y of the sample that found the timer expired (R125). -/
theorem State.shortExpire_evq {s : State} {l : Fin 16} {q : Sample} (hat : s.loop[l].oc.shortAt = some q.period) (hq : s.loop[l].samples = [q]) :
    (s.shortExpire l).evq = s.evq ++ [⟨0x0504, l.val, toWord 64 (clampI (-8388608) 8388607 q.v), s.clk.shelf⟩] := by
  have hfind : s.loop[l].samples.find? (fun q => some q.period == s.loop[l].oc.shortAt) = some q := by
    rw [hq, List.find?_cons_of_pos (by rw [hat, beq_self_eq_true])]
  unfold State.shortExpire
  rw [hfind]
  rfl

/-- START_SHORT_EXPIRE in fold-back mode. -/
theorem exec_startShortExpire_of_foldBack {s : State} {l : Fin 16} {n : Nat} (hat : s.loop[l].oc.shortAt = some n) (hm : s.loop[l].oc.mode = 1) :
    exec (.startShortExpire l) s = .next (s.shortExpire l) := by
  show execStartShortExpire l s = _
  unfold execStartShortExpire
  rw [hat]
  exact if_pos hm

/-- In HICCUP mode, with no report of that period and the count below the trip level: a trip of cause 2. -/
theorem exec_startShortExpire_of_hiccup {s : State} {l : Fin 16} {n : Nat} (hat : s.loop[l].oc.shortAt = some n) (hm : s.loop[l].oc.mode = 0)
    (hreps : ∀ r ∈ s.loop[l].oc.reps, some r.period ≠ s.loop[l].oc.shortAt) (hbelow : s.loop[l].oc.count < s.parNowN P.LOOP_OC_COUNT l) :
    ∃ t, exec (.startShortExpire l) s = .next t ∧
      ∃ st : LoopState, st ≠ .starting ∧ st ≠ .running ∧ (s.shortExpire l).Trips t l st 2 := by
  have hready : s.loop[l].oc.reps.filter (fun r => !r.waits && r.period == n) = [] := by
    refine List.filter_eq_nil_iff.2 fun r hr hc => hreps r hr ?_
    rw [hat, beq_iff_eq.1 (Bool.and_eq_true_iff.1 hc).2]
  have hfull : (s.shortExpire l).countFull l = false := by
    rw [Bool.eq_false_iff, Ne, State.countFull_iff, State.shortExpire_loop]
    exact fun ⟨_, _, hle⟩ => absurd hle (Nat.not_le.2 hbelow)
  refine ⟨_, ?_, (s.shortExpire l).ocTrip_trips l 2⟩
  show execStartShortExpire l s = _
  unfold execStartShortExpire
  rw [hat]
  dsimp only
  rw [if_neg (by rw [hm]; decide), hready, List.foldl_nil, hfull, if_neg Bool.false_ne_true]

/-- A trip behind a start short (R125): it keeps the flag of the expiry. -/
theorem State.Trips.startShort_of_shortExpire {s t : State} {l : Fin 16} {st : LoopState} {cause : Nat}
    (h : (s.shortExpire l).Trips t l st cause) : t.loop[l].oc.startShort = true ∧ t.loop[l].oc.trips = bump s.loop[l].oc.trips := by
  have hflag := h.startShort
  have htrips := h.trips
  rw [s.shortExpire_loop l] at hflag htrips
  exact ⟨hflag, htrips⟩

/-! A report that trips its loop. -/

section
variable {s : State} {l : Fin 16} {r : LimRep}

/-- A trip with a retry left that a report completes, without a start short of its period: cause 1, and its record (R123). -/
theorem exec_limitReport_trips (h : s.Completes l r) (hlim : r.limited = true) (hlive : s.live l = true) (hmode : s.loop[l].oc.mode = 0)
    (hfull : s.parNowN P.LOOP_OC_COUNT l ≤ s.loop[l].oc.count + 1) (hleft : s.loop[l].oc.retries < s.parNowN P.LOOP_OC_RETRIES l)
    (hshort : s.loop[l].oc.shortAt ≠ some r.period) :
    ∃ t, exec (.limitReport l) s = .next t ∧ s.Trips t l .hiccupOff 1 ∧ t.loop[l].oc.st = .off ∧
      ⟨0x0501, l.val, toWord 64 (lohi (s.loop[l].oc.retries + 256 + (s.loop[l].oc.count + 1) * 65536 : Nat) s.loop[l].ct.vNow),
        s.clk.shelf⟩ ∈ t.evq := by
  obtain ⟨u, hk, hct, hoc, hexec⟩ := exec_limitReport_of_full h hlim hlive hmode hfull
  have hretries := State.parNowN_congr (hk.frame .cfg (by decide)) (hk.frame .lag (by decide)) P.LOOP_OC_RETRIES l
  have hclk : u.clk = s.clk := hk.frame .clk (by decide)
  have hu : u.loop[l].oc.retries < u.parNowN P.LOOP_OC_RETRIES l := by rw [hretries, hoc]; exact hleft
  obtain ⟨htrip, hoff, hrecord⟩ := State.ocTrip_of_retry (.inl hu) 1
  rw [hct, hoc, hclk] at hrecord
  rw [if_neg hshort] at hexec
  generalize u.ocTrip l 1 = t at hexec htrip hoff hrecord
  exact ⟨t, hexec, htrip.after (Loop.tally_of_counted hct hoc), hoff, hrecord⟩

/-- With the start-short timer found expired at the end of that period: one trip of cause 3 (R125, R126). -/
theorem exec_limitReport_trips_short (h : s.Completes l r) (hlim : r.limited = true) (hlive : s.live l = true)
    (hmode : s.loop[l].oc.mode = 0) (hfull : s.parNowN P.LOOP_OC_COUNT l ≤ s.loop[l].oc.count + 1)
    (hleft : s.loop[l].oc.retries < s.parNowN P.LOOP_OC_RETRIES l) (hshort : s.loop[l].oc.shortAt = some r.period) :
    ∃ t, exec (.limitReport l) s = .next t ∧ (s.shortExpire l).Trips t l .hiccupOff 3 := by
  obtain ⟨u, hk, hct, hoc, hexec⟩ := exec_limitReport_of_full h hlim hlive hmode hfull
  have hexpire : Keeps (maskOf [.evq, .loop]) u (u.shortExpire l) := State.shortExpire_keeps l (Keeps.refl _ u) (.ofParts (by decide))
  have hretries := State.parNowN_congr (hk.frame .cfg (by decide)) (hk.frame .lag (by decide)) P.LOOP_OC_RETRIES l
  have hexpired := State.parNowN_congr (hexpire.frame .cfg (by decide)) (hexpire.frame .lag (by decide)) P.LOOP_OC_RETRIES l
  have hu : (u.shortExpire l).loop[l].oc.retries < (u.shortExpire l).parNowN P.LOOP_OC_RETRIES l := by
    rw [hexpired, hretries, u.shortExpire_loop, hoc]
    exact hleft
  have htally : (u.shortExpire l).loop[l].tally = (s.shortExpire l).loop[l].tally := by
    rw [u.shortExpire_loop, s.shortExpire_loop]
    exact congrArg (fun x : LoopTally => { x with startShort := true }) (Loop.tally_of_counted hct hoc)
  rw [if_pos hshort] at hexec
  exact ⟨_, hexec, (State.ocTrip_of_retry (.inl hu) 3).1.after htally⟩

end

/-! The end of the off time. -/

/-- HICCUP_OFF_END with a retry left and the dies ready: the record, and a start. -/
theorem exec_hiccupOffEnd_of_ready {s : State} {l : Fin 16} (hst : s.loop[l].ct.state = .hiccupOff) (hdue : s.offDue l = true)
    (hleft : s.loop[l].oc.retries < s.parN P.LOOP_OC_RETRIES l ∨ s.par P.LOOP_OC_RETRIES l = 255) (hready : s.canStart l = true) :
    exec (.hiccupOffEnd l) s = .next ((s.log 0x0502 l.val (min 255 (s.loop[l].oc.retries + 1) : Nat)).startLoop l
      (min 255 (s.loop[l].oc.retries + 1))) := by
  show execHiccupOffEnd l s = _
  unfold execHiccupOffEnd
  rw [if_pos ⟨hst, hdue⟩]
  dsimp only
  rw [if_pos hleft, if_pos hready]

/-- With a retry left and the dies not ready: STOPPED (R109). -/
theorem exec_hiccupOffEnd_of_not_ready {s : State} {l : Fin 16} (hst : s.loop[l].ct.state = .hiccupOff) (hdue : s.offDue l = true)
    (hleft : s.loop[l].oc.retries < s.parN P.LOOP_OC_RETRIES l ∨ s.par P.LOOP_OC_RETRIES l = 255) (hready : s.canStart l = false) :
    ∃ t, exec (.hiccupOffEnd l) s = .next t ∧ s.Stops t l 4 := by
  refine ⟨s.stopLoop l 4 .none, ?_, s.stopLoop_stops l 4 .none⟩
  show execHiccupOffEnd l s = _
  unfold execHiccupOffEnd
  rw [if_pos ⟨hst, hdue⟩]
  dsimp only
  rw [if_pos hleft, if_neg (Bool.eq_false_iff.1 hready)]

/-- With no retry left: FAULTED, the supervisor latched. -/
theorem exec_hiccupOffEnd_of_none_left {s : State} {l : Fin 16} (hst : s.loop[l].ct.state = .hiccupOff) (hdue : s.offDue l = true)
    (hnone : ¬ (s.loop[l].oc.retries < s.parN P.LOOP_OC_RETRIES l ∨ s.par P.LOOP_OC_RETRIES l = 255)) :
    ∃ t, exec (.hiccupOffEnd l) s = .next t ∧ t.loop[l].ct.state = .faulted ∧ t.loop[l].ct.cause = 3 ∧ t.loop[l].oc.st = .latched := by
  have hexec : exec (.hiccupOffEnd l) s = .next (((s.log 0x0503 l.val (s.loop[l].oc.retries + s.loop[l].oc.cause * 256 : Nat)).faultLoopAt
      l 3 .none).modOc l (fun x => { x with st := .latched })) := by
    show execHiccupOffEnd l s = _
    unfold execHiccupOffEnd
    rw [if_pos ⟨hst, hdue⟩]
    dsimp only
    rw [if_neg hnone]
  refine ⟨_, hexec, ?_⟩
  have hfault := (s.log 0x0503 l.val (s.loop[l].oc.retries + s.loop[l].oc.cause * 256 : Nat)).faultLoopAt_leaves l 3 .none
  generalize (s.log 0x0503 l.val (s.loop[l].oc.retries + s.loop[l].oc.cause * 256 : Nat)).faultLoopAt l 3 .none = u at hfault ⊢
  rw [State.modOc, State.modLoop_loop_same]
  exact ⟨hfault.state, hfault.reason, rfl⟩

/-- A loop restarted as its next retry. -/
theorem exec_hiccupOffEnd_restarts {s : State} {l : Fin 16} (hst : s.loop[l].ct.state = .hiccupOff) (hdue : s.offDue l = true)
    (hleft : s.loop[l].oc.retries < s.parN P.LOOP_OC_RETRIES l ∨ s.par P.LOOP_OC_RETRIES l = 255) (hready : s.canStart l = true) :
    ∃ t, exec (.hiccupOffEnd l) s = .next t ∧ t.loop[l].ct.state = .starting ∧ t.loop[l].oc.retries = min 255 (s.loop[l].oc.retries + 1) ∧
      t.loop[l].oc.st = .watch ∧ t.evq.take (s.evq.length + 1) =
        s.evq ++ [⟨0x0502, l.val, toWord 64 (min 255 (s.loop[l].oc.retries + 1) : Nat), s.clk.shelf⟩] := by
  have hexec := exec_hiccupOffEnd_of_ready hst hdue hleft hready
  obtain ⟨hlog, hstate, hretries, hwatch⟩ := (s.log 0x0502 l.val (min 255 (s.loop[l].oc.retries + 1) : Nat)).startLoop_starts l
    (min 255 (s.loop[l].oc.retries + 1))
  refine ⟨_, hexec, hstate, hretries, hwatch, ?_⟩
  have htake := (List.prefix_iff_eq_take.1 hlog).symm
  rwa [State.log_evq, List.length_append, List.length_singleton] at htake

/-- Settles O17: the trips by `State.Trips`, behind what a report or the start-short timer leaves of the supervisor. -/
theorem overcurrentSupervision : Obligations.OvercurrentSupervision := by
  unfold Obligations.OvercurrentSupervision
  refine ⟨?counts, ?trips, ?tripsShort, ?retry, ?unlimited, ?notReady, ?noneLeft, ?foldBack, ?hiccup, ?noShort, ?clean⟩
  case counts =>
    intro s l r hreps hwhole hwatch hasm hrep hwin hbelow
    obtain ⟨u, hk, hord, hct, hoc, hexec⟩ := exec_limitReport_of_below (.mk hreps hwhole hwatch hasm hrep hwin) hbelow
    refine ⟨u, hexec, ?_⟩
    rw [hoc]
    exact ⟨rfl, hord, rfl, rfl, hct, hk.frame .evq (by decide)⟩
  case retry =>
    intro s l hst hdue hleft hready
    exact exec_hiccupOffEnd_restarts hst hdue (.inl hleft) hready
  case unlimited =>
    intro s l hst hdue hall hready
    obtain ⟨t, ht, hstate, hretries, -⟩ := exec_hiccupOffEnd_restarts hst hdue (.inr hall) hready
    exact ⟨t, ht, hstate, hretries⟩
  case trips =>
    intro s l r hreps hwhole hlim hwatch hasm hrep hwin hlive hmode hfull hleft hshort
    obtain ⟨t, ht, htrip, hoff, hrecord⟩ :=
      exec_limitReport_trips (.mk hreps hwhole hwatch hasm hrep hwin) hlim hlive hmode hfull hleft hshort
    exact ⟨t, ht, htrip.state, hoff, htrip.trips, htrip.cause, htrip.icmd, hrecord⟩
  case tripsShort =>
    intro s l r hreps hwhole hlim hwatch hasm hrep hwin hlive hmode hfull hleft hshort
    obtain ⟨t, ht, htrip⟩ :=
      exec_limitReport_trips_short (.mk hreps hwhole hwatch hasm hrep hwin) hlim hlive hmode hfull hleft hshort
    obtain ⟨hflag, htrips⟩ := htrip.startShort_of_shortExpire
    exact ⟨t, ht, htrip.state, htrip.cause, htrips, hflag, htrip.shortT⟩
  case notReady =>
    intro s l hst hdue hleft hready
    obtain ⟨t, ht, hstops⟩ := exec_hiccupOffEnd_of_not_ready hst hdue (.inl hleft) hready
    exact ⟨t, ht, hstops.state, hstops.reason, hstops.retries⟩
  case noneLeft =>
    intro s l hst hdue hnone hlimit
    exact exec_hiccupOffEnd_of_none_left hst hdue (not_or.2 ⟨Nat.not_lt.2 hnone, hlimit⟩)
  case foldBack =>
    intro s l q hat hq hmode
    refine ⟨_, exec_startShortExpire_of_foldBack hat hmode, ?_⟩
    rw [s.shortExpire_loop, State.shortExpire_evq hat hq]
    exact ⟨rfl, rfl, rfl, rfl⟩
  case hiccup =>
    intro s l hat hmode hreps hbelow
    obtain ⟨n, hn⟩ := Option.ne_none_iff_exists'.1 hat
    obtain ⟨t, ht, st, hstarting, hrunning, htrip⟩ := exec_startShortExpire_of_hiccup hn hmode hreps hbelow
    obtain ⟨hflag, htrips⟩ := htrip.startShort_of_shortExpire
    exact ⟨t, ht, State.not_live_of_state htrip.state hstarting hrunning, hflag, htrips, htrip.cause⟩
  case noShort =>
    intro s l hnone
    refine ⟨s, ?_, rfl⟩
    show execStartShortExpire l s = _
    rw [execStartShortExpire, hnone]
  case clean =>
    intro s l hwatch hrun hdue
    refine ⟨_, congrArg Host.Outcome.next (if_pos ⟨hwatch, hrun, hdue⟩), ?_⟩
    rw [State.modOc, State.modLoop_loop_same]
    exact ⟨rfl, rfl⟩

end Sys2Proof.Machine

/-! PROOFS. Reports of a phase die (R109, R135, R234, R317, R537): each kind of report as the stems take it, and the values a die publishes. -/

namespace Sys2Proof.Machine

theorem State.diesOf_congr {s t : State} (h : t.cfg = s.cfg) (l : Fin 16) : t.diesOf l = s.diesOf l := by
  have hin : t.inLoop l = s.inLoop l := funext fun p => by
    rw [State.inLoop, State.inLoop, State.parN, State.parN, State.par_congr h]
  rw [State.diesOf, State.diesOf, State.phasesOf, State.phasesOf, hin]

/-- The first report of a die taken from it, and stamped (R23). -/
def State.dieReportTaken (s : State) (d : Fin 4) (rs : List DieReport) : State := (s.modDie d (fun x => { x with reports := rs })).stamp

theorem State.dieReportTaken_reports (s : State) (d : Fin 4) (rs : List DieReport) : (s.dieReportTaken d rs).die[d].reports = rs :=
  congrArg Die.reports (s.modDie_die_same d _)

/-- What the stems make of a report (R109, R135, R234, R537). -/
def State.reportHeard (s : State) (d : Fin 4) : DieReport → State
  | .safeEntry _ => (s.safeHeard d).faultScan
  | .armed => s.faultScan
  | .shedAbort l cause mask => s.abortHeard l cause mask
  | .currentSum l sum => s.currentHeard l sum

theorem exec_phaseDieReport_of_report {s : State} {d : Fin 4} {r : DieReport} {rs : List DieReport} (ha : s.hasActive = true)
    (h : s.die[d].reports = r :: rs) : exec (.phaseDieReport d) s = .next ((s.dieReportTaken d rs).reportHeard d r) := by
  show execPhaseDieReport d s = _
  unfold execPhaseDieReport
  rw [h]
  dsimp only
  rw [if_neg (by rw [ha]; decide)]
  cases r with
  | safeEntry cause => rfl
  | armed => rfl
  | shedAbort l cause mask => rfl
  | currentSum l sum => rfl

theorem exec_phaseDieReport_of_none {s : State} {d : Fin 4} (h : s.die[d].reports = [] ∨ s.hasActive = false) :
    exec (.phaseDieReport d) s = .next s := by
  show execPhaseDieReport d s = _
  unfold execPhaseDieReport
  split
  next => rfl
  next r rs hr => exact if_pos (h.resolve_left (by rw [hr]; exact List.cons_ne_nil r rs))

/-! An entry into SAFE. -/

/-- A loop with a phase on the die is not live. -/
def State.OffDie (s : State) (d : Fin 4) (l : Fin 16) : Prop := (s.diesOf l).contains d = true → s.live l = false

/-- A loop of the die stops where it is live (R109). -/
def State.stopOn (s : State) (d : Fin 4) (l : Fin 16) : State := if (s.diesOf l).contains d ∧ s.live l then s.stopLoop l 1 .boundary else s

theorem State.safeHeard_eq (s : State) (d : Fin 4) : s.safeHeard d = (fins 16).foldl (fun t l => t.stopOn d l) (s.spateReq 5 d.val) := rfl

theorem State.stopOn_keeps (s : State) (d : Fin 4) (l : Fin 16) :
    Keeps (maskOf [.evq, .die, .ph, .pst, .loop, .fault, .lag, .passed]) s (s.stopOn d l) :=
  Keeps.ite (State.stopLoop_keeps l 1 .boundary (Keeps.refl _ s) (.ofParts (by decide))) (Keeps.refl _ s)

theorem State.stopOn_atLoop (s : State) (d : Fin 4) (l : Fin 16) : AtLoop Loop.tally l s (s.stopOn d l) :=
  .ite (s.stopLoop_stops l 1 .boundary).acts .refl

theorem State.stopOn_own (s : State) (d : Fin 4) (l : Fin 16) : (s.stopOn d l).OffDie d l := by
  unfold State.stopOn
  split
  next => exact fun _ => State.not_live_of_state (s.stopLoop_stops l 1 .boundary).state (by decide) (by decide)
  next h => exact fun hd => Bool.eq_false_iff.2 fun hlive => h ⟨hd, hlive⟩

theorem State.stopOn_other (s : State) (d : Fin 4) (l j : Fin 16) (hj : l ≠ j) (h : s.OffDie d l) : (s.stopOn d j).OffDie d l := by
  intro hd
  rw [State.diesOf_congr ((s.stopOn_keeps d j).frame .cfg (by decide))] at hd
  exact (State.live_congr (congrArg Loop.ct ((s.stopOn_atLoop d j).others l hj))).trans (h hd)

/-- The loops with a phase on a die in SAFE are not live, and the reports that wait are as they were. -/
theorem State.safeHeard_spec (s : State) (d : Fin 4) :
    (∀ l, (s.safeHeard d).OffDie d l) ∧ (∀ e : Fin 4, (s.safeHeard d).die[e].reports = s.die[e].reports) ∧
      (s.safeHeard d).ord = s.ord ∧ (s.safeHeard d).cfg = s.cfg := by
  have hkeeps : Keeps (maskOf [.evq, .die, .ph, .pst, .loop, .fault, .lag, .passed]) (s.spateReq 5 d.val) (s.safeHeard d) :=
    List.foldlRecOn (fins 16) _ (Keeps.refl _ _) fun u hu l _ => hu.trans (u.stopOn_keeps d l)
  refine ⟨fun l => ?_, fun e => ?_, hkeeps.frame .ord (by decide), hkeeps.frame .cfg (by decide)⟩
  · exact foldl_establishes (Q := fun l u => u.OffDie d l) (fun u l => u.stopOn_own d l) (fun u l j => u.stopOn_other d l j)
      (List.mem_finRange l) _
  · exact List.foldlRecOn (motive := fun u : State => u.die[e].reports = s.die[e].reports) (fins 16) _ rfl fun u hu l _ =>
      ((u.stopOn_atLoop d l).reports e).trans hu

/-! A current sum, and published values. -/

theorem State.currentHeard_keeps_rest (s : State) (l : Fin 16) (sum : Int) : Keeps (maskOf [.batt]) s (s.currentHeard l sum) :=
  State.currentHeard_keeps l sum (Keeps.refl _ s) (.ofParts (by decide))

theorem exec_phaseTlmPublish_of_not_active {s : State} (h : s.hasActive = false) (fast : Bool) : exec (.phaseTlmPublish fast) s = .next s :=
  congrArg Host.Outcome.next (if_pos h)

/-- With no phase in service nothing is published (R85). -/
theorem exec_phaseTlmPublish_of_no_service {s : State} (h : ∀ p : Fin 48, s.ph[p].inService = false) (fast : Bool) :
    exec (.phaseTlmPublish fast) s = .next s := by
  refine congrArg Host.Outcome.next ((ite_eq_left_iff).2 fun _ => ?_)
  refine List.foldlRecOn (motive := fun t => t = s) (fins 4) _ rfl fun t ht d _ => ?_
  have hnone : (phasesOfDie d).filter
      (fun (p : Fin 48) => s.dieOn d && s.ph[p].inService && s.parNowN P.PHASE_TLM_RATE p == 1 + b2n fast) = [] :=
    List.filter_eq_nil_iff.2 fun p _ hp => by
      rw [h p, Bool.and_false, Bool.false_and] at hp
      exact Bool.false_ne_true hp
  rw [hnone]
  exact ht

/-- Settles O12: each report by `State.reportHeard`, the published values by what the command keeps. -/
theorem dieReportsReachTheStems : Obligations.DieReportsReachTheStems := by
  unfold Obligations.DieReportsReachTheStems
  refine ⟨?abort, ?sum, ?safe, ?armed, ?none, ?publish⟩
  case abort =>
    intro s d l cause mask rs ha h
    refine ⟨_, exec_phaseDieReport_of_report ha h, s.dieReportTaken_reports d rs, rfl, ?_⟩
    have hown : ((s.dieReportTaken d rs).abortHeard l cause mask).loop[l] = _ := State.modLoop_loop_same _ l _
    rw [State.reportHeard, hown]
    exact ⟨rfl, rfl, rfl, rfl, rfl⟩
  case sum =>
    intro s d l sum rs ha h
    have hk := (s.dieReportTaken d rs).currentHeard_keeps_rest l sum
    refine ⟨_, exec_phaseDieReport_of_report ha h, ?_, hk.frame .ord (by decide), hk.frame .loop (by decide), hk.frame .ph (by decide)⟩
    rw [State.reportHeard, show ((s.dieReportTaken d rs).currentHeard l sum).die = _ from hk.frame .die (by decide)]
    exact s.dieReportTaken_reports d rs
  case safe =>
    intro s d cause rs ha h
    obtain ⟨hoff, hreports, hord, hcfg⟩ := (s.dieReportTaken d rs).safeHeard_spec d
    have hk := ((s.dieReportTaken d rs).safeHeard d).faultScan_keeps_rest
    refine ⟨_, exec_phaseDieReport_of_report ha h, ?_, (hk.frame .ord (by decide)).trans hord, fun l hl => ?_⟩
    · rw [State.reportHeard, State.faultScan_die, hreports]
      exact s.dieReportTaken_reports d rs
    · have hlive : ((s.dieReportTaken d rs).safeHeard d).live l = false := hoff l (by rw [State.diesOf_congr hcfg]; exact hl)
      have hloop : ((s.dieReportTaken d rs).safeHeard d).faultScan.loop = _ := hk.frame .loop (by decide)
      exact (State.live_congr (by rw [State.reportHeard, hloop])).trans hlive
  case armed =>
    intro s d rs ha h
    have hk := (s.dieReportTaken d rs).faultScan_keeps_rest
    refine ⟨_, exec_phaseDieReport_of_report ha h, ?_, hk.frame .ord (by decide), hk.frame .loop (by decide), hk.frame .ph (by decide)⟩
    rw [State.reportHeard, State.faultScan_die]
    exact s.dieReportTaken_reports d rs
  case none => exact fun s d h => ⟨s, exec_phaseDieReport_of_none h, rfl⟩
  case publish =>
    intro s fast
    obtain ⟨t, ht, hk⟩ : Answers (maskOf [.pool]) s (exec (.phaseTlmPublish fast) s) := exec_answers (.phaseTlmPublish fast) s
    refine ⟨t, ht, hk.frame .ord (by decide), hk.frame .evq (by decide), hk.frame .ph (by decide), fun h => ?_, fun h => ?_⟩
    · exact Host.Outcome.next.inj (ht.symm.trans (exec_phaseTlmPublish_of_not_active h fast))
    · exact Host.Outcome.next.inj (ht.symm.trans (exec_phaseTlmPublish_of_no_service h fast))

end Sys2Proof.Machine

/-! PROOFS. The sources of the FAULT pins (R143, R175, R181): a list of flags as the bits of a number, and the two sources that the Bank die
gives. -/

namespace Sys2Proof.Machine

/-- The bits of the number that flags make, numbered from `n`, are those of a binary numeral with its lowest bit first. -/
theorem sum_zipIdx_two_pow (bs : List Bool) (n : Nat) :
    ((bs.zipIdx n).map (fun q => if q.1 then 2 ^ q.2 else 0)).sum = 2 ^ n * bs.foldr Nat.bit 0 := by
  induction bs generalizing n with
  | nil => rfl
  | cons b bs ih =>
    rw [List.zipIdx_cons, List.map_cons, List.sum_cons, ih, List.foldr_cons, Nat.bit_val, Nat.pow_succ]
    cases b with
    | false => simp [Nat.mul_assoc]
    | true => simp only [if_true, Bool.toNat_true]; ring

theorem testBit_foldr_bit (bs : List Bool) (i : Nat) : (bs.foldr Nat.bit 0).testBit i = bs.getD i false := by
  induction bs generalizing i with
  | nil => exact Nat.zero_testBit i
  | cons b bs ih =>
    cases i with
    | zero => exact Nat.testBit_bit_zero b _
    | succ i => rw [List.foldr_cons, Nat.testBit_bit_succ, ih, List.getD_cons_succ]

/-- Each flag is the bit of its number. -/
theorem testBit_sum_zipIdx (bs : List Bool) (i : Nat) :
    ((bs.zipIdx.map (fun q : Bool × Nat => if q.1 then 2 ^ q.2 else 0)).sum).testBit i = bs.getD i false := by
  rw [sum_zipIdx_two_pow, Nat.pow_zero, Nat.one_mul]
  exact testBit_foldr_bit bs i

/-- FEED_FAULT (R175): a feed of the last report of the Bank die is TRIPPED or LOCKOUT. -/
theorem State.faultActive_feedFault (s : State) (m : Fin 4) : (s.faultActive m).testBit 6 =
    (fins 2).any (fun f => s.bank.seen.feed[f].state == .tripped || s.bank.seen.feed[f].state == .lockout) :=
  testBit_sum_zipIdx _ 6

/-- FEED_LOSS (R181): the feed-loss line as the stems last had it. -/
theorem State.faultActive_feedLoss (s : State) (m : Fin 4) : (s.faultActive m).testBit 7 = s.bank.seenLine :=
  testBit_sum_zipIdx _ 7

/-- Settles O19: each source by its bit of `State.faultActive`. -/
theorem feedFaultSources : Obligations.FeedFaultSources := by
  unfold Obligations.FeedFaultSources
  refine fun s m => ⟨?_, by rw [State.faultActive_feedLoss]⟩
  rw [State.faultActive_feedFault]
  simp only [fins, List.any_eq_true, List.mem_finRange, true_and, Bool.or_eq_true, beq_iff_eq]

end Sys2Proof.Machine

/-! PROOFS. Ebb's sheds (R131, R134, R135, R138): the end of a shed, its abort at a die, the hold-off, and the window of 1 s. -/

namespace Sys2Proof.Machine

/-- Where the operation of each index keeps what is read at the others, an index of the list is left as its own operation leaves it, from
a state in which it reads as at the beginning. -/
theorem foldl_reads {ι α : Type} {f : State → ι → State} {sel : State → ι → α} (hother : ∀ u i j, i ≠ j → sel (f u j) i = sel u i)
    {is : List ι} (hn : is.Nodup) {i : ι} (h : i ∈ is) (s : State) : ∃ u, sel u i = sel s i ∧ sel (is.foldl f s) i = sel (f u i) i := by
  induction is generalizing s with
  | nil => simp at h
  | cons j js ih =>
    obtain ⟨hj, hjs⟩ := List.nodup_cons.1 hn
    rcases List.mem_cons.1 h with rfl | hi
    · refine ⟨s, rfl, List.foldlRecOn (motive := fun t => sel t i = sel (f s i) i) js f rfl fun t ht k hk => ?_⟩
      exact (hother t i k (ne_of_mem_of_not_mem hk hj).symm).trans ht
    · obtain ⟨u, hu, ht⟩ := ih hjs hi (f s j)
      exact ⟨u, hu.trans (hother s i j (ne_of_mem_of_not_mem hi hj)), ht⟩

/-! The end of a shed. -/

/-- A phase SHED and counted, not yet recorded (R134). -/
def State.shedEnded (s : State) (p : Fin 48) (l : Fin 16) : State :=
  ((s.outputsLow p).modPh p (fun x => { x with shed := .shed })).modEb l (fun e => { e with shedCnt := bump e.shedCnt })

theorem State.shedEnded_ph_ne (s : State) {p q : Fin 48} (h : q ≠ p) (l : Fin 16) : (s.shedEnded p l).ph[q] = s.ph[q] :=
  (s.modPl_othersKept p _).trans (State.modPh_othersKept _ p _) q h

theorem State.shedEnded_ph_same (s : State) (p : Fin 48) (l : Fin 16) :
    (s.shedEnded p l).ph[p].shed = .shed ∧ (s.shedEnded p l).ph[p].pl.pwmh = false ∧ (s.shedEnded p l).ph[p].pl.pwml = false := by
  have hph : (s.shedEnded p l).ph[p] = { (s.outputsLow p).ph[p] with shed := .shed } := State.modPh_ph_same _ p _
  rw [hph, State.outputsLow, State.modPl, State.modPh_ph_same]
  exact ⟨rfl, rfl, rfl⟩

theorem State.shedEnded_loop (s : State) (p : Fin 48) (l : Fin 16) : (s.shedEnded p l).loop[l] =
    { s.loop[l] with eb := { s.loop[l].eb with shedCnt := bump s.loop[l].eb.shedCnt } } :=
  State.modLoop_loop_same _ l _

/-- The phase takes no slots from here on; the other active phases of a loop are as they were (R149). -/
theorem State.shedEnded_activeOf (s : State) (p : Fin 48) (l m : Fin 16) :
    (s.shedEnded p l).activeOf m = (s.activeOf m).filter (fun q => q ≠ p) := by
  have hof : (s.shedEnded p l).phasesOf m = s.phasesOf m := rfl
  rw [State.activeOf, State.activeOf, List.filter_filter, hof]
  refine List.filter_congr fun q _ => ?_
  by_cases hq : q = p
  · have hshed : (s.shedEnded p l).ph[q].shed = .shed := hq ▸ (s.shedEnded_ph_same p l).1
    rw [hshed]
    simp [hq]
  · rw [s.shedEnded_ph_ne hq l]
    simp [hq]

theorem exec_shedComplete_of_done {s : State} {p : Fin 48} {l : Fin 16} (hl : s.loopOf p = some l) (hd : s.shedDone p = true) :
    exec (.shedComplete p) s =
      .next ((s.shedEnded p l).log 0x0510 p.val (((s.activeOf l).filter (fun q => q ≠ p)).length : Nat)) := by
  show execShedComplete p s = _
  unfold execShedComplete
  rw [hl, ← s.shedEnded_activeOf p l l]
  exact congrArg Host.Outcome.next (if_pos hd)

/-! The abort of a shed. -/

theorem State.inLoop_of_loopOf {s : State} {p : Fin 48} {l : Fin 16} (h : s.loopOf p = some l) : s.inLoop l p = true := by
  simp only [State.loopOf, Option.dite_none_right_eq_some, Option.some.injEq] at h
  obtain ⟨hlt, rfl⟩ := h
  exact beq_self_eq_true _

theorem State.mem_phasesOn {s : State} {d : Fin 4} {p : Fin 48} {l : Fin 16} (hd : dieOf p = d) (hl : s.loopOf p = some l) :
    p ∈ s.phasesOn d l :=
  List.mem_filter.2 ⟨List.mem_filter.2 ⟨List.mem_finRange p, s.inLoop_of_loopOf hl⟩, beq_iff_eq.2 hd⟩

/-- A shed in progress is cancelled (R135). -/
def State.shedCancel (s : State) (p : Fin 48) : State :=
  s.modPh p (fun x => if x.shed = .shedding then { x with shed := .active, hot := false } else x)

/-- The phases of a loop on a die that are not ACTIVE. -/
def State.shedOn (s : State) (d : Fin 4) (l : Fin 16) : List (Fin 48) := (s.phasesOn d l).filter (fun p => s.ph[p].shed != .active)

/-- Every shed in progress of a loop on a die is cancelled. -/
def State.shedsCancelled (s : State) (d : Fin 4) (l : Fin 16) : State := (s.shedOn d l).foldl State.shedCancel s

/-- The phases an abort adds back, as a mask: those SHED (R135). -/
def State.shedMask (s : State) (d : Fin 4) (l : Fin 16) : Nat :=
  (((s.phasesOn d l).filter (fun p => s.ph[p].shed == .shed)).map (fun p => 2 ^ p.val)).sum

theorem State.shedMask_of_shedOn (s : State) (d : Fin 4) (l : Fin 16) :
    (((s.shedOn d l).filter (fun p => s.ph[p].shed == .shed)).map (fun p => 2 ^ p.val)).sum = s.shedMask d l := by
  rw [State.shedMask, State.shedOn, List.filter_filter]
  congr 2
  refine List.filter_congr fun p _ => ?_
  cases s.ph[p].shed with
  | active => rfl
  | shedding => rfl
  | shed => rfl

/-- What a die holds of the loop after the abort: no mask, and shed bits ignored from then on; the report follows those that wait (R135). -/
def Die.aborted (x : Die) (l : Fin 16) (cause mask : Nat) : Die :=
  { x with
    lp := upd x.lp l (fun y => { y with maskNext := 0, ignoreShed := true, slopeSeen := false })
    reports := x.reports ++ [.shedAbort l cause mask] }

/-- A die aborts the sheds of a loop (R134, R135). -/
def State.shedAborted (s : State) (d : Fin 4) (l : Fin 16) (cause : Nat) : State :=
  ((s.shedsCancelled d l).modLp d l (fun x => { x with maskNext := 0, ignoreShed := true, slopeSeen := false })).modDie d
    (fun x => { x with reports := x.reports ++ [.shedAbort l cause (s.shedMask d l)] })

theorem exec_shedAbort_of_cause {s : State} {d : Fin 4} {l : Fin 16} {cause : Nat} (h : s.abortCause d l cause = true) :
    exec (.shedAbort d l cause) s = .next (s.shedAborted d l cause) := by
  rw [State.shedAborted, ← State.shedMask_of_shedOn]
  exact if_pos h

/-- The cancelled sheds write phases alone. -/
theorem State.shedsCancelled_keeps (s : State) (d : Fin 4) (l : Fin 16) : Keeps (maskOf [.ph]) s (s.shedsCancelled d l) :=
  Keeps.foldl _ (Keeps.refl _ s) fun _ p hu => State.modPh_keeps p _ hu (.ofParts (by decide)) fun _ => by split <;> exact ⟨id, id⟩

theorem State.shedAborted_die (s : State) (d : Fin 4) (l : Fin 16) (cause : Nat) :
    (s.shedAborted d l cause).die[d] = s.die[d].aborted l cause (s.shedMask d l) := by
  rw [State.shedAborted, State.modDie_die_same, State.modLp, State.modDie_die_same,
    show (s.shedsCancelled d l).die = s.die from (s.shedsCancelled_keeps d l).frame .die (by decide)]
  rfl

theorem State.shedCancel_ph_same (s : State) (p : Fin 48) : (s.shedCancel p).ph[p] =
    if s.ph[p].shed = .shedding then { s.ph[p] with shed := .active, hot := false } else s.ph[p] :=
  s.modPh_ph_same p _

theorem State.shedsCancelled_active {s : State} {d : Fin 4} {l : Fin 16} {p : Fin 48} (hd : dieOf p = d) (hl : s.loopOf p = some l)
    (h : s.ph[p].shed = .shedding) : (s.shedsCancelled d l).ph[p].shed = .active := by
  have hn : (s.shedOn d l).Nodup := (((List.nodup_finRange 48).filter _).filter _).filter _
  have hp : p ∈ s.shedOn d l := List.mem_filter.2 ⟨State.mem_phasesOn hd hl, by rw [h]; rfl⟩
  obtain ⟨u, hu, ht⟩ := foldl_reads (f := State.shedCancel) (sel := fun (t : State) (q : Fin 48) => t.ph[q])
    (fun u q r hqr => u.modPh_ph_ne hqr _) hn hp s
  have hshed : u.ph[p].shed = .shedding := (congrArg Phase.shed hu).trans h
  rw [State.shedsCancelled, show ((s.shedOn d l).foldl State.shedCancel s).ph[p] = _ from ht, State.shedCancel_ph_same, if_pos hshed]

/-! The hold-off. -/

theorem exec_ebbHoldoffEnd_of_due {s : State} {l : Fin 16} (h : s.holdoffDue l = true) :
    exec (.ebbHoldoffEnd l) s = .next (s.modEb l (fun e => { e with holdOff := false })) :=
  congrArg Host.Outcome.next (if_pos h)

theorem exec_ebbHoldoffEnd_of_not_due {s : State} {l : Fin 16} (h : s.holdoffDue l = false) : exec (.ebbHoldoffEnd l) s = .next s :=
  congrArg Host.Outcome.next (if_neg (by rw [h]; decide))

/-! The window. -/

/-- The results of a window that ends, and the next one empty (R138). -/
def PhaseStat.closed (x : PhaseStat) (whole : Bool) : PhaseStat :=
  { x with
    iMean := if x.winN = 0 then 0 else nearHalfAway x.winSum x.winN
    iRms := if x.winN = 0 then 0 else isqrt (x.winSq / x.winN)
    winSum := 0, winSq := 0, winN := 0, winWhole := whole }

theorem State.closeWindow_pst (s : State) (p : Fin 48) :
    (s.closeWindow p).pst = upd s.pst p (·.closed (s.ph[p].slot.isSome && s.ph[p].shed == .active)) := by
  unfold State.closeWindow
  extract_lets x s' m
  split
  · rfl
  · rfl

theorem State.closeWindow_ph (s : State) (p : Fin 48) : (s.closeWindow p).ph = upd s.ph p (fun x => { x with maxdutyWin := 0 }) := by
  unfold State.closeWindow
  extract_lets x s' m
  split
  next => rfl
  next h =>
    have hm : s.ph[p].maxdutyWin = 0 := Nat.eq_zero_of_not_pos h
    have hkept : { s.ph[p] with maxdutyWin := 0 } = s.ph[p] := congrArg (fun n => { s.ph[p] with maxdutyWin := n }) hm.symm
    exact (upd_id hkept).symm

/-- Every phase's window ended, the input stamped (R23, R138). -/
def State.windowsClosed (s : State) : State := (fins 48).foldl State.closeWindow s.stamp

theorem State.windowsClosed_pst (s : State) (p : Fin 48) : ∃ whole, s.windowsClosed.pst[p] = s.pst[p].closed whole := by
  obtain ⟨u, hu, ht⟩ := foldl_reads (f := State.closeWindow) (sel := fun (t : State) (q : Fin 48) => t.pst[q])
    (fun u q r hqr => by rw [State.closeWindow_pst, upd_get, if_neg hqr]) (List.nodup_finRange 48) (List.mem_finRange p) s.stamp
  refine ⟨u.ph[p].slot.isSome && u.ph[p].shed == .active, ht.trans ?_⟩
  rw [State.closeWindow_pst, upd_get, if_pos rfl]
  exact congrArg (PhaseStat.closed · _) hu

theorem State.windowsClosed_maxdutyWin (s : State) (p : Fin 48) : s.windowsClosed.ph[p].maxdutyWin = 0 :=
  congrArg Phase.maxdutyWin
    (foldl_upd_of_state (sel := State.ph) (g := fun _ x => { x with maxdutyWin := 0 }) State.closeWindow_ph s.stamp p)

/-- What the operations of Ebb at the end of a window keep of the windows: the statistics, and the counts of duty limits. -/
structure WindowsKept (s t : State) : Prop where
  pst : t.pst = s.pst
  maxdutyWin : ∀ p : Fin 48, t.ph[p].maxdutyWin = s.ph[p].maxdutyWin

theorem WindowsKept.refl (s : State) : WindowsKept s s := ⟨rfl, fun _ => rfl⟩

theorem WindowsKept.trans {s t u : State} (h : WindowsKept s t) (g : WindowsKept t u) : WindowsKept s u :=
  ⟨g.pst.trans h.pst, fun p => (g.maxdutyWin p).trans (h.maxdutyWin p)⟩

theorem WindowsKept.of_keeps {s t : State} (h : Keeps (maskOf [.evq, .loop, .fault]) s t) : WindowsKept s t :=
  ⟨h.frame .pst (by decide), fun p => by rw [show t.ph = s.ph from h.frame .ph (by decide)]⟩

theorem WindowsKept.foldl {ι : Type} {f : State → ι → State} (h : ∀ u i, WindowsKept u (f u i)) (is : List ι) (s : State) :
    WindowsKept s (is.foldl f s) :=
  List.foldlRecOn (motive := WindowsKept s) is f (.refl s) fun u hu i _ => hu.trans (h u i)

theorem State.imbalanceStep_windowsKept (s : State) (entropy : Nat) (whole : Fin 48 → Bool) (l : Fin 16) :
    WindowsKept s (s.imbalanceStep entropy whole l) :=
  .of_keeps (State.imbalanceStep_keeps entropy whole l (Keeps.refl _ s) (.ofParts (by decide)))

theorem State.faultScan_windowsKept (s : State) : WindowsKept s s.faultScan :=
  .of_keeps (State.faultScan_keeps (Keeps.refl _ s) (.ofParts (by decide)))

theorem State.modPh_windowsKept (s : State) (p : Fin 48) {f : Phase → Phase} (h : ∀ x, (f x).maxdutyWin = x.maxdutyWin) :
    WindowsKept s (s.modPh p f) := by
  refine ⟨rfl, fun q => ?_⟩
  by_cases hq : q = p
  · rw [hq, State.modPh_ph_same, h]
  · rw [State.modPh_ph_ne s hq]

theorem WindowsKept.record {s t : State} {code src : Nat} {data : Int} (h : WindowsKept s t) : WindowsKept s (t.log code src data) :=
  ⟨h.pst, h.maxdutyWin⟩

theorem State.modEb_windowsKept (s : State) (l : Fin 16) (f : EbbPg → EbbPg) : WindowsKept s (s.modEb l f) := ⟨rfl, fun _ => rfl⟩

/-- HOT_SHED of a phase marks it and its loop's mask (R139). -/
theorem State.hotStep_windowsKept (s : State) (l : Fin 16) : WindowsKept s (s.hotStep l) := by
  unfold State.hotStep
  extract_lets lim cool s'
  have hcool : WindowsKept s s' := s.modEb_windowsKept l _
  split
  · exact .refl s
  split
  · exact hcool
  refine hcool.trans (WindowsKept.foldl (fun u p => ?_) _ _)
  split
  · exact ((u.modEb_windowsKept l _).trans (State.modPh_windowsKept _ p fun _ => by rfl)).record
  · exact .refl u

/-- The windows closed, and every loop's imbalance examined (R138, R139). -/
def State.imbalanceEnded (s : State) (entropy : Nat) : State :=
  (fins 16).foldl (fun t l => t.imbalanceStep entropy (fun p => s.pst[p].winWhole) l) s.windowsClosed

/-- Behind that, every loop's hot phases, and the FAULT pins (R139, R144). -/
def State.windowEnded (s : State) (entropy : Nat) : State := ((fins 16).foldl State.hotStep (s.imbalanceEnded entropy)).faultScan

theorem exec_ebbWindowEnd_of_active {s : State} (h : s.hasActive = true) (entropy : Nat) :
    exec (.ebbWindowEnd entropy) s = .next (s.windowEnded entropy) :=
  congrArg Host.Outcome.next (if_pos h)

theorem State.windowEnded_windowsKept (s : State) (entropy : Nat) : WindowsKept s.windowsClosed (s.windowEnded entropy) := by
  have himb : WindowsKept s.windowsClosed (s.imbalanceEnded entropy) :=
    WindowsKept.foldl (fun u l => u.imbalanceStep_windowsKept entropy _ l) (fins 16) _
  have hhot := WindowsKept.foldl State.hotStep_windowsKept (fins 16) (s.imbalanceEnded entropy)
  exact (himb.trans hhot).trans (State.faultScan_windowsKept _)

/-- Settles O18: each command by its equation, the sheds cancelled and the windows closed by what is read of each phase in turn. -/
theorem ebbSheds : Obligations.EbbSheds := by
  unfold Obligations.EbbSheds
  refine ⟨?complete, ?abort, ?due, ?notDue, ?window⟩
  case complete =>
    intro s p l hl hd
    obtain ⟨hshed, hhigh, hlow⟩ := s.shedEnded_ph_same p l
    have hcnt := congrArg (fun x => x.eb.shedCnt) (s.shedEnded_loop p l)
    have hct := congrArg Loop.ct (s.shedEnded_loop p l)
    exact ⟨_, exec_shedComplete_of_done hl hd, hshed, hhigh, hlow, hcnt, hct, rfl⟩
  case abort =>
    intro s d l cause h
    have hdie := s.shedAborted_die d l cause
    have hlp : (s.shedAborted d l cause).die[d].lp[l] = { s.die[d].lp[l] with maskNext := 0, ignoreShed := true, slopeSeen := false } :=
      (congrArg (fun x : Die => x.lp[l]) hdie).trans (upd_at _ l _)
    refine ⟨_, exec_shedAbort_of_cause h, congrArg DieLoop.maskNext hlp, congrArg DieLoop.ignoreShed hlp, congrArg Die.reports hdie, ?_,
      fun p hp hl hshed => State.shedsCancelled_active hp hl hshed⟩
    exact (s.shedsCancelled_keeps d l).frame .evq (by decide)
  case due =>
    intro s l h
    have hloop := s.modLoop_loop_same l (fun x => { x with eb := { x.eb with holdOff := false } })
    have heb := congrArg Loop.eb hloop
    have hct := congrArg Loop.ct hloop
    exact ⟨_, exec_ebbHoldoffEnd_of_due h, heb, hct, fun j hj => upd_ne s.loop _ hj⟩
  case notDue => exact fun s l h => ⟨s, exec_ebbHoldoffEnd_of_not_due h, rfl⟩
  case window =>
    intro s entropy h
    obtain ⟨hpst, hduty⟩ := s.windowEnded_windowsKept entropy
    refine ⟨_, exec_ebbWindowEnd_of_active h entropy, fun p => ?_⟩
    obtain ⟨whole, hclosed⟩ := s.windowsClosed_pst p
    rw [hpst, hclosed, hduty, s.windowsClosed_maxdutyWin]
    exact ⟨rfl, rfl, rfl, rfl, rfl, rfl⟩

end Sys2Proof.Machine

/-! PROOFS. At most one feed is in PRECHARGE (R163): the operations of the Bank die keep it. -/

namespace Sys2Proof.Machine

/-- At most one feed is in PRECHARGE (R163). -/
def State.PreOnce (s : State) : Prop :=
  ∀ a b : Fin 2, s.bank.feed[a].state = .precharge → s.bank.feed[b].state = .precharge → a = b

/-- The mask of every part but the Bank die's. -/
def besideBank : Nat := 0xFFFFEFFFF

theorem Within.besideBank {m : Nat} (h : m &&& besideBank = m) : Within m besideBank := Within.mono h fun _ => id

/-- Of two feeds, the one that is not the other. -/
theorem feed_eq_other {f g : Fin 2} (h : g ≠ f) : g = if f = 0 then 1 else 0 := by
  revert f g
  decide

namespace State.PreOnce

variable {s t : State}

theorem of_feed (h : s.PreOnce) (hfeed : t.bank.feed = s.bank.feed) : t.PreOnce := by
  unfold State.PreOnce
  rw [hfeed]
  exact h

/-- Operations that leave the Bank die alone. -/
theorem past (h : s.PreOnce) (hk : Keeps besideBank s s → Keeps besideBank s t) : t.PreOnce :=
  h.of_feed (congrArg Bank.feed ((hk (Keeps.refl _ s)).frame .bank (by decide)))

theorem ite {c : Prop} [Decidable c] (hs : s.PreOnce) (ht : t.PreOnce) : (if c then s else t).PreOnce := by
  split
  · exact hs
  · exact ht

theorem foldl {ι : Type} {f : State → ι → State} (h : s.PreOnce) (hf : ∀ u i, u.PreOnce → (f u i).PreOnce) (is : List ι) :
    (is.foldl f s).PreOnce :=
  List.foldlRecOn (motive := State.PreOnce) is f h fun u hu i _ => hf u i hu

theorem of_other (f : Fin 2) (h : ∀ g : Fin 2, g ≠ f → t.bank.feed[g].state ≠ .precharge) : t.PreOnce := by
  have hf : ∀ g : Fin 2, t.bank.feed[g].state = .precharge → g = f := fun g hg => by_contra fun hne => h g hne hg
  exact fun a b ha hb => (hf a ha).trans (hf b hb).symm

/-- A feed changed that does not enter PRECHARGE. -/
theorem modFeed {f : Fin 2} {g : Feed → Feed} (h : s.PreOnce)
    (hg : (g s.bank.feed[f]).state = .precharge → s.bank.feed[f].state = .precharge) : (s.modFeed f g).PreOnce := by
  have key : ∀ a : Fin 2, (s.modFeed f g).bank.feed[a].state = .precharge → s.bank.feed[a].state = .precharge := by
    intro a ha
    rw [show (s.modFeed f g).bank.feed[a] = _ from upd_get s.bank.feed f a g] at ha
    split at ha
    next haf => exact haf ▸ hg ha
    next => exact ha
  exact fun a b ha hb => h a b (key a ha) (key b hb)

theorem bankCmd (h : s.PreOnce) (c : FeedCmd) : (s.bankCmd c).PreOnce := .ite h h

theorem log (h : s.PreOnce) (code src : Nat) (data : Int) : (s.log code src data).PreOnce := h

theorem lineScan (h : s.PreOnce) (f : Fin 2) (cause : Nat) : (s.lineScan f cause).PreOnce := h.of_feed (s.lineScan_bank f cause).1

theorem revRecord (h : s.PreOnce) (f : Fin 2) : (s.revRecord f).PreOnce := h.of_feed (congrArg Bank.feed (s.revRecord_bank f))

theorem feedOpen (h : s.PreOnce) (f : Fin 2) (st : FeedState) (hst : st ≠ .precharge := by decide) : (s.feedOpen f st).PreOnce :=
  (h.revRecord f).modFeed fun hpre => absurd hpre hst

theorem feedTrip (h : s.PreOnce) (f : Fin 2) : (s.feedTrip f).PreOnce := (h.revRecord f).modFeed nofun

theorem feedLock (h : s.PreOnce) (f : Fin 2) (cause : Nat) : (s.feedLock f cause).PreOnce :=
  ((h.feedOpen f .lockout).log _ _ _).lineScan f 5

theorem feedConnect (h : s.PreOnce) (f : Fin 2) (how : Nat) : (s.feedConnect f how).PreOnce := by
  unfold State.feedConnect
  extract_lets x ms s1
  have hconnected : s1.PreOnce := h.modFeed nofun
  exact (hconnected.log _ _ _).lineScan f 0

/-- A feed starts to precharge only while the other one does not (R163). -/
theorem feedLeaveInsert (h : s.PreOnce) (f : Fin 2) : (s.feedLeaveInsert f).PreOnce := by
  unfold State.feedLeaveInsert
  extract_lets x other dvdt
  refine .ite ?_ ?_
  · exact PreOnce.feedConnect (s := s.modFeed f _) (h.modFeed id) f 0
  · split
    · exact h
    next hother =>
      refine .of_other f fun g hg => ?_
      obtain rfl : g = other := feed_eq_other hg
      rw [show (State.bankSend _ false).bank.feed[other] = s.bank.feed[other] from upd_ne _ _ hg]
      exact hother

theorem feedEnable (h : s.PreOnce) (f : Fin 2) : (s.feedEnable f).PreOnce := .ite (h.modFeed (f := f) nofun) h

theorem feedDisable (h : s.PreOnce) (f : Fin 2) : (s.feedDisable f).PreOnce :=
  .ite h (((h.feedOpen f .off).log _ _ _).lineScan f 4)

theorem autoEnable (h : s.PreOnce) : s.autoEnable.PreOnce := h.foldl (fun _ f hu => hu.bankCmd (.enable f)) _

theorem feedClear (h : s.PreOnce) (f : Fin 2) : (s.feedClear f).PreOnce := by
  have hoff : ((s.modFeed f (fun x => { x with state := .off, gateFail := false, fetShort := false })).bankSend false).PreOnce :=
    h.modFeed (f := f) nofun
  exact .ite (.ite (hoff.bankCmd (.enable f)) hoff) h

theorem feedTest (h : s.PreOnce) (f : Fin 2) : (s.feedTest f).PreOnce := .ite (h.modFeed (f := f) id) h

theorem feedResetEnergy (h : s.PreOnce) (f : Fin 2) : (s.feedResetEnergy f).PreOnce :=
  PreOnce.modFeed (s := (s.log _ _ _).log _ _ _) h id

theorem feedStatusClear (h : s.PreOnce) (f : Fin 2) (v : Nat) : (s.feedStatusClear f v).PreOnce := h.modFeed (f := f) id

theorem obey (h : s.PreOnce) : ∀ c : FeedCmd, (s.obey c).PreOnce
  | .enable f => h.feedEnable f
  | .disable f => h.feedDisable f
  | .clear f => h.feedClear f
  | .test f => h.feedTest f
  | .resetEnergy f => h.feedResetEnergy f
  | .clearStatus f v => h.feedStatusClear f v
  | .clearBank _ => h

theorem bankAllOff (h : s.PreOnce) (cause : Nat) : (s.bankAllOff cause).PreOnce :=
  h.foldl (fun _ f hu => .ite hu ((hu.feedOpen f .off).lineScan f cause)) _

theorem feedMeasure (h : s.PreOnce) (raw : Vector Int 7) (f : Fin 2) : (s.feedMeasure raw f).PreOnce := by
  unfold State.feedMeasure
  extract_lets ci cn vn vp v dv i e n vm excess lim low t
  exact PreOnce.modFeed (s := t) h id

theorem feedRetry (h : s.PreOnce) (f : Fin 2) : (s.feedRetry f).PreOnce := by
  unfold State.feedRetry
  extract_lets x n
  have hretry : ((s.feedOpen f .qualify).modFeed f (fun y => { y with retries := n })).PreOnce := PreOnce.modFeed (h.feedOpen f .qualify) id
  exact .ite ((hretry.log _ _ _).lineScan f 2) (((h.feedOpen f .lockout).log _ _ _).lineScan f 2)

/-- A trip with what the feed keeps of its cause, its record and its trigger. -/
theorem tripped {f : Fin 2} {g : Feed → Feed} (h : s.PreOnce)
    (hg : (g s.bank.feed[f]).state = .precharge → s.bank.feed[f].state = .precharge) (code : Nat) (data : Int) :
    (((((s.modFeed f g).log code f.val data).feedTrip f).feedTripped f).lineScan f 2).PreOnce := by
  have hlog : ((s.modFeed f g).log code f.val data).PreOnce := h.modFeed hg
  have htripped : ((((s.modFeed f g).log code f.val data).feedTrip f).feedTripped f).PreOnce := hlog.feedTrip f
  exact htripped.lineScan f 2

theorem feedEvents (h : s.PreOnce) (f : Fin 2) : (s.feedEvents f).PreOnce := by
  unfold State.feedEvents
  extract_lets x limit cause
  have hwindow : (((s.feedOpen f .qualify).log 0x0602 f.val (lohi cause x.v)).lineScan f 3).PreOnce :=
    ((h.feedOpen f .qualify).log _ _ _).lineScan f 3
  refine .ite h ?_
  split
  · exact h
  · exact .ite (h.modFeed (f := f) nofun) h
  · exact .ite (h.modFeed (f := f) nofun) (.ite (h.feedLeaveInsert f) h)
  · exact .ite (h.tripped id _ _) (.ite h (.ite hwindow (.ite (h.feedConnect f _) h)))
  · exact .ite (h.tripped id _ _) (.ite hwindow h)
  · exact .ite (h.feedRetry f) h
  · exact h

theorem inrushFail (h : s.PreOnce) (f : Fin 2) (cause : Nat) : (s.inrushFail f cause).PreOnce := by
  have hlog : ((s.modFeed f (fun y => { y with inrush := true })).log 0x0606 f.val (lohi cause s.bank.feed[f].dv)).PreOnce :=
    h.modFeed (f := f) id
  exact (hlog.feedTrip f).lineScan f 2

/-- With every feed's state that of reset. -/
theorem of_off (h : ∀ f : Fin 2, t.bank.feed[f].state = .off) : t.PreOnce :=
  fun a _ ha => absurd ((h a).symm.trans ha) nofun

end State.PreOnce
end Sys2Proof.Machine

/-! PROOFS. At most one feed is in PRECHARGE (R163): the operations of other parts that reach the Bank die. -/

namespace Sys2Proof.Machine.State.PreOnce

variable {s t : State}

theorem modBank {f : Bank → Bank} (h : s.PreOnce) (hf : ∀ b, (f b).feed = b.feed) : (s.modBank f).PreOnce := h.of_feed (hf s.bank)

theorem bankSendSet (h : s.PreOnce) : s.bankSendSet.PreOnce := h.of_feed rfl

theorem bankResend (h : s.PreOnce) : s.bankResend.PreOnce := h.of_feed rfl

theorem bankOn (h : s.PreOnce) : s.bankOn.PreOnce := by
  unfold State.bankOn
  split
  · exact h
  · exact .of_off fun f => congrArg Feed.state (tab_at _ f)

theorem bankOff (h : s.PreOnce) : s.bankOff.PreOnce := by
  unfold State.bankOff
  split
  · extract_lets s0 s1
    refine past (s := s1.modBank _) ?_ (faultScan_keeps · (.besideBank rfl))
    exact .of_off fun f => congrArg Feed.state (tab_at _ f)
  · exact h

theorem energyCopy (h : s.PreOnce) : s.energyCopy.PreOnce := .ite (h.of_feed rfl) h

theorem lineReleased (h : s.PreOnce) : s.lineReleased.PreOnce := by
  unfold State.lineReleased
  extract_lets hold bank s1
  have h1 : s1.PreOnce := h.of_feed rfl
  exact .ite (h1.past fun k => holdTo_keeps _ (log_keeps _ _ _ (modHold_keeps _ k (.besideBank rfl)) (.besideBank rfl)) (.besideBank rfl)) h1

/-! The record of an event, and the block of a Spate buffer that makes one. -/

theorem recordMade (h : s.PreOnce) (code src r : Nat) : (s.recordMade code src r).PreOnce := by
  unfold State.recordMade
  refine .ite h ?_
  extract_lets s1 f hi
  have h1 : s1.PreOnce := h.of_feed rfl
  clear_value s1
  refine .ite ?_ (.ite (h1.of_feed rfl) (.ite (h1.of_feed rfl) (.ite (h1.of_feed rfl) (.ite (h1.of_feed rfl)
    (.ite (h1.of_feed rfl) (.ite (h1.of_feed rfl) (.ite (h1.of_feed rfl) (h1.of_feed rfl))))))))
  split
  · exact h1.of_feed rfl
  · exact h1

theorem newRecord (h : s.PreOnce) (e : LogEv) (always : Bool) (deficit : Nat) : (s.newRecord e always deficit).PreOnce := by
  unfold State.newRecord
  extract_lets c sup data q s1
  have h1 : s1.PreOnce := h.of_feed rfl
  exact (h1.past (setCode_keeps _ _ · (.besideBank rfl))).recordMade _ _ _

theorem siltDecide (h : s.PreOnce) (e : LogEv) : (s.siltDecide e).PreOnce := by
  unfold State.siltDecide
  extract_lets c w folds deficit
  clear_value folds
  refine .ite (h.newRecord _ _ _) ?_
  split
  · exact h.past (tallyEvent_keeps _ _ · (.besideBank rfl))
  · exact .ite (h.newRecord _ _ _) (h.past (setCode_keeps _ _ · (.besideBank rfl)))

theorem siltDecideAll (h : s.PreOnce) : s.siltDecideAll.PreOnce :=
  PreOnce.foldl (s := { s with evq := [] }) (h.of_feed rfl) (fun _ e hu => hu.siltDecide e) _

theorem spateSaved (h : s.PreOnce) (b : Fin 2) (k : Fin 48) : (s.spateSaved b k).PreOnce :=
  (h.siltDecide _).past (modBuf_keeps _ _ · (.besideBank rfl))

/-! Weir and the hold-up. -/

theorem hardRemove (h : s.PreOnce) : s.hardRemove.PreOnce := by
  have hlog : (s.hardLog s 0).PreOnce := h.past (hardLog_keeps _ _ · (.besideBank rfl))
  exact .ite (hlog.past (modWeir_keeps _ · (.besideBank rfl))).bankSendSet (h.past (modWeir_keeps _ · (.besideBank rfl)))

theorem hardSet (h : s.PreOnce) (cap : Nat) : (s.hardSet cap).PreOnce := (h.past (modWeir_keeps _ · (.besideBank rfl))).bankSendSet

theorem hardTest (h : s.PreOnce) (cap : Nat) (full : Bool) : (s.hardTest cap full).PreOnce := by
  unfold State.hardTest
  extract_lets p delay now above below s1 calm s2 s3
  have h1 : s1.PreOnce := h.past (modWeir_keeps _ · (.besideBank rfl))
  clear_value s1 calm
  refine .ite (.ite h1.hardRemove (.ite (h1.hardSet cap) h1)) ?_
  split
  · have h3 : s3.PreOnce := (h1.hardSet cap).past (hardLog_keeps _ _ · (.besideBank rfl))
    exact .ite (.ite h3 (h3.past fun k => log_keeps _ _ _ (modScope_keeps _ _ k (.besideBank rfl)) (.besideBank rfl))) h1
  · exact h1

theorem scopeEval (h : s.PreOnce) (k : Fin 36) : (s.scopeEval k).PreOnce := by
  unfold State.scopeEval
  extract_lets s1 x now dt fall a1 a2 cap s2 s5
  have h1 : s1.PreOnce := h.past (scopeMeasure_keeps _ _ · (.besideBank rfl))
  clear_value cap
  have h2 : s2.PreOnce := by
    unfold s2
    split
    · exact h1.past fun k => modScope_keeps _ _ (scopeLayers_keeps _ _ _ (setReduce_keeps _ _ k (.besideBank rfl)) (.besideBank rfl)) (.besideBank rfl)
    · extract_lets t s3 s4 y
      have hred : ∀ d, (s1.setReduce k d).PreOnce := fun d => h1.past (setReduce_keeps _ _ · (.besideBank rfl))
      have h3 : s3.PreOnce := .ite (.ite ((hred _).past (modScope_keeps _ _ · (.besideBank rfl))) (.ite (hred _) h1)) h1
      exact h3.past fun k => scopeExceed_keeps _ _ _ (scopeLayers_keeps _ _ _ k (.besideBank rfl)) (.besideBank rfl)
  have h5 : s5.PreOnce := h2.past (modScope_keeps _ _ · (.besideBank rfl))
  refine .ite ?_ h5
  split
  · exact h5.hardRemove
  · exact h5.hardTest _ _

theorem weirOff (h : s.PreOnce) : s.weirOff.PreOnce := by
  unfold State.weirOff
  extract_lets s1
  have h1 : s1.PreOnce := h.past fun k =>
    .foldl _ (.foldl _ k fun _ _ k => setLimit_keeps _ _ k (.besideBank rfl)) fun _ _ k => setReduce_keeps _ _ k (.besideBank rfl)
  exact (h1.past (modWeir_keeps _ · (.besideBank rfl))).hardRemove

theorem weirHoldup (h : s.PreOnce) : s.weirHoldup.PreOnce := by
  unfold State.weirHoldup
  refine .ite h ?_
  extract_lets s1 s2 k s3 s4
  have h2 : s2.PreOnce := h.past fun k =>
    .foldl _ (.foldl _ k fun _ _ k => shaveStop_keeps _ _ k (.besideBank rfl)) fun _ _ k =>
      modScope_keeps _ _ (setReduce_keeps _ _ k (.besideBank rfl)) (.besideBank rfl)
  have h3 : s3.PreOnce := h2.hardRemove.past fun k =>
    scopeMeasure_keeps _ _ (.foldl _ k fun _ _ k => nodeMeasure_keeps _ k (.besideBank rfl)) (.besideBank rfl)
  have h4 : s4.PreOnce := by
    unfold s4
    split
    · exact h3
    · exact h3.past fun k => modScope_keeps _ _ (setReduce_keeps _ _ k (.besideBank rfl)) (.besideBank rfl)
  exact h4.past fun k => weirAllocate_keeps (scopeLayers_keeps _ _ _ k (.besideBank rfl)) (.besideBank rfl)

theorem holdEnter (h : s.PreOnce) : s.holdEnter.PreOnce := by
  unfold State.holdEnter
  extract_lets hd armed mask age s1 s2 s3 s4
  have h1 : s1.PreOnce := h.past fun k => log_keeps _ _ _ (modHold_keeps _ k (.besideBank rfl)) (.besideBank rfl)
  have h2 : s2.PreOnce := .ite (h1.log _ _ _) h1
  have h3 : s3.PreOnce := (h2.past fun k => .foldl _ k fun _ _ k => suspendMember_keeps _ k (.besideBank rfl)).weirHoldup
  have h4 : s4.PreOnce := .ite (h3.past (spateReq_keeps _ _ · (.besideBank rfl))) h3
  exact h4.past (holdTo_keeps _ · (.besideBank rfl))

/-! Resets, failed stems, and dies in thermal shutdown (R440, R443, R472). -/

theorem stemLost (h : s.PreOnce) (core : Bool) : (s.stemLost core).PreOnce := h.of_feed rfl

theorem sourceDrop (h : s.PreOnce) : s.sourceDrop.PreOnce :=
  PreOnce.modBank (h.past fun k => .foldl _ k fun _ _ k =>
    enterSafe_keeps _ _ (modDie_keeps _ _ k (.besideBank rfl) fun _ h => h) (.besideBank rfl)) fun _ => rfl

theorem fwRestart (h : s.PreOnce) (cause : Nat) : (s.fwRestart cause).PreOnce :=
  ((h.past (resetTaken_keeps _ _ _ · (.besideBank rfl))).sourceDrop.stemLost true).past (startStems_keeps · (.besideBank rfl))

theorem fullReset (h : s.PreOnce) (kind : Nat) (ref : Bool) : (s.fullReset kind ref).PreOnce := by
  unfold State.fullReset
  extract_lets s2
  have hlost : ((s.tearHead.resetTaken kind 0 true).sourceDrop.stemLost false).PreOnce :=
    (h.past fun k => resetTaken_keeps _ _ _ (tearHead_keeps k (.besideBank rfl)) (.besideBank rfl)).sourceDrop.stemLost false
  have h2 : s2.PreOnce := hlost.of_feed rfl
  exact .ite h2 (h2.modBank fun _ => rfl)

theorem stemFail (h : s.PreOnce) (k : Fin 2) (cause kind : Nat) (loop : Fin 16) : (s.stemFail k cause kind loop).PreOnce := by
  unfold State.stemFail
  extract_lets st s0 rec_
  have h0 : s0.PreOnce := h.past fun k => modStem_keeps _ _ (modStems_keeps _ k (.besideBank rfl)) (.besideBank rfl)
  have hrec : ∀ {u : State} (solo : Bool), u.PreOnce → (rec_ u solo).PreOnce := fun _ hu => .ite (hu.log _ _ _) (hu.log _ _ _)
  clear_value st s0 rec_
  split
  · exact h
  · exact h
  · exact (hrec _ h0).past (stemRestart_keeps _ _ · (.besideBank rfl))
  · exact (hrec _ h0).past fun k =>
      stemNotice_keeps _ (stemRestart_keeps _ _ (modStems_keeps _ k (.besideBank rfl)) (.besideBank rfl)) (.besideBank rfl)
  · exact (hrec _ h0).past fun k => stemNotice_keeps _ (stemRestart_keeps _ _ k (.besideBank rfl)) (.besideBank rfl)
  · exact .ite (hrec _ (h0.past fun k => stemRestart_keeps _ _ (switchTo_keeps _ _ _ _ k (.besideBank rfl)) (.besideBank rfl)))
      (.ite (hrec _ h0) (.ite (hrec _ (h0.past (eddyReload_keeps _ · (.besideBank rfl)))) (h0.fwRestart _)))

theorem deltaDown (h : s.PreOnce) : s.deltaDown.PreOnce := by
  unfold State.deltaDown
  have hlost : ({ (s.sourceDrop.stemLost false) with
      port := Vector.replicate 64 Port.reset
      host := { Hosts.reset with key := s.host.key, ledImg := s.host.ledImg } } : State).PreOnce :=
    (h.sourceDrop.stemLost false).of_feed rfl
  exact hlost.past fun k => hotScan_keeps (modDev_keeps _ k (.besideBank rfl)) (.besideBank rfl)

theorem dieShut (h : s.PreOnce) (d : Fin 8) : (s.dieShut d).PreOnce := by
  unfold State.dieShut
  split
  · exact h.past fun k => dieHold_keeps _ (thermStop_keeps _ k (.besideBank rfl)) (.besideBank rfl)
  · exact (h.past (hotScan_keeps · (.besideBank rfl))).stemFail _ _ _ _
  · exact .ite h.deltaDown ((h.bankAllOff 6).modBank fun _ => rfl)

theorem thermShutdown (h : s.PreOnce) (d : Fin 8) (temp : Int) (hottest : Nat) : (s.thermShutdown d temp hottest).PreOnce := by
  unfold State.thermShutdown
  extract_lets x latch s1 s2
  have h1 : s1.PreOnce := h.past fun k => ledgerNeed_keeps (modTd_keeps _ _ k (.besideBank rfl)) (.besideBank rfl)
  have h2 : s2.PreOnce := h1.dieShut d
  clear_value s2
  exact PreOnce.past (.ite (h2.past (shutRecord_keeps _ · (.besideBank rfl))) h2) (faultScan_keeps · (.besideBank rfl))

theorem deltaBack (h : s.PreOnce) : s.deltaBack.PreOnce :=
  (h.past fun k => modDev_keeps _ (hotScan_keeps k (.besideBank rfl)) (.besideBank rfl)).fwRestart 4

theorem thermRelease (h : s.PreOnce) (d : Fin 8) : (s.thermRelease d).PreOnce := by
  unfold State.thermRelease
  extract_lets s1
  have h1 : s1.PreOnce := h.past fun k =>
    log_keeps _ _ _ (ledgerNeed_keeps (modTd_keeps _ _ k (.besideBank rfl)) (.besideBank rfl)) (.besideBank rfl)
  clear_value s1
  refine PreOnce.past ?_ (faultScan_keeps · (.besideBank rfl))
  split
  · exact h1.past (modDie_keeps _ _ · (.besideBank rfl) fun _ h => h)
  · exact h1.past fun k => stemRelease_keeps _ (hotScan_keeps k (.besideBank rfl)) (.besideBank rfl)
  · exact .ite h1.deltaBack (.ite h1.bankSendSet h1)

theorem dieMachine (h : s.PreOnce) (d : Fin 8) (temp : Int) (hot : Bool) (hottest : Nat) : (s.dieMachine d temp hot hottest).PreOnce := by
  unfold State.dieMachine
  extract_lets x cool
  clear_value x
  have hcool : (s.modTd d (fun y => { y with cool := cool })).PreOnce := h.past (modTd_keeps _ _ · (.besideBank rfl))
  split
  · exact .ite (h.thermShutdown _ _ _) h
  · exact .ite (h.thermRelease _) hcool
  · exact hcool

theorem dieScan (h : s.PreOnce) (d : Fin 8) : (s.dieScan d).PreOnce := by
  unfold State.dieScan
  split
  · exact h
  · extract_lets lim was warn s1 s2
    have h1 : s1.PreOnce := h.past (modTd_keeps _ _ · (.besideBank rfl))
    have h2 : s2.PreOnce := .ite (h1.log _ _ _) h1
    exact .ite h2 (h2.dieMachine _ _ _ _)

/-! The device's states (R494 to R499), brown-outs, and the start after a reset. -/

theorem quietDown (h : s.PreOnce) : s.quietDown.PreOnce := by
  unfold State.quietDown
  extract_lets s1 s2
  have h1 : s1.PreOnce := (h.past (allStop_keeps · (.besideBank rfl))).energyCopy.bankOff.past (modDev_keeps _ · (.besideBank rfl))
  have h2 : s2.PreOnce := h1.foldl (fun _ d hu => PreOnce.past (.ite hu (hu.past (spateReq_keeps _ _ · (.besideBank rfl))))
    (dieOff_keeps d · (.besideBank rfl))) _
  exact h2.past fun k => faultScan_keeps (portsApply_keeps (modDev_keeps _ k (.besideBank rfl)) (.besideBank rfl)) (.besideBank rfl)

theorem quietEntry (h : s.PreOnce) (src : Nat) : (s.quietEntry src).PreOnce :=
  (h.past (stateTo_keeps _ _ · (.besideBank rfl))).quietDown

theorem runUp (h : s.PreOnce) : s.runUp.PreOnce := by
  unfold State.runUp
  extract_lets s1 s2
  have h2 : s2.PreOnce := h.past fun k =>
    .foldl _ (portsApply_keeps (modDev_keeps _ k (.besideBank rfl)) (.besideBank rfl)) fun _ _ k => dieUp_keeps _ k (.besideBank rfl)
  exact .ite h2 h2.bankOn

theorem runEntry (h : s.PreOnce) (src : Nat) : (s.runEntry src).PreOnce := (h.past (stateTo_keeps _ _ · (.besideBank rfl))).runUp

theorem dormantEntry (h : s.PreOnce) (src : Nat) : (s.dormantEntry src).PreOnce := by
  unfold State.dormantEntry
  extract_lets prev s1 s2 s3 s4 s5
  have h1 : s1.PreOnce := (h.past (stateTo_keeps _ _ · (.besideBank rfl))).quietDown.siltDecideAll
  have h2 : s2.PreOnce := h1.past fun k => modSpring_keeps _ (ledgerWrite_keeps (siltDrain_keeps _
    (tallyDrain_keeps k (.besideBank rfl)) (.besideBank rfl)) (.besideBank rfl)) (.besideBank rfl)
  have h3 : s3.PreOnce := h2.past (retPut_keeps _ · (.besideBank rfl))
  have h4 : s4.PreOnce := h3.past (modStems_keeps _ · (.besideBank rfl))
  have h5 : s5.PreOnce := h4.past (modSpring_keeps _ · (.besideBank rfl))
  clear_value s5
  exact h5.of_feed rfl

theorem stateChange (h : s.PreOnce) (k : Fin 8) (body : List Byte) : (s.stateChange k body).PreOnce :=
  .ite h (.ite (h.runEntry _) (.ite (h.quietEntry _) (h.dormantEntry _)))

theorem modFirm (h : s.PreOnce) (f : Firm → Firm) : (s.modFirm f).PreOnce := h.of_feed rfl

theorem fwActivate (h : s.PreOnce) (body : List Byte) : (s.fwActivate body).PreOnce := by
  unfold State.fwActivate
  extract_lets slot s1
  have h1 : s1.PreOnce := (h.modFirm _).past (ledgerWrite_keeps · (.besideBank rfl))
  split
  · exact h
  · extract_lets s2
    have h2 : s2.PreOnce := (h1.log _ _ _).siltDecideAll
    exact (h2.past (siltDrain_keeps _ · (.besideBank rfl))).fwRestart 3

theorem brownBegin (h : s.PreOnce) (i : Fin 10) : (s.brownBegin i).PreOnce := by
  unfold State.brownBegin
  extract_lets set now s1 s2 s3
  have h1 : s1.PreOnce := h.past fun k => modSilt_keeps _ (modPower_keeps _ k (.besideBank rfl)) (.besideBank rfl)
  have h2 : s2.PreOnce := h1.energyCopy.past fun k =>
    modSpring_keeps _ (modSilt_keeps _ (ledgerNeed_keeps k (.besideBank rfl)) (.besideBank rfl)) (.besideBank rfl)
  exact h2.past fun k => faultScan_keeps (supplyNotice_keeps _ (headRecord_keeps _ (retWrite_keeps k (.besideBank rfl)) (.besideBank rfl))
    (.besideBank rfl)) (.besideBank rfl)

theorem brownStart (h : s.PreOnce) : s.brownStart.PreOnce := by
  unfold State.brownStart
  extract_lets low
  clear_value low
  split
  · exact h
  · exact (h.brownBegin _).past (modPower_keeps _ · (.besideBank rfl))

theorem brownReset (h : s.PreOnce) (i : Fin 10) : (s.brownReset i).PreOnce := by
  unfold State.brownReset
  extract_lets s1
  have h1 : s1.PreOnce := .ite (h.past fun k => .foldl _ k fun _ _ k => dieDown_keeps _ k (.besideBank rfl)) h
  exact (h1.fullReset _ _).past (modSpring_keeps _ · (.besideBank rfl))

theorem wake (h : s.PreOnce) (cause : Nat) : (s.wake cause).PreOnce :=
  (h.past (modSpring_keeps _ · (.besideBank rfl))).fullReset _ _

theorem ledgerFrom (h : s.PreOnce) (b : Bool) (bs : List Byte) : (s.ledgerFrom b bs).PreOnce := by
  unfold State.ledgerFrom
  extract_lets trial s1
  clear_value s1
  exact h.of_feed rfl

theorem ledgerRebuild (h : s.PreOnce) : s.ledgerRebuild.PreOnce := by
  unfold State.ledgerRebuild
  extract_lets l opens next g
  clear_value l next g
  exact h.of_feed rfl

theorem ledgerLoad (h : s.PreOnce) : s.ledgerLoad.PreOnce := by
  unfold State.ledgerLoad
  refine PreOnce.past ?_ (modSilt_keeps _ · (.besideBank rfl))
  split
  · exact h.ledgerFrom _ _
  · exact h.ledgerRebuild

theorem stateBoot (h : s.PreOnce) : s.stateBoot.PreOnce :=
  .ite (h.past fun k => modDev_keeps _ (stateTo_keeps _ _ k (.besideBank rfl)) (.besideBank rfl)).quietDown (h.runEntry _)

/-! Writes of parameters and controls (R12, R398), and the commit that applies them (R425). -/

theorem finS {n i : Nat} {f : Fin n → State} (h : s.PreOnce) (hf : ∀ j, (f j).PreOnce) : (finS n i s f).PreOnce := by
  unfold Machine.finS
  split
  · exact hf _
  · exact h

theorem ctlAt {n i : Nat} {f : Fin n → State × Nat} (h : s.PreOnce) (hf : ∀ j, (f j).1.PreOnce) : (s.ctlAt n i f).1.PreOnce := by
  unfold State.ctlAt
  split
  · exact hf _
  · exact h

theorem iteFst {c : Prop} [Decidable c] {α : Type} {a b : State × α} (ha : a.1.PreOnce) (hb : b.1.PreOnce) :
    (if c then a else b).1.PreOnce := by
  split
  · exact ha
  · exact hb

theorem w1cWrite (h : s.PreOnce) (p : Prm) (i v : Nat) : (s.w1cWrite p i v).PreOnce := by
  unfold State.w1cWrite
  refine .ite (h.of_feed rfl) ?_
  refine .ite (h.finS fun _ => h.of_feed rfl) ?_
  refine .ite (h.finS fun _ => h.of_feed rfl) ?_
  refine .ite (h.finS fun _ => h.of_feed rfl) ?_
  refine .ite (h.past (faultRelease_keeps _ · (.besideBank rfl))) ?_
  refine .ite (h.finS fun k => h.bankCmd (.clearStatus k v)) ?_
  refine .ite (h.bankCmd (.clearBank v)) ?_
  refine .ite (h.of_feed rfl) ?_
  refine .ite (h.finS fun _ => h.of_feed rfl) ?_
  refine .ite (h.finS fun _ => h.of_feed rfl) ?_
  refine .ite (h.finS fun _ => h.of_feed rfl) ?_
  refine .ite (h.of_feed rfl) ?_
  refine .ite (h.finS fun _ => h.of_feed rfl) ?_
  exact .ite (h.of_feed rfl) (.ite (h.of_feed rfl) h)

theorem feedControl (h : s.PreOnce) (f : Fin 2) (v : Nat) : (s.feedControl f v).1.PreOnce :=
  .iteFst (h.bankCmd _) (.iteFst (h.bankCmd _) (.iteFst (h.bankCmd _) (.iteFst (.iteFst (h.bankCmd _) h) (h.bankCmd _))))

theorem ctlEffect (h : s.PreOnce) (k : Fin 8) (may : Bool) (p : Prm) (i v : Nat) : (s.ctlEffect k may p i v).1.PreOnce := by
  unfold State.ctlEffect
  refine .iteFst (h.ctlAt fun l => .iteFst (h.past (loopStart_keeps _ · (.besideBank rfl)))
    (.iteFst (h.past (loopStop_keeps _ _ · (.besideBank rfl))) (h.past (loopClear_keeps _ · (.besideBank rfl))))) ?_
  refine .iteFst (h.ctlAt fun f => h.feedControl f v) ?_
  refine .iteFst (h.past (holdHandback_keeps · (.besideBank rfl))) ?_
  refine .iteFst (h.ctlAt fun b => .iteFst (h.past (battClearCutoff_keeps _ · (.besideBank rfl)))
    (.iteFst (h.past (battCancelLearn_keeps _ · (.besideBank rfl))) (h.past (battReestimate_keeps _ · (.besideBank rfl))))) ?_
  refine .iteFst (h.past (closeSess_keeps _ _ · (.besideBank rfl))) ?_
  refine .iteFst (h.past (siltClear_keeps _ · (.besideBank rfl))) ?_
  refine .iteFst (h.ctlAt fun n => .ite (h.past (spateReq_keeps _ _ · (.besideBank rfl))) (h.past (slotLock_keeps _ _ _ · (.besideBank rfl)))) ?_
  refine .iteFst (.iteFst (h.past (stemSwitch_keeps · (.besideBank rfl)))
    (.iteFst (h.past (stemResync_keeps · (.besideBank rfl))) (h.past (stemRestartCtl_keeps · (.besideBank rfl))))) ?_
  refine .iteFst (h.ctlAt fun d => h.past (thermClearLatch_keeps _ _ · (.besideBank rfl))) ?_
  refine .iteFst (h.ctlAt fun n => h.past (sensorRelearn_keeps _ · (.besideBank rfl))) ?_
  exact .iteFst (h.ctlAt fun t => h.past (timerWrite_keeps _ _ · (.besideBank rfl))) h

theorem ctlEntry (h : s.PreOnce) (k : Fin 8) (may : Bool) (e : Entry) : (s.ctlEntry k may e).1.PreOnce := by
  unfold State.ctlEntry
  split
  · exact h
  · exact .iteFst (h.ctlEffect _ _ _ _ _) h

theorem afterPar (h : s.PreOnce) (id i : Nat) : (s.afterPar id i).PreOnce := by
  unfold State.afterPar
  refine .ite (h.past (tbRestart_keeps · (.besideBank rfl))) ?_
  refine .ite (h.finS fun l => .ite (h.past (pgDrop_keeps _ _ · (.besideBank rfl))) h) ?_
  refine .ite (h.finS fun p => of_feed (h.past (outputsLow_keeps p · (.besideBank rfl))) rfl) ?_
  refine .ite (h.finS fun l => .ite h (h.past (ocModeStep_keeps _ · (.besideBank rfl)))) ?_
  refine .ite (h.finS fun m => h.past fun k => modMbr_keeps _ _ (mbrTo_keeps _ _ k (.besideBank rfl)) (.besideBank rfl)) ?_
  refine .ite (.ite h.weirOff h) ?_
  refine .ite (h.finS fun b => h.past (battStart_keeps _ · (.besideBank rfl))) ?_
  refine .ite (h.finS fun p => h.past fun k => portApply_keeps _ (portOff_keeps _ k (.besideBank rfl)) (.besideBank rfl)) ?_
  refine .ite (h.finS fun p => h.past (modPort_keeps _ _ · (.besideBank rfl))) ?_
  refine .ite (h.finS fun p => h.past (portApply_keeps _ · (.besideBank rfl))) ?_
  refine .ite (h.past fun k => slotsPrune_keeps (closeSess_keeps _ _ k (.besideBank rfl)) (.besideBank rfl)) ?_
  refine .ite (h.past (closeSess_keeps _ _ · (.besideBank rfl))) ?_
  refine .ite (h.past (slotsPrune_keeps · (.besideBank rfl))) ?_
  refine .ite (h.past (slotRearm_keeps _ · (.besideBank rfl))) ?_
  refine .ite (h.past (slotRearm_keeps _ · (.besideBank rfl))) ?_
  refine .ite (h.past (spateApply_keeps · (.besideBank rfl))) ?_
  refine .ite (h.finS fun e => h.past (ethLink_keeps _ _ · (.besideBank rfl))) ?_
  exact .ite (h.finS fun t => h.past (timerWrite_keeps _ _ · (.besideBank rfl))) h

theorem applyCfg (h : s.PreOnce) (new : SMap Int) : (s.applyCfg new).PreOnce := by
  unfold State.applyCfg
  extract_lets ks s0 s1 bank
  have h0 : s0.PreOnce := h.past fun k => lagAdd_keeps ks (codeSettle_keeps new ks k (.besideBank rfl)) (.besideBank rfl)
  have h1 : s1.PreOnce := foldl (s := { s0 with cfg := new }) (h0.of_feed rfl) (fun _ k hu => hu.afterPar _ _) ks
  exact PreOnce.past (.ite h1.bankSendSet h1) (faultScan_keeps · (.besideBank rfl))

theorem applyVal (h : s.PreOnce) (e : Entry) : (s.applyVal e).PreOnce := by
  unfold State.applyVal
  split
  · exact h
  · extract_lets v
    refine .ite h ?_
    refine .ite ((h.w1cWrite _ _ _).past (faultScan_keeps · (.besideBank rfl))) ?_
    refine .ite (h.finS fun k => h.past (weirSetCap_keeps _ _ · (.besideBank rfl))) ?_
    refine .ite (h.finS fun t => h.past (timerWrite_keeps _ _ · (.besideBank rfl))) ?_
    refine .ite (h.finS fun t => h.past (timerWrite_keeps _ _ · (.besideBank rfl))) ?_
    exact .ite (h.finS fun k => h.past fun k => retWrite_keeps (modSpring_keeps _ k (.besideBank rfl)) (.besideBank rfl)) h

theorem applyParams (h : s.PreOnce) (c : Commit) : (s.applyParams c).PreOnce := by
  unfold State.applyParams
  extract_lets n w s1 s2 s3 s4 s5 s6
  have h1 : s1.PreOnce :=
    .ite ((h.applyCfg _).past (rotCommit_keeps _ · (.besideBank rfl))) (h.past (lastCommit_keeps _ _ · (.besideBank rfl)))
  have h2 : s2.PreOnce := h1.foldl (fun _ e hu => hu.applyVal e) _
  have h3 : s3.PreOnce := h2.foldl (fun _ e hu => hu.ctlEntry c.sess true e) _
  have h4 : s4.PreOnce := .ite (h3.past (modSess_keeps _ _ · (.besideBank rfl))) h3
  have h5 : s5.PreOnce := .ite (h4.log _ _ _) h4
  have h6 : s6.PreOnce := h5.log _ _ _
  exact h6.past (commitReply_keeps _ _ _ · (.besideBank rfl))

/-! Requests of hosts (R394, R416). -/

theorem after (h : s.PreOnce) (k : Fin 8) (op : Nat) (b : List Byte) : (s.after k op b).PreOnce := by
  unfold State.after
  split
  · exact h.past (sessEnd_keeps _ _ · (.besideBank rfl))
  · exact h.past (postFirst_keeps · (.besideBank rfl))
  · exact h.stateChange _ _
  · exact h.fwActivate _
  · exact h

theorem perform (h : s.PreOnce) (k : Fin 8) (op : Nat) (q : Req) (b : List Byte) : (s.perform k op q b).PreOnce := by
  unfold State.perform
  extract_lets tagged st used r
  have hr : r.1.PreOnce := h.past (handle_keeps _ _ _ _ · (.besideBank rfl))
  refine .ite (h.past (reply_keeps _ _ _ _ _ _ · (.besideBank rfl))) ?_
  clear_value r
  split
  · exact hr.past (useRenew_keeps _ · (.besideBank rfl))
  · extract_lets t
    have ht : t.PreOnce := hr.past fun k => reply_keeps _ _ _ _ _ _ (useRenew_keeps _ k (.besideBank rfl)) (.besideBank rfl)
    exact .ite (.ite (ht.after _ _ _) ht) (hr.past (reply_keeps _ _ _ _ _ _ · (.besideBank rfl)))

theorem serve (h : s.PreOnce) (k : Fin 8) (op : Nat) (q : Req) (b : List Byte) (entropy : Nat) : (s.serve k op q b entropy).PreOnce := by
  delta State.serve
  have hr : (s.seqCheck k q.seq).1.PreOnce := h.past (seqCheck_keeps _ _ · (.besideBank rfl))
  revert hr
  generalize s.seqCheck k q.seq = r
  intro hr
  have hopen : (s.sessionOpen k q b entropy).PreOnce := h.past (sessionOpen_keeps _ _ _ _ · (.besideBank rfl))
  have hprove : (r.1.sessionProve k q b).PreOnce := hr.past (sessionProve_keeps _ _ _ · (.besideBank rfl))
  exact .ite h (.ite (h.past (countRefused_keeps _ · (.besideBank rfl))) (.ite (h.past (refuse_keeps _ _ _ _ · (.besideBank rfl)))
    (.ite hopen (.ite hr (.ite hprove (hr.perform k op q b))))))

theorem carry (h : s.PreOnce) (k : Fin 8) (op : Nat) (q : Req) (b : List Byte) (entropy : Nat) : (s.carry k op q b entropy).PreOnce :=
  .ite ((h.past fun k => stamp_keeps (sluiceWork_keeps _ k (.besideBank rfl)) (.besideBank rfl)).serve _ _ _ _ _)
    (h.past (holdReq_keeps _ _ _ _ · (.besideBank rfl)))

theorem request (h : s.PreOnce) (op : Nat) (q : Req) (b : List Byte) : (s.request op q b).PreOnce := .ite (h.carry _ _ _ _ _) h

end Sys2Proof.Machine.State.PreOnce

/-! PROOFS. At most one feed is in PRECHARGE (R163): the commands that may change the Bank die, and the step. -/

namespace Sys2Proof.Machine

/-- A command answers a state with at most one feed in PRECHARGE. -/
def AnswersPreOnce (r : Res) : Prop := ∃ t, r = .next t ∧ t.PreOnce

namespace AnswersPreOnce

theorem next {t : State} (h : t.PreOnce) : AnswersPreOnce (.next t) := ⟨t, rfl, h⟩

theorem ite {c : Prop} [Decidable c] {a b : Res} (ha : AnswersPreOnce a) (hb : AnswersPreOnce b) : AnswersPreOnce (if c then a else b) := by
  split
  · exact ha
  · exact hb

end AnswersPreOnce

section

open State State.PreOnce

variable {s : State} (h : s.PreOnce)
include h

theorem State.PreOnce.control {f : State → State × Nat} (hf : (f s).1.PreOnce) (k : Fin 8) (permits : List Nat) :
    (s.control k permits f).PreOnce :=
  .ite h (.ite (h.past (modHost_keeps _ · (.besideBank rfl))) (.ite (hf.of_feed (congrArg Bank.feed (State.ctlDone_bank _ _ _ _)))
    (h.past (modHost_keeps _ · (.besideBank rfl)))))

theorem execBankMeteringStep_preOnce (raw : Vector Int 7) : AnswersPreOnce (execBankMeteringStep raw s) := by
  unfold execBankMeteringStep
  refine .next (.ite ?_ h)
  extract_lets s0 s1 s2
  have h2 : s2.PreOnce := foldl (s := s1) (h.of_feed rfl) (fun _ f hu => hu.feedMeasure raw f) _
  exact (h2.foldl (fun _ f hu => hu.feedEvents f) _).modBank fun _ => rfl

theorem execFeedReverseTrip_preOnce (f : Fin 2) (i v : Int) : AnswersPreOnce (execFeedReverseTrip f i v s) := by
  unfold execFeedReverseTrip
  extract_lets x s1
  have h1 : s1.PreOnce := h.modFeed id
  have hlow : (s1.modFeed f (fun y => { y with lossLow := true })).PreOnce := h1.modFeed id
  exact .next (.ite (.ite (hlow.lineScan _ _) (h1.modBank fun _ => rfl)) h)

theorem execFeedOrOnDelayEnd_preOnce (c : FeedSensed) : AnswersPreOnce (execFeedOrOnDelayEnd c s) := by
  unfold execFeedOrOnDelayEnd
  extract_lets f x
  have hon := (h.revRecord f).modFeed (f := f) (g := fun y => { y with
    go := true, goAt := if y.go then y.goAt else s.clk.tick, rev := false, test := false }) id
  exact .next (.ite (hon.modBank fun _ => rfl) h)

theorem execFeedInsertTimer_preOnce (f : Fin 2) : AnswersPreOnce (execFeedInsertTimer f s) := by
  unfold execFeedInsertTimer
  extract_lets x s1
  have h1 : s1.PreOnce := h.modFeed id
  exact .next (.ite (.ite (h1.feedLeaveInsert f) h1) h)

theorem execFeedRetryDelayEnd_preOnce (f : Fin 2) : AnswersPreOnce (execFeedRetryDelayEnd f s) := by
  unfold execFeedRetryDelayEnd
  extract_lets x s1
  have h1 : s1.PreOnce := h.modFeed id
  exact .next (.ite (.ite (h1.feedRetry f) h1) h)

theorem execFeedPreOverlapEnd_preOnce (f : Fin 2) : AnswersPreOnce (execFeedPreOverlapEnd f s) := by
  have hend := h.modFeed (f := f) (g := fun y => { y.drive s.clk.tick y.go y.gm false with overlap := false }) id
  exact .next (.ite (hend.modBank fun _ => rfl) h)

theorem execFeedTestEnd_preOnce (f : Fin 2) : AnswersPreOnce (execFeedTestEnd f s) := by
  have hend := h.modFeed (f := f) (g := fun y => { y.drive s.clk.tick false y.gm y.gp with test := false }) id
  exact .next (.ite (hend.modBank fun _ => rfl) h)

/-- The loss comparator of a feed, and the line behind it (R170, R171). -/
theorem State.PreOnce.lossComparator (f : Fin 2) (low : Bool) (cause : Nat) :
    ((s.modFeed f (fun y => { y with lossLow := low })).lineScan f cause).PreOnce :=
  lineScan (h.modFeed id) f cause

theorem execFeedFetShort_preOnce (f path : Fin 2) (ma mv : Int) : AnswersPreOnce (execFeedFetShort f path ma mv s) := by
  unfold execFeedFetShort
  extract_lets x s1
  have h1 : s1.PreOnce := log (h.modFeed id) _ _ _
  exact .next (.ite h (.ite (h1.modBank fun _ => rfl) (h1.feedLock f 3)))

theorem execFeedGateFail_preOnce (f : Fin 2) (gate : Fin 3) (mv : Nat) : AnswersPreOnce (execFeedGateFail f gate mv s) := by
  unfold execFeedGateFail
  extract_lets x n high
  have hfail := h.modFeed (f := f) (g := fun y => { y with gateFail := true }) id
  exact .next (.ite ((hfail.log _ _ _).feedLock f 2) h)

theorem execBankHeartbeat_preOnce : AnswersPreOnce (execBankHeartbeat s) := by
  unfold execBankHeartbeat
  refine .next (.ite ?_ h)
  extract_lets s1 s2
  have h1 : s1.PreOnce := h.modBank fun _ => rfl
  have h2 : s2.PreOnce := .ite h1 (h1.modBank fun _ => rfl)
  refine .ite (h2.foldl (fun u f hu => ?_) _) h2
  exact .ite (hu.feedRetry f) (.ite (hu.feedLeaveInsert f) hu)

theorem execBankHbTimeout_preOnce : AnswersPreOnce (execBankHbTimeout s) :=
  .next (.ite (modBank ((h.bankAllOff 6).modBank fun _ => rfl) fun _ => rfl) h)

theorem execBankHbReturn_preOnce : AnswersPreOnce (execBankHbReturn s) := by
  unfold execBankHbReturn
  split
  · exact .next h
  next since _ =>
    have hback := h.modBank (f := fun b => { b with hbLostAt := none, hbOk := true, hbAt := s.clk.tick, oscLocked := true }) fun _ => rfl
    have hlog := hback.log 0x060E 0 ((s.clk.tick - since) / 250 : Nat)
    exact .ite (.next h) (.next (hlog.bankResend.modBank fun _ => rfl))

theorem State.PreOnce.bankRefuse : s.bankRefuse.PreOnce := bankResend (h.log _ _ _)

theorem execBankParamFrame_preOnce (crcOk : Bool) : AnswersPreOnce (execBankParamFrame crcOk s) := by
  unfold execBankParamFrame
  split
  · exact .next (.ite (bankRefuse (h.modBank fun _ => rfl)) h)
  · exact .next (.ite (h.modBank fun _ => rfl) (h.modBank fun _ => rfl))

theorem execBankParamCommit_preOnce : AnswersPreOnce (execBankParamCommit s) := by
  unfold execBankParamCommit
  refine .ite (.next h) (.ite ?_ (.next h.bankRefuse))
  extract_lets m s1
  have h1 : s1.PreOnce := h.modBank fun _ => rfl
  exact .next (.ite h1 (autoEnable (h1.modBank fun _ => rfl)))

theorem execBankCommandFrame_preOnce : AnswersPreOnce (exec .bankCommandFrame s) := by
  cases hc : s.bank.cmds with
  | nil => exact ⟨s, by show execBankCommandFrame s = _; unfold execBankCommandFrame; rw [hc], h⟩
  | cons c cs =>
    have htaken : (s.cmdTaken cs).PreOnce := h.modBank fun _ => rfl
    cases ha : s.bankActs with
    | true => exact ⟨_, exec_bankCommandFrame_of_acts hc ha, htaken.obey c⟩
    | false => exact ⟨_, exec_bankCommandFrame_of_not_acts hc ha, htaken⟩

theorem execBankTelemetry_preOnce : AnswersPreOnce (execBankTelemetry s) := by
  unfold execBankTelemetry
  split
  · exact .next h
  · extract_lets s1 acc s0 s2 s3 keep
    have h1 : s1.PreOnce := h.modBank fun _ => rfl
    have h0 : s0.PreOnce := h1.past fun k => .foldl _ (stamp_keeps k (.besideBank rfl)) fun _ _ k => spateReq_keeps _ _ k (.besideBank rfl)
    have h2 : s2.PreOnce := modBank (h0.past (srcPush_keeps _ _ · (.besideBank rfl))) fun _ => rfl
    have h3 : s3.PreOnce := past (.ite h2.lineReleased h2) (faultScan_keeps · (.besideBank rfl))
    exact .ite (.next h1) (.next (.ite (h3.past (modHold_keeps _ · (.besideBank rfl))) h3))

theorem execFeedLossInput_preOnce : AnswersPreOnce (execFeedLossInput s) := by
  unfold execFeedLossInput
  refine .ite (.next h) ?_
  extract_lets s0 s1 s2
  have hline := modBank (f := fun b => { b with
    lineQ := b.lineQ.tail, seenLine := !(b.disarmed && !b.line), disarmed := b.disarmed && !b.line })
    (h.past fun k => modHold_keeps (fun x => { x with line := true }) (stamp_keeps k (.besideBank rfl)) (.besideBank rfl)) fun _ => rfl
  have h0 : s0.PreOnce := hline.past fun k => .foldl _ k fun _ _ k => preStale_keeps _ k (.besideBank rfl)
  have h2 : s2.PreOnce := h0.past fun k => .foldl _ (faultScan_keeps (captureEvent_keeps _ k (.besideBank rfl)) (.besideBank rfl))
    fun _ _ k => loopFeedLoss_keeps _ k (.besideBank rfl)
  split
  · exact .next h2.holdEnter
  · exact .next h2.holdEnter
  · exact .next h2
  · exact .next (h2.past fun k => holdTo_keeps _ (log_keeps _ _ _ (modHold_keeps _ k (.besideBank rfl)) (.besideBank rfl)) (.besideBank rfl))

theorem execFeedLossReleaseInput_preOnce : AnswersPreOnce (execFeedLossReleaseInput s) := by
  have hline := modBank (f := fun b => { b with lineQ := b.lineQ.tail }) (h.past (stamp_keeps · (.besideBank rfl))) fun _ => rfl
  exact .next (.ite (hline.lineReleased.past (faultScan_keeps · (.besideBank rfl))) h)

theorem execPhaseFeedLossLatch_preOnce (d : Fin 4) : AnswersPreOnce (execPhaseFeedLossLatch d s) := by
  have hlatch : ({ s with bank := { s.bank with latch := s.bank.latch.set d.val false d.isLt } } : State).PreOnce := h.of_feed rfl
  exact .next (.ite (hlatch.past fun k => .foldl _ k fun _ _ k => latchPreload_keeps _ _ k (.besideBank rfl)) h)

theorem execWeirEvaluation_preOnce (skipped took : Nat) : AnswersPreOnce (execWeirEvaluation skipped took s) := by
  unfold execWeirEvaluation
  refine .ite (.next h) (.ite (.next h) ?_)
  extract_lets s0 s1
  have h0 : s0.PreOnce := .ite h (h.past (weirOverrun_keeps _ _ · (.besideBank rfl)))
  have h1 : s1.PreOnce := h0.past fun k => .foldl _ (.foldl _ k fun _ _ k => nodeMeasure_keeps _ k (.besideBank rfl))
    fun _ _ k => shaveCheck_keeps _ k (.besideBank rfl)
  exact .next ((h1.foldl (fun _ k hu => hu.scopeEval k) _).past (weirAllocate_keeps · (.besideBank rfl)))

theorem execSiltEvent_preOnce : AnswersPreOnce (execSiltEvent s) := by
  unfold execSiltEvent
  split
  · exact .next h
  next e es _ =>
    have hes : ({ s with evq := es } : State).PreOnce := h.of_feed rfl
    exact .next (.ite h (.ite h ((hes.siltDecide e).past (modSilt_keeps _ · (.besideBank rfl)))))

theorem execSpateBlockCopy_preOnce : AnswersPreOnce (execSpateBlockCopy s) := by
  unfold execSpateBlockCopy
  split
  · exact .next h
  · extract_lets x s1 step data hd i
    have h1 : s1.PreOnce := h.past (sluiceUse_keeps _ _ · (.besideBank rfl))
    have hstep : ∀ {u : State}, u.PreOnce → (step u).PreOnce := fun hu =>
      hu.past fun k => modBuf_keeps _ _ (modSilt_keeps _ k (.besideBank rfl)) (.besideBank rfl)
    clear_value x s1 step data hd i
    split
    · exact .next h
    · extract_lets a crc all
      refine .ite (.next h) (.ite (.next (h.past (sluiceStall_keeps _ · (.besideBank rfl)))) ?_)
      refine .ite (.next (hstep (past (.ite (h1.past (store_keeps _ _ · (.besideBank rfl))) h1) (store_keeps _ _ · (.besideBank rfl))))) ?_
      refine .ite (.ite (.next h) (.next (h1.spateSaved _ _))) (.ite (.next (hstep (h1.past (store_keeps _ _ · (.besideBank rfl))))) ?_)
      exact .ite (.next (h1.past fun k => spateRun_keeps (modSpate_keeps _ (modBuf_keeps _ _ (store_keeps _ _ k (.besideBank rfl))
        (.besideBank rfl)) (.besideBank rfl)) (.besideBank rfl))) (.next h)

theorem execHostRequestTake_preOnce (entropy : Nat) : AnswersPreOnce (execHostRequestTake entropy s) := by
  unfold execHostRequestTake
  split
  · exact .next h
  · refine .next (.ite h (.ite (h.past (sluiceStall_keeps _ · (.besideBank rfl))) ?_))
    extract_lets k bs0 bs s1 q
    have h1 : s1.PreOnce := h.past fun k => stamp_keeps (modHost_keeps _ (sluiceWork_keeps _ k (.besideBank rfl)) (.besideBank rfl)) (.besideBank rfl)
    exact .ite (h1.serve _ _ _ _ _) (h1.past (refuse_keeps _ _ _ _ · (.besideBank rfl)))

theorem execCommitApply_preOnce : AnswersPreOnce (execCommitApply s) := by
  unfold execCommitApply
  split
  · exact .next h
  · refine .next (.ite h ?_)
    extract_lets f s1
    have hstamp : s.stamp.PreOnce := h.past (stamp_keeps · (.besideBank rfl))
    have h1 : s1.PreOnce := h.past fun k => stamp_keeps (commitPop_keeps k (.besideBank rfl)) (.besideBank rfl)
    refine .ite (hstamp.past (commitRefuse_keeps _ _ · (.besideBank rfl))) ?_
    split
    · exact h1.past fun k => commitReply_keeps _ _ _ (commitLog_keeps _ (battRestore_keeps _ k (.besideBank rfl)) (.besideBank rfl)) (.besideBank rfl)
    · exact h1.past (applyKey_keeps _ · (.besideBank rfl))
    · exact h1.applyParams _

theorem execStemOutputLate_preOnce : AnswersPreOnce (execStemOutputLate s) := by
  unfold execStemOutputLate
  split
  · exact .next h
  · refine .next (.ite h (.ite (h.past fun k => disagree_keeps (modStems_keeps _ k (.besideBank rfl)) (.besideBank rfl)) ?_))
    exact .ite (h.past fun k => doubtful_keeps _ _ _ (modStems_keeps _ k (.besideBank rfl)) (.besideBank rfl))
      ((h.stemFail _ _ _ _).past (faultScan_keeps · (.besideBank rfl)))

theorem execStemFaultReport_preOnce (k : Fin 2) (kind : Nat) (l : Fin 16) : AnswersPreOnce (execStemFaultReport k kind l s) := by
  unfold execStemFaultReport
  refine .ite (.next h) ?_
  extract_lets s1 s2
  have h1 : s1.PreOnce := h.of_feed rfl
  have h2 : s2.PreOnce := .ite (h1.past (modStem_keeps _ _ · (.besideBank rfl))) h1
  exact .next ((h2.stemFail _ _ _ _).past (faultScan_keeps · (.besideBank rfl)))

theorem execThermScan_preOnce (raw : Vector Int 44) (xt : Vector Nat 16) (sup : Vector Int 10) :
    AnswersPreOnce (execThermScan raw xt sup s) := by
  unfold execThermScan
  refine .ite (.next h) ?_
  extract_lets s1 r s2 s3 s4 s5
  have h1 : s1.PreOnce := h.past fun k => scanRead_keeps _ _ (supplyScan_keeps _ k (.besideBank rfl)) (.besideBank rfl)
  have h2 : s2.PreOnce := h1.past (modTherm_keeps _ · (.besideBank rfl))
  have h3 : s3.PreOnce := h2.past fun k => .foldl _ k fun _ _ k => sensorLog_keeps _ _ _ k (.besideBank rfl)
  have h4 : s4.PreOnce := h3.foldl (fun _ d hu => hu.dieScan d) _
  have h5 : s5.PreOnce := h4.past fun k => .foldl _ k fun _ _ k => groupScan_keeps _ k (.besideBank rfl)
  exact .next (h5.past fun k => thermPublish_keeps _ (compensateTemp_keeps k (.besideBank rfl)) (.besideBank rfl))

theorem execBankThermalScan_preOnce (raw : Vector Int 4) : AnswersPreOnce (execBankThermalScan raw s) := by
  unfold execBankThermalScan
  refine .ite (.next h) ?_
  extract_lets sen s1 c ok top two
  have h1 : s1.PreOnce := h.past fun k => .foldl _ k fun _ _ k => modTherm_keeps _ k (.besideBank rfl)
  clear_value s1 top two
  split
  · exact .next (.ite (h1.dieMachine _ _ _ _) h1)
  · exact .next (h1.dieMachine _ _ _ _)

theorem execBrownWarnAssert_preOnce (i : Fin 10) : AnswersPreOnce (execBrownWarnAssert i s) := by
  unfold execBrownWarnAssert
  refine .ite (.next h) ?_
  extract_lets s1 join
  have h1 : s1.PreOnce := h.past (modSup_keeps _ _ · (.besideBank rfl))
  have hjoin : (join s1).PreOnce := h1.past (modPower_keeps _ · (.besideBank rfl))
  refine .next (.ite h1 ?_)
  split
  · exact h1.brownBegin i
  · exact hjoin
  · exact hjoin

theorem execStemSupplyLow_preOnce (k : Fin 2) : AnswersPreOnce (execStemSupplyLow k s) := by
  unfold execStemSupplyLow
  extract_lets s1
  have h1 : s1.PreOnce := h.past (modStem_keeps _ _ · (.besideBank rfl))
  exact .next (.ite h (.ite (h1.brownReset _) ((h1.stemFail _ _ _ _).past (faultScan_keeps · (.besideBank rfl)))))

theorem execNrst_preOnce (long : Bool) : AnswersPreOnce (execNrst long s) := by
  unfold execNrst
  refine .next (.ite h ?_)
  extract_lets s1
  have h1 : s1.PreOnce := h.fullReset _ _
  exact .ite (h1.past fun k => ledgerWrite_keeps (.foldl _ k fun _ _ k => latchClear_keeps _ k (.besideBank rfl)) (.besideBank rfl)) h1

theorem execLatchedWakeMainEnHigh_preOnce : AnswersPreOnce (execLatchedWakeMainEnHigh s) := by
  unfold execLatchedWakeMainEnHigh
  split
  · exact .next h
  · exact .next (.ite (h.wake _) h)

theorem execDevResetRelease_preOnce : AnswersPreOnce (execDevResetRelease s) := by
  unfold execDevResetRelease
  refine .next (.ite h ?_)
  extract_lets s1 s2
  have h1 : s1.PreOnce := h.past (modDev_keeps _ · (.besideBank rfl))
  have h2 : s2.PreOnce := h1.ledgerLoad.past fun k => hotHold_keeps (cursorsStart_keeps (retentionStart_keeps (ledgerStart_keeps
    (resumeTime_keeps k (.besideBank rfl)) (.besideBank rfl)) (.besideBank rfl)) (.besideBank rfl)) (.besideBank rfl)
  exact brownStart (.ite (h2.past (startStems_keeps · (.besideBank rfl))) h2)

theorem execKenebImageApply_preOnce (head : Bool) : AnswersPreOnce (execKenebImageApply head s) := by
  unfold execKenebImageApply
  refine .next (.ite h ?_)
  extract_lets s1 s2 s3 s4
  have h1 : s1.PreOnce := h.past fun k => stamp_keeps (modDev_keeps _ (imgLoad_keeps k (.besideBank rfl)) (.besideBank rfl)) (.besideBank rfl)
  have h2 : s2.PreOnce := h1.past fun k => .foldl _ (.foldl _ k fun _ _ k => timerBoot_keeps _ k (.besideBank rfl))
    fun _ _ k => battBoot_keeps _ k (.besideBank rfl)
  have h3 : s3.PreOnce := h2.past fun k => .foldl _ (spateApply_keeps (offsetsBoot_keeps k (.besideBank rfl)) (.besideBank rfl))
    fun _ _ k => modDie_keeps _ _ k (.besideBank rfl) fun _ h => h
  have h4 : s4.PreOnce := .ite h3.bankSendSet h3
  exact stateBoot (h4.past fun k => chainBoot_keeps _ (trialBegin_keeps (faultFree_keeps k (.besideBank rfl)) (.besideBank rfl)) (.besideBank rfl))

/-- The commands that may change the Bank die. -/
theorem exec_preOnce_of_bank {c : Instr} (hc : .bank ∈ c.parts) : AnswersPreOnce (exec c s) := by
  cases c
  case phaseFeedLossLatch d => exact execPhaseFeedLossLatch_preOnce h d
  case bankMeteringStep raw => exact execBankMeteringStep_preOnce h raw
  case feedFastTrip f i => exact .next (.ite (h.tripped id _ _) h)
  case feedReverseTrip f i v => exact execFeedReverseTrip_preOnce h f i v
  case feedOrOnDelayEnd c => exact execFeedOrOnDelayEnd_preOnce h c
  case feedInsertTimer f => exact execFeedInsertTimer_preOnce h f
  case feedPreTmaxExpire f => exact .next (.ite (h.inrushFail f 1) h)
  case feedSoaTimerExpire f => exact .next (.ite (h.inrushFail f 2) h)
  case feedRetryDelayEnd f => exact execFeedRetryDelayEnd_preOnce h f
  case feedLossCompLow c => exact .next (.ite (lossComparator h c.feed true 0) h)
  case feedLossCompHigh c => exact .next (.ite (lossComparator h c.feed false 0) h)
  case feedFetShort f path ma mv => exact execFeedFetShort_preOnce h f path ma mv
  case feedGateFail f gate mv => exact execFeedGateFail_preOnce h f gate mv
  case feedPreOverlapEnd f => exact execFeedPreOverlapEnd_preOnce h f
  case feedCleanTimeEnd f => exact .next (.ite (h.modFeed id) h)
  case feedTestEnd f => exact execFeedTestEnd_preOnce h f
  case feedCtrlEnable f k => exact .next (control h (h.feedControl f 1) _ _)
  case feedCtrlDisable f k => exact .next (control h (h.feedControl f 2) _ _)
  case feedCtrlClear f k => exact .next (control h (h.feedControl f 3) _ _)
  case feedCtrlTest f k => exact .next (control h (h.feedControl f 4) _ _)
  case feedCtrlResetEnergy f k => exact .next (control h (h.feedControl f 5) _ _)
  case bankHeartbeat => exact execBankHeartbeat_preOnce h
  case bankHbTimeout => exact execBankHbTimeout_preOnce h
  case bankHbReturn => exact execBankHbReturn_preOnce h
  case bankParamFrame ok => exact execBankParamFrame_preOnce h ok
  case bankParamCommit => exact execBankParamCommit_preOnce h
  case bankCommandFrame => exact execBankCommandFrame_preOnce h
  case bankTelemetry => exact execBankTelemetry_preOnce h
  case energyCopy => exact .next h.energyCopy
  case bankPowerOn => exact .next (.ite (bankOn (h.of_feed rfl)) (h.of_feed rfl))
  case bankPowerOff => exact .next (bankOff (h.of_feed rfl))
  case feedLossInput => exact execFeedLossInput_preOnce h
  case feedLossReleaseInput => exact execFeedLossReleaseInput_preOnce h
  case weirEvaluation skipped took => exact execWeirEvaluation_preOnce h skipped took
  case siltEvent => exact execSiltEvent_preOnce h
  case spateBlockCopy => exact execSpateBlockCopy_preOnce h
  case hostRequestTake entropy => exact execHostRequestTake_preOnce h entropy
  case commitApply => exact execCommitApply_preOnce h
  case stateReq q body => exact .next (h.request _ q body)
  case fwActivate q body => exact .next (h.request _ q body)
  case stemSilence k => exact .next (.ite ((h.stemFail _ _ _ _).past (faultScan_keeps · (.besideBank rfl))) h)
  case stemOutputLate => exact execStemOutputLate_preOnce h
  case stemFaultReport k kind l => exact execStemFaultReport_preOnce h k kind l
  case stemWatchdogExpire k =>
    exact .next (.ite h (.ite (h.fwRestart _) ((h.stemFail _ _ _ _).past (faultScan_keeps · (.besideBank rfl)))))
  case thermScan raw xt sup => exact execThermScan_preOnce h raw xt sup
  case bankThermalScan raw => exact execBankThermalScan_preOnce h raw
  case brownWarnAssert i => exact execBrownWarnAssert_preOnce h i
  case brownOut i => exact .next (.ite (h.brownReset i) h)
  case coldPor => exact .next ((h.fullReset 1 false).of_feed rfl)
  case mainPor => exact .next (.ite h (h.fullReset 2 false))
  case dormantWake cause early =>
    exact .next (.ite h (.ite (h.past (modSpring_keeps _ · (.besideBank rfl))) (h.wake cause)))
  case nrst long => exact execNrst_preOnce h long
  case stemSupplyLow k => exact execStemSupplyLow_preOnce h k
  case latchedWakeMainEnHigh => exact execLatchedWakeMainEnHigh_preOnce h
  case devResetRelease => exact execDevResetRelease_preOnce h
  case kenebImageApply head => exact execKenebImageApply_preOnce h head
  all_goals exact absurd hc (by dsimp only [Instr.parts]; decide)

theorem exec_preOnce (c : Instr) : AnswersPreOnce (exec c s) := by
  by_cases hc : .bank ∈ c.parts
  · exact exec_preOnce_of_bank h hc
  · obtain ⟨t, ht, -⟩ := exec_answers c s
    exact ⟨t, ht, h.of_feed (congrArg Bank.feed (commandsKeepTheRest s c t .bank ht hc))⟩

end

/-- Settles O59: at reset every feed is OFF; a command keeps the invariant, and so does the tick, which leaves the Bank die alone. -/
theorem prechargeOnce : Obligations.PrechargeOnce := by
  unfold Obligations.PrechargeOnce
  refine ⟨State.PreOnce.of_off State.reset_feed, fun s t h hstep => ?_⟩
  have hs : s.PreOnce := h
  show t.PreOnce
  cases hq : s.pending with
  | nil =>
    obtain rfl := Host.Outcome.next.inj ((step_of_pending_nil hq).symm.trans hstep)
    have hclock : s.clockOnce.PreOnce := .ite (hs.of_feed rfl) hs
    exact hclock.past (State.doubtEnd_keeps · (.besideBank rfl))
  | cons c cs =>
    obtain ⟨u, hu, hpre⟩ := exec_preOnce (s := { s with pending := cs }) (hs.of_feed rfl) c
    obtain rfl := Host.Outcome.next.inj (hu.symm.trans ((step_of_pending_cons hq).symm.trans hstep))
    exact hpre

end Sys2Proof.Machine

/-! PROOFS. What the operations of a feed write of it and of the log (R160 to R173), and the feed-loss line behind them (R170, R171). -/

namespace Sys2Proof.Machine

/-- A feed as it leaves for a state with every gate low (R160). -/
def Feed.opened (x : Feed) (tick : Nat) (st : FeedState) : Feed :=
  { x.drive tick false false false with
    state := st, ideal := false, rev := false, soaLimit := false
    overlap := false, test := false, insAt := none, insDone := false, retryRun := false, retryDue := false }

/-- A feed as it trips (R160, R166 to R168). -/
def Feed.afterTrip (x : Feed) (tick retryLen : Nat) : Feed :=
  { x.drive tick x.go false false with
    state := .tripped, ideal := false, rev := false, soaLimit := false, overlap := false
    tripAt := tick, retryLen := retryLen, retryRun := true, retryDue := false, trips := bump x.trips }

/-- A feed as it becomes CONNECTED (R160). -/
def Feed.joined (x : Feed) (tick : Nat) : Feed :=
  { x.drive tick x.go true x.gp with
    state := .connected, conAt := tick, overlap := x.gp, soaLimit := false, ideal := true, insAt := none, insDone := false }

theorem State.revRecord_prefix (s : State) (f : Fin 2) : s.evq <+: (s.revRecord f).evq := by
  unfold State.revRecord
  extract_lets x
  split
  · exact List.prefix_append _ _
  · exact List.prefix_rfl

theorem State.revRecord_of_not_rev {s : State} {f : Fin 2} (h : s.bank.feed[f].rev = false) : s.revRecord f = s :=
  if_neg fun hrev => Bool.noConfusion (h.symm.trans hrev)

theorem State.feedOpen_feed (s : State) (f : Fin 2) (st : FeedState) :
    (s.feedOpen f st).bank.feed = upd s.bank.feed f (fun x => x.opened s.clk.tick st) :=
  congrArg (fun b : Bank => upd b.feed f fun x => x.opened s.clk.tick st) (s.revRecord_bank f)

theorem State.feedOpen_prefix (s : State) (f : Fin 2) (st : FeedState) : s.evq <+: (s.feedOpen f st).evq := s.revRecord_prefix f

theorem State.feedTrip_feed (s : State) (f : Fin 2) :
    (s.feedTrip f).bank.feed = upd s.bank.feed f (fun x => x.afterTrip s.clk.tick (s.bparN P.FEED_RETRY_DELAY f)) :=
  congrArg (fun b : Bank => upd b.feed f fun x => x.afterTrip s.clk.tick (s.bparN P.FEED_RETRY_DELAY f)) (s.revRecord_bank f)

theorem State.feedTrip_prefix (s : State) (f : Fin 2) : s.evq <+: (s.feedTrip f).evq := s.revRecord_prefix f

theorem State.lineScan_prefix (s : State) (f : Fin 2) (cause : Nat) : s.evq <+: (s.lineScan f cause).evq := by
  unfold State.lineScan
  extract_lets av s1 s2
  have h1 : s1.evq = s.evq := by
    unfold s1
    split
    · rfl
    · rfl
  rw [← h1]
  show s1.evq <+: s2.evq
  unfold s2
  split
  · exact List.prefix_append _ _
  · split
    · exact List.prefix_append _ _
    · exact List.prefix_rfl

theorem State.feedConnect_feed (s : State) (f : Fin 2) (how : Nat) :
    (s.feedConnect f how).bank.feed = upd s.bank.feed f (fun x => x.joined s.clk.tick) :=
  (State.lineScan_bank _ f 0).1

/-- LOCKOUT for a damaged FET or gate, behind its own record: every gate low, and FEED_LOCKOUT (R160). -/
theorem State.feedLock_ends (s : State) (f : Fin 2) (cause : Nat) :
    (s.feedLock f cause).bank.feed = upd s.bank.feed f (fun x => x.opened s.clk.tick .lockout) ∧ s.evq <+: (s.feedLock f cause).evq ∧
      ⟨0x0608, f.val, toWord 64 cause, s.clk.shelf⟩ ∈ (s.feedLock f cause).evq := by
  refine ⟨?_, ?_, State.mem_evq_lineScan ?_ f 5⟩
  · exact (State.lineScan_bank _ f 5).1.trans (s.feedOpen_feed f .lockout)
  · exact ((s.feedOpen_prefix f .lockout).trans (List.prefix_append _ _)).trans
      (State.lineScan_prefix ((s.feedOpen f .lockout).log 0x0608 f.val cause) f 5)
  · rw [State.log_evq, s.feedOpen_clk f .lockout]
    exact List.mem_append_right _ (List.mem_singleton_self _)

/-- The record made first of those a command adds. -/
theorem take_of_record_prefix {es fs : List LogEv} {e : LogEv} (h : es ++ [e] <+: fs) : fs.take (es.length + 1) = es ++ [e] := by
  rw [List.prefix_iff_eq_take.1 h, List.length_append, List.length_singleton]

/-! The trips. -/

/-- A trip, behind its flag and its record. -/
theorem State.feedTrip_lineScan (s : State) (f : Fin 2) (g : Feed → Feed) (code : Nat) (data : Int) :
    (((((s.modFeed f g).log code f.val data).feedTrip f).lineScan f 2).bank.feed)[f] =
        (g s.bank.feed[f]).afterTrip s.clk.tick (s.bparN P.FEED_RETRY_DELAY f) ∧
      s.evq ++ [⟨code, f.val, toWord 64 data, s.clk.shelf⟩] <+: ((((s.modFeed f g).log code f.val data).feedTrip f).lineScan f 2).evq := by
  refine ⟨?_, (State.feedTrip_prefix ((s.modFeed f g).log code f.val data) f).trans (State.lineScan_prefix _ f 2)⟩
  rw [(State.lineScan_bank _ f 2).1, State.feedTrip_feed]
  refine (upd_at _ f _).trans ?_
  exact congrArg (fun x : Feed => x.afterTrip s.clk.tick (s.bparN P.FEED_RETRY_DELAY f)) (upd_at s.bank.feed f g)

/-- The line is looked at with the trip on its way to the stems, which is none of its feeds and none of its records. -/
theorem State.feedTripped_lineScan (s : State) (f : Fin 2) (cause : Nat) :
    ((s.feedTripped f).lineScan f cause).bank.feed = (s.lineScan f cause).bank.feed ∧ s.evq <+: ((s.feedTripped f).lineScan f cause).evq :=
  ⟨(State.lineScan_bank _ f cause).1.trans (State.lineScan_bank s f cause).1.symm, State.lineScan_prefix (s.feedTripped f) f cause⟩

end Sys2Proof.Machine

/-! PROOFS. What trips, retries and locks a feed out (R162 to R168, R172, R173). -/

namespace Sys2Proof.Machine

theorem State.modFeed_feed (s : State) (f : Fin 2) (g : Feed → Feed) : (s.modFeed f g).bank.feed[f] = g s.bank.feed[f] := upd_at s.bank.feed f g

theorem exec_feedFastTrip_of_over {s : State} {f : Fin 2} {i : Int} (hon : s.bank.on = true)
    (hst : s.bank.feed[f].state = .precharge ∨ s.bank.feed[f].state = .connected)
    (hover : min 1023 (s.bpar P.FEED_FAST_TRIP f * s.bpar P.FEED_RSHUNT f * 1024 / 200000000) * 200000000 < i * s.bpar P.FEED_RSHUNT f * 1024) :
    exec (.feedFastTrip f i) s = .next (((((s.modFeed f fun y => { y with fast := true }).log 0x0604 f.val
      (lohi s.bank.feed[f].state.code i)).feedTrip f).feedTripped f).lineScan f 2) :=
  congrArg Host.Outcome.next (if_pos ⟨hon, hst, hover⟩)

theorem exec_feedPreTmaxExpire_of_past {s : State} {f : Fin 2} (hst : s.bank.feed[f].state = .precharge)
    (hpast : s.since s.bank.feed[f].preAt s.bank.feed[f].preLen 250000 = true) :
    exec (.feedPreTmaxExpire f) s = .next (s.inrushFail f 1) :=
  congrArg Host.Outcome.next (if_pos ⟨hst, hpast⟩)

theorem exec_feedSoaTimerExpire_of_past {s : State} {f : Fin 2} (hst : s.bank.feed[f].state = .precharge)
    (hpast : s.bank.feed[f].soaLen * 1000 ≤ s.bank.feed[f].soaSteps * 32) :
    exec (.feedSoaTimerExpire f) s = .next (s.inrushFail f 2) :=
  congrArg Host.Outcome.next (if_pos ⟨hst, hpast⟩)

/-- A precharge that fails, whatever ended it (R166). -/
theorem State.inrushFail_ends (s : State) (f : Fin 2) (cause : Nat) :
    (s.inrushFail f cause).bank.feed[f].state = .tripped ∧ (s.inrushFail f cause).bank.feed[f].gm = false ∧
      (s.inrushFail f cause).bank.feed[f].gp = false ∧ (s.inrushFail f cause).bank.feed[f].inrush = true ∧
      (s.inrushFail f cause).bank.feed[f].trips = bump s.bank.feed[f].trips ∧ (s.inrushFail f cause).bank.feed[f].retryRun = true ∧
      (s.inrushFail f cause).evq.take (s.evq.length + 1) =
        s.evq ++ [⟨0x0606, f.val, toWord 64 (lohi cause s.bank.feed[f].dv), s.clk.shelf⟩] := by
  obtain ⟨hfeed, hrec⟩ := s.feedTrip_lineScan f (fun y => { y with inrush := true }) 0x0606 (lohi cause s.bank.feed[f].dv)
  exact ⟨congrArg Feed.state hfeed, congrArg Feed.gm hfeed, congrArg Feed.gp hfeed, congrArg Feed.inrush hfeed,
    congrArg Feed.trips hfeed, congrArg Feed.retryRun hfeed, take_of_record_prefix hrec⟩

/-- A retry whose time has passed, on a die that acts on commands. -/
theorem exec_feedRetryDelayEnd_of_acts {s : State} {f : Fin 2} (hst : s.bank.feed[f].state = .tripped)
    (hrun : s.bank.feed[f].retryRun = true) (hpast : s.since s.bank.feed[f].tripAt s.bank.feed[f].retryLen 250000 = true)
    (hacts : s.bankActs = true) :
    exec (.feedRetryDelayEnd f) s = .next ((s.modFeed f fun y => { y with retryRun := false, retryDue := true }).feedRetry f) :=
  congrArg Host.Outcome.next ((if_pos ⟨hst, hrun, hpast⟩).trans (if_pos hacts))

theorem exec_feedRetryDelayEnd_of_not_acts {s : State} {f : Fin 2} (hst : s.bank.feed[f].state = .tripped)
    (hrun : s.bank.feed[f].retryRun = true) (hpast : s.since s.bank.feed[f].tripAt s.bank.feed[f].retryLen 250000 = true)
    (hacts : s.bankActs = false) :
    exec (.feedRetryDelayEnd f) s = .next (s.modFeed f fun y => { y with retryRun := false, retryDue := true }) :=
  congrArg Host.Outcome.next ((if_pos ⟨hst, hrun, hpast⟩).trans (if_neg (Bool.eq_false_iff.1 hacts)))

/-- A retry where one is left: QUALIFY again, the retry counted and recorded (R168). -/
theorem State.feedRetry_qualifies {s : State} {f : Fin 2}
    (hleft : s.bank.feed[f].retries < s.bparN P.FEED_RETRIES f ∨ s.bpar P.FEED_RETRIES f = 255) :
    (s.feedRetry f).bank.feed[f] = { s.bank.feed[f].opened s.clk.tick .qualify with retries := min 255 (s.bank.feed[f].retries + 1) } ∧
      ⟨0x0607, f.val, toWord 64 (min 255 (s.bank.feed[f].retries + 1) : Nat), s.clk.shelf⟩ ∈ (s.feedRetry f).evq := by
  have hretry : s.feedRetry f = (((s.feedOpen f .qualify).modFeed f (fun y => { y with retries := min 255 (s.bank.feed[f].retries + 1) })).log
    0x0607 f.val (min 255 (s.bank.feed[f].retries + 1) : Nat)).lineScan f 2 := if_pos hleft
  rw [hretry]
  refine ⟨?feed, State.mem_evq_lineScan ?record f 2⟩
  case feed =>
    rw [(State.lineScan_bank _ f 2).1]
    refine (upd_at (s.feedOpen f .qualify).bank.feed f _).trans ?_
    exact congrArg (fun x : Feed => { x with retries := min 255 (s.bank.feed[f].retries + 1) })
      ((congrArg (·[f]) (s.feedOpen_feed f .qualify)).trans (upd_at s.bank.feed f _))
  case record =>
    rw [State.log_evq]
    refine List.mem_append_right _ (List.mem_singleton.2 ?_)
    exact congrArg (fun c : Clock => LogEv.mk 0x0607 f.val _ c.shelf) (s.feedOpen_clk f .qualify).symm

/-- Where no retry is left the feed is locked out with its record (R168). -/
theorem State.feedRetry_locks {s : State} {f : Fin 2} (hnone : s.bparN P.FEED_RETRIES f ≤ s.bank.feed[f].retries)
    (hlimit : s.bpar P.FEED_RETRIES f ≠ 255) :
    (s.feedRetry f).bank.feed[f].state = .lockout ∧ ⟨0x0608, f.val, 1, s.clk.shelf⟩ ∈ (s.feedRetry f).evq := by
  have hretry : s.feedRetry f = ((s.feedOpen f .lockout).log 0x0608 f.val 1).lineScan f 2 :=
    if_neg fun h => h.elim (Nat.not_lt.2 hnone) hlimit
  rw [hretry]
  refine ⟨?state, State.mem_evq_lineScan ?record f 2⟩
  case state =>
    rw [(State.lineScan_bank _ f 2).1]
    exact congrArg Feed.state ((congrArg (·[f]) (s.feedOpen_feed f .lockout)).trans (upd_at s.bank.feed f _))
  case record =>
    rw [State.log_evq, s.feedOpen_clk f .lockout]
    exact List.mem_append_right _ (List.mem_singleton_self _)

/-- A feed locked out for damage, behind the flag and the record of what was found (R172, R173). -/
theorem State.feedLock_of_found (s : State) (f : Fin 2) (g : Feed → Feed) (code cause : Nat) (data : Int) :
    (((s.modFeed f g).log code f.val data).feedLock f cause).bank.feed[f] = (g s.bank.feed[f]).opened s.clk.tick .lockout ∧
      (((s.modFeed f g).log code f.val data).feedLock f cause).evq.take (s.evq.length + 1) =
        s.evq ++ [⟨code, f.val, toWord 64 data, s.clk.shelf⟩] ∧
      ⟨0x0608, f.val, toWord 64 cause, s.clk.shelf⟩ ∈ (((s.modFeed f g).log code f.val data).feedLock f cause).evq := by
  obtain ⟨hfeed, hrec, hlock⟩ := ((s.modFeed f g).log code f.val data).feedLock_ends f cause
  refine ⟨?_, take_of_record_prefix hrec, hlock⟩
  rw [hfeed]
  exact (upd_at _ f _).trans (congrArg (fun x : Feed => x.opened s.clk.tick .lockout) (upd_at s.bank.feed f g))

theorem exec_feedFetShort_of_found {s : State} {f path : Fin 2} (hon : s.bank.on = true) (hoff : s.bank.feed[f].state ≠ .off)
    (hnew : s.bank.feed[f].fetShort = false) (hfound : s.fetFound f path = true) :
    exec (.feedFetShort f path s.bank.feed[f].i (s.fetVolt f path)) s = .next (((s.modFeed f fun y => { y with fetShort := true }).log 0x060A f.val
      (lohi (path.val + toWord 24 s.bank.feed[f].i.natAbs * 256 : Nat) (s.fetVolt f path))).feedLock f 3) := by
  refine congrArg Host.Outcome.next ((if_neg ?_).trans (if_neg hoff))
  rintro (hon' | hfound' | hval | ⟨hflag, -⟩)
  · exact Bool.noConfusion (hon.symm.trans hon')
  · exact Bool.noConfusion (hfound.symm.trans hfound')
  · exact hval rfl
  · exact Bool.noConfusion (hnew.symm.trans hflag)

theorem exec_feedFetShort_of_not_found {s : State} {f path : Fin 2} {ma mv : Int}
    (hnot : s.bank.on = false ∨ s.fetFound f path = false ∨ ma ≠ s.bank.feed[f].i ∨ mv ≠ s.fetVolt f path) :
    exec (.feedFetShort f path ma mv) s = .next s := by
  refine congrArg Host.Outcome.next (if_pos ?_)
  obtain hon | hfound | hma | hmv := hnot
  · exact .inl hon
  · exact .inr (.inl hfound)
  · exact .inr (.inr (.inl fun h => hma (congrArg Prod.fst h)))
  · exact .inr (.inr (.inl fun h => hmv (congrArg Prod.snd h)))

/-- The main gate driven high for FEED_T_GATE and still low (R173). -/
theorem exec_feedGateFail_of_main {s : State} {f : Fin 2} {mv : Nat} (hoff : s.bank.feed[f].state ≠ .off) (hgm : s.bank.feed[f].gm = true)
    (hpast : s.since s.bank.feed[f].gmAt (s.bparN P.FEED_T_GATE f) 250 = true) (hlow : mv < s.bparN P.FEED_GATE_OK f) :
    exec (.feedGateFail f 1 mv) s = .next (((s.modFeed f fun y => { y with gateFail := true }).log 0x060B f.val
      ((1 + mv * 65536 : Nat) : Int)).feedLock f 2) :=
  congrArg Host.Outcome.next (if_pos ⟨Bool.and_eq_true_iff.2 ⟨hgm, hpast⟩, hlow, hoff⟩)

theorem exec_feedGateFail_of_ok {s : State} {f : Fin 2} {gate : Fin 3} {mv : Nat}
    (hok : s.bank.feed[f].state = .off ∨ s.bparN P.FEED_GATE_OK f ≤ mv) : exec (.feedGateFail f gate mv) s = .next s :=
  congrArg Host.Outcome.next (if_neg fun ⟨_, hlow, hoff⟩ => hok.elim hoff (Nat.not_le.2 hlow))

/-- Settles O22: a trip goes through `feedTrip` behind its flag and its record, a retry through `feedRetry`, and damage through `feedLock`; the
feed-loss line looked at last leaves the feeds and only adds records. -/
theorem feedTrips : Obligations.FeedTrips := by
  unfold Obligations.FeedTrips
  refine ⟨?fastTrip, ?fastKept, ?preTmax, ?preTmaxKept, ?soa, ?soaKept, ?retry, ?retryOut, ?retryWaits, ?fetShort, ?fetKept, ?gateFail, ?gateKept⟩
  case fastTrip =>
    intro s f i hon hst hover
    obtain ⟨hfeed, hrec⟩ := s.feedTrip_lineScan f (fun y => { y with fast := true }) 0x0604 (lohi s.bank.feed[f].state.code i)
    obtain ⟨htold, hpre⟩ := State.feedTripped_lineScan
      (((s.modFeed f fun y => { y with fast := true }).log 0x0604 f.val (lohi s.bank.feed[f].state.code i)).feedTrip f) f 2
    replace hfeed := (congrArg (·[f]) htold).trans hfeed
    have hgo := congrArg Feed.go hfeed
    refine ⟨_, exec_feedFastTrip_of_over hon hst hover, congrArg Feed.state hfeed, congrArg Feed.gm hfeed, congrArg Feed.gp hfeed,
      hgo, congrArg Feed.fast hfeed, congrArg Feed.trips hfeed, congrArg Feed.retryRun hfeed, take_of_record_prefix ?_⟩
    exact (State.feedTrip_prefix ((s.modFeed f _).log 0x0604 f.val _) f).trans hpre
  case fastKept =>
    intro s f i hnot
    refine ⟨s, congrArg Host.Outcome.next (if_neg ?_), rfl⟩
    rintro ⟨hon, hst, hover⟩
    obtain hoff | ⟨hpre, hcon⟩ | hbelow := hnot
    · exact Bool.noConfusion (hoff.symm.trans hon)
    · exact hst.elim hpre hcon
    · exact absurd hover (not_lt.2 hbelow)
  case preTmax =>
    intro s f hst hpast
    exact ⟨_, exec_feedPreTmaxExpire_of_past hst hpast, s.inrushFail_ends f 1⟩
  case preTmaxKept =>
    intro s f hnot
    refine ⟨s, congrArg Host.Outcome.next (if_neg ?_), rfl⟩
    rintro ⟨hst, hpast⟩
    exact hnot.elim (· hst) fun h => Bool.noConfusion (h.symm.trans hpast)
  case soa =>
    intro s f hst hpast
    exact ⟨_, exec_feedSoaTimerExpire_of_past hst hpast, s.inrushFail_ends f 2⟩
  case soaKept =>
    intro s f hnot
    refine ⟨s, congrArg Host.Outcome.next (if_neg ?_), rfl⟩
    rintro ⟨hst, hpast⟩
    exact hnot.elim (· hst) (Nat.not_lt.2 hpast)
  case retry =>
    intro s f hst hrun hpast hacts hleft
    have hx := s.modFeed_feed f fun y => { y with retryRun := false, retryDue := true }
    have hretries := congrArg Feed.retries hx
    obtain ⟨hfeed, hrec⟩ := State.feedRetry_qualifies (s := s.modFeed f fun y => { y with retryRun := false, retryDue := true }) (f := f)
      (hleft.imp_left (Nat.lt_of_le_of_lt hretries.le))
    rw [hx] at hfeed hrec
    exact ⟨_, exec_feedRetryDelayEnd_of_acts hst hrun hpast hacts, congrArg Feed.state hfeed, congrArg Feed.retries hfeed,
      congrArg Feed.gm hfeed, congrArg Feed.go hfeed, hrec⟩
  case retryOut =>
    intro s f hst hrun hpast hacts hnone hlimit
    have hretries := congrArg Feed.retries (s.modFeed_feed f fun y => { y with retryRun := false, retryDue := true })
    exact ⟨_, exec_feedRetryDelayEnd_of_acts hst hrun hpast hacts,
      State.feedRetry_locks (s := s.modFeed f fun y => { y with retryRun := false, retryDue := true }) (hnone.trans hretries.ge) hlimit⟩
  case retryWaits =>
    intro s f hst hrun hpast hacts
    exact ⟨_, exec_feedRetryDelayEnd_of_not_acts hst hrun hpast hacts, s.modFeed_feed f _, rfl⟩
  case fetShort =>
    intro s f path hon hoff hnew hfound
    obtain ⟨hfeed, hrec, hlock⟩ := s.feedLock_of_found f (fun y => { y with fetShort := true }) 0x060A 3
      (lohi (path.val + toWord 24 s.bank.feed[f].i.natAbs * 256 : Nat) (s.fetVolt f path))
    exact ⟨_, exec_feedFetShort_of_found hon hoff hnew hfound, congrArg Feed.state hfeed, congrArg Feed.fetShort hfeed,
      congrArg Feed.go hfeed, congrArg Feed.gm hfeed, congrArg Feed.gp hfeed, hrec, hlock⟩
  case fetKept =>
    intro s f path ma mv hnot
    exact ⟨s, exec_feedFetShort_of_not_found hnot, rfl⟩
  case gateFail =>
    intro s f mv hoff hgm hpast hlow
    obtain ⟨hfeed, hrec, hlock⟩ := s.feedLock_of_found f (fun y => { y with gateFail := true }) 0x060B 2 ((1 + mv * 65536 : Nat) : Int)
    exact ⟨_, exec_feedGateFail_of_main hoff hgm hpast hlow, congrArg Feed.state hfeed, congrArg Feed.gateFail hfeed,
      congrArg Feed.go hfeed, congrArg Feed.gm hfeed, congrArg Feed.gp hfeed, hrec, hlock⟩
  case gateKept =>
    intro s f gate mv hok
    exact ⟨s, exec_feedGateFail_of_ok hok, rfl⟩

end Sys2Proof.Machine

/-! PROOFS. A feed leaves INSERT and becomes CONNECTED (R160, R163, R169, R176). -/

namespace Sys2Proof.Machine

theorem other_feed_ne (f : Fin 2) : (if f = 0 then (1 : Fin 2) else 0) ≠ f := by
  revert f
  decide

theorem State.modFeed_other (s : State) {f g : Fin 2} (u : Feed → Feed) (h : g ≠ f) : (s.modFeed f u).bank.feed[g] = s.bank.feed[g] :=
  upd_ne s.bank.feed u h

/-- A feed with its gates low, on its way from INSERT to CONNECTED (R160). -/
def Feed.readied (x : Feed) (tick : Nat) : Feed :=
  { x.drive tick false false false with rev := false, goAt := tick }

/-- A feed as it starts to precharge, through the resistor or by regulating GMx (R163). -/
def State.precharged (s : State) (f : Fin 2) (x : Feed) : Feed :=
  { x.drive s.clk.tick false false (!(s.bpar P.FEED_INRUSH_MODE f == 1)) with
    state := .precharge, insAt := none, insDone := false, preAt := s.clk.tick, preLen := s.bparN P.FEED_PRE_TMAX f, ideal := true
    goAt := s.clk.tick, rev := false, reg := s.bpar P.FEED_INRUSH_MODE f == 1, slope := s.bparN P.FEED_DVDT f, soaSteps := 0
    soaLen := s.bparN P.FEED_SOA_T f, a2t := 0, a2tOver := 0, soaLimit := false }

theorem State.feedLeaveInsert_of_near {s : State} {f : Fin 2} (hnear : s.bank.feed[f].dv.natAbs ≤ s.bparN P.FEED_PRE_DV f) :
    s.feedLeaveInsert f = (s.modFeed f fun y => y.readied s.clk.tick).feedConnect f 0 := if_pos (.inl hnear)

theorem State.feedLeaveInsert_of_free {s : State} {f : Fin 2} (hfar : s.bparN P.FEED_PRE_DV f < s.bank.feed[f].dv.natAbs)
    (hup : 0 ≤ s.bank.feed[f].dv) (hfree : s.bank.feed[if f = 0 then (1 : Fin 2) else 0].state ≠ .precharge) :
    s.feedLeaveInsert f = (s.modFeed f (s.precharged f)).bankSend false :=
  (if_neg fun h => h.elim (Nat.not_le.2 hfar) (not_lt.2 hup)).trans (if_neg hfree)

theorem State.feedLeaveInsert_of_busy {s : State} {f : Fin 2} (hfar : s.bparN P.FEED_PRE_DV f < s.bank.feed[f].dv.natAbs)
    (hup : 0 ≤ s.bank.feed[f].dv) (hbusy : s.bank.feed[if f = 0 then (1 : Fin 2) else 0].state = .precharge) :
    s.feedLeaveInsert f = s :=
  (if_neg fun h => h.elim (Nat.not_le.2 hfar) (not_lt.2 hup)).trans (if_pos hbusy)

theorem State.feedLeaveInsert_near_feed {s : State} {f : Fin 2} (hnear : s.bank.feed[f].dv.natAbs ≤ s.bparN P.FEED_PRE_DV f) :
    (s.feedLeaveInsert f).bank.feed[f] = (s.bank.feed[f].readied s.clk.tick).joined s.clk.tick ∧
      ∀ g : Fin 2, g ≠ f → (s.feedLeaveInsert f).bank.feed[g] = s.bank.feed[g] := by
  rw [State.feedLeaveInsert_of_near hnear, State.feedConnect_feed]
  refine ⟨(upd_at _ f _).trans ?_, fun g hg => (upd_ne _ _ hg).trans (s.modFeed_other _ hg)⟩
  exact congrArg (fun x : Feed => x.joined s.clk.tick) (s.modFeed_feed f fun y => y.readied s.clk.tick)

/-- The end of FEED_INSERT_DELAY with the windows good, on a die free to drive gates high. -/
theorem exec_feedInsertTimer_of_go {s : State} {f : Fin 2} (hst : s.bank.feed[f].state = .insert)
    (hpast : s.since (s.bank.feed[f].insAt.getD s.clk.tick) s.bank.feed[f].insLen 250000 = true) (hwin : s.bank.feed[f].winOk = true)
    (hgo : s.bankGo = true) :
    exec (.feedInsertTimer f) s = .next ((s.modFeed f fun y => { y with insDone := true }).feedLeaveInsert f) :=
  congrArg Host.Outcome.next ((if_pos ⟨hst, hpast⟩).trans (if_pos ⟨hwin, hgo⟩))

theorem exec_feedPreOverlapEnd_of_past {s : State} {f : Fin 2} (hover : s.bank.feed[f].overlap = true)
    (hpast : s.since s.bank.feed[f].conAt (s.bparN P.FEED_PRE_OVERLAP f) 250 = true) :
    exec (.feedPreOverlapEnd f) s =
      .next ((s.modFeed f fun y => { y.drive s.clk.tick y.go y.gm false with overlap := false }).bankSend false) :=
  congrArg Host.Outcome.next (if_pos ⟨hover, hpast⟩)

theorem exec_feedCleanTimeEnd_of_past {s : State} {f : Fin 2} (hst : s.bank.feed[f].state = .connected)
    (hpast : s.since s.bank.feed[f].conAt (s.bparN P.FEED_CLEAN_TIME f) 250000000 = true) :
    exec (.feedCleanTimeEnd f) s = .next (s.modFeed f fun y => { y with retries := 0 }) :=
  congrArg Host.Outcome.next (if_pos ⟨hst, hpast⟩)

/-- A feed whose OR gate goes high under ideal-diode control (R169). -/
def Feed.conducting (x : Feed) (tick : Nat) : Feed :=
  { x with go := true, goAt := if x.go then x.goAt else tick, rev := false, test := false }

theorem exec_feedOrOnDelayEnd_of_held {s : State} {f : Fin 2} {ma : Int} {held : Nat} (hideal : s.bank.feed[f].ideal = true)
    (hlow : s.bank.feed[f].go = false ∨ s.bank.feed[f].rev = true) (hma : s.bpar P.FEED_OR_ON f < ma)
    (hheld : s.bparN P.FEED_OR_ON_DLY f * 1000 ≤ held) :
    exec (.feedOrOnDelayEnd ⟨f, ma, held⟩) s =
      .next (((s.revRecord f).modFeed f fun y => y.conducting s.clk.tick).bankSend false) :=
  congrArg Host.Outcome.next (if_pos ⟨hideal, hlow, hma, hheld⟩)

theorem exec_feedTestEnd_of_past {s : State} {f : Fin 2} (htest : s.bank.feed[f].test = true)
    (hpast : s.since s.bank.feed[f].goAt (s.bparN P.FEED_T_GATE f) 250 = true) :
    exec (.feedTestEnd f) s = .next ((s.modFeed f fun y => { y.drive s.clk.tick false y.gm y.gp with test := false }).bankSend false) :=
  congrArg Host.Outcome.next (if_pos ⟨htest, hpast⟩)

/-- Settles O21: the end of each timer is its own update of the feed; out of INSERT the feed goes the one way of the three that the voltage
across its path and the other feed leave it. -/
theorem feedConnects : Obligations.FeedConnects := by
  unfold Obligations.FeedConnects
  refine ⟨?near, ?free, ?busy, ?overlap, ?clean, ?orOn, ?orOnKept, ?test⟩
  case near =>
    intro s f hst hpast hwin hgo hnear
    have hx := s.modFeed_feed f fun y => { y with insDone := true }
    have hdv := congrArg Feed.dv hx
    obtain ⟨hfeed, hother⟩ := State.feedLeaveInsert_near_feed (s := s.modFeed f fun y => { y with insDone := true }) (f := f)
      (hdv.symm ▸ hnear)
    exact ⟨_, exec_feedInsertTimer_of_go hst hpast hwin hgo, congrArg Feed.state hfeed, congrArg Feed.gm hfeed, congrArg Feed.ideal hfeed,
      congrArg Feed.go hfeed, fun g hg => (hother g hg).trans (s.modFeed_other _ hg)⟩
  case free =>
    intro s f hst hpast hwin hgo hfar hup hnone
    have hx := s.modFeed_feed f fun y => { y with insDone := true }
    have hdv := congrArg Feed.dv hx
    have hfree := State.feedLeaveInsert_of_free (s := s.modFeed f fun y => { y with insDone := true }) (f := f)
      (hdv.symm ▸ hfar) (hdv.symm ▸ hup) ((congrArg Feed.state (s.modFeed_other _ (other_feed_ne f))).trans_ne (hnone _))
    have hfeed := State.modFeed_feed (s.modFeed f fun y => { y with insDone := true }) f
      ((s.modFeed f fun y => { y with insDone := true }).precharged f)
    exact ⟨_, (exec_feedInsertTimer_of_go hst hpast hwin hgo).trans (congrArg Host.Outcome.next hfree), congrArg Feed.state hfeed,
      congrArg Feed.preAt hfeed, congrArg Feed.gm hfeed, congrArg Feed.gp hfeed, congrArg Feed.reg hfeed, congrArg Feed.ideal hfeed,
      fun g hg => (State.modFeed_other _ _ hg).trans (s.modFeed_other _ hg)⟩
  case busy =>
    intro s f g hst hpast hwin hgo hfar hup hbusy
    have hx := s.modFeed_feed f fun y => { y with insDone := true }
    have hdv := congrArg Feed.dv hx
    have hg : g ≠ f := by
      rintro rfl
      exact absurd (hst.symm.trans hbusy) (by decide)
    have hother := congrArg Feed.state (s.modFeed_other (fun y => { y with insDone := true }) hg)
    have hwaits := State.feedLeaveInsert_of_busy (s := s.modFeed f fun y => { y with insDone := true }) (f := f)
      (hdv.symm ▸ hfar) (hdv.symm ▸ hup) (feed_eq_other hg ▸ hother.trans hbusy)
    exact ⟨_, (exec_feedInsertTimer_of_go hst hpast hwin hgo).trans (congrArg Host.Outcome.next hwaits), (congrArg Feed.state hx).trans hst,
      congrArg Feed.insDone hx, hother.trans hbusy⟩
  case overlap =>
    intro s f hover hpast
    have hfeed := s.modFeed_feed f fun y => { y.drive s.clk.tick y.go y.gm false with overlap := false }
    have hgm := congrArg Feed.gm hfeed
    have hgo := congrArg Feed.go hfeed
    have hstate := congrArg Feed.state hfeed
    exact ⟨_, exec_feedPreOverlapEnd_of_past hover hpast, congrArg Feed.gp hfeed, congrArg Feed.overlap hfeed, hgm, hgo, hstate⟩
  case clean =>
    intro s f hst hpast
    exact ⟨_, exec_feedCleanTimeEnd_of_past hst hpast, s.modFeed_feed f _, rfl⟩
  case orOn =>
    intro s f ma held hideal hlow hma hheld
    have hfeed := ((s.revRecord f).modFeed_feed f fun y => y.conducting s.clk.tick).trans
      (congrArg (fun b : Bank => b.feed[f].conducting s.clk.tick) (s.revRecord_bank f))
    have hstate := congrArg Feed.state hfeed
    have hevq : (s.revRecord f).evq = s.evq → (((s.revRecord f).modFeed f fun y => y.conducting s.clk.tick).bankSend false).evq = s.evq := id
    exact ⟨_, exec_feedOrOnDelayEnd_of_held hideal hlow hma hheld, congrArg Feed.go hfeed, congrArg Feed.rev hfeed, congrArg Feed.test hfeed,
      hstate, fun hrev => hevq (congrArg State.evq (State.revRecord_of_not_rev hrev))⟩
  case orOnKept =>
    intro s f ma held hnot
    refine ⟨s, congrArg Host.Outcome.next (if_neg ?_), rfl⟩
    rintro ⟨-, -, hma, hheld⟩
    exact hnot.elim (fun h => absurd hma (not_lt.2 h)) (Nat.not_lt.2 hheld)
  case test =>
    intro s f htest hpast
    have hfeed := s.modFeed_feed f fun y => { y.drive s.clk.tick false y.gm y.gp with test := false }
    have hrev := congrArg Feed.rev hfeed
    have hstate := congrArg Feed.state hfeed
    exact ⟨_, exec_feedTestEnd_of_past htest hpast, congrArg Feed.go hfeed, congrArg Feed.test hfeed, hrev, hstate⟩

end Sys2Proof.Machine

/-! PROOFS. The ideal diode opens, and the feed-loss line follows the feeds (R169 to R171). -/

namespace Sys2Proof.Machine

theorem State.anyAvail_of_none {s : State} (h : ∀ g : Fin 2, s.bank.feed[g].avail = false) : s.anyAvail = false :=
  List.any_eq_false.2 fun g _ => Bool.eq_false_iff.1 (h g)

theorem State.anyAvail_of_avail {s : State} {f : Fin 2} (h : s.bank.feed[f].avail = true) : s.anyAvail = true :=
  List.any_eq_true.2 ⟨f, List.mem_finRange f, h⟩

/-- The Bank die as it asserts the feed-loss line, to the stems and to the phase dies (R171). -/
def Bank.asserted (b : Bank) (tick : Nat) : Bank :=
  { b with line := true, lossAt := tick, lineQ := b.lineQ ++ [true], latch := Vector.replicate 4 true }

theorem State.lineScan_of_lost {s : State} (harmed : s.bank.armed = true) (hnone : s.anyAvail = false) (hline : s.bank.line = false)
    (f : Fin 2) (cause : Nat) :
    s.lineScan f cause = ((s.modBank (·.asserted s.clk.tick)).log 0x060C f.val (lohi (f.val + cause * 256 : Nat) s.bank.vbus)).bankSend false := by
  have hlost : (s.bank.armed && !s.anyAvail && !s.bank.line) = true := by rw [harmed, hnone, hline]; rfl
  have harm : ¬(s.anyAvail && s.bank.configured && !s.bank.armed) = true := by rw [hnone]; nofun
  unfold State.lineScan
  extract_lets av s1
  have h1 : s1 = s := if_neg harm
  clear_value s1
  subst h1
  exact congrArg (State.bankSend · false) (if_pos hlost)

theorem State.lineScan_of_back {s : State} (harmed : s.bank.armed = true) (havail : s.anyAvail = true) (hline : s.bank.line = true)
    (f : Fin 2) (cause : Nat) :
    s.lineScan f cause = ((s.modBank fun b => { b with line := false, lineQ := b.lineQ ++ [false] }).log 0x060D f.val
      ((f.val + (s.clk.tick - s.bank.lossAt) / 250 * 256 : Nat) : Int)).bankSend false := by
  have hlost : ¬(s.bank.armed && !s.anyAvail && !s.bank.line) = true := by rw [havail, Bool.not_true, Bool.and_false]; nofun
  have hback : (s.bank.armed && s.anyAvail && s.bank.line) = true := by rw [harmed, havail, hline]; rfl
  have harm : ¬(s.anyAvail && s.bank.configured && !s.bank.armed) = true := by rw [harmed, Bool.not_true, Bool.and_false]; nofun
  unfold State.lineScan
  extract_lets av s1
  have h1 : s1 = s := if_neg harm
  clear_value s1
  subst h1
  exact congrArg (State.bankSend · false) ((if_neg hlost).trans (if_pos hback))

/-- A feed whose OR gate opens for a reverse current (R169). -/
def Feed.reversed (x : Feed) (tick : Nat) (i : Int) : Feed :=
  { x with
    go := false, goAt := if x.go then tick else x.goAt, test := false, rev := true, revAt := if x.rev then x.revAt else tick
    revMin := if x.rev then min x.revMin i else i }

theorem exec_feedReverseTrip_of_level {s : State} {f : Fin 2} {i v : Int} (hon : s.bank.on = true) (hideal : s.bank.feed[f].ideal = true)
    (htrip : i < -s.bpar P.FEED_REV_TRIP f) (hlevel : s.bpar P.FEED_LOSS_LEVEL f ≤ v) :
    exec (.feedReverseTrip f i v) s = .next ((s.modFeed f fun y => y.reversed s.clk.tick i).bankSend false) :=
  congrArg Host.Outcome.next ((if_pos ⟨hon, hideal, htrip⟩).trans (if_neg (not_lt.2 hlevel)))

theorem exec_feedLossCompLow_of_held {s : State} {f : Fin 2} {mv : Int} {held : Nat} (hon : s.bank.on = true)
    (hlow : mv < s.bpar P.FEED_LOSS_LEVEL f) (hheld : s.bparN P.FEED_LOSS_FILT f ≤ held) :
    exec (.feedLossCompLow ⟨f, mv, held⟩) s = .next ((s.modFeed f fun y => { y with lossLow := true }).lineScan f 0) :=
  congrArg Host.Outcome.next (if_pos ⟨hon, hlow, hheld⟩)

theorem exec_feedLossCompHigh_of_held {s : State} {f : Fin 2} {mv : Int} {held : Nat} (hon : s.bank.on = true)
    (hhigh : s.bpar P.FEED_LOSS_LEVEL f + s.bpar P.FEED_LOSS_HYST f ≤ mv) (hheld : s.bparN P.FEED_LOSS_RET f * 1000 ≤ held) :
    exec (.feedLossCompHigh ⟨f, mv, held⟩) s = .next ((s.modFeed f fun y => { y with lossLow := false }).lineScan f 0) :=
  congrArg Host.Outcome.next (if_pos ⟨hon, hhigh, hheld⟩)

theorem exec_feedLossComp_of_off {s : State} (hoff : s.bank.on = false) (c : FeedSensed) :
    exec (.feedLossCompLow c) s = .next s ∧ exec (.feedLossCompHigh c) s = .next s :=
  ⟨congrArg Host.Outcome.next (if_neg fun h => Bool.noConfusion (hoff.symm.trans h.1)),
    congrArg Host.Outcome.next (if_neg fun h => Bool.noConfusion (hoff.symm.trans h.1))⟩

/-- The comparator of a feed low: the feed is not available, whatever its state. -/
theorem anyAvail_of_lossLow {s : State} {f : Fin 2} (hother : ∀ g : Fin 2, g ≠ f → s.bank.feed[g].avail = false) :
    (s.modFeed f fun y => { y with lossLow := true }).anyAvail = false := by
  refine State.anyAvail_of_none fun g => ?_
  by_cases hg : g = f
  · subst hg
    rw [s.modFeed_feed g]
    exact Bool.and_false _
  · rw [s.modFeed_other _ hg]
    exact hother g hg

/-- The comparator of a CONNECTED feed high: the feed is available. -/
theorem avail_of_connected {s : State} {f : Fin 2} (hst : s.bank.feed[f].state = .connected) :
    (s.modFeed f fun y => { y with lossLow := false }).bank.feed[f].avail = true := by
  rw [s.modFeed_feed f]
  exact congrArg (fun st : FeedState => st == .connected && !false) hst

/-- Settles O23: a comparator that goes low takes the last available feed from an armed line, one that goes high gives a CONNECTED feed back to
an asserted line; the line scan finds the one, and then the other. -/
theorem feedLossLine : Obligations.FeedLossLine := by
  unfold Obligations.FeedLossLine
  refine ⟨?reverse, ?low, ?high, ?off⟩
  case reverse =>
    intro s f i v hon hideal htrip hlevel
    have hfeed := s.modFeed_feed f fun y => y.reversed s.clk.tick i
    have hlow := congrArg Feed.lossLow hfeed
    have hstate := congrArg Feed.state hfeed
    exact ⟨_, exec_feedReverseTrip_of_level hon hideal htrip hlevel, congrArg Feed.go hfeed, congrArg Feed.rev hfeed, hlow, rfl, hstate⟩
  case low =>
    intro s f mv held hon hmv hheld harmed hline hother
    have hscan := State.lineScan_of_lost (s := s.modFeed f fun y => { y with lossLow := true }) harmed (anyAvail_of_lossLow hother) hline f 0
    have hfeed := s.modFeed_feed f fun y => { y with lossLow := true }
    refine ⟨_, (exec_feedLossCompLow_of_held hon hmv hheld).trans (congrArg Host.Outcome.next hscan), congrArg Feed.lossLow hfeed, rfl, rfl, rfl,
      fun d => ?_, take_of_record_prefix List.prefix_rfl⟩
    exact Vector.getElem_replicate d.isLt
  case high =>
    intro s f mv held hon hmv hheld harmed hline hst
    have havail := avail_of_connected hst
    have hscan := State.lineScan_of_back (s := s.modFeed f fun y => { y with lossLow := false }) harmed (State.anyAvail_of_avail havail) hline f 0
    have hfeed := s.modFeed_feed f fun y => { y with lossLow := false }
    exact ⟨_, (exec_feedLossCompHigh_of_held hon hmv hheld).trans (congrArg Host.Outcome.next hscan), congrArg Feed.lossLow hfeed, havail, rfl,
      take_of_record_prefix List.prefix_rfl⟩
  case off =>
    intro s f mv held hoff
    obtain ⟨hlow, hhigh⟩ := exec_feedLossComp_of_off hoff ⟨f, mv, held⟩
    exact ⟨s, hlow, rfl, hhigh⟩

end Sys2Proof.Machine

/-! PROOFS. The barrier channel (R154, R157, R158, R174 to R176). -/

namespace Sys2Proof.Machine

/-! The parameter set. -/

theorem exec_bankParamFrame_of_sent {s : State} {q : Nat × Nat} {qs : List (Nat × Nat)} (h : s.bank.sending = q :: qs) (ok : Bool) :
    exec (.bankParamFrame ok) s = .next (if ok then s.modBank fun b => { b with sending := qs, got := b.got ++ [q] }
      else s.modBank fun b => { b with sending := qs, chErr := true, errs := b.errs + 1, bad := true }) := by
  show execBankParamFrame ok s = _
  rw [execBankParamFrame, h]

/-- The Bank die with a whole set received, as the step that applies it will find it (R175). -/
def Bank.committed (b : Bank) : Bank :=
  { b with next := some (bankSetOf b.got), configured := true, commitDue := false, got := [] }

theorem exec_bankParamCommit_of_whole {s : State} (hdue : s.bank.commitDue = true) (hon : s.bank.on = true) (hsent : s.bank.sending = [])
    (hbad : s.bank.bad = false) :
    exec .bankParamCommit s = .next (if s.bank.configured then s.modBank Bank.committed
      else ((s.modBank Bank.committed).bankSend false).autoEnable) := by
  refine (if_neg ?_).trans (if_pos ⟨hsent, hbad⟩)
  rintro (h | h)
  · exact Bool.noConfusion (hdue.symm.trans h)
  · exact Bool.noConfusion (hon.symm.trans h)

theorem exec_bankParamCommit_of_bad {s : State} (hdue : s.bank.commitDue = true) (hon : s.bank.on = true) (hbad : s.bank.bad = true) :
    exec .bankParamCommit s = .next s.bankRefuse := by
  refine (if_neg ?_).trans (if_neg fun h => Bool.noConfusion (hbad.symm.trans h.2))
  rintro (h | h)
  · exact Bool.noConfusion (hdue.symm.trans h)
  · exact Bool.noConfusion (hon.symm.trans h)

/-- The enables that FEED_AUTO_EN sends only queue commands for the Bank die (R176). -/
theorem State.autoEnable_bank (s : State) : ∃ cmds, s.autoEnable.bank = { s.bank with cmds := cmds } := by
  unfold State.autoEnable
  refine List.foldlRecOn (motive := fun t : State => ∃ cmds, t.bank = { s.bank with cmds := cmds }) _ _ ⟨s.bank.cmds, rfl⟩ ?_
  rintro t ⟨cmds, hbank⟩ f -
  cases hon : t.bank.on with
  | true =>
    refine ⟨t.bank.cmds ++ [.enable f], (State.bankCmd_of_on hon _).1.trans ?_⟩
    exact congrArg (fun b : Bank => { b with cmds := t.bank.cmds ++ [FeedCmd.enable f] }) hbank
  | false =>
    exact ⟨cmds, (congrArg State.bank (if_neg (Bool.eq_false_iff.1 hon) : t.bankCmd (.enable f) = t)).trans hbank⟩

/-! The heartbeat. -/

/-- The Bank die as a heartbeat leaves it (R158). -/
def State.beaten (s : State) : State :=
  s.modBank fun b => { b with hbOk := true, hbAt := s.clk.tick, oscLocked := true, srcValid := s.bankSource }

theorem exec_bankHeartbeat_of_valid {s : State} (hon : s.bank.on = true) (hiso : s.dev.isoOn = true) (hvalid : s.bank.srcValid = true) :
    exec .bankHeartbeat s = .next (if s.beaten.bank.status = s.bank.status then s.beaten else s.beaten.bankSend false) :=
  congrArg Host.Outcome.next ((if_pos ⟨hon, hiso⟩).trans (if_neg fun h => Bool.noConfusion (hvalid.symm.trans h.2)))

theorem upd_eq_of_at {α : Type} {n : Nat} {v : Vector α n} {i : Fin n} {f g : α → α} (h : f v[i] = g v[i]) : upd v i f = upd v i g :=
  congrArg (fun x => v.set i.val x i.isLt) h

/-- A feed as the loss of the heartbeat leaves it (R158). -/
def Feed.offNow (x : Feed) (tick : Nat) : Feed :=
  if x.state = .off then x else x.opened tick .off

theorem Feed.offNow_ends (x : Feed) (tick : Nat) :
    (x.offNow tick).state = .off ∧
      (x.state ≠ .off → (x.offNow tick).go = false ∧ (x.offNow tick).gm = false ∧ (x.offNow tick).gp = false) := by
  unfold Feed.offNow
  split
  next hoff => exact ⟨hoff, fun h => absurd hoff h⟩
  next => exact ⟨rfl, fun _ => ⟨rfl, rfl, rfl⟩⟩

theorem State.lineScan_clk (s : State) (f : Fin 2) (cause : Nat) : (s.lineScan f cause).clk = s.clk :=
  (State.lineScan_keeps (wm := maskOf [.evq, .bank]) f cause (Keeps.refl _ s) (.ofParts (by decide))).frame .clk (by decide)

/-- One feed of those that the loss of the heartbeat takes to OFF. -/
theorem State.feedOff_feed (s : State) (f : Fin 2) (cause : Nat) :
    (if s.bank.feed[f].state = .off then s else (s.feedOpen f .off).lineScan f cause).bank.feed =
        upd s.bank.feed f (fun x => x.offNow s.clk.tick) ∧
      (if s.bank.feed[f].state = .off then s else (s.feedOpen f .off).lineScan f cause).clk = s.clk := by
  split
  next hoff => exact ⟨(upd_id (f := fun x : Feed => x.offNow s.clk.tick) (if_pos hoff)).symm, rfl⟩
  next hon =>
    refine ⟨?_, (State.lineScan_clk _ f cause).trans (s.feedOpen_clk f .off)⟩
    rw [(State.lineScan_bank _ f cause).1, State.feedOpen_feed]
    exact upd_eq_of_at (if_neg hon).symm

theorem State.bankAllOff_feed (s : State) (cause : Nat) (f : Fin 2) : (s.bankAllOff cause).bank.feed[f] = s.bank.feed[f].offNow s.clk.tick := by
  obtain ⟨u, hu, hfold⟩ := foldl_reads (f := fun t (g : Fin 2) => if t.bank.feed[g].state = .off then t else (t.feedOpen g .off).lineScan g cause)
    (sel := fun t g => (t.bank.feed[g], t.clk.tick)) (fun t i j hij => Prod.ext ((congrArg (·[i]) (t.feedOff_feed j cause).1).trans (upd_ne _ _ hij))
      (congrArg Clock.tick (t.feedOff_feed j cause).2)) (List.nodup_finRange 2) (List.mem_finRange f) s
  obtain ⟨hx, htick⟩ := Prod.mk.inj hu
  refine (congrArg Prod.fst hfold).trans ?_
  refine (congrArg (·[f]) (u.feedOff_feed f cause).1).trans ((upd_at _ f _).trans ?_)
  exact congrArg₂ Feed.offNow hx htick

theorem exec_bankHbTimeout_of_due {s : State} (hon : s.bank.on = true) (hok : s.bank.hbOk = true) (hdue : s.hbDue = true) :
    exec .bankHbTimeout s = .next (((s.bankAllOff 6).modBank fun b => { b with
      hbOk := false, srcValid := false, oscLocked := false, configured := false, next := none, hbLostAt := some s.clk.tick
      sending := [], got := [], bad := false, commitDue := false }).bankSend false) :=
  congrArg Host.Outcome.next (if_pos ⟨hon, hok, hdue⟩)

theorem exec_bankHbReturn_of_lost {s : State} {at_ : Nat} (hlost : s.bank.hbLostAt = some at_) (hiso : s.dev.isoOn = true) :
    exec .bankHbReturn s = .next (((s.modBank fun b => { b with hbLostAt := none, hbOk := true, hbAt := s.clk.tick, oscLocked := true }).log
      0x060E 0 ((s.clk.tick - at_) / 250 : Nat)).bankResend.bankSend false) := by
  show execBankHbReturn s = _
  rw [execBankHbReturn, hlost]
  exact if_neg fun h => Bool.noConfusion (hiso.symm.trans h)

/-! Telemetry. -/

/-- What a frame of telemetry changes of the Bank die, what it leaves, and the stamps given. -/
def State.report (t : State) : List BankTlm × BankTlm × Vector Feed 2 × Nat := (t.bank.tlm, t.bank.seen, t.bank.feed, t.ord)

/-- The mask of every part but the Bank die's and the stamps'. -/
def besideReport : Nat := 0xFFFFEFFEF

theorem Within.besideReport {m : Nat} (h : m &&& besideReport = m) : Within m besideReport := Within.mono h fun _ => id

theorem State.report_past {s t : State} (hk : Keeps besideReport s s → Keeps besideReport s t) : t.report = s.report := by
  have hkept := hk (Keeps.refl _ s)
  have hbank : t.bank = s.bank := hkept.frame .bank (by decide)
  have hord : t.ord = s.ord := hkept.frame .ord (by decide)
  rw [State.report, hbank, hord]
  rfl

theorem State.report_lineReleased (s : State) : s.lineReleased.report = s.report := by
  unfold State.lineReleased
  extract_lets hold bank s1
  have h1 : s1.report = s.report := rfl
  split
  · exact (State.report_past fun k => State.holdTo_keeps _ (State.log_keeps _ _ _ (State.modHold_keeps _ k (.besideReport rfl))
      (.besideReport rfl)) (.besideReport rfl)).trans h1
  · exact h1

/-- An answer that leaves the report `r`. -/
def AnswersReport (a : Res) (r : List BankTlm × BankTlm × Vector Feed 2 × Nat) : Prop := ∃ t, a = .next t ∧ t.report = r

/-- A frame that reaches the stems is stamped and becomes what the stems have seen (R174). -/
theorem exec_bankTelemetry_of_frame {s : State} {q : BankTlm} {qs : List BankTlm} (htlm : s.bank.tlm = q :: qs) (hactive : s.hasActive = true) :
    AnswersReport (exec .bankTelemetry s) (qs, q, s.bank.feed, s.ord + 1) := by
  show AnswersReport (execBankTelemetry s) _
  unfold execBankTelemetry
  split
  next hnil => exact absurd (hnil.symm.trans htlm) (List.cons_ne_nil q qs).symm
  next q' qs' hcons =>
  obtain ⟨rfl, rfl⟩ := List.cons.inj (htlm.symm.trans hcons)
  extract_lets s1 acc s0 s2 s3 keep
  have h0 : s0.report = (qs, s.bank.seen, s.bank.feed, s.ord + 1) :=
    State.report_past (s := s1.stamp) fun k => .foldl _ k fun _ _ k => State.spateReq_keeps _ _ k (.besideReport rfl)
  have hpush : (s0.srcPush 0 (s1.bankPoints q acc)).report = s0.report := State.report_past (State.srcPush_keeps _ _ · (.besideReport rfl))
  have h2 : s2.report = (qs, q, s.bank.feed, s.ord + 1) :=
    congrArg (fun r : List BankTlm × BankTlm × Vector Feed 2 × Nat => (r.1, q, r.2.2.1, r.2.2.2)) (hpush.trans h0)
  clear_value s2
  have h3 : s3.report = s2.report := by
    refine (State.report_past (State.faultScan_keeps · (.besideReport rfl))).trans ?_
    split
    · exact s2.report_lineReleased
    · rfl
  clear_value s3
  refine ⟨_, if_neg (fun h => Bool.noConfusion (h.symm.trans hactive)), ?_⟩
  split
  · exact (State.report_past (State.modHold_keeps _ · (.besideReport rfl))).trans (h3.trans h2)
  · exact h3.trans h2

/-! The energy copy. -/

theorem exec_energyCopy_of_on {s : State} (hon : s.bank.on = true) :
    exec .energyCopy s = .next (s.modBank fun b => { b with
      copy := some ⟨s.clk.shelf, tab 2 (fun f => b.seen.feed[f].eImp), tab 2 (fun f => b.seen.feed[f].eExp)⟩ }).ledgerNeed :=
  congrArg Host.Outcome.next (if_pos hon)

/-- Settles O25: each command of the channel has its equation; the enables behind the first commit only queue commands, the loss of the heartbeat
opens each feed that is not OFF, and what follows a frame of telemetry leaves the frame shown. -/
theorem barrierChannel : Obligations.BarrierChannel := by
  unfold Obligations.BarrierChannel
  refine ⟨?frame, ?frameBad, ?commitFirst, ?commit, ?refuse, ?beat, ?timeout, ?returned, ?telemetry, ?copy⟩
  case frame => exact fun s q qs h => ⟨_, exec_bankParamFrame_of_sent h true, rfl⟩
  case frameBad => exact fun s q qs h => ⟨_, exec_bankParamFrame_of_sent h false, rfl⟩
  case commitFirst =>
    intro s hdue hon hsent hbad hconf
    obtain ⟨cmds, hbank⟩ := ((s.modBank Bank.committed).bankSend false).autoEnable_bank
    have hset := congrArg Bank.set hbank
    have hfeed := congrArg Bank.feed hbank
    exact ⟨_, (exec_bankParamCommit_of_whole hdue hon hsent hbad).trans (congrArg Host.Outcome.next (if_neg (Bool.eq_false_iff.1 hconf))),
      congrArg Bank.next hbank, hset, congrArg Bank.configured hbank, congrArg Bank.commitDue hbank, hfeed⟩
  case commit =>
    intro s hdue hon hsent hbad hconf
    refine ⟨_, (exec_bankParamCommit_of_whole hdue hon hsent hbad).trans (congrArg Host.Outcome.next (if_pos hconf)), ?_⟩
    exact congrArg (fun c => { s.bank with next := some (bankSetOf s.bank.got), configured := c, commitDue := false, got := [] }) hconf.symm
  case refuse =>
    intro s hdue hon hbad
    exact ⟨_, exec_bankParamCommit_of_bad hdue hon hbad, rfl, rfl, rfl, rfl, rfl, rfl, rfl⟩
  case beat =>
    intro s hon hiso hvalid
    refine ⟨_, exec_bankHeartbeat_of_valid hon hiso hvalid, ?_⟩
    split
    · exact ⟨rfl, rfl, rfl, rfl, rfl, rfl⟩
    · exact ⟨rfl, rfl, rfl, rfl, rfl, rfl⟩
  case timeout =>
    intro s hon hok hdue
    refine ⟨_, exec_bankHbTimeout_of_due hon hok hdue, rfl, rfl, rfl, rfl, fun f => ?_⟩
    have hfeed := s.bankAllOff_feed 6 f
    obtain ⟨hoff, hlow⟩ := s.bank.feed[f].offNow_ends s.clk.tick
    refine ⟨(congrArg Feed.state hfeed).trans hoff, fun hwas => ?_⟩
    obtain ⟨hgo, hgm, hgp⟩ := hlow hwas
    exact ⟨(congrArg Feed.go hfeed).trans hgo, (congrArg Feed.gm hfeed).trans hgm, (congrArg Feed.gp hfeed).trans hgp⟩
  case returned =>
    intro s at_ hlost hiso
    exact ⟨_, exec_bankHbReturn_of_lost hlost hiso, rfl, rfl, rfl, rfl, rfl, rfl⟩
  case telemetry =>
    intro s q qs htlm hactive
    obtain ⟨t, ht, hreport⟩ := exec_bankTelemetry_of_frame htlm hactive
    obtain ⟨htlm, hreport⟩ := Prod.mk.inj hreport
    obtain ⟨hseen, hreport⟩ := Prod.mk.inj hreport
    obtain ⟨hfeed, hord⟩ := Prod.mk.inj hreport
    exact ⟨t, ht, htlm, hord, hseen, hfeed⟩
  case copy => exact fun s hon => ⟨_, exec_energyCopy_of_on hon, rfl, rfl⟩

end Sys2Proof.Machine

/-! PROOFS. BK_HV starts and goes off (R152, R157, R170, R171, R174). -/

namespace Sys2Proof.Machine

/-- A feed as BK_HV starts it or leaves it: reset, but for its energy and its count of trips (R152, R174). -/
def Feed.resting (imp exp trips : Nat) : Feed := { Feed.reset with eImp := imp, eExp := exp, trips := trips }

/-- The Bank die as BK_HV starts it with the energy of a copy (R152, R174). -/
def Bank.begun (b : Bank) (c : EnergyCopy) : Bank :=
  { b with
    on := true, energyGap := true, set := [], next := none, configured := false, armed := false, line := false, tripped := []
    seen := { BankTlm.reset with feed := tab 2 (fun f => { BankTlm.reset.feed[f] with eImp := c.imp[f], eExp := c.exp[f] }) }
    feed := tab 2 (fun f => Feed.resting c.imp[f] c.exp[f] b.feed[f].trips) }

/-- The Bank die as BK_HV leaves it (R152, R170, R171). -/
def Bank.ended (b : Bank) : Bank :=
  { b with
    on := false, configured := false, hbOk := false, srcValid := false, oscLocked := false, armed := false, line := false
    disarmed := b.disarmed || b.line, next := none, sending := [], got := [], bad := false, commitDue := false, cmds := []
    hbLostAt := none, tlm := [], tripped := [], seen := BankTlm.reset, seenLine := false
    feed := tab 2 (fun f => Feed.resting b.feed[f].eImp b.feed[f].eExp b.feed[f].trips) }

theorem State.bankOn_of_copy {s : State} {c : EnergyCopy} (hoff : s.bank.on = false) (hcopy : s.bank.copy = some c) :
    s.bankOn = ((((s.modBank (·.begun c)).log 0x0610 0 (c.time : Nat)).log 0x0610 1 (c.time : Nat)).bankSendSet).bankSend false := by
  unfold State.bankOn
  rw [if_neg (Bool.eq_false_iff.1 hoff), hcopy]
  rfl

theorem exec_bankPowerOn_of_iso {s : State} (hiso : s.dev.isoOn = true) :
    exec .bankPowerOn s = .next { s with power := { s.power with vauxhUv := false } }.bankOn :=
  congrArg Host.Outcome.next (if_pos hiso)

theorem State.foldl_revRecord_bank (s : State) (fs : List (Fin 2)) : (fs.foldl State.revRecord s).bank = s.bank :=
  List.foldlRecOn (motive := fun t : State => t.bank = s.bank) fs State.revRecord rfl fun t ht f _ => (t.revRecord_bank f).trans ht

theorem State.bankOff_bank {s : State} (hon : s.bank.on = true) : s.bankOff.bank = s.bank.ended := by
  unfold State.bankOff
  rw [if_pos hon]
  extract_lets s0 s1
  have h0 : s0.bank = s.bank := s.foldl_revRecord_bank _
  have h1 : s1.bank = s.bank := by
    unfold s1
    split
    · exact h0
    · exact h0
  clear_value s1
  refine ((State.faultScan_keeps (wm := maskOf [.evq, .fault]) (Keeps.refl _ (s1.modBank Bank.ended)) (.ofParts (by decide))).frame
    .bank (by decide)).trans ?_
  exact congrArg Bank.ended h1

/-- What goes off is the Bank die: the supplies stay as the command set them. -/
theorem State.bankOff_power (s : State) : s.bankOff.power = s.power :=
  (State.bankOff_keeps (wm := maskOf [.evq, .fault, .bank]) (Keeps.refl _ s) (.ofParts (by decide))).frame .power (by decide)

/-- Settles O26: the die starts with its feeds at rest and the energy of the copy, and goes off with them at rest and their own energy. -/
theorem bankPower : Obligations.BankPower := by
  unfold Obligations.BankPower
  refine ⟨?on, ?off⟩
  case on =>
    intro s c hoff hiso hcopy
    have hstart := State.bankOn_of_copy (s := { s with power := { s.power with vauxhUv := false } }) hoff hcopy
    refine ⟨_, (exec_bankPowerOn_of_iso hiso).trans (congrArg Host.Outcome.next hstart), rfl, rfl, rfl, rfl, rfl, rfl, rfl, fun f => ?_⟩
    have hfeed := tab_at (fun g : Fin 2 => Feed.resting c.imp[g] c.exp[g] s.bank.feed[g].trips) f
    exact ⟨congrArg Feed.state hfeed, congrArg Feed.lossLow hfeed, congrArg Feed.eImp hfeed, congrArg Feed.eExp hfeed,
      congrArg Feed.gm hfeed, congrArg Feed.go hfeed, congrArg Feed.gp hfeed⟩
  case off =>
    intro s hon
    have hbank := State.bankOff_bank (s := { s with power := { s.power with vauxhUv := true } }) hon
    refine ⟨_, rfl, congrArg Bank.on hbank, congrArg Bank.configured hbank, congrArg Bank.armed hbank, congrArg Bank.line hbank,
      congrArg Power.vauxhUv (State.bankOff_power _), fun f => ?_⟩
    have hfeed := (congrArg (fun b : Bank => b.feed[f]) hbank).trans
      (tab_at (fun g : Fin 2 => Feed.resting s.bank.feed[g].eImp s.bank.feed[g].eExp s.bank.feed[g].trips) f)
    have himp := congrArg Feed.eImp hfeed
    have hexp := congrArg Feed.eExp hfeed
    exact ⟨congrArg Feed.state hfeed, himp, hexp, congrArg Feed.gm hfeed, congrArg Feed.go hfeed, congrArg Feed.gp hfeed⟩

end Sys2Proof.Machine

/-! PROOFS. The metering step (R155, R157 to R159, R162, R175). -/

namespace Sys2Proof.Machine

/-- What a metering step makes of the parameter set, of the bus and of a feed; the events behind it leave these. -/
structure Metering where
  next : Option (SMap Int)
  set : SMap Int
  vbus : Int
  v : Int
  i : Int
  p : Int
  vOr : Int
  vMain : Int
  eImp : Nat
  eImpRem : Nat

def Metering.of (b : Bank) (x : Feed) : Metering := ⟨b.next, b.set, b.vbus, x.v, x.i, x.p, x.vOr, x.vMain, x.eImp, x.eImpRem⟩

def State.metered (s : State) (f : Fin 2) : Metering := .of s.bank s.bank.feed[f]

/-- The values of `m` are those of the state. -/
def State.MeteredAs (m : Fin 2 → Metering) (s : State) : Prop := s.metered = m

namespace State.MeteredAs

variable {m : Fin 2 → Metering} {s : State}

theorem ite {c : Prop} [Decidable c] {t : State} (hs : s.MeteredAs m) (ht : t.MeteredAs m) : (if c then s else t).MeteredAs m := by
  split
  · exact hs
  · exact ht

theorem modFeed {f : Fin 2} {g : Feed → Feed} (h : s.MeteredAs m)
    (hg : Metering.of s.bank (g s.bank.feed[f]) = Metering.of s.bank s.bank.feed[f]) : (s.modFeed f g).MeteredAs m := by
  refine .trans (funext fun j => ?_) h
  by_cases hj : j = f
  · subst hj
    exact (congrArg (Metering.of s.bank) (s.modFeed_feed j g)).trans hg
  · exact congrArg (Metering.of s.bank) (s.modFeed_other g hj)

theorem log (h : s.MeteredAs m) (code src : Nat) (data : Int) : (s.log code src data).MeteredAs m := h

theorem bankSend (h : s.MeteredAs m) (step : Bool) : (s.bankSend step).MeteredAs m := h

theorem lineScan (h : s.MeteredAs m) (f : Fin 2) (cause : Nat) : (s.lineScan f cause).MeteredAs m := by
  unfold State.lineScan
  extract_lets av s1 s2
  have h1 : s1.MeteredAs m := .ite h h
  have h2 : s2.MeteredAs m := .ite (log (s := s1.modBank _) h1 _ _ _) (.ite (log (s := s1.modBank _) h1 _ _ _) h1)
  exact h2.bankSend false

theorem revRecord (h : s.MeteredAs m) (f : Fin 2) : (s.revRecord f).MeteredAs m := .ite (h.log _ _ _) h

theorem feedOpen (h : s.MeteredAs m) (f : Fin 2) (st : FeedState) : (s.feedOpen f st).MeteredAs m := (h.revRecord f).modFeed rfl

theorem feedTrip (h : s.MeteredAs m) (f : Fin 2) : (s.feedTrip f).MeteredAs m := (h.revRecord f).modFeed rfl

theorem feedConnect (h : s.MeteredAs m) (f : Fin 2) (how : Nat) : (s.feedConnect f how).MeteredAs m := by
  unfold State.feedConnect
  extract_lets x ms s1
  have h1 : s1.MeteredAs m := h.modFeed rfl
  exact (h1.log _ _ _).lineScan f 0

theorem feedLeaveInsert (h : s.MeteredAs m) (f : Fin 2) : (s.feedLeaveInsert f).MeteredAs m := by
  unfold State.feedLeaveInsert
  extract_lets x other dvdt
  exact .ite (feedConnect (s := s.modFeed f _) (h.modFeed rfl) f 0) (.ite h (bankSend (s := s.modFeed f _) (h.modFeed rfl) false))

theorem feedRetry (h : s.MeteredAs m) (f : Fin 2) : (s.feedRetry f).MeteredAs m := by
  unfold State.feedRetry
  extract_lets x n
  have hretry : ((s.feedOpen f .qualify).modFeed f (fun y => { y with retries := n })).MeteredAs m := (h.feedOpen f .qualify).modFeed rfl
  exact .ite ((hretry.log _ _ _).lineScan f 2) (((h.feedOpen f .lockout).log _ _ _).lineScan f 2)

theorem tripped {f : Fin 2} {g : Feed → Feed} (h : s.MeteredAs m)
    (hg : Metering.of s.bank (g s.bank.feed[f]) = Metering.of s.bank s.bank.feed[f]) (code : Nat) (data : Int) :
    (((((s.modFeed f g).log code f.val data).feedTrip f).feedTripped f).lineScan f 2).MeteredAs m := by
  have hlog : ((s.modFeed f g).log code f.val data).MeteredAs m := h.modFeed hg
  have htripped : ((((s.modFeed f g).log code f.val data).feedTrip f).feedTripped f).MeteredAs m := hlog.feedTrip f
  exact htripped.lineScan f 2

theorem feedEvents (h : s.MeteredAs m) (f : Fin 2) : (s.feedEvents f).MeteredAs m := by
  unfold State.feedEvents
  extract_lets x limit cause
  have hwindow : (((s.feedOpen f .qualify).log 0x0602 f.val (lohi cause x.v)).lineScan f 3).MeteredAs m :=
    ((h.feedOpen f .qualify).log _ _ _).lineScan f 3
  refine .ite h ?_
  split
  · exact h
  · exact .ite (bankSend (s := s.modFeed f _) (h.modFeed rfl) false) h
  · exact .ite (bankSend (log (s := s.modFeed f _) (h.modFeed rfl) _ _ _) false) (.ite (h.feedLeaveInsert f) h)
  · exact .ite (h.tripped rfl _ _) (.ite h (.ite hwindow (.ite (h.feedConnect f _) h)))
  · exact .ite (h.tripped rfl _ _) (.ite hwindow h)
  · exact .ite (h.feedRetry f) h
  · exact h

end State.MeteredAs

/-- What a metering step measures of a feed under the set in force (R155 to R158), and what it adds to its import accumulator (R175). -/
def State.measured (s : State) (raw : Vector Int 7) (f : Fin 2) : Metering :=
  let vn := s.chanMv raw ⟨3 + f.val, by omega⟩
  let v := s.chanMv raw 2 - vn
  let i := nearHalfAway (s.chan raw ⟨f.val, by omega⟩) (1000 * s.bpar P.FEED_RSHUNT f)
  let vm := s.chanMv raw ⟨5 + f.val, by omega⟩
  let imp := s.bank.feed[f].eImpRem + (v * i * 32).toNat
  ⟨s.bank.next, s.bank.set, s.bank.vbus, v, i, nearHalfAway (v * i) 1000000, vm, vm - vn,
    (s.bank.feed[f].eImp + imp / 1000000000) % 2 ^ 64, imp % 1000000000⟩

theorem State.feedMeasure_metered (s : State) (raw : Vector Int 7) (f : Fin 2) : (s.feedMeasure raw f).metered f = s.measured raw f := by
  unfold State.feedMeasure
  extract_lets ci cn vn vp v dv i e n vm excess lim low t
  exact congrArg (Metering.of s.bank) (t.modFeed_feed f _)

theorem State.feedMeasure_other (s : State) (raw : Vector Int 7) {f g : Fin 2} (h : g ≠ f) :
    (s.feedMeasure raw f).metered g = s.metered g := by
  unfold State.feedMeasure
  extract_lets ci cn vn vp v dv i e n vm excess lim low t
  exact congrArg (Metering.of s.bank) (t.modFeed_other _ h)

/-- The two feeds are measured one after the other, and each measurement is that of the state before the first. -/
theorem State.foldl_feedMeasure_metered (s : State) (raw : Vector Int 7) (f : Fin 2) :
    ∃ u : State, u.metered f = s.metered f ∧ ((fins 2).foldl (fun t g => t.feedMeasure raw g) s).metered f = u.measured raw f := by
  obtain ⟨u, hu, hfold⟩ := foldl_reads (f := fun t (g : Fin 2) => t.feedMeasure raw g) (sel := State.metered)
    (fun t i j hij => t.feedMeasure_other raw hij) (List.nodup_finRange 2) (List.mem_finRange f) s
  exact ⟨u, hu, hfold.trans (u.feedMeasure_metered raw f)⟩

theorem State.chan_of_set {s t : State} (h : t.bank.set = s.bank.set) (raw : Vector Int 7) (c : Fin 7) : t.chan raw c = s.chan raw c := by
  unfold State.chan State.bpar
  rw [h]

theorem State.chanMv_of_set {s t : State} (h : t.bank.set = s.bank.set) (raw : Vector Int 7) (c : Fin 7) : t.chanMv raw c = s.chanMv raw c := by
  unfold State.chanMv State.bpar
  rw [State.chan_of_set h, h]

theorem State.bpar_of_set {s t : State} (h : t.bank.set = s.bank.set) (p : Prm) (i : Nat) : t.bpar p i = s.bpar p i :=
  congrArg (cfgGet · p i) h

/-- The state whose set the step puts in force, with the bus measured. -/
def State.metering (s : State) (raw : Vector Int 7) : State :=
  let s0 := s.modBank fun b => { b with set := b.next.getD b.set, next := none }
  s0.modBank fun b => { b with vbus := s0.chanMv raw 2 }

theorem exec_bankMeteringStep_of_on {s : State} (hon : s.bank.on = true) (raw : Vector Int 7) :
    exec (.bankMeteringStep raw) s =
      .next (((fins 2).foldl State.feedEvents ((fins 2).foldl (fun t f => t.feedMeasure raw f) (s.metering raw))).bankSend true) :=
  congrArg Host.Outcome.next (if_pos hon)

/-- The events of a step leave what it measured. -/
theorem State.foldl_feedEvents_metered (s : State) (fs : List (Fin 2)) : (fs.foldl State.feedEvents s).metered = s.metered :=
  List.foldlRecOn (motive := State.MeteredAs s.metered) fs State.feedEvents rfl fun _ h f _ => h.feedEvents f

/-- Whole millijoules and the remainder below one, of a sum carried on (R175). -/
theorem energy_carried (mj rem add : Nat) : (mj * 1000000000 + rem + add) / 1000000000 = mj + (rem + add) / 1000000000 := by omega

theorem State.bankSend_metered (s : State) (step : Bool) : (s.bankSend step).metered = s.metered := rfl

/-- What is on the way to the Delta die ends with the frame sent (R175). -/
theorem State.bankSend_last (s : State) (step : Bool) :
    ∃ q, (s.bankSend step).bank.tlm.getLast? = some q ∧ q.step = step ∧ q.vbus = (s.bankSend step).bank.vbus :=
  ⟨_, List.getLast?_concat, rfl, rfl⟩

/-- A feed behind a step: measured in a state with the set in force, from what the step found of the feed. -/
theorem State.meteringStep_metered (s : State) (raw : Vector Int 7) (f : Fin 2) :
    ∃ u : State, u.metered f = (s.metering raw).metered f ∧
      (((fins 2).foldl State.feedEvents ((fins 2).foldl (fun t f => t.feedMeasure raw f) (s.metering raw))).bankSend true).metered f =
        u.measured raw f := by
  obtain ⟨u, hu, hfold⟩ := (s.metering raw).foldl_feedMeasure_metered raw f
  refine ⟨u, hu, ?_⟩
  rw [State.bankSend_metered, State.foldl_feedEvents_metered, hfold]

/-- What was measured, read back under the set that is still in force. -/
theorem State.reads_of_measured {t u : State} {raw : Vector Int 7} {f : Fin 2} (h : t.metered f = u.measured raw f) :
    t.bank.feed[f].v = t.chanMv raw 2 - t.chanMv raw ⟨3 + f.val, by omega⟩ ∧
      t.bank.feed[f].i = nearHalfAway (t.chan raw ⟨f.val, by omega⟩) (1000 * t.bpar P.FEED_RSHUNT f) ∧
      t.bank.feed[f].p = nearHalfAway (t.bank.feed[f].v * t.bank.feed[f].i) 1000000 ∧
      t.bank.feed[f].vOr = t.chanMv raw ⟨5 + f.val, by omega⟩ ∧
      t.bank.feed[f].vMain = t.chanMv raw ⟨5 + f.val, by omega⟩ - t.chanMv raw ⟨3 + f.val, by omega⟩ ∧
      t.bank.feed[f].eImpRem < 1000000000 ∧
      ((u.bank.feed[f].eImp * 1000000000 + u.bank.feed[f].eImpRem + (t.bank.feed[f].v * t.bank.feed[f].i * 32).toNat) / 1000000000) % 2 ^ 64 =
        t.bank.feed[f].eImp := by
  have hset : t.bank.set = u.bank.set := congrArg Metering.set h
  have hv : t.bank.feed[f].v = u.chanMv raw 2 - u.chanMv raw ⟨3 + f.val, by omega⟩ := congrArg Metering.v h
  have hi : t.bank.feed[f].i = nearHalfAway (u.chan raw ⟨f.val, by omega⟩) (1000 * u.bpar P.FEED_RSHUNT f) := congrArg Metering.i h
  have hrem := congrArg Metering.eImpRem h
  have hmj := congrArg Metering.eImp h
  simp only [State.chanMv_of_set hset, State.chan_of_set hset, State.bpar_of_set hset, energy_carried]
  refine ⟨hv, hi, ?power, congrArg Metering.vOr h, congrArg Metering.vMain h, ?rest, ?energy⟩
  case power =>
    rw [hv, hi]
    exact congrArg Metering.p h
  case rest => exact hrem.trans_lt (Nat.mod_lt _ (by decide))
  case energy =>
    rw [hv, hi]
    exact hmj.symm

/-- Settles O20: each feed is measured under the set just put in force, and neither the other feed nor the events behind it change what was
measured. -/
theorem meteringStep : Obligations.MeteringStep := by
  unfold Obligations.MeteringStep
  refine ⟨fun s raw hon => ?on, fun s raw hoff => ⟨s, congrArg Host.Outcome.next (if_neg fun h => Bool.noConfusion (hoff.symm.trans h)), rfl⟩⟩
  have hmetered := s.meteringStep_metered raw
  have htlm := State.bankSend_last ((fins 2).foldl State.feedEvents ((fins 2).foldl (fun t f => t.feedMeasure raw f) (s.metering raw))) true
  refine ⟨_, exec_bankMeteringStep_of_on hon raw, ?_⟩
  generalize State.bankSend _ true = t at hmetered htlm ⊢
  obtain ⟨u, hu, htu⟩ := hmetered 0
  have hset : t.bank.set = (s.metering raw).bank.set := (congrArg Metering.set htu).trans (congrArg Metering.set hu)
  have hvbus : t.bank.vbus = (s.metering raw).chanMv raw 2 := (congrArg Metering.vbus htu).trans (congrArg Metering.vbus hu)
  refine ⟨(congrArg Metering.next htu).trans (congrArg Metering.next hu), hset, hvbus.trans (State.chanMv_of_set hset raw 2).symm, fun f => ?_, htlm⟩
  obtain ⟨u, hu, htu⟩ := hmetered f
  have hmj : u.bank.feed[f].eImp = s.bank.feed[f].eImp := congrArg Metering.eImp hu
  have hrem : u.bank.feed[f].eImpRem = s.bank.feed[f].eImpRem := congrArg Metering.eImpRem hu
  have hreads := State.reads_of_measured htu
  rw [hmj, hrem] at hreads
  exact hreads

end Sys2Proof.Machine

/-! PROOFS. Confluence (R185 to R191): what an update of the members, of a tie and of the share record leaves of each. -/

namespace Sys2Proof.Machine

/-! The members at an update. -/

/-- The state of a member after an update that finds its session open or not and its point fresh or not (R187). How a member leaves DROOP
is not said here. -/
def MemberState.updated (x : MemberState) (up fresh : Bool) : MemberState := match x with
  | .absent => if up = true ∧ fresh = true then .trimmed else .absent
  | .trimmed => if fresh = true then .trimmed else .held
  | .held => if fresh = true then .trimmed else .held
  | .droop => .droop
  | .suspended => .suspended

theorem State.modMbr_mbr_same (s : State) (m : Fin 64) (f : Member → Member) : (s.modMbr m f).share.mbr[m] = f s.share.mbr[m] :=
  upd_at _ _ _

theorem State.modMbr_mbr_ne (s : State) {m j : Fin 64} (h : j ≠ m) (f : Member → Member) :
    (s.modMbr m f).share.mbr[j] = s.share.mbr[j] := upd_ne _ _ h

/-- The state of every member is as it was. -/
def MbrStatesKept (s t : State) : Prop := ∀ m : Fin 64, t.share.mbr[m].state = s.share.mbr[m].state

theorem MbrStatesKept.refl (s : State) : MbrStatesKept s s := fun _ => rfl

theorem MbrStatesKept.trans {s t u : State} (h : MbrStatesKept s t) (g : MbrStatesKept t u) : MbrStatesKept s u :=
  fun m => (g m).trans (h m)

theorem MbrStatesKept.foldl {ι : Type} {f : State → ι → State} (h : ∀ u i, MbrStatesKept u (f u i)) (is : List ι) (s : State) :
    MbrStatesKept s (is.foldl f s) := List.foldlRecOn is _ (.refl s) fun _ hu i _ => hu.trans (h _ i)

theorem MbrStatesKept.ite {c : Prop} [Decidable c] {s a b : State} (ha : MbrStatesKept s a) (hb : MbrStatesKept s b) :
    MbrStatesKept s (if c then a else b) := by
  split
  · exact ha
  · exact hb

/-- A change of a member that leaves its state leaves the state of every member. -/
theorem State.modMbr_statesKept (s : State) (m : Fin 64) {f : Member → Member} (hf : ∀ x, (f x).state = x.state) :
    MbrStatesKept s (s.modMbr m f) := by
  intro j
  by_cases h : j = m
  · subst h
    rw [State.modMbr_mbr_same, hf]
  · rw [State.modMbr_mbr_ne s h]

/-- A member whose state changes has the new one; the others stay. -/
theorem State.mbrTo_state (s : State) (m : Fin 64) (st : MemberState) : (s.mbrTo m st).share.mbr[m].state = st := by
  unfold State.mbrTo
  extract_lets x keep
  split
  next h => exact h
  next => exact congrArg Member.state (s.modMbr_mbr_same m _)

theorem State.mbrTo_mbr_ne (s : State) {m j : Fin 64} (h : j ≠ m) (st : MemberState) : (s.mbrTo m st).share.mbr[j] = s.share.mbr[j] := by
  unfold State.mbrTo
  extract_lets x keep
  split
  · rfl
  · exact s.modMbr_mbr_ne h _

/-- A node's output state looked at changes the log and the sessions kept alone (R307). -/
theorem State.outScan_keeps_rest (s : State) (a : Nat) : Keeps (maskOf [.evq, .nodes]) s (s.outScan a) :=
  State.outScan_keeps a (Keeps.refl _ s) (.ofParts (by decide))

@[simp] theorem State.outScan_share (s : State) (a : Nat) : (s.outScan a).share = s.share := (s.outScan_keeps_rest a).frame .share (by decide)

/-- It opens and closes no session. -/
theorem State.outScan_isOpen (s : State) (a b : Nat) : ((s.outScan a).node b).isOpen = (s.node b).isOpen := by
  unfold State.outScan
  extract_lets v old
  split
  · rfl
  · by_cases h : b = a
    · subst h
      exact (congrArg NodeSess.isOpen (SMap.get_set_same _ _ _ _)).trans rfl
    · exact congrArg NodeSess.isOpen (SMap.get_set_ne _ _ h _)

/-- A member's output state looked at, and since when it has neither a session nor a fresh point (R187). -/
def State.mbrNoted (s : State) (m : Fin 64) : State :=
  (s.outScan (s.parN P.SHARE_MBR_NODE m)).modMbr m fun y =>
    { y with lostAt := if s.mbrOpen m ∨ s.mbrFresh m then none else some (y.lostAt.getD s.clk.tick) }

theorem State.mbrNoted_statesKept (s : State) (m : Fin 64) : MbrStatesKept s (s.mbrNoted m) := by
  have hscan : MbrStatesKept s (s.outScan (s.parN P.SHARE_MBR_NODE m)) := fun j => by rw [State.outScan_share]
  exact hscan.trans (State.modMbr_statesKept _ m fun _ => rfl)

theorem State.mbrNoted_mbr_ne (s : State) {m j : Fin 64} (h : j ≠ m) : (s.mbrNoted m).share.mbr[j] = s.share.mbr[j] :=
  (State.modMbr_mbr_ne _ h _).trans (by rw [State.outScan_share])

theorem State.mbrStep_of_unused {s : State} {m : Fin 64} (h : s.memberUsed m = false) : s.mbrStep m = s := if_pos h

/-- A step at a used member notes it, and then changes its state or leaves it. -/
theorem State.mbrStep_cases (s : State) (m : Fin 64) :
    s.mbrStep m = s ∨ s.mbrStep m = s.mbrNoted m ∨ ∃ st, s.mbrStep m = (s.mbrNoted m).mbrTo m st := by
  unfold State.mbrStep
  split
  next => exact .inl rfl
  next =>
    right
    extract_lets x up fresh s1
    have hnoted : s1 = s.mbrNoted m ∨ ∃ st, s1 = (s.mbrNoted m).mbrTo m st := .inl rfl
    have hto : ∀ st, s1.mbrTo m st = s.mbrNoted m ∨ ∃ st', s1.mbrTo m st = (s.mbrNoted m).mbrTo m st' := fun st => .inr ⟨st, rfl⟩
    clear_value s1
    split
    next => split; exacts [hto _, hnoted]
    next => split; exacts [hnoted, hto _]
    next => split; exacts [hto _, hnoted]
    next =>
      split
      next => exact hto _
      next =>
        split
        next => split; exacts [hto _, hnoted]
        next => exact hnoted
    next => exact hnoted

/-- A step at one member leaves every other one. -/
theorem State.mbrStep_mbr_ne (s : State) {m j : Fin 64} (h : j ≠ m) : (s.mbrStep m).share.mbr[j] = s.share.mbr[j] := by
  rcases s.mbrStep_cases m with e | e | ⟨st, e⟩
  · rw [e]
  · rw [e, s.mbrNoted_mbr_ne h]
  · rw [e, State.mbrTo_mbr_ne _ h, s.mbrNoted_mbr_ne h]

/-- A step at a member opens and closes no session. -/
theorem State.mbrStep_isOpen (s : State) (m : Fin 64) (b : Nat) : ((s.mbrStep m).node b).isOpen = (s.node b).isOpen := by
  have hto (st : MemberState) : ((s.mbrNoted m).mbrTo m st).nodes = (s.mbrNoted m).nodes :=
    (State.mbrTo_keeps m st (Keeps.refl (maskOf [.evq, .share]) _) (.ofParts (by decide))).frame .nodes (by decide)
  have hnoted : ((s.mbrNoted m).node b).isOpen = (s.node b).isOpen := s.outScan_isOpen _ b
  rcases s.mbrStep_cases m with e | e | ⟨st, e⟩
  · rw [e]
  · rw [e, hnoted]
  · rw [e, State.node, hto st]
    exact hnoted

/-- A step at a used member that is not in DROOP (R187). -/
theorem State.mbrStep_state {s : State} {m : Fin 64} (hused : s.memberUsed m = true) (hdroop : s.share.mbr[m].state ≠ .droop) :
    (s.mbrStep m).share.mbr[m].state = s.share.mbr[m].state.updated (s.mbrOpen m) (s.mbrFresh m) := by
  have hnoted := s.mbrNoted_statesKept m m
  unfold State.mbrStep
  rw [if_neg (by simp [hused])]
  extract_lets x up fresh s1
  change s1.share.mbr[m].state = x.state at hnoted
  change _ = x.state.updated up fresh
  change x.state ≠ .droop at hdroop
  clear_value s1 x up fresh
  split
  next hx =>
    rw [hx] at hnoted ⊢
    rw [MemberState.updated]
    split
    · exact State.mbrTo_state _ _ _
    · exact hnoted
  next hx =>
    rw [hx] at hnoted ⊢
    rw [MemberState.updated]
    split
    · exact hnoted
    · exact State.mbrTo_state _ _ _
  next hx =>
    rw [hx] at hnoted ⊢
    rw [MemberState.updated]
    split
    · exact State.mbrTo_state _ _ _
    · exact hnoted
  next hx => exact absurd hx hdroop
  next hx =>
    rw [hx] at hnoted ⊢
    exact hnoted

/-- What a step at a member reads of it. -/
def State.mbrRead (s : State) (m : Fin 64) : MemberState × Bool × Bool × Bool :=
  (s.share.mbr[m].state, s.memberUsed m, s.mbrOpen m, s.mbrFresh m)

theorem State.mbrRead_mbrStep_ne (s : State) (j m : Fin 64) (h : j ≠ m) : (s.mbrStep m).mbrRead j = s.mbrRead j := by
  have hk : Keeps (maskOf [.evq, .share, .nodes]) s (s.mbrStep m) := State.mbrStep_keeps m (Keeps.refl _ s) (.ofParts (by decide))
  have hcfg : (s.mbrStep m).cfg = s.cfg := hk.frame .cfg (by decide)
  have hclk : (s.mbrStep m).clk = s.clk := hk.frame .clk (by decide)
  have hpool : (s.mbrStep m).pool = s.pool := hk.frame .pool (by decide)
  have hused : (s.mbrStep m).memberUsed j = s.memberUsed j := by simp only [State.memberUsed, State.parN, State.par, hcfg]
  have hopen : (s.mbrStep m).mbrOpen j = s.mbrOpen j := by
    simp only [State.mbrOpen, State.parN, State.par, hcfg, State.mbrStep_isOpen]
  have hfresh : (s.mbrStep m).mbrFresh j = s.mbrFresh j := by
    unfold State.mbrFresh State.slotFresh State.slot State.parN State.par
    rw [hcfg, hclk, hpool]
  rw [State.mbrRead, s.mbrStep_mbr_ne h, hused, hopen, hfresh, State.mbrRead]

/-- Every member's transitions (R187). -/
def State.mbrsStepped (s : State) : State := (fins 64).foldl State.mbrStep s

/-- A member is left by the transitions of all as by its own step, from a state in which it reads as at the beginning. -/
theorem State.mbrsStepped_read (s : State) (m : Fin 64) : ∃ u : State, u.mbrRead m = s.mbrRead m ∧
    s.mbrsStepped.mbrRead m = (u.mbrStep m).mbrRead m :=
  foldl_reads (sel := State.mbrRead) (fun u i j h => u.mbrRead_mbrStep_ne i j h) (List.nodup_finRange 64) (List.mem_finRange m) s

theorem State.mbrsStepped_state_of_unused {s : State} {m : Fin 64} (h : s.memberUsed m = false) :
    s.mbrsStepped.share.mbr[m].state = s.share.mbr[m].state := by
  obtain ⟨u, hu, ht⟩ := s.mbrsStepped_read m
  obtain ⟨hstate, hrest⟩ := Prod.mk.inj hu
  obtain ⟨hused, -⟩ := Prod.mk.inj hrest
  rw [(Prod.mk.inj ht).1, State.mbrStep_of_unused (hused.trans h), hstate]

theorem State.mbrsStepped_state_of_used {s : State} {m : Fin 64} (h : s.memberUsed m = true) (hdroop : s.share.mbr[m].state ≠ .droop) :
    s.mbrsStepped.share.mbr[m].state = s.share.mbr[m].state.updated (s.mbrOpen m) (s.mbrFresh m) := by
  obtain ⟨u, hu, ht⟩ := s.mbrsStepped_read m
  obtain ⟨hstate, hrest⟩ := Prod.mk.inj hu
  obtain ⟨hused, hrest⟩ := Prod.mk.inj hrest
  obtain ⟨hopen, hfresh⟩ := Prod.mk.inj hrest
  rw [(Prod.mk.inj ht).1, State.mbrStep_state (hused.trans h) (hstate ▸ hdroop), hstate, hopen, hfresh]

/-! The trims computed and sent leave the state of every member. -/

theorem State.setTrim_mbrStatesKept (s : State) (m : Fin 64) (v : Int) : MbrStatesKept s (s.setTrim m v) := by
  unfold State.setTrim
  extract_lets lim cut s1
  have h1 : MbrStatesKept s s1 := s.modMbr_statesKept m fun _ => rfl
  split
  · exact h1
  · exact h1

theorem State.groupTrim_mbrStatesKept (s : State) (g : Fin 4) : MbrStatesKept s (s.groupTrim g) := by
  unfold State.groupTrim
  extract_lets share s0 act free w raw mean
  exact MbrStatesKept.trans (t := s0) (.refl s) (.foldl (fun u q => u.setTrim_mbrStatesKept q.1 _) raw s0)

theorem State.sendTrim_mbrStatesKept (s : State) (m : Fin 64) : MbrStatesKept s (s.sendTrim m) := by
  unfold State.sendTrim
  extract_lets a g ofs lim v
  split
  next =>
    have hsent : MbrStatesKept s (s.modMbr m fun x => { x with sent := v, seq := x.seq + 1 }) := s.modMbr_statesKept m fun _ => rfl
    have hsend := State.nodeSend_keeps a 0x10 0 (leBytes 4 (toWord 32 v) ++ leBytes 4 (1000000 / s.parN P.SHARE_RATE 0))
      (Keeps.refl (maskOf [.port, .nodes, .passed]) (s.modMbr m fun x => { x with sent := v, seq := x.seq + 1 })) (.ofParts (by decide))
    have hshare := hsend.frame .share (by decide)
    exact fun j => (congrArg (fun x : Share => x.mbr[j].state) hshare).trans (hsent j)
  next => exact .refl s

theorem exec_shareUpdate_of_active {s : State} (h : s.hasActive = true) :
    ∃ t, exec .shareUpdate s = .next t ∧ MbrStatesKept s.mbrsStepped t := by
  refine ⟨_, if_neg (by simp [h]), ?_⟩
  refine .trans (.foldl State.groupTrim_mbrStatesKept _ _) (.foldl (fun t g => .foldl (fun u m => ?_) _ t) _ _)
  exact .ite (u.sendTrim_mbrStatesKept m) (.refl u)

theorem exec_shareUpdate_of_inactive {s : State} (h : s.hasActive = false) : exec .shareUpdate s = .next s := if_pos h

/-! The ties in hold-up. -/

theorem State.tieStep_grp (s : State) (g : Fin 4) : ∃ v : Int, (s.inHoldup = true → v = 0) ∧
    (s.tieStep g).share.grp = upd s.share.grp g fun x => { x with tieOfs := v, frac := s.groupFrac g } := by
  unfold State.tieStep
  extract_lets own nb max ofs step v
  exact ⟨v, fun h => if_pos h, rfl⟩

theorem State.tieStep_inHoldup (s : State) (g : Fin 4) : (s.tieStep g).inHoldup = s.inHoldup := rfl

/-- In hold-up a tie has no offset, and its group reports all of its load (R191). -/
def State.TieFull (s : State) (g : Fin 4) : Prop := s.inHoldup = true → s.share.grp[g].tieOfs = 0 ∧ s.share.grp[g].frac = 1000

theorem State.tieStep_tieFull (s : State) (g : Fin 4) : (s.tieStep g).TieFull g := by
  obtain ⟨v, hv, hgrp⟩ := s.tieStep_grp g
  intro hold
  rw [s.tieStep_inHoldup] at hold
  rw [hgrp, upd_get, if_pos rfl]
  exact ⟨hv hold, if_pos hold⟩

theorem State.TieFull.tieStep {s : State} {i j : Fin 4} (hij : i ≠ j) (h : s.TieFull i) : (s.tieStep j).TieFull i := by
  obtain ⟨v, -, hgrp⟩ := s.tieStep_grp j
  intro hold
  rw [hgrp, upd_get, if_neg hij]
  exact h hold

/-- The ages of the neighbours' records seen, and every tie updated (R190, R191). -/
def State.tiesStepped (s : State) : State := (fins 4).foldl State.tieStep ((fins 2).foldl State.peerAge s)

theorem State.tiesStepped_tieFull (s : State) (g : Fin 4) : s.tiesStepped.TieFull g :=
  foldl_establishes (Q := fun g t => t.TieFull g) State.tieStep_tieFull (fun _ _ _ hij h => h.tieStep hij) (List.mem_finRange g) _

theorem State.tiesStepped_inHoldup (s : State) : s.tiesStepped.inHoldup = s.inHoldup := by
  have hages : Keeps (maskOf [.evq, .share]) s ((fins 2).foldl State.peerAge s) :=
    Keeps.foldl _ (Keeps.refl _ s) fun _ i h => State.peerAge_keeps i h (.ofParts (by decide))
  have hties : Keeps (maskOf [.evq, .share]) s s.tiesStepped :=
    Keeps.foldl _ hages fun _ g h => State.tieStep_keeps g h (.ofParts (by decide))
  have hhold : s.tiesStepped.hold = s.hold := hties.frame .hold (by decide)
  rw [State.inHoldup, hhold, State.inHoldup]

theorem exec_shareTieUpdate_of_active {s : State} (h : s.hasActive = true) : exec .shareTieUpdate s = .next s.tiesStepped :=
  congrArg Host.Outcome.next (if_pos h)

theorem exec_shareTieUpdate_of_inactive {s : State} (h : s.hasActive = false) : exec .shareTieUpdate s = .next s :=
  congrArg Host.Outcome.next (if_neg (by simp [h]))

/-! Frames on the peer ports. -/

/-- The bytes of a frame on a peer port before its CRC (R509). -/
def State.peerBody (s : State) (i : Fin 2) (typ : Nat) (payload : List Byte) : List Byte :=
  leBytes 1 typ ++ leBytes 1 s.chain.addr ++ leBytes 2 payload.length ++ leBytes 4 s.chain.peer[i].seq ++ payload

/-- A peer port that has sent a frame: the next sequence number, and the frame with its CRC (R509). -/
def Peer.sent (x : Peer) (b : List Byte) : Peer := { x with seq := (x.seq + 1) % 2 ^ 32, out := b ++ leBytes 4 (crc32c b) }

theorem State.peerSend_peer_same (s : State) (i : Fin 2) (typ : Nat) (payload : List Byte) :
    (s.peerSend i typ payload).chain.peer[i] = s.chain.peer[i].sent (s.peerBody i typ payload) := upd_at _ _ _

theorem State.peerSend_peer_ne (s : State) {i j : Fin 2} (h : j ≠ i) (typ : Nat) (payload : List Byte) :
    (s.peerSend i typ payload).chain.peer[j] = s.chain.peer[j] := upd_ne _ _ h

/-- A frame is twelve bytes longer than its payload. -/
theorem Peer.sent_out_length (x : Peer) (s : State) (i : Fin 2) (typ : Nat) (payload : List Byte) :
    (x.sent (s.peerBody i typ payload)).out.length = payload.length + 12 := by
  simp only [Peer.sent, State.peerBody, List.length_append, leBytes_length]
  omega

/-- The peer share record has 20 bytes (R189). -/
theorem State.shareRecord_length (s : State) : s.shareRecord.length = 20 := by
  unfold State.shareRecord
  extract_lets valid part
  have hpart : ∀ p, (part p).length = 8 := by
    intro p
    simp only [part]
    split
    · exact leBytes_length _ _
    · simp only [List.length_append, leBytes_length]
  simp only [List.length_append, leBytes_length, hpart]

/-- The share record numbered one higher (R189). -/
def State.shareNumbered (s : State) : State := { s with share := { s.share with seq := (s.share.seq + 1) % 65536 } }

theorem exec_peerShareSend_of_addressed {s : State} (h : s.hasActive = true) (ha : s.chain.addr ≠ 0) : exec .peerShareSend s =
    .next ((s.shareNumbered.peerSend 0 2 s.shareNumbered.shareRecord).peerSend 1 2 s.shareNumbered.shareRecord) :=
  if_neg (by simp [h, ha])

theorem exec_peerShareSend_of_inactive {s : State} (h : s.hasActive = false) : exec .peerShareSend s = .next s := if_pos (.inl h)

/-- Settles O29: a member by its own step and by what the trims leave of it, a tie by its step in hold-up, a share record by the frames that
carry it. -/
theorem confluenceUpdates : Obligations.ConfluenceUpdates := by
  unfold Obligations.ConfluenceUpdates
  refine ⟨?unused, ?used, ?ties, ?record, ?updateIdle, ?tieIdle, ?sendIdle⟩
  case unused =>
    intro s m hactive hused
    obtain ⟨t, hexec, hkept⟩ := exec_shareUpdate_of_active hactive
    exact ⟨t, hexec, (hkept m).trans (State.mbrsStepped_state_of_unused hused)⟩
  case used =>
    intro s m hactive hused
    obtain ⟨t, hexec, hkept⟩ := exec_shareUpdate_of_active hactive
    have hstate : ∀ x, s.share.mbr[m].state = x → x ≠ .droop →
        t.share.mbr[m].state = x.updated (s.mbrOpen m) (s.mbrFresh m) := by
      rintro x rfl hx
      exact (hkept m).trans (State.mbrsStepped_state_of_used hused hx)
    exact ⟨t, hexec, fun h => hstate _ h (by decide), fun h => hstate _ h (by decide), fun h => hstate _ h (by decide),
      fun h => hstate _ h (by decide)⟩
  case ties =>
    intro s hactive hhold
    refine ⟨_, exec_shareTieUpdate_of_active hactive, fun g => s.tiesStepped_tieFull g ?_⟩
    rw [s.tiesStepped_inHoldup]
    exact bne_iff_ne.2 hhold
  case record =>
    intro s hactive haddr
    refine ⟨_, exec_peerShareSend_of_addressed hactive haddr, rfl, rfl, Fin.forall_fin_two.2 ⟨?_, ?_⟩⟩
    · rw [State.peerSend_peer_ne _ (by decide), State.peerSend_peer_same]
      exact ⟨rfl, by rw [Peer.sent_out_length, State.shareRecord_length]⟩
    · rw [State.peerSend_peer_same, State.peerSend_peer_ne _ (by decide)]
      exact ⟨rfl, by rw [Peer.sent_out_length, State.shareRecord_length]⟩
  case updateIdle => exact fun s h => ⟨s, exec_shareUpdate_of_inactive h, rfl⟩
  case tieIdle => exact fun s h => ⟨s, exec_shareTieUpdate_of_inactive h, rfl⟩
  case sendIdle => exact fun s h => ⟨s, exec_peerShareSend_of_inactive h, rfl⟩

end Sys2Proof.Machine

/-! PROOFS. The peer chain, retention and the firmware trial (R443, R496, R508 to R510). -/

namespace Sys2Proof.Machine

/-! The peer ports. -/

theorem State.modPeer_peer_same (s : State) (n : Fin 2) (f : Peer → Peer) : (s.modPeer n f).chain.peer[n] = f s.chain.peer[n] :=
  upd_at _ _ _

theorem State.modPeer_peer_other (s : State) (n : Fin 2) (f : Peer → Peer) : (s.modPeer n f).chain.peer[1 - n] = s.chain.peer[1 - n] :=
  upd_ne _ _ (stem_other_ne n)

theorem exec_peerHelloSend_of_active {s : State} (h : s.hasActive = true) (n : Fin 2) :
    exec (.peerHelloSend n) s = .next (s.peerSend n 1 s.helloBody) := congrArg Host.Outcome.next (if_pos h)

/-- The payload of HELLO has four bytes (R509). -/
theorem State.helloBody_length (s : State) : s.helloBody.length = 4 := by
  simp only [State.helloBody, List.length_append, leBytes_length]

/-- A frame begins with its type, the sender's address, its length and its sequence number (R509). -/
theorem Peer.sent_out_take (x : Peer) (s : State) (i : Fin 2) (typ : Nat) (payload : List Byte) :
    (x.sent (s.peerBody i typ payload)).out.take 8 =
      leBytes 1 typ ++ leBytes 1 s.chain.addr ++ leBytes 2 payload.length ++ leBytes 4 s.chain.peer[i].seq := by
  rw [Peer.sent, State.peerBody, List.append_assoc]
  exact List.take_left' (by simp only [List.length_append, leBytes_length])

theorem exec_peerLinkUp_of_on {s : State} (h : s.dev.held = false) (n : Fin 2) :
    exec (.peerLinkUp n) s = .next (s.modPeer n (fun x => { x with up := true })) := congrArg Host.Outcome.next (if_neg (by simp [h]))

/-- The peer ports and the order of the inputs are as they were. -/
def PeersKept (s t : State) : Prop := t.chain.peer = s.chain.peer ∧ t.ord = s.ord

theorem PeersKept.refl (s : State) : PeersKept s s := ⟨rfl, rfl⟩

theorem PeersKept.ite {c : Prop} [Decidable c] {s a b : State} (ha : PeersKept s a) (hb : PeersKept s b) :
    PeersKept s (if c then a else b) := by
  split
  · exact ha
  · exact hb

/-- An address taken from a neighbour is the unit's own (R510). -/
theorem State.takeAddr_peersKept (s : State) (up : Nat) : PeersKept s (s.takeAddr up) :=
  .ite ⟨rfl, rfl⟩ (.ite ⟨rfl, rfl⟩ ⟨rfl, rfl⟩)

/-- A HELLO writes the neighbour's address at its port; what the unit makes of it is none of the ports' (R510). -/
theorem State.helloIn_peersKept (s : State) (n : Fin 2) (a : Nat) :
    PeersKept (s.modPeer n (fun x => { x with addr := a })) (s.helloIn n a) := by
  have htake := (s.modPeer n (fun x => { x with addr := a })).takeAddr_peersKept a
  exact .ite (.refl _) (.ite (.ite (.refl _) ⟨rfl, rfl⟩) (.ite (.ite htake (.refl _)) ⟨rfl, rfl⟩))

theorem exec_peerFrameReceive_of_bad {n : Fin 2} {data : List Byte}
    (h : crc32c (data.take (data.length - 4)) ≠ leAt data (data.length - 4) 4) (s : State) :
    exec (.peerFrameReceive n data) s = .next s := by
  refine congrArg Host.Outcome.next ?_
  split
  · rfl
  · exact if_pos (.inr (.inr h))

theorem exec_peerFrameReceive_of_hello {s : State} {n : Fin 2} {data : List Byte} (hactive : s.hasActive = true)
    (hup : s.chain.peer[n].up = true) (hlen : data.length = 16) (htype : leAt data 0 1 = 1) (hbytes : leAt data 2 2 = 4)
    (hcrc : crc32c (data.take 12) = leAt data 12 4) :
    exec (.peerFrameReceive n data) s = .next (s.stamp.helloIn n (leAt data 1 1)) := by
  refine congrArg Host.Outcome.next ((if_neg ?_).trans ((if_neg ?_).trans (if_pos ⟨htype, hbytes⟩)))
  · rw [hactive, hup]
    simp
  · rw [hlen, hbytes, hcrc]
    simp

/-! Retention. -/

theorem State.retWrite_eq (s : State) : ∃ en pol, s.retWrite = s.retPut (s.retNow en pol) := by
  unfold State.retWrite
  split
  · exact ⟨_, _, rfl⟩
  · exact ⟨_, _, rfl⟩

/-- The copy written is the newest, and stands where the last write did not go (R496). -/
theorem State.retPut_spring (s : State) (r : Ret) : (s.retPut r).spring.retB = (!s.spring.retB) ∧ (s.retPut r).spring.newest = some r ∧
    (if s.spring.retB then (s.retPut r).spring.ret[(1 : Fin 2)] = s.spring.ret[(1 : Fin 2)]
      else (s.retPut r).spring.ret[(0 : Fin 2)] = s.spring.ret[(0 : Fin 2)]) := by
  refine ⟨rfl, ?_, ?_⟩
  · rw [State.retPut, State.modSpring_spring, Spring.newest]
    cases s.spring.retB with
    | false => exact upd_at s.spring.ret 1 _
    | true => exact upd_at s.spring.ret 0 _
  · rw [State.retPut, State.modSpring_spring]
    cases s.spring.retB with
    | false => exact upd_ne s.spring.ret _ (by decide)
    | true => exact upd_ne s.spring.ret _ (by decide)

theorem exec_retentionWrite_of_on {s : State} (hheld : s.dev.held = false) (hd : s.dev.state ≠ .dormant) :
    exec .retentionWrite s = .next s.retWrite := congrArg Host.Outcome.next (if_neg (by simp [hheld, hd]))

/-! The firmware trial. -/

theorem exec_fwTrialConfirm_of_early {s : State} (h : s.clk.tick < s.firm.trialTick + s.parN P.DEV_FW_TRIAL_TIME 0 * 250000000) :
    exec .fwTrialConfirm s = .next s := by
  change execFwTrialConfirm s = _
  unfold execFwTrialConfirm
  split
  · rfl
  · split
    · rfl
    · exact congrArg Host.Outcome.next (if_pos (.inr (.inr h)))

/-- The slot on trial made the running one (R508). -/
def State.trialPassed (s : State) (k : Fin 2) (x : FwImage) : State :=
  ((s.modFirm (fun f => { f with
    runSlot := k, trialSlot := none, trialBoots := 0, trialStart := 0, rollback := max s.firm.rollback x.rollback })).ledgerNeed).log
      0x1207 k.val (x.version + max s.firm.rollback x.rollback * 2 ^ 32 : Nat)

theorem exec_fwTrialConfirm_of_due {s : State} {k : Fin 2} {x : FwImage} (hactive : s.hasActive = true) (hk : s.firm.trialSlot = some k)
    (hx : s.firm.slot[k] = some x) (hstart : s.firm.trialStart ≠ 0)
    (hdue : s.firm.trialTick + s.parN P.DEV_FW_TRIAL_TIME 0 * 250000000 ≤ s.clk.tick) :
    exec .fwTrialConfirm s = .next (s.trialPassed k x) := by
  change execFwTrialConfirm s = _
  unfold execFwTrialConfirm
  rw [hk]
  dsimp only
  rw [hx]
  refine congrArg Host.Outcome.next (if_neg ?_)
  rw [hactive, not_or, not_or, Nat.not_lt]
  exact ⟨hstart, Bool.noConfusion, hdue⟩

/-! The automatic START. -/

theorem exec_loopAutostart_of_due {s : State} {l : Fin 16} (hactive : s.hasActive = true) (hrun : s.dev.state = .run)
    (hauto : s.dev.auto[l] = true) (hcan : s.canStart l = true) (hen : s.par P.LOOP_ENABLE l ≠ 0) (hstop : s.loop[l].ct.state = .stopped) :
    exec (.loopAutostart l) s = .next ((s.stamp.noAuto l).startLoop l 0) := by
  have hstart : s.stamp.loopStart l = (s.stamp.noAuto l).loopStartOn l := if_neg hen
  have hon : (s.stamp.noAuto l).loopStartOn l = ((s.stamp.noAuto l).startLoop l 0, stOk) := by
    unfold State.loopStartOn
    rw [show (s.stamp.noAuto l).loop[l].ct.state = .stopped from hstop]
    exact if_pos hcan
  refine congrArg Host.Outcome.next ((if_pos ⟨hactive, hrun, hauto, hcan⟩).trans ?_)
  rw [hstart, hon]

theorem exec_loopAutostart_of_not_auto {s : State} {l : Fin 16} (h : s.dev.auto[l] = false) : exec (.loopAutostart l) s = .next s :=
  congrArg Host.Outcome.next (if_neg (by simp [h]))

/-- A loop started writes neither the operating state nor the order of the inputs. -/
theorem State.startLoop_keeps_rest (s : State) (l : Fin 16) (retries : Nat) :
    Keeps (maskOf [.evq, .die, .loop, .fault, .lag, .passed]) s (s.startLoop l retries) :=
  State.startLoop_keeps l retries (Keeps.refl _ s) (.ofParts (by decide))

end Sys2Proof.Machine

/-! PROOFS. The image in force applied (R404, R504, R505): what a start in RUN and one in QUIET leave, and the start up to them. -/

namespace Sys2Proof.Machine

/-! The log grows. -/

/-- Operations in turn that each add to the log add to it. -/
theorem State.evq_prefix_foldl {ι : Type} {f : State → ι → State} (h : ∀ u i, u.evq <+: (f u i).evq) (is : List ι) (s : State) :
    s.evq <+: (is.foldl f s).evq :=
  List.foldlRecOn (motive := fun t : State => s.evq <+: t.evq) is f (List.prefix_refl _) fun _ ht i _ => ht.trans (h _ i)

theorem State.evq_prefix_linkScan (s : State) (p : Fin 64) : s.evq <+: (s.linkScan p).evq := by
  unfold State.linkScan
  refine State.evq_prefix_foldl (fun u k => ?_) _ s
  dsimp only
  split
  · exact List.prefix_refl _
  · exact List.prefix_append _ _

theorem State.evq_prefix_portOff (s : State) (p : Fin 64) : s.evq <+: (s.portOff p).evq := by
  unfold State.portOff
  refine List.IsPrefix.trans ?_ (State.evq_prefix_linkScan _ p)
  exact List.prefix_refl _

theorem State.evq_prefix_portApply (s : State) (p : Fin 64) : s.evq <+: (s.portApply p).evq := by
  unfold State.portApply
  extract_lets mode x
  split
  · split
    · exact List.prefix_refl _
    · exact s.evq_prefix_portOff p
  · split
    · split
      · exact List.prefix_refl _
      · exact List.prefix_refl _
    · split
      · exact List.prefix_refl _
      · exact List.prefix_refl _

theorem State.evq_prefix_bankOn (s : State) : s.evq <+: s.bankOn.evq := by
  unfold State.bankOn
  split
  · exact List.prefix_refl _
  · exact (List.prefix_append _ _).trans (List.prefix_append _ _)

/-! A start in RUN. -/

/-- The ports as their domains ask write neither the dies nor the operating state. -/
theorem State.portsApply_keeps_rest (s : State) : Keeps (maskOf [.evq, .port, .nodes]) s s.portsApply :=
  State.portsApply_keeps (Keeps.refl _ s) (.ofParts (by decide))

/-- The domains of Run, with the loops that wait for their automatic START (R505). -/
def State.runDomains (s : State) : State :=
  s.modDev (fun d => { d with fldlOn := true, fldhOn := true, phOn := true, isoOn := true
                              auto := tab 16 (fun l => bit (s.parN P.DEV_LOOP_AUTOSTART 0) l.val) })

/-- Every phase die's domain on (R19). -/
def State.diesUp (s : State) : State := (fins 4).foldl State.dieUp s

theorem State.diesUp_keeps_rest (s : State) : Keeps (maskOf [.die]) s s.diesUp :=
  Keeps.foldl _ (Keeps.refl _ s) fun _ d h => State.dieUp_keeps d h (.ofParts (by decide))

theorem State.diesUp_src {s : State} (h : s.dev.applied = true) (d : Fin 4) : s.diesUp.die[d].src = true := by
  have hsrc : s.diesUp.dev.applied = true → s.diesUp.die[d].src = true := by
    refine foldl_establishes (Q := fun d (t : State) => t.dev.applied = true → t.die[d].src = true) (fun u i hu => ?_)
      (fun u i j hij hq hu => ?_) (List.mem_finRange d) s
    · exact (congrArg Die.src (upd_at u.die i _)).trans hu
    · exact (congrArg Die.src (upd_ne u.die _ hij)).trans (hq hu)
  exact hsrc ((congrArg Dev.applied (s.diesUp_keeps_rest.frame .dev (by decide))).trans h)

theorem State.runUp_eq (s : State) : s.runUp = if s.runDomains.portsApply.diesUp.power.vauxhUv then s.runDomains.portsApply.diesUp
    else s.runDomains.portsApply.diesUp.bankOn := by
  unfold State.runUp State.diesUp State.runDomains
  rfl

theorem State.runUp_keeps_domains (s : State) : Keeps (maskOf [.evq, .bank, .passed]) s.runDomains.portsApply.diesUp s.runUp := by
  rw [s.runUp_eq]
  exact .ite (Keeps.refl _ _) (State.bankOn_keeps (Keeps.refl _ _) (.ofParts (by decide)))

theorem State.runUp_dev (s : State) : s.runUp.dev = s.runDomains.dev :=
  calc s.runUp.dev = s.runDomains.portsApply.diesUp.dev := s.runUp_keeps_domains.frame .dev (by decide)
    _ = s.runDomains.portsApply.dev := (State.diesUp_keeps_rest _).frame .dev (by decide)
    _ = s.runDomains.dev := (State.portsApply_keeps_rest _).frame .dev (by decide)

theorem State.runUp_evq (s : State) : s.evq <+: s.runUp.evq := by
  have hports : s.evq <+: s.runDomains.portsApply.evq := State.evq_prefix_foldl State.evq_prefix_portApply _ s.runDomains
  have hdies : s.runDomains.portsApply.diesUp.evq = s.runDomains.portsApply.evq := (State.diesUp_keeps_rest _).frame .evq (by decide)
  rw [← hdies] at hports
  rw [s.runUp_eq]
  split
  · exact hports
  · exact hports.trans (State.evq_prefix_bankOn _)

theorem State.runUp_src {s : State} (h : s.dev.applied = true) (d : Fin 4) : s.runUp.die[d].src = true := by
  have hdie := s.runUp_keeps_domains.frame .die (by decide)
  have hports : s.runDomains.portsApply.dev = s.runDomains.dev := (State.portsApply_keeps_rest _).frame .dev (by decide)
  exact (congrArg (fun v : Vector Die 4 => v[d].src) hdie).trans (State.diesUp_src ((congrArg Dev.applied hports).trans h) d)

theorem State.runEntry_keeps_rest (s : State) (src : Nat) :
    Keeps (maskOf [.evq, .die, .bank, .port, .nodes, .passed, .dev]) s (s.runEntry src) :=
  State.runEntry_keeps src (Keeps.refl _ s) (.ofParts (by decide))

theorem State.runEntry_evq (s : State) (src : Nat) : s.evq <+: (s.runEntry src).evq :=
  (List.prefix_append s.evq _).trans (State.runUp_evq (s.stateTo .run src))

/-! A start in QUIET. -/

/-- The operating state, and what the start of the part has reached, are as they were. -/
def StartKept (s t : State) : Prop :=
  t.dev.state = s.dev.state ∧ t.dev.applied = s.dev.applied ∧ t.dev.mbReady = s.dev.mbReady

theorem StartKept.of_dev {s t : State} (h : t.dev = s.dev) : StartKept s t := by
  rw [StartKept, h]
  exact ⟨rfl, rfl, rfl⟩

theorem StartKept.trans {s t u : State} (h : StartKept s t) (g : StartKept t u) : StartKept s u :=
  ⟨g.1.trans h.1, g.2.1.trans h.2.1, g.2.2.trans h.2.2⟩

theorem StartKept.foldl {ι : Type} {f : State → ι → State} (h : ∀ u i, StartKept u (f u i)) (is : List ι) (s : State) :
    StartKept s (is.foldl f s) := List.foldlRecOn is f (.of_dev rfl) fun _ hu i _ => hu.trans (h _ i)

theorem State.modDev_startKept (s : State) {f : Dev → Dev}
    (hf : ∀ d, (f d).state = d.state ∧ (f d).applied = d.applied ∧ (f d).mbReady = d.mbReady) : StartKept s (s.modDev f) := hf s.dev

theorem State.stopLoop_dev (s : State) (l : Fin 16) (cause : Nat) (mode : StopMode) : (s.stopLoop l cause mode).dev = s.dev :=
  (State.stopLoop_keeps l cause mode (Keeps.refl (maskOf [.evq, .die, .ph, .pst, .loop, .fault, .lag, .passed]) s)
    (.ofParts (by decide))).frame .dev (by decide)

/-- A STOP takes the loop's automatic START back, and writes nothing else of the operating state. -/
theorem State.loopStop_startKept (s : State) (l : Fin 16) (holdup : Bool) : StartKept s (s.loopStop l holdup).1 := by
  have hauto : StartKept s (s.noAuto l) := ⟨rfl, rfl, rfl⟩
  have hstop : ∀ mode, StartKept s ((s.noAuto l).stopLoop l 0 mode) := fun mode => hauto.trans (.of_dev (State.stopLoop_dev _ l 0 mode))
  unfold State.loopStop
  split
  next =>
    dsimp only
    exact hstop .boundary
  next =>
    split
    · exact .of_dev rfl
    · dsimp only
      exact hstop .boundary
  next =>
    dsimp only
    exact hstop .none
  next => exact hauto
  next => exact hauto

theorem State.allStop_startKept (s : State) : StartKept s s.allStop := by
  unfold State.allStop
  refine .foldl (fun u l => ?_) _ s
  split
  next => exact u.loopStop_startKept l true
  next => exact u.loopStop_startKept l true
  next => exact u.loopStop_startKept l true
  next => exact .of_dev rfl
  next => exact .of_dev rfl

/-- The bank die goes off without a change of the operating state. -/
theorem State.bankOff_dev (s : State) : s.energyCopy.bankOff.dev = s.dev :=
  (State.bankOff_keeps (State.energyCopy_keeps (Keeps.refl (maskOf [.evq, .fault, .bank, .silt]) s) (.ofParts (by decide)))
    (.ofParts (by decide))).frame .dev (by decide)

/-- So do the phase dies, with a trigger of those that they take to SAFE. -/
theorem State.diesOff_dev (s : State) :
    ((fins 4).foldl (fun (t : State) d => (if t.die[d].state = .safe then t else t.spateReq 5 d.val).dieOff d) s).dev = s.dev :=
  (Keeps.foldl (fins 4) (Keeps.refl (maskOf [.die, .ph, .pst, .vs, .lag, .spate]) s) fun _ d h =>
    State.dieOff_keeps d (.ite h (State.spateReq_keeps 5 d.val h (.ofParts (by decide)))) (.ofParts (by decide))).frame .dev (by decide)

theorem State.portsScanned_dev (s : State) : s.portsApply.faultScan.dev = s.dev :=
  (State.faultScan_keeps (State.portsApply_keeps (Keeps.refl (maskOf [.evq, .port, .nodes, .fault]) s) (.ofParts (by decide)))
    (.ofParts (by decide))).frame .dev (by decide)

theorem State.quietDown_startKept (s : State) : StartKept s s.quietDown := by
  unfold State.quietDown
  extract_lets s1 s2
  have h1 : StartKept s s1 :=
    (s.allStop_startKept.trans (.of_dev s.allStop.bankOff_dev)).trans (State.modDev_startKept _ fun _ => ⟨rfl, rfl, rfl⟩)
  have h2 : StartKept s s2 := h1.trans (.of_dev s1.diesOff_dev)
  have h3 : StartKept s (s2.modDev (fun d => { d with phOn := false, fldhOn := false })) :=
    h2.trans (State.modDev_startKept _ fun _ => ⟨rfl, rfl, rfl⟩)
  exact h3.trans (.of_dev (State.portsScanned_dev _))

/-- The operating state at a start of the part (R498, R505). -/
theorem State.stateBoot_start (s : State) : s.stateBoot.dev.state = (if s.par P.DEV_BOOT_STATE 0 = 2 then .quiet else .run) ∧
    s.stateBoot.dev.applied = s.dev.applied ∧ s.stateBoot.dev.mbReady = s.dev.mbReady := by
  unfold State.stateBoot
  split
  · exact State.quietDown_startKept ((s.stateTo .quiet 255).modDev (fun d => { d with fldlOn := true }))
  · rw [State.runEntry, State.runUp_dev]
    exact ⟨rfl, rfl, rfl⟩

theorem State.stateBoot_of_run {s : State} (h : s.par P.DEV_BOOT_STATE 0 ≠ 2) : s.stateBoot = s.runEntry 255 := if_neg h

/-- It writes neither the values of the parameters nor the hosts. -/
theorem State.stateBoot_keeps_rest (s : State) : Keeps (maskOf [.evq, .die, .ph, .pst, .vs, .loop, .fault, .bank, .port, .nodes, .silt,
    .spate, .therm, .dev, .lag, .passed]) s s.stateBoot := State.stateBoot_keeps (Keeps.refl _ s) (.ofParts (by decide))

/-! The start up to there. -/

/-- The mailboxes ready at a tick, with an image applied, as a stamped input (R504). -/
def State.mailboxesReady (s : State) (tick : Nat) : State :=
  (s.modDev (fun d => { d with applied := true, mbReady := true, bootTime := (tick - d.started) / 250 })).stamp

theorem State.mailboxesReady_rest (s : State) (tick : Nat) : (s.mailboxesReady tick).cfg = s.cfg ∧
    (s.mailboxesReady tick).firm = s.firm ∧ (s.mailboxesReady tick).host = s.host ∧ (s.mailboxesReady tick).evq = s.evq ∧
    (s.mailboxesReady tick).dev.applied = true ∧ (s.mailboxesReady tick).dev.mbReady = true := ⟨rfl, rfl, rfl, rfl, rfl, rfl⟩

/-- The timers, the strings, the sensors and the capture buffer started from it. -/
def State.unitsBooted (s : State) : State :=
  ((fins 8).foldl State.battBoot ((fins 32).foldl State.timerBoot s)).offsetsBoot.spateApply

/-- The command-source signal high at every phase die, and the set of the Bank die sent to a die that is on. -/
def State.sourceRaised (s : State) : State :=
  let t := (fins 4).foldl (fun (t : State) (d : Fin 4) => t.modDie d (fun x => { x with src := true })) s
  if t.bank.on then t.bankSendSet else t

/-- The FAULT pins free, a trial begun, the chain addressed (R144, R503, R510). -/
def State.startChecked (s : State) (head : Bool) : State := s.faultFree.trialBegin.chainBoot head

theorem exec_kenebImageApply_of_not_due {s : State} (h : s.hasActive = false ∨ s.dev.applied = true) (head : Bool) :
    exec (.kenebImageApply head) s = .next s := congrArg Host.Outcome.next (if_pos h)

theorem State.unitsBooted_keeps_rest (s : State) : Keeps (maskOf [.batt, .spate, .therm, .timer]) s s.unitsBooted := by
  have htimers : Keeps (maskOf [.batt, .spate, .therm, .timer]) s ((fins 32).foldl State.timerBoot s) :=
    Keeps.foldl _ (Keeps.refl _ s) fun _ t h => State.timerBoot_keeps t h (.ofParts (by decide))
  have hbatts := Keeps.foldl (f := State.battBoot) (fins 8) htimers fun _ b h => State.battBoot_keeps b h (.ofParts (by decide))
  exact State.spateApply_keeps (State.offsetsBoot_keeps hbatts (.ofParts (by decide))) (.ofParts (by decide))

theorem State.sourceRaised_keeps_rest (s : State) : Keeps (maskOf [.die, .bank, .passed]) s s.sourceRaised := by
  unfold State.sourceRaised
  extract_lets t
  have ht : Keeps (maskOf [.die, .bank, .passed]) s t := Keeps.foldl _ (Keeps.refl _ s) fun _ d h =>
    State.modDie_keeps d _ h (.ofParts (by decide)) fun _ hx => hx
  exact .ite (State.bankSendSet_keeps ht (.ofParts (by decide))) ht

/-- A pin that changes leaves the hold of the pins. -/
theorem State.faultScan_hold (s : State) : s.faultScan.fault.hold = s.fault.hold := by
  have hpin : ∀ (u : State) (m : Fin 4), (u.faultPinStep m).fault.hold = u.fault.hold := by
    intro u m
    unfold State.faultPinStep
    extract_lets act was now s1
    split
    · rfl
    · rfl
  unfold State.faultScan
  split
  · rfl
  · exact List.foldlRecOn (motive := fun u : State => u.fault.hold = s.fault.hold) _ _ rfl fun u hu m _ => (hpin u m).trans hu

theorem State.faultFree_hold (s : State) : s.faultFree.fault.hold = false := State.faultScan_hold _

theorem State.evq_prefix_faultFree (s : State) : s.evq <+: s.faultFree.evq := by
  unfold State.faultFree
  refine List.IsPrefix.trans ?_ (State.evq_prefix_faultScan _)
  exact List.prefix_refl _

theorem State.faultFree_keeps_rest (s : State) : Keeps (maskOf [.evq, .fault]) s s.faultFree :=
  State.faultFree_keeps (Keeps.refl _ s) (.ofParts (by decide))

theorem State.trialBegin_keeps_rest (s : State) : Keeps (maskOf [.silt, .firm]) s s.trialBegin :=
  State.trialBegin_keeps (Keeps.refl _ s) (.ofParts (by decide))

theorem State.trialBegin_kenebSlot (s : State) : s.trialBegin.firm.kenebSlot = s.firm.kenebSlot := by
  unfold State.trialBegin
  split
  · rfl
  · rfl

theorem State.chainBoot_keeps_rest (s : State) (head : Bool) : Keeps (maskOf [.evq, .chain]) s (s.chainBoot head) :=
  State.chainBoot_keeps head (Keeps.refl _ s) (.ofParts (by decide))

theorem State.chainBoot_head (s : State) (head : Bool) : (s.chainBoot head).chain.head = head := by
  unfold State.chainBoot
  extract_lets exp s1
  split
  · rfl
  · rfl

theorem State.evq_prefix_chainBoot (s : State) (head : Bool) : s.evq <+: (s.chainBoot head).evq := by
  unfold State.chainBoot
  extract_lets exp s1
  split
  · exact List.prefix_append _ _
  · exact List.prefix_refl _

/-- What the start of the part leaves of an image just loaded, up to the operating state that it asks for. -/
structure State.Readied (s t : State) (head : Bool) : Prop where
  cfg : t.cfg = s.cfg
  ledImg : t.host.ledImg = s.host.ledImg
  kenebSlot : t.firm.kenebSlot = s.firm.kenebSlot
  applied : t.dev.applied = true
  mbReady : t.dev.mbReady = true
  hold : t.fault.hold = false
  head : t.chain.head = head
  log : s.evq <+: t.evq

theorem State.startChecked_readied {s : State} (happlied : s.dev.applied = true) (hmb : s.dev.mbReady = true) (head : Bool) :
    s.Readied (s.startChecked head) head := by
  have hfree := s.faultFree_keeps_rest
  have htrial := s.faultFree.trialBegin_keeps_rest
  have hchain := s.faultFree.trialBegin.chainBoot_keeps_rest head
  have hkeeps : Keeps (maskOf [.evq, .fault, .silt, .firm, .chain]) s (s.startChecked head) :=
    ((hfree.mono (.ofParts (by decide))).trans (htrial.mono (.ofParts (by decide)))).trans (hchain.mono (.ofParts (by decide)))
  have hdev := hkeeps.frame .dev (by decide)
  refine ⟨hkeeps.frame .cfg (by decide), congrArg Hosts.ledImg (hkeeps.frame .host (by decide)), ?kenebSlot,
    (congrArg Dev.applied hdev).trans happlied, (congrArg Dev.mbReady hdev).trans hmb, ?hold, State.chainBoot_head _ head, ?log⟩
  case kenebSlot =>
    calc (s.startChecked head).firm.kenebSlot = s.faultFree.trialBegin.firm.kenebSlot :=
          congrArg Firm.kenebSlot (hchain.frame .firm (by decide))
      _ = s.faultFree.firm.kenebSlot := State.trialBegin_kenebSlot _
      _ = s.firm.kenebSlot := congrArg Firm.kenebSlot (hfree.frame .firm (by decide))
  case hold =>
    calc (s.startChecked head).fault.hold = s.faultFree.trialBegin.fault.hold :=
          congrArg FaultPins.hold (hchain.frame .fault (by decide))
      _ = s.faultFree.fault.hold := congrArg FaultPins.hold (htrial.frame .fault (by decide))
      _ = false := State.faultFree_hold _
  case log =>
    have htrialLog : s.faultFree.trialBegin.evq = s.faultFree.evq := htrial.frame .evq (by decide)
    refine s.evq_prefix_faultFree.trans ?_
    rw [← htrialLog]
    exact State.evq_prefix_chainBoot _ head

/-- The start of the part from an image just loaded, up to the operating state that it asks for. -/
def State.kenebReady (s : State) (tick : Nat) (head : Bool) : State :=
  (s.mailboxesReady tick).unitsBooted.sourceRaised.startChecked head

theorem State.kenebReady_readied (s : State) (tick : Nat) (head : Bool) : s.Readied (s.kenebReady tick head) head := by
  obtain ⟨hcfg, hfirm, hhost, hevq, happlied, hmb⟩ := s.mailboxesReady_rest tick
  have hkeeps : Keeps (maskOf [.die, .bank, .batt, .spate, .therm, .timer, .passed]) (s.mailboxesReady tick)
      (s.mailboxesReady tick).unitsBooted.sourceRaised :=
    ((s.mailboxesReady tick).unitsBooted_keeps_rest.mono (.ofParts (by decide))).trans
      ((s.mailboxesReady tick).unitsBooted.sourceRaised_keeps_rest.mono (.ofParts (by decide)))
  have hdev := hkeeps.frame .dev (by decide)
  have h := State.startChecked_readied ((congrArg Dev.applied hdev).trans happlied) ((congrArg Dev.mbReady hdev).trans hmb) head
  have hlog := (hkeeps.frame .evq (by decide)).trans hevq
  exact { h with
    cfg := h.cfg.trans ((hkeeps.frame .cfg (by decide)).trans hcfg)
    ledImg := h.ledImg.trans (congrArg Hosts.ledImg ((hkeeps.frame .host (by decide)).trans hhost))
    kenebSlot := h.kenebSlot.trans (congrArg Firm.kenebSlot ((hkeeps.frame .firm (by decide)).trans hfirm))
    log := hlog ▸ h.log }

/-- KENEB_IMAGE_APPLY loads the image, starts the part from it and enters the operating state (R504, R505). -/
theorem exec_kenebImageApply_of_due {s : State} (hactive : s.hasActive = true) (happlied : s.dev.applied = false) (head : Bool) :
    exec (.kenebImageApply head) s = .next (s.imgLoad.kenebReady s.clk.tick head).stateBoot := by
  change execKenebImageApply head s = _
  unfold execKenebImageApply
  rw [if_neg (by simp [hactive, happlied])]
  unfold State.kenebReady State.startChecked State.sourceRaised State.unitsBooted State.mailboxesReady
  rfl

/-- A start in RUN leaves all of it, with the command-source signal high at every phase die (R81, R505). -/
theorem State.Readied.runEntry {s t : State} {head : Bool} (h : s.Readied t head) (src : Nat) : s.Readied (t.runEntry src) head ∧
    (t.runEntry src).dev.state = .run ∧ ∀ d : Fin 4, (t.runEntry src).die[d].src = true := by
  have hkeeps := t.runEntry_keeps_rest src
  have hdev : (t.runEntry src).dev = (t.stateTo .run src).runDomains.dev := State.runUp_dev _
  refine ⟨?_, congrArg Dev.state hdev, fun d => State.runUp_src (s := t.stateTo .run src) h.applied d⟩
  exact
    { cfg := (hkeeps.frame .cfg (by decide)).trans h.cfg
      ledImg := (congrArg Hosts.ledImg (hkeeps.frame .host (by decide))).trans h.ledImg
      kenebSlot := (congrArg Firm.kenebSlot (hkeeps.frame .firm (by decide))).trans h.kenebSlot
      applied := (congrArg Dev.applied hdev).trans h.applied
      mbReady := (congrArg Dev.mbReady hdev).trans h.mbReady
      hold := (congrArg FaultPins.hold (hkeeps.frame .fault (by decide))).trans h.hold
      head := (congrArg Chain.head (hkeeps.frame .chain (by decide))).trans h.head
      log := h.log.trans (t.runEntry_evq src) }

/-! The image. -/

/-- Where neither slot holds a good image, the source and the data of the event name both (R504). -/
theorem State.imgChoose_of_none {s : State} (h : s.imgChoose.1 = none) :
    s.imgChoose.2 = some (255, 2 + (s.imgCheck s.host.ledImg).1 * 256) := by
  unfold State.imgChoose at h ⊢
  extract_lets at h ⊢
  split at h
  next => exact absurd h (by simp)
  next hown =>
    rw [if_neg hown]
    split at h
    next => exact absurd h (by simp)
    next hother => rw [if_neg hother]

/-- The defaults in force, with the event (R504). -/
theorem State.imgLoad_of_none {s : State} (h : s.imgChoose.1 = none) : s.imgLoad.cfg = [] ∧ s.imgLoad.firm.kenebSlot = none ∧
    s.imgLoad.evq = s.evq ++ [⟨0x1209, 255, toWord 64 (2 + (s.imgCheck s.host.ledImg).1 * 256 : Nat), s.clk.shelf⟩] := by
  unfold State.imgLoad
  extract_lets c s1
  have hc1 : c.1 = none := h
  have hc2 : c.2 = _ := State.imgChoose_of_none h
  clear_value c
  subst s1
  rw [hc2, hc1]
  exact ⟨rfl, rfl, rfl⟩

/-- The image of a slot in force (R504). -/
theorem State.imgLoad_of_some {s : State} {x : Nat × SMap Int} (h : s.imgChoose.1 = some x) :
    s.imgLoad.cfg = x.2 ∧ s.imgLoad.host.ledImg = x.1 := by
  unfold State.imgLoad
  extract_lets c s1
  have hc1 : c.1 = some x := h
  clear_value c
  subst s1
  rw [hc1]
  split
  · exact ⟨rfl, rfl⟩
  · exact ⟨rfl, rfl⟩

end Sys2Proof.Machine

/-! PROOFS. The reset released (R292, R342, R349, R443, R490, R503): the ledger read or rebuilt, the stems booted, and an episode that begins
at once. -/

namespace Sys2Proof.Machine

/-! The ledger. -/

/-- A ledger rebuilt has no boot item and no thermal items: both stand as they were (R342). -/
theorem State.ledgerLoad_of_none {s : State} (h : s.ledgerPick = none) : s.ledgerLoad.firm = s.firm ∧ s.ledgerLoad.therm = s.therm := by
  have hload : Keeps (maskOf [.bank, .nodes, .silt]) s s.ledgerLoad := by
    unfold State.ledgerLoad
    rw [h]
    exact State.modSilt_keeps _ (State.ledgerRebuild_keeps (Keeps.refl _ _) (.ofParts (by decide))) (.ofParts (by decide))
  exact ⟨hload.frame .firm (by decide), hload.frame .therm (by decide)⟩

theorem State.ledgerLoad_of_some {s : State} {b : Bool} {bs : List Byte} (h : s.ledgerPick = some b)
    (hbs : s.load (ledgerAddr b) 4096 = bs) : s.ledgerLoad = (s.ledgerFrom b bs).modSilt
      (fun x => { x with ledgerDue := false, ledgerAfter := 0, ledgerWarn := false, ledgerAt := s.clk.tick }) := by
  subst hbs
  unfold State.ledgerLoad
  split
  next c hc =>
    rw [h] at hc
    cases hc
    rfl
  next hc =>
    rw [h] at hc
    cases hc

/-- The boot item of a ledger (R341, R503). -/
def Firm.fromLedger (x : Firm) (bs : List Byte) : Firm :=
  { x with
    runSlot := ⟨leAt bs 64 1 % 2, Nat.mod_lt _ (by omega)⟩, trialSlot := if h : leAt bs 65 1 < 2 then some ⟨leAt bs 65 1, h⟩ else none
    trialBoots := leAt bs 66 1, trialStart := leAt bs 68 8 }

/-- It names no image: the slots and the rollback counter stay. -/
theorem Firm.fromLedger_slot (x : Firm) (bs : List Byte) : (x.fromLedger bs).slot = x.slot ∧ (x.fromLedger bs).rollback = x.rollback := by
  rw [Firm.fromLedger]
  exact ⟨rfl, rfl⟩

theorem State.ledgerFrom_firm (s : State) (b : Bool) (bs : List Byte) : (s.ledgerFrom b bs).firm = s.firm.fromLedger bs := by
  have hsilt : ((s.siltFound (leAt bs 4 4) (leAt bs 8 4)).modSilt (fun x => { x with gen := leAt bs 0 4, copyB := b })).firm = s.firm :=
    (State.modSilt_keeps _ (State.siltFound_keeps _ _ (Keeps.refl (maskOf [.silt]) s) (.ofParts (by decide)))
      (.ofParts (by decide))).frame .firm (by decide)
  rw [← hsilt]
  rfl

/-- A die of a ledger whose item names neither a shutdown nor a latch runs (R474). -/
theorem State.ledgerFrom_therm (s : State) (b : Bool) (bs : List Byte) (d : Fin 8) (h : leAt bs (3978 + 12 * d.val) 1 % 4 = 0) :
    (s.ledgerFrom b bs).therm.die[d].st = .run := by
  have hitem : (s.ledgerFrom b bs).therm.die[d] = s.therm.die[d].fromItem (bs.drop (3968 + 12 * d.val)) :=
    tab_at (fun d : Fin 8 => s.therm.die[d].fromItem (bs.drop (3968 + 12 * d.val))) d
  have hflags : leAt (bs.drop (3968 + 12 * d.val)) 10 1 = leAt bs (3978 + 12 * d.val) 1 := by
    rw [leAt, leAt, List.drop_drop, Nat.add_right_comm]
  have hshut : bit (leAt bs (3978 + 12 * d.val) 1) 0 = false := by
    simp only [bit, beq_eq_false_iff_ne]
    omega
  have hlatch : bit (leAt bs (3978 + 12 * d.val) 1) 1 = false := by
    simp only [bit, beq_eq_false_iff_ne]
    omega
  rw [hitem, ThDie.fromItem]
  simp only [hflags, hshut, hlatch, Bool.false_eq_true, if_false]

/-- What a start of the stems needs of a ledger with no slot on trial and no die in shutdown (R341, R474, R503). -/
structure State.LedgerRead (s t : State) (bs : List Byte) : Prop where
  slot : t.firm.slot = s.firm.slot
  rollback : t.firm.rollback = s.firm.rollback
  runSlot : t.firm.runSlot.val = leAt bs 64 1 % 2
  trialSlot : t.firm.trialSlot = none
  bootGen : t.nodes.bootGen = leAt bs 12 2
  ledImg : t.host.ledImg = leAt bs 67 1 % 2
  therm : ∀ d : Fin 8, t.therm.die[d].st = .run

theorem State.ledgerLoad_read {s : State} {b : Bool} {bs : List Byte} (h : s.ledgerPick = some b) (hbs : s.load (ledgerAddr b) 4096 = bs)
    (ht : 2 ≤ leAt bs 65 1) (hrun : ∀ d : Fin 8, leAt bs (3978 + 12 * d.val) 1 % 4 = 0) : s.LedgerRead s.ledgerLoad bs := by
  have hload := State.ledgerLoad_of_some h hbs
  have hfirm : s.ledgerLoad.firm = s.firm.fromLedger bs := by simp only [hload, State.modSilt_rest, State.ledgerFrom_firm]
  have htherm : s.ledgerLoad.therm = (s.ledgerFrom b bs).therm := by simp only [hload, State.modSilt_rest]
  obtain ⟨hslot, hroll⟩ := s.firm.fromLedger_slot bs
  constructor
  case slot => rw [hfirm, hslot]
  case rollback => rw [hfirm, hroll]
  case runSlot => rw [hfirm, Firm.fromLedger]
  case trialSlot =>
    rw [hfirm, Firm.fromLedger]
    exact dif_neg (Nat.not_lt.2 ht)
  case bootGen =>
    rw [hload]
    rfl
  case ledImg =>
    rw [hload]
    rfl
  case therm =>
    intro d
    rw [htherm]
    exact s.ledgerFrom_therm b bs d (hrun d)

/-! What stands when the stems are to start. -/

/-- The domains out of reset (R490). -/
def State.domainsOn (s : State) : State :=
  s.modDev (fun d => { d with held := false, nvOn := true, snsOn := true, coreOn := true, hostOn := true })

theorem State.domainsOn_ledgerPick (s : State) : s.domainsOn.ledgerPick = s.ledgerPick := rfl

theorem State.domainsOn_load (s : State) (a n : Nat) : s.domainsOn.load a n = s.load a n := rfl

/-- The ledger read, with shelf time, the log, retention and the hosts' cursors started from it (R39, R342, R349, R353). -/
def State.nvRead (s : State) : State := s.ledgerLoad.resumeTime.ledgerStart.retentionStart.cursorsStart

theorem exec_devResetRelease_of_held {s : State} (hheld : s.dev.held = true) (hd : s.dev.state ≠ .dormant)
    (hrun : s.domainsOn.nvRead.hotHold.therm.die[(2 : Fin 8)].st = .run) :
    exec .devResetRelease s = .next s.domainsOn.nvRead.hotHold.startStems.brownStart := by
  refine congrArg Host.Outcome.next ((if_neg ?_).trans (congrArg State.brownStart (if_pos hrun)))
  rw [hheld, not_or]
  exact ⟨Bool.noConfusion, hd⟩

theorem exec_devResetRelease_of_on {s : State} (h : s.dev.held = false) : exec .devResetRelease s = .next s :=
  congrArg Host.Outcome.next (if_pos (.inl h))

theorem State.nvRead_keeps_ledger (s : State) : Keeps (maskOf [.clk, .tb, .free, .evq, .host, .power, .spring]) s.ledgerLoad s.nvRead :=
  State.cursorsStart_keeps (State.retentionStart_keeps (State.ledgerStart_keeps (State.resumeTime_keeps (Keeps.refl _ _)
    (.ofParts (by decide))) (.ofParts (by decide))) (.ofParts (by decide))) (.ofParts (by decide))

theorem State.ledgerLoad_keeps_rest (s : State) : Keeps (maskOf [.bank, .nodes, .silt, .host, .therm, .firm]) s s.ledgerLoad :=
  State.ledgerLoad_keeps (Keeps.refl _ s) (.ofParts (by decide))

/-- The cursors of the host ports leave the image of the ledger. -/
theorem State.nvRead_ledImg (s : State) : s.nvRead.host.ledImg = s.ledgerLoad.host.ledImg := by
  have h : Keeps (maskOf [.clk, .tb, .free, .evq, .power, .spring]) s.ledgerLoad s.ledgerLoad.resumeTime.ledgerStart.retentionStart :=
    State.retentionStart_keeps (State.ledgerStart_keeps (State.resumeTime_keeps (Keeps.refl _ _) (.ofParts (by decide)))
      (.ofParts (by decide))) (.ofParts (by decide))
  calc s.nvRead.host.ledImg = s.ledgerLoad.resumeTime.ledgerStart.retentionStart.host.ledImg := rfl
    _ = s.ledgerLoad.host.ledImg := congrArg Hosts.ledImg (h.frame .host (by decide))

/-- Shelf time runs from the start on (R39). -/
theorem State.resumeTime_dlRef (s : State) : s.resumeTime.clk.dlRef = true := by
  unfold State.resumeTime
  split
  next h => exact h
  next => rfl

theorem State.nvRead_dlRef (s : State) : s.nvRead.clk.dlRef = true := by
  have h : Keeps (maskOf [.free, .evq, .host, .power, .spring]) s.ledgerLoad.resumeTime s.nvRead :=
    State.cursorsStart_keeps (State.retentionStart_keeps (State.ledgerStart_keeps (Keeps.refl _ _)
      (.ofParts (by decide))) (.ofParts (by decide))) (.ofParts (by decide))
  exact (congrArg Clock.dlRef (h.frame .clk (by decide))).trans (State.resumeTime_dlRef _)

/-- With every die in RUN no stem is held hot, and DL_HOST stays on (R472, R473). -/
theorem State.hotHold_of_run {s : State} (h : ∀ d : Fin 8, s.therm.die[d].st = .run) :
    Keeps (maskOf [.stems, .die]) s s.hotHold ∧
      ∀ k : Fin 2, s.hotHold.stems.stem[k].hot = false ∧ s.hotHold.stems.stem[k].low = s.stems.stem[k].low := by
  have hscan : Keeps (maskOf [.stems, .die]) s s.hotScan := State.hotScan_keeps (Keeps.refl _ s) (.ofParts (by decide))
  have hdies : Keeps (maskOf [.die]) s.hotScan s.hotHold := by
    unfold State.hotHold
    extract_lets t
    rw [if_pos (h 2)]
    exact Keeps.foldl _ (Keeps.refl _ _) fun _ d hu => .ite hu (State.modDie_keeps _ _ hu (.ofParts (by decide)) fun _ hx => hx)
  have hstems : s.hotHold.stems = s.hotScan.stems := hdies.frame .stems (by decide)
  refine ⟨hscan.trans (hdies.mono (.ofParts (by decide))), ?_⟩
  have hcold : ∀ d : Fin 8, (s.therm.die[d].st != .run) = false := fun d => by rw [h d]; rfl
  rw [hstems]
  unfold State.hotScan
  extract_lets down
  have hdown : ∀ d, down d = false := hcold
  rw [hdown, hdown, hdown]
  refine Fin.forall_fin_two.2 ⟨?_, ?_⟩
  · rw [State.modStem_stem_ne _ (by decide), State.modStem_stem_same]
    exact ⟨rfl, rfl⟩
  · rw [State.modStem_stem_same, State.modStem_stem_ne _ (by decide)]
    exact ⟨rfl, rfl⟩

/-! The stems start. -/

/-- The number of the node generation that follows (R292). -/
def nextBootGen (g : Nat) : Nat := if 65535 ≤ g then 1 else g + 1

theorem nextBootGen_ne_zero (g : Nat) : nextBootGen g ≠ 0 := by
  unfold nextBootGen
  split
  · decide
  · omega

/-- The start of the stems noted before the choice of the image: NODE_BOOT_GEN one up, a ledger write due (R292). -/
def State.bootNumbered (s : State) (tick : Nat) : State := s.bootGenUp.ledgerNeed.modDev (fun d => { d with started := tick })

/-- The records of a start of the stems, up to the node generation (R84, R362, R474, R492, R494). -/
theorem State.startStems_noted (s : State) : ∃ u : State, Keeps (maskOf [.evq, .die, .mram, .silt, .spate, .therm, .spring]) s u ∧
    s.startStems = (u.bootNumbered s.clk.tick).bootChoose.retWrite := by
  unfold State.startStems
  extract_lets x c s1 s2 s3 s4
  refine ⟨s4, ?_, rfl⟩
  have h1 : Keeps (maskOf [.evq, .die, .mram, .silt, .spate, .therm, .spring]) s s1 :=
    .ite (State.modSpring_keeps _ (State.log_keeps _ _ _ (Keeps.refl _ s) (.ofParts (by decide))) (.ofParts (by decide))) (Keeps.refl _ s)
  have h2 : Keeps (maskOf [.evq, .die, .mram, .silt, .spate, .therm, .spring]) s s2 := by
    simp only [s2]
    split
    · exact h1
    · exact State.modSpring_keeps _ (State.logAt_keeps _ _ _ _ h1 (.ofParts (by decide))) (.ofParts (by decide))
  have h3 : Keeps (maskOf [.evq, .die, .mram, .silt, .spate, .therm, .spring]) s s3 := by
    simp only [s3]
    split
    · exact h2
    · exact State.modSpring_keeps _ (State.log_keeps _ _ _ h2 (.ofParts (by decide))) (.ofParts (by decide))
  have hshut := Keeps.foldl (f := State.shutRecord) (fins 8) h3 fun _ d h => State.shutRecord_keeps d h (.ofParts (by decide))
  have hlow := Keeps.foldl (f := State.lowRecord) (fins 4) hshut fun _ d h => State.lowRecord_keeps d h (.ofParts (by decide))
  exact State.spateStart_keeps hlow (.ofParts (by decide))

/-- A stem that neither heat nor its supply holds boots (R443). -/
def Stem.started (x : Stem) : Stem := if x.hot ∨ x.low then x else { x with st := .boot }

theorem Stem.started_st {x : Stem} (hhot : x.hot = false) (hlow : x.low = false) : x.started.st = .boot :=
  congrArg Stem.st (if_neg (by simp [hhot, hlow]))

/-- With no slot on trial and a running slot whose image loads, the stems boot from that slot (R503). -/
theorem State.bootChoose_of_runSlot {s : State} (ht : s.firm.trialSlot = none) (hc : s.slotCause s.firm.runSlot = 0) :
    s.bootChoose.firm.run = s.firm.runSlot ∧ s.bootChoose.firm.runSlot = s.firm.runSlot ∧
      s.bootChoose.stems.stem = s.stems.stem.map Stem.started := by
  have horder : s.bootOrder = ([s.firm.runSlot, 1 - s.firm.runSlot], s) := by
    unfold State.bootOrder
    rw [ht]
  unfold State.bootChoose
  rw [horder]
  have hfind : [s.firm.runSlot, 1 - s.firm.runSlot].find? (fun k => s.slotCause k == 0) = some s.firm.runSlot :=
    List.find?_cons_of_pos (by rw [hc]; rfl)
  have hbad : [s.firm.runSlot, 1 - s.firm.runSlot].takeWhile (fun k => s.slotCause k != 0) = [] :=
    List.takeWhile_cons_of_neg (by rw [hc]; decide)
  dsimp only
  rw [hfind, hbad]
  dsimp only [List.foldl_nil]
  split
  · exact ⟨rfl, rfl, rfl⟩
  · exact ⟨rfl, rfl, rfl⟩

/-- What the choice of the running slot leaves, with spring retention written behind it (R443, R496, R503). -/
structure State.Chosen (s t : State) : Prop where
  run : t.firm.run = s.firm.runSlot
  runSlot : t.firm.runSlot = s.firm.runSlot
  stems : ∀ k : Fin 2, s.stems.stem[k].hot = false → s.stems.stem[k].low = false → t.stemSt k = .boot
  nodes : t.nodes = s.nodes
  dev : t.dev = s.dev
  clk : t.clk = s.clk
  host : t.host = s.host

theorem State.bootChoose_chosen {s : State} (ht : s.firm.trialSlot = none) (hc : s.slotCause s.firm.runSlot = 0) :
    s.Chosen s.bootChoose.retWrite := by
  obtain ⟨hrun, hrunSlot, hstem⟩ := State.bootChoose_of_runSlot ht hc
  have hchoose : Keeps (maskOf [.evq, .silt, .stems, .firm]) s s.bootChoose := State.bootChoose_keeps (Keeps.refl _ s) (.ofParts (by decide))
  have hret := s.bootChoose.retWrite_keeps_rest
  have hfirm := hret.frame .firm (by decide)
  have hstems := hret.frame .stems (by decide)
  refine ⟨(congrArg Firm.run hfirm).trans hrun, (congrArg Firm.runSlot hfirm).trans hrunSlot, fun k hhot hlow => ?_,
    (hret.frame .nodes (by decide)).trans (hchoose.frame .nodes (by decide)), (hret.frame .dev (by decide)).trans (hchoose.frame .dev (by decide)),
    (hret.frame .clk (by decide)).trans (hchoose.frame .clk (by decide)), (hret.frame .host (by decide)).trans (hchoose.frame .host (by decide))⟩
  calc s.bootChoose.retWrite.stems.stem[k].st = s.bootChoose.stems.stem[k].st := congrArg (fun x : Stems => x.stem[k].st) hstems
    _ = (s.stems.stem.map Stem.started)[k].st := by rw [hstem]
    _ = s.stems.stem[k].started.st := congrArg Stem.st (Vector.getElem_map _ k.isLt)
    _ = .boot := Stem.started_st hhot hlow

/-- What a start of the stems leaves, from the slot that runs (R292, R443, R503). -/
structure State.Boots (s t : State) : Prop where
  run : t.firm.run = s.firm.runSlot
  runSlot : t.firm.runSlot = s.firm.runSlot
  bootGen : t.nodes.bootGen = nextBootGen s.nodes.bootGen
  stems : ∀ k : Fin 2, s.stems.stem[k].hot = false → s.stems.stem[k].low = false → t.stemSt k = .boot
  held : t.dev.held = s.dev.held
  hostOn : t.dev.hostOn = s.dev.hostOn
  clk : t.clk = s.clk
  ledImg : t.host.ledImg = s.host.ledImg

theorem State.bootNumbered_boots {s t : State} {tick : Nat} (h : (s.bootNumbered tick).Chosen t) : s.Boots t :=
  have hheld : (s.bootNumbered tick).dev.held = s.dev.held := rfl
  have hhostOn : (s.bootNumbered tick).dev.hostOn = s.dev.hostOn := rfl
  ⟨h.run, h.runSlot, congrArg Nodes.bootGen h.nodes, h.stems, (congrArg Dev.held h.dev).trans hheld,
    (congrArg Dev.hostOn h.dev).trans hhostOn, h.clk, congrArg Hosts.ledImg h.host⟩

/-- As seen from the state before the records of the start. -/
theorem State.Boots.after {s t u : State} (h : u.Boots t) (g : Keeps (maskOf [.evq, .die, .mram, .silt, .spate, .therm, .spring]) s u) :
    s.Boots t := by
  have hfirm := g.frame .firm (by decide)
  have hdev := g.frame .dev (by decide)
  have hstems : u.stems = s.stems := g.frame .stems (by decide)
  exact ⟨h.run.trans (congrArg Firm.runSlot hfirm), h.runSlot.trans (congrArg Firm.runSlot hfirm),
    h.bootGen.trans (congrArg (fun x : Nodes => nextBootGen x.bootGen) (g.frame .nodes (by decide))), hstems ▸ h.stems,
    h.held.trans (congrArg Dev.held hdev), h.hostOn.trans (congrArg Dev.hostOn hdev), h.clk.trans (g.frame .clk (by decide)),
    h.ledImg.trans (congrArg Hosts.ledImg (g.frame .host (by decide)))⟩

theorem State.startStems_boots {s : State} (ht : s.firm.trialSlot = none) (hc : s.slotCause s.firm.runSlot = 0) :
    s.Boots s.startStems := by
  obtain ⟨u, hu, hstart⟩ := s.startStems_noted
  have hfirm : u.firm = s.firm := hu.frame .firm (by decide)
  have hfirm' : (u.bootNumbered s.clk.tick).firm = s.firm := hfirm
  rw [hstart]
  refine (State.bootNumbered_boots (State.bootChoose_chosen ?_ ?_)).after hu
  · rw [hfirm', ht]
  · rw [State.slotCause, hfirm']
    exact hc

/-! An episode that begins at once. -/

theorem State.pairOut_ledImg (s : State) (k : Fin 8) (isNotice : Bool) (bs : List Byte) :
    (s.pairOut k isNotice bs).host.ledImg = s.host.ledImg := by
  unfold State.pairOut
  split
  · rfl
  · rfl

/-- A notice leaves the image of the ledger. -/
theorem State.notice_ledImg (s : State) (k : Fin 8) (op : Nat) (body : List Byte) : (s.notice k op body).1.host.ledImg = s.host.ledImg := by
  unfold State.notice
  extract_lets x key lost bs
  split
  · rfl
  · split
    · rfl
    · exact State.pairOut_ledImg _ _ _ _

theorem State.noticeAll_ledImg (s : State) (sel op : Nat) (body : List Byte) : (s.noticeAll sel op body).host.ledImg = s.host.ledImg := by
  refine List.foldlRecOn (motive := fun t : State => t.host.ledImg = s.host.ledImg) _ _ rfl fun t ht k _ => ?_
  split
  · exact (t.notice_ledImg k op body).trans ht
  · exact ht

theorem State.brownBegin_ledImg (s : State) (i : Fin 10) : (s.brownBegin i).host.ledImg = s.host.ledImg := by
  unfold State.brownBegin
  extract_lets set now s1 s2 s3
  have h2 : Keeps (maskOf [.silt, .bank, .power, .spring]) s s2 :=
    State.modSpring_keeps _ (State.modSilt_keeps _ (State.ledgerNeed_keeps (State.energyCopy_keeps (State.modSilt_keeps _
      (State.modPower_keeps _ (Keeps.refl _ s) (.ofParts (by decide))) (.ofParts (by decide))) (.ofParts (by decide)))
      (.ofParts (by decide))) (.ofParts (by decide))) (.ofParts (by decide))
  have h3 : Keeps (maskOf [.silt, .bank, .power, .spring, .spate]) s s3 :=
    State.headRecord_keeps _ (State.retWrite_keeps (h2.mono (.ofParts (by decide))) (.ofParts (by decide))) (.ofParts (by decide))
  calc (s3.supplyNotice 1).faultScan.host.ledImg
      = (s3.supplyNotice 1).host.ledImg := congrArg Hosts.ledImg ((s3.supplyNotice 1).faultScan_keeps_rest.frame .host (by decide))
    _ = s3.host.ledImg := s3.noticeAll_ledImg _ _ _
    _ = s.host.ledImg := congrArg Hosts.ledImg (h3.frame .host (by decide))

theorem State.brownStart_ledImg (s : State) : s.brownStart.host.ledImg = s.host.ledImg := by
  unfold State.brownStart
  extract_lets low
  clear_value low
  split
  · rfl
  · exact s.brownBegin_ledImg _

theorem State.brownStart_keeps_rest (s : State) :
    Keeps (maskOf [.evq, .fault, .bank, .silt, .spate, .host, .power, .spring, .passed]) s s.brownStart :=
  State.brownStart_keeps (Keeps.refl _ s) (.ofParts (by decide))

theorem State.Boots.brownStart {s t : State} (h : s.Boots t) : s.Boots t.brownStart := by
  have hk := t.brownStart_keeps_rest
  have hfirm := hk.frame .firm (by decide)
  have hdev := hk.frame .dev (by decide)
  have hstems := hk.frame .stems (by decide)
  exact ⟨(congrArg Firm.run hfirm).trans h.run, (congrArg Firm.runSlot hfirm).trans h.runSlot,
    (congrArg Nodes.bootGen (hk.frame .nodes (by decide))).trans h.bootGen,
    fun k hhot hlow => (congrArg (fun x : Stems => x.stem[k].st) hstems).trans (h.stems k hhot hlow),
    (congrArg Dev.held hdev).trans h.held, (congrArg Dev.hostOn hdev).trans h.hostOn, (hk.frame .clk (by decide)).trans h.clk,
    t.brownStart_ledImg.trans h.ledImg⟩

/-! The reset released. -/

/-- What the release leaves where the ledger, as read or rebuilt, shows no slot on trial, a slot that loads and every die in RUN (R490, R503). -/
structure State.Released (s t : State) : Prop where
  held : t.dev.held = false
  hostOn : t.dev.hostOn = true
  dlRef : t.clk.dlRef = true
  run : t.firm.run = s.domainsOn.ledgerLoad.firm.runSlot
  runSlot : t.firm.runSlot = s.domainsOn.ledgerLoad.firm.runSlot
  bootGen : t.nodes.bootGen = nextBootGen s.domainsOn.ledgerLoad.nodes.bootGen
  ledImg : t.host.ledImg = s.domainsOn.ledgerLoad.host.ledImg
  stems : ∀ k : Fin 2, t.stemSt k = .boot

theorem devResetRelease_releases {s : State} (hheld : s.dev.held = true) (hd : s.dev.state ≠ .dormant)
    (ht : s.domainsOn.ledgerLoad.firm.trialSlot = none)
    (hc : s.domainsOn.ledgerLoad.slotCause s.domainsOn.ledgerLoad.firm.runSlot = 0)
    (hrun : ∀ d : Fin 8, s.domainsOn.ledgerLoad.therm.die[d].st = .run) (hlow : ∀ k : Fin 2, s.stems.stem[k].low = false) :
    ∃ t, exec .devResetRelease s = .next t ∧ s.Released t := by
  have hnv := s.domainsOn.nvRead_keeps_ledger
  have hload := s.domainsOn.ledgerLoad_keeps_rest
  have htherm : s.domainsOn.nvRead.therm = s.domainsOn.ledgerLoad.therm := hnv.frame .therm (by decide)
  obtain ⟨hhold, hstem⟩ := State.hotHold_of_run (s := s.domainsOn.nvRead) (by rw [htherm]; exact hrun)
  have hall : Keeps (maskOf [.clk, .tb, .free, .evq, .die, .host, .stems, .power, .spring]) s.domainsOn.ledgerLoad
      s.domainsOn.nvRead.hotHold := (hnv.mono (.ofParts (by decide))).trans (hhold.mono (.ofParts (by decide)))
  have hfirm : s.domainsOn.nvRead.hotHold.firm = s.domainsOn.ledgerLoad.firm := hall.frame .firm (by decide)
  have hdev : s.domainsOn.nvRead.hotHold.dev = s.domainsOn.dev := (hall.frame .dev (by decide)).trans (hload.frame .dev (by decide))
  have hstems : s.domainsOn.nvRead.stems = s.stems := (hnv.frame .stems (by decide)).trans (hload.frame .stems (by decide))
  have hboots := (State.startStems_boots (s := s.domainsOn.nvRead.hotHold) (by rw [hfirm, ht])
    (by rw [State.slotCause, hfirm]; exact hc)).brownStart
  have hdelta : s.domainsOn.nvRead.hotHold.therm.die[(2 : Fin 8)].st = .run :=
    (congrArg (fun x : Therm => x.die[(2 : Fin 8)].st) (hall.frame .therm (by decide))).trans (hrun 2)
  refine ⟨_, exec_devResetRelease_of_held hheld hd hdelta, ?_⟩
  constructor
  case held => exact hboots.held.trans (congrArg Dev.held hdev)
  case hostOn => exact hboots.hostOn.trans (congrArg Dev.hostOn hdev)
  case dlRef => exact (congrArg Clock.dlRef (hboots.clk.trans (hhold.frame .clk (by decide)))).trans (State.nvRead_dlRef _)
  case run => exact hboots.run.trans (congrArg Firm.runSlot hfirm)
  case runSlot => exact hboots.runSlot.trans (congrArg Firm.runSlot hfirm)
  case bootGen => exact hboots.bootGen.trans (congrArg (fun x : Nodes => nextBootGen x.bootGen) (hall.frame .nodes (by decide)))
  case ledImg =>
    exact hboots.ledImg.trans ((congrArg Hosts.ledImg (hhold.frame .host (by decide))).trans (State.nvRead_ledImg _))
  case stems =>
    intro k
    obtain ⟨hhot, hlow'⟩ := hstem k
    exact hboots.stems k hhot (hlow'.trans ((congrArg (fun x : Stems => x.stem[k].low) hstems).trans (hlow k)))

/-- With no ledger in force the release starts from the boot item as it stands (R342, R503). -/
theorem devResetRelease_of_no_ledger {s : State} (hheld : s.dev.held = true) (hd : s.dev.state ≠ .dormant) (hnone : s.ledgerPick = none)
    (ht : s.firm.trialSlot = none) (hc : s.slotCause s.firm.runSlot = 0) (hrun : ∀ d : Fin 8, s.therm.die[d].st = .run)
    (hlow : ∀ k : Fin 2, s.stems.stem[k].low = false) :
    ∃ t, exec .devResetRelease s = .next t ∧ s.Released t ∧ t.firm.run = s.firm.runSlot := by
  obtain ⟨hfirm, htherm⟩ := State.ledgerLoad_of_none (s := s.domainsOn) hnone
  obtain ⟨t, hexec, hrel⟩ := devResetRelease_releases hheld hd (by rw [hfirm]; exact ht)
    (by rw [State.slotCause, hfirm]; exact hc) (by rw [htherm]; exact hrun) hlow
  exact ⟨t, hexec, hrel, hrel.run.trans (congrArg Firm.runSlot hfirm)⟩

/-- Settles O54: each command by its equation; the release by what the ledger gives (`State.Released`), the image by what the rest of the
start leaves of it (`State.Readied`). -/
theorem startsAndChain : Obligations.StartsAndChain := by
  unfold Obligations.StartsAndChain
  refine ⟨?noLedger, ?ledger, ?notHeld, ?defaults, ?image, ?imageIdle, ?auto, ?autoIdle, ?retention, ?trialEarly, ?trial, ?hello, ?linkUp,
    ?linkDown, ?badFrame, ?helloIn⟩
  case noLedger =>
    intro s hheld hd hnone ht hc hrun hlow
    obtain ⟨t, hexec, hrel, hslot⟩ := devResetRelease_of_no_ledger hheld hd hnone ht hc hrun hlow
    exact ⟨t, hexec, hrel.held, hrel.hostOn, hrel.dlRef, hslot, by rw [hrel.bootGen]; exact nextBootGen_ne_zero _, hrel.stems⟩
  case ledger =>
    intro s b k hheld hd hpick
    generalize hbs : s.load (ledgerAddr b) 4096 = bs
    intro hk ht hc hrun hlow
    have hread : s.domainsOn.LedgerRead s.domainsOn.ledgerLoad bs := State.ledgerLoad_read
      (s.domainsOn_ledgerPick.trans hpick) ((s.domainsOn_load _ _).trans hbs) ht hrun
    have hslot : s.domainsOn.ledgerLoad.firm.runSlot = k := Fin.ext (hread.runSlot.trans hk)
    obtain ⟨t, hexec, hrel⟩ := devResetRelease_releases hheld hd hread.trialSlot (by
      rw [hslot, State.slotCause, hread.slot, hread.rollback]
      exact hc) hread.therm hlow
    exact ⟨t, hexec, hrel.held, hrel.run.trans hslot, hrel.runSlot.trans hslot, hrel.bootGen.trans (congrArg nextBootGen hread.bootGen),
      hrel.ledImg.trans hread.ledImg, hrel.stems⟩
  case notHeld => exact fun s h => ⟨s, exec_devResetRelease_of_on h, rfl⟩
  case defaults =>
    intro s head hactive happlied hnone
    obtain ⟨hcfg, hslot, hevq⟩ := State.imgLoad_of_none hnone
    have hready := s.imgLoad.kenebReady_readied s.clk.tick head
    obtain ⟨hrun, hstate, hsrc⟩ := hready.runEntry 255
    have hboot := State.stateBoot_of_run (s := s.imgLoad.kenebReady s.clk.tick head) (by
      rw [State.par, hready.cfg.trans hcfg]
      decide)
    refine ⟨_, (exec_kenebImageApply_of_due hactive happlied head).trans (congrArg Host.Outcome.next hboot), hrun.cfg.trans hcfg,
      hrun.kenebSlot.trans hslot, hrun.applied, hrun.mbReady, hrun.hold, hrun.head, hstate, hsrc, hrun.log.subset ?_⟩
    rw [hevq]
    exact List.mem_append_right _ (List.mem_singleton_self _)
  case image =>
    intro s head x hactive happlied hx
    obtain ⟨hcfg, himg⟩ := State.imgLoad_of_some hx
    have hready := s.imgLoad.kenebReady_readied s.clk.tick head
    obtain ⟨hstate, hdone, hmb⟩ := (s.imgLoad.kenebReady s.clk.tick head).stateBoot_start
    have hkeeps := (s.imgLoad.kenebReady s.clk.tick head).stateBoot_keeps_rest
    have hcfg' := hready.cfg.trans hcfg
    refine ⟨_, exec_kenebImageApply_of_due hactive happlied head, (hkeeps.frame .cfg (by decide)).trans hcfg',
      (congrArg Hosts.ledImg (hkeeps.frame .host (by decide))).trans (hready.ledImg.trans himg), hdone.trans hready.applied,
      hmb.trans hready.mbReady, ?_⟩
    rw [hstate, State.par, hcfg']
  case imageIdle => exact fun s head h => ⟨s, exec_kenebImageApply_of_not_due h head, rfl⟩
  case auto =>
    intro s l hactive hrun hauto hcan hen hstop
    obtain ⟨-, hstate, -⟩ := (s.stamp.noAuto l).startLoop_starts l 0
    have hkeeps := (s.stamp.noAuto l).startLoop_keeps_rest l 0
    refine ⟨_, exec_loopAutostart_of_due hactive hrun hauto hcan hen hstop, hkeeps.frame .ord (by decide), hstate, ?_⟩
    exact (congrArg (fun x : Dev => x.auto[l]) (hkeeps.frame .dev (by decide))).trans (Vector.getElem_set_self l.isLt)
  case autoIdle => exact fun s l h => ⟨s, exec_loopAutostart_of_not_auto h, rfl⟩
  case retention =>
    intro s hheld hd
    obtain ⟨en, pol, hret⟩ := s.retWrite_eq
    obtain ⟨hb, hnew, hother⟩ := s.retPut_spring (s.retNow en pol)
    rw [← hret] at hb hnew hother
    refine ⟨_, exec_retentionWrite_of_on hheld hd, hb, ?_, ?_, ?_, hother⟩
    · rw [hnew]
      rfl
    · rw [hnew]
      rfl
    · rw [hnew]
      rfl
  case trialEarly => exact fun s h => ⟨s, exec_fwTrialConfirm_of_early h, rfl⟩
  case trial =>
    exact fun s k x hactive hk hx hstart hdue => ⟨_, exec_fwTrialConfirm_of_due hactive hk hx hstart hdue, rfl, rfl, rfl, rfl⟩
  case hello =>
    intro s n hactive
    refine ⟨_, exec_peerHelloSend_of_active hactive n, ?_, ?_, State.peerSend_peer_ne _ (stem_other_ne n) _ _, rfl⟩
    · rw [State.peerSend_peer_same]
      rfl
    · rw [State.peerSend_peer_same, Peer.sent_out_take, State.helloBody_length]
  case linkUp =>
    exact fun s n h => ⟨_, exec_peerLinkUp_of_on h n, congrArg Peer.up (s.modPeer_peer_same n _), s.modPeer_peer_other n _⟩
  case linkDown => exact fun s n => ⟨_, rfl, congrArg Peer.up (s.modPeer_peer_same n _), s.modPeer_peer_other n _⟩
  case badFrame => exact fun s n data h => ⟨s, exec_peerFrameReceive_of_bad h s, rfl⟩
  case helloIn =>
    intro s n data hactive hup hlen htype hbytes hcrc
    obtain ⟨hpeer, hord⟩ := s.stamp.helloIn_peersKept n (leAt data 1 1)
    refine ⟨_, exec_peerFrameReceive_of_hello hactive hup hlen htype hbytes hcrc, ?_, hord, ?_⟩
    · exact (congrArg (fun v : Vector Peer 2 => v[n].addr) hpeer).trans (congrArg Peer.addr (s.stamp.modPeer_peer_same n _))
    · exact (congrArg (fun v : Vector Peer 2 => v[1 - n]) hpeer).trans (s.stamp.modPeer_peer_other n _)

end Sys2Proof.Machine

/-! PROOFS. A scope of Weir (R207, R208, R216, R218, R222): what each operation leaves of it and of the others, and its own evaluation. -/

namespace Sys2Proof.Machine

/-! One scope. -/

/-- What an evaluation reads of a scope once it is measured, and leaves of it (R207, R208, R222). -/
def Scope.metered (x : Scope) : Option Nat × Int × Bool × Bool := (x.grant, x.p, x.isOver, x.overrun)

/-- What an evaluation makes of a scope, with its reduction and what layers 1 and 2 take of it (R216). -/
def Scope.settled (x : Scope) : (Option Nat × Int × Bool × Bool) × Option Nat × Nat × Nat × Nat := (x.metered, x.lastEval, x.d, x.y1, x.y2)

/-- What layers 1 and 2 take together is not more than the reduction (R216). -/
def Scope.within (x : Scope) : Prop := x.y1 + x.y2 ≤ x.d / 1000000

theorem Scope.settled_eq_iff {x y : Scope} : x.settled = y.settled ↔
    x.metered = y.metered ∧ x.lastEval = y.lastEval ∧ x.d = y.d ∧ x.y1 = y.y1 ∧ x.y2 = y.y2 := by
  simp only [Scope.settled, Prod.mk.injEq]

theorem Scope.metered_eq_iff {x y : Scope} : x.metered = y.metered ↔
    x.grant = y.grant ∧ x.p = y.p ∧ x.isOver = y.isOver ∧ x.overrun = y.overrun := by
  simp only [Scope.metered, Prod.mk.injEq]

theorem Scope.within_of_settled {x y : Scope} (h : x.settled = y.settled) (hy : y.within) : x.within := by
  obtain ⟨-, -, hd, h1, h2⟩ := Scope.settled_eq_iff.1 h
  rwa [Scope.within, h1, h2, hd]

theorem State.modScope_scope_same (s : State) (k : Fin 36) (f : Scope → Scope) : (s.modScope k f).weir.scope[k] = f s.weir.scope[k] :=
  upd_at _ _ _

theorem State.modScope_scope_ne (s : State) {j k : Fin 36} (h : j ≠ k) (f : Scope → Scope) :
    (s.modScope k f).weir.scope[j] = s.weir.scope[j] := upd_ne _ _ h

/-- Scope `k` reads as it did, and every other scope is as it was. -/
def ScopeReads {α : Type} (v : Scope → α) (k : Fin 36) (s t : State) : Prop :=
  v t.weir.scope[k] = v s.weir.scope[k] ∧ ∀ j : Fin 36, j ≠ k → t.weir.scope[j] = s.weir.scope[j]

section
variable {α : Type} {v : Scope → α} {k : Fin 36} {s t u : State}

theorem ScopeReads.trans (h : ScopeReads v k s t) (g : ScopeReads v k t u) : ScopeReads v k s u :=
  ⟨g.1.trans h.1, fun j hj => (g.2 j hj).trans (h.2 j hj)⟩

theorem ScopeReads.of_scope_eq (h : t.weir.scope = s.weir.scope) : ScopeReads v k s t := by
  constructor
  · rw [h]
  · exact fun j _ => by rw [h]

theorem ScopeReads.refl (s : State) : ScopeReads v k s s := .of_scope_eq rfl

theorem ScopeReads.log {code src : Nat} {data : Int} (h : ScopeReads v k s t) : ScopeReads v k s (t.log code src data) := h

theorem ScopeReads.modScope {f : Scope → Scope} (h : ScopeReads v k s t) (hf : ∀ x, v (f x) = v x) : ScopeReads v k s (t.modScope k f) :=
  h.trans ⟨by rw [State.modScope_scope_same, hf], fun _ hj => t.modScope_scope_ne hj f⟩

theorem ScopeReads.modScope_log {f : Scope → Scope} {code src : Nat} {data : Int} (h : ScopeReads v k s t) (hf : ∀ x, v (f x) = v x) :
    ScopeReads v k s ((t.modScope k f).log code src data) := (h.modScope hf).log

end

theorem ScopeReads.metered {k : Fin 36} {s t : State} (h : ScopeReads Scope.settled k s t) : ScopeReads Scope.metered k s t :=
  ⟨(Scope.settled_eq_iff.1 h.1).1, h.2⟩

theorem State.setReduce_reads (s : State) (k : Fin 36) (d : Nat) : ScopeReads Scope.metered k s (s.setReduce k d) := by
  unfold State.setReduce
  extract_lets x s1
  have h1 : ScopeReads Scope.metered k s s1 := .modScope (.refl s) fun _ => rfl
  split
  · exact .modScope_log h1 fun _ => rfl
  · split
    · exact h1.log
    · exact h1

theorem State.setReduce_d (s : State) (k : Fin 36) (d : Nat) : (s.setReduce k d).weir.scope[k].d = d := by
  unfold State.setReduce
  extract_lets x s1
  have h1 : s1.weir.scope[k].d = d := congrArg Scope.d (s.modScope_scope_same k _)
  split
  · exact (congrArg Scope.d (s1.modScope_scope_same k _)).trans h1
  · split
    · exact h1
    · exact h1

/-- Scope `k` reads as it did when it was measured, layers 1 and 2 share its reduction, and every other scope is as it was. -/
def ScopeShared (k : Fin 36) (s t : State) : Prop := ScopeReads Scope.metered k s t ∧ t.weir.scope[k].within

/-- What leaves a scope settled leaves its reduction shared. -/
theorem ScopeShared.trans {k : Fin 36} {s t u : State} (h : ScopeShared k s t) (g : ScopeReads Scope.settled k t u) : ScopeShared k s u :=
  ⟨h.1.trans g.metered, Scope.within_of_settled g.1 h.2⟩

theorem ScopeReads.layers {k : Fin 36} {s t : State} (h : ScopeReads Scope.metered k s t) (a1 a2 : Nat) :
    ScopeShared k s (t.scopeLayers k a1 a2) := by
  unfold State.scopeLayers
  extract_lets d y1 y2 use
  have huse : ∀ n y u, ScopeReads Scope.settled k u (use n y u) := by
    intro n y u
    unfold use
    split
    · exact .modScope_log (.refl u) fun _ => rfl
    · exact .refl u
  have hshare : ScopeShared k s (t.modScope k fun x => { x with y1 := y1, y2 := y2 }) := by
    refine ⟨.modScope h fun _ => rfl, ?_⟩
    rw [State.modScope_scope_same]
    change y1 + y2 ≤ d
    omega
  exact (hshare.trans (huse 1 y1 _)).trans (huse 2 y2 _)

theorem State.scopeExceed_reads (s : State) (k : Fin 36) (cap : Nat) (full : Bool) :
    ScopeReads Scope.settled k s (s.scopeExceed k cap full) := by
  unfold State.scopeExceed
  extract_lets x resp t s1
  have h1 : ScopeReads Scope.settled k s s1 := .modScope (.refl s) fun _ => rfl
  split
  · split
    · exact .modScope_log h1 fun _ => rfl
    · exact h1
  · exact .modScope (.refl s) fun _ => rfl

/-! The hard limit. -/

theorem State.hardLog_weir (s x : State) (armed : Nat) : (s.hardLog x armed).weir = s.weir :=
  (State.hardLog_keeps x armed (Keeps.refl (maskOf [.evq]) s) (.ofParts (by decide))).frame .weir (by decide)

theorem State.bankSendSet_weir (s : State) : s.bankSendSet.weir = s.weir :=
  (State.bankSendSet_keeps (Keeps.refl (maskOf [.bank, .passed]) s) (.ofParts (by decide))).frame .weir (by decide)

/-- The hard limit that goes leaves the scopes and the shaves (R218). -/
theorem State.hardRemove_weir (s : State) : s.hardRemove.weir.scope = s.weir.scope ∧ s.hardRemove.weir.shave = s.weir.shave ∧
    s.hardRemove.weir.hardArmed = false := by
  unfold State.hardRemove
  extract_lets s1
  split
  · have h1 : s1.weir = s.weir := s.hardLog_weir s 0
    rw [State.bankSendSet_weir, State.modWeir_weir, h1]
    exact ⟨rfl, rfl, rfl⟩
  next h => exact ⟨rfl, rfl, Bool.eq_false_iff.2 h⟩

theorem State.hardSet_scope (s : State) (cap : Nat) : (s.hardSet cap).weir.scope = s.weir.scope := by
  rw [State.hardSet, State.bankSendSet_weir]
  rfl

theorem State.hardTest_reads (s : State) (cap : Nat) (full : Bool) : ScopeReads Scope.settled 0 s (s.hardTest cap full) := by
  unfold State.hardTest
  extract_lets p delay now above below s1 calm s2 s3
  have h1 : ScopeReads Scope.settled 0 s s1 := .of_scope_eq rfl
  have hset : (s1.hardSet cap).weir.scope = s1.weir.scope := s1.hardSet_scope cap
  have hlog : s3.weir = s2.weir := s2.hardLog_weir s2 1
  have h3 : ScopeReads Scope.settled 0 s s3 := h1.trans (.of_scope_eq ((congrArg Weir.scope hlog).trans hset))
  split
  · split
    · exact h1.trans (.of_scope_eq s1.hardRemove_weir.1)
    · split
      · exact h1.trans (.of_scope_eq hset)
      · exact h1
  · split
    · split
      · split
        · exact h3
        · exact .modScope_log h3 fun _ => rfl
      · exact h1
    · exact h1

/-! A scope at an evaluation. -/

/-- What an evaluation of a scope reads besides powers and capacities: the scope, the parameters, the hold-up and the tick. -/
def State.scopeView (s : State) (k : Fin 36) : Scope × SMap Int × Hold × Nat := (s.weir.scope[k], s.cfg, s.hold, s.clk.tick)

theorem State.scopeView_eq_iff {s t : State} {k : Fin 36} : t.scopeView k = s.scopeView k ↔
    t.weir.scope[k] = s.weir.scope[k] ∧ t.cfg = s.cfg ∧ t.hold = s.hold ∧ t.clk.tick = s.clk.tick := by
  simp only [State.scopeView, Prod.mk.injEq]

/-- The parts that an evaluation writes: with the log and Weir, a limit's frames and the set of the Banks. -/
def weirParts : Nat := maskOf [.evq, .bank, .weir, .port, .nodes, .passed]

theorem State.scopeView_of_keeps {s t : State} {k : Fin 36} (h : Keeps weirParts s t) (hscope : t.weir.scope[k] = s.weir.scope[k]) :
    t.scopeView k = s.scopeView k :=
  State.scopeView_eq_iff.2 ⟨hscope, h.frame .cfg (by decide), h.frame .hold (by decide), h.tick⟩

theorem State.scopeOn_congr {s t : State} (h : t.hold = s.hold) (k : Fin 36) : t.scopeOn k = s.scopeOn k := by
  unfold State.scopeOn
  rw [h]

theorem State.capNow_congr {s t : State} {k : Fin 36} (hgrant : t.weir.scope[k].grant = s.weir.scope[k].grant) (hcfg : t.cfg = s.cfg) :
    t.capNow k = s.capNow k := by
  unfold State.capNow State.parN State.par
  rw [hgrant, hcfg]

/-- A power above the cap in force (R216). -/
def State.overCap (s : State) (k : Fin 36) (p : Int) : Bool := match s.capNow k with
  | none => false
  | some c => decide ((c : Int) < p)

/-- A scope as an evaluation of it leaves it (R207, R208, R216, R222). -/
structure State.ScopeEvaluated (s : State) (k : Fin 36) (y : Scope) : Prop where
  lastEval : y.lastEval = some s.clk.tick
  isOver : y.isOver = if s.scopeOn k = true then s.overCap k y.p else s.weir.scope[k].isOver
  within : y.within
  overrun : y.overrun = s.weir.scope[k].overrun
  grant : y.grant = s.weir.scope[k].grant

theorem State.scopeMeasure_scope_ne (s : State) {j k : Fin 36} (h : j ≠ k) (on : Bool) :
    (s.scopeMeasure k on).weir.scope[j] = s.weir.scope[j] := s.modScope_scope_ne h _

/-- A scope measured: OVER follows from its power only where it is in force. -/
theorem State.scopeMeasure_scope_same (s : State) (k : Fin 36) (on : Bool) :
    (s.scopeMeasure k on).weir.scope[k].isOver =
      (if on = true then s.overCap k (s.scopeMeasure k on).weir.scope[k].p else s.weir.scope[k].isOver) ∧
    (s.scopeMeasure k on).weir.scope[k].overrun = s.weir.scope[k].overrun ∧
    (s.scopeMeasure k on).weir.scope[k].grant = s.weir.scope[k].grant := by
  unfold State.scopeMeasure
  extract_lets stale win
  rw [State.modScope_scope_same]
  cases on
  · exact ⟨rfl, rfl, rfl⟩
  · exact ⟨rfl, rfl, rfl⟩

/-- An evaluation of a scope, from the scope as it is measured (R216, R222). -/
theorem State.scopeEval_shared (s : State) (k : Fin 36) : ScopeShared k (s.scopeMeasure k (s.scopeOn k)) (s.scopeEval k) ∧
    (s.scopeEval k).weir.scope[k].lastEval = some s.clk.tick := by
  unfold State.scopeEval
  extract_lets s1 x now dt fall a1 a2 cap s2 s5
  have h2 : ScopeShared k s1 s2 := by
    unfold s2
    generalize cap = o
    split
    next => exact ((s1.setReduce_reads k _).layers a1 a2).trans (.modScope (.refl _) fun _ => rfl)
    next o c =>
      extract_lets t s3 s4 y
      have h3 : ScopeReads Scope.metered k s1 s3 := by
        unfold s3
        split
        · split
          · exact .modScope (s1.setReduce_reads k _) fun _ => rfl
          · split
            · exact s1.setReduce_reads k _
            · exact .refl s1
        · exact .refl s1
      exact (h3.layers a1 a2).trans (s4.scopeExceed_reads k c _)
  have h5 : s5.weir.scope[k] = { s2.weir.scope[k] with lastEval := some now } := s2.modScope_scope_same k _
  have hshared : ScopeShared k s1 s5 := by
    refine ⟨.modScope h2.1 fun _ => rfl, ?_⟩
    rw [h5]
    exact h2.2
  -- Only scope 0 goes on to the hard limit, which leaves what was settled.
  suffices hhard : ∀ t, ScopeReads Scope.settled k s5 t → ScopeShared k s1 t ∧ t.weir.scope[k].lastEval = some now by
    refine hhard _ ?_
    split
    next hk =>
      obtain rfl : k = 0 := Fin.ext hk
      generalize cap = o
      split
      next => exact .of_scope_eq s5.hardRemove_weir.1
      next o c => exact s5.hardTest_reads c _
    next => exact .refl s5
  intro t ht
  refine ⟨hshared.trans ht, (Scope.settled_eq_iff.1 ht.1).2.1.trans ?_⟩
  rw [h5]

/-- It changes no other scope. -/
theorem State.scopeEval_scope_ne (s : State) {j k : Fin 36} (h : j ≠ k) : (s.scopeEval k).weir.scope[j] = s.weir.scope[j] :=
  ((s.scopeEval_shared k).1.1.2 j h).trans (s.scopeMeasure_scope_ne h _)

theorem State.scopeEval_evaluated (s : State) (k : Fin 36) : s.ScopeEvaluated k (s.scopeEval k).weir.scope[k] := by
  obtain ⟨⟨⟨hread, -⟩, hwithin⟩, hlast⟩ := s.scopeEval_shared k
  obtain ⟨hgrant, hp, hover, hoverrun⟩ := Scope.metered_eq_iff.1 hread
  obtain ⟨hover', hoverrun', hgrant'⟩ := s.scopeMeasure_scope_same k (s.scopeOn k)
  exact ⟨hlast, by rw [hover, hp, hover'], hwithin, hoverrun.trans hoverrun', hgrant.trans hgrant'⟩

end Sys2Proof.Machine

/-! PROOFS. Weir (R207, R212 to R217, R222, R302): an evaluation of every scope, Weir turned OFF, and what is sent again to a node. -/

namespace Sys2Proof.Machine

/-! All scopes. -/

/-- Operations that leave the scopes, in turn. -/
theorem foldl_scope_eq {ι : Type} {f : State → ι → State} (h : ∀ u i, (f u i).weir.scope = u.weir.scope) (is : List ι) (s : State) :
    (is.foldl f s).weir.scope = s.weir.scope :=
  List.foldlRecOn (motive := fun t => t.weir.scope = s.weir.scope) is f rfl fun t ht i _ => (h t i).trans ht

theorem State.nodeMeasure_scope (s : State) (a : Nat) : (s.nodeMeasure a).weir.scope = s.weir.scope := by
  unfold State.nodeMeasure
  extract_lets n k l draw resp s1 since
  split
  · rfl
  · split
    · split
      · rfl
      · rfl
    · split
      · rfl
      · rfl

theorem State.shaveStop_scope (s : State) (l : Fin 16) (cause : Nat) : (s.shaveStop l cause).weir.scope = s.weir.scope := by
  unfold State.shaveStop
  extract_lets i
  split
  · rfl
  · rfl

theorem State.shaveCheck_scope (s : State) (l : Fin 16) : (s.shaveCheck l).weir.scope = s.weir.scope := by
  unfold State.shaveCheck
  split
  · rfl
  · split
    · exact s.shaveStop_scope l 2
    · split
      · exact s.shaveStop_scope l 3
      · split
        · exact s.shaveStop_scope l 1
        · split
          · exact s.shaveStop_scope l _
          · rfl

theorem State.setLimit_scope (s : State) (a : Nat) (lim : Option Nat) : (s.setLimit a lim).weir.scope = s.weir.scope := by
  unfold State.setLimit
  extract_lets n lowered s1
  split
  · rfl
  · split
    · rfl
    · have hsend : Keeps (maskOf [.port, .nodes, .passed]) s1 (s1.sendThrottle a lim) :=
        State.sendThrottle_keeps a lim (Keeps.refl _ s1) (.ofParts (by decide))
      have hweir : (s1.sendThrottle a lim).weir = s1.weir := hsend.frame .weir (by decide)
      rw [hweir]
      rfl

theorem State.weirAllocate_scope (s : State) : s.weirAllocate.weir.scope = s.weir.scope := by
  unfold State.weirAllocate
  extract_lets rs s1 share
  refine foldl_scope_eq (fun u a => ?_) s.limitNodes s
  extract_lets lim busy
  split
  · rfl
  · exact u.setLimit_scope a lim

/-- The members' draws and the shaves looked at, before the scopes (R212, R215, R217). -/
def State.weirNoted (s : State) : State := (fins 16).foldl State.shaveCheck (s.weirNodes.foldl State.nodeMeasure s)

theorem State.weirNoted_view (s : State) (k : Fin 36) : s.weirNoted.scopeView k = s.scopeView k := by
  have hnodes : Keeps weirParts s (s.weirNodes.foldl State.nodeMeasure s) :=
    .foldl _ (.refl _ s) fun _ a hu => State.nodeMeasure_keeps a hu (.ofParts (by decide))
  have hshaves : Keeps weirParts s s.weirNoted := .foldl _ hnodes fun _ l hu => State.shaveCheck_keeps l hu (.ofParts (by decide))
  refine State.scopeView_of_keeps hshaves ?_
  rw [State.weirNoted, foldl_scope_eq State.shaveCheck_scope, foldl_scope_eq State.nodeMeasure_scope]

theorem State.ScopeEvaluated.of_view {s t : State} {k : Fin 36} {y : Scope} (h : t.ScopeEvaluated k y) (hview : t.scopeView k = s.scopeView k) :
    s.ScopeEvaluated k y := by
  obtain ⟨hscope, hcfg, hhold, htick⟩ := State.scopeView_eq_iff.1 hview
  obtain ⟨hlast, hover, hwithin, hoverrun, hgrant⟩ := h
  have hcap : t.capNow k = s.capNow k := State.capNow_congr (by rw [hscope]) hcfg
  rw [State.scopeOn_congr hhold, State.overCap, hcap, hscope] at hover
  exact ⟨hlast.trans (congrArg some htick), hover, hwithin, hoverrun.trans (by rw [hscope]), hgrant.trans (by rw [hscope])⟩

/-- Each scope is evaluated once, from what it was (R222). -/
theorem State.scopeEval_foldl (s : State) (k : Fin 36) : s.ScopeEvaluated k ((fins 36).foldl State.scopeEval s).weir.scope[k] := by
  have hother : ∀ (u : State) (i j : Fin 36), i ≠ j → (u.scopeEval j).scopeView i = u.scopeView i := fun u i j h =>
    State.scopeView_of_keeps (State.scopeEval_keeps j (Keeps.refl _ u) (.ofParts (by decide))) (u.scopeEval_scope_ne h)
  obtain ⟨u, hu, hfold⟩ := foldl_reads (sel := State.scopeView) hother (List.nodup_finRange 36) (List.mem_finRange k) s
  obtain ⟨hscope, -, -, -⟩ := State.scopeView_eq_iff.1 hfold
  rw [fins, hscope]
  exact (u.scopeEval_evaluated k).of_view hu

/-- The boundaries skipped since the last evaluation, noted where there are any (R222). -/
def State.skipNoted (s : State) (skipped took : Nat) : State := if skipped = 0 then s else s.weirOverrun skipped took

theorem State.weirOverrun_scope (s : State) (skipped took : Nat) (k : Fin 36) : (s.weirOverrun skipped took).weir.scope[k] =
    if s.scopeOn k = true then { s.weir.scope[k] with overrun := true } else s.weir.scope[k] := tab_at _ k

theorem State.skipNoted_keeps (s : State) (skipped took : Nat) : Keeps weirParts s (s.skipNoted skipped took) :=
  .ite (.refl _ s) (State.weirOverrun_keeps skipped took (.refl _ s) (.ofParts (by decide)))

theorem State.skipNoted_scope (s : State) (skipped took : Nat) (k : Fin 36) : (s.skipNoted skipped took).weir.scope[k] =
    { s.weir.scope[k] with overrun := s.weir.scope[k].overrun || (decide (skipped ≠ 0) && s.scopeOn k) } := by
  unfold State.skipNoted
  by_cases h : skipped = 0
  · simp [h]
  · rw [if_neg h, State.weirOverrun_scope]
    cases s.scopeOn k
    · simp
    · simp [h]

theorem exec_weirEvaluation_of_on {s : State} (hactive : s.hasActive = true) (hon : s.par P.WEIR_ENABLE 0 ≠ 0) (skipped took : Nat) :
    exec (.weirEvaluation skipped took) s =
      .next ((fins 36).foldl State.scopeEval (s.skipNoted skipped took).weirNoted).weirAllocate := by
  change execWeirEvaluation skipped took s = _
  unfold execWeirEvaluation
  rw [if_neg (by simp [hactive]), if_neg hon]
  rfl

theorem exec_weirEvaluation_of_off {s : State} (hoff : s.par P.WEIR_ENABLE 0 = 0) (skipped took : Nat) :
    exec (.weirEvaluation skipped took) s = .next s := by
  change execWeirEvaluation skipped took s = _
  unfold execWeirEvaluation
  rw [if_pos hoff, ite_self]

/-! Weir turned OFF. -/

theorem State.weirOff_ends (s : State) : (∀ l : Fin 16, s.weirOff.weir.shave[l] = 0) ∧ s.weirOff.weir.hardArmed = false ∧
    ∀ k : Fin 36, s.weirOff.weir.scope[k].d = 0 ∧ s.weirOff.weir.scope[k].y1 = 0 ∧ s.weirOff.weir.scope[k].y2 = 0 := by
  unfold State.weirOff
  extract_lets s1
  have hd : ∀ k : Fin 36, s1.weir.scope[k].d = 0 := fun k =>
    foldl_establishes (Q := fun k t => t.weir.scope[k].d = 0) (fun u k => u.setReduce_d k 0)
      (fun u i j hij hu => (congrArg Scope.d ((u.setReduce_reads j 0).2 i hij)).trans hu) (List.mem_finRange k) _
  clear_value s1
  obtain ⟨hscope, hshave, hhard⟩ := State.hardRemove_weir (s1.modWeir fun w => { w with
    shave := Vector.replicate 16 0
    scope := w.scope.map (fun x => { x with y1 := 0, y2 := 0, lastEval := none, overSince := none, settleEnd := 0, avg := [] }) })
  refine ⟨fun l => ?_, hhard, fun k => ?_⟩
  · rw [hshave]
    exact Vector.getElem_replicate l.isLt
  · have hk := Vector.getElem_map (fun x : Scope => { x with y1 := 0, y2 := 0, lastEval := none, overSince := none, settleEnd := 0, avg := [] })
      (xs := s1.weir.scope) k.isLt
    rw [hscope]
    exact ⟨(congrArg Scope.d hk).trans (hd k), congrArg Scope.y1 hk, congrArg Scope.y2 hk⟩

/-! What is sent again. -/

/-- A message of an open session takes its next number (R295). -/
theorem State.nodeSend_node {s : State} {a : Nat} (h : (s.node a).isOpen = true) (op flags : Nat) (body : List Byte) :
    (s.nodeSend a op flags body).node a = { s.node a with txSeq := seqNext (s.node a).txSeq, lastTx := s.clk.tick } := by
  unfold State.nodeSend
  extract_lets n q
  rw [if_pos h]
  have hout : ∀ (t : State) (f : Frame), (t.frameOut a f).nodes = t.nodes := fun t f =>
    (State.frameOut_keeps a f (Keeps.refl (maskOf [.port, .passed]) t) (.ofParts (by decide))).frame .nodes (by decide)
  rw [State.node, hout]
  exact SMap.get_set_same _ _ _ _

/-- It changes the ports and the sessions alone. -/
theorem State.nodeSend_keeps_rest (s : State) (a op flags : Nat) (body : List Byte) :
    Keeps (maskOf [.port, .nodes, .passed]) s (s.nodeSend a op flags body) :=
  State.nodeSend_keeps a op flags body (Keeps.refl _ s) (.ofParts (by decide))

/-- Where the operation of every other index leaves a state with a property that the one of `i` keeps, that one alone acts. -/
theorem foldl_of_single {ι σ : Type} {f : σ → ι → σ} {Q : σ → Prop} {i : ι} (hskip : ∀ u j, Q u → j ≠ i → f u j = u) {s : σ} (hs : Q s)
    (hi : Q (f s i)) {is : List ι} (hn : is.Nodup) (h : i ∈ is) :
    is.foldl f s = f s i := by
  have hrest : ∀ (js : List ι) (u : σ), Q u → i ∉ js → js.foldl f u = u := by
    intro js u hu hjs
    refine List.foldlRecOn (motive := fun t => t = u) js f rfl fun t ht j hj => ?_
    rw [ht]
    exact hskip u j hu (ne_of_mem_of_not_mem hj hjs)
  induction is with
  | nil => simp at h
  | cons j js ih =>
    obtain ⟨hj, hjs⟩ := List.nodup_cons.1 hn
    rcases List.mem_cons.1 h with rfl | hmem
    · exact hrest js _ hi hj
    · rw [List.foldl_cons, hskip s j hs (ne_of_mem_of_not_mem hmem hj).symm]
      exact ih hjs hmem

theorem exec_throttleResend_of_single {s : State} {a lim : Nat} (hactive : s.hasActive = true) (hnodes : s.limitedNodes = [a])
    (hlim : (s.weirNode a).limit = some lim) : exec .throttleResend s = .next (s.sendThrottle a (some lim)) := by
  change execThrottleResend s = _
  unfold execThrottleResend
  rw [if_pos hactive, hnodes, List.foldl_cons, List.foldl_nil, hlim]

theorem State.sendHoldup_of_single {s : State} {a : Nat} {m : Fin 64} (hm : s.membersOf a = [m]) (hused : s.memberUsed m = true) :
    s.sendHoldup a = s.nodeSend a 0x12 0 [if s.share.mbr[m].state = .suspended then 1 else 0, 0, 0, 0] := by
  unfold State.sendHoldup
  rw [hm]
  exact if_pos hused

theorem exec_holdupStateResend_of_single {s : State} {m : Fin 64} (hactive : s.hasActive = true)
    (hused : ∀ j : Fin 64, s.memberUsed j = decide (j = m)) :
    exec .holdupStateResend s = .next (s.sendHoldup (s.parN P.SHARE_MBR_NODE m)) := by
  change execHoldupStateResend s = _
  unfold execHoldupStateResend
  rw [if_pos hactive]
  have hself : s.memberUsed m = true := by rw [hused, decide_eq_true rfl]
  have hother : ∀ (u : State) (j : Fin 64), u.cfg = s.cfg → j ≠ m →
      (if u.memberUsed j = true then u.sendHoldup (u.parN P.SHARE_MBR_NODE j) else u) = u := by
    intro u j hu hj
    have hsame : u.memberUsed j = s.memberUsed j := by
      unfold State.memberUsed State.parN State.par
      rw [hu]
    rw [hsame, hused, decide_eq_false hj, if_neg Bool.false_ne_true]
  refine congrArg Host.Outcome.next ((foldl_of_single hother rfl ?_ (List.nodup_finRange 64) (List.mem_finRange m)).trans (if_pos hself))
  rw [if_pos hself]
  exact (State.sendHoldup_keeps _ (Keeps.refl (maskOf [.port, .nodes, .passed]) s) (.ofParts (by decide))).frame .cfg (by decide)

/-- Settles O31: a scope is read through the parts that an evaluation of another leaves, and each is evaluated once. -/
theorem weirEvaluates : Obligations.WeirEvaluates := by
  unfold Obligations.WeirEvaluates
  refine ⟨?on, ?off, State.weirOff_ends, ?throttle, ?holdup⟩
  case on =>
    intro s skipped took hactive hon
    refine ⟨_, exec_weirEvaluation_of_on hactive hon skipped took, fun k => ?_⟩
    have hkeeps := s.skipNoted_keeps skipped took
    have hscope := s.skipNoted_scope skipped took k
    have heval := ((s.skipNoted skipped took).weirNoted.scopeEval_foldl k).of_view (State.weirNoted_view _ k)
    rw [State.weirAllocate_scope]
    obtain ⟨hlast, hover, hwithin, hoverrun, hgrant⟩ := heval
    have hcap : (s.skipNoted skipped took).capNow k = s.capNow k := State.capNow_congr (by rw [hscope]) (hkeeps.frame .cfg (by decide))
    rw [State.scopeOn_congr (hkeeps.frame .hold (by decide)), State.overCap, hcap, hscope] at hover
    exact ⟨hlast.trans (congrArg some hkeeps.tick), hover, hwithin, hoverrun.trans (by rw [hscope]), hgrant.trans (by rw [hscope])⟩
  case off => exact fun s skipped took _ hoff => ⟨s, exec_weirEvaluation_of_off hoff skipped took, rfl⟩
  case throttle =>
    intro s a lim hactive hnodes hlim hopen
    have hsend := State.nodeSend_node hopen 0x11 0 (leBytes 4 lim)
    exact ⟨_, exec_throttleResend_of_single hactive hnodes hlim, congrArg NodeSess.txSeq hsend, congrArg NodeSess.lastTx hsend,
      (s.nodeSend_keeps_rest a 0x11 0 _).frame .weir (by decide)⟩
  case holdup =>
    intro s m a hactive hused hnode hmembers hopen
    have hresend := exec_holdupStateResend_of_single hactive hused
    rw [hnode, State.sendHoldup_of_single hmembers ((hused m).trans (decide_eq_true rfl))] at hresend
    have hkeeps := s.nodeSend_keeps_rest a 0x12 0 [if s.share.mbr[m].state = .suspended then 1 else 0, 0, 0, 0]
    exact ⟨_, hresend, congrArg NodeSess.txSeq (State.nodeSend_node hopen _ _ _), hkeeps.frame .share (by decide),
      hkeeps.frame .weir (by decide)⟩

end Sys2Proof.Machine

/-! PROOFS. What the operations on one battery string leave (R228 to R246): the count of its interval, the rate it counts at, and the
other strings. -/

namespace Sys2Proof.Machine

/-- Two states of a string with one interval of counting: the charge heard in it, the ticks at which it began, and the rate (R234, R235). -/
structure Batt.SameInterval (x y : Batt) : Prop where
  acc : y.acc = x.acc
  msAt : y.msAt = x.msAt
  sampleAt : y.sampleAt = x.sampleAt
  lowRate : y.fl.lowRate = x.fl.lowRate

theorem Batt.SameInterval.refl (x : Batt) : x.SameInterval x := ⟨rfl, rfl, rfl, rfl⟩

theorem Batt.SameInterval.trans {x y z : Batt} (h : x.SameInterval y) (g : y.SameInterval z) : x.SameInterval z :=
  ⟨g.acc.trans h.acc, g.msAt.trans h.msAt, g.sampleAt.trans h.sampleAt, g.lowRate.trans h.lowRate⟩

/-- The interval of string `b` goes on, and every other string is as it was. -/
structure State.CountsOn (b : Fin 8) (s t : State) : Prop where
  same : s.batt[b].SameInterval t.batt[b]
  others : ∀ c : Fin 8, c ≠ b → t.batt[c] = s.batt[c]

theorem State.modBatt_batt_same (s : State) (b : Fin 8) (f : Batt → Batt) : (s.modBatt b f).batt[b] = f s.batt[b] := upd_at s.batt b f

theorem State.modBatt_batt_ne (s : State) {b c : Fin 8} (f : Batt → Batt) (h : c ≠ b) : (s.modBatt b f).batt[c] = s.batt[c] :=
  upd_ne s.batt f h

namespace State.CountsOn

variable {b : Fin 8} {s t u : State}

theorem of_batt_eq (h : t.batt = s.batt) : CountsOn b s t :=
  ⟨by rw [h]; exact .refl _, fun c _ => by rw [h]⟩

theorem trans (h : CountsOn b s t) (g : CountsOn b t u) : CountsOn b s u :=
  ⟨h.same.trans g.same, fun c hc => (g.others c hc).trans (h.others c hc)⟩

/-- An update of the string, after the rest, that leaves its interval. -/
theorem modBatt (h : CountsOn b s t) {f : Batt → Batt} (hf : ∀ x : Batt, x.SameInterval (f x) := by exact fun _ => ⟨rfl, rfl, rfl, rfl⟩) :
    CountsOn b s (t.modBatt b f) :=
  h.trans ⟨by rw [State.modBatt_batt_same]; exact hf _, fun _ hc => t.modBatt_batt_ne f hc⟩

/-- From an update of the string on. -/
theorem of_updated {f : Batt → Batt} (hb : (f s.batt[b]).SameInterval t.batt[b]) (ho : ∀ c : Fin 8, c ≠ b → t.batt[c] = s.batt[c]) :
    CountsOn b (s.modBatt b f) t :=
  ⟨by rwa [State.modBatt_batt_same], fun c hc => (ho c hc).trans (s.modBatt_batt_ne f hc).symm⟩

/-- A record in the log, after the rest. -/
theorem log (h : CountsOn b s t) (code src : Nat) (data : Int) : CountsOn b s (t.log code src data) := h.trans (of_batt_eq rfl)

theorem ite {p : Prop} [Decidable p] (ht : CountsOn b s t) (hu : CountsOn b s u) : CountsOn b s (if p then t else u) := by
  split
  · exact ht
  · exact hu

theorem battCancel (h : CountsOn b s t) (cause : Nat) : CountsOn b s (t.battCancel b cause) := ite (h.modBatt.log _ _ _) h

theorem battAnchorLog (h : CountsOn b s t) (kind before : Nat) : CountsOn b s (t.battAnchorLog b kind before) := h.log _ _ _

theorem battEstimate (h : CountsOn b s t) : CountsOn b s (t.battEstimate b) := (h.battCancel 5).modBatt.battAnchorLog _ _

theorem battLearned (h : CountsOn b s t) (r : Learned) : CountsOn b s (t.battLearned b r) := h.modBatt

theorem noticeAll (h : CountsOn b s t) (sel op : Nat) (body : List Byte) : CountsOn b s (t.noticeAll sel op body) :=
  h.trans (of_batt_eq ((State.noticeAll_keeps (wm := maskOf [.host, .passed]) sel op body (.refl _ t) (.ofParts (by decide))).frame .batt
    (by decide)))

theorem battLearn (h : CountsOn b s t) : CountsOn b s (t.battLearn b) := by
  unfold State.battLearn
  extract_lets x l c new nom w ok s1 cap s2
  have h1 : CountsOn b s s1 := h.modBatt
  exact ite (((h1.battLearned _).log _ _ _).noticeAll _ _ _) (h1.modBatt.log _ _ _)

theorem battCut (h : CountsOn b s t) (cause : Nat) : CountsOn b s (t.battCut b cause) := ite h (h.modBatt.log _ _ _)

theorem battUncut (h : CountsOn b s t) (cause : Nat) : CountsOn b s (t.battUncut b cause) := ite (h.modBatt.log _ _ _) h

theorem battEmpty (h : CountsOn b s t) : CountsOn b s (t.battEmpty b) := by
  unfold State.battEmpty
  extract_lets before s1 s2
  have h1 : CountsOn b s s1 := h.modBatt.battAnchorLog _ _
  have h2 : CountsOn b s s2 := ite h1.battLearn h1
  exact ite (h2.battCut 2) h2

theorem battCount (h : CountsOn b s t) (ch : Int) : CountsOn b s (t.battCount b ch) := h.modBatt

theorem battFlags (h : CountsOn b s t) : CountsOn b s (t.battFlags b) := ite (h.modBatt.battUncut 3) h.modBatt

theorem battZero (h : CountsOn b s t) (ch q0 : Int) : CountsOn b s (t.battZero b ch q0) :=
  ite h (ite h.battEmpty (ite ((h.modBatt.log _ _ _).battCancel 3) h.modBatt))

theorem battLearnCheck (h : CountsOn b s t) : CountsOn b s (t.battLearnCheck b) :=
  ite (h.battCancel 1) (ite (h.battCancel 2) (ite (h.battCancel 4) h))

theorem battPresence (h : CountsOn b s t) : CountsOn b s (t.battPresence b) :=
  ite h (ite (h.modBatt.log _ _ _).battEstimate (h.modBatt.log _ _ _))

theorem battTimers (h : CountsOn b s t) : CountsOn b s (t.battTimers b) := h.modBatt

theorem battMeasure (h : CountsOn b s t) : CountsOn b s (t.battMeasure b) := h.modBatt

end State.CountsOn

end Sys2Proof.Machine

/-! PROOFS. Battery charge counted and anchored (R227, R228, R234 to R239, R245). -/

namespace Sys2Proof.Machine

/-! The count. -/

/-- A sample ends its interval at the present tick, and leaves the charge heard, the millisecond and the rate (R234, R235). -/
theorem State.battSample_countsOn (s : State) (b : Fin 8) (ch : Int) :
    State.CountsOn b (s.modBatt b fun x => { x with sampleAt := s.clk.tick }) (s.battSample b ch) := by
  unfold State.battSample
  extract_lets dt i s1
  have h1 : State.CountsOn b (s.modBatt b fun x => { x with sampleAt := s.clk.tick }) s1 := by
    refine State.CountsOn.battCount (State.CountsOn.of_updated ?_ fun c hc => s.modBatt_batt_ne _ hc) ch
    rw [State.modBatt_batt_same]
    exact ⟨rfl, rfl, rfl, rfl⟩
  exact h1.battLearnCheck.battFlags.battZero _ _

/-- A string at the end of a millisecond, its rate from then on `rate`; where a sample is due, at the end of the interval too (R234, R235). -/
def Batt.msEnded (x : Batt) (now : Nat) (rate due : Bool) : Batt :=
  { x with acc := 0, msAt := now, sampleAt := if due then now else x.sampleAt, fl := { x.fl with lowRate := rate } }

/-- A sample at the end of a millisecond. -/
theorem State.CountsOn.battSample {b : Fin 8} {s t : State} {rate : Bool}
    (h : State.CountsOn b (s.modBatt b fun x => x.msEnded t.clk.tick rate false) t) (ch : Int) :
    State.CountsOn b (s.modBatt b fun x => x.msEnded t.clk.tick rate true) (t.battSample b ch) := by
  refine State.CountsOn.trans ?_ (t.battSample_countsOn b ch)
  obtain ⟨hsame, hothers⟩ := h
  rw [State.modBatt_batt_same] at hsame
  refine .of_updated ?_ fun c hc => (t.modBatt_batt_ne _ hc).trans ((hothers c hc).trans (s.modBatt_batt_ne _ hc))
  rw [State.modBatt_batt_same]
  exact ⟨hsame.acc, hsame.msAt, rfl, hsame.lowRate⟩

/-- BATT_COUNT_SAMPLE of an enabled string is one stamped input that ends its millisecond; where the millisecond is at or above BATT_I_LOW
a sample is due, and the high rate counts (R234, R235). -/
theorem exec_battCountSample_of_enabled {s : State} {b : Fin 8} (hact : s.hasActive = true) (hen : s.par P.BATT_ENABLE b ≠ 0) :
    ∃ t rate due, exec (.battCountSample b) s = .next t ∧ Keeps (maskOf [.evq, .batt, .host, .stems, .passed]) s.stamp t ∧
      State.CountsOn b (s.modBatt b fun x => x.msEnded s.clk.tick rate due) t ∧
      (s.par P.BATT_I_SRC b = 0 → s.parN P.BATT_I_LOW b * (s.clk.tick - s.batt[b].msAt) * 32 ≤ s.batt[b].acc.natAbs →
        rate = false ∧ due = true) := by
  change ∃ t rate due, execBattCountSample b s = .next t ∧ _
  unfold execBattCountSample
  rw [if_neg (by rw [hact]; exact Bool.noConfusion), if_neg hen]
  extract_lets x dt pt loop ch big edge due whole iBad s1 s2
  have hk1 : Keeps (maskOf [.evq, .batt, .host, .stems, .passed]) s.stamp s1 :=
    State.battMeasure_keeps b (State.modBatt_keeps b _ (.refl _ s.stamp) (.ofParts (by decide))) (.ofParts (by decide))
  have hk2 : Keeps (maskOf [.evq, .batt, .host, .stems, .passed]) s.stamp s2 :=
    .ite (State.battSample_keeps b whole hk1 (.ofParts (by decide))) (State.modBatt_keeps b _ hk1 (.ofParts (by decide)))
  refine ⟨_, if x.fl.lowRate then !big else edge && x.below && !big, due, rfl,
    State.battTimers_keeps b (State.battPresence_keeps b hk2 (.ofParts (by decide))) (.ofParts (by decide)),
    State.CountsOn.battTimers (State.CountsOn.battPresence ?_), fun hsrc hlow => ?_⟩
  · have h1 : State.CountsOn b (s.modBatt b fun y =>
        y.msEnded s1.clk.tick (if x.fl.lowRate then !big else edge && x.below && !big) false) s1 := by
      refine State.CountsOn.battMeasure (.of_updated ?_ fun c hc => s.stamp.modBatt_batt_ne _ hc)
      rw [State.modBatt_batt_same]
      exact ⟨rfl, rfl, rfl, rfl⟩
    unfold s2
    cases due with
    | false => exact h1.modBatt
    | true => exact h1.battSample whole
  · have hbig : big = true := by
      simp only [big, ch, loop, hsrc, beq_self_eq_true, if_true, dt, x, decide_eq_true_eq, hlow]
    refine ⟨?_, by rw [show due = (!x.fl.lowRate || edge || big) from rfl, hbig, Bool.or_true]⟩
    rw [hbig, Bool.not_true, Bool.and_false, ite_self]

theorem exec_battCountSample_of_disabled {s : State} {b : Fin 8} (hact : s.hasActive = true) (hen : s.par P.BATT_ENABLE b = 0) :
    exec (.battCountSample b) s = .next (s.battStart b) :=
  (if_neg (by rw [hact]; exact Bool.noConfusion)).trans (if_pos hen)

/-! The anchors. -/

theorem exec_battRestAnchor_of_not_held {s : State} {b : Fin 8}
    (h : s.par P.BATT_ENABLE b = 0 ∨ s.held s.batt[b].restFrom (s.parN P.BATT_T_REST b * 250000000) = false) :
    exec (.battRestAnchor b) s = .next s :=
  congrArg Host.Outcome.next (if_pos h)

theorem exec_battFullAnchor_of_not_held {s : State} {b : Fin 8}
    (h : s.par P.BATT_ENABLE b = 0 ∨ s.batt[b].fl.full = true ∨ s.held s.batt[b].fullAt (s.parN P.BATT_T_FULL b * 250000000) = false) :
    exec (.battFullAnchor b) s = .next s :=
  congrArg Host.Outcome.next (if_pos h)

theorem State.log_batt (s : State) (code src : Nat) (data : Int) : (s.log code src data).batt = s.batt := rfl

theorem State.battAnchorLog_batt (s : State) (b : Fin 8) (kind before : Nat) : (s.battAnchorLog b kind before).batt = s.batt := rfl

/-- A string anchored at rest on a steep part of its table (R237). -/
def Batt.restAnchored (x : Batt) (now : Nat) (soc : Int) : Batt :=
  { x.setSoc soc with
    restFrom := some now
    fl := { x.fl with resting := true, flat := false, unrested := false, disagree := false, srcBad := false } }

theorem exec_battRestAnchor_of_steep {s : State} {b : Fin 8} (hen : s.par P.BATT_ENABLE b ≠ 0)
    (hheld : s.held s.batt[b].restFrom (s.parN P.BATT_T_REST b * 250000000) = true) (hsteep : (s.ocvLookup b).2 = true) :
    ∃ t, exec (.battRestAnchor b) s = .next t ∧ t.batt[b] = s.batt[b].restAnchored s.clk.tick (s.ocvLookup b).1 := by
  refine ⟨_, congrArg Host.Outcome.next ((if_neg (not_or.2 ⟨hen, ne_false_of_eq_true hheld⟩)).trans (if_pos hsteep)), ?_⟩
  rw [State.battAnchorLog_batt, State.modBatt_batt_same, State.modBatt_batt_same]
  rfl

/-- On a flat part the charge of a string that has rested before stands (R237). -/
theorem exec_battRestAnchor_of_flat {s : State} {b : Fin 8} (hen : s.par P.BATT_ENABLE b ≠ 0)
    (hheld : s.held s.batt[b].restFrom (s.parN P.BATT_T_REST b * 250000000) = true) (hflat : (s.ocvLookup b).2 = false)
    (hrested : s.batt[b].fl.unrested = false) :
    ∃ t, exec (.battRestAnchor b) s = .next t ∧
      t.batt[b] = { s.batt[b] with restFrom := some s.clk.tick, fl := { s.batt[b].fl with resting := true, flat := true } } := by
  refine ⟨_, congrArg Host.Outcome.next ((if_neg (not_or.2 ⟨hen, ne_false_of_eq_true hheld⟩)).trans
    (if_neg (ne_true_of_eq_false hflat))), ?_⟩
  rw [State.battAnchorLog_batt, if_neg (ne_true_of_eq_false hrested), State.modBf, State.modBatt_batt_same, State.modBatt_batt_same]

/-- The full anchor with the temperature within the limits of learning begins an attempt (R238, R245). -/
theorem exec_battFullAnchor_of_learns {s : State} {b : Fin 8} (hen : s.par P.BATT_ENABLE b ≠ 0) (hfull : s.batt[b].fl.full = false)
    (hheld : s.held s.batt[b].fullAt (s.parN P.BATT_T_FULL b * 250000000) = true)
    (ht : s.par P.BATT_LEARN_TMIN b ≤ s.batt[b].t ∧ s.batt[b].t ≤ s.par P.BATT_LEARN_TMAX b) :
    ∃ t, exec (.battFullAnchor b) s = .next t ∧ t.batt[b] = { s.batt[b] with
      q := s.batt[b].cap, qFrac := 0, qDis := 0, qDisFrac := 0
      fl := { s.batt[b].fl with full := true, unrested := false, disagree := false, srcBad := false, learning := true } } := by
  refine ⟨_, congrArg Host.Outcome.next ((if_neg (not_or.2 ⟨hen, not_or.2 ⟨ne_true_of_eq_false hfull, ne_false_of_eq_true hheld⟩⟩)).trans
    (if_pos ht)), ?_⟩
  rw [State.log_batt, State.modBatt_batt_same, State.battAnchorLog_batt, State.modBatt_batt_same]

/-- Settles O27: the count by the interval that the sample's operations leave, each anchor by what it leaves of the string. -/
theorem batteryCounts : Obligations.BatteryCounts := by
  unfold Obligations.BatteryCounts
  refine ⟨?count, ?disabled, ?inactive, ?steep, ?flat, ?notRested, ?full, ?notFull⟩
  case count =>
    intro s b hen hact
    obtain ⟨t, rate, due, ht, hk, ⟨hsame, hothers⟩, hhigh⟩ := exec_battCountSample_of_enabled hact hen
    rw [State.modBatt_batt_same] at hsame
    refine ⟨t, ht, hk.frame .ord (by decide), hsame.acc, hsame.msAt, fun hsrc hlow => ?_,
      fun c hc => (hothers c hc).trans (s.modBatt_batt_ne _ hc)⟩
    obtain ⟨rfl, rfl⟩ := hhigh hsrc hlow
    exact ⟨hsame.lowRate, hsame.sampleAt⟩
  case disabled =>
    exact fun s b hen hact => ⟨_, exec_battCountSample_of_disabled hact hen, rfl, rfl, s.modBatt_batt_same b _,
      fun c hc => s.modBatt_batt_ne _ hc⟩
  case inactive => exact fun s b h => ⟨s, if_pos h, rfl⟩
  case steep =>
    intro s b hen hheld hsteep
    obtain ⟨t, ht, hb⟩ := exec_battRestAnchor_of_steep hen hheld hsteep
    exact ⟨t, ht, by rw [hb]; exact ⟨rfl, rfl, rfl, rfl, rfl, rfl, rfl⟩⟩
  case flat =>
    intro s b hen hheld hflat hrested
    obtain ⟨t, ht, hb⟩ := exec_battRestAnchor_of_flat hen hheld hflat hrested
    exact ⟨t, ht, by rw [hb]; exact ⟨rfl, rfl, rfl⟩⟩
  case notRested => exact fun s b h => ⟨s, exec_battRestAnchor_of_not_held h, rfl⟩
  case full =>
    intro s b hen hfull hheld hmin hmax
    obtain ⟨t, ht, hb⟩ := exec_battFullAnchor_of_learns hen hfull hheld ⟨hmin, hmax⟩
    exact ⟨t, ht, by rw [hb]; exact ⟨rfl, rfl, rfl, rfl, rfl⟩⟩
  case notFull => exact fun s b h => ⟨s, exec_battFullAnchor_of_not_held h, rfl⟩

end Sys2Proof.Machine

/-! PROOFS. A battery string that runs empty, is cut off and goes absent, and its controls (R230, R240, R241, R243 to R245). -/

namespace Sys2Proof.Machine

/-! Empty, cut off, absent. -/

theorem State.held_none (s : State) (n : Nat) : s.held none n = false := rfl

/-- A string not yet cut off: no charge counted in since, the next order number as the instant, and the record of the cause (R243). -/
theorem State.battCut_of_not_cut {s : State} {b : Fin 8} (h : s.batt[b].fl.cutoff = false) (cause : Nat) :
    (s.battCut b cause).batt[b] =
        { s.batt[b] with chgCut := 0, cutOrd := s.ord + 1, fl := { s.batt[b].fl with cutoff := true } } ∧
      (s.battCut b cause).evq = s.evq ++ [⟨0x0909, b.val, toWord 64 (lohi (1 + cause * 256 : Nat) s.batt[b].v), s.clk.shelf⟩] := by
  rw [State.battCut, if_neg (ne_true_of_eq_false h)]
  exact ⟨s.modBatt_batt_same b _, rfl⟩

/-- Cut off, whether it was before or not: the charge stands, and the other flags. -/
theorem State.battCut_fl (s : State) (b : Fin 8) (cause : Nat) :
    (s.battCut b cause).batt[b].q = s.batt[b].q ∧ (s.battCut b cause).batt[b].fl = { s.batt[b].fl with cutoff := true } := by
  cases h : s.batt[b].fl.cutoff with
  | false => exact ⟨by rw [(State.battCut_of_not_cut h cause).1], by rw [(State.battCut_of_not_cut h cause).1]⟩
  | true =>
    rw [State.battCut, if_pos h]
    exact ⟨rfl, by rw [← h]⟩

/-- Voltage empty with no learning attempt: no charge is left, and the action may be the cut-off (R241). -/
theorem State.battEmpty_of_not_learning {s : State} {b : Fin 8} (h : s.batt[b].fl.learning = false) :
    (s.battEmpty b).batt[b].q = 0 ∧ (s.battEmpty b).batt[b].fl.empty = true ∧ (s.battEmpty b).batt[b].fl.disagree = false ∧
      (s.battEmpty b).batt[b].fl.cutoff = (s.batt[b].fl.cutoff || s.par P.BATT_EMPTY_ACTION b == 1) := by
  unfold State.battEmpty
  extract_lets before s1 s2
  have h2 : s2.batt[b] = { s.batt[b] with
      q := 0, qFrac := 0, chgEmpty := 0, fl := { s.batt[b].fl with empty := true, disagree := false, srcBad := false } } := by
    unfold s2
    rw [if_neg (ne_true_of_eq_false h)]
    exact s.modBatt_batt_same b _
  by_cases hact : s.par P.BATT_EMPTY_ACTION b = 1
  · obtain ⟨hq, hfl⟩ := s2.battCut_fl b 2
    rw [if_pos hact, hq, hfl, h2, hact]
    exact ⟨rfl, rfl, rfl, (Bool.or_true _).symm⟩
  · rw [if_neg hact, h2, beq_false_of_ne hact]
    exact ⟨rfl, rfl, rfl, (Bool.or_false _).symm⟩

theorem exec_battVoltageEmpty_of_held {s : State} {b : Fin 8} (hen : s.par P.BATT_ENABLE b = 1) (hempty : s.batt[b].fl.empty = false)
    (hheld : s.held s.batt[b].emptyAt (s.parN P.BATT_EMPTY_FILT b * 250000) = true) :
    exec (.battVoltageEmpty b) s = .next (s.battEmpty b) :=
  congrArg Host.Outcome.next (if_pos ⟨hen, hempty, hheld⟩)

theorem exec_battVoltageEmpty_of_none {s : State} {b : Fin 8} (h : s.batt[b].emptyAt = none) : exec (.battVoltageEmpty b) s = .next s :=
  congrArg Host.Outcome.next (if_neg fun hc => Bool.false_ne_true ((h ▸ State.held_none s _).symm.trans hc.2.2))

theorem exec_battCutoff_of_held {s : State} {b : Fin 8} (hen : s.par P.BATT_ENABLE b = 1)
    (hheld : s.held s.batt[b].cutAt (s.parN P.BATT_CUT_FILT b * 250000) = true) : exec (.battCutoff b) s = .next (s.battCut b 1) :=
  congrArg Host.Outcome.next (if_pos ⟨hen, hheld⟩)

theorem exec_battCutoff_of_none {s : State} {b : Fin 8} (h : s.batt[b].cutAt = none) : exec (.battCutoff b) s = .next s :=
  congrArg Host.Outcome.next (if_neg fun hc => Bool.false_ne_true ((h ▸ State.held_none s _).symm.trans hc.2))

/-- A string without a valid voltage for BATT_V_STALE is absent from the present tick on, with its record (R230). -/
theorem exec_battAbsent_of_held {s : State} {b : Fin 8} (hen : s.par P.BATT_ENABLE b = 1) (hpres : s.batt[b].fl.present = true)
    (hheld : s.held s.batt[b].badAt (s.parN P.BATT_V_STALE b * 250000) = true) :
    ∃ (t : State) (data : Int), exec (.battAbsent b) s = .next t ∧
      t.batt[b] = { s.batt[b] with absentAt := s.clk.tick, fl := { s.batt[b].fl with present := false } } ∧
      t.evq = s.evq ++ [⟨0x0902, b.val, toWord 64 data, s.clk.shelf⟩] :=
  ⟨_, _, congrArg Host.Outcome.next (if_pos ⟨hen, hpres, hheld⟩), s.modBatt_batt_same b _, rfl⟩

/-! The controls. -/

/-- A battery control of a session that may write it: its status, its effect on the strings and its records. -/
theorem State.control_batt {s : State} {k : Fin 8} {ps : List Nat} {f : State → State × Nat} (hmay : s.mayControl k ps = true) :
    (s.control k ps f).host.ctl = (f s).2 ∧ (s.control k ps f).batt = (f s).1.batt ∧ (s.control k ps f).evq = (f s).1.evq := by
  have hk := (f s).1.ctlDone_keeps_rest k ps (f s).2
  rw [State.control_may s k ps f hmay]
  exact ⟨rfl, hk.frame .batt (by decide), hk.frame .evq (by decide)⟩

/-- A cut-off string is released, with the next order number as the instant, and the record of the cause (R244). -/
theorem State.battUncut_of_cut {s : State} {b : Fin 8} (h : s.batt[b].fl.cutoff = true) (cause : Nat) :
    (s.battUncut b cause).batt[b] =
        { s.batt[b] with cutAt := none, uncutOrd := s.ord + 1, fl := { s.batt[b].fl with cutoff := false } } ∧
      (s.battUncut b cause).evq = s.evq ++ [⟨0x0909, b.val, toWord 64 (lohi (cause * 256 : Nat) s.batt[b].v), s.clk.shelf⟩] := by
  rw [State.battUncut, if_pos h]
  exact ⟨s.modBatt_batt_same b _, rfl⟩

/-- No learning attempt runs once it is cancelled; the rest of the string stands (R245). -/
theorem State.battCancel_batt (s : State) (b : Fin 8) (cause : Nat) :
    (s.battCancel b cause).batt[b] = { s.batt[b] with fl := { s.batt[b].fl with learning := false } } := by
  unfold State.battCancel
  split
  next => exact s.modBatt_batt_same b _
  next h => rw [← Bool.eq_false_of_not_eq_true h]

theorem State.battCancel_evq_of_learning {s : State} {b : Fin 8} (h : s.batt[b].fl.learning = true) (cause : Nat) :
    (s.battCancel b cause).evq =
      s.evq ++ [⟨0x0906, b.val, toWord 64 (lohi cause (s.batt[b].qDis / 3600 : Nat)), s.clk.shelf⟩] := by
  rw [State.battCancel, if_pos h]
  rfl

/-- The charge estimated from the looked-up state of charge, unrested; no learning attempt runs (R240). -/
theorem State.battEstimate_batt (s : State) (b : Fin 8) :
    (s.battEstimate b).batt[b] = { s.batt[b].setSoc (s.ocvLookup b).1 with
      fl := { s.batt[b].fl with unrested := true, full := false, empty := false, disagree := false, srcBad := false, learning := false } } := by
  rw [State.battEstimate, State.battAnchorLog_batt, State.modBatt_batt_same, State.battCancel_batt]
  rfl

/-- Settles O28: each event by its condition held, each control by its own effect on the string. -/
theorem batteryEmptyCutAbsent : Obligations.BatteryEmptyCutAbsent := by
  unfold Obligations.BatteryEmptyCutAbsent
  refine ⟨?empty, ?cut, ?absent, ?notCut, ?notEmpty, ?clear, ?cancel, ?reestimate⟩
  case empty =>
    intro s b hen hempty hheld hlearn
    exact ⟨_, exec_battVoltageEmpty_of_held hen hempty hheld, State.battEmpty_of_not_learning hlearn⟩
  case cut => exact fun s b hen hcut hheld => ⟨_, exec_battCutoff_of_held hen hheld, State.battCut_of_not_cut hcut 1⟩
  case absent =>
    intro s b hen hpres hheld
    obtain ⟨t, data, ht, hb, hlog⟩ := exec_battAbsent_of_held hen hpres hheld
    refine ⟨t, ht, by rw [hb], by rw [hb], by rw [hb], ?_⟩
    rw [hlog, List.drop_left]
    rfl
  case notCut => exact fun s b h => ⟨s, exec_battCutoff_of_none h, rfl⟩
  case notEmpty => exact fun s b h => ⟨s, exec_battVoltageEmpty_of_none h, rfl⟩
  case clear =>
    intro s b k hmay hcut
    obtain ⟨hctl, hbatt, hevq⟩ := State.control_batt (f := fun t => t.battClearCutoff b) hmay
    obtain ⟨hb, hlog⟩ := State.battUncut_of_cut hcut 4
    have hstring := (congrArg (·[b]) hbatt).trans hb
    exact ⟨_, rfl, hctl, by rw [hstring], by rw [hstring], hevq.trans hlog⟩
  case cancel =>
    intro s b k hmay hlearn
    obtain ⟨hctl, hbatt, hevq⟩ := State.control_batt (f := fun t => t.battCancelLearn b) hmay
    have hstring := (congrArg (·[b]) hbatt).trans (s.battCancel_batt b 6)
    exact ⟨_, rfl, hctl, congrArg (·.fl.learning) hstring, hevq.trans (State.battCancel_evq_of_learning hlearn 6)⟩
  case reestimate =>
    intro s b k hmay
    obtain ⟨hctl, hbatt, -⟩ := State.control_batt (f := fun t => t.battReestimate b) hmay
    have hstring := (congrArg (·[b]) hbatt).trans (s.battEstimate_batt b)
    exact ⟨_, rfl, hctl, congrArg Batt.q hstring, congrArg (·.fl.unrested) hstring, congrArg (·.fl.full) hstring,
      congrArg (·.fl.empty) hstring, congrArg (·.fl.learning) hstring⟩

end Sys2Proof.Machine

/-! PROOFS. An accepted request that is answered at once (R394, R395, R413), and a read of one kept parameter (R422): what the reply carries,
also for a value in force beyond the parameter's type. -/

namespace Sys2Proof.Machine

/-! The reply of an accepted request. -/

/-- The newest reply is the last one stored (R395). -/
theorem Sess.keep_getLast? (x : Sess) (seq : Nat) (bs : List Byte) : (x.keep seq bs).getLast? = some (seq, bs) := by
  unfold Sess.keep
  extract_lets l
  rw [List.getLast?_drop, if_neg (by simp [l]), List.getLast?_concat]

theorem State.pairOut_sess (s : State) (k : Fin 8) (isNotice : Bool) (bs : List Byte) :
    (s.pairOut k isNotice bs).host.sess = s.host.sess := by
  unfold State.pairOut
  split
  · rfl
  · rfl

theorem State.modSess_sess_same (s : State) (k : Fin 8) (f : Sess → Sess) : (s.modSess k f).sess k = f (s.sess k) := upd_at s.host.sess k f

/-- The reply is stored with the session's next sequence number, and its tag where the request or the session asks for one (R395, R412, R413). -/
theorem State.reply_stored (s : State) (k : Fin 8) (op seq status : Nat) (tagged : Bool) (body : List Byte) :
    ((s.reply k op seq status tagged body).sess k).stored.getLast? = some (seq, hostMsg op 1 status (s.sess k).epoch (s.sess k).nextSeq seq
      body (if tagged ∨ (s.sess k).macEvery then some (s.sess k).tagKey else none)) := by
  unfold State.reply
  extract_lets x key bs
  rw [State.sess, State.pairOut_sess]
  rw [show (s.modSess k _).host.sess[k] = _ from s.modSess_sess_same k _]
  exact Sess.keep_getLast? _ _ _

theorem State.useRenew_sess (s : State) (is : List Nat) : (s.useRenew is).host.sess = s.host.sess := by
  refine List.foldlRecOn (motive := fun t : State => t.host.sess = s.host.sess) is _ rfl fun t ht i _ => ?_
  unfold State.renewPermit
  extract_lets p
  split
  · exact ht
  · exact ht

/-- The session of an accepted request, as far as a reply shows it, is the one before (R394). -/
theorem State.taken_sess (s : State) (q : Req) :
    ((s.taken q).sess q.sess).epoch = (s.sess q.sess).epoch ∧ ((s.taken q).sess q.sess).nextSeq = (s.sess q.sess).nextSeq ∧
      ((s.taken q).sess q.sess).macEvery = (s.sess q.sess).macEvery ∧ ((s.taken q).sess q.sess).tagKey = (s.sess q.sess).tagKey := by
  unfold State.taken
  rw [State.modSess_sess_same]
  exact ⟨rfl, rfl, rfl, rfl⟩

/-- An accepted request that changes nothing, is answered OK and has nothing follow its reply. -/
theorem State.request_of_read {s : State} {op : Nat} {q : Req} {b body : List Byte} (h : s.accepted op q b = true) (h1 : op ≠ 1) (h2 : op ≠ 2)
    (hread : (s.taken q).handle q.sess op q b = (s.taken q, some (stOk, body)))
    (hafter : ∀ u : State, u.after q.sess op b = u) :
    s.request op q b = ((s.taken q).useRenew ((s.taken q).opPermits q.sess op b)).reply q.sess op q.seq stOk (bit q.flags 2) body := by
  rw [s.request_accepted op q b h h1 h2]
  unfold State.perform
  rw [s.opCheck_taken op q b h, hread]
  exact hafter _

/-- The reply of a state with the sessions of an accepted request answers it. -/
theorem State.answered_of_reply {s u : State} {q : Req} (hu : u.host.sess = (s.taken q).host.sess) (op st : Nat) (body : List Byte) :
    s.answered (u.reply q.sess op q.seq st (bit q.flags 2) body) op q st body := by
  have hsess : u.sess q.sess = (s.taken q).sess q.sess := congrArg (·[q.sess]) hu
  obtain ⟨hepoch, hseq, hmac, hkey⟩ := s.taken_sess q
  rw [State.answered, State.reply_stored, hsess, hepoch, hseq, hmac, hkey]

/-! A read of one parameter. -/

/-- A kept parameter reads as the value in force, held to its type (R422; a value beyond the type: the model's choice). -/
theorem State.readParam_of_kept (s : State) {p : Prm} (hk : p.keeps = .K) (hw : p.wo = false) (i : Nat) :
    s.readParam p i = p.ty.clamp (s.par p i) := by
  rw [State.readParam, State.readValue, if_neg (ne_true_of_eq_false hw), if_pos hk]

/-- A read of one parameter other than TIMER_CAP changes nothing. -/
theorem State.paramRead_of_one (s : State) (k : Fin 8) {b : List Byte} {p : Prm} (hn : leAt b 0 2 = 1) (hp : findParam (leAt b 4 2) = some p)
    (hi : p.instOk (leAt b 6 2) = true) (hid : p.id ≠ 0x5843) :
    s.paramRead k b =
      (s, some (stOk, leBytes 2 1 ++ leBytes 2 0 ++ entryBytes p (leAt b 6 2) (s.readParam p (leAt b 6 2)))) := by
  have hby : s.readBy k p (leAt b 6 2) = (s.readParam p (leAt b 6 2), s) := if_neg fun h => hid h.1
  unfold State.paramRead
  rw [hn]
  simp [List.range_succ, hp, hi, hby]

/-- PARAM_READ of one kept parameter: the parameters stand, and the reply carries the value in force held to its type. -/
theorem exec_paramRead_of_kept {s : State} {q : Req} {b : List Byte} {p : Prm} (h : s.accepted 0x0201 q b = true) (hn : leAt b 0 2 = 1)
    (hp : findParam (leAt b 4 2) = some p) (hi : p.instOk (leAt b 6 2) = true) (hk : p.keeps = .K) (hw : p.wo = false) (hid : p.id ≠ 0x5843) :
    ∃ t, exec (.paramRead q b) s = .next t ∧
      s.answered t 0x0201 q stOk (leBytes 2 1 ++ leBytes 2 0 ++ entryBytes p (leAt b 6 2) (p.ty.clamp (s.par p (leAt b 6 2)))) := by
  have hread := (s.taken q).paramRead_of_one q.sess hn hp hi hid
  rw [State.readParam_of_kept _ hk hw] at hread
  exact ⟨_, congrArg Host.Outcome.next (State.request_of_read h (by decide) (by decide) hread fun _ => rfl),
    State.answered_of_reply ((s.taken q).useRenew_sess _) _ _ _⟩

/-! A value beyond its type. -/

/-- A message carries its body behind a header of 24 bytes (R411). -/
theorem hostMsg_body (op flags status epoch seq reqSeq : Nat) (body : List Byte) (key : Option (List Byte)) :
    ((hostMsg op flags status epoch seq reqSeq body key).drop 24).take body.length = body := by
  obtain ⟨header, rest, hmsg, hheader⟩ : ∃ header rest : List Byte,
      hostMsg op flags status epoch seq reqSeq body key = header ++ (body ++ rest) ∧ header.length = 24 := by
    unfold hostMsg
    extract_lets len m t
    cases key with
    | none => exact ⟨_, _, List.append_assoc _ _ _, rfl⟩
    | some k => exact ⟨_, _, (List.append_assoc m _ _).trans (List.append_assoc _ body _), rfl⟩
  rw [hmsg, List.drop_left' hheader, List.take_left]

/-- Messages with one header and bodies of one length are the same only with the same body. -/
theorem hostMsg_body_inj {op flags status epoch seq reqSeq : Nat} {body other : List Byte} {key : Option (List Byte)}
    (hlen : body.length = other.length)
    (h : hostMsg op flags status epoch seq reqSeq body key = hostMsg op flags status epoch seq reqSeq other key) : body = other := by
  rw [← hostMsg_body op flags status epoch seq reqSeq body key, h, hlen, hostMsg_body]

/-- Requests are taken, session 0 is open with epoch 9, and the value in force of DEV_PTP_DOMAIN, a parameter of 8 bits, is 256. -/
def domainBeyondType : State :=
  { State.reset.setPar P.DEV_PTP_DOMAIN 0 256 with
    stems := { State.reset.stems with stem := upd State.reset.stems.stem 0 (fun x => { x with st := .active }) }
    dev := { State.reset.dev with held := false, hostOn := true, mbReady := true }
    host := { State.reset.host with sess := upd State.reset.host.sess 0 (fun x => { x with state := .isOpen, epoch := 9 }) } }

/-- A request of session 0, its sequence number 5, with no permit named and no tag. -/
def readRequest : Req := ⟨0, 9, 5, 0, 0, [], []⟩

/-- The body of a read of DEV_PTP_DOMAIN. -/
def domainRead : List Byte := leBytes 2 1 ++ leBytes 2 0 ++ leBytes 2 P.DEV_PTP_DOMAIN.id ++ leBytes 2 0

/-- Refutes O49: the clause on PARAM_READ wants the value in force as it stands for every state, also for one where it is beyond the
parameter's type; the reply carries the nearest value of the type, 255 for 256. -/
theorem not_dataRequests : ¬ Obligations.DataRequests := by
  unfold Obligations.DataRequests
  rintro ⟨hclause, -⟩
  have hacc : domainBeyondType.accepted 0x0201 readRequest domainRead = true := by decide
  have hfind : findParam (leAt domainRead 4 2) = some P.DEV_PTP_DOMAIN := by decide
  obtain ⟨t, ht, -, hwanted⟩ := hclause domainBeyondType readRequest domainRead P.DEV_PTP_DOMAIN hacc rfl hfind rfl rfl rfl (by decide)
  obtain ⟨u, hu, hreply⟩ := exec_paramRead_of_kept hacc rfl hfind rfl rfl rfl (by decide)
  obtain rfl := Host.Outcome.next.inj (hu.symm.trans ht)
  have hbody := hostMsg_body_inj (by simp only [List.length_append, entryBytes, PTy.write, leBytes_length])
    (Prod.mk.inj (Option.some.inj (hreply.symm.trans hwanted))).2
  exact absurd hbody (by decide)

end Sys2Proof.Machine

/-! PROOFS. What an operation on one field port leaves (R263, R268 to R275): the port itself, the others, and the links of its nodes. -/

namespace Sys2Proof.Machine

theorem State.modPort_port_same (s : State) (p : Fin 64) (f : Port → Port) : (s.modPort p f).port[p] = f s.port[p] := upd_at _ _ _

theorem State.modPort_port_other (s : State) {p q : Fin 64} (f : Port → Port) (h : q ≠ p) : (s.modPort p f).port[q] = s.port[q] :=
  upd_ne _ _ h

theorem State.linkScan_keeps_rest (s : State) (p : Fin 64) : Keeps (maskOf [.evq, .nodes]) s (s.linkScan p) :=
  State.linkScan_keeps p (Keeps.refl _ s) (.ofParts (by decide))

@[simp] theorem State.linkScan_port (s : State) (p : Fin 64) : (s.linkScan p).port = s.port :=
  (s.linkScan_keeps_rest p).frame .port (by decide)

/-- The links of a port's nodes are kept with their conversations, apart from the frames that wait for Onolael. -/
@[simp] theorem State.linkScan_inbox (s : State) (p : Fin 64) : (s.linkScan p).nodes.inbox = s.nodes.inbox := by
  unfold State.linkScan
  refine List.foldlRecOn (motive := fun t : State => t.nodes.inbox = s.nodes.inbox) _ _ rfl fun t ht k _ => ?_
  dsimp only
  split
  · exact ht
  · exact ht

/-- What a grant writes of its port is the count granted (R270). -/
theorem State.regrant_port_same (s : State) (p : Fin 64) : ∃ g, (s.regrant p).port[p] = { s.port[p] with grantTo := g } := by
  unfold State.regrant
  rw [State.modPort_port_same]
  split
  · exact ⟨_, rfl⟩
  · exact ⟨_, rfl⟩

/-- What a discard writes of its port are the counts, before it grants anew (R268, R270). -/
theorem State.rxDiscard_port_same (s : State) (p : Fin 64) (f : PortCount → PortCount) :
    ∃ g, (s.rxDiscard p f).port[p] = { s.port[p] with cnt := f s.port[p].cnt, grantTo := g } := by
  obtain ⟨g, hg⟩ := ((s.modCnt p f).rxError p).regrant_port_same p
  have hcnt : ((s.modCnt p f).rxError p).port[p] = { s.port[p] with cnt := f s.port[p].cnt } := s.modPort_port_same p _
  exact ⟨g, by rw [State.rxDiscard, hg, hcnt]⟩

theorem State.rxDiscard_cnt (s : State) (p : Fin 64) (f : PortCount → PortCount) :
    (s.rxDiscard p f).port[p].cnt = f s.port[p].cnt := by
  obtain ⟨g, hg⟩ := s.rxDiscard_port_same p f
  rw [hg]

theorem State.rxDiscard_rx (s : State) (p : Fin 64) (f : PortCount → PortCount) : (s.rxDiscard p f).port[p].rx = s.port[p].rx := by
  obtain ⟨g, hg⟩ := s.rxDiscard_port_same p f
  rw [hg]

theorem State.rxDiscard_started (s : State) (p : Fin 64) (f : PortCount → PortCount) :
    (s.rxDiscard p f).port[p].started = s.port[p].started := by
  obtain ⟨g, hg⟩ := s.rxDiscard_port_same p f
  rw [hg]

end Sys2Proof.Machine

/-! PROOFS. The training of a field port (R272): a stalled transmission whose frames do not all stand in the transmit queue. -/

namespace Sys2Proof.Machine

/-- A stalled transmission flushes the frames that stand in the transmit queue; those behind it stay (R269, R272). -/
theorem exec_portTxStall_of_held {s : State} {p : Fin 64} (hup : s.port[p].state = .up)
    (hheld : s.held s.port[p].stallAt (s.parN P.PORT_TX_STALL p * 250) = true) :
    ∃ t, exec (.portTxStall p) s = .next t ∧ t.port[p].tx = s.port[p].tx.drop s.port[p].txQueue.length :=
  ⟨_, congrArg Host.Outcome.next (if_pos ⟨hup, hheld⟩), congrArg Port.tx (s.modPort_port_same p _)⟩

/-- A MSG frame of the longest payload, 576 bytes (R264). -/
def longFrame : Frame := ⟨1, 1, false, false, 0, 0, List.replicate 576 0⟩

theorem longFrame_size : longFrame.size = 147 := by
  rw [Frame.size, longFrame, List.length_replicate]
  rfl

/-- Port 0 is UP, its partner grants nothing, and a frame has waited since tick 0, beyond PORT_TX_STALL; 14 frames of 147 entries each
are one more than the transmit queue of 2,048 entries holds. -/
def stalledBeyondQueue : State :=
  { State.reset.modPort 0 (fun x => { x with state := .up, stallAt := some 0, tx := List.replicate 14 longFrame }) with
    clk := { State.reset.clk with tick := 10000 * 250 } }

theorem stalledBeyondQueue_tx : stalledBeyondQueue.port[(0 : Fin 64)].tx = List.replicate 14 longFrame :=
  congrArg Port.tx (State.reset.modPort_port_same 0 _)

theorem txFits_longFrames : (txFits 2048 (List.replicate 14 longFrame)).length = 13 := by
  simp [List.replicate_succ, txFits, longFrame_size]

/-- Refutes O32: the clause on PORT_TX_STALL wants no frame left waiting, also where more frames wait than the transmit queue holds; those
behind the queue stay, here the 14th. -/
theorem not_portTrains : ¬ Obligations.PortTrains := by
  unfold Obligations.PortTrains
  rintro ⟨-, -, -, -, -, -, -, -, -, -, -, -, hstall, -⟩
  have hup : stalledBeyondQueue.port[(0 : Fin 64)].state = .up := by decide
  have hheld : stalledBeyondQueue.held stalledBeyondQueue.port[(0 : Fin 64)].stallAt
      (stalledBeyondQueue.parN P.PORT_TX_STALL (0 : Fin 64) * 250) = true := by decide
  obtain ⟨t, ht, hempty, -⟩ := hstall stalledBeyondQueue 0 hup hheld
  obtain ⟨u, hu, htx⟩ := exec_portTxStall_of_held hup hheld
  obtain rfl := Host.Outcome.next.inj (hu.symm.trans ht)
  have hlen := congrArg List.length (htx.symm.trans hempty)
  rw [Port.txQueue, stalledBeyondQueue_tx, List.length_drop, txFits_longFrames] at hlen
  exact absurd hlen (by simp)

end Sys2Proof.Machine

/-! PROOFS. Frames received on a Rill port, and credit (R264 to R272). -/

namespace Sys2Proof.Machine

/-! A frame received. -/

/-- The port of a frame received: the data characters before it are counted, and it uses one credit (R268, R270). -/
def State.rxStarted (s : State) (p : Fin 64) (noise : Nat) : State :=
  (s.modCnt p (fun c => { c with noise := satAdd 32 c.noise noise })).modPort p (fun x => { x with started := (x.started + 1) % 256 })

theorem State.rxStarted_port_same (s : State) (p : Fin 64) (noise : Nat) :
    (s.rxStarted p noise).port[p] = { s.port[p] with
      started := (s.port[p].started + 1) % 256
      cnt := { s.port[p].cnt with noise := satAdd 32 s.port[p].cnt.noise noise } } := by
  rw [State.rxStarted, State.modPort_port_same, State.modCnt, State.modPort_port_same]

/-- A frame on a port that is UP with credit, ending in EOF at its length. -/
theorem exec_rillFrameReceive_of_whole {s : State} {p : Fin 64} {data : List Byte} (hup : s.port[p].state = .up)
    (hcredit : s.port[p].credit ≠ 0) (hlen : data.length = 16 + leAt data 2 2) (hmax : leAt data 2 2 ≤ 576) (noise age : Nat) :
    exec (.rillFrameReceive p data .eof noise age) s = .next (
      if crc32c (data.take (12 + leAt data 2 2)) ≠ leAt data (12 + leAt data 2 2) 4 then
        (s.rxStarted p noise).rxDiscard p (fun c => { c with crcErr := bump c.crcErr, newCrc := c.newCrc + 1 })
      else if 2 < leAt data 0 1 % 16 ∨ (leAt data 0 1 % 16 = 0 ∧ leAt data 2 2 % 9 ≠ 0) then (s.rxStarted p noise).rxDiscard p PortCount.bad
      else (s.rxStarted p noise).rxComplete p (Frame.parse data ((data.drop 12).take (leAt data 2 2))) (s.clk.shelf - age / 4 * 4)) := by
  refine congrArg Host.Outcome.next ((if_neg (not_not_intro hup)).trans ((if_neg hcredit).trans (if_neg ?_)))
  rw [not_or, not_not, not_lt]
  exact ⟨hlen, hmax⟩

theorem exec_rillFrameReceive_of_badCrc {s : State} {p : Fin 64} {data : List Byte} (hup : s.port[p].state = .up)
    (hcredit : s.port[p].credit ≠ 0) (hlen : data.length = 16 + leAt data 2 2) (hmax : leAt data 2 2 ≤ 576)
    (hcrc : crc32c (data.take (12 + leAt data 2 2)) ≠ leAt data (12 + leAt data 2 2) 4) (noise age : Nat) :
    exec (.rillFrameReceive p data .eof noise age) s =
      .next ((s.rxStarted p noise).rxDiscard p (fun c => { c with crcErr := bump c.crcErr, newCrc := c.newCrc + 1 })) := by
  rw [exec_rillFrameReceive_of_whole hup hcredit hlen hmax, if_pos hcrc]

theorem exec_rillFrameReceive_of_good {s : State} {p : Fin 64} {data : List Byte} (hup : s.port[p].state = .up)
    (hcredit : s.port[p].credit ≠ 0) (hlen : data.length = 16 + leAt data 2 2) (hmax : leAt data 2 2 ≤ 576)
    (hcrc : crc32c (data.take (12 + leAt data 2 2)) = leAt data (12 + leAt data 2 2) 4)
    (htype : leAt data 0 1 % 16 = 1 ∨ leAt data 0 1 % 16 = 2) (noise age : Nat) :
    exec (.rillFrameReceive p data .eof noise age) s = .next ((s.rxStarted p noise).rxComplete p
      (Frame.parse data ((data.drop 12).take (leAt data 2 2))) (s.clk.shelf - age / 4 * 4)) := by
  rw [exec_rillFrameReceive_of_whole hup hcredit hlen hmax, if_neg (not_not_intro hcrc), if_neg (by omega)]

theorem exec_rillFrameReceive_of_noCredit {s : State} {p : Fin 64} (hup : s.port[p].state = .up) (hcredit : s.port[p].credit = 0)
    (data : List Byte) (e : RxEnd) (noise age : Nat) :
    exec (.rillFrameReceive p data e noise age) s =
      .next ((s.modCnt p (fun c => { c with noise := satAdd 32 c.noise noise })).rxDiscard p
        (fun c => { c with noCredit := bump c.noCredit, newNoCredit := c.newNoCredit + 1 })) :=
  congrArg Host.Outcome.next ((if_neg (not_not_intro hup)).trans (if_pos hcredit))

theorem exec_rillRxTimeout_of_credit {s : State} {p : Fin 64} (hup : s.port[p].state = .up) (hcredit : s.port[p].credit ≠ 0) :
    exec (.rillRxTimeout p) s = .next ((s.modPort p (fun x => { x with started := (x.started + 1) % 256 })).rxDiscard p
      (fun c => { c with abandon := bump c.abandon, newAbandon := c.newAbandon + 1 })) :=
  congrArg Host.Outcome.next ((if_neg (not_not_intro hup)).trans (if_neg hcredit))

theorem State.dualPass_of_not_dual {s : State} {p : Fin 64} (h : s.dual p = false) (f : Frame) : s.dualPass p f = (s, true) :=
  if_neg (ne_true_of_eq_false h)

theorem State.rxComplete_of_not_dual {s : State} {p : Fin 64} (h : s.dual p = false) (f : Frame) (time : Nat) :
    s.rxComplete p f time = ((s.modCnt p (fun c => { c with rxFrames := bump c.rxFrames })).modPort p
      (fun x => { x with rx := x.rx ++ [⟨f, time, false, false⟩] })).regrant p := by
  have hpass := State.dualPass_of_not_dual (s := s.modCnt p (fun c => { c with rxFrames := bump c.rxFrames })) h f
  unfold State.rxComplete
  rw [hpass]
  rfl

/-- A complete frame on a port of no DUAL pair is counted and stands last in the receive queue (R268, R269). -/
theorem State.rxComplete_port_of_not_dual {s : State} {p : Fin 64} (h : s.dual p = false) (f : Frame) (time : Nat) :
    ∃ g, (s.rxComplete p f time).port[p] = { s.port[p] with
      rx := s.port[p].rx ++ [⟨f, time, false, false⟩], cnt := { s.port[p].cnt with rxFrames := bump s.port[p].cnt.rxFrames }
      grantTo := g } := by
  obtain ⟨g, hg⟩ := State.regrant_port_same (((s.modCnt p _).modPort p _)) p
  rw [State.rxComplete_of_not_dual h]
  refine ⟨g, hg.trans ?_⟩
  rw [State.modPort_port_same, State.modCnt, State.modPort_port_same]

theorem State.rxComplete_evq_of_not_dual {s : State} {p : Fin 64} (h : s.dual p = false) (f : Frame) (time : Nat) :
    (s.rxComplete p f time).evq = s.evq := by
  rw [State.rxComplete_of_not_dual h]
  rfl

/-! Credit, and a frame sent. -/

theorem exec_rillCreditReceive_of_complement {s : State} {p : Fin 64} {cnt notCnt : Fin 256} (hup : s.port[p].state = .up)
    (h : cnt.val + notCnt.val = 255) :
    exec (.rillCreditReceive p cnt notCnt) s =
      .next (s.modPort p (fun x => ({ x with grantBy := cnt.val } : Port).stall s.clk.tick)) :=
  congrArg Host.Outcome.next (if_pos ⟨hup, h⟩)

theorem exec_rillCreditReceive_of_not_complement {cnt notCnt : Fin 256} (h : cnt.val + notCnt.val ≠ 255) (s : State) (p : Fin 64) :
    exec (.rillCreditReceive p cnt notCnt) s = .next s :=
  congrArg Host.Outcome.next (if_neg fun hc => h hc.2)

theorem exec_rillFrameTransmit_of_credit {s : State} {p : Fin 64} {f : Frame} {fs : List Frame} (htx : s.port[p].tx = f :: fs)
    (hup : s.port[p].state = .up) (hcredit : s.port[p].txCredit ≠ 0) :
    exec (.rillFrameTransmit p) s = .next (s.modPort p (fun x =>
      ({ x with tx := fs, sent := (x.sent + 1) % 256, out := f.bytes } : Port).stall s.clk.tick)) := by
  change execRillFrameTransmit p s = _
  unfold execRillFrameTransmit
  rw [htx]
  exact congrArg Host.Outcome.next (if_pos ⟨hup, hcredit⟩)

/-- A port changed and its stall looked at again: the change, but for the tick of the stall; no other port and no record (R272). -/
theorem State.modPort_stall (s : State) (p : Fin 64) (f : Port → Port) (now : Nat) :
    (s.modPort p (fun x => (f x).stall now)).port[p] =
        { f s.port[p] with stallAt := (s.modPort p (fun x => (f x).stall now)).port[p].stallAt } ∧
      (s.modPort p (fun x => (f x).stall now)).evq = s.evq ∧
      ∀ q : Fin 64, q ≠ p → (s.modPort p (fun x => (f x).stall now)).port[q] = s.port[q] := by
  refine ⟨?_, rfl, fun q hq => s.modPort_port_other _ hq⟩
  rw [State.modPort_port_same]
  rfl

/-! Stamping. -/

/-- A POINTS frame stays at the head of its queue, marked, for its admission (R271). -/
theorem exec_stampFieldFrame_of_points {s : State} {p : Fin 64} {q : RxItem} {qs : List RxItem} (hrx : s.port[p].rx = q :: qs)
    (htype : q.frame.typ = 0) (hnew : q.stamped = false) :
    exec (.stampFieldFrame p) s = .next (s.modPort p (fun x => { x with rx := { q with stamped := true } :: qs })) := by
  change execStampFieldFrame p s = _
  unfold execStampFieldFrame
  rw [hrx]
  exact (if_pos htype).trans (congrArg Host.Outcome.next (if_neg (ne_true_of_eq_false hnew)))

/-- The head of a receive queue taken with the next order number, its entries free again (R270, R271). -/
def State.rxTaken (s : State) (p : Fin 64) (qs : List RxItem) : State := (s.stamp.modPort p (fun x => { x with rx := qs })).regrant p

/-- A HUB frame goes to Onolael under its order number (R271). -/
theorem exec_stampFieldFrame_of_hub {s : State} {p : Fin 64} {q : RxItem} {qs : List RxItem} (hrx : s.port[p].rx = q :: qs)
    (htype : q.frame.typ = 2) :
    exec (.stampFieldFrame p) s = .next { s.rxTaken p qs with nodes := { s.nodes with
      inbox := s.nodes.inbox ++ [⟨(s.homePort p).val * 32 + q.frame.node, p.val, q.frame, q.time, s.ord + 1⟩] } } := by
  change execStampFieldFrame p s = _
  unfold execStampFieldFrame
  rw [hrx]
  exact (if_neg (by omega)).trans (if_neg (by omega))

theorem State.rxTaken_rx (s : State) (p : Fin 64) (qs : List RxItem) : (s.rxTaken p qs).port[p].rx = qs := by
  obtain ⟨g, hg⟩ := State.regrant_port_same (s.stamp.modPort p (fun x => { x with rx := qs })) p
  rw [State.rxTaken, hg, State.modPort_port_same]

/-! HUB frames. -/

/-- A HUB frame of the device's version, from a port of the topology HUB, sets the hub's links (R274, R275). -/
theorem exec_hubFrameReceive_of_hub {s : State} {m : InMsg} {ms : List InMsg} {p : Fin 64} (hin : s.nodes.inbox = m :: ms)
    (htype : m.frame.typ = 2) (hport : m.port = p.val) (hlen : m.frame.payload.length = 16) (hver : leAt m.frame.payload 0 1 = 1)
    (htopo : s.par P.PORT_TOPOLOGY p = 1) :
    exec .hubFrameReceive s = .next ((({ s with nodes := { s.nodes with inbox := ms } } : State).modPort p (fun x => { x with
      hubAt := some s.clk.tick, hubLinks := leAt m.frame.payload 2 4 % 2 ^ 30 })).linkScan p) := by
  obtain ⟨addr, port, frame, time, ord⟩ := m
  obtain rfl : port = p.val := hport
  change execHubFrameReceive s = _
  unfold execHubFrameReceive
  rw [hin]
  exact (if_neg (not_not_intro htype)).trans ((dif_pos p.isLt).trans (if_pos ⟨hlen, hver, htopo⟩))

theorem exec_hubFrameTimeout_of_held {s : State} {p : Fin 64} (h : s.held s.port[p].hubAt 75000000 = true) :
    exec (.hubFrameTimeout p) s = .next ((s.modPort p (fun x => { x with hubAt := none })).linkScan p) :=
  congrArg Host.Outcome.next (if_neg (ne_false_of_eq_true h))

theorem exec_hubFrameTimeout_of_not_held {s : State} {p : Fin 64} (h : s.held s.port[p].hubAt 75000000 = false) :
    exec (.hubFrameTimeout p) s = .next s :=
  congrArg Host.Outcome.next (if_pos h)

/-- Settles O33: each command by its equation, and its port by what a discard, a grant, a stall or a scan of the links leaves of it. -/
theorem rillFrames : Obligations.RillFrames := by
  unfold Obligations.RillFrames
  refine ⟨?good, ?badCrc, ?noCredit, ?abandoned, ?grant, ?otherCrd, ?sent, ?points, ?hubStamped, ?hub, ?hubLost, ?hubKept⟩
  case good =>
    intro s p data noise age hup hcredit hdual hlen hmax hcrc htype
    refine ⟨_, exec_rillFrameReceive_of_good hup hcredit hlen hmax hcrc htype noise age, ?_⟩
    have hdual' : (s.rxStarted p noise).dual p = false := hdual
    obtain ⟨g, hg⟩ := State.rxComplete_port_of_not_dual hdual' (Frame.parse data ((data.drop 12).take (leAt data 2 2)))
      (s.clk.shelf - age / 4 * 4)
    rw [State.rxComplete_evq_of_not_dual hdual', hg, State.rxStarted_port_same]
    exact ⟨rfl, rfl, rfl, rfl⟩
  case badCrc =>
    intro s p data noise age hup hcredit hlen hmax hcrc
    refine ⟨_, exec_rillFrameReceive_of_badCrc hup hcredit hlen hmax hcrc noise age, ?_⟩
    rw [State.rxDiscard_started, State.rxDiscard_cnt, State.rxDiscard_rx, State.rxStarted_port_same]
    exact ⟨rfl, rfl, rfl⟩
  case noCredit =>
    intro s p data e noise age hup hcredit
    refine ⟨_, exec_rillFrameReceive_of_noCredit hup hcredit data e noise age, ?_⟩
    rw [State.rxDiscard_cnt, State.rxDiscard_rx, State.rxDiscard_started, State.modCnt, State.modPort_port_same]
    exact ⟨rfl, rfl, rfl⟩
  case abandoned =>
    intro s p hup hcredit
    refine ⟨_, exec_rillRxTimeout_of_credit hup hcredit, ?_⟩
    rw [State.rxDiscard_cnt, State.rxDiscard_rx, State.rxDiscard_started, State.modPort_port_same]
    exact ⟨rfl, rfl, rfl⟩
  case grant =>
    intro s p cnt notCnt hup h
    exact ⟨_, exec_rillCreditReceive_of_complement hup h, s.modPort_stall p (fun x => { x with grantBy := cnt.val }) s.clk.tick⟩
  case otherCrd => exact fun s p cnt notCnt h => ⟨s, exec_rillCreditReceive_of_not_complement h s p, rfl⟩
  case sent =>
    intro s p f fs htx hup hcredit
    exact ⟨_, exec_rillFrameTransmit_of_credit htx hup hcredit,
      s.modPort_stall p (fun x => { x with tx := fs, sent := (x.sent + 1) % 256, out := f.bytes }) s.clk.tick⟩
  case points =>
    intro s p q qs hrx htype hnew
    exact ⟨_, exec_stampFieldFrame_of_points hrx htype hnew, rfl, congrArg Port.rx (s.modPort_port_same p _), rfl⟩
  case hubStamped =>
    intro s p q qs hrx htype
    exact ⟨_, exec_stampFieldFrame_of_hub hrx htype, rfl, s.rxTaken_rx p qs, rfl⟩
  case hub =>
    intro s m ms p hin htype hport hlen hver htopo _
    refine ⟨_, exec_hubFrameReceive_of_hub hin htype hport hlen hver htopo, State.linkScan_inbox _ p, ?_, ?_⟩
    · rw [State.linkScan_port, State.modPort_port_same]
    · rw [State.linkScan_port, State.modPort_port_same]
  case hubLost =>
    intro s p h
    refine ⟨_, exec_hubFrameTimeout_of_held h, ?_, ?_⟩
    · rw [State.linkScan_port, State.modPort_port_same]
    · rw [State.linkScan_port, State.modPort_port_same]
  case hubKept => exact fun s p h => ⟨s, exec_hubFrameTimeout_of_not_held h, rfl⟩

end Sys2Proof.Machine

/-! PROOFS. The bus of a PMBus port (R280 to R283): what the end of a transaction leaves of a stuck bus and of the log. -/

namespace Sys2Proof.Machine

theorem State.modPmb_pmb (s : State) (p : Fin 64) (f : Pmb → Pmb) : (s.modPmb p f).port[p].pmb = f s.port[p].pmb :=
  congrArg Port.pmb (s.modPort_port_same p _)

theorem State.modTgt_pmb (s : State) (p : Fin 64) (t : Fin 16) (f : PmbTarget → PmbTarget) :
    (s.modTgt p t f).port[p].pmb = { s.port[p].pmb with targets := upd s.port[p].pmb.targets t f } := s.modPmb_pmb p _

theorem State.modTgt_target (s : State) (p : Fin 64) (t : Fin 16) (f : PmbTarget → PmbTarget) :
    (s.modTgt p t f).port[p].pmb.targets[t] = f s.port[p].pmb.targets[t] := by
  rw [State.modTgt_pmb]
  exact upd_at _ _ _

/-- The bus of a port is stuck as before, and the log holds what it held. -/
def BusKept (p : Fin 64) (s t : State) : Prop := t.port[p].stuck = s.port[p].stuck ∧ s.evq <+: t.evq

theorem BusKept.refl (p : Fin 64) (s : State) : BusKept p s s := ⟨rfl, List.prefix_refl _⟩

theorem BusKept.trans {p : Fin 64} {s t u : State} (h : BusKept p s t) (g : BusKept p t u) : BusKept p s u :=
  ⟨g.1.trans h.1, h.2.trans g.2⟩

theorem BusKept.ite {p : Fin 64} {c : Prop} [Decidable c] {s a b : State} (ha : BusKept p s a) (hb : BusKept p s b) :
    BusKept p s (if c then a else b) := by
  split
  · exact ha
  · exact hb

theorem BusKept.modPort {p : Fin 64} {s t : State} (h : BusKept p s t) {f : Port → Port} (hf : ∀ x, (f x).stuck = x.stuck) :
    BusKept p s (t.modPort p f) :=
  h.trans ⟨(congrArg Port.stuck (t.modPort_port_same p f)).trans (hf _), List.prefix_refl _⟩

theorem BusKept.modPmb {p : Fin 64} {s t : State} (h : BusKept p s t) (f : Pmb → Pmb) : BusKept p s (t.modPmb p f) :=
  h.modPort fun _ => rfl

theorem BusKept.modCnt {p : Fin 64} {s t : State} (h : BusKept p s t) (f : PortCount → PortCount) : BusKept p s (t.modCnt p f) :=
  h.modPort fun _ => rfl

theorem BusKept.log {p : Fin 64} {s t : State} (h : BusKept p s t) (code src : Nat) (data : Int) : BusKept p s (t.log code src data) :=
  h.trans ⟨rfl, List.prefix_append _ _⟩

theorem BusKept.pmbFrame {p : Fin 64} {s t : State} (h : BusKept p s t) (g : Fin 16) (rs : List (Nat × Nat × Nat)) :
    BusKept p s (t.pmbFrame p g rs) :=
  .ite h (h.modPort fun _ => rfl)

theorem BusKept.startCycle {p : Fin 64} {s t : State} (h : BusKept p s t) : BusKept p s (t.startCycle p) := h.modPmb _

theorem BusKept.pmbSettle {p : Fin 64} {s t : State} (h : BusKept p s t) (g : Fin 16) : BusKept p s (t.pmbSettle p g) := by
  unfold State.pmbSettle
  extract_lets x t1
  have h1 : BusKept p s t1 := .ite h ((h.pmbFrame g _).modPmb _)
  exact .ite (.ite (h1.log _ _ _).startCycle (h1.modPmb _)) h1

theorem BusKept.pmbFail {p : Fin 64} {s t : State} (h : BusKept p s t) (g : Fin 16) : BusKept p s (t.pmbFail p g) := by
  unfold State.pmbFail
  extract_lets x t1
  have h1 : BusKept p s t1 := (h.modCnt _).modPmb _
  exact .ite (((h1.modPmb _).modPmb _).log _ _ _) h1

/-- An answer to a host leaves the ports and the log (R429). -/
theorem BusKept.answer {p : Fin 64} {s t : State} (h : BusKept p s t) (sess seq status : Nat) (body : List Byte) :
    BusKept p s (t.answer sess seq status body) := by
  have hk : Keeps (maskOf [.host, .passed]) t (t.answer sess seq status body) :=
    State.answer_keeps sess seq status body (Keeps.refl _ t) (.ofParts (by decide))
  have hport := hk.frame .port (by decide)
  have hevq := hk.frame .evq (by decide)
  exact h.trans ⟨congrArg (fun v : Vector Port 64 => v[p].stuck) hport, hevq ▸ List.prefix_refl _⟩

theorem BusKept.pmbDone {p : Fin 64} {s t : State} (h : BusKept p s t) (e : PmbEnd) (data : List Byte) (stuck : Bool) :
    BusKept p s (t.pmbDone p e data stuck) := by
  unfold State.pmbDone
  split
  next => exact h
  next j js _ =>
    extract_lets g t1 t2
    have h2 : BusKept p s t2 := .ite ((h.modPmb _).modPmb _) ((h.modPmb _).pmbFail g)
    split
    next k _ =>
      extract_lets t3
      have h3 : BusKept p s t3 := .ite (h2.modPmb _) h2
      exact .ite (h2.modPmb _) (.ite ((h3.modPmb _).log _ _ _) h3)
    next n _ => exact .ite ((h2.modPmb _).pmbSettle g) (.ite (h2.modPmb _) (h2.pmbSettle g))
    next sess seq _ => exact (h2.answer _ _ _ _).pmbSettle g

end Sys2Proof.Machine

/-! PROOFS. A PMBus port (R280 to R283): discovery, poll cycles, the end of a transaction, bus recovery and alerts. -/

namespace Sys2Proof.Machine

/-! Discovery and poll cycles. -/

/-- What never was, or was long enough ago, is not too recent to be done again. -/
theorem State.not_soon {s : State} {since : Option Nat} {n : Nat} (h : since = none ∨ s.held since n = true) :
    (since.isSome && !s.held since n) = false := by
  rcases h with rfl | h
  · rfl
  · rw [h, Bool.not_true, Bool.and_false]

/-- The reads of a discovery stand behind the transactions that wait, and the try is noted (R280). -/
def State.discover (s : State) (p : Fin 64) (g : Fin 16) : State :=
  (s.modTgt p g (fun y => { y with tryAt := some s.clk.tick })).modPmb p (fun y => { y with
    jobs := y.jobs ++ pmbDiscovery.zipIdx.map (fun q => pmbRead g q.1 (.discover q.2)) })

theorem exec_pmbDiscovery_of_absent {s : State} {p : Fin 64} {g : Fin 16} (hpmb : s.port[p].state = .pmbus)
    (haddr : s.parN P.PORT_PMB_ADDR (p.val * 16 + g.val) ≠ 0xFF) (habsent : s.port[p].pmb.targets[g].present = false)
    (hjobs : s.port[p].pmb.jobs = []) (htry : s.port[p].pmb.targets[g].tryAt = none ∨ s.held s.port[p].pmb.targets[g].tryAt 250000000 = true) :
    exec (.pmbDiscovery p g) s = .next (s.discover p g) := by
  refine congrArg Host.Outcome.next (if_pos ⟨hpmb, haddr, habsent, ?_⟩)
  rw [State.not_soon htry, hjobs]
  rfl

theorem State.discover_jobs (s : State) (p : Fin 64) (g : Fin 16) :
    (s.discover p g).port[p].pmb.jobs = s.port[p].pmb.jobs ++ pmbDiscovery.zipIdx.map (fun q => pmbRead g q.1 (.discover q.2)) := by
  rw [State.discover, State.modPmb_pmb, State.modTgt_pmb]

/-- A poll cycle has come due at this tick (R281). -/
def State.cycleDue (s : State) (p : Fin 64) : State := s.modPmb p (fun y => { y with dueAt := some s.clk.tick })

theorem exec_pmbPollCycle_of_due {s : State} {p : Fin 64} (hpmb : s.port[p].state = .pmbus)
    (hdue : s.port[p].pmb.dueAt = none ∨ s.held s.port[p].pmb.dueAt (s.parN P.PORT_PMB_PERIOD p * 250) = true) :
    exec (.pmbPollCycle p) s = .next (if s.port[p].pmb.running then
        ((s.cycleDue p).modPmb p (fun y => { y with due := true })).modPort p (fun y => { y with overrun := true })
      else (s.cycleDue p).startCycle p) := by
  refine congrArg Host.Outcome.next (if_neg ?_)
  rw [not_or, not_not, State.not_soon hdue]
  exact ⟨hpmb, Bool.false_ne_true⟩

/-- The entries of a cycle depend on the parameters and on the targets of the port (R281). -/
theorem State.pollJobs_congr {s t : State} {p : Fin 64} (hcfg : t.cfg = s.cfg) (htargets : t.port[p].pmb.targets = s.port[p].pmb.targets)
    (cycle : Nat) : t.pollJobs p cycle = s.pollJobs p cycle := by
  unfold State.pollJobs State.parN State.par
  simp only [hcfg, htargets]

/-- A cycle that starts takes the next number, and its entries stand behind the transactions that wait (R281). -/
theorem State.startCycle_pmb (s : State) (p : Fin 64) : (s.startCycle p).port[p].pmb = { s.port[p].pmb with
    cycle := s.port[p].pmb.cycle + 1, cycleAt := s.clk.tick, due := false
    running := !(s.pollJobs p s.port[p].pmb.cycle).isEmpty
    jobs := s.port[p].pmb.jobs ++ s.pollJobs p s.port[p].pmb.cycle } := s.modPmb_pmb p _

/-! The end of a transaction. -/

/-- The first job of a port is taken off its list. -/
def State.jobTaken (s : State) (p : Fin 64) (js : List PmbJob) : State := s.modPmb p (fun x => { x with jobs := js })

/-- The first job of a port has ended well (R280). -/
def State.jobOk (s : State) (p : Fin 64) (t : Fin 16) (js : List PmbJob) : State :=
  (s.jobTaken p js).modTgt p t (fun y => { y with fails := 0 })

theorem State.jobOk_pmb (s : State) (p : Fin 64) (t : Fin 16) (js : List PmbJob) : (s.jobOk p t js).port[p].pmb =
    { s.port[p].pmb with jobs := js, targets := upd s.port[p].pmb.targets t (fun y => { y with fails := 0 }) } := by
  rw [State.jobOk, State.modTgt_pmb, State.jobTaken, State.modPmb_pmb]

/-- The end of a transaction stands as it came: it is good, or its target's PEC is checked (R278). -/
theorem exec_pmbTransactionDone_of_job {s : State} {p : Fin 64} {e : PmbEnd} {j : PmbJob} {js : List PmbJob}
    (hpmb : s.port[p].state = .pmbus) (hfree : 150 ≤ s.port[p].free) (hstuck : s.port[p].stuck = false)
    (hjobs : s.port[p].pmb.jobs = j :: js) (hpec : e = .pec → s.par P.PORT_PMB_PEC (p.val * 16 + j.target.val) = 1) (data : List Byte) :
    exec (.pmbTransactionDone p e data) s = .next (s.pmbDone p e data false) := by
  refine congrArg Host.Outcome.next ((if_pos ⟨hpmb, hfree, hstuck⟩).trans ?_)
  rw [hjobs, if_neg]
  rintro ⟨hend, hoff⟩
  exact absurd hoff (ne_false_of_eq_true (beq_iff_eq.2 (hpec hend)))

theorem State.pmbDone_of_lastRead {s : State} {p : Fin 64} {j : PmbJob} {js : List PmbJob} (hjobs : s.port[p].pmb.jobs = j :: js)
    (hwhy : j.why = .discover 4) (data : List Byte) (stuck : Bool) :
    s.pmbDone p .ok data stuck =
      ((s.jobOk p j.target js).modTgt p j.target (fun y => { y with present := true })).log 0x0A09 p.val (j.target.val + 256 : Nat) := by
  unfold State.pmbDone
  rw [hjobs]
  dsimp only
  rw [hwhy]
  rfl

/-- A good poll entry adds its result, then the cycle is looked at (R281). -/
theorem State.pmbDone_of_polled {s : State} {p : Fin 64} {j : PmbJob} {js : List PmbJob} {n : Nat} (hjobs : s.port[p].pmb.jobs = j :: js)
    (hwhy : j.why = .poll n) (data : List Byte) (stuck : Bool) :
    ∃ r, s.pmbDone p .ok data stuck =
      ((s.jobOk p j.target js).modPmb p (fun x => { x with results := x.results ++ [r] })).pmbSettle p j.target := by
  unfold State.pmbDone
  rw [hjobs]
  dsimp only
  rw [hwhy]
  exact ⟨_, rfl⟩

/-- The results of a target with no entry left go out as one frame (R281). -/
def State.resultsOut (s : State) (p : Fin 64) (t : Fin 16) : State :=
  (s.pmbFrame p t ((s.port[p].pmb.results.filter (fun r => r.1 == t)).map (fun r => r.2))).modPmb p (fun y => { y with
    results := y.results.filter (fun r => r.1 != t) })

theorem State.pmbFrame_pmb (s : State) (p : Fin 64) (t : Fin 16) (rs : List (Nat × Nat × Nat)) :
    (s.pmbFrame p t rs).port[p].pmb = s.port[p].pmb := by
  unfold State.pmbFrame
  split
  · rfl
  · dsimp only
    rw [State.modPort_port_same]

theorem State.resultsOut_cycle (s : State) (p : Fin 64) (t : Fin 16) : (s.resultsOut p t).port[p].pmb.cycle = s.port[p].pmb.cycle := by
  rw [State.resultsOut, State.modPmb_pmb, State.pmbFrame_pmb]

theorem State.resultsOut_keeps_rest (s : State) (p : Fin 64) (t : Fin 16) : Keeps (maskOf [.port]) s (s.resultsOut p t) :=
  State.modPmb_keeps p _ (State.pmbFrame_keeps p t _ (Keeps.refl _ s) (.ofParts (by decide))) (.ofParts (by decide))

/-- With no job left the last cycle is over: the one that is due starts, behind the record of the time that the late one took (R281). -/
theorem State.pmbSettle_of_due {s : State} {p : Fin 64} (hjobs : s.port[p].pmb.jobs = []) (hrun : s.port[p].pmb.running = true)
    (hdue : s.port[p].pmb.due = true) (t : Fin 16) :
    s.pmbSettle p t =
      ((s.resultsOut p t).log 0x0A0C p.val ((s.clk.tick - s.port[p].pmb.cycleAt) / 250 : Nat)).startCycle p := by
  unfold State.pmbSettle
  extract_lets x s1
  have hnone : x.jobs = [] := hjobs
  have hout : s1 = s.resultsOut p t := if_neg (by rw [hnone]; exact Bool.false_ne_true)
  rw [hout]
  exact (if_pos ⟨hrun, by rw [hnone]; rfl⟩).trans (if_pos hdue)

/-- The late cycle over, its successor has the next number and starts now; one record is added (R281). -/
theorem State.pmbSettle_cycle_of_due {s : State} {p : Fin 64} (hjobs : s.port[p].pmb.jobs = []) (hrun : s.port[p].pmb.running = true)
    (hdue : s.port[p].pmb.due = true) (t : Fin 16) :
    (s.pmbSettle p t).port[p].pmb.cycle = s.port[p].pmb.cycle + 1 ∧ (s.pmbSettle p t).port[p].pmb.cycleAt = s.clk.tick ∧
      (s.pmbSettle p t).port[p].pmb.due = false ∧
      (s.pmbSettle p t).evq =
        s.evq ++ [⟨0x0A0C, p.val, toWord 64 ((s.clk.tick - s.port[p].pmb.cycleAt) / 250 : Nat), s.clk.shelf⟩] := by
  have hframe := s.resultsOut_keeps_rest p t
  have hclk : (s.resultsOut p t).clk = s.clk := hframe.frame .clk (by decide)
  have hevq : (s.resultsOut p t).evq = s.evq := hframe.frame .evq (by decide)
  rw [State.pmbSettle_of_due hjobs hrun hdue, State.startCycle_pmb]
  refine ⟨congrArg (· + 1) (s.resultsOut_cycle p t), congrArg Clock.tick hclk, rfl, ?_⟩
  change (s.resultsOut p t).evq ++ [⟨_, _, _, (s.resultsOut p t).clk.shelf⟩] = _
  rw [hevq, hclk]

/-- A failure counted at the port and at its target (R280, R286). -/
def State.failCounted (s : State) (p : Fin 64) (t : Fin 16) : State :=
  (s.modCnt p (fun c => { c with pmbErr := bump c.pmbErr })).modTgt p t (fun y => { y with fails := y.fails + 1 })

/-- A target made ABSENT: none of its polls waits any more (R280). -/
def State.madeAbsent (s : State) (p : Fin 64) (t : Fin 16) : State :=
  ((s.modTgt p t (fun y => { y with present := false })).modPmb p (fun y => { y with
    jobs := y.jobs.filter (fun j => !(j.isPoll && j.target == t)) })).log 0x0A09 p.val t.val

theorem State.pmbFail_eq (s : State) (p : Fin 64) (t : Fin 16) : s.pmbFail p t =
    if 3 ≤ s.port[p].pmb.targets[t].fails + 1 ∧ s.port[p].pmb.targets[t].present then (s.failCounted p t).madeAbsent p t
    else s.failCounted p t := rfl

theorem State.failCounted_counts (s : State) (p : Fin 64) (t : Fin 16) :
    (s.failCounted p t).port[p].pmb.targets[t].fails = s.port[p].pmb.targets[t].fails + 1 ∧
      (s.failCounted p t).port[p].cnt.pmbErr = bump s.port[p].cnt.pmbErr := by
  have hcnt := s.modPort_port_same p (fun x => { x with cnt := { x.cnt with pmbErr := bump x.cnt.pmbErr } })
  refine ⟨?_, ?_⟩
  · rw [State.failCounted, State.modTgt_target, State.modCnt, hcnt]
  · rw [State.failCounted, State.modTgt, State.modPmb, State.modPort_port_same, State.modCnt, hcnt]

/-- The failures of a target that becomes ABSENT stand, and so do those of its port. -/
theorem State.madeAbsent_counts (s : State) (p : Fin 64) (t : Fin 16) :
    (s.madeAbsent p t).port[p].pmb.targets[t].fails = s.port[p].pmb.targets[t].fails ∧
      (s.madeAbsent p t).port[p].cnt = s.port[p].cnt := by
  have hport : (s.madeAbsent p t).port[p] = { s.port[p] with pmb := { s.port[p].pmb with
      jobs := s.port[p].pmb.jobs.filter (fun j => !(j.isPoll && j.target == t))
      targets := upd s.port[p].pmb.targets t (fun y => { y with present := false }) } } := by
    refine ((s.modTgt p t _).modPort_port_same p _).trans ?_
    rw [State.modTgt, State.modPmb, State.modPort_port_same]
  rw [hport]
  exact ⟨(congrArg PmbTarget.fails (upd_at s.port[p].pmb.targets t (fun y => { y with present := false }))).trans rfl, rfl⟩

/-- A failure counts, the third one too that makes its target ABSENT (R280). -/
theorem State.pmbFail_counts (s : State) (p : Fin 64) (t : Fin 16) :
    (s.pmbFail p t).port[p].pmb.targets[t].fails = s.port[p].pmb.targets[t].fails + 1 ∧
      (s.pmbFail p t).port[p].cnt.pmbErr = bump s.port[p].cnt.pmbErr := by
  obtain ⟨hfails, herrs⟩ := s.failCounted_counts p t
  obtain ⟨hfails', hcnt⟩ := (s.failCounted p t).madeAbsent_counts p t
  rw [State.pmbFail_eq]
  split
  · exact ⟨hfails'.trans hfails, (congrArg PortCount.pmbErr hcnt).trans herrs⟩
  · exact ⟨hfails, herrs⟩

/-- A read of a discovery that fails ends the discovery and counts as any failure (R280). -/
theorem State.pmbDone_of_failedRead {s : State} {p : Fin 64} {j : PmbJob} {js : List PmbJob} {k : Nat} {e : PmbEnd}
    (hjobs : s.port[p].pmb.jobs = j :: js) (hwhy : j.why = .discover k) (he : e ≠ .ok) (data : List Byte) (stuck : Bool) :
    ∃ f : List PmbJob → List PmbJob, s.pmbDone p e data stuck =
      ((s.jobTaken p js).pmbFail p j.target).modPmb p (fun x => { x with jobs := f x.jobs }) := by
  unfold State.pmbDone
  rw [hjobs]
  dsimp only
  rw [hwhy, if_neg he]
  exact ⟨_, if_pos he⟩

/-! Bus recovery. -/

/-- A bus timeout noted and recorded with its cause (R282). -/
def State.busTimedOut (s : State) (p : Fin 64) (cause : Nat) (recovered : Bool) : State :=
  (s.modPort p (fun x => { x with stuck := !recovered, downAt := s.clk.tick })).log 0x0A0B p.val (cause + b2n recovered * 256 : Nat)

theorem exec_pmbBusTimeout_of_pmbus {s : State} {p : Fin 64} (hpmb : s.port[p].state = .pmbus) (cause : Nat) (recovered : Bool) :
    exec (.pmbBusTimeout p cause recovered) s = .next (if cause = 2 then s.busTimedOut p cause recovered
      else (s.busTimedOut p cause recovered).pmbDone p .timeout [] (!recovered)) :=
  congrArg Host.Outcome.next (if_neg (not_not_intro hpmb))

theorem State.busTimedOut_stuck (s : State) (p : Fin 64) (cause : Nat) (recovered : Bool) :
    (s.busTimedOut p cause recovered).port[p].stuck = !recovered := congrArg Port.stuck (s.modPort_port_same p _)

theorem exec_pmbBusRecoveryRetry_of_held {s : State} {p : Fin 64} (hpmb : s.port[p].state = .pmbus) (hstuck : s.port[p].stuck = true)
    (hheld : s.held (some s.port[p].downAt) (s.parN P.PORT_RETRAIN_DELAY p * 250000) = true) (recovered : Bool) :
    exec (.pmbBusRecoveryRetry p recovered) s =
      .next (s.modPort p (fun x => { x with stuck := !recovered, downAt := s.clk.tick })) :=
  congrArg Host.Outcome.next (if_pos ⟨hpmb, hstuck, hheld⟩)

/-! Alerts. -/

/-- An alert that no target answers for is recorded with 255 (R283). -/
theorem exec_pmbAlert_of_unknown {s : State} {p : Fin 64} {addr : Nat} (hpmb : s.port[p].state = .pmbus)
    (hmask : s.port[p].maskAt = none) (hfree : 150 ≤ s.port[p].free) (hstuck : s.port[p].stuck = false)
    (haddr : ∀ g : Fin 16, s.parN P.PORT_PMB_ADDR (p.val * 16 + g.val) ≠ addr) (status : Nat) (still : Bool) :
    exec (.pmbAlert p addr status still) s =
      .next ((s.modPort p (fun x => { x with alert := still })).log 0x0A0A p.val (255 + status % 2 ^ 16 * 2 ^ 16 : Nat)) := by
  have hfind : (fins 16).find? (fun (g : Fin 16) => s.parN P.PORT_PMB_ADDR (p.val * 16 + g.val) == addr) = none :=
    List.find?_eq_none.2 fun g _ => by simpa using haddr g
  refine (if_neg (not_not_intro hpmb)).trans ((if_neg ?_).trans ?_)
  · rw [hmask, hstuck]
    simpa using hfree
  · rw [hfind]

theorem exec_pmbAlertUnmask_of_held {s : State} {p : Fin 64} (h : s.held s.port[p].maskAt 250000000 = true) :
    exec (.pmbAlertUnmask p) s = .next (s.modPort p (fun x => { x with maskAt := none })) := congrArg Host.Outcome.next (if_pos h)

theorem exec_pmbAlertUnmask_of_not_held {s : State} {p : Fin 64} (h : s.held s.port[p].maskAt 250000000 = false) :
    exec (.pmbAlertUnmask p) s = .next s := congrArg Host.Outcome.next (if_neg (ne_true_of_eq_false h))

/-- Settles O34: each command by its equation; a job that ended by what its success or its failure leaves of its target, a bus timeout by
what the end of a transaction leaves of the bus. -/
theorem pmbusPort : Obligations.PmbusPort := by
  unfold Obligations.PmbusPort
  refine ⟨?discovery, ?overrun, ?lateEnd, ?cycle, ?lastRead, ?failure, ?timeout, ?retry, ?alert, ?unmask, ?masked⟩
  case discovery =>
    intro s p g hpmb haddr habsent hjobs htry
    refine ⟨_, exec_pmbDiscovery_of_absent hpmb haddr habsent hjobs htry, ?_⟩
    rw [State.discover_jobs, hjobs]
    rfl
  case overrun =>
    intro s p hpmb hrun hdue
    refine ⟨_, (exec_pmbPollCycle_of_due hpmb hdue).trans (congrArg Host.Outcome.next (if_pos hrun)), ?_⟩
    rw [State.modPort_port_same, State.modPmb_pmb, State.cycleDue, State.modPmb_pmb]
    exact ⟨rfl, rfl, rfl, rfl, rfl⟩
  case lateEnd =>
    intro s p data j e hpmb hfree hstuck hjobs hwhy hrun hdue
    obtain ⟨r, hr⟩ := State.pmbDone_of_polled hjobs hwhy data false
    refine ⟨_, exec_pmbTransactionDone_of_job (e := .ok) hpmb hfree hstuck hjobs nofun data, ?_⟩
    have hjob : ((s.jobOk p j.target []).modPmb p (fun x => { x with results := x.results ++ [r] })).port[p].pmb =
        { s.port[p].pmb with
          jobs := [], results := s.port[p].pmb.results ++ [r]
          targets := upd s.port[p].pmb.targets j.target (fun y => { y with fails := 0 }) } := by
      rw [State.modPmb_pmb, State.jobOk_pmb]
    obtain ⟨hcycle, hat, hnot, hevq⟩ := State.pmbSettle_cycle_of_due (congrArg Pmb.jobs hjob) ((congrArg Pmb.running hjob).trans hrun)
      ((congrArg Pmb.due hjob).trans hdue) j.target
    rw [hjob] at hcycle hevq
    rw [hr]
    exact ⟨hcycle, hat, hnot, hevq⟩
  case cycle =>
    intro s p hpmb hrun hdue
    refine ⟨_, (exec_pmbPollCycle_of_due hpmb hdue).trans (congrArg Host.Outcome.next (if_neg (ne_true_of_eq_false hrun))), ?_⟩
    have hpmbDue : (s.cycleDue p).port[p].pmb = { s.port[p].pmb with dueAt := some s.clk.tick } := s.modPmb_pmb p _
    have htargets : (s.cycleDue p).port[p].pmb.targets = s.port[p].pmb.targets := by rw [hpmbDue]
    rw [State.startCycle_pmb, State.pollJobs_congr (s := s) (t := s.cycleDue p) rfl htargets, hpmbDue]
    exact ⟨rfl, rfl, rfl, rfl⟩
  case lastRead =>
    intro s p data j js hpmb hfree hstuck hjobs hwhy
    refine ⟨_, exec_pmbTransactionDone_of_job (e := .ok) hpmb hfree hstuck hjobs nofun data, ?_⟩
    rw [State.pmbDone_of_lastRead hjobs hwhy]
    have hrest : ((s.jobOk p j.target js).modTgt p j.target (fun y => { y with present := true })).port[p].pmb.jobs = js := by
      rw [State.modTgt_pmb, State.jobOk_pmb]
    have htarget : ((s.jobOk p j.target js).modTgt p j.target (fun y => { y with present := true })).port[p].pmb.targets[j.target] =
        { s.port[p].pmb.targets[j.target] with present := true, fails := 0 } := by
      rw [State.modTgt_target, State.jobOk, State.modTgt_target, State.jobTaken, State.modPmb_pmb]
    exact ⟨hrest, congrArg PmbTarget.present htarget, congrArg PmbTarget.fails htarget, rfl⟩
  case failure =>
    intro s p data e j js hpmb hfree hstuck hjobs hwhy he hpec
    refine ⟨_, exec_pmbTransactionDone_of_job hpmb hfree hstuck hjobs hpec data, ?_⟩
    obtain ⟨f, hf⟩ := State.pmbDone_of_failedRead hjobs hwhy he data false
    obtain ⟨hfails, herrs⟩ := (s.jobTaken p js).pmbFail_counts p j.target
    rw [hf, State.modPmb, State.modPort_port_same]
    have htaken : (s.jobTaken p js).port[p] = { s.port[p] with pmb := { s.port[p].pmb with jobs := js } } := s.modPort_port_same p _
    rw [htaken] at hfails herrs
    exact ⟨hfails, herrs⟩
  case timeout =>
    intro s p cause rec_ hpmb
    obtain ⟨hstuck, hevq⟩ : BusKept p (s.busTimedOut p cause rec_) (if cause = 2 then s.busTimedOut p cause rec_
        else (s.busTimedOut p cause rec_).pmbDone p .timeout [] (!rec_)) :=
      .ite (.refl p _) ((BusKept.refl p _).pmbDone _ _ _)
    refine ⟨_, exec_pmbBusTimeout_of_pmbus hpmb cause rec_, hstuck.trans (s.busTimedOut_stuck p cause rec_), ?_⟩
    have htake := List.prefix_iff_eq_take.1 hevq
    rw [show (s.busTimedOut p cause rec_).evq = s.evq ++ [_] from rfl, List.length_append] at htake
    exact htake.symm
  case retry =>
    exact fun s p rec_ hpmb hstuck hheld => ⟨_, exec_pmbBusRecoveryRetry_of_held hpmb hstuck hheld rec_, rfl⟩
  case alert =>
    intro s p addr status still hpmb hmask hfree hstuck haddr
    have hport := s.modPort_port_same p (fun x => { x with alert := still })
    exact ⟨_, exec_pmbAlert_of_unknown hpmb hmask hfree hstuck haddr status still, congrArg Port.alert hport,
      (congrArg Port.maskAt hport).trans hmask, rfl⟩
  case unmask => exact fun s p h => ⟨_, exec_pmbAlertUnmask_of_held h, rfl⟩
  case masked => exact fun s p h => ⟨s, exec_pmbAlertUnmask_of_not_held h, rfl⟩

end Sys2Proof.Machine

/-! PROOFS. The Pool's actions, its notices and its scrub (R290, R327 to R335, R446). -/

namespace Sys2Proof.Machine

/-! The action stage. -/

/-- The action at the front of the stage taken from it. -/
def State.actTaken (s : State) (as : List PoolAct) : State := s.modPool (fun p => { p with acts := as })

theorem State.popAct_of_front {s : State} {a : PoolAct} {as : List PoolAct} {code : Nat} (h : s.pool.acts = a :: as) (hc : a.code = code) :
    s.popAct code = some (a, s.actTaken as) := by
  simp [State.popAct, State.actTaken, State.modPool, h, hc]

/-- A STOP with HOLDUP at a running loop (R109). -/
theorem State.loopStop_of_running {s : State} {l : Fin 16} (h : s.loop[l].ct.state = .running) :
    (s.loopStop l true).1 = (s.noAuto l).stopLoop l 0 .boundary := by
  simp only [State.loopStop, h]
  rw [if_neg fun hs => hs.2 trivial]

theorem exec_poolActionLoopStop_of_front {s : State} {a : PoolAct} {as : List PoolAct} {l : Fin 16} (ha : s.hasActive = true)
    (h : s.pool.acts = a :: as) (hc : a.code = 2) (hl : a.arg % 16 = l.val) :
    exec .poolActionLoopStop s = .next ((s.actTaken as).stamp.loopStop l true).1 := by
  show execPoolActionLoopStop s = _
  rw [execPoolActionLoopStop, State.popAct_of_front h hc]
  refine congrArg Host.Outcome.next ((if_pos ha).trans ?_)
  rw [show (⟨a.arg % 16, Nat.mod_lt _ (by omega)⟩ : Fin 16) = l from Fin.ext hl]

theorem exec_poolActionNodeOff_of_front {s : State} {a : PoolAct} {as : List PoolAct} (ha : s.hasActive = true)
    (h : s.pool.acts = a :: as) (hc : a.code = 3) :
    exec .poolActionNodeOff s = .next ((s.actTaken as).nodeRequest (a.arg % 65536) 0x20 [1, 0, 0, 0] .action) := by
  show execPoolActionNodeOff s = _
  rw [execPoolActionNodeOff, State.popAct_of_front h hc]
  exact congrArg Host.Outcome.next (if_pos ha)

/-- A request to a node with none outstanding is sent at once, with the next SEQ of the session (R300). -/
theorem State.nodeRequest_of_free {s : State} {n : Nat} (hopen : (s.node n).isOpen = true) (hreq : (s.node n).req = none)
    (op : Nat) (body : List Byte) (who : ReqWho) :
    (s.nodeRequest n op body who).pool = s.pool ∧ (s.nodeRequest n op body who).node n = { s.node n with
      req := some ⟨op, seqNext (s.node n).txSeq, 0, body, who, s.clk.tick⟩, txSeq := seqNext (s.node n).txSeq, lastTx := s.clk.tick } := by
  have hreq' : s.nodeRequest n op body who =
      (s.modNode n (fun x => { x with req := some ⟨op, seqNext (s.node n).txSeq, 0, body, who, s.clk.tick⟩ })).nodeSend n op 2 body := by
    unfold State.nodeRequest
    rw [if_neg (by rw [hopen]; decide), if_neg (by rw [hreq]; decide)]
  generalize hu : s.modNode n _ = u at hreq'
  have hnode : u.node n = { s.node n with req := some ⟨op, seqNext (s.node n).txSeq, 0, body, who, s.clk.tick⟩ } := by
    rw [← hu, State.node, State.modNode_nodes]
    exact SMap.get_set_same _ _ _ _
  rw [hreq']
  refine ⟨((u.nodeSend_keeps_rest n op 2 body).frame .pool (by decide)).trans (by rw [← hu]; rfl), ?_⟩
  rw [State.nodeSend_node (by rw [hnode]; exact hopen), hnode, ← hu]
  rfl

/-! Notices of limit events. -/

/-- What a notice of a subscription may write of the Pool leaves the slots and the event queue. -/
def State.SlotsKept (s t : State) : Prop := t.pool.slot = s.pool.slot ∧ t.pool.events = s.pool.events

theorem State.SlotsKept.subNotice {s t : State} (h : s.SlotsKept t) (u : Sub) (op : Nat) (body : List Byte) :
    s.SlotsKept (t.subNotice u op body) := by
  unfold State.subNotice
  extract_lets r n
  have hr : r.1.pool = t.pool :=
    (State.notice_keeps _ op body (Keeps.refl (maskOf [.host, .passed]) t) (.ofParts (by decide))).frame .pool (by decide)
  rw [State.SlotsKept, ← hr] at h
  split
  · exact h
  · exact h

theorem State.SlotsKept.postValues {s t : State} (h : s.SlotsKept t) (u : Sub) (ks : List Nat) : s.SlotsKept (t.postValues u ks) :=
  State.SlotsKept.subNotice (by exact h) _ _ _

/-- The first 48 limit events taken from the queue (R327). -/
def State.eventsTaken (s : State) : State := s.modPool (fun p => { p with events := p.events.drop 48 })

theorem exec_subNoticePost_of_budget {s : State} (ha : s.hasActive = true) (hb : s.sluiceSpent 2 = false) :
    ∃ t, exec .subNoticePost s = .next t ∧ s.eventsTaken.SlotsKept t ∧ (s.pool.subs = [] → t = s.eventsTaken) := by
  refine ⟨_, (if_neg (by rw [ha]; decide)).trans (if_neg (by rw [hb]; decide)), ?_, fun h => ?_⟩
  · refine List.foldlRecOn _ _ (⟨rfl, rfl⟩ : s.eventsTaken.SlotsKept _) fun t ht u _ => ?_
    split
    · dsimp only
      split
      · exact ht
      · exact ht.postValues _ _
    · dsimp only
      split
      · exact ht
      · exact ht.subNotice _ _ _
  · rw [h]
    rfl

/-! The scrub. -/

/-- A double-bit error of a stem counted and recorded (R332). -/
def State.doubleFound (s : State) (k : Fin 2) (w : Nat) : State :=
  (s.modPool (fun p => { p with ue := bump p.ue })).log 0x0C05 k.val (poolRegion w + w * 2 ^ 32 : Nat)

/-- With the other stem in step a double-bit error loses nothing, and is reported as a fault of its stem (R332, R446). -/
theorem exec_poolScrub_double {s : State} {k : Fin 2} (h : s.stemOk k = true) (ho : s.stemOk (1 - k) = true) (w : Nat) (subs : List Nat)
    (hand : Bool) :
    exec (.poolScrub (.double k w subs hand)) s = .next { s.doubleFound k w with stemRep := s.stemRep ++ [(k.val, 1)] } := by
  refine congrArg Host.Outcome.next ((if_pos h).trans ?_)
  dsimp only
  rw [if_pos ho]
  rfl

/-- Settles O37: the front of the action stage acts at its target, notices leave the slots, and the scrub counts what it finds. -/
theorem poolActsAndScrubs : Obligations.PoolActsAndScrubs := by
  unfold Obligations.PoolActsAndScrubs
  refine ⟨?loopStop, ?nodeOff, ?post, ?clean, ?single, ?double⟩
  case loopStop =>
    intro s a as l ha hacts hcode harg hrun
    refine ⟨_, exec_poolActionLoopStop_of_front ha hacts hcode harg, ?_⟩
    rw [State.loopStop_of_running (s := (s.actTaken as).stamp) hrun]
    obtain ⟨hacts', hord, hloop⟩ : ((s.actTaken as).stamp.noAuto l).pool.acts = as ∧ ((s.actTaken as).stamp.noAuto l).ord = s.ord + 1 ∧
      ((s.actTaken as).stamp.noAuto l).loop = s.loop := ⟨rfl, rfl, rfl⟩
    generalize (s.actTaken as).stamp.noAuto l = u at hacts' hord hloop ⊢
    have hstop := u.stopLoop_stops l 0 .boundary
    have hkeeps := State.stopLoop_keeps (wm := maskOf [.evq, .die, .ph, .pst, .loop, .fault, .lag, .passed]) l 0 .boundary
      (Keeps.refl _ u) (.ofParts (by decide))
    generalize u.stopLoop l 0 .boundary = v at hstop hkeeps ⊢
    refine ⟨(congrArg Pool.acts (hkeeps.frame .pool (by decide))).trans hacts', (hkeeps.frame .ord (by decide)).trans hord, hstop.state,
      hstop.reason, ?_⟩
    rw [← hloop]
    exact hstop.acts.others
  case nodeOff =>
    rintro s a as n ha hacts hcode rfl hopen hreq
    refine ⟨_, exec_poolActionNodeOff_of_front ha hacts hcode, ?_⟩
    obtain ⟨hpool, hnode⟩ := State.nodeRequest_of_free (s := s.actTaken as) hopen hreq 0x20 [1, 0, 0, 0] .action
    exact ⟨congrArg Pool.acts hpool, congrArg NodeSess.txSeq hnode, congrArg NodeSess.req hnode⟩
  case post =>
    intro s ha hb
    obtain ⟨t, hexec, ⟨hslot, hevents⟩, hnone⟩ := exec_subNoticePost_of_budget ha hb
    exact ⟨t, hexec, hevents, hslot, hnone⟩
  case clean => exact fun s => ⟨s, rfl, rfl⟩
  case single => exact fun s k w h => ⟨_, congrArg Host.Outcome.next (if_pos h), rfl, rfl, rfl⟩
  case double => exact fun s k w subs hand h ho => ⟨_, exec_poolScrub_double h ho w subs hand, rfl, rfl, rfl⟩

end Sys2Proof.Machine

/-! PROOFS. The sequences of the Silt log (R90, R345, R350): a record made of an event whose count runs since the last record of its code,
while another event of the code still waits. -/

namespace Sys2Proof.Machine

/-- Where an event of a code never seen meets a full bucket, it becomes a record (R350). -/
theorem State.siltDecide_of_unseen {s : State} {e : LogEv} (h : s.codeSt e.code = CodeSt.none) (ha : alwaysCodes.contains e.code = false)
    (hb : 0 < s.parN P.SILT_CODE_BURST e.code) : s.siltDecide e = s.newRecord e false 10000000000 := by
  unfold State.siltDecide
  extract_lets c w folds deficit
  have hc : c = CodeSt.none := h
  have hd : deficit = 0 := by simp only [deficit, hc, CodeSt.none, Nat.zero_sub]
  have hf : folds = none := by simp only [folds, hc, CodeSt.none]
  rw [if_neg (by rw [ha]; decide), hf]
  dsimp only
  rw [hd, if_pos (by omega)]

/-- A record of a counted code starts the counts of the waiting events of its code and source again (R90). -/
theorem State.newRecord_evq {s : State} {e : LogEv} (h : e.code = 0x0303) (always : Bool) (deficit : Nat) :
    (s.newRecord e always deficit).evq =
      s.evq.map (fun x => if x.code = e.code ∧ x.src = e.src then { x with data := sinceRecord e.code e.data x.data } else x) := by
  have hmap : ∀ u : State, (u.recordMade e.code e.src e.data).evq =
      u.evq.map (fun x => if x.code = e.code ∧ x.src = e.src then { x with data := sinceRecord e.code e.data x.data } else x) := by
    intro u
    rw [State.recordMade, h, if_neg (by decide)]
    dsimp only
    rw [if_pos rfl]
    split
    · rfl
    · rfl
  rw [State.newRecord, hmap]
  rfl

/-- Stem A is active, and two parity errors of die 0 wait for the writer, the second counting both (R90). -/
def twoParityErrors : State :=
  { State.reset with
    stems := { State.reset.stems with stem := upd State.reset.stems.stem 0 (fun x => { x with st := .active }) }
    evq := [⟨0x0303, 0, 1, 0⟩, ⟨0x0303, 0, 2, 0⟩] }

/-- The first becomes a record, and the second counts one error since it. -/
theorem exec_siltEvent_twoParityErrors : ∃ t, exec .siltEvent twoParityErrors = .next t ∧ t.evq = [⟨0x0303, 0, 1, 0⟩] := by
  have hexec : exec .siltEvent twoParityErrors =
      .next ((({ twoParityErrors with evq := [⟨0x0303, 0, 2, 0⟩] } : State).siltDecide ⟨0x0303, 0, 1, 0⟩).modSilt
        (fun x => { x with heldN := x.heldN - 1 })) :=
    congrArg Host.Outcome.next ((if_neg (by decide)).trans (if_neg (by decide)))
  refine ⟨_, hexec, ?_⟩
  rw [State.siltDecide_of_unseen (by decide) (by decide) (by decide)]
  exact (State.newRecord_evq rfl _ _).trans (by decide)

/-- Refutes O38: a record of a counted code lowers the count that the next event of its code and source carries (R90), so the events
behind it do not stay as they were. -/
theorem not_recordSequences : ¬ Obligations.RecordSequences := by
  unfold Obligations.RecordSequences
  rintro ⟨-, hevent, -⟩
  obtain ⟨t, ht, hevq, -⟩ := hevent twoParityErrors _ _ rfl (by decide) (by decide) (by decide)
  obtain ⟨u, hu, hevq'⟩ := exec_siltEvent_twoParityErrors
  obtain rfl := Host.Outcome.next.inj (hu.symm.trans ht)
  exact absurd (hevq'.symm.trans hevq) (by decide)

end Sys2Proof.Machine

/-! PROOFS. The ledger and the registers that read the log (R339 to R342, R353, R354, R356). -/

namespace Sys2Proof.Machine

/-! Controls. -/

/-- A control that is taken leaves what its effect made, but for its status and the leases of its permits (R397). -/
theorem State.control_keeps_effect {s : State} {k : Fin 8} {ps : List Nat} (h : s.mayControl k ps = true) (f : State → State × Nat) :
    (s.control k ps f).host.ctl = (f s).2 ∧ Keeps (maskOf [.host]) (f s).1 (s.control k ps f) := by
  rw [State.control_may s k ps f h]
  exact ⟨rfl, State.ctlDone_keeps_rest _ k ps _⟩

/-! The ledger. -/

/-- A ledger write goes to the copy not written last, reads there as written, and leaves every other byte (R341, R342). -/
theorem State.ledgerWrite_spec (s : State) :
    s.ledgerWrite.silt.copyB = (!s.silt.copyB) ∧ s.ledgerWrite.silt.gen = (s.silt.gen + 1) % 2 ^ 32 ∧
      s.ledgerWrite.silt.ledgerDue = false ∧
      s.ledgerWrite.load (ledgerAddr s.ledgerWrite.silt.copyB) 4096 = s.ledgerBytes s.ledgerWrite.silt.gen ∧
      ∀ a : Nat, ¬ (ledgerAddr s.ledgerWrite.silt.copyB ≤ a ∧ a < ledgerAddr s.ledgerWrite.silt.copyB + 4096) →
        mramByte s.ledgerWrite.mram a = mramByte s.mram a := by
  have hcopy : s.ledgerWrite.silt.copyB = (!s.silt.copyB) := rfl
  have hgen : s.ledgerWrite.silt.gen = (s.silt.gen + 1) % 2 ^ 32 := rfl
  have hmram : s.ledgerWrite.mram = mramPut s.mram (ledgerAddr (!s.silt.copyB)) (s.ledgerBytes ((s.silt.gen + 1) % 2 ^ 32)) := by
    simp only [State.ledgerWrite, State.modSilt_rest, State.store_mram]
  rw [hgen]
  refine ⟨hcopy, rfl, rfl, ?_, fun a ha => ?_⟩
  · rw [hcopy]
    exact (s.ledgerWrite_read _ s.mram s.ledgerWrite _ hmram).1
  · rw [hcopy] at ha
    rw [hmram]
    refine mramByte_put_out _ _ ?_
    rw [State.ledgerBytes_length]
    omega

/-- Outside a reset and Dormant a ledger write that is due, or that of 10 s, is made with no tally write before it; in BROWN_WARN the
one of its assertion (R340, R342, R348). -/
theorem exec_ledgerWrite_of_due {s : State} (hheld : s.dev.held = false) (hdev : s.dev.state ≠ .dormant)
    (h : (s.brownWarn = false ∧ (s.silt.ledgerDue = true ∨ s.ledgerOld = true) ∧ s.ledgerNeed.silt.ledgerAfter = 0) ∨
      (s.brownWarn = true ∧ s.silt.ledgerWarn = true)) :
    exec .ledgerWrite s = .next (if s.brownWarn then s.ledgerWrite else s.ledgerNeed.ledgerWrite) := by
  refine congrArg Host.Outcome.next ((if_neg ?_).trans ?_)
  · rw [hheld]
    exact not_or.2 ⟨Bool.false_ne_true, hdev⟩
  · obtain ⟨hb, hdue, hafter⟩ | ⟨hb, hwarn⟩ := h
    · rw [hb, if_neg Bool.false_ne_true, if_neg Bool.false_ne_true, if_pos hdue]
      exact if_pos hafter
    · rw [if_pos hb, if_pos hb, if_pos hwarn]

theorem exec_ledgerWrite_of_not_due {s : State} (h : (s.brownWarn = false ∧ s.silt.ledgerDue = false ∧ s.ledgerOld = false) ∨
    (s.brownWarn = true ∧ s.silt.ledgerWarn = false)) : exec .ledgerWrite s = .next s := by
  refine congrArg Host.Outcome.next ?_
  obtain ⟨hb, hdue, hold⟩ | ⟨hb, hwarn⟩ := h
  · simp [hb, hdue, hold]
  · simp [hb, hwarn]

/-! The registers of the log. -/

theorem State.modHp_port_same (s : State) (p : Fin 4) (f : HostPort → HostPort) : (s.modHp p f).host.port[p] = f s.host.port[p] :=
  upd_at _ _ _

/-- The registers of a port with the slot that a reader has latched (R354). -/
def HostPort.withWindow (x : HostPort) (r : Nat × Nat × Bool × List Byte) : HostPort :=
  { x with
    cursor := r.1, latch := r.2.1, latched := true, moved := x.moved || r.2.2.1, win := msgWords 8 r.2.2.2
    rdata := (msgWords 8 r.2.2.2).getD 0 0 }

/-- A slot latched, with the record of a bad one (R354). -/
def State.windowTaken (s : State) (p : Fin 4) (r : Nat × Nat × Bool × List Byte) : State :=
  if r.2.1 = 2 then (s.modHp p (·.withWindow r)).log 0x0D03 p.val r.1 else s.modHp p (·.withWindow r)

theorem State.winLatch_eq (s : State) (p : Fin 4) : s.winLatch p = s.windowTaken p (s.siltLatch s.host.port[p].cursor) := by
  unfold State.winLatch
  generalize s.siltLatch s.host.port[p].cursor = r
  rfl

theorem State.windowTaken_spec (s : State) (p : Fin 4) (r : Nat × Nat × Bool × List Byte) :
    (s.windowTaken p r).host.port[p] = s.host.port[p].withWindow r ∧ (s.windowTaken p r).mram = s.mram ∧
      (s.windowTaken p r).silt = s.silt := by
  unfold State.windowTaken
  split
  · exact ⟨s.modHp_port_same p _, rfl, rfl⟩
  · exact ⟨s.modHp_port_same p _, rfl, rfl⟩

theorem State.windowTaken_reads (s : State) (p : Fin 4) (r : Nat × Nat × Bool × List Byte) :
    (s.windowTaken p r).host.port[p].cursor = r.1 ∧ (s.windowTaken p r).host.port[p].latch = r.2.1 ∧
      (s.windowTaken p r).host.port[p].win = msgWords 8 r.2.2.2 ∧ (s.windowTaken p r).mram = s.mram ∧ (s.windowTaken p r).silt = s.silt := by
  obtain ⟨hport, hmram, hsilt⟩ := s.windowTaken_spec p r
  exact ⟨congrArg HostPort.cursor hport, congrArg HostPort.latch hport, congrArg HostPort.win hport, hmram, hsilt⟩

/-! Clearing. -/

/-- CLEAR by a session in another role is answered NO_PERMIT, whether or not it holds SILT (R356). -/
theorem State.control_siltClear_of_role {s : State} {k : Fin 8} (ha : s.hasActive = true) (hb : s.brownWarn = false)
    (h : (s.sess k).role ≠ 1) : s.control k [4] (fun t => t.siltClear k) = s.modHost (fun x => { x with ctl := stNoPermit }) := by
  unfold State.control
  rw [if_neg (by rw [ha]; decide), if_neg (by rw [hb]; decide)]
  split
  · have heff : s.siltClear k = (s, stNoPermit) := if_neg h
    dsimp only
    rw [heff]
    rfl
  · rfl

/-- Settles O39: a ledger write goes to the other copy, and the registers and CLEAR leave the log as it is. -/
theorem ledgerAndLogReads : Obligations.LedgerAndLogReads := by
  unfold Obligations.LedgerAndLogReads
  refine ⟨?write, ?rest, ?cursor, ?outOfRange, ?latch, ?advance, ?clear, ?refused⟩
  case write =>
    intro s hheld hdev h
    refine ⟨_, exec_ledgerWrite_of_due hheld hdev h, ?_⟩
    split
    · exact s.ledgerWrite_spec
    · exact s.ledgerNeed.ledgerWrite_spec
  case rest => exact fun s h => ⟨s, exec_ledgerWrite_of_not_due h, rfl⟩
  case cursor =>
    intro s p v hup hv
    exact ⟨_, congrArg Host.Outcome.next (if_pos ⟨hup, by rw [siltMod]; omega⟩), s.modHp_port_same p _, rfl⟩
  case outOfRange =>
    intro s p v h
    refine ⟨s, congrArg Host.Outcome.next (if_neg fun hc => ?_), rfl⟩
    obtain hup | hv := h
    · exact absurd hc.1 (by rw [hup]; decide)
    · have := hc.2
      rw [siltMod] at this
      omega
  case latch =>
    intro s p hup hnv
    refine ⟨_, congrArg Host.Outcome.next (if_pos ⟨hup, hnv⟩), ?_⟩
    rw [State.winLatch_eq]
    exact s.windowTaken_reads p _
  case advance =>
    intro s p hup hnv
    have hport : (s.winLast p).host.port[p] = _ := s.modHp_port_same p _
    refine ⟨_, congrArg Host.Outcome.next (if_pos ⟨hup, hnv⟩), congrArg HostPort.rdata hport, ?_, rfl⟩
    rw [hport]
    dsimp only [siltNext, siltMod]
  case clear =>
    intro s k hmay hrole
    obtain ⟨hctl, hkeeps⟩ := State.control_keeps_effect hmay (fun t => t.siltClear k)
    have heff : s.siltClear k = (s.log 0x0D01 k.val 0, stOk) := if_pos hrole
    rw [heff] at hctl hkeeps
    refine ⟨_, rfl, hctl, hkeeps.frame .silt (by decide), ?_⟩
    rw [hkeeps.frame .evq (by decide), State.log_evq, List.drop_left]
    rfl
  case refused =>
    intro s k ha hrole hb
    exact ⟨_, congrArg Host.Outcome.next (State.control_siltClear_of_role ha hb hrole), rfl, rfl, rfl⟩

end Sys2Proof.Machine

/-! PROOFS. A Spate frame (R358, R359): the signals that a running buffer adds are those named in its entries, without the unused ones. -/

namespace Sys2Proof.Machine

/-- A frame instant of buffer 0, running and not full, adds the signals that its entries name (R358). -/
theorem exec_spateFrame_of_running {s : State} (ha : s.hasActive = true) (hen : s.par P.SPATE_ENABLE 0 ≠ 0)
    (hrun : s.spate.buf[(0 : Fin 2)].st = .running) (hgrid : s.clk.tick % s.spate.buf[(0 : Fin 2)].every = 0)
    (hroom : s.spate.buf[(0 : Fin 2)].frames.length < s.spate.buf[(0 : Fin 2)].depth) :
    exec .spateFrame s = .next (s.modBuf 0 (fun y => { y with
      frames := s.spate.buf[(0 : Fin 2)].frames ++ [(s.clk.shelf, s.spate.buf[(0 : Fin 2)].used.map s.signal)] })) := by
  have hfind : (fins 2).find? (fun (b : Fin 2) => s.spate.buf[b].records) = some 0 := by
    rw [show fins 2 = [0, 1] from rfl, List.find?_cons_of_pos]
    rw [SpBuf.records, hrun]
    rfl
  show execSpateFrame s = _
  unfold execSpateFrame
  rw [hfind]
  dsimp only
  rw [if_neg (by rw [ha]; exact not_or.2 ⟨nofun, not_or.2 ⟨hen, not_not.2 hgrid⟩⟩), if_pos hrun]
  have hupd : ∀ f : Nat × List Int, upd s.spate.buf 0 (fun y => { y with frames := (y.frames ++ [f]).drop (y.frames.length + 1 - y.depth) }) =
      upd s.spate.buf 0 (fun y => { y with frames := s.spate.buf[(0 : Fin 2)].frames ++ [f] }) := by
    intro f
    have hdrop : s.spate.buf[(0 : Fin 2)].frames.length + 1 - s.spate.buf[(0 : Fin 2)].depth = 0 := by omega
    rw [upd, upd, show s.spate.buf[(0 : Fin 2).val] = s.spate.buf[(0 : Fin 2)] from rfl, hdrop]
    rfl
  rw [State.modBuf, State.modBuf, State.modSpate, State.modSpate, hupd]

/-- Stem A is active, Spate is on, and buffer 0 runs with the command of loop 0 in its first entry and no signal in its second. -/
def unusedEntry : State :=
  { State.reset.setPar P.SPATE_ENABLE 0 1 with
    stems := { State.reset.stems with stem := upd State.reset.stems.stem 0 (fun x => { x with st := .active }) }
    spate := { State.reset.spate with
      buf := upd State.reset.spate.buf 0 (fun x => { x with st := .running, sig := [0x03000000, 0xFFFFFFFF] }) } }

/-- Refutes O40: a frame holds the signals named in the entries of its buffer and nothing for an unused entry (R358), where the clause on
SPATE_FRAME has a value for every entry. -/
theorem not_spateCaptures : ¬ Obligations.SpateCaptures := by
  unfold Obligations.SpateCaptures
  rintro ⟨hframe, -⟩
  have hgrid : unusedEntry.clk.tick % unusedEntry.spate.buf[(0 : Fin 2)].every = 0 := by decide
  have hroom : unusedEntry.spate.buf[(0 : Fin 2)].frames.length < unusedEntry.spate.buf[(0 : Fin 2)].depth := by decide
  obtain ⟨t, ht, hadded, -⟩ := hframe unusedEntry (by decide) (by decide) (by decide) hgrid hroom
  obtain rfl := Host.Outcome.next.inj ((exec_spateFrame_of_running (by decide) (by decide) (by decide) hgrid hroom).symm.trans ht)
  have hlen := congrArg (fun fs : List (Nat × List Int) => fs.map (fun f => f.2.length)) hadded
  exact absurd hlen (by decide)

end Sys2Proof.Machine

/-! PROOFS. The timers: advances, matches, writes and captures (R478 to R482). -/

namespace Sys2Proof.Machine

/-! Advances. -/

/-- A timer whose advance is due: the count moves on, and the next prescale period begins (R478). -/
def Timer.advanced (x : Timer) : Timer := { x with count := x.nextCount, phase := x.phase + x.prescale }

/-- A timer at a match (R480). -/
def Timer.hit (x : Timer) : Timer :=
  { x with matched := true, matchCnt := bump x.matchCnt, cmp := (x.cmp + x.interval) % (x.reload + 1) }

theorem State.timerTick_of_not_due {s : State} {n : Fin 32} (h : s.timer[n].running = false ∨ s.clk.tick < s.timer[n].phase + s.timer[n].prescale) :
    s.timerTick n = s := by
  refine if_neg fun hdue => ?_
  obtain ⟨hrun, hle⟩ := Bool.and_eq_true_iff.1 hdue
  obtain h | h := h
  · exact absurd (h.symm.trans hrun) Bool.false_ne_true
  · exact absurd (of_decide_eq_true hle) (Nat.not_le.2 h)

theorem State.timerTick_of_due {s : State} {n : Fin 32} (hrun : s.timer[n].running = true)
    (hle : s.timer[n].phase + s.timer[n].prescale ≤ s.clk.tick) :
    s.timerTick n = if s.timer[n].cmpEn ∧ s.timer[n].nextCount = s.timer[n].cmp then
      ((s.modTimer n fun x => { x with count := s.timer[n].nextCount, phase := s.timer[n].phase + s.timer[n].prescale }).modTimer n
        Timer.hit).captureEvent (17 + n.val)
    else s.modTimer n fun x => { x with count := s.timer[n].nextCount, phase := s.timer[n].phase + s.timer[n].prescale } :=
  if_pos (Bool.and_eq_true_iff.2 ⟨hrun, decide_eq_true hle⟩)

/-- A due advance without the compare enabled changes the count and the prescale period of that timer (R478). -/
theorem State.timerTick_of_compare_off {s : State} {n : Fin 32} (hrun : s.timer[n].running = true)
    (hle : s.timer[n].phase + s.timer[n].prescale ≤ s.clk.tick) (hcmp : s.timer[n].cmpEn = false) :
    (s.timerTick n).timer = upd s.timer n Timer.advanced := by
  rw [State.timerTick_of_due hrun hle, if_neg (by rw [hcmp]; exact fun h => Bool.false_ne_true h.1)]
  rfl

/-- The captures of an event leave the rest of each timer (R481). -/
theorem State.recognise_timer (s : State) (src ago : Nat) (sel : Timer → Bool) (n : Fin 32) :
    (s.recognise src ago sel).timer[n] = if src ≠ 0 ∧ s.timer[n].src = src ∧ sel s.timer[n] = true then
        { s.timer[n] with recog := s.timer[n].recog ++ [⟨s.shelfBack ago, s.timer[n].countAt (s.clk.tick - ago), src⟩] }
      else s.timer[n] :=
  Vector.getElem_map _ _

/-- An event that timers capture changes nothing else of them (R481). -/
theorem State.captureEvent_timer (s : State) (src : Nat) (n : Fin 32) :
    ∃ r, (s.captureEvent src).timer[n] = { s.timer[n] with recog := r } := by
  rw [State.captureEvent, State.recognise_timer]
  split
  · exact ⟨_, rfl⟩
  · exact ⟨s.timer[n].recog, rfl⟩

/-- A due advance that matches (R478, R480). -/
theorem State.timerTick_of_match {s : State} {n : Fin 32} (hrun : s.timer[n].running = true)
    (hle : s.timer[n].phase + s.timer[n].prescale ≤ s.clk.tick) (hcmp : s.timer[n].cmpEn = true)
    (hnext : s.timer[n].nextCount = s.timer[n].cmp) :
    ∃ r, (s.timerTick n).timer[n] = { s.timer[n].advanced.hit with recog := r } := by
  rw [State.timerTick_of_due hrun hle, if_pos ⟨hcmp, hnext⟩]
  have hmod : ((s.modTimer n fun x => { x with count := s.timer[n].nextCount, phase := s.timer[n].phase + s.timer[n].prescale }).modTimer n
      Timer.hit).timer[n] = s.timer[n].advanced.hit := by
    refine (upd_at _ _ _).trans (congrArg Timer.hit ?_)
    exact upd_at _ _ _
  rw [← hmod]
  exact State.captureEvent_timer _ _ n

/-! Writes. -/

theorem State.control_timerWrite {s : State} {k : Fin 8} (h : s.mayControl k [0] = true) (n : Fin 32) (w : TimerWrite) :
    (s.control k [0] fun u => (u.timerWrite n w, stOk)).host.ctl = stOk ∧
      (s.control k [0] fun u => (u.timerWrite n w, stOk)).timer[n] =
        { s.timer[n] with writes := s.timer[n].writes ++ [(s.clk.tick + 250, w)] } := by
  obtain ⟨hctl, hkeeps⟩ := State.control_keeps_effect h fun u => (u.timerWrite n w, stOk)
  refine ⟨hctl, ?_⟩
  rw [hkeeps.frame .timer (by decide)]
  exact upd_at _ _ _

theorem Timer.applyDue_of_none {x : Timer} {now : Nat} (h : ∀ q ∈ x.writes, now < q.1) : x.applyDue now = x := by
  have hdue : x.writes.filter (fun w => decide (w.1 ≤ now)) = [] :=
    List.filter_eq_nil_iff.2 fun q hq => by simpa using h q hq
  have hlater : x.writes.filter (fun w => decide (now < w.1)) = x.writes :=
    List.filter_eq_self.2 fun q hq => decide_eq_true (h q hq)
  rw [Timer.applyDue, hdue, hlater]
  rfl

/-- The one write that is due acts, and the others go on waiting (R479). -/
theorem Timer.applyDue_of_head {x : Timer} {now at_ : Nat} {w : TimerWrite} {ws : List (Nat × TimerWrite)} (hw : x.writes = (at_, w) :: ws)
    (hdue : at_ ≤ now) (h : ∀ q ∈ ws, now < q.1) : x.applyDue now = ({ x with writes := ws }).apply now w := by
  have hnone : ws.filter (fun w => decide (w.1 ≤ now)) = [] := List.filter_eq_nil_iff.2 fun q hq => by simpa using h q hq
  have hlater : ws.filter (fun w => decide (now < w.1)) = ws := List.filter_eq_self.2 fun q hq => decide_eq_true (h q hq)
  have hone : ((at_, w) :: ws).filter (fun w => decide (w.1 ≤ now)) = [(at_, w)] := by
    rw [List.filter_cons_of_pos (p := fun q : Nat × TimerWrite => decide (q.1 ≤ now)) (decide_eq_true hdue), hnone]
  have hkept : ((at_, w) :: ws).filter (fun w => decide (now < w.1)) = ws := by
    rw [List.filter_cons_of_neg (by simpa using hdue), hlater]
  rw [Timer.applyDue, hw, hone, hkept]
  rfl

theorem Timer.apply_writes (x : Timer) (now : Nat) (w : TimerWrite) : (x.apply now w).writes = x.writes := by
  cases w with
  | par id v => simp only [Timer.apply, apply_ite Timer.writes, ite_self]
  | _ => rfl

theorem State.timerWritesApplied_timer {s : State} {n : Fin 32}
    (h : s.timer[n].running = false ∨ s.clk.tick < s.timer[n].phase + s.timer[n].prescale) :
    ((s.timerTick n).modTimer n fun x => x.applyDue s.clk.tick).timer[n] = s.timer[n].applyDue s.clk.tick := by
  rw [State.timerTick_of_not_due h]
  exact upd_at _ _ _

/-! Captures. -/

/-- A timer whose recognised capture `c` reaches its queue of four, or is dropped (R482). -/
def Timer.captured (x : Timer) (c : Capture) : Timer :=
  if x.queue.length < 4 then { x with recog := x.recog.erase c, queue := x.queue ++ [c] }
  else { x with recog := x.recog.erase c, overrun := true, dropped := bump x.dropped, dropNew := x.dropNew + 1, dropPop := true }

/-- The recognised captures of one source taken in their order. -/
def Timer.capturedAll (src : Nat) (x : Timer) : Timer := (x.recog.filter fun c => c.src == src).foldl Timer.captured x

@[simp] theorem State.srcPush_timer (s : State) (src : Fin 3) (fr : List (Nat × Nat × Nat)) : (s.srcPush src fr).timer = s.timer :=
  (State.srcPush_keeps (wm := maskOf [.pool]) src fr (Keeps.refl _ s) (.ofParts (by decide))).frame .timer (by decide)

@[simp] theorem State.srcPush_ord (s : State) (src : Fin 3) (fr : List (Nat × Nat × Nat)) : (s.srcPush src fr).ord = s.ord :=
  (State.srcPush_keeps (wm := maskOf [.pool]) src fr (Keeps.refl _ s) (.ofParts (by decide))).frame .ord (by decide)

theorem State.deliver_timer (s : State) (n : Fin 32) (c : Capture) : (s.deliver n c).timer = upd s.timer n (·.captured c) := by
  rw [State.deliver, State.srcPush_timer]
  split
  next h =>
    simp only [State.modTimer_timer, upd_upd]
    exact upd_eq_of_at (if_pos h).symm
  next h =>
    simp only [State.log_rest, State.modTimer_timer, upd_upd]
    exact upd_eq_of_at (if_neg h).symm

theorem State.deliver_ord (s : State) (n : Fin 32) (c : Capture) : (s.deliver n c).ord = s.ord + 1 := by
  rw [State.deliver, State.srcPush_ord]
  split <;> rfl

/-- The captures of a source of one timer, in their order (R482). -/
def State.deliverAll (src : Nat) (s : State) (n : Fin 32) : State :=
  (s.timer[n].recog.filter fun c => c.src == src).foldl (fun v c => v.deliver n c) s

theorem State.foldl_deliver_timer (n : Fin 32) (cs : List Capture) (s : State) :
    (cs.foldl (fun v c => v.deliver n c) s).timer = upd s.timer n fun x => cs.foldl Timer.captured x := by
  induction cs generalizing s with
  | nil => exact (Vector.set_getElem_self _).symm
  | cons c cs ih => rw [List.foldl_cons, ih, State.deliver_timer, upd_upd]; rfl

theorem State.deliverAll_timer (src : Nat) (s : State) (n : Fin 32) : (s.deliverAll src n).timer = upd s.timer n (Timer.capturedAll src) :=
  s.foldl_deliver_timer n _

theorem State.foldl_deliver_ord (n : Fin 32) (cs : List Capture) (s : State) :
    (cs.foldl (fun v c => v.deliver n c) s).ord = s.ord + cs.length := by
  induction cs generalizing s with
  | nil => rfl
  | cons c cs ih => rw [List.foldl_cons, ih, State.deliver_ord, List.length_cons, Nat.add_assoc, Nat.add_comm 1]

/-- Captures that are delivered take their order numbers (R23). -/
theorem State.foldl_deliverAll_ord {src : Nat} {s : State} {n : Fin 32} (hsome : s.timer[n].recog.filter (fun c => c.src == src) ≠ [])
    {ns : List (Fin 32)} (h : n ∈ ns) : s.ord < (ns.foldl (State.deliverAll src) s).ord := by
  have hmono (u : State) (m : Fin 32) : u.ord ≤ (u.deliverAll src m).ord := (State.foldl_deliver_ord m _ u).symm ▸ Nat.le_add_right _ _
  have hafter (ms : List (Fin 32)) (u : State) : u.ord ≤ (ms.foldl (State.deliverAll src) u).ord :=
    List.foldlRecOn (motive := fun v => u.ord ≤ v.ord) ms _ le_rfl fun v hv m _ => hv.trans (hmono v m)
  induction ns generalizing s with
  | nil => simp at h
  | cons m ns ih =>
    rw [List.foldl_cons]
    by_cases hm : n = m
    · subst hm
      refine lt_of_lt_of_le ?_ (hafter ns _)
      rw [State.deliverAll, State.foldl_deliver_ord]
      exact Nat.lt_add_of_pos_right (List.length_pos_iff.2 hsome)
    · refine lt_of_le_of_lt (hmono s m) (ih ?_ ((List.mem_cons.1 h).resolve_left hm))
      have hkept : (s.deliverAll src m).timer[n] = s.timer[n] := by rw [State.deliverAll_timer, upd_get, if_neg hm]
      rw [hkept]
      exact hsome

/-- A timer selects an edge held for `held` ticks (R481). -/
def Timer.selects (falling : Bool) (held : Nat) (x : Timer) : Bool :=
  (x.edge == 2 || x.edge == b2n falling) && decide (x.filt ≤ held)

theorem Timer.selects_of {x : Timer} {falling : Bool} {held : Nat} (hedge : x.edge = 2 ∨ x.edge = b2n falling) (hfilt : x.filt ≤ held) :
    x.selects falling held = true :=
  Bool.and_eq_true_iff.2 ⟨Bool.or_eq_true_iff.2 (hedge.imp beq_iff_eq.2 beq_iff_eq.2), decide_eq_true hfilt⟩

/-- What a timer keeps of an edge first seen `held` ticks ago (R481). -/
def State.edgeSeen (s : State) (n : Fin 32) (src held : Nat) : Capture := ⟨s.shelfBack held, s.timer[n].countAt (s.clk.tick - held), src⟩

/-- An edge of a capture input that a timer selects is taken into its queue (R481, R482). -/
theorem exec_timerCapture_of_selected {s : State} {n : Fin 32} {src : Fin 51} {falling : Bool} {held : Nat} (hd : s.dev.held = false)
    (hlo : 1 ≤ src.val) (hhi : src.val ≤ 16) (hsrc : s.timer[n].src = src.val) (hedge : s.timer[n].edge = 2 ∨ s.timer[n].edge = b2n falling)
    (hfilt : s.timer[n].filt ≤ held) (hrecog : s.timer[n].recog = []) :
    ∃ t, exec (.timerCapture src falling held) s = .next t ∧ s.ord < t.ord ∧
      t.timer[n] = ({ s.timer[n] with recog := [s.edgeSeen n src held] }).captured (s.edgeSeen n src held) := by
  have hread : (s.recognise src.val held (Timer.selects falling held)).timer[n] =
      { s.timer[n] with recog := [s.edgeSeen n src held] } := by
    rw [State.recognise_timer, if_pos ⟨by omega, hsrc, Timer.selects_of hedge hfilt⟩, hrecog]
    rfl
  have hone : (s.recognise src.val held (Timer.selects falling held)).timer[n].recog.filter (fun c => c.src == src.val) =
      [s.edgeSeen n src held] := by
    rw [hread]
    exact List.filter_cons_of_pos (beq_self_eq_true _)
  refine ⟨(fins 32).foldl (State.deliverAll src.val) (s.recognise src.val held (Timer.selects falling held)), ?_, ?_, ?_⟩
  · refine congrArg Host.Outcome.next ((if_neg (by rw [hd]; exact Bool.false_ne_true)).trans ?_)
    rw [if_pos ⟨hlo, hhi⟩]
    rfl
  · exact State.foldl_deliverAll_ord (s := s.recognise src.val held (Timer.selects falling held))
      (by rw [hone]; exact List.cons_ne_nil _ _) (List.mem_finRange n)
  · refine (foldl_upd_of_state (sel := State.timer) (State.deliverAll_timer src.val) _ n).trans ?_
    rw [Timer.capturedAll, hone, hread]
    rfl

/-- Settles O41: each timer of a command is read after it. -/
theorem timersCount : Obligations.TimersCount := by
  unfold Obligations.TimersCount
  refine ⟨?advance, ?hit, ?rest, ?start, ?stop, ?clear, ?applied, ?waiting, ?taken, ?dropped⟩
  case advance =>
    intro s n hd hrun hle hcmp
    have htimer := State.timerTick_of_compare_off hrun hle hcmp
    refine ⟨s.timerTick n, congrArg Host.Outcome.next (if_neg (by rw [hd]; exact Bool.false_ne_true)), ?_⟩
    have hn : (s.timerTick n).timer[n] = s.timer[n].advanced := by rw [htimer]; exact upd_at _ _ _
    rw [hn]
    refine ⟨rfl, rfl, rfl, fun m hm => ?_⟩
    rw [htimer]
    exact upd_ne _ _ hm
  case hit =>
    intro s n hd hrun hle hcmp hlt hnext
    have hcount : s.timer[n].nextCount = s.timer[n].count + 1 := if_neg (Nat.not_le.2 hlt)
    obtain ⟨r, hr⟩ := State.timerTick_of_match hrun hle hcmp (hcount.trans hnext.symm)
    refine ⟨s.timerTick n, congrArg Host.Outcome.next (if_neg (by rw [hd]; exact Bool.false_ne_true)), ?_⟩
    rw [hr]
    exact ⟨hcount, rfl, rfl, rfl⟩
  case rest =>
    intro s n h
    refine ⟨s, congrArg Host.Outcome.next ?_, rfl⟩
    obtain h | h := h
    · exact if_pos h
    · rw [State.timerTick_of_not_due h, ite_self]
  case start => exact fun s n k h => ⟨_, rfl, State.control_timerWrite h n .start⟩
  case stop => exact fun s n k h => ⟨_, rfl, State.control_timerWrite h n .stop⟩
  case clear => exact fun s n k h => ⟨_, rfl, State.control_timerWrite h n .clear⟩
  case applied =>
    intro s n at_ w ws hd hw hdue hlater hrest
    refine ⟨_, congrArg Host.Outcome.next (if_neg (by rw [hd]; exact Bool.false_ne_true)), ?_⟩
    rw [State.timerWritesApplied_timer hrest, Timer.applyDue_of_head hw hdue hlater]
    refine ⟨Timer.apply_writes _ _ w, ?_, ?_, ?_⟩ <;> rintro rfl <;> rfl
  case waiting =>
    intro s n hlater hrest
    refine ⟨_, rfl, ?_⟩
    split
    · exact ⟨rfl, rfl⟩
    · rw [State.timerWritesApplied_timer hrest, Timer.applyDue_of_none hlater, State.timerTick_of_not_due hrest]
      exact ⟨rfl, rfl⟩
  case taken =>
    intro s n src falling held hd hlo hhi hsrc hedge hfilt hrecog hroom
    obtain ⟨t, ht, hord, htimer⟩ := exec_timerCapture_of_selected hd hlo hhi hsrc hedge hfilt hrecog
    refine ⟨t, ht, hord, ?_⟩
    rw [htimer, Timer.captured, if_pos hroom]
    exact ⟨rfl, List.erase_cons_head _ _, rfl⟩
  case dropped =>
    intro s n src falling held hd hlo hhi hsrc hedge hfilt hrecog hfull
    obtain ⟨t, ht, -, htimer⟩ := exec_timerCapture_of_selected hd hlo hhi hsrc hedge hfilt hrecog
    refine ⟨t, ht, ?_⟩
    rw [htimer, Timer.captured, if_neg (Nat.not_lt.2 hfull)]
    exact ⟨rfl, rfl, rfl⟩

end Sys2Proof.Machine

/-! PROOFS. The stems that fail, switch over and diverge (R442, R443, R445 to R449, R493): a failure by the state of its stem, the restart
of both, and the comparer of their outputs. -/

namespace Sys2Proof.Machine

theorem stem_other_other (k : Fin 2) : 1 - (1 - k) = k := by
  revert k
  decide

/-! The restart of both stems. -/

/-- The kind and the cause of the last reset stay (R493). -/
def Spring.SameReset (x y : Spring) : Prop := y.kind = x.kind ∧ y.fwCause = x.fwCause

theorem State.retWrite_sameReset (s : State) : s.spring.SameReset s.retWrite.spring := by
  obtain ⟨en, pol, h⟩ := s.retWrite_eq
  rw [h]
  exact ⟨rfl, rfl⟩

/-- The start of the stems keeps the reset that it follows (R494). -/
theorem State.startStems_sameReset (s : State) : s.spring.SameReset s.startStems.spring := by
  unfold State.startStems
  extract_lets x c s1 s2 s3 s4
  have h1 : s.spring.SameReset s1.spring := by
    simp only [s1]
    split
    · exact ⟨rfl, rfl⟩
    · exact ⟨rfl, rfl⟩
  have h2 : s.spring.SameReset s2.spring := by
    simp only [s2]
    split
    · exact h1
    · exact h1
  have h3 : s.spring.SameReset s3.spring := by
    simp only [s3]
    split
    · exact h2
    · exact h2
  have h4 : Keeps (maskOf [.evq, .die, .mram, .silt, .spate, .therm]) s3 s4 := by
    have hshut := Keeps.foldl (f := State.shutRecord) (fins 8) (Keeps.refl _ s3) fun _ d h =>
      State.shutRecord_keeps (wm := maskOf [.evq, .die, .mram, .silt, .spate, .therm]) d h (.ofParts (by decide))
    have hlow := Keeps.foldl (f := State.lowRecord) (fins 4) hshut fun _ d h => State.lowRecord_keeps d h (.ofParts (by decide))
    exact State.spateStart_keeps hlow (.ofParts (by decide))
  clear_value s4 s3
  have h5 : Keeps (maskOf [.evq, .silt, .firm, .stems]) (s4.bootNumbered s.clk.tick) (s4.bootNumbered s.clk.tick).bootChoose :=
    State.bootChoose_keeps (Keeps.refl _ _) (.ofParts (by decide))
  have hspring : (s4.bootNumbered s.clk.tick).bootChoose.spring = s3.spring := (h5.frame .spring (by decide)).trans (h4.frame .spring (by decide))
  obtain ⟨hkind, hcause⟩ := (s4.bootNumbered s.clk.tick).bootChoose.retWrite_sameReset
  rw [hspring] at hkind hcause
  exact ⟨hkind.trans h3.1, hcause.trans h3.2⟩

theorem State.bootOrder_stems (s : State) : s.bootOrder.2.stems = s.stems := by
  unfold State.bootOrder
  extract_lets rest
  split
  · rfl
  · split
    · rfl
    · rfl

/-- The image that is chosen makes no stem active (R503). -/
theorem State.bootChoose_stemSt (s : State) (k : Fin 2) : s.bootChoose.stemSt k = s.stemSt k ∨ s.bootChoose.stemSt k = .boot := by
  unfold State.bootChoose
  extract_lets r bad s1
  have hs1 : s1.stems = s.stems :=
    List.foldlRecOn (motive := fun t : State => t.stems = s.stems) bad _ s.bootOrder_stems fun t ht _ _ => ht
  split
  · exact .inl (congrArg (fun x => Stem.st x.stem[k]) hs1)
  · next j hj =>
    extract_lets v s2
    have hs2 : s2.stems = s.stems := by
      simp only [s2]
      split
      · exact hs1
      · exact hs1
    have hstem : (((s2.modFirm fun f => { f with run := j }).modStems fun x => { x with
        stem := x.stem.map fun y => if y.hot ∨ y.low then y else { y with st := .boot } }).stems.stem[k]) = s.stems.stem[k].started := by
      rw [← hs2]
      exact Vector.getElem_map _ _
    rw [State.stemSt, hstem, Stem.started]
    split
    · exact .inl rfl
    · exact .inr rfl

theorem State.hasActive_of_ne {s : State} (h : ∀ k : Fin 2, s.stemSt k ≠ .active) : s.hasActive = false :=
  List.any_eq_false.2 fun k _ hk => h k (beq_iff_eq.1 hk)

theorem State.stemSt_of_not_hasActive {s : State} (h : s.hasActive = false) (k : Fin 2) : s.stemSt k ≠ .active :=
  fun hk => List.any_eq_false.1 h k (List.mem_finRange k) (beq_iff_eq.2 hk)

/-- Stems that start from a state with none active boot (R443). -/
theorem State.startStems_hasActive {s : State} (h : s.hasActive = false) : s.startStems.hasActive = false := by
  obtain ⟨u, hu, heq⟩ := s.startStems_noted
  have hstems : u.stems = s.stems := hu.frame .stems (by decide)
  refine State.hasActive_of_ne fun k => ?_
  have hret : s.startStems.stemSt k = (u.bootNumbered s.clk.tick).bootChoose.stemSt k := by
    rw [heq]
    exact congrArg (fun x => Stem.st x.stem[k]) ((u.bootNumbered s.clk.tick).bootChoose.retWrite_keeps_rest.frame .stems (by decide))
  rw [hret]
  obtain hsame | hboot := (u.bootNumbered s.clk.tick).bootChoose_stemSt k
  · rw [hsame, show (u.bootNumbered s.clk.tick).stemSt k = s.stemSt k from congrArg (fun x => Stem.st x.stem[k]) hstems]
    exact State.stemSt_of_not_hasActive h k
  · rw [hboot]
    decide

/-- A restart of both stems leaves none active, with its kind and its cause (R443, R493). -/
theorem State.fwRestart_spec (s : State) (cause : Nat) :
    (s.fwRestart cause).hasActive = false ∧ (s.fwRestart cause).spring.kind = 8 ∧ (s.fwRestart cause).spring.fwCause = cause := by
  have hdrop := (s.resetTaken 8 cause true).sourceDrop_keeps_rest
  have heq : s.fwRestart cause = ((s.resetTaken 8 cause true).sourceDrop.stemLost true).startStems := rfl
  have hspring : ((s.resetTaken 8 cause true).sourceDrop.stemLost true).spring = (s.resetTaken 8 cause true).spring := by
    rw [(State.stemLost_rest _ true).1]
    exact hdrop.frame .spring (by decide)
  have hlost := (s.resetTaken 8 cause true).sourceDrop.stemLost_hasActive true
  obtain ⟨hkind, hcause⟩ := ((s.resetTaken 8 cause true).sourceDrop.stemLost true).startStems_sameReset
  rw [hspring] at hkind hcause
  rw [heq]
  exact ⟨State.startStems_hasActive hlost, hkind, hcause⟩

theorem State.faultScan_hasActive (s : State) : s.faultScan.hasActive = s.hasActive := by
  unfold State.hasActive
  rw [State.faultScan_stems]

@[simp] theorem State.faultScan_spring (s : State) : s.faultScan.spring = s.spring := s.faultScan_keeps_rest.frame .spring (by decide)

/-! A failure of a stem. -/

/-- A failure of stem `k` noted before what it does (R443, R449). -/
def State.failSeen (s : State) (k : Fin 2) (cause kind : Nat) : State :=
  (s.modStems (fun x => { x with
    doubt := none, selfFault := x.selfFault || cause == 1, lastFault := if cause = 1 then kind else x.lastFault })).modStem k (fun x => { x with
      failAt := some s.clk.tick })

/-- The record of a failure: STEM_FAULT for a report, else STEM_LOST (R450). -/
def State.failRecord (s : State) (k : Fin 2) (cause kind : Nat) (active solo : Bool) : State :=
  if cause = 1 then s.log 0x1003 k.val (kind + b2n active * 256 + b2n solo * 65536 : Nat) else s.log 0x1004 k.val (cause - 1 : Nat)

theorem State.failRecord_stems (s : State) (k : Fin 2) (cause kind : Nat) (active solo : Bool) :
    (s.failRecord k cause kind active solo).stems = s.stems ∧ (s.failRecord k cause kind active solo).passed = s.passed := by
  unfold State.failRecord
  split
  · exact ⟨rfl, rfl⟩
  · exact ⟨rfl, rfl⟩

theorem State.failSeen_stemSt (s : State) (k j : Fin 2) (cause kind : Nat) : (s.failSeen k cause kind).stemSt j = s.stemSt j := by
  unfold State.stemSt State.failSeen
  obtain rfl | rfl := stem_eq_or_other k j
  · rw [State.modStem_stem_same]
    rfl
  · rw [State.modStem_stem_other]
    rfl

theorem State.stemFail_of_standby {s : State} {k : Fin 2} (h : s.stemSt k = .standby) (cause kind : Nat) (loop : Fin 16) :
    s.stemFail k cause kind loop = (((s.failSeen k cause kind).failRecord k cause kind false false).stemRestart k (kind == 5)).stemNotice 4 := by
  unfold State.stemFail
  rw [h]
  rfl

theorem State.stemFail_of_active_standby {s : State} {k : Fin 2} (h : s.stemSt k = .active) (ho : s.stemSt (1 - k) = .standby)
    (cause kind : Nat) (loop : Fin 16) :
    s.stemFail k cause kind loop = (((s.failSeen k cause kind).switchTo (1 - k) cause (if cause = 1 then kind else 0) .active).stemRestart k
      (kind == 5)).failRecord k cause kind true false := by
  unfold State.stemFail
  rw [h]
  exact if_pos ho

/-- A lone active stem that reports a fault of a single line goes on (R446). -/
theorem State.stemFail_of_lone_line {s : State} {k : Fin 2} (h : s.stemSt k = .active) (ho : s.stemSt (1 - k) ≠ .standby) (loop : Fin 16) :
    s.stemFail k 1 1 loop = (s.failSeen k 1 1).failRecord k 1 1 true true := by
  unfold State.stemFail
  rw [h]
  exact if_neg ho

/-- A lone active stem that goes silent makes both restart (R443). -/
theorem State.stemFail_of_lone_silent {s : State} {k : Fin 2} (h : s.stemSt k = .active) (ho : s.stemSt (1 - k) ≠ .standby) (loop : Fin 16) :
    s.stemFail k 2 0 loop = (s.failSeen k 2 0).fwRestart (if s.failedJust (1 - k) then 1 else 2) := by
  unfold State.stemFail
  rw [h]
  dsimp only
  rw [if_neg ho, if_neg (by decide), if_neg (by decide)]
  unfold State.failSeen
  rfl

/-- A stem that restarts alone takes reset kind 6 after its watchdog, else 7 (R493). -/
theorem State.stemRestart_kind (s : State) (k : Fin 2) (watchdog : Bool) :
    (s.stemRestart k watchdog).spring.kind = if watchdog then 6 else 7 := rfl

theorem State.stemRestart_evq (s : State) (k : Fin 2) (watchdog : Bool) : (s.stemRestart k watchdog).evq = s.evq := rfl

/-- What a failed standby leaves (R443, R447, R493): the reset it takes, its record, and the other stem as it was. -/
theorem State.stemFail_standby_spec {s : State} {k : Fin 2} (h : s.stemSt k = .standby) (cause kind : Nat) (loop : Fin 16) :
    (s.stemFail k cause kind loop).faultScan.stemSt k = .failed ∧
      (s.stemFail k cause kind loop).faultScan.stems.stem[1 - k] = s.stems.stem[1 - k] ∧
      (s.stemFail k cause kind loop).faultScan.spring.kind = (if kind == 5 then 6 else 7) ∧
      ((s.failSeen k cause kind).failRecord k cause kind false false).evq <+: (s.stemFail k cause kind loop).faultScan.evq := by
  have hstems : (s.stemFail k cause kind loop).faultScan.stems = { (s.failSeen k cause kind).stems with
      stem := upd (s.failSeen k cause kind).stems.stem k (fun x => { x with st := .failed }) } := by
    rw [State.faultScan_stems, State.stemFail_of_standby h, State.stemNotice_stems, State.stemRestart_stems,
      (State.failRecord_stems _ k cause kind false false).1]
  refine ⟨?_, ?_, ?_, ?_⟩
  · rw [State.stemSt, hstems]
    exact congrArg Stem.st (upd_at _ _ _)
  · rw [hstems]
    exact (upd_ne _ _ (stem_other_ne k)).trans (State.modStem_stem_other _ k _)
  · rw [State.faultScan_spring, State.stemFail_of_standby h, (State.stemNotice_keeps_rest _ 4).frame .spring (by decide)]
    exact State.stemRestart_kind _ k _
  · refine List.IsPrefix.trans ?_ (State.evq_prefix_faultScan _)
    rw [State.stemFail_of_standby h, State.stemNotice_evq, State.stemRestart_evq]

theorem State.switchTo_comparer (s : State) (k : Fin 2) (cause kind : Nat) (old : StemState) :
    (s.switchTo k cause kind old).stems.switched = true ∧ (s.switchTo k cause kind old).stems.waiting = [] := by
  rw [State.switchTo, State.faultScan_stems]
  exact ⟨rfl, rfl⟩

/-- What a failed active stem leaves to its standby (R449). -/
theorem State.stemFail_handsOver {s : State} {k : Fin 2} (h : s.stemSt k = .active) (ho : s.stemSt (1 - k) = .standby) (cause kind : Nat)
    (loop : Fin 16) : ∃ u : State, (s.stemFail k cause kind loop).faultScan = u ∧ u.stemSt k = .failed ∧ u.stemSt (1 - k) = .active ∧
      u.stems.switched = true ∧ u.stems.switchovers = bump s.stems.switchovers ∧
      u.stems.input = some (cause, if cause = 1 then kind else 0, u.passed[(1 : Fin 5)]) ∧ u.stems.waiting = [] := by
  have hswitch := (s.failSeen k cause kind).switchTo_stems (1 - k) cause (if cause = 1 then kind else 0) .active
  have hcomparer := (s.failSeen k cause kind).switchTo_comparer (1 - k) cause (if cause = 1 then kind else 0) .active
  rw [State.stemFail_of_active_standby h ho]
  generalize (s.failSeen k cause kind).switchTo (1 - k) cause (if cause = 1 then kind else 0) .active = v at *
  obtain ⟨hact, -, hcount, hinput⟩ := hswitch
  obtain ⟨hswitched, hwaiting⟩ := hcomparer
  obtain ⟨hrec, hpassed⟩ := (v.stemRestart k (kind == 5)).failRecord_stems k cause kind true false
  have hstems : ((v.stemRestart k (kind == 5)).failRecord k cause kind true false).faultScan.stems =
      { v.stems with stem := upd v.stems.stem k (fun x => { x with st := .failed }) } := by
    rw [State.faultScan_stems, hrec, State.stemRestart_stems]
  refine ⟨_, rfl, ?_, ?_, ?_⟩
  · rw [State.stemSt, hstems]
    exact congrArg Stem.st (upd_at _ _ _)
  · rw [State.stemSt, hstems]
    exact (congrArg Stem.st (upd_ne _ _ (stem_other_ne k))).trans hact
  · rw [State.faultScan_passed, hpassed, hstems]
    exact ⟨hswitched, hcount, hinput, hwaiting⟩

theorem exec_stemSilence_of_silent {s : State} {k : Fin 2} (h : s.stemSt k ≠ .boot) (hs : (s.stems.stem[k]).silent s.clk.tick = true) :
    exec (.stemSilence k) s = .next (s.stemFail k 2 0 0).faultScan := congrArg Host.Outcome.next (if_pos ⟨h, hs⟩)

theorem evq_take_of_prefix {es ts : List LogEv} {e : LogEv} (h : es ++ [e] <+: ts) : ts.take (es.length + 1) = es ++ [e] := by
  rw [List.prefix_iff_eq_take.1 h, List.length_append, List.length_singleton]

/-! Reports of a stem. -/

/-- A report of a fault of a stem as it is taken (R446). -/
def State.faultReportTaken (s : State) (k : Fin 2) (kind : Nat) : State :=
  let s1 := { s with stemRep := s.stemRep.erase (k.val, kind) }
  if kind = 2 ∨ kind = 3 then s1.modStem k (fun x => { x with ue := bump x.ue }) else s1

theorem exec_stemFaultReport_of_kind {kind : Nat} (h0 : 0 < kind) (h9 : kind ≤ 9) (s : State) (k : Fin 2) (l : Fin 16) :
    exec (.stemFaultReport k kind l) s = .next ((s.faultReportTaken k kind).stemFail k 1 kind l).faultScan := if_neg (by omega)

theorem State.faultReportTaken_stemSt (s : State) (k j : Fin 2) (kind : Nat) : (s.faultReportTaken k kind).stemSt j = s.stemSt j := by
  unfold State.faultReportTaken
  extract_lets s1
  split
  · unfold State.stemSt
    obtain rfl | rfl := stem_eq_or_other k j
    · rw [State.modStem_stem_same]
    · rw [State.modStem_stem_other]
  · rfl

/-! The comparer. -/

theorem State.stemSt_of_redundant {s : State} (h : s.redundant = true) (k : Fin 2) :
    (s.stemSt k = .active ∧ s.stemSt (1 - k) = .standby) ∨ (s.stemSt k = .standby ∧ s.stemSt (1 - k) = .active) := by
  have hboth : (s.stemSt 0 = .active ∧ s.stemSt 1 = .standby) ∨ (s.stemSt 0 = .standby ∧ s.stemSt 1 = .active) := by
    simpa [State.redundant] using h
  match k with
  | 0 => exact hboth
  | 1 => exact hboth.symm.imp And.symm And.symm

theorem State.stemOk_of_redundant {s : State} (h : s.redundant = true) (k : Fin 2) : s.stemOk k = true :=
  Bool.or_eq_true_iff.2 ((State.stemSt_of_redundant h k).imp (fun h => beq_iff_eq.2 h.1) fun h => beq_iff_eq.2 h.1)

theorem State.stemOf_standby_of {s : State} {k : Fin 2} (h : s.stemSt k = .standby) : s.stemOk k = true :=
  Bool.or_eq_true_iff.2 (.inr (beq_iff_eq.2 h))

/-- A copy leaves under HOLD from the active stem, and under DUAL from both (R445). -/
def State.copyLeft (s : State) (k : Fin 2) (g : Fin 5) (n : Nat) : State :=
  if s.stemSt k = .active ∨ (s.groupDual g ∧ s.stemOk k) then s.passCopy g n else s

theorem State.copyLeft_rest (s : State) (k : Fin 2) (g : Fin 5) (n : Nat) :
    (s.copyLeft k g n).stems = s.stems ∧ (s.copyLeft k g n).clk = s.clk := by
  unfold State.copyLeft
  split
  · exact ⟨rfl, rfl⟩
  · exact ⟨rfl, rfl⟩

/-- The first copy of an output waits for the other one (R448). -/
theorem exec_stemOutputCopy_of_first {s : State} (hr : s.redundant = true) (hw : s.stems.waiting = []) (k : Fin 2) (g : Fin 5) (n : Nat)
    (bits : List Byte) : exec (.stemOutputCopy k g n bits) s =
      .next ((s.copyLeft k g n).modStems (fun x => { x with waiting := x.waiting ++ [⟨k, g, n, bits, s.clk.tick⟩] })) := by
  show execStemOutputCopy k g n bits s = _
  unfold execStemOutputCopy
  rw [if_neg (by rw [State.stemOk_of_redundant hr k]; exact fun h => Bool.false_ne_true h.1.symm)]
  extract_lets s1
  rw [if_neg (by rw [hr]; exact fun h => Bool.false_ne_true h.1.symm), hw]
  rfl

/-- The copy that waits at the head leaves the comparer for its pair (R448). -/
def State.pairTaken (s : State) (o : OutCopy) (tick : Nat) : State :=
  s.modStems (fun x => { x with waiting := x.waiting.erase o, lagPeak := max x.lagPeak (4 * (tick - o.at_)) })

theorem exec_stemOutputCopy_of_pair {s : State} {o : OutCopy} {os : List OutCopy} {k : Fin 2} {g : Fin 5} {n : Nat}
    (hr : s.redundant = true) (hw : s.stems.waiting = o :: os) (hstem : o.stem = 1 - k) (hgroup : o.group = g) (hn : o.oseq = n)
    (bits : List Byte) : ∃ u : State, u.stems = { s.stems with
        waiting := os, lagPeak := max s.stems.lagPeak (4 * (s.clk.tick - o.at_)) } ∧ u.clk = s.clk ∧
      exec (.stemOutputCopy k g n bits) s = .next (if o.bits = bits then u else u.doubtful g.val 1 n) := by
  obtain ⟨hstems, hclk⟩ := s.copyLeft_rest k g n
  have hu : ((s.copyLeft k g n).pairTaken o s.clk.tick).stems = { s.stems with
      waiting := os, lagPeak := max s.stems.lagPeak (4 * (s.clk.tick - o.at_)) } := by
    rw [State.pairTaken, State.modStems_stems, hstems, hw, List.erase_cons_head]
  have hmatch : (o.stem != k && o.group == g && o.oseq == n) = true := by
    rw [hstem, hgroup, hn]
    simp [stem_other_ne k]
  refine ⟨_, hu, hclk, ?_⟩
  show execStemOutputCopy k g n bits s = _
  unfold execStemOutputCopy
  rw [if_neg (by rw [State.stemOk_of_redundant hr k]; exact fun h => Bool.false_ne_true h.1.symm)]
  extract_lets s1
  rw [if_neg (by rw [hr]; exact fun h => Bool.false_ne_true h.1.symm), hw,
    List.find?_cons_of_pos (p := fun o : OutCopy => o.stem != k && o.group == g && o.oseq == n) hmatch]
  dsimp only
  refine congrArg Host.Outcome.next ?_
  by_cases hbits : o.bits = bits
  · rw [if_pos hbits, if_pos hbits]
    rfl
  · rw [if_neg hbits, if_neg hbits]
    exact if_pos hr

theorem State.doubtful_stems {s : State} (h : s.stems.doubt = none) (g kind n : Nat) :
    (s.doubtful g kind n).stems = { s.stems with doubt := some (g, kind, n, s.clk.tick) } := by
  rw [State.doubtful, State.modStems_stems, h]

/-- A copy that has waited 1.5 µs, by the stem that sent it (R447, R448). -/
theorem exec_stemOutputLate_of_late {s : State} {o : OutCopy} {os : List OutCopy} (hr : s.redundant = true) (hw : s.stems.waiting = o :: os)
    (hlate : o.at_ + 375 ≤ s.clk.tick) :
    exec .stemOutputLate s = .next (if s.stemSt o.stem = .active then
        (s.modStems (fun x => { x with waiting := x.waiting.tail })).doubtful o.group.val 2 o.oseq
      else (s.stemFail (1 - o.stem) 3 0 0).faultScan) := by
  show execStemOutputLate s = _
  unfold execStemOutputLate
  rw [hw]
  dsimp only
  rw [if_neg (by rw [hr]; simp [Nat.not_lt.2 hlate]), if_neg (by rw [hr]; exact fun h => Bool.false_ne_true h.symm)]

/-! The end of a doubt. -/

theorem State.diverge_of_standby {s : State} {j : Fin 2} (h : s.stemSt j = .standby) (ho : s.stemSt (1 - j) = .active) (g kind n : Nat) :
    s.diverge g kind n = (((s.toSync j).modStems (fun x => { x with diverged := true, divergences := bump x.divergences })).log 0x1002 j.val
      (g + kind * 256 + n * 2 ^ 32 : Nat)).stemNotice 2 := by
  unfold State.diverge
  rw [State.stemOf_standby h ho]

theorem State.doubtEnd_of_over {s : State} {g kind n at_ : Nat} (hd : s.stems.doubt = some (g, kind, n, at_)) (hover : at_ + 500 ≤ s.clk.tick) :
    s.doubtEnd = ((s.modStems (fun x => { x with doubt := none })).diverge g kind n).faultScan := by
  unfold State.doubtEnd
  rw [hd]
  exact if_neg (Nat.not_lt.2 hover)

/-- A divergence leaves the standby stem in SYNC (R448, R453). -/
theorem State.diverge_stems {s : State} {j : Fin 2} (h : s.stemSt j = .standby) (ho : s.stemSt (1 - j) = .active) (g kind n : Nat) :
    (s.diverge g kind n).stems = { (s.toSync j).stems with diverged := true, divergences := bump s.stems.divergences } := by
  rw [State.diverge_of_standby h ho, State.stemNotice_stems]
  rfl

/-- Settles O42: a failure by the state of its stem, and the comparer by the copy at its head. -/
theorem stemsFail : Obligations.StemsFail := by
  unfold Obligations.StemsFail
  refine ⟨?heartbeat, ?standbySilent, ?notSilent, ?activeSilent, ?loneSilent, ?standbyFault, ?loneFault, ?watchdog, ?trial, ?loneCopy,
    ?first, ?same, ?differ, ?lateStandby, ?doubtOver, ?inTime, ?lateActive, ?flit, ?link⟩
  case heartbeat =>
    intro s k count hoff hfailed
    refine ⟨_, congrArg Host.Outcome.next (if_neg (not_or.2 ⟨hoff, hfailed⟩)), ?_⟩
    rw [State.stemSt, State.modStem_stem_same, State.modStem_stem_other]
    exact ⟨rfl, rfl, rfl, rfl⟩
  case standbySilent =>
    intro s k h hs ho
    obtain ⟨hfailed, hother, hkind, hevq⟩ := State.stemFail_standby_spec h 2 0 0
    exact ⟨_, exec_stemSilence_of_silent (by rw [h]; decide) hs, hfailed, hother, hkind, evq_take_of_prefix hevq⟩
  case notSilent => exact fun s k hs => ⟨s, congrArg Host.Outcome.next (if_neg (by rw [hs]; exact fun h => Bool.false_ne_true h.2)), rfl⟩
  case activeSilent =>
    intro s k h hs ho
    obtain ⟨u, hu, hspec⟩ := State.stemFail_handsOver h ho 2 0 0
    exact ⟨u, (exec_stemSilence_of_silent (by rw [h]; decide) hs).trans (congrArg Host.Outcome.next hu), hspec⟩
  case loneSilent =>
    intro s k h hs ho
    refine ⟨_, exec_stemSilence_of_silent (by rw [h]; decide) hs, ?_⟩
    rw [State.stemFail_of_lone_silent h ho, State.faultScan_hasActive, State.faultScan_spring]
    exact State.fwRestart_spec _ _
  case standbyFault =>
    intro s k kind l h ho h0 h9
    have hk := (s.faultReportTaken_stemSt k k kind).trans h
    have hstems := (congrArg State.stems (rfl : ((s.faultReportTaken k kind).stemFail k 1 kind l).faultScan = _)).trans
      ((State.faultScan_stems _).trans (State.stemFail_standby_stems hk kind l))
    obtain ⟨hfailed, hother, hkind, -⟩ := State.stemFail_standby_spec hk 1 kind l
    refine ⟨_, exec_stemFaultReport_of_kind h0 h9 s k l, hfailed, ?_, ?_, ?_, ?_⟩
    · exact (congrArg Stem.st hother).trans ((s.faultReportTaken_stemSt k (1 - k) kind).trans ho)
    · exact congrArg Stems.selfFault hstems
    · exact congrArg Stems.lastFault hstems
    · rw [hkind]
      simp only [beq_iff_eq]
  case loneFault =>
    intro s k l h ho
    refine ⟨_, exec_stemFaultReport_of_kind (by decide) (by decide) s k l, ?_⟩
    rw [State.stemFail_of_lone_line ((s.faultReportTaken_stemSt k k 1).trans h) (by rw [s.faultReportTaken_stemSt k (1 - k) 1]; exact ho),
      State.stemSt, State.faultScan_stems, State.faultScan_spring]
    refine ⟨?_, ?_, rfl, evq_take_of_prefix (State.evq_prefix_faultScan (((s.faultReportTaken k 1).failSeen k 1 1).failRecord k 1 1 true true))⟩
    · exact ((s.faultReportTaken k 1).failSeen_stemSt k k 1 1).trans ((s.faultReportTaken_stemSt k k 1).trans h)
    · exact Bool.or_true _
  case watchdog =>
    intro s k h ho htrial
    obtain ⟨hfailed, hother, hkind, -⟩ := State.stemFail_standby_spec h 1 5 0
    refine ⟨_, congrArg Host.Outcome.next ((if_neg ?_).trans (if_neg ?_)), hfailed, (congrArg Stem.st hother).trans ho, hkind⟩
    · rw [State.stemOf_standby_of h]
      exact Bool.true_eq_false_eq_False
    · rw [htrial]
      exact Bool.false_ne_true
  case trial =>
    intro s k hok htrial
    refine ⟨_, congrArg Host.Outcome.next ((if_neg ?_).trans (if_pos htrial)), State.fwRestart_spec s 5⟩
    rw [hok]
    exact Bool.true_eq_false_eq_False
  case loneCopy =>
    intro s k g n bits h hr hagree
    refine ⟨_, ?_, rfl⟩
    show execStemOutputCopy k g n bits s = _
    unfold execStemOutputCopy
    have hok : s.stemOk k = true := Bool.or_eq_true_iff.2 (.inl (beq_iff_eq.2 h))
    rw [if_neg (by rw [hok]; exact fun h => Bool.false_ne_true h.1.symm)]
    extract_lets s1
    rw [if_pos ⟨hr, hagree⟩]
    exact congrArg Host.Outcome.next (if_pos (.inl h))
  case first =>
    intro s k g n bits hr hw
    obtain ⟨hstems, -⟩ := s.copyLeft_rest k g n
    refine ⟨_, exec_stemOutputCopy_of_first hr hw k g n bits, ?_⟩
    rw [State.modStems_stems, hstems, hw]
    exact ⟨rfl, rfl⟩
  case same =>
    intro s k g n bits o os hr hw hstem hgroup hn hbits
    obtain ⟨u, hstems, -, hu⟩ := exec_stemOutputCopy_of_pair hr hw hstem hgroup hn bits
    refine ⟨u, hu.trans (congrArg Host.Outcome.next (if_pos hbits)), ?_⟩
    rw [hstems]
    exact ⟨rfl, rfl, rfl⟩
  case differ =>
    intro s k g n bits o os hr hw hstem hgroup hn hbits hdoubt
    obtain ⟨u, hstems, hclk, hu⟩ := exec_stemOutputCopy_of_pair hr hw hstem hgroup hn bits
    refine ⟨_, hu.trans (congrArg Host.Outcome.next (if_neg hbits)), ?_⟩
    rw [State.doubtful_stems (by rw [hstems]; exact hdoubt), hstems, hclk]
    exact ⟨rfl, rfl, rfl⟩
  case lateStandby =>
    intro s o os hr hw hact hlate hdoubt
    refine ⟨_, (exec_stemOutputLate_of_late hr hw hlate).trans (congrArg Host.Outcome.next (if_pos hact)), ?_⟩
    rw [State.doubtful_stems (by exact hdoubt), State.modStems_stems, hw]
    exact ⟨rfl, rfl, rfl⟩
  case doubtOver =>
    intro s g kind n at_ j hq href hdoubt hover h ho
    have hclock := s.clockOnce_stems
    have htick : s.clockOnce.clk.tick = s.clk.tick + 1 := by rw [State.clockOnce_of_dlRef href]
    have hj (i : Fin 2) : (s.clockOnce.modStems fun x => { x with doubt := none }).stemSt i = s.stemSt i := by
      rw [State.stemSt, State.modStems_stems, hclock]
      rfl
    refine ⟨_, step_of_pending_nil hq, ?_⟩
    rw [State.tickOnce, State.doubtEnd_of_over (by rw [hclock]; exact hdoubt) (by rw [htick]; exact hover), State.stemSt, State.stemSt,
      State.faultScan_stems, State.diverge_stems ((hj j).trans h) ((hj (1 - j)).trans ho)]
    obtain ⟨hsync, hother, -⟩ := State.toSync_stems (s.clockOnce.modStems fun x => { x with doubt := none }) j
    exact ⟨hsync, hother.trans ((hj (1 - j)).trans ho), rfl, rfl, by rw [State.modStems_stems, hclock], rfl⟩
  case inTime =>
    intro s o os hw hlt
    refine ⟨s, ?_, rfl⟩
    show execStemOutputLate s = _
    unfold execStemOutputLate
    rw [hw]
    exact congrArg Host.Outcome.next (if_pos (.inl hlt))
  case lateActive =>
    intro s o os hr hw hstb hlate
    have hother : s.stemSt (1 - o.stem) = .active := by
      obtain ⟨h, -⟩ | ⟨-, h⟩ := State.stemSt_of_redundant hr o.stem
      · exact absurd (h.symm.trans hstb) (by decide)
      · exact h
    obtain ⟨u, hu, hfailed, hact, -, -, hinput, -⟩ :=
      State.stemFail_handsOver hother (by rw [stem_other_other]; exact hstb) 3 0 0
    rw [stem_other_other] at hact
    refine ⟨u, (exec_stemOutputLate_of_late hr hw hlate).trans (congrArg Host.Outcome.next ((if_neg ?_).trans hu)), hact, hfailed, hinput⟩
    rw [hstb]
    decide
  case flit =>
    intro s link n hact hn
    refine ⟨_, congrArg Host.Outcome.next ((if_neg ?_).trans (if_neg ?_)), rfl, List.map_append, rfl⟩
    · rw [hact]
      exact Bool.true_eq_false_eq_False
    · exact fun h => hn (Fin.ext h)
  case link =>
    intro s link hact
    refine ⟨_, congrArg Host.Outcome.next ((if_neg ?_).trans (if_pos rfl)), rfl, rfl⟩
    rw [hact]
    exact Bool.true_eq_false_eq_False

end Sys2Proof.Machine

/-! PROOFS. The temperature network (R464 to R475, R485, R489): the readings of a scan, which the machines of the dies and the rates of the
groups leave as they are, and the Bank die's own test. -/

namespace Sys2Proof.Machine

/-! What leaves the sensors' readings as they are. -/

/-- Every part but the temperature hub. -/
def notTherm : Nat := 0xff7ffffff

theorem Within.notTherm {m : Nat} (h : m &&& notTherm = m) : Within m notTherm := Within.mono h fun _ => id

/-- Every part but the supplies. -/
def notPower : Nat := 0xfdfffffff

theorem Within.notPower {m : Nat} (h : m &&& notPower = m) : Within m notPower := Within.mono h fun _ => id

theorem Keeps.therm_eq {s t : State} (h : Keeps notTherm s t) : t.therm = s.therm := h.frame .therm (by decide)

theorem Keeps.sen_eq {s t : State} (h : Keeps notTherm s t) : t.therm.sen = s.therm.sen := congrArg Therm.sen h.therm_eq

theorem State.shutRecord_sen (s : State) (d : Fin 8) : (s.shutRecord d).therm.sen = s.therm.sen := by
  unfold State.shutRecord
  extract_lets x s1
  split
  · rfl
  · rfl

theorem State.startStems_sen (s : State) : s.startStems.therm.sen = s.therm.sen := by
  unfold State.startStems
  extract_lets x c s1 s2 s3 s4
  have h1 : Keeps notTherm s s1 :=
    .ite (State.modSpring_keeps _ (State.log_keeps _ _ _ (Keeps.refl _ s) (.notTherm (by decide))) (.notTherm (by decide))) (Keeps.refl _ s)
  have h2 : Keeps notTherm s s2 := by
    simp only [s2]
    split
    · exact h1
    · exact State.modSpring_keeps _ (State.logAt_keeps _ _ _ _ h1 (.notTherm (by decide))) (.notTherm (by decide))
  have h3 : Keeps notTherm s s3 := by
    simp only [s3]
    split
    · exact h2
    · exact State.modSpring_keeps _ (State.log_keeps _ _ _ h2 (.notTherm (by decide))) (.notTherm (by decide))
  have hshut : ((fins 8).foldl State.shutRecord s3).therm.sen = s3.therm.sen :=
    List.foldlRecOn (motive := fun t : State => t.therm.sen = s3.therm.sen) _ _ rfl fun t ht d _ => (t.shutRecord_sen d).trans ht
  have hlow : Keeps notTherm ((fins 8).foldl State.shutRecord s3) s4 :=
    State.spateStart_keeps (Keeps.foldl (f := State.lowRecord) (fins 4) (Keeps.refl _ _) fun _ d h =>
      State.lowRecord_keeps d h (.notTherm (by decide))) (.notTherm (by decide))
  have h4 := hlow.sen_eq.trans (hshut.trans h3.sen_eq)
  clear_value s4
  have hend : Keeps notTherm (s4.bootNumbered s.clk.tick) (s4.bootNumbered s.clk.tick).bootChoose.retWrite :=
    State.retWrite_keeps (State.bootChoose_keeps (Keeps.refl _ _) (.notTherm (by decide))) (.notTherm (by decide))
  exact hend.sen_eq.trans h4

theorem State.stemLost_sen (s : State) (core : Bool) : (s.stemLost core).therm.sen = s.therm.sen := rfl

theorem State.fwRestart_sen (s : State) (cause : Nat) : (s.fwRestart cause).therm.sen = s.therm.sen := by
  have hdrop : Keeps notTherm s (s.resetTaken 8 cause true).sourceDrop :=
    State.sourceDrop_keeps (State.resetTaken_keeps _ _ _ (Keeps.refl _ s) (.notTherm (by decide))) (.notTherm (by decide))
  have heq : s.fwRestart cause = ((s.resetTaken 8 cause true).sourceDrop.stemLost true).startStems := rfl
  rw [heq, State.startStems_sen, State.stemLost_sen]
  exact hdrop.sen_eq

theorem State.failRecord_keeps_rest (s : State) (k : Fin 2) (cause kind : Nat) (active solo : Bool) :
    Keeps notTherm s (s.failRecord k cause kind active solo) :=
  .ite (State.log_keeps _ _ _ (Keeps.refl _ s) (.notTherm (by decide))) (State.log_keeps _ _ _ (Keeps.refl _ s) (.notTherm (by decide)))

theorem State.stemFail_of_boot {s : State} {k : Fin 2} (h : s.stemSt k = .boot) (cause kind : Nat) (loop : Fin 16) :
    s.stemFail k cause kind loop = ((s.failSeen k cause kind).failRecord k cause kind false false).stemRestart k (kind == 5) := by
  unfold State.stemFail
  rw [h]
  rfl

theorem State.stemFail_of_sync {s : State} {k : Fin 2} (h : s.stemSt k = .sync) (cause kind : Nat) (loop : Fin 16) :
    s.stemFail k cause kind loop = ((((s.failSeen k cause kind).failRecord k cause kind false false).modStems
      (fun x => { x with sync := none })).stemRestart k (kind == 5)).stemNotice 4 := by
  unfold State.stemFail
  rw [h]
  rfl

/-- The sensors while a lone active stem deals with its failure (R443, R446). -/
theorem State.stemFail_lone_sen {s : State} {k : Fin 2} (h : s.stemSt k = .active) (ho : s.stemSt (1 - k) ≠ .standby) (cause kind : Nat)
    (loop : Fin 16) : (s.stemFail k cause kind loop).therm.sen = s.therm.sen := by
  have hrecord (t : State) : (t.failRecord k cause kind true true).therm.sen = t.therm.sen :=
    (t.failRecord_keeps_rest k cause kind true true).sen_eq
  unfold State.stemFail
  rw [h]
  dsimp only
  rw [if_neg ho]
  split
  · exact hrecord (s.failSeen k cause kind)
  · split
    · exact hrecord ((s.failSeen k cause kind).eddyReload loop)
    · exact State.fwRestart_sen _ _

/-- A stem shut down by the heat of its die fails, and the sensors go on (R472). -/
theorem State.stemFail_sen (s : State) (k : Fin 2) (cause kind : Nat) (loop : Fin 16) :
    (s.stemFail k cause kind loop).therm.sen = s.therm.sen := by
  have hseen : (s.failSeen k cause kind).therm.sen = s.therm.sen := rfl
  have hrecord := (s.failSeen k cause kind).failRecord_keeps_rest k cause kind false false
  cases hst : s.stemSt k with
  | off => unfold State.stemFail; rw [hst]
  | failed => unfold State.stemFail; rw [hst]
  | boot =>
    rw [State.stemFail_of_boot hst]
    exact (State.stemRestart_keeps k _ hrecord (.notTherm (by decide))).sen_eq.trans hseen
  | sync =>
    rw [State.stemFail_of_sync hst]
    exact (State.stemNotice_keeps 4 (State.stemRestart_keeps k _ (State.modStems_keeps _ hrecord (.notTherm (by decide)))
      (.notTherm (by decide))) (.notTherm (by decide))).sen_eq.trans hseen
  | standby =>
    rw [State.stemFail_of_standby hst]
    exact (State.stemNotice_keeps 4 (State.stemRestart_keeps k _ hrecord (.notTherm (by decide))) (.notTherm (by decide))).sen_eq.trans hseen
  | active =>
    by_cases ho : s.stemSt (1 - k) = .standby
    · rw [State.stemFail_of_active_standby hst ho]
      refine (State.failRecord_keeps_rest _ k cause kind true false).sen_eq.trans ?_
      exact (State.stemRestart_keeps k _ (State.switchTo_keeps _ _ _ _ (Keeps.refl notTherm _) (.notTherm (by decide)))
        (.notTherm (by decide))).sen_eq.trans hseen
    · exact State.stemFail_lone_sen hst ho cause kind loop

/-- A loop marked for its automatic START, which no sensor sees (R475). -/
def State.markAuto (s : State) (l : Fin 16) (b : Bool) : State := s.modTherm (fun x => { x with auto := x.auto.set l.val b l.isLt })

theorem State.markAuto_sen (s : State) (l : Fin 16) (b : Bool) : (s.markAuto l b).therm.sen = s.therm.sen := rfl

theorem State.thermStop_sen (s : State) (k : Fin 4) : (s.thermStop k).therm.sen = s.therm.sen := by
  unfold State.thermStop
  split
  · rfl
  · have hstart : Keeps notTherm s (if s.die[k].state = .safe then s.stamp else s.stamp.spateReq 5 k.val) :=
      .ite (State.stamp_keeps (Keeps.refl _ s) (.notTherm (by decide)))
        (State.spateReq_keeps _ _ (State.stamp_keeps (Keeps.refl _ s) (.notTherm (by decide))) (.notTherm (by decide)))
    refine List.foldlRecOn (motive := fun t : State => t.therm.sen = s.therm.sen) _ _ hstart.sen_eq fun t ht l _ => ?_
    have hstop : Keeps notTherm t (t.stopLoop l 5 .boundary) := State.stopLoop_keeps _ _ _ (Keeps.refl _ t) (.notTherm (by decide))
    dsimp only
    split
    · exact ((t.stopLoop l 5 .boundary).markAuto_sen l _).trans (hstop.sen_eq.trans ht)
    · exact ht

theorem State.deltaDown_sen (s : State) : s.deltaDown.therm.sen = s.therm.sen := by
  have hdrop : Keeps notTherm s s.sourceDrop := State.sourceDrop_keeps (Keeps.refl _ s) (.notTherm (by decide))
  have heq : s.deltaDown.therm = (s.sourceDrop.stemLost false).therm := rfl
  rw [heq, State.stemLost_sen]
  exact hdrop.sen_eq

theorem State.dieShut_sen (s : State) (d : Fin 8) : (s.dieShut d).therm.sen = s.therm.sen := by
  unfold State.dieShut
  split
  · next k _ =>
    exact (State.dieHold_keeps (wm := notTherm) _ (Keeps.refl _ (s.thermStop k)) (.notTherm (by decide))).sen_eq.trans (s.thermStop_sen k)
  · next k _ =>
    exact (State.stemFail_sen _ _ _ _ _).trans (State.hotScan_keeps (wm := notTherm) (Keeps.refl _ s) (.notTherm (by decide))).sen_eq
  · split
    · exact s.deltaDown_sen
    · exact (State.bankAllOff_keeps (wm := notTherm) 6 (Keeps.refl _ s) (.notTherm (by decide))).sen_eq

theorem State.faultScan_therm (s : State) : s.faultScan.therm = s.therm := s.faultScan_keeps_rest.frame .therm (by decide)

theorem State.thermShutdown_sen (s : State) (d : Fin 8) (temp : Int) (hottest : Nat) :
    (s.thermShutdown d temp hottest).therm.sen = s.therm.sen := by
  unfold State.thermShutdown
  extract_lets x latch s1 s2
  have h2 : s2.therm.sen = s.therm.sen := s1.dieShut_sen d
  clear_value s2
  rw [State.faultScan_therm]
  split
  · exact (s2.shutRecord_sen d).trans h2
  · exact h2

theorem State.deltaBack_sen (s : State) : s.deltaBack.therm.sen = s.therm.sen := by
  rw [State.deltaBack, State.fwRestart_sen]
  rfl

theorem State.thermRelease_sen (s : State) (d : Fin 8) : (s.thermRelease d).therm.sen = s.therm.sen := by
  unfold State.thermRelease
  extract_lets s1
  have h1 : s1.therm.sen = s.therm.sen := rfl
  clear_value s1
  rw [State.faultScan_therm]
  split
  · exact h1
  · exact h1
  · split
    · exact s1.deltaBack_sen.trans h1
    · split
      · exact (State.bankSendSet_keeps (wm := notTherm) (Keeps.refl _ s1) (.notTherm (by decide))).sen_eq.trans h1
      · exact h1

theorem State.dieMachine_sen (s : State) (d : Fin 8) (temp : Int) (hot : Bool) (hottest : Nat) :
    (s.dieMachine d temp hot hottest).therm.sen = s.therm.sen := by
  unfold State.dieMachine
  extract_lets x cool
  split
  · split
    · exact s.thermShutdown_sen d temp hottest
    · rfl
  · split
    · exact s.thermRelease_sen d
    · rfl
  · rfl

theorem State.dieScan_sen (s : State) (d : Fin 8) : (s.dieScan d).therm.sen = s.therm.sen := by
  unfold State.dieScan
  split
  · rfl
  · next temp n _ =>
    extract_lets lim was warn s1 s2
    have h2 : s2.therm.sen = s.therm.sen := by
      simp only [s2]
      split
      · rfl
      · rfl
    clear_value s2
    split
    · exact h2
    · exact (s2.dieMachine_sen d temp _ n).trans h2

theorem State.noAuto_sen (s : State) (l : Fin 16) : (s.noAuto l).therm.sen = s.therm.sen := rfl

theorem State.loopStop_sen (s : State) (l : Fin 16) (b : Bool) : (s.loopStop l b).1.therm.sen = s.therm.sen := by
  have hstop (mode : StopMode) : ((s.noAuto l).stopLoop l 0 mode).therm.sen = s.therm.sen :=
    (State.stopLoop_keeps (wm := notTherm) l 0 mode (Keeps.refl _ (s.noAuto l)) (.notTherm (by decide))).sen_eq.trans
      (s.noAuto_sen l)
  unfold State.loopStop
  split
  · dsimp only
    exact hstop .boundary
  · split
    · rfl
    · dsimp only
      exact hstop .boundary
  · dsimp only
    exact hstop .none
  · rfl
  · rfl

theorem State.groupScan_sen (s : State) (g : Fin 16) : (s.groupScan g).therm.sen = s.therm.sen := by
  unfold State.groupScan
  extract_lets x q win lim rise rate below ror s1 s2
  have h1 : s1.therm.sen = s.therm.sen := rfl
  have h2 : s2.stamp.therm.sen = s.therm.sen := rfl
  clear_value s2 s1
  split
  · exact h1
  · split
    · exact (State.loopStop_sen _ _ true).trans h2
    · exact h2

theorem State.compensateTemp_sen (s : State) : s.compensateTemp.therm.sen = s.therm.sen := rfl

theorem State.scanEnd_sen (s old : State) :
    (((fins 16).foldl State.groupScan ((fins 8).foldl State.dieScan s)).compensateTemp.thermPublish old).therm.sen = s.therm.sen := by
  have hdies : ((fins 8).foldl State.dieScan s).therm.sen = s.therm.sen :=
    List.foldlRecOn (motive := fun t : State => t.therm.sen = s.therm.sen) _ _ rfl fun t ht d _ => (t.dieScan_sen d).trans ht
  have hgroups : ((fins 16).foldl State.groupScan ((fins 8).foldl State.dieScan s)).therm.sen = s.therm.sen :=
    List.foldlRecOn (motive := fun t : State => t.therm.sen = s.therm.sen) _ _ hdies fun t ht g _ => (t.groupScan_sen g).trans ht
  refine (State.thermPublish_keeps (wm := notTherm) old (Keeps.refl _ _) (.notTherm (by decide))).sen_eq.trans ?_
  exact (State.compensateTemp_sen _).trans hgroups

/-! The readings of a scan. -/

/-- The XT input of a sensor (R464). -/
def inputOf (n : Fin 64) : Fin 16 := ⟨n.val % 16, Nat.mod_lt _ (by omega)⟩

/-- An input that the hub reads outside its range (R466). -/
def State.scanOut (s : State) (xt : Vector Nat 16) (n : Fin 64) : Bool :=
  decide (48 ≤ n.val) && s.sensorOn n && s.xtOut (inputOf n) xt[inputOf n]

/-- The reading of a converted sensor (R466). -/
def State.scanRaw (s : State) (raw : Vector Int 44) (xt : Vector Nat 16) (n : Fin 64) : Int :=
  if h : n.val < 44 then raw[n.val]
  else if 48 ≤ n.val ∧ s.scanOut xt n = false then s.xtTemp (inputOf n) xt[inputOf n] else s.therm.sen[n].raw

/-- A sensor read, before its c (R466). -/
def State.sensorRead (s : State) (raw : Vector Int 44) (xt : Vector Nat 16) (n : Fin 64) : Sensor :=
  { s.therm.sen[n] with raw := if s.sensorOn n then s.scanRaw raw xt n else s.therm.sen[n].raw, isOpen := s.scanOut xt n }

/-- A sensor with the c of its reading (R468). -/
def Sensor.corrected (x : Sensor) : Sensor := { x with c := x.raw - x.ofs }

theorem State.sensorOn_of_same {s t : State} (hdie : t.die = s.die) (hstems : t.stems = s.stems) (hbank : t.bank = s.bank)
    (hcfg : t.cfg = s.cfg) (n : Fin 64) : t.sensorOn n = s.sensorOn n := by
  unfold State.sensorOn State.thermOn State.par
  rw [hdie, hstems, hbank, hcfg]

theorem State.scanRead_sen (s : State) (raw : Vector Int 44) (xt : Vector Nat 16) (n : Fin 64) :
    (s.scanRead raw xt).therm.sen[n] = if s.sensorOn n && !s.scanOut xt n then (s.sensorRead raw xt n).corrected else s.sensorRead raw xt n := by
  unfold State.scanRead
  extract_lets k out r s1
  have hk : k = inputOf := rfl
  have hout : out = s.scanOut xt := rfl
  have hr : r = s.scanRaw raw xt := by
    funext m
    simp only [r, hout, hk]
    rfl
  clear_value r out
  subst hr hout
  have hread : s1.therm.sen[n] = s.sensorRead raw xt n := by
    simp only [s1]
    exact tab_at _ n
  have hkept : Keeps (maskOf [.therm]) s s1 := State.modTherm_keeps _ (Keeps.refl _ s) (.ofParts (by decide))
  have hon : s1.sensorOn n = s.sensorOn n := State.sensorOn_of_same (hkept.frame .die (by decide)) (hkept.frame .stems (by decide))
    (hkept.frame .bank (by decide)) (hkept.frame .cfg (by decide)) n
  have husable : s1.sensorUsable n = (s.sensorOn n && !s.scanOut xt n) := by
    rw [State.sensorUsable, hread, hon]
    rfl
  clear_value s1
  refine (tab_at _ n).trans ?_
  rw [husable, hread]
  rfl

/-- An input out of its range keeps its last reading (R466). -/
theorem State.scanRead_of_out {s : State} {raw : Vector Int 44} {xt : Vector Nat 16} {n : Fin 64} (hlo : 44 ≤ n.val)
    (h : s.scanOut xt n = true) :
    (s.scanRead raw xt).therm.sen[n].raw = s.therm.sen[n].raw ∧ (s.scanRead raw xt).therm.sen[n].isOpen = true := by
  have hraw : s.scanRaw raw xt n = s.therm.sen[n].raw := by
    rw [State.scanRaw, dif_neg (Nat.not_lt.2 hlo), if_neg (by rw [h]; exact fun hc => Bool.noConfusion hc.2)]
  rw [State.scanRead_sen, h, Bool.not_true, Bool.and_false, if_neg Bool.false_ne_true, State.sensorRead, hraw, ite_self]
  exact ⟨rfl, h⟩

/-- A converted sensor in its range (R466, R468). -/
theorem State.scanRead_of_in {s : State} {xt : Vector Nat 16} {n : Fin 64} (hon : s.sensorOn n = true) (h : s.scanOut xt n = false)
    (raw : Vector Int 44) : (s.scanRead raw xt).therm.sen[n] =
      ({ s.therm.sen[n] with raw := s.scanRaw raw xt n, isOpen := false } : Sensor).corrected := by
  rw [State.scanRead_sen, h, hon, Bool.not_false, Bool.and_true, if_pos rfl, State.sensorRead, hon, h, if_pos rfl]

/-! The evaluation of a sensor. -/

theorem Sensor.learnStep_reads (x : Sensor) (lim diff : Int) :
    (x.learnStep lim diff).1.raw = x.raw ∧ (x.learnStep lim diff).1.c = x.c ∧ (x.learnStep lim diff).1.isOpen = x.isOpen := by
  unfold Sensor.learnStep
  extract_lets total
  split
  · exact ⟨rfl, rfl, rfl⟩
  · split
    · exact ⟨rfl, rfl, rfl⟩
    · exact ⟨rfl, rfl, rfl⟩

/-- The evaluation against the neighbours leaves the reading of the sensor (R468, R469). -/
theorem State.sensorEval_reads (s : State) (n : Fin 64) :
    (s.sensorEval n).1.raw = s.therm.sen[n].raw ∧ (s.sensorEval n).1.c = s.therm.sen[n].c ∧ (s.sensorEval n).1.isOpen = s.therm.sen[n].isOpen := by
  unfold State.sensorEval
  extract_lets x push nb est d lim run calm sus learn y
  split
  · exact ⟨rfl, rfl, rfl⟩
  · split
    · exact ⟨rfl, rfl, rfl⟩
    · split
      · exact y.learnStep_reads _ _
      · exact ⟨rfl, rfl, rfl⟩

/-- A sensor with fewer than two usable neighbours is not checked (R468). -/
theorem State.sensorEval_of_few {s : State} {n : Fin 64} (hu : s.sensorUsable n = true) (h : (s.neighbours n).length < 2) :
    (s.sensorEval n).1.t = s.therm.sen[n].c ∧ (s.sensorEval n).1.noCheck = true ∧ (s.sensorEval n).1.ofs = s.therm.sen[n].ofs := by
  have heval : (s.sensorEval n).1 = { s.therm.sen[n] with
      noCheck := true, learning := false, t := s.therm.sen[n].c
      hist := ((s.therm.sen[n].c, s.therm.sen[n].c) :: s.therm.sen[n].hist).take (s.scanDepth n + 1) } := by
    unfold State.sensorEval
    extract_lets x push nb
    rw [if_neg (by rw [hu]; exact Bool.true_eq_false_eq_False), if_pos h]
  rw [heval]
  exact ⟨rfl, rfl, rfl⟩

theorem State.neighbours_of_none {s : State} {n : Fin 64} (h : s.parN P.THERM_NBR n.val = 0) : s.neighbours n = [] := by
  refine List.filter_eq_nil_iff.2 fun k _ hk => ?_
  rw [h, show bit 0 k.val = false by simp [bit]] at hk
  exact Bool.false_ne_true hk

/-! The scan. -/

/-- The supplies that a scan measures (R489). -/
theorem State.supplyScan_sup (s : State) (v : Vector Int 10) :
    (s.supplyScan v).power.sup = tab 10 (fun i => if i.val = 4 ∨ i.val = 9 then s.power.sup[i] else { s.power.sup[i] with v := v[i] }) := by
  unfold State.supplyScan
  extract_lets p apart run mis s1
  split
  · rfl
  · rfl

theorem State.supplyScan_keeps_rest (s : State) (v : Vector Int 10) : Keeps (maskOf [.evq, .power]) s (s.supplyScan v) :=
  State.supplyScan_keeps v (Keeps.refl _ s) (.ofParts (by decide))

/-- The scan of the dies and groups, and what is published, leave the supplies. -/
theorem State.scanEnd_power (s old : State) :
    (((fins 16).foldl State.groupScan ((fins 8).foldl State.dieScan s)).compensateTemp.thermPublish old).power = s.power := by
  have hdies : Keeps notPower s ((fins 8).foldl State.dieScan s) :=
    Keeps.foldl (f := State.dieScan) (fins 8) (Keeps.refl _ s) fun _ d h => State.dieScan_keeps d h (.notPower (by decide))
  have hgroups : Keeps notPower s ((fins 16).foldl State.groupScan ((fins 8).foldl State.dieScan s)) :=
    Keeps.foldl (f := State.groupScan) (fins 16) hdies fun _ g h => State.groupScan_keeps g h (.notPower (by decide))
  exact (State.thermPublish_keeps old (State.compensateTemp_keeps hgroups (.notPower (by decide))) (.notPower (by decide))).frame .power (by decide)

/-- The records of the evaluations change the log alone. -/
theorem State.sensorLogs_keeps (s old : State) (q : Vector (Sensor × Option Int) 64) :
    Keeps (maskOf [.evq]) s ((fins 64).foldl (fun (t : State) (n : Fin 64) => t.sensorLog old n q[n].2) s) :=
  Keeps.foldl (fins 64) (Keeps.refl _ s) fun _ n h => State.sensorLog_keeps old n _ h (.ofParts (by decide))

/-- A scan of the hub reads each sensor, evaluates it, and what follows leaves the sensors and the supplies (R466, R468, R489). -/
theorem exec_thermScan_of_on {s : State} (hsns : s.dev.snsOn = true) (hheld : s.dev.held = false) (raw : Vector Int 44) (xt : Vector Nat 16)
    (sup : Vector Int 10) : ∃ t, exec (.thermScan raw xt sup) s = .next t ∧
      (∀ n : Fin 64, t.therm.sen[n] = (((s.supplyScan sup).scanRead raw xt).sensorEval n).1) ∧ t.power = (s.supplyScan sup).power := by
  show ∃ t, execThermScan raw xt sup s = .next t ∧ _
  unfold execThermScan
  rw [if_neg (by simp [hsns, hheld])]
  extract_lets s1 r s2 s3
  have hlog : Keeps (maskOf [.evq]) s2 s3 := s2.sensorLogs_keeps s1 r
  have hset : s2.therm.sen = r.map (fun q => q.1) := rfl
  have hsen : s3.therm.sen = r.map (fun q => q.1) := by rw [hlog.frame .therm (by decide), hset]
  have hread : Keeps (maskOf [.therm]) (s.supplyScan sup) s2 :=
    State.modTherm_keeps _ (State.scanRead_keeps raw xt (Keeps.refl _ _) (.ofParts (by decide))) (.ofParts (by decide))
  have hpower : s3.power = (s.supplyScan sup).power := (hlog.frame .power (by decide)).trans (hread.frame .power (by decide))
  clear_value s3
  refine ⟨_, rfl, fun n => ?_, (s3.scanEnd_power s).trans hpower⟩
  rw [s3.scanEnd_sen s, hsen]
  exact (Vector.getElem_map _ _).trans (congrArg Prod.fst (tab_at _ n))

/-! The Bank die's own scan. -/

/-- The hottest of the Bank die's sensors in a list, with its number (R471). -/
def hottestOf (c : Fin 4 → Int) (l : List (Fin 4)) : Option (Int × Nat) :=
  l.foldl (fun (a : Option (Int × Nat)) (i : Fin 4) => match a with
    | none => some (c i, 44 + i.val)
    | some q => if q.1 < c i then some (c i, 44 + i.val) else a) none

/-- The hottest of a list with one sensor more at its end. -/
theorem hottestOf_concat (c : Fin 4 → Int) (l : List (Fin 4)) (i : Fin 4) :
    hottestOf c (l ++ [i]) = match hottestOf c l with
      | none => some (c i, 44 + i.val)
      | some q => if q.1 < c i then some (c i, 44 + i.val) else hottestOf c l := by
  unfold hottestOf
  rw [List.foldl_append]
  rfl

/-- No sensor of the list is above the hottest one. -/
theorem le_hottestOf {c : Fin 4 → Int} {l : List (Fin 4)} {i : Fin 4} (h : i ∈ l) : ∃ q, hottestOf c l = some q ∧ c i ≤ q.1 := by
  induction l using List.reverseRecOn with
  | nil => simp at h
  | append_singleton l j ih =>
    rw [hottestOf_concat]
    obtain hi | hi := List.mem_append.1 h
    · obtain ⟨q, hq, hle⟩ := ih hi
      rw [hq]
      dsimp only
      split
      · next hlt => exact ⟨_, rfl, hle.trans hlt.le⟩
      · exact ⟨q, rfl, hle⟩
    · rw [List.mem_singleton.1 hi]
      split
      · exact ⟨_, rfl, le_rfl⟩
      · next q hq =>
        split
        · exact ⟨_, rfl, le_rfl⟩
        · next hlt => exact ⟨q, hq, not_lt.1 hlt⟩

/-- The hottest of a list of sensors below a temperature is below it. -/
theorem hottestOf_lt {c : Fin 4 → Int} {b : Int} {l : List (Fin 4)} (h : ∀ i ∈ l, c i < b) {q : Int × Nat} (hq : hottestOf c l = some q) :
    q.1 < b := by
  induction l using List.reverseRecOn generalizing q with
  | nil => simp [hottestOf] at hq
  | append_singleton l j ih =>
    have hj : c j < b := h j (List.mem_append_right _ (List.mem_singleton_self j))
    have hrest {p : Int × Nat} (hp : hottestOf c l = some p) : p.1 < b := ih (fun i hi => h i (List.mem_append_left _ hi)) hp
    rw [hottestOf_concat] at hq
    split at hq
    · obtain rfl := Option.some.inj hq
      exact hj
    · split at hq
      · obtain rfl := Option.some.inj hq
        exact hj
      · exact hrest hq

/-- A sensor of the Bank die (R464). -/
def bankSensor (i : Fin 4) : Fin 64 := ⟨44 + i.val, by omega⟩

/-- The readings of the Bank die's own sensors taken. -/
def State.bankRead (s : State) (raw : Vector Int 4) : State :=
  (fins 4).foldl (fun (t : State) (i : Fin 4) => t.modTherm (fun x => { x with
    sen := upd x.sen (bankSensor i) (fun y => { y with raw := raw[i] }) })) s

/-- Each reading is in its place, and nothing else of the hub and of the device changes. -/
theorem State.bankRead_spec (s : State) (raw : Vector Int 4) :
    (∀ j : Fin 4, (s.bankRead raw).therm.sen[bankSensor j].raw = raw[j]) ∧ (s.bankRead raw).therm.die = s.therm.die ∧
      Keeps (maskOf [.therm]) s (s.bankRead raw) := by
  have hne : ∀ i j : Fin 4, i ≠ j → bankSensor i ≠ bankSensor j := by decide
  refine ⟨fun j => ?_, ?_, ?_⟩
  · refine foldl_establishes (Q := fun j (t : State) => t.therm.sen[bankSensor j].raw = raw[j]) (fun u i => ?_) (fun u i k hik hu => ?_)
      (List.mem_finRange j) s
    · exact congrArg Sensor.raw (upd_at _ _ _)
    · exact (congrArg Sensor.raw (upd_ne _ _ (hne i k hik))).trans hu
  · exact List.foldlRecOn (motive := fun t : State => t.therm.die = s.therm.die) _ _ rfl fun _ ht _ _ => ht
  · exact Keeps.foldl _ (Keeps.refl _ s) fun _ _ h => State.modTherm_keeps _ h (.ofParts (by decide))

/-- The temperatures that the Bank die tests (R471). -/
def State.bankTemp (s : State) (raw : Vector Int 4) (i : Fin 4) : Int := raw[i] - s.therm.sen[bankSensor i].ofs

/-- The Bank die's own sensors that it trusts: with the heartbeat on, those that the hub does not suspect (R471). -/
def State.bankTrusted (s : State) : List (Fin 4) := (fins 4).filter fun i => !(s.bank.hbOk && s.therm.sen[bankSensor i].suspect)

/-- Two of the Bank die's sensors are at the shutdown temperature (R471). -/
def State.bankTwoHot (s : State) (raw : Vector Int 4) : Bool :=
  decide (2 ≤ ((fins 4).filter fun i => decide (1350 ≤ s.bankTemp raw i)).length)

theorem exec_bankThermalScan_of_on {s : State} (h : s.bank.on = true) (raw : Vector Int 4) :
    exec (.bankThermalScan raw) s = .next (match hottestOf (s.bankTemp raw) s.bankTrusted with
      | none => if s.bankTwoHot raw then (s.bankRead raw).dieMachine 7 1350 true 44 else s.bankRead raw
      | some q => (s.bankRead raw).dieMachine 7 q.1 (decide (1350 ≤ q.1) || s.bankTwoHot raw) q.2) := by
  refine (if_neg (by rw [h]; exact Bool.true_eq_false_eq_False)).trans ?_
  rfl

theorem State.dieMachine_of_run {s : State} {d : Fin 8} (h : s.therm.die[d].st = .run) (temp : Int) (hot : Bool) (hottest : Nat) :
    s.dieMachine d temp hot hottest = if hot then s.thermShutdown d temp hottest else s := by
  unfold State.dieMachine
  extract_lets x cool
  have hx : x.st = .run := h
  rw [hx]

/-- The record of a shutdown notes in the die's item that it was made (R474). -/
theorem State.shutRecord_spec (s : State) (d : Fin 8) :
    (∃ r, (s.shutRecord d).therm.die[d] = { s.therm.die[d] with recorded := r }) ∧ (s.shutRecord d).bank = s.bank := by
  unfold State.shutRecord
  extract_lets x s1
  split
  · exact ⟨⟨_, rfl⟩, rfl⟩
  · exact ⟨⟨true, upd_at s.therm.die d _⟩, rfl⟩

/-- The Bank die in shutdown opens both feeds (R472). -/
theorem State.dieShut_bank (s : State) :
    (s.dieShut 7).therm = s.therm ∧ ∀ f : Fin 2, (s.dieShut 7).bank.feed[f].state = .off := by
  have heq : s.dieShut 7 = (s.bankAllOff 6).modBank (fun b => { b with configured := false, next := none, cmds := [] }) := rfl
  rw [heq]
  refine ⟨(State.bankAllOff_keeps (wm := notTherm) 6 (Keeps.refl _ s) (.notTherm (by decide))).therm_eq, fun f => ?_⟩
  refine (congrArg Feed.state (s.bankAllOff_feed 6 f)).trans ?_
  exact (Feed.offNow_ends _ _).1

/-- The Bank die's shutdown: LATCHED within an hour of the last one, and both feeds open (R472, R473). -/
theorem State.thermShutdown_bank (s : State) (temp : Int) (hottest : Nat) :
    (s.thermShutdown 7 temp hottest).therm.die[(7 : Fin 8)].last = s.clk.shelf ∧
      (s.thermShutdown 7 temp hottest).therm.die[(7 : Fin 8)].st =
        (if s.therm.die[(7 : Fin 8)].last ≠ 0 ∧ s.clk.shelf ≤ s.therm.die[(7 : Fin 8)].last + 3600000000000 then .latched else .shutdown) ∧
      ∀ f : Fin 2, (s.thermShutdown 7 temp hottest).bank.feed[f].state = .off := by
  unfold State.thermShutdown
  extract_lets x latch s1 s2
  obtain ⟨htherm, hfeed⟩ : s2.therm = s1.therm ∧ ∀ f : Fin 2, s2.bank.feed[f].state = .off := s1.dieShut_bank
  have hdie : s2.therm.die[(7 : Fin 8)] = s1.therm.die[(7 : Fin 8)] := congrArg (fun t : Therm => t.die[(7 : Fin 8)]) htherm
  have hset : s1.therm.die[(7 : Fin 8)] = { s.therm.die[(7 : Fin 8)] with
      st := if latch then .latched else .shutdown, last := s.clk.shelf, count := satAdd 16 s.therm.die[(7 : Fin 8)].count 1, cool := 0
      recorded := false, temp := temp, hottest := hottest } := upd_at _ _ _
  have hlatch : (if latch then ThermState.latched else ThermState.shutdown) =
      (if x.last ≠ 0 ∧ s.clk.shelf ≤ x.last + 3600000000000 then .latched else .shutdown) := by
    simp only [latch, decide_eq_true_eq]
  rw [hlatch] at hset
  clear_value s2
  have hrecord : (∃ r, (if s2.hasActive then s2.shutRecord 7 else s2).therm.die[(7 : Fin 8)] = { s2.therm.die[(7 : Fin 8)] with recorded := r }) ∧
      (if s2.hasActive then s2.shutRecord 7 else s2).bank = s2.bank := by
    split
    · exact s2.shutRecord_spec 7
    · exact ⟨⟨_, rfl⟩, rfl⟩
  obtain ⟨⟨r, hr⟩, hbank⟩ := hrecord
  have hpins := State.faultScan_keeps_rest (if s2.hasActive then s2.shutRecord 7 else s2)
  rw [hpins.frame .therm (by decide), hpins.frame .bank (by decide), hr, hdie, hset]
  refine ⟨rfl, rfl, fun f => ?_⟩
  rw [hbank]
  exact hfeed f

/-- A Bank die in RUN with a sensor at the shutdown temperature shuts down (R471, R473). -/
theorem exec_bankThermalScan_of_hot {s : State} {raw : Vector Int 4} (hon : s.bank.on = true) (hrun : s.therm.die[(7 : Fin 8)].st = .run)
    (hsen : ∀ n : Fin 64, 44 ≤ n.val → n.val < 48 → s.therm.sen[n].ofs = 0 ∧ s.therm.sen[n].suspect = false) (hhot : ∃ j : Fin 4, 1350 ≤ raw[j]) :
    ∃ temp hottest, exec (.bankThermalScan raw) s = .next ((s.bankRead raw).thermShutdown 7 temp hottest) := by
  obtain ⟨j, hj⟩ := hhot
  have hbank (i : Fin 4) := hsen (bankSensor i) (Nat.le_add_right 44 i.val) (by simp only [bankSensor]; omega)
  have htrusted : j ∈ s.bankTrusted := List.mem_filter.2 ⟨List.mem_finRange j, by rw [(hbank j).2, Bool.and_false]; rfl⟩
  have htemp : s.bankTemp raw j = raw[j] := by rw [State.bankTemp, (hbank j).1, sub_zero]
  obtain ⟨q, hq, hle⟩ := le_hottestOf (c := s.bankTemp raw) htrusted
  have hq1 : 1350 ≤ q.1 := hj.trans (htemp ▸ hle)
  have hrun' : (s.bankRead raw).therm.die[(7 : Fin 8)].st = .run := by rw [(s.bankRead_spec raw).2.1]; exact hrun
  refine ⟨q.1, q.2, (exec_bankThermalScan_of_on hon raw).trans (congrArg Host.Outcome.next ?_)⟩
  rw [hq]
  dsimp only
  rw [State.dieMachine_of_run hrun', decide_eq_true hq1, Bool.true_or, if_pos rfl]

/-- A Bank die in RUN with every sensor below the shutdown temperature takes its readings (R471). -/
theorem exec_bankThermalScan_of_cool {s : State} {raw : Vector Int 4} (hon : s.bank.on = true) (hrun : s.therm.die[(7 : Fin 8)].st = .run)
    (hsen : ∀ n : Fin 64, 44 ≤ n.val → n.val < 48 → s.therm.sen[n].ofs = 0) (hcool : ∀ j : Fin 4, raw[j] < 1350) :
    exec (.bankThermalScan raw) s = .next (s.bankRead raw) := by
  have htemp (i : Fin 4) : s.bankTemp raw i < 1350 := by
    rw [State.bankTemp, hsen (bankSensor i) (Nat.le_add_right 44 i.val) (by simp only [bankSensor]; omega), sub_zero]
    exact hcool i
  have htwo : s.bankTwoHot raw = false := by
    have hnone : (fins 4).filter (fun i => decide (1350 ≤ s.bankTemp raw i)) = [] :=
      List.filter_eq_nil_iff.2 fun i _ => by simpa using htemp i
    rw [State.bankTwoHot, hnone]
    rfl
  have hrun' : (s.bankRead raw).therm.die[(7 : Fin 8)].st = .run := by rw [(s.bankRead_spec raw).2.1]; exact hrun
  refine (exec_bankThermalScan_of_on hon raw).trans (congrArg Host.Outcome.next ?_)
  rw [htwo]
  split
  · exact if_neg Bool.false_ne_true
  · next q hq =>
    have hlt := hottestOf_lt (fun i _ => htemp i) hq
    rw [State.dieMachine_of_run hrun', decide_eq_false (by omega), Bool.or_false, if_neg Bool.false_ne_true]

/-! The inputs of a scan. -/

/-- The measurement of the supplies leaves what the hub reads its sensors by. -/
theorem State.supplyScan_reads (s : State) (sup : Vector Int 10) :
    (s.supplyScan sup).therm = s.therm ∧ (s.supplyScan sup).cfg = s.cfg ∧ ∀ n, (s.supplyScan sup).sensorOn n = s.sensorOn n := by
  have h := s.supplyScan_keeps_rest sup
  exact ⟨h.frame .therm (by decide), h.frame .cfg (by decide), State.sensorOn_of_same (h.frame .die (by decide)) (h.frame .stems (by decide))
    (h.frame .bank (by decide)) (h.frame .cfg (by decide))⟩

/-- The sensor of an XT input (R464). -/
def inputSensor (k : Fin 16) : Fin 64 := ⟨48 + k.val, by omega⟩

theorem inputOf_inputSensor (k : Fin 16) : inputOf (inputSensor k) = k := by
  refine Fin.ext ?_
  simp only [inputOf, inputSensor]
  omega

theorem sensorDie_inputSensor (k : Fin 16) : sensorDie (inputSensor k) = none := by
  revert k
  decide

theorem State.sensorOn_inputSensor (s : State) (k : Fin 16) : s.sensorOn (inputSensor k) = (s.par P.THERM_XT_MODE k != 0) := by
  rw [State.sensorOn, sensorDie_inputSensor]
  simp only [inputSensor, Nat.add_sub_cancel_left]

theorem State.scanOut_inputSensor {s : State} {k : Fin 16} (h : s.par P.THERM_XT_MODE k ≠ 0) (xt : Vector Nat 16) :
    s.scanOut xt (inputSensor k) = s.xtOut k xt[k] := by
  rw [State.scanOut, State.sensorOn_inputSensor, bne_iff_ne.2 h, Bool.and_true,
    decide_eq_true (show 48 ≤ (inputSensor k).val from Nat.le_add_right 48 k.val), Bool.true_and]
  exact congrArg (fun j : Fin 16 => s.xtOut j xt[j]) (inputOf_inputSensor k)

/-- An on-die sensor of the hub that is converted (R466). -/
theorem State.scanRead_onDie {s : State} {n : Fin 64} (hn : n.val < 44) (hon : s.sensorOn n = true) (raw : Vector Int 44) (xt : Vector Nat 16) :
    (s.scanRead raw xt).therm.sen[n] = ({ s.therm.sen[n] with raw := raw[n.val], isOpen := false } : Sensor).corrected := by
  have hout : s.scanOut xt n = false := by
    rw [State.scanOut, decide_eq_false (show ¬ 48 ≤ n.val by omega), Bool.false_and, Bool.false_and]
  rw [State.scanRead_of_in hon hout, State.scanRaw, dif_pos hn]

/-- An XT input in its range (R466). -/
theorem State.scanRead_input {s : State} {k : Fin 16} {xt : Vector Nat 16} (hmode : s.par P.THERM_XT_MODE k ≠ 0) (hin : s.xtOut k xt[k] = false)
    (raw : Vector Int 44) : (s.scanRead raw xt).therm.sen[inputSensor k] =
      ({ s.therm.sen[inputSensor k] with raw := s.xtTemp k xt[k], isOpen := false } : Sensor).corrected := by
  have hout : s.scanOut xt (inputSensor k) = false := (State.scanOut_inputSensor hmode xt).trans hin
  have hlo : 48 ≤ (inputSensor k).val := Nat.le_add_right 48 k.val
  have hon : s.sensorOn (inputSensor k) = true := (s.sensorOn_inputSensor k).trans (bne_iff_ne.2 hmode)
  have htemp : s.xtTemp (inputOf (inputSensor k)) xt[inputOf (inputSensor k)] = s.xtTemp k xt[k] :=
    congrArg (fun j : Fin 16 => s.xtTemp j xt[j]) (inputOf_inputSensor k)
  rw [State.scanRead_of_in hon hout, State.scanRaw, dif_neg (by omega), if_pos ⟨hlo, hout⟩, htemp]

/-- The reading of an XT input in its range after a scan: the sensor has it, and its c (R466, R468). -/
theorem exec_thermScan_input {s : State} {k : Fin 16} {xt : Vector Nat 16} (hsns : s.dev.snsOn = true) (hheld : s.dev.held = false)
    (hmode : s.par P.THERM_XT_MODE k ≠ 0) (hin : s.xtOut k xt[k] = false) (raw : Vector Int 44) (sup : Vector Int 10) :
    ∃ t, exec (.thermScan raw xt sup) s = .next t ∧ t.therm.sen[inputSensor k].isOpen = false ∧
      t.therm.sen[inputSensor k].raw = s.xtTemp k xt[k] ∧
      t.therm.sen[inputSensor k].c = t.therm.sen[inputSensor k].raw - s.therm.sen[inputSensor k].ofs := by
  obtain ⟨t, ht, hsen, -⟩ := exec_thermScan_of_on hsns hheld raw xt sup
  obtain ⟨htherm, hcfg, -⟩ := s.supplyScan_reads sup
  have hpar (p : Prm) (i : Nat) : (s.supplyScan sup).par p i = s.par p i := by rw [State.par, hcfg]; rfl
  have hout : (s.supplyScan sup).xtOut k xt[k] = false := by rw [← hin, State.xtOut, State.xtOut, hpar]
  have htemp : (s.supplyScan sup).xtTemp k xt[k] = s.xtTemp k xt[k] := by
    simp only [State.xtTemp, State.parN, hpar]
  obtain ⟨hraw, hc, hopen⟩ := ((s.supplyScan sup).scanRead raw xt).sensorEval_reads (inputSensor k)
  rw [State.scanRead_input (by rw [hpar]; exact hmode) hout] at hraw hc hopen
  rw [htemp] at hraw hc
  refine ⟨t, ht, ?_⟩
  rw [hsen, hraw, hc, hopen]
  refine ⟨rfl, rfl, ?_⟩
  rw [htherm]
  rfl

/-! The automatic START and the controls. -/

theorem State.loopStart_of_stopped {s : State} {l : Fin 16} (hen : s.par P.LOOP_ENABLE l ≠ 0) (hstop : s.loop[l].ct.state = .stopped)
    (hcan : s.canStart l = true) : s.loopStart l = ((s.noAuto l).startLoop l 0, stOk) := by
  refine (if_neg hen).trans ?_
  unfold State.loopStartOn
  have hst : (s.noAuto l).loop[l].ct.state = .stopped := hstop
  rw [hst]
  exact if_pos hcan

/-- A die LATCHED goes to SHUTDOWN with its record (R473, R485). -/
theorem State.thermClearLatch_of_latched {s : State} {d : Fin 8} (h : s.therm.die[d].st = .latched) (k : Fin 8) :
    s.thermClearLatch d k = (((s.modTd d (fun x => { x with st := .shutdown })).ledgerNeed).log 0x1103 d.val (1 + k.val * 256 : Nat), stOk) :=
  if_pos h

/-- Settles O44: the scan by each sensor's reading, the Bank die's test by its hottest sensor, and the controls by their effect. -/
theorem temperatureNetwork : Obligations.TemperatureNetwork := by
  unfold Obligations.TemperatureNetwork
  refine ⟨?onDie, ?diode, ?thermistor, ?openInput, ?noDomain, ?hot, ?cool, ?bankOff, ?noStart, ?autoStart, ?clearLatch, ?notLatched, ?relearn⟩
  case onDie =>
    intro s raw xt sup n hsns hheld hon hnbr
    obtain ⟨t, ht, hsen, hpower⟩ := exec_thermScan_of_on hsns hheld raw xt sup
    obtain ⟨htherm, hcfg, hall⟩ := s.supplyScan_reads sup
    have hread := State.scanRead_onDie (n := ⟨n.val, by omega⟩) n.isLt ((hall _).trans hon) raw xt
    obtain ⟨hraw, hc, -⟩ := ((s.supplyScan sup).scanRead raw xt).sensorEval_reads ⟨n.val, by omega⟩
    have hkept : Keeps (maskOf [.therm]) (s.supplyScan sup) ((s.supplyScan sup).scanRead raw xt) :=
      State.scanRead_keeps raw xt (Keeps.refl _ _) (.ofParts (by decide))
    have husable : ((s.supplyScan sup).scanRead raw xt).sensorUsable ⟨n.val, by omega⟩ = true := by
      rw [State.sensorUsable, hread, State.sensorOn_of_same (hkept.frame .die (by decide)) (hkept.frame .stems (by decide))
        (hkept.frame .bank (by decide)) (hkept.frame .cfg (by decide)), hall, hon]
      rfl
    have hnone : ((s.supplyScan sup).scanRead raw xt).neighbours ⟨n.val, by omega⟩ = [] := by
      refine State.neighbours_of_none ?_
      rw [State.parN, State.par, hkept.frame .cfg (by decide), hcfg]
      exact hnbr
    obtain ⟨hown, hno, hofs⟩ := State.sensorEval_of_few husable (by rw [hnone]; decide)
    refine ⟨t, ht, ?_⟩
    rw [hsen, hraw, hc, hown, hno, hofs, hread, htherm, hpower, s.supplyScan_sup]
    refine ⟨rfl, rfl, rfl, rfl, rfl, ?_, ?_⟩
    · exact congrArg Supply.v (tab_at _ 0)
    · exact tab_at _ 4
  case diode =>
    intro s raw xt sup k hsns hheld hmode hlo hhi
    have hin : s.xtOut k xt[k] = false := by
      have hval : ¬ (xt[k] < 20000 ∨ 150000 < xt[k]) := by omega
      rw [State.xtOut, hmode, if_neg (by decide), decide_eq_false hval]
      rfl
    obtain ⟨t, ht, hopen, hraw, hc⟩ := exec_thermScan_input hsns hheld (by rw [hmode]; decide) hin raw sup
    refine ⟨t, ht, hopen, hraw.trans ?_, hc⟩
    rw [State.xtTemp, hmode, if_neg (by decide)]
    rfl
  case thermistor =>
    intro s raw xt sup k y hsns hheld hmode hlo hhi hy
    have hin : s.xtOut k xt[k] = false := by
      rw [State.xtOut, hmode, if_pos rfl, decide_eq_false (by omega)]
    obtain ⟨t, ht, hopen, hraw, -⟩ := exec_thermScan_input hsns hheld (by rw [hmode]; decide) hin raw sup
    refine ⟨t, ht, hopen, hraw.trans ?_⟩
    rw [State.xtTemp, hmode, if_pos rfl]
    dsimp only
    rw [hy, Option.getD_some]
  case openInput =>
    intro s raw xt sup k hsns hheld h
    have hmode : s.par P.THERM_XT_MODE k ≠ 0 := by
      obtain ⟨hm, -⟩ | ⟨hm, -⟩ := h <;> rw [hm] <;> decide
    have hxt : s.xtOut k xt[k] = true := by
      obtain ⟨hm, hv⟩ | ⟨hm, hv⟩ := h
      · rw [State.xtOut, hm, if_pos rfl, decide_eq_true hv]
      · rw [State.xtOut, hm, if_neg (by decide), decide_eq_true hv, Bool.and_true]
        rfl
    obtain ⟨t, ht, hsen, -⟩ := exec_thermScan_of_on hsns hheld raw xt sup
    obtain ⟨htherm, hcfg, hall⟩ := s.supplyScan_reads sup
    have hpar (p : Prm) (i : Nat) : (s.supplyScan sup).par p i = s.par p i := by rw [State.par, hcfg]; rfl
    have hout : (s.supplyScan sup).scanOut xt (inputSensor k) = true := by
      rw [State.scanOut_inputSensor (by rw [hpar]; exact hmode), State.xtOut, hpar, ← hxt]
      rfl
    obtain ⟨hkept, hopen⟩ := State.scanRead_of_out (raw := raw) (show 44 ≤ (inputSensor k).val by simp only [inputSensor]; omega) hout
    obtain ⟨hraw, -, hop⟩ := ((s.supplyScan sup).scanRead raw xt).sensorEval_reads (inputSensor k)
    have htopen : t.therm.sen[inputSensor k].isOpen = true := by rw [hsen, hop, hopen]
    refine ⟨t, ht, htopen, ?_, ?_⟩
    · refine (congrArg Sensor.raw (hsen (inputSensor k))).trans ?_
      rw [hraw, hkept, htherm]
      rfl
    · refine (congrArg (fun b => t.sensorOn (inputSensor k) && !b) htopen).trans ?_
      rw [Bool.not_true, Bool.and_false]
  case noDomain =>
    intro s raw xt sup h
    exact ⟨s, if_pos h, rfl⟩
  case hot =>
    intro s raw hon hrun hsen hhot
    obtain ⟨temp, hottest, hexec⟩ := exec_bankThermalScan_of_hot hon hrun hsen hhot
    obtain ⟨hlast, hst, hfeed⟩ := (s.bankRead raw).thermShutdown_bank temp hottest
    obtain ⟨-, hdie, hrest⟩ := s.bankRead_spec raw
    rw [hdie, hrest.frame .clk (by decide)] at hst
    rw [hrest.frame .clk (by decide)] at hlast
    refine ⟨_, hexec, hlast, hst, fun f => ?_⟩
    rw [hfeed f]
    decide
  case cool =>
    intro s raw hon hrun hsen hcool
    obtain ⟨hraw, hdie, hrest⟩ := s.bankRead_spec raw
    refine ⟨_, exec_bankThermalScan_of_cool hon hrun hsen hcool, ?_, hrest.frame .bank (by decide), hraw⟩
    rw [hdie]
    exact hrun
  case bankOff => exact fun s raw h => ⟨s, if_pos h, rfl⟩
  case noStart =>
    intro s l h
    refine ⟨s, congrArg Host.Outcome.next (if_neg ?_), rfl⟩
    rintro ⟨-, hauto, -, hcan⟩
    obtain h | h := h
    · exact Bool.false_ne_true (h.symm.trans hauto)
    · exact Bool.false_ne_true (h.symm.trans hcan)
  case autoStart =>
    intro s l hactive hauto hpar hen hstop hcan
    have heff : s.stamp.loopStart l = ((s.stamp.noAuto l).startLoop l 0, stOk) := State.loopStart_of_stopped hen hstop hcan
    have hkeeps := (s.stamp.noAuto l).startLoop_keeps_rest l 0
    refine ⟨((s.stamp.noAuto l).startLoop l 0), congrArg Host.Outcome.next ((if_pos ⟨hactive, hauto, hpar, hcan⟩).trans (congrArg Prod.fst heff)),
      hkeeps.frame .ord (by decide), ((s.stamp.noAuto l).startLoop_starts l 0).2.1, ?_⟩
    rw [hkeeps.frame .therm (by decide)]
    exact Vector.getElem_set_self _
  case clearLatch =>
    intro s d k hmay h
    obtain ⟨hctl, hkeeps⟩ := State.control_keeps_effect hmay fun t => t.thermClearLatch d k
    rw [State.thermClearLatch_of_latched h] at hctl hkeeps
    refine ⟨_, rfl, hctl, ?_, fun j hj => ?_, hkeeps.frame .evq (by decide)⟩
    · rw [hkeeps.frame .therm (by decide)]
      exact upd_at _ _ _
    · rw [hkeeps.frame .therm (by decide)]
      exact upd_ne _ _ hj
  case notLatched =>
    intro s d k hmay h
    obtain ⟨hctl, hkeeps⟩ := State.control_keeps_effect hmay fun t => t.thermClearLatch d k
    have heff : s.thermClearLatch d k = (s, stOk) := if_neg h
    rw [heff] at hctl hkeeps
    exact ⟨_, rfl, hctl, hkeeps.frame .therm (by decide), hkeeps.frame .evq (by decide)⟩
  case relearn =>
    intro s n k hmay
    obtain ⟨hctl, hkeeps⟩ := State.control_keeps_effect hmay fun t => (t.sensorRelearn n, stOk)
    have hn : (s.sensorRelearn n).therm.sen[n] = { s.therm.sen[n] with suspect := false, ofs := s.par P.THERM_OFS_INIT n, ofsRem := 0 } :=
      upd_at _ _ _
    refine ⟨_, rfl, hctl, ?_⟩
    rw [hkeeps.frame .therm (by decide), hn]
    exact ⟨rfl, rfl, rfl, fun j hj => upd_ne _ _ hj⟩

end Sys2Proof.Machine

/-! PROOFS. A key load at its apply input (R390, R403): the sessions of the slot end, and the end of the holding of HOLDUP can be a
handback, which is a stamped input of its own (R199, R400). -/

namespace Sys2Proof.Machine

/-- COMMIT_APPLY of a key load that passes. -/
theorem exec_commitApply_key {s : State} {c : Commit} {cs : List Commit} (ha : s.hasActive = true) (hc : s.host.commits = c :: cs)
    (hst : c.stage = .committed) (hk : c.kind = .key) (hbad : s.keyLoadBad (c.key == 15) c.data = false) :
    exec .commitApply s = .next (s.commitPop.stamp.applyKey c) := by
  have hpass : (s.applyCheck c).status = stOk := by
    rw [State.applyCheck, hk]
    dsimp only
    rw [hbad]
    rfl
  show execCommitApply s = _
  unfold execCommitApply
  rw [hc]
  dsimp only
  rw [if_neg (by rw [ha, hst]; decide), if_neg (not_not.2 hpass), hk]

/-- A key load that empties slot 0, sent by a session of slot 1 that has ended since, past its commit point. -/
def slotZeroLoad : Commit :=
  { sess := 0, key := 1, epoch := 0, seq := 0, op := 0x0702, tagged := false, kind := .key, entries := [], data :=
      List.replicate 4 0 ++ List.replicate 32 9
    stage := .committed }

/-- Stem A is active, the hold-up only waits for its handback, session 3 of key slot 0 holds HOLDUP, and a key load of slot 0 is due. -/
def holderLosesKey : State :=
  { State.reset with
    stems := { State.reset.stems with stem := upd State.reset.stems.stem 0 (fun x => { x with st := .active }) }
    hold := { State.reset.hold with state := .returnWait, timerDone := true }
    host := { State.reset.host with
      sess := upd State.reset.host.sess 3 (fun x => { x with state := .isOpen })
      permit := [(2, { Permit.none with holder := some 3 })]
      commits := [slotZeroLoad] } }

/-- The key load is one stamped input, and the handback at the end of the holding is another. -/
theorem holderLosesKey_applyKey_ord : (holderLosesKey.commitPop.stamp.applyKey slotZeroLoad).ord = holderLosesKey.ord + 2 := by
  decide +kernel

/-- Refutes O51: a key load that ends the session holding HOLDUP hands the loads back (R199, R400), so the order of the stamped inputs
moves on by two where the clause on key loads has one. -/
theorem not_commitPipeline : ¬ Obligations.CommitPipeline := by
  unfold Obligations.CommitPipeline
  rintro ⟨-, -, -, -, -, hkey⟩
  obtain ⟨t, ht, hord, -⟩ := hkey holderLosesKey slotZeroLoad [] 0 (by decide) rfl rfl rfl (by decide) (by decide) (by decide)
  obtain rfl := Host.Outcome.next.inj ((exec_commitApply_key (by decide) rfl rfl rfl (by decide)).symm.trans ht)
  rw [holderLosesKey_applyKey_ord] at hord
  omega

end Sys2Proof.Machine

/-! PROOFS. What the ends of permits and sessions leave: replies and notices change the sequence numbers and the stored replies of a
session and nothing else of it; a standing order leaves the permits, and the end of a holding touches the staging areas beside them
(R388, R393, R395, R400). -/

namespace Sys2Proof.Machine

/-! Three views of what an operation leaves. -/

/-- A session without what replies and notices move on. -/
def Sess.core (x : Sess) : Sess := { x with txSeq := 0, stored := [], out := [], noticeLost := 0, lostNew := 0 }

/-- A session without what replies, notices and the ends of holdings change. -/
def Sess.lasting (x : Sess) : Sess := { x.core with staging := [], stageLost := false }

/-- The boot generation stands, and events are added alone. -/
structure State.Adds (s t : State) : Prop where
  boot : t.nodes.bootGen = s.nodes.bootGen
  evq : s.evq <+: t.evq

/-- Messages go out: the sessions but for their numbering, and the permits, stand. -/
structure State.Talks (s t : State) : Prop extends s.Adds t where
  core : ∀ k, (t.sess k).core = (s.sess k).core
  permit : t.host.permit = s.host.permit

/-- Holdings end: the sessions but for their numbering and their staging areas stand. -/
structure State.Ends (s t : State) : Prop extends s.Adds t where
  lasting : ∀ k, (t.sess k).lasting = (s.sess k).lasting

variable {s t u : State}

theorem State.Adds.trans (h : s.Adds t) (g : t.Adds u) : s.Adds u := ⟨g.boot.trans h.boot, h.evq.trans g.evq⟩

theorem State.Talks.refl (s : State) : s.Talks s := ⟨⟨rfl, List.prefix_rfl⟩, fun _ => rfl, rfl⟩

theorem State.Talks.trans (h : s.Talks t) (g : t.Talks u) : s.Talks u :=
  ⟨h.toAdds.trans g.toAdds, fun k => (g.core k).trans (h.core k), g.permit.trans h.permit⟩

theorem State.Ends.refl (s : State) : s.Ends s := ⟨(State.Talks.refl s).toAdds, fun _ => rfl⟩

theorem State.Ends.trans (h : s.Ends t) (g : t.Ends u) : s.Ends u :=
  ⟨h.toAdds.trans g.toAdds, fun k => (g.lasting k).trans (h.lasting k)⟩

theorem State.Talks.ends (h : s.Talks t) : s.Ends t :=
  ⟨h.toAdds, fun k => congrArg (fun x : Sess => { x with staging := [], stageLost := false }) (h.core k)⟩

theorem State.Talks.of_same (hhost : t.host = s.host) (hboot : t.nodes.bootGen = s.nodes.bootGen) (hevq : s.evq <+: t.evq) : s.Talks t :=
  ⟨⟨hboot, hevq⟩, fun k => congrArg (fun h : Hosts => h.sess[k].core) hhost, congrArg Hosts.permit hhost⟩

theorem State.Talks.foldl {ι : Type} {f : State → ι → State} (h : ∀ u i, State.Talks u (f u i)) (is : List ι) (s : State) :
    s.Talks (is.foldl f s) :=
  List.foldlRecOn (motive := fun t : State => s.Talks t) is f (.refl s) fun t ht i _ => ht.trans (h t i)

theorem State.Ends.foldl {ι : Type} {f : State → ι → State} (h : ∀ u i, State.Ends u (f u i)) (is : List ι) (s : State) :
    s.Ends (is.foldl f s) :=
  List.foldlRecOn (motive := fun t : State => s.Ends t) is f (.refl s) fun t ht i _ => ht.trans (h t i)

/-- What the core of a session holds. -/
theorem State.Talks.fields (h : s.Talks t) (k : Fin 8) :
    (t.sess k).state = (s.sess k).state ∧ (t.sess k).port = (s.sess k).port ∧ (t.sess k).ep = (s.sess k).ep ∧
      (t.sess k).epoch = (s.sess k).epoch ∧ (t.sess k).staging = (s.sess k).staging ∧ (t.sess k).stageLost = (s.sess k).stageLost ∧
      (t.sess k).leaseAt = (s.sess k).leaseAt ∧ (t.sess k).rxSeq = (s.sess k).rxSeq := by
  have hk := h.core k
  exact ⟨(congrArg Sess.state hk :), (congrArg Sess.port hk :), (congrArg Sess.ep hk :), (congrArg Sess.epoch hk :), (congrArg Sess.staging hk :),
    (congrArg Sess.stageLost hk :), (congrArg Sess.leaseAt hk :), (congrArg Sess.rxSeq hk :)⟩

/-- What outlasts the ends of a session's holdings. -/
theorem State.Ends.fields (h : s.Ends t) (k : Fin 8) :
    (t.sess k).state = (s.sess k).state ∧ (t.sess k).port = (s.sess k).port ∧ (t.sess k).epoch = (s.sess k).epoch ∧
      (t.sess k).rxSeq = (s.sess k).rxSeq := by
  have hk := h.lasting k
  exact ⟨(congrArg Sess.state hk :), (congrArg Sess.port hk :), (congrArg Sess.epoch hk :), (congrArg Sess.rxSeq hk :)⟩

/-! Messages. -/

theorem State.sess_modSess_ne (s : State) (f : Sess → Sess) {k j : Fin 8} (h : j ≠ k) : (s.modSess k f).sess j = s.sess j :=
  upd_ne s.host.sess f h

theorem State.Talks.log (s : State) (code src : Nat) (data : Int) : s.Talks (s.log code src data) :=
  .of_same rfl rfl (List.prefix_append _ _)

theorem State.Talks.logAt (s : State) (code src : Nat) (data : Int) (time : Nat) : s.Talks (s.logAt code src data time) :=
  .of_same rfl rfl (List.prefix_append _ _)

theorem State.Talks.modLoop (s : State) (l : Fin 16) (f : Loop → Loop) : s.Talks (s.modLoop l f) := .of_same rfl rfl List.prefix_rfl

theorem State.Talks.modHold (s : State) (f : Hold → Hold) : s.Talks (s.modHold f) := .of_same rfl rfl List.prefix_rfl

theorem State.Talks.modSess (s : State) (k : Fin 8) (f : Sess → Sess) (h : ∀ x, (f x).core = x.core) : s.Talks (s.modSess k f) := by
  refine ⟨⟨rfl, List.prefix_rfl⟩, fun j => ?_, rfl⟩
  by_cases hj : j = k
  · rw [hj, s.modSess_sess_same k f, h]
  · rw [s.sess_modSess_ne f hj]

theorem State.Talks.modHp (s : State) (p : Fin 4) (f : HostPort → HostPort) : s.Talks (s.modHp p f) :=
  ⟨⟨rfl, List.prefix_rfl⟩, fun _ => rfl, rfl⟩

theorem State.Talks.pairOut (s : State) (k : Fin 8) (isNotice : Bool) (bs : List Byte) : s.Talks (s.pairOut k isNotice bs) := by
  unfold State.pairOut
  split
  · exact ⟨⟨rfl, List.prefix_rfl⟩, fun _ => rfl, rfl⟩
  · exact ⟨⟨rfl, List.prefix_rfl⟩, fun _ => rfl, rfl⟩

theorem State.Talks.reply (s : State) (k : Fin 8) (op seq status : Nat) (tagged : Bool) (body : List Byte) :
    s.Talks (s.reply k op seq status tagged body) :=
  (Talks.modSess s k (fun y => { y with txSeq := (s.sess k).nextSeq, stored := y.keep seq _ }) fun _ => rfl).trans (.pairOut _ _ _ _)

theorem State.Talks.answer (s : State) (n seq status : Nat) (body : List Byte) : s.Talks (s.answer n seq status body) := by
  unfold State.answer
  split
  next h =>
    extract_lets k
    split
    · exact .refl s
    next o _ =>
      exact (Talks.modSess s k (fun y => { y with out := y.out.filter (fun q => q.1 != seq) }) fun _ => rfl).trans
        (.reply _ _ _ _ _ _ _)
  · exact .refl s

theorem State.Talks.notice (s : State) (k : Fin 8) (op : Nat) (body : List Byte) : s.Talks (s.notice k op body).1 := by
  unfold State.notice
  extract_lets x key lost bs
  split
  · exact .refl s
  · split
    · exact .modSess s k _ fun _ => rfl
    · exact (Talks.modSess s k (fun y => { y with txSeq := x.nextSeq, lostNew := 0 }) fun _ => rfl).trans (.pairOut _ _ _ _)

theorem State.Talks.noticeAll (s : State) (sel op : Nat) (body : List Byte) : s.Talks (s.noticeAll sel op body) := by
  refine .foldl (fun u k => ?_) _ s
  split
  · exact .notice u k op body
  · exact .refl u

/-! The standing orders (R400). -/

theorem State.Talks.failHost (s : State) (r : NodeReq) : s.Talks (s.failHost r) := by
  unfold State.failHost
  split
  · exact .refl s
  · exact .answer s _ _ _ _

theorem State.Talks.modNode (s : State) (a : Nat) (f : NodeSess → NodeSess) : s.Talks (s.modNode a f) := .of_same rfl rfl List.prefix_rfl

theorem State.Talks.frameOut (s : State) (a : Nat) (f : Frame) : s.Talks (s.frameOut a f) := by
  have hk : Keeps (maskOf [.port, .passed]) s (s.frameOut a f) := State.frameOut_keeps a f (Keeps.refl _ s) (.ofParts (by decide))
  have hevq : (s.frameOut a f).evq = s.evq := hk.frame .evq (by decide)
  exact .of_same (hk.frame .host (by decide)) (congrArg Nodes.bootGen (hk.frame .nodes (by decide))) (hevq ▸ List.prefix_rfl)

theorem State.Talks.nodeSend (s : State) (a op flags : Nat) (body : List Byte) : s.Talks (s.nodeSend a op flags body) := by
  unfold State.nodeSend
  extract_lets n q
  split
  · exact (Talks.modNode s a _).trans (.frameOut _ a _)
  · exact .refl s

theorem State.Talks.nodeRequest (s : State) (a op : Nat) (body : List Byte) (who : ReqWho) : s.Talks (s.nodeRequest a op body who) := by
  unfold State.nodeRequest
  extract_lets n
  split
  · exact .refl s
  · split
    · exact .modNode s a _
    · exact (Talks.modNode s a _).trans (.nodeSend _ a op 2 body)

theorem State.Talks.nextReq (s : State) (a : Nat) : s.Talks (s.nextReq a) := by
  unfold State.nextReq
  split
  · exact .refl s
  · exact (Talks.modNode s a _).trans (.nodeRequest _ a _ _ _)

theorem State.Talks.relayAbandon (s : State) (p status : Nat) : s.Talks (s.relayAbandon p status) := by
  unfold State.relayAbandon
  split
  · exact .refl s
  · exact .of_same rfl rfl (List.prefix_append _ _)

theorem State.Talks.relayLapse (s : State) (p : Nat) : s.Talks (s.relayLapse p) := by
  unfold State.relayLapse
  split
  · exact .refl s
  next r _ =>
    extract_lets n own s1 s2
    have h1 : s.Talks s1 := (Talks.modNode s r.addr _).trans (.foldl State.Talks.failHost _ _)
    have h2 : s.Talks s2 := by
      unfold s2
      split
      · exact h1
      · split
        · exact h1.trans (((Talks.modNode s1 r.addr _).trans (.failHost _ _)).trans (.nextReq _ _))
        · exact h1
    exact h2.trans (.relayAbandon s2 p 0)

theorem State.Talks.weirLapse (s : State) : s.Talks s.weirLapse := by
  unfold State.weirLapse
  extract_lets mask
  split
  · exact .refl s
  · exact .of_same rfl rfl (List.prefix_append _ _)

theorem State.Talks.fwAbandon (s : State) : s.Talks s.fwAbandon := by
  unfold State.fwAbandon
  extract_lets t
  have ht : s.Talks t := .of_same rfl rfl List.prefix_rfl
  split
  · exact ht
  · split
    · exact ht
    · exact ht.trans (.answer t _ _ _ _)

theorem State.Talks.faultScan (s : State) : s.Talks s.faultScan := by
  have hk := s.faultScan_keeps_rest
  exact .of_same (hk.frame .host (by decide)) (congrArg Nodes.bootGen (hk.frame .nodes (by decide))) s.evq_prefix_faultScan

/-- A waiting feed-loss input that acts now touches its loop, the lag and the records (R107). -/
theorem State.Talks.lossEnter (s : State) (l : Fin 16) (q : LossIn) : s.Talks (s.lossEnter l q) := by
  unfold State.lossEnter
  extract_lets c enter
  have henter : ∀ n u, State.Talks u (enter n u) := fun n u =>
    ((Talks.modLoop u l _).trans (.logAt _ _ _ _ _)).trans (.faultScan _)
  clear_value enter
  split
  · split
    · exact (henter 0 s).trans (.of_same rfl rfl List.prefix_rfl)
    · exact .refl s
  · exact henter 1 s
  · split
    · exact (Talks.logAt s _ _ _ _).trans (henter 2 _)
    · split
      · exact .of_same rfl rfl List.prefix_rfl
      · exact henter 2 s
  · exact .refl s
  · exact .refl s

theorem State.Talks.loopHandback (s : State) (l : Fin 16) : s.Talks (s.loopHandback l) := by
  unfold State.loopHandback State.lossTake
  extract_lets c
  split
  · split
    · exact .of_same rfl rfl List.prefix_rfl
    · exact (Talks.lossEnter s l _).trans (.of_same rfl rfl List.prefix_rfl)
  · exact .refl s

theorem State.Talks.mbrTo (s : State) (m : Fin 64) (st : MemberState) : s.Talks (s.mbrTo m st) := by
  unfold State.mbrTo
  extract_lets x keep
  split
  · exact .refl s
  · exact .of_same rfl rfl (List.prefix_append _ _)

theorem State.Talks.sendHoldup (s : State) (a : Nat) : s.Talks (s.sendHoldup a) := by
  unfold State.sendHoldup
  split
  · exact .refl s
  · split
    · exact .nodeSend s a _ _ _
    · exact .refl s

theorem State.Talks.releaseMember (s : State) (m : Fin 64) : s.Talks (s.releaseMember m) := by
  unfold State.releaseMember
  split
  · exact .refl s
  · extract_lets a s1
    have h1 : s.Talks s1 := by
      unfold s1
      split
      · exact .mbrTo s m _
      · exact (Talks.mbrTo s m _).trans (.of_same rfl rfl List.prefix_rfl)
    exact h1.trans (.sendHoldup s1 a)

theorem State.Talks.holdTo (s : State) (st : HoldState) : s.Talks (s.holdTo st) := by
  unfold State.holdTo
  exact (Talks.modHold s _).trans (.noticeAll _ _ _ _)

theorem State.Talks.holdExitScan (s : State) : s.Talks s.holdExitScan := by
  unfold State.holdExitScan
  split
  · extract_lets ms
    exact ((Talks.modHold s _).trans (.holdTo _ .normal)).trans (.log _ _ _ _)
  · exact .refl s

theorem State.Talks.handback (s : State) (cause : Nat) : s.Talks (s.handback cause) := by
  unfold State.handback
  extract_lets s1 s2
  have h2 : s.Talks s2 := (Talks.log s _ _ _).trans (.foldl State.Talks.releaseMember _ s1)
  clear_value s2
  have hstamp : s2.Talks s2.stamp := .of_same rfl rfl List.prefix_rfl
  exact (((h2.trans hstamp).trans (.foldl State.Talks.loopHandback _ _)).trans (.holdTo _ _)).trans (.holdExitScan _)

theorem State.Talks.tryHandback (s : State) : s.Talks s.tryHandback := by
  unfold State.tryHandback
  split
  · split
    · exact .handback s 0
    · split
      · exact (Talks.modHold s _).trans (.handback _ 2)
      · exact .refl s
  · exact .refl s

/-- A standing order leaves the permits, and the sessions but for their numbering (R400). -/
theorem State.Talks.standingOrder (s : State) (k : Fin 8) (i : Nat) : s.Talks (s.standingOrder k i) := by
  unfold State.standingOrder
  extract_lets ends
  split
  · exact ⟨⟨rfl, List.prefix_rfl⟩, fun _ => rfl, rfl⟩
  · split
    · exact .weirLapse s
    · split
      · exact .tryHandback s
      · split
        · exact .fwAbandon s
        · split
          · exact .relayLapse s _
          · exact .refl s

/-! The end of a holding and of a session (R392, R393, R400). -/

theorem State.Ends.stageDrop (s : State) (k : Fin 8) (i : Nat) : s.Ends (s.stageDrop k i) := by
  refine ⟨⟨rfl, List.prefix_rfl⟩, fun j => ?_⟩
  unfold State.stageDrop
  by_cases hj : j = k
  · rw [hj, s.modSess_sess_same k]
    rfl
  · rw [s.sess_modSess_ne _ hj]

theorem State.Ends.setPermit (s : State) (i : Nat) (p : Permit) : s.Ends (s.setPermit i p) := ⟨⟨rfl, List.prefix_rfl⟩, fun _ => rfl⟩

/-- The state from which the standing order of a holding's end acts: the entries staged under it are dropped, nobody holds it, its end is
recorded (R400, R410). -/
def State.holdingEnded (s : State) (k : Fin 8) (i cause : Nat) : State :=
  ((s.stageDrop k i).setPermit i { s.permit i with holder := none, lease := 0 }).log 0x0E05 i
    (cause + k.val * 256 + (s.permit i).epoch * 2 ^ 32 : Nat)

theorem State.Ends.holdingEnded (s : State) (k : Fin 8) (i cause : Nat) : s.Ends (s.holdingEnded k i cause) :=
  ((Ends.stageDrop s k i).trans (.setPermit _ i _)).trans (State.Talks.log _ _ _ _).ends

/-- What follows the end of a holding changes neither permits nor staging areas (R400, R414, R433). -/
theorem State.permitEnd_talks {k : Fin 8} {i : Nat} (h : (s.permit i).holder = some k) (cause : Nat) :
    (s.holdingEnded k i cause).Talks (s.permitEnd i cause) := by
  unfold State.permitEnd
  extract_lets p
  rw [show p.holder = some k from h]
  dsimp -zeta only
  extract_lets s1 s2 pt s3
  have h2 : s1.Talks s2 := .standingOrder s1 k i
  clear_value s2
  have h3 : s1.Talks s3 := by
    unfold s3
    split
    · exact h2
    · exact h2.trans (.modHp s2 _ _)
  clear_value s3
  split
  · exact h3.trans (.notice s3 k _ _)
  · exact h3

theorem State.Ends.permitEnd (s : State) (i cause : Nat) : s.Ends (s.permitEnd i cause) := by
  cases h : (s.permit i).holder with
  | none =>
    rw [State.permitEnd, h]
    exact .refl s
  | some k => exact (Ends.holdingEnded s k i cause).trans (State.permitEnd_talks h cause).ends

/-- The end of a holding: nobody holds the permit, its session loses staged entries, its record stands (R400, R410). -/
theorem State.permitEnd_of_held {k : Fin 8} {i : Nat} (h : (s.permit i).holder = some k) (cause : Nat) :
    (s.permitEnd i cause).permit i = { s.permit i with holder := none, lease := 0 } ∧ ((s.permitEnd i cause).sess k).stageLost = true ∧
      (⟨0x0E05, i, toWord 64 (cause + k.val * 256 + (s.permit i).epoch * 2 ^ 32 : Nat), s.clk.shelf⟩ : LogEv) ∈ (s.permitEnd i cause).evq := by
  have ht := State.permitEnd_talks h cause
  refine ⟨?_, ?_, ht.evq.subset (List.mem_append_right _ (List.mem_singleton_self _))⟩
  · rw [State.permit, ht.permit]
    exact SMap.get_set_same ..
  · obtain ⟨-, -, -, -, -, hlost, -⟩ := ht.fields k
    rw [hlost]
    exact congrArg Sess.stageLost ((s.modSess_sess_same k _))

/-- What ends with an open session, up to the record of its end: its permits, its subscriptions and its transfers (R393). -/
def State.sessEmptied (s : State) (k : Fin 8) : State :=
  (((s.heldBy k).foldl (fun (t : State) i => t.permitEnd i 3) s).modPool (fun p => { p with
    subs := p.subs.filter (fun u => u.sess != k.val) })).modHost (fun h => { h with load := h.load.filter (fun q => q.sess != k) })

theorem State.Ends.sessEmptied (s : State) (k : Fin 8) : s.Ends (s.sessEmptied k) :=
  (Ends.foldl (fun u i => .permitEnd u i 3) (s.heldBy k) s).trans ⟨⟨rfl, List.prefix_rfl⟩, fun _ => rfl⟩

theorem State.sessOver_of_open {k : Fin 8} (h : (s.sess k).state = .isOpen) (cause : Nat) :
    s.sessOver k cause = ((s.sessEmptied k).modHp ⟨(s.sess k).port % 4, Nat.mod_lt _ (by omega)⟩ (fun y => { y with ended := true })).log
      0x0E02 k.val (cause + (s.sess k).epoch * 2 ^ 32 : Nat) := if_neg (not_not.2 h)

theorem State.sessOver_of_not_open {k : Fin 8} (h : (s.sess k).state ≠ .isOpen) (cause : Nat) : s.sessOver k cause = s := if_pos h

theorem State.Ends.sessOver (s : State) (k : Fin 8) (cause : Nat) : s.Ends (s.sessOver k cause) := by
  by_cases h : (s.sess k).state = .isOpen
  · rw [State.sessOver_of_open h]
    exact (Ends.sessEmptied s k).trans ((State.Talks.modHp _ _ _).trans (.log _ _ _ _)).ends
  · rw [State.sessOver_of_not_open h]
    exact .refl s

end Sys2Proof.Machine

/-! PROOFS. Sessions, permits and lock-outs that time out (R381, R382, R391 to R393, R397, R400, R410). -/

namespace Sys2Proof.Machine

variable {s : State} {k : Fin 8}

/-! A pair that is freed, and a session that starts anew (R382, R392). -/

theorem mbReq_ne_mbNotice (k : Fin 8) : mbReq k ≠ mbNotice k := fun h => by
  have hval : 2 * k.val = 2 * k.val + 1 := congrArg Fin.val h
  omega

theorem State.sess_unbind_same (s : State) (k : Fin 8) : (s.unbind k).sess k = { Sess.reset with noticeLost := (s.sess k).noticeLost } :=
  upd_at s.host.sess k _

theorem State.sess_unbind_ne (s : State) {k j : Fin 8} (h : j ≠ k) : (s.unbind k).sess j = s.sess j := upd_ne s.host.sess _ h

theorem State.mbReq_unbind (s : State) (k : Fin 8) : (s.unbind k).host.mb[mbReq k] = Mbox.reset :=
  (upd_ne _ _ (mbReq_ne_mbNotice k)).trans (upd_at _ _ _)

theorem State.mbNotice_unbind (s : State) (k : Fin 8) : (s.unbind k).host.mb[mbNotice k] = Mbox.reset := upd_at _ _ _

/-- A session that leaves PROVING or OPEN is CLAIMED on SPI and free on Ethernet (R392). -/
theorem State.toClaimed_state (s : State) (k : Fin 8) :
    ((s.toClaimed k).sess k).state = if 2 ≤ (s.sess k).port then .claimed else .free := by
  unfold State.toClaimed
  split
  · rw [s.modSess_sess_same k]
    rfl
  · rw [s.sess_unbind_same k]
    rfl

theorem State.toClaimed_sess_ne (s : State) {k j : Fin 8} (h : j ≠ k) : (s.toClaimed k).sess j = s.sess j := by
  unfold State.toClaimed
  split
  · exact s.sess_modSess_ne _ h
  · exact s.sess_unbind_ne h

/-- On SPI a session starts anew in its pair (R392). -/
theorem State.toClaimed_of_spi (h : 2 ≤ (s.sess k).port) : s.toClaimed k = s.modSess k (fun x => x.claimed s.clk.tick) := if_pos h

/-! The end of an open session (R393). -/

theorem State.sessOver_clk (s : State) (k : Fin 8) (cause : Nat) : (s.sessOver k cause).clk = s.clk := by
  have hk : Keeps 0xc823ad850 s (s.sessOver k cause) := State.sessOver_keeps k cause (Keeps.refl _ s) fun _ hi => hi
  exact hk.frame .clk (by decide)

/-- The end of an open session is recorded (R393, R410). -/
theorem State.sessOver_log (hopen : (s.sess k).state = .isOpen) (cause : Nat) :
    (⟨0x0E02, k.val, toWord 64 (cause + (s.sess k).epoch * 2 ^ 32 : Nat), s.clk.shelf⟩ : LogEv) ∈ (s.sessOver k cause).evq := by
  have hclk := s.sessOver_clk k cause
  rw [State.sessOver_of_open hopen] at hclk ⊢
  rw [← hclk]
  exact List.mem_append_right _ (List.mem_singleton_self _)

/-- It shows at the session's port. -/
theorem State.sessOver_ended {p : Fin 4} (hopen : (s.sess k).state = .isOpen) (hp : (s.sess k).port = p.val) (cause : Nat) :
    (s.sessOver k cause).host.port[p].ended = true := by
  have hslot : (⟨(s.sess k).port % 4, Nat.mod_lt _ (by omega)⟩ : Fin 4) = p := by
    rw [Fin.ext_iff]
    show (s.sess k).port % 4 = p.val
    rw [hp, Nat.mod_eq_of_lt p.isLt]
  rw [State.sessOver_of_open hopen, hslot]
  exact congrArg HostPort.ended (upd_at _ _ _)

/-- An open session of an SPI port that ends is CLAIMED from now on (R392). -/
theorem State.sessEnd_of_spi (hopen : (s.sess k).state = .isOpen) (hspi : 2 ≤ (s.sess k).port) (cause : Nat) :
    s.sessEnd k cause = (s.sessOver k cause).modSess k (fun x => x.claimed s.clk.tick) := by
  obtain ⟨-, hport, -⟩ := (State.Ends.sessOver s k cause).fields k
  rw [State.sessEnd, if_pos hopen, State.toClaimed_of_spi (by rw [hport]; exact hspi), State.sessOver_clk]

/-! The commands at their time. -/

theorem exec_sessionClaimTimeout_of_due (ha : s.hasActive = true) (hs : (s.sess k).state = .claimed)
    (hdue : (s.sess k).since + 2500000000 ≤ s.clk.tick) : exec (.sessionClaimTimeout k) s = .next (s.unbind k) :=
  congrArg Host.Outcome.next (if_pos ⟨ha, hs, hdue⟩)

theorem exec_sessionProveTimeout_of_due (ha : s.hasActive = true) (hs : (s.sess k).state = .proving)
    (hdue : (s.sess k).since + 250000000 ≤ s.clk.tick) : exec (.sessionProveTimeout k) s = .next (s.toClaimed k) :=
  congrArg Host.Outcome.next (if_pos ⟨ha, hs, hdue⟩)

theorem exec_sessionLeaseLapse_of_due (ha : s.hasActive = true)
    (hdue : (s.sess k).leaseAt + s.parN P.HOST_SESSION_LEASE 0 * 250000 ≤ s.clk.tick) :
    exec (.sessionLeaseLapse k) s = .next (s.sessEnd k 2) :=
  congrArg Host.Outcome.next (if_pos ⟨ha, hdue⟩)

theorem exec_permitLapse_of_due {i : Nat} (ha : s.hasActive = true) (hdue : (s.permit i).at_ + (s.permit i).lease * 250000 ≤ s.clk.tick) :
    exec (.permitLapse i) s = .next (s.permitEnd i 2) :=
  congrArg Host.Outcome.next (if_pos ⟨ha, hdue⟩)

/-- Where nobody holds a permit, or a session is not open, its end changes nothing. -/
theorem State.permitEnd_of_free {i : Nat} (h : (s.permit i).holder = none) (cause : Nat) : s.permitEnd i cause = s := by
  rw [State.permitEnd, h]

theorem State.sessEnd_of_not_open (h : (s.sess k).state ≠ .isOpen) (cause : Nat) : s.sessEnd k cause = s := if_neg h

/-- A link of an Ethernet port stands as the event gives it, with a record of a change (R381, R410). -/
theorem State.ethLink_port (s : State) (e : Fin 2) (up : Bool) :
    (s.ethLink e up).host.port[(⟨e.val, by omega⟩ : Fin 4)].link = up ∧
      (s.ethLink e up).evq = s.evq ++ (if s.host.port[(⟨e.val, by omega⟩ : Fin 4)].link = up then []
        else [⟨0x0E0B, e.val, toWord 64 (b2n up + s.parN P.HOST_ETH_MODE e * 256 : Nat), s.clk.shelf⟩]) := by
  unfold State.ethLink
  extract_lets p
  split
  next h => exact ⟨h, (List.append_nil _).symm⟩
  next h => exact ⟨congrArg HostPort.link (upd_at _ p _), rfl⟩

/-- Settles O45: each command before its time, and at it. -/
theorem sessionsTimeOut : Obligations.SessionsTimeOut := by
  unfold Obligations.SessionsTimeOut
  refine ⟨?claimEarly, ?proveEarly, ?leaseEarly, ?permitEarly, ?locked, ?claim, ?prove, ?lease, ?notOpen, ?permit, ?free, ?unlock, ?link⟩
  case claimEarly => exact fun s k h => ⟨s, congrArg Host.Outcome.next (if_neg fun hdue => Nat.not_le.2 h hdue.2.2), rfl⟩
  case proveEarly => exact fun s k h => ⟨s, congrArg Host.Outcome.next (if_neg fun hdue => Nat.not_le.2 h hdue.2.2), rfl⟩
  case leaseEarly => exact fun s k h => ⟨s, congrArg Host.Outcome.next (if_neg fun hdue => Nat.not_le.2 h hdue.2), rfl⟩
  case permitEarly => exact fun s i h => ⟨s, congrArg Host.Outcome.next (if_neg fun hdue => Nat.not_le.2 h hdue.2), rfl⟩
  case locked =>
    exact fun s k h => ⟨s, congrArg Host.Outcome.next (if_neg fun hdue => Bool.false_ne_true (hdue.2.symm.trans h)), rfl⟩
  case claim =>
    intro s k ha hs hdue
    refine ⟨_, exec_sessionClaimTimeout_of_due ha hs hdue, ?_, s.mbReq_unbind k, s.mbNotice_unbind k, fun j => s.sess_unbind_ne⟩
    rw [s.sess_unbind_same k]
    rfl
  case prove =>
    exact fun s k ha hs hdue =>
      ⟨_, exec_sessionProveTimeout_of_due ha hs hdue, s.toClaimed_state k, fun j => s.toClaimed_sess_ne⟩
  case lease =>
    intro s k p ha hopen hp hspi hdue
    have hexec := exec_sessionLeaseLapse_of_due ha hdue
    rw [State.sessEnd_of_spi hopen (hp ▸ hspi)] at hexec
    have hsess := (s.sessOver k 2).modSess_sess_same k (fun x => x.claimed s.clk.tick)
    refine ⟨_, hexec, ?_, ?_, ?_, State.sessOver_ended hopen hp 2, State.sessOver_log hopen 2⟩ <;> rw [hsess] <;> rfl
  case notOpen =>
    exact fun s k h => ⟨s, congrArg Host.Outcome.next ((congrArg (ite _ · s) (State.sessEnd_of_not_open h 2)).trans (ite_self s)), rfl⟩
  case permit =>
    intro s i k ha hk hdue
    obtain ⟨hpermit, hlost, hlog⟩ := State.permitEnd_of_held hk 2
    obtain ⟨hstate, -⟩ := (State.Ends.permitEnd s i 2).fields k
    exact ⟨_, exec_permitLapse_of_due ha hdue, congrArg Permit.holder hpermit, hstate, hlost, hlog⟩
  case free =>
    exact fun s i h => ⟨s, congrArg Host.Outcome.next ((congrArg (ite _ · s) (State.permitEnd_of_free h 2)).trans (ite_self s)), rfl⟩
  case unlock =>
    exact fun s k ha h => ⟨_, congrArg Host.Outcome.next (if_pos ⟨ha, h⟩), upd_at _ _ _, fun j hj => upd_ne _ _ hj⟩
  case link =>
    intro s e up hup hmode
    refine ⟨s.ethLink e up, congrArg Host.Outcome.next (if_neg ?_), s.ethLink_port e up⟩
    rw [hup]
    exact not_or.2 ⟨nofun, hmode⟩

end Sys2Proof.Machine

/-! PROOFS. The register space of the host ports (R374, R375, R377, R380, R381, R383, R385): single reads, and the SPI transactions that
write and read words. -/

namespace Sys2Proof.Machine

variable {s : State} {n : Fin 2}

/-! Reads. -/

theorem leNat_lt (bs : List Byte) : leNat bs < 256 ^ bs.length := by
  induction bs with
  | nil => exact Nat.one_pos
  | cons b bs ih =>
    have hb := b.isLt
    rw [leNat, List.length_cons, Nat.pow_succ]
    omega

/-- A word of four bytes fits a register. -/
theorem leNat_mod_of_four {bs : List Byte} (h : bs.length = 4) : leNat bs % 2 ^ 32 = leNat bs :=
  Nat.mod_eq_of_lt (by simpa [h] using leNat_lt bs)

theorem leAt_of_four {bs : List Byte} (h : bs.length = 4) : leAt bs 0 4 = leNat bs := congrArg leNat (List.take_of_length_le h.le)

/-- An entry of a message reads as its word on SPI: no tag of an entry is 0 (R375, R383). -/
theorem spiWord_head {x : Mbox} {w : List Nat} {ws : List (List Nat)} (h : x.rx = w :: ws) : spiWord x.head = w.getD x.part 0 := by
  have htag : mbTag x.part w.length ≠ 0 := by
    unfold mbTag
    split
    · decide
    · split <;> decide
  rw [Mbox.head, h]
  exact if_neg htag

/-- A mailbox whose next word is read (R375, R383). -/
def Mbox.wordRead (x : Mbox) : Mbox := match x.rx with
  | [] => x
  | w :: ws => if w.length ≤ x.part + 1 then { x with rx := ws, part := 0 } else { x with part := x.part + 1 }

theorem Mbox.wordRead_of_message {x : Mbox} {w : List Nat} {ws : List (List Nat)} (h : x.rx = w :: ws) :
    x.wordRead = if w.length ≤ x.part + 1 then { x with rx := ws, part := 0 } else { x with part := x.part + 1 } := by
  rw [Mbox.wordRead, h]

/-- MB_RX_READ of a bound mailbox with a complete message (R375, R383). -/
theorem exec_mbRxRead_of_message {m : Fin 16} {w : List Nat} {ws : List (List Nat)} (hup : s.hostUp = true)
    (hb : s.mbBound (spiPort n) m = true) (hrx : s.host.mb[m].rx = w :: ws) :
    ∃ t, exec (.mbRxRead n m) s = .next t ∧ t.host.port[spiPort n].rdata = w.getD s.host.mb[m].part 0 ∧
      t.host.mb[m] = s.host.mb[m].wordRead := by
  have hread : s.mbRead (spiPort n) m = (s.modHp (spiPort n) (fun x => { x with rdata := spiWord s.host.mb[m].head })).modMb m Mbox.wordRead :=
    if_neg (ne_false_of_eq_true hb)
  refine ⟨_, congrArg Host.Outcome.next ((if_pos hup).trans hread), ?_, upd_at _ m _⟩
  exact (congrArg HostPort.rdata (s.modHp_port_same (spiPort n) _)).trans (spiWord_head hrx)

/-- A host port with a register outside the mailboxes written (R377, R380, R381). -/
def HostPort.put (x : HostPort) (off v : Nat) : HostPort :=
  if off = 0x084 then { x with
    ended := w1c x.ended v 16, permitLost := w1c x.permitLost v 17, switched := w1c x.switched v 19, abandoned := w1c x.abandoned v 20 }
  else if off = 0x088 then { x with mask := v % 2 ^ 32 }
  else x.write off v

theorem State.regWrite_of_low {off : Nat} (h : off < 0x100) (s : State) (p : Fin 4) (v : Nat) :
    s.regWrite p off v = s.modHp p (fun x => x.put off v) := if_neg fun hin => Nat.not_le.2 h hin.1

/-! SPI transactions (R374, R375). -/

theorem State.modSpi_spi_same (s : State) (n : Fin 2) (f : SpiPort → SpiPort) : (s.modSpi n f).host.spi[n] = f s.host.spi[n] := upd_at _ _ _

theorem State.modSpi_modSpi (s : State) (n : Fin 2) (f g : SpiPort → SpiPort) : (s.modSpi n f).modSpi n g = s.modSpi n (fun x => g (f x)) :=
  congrArg (fun v => s.modHost (fun h => { h with spi := v })) (upd_upd s.host.spi n f g)

/-- The SPI port with the transaction that a fall of CS and these bytes begin. -/
def State.spiStarted (s : State) (n : Fin 2) (hd : List Byte) : State :=
  s.modSpi n (fun _ => ⟨spiOpen hd, [], none, if leAt hd 0 1 = 3 ∧ spiOpen hd ≠ .ignored then [0xFF#8, 0xFF#8] else []⟩)

theorem State.spiStarted_spi (s : State) (n : Fin 2) (hd : List Byte) : (s.spiStarted n hd).host.spi[n] =
    ⟨spiOpen hd, [], none, if leAt hd 0 1 = 3 ∧ spiOpen hd ≠ .ignored then [0xFF#8, 0xFF#8] else []⟩ := upd_at _ _ _

/-- What the bytes behind the header do, as the transaction stands (R374). -/
def State.spiClocked (s : State) (n : Fin 2) (data : List Byte) : State := match s.host.spi[n].run with
  | .ignored => s
  | .foreign => s.modSpi n (fun y => { y with shift := y.shift ++ List.replicate data.length 0xFF#8 })
  | _ => s.spiWords n (s.host.spi[n].part ++ data)

theorem exec_hostRegWrite_of_up (hup : s.hostUp = true) (n : Fin 2) (hd data : List Byte) :
    exec (.hostRegWrite n hd data) s = .next ((if hd = [] then s else s.spiStarted n hd).spiClocked n data) :=
  congrArg Host.Outcome.next (if_neg (ne_false_of_eq_true hup))

theorem exec_hostRegWrite_of_header {hd : List Byte} (hup : s.hostUp = true) (hhd : hd ≠ []) (data : List Byte) :
    exec (.hostRegWrite n hd data) s = .next ((s.spiStarted n hd).spiClocked n data) := by
  rw [exec_hostRegWrite_of_up hup, if_neg hhd]

theorem State.spiClocked_of_foreign (h : s.host.spi[n].run = .foreign) (data : List Byte) :
    s.spiClocked n data = s.modSpi n (fun y => { y with shift := y.shift ++ List.replicate data.length 0xFF#8 }) := by
  rw [State.spiClocked, h]

theorem State.spiWords_of_word {bs : List Byte} (h : bs.length = 4) (s : State) (n : Fin 2) :
    s.spiWords n bs = (s.spiWordAt n (leNat bs)).modSpi n (fun y => { y with part := [] }) := by
  rw [State.spiWords, h]
  simp [msgWords, List.take_of_length_le h.le, List.drop_of_length_le h.le]

/-- Four bytes of a WRITE are its next word. -/
theorem State.spiClocked_of_write {off : Nat} {data : List Byte} (hr : s.host.spi[n].run = .write off) (hp : s.host.spi[n].part = [])
    (h4 : data.length = 4) : s.spiClocked n data = (s.regWrite (spiPort n) off (leNat data)).modSpi n (fun y => { y with
      run := .write (spiNext off), part := [], wrote := if (mbTxAt off).isSome then mbTxAt off else y.wrote }) := by
  have hw : s.spiWordAt n (leNat data) = (s.regWrite (spiPort n) off (leNat data)).modSpi n (fun y => { y with
      run := .write (spiNext off), wrote := if (mbTxAt off).isSome then mbTxAt off else y.wrote }) := by
    rw [State.spiWordAt, hr]
  rw [State.spiClocked, hr]
  dsimp only
  rw [hp, List.nil_append, State.spiWords_of_word h4, hw, State.modSpi_modSpi]

/-- Four bytes of a READ drive the next word. -/
theorem State.spiClocked_of_read {off : Nat} {data : List Byte} (hr : s.host.spi[n].run = .read off) (hp : s.host.spi[n].part = [])
    (h4 : data.length = 4) : s.spiClocked n data = (s.regRead (spiPort n) off).2.modSpi n (fun y => { y with
      run := .read (spiNext off), part := [], shift := y.shift ++ leBytes 4 (s.regRead (spiPort n) off).1 }) := by
  have hw : s.spiWordAt n (leNat data) = (s.regRead (spiPort n) off).2.modSpi n (fun y => { y with
      run := .read (spiNext off), shift := y.shift ++ leBytes 4 (s.regRead (spiPort n) off).1 }) := by
    rw [State.spiWordAt, hr]
  rw [State.spiClocked, hr]
  dsimp only
  rw [hp, List.nil_append, State.spiWords_of_word h4, hw, State.modSpi_modSpi]

theorem State.regRead_scratch (s : State) (p : Fin 4) :
    s.regRead p 0x094 = (s.host.port[p].scratch, s.modHp p (fun x => { x with rdata := s.host.port[p].scratch })) :=
  congrArg (fun x : HostPort => (x.rdata, s.modHp p (fun x => { x with rdata := s.host.port[p].scratch }))) (s.modHp_port_same p _)

/-- Less than four bytes of a WRITE or READ write and read nothing. -/
theorem State.spiWords_of_short {bs : List Byte} (h : bs.length < 4) (s : State) (n : Fin 2) :
    s.spiWords n bs = s.modSpi n (fun y => { y with part := bs }) := by
  have h0 : bs.length / 4 = 0 := Nat.div_eq_of_lt h
  rw [State.spiWords, h0]
  rfl

/-- A WRITE of one register outside the mailboxes (R374, R375, R377). -/
theorem exec_hostRegWrite_of_put {hd data : List Byte} {off : Nat} (hup : s.hostUp = true) (hhd : hd ≠ []) (hrun : spiOpen hd = .write off)
    (hlow : off < 0x100) (h4 : data.length = 4) :
    ∃ t, exec (.hostRegWrite n hd data) s = .next t ∧ t.host.port = upd s.host.port (spiPort n) (fun x => x.put off (leNat data)) ∧
      t.host.mb = s.host.mb ∧ t.host.spi[n].run = .write (spiNext off) := by
  have hspi := s.spiStarted_spi n hd
  rw [hrun] at hspi
  have hclock := State.spiClocked_of_write (congrArg SpiPort.run hspi) (congrArg SpiPort.part hspi) h4
  rw [State.regWrite_of_low hlow] at hclock
  refine ⟨_, (exec_hostRegWrite_of_header hup hhd data).trans (congrArg Host.Outcome.next hclock), rfl, rfl, ?_⟩
  exact congrArg SpiPort.run (State.modSpi_spi_same _ n _)

/-- Bytes that make no whole word, and a transaction of no known kind, leave ports, mailboxes and sessions. -/
theorem State.spiClocked_rest {data : List Byte} (h : s.host.spi[n].part = [])
    (hno : data.length < 4 ∨ s.host.spi[n].run = .ignored ∨ s.host.spi[n].run = .foreign) :
    (s.spiClocked n data).host.port = s.host.port ∧ (s.spiClocked n data).host.mb = s.host.mb ∧
      (s.spiClocked n data).host.sess = s.host.sess := by
  unfold State.spiClocked
  split
  · exact ⟨rfl, rfl, rfl⟩
  · exact ⟨rfl, rfl, rfl⟩
  next hi hf =>
    obtain hshort | hrun | hrun := hno
    · rw [State.spiWords_of_short (by rw [h]; exact hshort)]
      exact ⟨rfl, rfl, rfl⟩
    · exact absurd hrun hi
    · exact absurd hrun hf

/-- A header that begins neither a WRITE nor a READ at a word of the register space (R374, R375). -/
theorem spiOpen_of_bad {hd : List Byte} (h3 : 3 ≤ hd.length)
    (hbad : (leAt hd 0 1 ≠ 2 ∧ leAt hd 0 1 ≠ 3) ∨ leAt hd 1 2 % 4 ≠ 0 ∨ 0x200 ≤ leAt hd 1 2) :
    spiOpen hd = if leAt hd 0 1 ≠ 2 ∧ leAt hd 0 1 ≠ 3 then .foreign else .ignored := by
  unfold spiOpen
  extract_lets a
  rw [if_neg (Nat.not_lt.2 h3)]
  split
  · rfl
  next hinstr => exact if_pos (hbad.resolve_left hinstr)

/-! Register accesses over Ethernet (R381). -/

/-- A register of the run from 0x000 to 0x038, but HR_TIME_LO, is read with no effect but the word driven. -/
theorem State.regRun_one {off : Nat} (hlow : off ≤ 0x038) (htime : off ≠ 0x020) (s : State) (p : Fin 4) :
    s.regRun p off 1 = ([s.hostReg p off], s.modHp p (fun x => { x with rdata := s.hostReg p off })) := by
  have hread : s.regRead p off = (s.hostReg p off, s.modHp p (fun x => { x with rdata := s.hostReg p off })) := by
    unfold State.regRead
    extract_lets t
    have ht : t = s.modHp p (fun x => { x with rdata := s.hostReg p off }) :=
      (if_neg htime).trans ((if_neg (by omega)).trans ((if_neg (by omega)).trans (if_neg (by omega))))
    rw [ht, State.modHp_port_same]
  rw [State.regRun, hread]
  rfl

/-- A sound read of one register (R381). -/
theorem exec_hostEthRegAccess_of_read {e : Fin 2} {ep : Endpoint} {data : List Byte} (hup : s.hostUp = true) (hlen : 8 ≤ data.length)
    (hmark : leAt data 0 4 = 0xFFFF0001) (hone : leAt data 6 1 = 1) (hal : leAt data 4 2 % 4 = 0) (hin : leAt data 4 2 < 0x200) :
    exec (.hostEthRegAccess e ep data) s = .next (if (if s.openAt e ep then 0x0E4 else 0x038) < leAt data 4 2 then
        s.sendTo e ep (regAnswer 0xFFFF0001 (leAt data 4 2) 1 1 [])
      else (s.regRun ⟨e.val, by omega⟩ (leAt data 4 2) 1).2.sendTo e ep
        (regAnswer 0xFFFF0001 (leAt data 4 2) 1 0 (s.regRun ⟨e.val, by omega⟩ (leAt data 4 2) 1).1)) := by
  refine congrArg Host.Outcome.next ((if_pos hup).trans ?_)
  unfold State.ethReg
  rw [hmark, hone]
  dsimp only
  rw [if_neg (by omega)]
  rfl

/-- Settles O46: each access by the transaction it is. -/
theorem hostRegisters : Obligations.HostRegisters := by
  unfold Obligations.HostRegisters
  refine ⟨?time, ?word, ?last, ?elsewhere, ?scratch, ?mask, ?status, ?read, ?moved, ?short, ?bad, ?ethRead, ?ethRefused, ?down⟩
  case time => exact fun s p hup => ⟨s.readTimeLo p, congrArg Host.Outcome.next (if_pos hup), rfl, upd_at _ p _, fun j hj => upd_ne _ _ hj⟩
  case word =>
    intro s n m w ws hup hb hrx hpart
    obtain ⟨t, ht, hdata, hmb⟩ := exec_mbRxRead_of_message hup hb hrx
    exact ⟨t, ht, hdata, hmb.trans ((Mbox.wordRead_of_message hrx).trans (if_neg (Nat.not_le.2 hpart)))⟩
  case last =>
    intro s n m w ws hup hb hrx hpart
    obtain ⟨t, ht, hdata, hmb⟩ := exec_mbRxRead_of_message hup hb hrx
    exact ⟨t, ht, hdata, hmb.trans ((Mbox.wordRead_of_message hrx).trans (if_pos hpart.ge))⟩
  case elsewhere =>
    intro s n m hup hb
    exact ⟨_, congrArg Host.Outcome.next ((if_pos hup).trans (if_pos hb)), congrArg HostPort.rdata (s.modHp_port_same (spiPort n) _), rfl⟩
  case scratch =>
    intro s n data hup h4
    obtain ⟨t, ht, hport, hmb, hrun⟩ := exec_hostRegWrite_of_put (n := n) (hd := [2#8, 0x94#8, 0#8]) (off := 0x094) hup (by decide) rfl
      (by decide) h4
    refine ⟨t, ht, ?_, hrun, fun j hj => ?_, hmb⟩
    · rw [hport, leAt_of_four h4]
      refine (upd_at _ _ _).trans ?_
      exact congrArg (fun v => { s.host.port[spiPort n] with scratch := v }) (leNat_mod_of_four h4)
    · rw [hport]
      exact upd_ne _ _ hj
  case mask =>
    intro s n data hup h4
    obtain ⟨t, ht, hport, hmb, -⟩ := exec_hostRegWrite_of_put (n := n) (hd := [2#8, 0x88#8, 0#8]) (off := 0x088) hup (by decide) rfl
      (by decide) h4
    refine ⟨t, ht, ?_, fun j hj => ?_, hmb⟩
    · rw [hport, leAt_of_four h4]
      refine (upd_at _ _ _).trans ?_
      exact congrArg (fun v => { s.host.port[spiPort n] with mask := v }) (leNat_mod_of_four h4)
    · rw [hport]
      exact upd_ne _ _ hj
  case status =>
    intro s n hup
    obtain ⟨t, ht, hport, -⟩ := exec_hostRegWrite_of_put (n := n) (hd := [2#8, 0x84#8, 0#8]) (off := 0x084)
      (data := [0#8, 0#8, 1#8, 0#8]) hup (by decide) rfl (by decide) rfl
    refine ⟨t, ht, ?_⟩
    have hbits : ∀ x : HostPort, x.put 0x084 (leNat [0#8, 0#8, 1#8, 0#8]) = { x with ended := false } := by
      intro x
      have hclear : ∀ b, w1c b (leNat [0#8, 0#8, 1#8, 0#8]) 16 = false := by decide
      have hkeep : ∀ i ∈ [17, 19, 20], ∀ b, w1c b (leNat [0#8, 0#8, 1#8, 0#8]) i = b := by decide
      rw [HostPort.put, if_pos rfl, hclear, hkeep 17 (by decide), hkeep 19 (by decide), hkeep 20 (by decide)]
    rw [hport]
    exact (upd_at _ _ _).trans (hbits _)
  case read =>
    intro s n data hup h4
    have hspi := s.spiStarted_spi n [3#8, 0x94#8, 0#8, 0#8, 0#8]
    have hrun : spiOpen [3#8, 0x94#8, 0#8, 0#8, 0#8] = .read 0x094 := rfl
    rw [hrun] at hspi
    have hclock := State.spiClocked_of_read (congrArg SpiPort.run hspi) (congrArg SpiPort.part hspi) h4
    refine ⟨_, (exec_hostRegWrite_of_header hup (by decide) data).trans (congrArg Host.Outcome.next hclock), ?_, rfl⟩
    rw [State.regRead_scratch, State.modSpi_spi_same]
    exact congrArg (fun x : SpiPort => { x with
      run := .read 0x098, part := [], shift := x.shift ++ leBytes 4 s.host.port[spiPort n].scratch }) hspi
  case moved =>
    intro s n data off hup h4 hrun hpart
    refine ⟨_, (exec_hostRegWrite_of_up hup n [] data).trans (congrArg Host.Outcome.next (State.spiClocked_of_write hrun hpart h4)), ?_⟩
    exact congrArg SpiPort.run (State.modSpi_spi_same _ n _)
  case short =>
    intro s n hd data hup hhd hlen
    exact ⟨_, exec_hostRegWrite_of_header hup hhd data,
      State.spiClocked_rest (congrArg SpiPort.part (s.spiStarted_spi n hd)) (.inl hlen)⟩
  case bad =>
    intro s n hd data hup h3 hbad
    have hhd : hd ≠ [] := List.ne_nil_of_length_pos (by omega)
    have hspi := s.spiStarted_spi n hd
    have hopen := spiOpen_of_bad h3 hbad
    have hno : spiOpen hd = .ignored ∨ spiOpen hd = .foreign := by
      rw [hopen]
      split
      · exact .inr rfl
      · exact .inl rfl
    rw [← show (s.spiStarted n hd).host.spi[n].run = spiOpen hd from congrArg SpiPort.run hspi] at hno
    obtain ⟨hport, hmb, hsess⟩ := State.spiClocked_rest (data := data) (congrArg SpiPort.part hspi) (.inr hno)
    refine ⟨_, exec_hostRegWrite_of_header hup hhd data, hport, hmb, hsess, fun hw hr => ?_⟩
    rw [if_pos ⟨hw, hr⟩] at hopen
    rw [State.spiClocked_of_foreign ((congrArg SpiPort.run hspi).trans hopen), State.modSpi_spi_same, hspi, if_neg fun h => hr h.1]
    rfl
  case ethRead =>
    intro s e ep data a hup hlen hmark ha hone hal hlow htime
    subst ha
    refine ⟨_, exec_hostEthRegAccess_of_read hup hlen hmark hone hal (by omega), ?_⟩
    rw [if_neg (by split <;> omega), State.regRun_one hlow htime]
    exact ⟨rfl, rfl, rfl⟩
  case ethRefused =>
    intro s e ep data a hup hlen hmark ha hone hal hhigh hin hopen
    subst ha
    refine ⟨_, exec_hostEthRegAccess_of_read hup hlen hmark hone hal hin, ?_⟩
    rw [hopen, if_pos (by simpa using hhigh)]
    exact ⟨rfl, rfl⟩
  case down => exact fun s n hd data hup => ⟨s, congrArg Host.Outcome.next (if_pos hup), rfl⟩

end Sys2Proof.Machine

/-! PROOFS. A request that passes the checks of R394 and R416: what it is served with, by the answer of its opcode's handler. -/

namespace Sys2Proof.Machine

variable {s u : State} {op : Nat} {q : Req} {b : List Byte}

/-! The session of a request that is served (R394). -/

theorem State.taken_sess_same (s : State) (q : Req) : (s.taken q).sess q.sess = { s.sess q.sess with
    rxSeq := q.seq
    win := if 64 ≤ (q.seq + 2 ^ 32 - (s.sess q.sess).rxSeq) % 2 ^ 32 then 1
      else ((s.sess q.sess).win * 2 ^ ((q.seq + 2 ^ 32 - (s.sess q.sess).rxSeq) % 2 ^ 32) + 1) % 2 ^ 64
    leaseAt := s.clk.tick } := State.modSess_sess_same _ q.sess _

/-- A sequence number newer than every one before is kept, and the request goes on to its opcode (R394). -/
theorem State.seqCheck_of_newer (h : seqNewer q.seq (s.sess q.sess).rxSeq = true) :
    (s.sluiceWork 2).stamp.seqCheck q.sess q.seq = (s.taken q, true) := by
  unfold State.seqCheck
  rw [if_pos (show seqNewer q.seq ((s.sluiceWork 2).stamp.sess q.sess).rxSeq = true from h)]
  rfl

/-- A request of a bound pair past steps 1 to 3 that opens no session, its sequence number newer than every one before, is served by its
opcode. -/
theorem State.serve_of_early (hs : (s.sess q.sess).state ≠ .free) (h0 : bit q.flags 0 = false) (h1 : bit q.flags 1 = false)
    (hearly : s.earlyCheck q.sess op q b = stOk) (hnew : seqNewer q.seq (s.sess q.sess).rxSeq = true) (hop : op ≠ 1) (entropy : Nat) :
    (s.sluiceWork 2).stamp.serve q.sess op q b entropy =
      if op = 2 then (s.taken q).sessionProve q.sess q b else (s.taken q).perform q.sess op q b := by
  have hfree : ((s.sluiceWork 2).stamp.sess q.sess).state ≠ .free := hs
  have hok : (s.sluiceWork 2).stamp.earlyCheck q.sess op q b = stOk := hearly
  unfold State.serve
  extract_lets x st r
  have hr : r = (s.taken q, true) := State.seqCheck_of_newer hnew
  rw [if_neg hfree, if_neg (by rw [h0, h1]; decide), if_neg (not_not.2 hok), if_neg hop, hr, if_neg (ne_false_of_eq_true rfl)]

/-- A request that passes is served by its opcode. -/
theorem State.serve_of_passes (h : s.passes op q b = true) (h1 : op ≠ 1) (h2 : op ≠ 2) (entropy : Nat) :
    (s.sluiceWork 2).stamp.serve q.sess op q b entropy = (s.taken q).perform q.sess op q b := by
  simp only [State.passes, Bool.and_eq_true, Bool.not_eq_true', beq_iff_eq] at h
  obtain ⟨⟨⟨⟨⟨hs, h0⟩, h01⟩, hearly⟩, hnew⟩, -⟩ := h
  rw [State.serve_of_early (by rw [hs]; decide) h0 h01 hearly hnew h1, if_neg h2]

/-! What is done with the handler's answer (R397, R416). -/

theorem State.perform_of_ok {k : Fin 8} {body : List Byte} (hc : s.opCheck k op q b = stOk)
    (hh : s.handle k op q b = (u, some (stOk, body))) :
    s.perform k op q b = ((u.useRenew (s.opPermits k op b)).reply k op q.seq stOk (bit q.flags 2) body).after k op b := by
  unfold State.perform
  rw [hc, hh]
  rfl

theorem State.perform_of_staged {k : Fin 8} {body : List Byte} (hc : s.opCheck k op q b = stOk)
    (hh : s.handle k op q b = (u, some (stStaged, body))) :
    s.perform k op q b = (u.useRenew (s.opPermits k op b)).reply k op q.seq stStaged (bit q.flags 2) body := by
  unfold State.perform
  rw [hc, hh]
  rfl

theorem State.perform_of_later {k : Fin 8} (hc : s.opCheck k op q b = stOk) (hh : s.handle k op q b = (u, none)) :
    s.perform k op q b = u.useRenew (s.opPermits k op b) := by
  unfold State.perform
  rw [hc, hh]
  rfl

theorem State.perform_of_refused {k : Fin 8} {st : Nat} {body : List Byte} (hc : s.opCheck k op q b = stOk)
    (hh : s.handle k op q b = (u, some (st, body))) (hst : st ≠ stOk ∧ st ≠ stStaged) :
    s.perform k op q b = u.reply k op q.seq st (bit q.flags 2) body := by
  unfold State.perform
  rw [hc, hh]
  exact if_neg (not_or.2 hst)

/-! An accepted request. -/

theorem State.request_of_ok {body : List Byte} (h : s.accepted op q b = true) (h1 : op ≠ 1) (h2 : op ≠ 2)
    (hh : (s.taken q).handle q.sess op q b = (u, some (stOk, body))) : s.request op q b =
      ((u.useRenew ((s.taken q).opPermits q.sess op b)).reply q.sess op q.seq stOk (bit q.flags 2) body).after q.sess op b := by
  rw [s.request_accepted op q b h h1 h2, State.perform_of_ok (s.opCheck_taken op q b h) hh]

theorem State.request_of_staged {body : List Byte} (h : s.accepted op q b = true) (h1 : op ≠ 1) (h2 : op ≠ 2)
    (hh : (s.taken q).handle q.sess op q b = (u, some (stStaged, body))) : s.request op q b =
      (u.useRenew ((s.taken q).opPermits q.sess op b)).reply q.sess op q.seq stStaged (bit q.flags 2) body := by
  rw [s.request_accepted op q b h h1 h2, State.perform_of_staged (s.opCheck_taken op q b h) hh]

theorem State.request_of_later (h : s.accepted op q b = true) (h1 : op ≠ 1) (h2 : op ≠ 2)
    (hh : (s.taken q).handle q.sess op q b = (u, none)) : s.request op q b = u.useRenew ((s.taken q).opPermits q.sess op b) := by
  rw [s.request_accepted op q b h h1 h2, State.perform_of_later (s.opCheck_taken op q b h) hh]

theorem State.request_of_refused {st : Nat} {body : List Byte} (h : s.accepted op q b = true) (h1 : op ≠ 1) (h2 : op ≠ 2)
    (hh : (s.taken q).handle q.sess op q b = (u, some (st, body))) (hst : st ≠ stOk ∧ st ≠ stStaged) :
    s.request op q b = u.reply q.sess op q.seq st (bit q.flags 2) body := by
  rw [s.request_accepted op q b h h1 h2, State.perform_of_refused (s.opCheck_taken op q b h) hh hst]

/-! What a reply leaves. -/

theorem State.reply_keeps_rest (s : State) (k : Fin 8) (op seq status : Nat) (tagged : Bool) (body : List Byte) :
    Keeps (maskOf [.host, .passed]) s (s.reply k op seq status tagged body) :=
  State.reply_keeps k op seq status tagged body (Keeps.refl _ s) (.ofParts (by decide))

/-- Leases of permits that start again change the permits alone (R397). -/
theorem State.useRenew_eq (s : State) (is : List Nat) : ∃ p, s.useRenew is = s.modHost (fun h => { h with permit := p }) := by
  refine List.foldlRecOn (motive := fun t : State => ∃ p, t = s.modHost (fun h => { h with permit := p })) is _ ⟨s.host.permit, rfl⟩ ?_
  rintro t ⟨p, rfl⟩ i -
  unfold State.renewPermit
  extract_lets x
  split
  · exact ⟨_, rfl⟩
  · exact ⟨p, rfl⟩

end Sys2Proof.Machine

/-! PROOFS. Mailboxes, doorbells and Ethernet frames (R370 to R373, R376, R382 to R387, R394). -/

namespace Sys2Proof.Machine

variable {s : State} {n : Fin 2} {m : Fin 16}

/-! Mailboxes written by an SPI port (R375, R383, R384). -/

theorem State.modMb_mb_same (s : State) (m : Fin 16) (f : Mbox → Mbox) : (s.modMb m f).host.mb[m] = f s.host.mb[m] := upd_at _ _ _

theorem State.modMb_modMb (s : State) (m : Fin 16) (f g : Mbox → Mbox) : (s.modMb m f).modMb m g = s.modMb m (fun x => g (f x)) :=
  congrArg (fun v => s.modHost (fun h => { h with mb := v })) (upd_upd s.host.mb m f g)

/-- A bit of MB_CTL other than CLAIM at a mailbox bound to the port (R384). -/
theorem State.mbBit_of_bound {p : Fin 4} (hb : s.mbBound p m = true) {i : Nat} (hi : i ≠ 0) :
    s.mbBit p m i = if i = 1 then s.sessRelease (pairOf m) else if i = 2 then s.doorbell m else if i = 3 then s.mbDiscard m else s.mbSkip m := by
  rw [State.mbBit, if_neg hi, if_neg (ne_false_of_eq_true hb)]

/-- A mailbox is the request or the notice mailbox of its pair (R382). -/
theorem mbox_of_pair (m : Fin 16) : m = mbReq (pairOf m) ∨ m = mbNotice (pairOf m) := by
  obtain h | h := Nat.mod_two_eq_zero_or_one m.val
  · exact .inl (Fin.ext (show m.val = 2 * (m.val / 2) by omega))
  · exact .inr (Fin.ext (show m.val = 2 * (m.val / 2) + 1 by omega))

theorem State.mb_unbind (s : State) (m : Fin 16) : (s.unbind (pairOf m)).host.mb[m] = Mbox.reset := by
  obtain h | h := mbox_of_pair m
  · exact (congrArg (fun j : Fin 16 => (s.unbind (pairOf m)).host.mb[j]) h).trans (s.mbReq_unbind (pairOf m))
  · exact (congrArg (fun j : Fin 16 => (s.unbind (pairOf m)).host.mb[j]) h).trans (s.mbNotice_unbind (pairOf m))

theorem State.not_free_of_mbBound {p : Fin 4} (hb : s.mbBound p m = true) : (s.sess (pairOf m)).state ≠ .free := by
  rw [State.mbBound, Bool.and_eq_true, bne_iff_ne] at hb
  exact hb.1

/-- RELEASE frees the pair of a bound mailbox (R384, R392). -/
theorem State.sessRelease_of_bound (h : (s.sess (pairOf m)).state ≠ .free) (p : Fin 4) :
    ((s.sessRelease (pairOf m)).sess (pairOf m)).state = .free ∧ (s.sessRelease (pairOf m)).host.mb[m] = Mbox.reset ∧
      (s.sessRelease (pairOf m)).mbBound p m = false := by
  have hfree : ((s.sessRelease (pairOf m)).sess (pairOf m)).state = .free := by
    rw [State.sessRelease, if_neg h, State.sess_unbind_same]
    rfl
  refine ⟨hfree, ?_, ?_⟩
  · rw [State.sessRelease, if_neg h]
    exact State.mb_unbind _ m
  · rw [State.mbBound, hfree]
    rfl

/-- A pair bound to a port is CLAIMED from now on (R382). -/
theorem State.sess_bindPair_same (s : State) (k : Fin 8) (port : Nat) (ep : Endpoint) : (s.bindPair k port ep).sess k =
    { Sess.reset with noticeLost := (s.sess k).noticeLost, state := .claimed, port := port, ep := ep, since := s.clk.tick } := by
  rw [State.bindPair, State.modSess_sess_same, State.sess_unbind_same]

theorem State.sess_bindPair_ne (s : State) {k j : Fin 8} (h : j ≠ k) (port : Nat) (ep : Endpoint) :
    (s.bindPair k port ep).sess j = s.sess j := (State.sess_modSess_ne _ _ h).trans (s.sess_unbind_ne h)

/-! Words and doorbells (R383, R386). -/

/-- A doorbell behind words that fit their LEN rings the request (R386). -/
theorem State.doorbell_of_sound (ht : s.host.mb[m].tx ≠ []) (hc : s.bellCause m = 0) : s.doorbell m =
    (s.modMb m (fun y => { y with tx := [], lost := false, rejected := y.rejected || false })).modHost (fun h => { h with
      rung := h.rung ++ [(m, s.host.mb[m].tx)] }) := by
  rw [State.doorbell, if_neg fun h => ht h.1, hc]
  rfl

/-- One that is refused sets REJECTED and is recorded (R386). -/
theorem State.doorbell_of_refused (ht : s.host.mb[m].tx ≠ []) (hc : s.bellCause m ≠ 0) : s.doorbell m =
    (s.modMb m (fun y => { y with tx := [], lost := false, rejected := y.rejected || true })).log 0x0E09 m.val (s.bellCause m : Nat) := by
  have hne : (s.bellCause m != 0) = true := bne_iff_ne.2 hc
  rw [State.doorbell, if_neg fun h => ht h.1]
  dsimp only
  rw [if_neg hc, hne]

/-- Words for which there is room enter the request queue in order (R383). -/
theorem State.mbPush_words (heven : m.val % 2 = 0) (ws : List Nat) :
    ∀ s : State, (∀ w ∈ ws, w < 2 ^ 32) → ws.length ≤ s.txFree m →
      ws.foldl (fun (t : State) w => t.mbPush m w) s = s.modMb m (fun x => { x with tx := x.tx ++ ws }) := by
  induction ws with
  | nil =>
    intro s _ _
    have hsame : upd s.host.mb m (fun x => { x with tx := x.tx ++ [] }) = s.host.mb :=
      upd_id (congrArg (fun l => { s.host.mb[m] with tx := l }) (List.append_nil _))
    rw [State.modMb, State.modHost, hsame]
    rfl
  | cons w ws ih =>
    intro s hlt hroom
    rw [List.length_cons] at hroom
    have hpush : s.mbPush m w = s.modMb m (fun x => { x with tx := x.tx ++ [w] }) := by
      rw [State.mbPush, if_neg (by omega), if_neg (by omega), Nat.mod_eq_of_lt (hlt w List.mem_cons_self)]
    have hfree : (s.modMb m (fun x => { x with tx := x.tx ++ [w] })).txFree m + 1 = s.txFree m := by
      have hrung : (s.modMb m (fun x => { x with tx := x.tx ++ [w] })).rungOf m = s.rungOf m := rfl
      unfold State.txFree at hroom ⊢
      rw [hrung, State.modMb_mb_same, List.length_append, List.length_singleton]
      omega
    rw [List.foldl_cons, hpush, ih _ (fun v hv => hlt v (List.mem_cons_of_mem _ hv)) (by omega)]
    rw [State.modMb_modMb]
    simp only [List.append_assoc, List.singleton_append]

/-! A message put into a mailbox whole (R372, R386, R411, R412). -/

theorem msgWords_length (k : Nat) (bs : List Byte) : (msgWords k bs).length = k := by
  induction k generalizing bs with
  | zero => rfl
  | succ k ih => rw [msgWords, List.length_cons, ih]

theorem msgWords_lt (k : Nat) (bs : List Byte) : ∀ w ∈ msgWords k bs, w < 2 ^ 32 := by
  induction k generalizing bs with
  | zero => exact fun w hw => absurd hw List.not_mem_nil
  | succ k ih =>
    intro w hw
    obtain rfl | hw := List.mem_cons.1 hw
    · calc leNat (bs.take 4) < 256 ^ (bs.take 4).length := leNat_lt _
        _ ≤ 256 ^ 4 := Nat.pow_le_pow_right (by decide) (List.length_take_le 4 bs)
        _ = 2 ^ 32 := by decide
    · exact ih _ w hw

theorem leNat_drop (k : Nat) (bs : List Byte) : leNat (bs.drop k) = leNat bs / 256 ^ k := by
  induction k generalizing bs with
  | zero => rw [List.drop_zero, Nat.pow_zero, Nat.div_one]
  | succ k ih =>
    cases bs with
    | nil => rw [List.drop_nil, leNat, Nat.zero_div]
    | cons b bs =>
      have hb := b.isLt
      rw [List.drop_succ_cons, ih, leNat, Nat.pow_succ', ← Nat.div_div_eq_div_mul]
      congr 1
      omega

/-- The upper half of a message's first word is its LEN (R411). -/
theorem msgWords_head (k : Nat) (bs : List Byte) : (msgWords (k + 1) bs).headD 0 / 65536 = msgLen bs := by
  show leNat (bs.take 4) / 256 ^ 2 = _
  rw [← leNat_drop, List.drop_take]
  rfl

theorem msgLen_take {bs : List Byte} {k : Nat} (h : 4 ≤ k) : msgLen (bs.take k) = msgLen bs := by
  unfold msgLen leAt
  rw [List.drop_take, List.take_take, Nat.min_eq_left (by omega)]

/-- A message of one frame of a bound endpoint, put into its request mailbox and rung. -/
def State.ringMsg (s : State) (k : Fin 8) (bs : List Byte) : State :=
  ((msgWords (ceilDiv bs.length 4) bs).foldl (fun (u : State) w => u.mbPush (mbReq k) w) s).doorbell (mbReq k)

/-- A sound message with room for it in an empty mailbox is rung (R386). -/
theorem State.ringMsg_of_sound {k : Fin 8} {bs : List Byte} (htx : s.host.mb[mbReq k].tx = []) (hlost : s.host.mb[mbReq k].lost = false)
    (hfour : (s.rungOf (mbReq k)).length < 4) (hlo : 12 ≤ bs.length) (hhi : bs.length ≤ 1440) (hlen : msgLen bs = bs.length)
    (hroom : ceilDiv bs.length 4 ≤ s.txFree (mbReq k)) :
    (s.ringMsg k bs).host.sent = s.host.sent ∧ (s.ringMsg k bs).host.mb[mbReq k].tx = [] ∧
      (s.ringMsg k bs).host.rung = s.host.rung ++ [(mbReq k, msgWords (ceilDiv bs.length 4) bs)] := by
  obtain ⟨c, hc⟩ : ∃ c, ceilDiv bs.length 4 = c + 1 := ⟨ceilDiv bs.length 4 - 1, by unfold ceilDiv; omega⟩
  have hpush := State.mbPush_words (show (mbReq k).val % 2 = 0 from Nat.mul_mod_right 2 k.val) (msgWords (ceilDiv bs.length 4) bs) s
    (msgWords_lt _ _) ((msgWords_length _ _).trans_le hroom)
  have hmb : (s.modMb (mbReq k) (fun x => { x with tx := x.tx ++ msgWords (ceilDiv bs.length 4) bs })).host.mb[mbReq k] =
      { s.host.mb[mbReq k] with tx := msgWords (ceilDiv bs.length 4) bs } := by
    rw [State.modMb_mb_same, htx, List.nil_append]
  rw [State.ringMsg, hpush]
  generalize hu : s.modMb (mbReq k) (fun x => { x with tx := x.tx ++ msgWords (ceilDiv bs.length 4) bs }) = u at hmb
  have hrung : u.host.rung = s.host.rung := by rw [← hu]; rfl
  have hsent : u.host.sent = s.host.sent := by rw [← hu]; rfl
  have htx' : u.host.mb[mbReq k].tx = msgWords (ceilDiv bs.length 4) bs := congrArg Mbox.tx hmb
  have hne : u.host.mb[mbReq k].tx ≠ [] := by
    rw [htx', hc]
    exact List.cons_ne_nil _ _
  have hhead : u.host.mb[mbReq k].tx.headD 0 / 65536 = bs.length := by
    rw [htx', hc, msgWords_head, hlen]
  have hcount : u.host.mb[mbReq k].tx.length = ceilDiv bs.length 4 := by rw [htx', msgWords_length]
  have hcause : u.bellCause (mbReq k) = 0 := by
    have hpending : (u.rungOf (mbReq k)).length < 4 := by
      rw [State.rungOf, hrung]
      exact hfour
    have hlost' : u.host.mb[mbReq k].lost = false := (congrArg Mbox.lost hmb).trans hlost
    unfold State.bellCause
    extract_lets x len
    have hl : len = bs.length := hhead
    rw [show x.lost = false from hlost', if_neg Bool.false_ne_true, hl, if_neg (by rw [show x.tx.length = _ from hcount]; omega),
      if_neg (by omega)]
  rw [State.doorbell_of_sound hne hcause]
  refine ⟨hsent, congrArg Mbox.tx (State.modMb_mb_same u _ _), ?_⟩
  rw [← hrung, ← htx']
  rfl

/-- HOST_ETH_FRAME with a message of a bound endpoint (R371, R372, R382). -/
theorem exec_hostEthFrame_of_message {e : Fin 2} {f : EthFrame} {k : Fin 8} (hup : s.hostUp = true) (hacc : s.ethAccepts e f = true)
    (hmsg : s.ethMsg e f = true) (hmark : leAt f.data 0 4 < 0xFFFF0000) (hpair : s.pairAt e.val f.ep = some k) (hlo : 4 ≤ msgLen f.data) :
    exec (.hostEthFrame e f) s = .next (s.ringMsg k (f.data.take (msgLen f.data))) := by
  refine congrArg Host.Outcome.next ((if_neg (ne_false_of_eq_true hup)).trans ((if_neg (ne_false_of_eq_true hacc)).trans
    ((if_pos hmsg).trans ((if_neg (Nat.not_le.2 hmark)).trans ?_))))
  rw [State.ethRequest, hpair, Nat.max_eq_right hlo]
  rfl

theorem State.modHost_modHost (s : State) (f g : Hosts → Hosts) : (s.modHost f).modHost g = s.modHost (fun h => g (f h)) := rfl

/-- The hosts once a transaction at SPI port `n` is abandoned that has written the request mailbox `m` (R376). -/
def Hosts.abandoned (h : Hosts) (n : Fin 2) (m : Fin 16) : Hosts := { h with
  port := upd h.port (spiPort n) (fun x => { x with abandoned := true })
  spi := upd h.spi n (fun x => { x with run := .ignored, part := [], wrote := none })
  mb := upd h.mb m (fun x => { x with tx := [], abandoned := true }) }

/-- HOST_SPI_ABANDON of a transaction that has written a request mailbox bound to its port (R376). -/
theorem exec_hostSpiAbandon_of_wrote {off idle : Nat} (hup : s.hostUp = true) (hb : s.mbBound (spiPort n) m = true) (heven : m.val % 2 = 0)
    (hidle : s.parN P.HOST_SPI_ABANDON n ≤ idle) : exec (.hostSpiAbandon n ⟨off, idle⟩ (some m)) s =
      .next ((s.modHost (fun h => h.abandoned n m)).log 0x0E08 n.val (off % 65536 + s.host.mb[m].tx.length * 65536 : Nat)) := by
  show execHostSpiAbandon n ⟨off, idle⟩ (some m) s = _
  unfold execHostSpiAbandon
  extract_lets p s1 hit r
  have hhit : hit m = true := by
    show (s.mbBound (spiPort n) m && m.val % 2 == 0) = true
    rw [hb, heven]
    rfl
  have hmb : (s1.mbDiscard m).modMb m (fun x => { x with abandoned := true }) = s.modHost (fun h => h.abandoned n m) := by
    rw [State.mbDiscard, State.modMb_modMb]
    exact (congrArg (State.modHost · _) (s.modHost_modHost _ _)).trans (s.modHost_modHost _ _)
  have hr : r = (s.modHost (fun h => h.abandoned n m), s.host.mb[m].tx.length) :=
    (if_pos hhit).trans (congrArg (·, s.host.mb[m].tx.length) hmb)
  rw [if_pos ⟨hup, hidle⟩, hr]

/-! A request taken from its mailbox (R387, R394). -/

/-- A rung request taken out of the queue. -/
def State.unrung (s : State) (r : Fin 16 × List Nat) : State := s.modHost (fun h => { h with rung := h.rung.erase r })

theorem exec_hostRequestTake_of_next {r : Fin 16 × List Nat} {bs : List Byte} (ht : s.takes = true) (hsp : s.sluiceSpent 2 = false)
    (hr : s.nextRung = some r) (hbs : bs = (r.2.flatMap (leBytes 4)).take (msgLen (r.2.flatMap (leBytes 4)))) (entropy : Nat) :
    exec (.hostRequestTake entropy) s = .next (if msgSound bs then
        ((s.unrung r).sluiceWork 2).stamp.serve (pairOf r.1) (msgOp bs) (msgReq (pairOf r.1) bs) (msgBody bs) entropy
      else ((s.unrung r).sluiceWork 2).stamp.refuse (pairOf r.1) (msgOp bs) stBadCrc (msgReq (pairOf r.1) bs)) := by
  subst hbs
  show execHostRequestTake entropy s = _
  unfold execHostRequestTake
  rw [hr]
  exact congrArg Host.Outcome.next ((if_neg (ne_false_of_eq_true ht)).trans (if_neg (ne_true_of_eq_false hsp)))

theorem State.pairOut_rung (s : State) (k : Fin 8) (isNotice : Bool) (bs : List Byte) : (s.pairOut k isNotice bs).host.rung = s.host.rung := by
  unfold State.pairOut
  split
  · rfl
  · rfl

theorem State.reply_rung (s : State) (k : Fin 8) (op seq status : Nat) (tagged : Bool) (body : List Byte) :
    (s.reply k op seq status tagged body).host.rung = s.host.rung := State.pairOut_rung _ _ _ _

/-- A message refused for its CRC is counted, recorded and answered (R394, R439). -/
theorem State.refuse_badCrc (s : State) (k : Fin 8) (op : Nat) (q : Req) :
    s.refuse k op stBadCrc q = (s.refusedAt (s.sess k).port stBadCrc).pairOut k false (earlyReply op stBadCrc q) := rfl

theorem State.refuse_badCrc_keeps (s : State) (k : Fin 8) (op : Nat) (q : Req) :
    Keeps (maskOf [.evq, .host, .passed]) s (s.refuse k op stBadCrc q) :=
  State.refuse_keeps k op stBadCrc q (Keeps.refl _ s) (.ofParts (by decide))

theorem State.refuse_badCrc_rung (s : State) (k : Fin 8) (op : Nat) (q : Req) : (s.refuse k op stBadCrc q).host.rung = s.host.rung :=
  State.pairOut_rung _ _ _ _

theorem State.refuse_badCrc_codes (s : State) (k : Fin 8) (op : Nat) (q : Req) :
    ((s.refuse k op stBadCrc q).evq.drop s.evq.length).map (·.code) = [0x0F03] := by
  have hout : (s.refuse k op stBadCrc q).evq = (s.refusedAt (s.sess k).port stBadCrc).evq := by
    rw [State.refuse_badCrc, State.pairOut]
    split
    · rfl
    · rfl
  rw [hout]
  exact congrArg (List.map LogEv.code) List.drop_left

/-- A request taken out of its queue and refused for its CRC is one stamped input (R387, R394). -/
theorem State.unrung_refused (s : State) (r : Fin 16 × List Nat) (k : Fin 8) (op : Nat) (q : Req) :
    (((s.unrung r).sluiceWork 2).stamp.refuse k op stBadCrc q).host.rung = s.host.rung.erase r ∧
      (((s.unrung r).sluiceWork 2).stamp.refuse k op stBadCrc q).ord = s.ord + 1 ∧
      ((((s.unrung r).sluiceWork 2).stamp.refuse k op stBadCrc q).evq.drop s.evq.length).map (·.code) = [0x0F03] ∧
      (((s.unrung r).sluiceWork 2).stamp.refuse k op stBadCrc q).cfg = s.cfg ∧
      (((s.unrung r).sluiceWork 2).stamp.refuse k op stBadCrc q).loop = s.loop := by
  have hk := ((s.unrung r).sluiceWork 2).stamp.refuse_badCrc_keeps k op q
  have hrung := ((s.unrung r).sluiceWork 2).stamp.refuse_badCrc_rung k op q
  have hcodes := ((s.unrung r).sluiceWork 2).stamp.refuse_badCrc_codes k op q
  exact ⟨hrung, hk.frame .ord (by decide), hcodes, hk.frame .cfg (by decide), hk.frame .loop (by decide)⟩

/-- Every session may use HOST_KEEPALIVE, which needs no permit (R418). -/
theorem State.opCheck_keepalive (s : State) (k : Fin 8) (q : Req) (b : List Byte) : s.opCheck k 0x0004 q b = stOk := by
  have hrole : s.opRole k 0x0004 = true := by
    unfold State.opRole
    extract_lets x
    split
    · rfl
    · rfl
  rw [State.opCheck, if_neg (by decide), hrole]
  rfl

/-- HOST_KEEPALIVE is answered OK, and nothing follows (R393). -/
theorem State.perform_keepalive (s : State) (k : Fin 8) (q : Req) (b : List Byte) :
    s.perform k 0x0004 q b = s.reply k 0x0004 q.seq stOk (bit q.flags 2) [] := State.perform_of_ok (s.opCheck_keepalive k q b) rfl

/-- A keepalive of a state with the sessions of a request just accepted answers it, starts the lease again and leaves the records (R393). -/
theorem State.keepalive_answers {u : State} {q : Req} (hu : u.host.sess = (s.taken q).host.sess) :
    s.answered (u.reply q.sess 0x0004 q.seq stOk (bit q.flags 2) []) 0x0004 q stOk [] ∧
      ((u.reply q.sess 0x0004 q.seq stOk (bit q.flags 2) []).sess q.sess).leaseAt = s.clk.tick ∧
      ((u.reply q.sess 0x0004 q.seq stOk (bit q.flags 2) []).sess q.sess).rxSeq = q.seq := by
  obtain ⟨-, -, -, -, -, -, hlease, hseq⟩ := (State.Talks.reply u q.sess 0x0004 q.seq stOk (bit q.flags 2) []).fields q.sess
  have hsess : u.sess q.sess = (s.taken q).sess q.sess := congrArg (·[q.sess]) hu
  refine ⟨State.answered_of_reply hu _ _ _, ?_, ?_⟩
  · rw [hlease, hsess, s.taken_sess_same]
  · rw [hseq, hsess, s.taken_sess_same]

/-- Settles O47: each write by the mailbox it meets, each frame and each request by the checks it passes. -/
theorem mailboxesAndFrames : Obligations.MailboxesAndFrames := by
  unfold Obligations.MailboxesAndFrames
  refine ⟨?push, ?full, ?claim, ?release, ?bell, ?bellRefused, ?discard, ?skip, ?abandon, ?early, ?frame, ?message, ?none, ?crc, ?alive⟩
  case push =>
    intro s n m w hup hb heven hfree
    have hexec : exec (.mbTxWrite n m w) s = .next (s.modMb m (fun x => { x with tx := x.tx ++ [w % 2 ^ 32] })) :=
      congrArg Host.Outcome.next ((if_pos ⟨hup, hb⟩).trans ((if_neg (by omega)).trans (if_neg (by omega))))
    exact ⟨_, hexec, s.modMb_mb_same m _, fun j hj => upd_ne _ _ hj⟩
  case full =>
    intro s n m w hup hb heven hfull
    have hexec : exec (.mbTxWrite n m w) s = .next (s.modMb m (fun x => { x with lost := true, overflow := true })) :=
      congrArg Host.Outcome.next ((if_pos ⟨hup, hb⟩).trans ((if_neg (by omega)).trans (if_pos hfull)))
    exact ⟨_, hexec, s.modMb_mb_same m _⟩
  case claim =>
    intro s n m hup heven hfree
    have hsess := s.sess_bindPair_same (pairOf m) (spiPort n).val Endpoint.none
    have hclaim : s.mbBit (spiPort n) m 0 = s.bindPair (pairOf m) (spiPort n).val Endpoint.none :=
      (if_pos rfl).trans (if_pos ⟨heven, hfree⟩)
    have hexec : exec (.mbClaim n m) s = .next (s.bindPair (pairOf m) (spiPort n).val Endpoint.none) :=
      congrArg Host.Outcome.next ((if_pos hup).trans hclaim)
    refine ⟨_, hexec, ?_, ?_, ?_, ?_, fun j hj => s.sess_bindPair_ne hj _ _⟩
    · rw [hsess]
    · rw [hsess]
    · rw [hsess]
    · rw [State.mbBound, hsess]
      exact beq_self_eq_true (spiPort n).val
  case release =>
    intro s n m hup hb
    exact ⟨_, congrArg Host.Outcome.next ((if_pos hup).trans (State.mbBit_of_bound hb (by decide))),
      State.sessRelease_of_bound (State.not_free_of_mbBound hb) (spiPort n)⟩
  case bell =>
    intro s n m hup hb htx hc
    refine ⟨_, congrArg Host.Outcome.next ((if_pos hup).trans ((State.mbBit_of_bound hb (by decide)).trans (State.doorbell_of_sound htx hc))),
      rfl, ?_, rfl⟩
    refine (s.modMb_mb_same m _).trans ?_
    rw [Bool.or_false]
  case bellRefused =>
    intro s n m hup hb htx hc
    refine ⟨_, congrArg Host.Outcome.next ((if_pos hup).trans ((State.mbBit_of_bound hb (by decide)).trans (State.doorbell_of_refused htx hc))),
      rfl, ?_, rfl⟩
    refine (s.modMb_mb_same m _).trans ?_
    rw [Bool.or_true]
  case discard =>
    exact fun s n m hup hb => ⟨s.mbDiscard m, congrArg Host.Outcome.next ((if_pos hup).trans (State.mbBit_of_bound hb (by decide))),
      s.modMb_mb_same m _, rfl⟩
  case skip =>
    exact fun s n m hup hb => ⟨s.mbSkip m, congrArg Host.Outcome.next ((if_pos hup).trans (State.mbBit_of_bound hb (by decide))),
      s.modMb_mb_same m _⟩
  case abandon =>
    intro s n off m idle hup hb heven hidle
    refine ⟨_, exec_hostSpiAbandon_of_wrote hup hb heven hidle, ?_, ?_, ?_, State.log_evq _ _ _ _⟩
    · exact upd_at _ _ _
    · exact upd_at _ _ _
    · exact congrArg SpiPort.run (upd_at _ _ _)
  case early => exact fun s n off tx idle h => ⟨s, congrArg Host.Outcome.next (if_neg fun hdue => Nat.not_le.2 h hdue.2), rfl⟩
  case frame =>
    intro s e f hup hacc
    have hslot : (⟨e.val % 4, Nat.mod_lt _ (by omega)⟩ : Fin 4) = ⟨e.val, by omega⟩ := Fin.ext (Nat.mod_eq_of_lt (by omega))
    refine ⟨_, congrArg Host.Outcome.next ((if_neg (ne_false_of_eq_true hup)).trans (if_pos hacc)), ?_, rfl, rfl, rfl⟩
    rw [State.countRefused, hslot]
    exact congrArg HostPort.refused (s.modHp_port_same _ _)
  case message =>
    intro s e f k hup hacc hmsg hmark hpair htx hlost hfour hlo hhi hlen hroom
    have hbs : (f.data.take (msgLen f.data)).length = msgLen f.data := List.length_take_of_le hlen
    refine ⟨_, exec_hostEthFrame_of_message hup hacc hmsg hmark hpair (by omega), ?_⟩
    have hring := State.ringMsg_of_sound (s := s) (k := k) (bs := f.data.take (msgLen f.data)) htx hlost hfour (by rw [hbs]; exact hlo)
      (by rw [hbs]; exact hhi) (by rw [hbs, msgLen_take (by omega)]) (by rw [hbs]; exact hroom)
    rw [hbs] at hring
    exact hring
  case none =>
    intro s entropy h
    have hnone : s.nextRung = none := by
      rw [State.nextRung, h]
      rfl
    refine ⟨s, ?_, rfl⟩
    show execHostRequestTake entropy s = _
    rw [execHostRequestTake, hnone]
  case crc =>
    intro s entropy r ht hsp hr hsound
    generalize hbs : (r.2.flatMap (leBytes 4)).take (msgLen (r.2.flatMap (leBytes 4))) = bs at hsound
    have hexec := exec_hostRequestTake_of_next ht hsp hr hbs.symm entropy
    rw [if_neg (ne_true_of_eq_false hsound)] at hexec
    obtain ⟨hrung, hord, hcodes, hcfg, hloop⟩ := State.unrung_refused s r (pairOf r.1) (msgOp bs) (msgReq (pairOf r.1) bs)
    exact ⟨_, hexec, hrung, hord, hcodes, hcfg, hloop⟩
  case alive =>
    intro s entropy r bs q ht hsp hr hbs hq hsound hop hpass
    have hexec := exec_hostRequestTake_of_next ht hsp hr hbs entropy
    subst hq
    have hserve : ((s.unrung r).sluiceWork 2).stamp.serve (pairOf r.1) 0x0004 (msgReq (pairOf r.1) bs) (msgBody bs) entropy = _ :=
      State.serve_of_passes (s := s.unrung r) (q := msgReq (pairOf r.1) bs) hpass (by decide) (by decide) entropy
    rw [if_pos hsound, hop, hserve, State.perform_keepalive] at hexec
    have hk := ((s.unrung r).taken (msgReq (pairOf r.1) bs)).reply_keeps_rest (msgReq (pairOf r.1) bs).sess 0x0004
      (msgReq (pairOf r.1) bs).seq stOk (bit (msgReq (pairOf r.1) bs).flags 2) []
    obtain ⟨hans, hlease, hseq⟩ := State.keepalive_answers (s := s) (u := (s.unrung r).taken (msgReq (pairOf r.1) bs)) rfl
    exact ⟨_, hexec, State.reply_rung _ _ _ _ _ _ _, hk.frame .ord (by decide), hans, hlease, hseq, hk.frame .cfg (by decide),
      hk.frame .evq (by decide)⟩

end Sys2Proof.Machine

/-! PROOFS. Session requests (R390 to R395, R397, R399, R419 to R421): opening, proving and closing a session; its permits. -/

namespace Sys2Proof.Machine

variable {s u : State} {k : Fin 8} {q : Req} {b : List Byte}

/-! Opening (R391, R392). -/

/-- An open request that reaches its pair (R394). -/
theorem State.serve_open (hs : (s.sess k).state ≠ .free) (h0 : bit q.flags 0 = false) (h1 : bit q.flags 1 = false) (hlen : b.length = 20)
    (hepoch : q.epoch = 0) (entropy : Nat) :
    (s.sluiceWork 2).stamp.serve k 1 q b entropy = (s.sluiceWork 2).stamp.sessionOpen k q b entropy := by
  have hbody : bodyOk 1 b = true := beq_iff_eq.2 hlen
  have hearly : (s.sluiceWork 2).stamp.earlyCheck k 1 q b = stOk := by
    rw [State.earlyCheck, hbody, if_neg (by decide)]
    rw [State.epochOk, if_pos rfl, hepoch]
    rfl
  have hfree : ((s.sluiceWork 2).stamp.sess k).state ≠ .free := hs
  unfold State.serve
  extract_lets x st r
  rw [if_neg hfree, if_neg (by rw [h0, h1]; decide), if_neg (not_not.2 hearly), if_pos rfl]

theorem State.pairOut_kSess (s : State) (k : Fin 8) (isNotice : Bool) (bs : List Byte) : (s.pairOut k isNotice bs).host.kSess = s.host.kSess := by
  unfold State.pairOut
  split
  · rfl
  · rfl

theorem State.reply_kSess (s : State) (k : Fin 8) (op seq status : Nat) (tagged : Bool) (body : List Byte) :
    (s.reply k op seq status tagged body).host.kSess = s.host.kSess := State.pairOut_kSess _ _ _ _

/-- An open request that its slot allows makes a session that is not open PROVING (R391, R392). -/
theorem State.sessionOpen_of_allowed (hs : (s.sess k).state ≠ .isOpen) (hslot : leAt b 0 1 < 8) (hst : s.openStatus (s.sess k).port b = stOk)
    (entropy : Nat) :
    ((s.sessionOpen k q b entropy).sess k).core =
        ((s.sess k).opened q b (leBytes 16 entropy) (s.epochOf (nextK s.host.kSess)) s.clk.tick).core ∧
      (s.sessionOpen k q b entropy).host.kSess = nextK s.host.kSess ∧ (s.sessionOpen k q b entropy).ord = s.ord := by
  have hne : leAt b 0 1 ≠ 15 := by omega
  unfold State.sessionOpen
  extract_lets x st refused s1 n e slot nd s2 s3
  rw [if_neg (not_not.2 hst)]
  have h1 : s1 = s := State.sessOver_of_not_open hs 3
  have hnd : nd = leBytes 16 entropy := if_neg hne
  have h2 : s2.sess k = (s.sess k).opened q b (leBytes 16 entropy) (s.epochOf (nextK s.host.kSess)) s.clk.tick := by
    unfold s2 e n
    rw [hnd, h1, State.modSess_sess_same]
    rfl
  have hk2 : s2.host.kSess = nextK s.host.kSess := by
    unfold s2 n
    rw [h1]
    rfl
  have ho2 : s2.ord = s.ord := by
    unfold s2
    rw [h1]
    rfl
  clear_value s2
  rw [if_neg hne]
  refine ⟨?_, ?_, ?_⟩
  · rw [(State.Talks.reply s2 k 1 q.seq stOk false _).core k, h2]
  · rw [State.reply_kSess, hk2]
  · rw [(s2.reply_keeps_rest k 1 q.seq stOk false _).frame .ord (by decide), ho2]

/-- One that is refused leaves an SPI pair as it was (R392, R413). -/
theorem State.sessionOpen_of_refused (hport : 2 ≤ (s.sess k).port) (hst : s.openStatus (s.sess k).port b ≠ stOk) (entropy : Nat) :
    (s.sessionOpen k q b entropy).host.sess = s.host.sess ∧ (s.sessionOpen k q b entropy).host.kSess = s.host.kSess := by
  unfold State.sessionOpen
  extract_lets x st refused s1 n e slot nd s2 s3
  rw [if_pos hst, if_neg fun h => Nat.not_le.2 h.2 hport]
  exact ⟨s.pairOut_sess _ _ _, s.pairOut_kSess _ _ _⟩

/-- A request of a pair that may be taken is served at once (R387). -/
theorem State.carry_of_mayTake (h : s.mayTake k = true) (op : Nat) (q : Req) (b : List Byte) (entropy : Nat) :
    s.carry k op q b entropy = (s.sluiceWork 2).stamp.serve k op q b entropy := if_pos h

theorem exec_sessionOpen_of_spi {port : Fin 4} (ht : s.takes = true) (hm : s.mayTake q.sess = true) (hport : 2 ≤ port.val) (ep : Endpoint)
    (b : List Byte) (entropy : Nat) :
    exec (.sessionOpen port ep q b entropy) s = .next ((s.sluiceWork 2).stamp.serve q.sess 1 q b entropy) :=
  congrArg Host.Outcome.next ((if_neg (ne_false_of_eq_true ht)).trans ((dif_neg (Nat.not_lt.2 hport)).trans
    (State.carry_of_mayTake hm 1 q b entropy)))

/-- No subscription of a session outlasts it (R393). -/
theorem State.sessOver_subs (hopen : (s.sess k).state = .isOpen) (cause : Nat) : ∀ v ∈ (s.sessOver k cause).pool.subs, v.sess ≠ k.val := by
  rw [State.sessOver_of_open hopen]
  intro v hv
  exact bne_iff_ne.1 (List.mem_filter.1 hv).2

/-! A pair newly bound (R382, R387). -/

theorem State.mb_bindPair_ne (s : State) {k j : Fin 8} (h : j ≠ k) (port : Nat) (ep : Endpoint) :
    (s.bindPair k port ep).host.mb[mbReq j] = s.host.mb[mbReq j] := by
  have hval : j.val ≠ k.val := fun e => h (Fin.ext e)
  have hreq : mbReq j ≠ mbReq k := fun e => hval (by have hv : 2 * j.val = 2 * k.val := congrArg Fin.val e; omega)
  have hnotice : mbReq j ≠ mbNotice k := fun e => hval (by have hv : 2 * j.val = 2 * k.val + 1 := congrArg Fin.val e; omega)
  exact (upd_ne _ _ hnotice).trans (upd_ne _ _ hreq)

theorem State.reqReady_bindPair_ne (s : State) {k j : Fin 8} (h : j ≠ k) (port : Nat) (ep : Endpoint) :
    (s.bindPair k port ep).reqReady j = s.reqReady j := by
  rw [State.reqReady, State.reqReady, s.sess_bindPair_ne h, s.mb_bindPair_ne h]

/-- A pair newly bound owes no reply, and its mailbox is empty. -/
theorem State.reqReady_bindPair_same (s : State) (k : Fin 8) (port : Nat) (ep : Endpoint) : (s.bindPair k port ep).reqReady k = true := by
  have hmb : (s.bindPair k port ep).host.mb[mbReq k] = Mbox.reset := s.mbReq_unbind k
  rw [State.reqReady, s.sess_bindPair_same, hmb]
  exact Bool.and_eq_true_iff.2 ⟨rfl, by decide⟩

/-- Its request may be taken where no request waits that may be. -/
theorem State.mayTake_bindPair (hnext : s.nextRung = none) (hrung : ∀ r ∈ s.host.rung, pairOf r.1 ≠ k) (hsp : s.sluiceSpent 2 = false)
    (port : Nat) (ep : Endpoint) : (s.bindPair k port ep).mayTake k = true := by
  have hnone : (s.bindPair k port ep).nextRung = none := by
    refine List.find?_eq_none.2 fun r hr => ?_
    have hmem : r ∈ s.host.rung := List.mem_of_mem_filter hr
    rw [s.reqReady_bindPair_ne (hrung r hmem)]
    exact List.find?_eq_none.1 hnext r hmem
  have hspent : (s.bindPair k port ep).sluiceSpent 2 = false := hsp
  rw [State.mayTake, hnone, s.reqReady_bindPair_same, hspent]
  rfl

/-- SESSION_OPEN from an Ethernet endpoint with no pair binds the lowest free one (R382). -/
theorem exec_sessionOpen_of_new {port : Fin 4} {ep : Endpoint} (ht : s.takes = true) (hport : port.val < 2)
    (hnext : s.nextRung = none) (hrung : ∀ r ∈ s.host.rung, pairOf r.1 ≠ k) (hsp : s.sluiceSpent 2 = false)
    (hpair : s.pairAt port.val ep = none) (hfree : s.freePair = some k) (h0 : bit q.flags 0 = false) (h1 : bit q.flags 1 = false)
    (hlen : b.length = 20) (hepoch : q.epoch = 0) (entropy : Nat) :
    exec (.sessionOpen port ep q b entropy) s =
      .next (((s.bindPair k port.val ep).sluiceWork 2).stamp.serve k 1 q b entropy) := by
  have hbody : bodyOk 1 b = true := beq_iff_eq.2 hlen
  refine congrArg Host.Outcome.next ((if_neg (ne_false_of_eq_true ht)).trans ((dif_pos hport).trans ?_))
  rw [hpair]
  dsimp only
  rw [State.fromNew, if_neg (by rw [h0, h1]; decide), if_neg (ne_false_of_eq_true hbody), if_neg (by rw [hepoch]; decide), State.openNew,
    hfree]
  exact State.carry_of_mayTake (State.mayTake_bindPair hnext hrung hsp port.val ep) 1 q b entropy

/-! Proving (R391, R392). -/

/-- The end of another session leaves a session but for its numbering and its staging area (R392). -/
theorem State.sessEnd_lasting_ne (s : State) {k j : Fin 8} (h : k ≠ j) (cause : Nat) :
    ((s.sessEnd j cause).sess k).lasting = (s.sess k).lasting := by
  rw [State.sessEnd]
  split
  · rw [State.toClaimed_sess_ne _ h]
    exact (State.Ends.sessOver s j cause).lasting k
  · rfl

/-- A correct proof opens the session: its lease runs from now on, its opening is recorded (R391, R410). -/
theorem State.proved_opens (s : State) (k : Fin 8) (q : Req) :
    ((s.proved k q).sess k).state = .isOpen ∧ ((s.proved k q).sess k).leaseAt = s.clk.tick ∧
      ((s.proved k q).sess k).rxSeq = (s.sess k).rxSeq ∧
      (⟨0x0E01, k.val, toWord 64 ((s.sess k).epoch + (s.sess k).key * 2 ^ 32 + (s.sess k).role * 2 ^ 40 + (s.sess k).port * 2 ^ 48 : Nat),
        s.clk.shelf⟩ : LogEv) ∈ (s.proved k q).evq := by
  have hclk : (s.proved k q).clk = s.clk := by
    have hk : Keeps 0xc823ad850 s (s.proved k q) := State.proved_keeps k q (Keeps.refl _ s) fun _ hi => hi
    exact hk.frame .clk (by decide)
  revert hclk
  unfold State.proved
  extract_lets x slot key s1 s2 s3
  intro hclk
  have h1 : (s1.sess k).lasting = (s.sess k).lasting := by
    refine List.foldlRecOn (motive := fun t : State => (t.sess k).lasting = (s.sess k).lasting) _ _ rfl fun t ht j hj => ?_
    have hne : j ≠ k := by
      obtain ⟨-, hj⟩ := List.mem_filter.1 hj
      rw [Bool.and_eq_true, Bool.and_eq_true, bne_iff_ne] at hj
      exact hj.1.1
    exact (t.sessEnd_lasting_ne hne.symm 3).trans ht
  have hseq1 : (s1.sess k).rxSeq = (s.sess k).rxSeq := (congrArg Sess.rxSeq h1 :)
  clear_value s1
  have h2 : (s2.sess k).state = .isOpen ∧ (s2.sess k).leaseAt = s.clk.tick ∧ (s2.sess k).rxSeq = (s.sess k).rxSeq := by
    unfold s2
    rw [State.modSess_sess_same]
    exact ⟨rfl, rfl, hseq1⟩
  clear_value s2
  obtain ⟨hstate, -, -, -, -, -, hlease, hseq⟩ :=
    (State.Talks.reply s2 k 2 q.seq stOk false (leBytes 4 (s.parN P.HOST_SESSION_LEASE 0))).fields k
  have h3 : (s3.sess k).state = .isOpen ∧ (s3.sess k).leaseAt = s.clk.tick ∧ (s3.sess k).rxSeq = (s.sess k).rxSeq := by
    unfold s3
    rw [State.modSess_sess_same]
    exact ⟨hstate.trans h2.1, hlease.trans h2.2.1, hseq.trans h2.2.2⟩
  clear_value s3
  refine ⟨h3.1, h3.2.1, h3.2.2, ?_⟩
  rw [← hclk]
  exact List.mem_append_right _ (List.mem_singleton_self _)

/-- A wrong proof is counted, and the session of an SPI pair is CLAIMED again (R391, R392). -/
theorem State.unproved_claims {j : Fin 8} (hport : 2 ≤ (s.sess k).port) (hj : (s.sess k).key % 8 = j.val) (q : Req) :
    ((s.unproved k q).sess k).state = .claimed ∧ (s.unproved k q).host.key[j] = (s.host.key[j]).failed s.clk.tick := by
  unfold State.unproved
  extract_lets x slot y s1
  have hslot : slot = j := Fin.ext hj
  have hp1 : (s1.sess k).port = (s.sess k).port :=
    ((State.Talks.reply s k 2 q.seq stBadTag false []).fields k).2.1
  have hk1 : s1.host.key[slot] = y := upd_at _ _ _
  clear_value s1
  generalize hs2 : s1.log 0x0E03 x.key (x.port + min 255 y.fails.length * 256 + b2n (y.locked s.clk.tick) * 65536 : Nat) = s2
  have hp2 : 2 ≤ (s2.sess k).port := by
    rw [← hs2]
    exact hp1.symm ▸ hport
  have hk2 : s2.host.key[slot] = y := by
    rw [← hs2]
    exact hk1
  refine ⟨(s2.toClaimed_state k).trans (if_pos hp2), ?_⟩
  rw [State.toClaimed_of_spi hp2]
  exact (congrArg (fun i : Fin 8 => s2.host.key[i] = (s.host.key[i]).failed s.clk.tick) hslot).mp hk2

/-- A prove request that reaches its session (R394). -/
theorem State.request_prove (ht : s.takes = true) (hm : s.mayTake q.sess = true) (hs : (s.sess q.sess).state = .proving)
    (h0 : bit q.flags 0 = false) (h1 : bit q.flags 1 = false) (hlen : b.length = 16) (hepoch : q.epoch = (s.sess q.sess).epoch)
    (hnew : seqNewer q.seq (s.sess q.sess).rxSeq = true) : s.request 0x0002 q b = (s.taken q).sessionProve q.sess q b := by
  have hbody : bodyOk 2 b = true := beq_iff_eq.2 hlen
  have hearly : s.earlyCheck q.sess 2 q b = stOk := by
    have hmatch : s.epochOk q.sess 2 q = true := by
      rw [State.epochOk, if_neg (by decide), if_pos rfl, hs, hepoch]
      exact Bool.and_eq_true_iff.2 ⟨rfl, beq_self_eq_true _⟩
    rw [State.earlyCheck, hbody, hmatch]
    rfl
  rw [State.request, if_pos ht, State.carry_of_mayTake hm]
  exact State.serve_of_early (by rw [hs]; decide) h0 h1 hearly hnew (by decide) 0

/-- The proof that a session wants, its key slot and what names it stand in the state in which a request is served. -/
theorem State.taken_proof (s : State) (q : Req) (key : List Byte) : ((s.taken q).sess q.sess).proof key = (s.sess q.sess).proof key := by
  rw [s.taken_sess_same]
  rfl

theorem State.taken_names (s : State) (q : Req) : ((s.taken q).sess q.sess).key = (s.sess q.sess).key ∧
    ((s.taken q).sess q.sess).role = (s.sess q.sess).role ∧ ((s.taken q).sess q.sess).port = (s.sess q.sess).port ∧
    ((s.taken q).sess q.sess).epoch = (s.sess q.sess).epoch ∧ ((s.taken q).sess q.sess).state = (s.sess q.sess).state := by
  rw [s.taken_sess_same]
  exact ⟨rfl, rfl, rfl, rfl, rfl⟩

theorem State.taken_wants (s : State) (q : Req) :
    ((s.taken q).sess q.sess).proof ((s.taken q).host.key[(⟨((s.taken q).sess q.sess).key % 8, Nat.mod_lt _ (by omega)⟩ : Fin 8)]).key =
      (s.sess q.sess).proof (s.host.key[(⟨(s.sess q.sess).key % 8, Nat.mod_lt _ (by omega)⟩ : Fin 8)]).key := by
  have hslot : (⟨((s.taken q).sess q.sess).key % 8, Nat.mod_lt _ (by omega)⟩ : Fin 8) =
      ⟨(s.sess q.sess).key % 8, Nat.mod_lt _ (by omega)⟩ := Fin.ext (congrArg (· % 8) (s.taken_names q).1)
  rw [s.taken_proof]
  exact congrArg (fun j : Fin 8 => (s.sess q.sess).proof (s.host.key[j]).key) hslot

/-! Permits (R397, R399, R421). -/

theorem State.permit_setPermit_same (s : State) (i : Nat) (p : Permit) : (s.setPermit i p).permit i = p := SMap.get_set_same _ _ _ _

theorem State.permit_setPermit_ne (s : State) {i j : Nat} (h : j ≠ i) (p : Permit) : (s.setPermit i p).permit j = s.permit j :=
  SMap.get_set_ne _ _ h _

/-- The grants of a reply are those of the permits as they stand. -/
theorem State.grantBody_congr {s t : State} (h : t.host.permit = s.host.permit) (is : List Nat) : t.grantBody is = s.grantBody is := by
  have hp : ∀ i, t.permit i = s.permit i := fun i => congrArg (SMap.get Permit.none i) h
  simp only [State.grantBody, hp]

/-- A permit granted (R397, R398). -/
theorem State.grantPermit_permit_same (s : State) (k : Fin 8) (i lease : Nat) : (s.grantPermit k i lease).permit i =
    ⟨some k, s.epochOf (nextK (s.permit i).k), nextK (s.permit i).k, min lease (s.parN P.PERMIT_LEASE_MAX i) * 1000, s.clk.tick,
      bump (s.permit i).grants⟩ := s.permit_setPermit_same i _

theorem State.grantPermit_permit_ne (s : State) (k : Fin 8) {i j : Nat} (h : j ≠ i) (lease : Nat) :
    (s.grantPermit k i lease).permit j = s.permit j := s.permit_setPermit_ne h _

theorem State.grantPermit_sess (s : State) (k : Fin 8) (i lease : Nat) : (s.grantPermit k i lease).host.sess = s.host.sess := rfl

/-- A free permit alone is granted (R397). -/
theorem State.permitAcquire_of_free {i : Nat} (hmask : maskPermits b = [i]) (hmay : (s.sess k).mayHold i = true) (hlo : 0 < leAt b 16 2)
    (hhi : leAt b 16 2 ≤ 600) (hfree : (s.permit i).holder = none) :
    s.permitAcquire k b = (s.grantPermit k i (leAt b 16 2), some (stOk, (s.grantPermit k i (leAt b 16 2)).grantBody [i])) := by
  unfold State.permitAcquire
  rw [hmask]
  extract_lets is lease t
  rw [if_neg (ne_false_of_eq_true (by rw [List.all_cons, hmay]; rfl)), if_neg (by simp [is, lease]; omega)]
  have hnone : is.find? (fun i => (s.permit i).holder.isSome && !(s.holds k i)) = none := by
    rw [List.find?_eq_none]
    intro j hj
    rw [List.mem_singleton.1 hj, hfree]
    exact Bool.false_ne_true
  rw [hnone]
  rfl

/-- A permit that another session holds is BUSY (R397, R421). -/
theorem State.permitAcquire_of_held {i : Nat} {j : Fin 8} (hmask : maskPermits b = [i]) (hmay : (s.sess k).mayHold i = true)
    (hlo : 0 < leAt b 16 2) (hhi : leAt b 16 2 ≤ 600) (hheld : (s.permit i).holder = some j) (hj : j ≠ k) :
    s.permitAcquire k b = (s, some (stBusy, leBytes 1 j.val ++ leBytes 1 i ++ leBytes 2 0 ++ leBytes 4 (s.leaseLeft i))) := by
  have hholds : s.holds k i = false := by
    rw [State.holds, hheld]
    exact beq_eq_false_iff_ne.2 fun h => hj (Option.some.inj h)
  have hnib : s.holderNib i = j.val := by rw [State.holderNib, hheld]
  unfold State.permitAcquire
  rw [hmask]
  extract_lets is lease t
  rw [if_neg (ne_false_of_eq_true (by rw [List.all_cons, hmay]; rfl)), if_neg (by simp [is, lease]; omega)]
  have hsome : is.find? (fun i => (s.permit i).holder.isSome && !(s.holds k i)) = some i := by
    rw [List.find?_cons_of_pos]
    rw [hheld, hholds]
    rfl
  rw [hsome]
  dsimp only
  rw [hnib]

/-- A held permit's lease starts again (R397). -/
theorem State.useRenew_one {i : Nat} (h : (s.permit i).holder.isSome = true) :
    s.useRenew [i] = s.setPermit i { s.permit i with at_ := s.clk.tick } := if_pos h

theorem State.permitRenew_of_held {i : Nat} (hmask : maskPermits b = [i]) (hholds : s.holds k i = true) :
    s.permitRenew k b = (s.useRenew [i], some (stOk, (s.useRenew [i]).grantBody [i])) := by
  unfold State.permitRenew
  rw [hmask]
  dsimp only
  rw [if_neg (List.cons_ne_nil _ _), if_neg (ne_false_of_eq_true (by rw [List.all_cons, hholds]; rfl))]

theorem State.permitRelease_of_held {i : Nat} (hmask : maskPermits b = [i]) (hholds : s.holds k i = true) :
    s.permitRelease k b = (s.permitEnd i 1, ansOk) := by
  unfold State.permitRelease
  rw [hmask]
  dsimp only
  rw [if_neg (List.cons_ne_nil _ _), List.foldl_cons, List.foldl_nil, if_pos hholds]

/-- A permit of another session that may be taken is granted behind the end of its holding (R399). -/
theorem State.permitTake_of_held {i : Nat} {j : Fin 8} (hmask : maskPermits b = [i]) (h5 : i ≠ 5) (h6 : i ≠ 6)
    (hen : s.par P.PERMIT_TAKE_EN i ≠ 0) (hlo : 0 < leAt b 16 2) (hhi : leAt b 16 2 ≤ 600) (hheld : (s.permit i).holder = some j)
    (hj : j ≠ k) : s.permitTake k b = ((s.permitEnd i 4).grantPermit k i (leAt b 16 2),
      some (stOk, ((s.permitEnd i 4).grantPermit k i (leAt b 16 2)).grantBody [i])) := by
  have hholds : s.holds k i = false := by
    rw [State.holds, hheld]
    exact beq_eq_false_iff_ne.2 fun h => hj (Option.some.inj h)
  unfold State.permitTake
  rw [hmask]
  extract_lets is lease t
  have ht : t = (s.permitEnd i 4).grantPermit k i (leAt b 16 2) :=
    congrArg (State.grantPermit · k i lease) (if_neg (ne_true_of_eq_false hholds))
  rw [if_neg (by simp [is, lease, h5, h6, hen]; omega), ht]

theorem State.permit_useRenew_ne (s : State) {i j : Nat} (h : i ≠ j) : (s.useRenew [j]).permit i = s.permit i := by
  show (s.renewPermit j).permit i = _
  unfold State.renewPermit
  extract_lets p
  split
  · exact s.permit_setPermit_ne h _
  · rfl

/-- The state that PERMIT_TAKE leaves behind the end of the other session's holding (R397, R399): the permit granted, the governing
permit's lease renewed, the reply out. -/
def State.takeAnswered (u : State) (q : Req) (i lease : Nat) : State :=
  ((u.grantPermit q.sess i lease).useRenew [5]).reply q.sess 0x0104 q.seq stOk (bit q.flags 2) ((u.grantPermit q.sess i lease).grantBody [i])

theorem State.takeAnswered_of_granted (u : State) (q : Req) (i lease : Nat) (h5 : i ≠ 5) :
    (u.takeAnswered q i lease).permit i = ⟨some q.sess, u.epochOf (nextK (u.permit i).k), nextK (u.permit i).k,
        min lease (u.parN P.PERMIT_LEASE_MAX i) * 1000, u.clk.tick, bump (u.permit i).grants⟩ ∧
      (∀ j, ((u.takeAnswered q i lease).sess j).stageLost = (u.sess j).stageLost) ∧ u.evq ⊆ (u.takeAnswered q i lease).evq := by
  have ht := State.Talks.reply ((u.grantPermit q.sess i lease).useRenew [5]) q.sess 0x0104 q.seq stOk (bit q.flags 2)
    ((u.grantPermit q.sess i lease).grantBody [i])
  obtain ⟨p, hp⟩ := (u.grantPermit q.sess i lease).useRenew_eq [5]
  have hevq : ((u.grantPermit q.sess i lease).useRenew [5]).evq = (u.grantPermit q.sess i lease).evq := by rw [hp]; rfl
  have hsess : ((u.grantPermit q.sess i lease).useRenew [5]).host.sess = u.host.sess := by rw [hp]; rfl
  refine ⟨?_, fun j => ?_, ?_⟩
  · exact (congrArg (SMap.get Permit.none i) ht.permit).trans
      ((State.permit_useRenew_ne _ h5).trans (u.grantPermit_permit_same q.sess i lease))
  · obtain ⟨-, -, -, -, -, hlost, -⟩ := ht.fields j
    exact hlost.trans (congrArg (fun v : Vector Sess 8 => v[j].stageLost) hsess)
  · have hpre := ht.evq
    rw [hevq] at hpre
    exact List.Subset.trans (List.subset_append_left _ _) hpre.subset

/-! Answers of accepted requests that keep what a reply shows of the session (R395). -/

theorem State.answered_of_shown {s u : State} {q : Req} (hepoch : (u.sess q.sess).epoch = (s.sess q.sess).epoch)
    (hseq : (u.sess q.sess).nextSeq = (s.sess q.sess).nextSeq) (hmac : (u.sess q.sess).macEvery = (s.sess q.sess).macEvery)
    (hkey : (u.sess q.sess).tagKey = (s.sess q.sess).tagKey) (op st : Nat) (body : List Byte) :
    s.answered (u.reply q.sess op q.seq st (bit q.flags 2) body) op q st body := by
  rw [State.answered, State.reply_stored, hepoch, hseq, hmac, hkey]

theorem State.taken_mayHold (s : State) (q : Req) (i : Nat) : ((s.taken q).sess q.sess).mayHold i = (s.sess q.sess).mayHold i := by
  obtain ⟨-, hrole, -⟩ := s.taken_names q
  rw [Sess.mayHold, Sess.mayHold, hrole]

/-- Settles O48: each request by the way it is answered. -/
theorem sessionRequests : Obligations.SessionRequests := by
  unfold Obligations.SessionRequests
  refine ⟨?opened, ?refused, ?new, ?proved, ?unproved, ?close, ?alive, ?notices, ?acquire, ?busy, ?renew, ?release, ?take⟩
  case opened =>
    intro s port ep q b entropy ht hm hport hs h0 h1 hlen hepoch hslot hst
    have hexec := exec_sessionOpen_of_spi ht hm hport ep b entropy
    rw [State.serve_open (by rw [hs]; decide) h0 h1 hlen hepoch] at hexec
    obtain ⟨hcore, hcount, hord⟩ := State.sessionOpen_of_allowed (s := (s.sluiceWork 2).stamp) (k := q.sess) (q := q)
      (by rw [show ((s.sluiceWork 2).stamp.sess q.sess).state = _ from hs]; decide) hslot hst entropy
    have hne : leAt b 0 1 ≠ 15 := by omega
    refine ⟨_, hexec, (congrArg Sess.state hcore :).trans (if_neg hne), (congrArg Sess.epoch hcore :),
      (congrArg Sess.role hcore :).trans (if_neg hne), (congrArg Sess.rxSeq hcore :), (congrArg Sess.nd hcore :), hcount, hord⟩
  case refused =>
    intro s port ep q b entropy ht hm hport hs hspi h0 h1 hlen hepoch hst
    have hexec := exec_sessionOpen_of_spi ht hm hport ep b entropy
    rw [State.serve_open hs h0 h1 hlen hepoch] at hexec
    exact ⟨_, hexec, State.sessionOpen_of_refused (s := (s.sluiceWork 2).stamp) hspi hst entropy⟩
  case new =>
    intro s port ep q b entropy k ht hport hnext hrung hsp hpair hfree h0 h1 hlen hepoch hslot hst
    have hexec := exec_sessionOpen_of_new ht hport hnext hrung hsp hpair hfree h0 h1 hlen hepoch entropy
    have hsess := s.sess_bindPair_same k port.val ep
    have hs : ((s.bindPair k port.val ep).sess k).state = .claimed := by rw [hsess]
    have hp : ((s.bindPair k port.val ep).sess k).port = port.val := by rw [hsess]
    have he : ((s.bindPair k port.val ep).sess k).ep = ep := by rw [hsess]
    have hst' : (s.bindPair k port.val ep).openStatus ((s.bindPair k port.val ep).sess k).port b = stOk := by
      rw [hp]
      exact hst
    rw [State.serve_open (by rw [hs]; decide) h0 h1 hlen hepoch] at hexec
    obtain ⟨hcore, -⟩ := State.sessionOpen_of_allowed (s := ((s.bindPair k port.val ep).sluiceWork 2).stamp) (k := k) (q := q)
      (by rw [show (((s.bindPair k port.val ep).sluiceWork 2).stamp.sess k).state = _ from hs]; decide) hslot hst' entropy
    have hne : leAt b 0 1 ≠ 15 := by omega
    exact ⟨_, hexec, (congrArg Sess.state hcore :).trans (if_neg hne), (congrArg Sess.port hcore :).trans hp,
      (congrArg Sess.ep hcore :).trans he, (congrArg Sess.epoch hcore :)⟩
  case proved =>
    intro s q b ht hm hs h0 h1 hlen hepoch hnew hkey hproof
    have hright : (s.taken q).sessionProve q.sess q b = (s.taken q).proved q.sess q := if_pos (hproof.trans (s.taken_wants q).symm)
    have hexec : exec (.sessionProve q b) s = _ :=
      congrArg Host.Outcome.next ((State.request_prove ht hm hs h0 h1 hlen hepoch hnew).trans hright)
    obtain ⟨hstate, hlease, hseq, hlog⟩ := (s.taken q).proved_opens q.sess q
    obtain ⟨hkey', hrole, hport, hep, -⟩ := s.taken_names q
    rw [hkey', hrole, hport, hep] at hlog
    refine ⟨_, hexec, hstate, hlease, ?_, hlog⟩
    rw [hseq, s.taken_sess_same]
  case unproved =>
    intro s q b ht hm hs hspi h0 h1 hlen hepoch hnew hkey hproof
    have hwrong : (s.taken q).sessionProve q.sess q b = (s.taken q).unproved q.sess q := if_neg fun h => hproof (h.trans (s.taken_wants q))
    have hexec : exec (.sessionProve q b) s = _ :=
      congrArg Host.Outcome.next ((State.request_prove ht hm hs h0 h1 hlen hepoch hnew).trans hwrong)
    obtain ⟨hkey', -, hport, -⟩ := s.taken_names q
    exact ⟨_, hexec, State.unproved_claims (s := s.taken q) (k := q.sess) (hport.symm ▸ hspi) (congrArg (· % 8) hkey') q⟩
  case close =>
    intro s q b h hspi
    have hexec : exec (.sessionClose q b) s =
        .next (((s.taken q).reply q.sess 0x0003 q.seq stOk (bit q.flags 2) []).sessEnd q.sess 1) :=
      congrArg Host.Outcome.next (State.request_of_ok h (by decide) (by decide) rfl)
    have hclk := ((s.taken q).reply_keeps_rest q.sess 0x0003 q.seq stOk (bit q.flags 2) []).frame .clk (by decide)
    obtain ⟨hstate, hport, -, hepoch, -⟩ := (State.Talks.reply (s.taken q) q.sess 0x0003 q.seq stOk (bit q.flags 2) []).fields q.sess
    obtain ⟨-, -, hport', hepoch', hstate'⟩ := s.taken_names q
    have hopen : (s.sess q.sess).state = .isOpen := by
      simp only [State.accepted, State.passes, Bool.and_eq_true, beq_iff_eq] at h
      exact h.2.1.1.1.1.1
    generalize (s.taken q).reply q.sess 0x0003 q.seq stOk (bit q.flags 2) [] = u at hexec hclk hstate hport hepoch
    have hopen' : (u.sess q.sess).state = .isOpen := hstate.trans (hstate'.trans hopen)
    have hlog := State.sessOver_log hopen' 1
    have hclk' : u.clk.shelf = s.clk.shelf := congrArg Clock.shelf hclk
    rw [hepoch.trans hepoch', hclk'] at hlog
    rw [State.sessEnd_of_spi hopen' (by rw [hport.trans hport']; exact hspi)] at hexec
    refine ⟨_, hexec, ?_, ?_, hlog⟩
    · rw [State.modSess_sess_same]
      rfl
    · exact State.sessOver_subs hopen' 1
  case alive =>
    intro s q b h
    have hexec : exec (.hostKeepalive q b) s = _ :=
      congrArg Host.Outcome.next ((s.request_accepted 0x0004 q b h (by decide) (by decide)).trans ((s.taken q).perform_keepalive q.sess q b))
    have hk := (s.taken q).reply_keeps_rest q.sess 0x0004 q.seq stOk (bit q.flags 2) []
    obtain ⟨hans, hlease, hseq⟩ := State.keepalive_answers (s := s) (u := s.taken q) rfl
    exact ⟨_, hexec, hans, hlease, hseq, hk.frame .ord (by decide), hk.frame .evq (by decide), hk.frame .cfg (by decide),
      (State.Talks.reply (s.taken q) q.sess 0x0004 q.seq stOk (bit q.flags 2) []).permit⟩
  case notices =>
    intro s q b h
    have hexec : exec (.noticeSet q b) s = .next (((s.taken q).modSess q.sess (fun x => { x with mask := leAt b 0 4 % 16 })).reply q.sess
        0x0005 q.seq stOk (bit q.flags 2) []) := congrArg Host.Outcome.next (State.request_of_ok h (by decide) (by decide) rfl)
    have hsess := (s.taken q).modSess_sess_same q.sess (fun x => { x with mask := leAt b 0 4 % 16 })
    obtain ⟨hepoch, hseq, hmac, hkey⟩ := s.taken_sess q
    refine ⟨_, hexec, State.answered_of_shown (by rw [hsess]; exact hepoch) (by rw [hsess]; exact hseq) (by rw [hsess]; exact hmac)
      (by rw [hsess]; exact hkey) _ _ _, ?_⟩
    have hcore := (State.Talks.reply ((s.taken q).modSess q.sess (fun x => { x with mask := leAt b 0 4 % 16 })) q.sess 0x0005 q.seq stOk
      (bit q.flags 2) []).core q.sess
    rw [hsess] at hcore
    exact (congrArg Sess.mask hcore :)
  case acquire =>
    intro s q b i h hmask hmay hlo hhi hfree
    have hh := State.permitAcquire_of_free (s := s.taken q) (k := q.sess) hmask ((s.taken_mayHold q i).trans hmay) hlo hhi hfree
    have hexec : exec (.permitAcquire q b) s = .next (((s.taken q).grantPermit q.sess i (leAt b 16 2)).reply q.sess 0x0101 q.seq stOk
        (bit q.flags 2) (((s.taken q).grantPermit q.sess i (leAt b 16 2)).grantBody [i])) :=
      congrArg Host.Outcome.next (State.request_of_ok h (by decide) (by decide) hh)
    have hp := (State.Talks.reply ((s.taken q).grantPermit q.sess i (leAt b 16 2)) q.sess 0x0101 q.seq stOk (bit q.flags 2)
      (((s.taken q).grantPermit q.sess i (leAt b 16 2)).grantBody [i])).permit
    have hget := fun j : Nat => congrArg (SMap.get Permit.none j) hp
    refine ⟨_, hexec, (hget i).trans ((s.taken q).grantPermit_permit_same q.sess i _), ?_,
      fun j hj => (hget j).trans ((s.taken q).grantPermit_permit_ne q.sess hj _)⟩
    rw [State.grantBody_congr hp]
    exact State.answered_of_reply ((s.taken q).grantPermit_sess q.sess i _) _ _ _
  case busy =>
    intro s q b i j h hmask hmay hlo hhi hheld hj
    have hh := State.permitAcquire_of_held (s := s.taken q) (k := q.sess) hmask ((s.taken_mayHold q i).trans hmay) hlo hhi hheld hj
    have hexec : exec (.permitAcquire q b) s = _ :=
      congrArg Host.Outcome.next (State.request_of_refused h (by decide) (by decide) hh (by decide))
    exact ⟨_, hexec, (State.Talks.reply (s.taken q) q.sess _ _ _ _ _).permit, State.answered_of_reply rfl _ _ _⟩
  case renew =>
    intro s q b i h hmask hholds
    have hh := State.permitRenew_of_held (s := s.taken q) (k := q.sess) hmask hholds
    have hexec : exec (.permitRenew q b) s = .next (((s.taken q).useRenew [i]).reply q.sess 0x0102 q.seq stOk (bit q.flags 2)
        (((s.taken q).useRenew [i]).grantBody [i])) := congrArg Host.Outcome.next (State.request_of_ok h (by decide) (by decide) hh)
    have hheld : ((s.taken q).permit i).holder.isSome = true := by
      have hk : (s.permit i).holder = some q.sess := beq_iff_eq.1 hholds
      exact (congrArg Option.isSome hk).trans rfl
    have hpermit : ((s.taken q).useRenew [i]).permit i = { s.permit i with at_ := s.clk.tick } := by
      rw [State.useRenew_one hheld]
      exact State.permit_setPermit_same _ _ _
    have hgrant : ((s.taken q).useRenew [i]).grantBody [i] = s.grantBody [i] := by
      simp only [State.grantBody, List.flatMap_cons, List.flatMap_nil, hpermit]
    rw [hgrant] at hexec
    refine ⟨_, hexec, ?_, State.answered_of_reply ((s.taken q).useRenew_sess _) _ _ _⟩
    exact (congrArg (SMap.get Permit.none i) (State.Talks.reply _ _ _ _ _ _ _).permit).trans hpermit
  case release =>
    intro s q b i h hmask hholds
    have hh := State.permitRelease_of_held (s := s.taken q) (k := q.sess) hmask hholds
    have hexec : exec (.permitRelease q b) s =
        .next (((s.taken q).permitEnd i 1).reply q.sess 0x0103 q.seq stOk (bit q.flags 2) []) :=
      congrArg Host.Outcome.next (State.request_of_ok h (by decide) (by decide) hh)
    have hk : ((s.taken q).permit i).holder = some q.sess := beq_iff_eq.1 hholds
    obtain ⟨hpermit, hlost, hlog⟩ := State.permitEnd_of_held hk 1
    have ht := State.Talks.reply ((s.taken q).permitEnd i 1) q.sess 0x0103 q.seq stOk (bit q.flags 2) []
    obtain ⟨-, -, -, -, -, hlost', -⟩ := ht.fields q.sess
    exact ⟨_, hexec, congrArg Permit.holder ((congrArg (SMap.get Permit.none i) ht.permit).trans hpermit), hlost'.trans hlost,
      ht.evq.subset hlog⟩
  case take =>
    intro s q b i j h hmask h5 h6 hen hlo hhi hheld hj
    have hh := State.permitTake_of_held (s := s.taken q) (k := q.sess) hmask h5 h6 hen hlo hhi hheld hj
    have hk : ((s.taken q).permit i).holder = some j := hheld
    obtain ⟨hpermit, hlost, hlog⟩ := State.permitEnd_of_held hk 4
    have hboot := (State.Ends.permitEnd (s.taken q) i 4).boot
    generalize (s.taken q).permitEnd i 4 = u at hh hpermit hlost hlog hboot
    have hexec : exec (.permitTake q b) s = .next (u.takeAnswered q i (leAt b 16 2)) :=
      congrArg Host.Outcome.next (State.request_of_ok h (by decide) (by decide) hh)
    obtain ⟨hgrant, hlost', hsub⟩ := State.takeAnswered_of_granted u q i (leAt b 16 2) h5
    refine ⟨_, hexec, ?_, ?_, ?_, hsub hlog⟩
    · rw [hgrant]
    · rw [hgrant, hpermit, State.epochOf, hboot]
      rfl
    · rw [hlost', hlost]

end Sys2Proof.Machine

/-! PROOFS. The staging area (R401, R404, R425): an entry for what is staged already takes the earlier one's place, and a commit applies its
entries in staging order. -/

namespace Sys2Proof.Machine

variable {s u : State} {k : Fin 8} {q : Req} {b : List Byte} {c : Commit}

/-! Staging one entry. -/

theorem RawEntry.entry_names (e : RawEntry) (pe : Nat) : (e.entry pe).id = e.id ∧ (e.entry pe).inst = e.inst := by
  unfold RawEntry.entry
  split
  · exact ⟨rfl, rfl⟩
  · exact ⟨rfl, rfl⟩

/-- An entry for what is staged already takes the earlier one's place. -/
theorem stageOne_of_staged {l : List Entry} {e x : Entry} (hx : x ∈ l) (hid : x.id = e.id) (hinst : x.inst = e.inst) :
    stageOne l e = l.map (fun y => if y.id = e.id ∧ y.inst = e.inst then e else y) :=
  if_pos (List.any_eq_true.2 ⟨x, hx, by rw [hid, hinst, beq_self_eq_true, beq_self_eq_true]; rfl⟩)

/-- One for what is not yet staged goes to the end. -/
theorem stageOne_of_new {l : List Entry} {e : Entry} (h : ∀ x ∈ l, x.id ≠ e.id ∨ x.inst ≠ e.inst) : stageOne l e = l ++ [e] := by
  refine if_neg fun hany => ?_
  obtain ⟨x, hx, heq⟩ := List.any_eq_true.1 hany
  rw [Bool.and_eq_true, beq_iff_eq, beq_iff_eq] at heq
  exact (h x hx).elim (fun hid => hid heq.1) fun hinst => hinst heq.2

/-- The checks of an entry see what a request leaves as it was when it is taken. -/
theorem State.entryStatus_taken (s : State) (q : Req) (k : Fin 8) (pe : Nat) (e : RawEntry) :
    (s.taken q).entryStatus k pe e = s.entryStatus k pe e := by
  have hp : ∀ is, (s.taken q).permitsCheck k pe is = s.permitsCheck k pe is := by
    intro is
    induction is with
    | nil => rfl
    | cons i is ih =>
      cases is with
      | nil => rfl
      | cons j is =>
        simp only [State.permitsCheck, ih]
        rfl
  have he : ∀ p i v, (s.taken q).entryPermits p i v = s.entryPermits p i v := fun _ _ _ => rfl
  unfold State.entryStatus
  simp only [hp, he]

theorem State.firstFail_one (s : State) (k : Fin 8) (pe : Nat) (e : RawEntry) :
    s.firstFail k pe 0 [e] = if s.entryStatus k pe e = stOk then none else some (0, e, s.entryStatus k pe e) := rfl

/-- STAGE of one entry that passes its checks and for which there is room. -/
theorem State.stage_of_one {e : RawEntry} (hn : leAt b 0 2 = 1) (hraw : rawEntries 1 (b.drop 4) = some [e])
    (hpass : s.firstFail k q.pe 0 [e] = none) (hroom : (stageOne (s.sess k).staging (e.entry q.pe)).length ≤ 256) :
    s.stage k q b = ((s.useRenew (s.usedBy [e.entry q.pe])).modSess k (fun x => { x with
      staging := stageOne (s.sess k).staging (e.entry q.pe) }),
      some (stStaged, leBytes 2 (stageOne (s.sess k).staging (e.entry q.pe)).length ++ leBytes 2 0)) := by
  have hover : stageOverflow (s.sess k).staging 0 [e.entry q.pe] = none := if_neg (Nat.not_lt.2 hroom)
  simp [State.stage, hn, hraw, hpass, hover]

/-- An accepted STAGE of one entry leaves it in the staging area of its session. -/
theorem exec_stage_of_one {e : RawEntry} (h : s.accepted 0x0203 q b = true) (hn : leAt b 0 2 = 1)
    (hraw : rawEntries 1 (b.drop 4) = some [e]) (hpass : s.firstFail q.sess q.pe 0 [e] = none)
    (hroom : (stageOne (s.sess q.sess).staging (e.entry q.pe)).length ≤ 256) :
    ∃ t, exec (.stage q b) s = .next t ∧ (t.sess q.sess).staging = stageOne (s.sess q.sess).staging (e.entry q.pe) := by
  have hstaging : ((s.taken q).sess q.sess).staging = (s.sess q.sess).staging := by rw [s.taken_sess_same]
  have hpass' : (s.taken q).firstFail q.sess q.pe 0 [e] = none := by
    rw [State.firstFail_one, State.entryStatus_taken, ← State.firstFail_one]
    exact hpass
  have hstage := State.stage_of_one (s := s.taken q) (k := q.sess) hn hraw hpass' (by rw [hstaging]; exact hroom)
  rw [hstaging] at hstage
  have hexec : exec (.stage q b) s = _ := congrArg Host.Outcome.next (State.request_of_staged h (by decide) (by decide) hstage)
  obtain ⟨-, -, -, -, hreply, -⟩ := (State.Talks.reply (((s.taken q).useRenew ((s.taken q).usedBy [e.entry q.pe])).modSess q.sess
    (fun x => { x with staging := stageOne (s.sess q.sess).staging (e.entry q.pe) })) q.sess 0x0203 q.seq stStaged (bit q.flags 2)
    (leBytes 2 (stageOne (s.sess q.sess).staging (e.entry q.pe)).length ++ leBytes 2 0)).fields q.sess
  exact ⟨_, hexec, hreply.trans (congrArg Sess.staging (State.modSess_sess_same _ q.sess _))⟩

/-! A commit of the staging area. -/

/-- A COMMIT of staged entries is queued with them, in staging order (R402, R425). -/
theorem exec_commit_of_staged (h : s.accepted 0x0205 q b = true) (hne : (s.sess q.sess).staging ≠ []) :
    ∃ t, exec (.commit q b) s = .next t ∧ t.host.commits.getLast?.map (fun c => c.entries) = some (s.sess q.sess).staging := by
  have hstaging : ((s.taken q).sess q.sess).staging = (s.sess q.sess).staging := by rw [s.taken_sess_same]
  obtain ⟨e, es, hes⟩ := List.exists_cons_of_ne_nil hne
  have hh : (s.taken q).handle q.sess 0x0205 q b = (((s.taken q).useRenew (((s.taken q).usedBy (e :: es)).filter (fun i =>
      (s.taken q).holds q.sess i))).pushCommit q.sess 0x0205 q .staged (e :: es) [], none) := by
    show (s.taken q).commitStaged q.sess q = _
    rw [State.commitStaged, hstaging, hes]
  have hexec : exec (.commit q b) s = _ := congrArg Host.Outcome.next (State.request_of_later h (by decide) (by decide) hh)
  refine ⟨_, hexec, ?_⟩
  rw [hes]
  exact congrArg (Option.map (fun c : Commit => c.entries)) List.getLast?_concat

/-! A commit at its apply input (R404). -/

/-- COMMIT_APPLY of a staged commit whose caps are still granted. -/
theorem exec_commitApply_staged {cs : List Commit} (ha : s.hasActive = true) (hc : s.host.commits = c :: cs) (hst : c.stage = .committed)
    (hk : c.kind = .staged) (hpass : (s.applyCheck c).status = stOk) :
    exec .commitApply s = .next (s.commitPop.stamp.applyParams c) := by
  show execCommitApply s = _
  unfold execCommitApply
  rw [hc]
  dsimp only
  rw [if_neg (by rw [ha, hst]; decide), if_neg (not_not.2 hpass), hk]

theorem Entry.isK_iff {e : Entry} : e.isK = true ↔ ∃ p, findParam e.id = some p ∧ p.keeps = .K := by
  unfold Entry.isK
  split
  next h => exact ⟨nofun, fun ⟨p, hp, _⟩ => nomatch h.symm.trans hp⟩
  next p h => exact ⟨fun hk => ⟨p, h, beq_iff_eq.1 hk⟩, fun ⟨p', hp, hk⟩ => beq_iff_eq.2 (Option.some.inj (h.symm.trans hp) ▸ hk)⟩

theorem Entry.isCtl_iff {e : Entry} : e.isCtl = true ↔ ∃ p, findParam e.id = some p ∧ p.wo = true := by
  unfold Entry.isCtl
  split
  next h => exact ⟨nofun, fun ⟨p, hp, _⟩ => nomatch h.symm.trans hp⟩
  next p h => exact ⟨fun hk => ⟨p, h, hk⟩, fun ⟨p', hp, hk⟩ => Option.some.inj (h.symm.trans hp) ▸ hk⟩

/-- Neither a kept value nor a control acts among the values of an apply input. -/
theorem State.applyVal_of_kept_or_control {e : Entry} (h : e.isK = true ∨ e.isCtl = true) (s : State) : s.applyVal e = s := by
  obtain ⟨p, hp, hno⟩ : ∃ p, findParam e.id = some p ∧ (p.keeps = .K ∨ p.wo = true) := by
    obtain h | h := h
    · obtain ⟨p, hp, hk⟩ := Entry.isK_iff.1 h
      exact ⟨p, hp, .inl hk⟩
    · obtain ⟨p, hp, hw⟩ := Entry.isCtl_iff.1 h
      exact ⟨p, hp, .inr hw⟩
  rw [State.applyVal, hp]
  exact if_pos hno

theorem State.applyVals_of_kept_or_control {es : List Entry} (h : ∀ e ∈ es, e.isK = true ∨ e.isCtl = true) (s : State) :
    es.foldl (fun (t : State) e => t.applyVal e) s = s :=
  List.foldlRecOn (motive := fun t : State => t = s) es _ rfl fun t ht e he => (State.applyVal_of_kept_or_control (h e he) t).trans ht

/-- Controls alone meet no cap at their apply input. -/
theorem State.capFail_of_controls (s : State) (c : Commit) {es : List Entry} (h : ∀ e ∈ es, e.isCtl = true) (n : Nat) :
    (s.capFail c n es).status = stOk := by
  induction es generalizing n with
  | nil => rfl
  | cons e es ih =>
    have hid : e.id ≠ 0x2810 := by
      intro hcap
      obtain ⟨p, hp, hw⟩ := Entry.isCtl_iff.1 (h e List.mem_cons_self)
      rw [hcap, show findParam 0x2810 = some P.WEIR_CAP by decide] at hp
      exact absurd (Option.some.inj hp ▸ hw) (by decide)
    rw [State.capFail, if_neg fun hf => hid hf.1]
    exact ih (fun x hx => h x (List.mem_cons_of_mem _ hx)) (n + 1)

/-- A staged commit of kept entries writes an image unless it has none. -/
theorem Commit.entries_of_not_writes (hk : c.kind = .staged) (h : ∀ e ∈ c.entries, e.isK = true) (hw : c.writes ≠ true) : c.entries = [] := by
  rw [Commit.writes, hk] at hw
  exact List.eq_nil_iff_forall_not_mem.2 fun e he => hw (List.any_eq_true.2 ⟨e, he, h e he⟩)

/-- A commit of kept entries alone finds nothing in its way at its apply input: it has none, or is past its commit point. -/
theorem State.applyCheck_of_kept (hk : c.kind = .staged) (h : ∀ e ∈ c.entries, e.isK = true) : (s.applyCheck c).status = stOk := by
  unfold State.applyCheck
  rw [hk]
  dsimp only
  split
  · rfl
  next hw =>
    rw [Commit.entries_of_not_writes hk h hw]
    rfl

/-! What an apply input leaves beside its entries. -/

/-- The new values are in force once every consumer has taken them (R404). -/
theorem State.applyCfg_cfg (s : State) (new : SMap Int) : (s.applyCfg new).cfg = new := by
  unfold State.applyCfg
  extract_lets ks old s1 bank
  have h1 : s1.cfg = new := by
    have hk : Keeps 0x8133f5942 { old with cfg := new } s1 :=
      Keeps.foldl ks (Keeps.refl _ _) fun t i ht => State.afterPar_keeps _ _ ht fun _ hi => hi
    exact hk.frame .cfg (by decide)
  clear_value s1
  rw [(State.faultScan_keeps_rest _).frame .cfg (by decide)]
  split
  · have hk : Keeps 0x800010000 s1 s1.bankSendSet := State.bankSendSet_keeps (Keeps.refl _ s1) fun _ hi => hi
    exact (hk.frame .cfg (by decide) : s1.bankSendSet.cfg = s1.cfg).trans h1
  · exact h1

/-- The controls of a commit, in entry order (R404). -/
def State.ctlEntries (s : State) (c : Commit) : State := c.entries.foldl (fun (t : State) e => (t.ctlEntry c.sess true e).1) s

theorem State.ctlEntries_cfg (s : State) (c : Commit) : (s.ctlEntries c).cfg = s.cfg := by
  have hk : Keeps 0xe1fdddbd0 s (s.ctlEntries c) :=
    Keeps.foldl c.entries (Keeps.refl _ s) fun t e ht => State.ctlEntry_keeps c.sess true e ht fun _ hi => hi
  exact hk.frame .cfg (by decide)

/-- Behind its controls a commit clears the staging area it came from, is recorded and answered. -/
theorem State.applyParams_keeps_controls (hnoval : ∀ e ∈ c.entries, e.isK = true ∨ e.isCtl = true) (s : State) :
    Keeps (maskOf [.evq, .host, .passed])
      ((if c.writes then (s.applyCfg (s.commitCfg c)).rotCommit c else s.lastCommit c stOk).ctlEntries c) (s.applyParams c) := by
  unfold State.applyParams
  extract_lets n w s1 s2 s3 s4 s5 s6
  have h2 : s2 = s1 := State.applyVals_of_kept_or_control hnoval s1
  have h3 : s3 = s1.ctlEntries c := congrArg (State.ctlEntries · c) h2
  rw [show (if c.writes then (s.applyCfg (s.commitCfg c)).rotCommit c else s.lastCommit c stOk) = s1 from rfl, ← h3]
  clear_value s3
  have h4 : Keeps (maskOf [.evq, .host, .passed]) s3 s4 := by
    unfold s4
    split
    · exact State.modSess_keeps c.sess _ (Keeps.refl _ s3) (.ofParts (by decide))
    · exact Keeps.refl _ s3
  clear_value s4
  have h5 : Keeps (maskOf [.evq, .host, .passed]) s3 s5 := by
    unfold s5
    split
    · exact State.log_keeps _ _ _ h4 (.ofParts (by decide))
    · exact h4
  clear_value s5
  exact State.commitReply_keeps c stOk _ (State.log_keeps _ _ _ h5 (.ofParts (by decide))) (.ofParts (by decide))

/-- The values that a staged commit leaves in force, its entries set one after the other. -/
theorem State.commitCfg_of_staged (hk : c.kind = .staged) (s : State) :
    s.commitCfg c = c.entries.foldl (fun v e => newCfg v [e]) s.cfg := by
  rw [State.commitCfg, hk]
  rfl

/-- A staged commit of kept entries leaves the values that its entries set in order. -/
theorem State.applyParams_cfg (hk : c.kind = .staged) (hK : ∀ e ∈ c.entries, e.isK = true) (s : State) :
    (s.applyParams c).cfg = c.entries.foldl (fun v e => newCfg v [e]) s.cfg := by
  have hend := (State.applyParams_keeps_controls (fun e he => .inl (hK e he)) s).frame .cfg (by decide)
  refine hend.trans ((State.ctlEntries_cfg _ c).trans ?_)
  split
  · have hrot : Keeps 0x800 (s.applyCfg (s.commitCfg c)) ((s.applyCfg (s.commitCfg c)).rotCommit c) :=
      State.rotCommit_keeps c (Keeps.refl _ _) fun _ hi => hi
    refine Eq.trans (hrot.frame .cfg (by decide)) ?_
    rw [State.applyCfg_cfg, State.commitCfg_of_staged hk]
  next hw =>
    have hlast : Keeps 0x2000000 s (s.lastCommit c stOk) := State.lastCommit_keeps c stOk (Keeps.refl _ s) fun _ hi => hi
    rw [Commit.entries_of_not_writes hk hK hw]
    exact hlast.frame .cfg (by decide)

/-- Settles O52: staging by what is staged before, an apply input by the entries it carries. -/
theorem stagingOrder : Obligations.StagingOrder := by
  unfold Obligations.StagingOrder
  refine ⟨?replaces, ?appends, ?queued, ?kept, ?controls⟩
  case replaces =>
    intro s q b e i x h hn hraw hpass hx hid hinst hlen
    obtain ⟨heid, heinst⟩ := e.entry_names q.pe
    have hone := stageOne_of_staged (e := e.entry q.pe) (List.mem_of_getElem? hx) (hid.trans heid.symm) (hinst.trans heinst.symm)
    obtain ⟨t, ht, hstaged⟩ := exec_stage_of_one h hn hraw hpass (by rw [hone, List.length_map]; exact hlen)
    rw [hone] at hstaged
    refine ⟨t, ht, ?_, by rw [hstaged, List.length_map], fun y _ hy j hj => ?_⟩
    · rw [hstaged, List.getElem?_map, hx]
      exact congrArg some (if_pos ⟨hid.trans heid.symm, hinst.trans heinst.symm⟩)
    · rw [hstaged, List.getElem?_map, hj]
      exact congrArg some (if_neg fun heq => hy.elim (fun hne => hne (heq.1.trans heid)) fun hne => hne (heq.2.trans heinst))
  case appends =>
    intro s q b e h hn hraw hpass hnew hlen
    obtain ⟨heid, heinst⟩ := e.entry_names q.pe
    have hone := stageOne_of_new (e := e.entry q.pe) (l := (s.sess q.sess).staging) (by rw [heid, heinst]; exact hnew)
    obtain ⟨t, ht, hstaged⟩ := exec_stage_of_one h hn hraw hpass (by rw [hone, List.length_append]; exact hlen)
    exact ⟨t, ht, hstaged.trans hone⟩
  case queued => exact fun s q b h hne => exec_commit_of_staged h hne
  case kept =>
    exact fun s c cs ha hc hst hk hK =>
      ⟨_, exec_commitApply_staged ha hc hst hk (State.applyCheck_of_kept hk hK), State.applyParams_cfg hk hK _⟩
  case controls =>
    intro s c cs ha hc hst hk hctl
    have hw : c.writes = false := by
      rw [Commit.writes, hk]
      exact List.any_eq_false.2 fun e he => ne_true_of_eq_false (hctl e he).2
    have hpass : (s.applyCheck c).status = stOk := by
      unfold State.applyCheck
      rw [hk]
      dsimp only
      rw [if_neg (ne_true_of_eq_false hw)]
      exact s.capFail_of_controls c (fun e he => (hctl e he).1) 0
    have hend := State.applyParams_keeps_controls (fun e he => .inr (hctl e he).1) s.commitPop.stamp
    rw [if_neg (ne_true_of_eq_false hw)] at hend
    exact ⟨_, exec_commitApply_staged ha hc hst hk hpass, hend.frame .loop (by decide), hend.frame .bank (by decide),
      hend.frame .batt (by decide), hend.frame .timer (by decide), hend.frame .therm (by decide)⟩

end Sys2Proof.Machine
